-- ==== Sys2Proof/Word.lean ====
section
/-! DEFINITION. The word types of the part and the sparse table that holds a numbered set of like things. -/

namespace Sys2Proof

/-- R458: every register access is 32 bits. -/
abbrev Word := BitVec 32

/-- The smallest addressable unit of memory. -/
abbrev Byte := BitVec 8

/-- R6: a PTP time carried modulo 2^48. -/
abbrev T48 := BitVec 48

/-- A numbered set of like things: the entries that differ from the reset entry, by rising number. -/
abbrev Tbl (α : Type) := List (Nat × α)

end Sys2Proof
end

