-- ==== Sys2Proof/Syntax.lean ====
section
/-! DEFINITION. The commands of spec/opcode_table.json, one constructor each, and the operands they carry.
An operand is what the occurrence brings from outside the part (a register value, a frame, a measured time) or
what another standard computes (a parsed header, a trained link); notes/assumptions/6.md. -/

namespace Sys2Proof

/-- Who writes a register (R463, R478): WRITER, and the image's MAP_WRITE records of R334. -/
inductive Writer where
  | tack | bar0 | queue (q : Nat) | key (k : Nat) | image
  deriving DecidableEq, Repr

/-- R295, R415: the path that brought a command to a device from its host: a queue or an in-band key. -/
inductive SrcPath where
  | queue (q : Nat) | key (k : Nat)
  deriving DecidableEq, Repr

/-- R9: line n of frame f of raster k. -/
structure LinePos where
  raster : Nat
  frame : Nat
  line : Nat
  deriving DecidableEq, Repr

/-- R37: the format of a raster; `inUse` says that the image uses it; `hTotal` is the total
width, `syncStart` and `syncWidth` the sync of R173, `lineBytes` the bytes of an active line in ST 2110-20 (R178), `sampling` that of an ST 2110-20 output (0 RGB,
1 and 2 YCbCr 4:4:4 of BT.709 and BT.2020, 3 and 4 YCbCr 4:2:2 of the same) and `limited` its range. -/
structure RasterFmt where
  inUse : Bool := false
  num : Nat := 60
  den : Nat := 1
  la : Nat := 1
  lt : Nat := 2
  phase : Int := 0
  width : Nat := 0
  hTotal : Nat := 0
  lineBytes : Nat := 0
  sampling : Nat := 0
  limited : Bool := false
  syncStart : Nat := 0
  syncWidth : Nat := 0
  deriving DecidableEq, Repr

/-- R41: how an input frame's start is measured: the hardware timestamp of a DisplayPort sink, or an RTP timestamp
with the arrival time of the frame's first packet. -/
inductive FrameStamp where
  | dp (t : Nat)
  | rtp (ts : BitVec 32) (arrival : Nat)
  deriving DecidableEq, Repr

/-- A rectangle of tiles (R95, R65). -/
structure Rect where
  col : Nat
  row : Nat
  cols : Nat
  rows : Nat
  deriving DecidableEq, Repr

/-- The samples of a tile in raster order, plane by plane (R61). -/
structure Samples where
  y : List (BitVec 16)
  cb : List (BitVec 16)
  cr : List (BitVec 16)
  deriving DecidableEq, Repr, Inhabited

/-- R132, R146: a reference sample that a tile's decoding reads, the margin of the interpolation filter included: the
picture order count, the CTU row and the tile number. -/
structure RefRead where
  poc : BitVec 32
  row : Nat
  tile : Nat
  deriving DecidableEq, Repr

/-- What a decoding core makes of one tile of its task: its column, its samples (none for a sample outside the task, and for
one of a CTU that was not decoded, R148), what it reads of reference pictures, whether it has a coding unit that is neither
transquant bypass nor PCM without loop filter, and whether intra prediction or copy reads outside its slice (R139). -/
structure TileRes where
  col : Nat
  y : List (Option (BitVec 16))
  cb : List (Option (BitVec 16))
  cr : List (Option (BitVec 16))
  reads : List RefRead
  lossy : Bool := false
  strays : Bool := false
  deriving DecidableEq, Repr

/-- An error found by the decoder: the code of R148, the first CTU and the number of CTUs affected. -/
structure DecErr where
  code : Nat
  first : Nat
  count : Nat
  deriving DecidableEq, Repr

/-- R93, R97, R99, R102: an inter prediction block of a coding unit: its luma rectangle within the CTU, its motion vector in
quarter samples, and the best of the spatial predictors and the zero vector, around which the vector was searched. -/
structure InterPart where
  x : Nat
  y : Nat
  w : Nat
  h : Nat
  mv : Int × Int
  pred : Int × Int
  deriving DecidableEq, Repr

/-- R93: how a coding unit is predicted; an intra block copy has its block vector in samples. -/
inductive CuKind where
  | inter (parts : List InterPart)
  | intra
  | palette
  | copy (bv : Int × Int)
  deriving DecidableEq, Repr

/-- R91, R93, R96: a coding unit: its place and size within the CTU, its prediction, and the tools it uses:
cu_transquant_bypass, transform skip with the log2 of the largest block skipped, implicit RDPCM, cross-component prediction
the adaptive colour transform, and the sizes of its transform blocks. -/
structure CodingUnit where
  x : Nat
  y : Nat
  size : Nat
  kind : CuKind
  bypass : Bool
  skipLog : Nat
  rdpcm : Bool
  crossComp : Bool
  act : Bool
  transforms : List Nat := []
  deriving DecidableEq, Repr

/-- R90: a line of source samples, in the order R, G, B or Y, Cb, Cr. -/
structure SrcLine where
  a : List (BitVec 16)
  b : List (BitVec 16)
  c : List (BitVec 16)
  deriving DecidableEq, Repr

/-- R97: what an encoding core decides for one CTU of its row: its coding units at the row's QP, and its slice data when it is
coded as four PCM coding units. -/
structure CodedTile where
  units : List CodingUnit
  pcm : List (BitVec 8)
  deriving DecidableEq, Repr

/-- R111: what the entropy unit makes of a CTU in one form of its row: its slice data, and its samples after the loop
filters. -/
structure CtuRun where
  data : List (BitVec 8)
  recon : Samples
  deriving DecidableEq, Repr

/-- R111: one run of the entropy unit over a row: the stage, the value tiles kept, and what it makes of each CTU. -/
structure EntropyRun where
  stage : Nat
  kept : Nat
  ctus : List CtuRun
  deriving DecidableEq, Repr

/-- A coded row before it is fitted to the buffer model (R111): the source lines of the row with the one above it (none for
the first row), as captured; the decisions for its CTUs; and the runs of the entropy unit. -/
structure CodedRow where
  above : Option SrcLine
  lines : List SrcLine
  tiles : List CodedTile
  runs : List EntropyRun
  deriving DecidableEq, Repr

/-- R88: the profiles of encoded streams. -/
inductive EncProfile where
  | main444
  | screen444
  | main10
  deriving DecidableEq, Repr

/-- R88, R90, R91, R93, R108: what the parameter sets of an encoded stream say: profile, tier and level; the picture; matrix_coeffs
where the samples are GBR; the picture structure; the tools; the second tile column's first tile (R123); and hrd_parameters. -/
structure SeqParams where
  profile : EncProfile
  highTier : Bool
  level : Nat
  width : Nat
  height : Nat
  chroma : Nat
  depth : Nat
  gbr : Bool
  maxReorder : Nat
  maxDecBufferingMinus1 : Nat
  log2Ctb : Nat
  log2MinCb : Nat
  temporalMvp : Bool
  weightedPred : Bool
  entropySync : Bool
  transquantBypass : Bool
  log2MinTb : Nat
  log2MaxTb : Nat
  transformSkip : Bool
  pcmLog2 : Option Nat
  pcmDepth : Option Nat
  rdpcm : Bool
  crossComp : Bool
  palette : Bool
  copy : Bool
  act : Bool
  deblocking : Bool
  sao : Bool
  split : Option Nat
  subPicHrd : Bool
  duInPicTiming : Bool
  rate : Nat
  cpb : Nat
  cbr : Bool
  num : Nat
  den : Nat
  deriving DecidableEq, Repr

/-- R91, R92, R119: what the header of a slice segment says. -/
structure SliceHead where
  idr : Bool
  first : Bool
  dependent : Bool
  addr : Nat
  loopFilterAcross : Bool
  qp : Int
  deriving DecidableEq, Repr

/-- R54, R91, R94, R113: the NAL units of an encoded stream. `duInfo` gives how many spacings of R107 the removal of its row lies
before that of its access unit; `filler` its length in bytes. -/
inductive NalUnit where
  | vps (p : SeqParams)
  | sps (p : SeqParams)
  | pps (p : SeqParams)
  | bufferingPeriod (concatenation : Bool) (delayDeltaMinus1 : Nat) (rate cpb : Nat)
  | recoveryPoint (pocCnt : Nat) (exact broken : Bool)
  | duInfo (before : Nat)
  | slice (h : SliceHead) (data : List (BitVec 8))
  | ledger (segment : List (BitVec 8))
  | filler (n : Nat)
  | pictureHash (crcs : List (BitVec 16))
  deriving DecidableEq, Repr

/-- R121: a posted picture's bytes as they lie in host memory: plane by plane, with the pitches of luma and chroma. -/
structure RawPicture where
  pitch : Nat
  cpitch : Nat
  planes : List (BitVec 8)
  deriving DecidableEq, Repr

/-- A parsed slice segment header (R131): `layer` is nuh_layer_id; `addr` is the address of its first CTU and `ctus` the
number of its CTUs; `firstRow` to `lastRow` are the CTU rows and `tileCols` the HEVC tile columns that they occupy; `bytes`
are the bytes of the queue up to its end, `lead` those before its first one; `rps` the picture order counts of its
reference picture set, `outTime` the PTP time at which its picture is output; `gaps` the picture order counts of the frames
that a gap of H.264's frame_num skips, and `gapsOk` gaps_in_frame_num_value_allowed_flag (R156); `dependent` says that it is a
dependent slice segment, `forbidden` and `tidPlus1` are forbidden_zero_bit and nuh_temporal_id_plus1 of its NAL unit. -/
structure SliceInfo where
  layer : Nat
  newPic : Bool
  poc : BitVec 32
  irap : Bool
  rasl : Bool
  recovery : Option (BitVec 32)
  exact : Bool
  vps : Nat
  sps : Nat
  pps : Nat
  addr : Nat
  ctus : Nat
  firstRow : Nat
  lastRow : Nat
  tileCols : List Nat
  bytes : Nat
  lead : Nat
  outTime : Nat
  rps : List (BitVec 32)
  gaps : List (BitVec 32)
  gapsOk : Bool
  err : Option DecErr
  dependent : Bool := false
  forbidden : Bool := false
  tidPlus1 : Nat := 1
  deriving DecidableEq, Repr

/-- Profiles of HEVC (R125) and of H.264 (R128). -/
inductive Profile where
  | main | main10 | main444 | main444x10 | screen444x10 | baseline | avcMain | high
  deriving DecidableEq, Repr

/-- A parsed parameter set (R126, R128, R158): kind 0 VPS, 1 SPS, 2 PPS; `layer` is nuh_layer_id; `content` names everything
but the VUI, `vui` the VUI; `wellFormed` is the outcome of the syntax and range checks; `profiles` are those whose names the
set carries and whose constraint flags it meets, `level` ten times the level; `colour` are matrix_coeffs and
video_full_range_flag of the VUI; `dpb` is sps_max_dec_pic_buffering_minus1 + 1 and `reorder` the reorder depth that the set
gives, `maxDpb` MaxDpbFrames of the level; `rate` and `bitRate` are the pixel and bit rates that the stream declares;
`colW` and `rowH` are the widths and heights in CTUs of the HEVC tile columns and rows, one each without tiles. -/
structure ParamSet where
  kind : Nat
  id : Nat
  layer : Nat
  content : Nat
  vui : Nat
  colour : Option (Nat × Bool)
  wellFormed : Bool
  profiles : List Profile
  level : Nat
  width : Nat
  height : Nat
  chroma : Nat
  depth : Nat
  depthC : Nat
  ctu : Nat
  fieldSeq : Bool
  frameMbsOnly : Bool
  dpb : Nat
  reorder : Option Nat
  maxDpb : Nat
  rate : Nat
  bitRate : Nat
  colW : List Nat
  rowH : List Nat
  wpp : Bool
  deriving DecidableEq, Repr

/-- Where a parameter set change arrives (R158). -/
inductive AuKind where
  | irap | recovery | other | midPicture
  deriving DecidableEq, Repr

/-- What a DisplayPort source sends (R176): active size, sampling (0 RGB, 1 YCbCr 4:4:4 BT.709, 2 YCbCr 4:4:4 BT.2020,
3 any other), bits per component, limited range, and its frame rate. -/
structure MainStream where
  width : Nat
  height : Nat
  sampling : Nat
  depth : Nat
  limited : Bool
  num : Nat
  den : Nat
  deriving DecidableEq, Repr

/-- Power states of a core (R209). -/
inductive PState where
  | c0 | c1 | c2 | c3 | c4
  deriving DecidableEq, Repr

/-- What a core's DRAM read serves: the coding of its encode stream's row from the reference (R101), a tile of a decode or
check task (R146, R148), the side entry of such a tile (R237), or anything else. -/
inductive CoreUse where
  | reference | tile (task col : Nat) | side (task col : Nat) | other
  deriving DecidableEq, Repr

/-- Who makes a DRAM request (R218, R302). -/
inductive ReqSrc where
  | core (c : Nat) (use : CoreUse) | compositor | port | host | tack | scrub | fill
  deriving DecidableEq, Repr

/-- A DRAM requester and the partition it names (R218). -/
structure Requester where
  src : ReqSrc
  part : BitVec 3
  deriving DecidableEq, Repr

/-- R235: what lay on a fenced channel, as the image's layout of the pool gives it: value hold tiles by stream and tile
number, tiles of frame buffers by stream, descriptor and tile number, and encode streams with references there. -/
structure RemapLoss where
  hold : List (Nat × Nat)
  frames : List (Nat × Nat × Nat)
  encs : List Nat
  deriving DecidableEq, Repr

/-- The calibration slivers of R227; `drift` of a retrain says that the drift is within 1/16 UI again. -/
inductive Sliver where
  | zq (rank : Nat) | oscillator (rank : Nat) (drifted : Bool) | retrain (within : Bool)
  deriving DecidableEq, Repr

/-- Payload of a decode stream's packet (R254). -/
inductive PayKind where
  | single | aggregation | fragment (first last : Bool) | other
  deriving DecidableEq, Repr

/-- RTP header fields (R119, R250); `seqHi` is the extension and `line` the line of ST 2110-20, `pt` the payload type. -/
structure Rtp where
  ssrc : BitVec 32
  seq : BitVec 16
  seqHi : BitVec 16
  ts : BitVec 32
  marker : Bool
  kind : PayKind
  line : Nat
  pt : BitVec 7 := 0
  offset : Nat := 0
  body : List (BitVec 8) := []
  deriving DecidableEq, Repr

/-- An Ethernet frame as it arrives (R243): length from the destination MAC address through the FCS. -/
structure Frame where
  len : Nat
  fcsOk : Bool
  vid : Option (BitVec 12)
  ip : Bool
  ipv6 : Bool
  fragment : Bool
  hdrSumOk : Bool
  extHeader : Bool
  udp : Bool
  udpSumOk : Bool
  dst : BitVec 128
  src : BitVec 128
  dport : BitVec 16
  dscp : BitVec 6
  payload : Nat
  rtp : Option Rtp
  query : Bool
  deriving DecidableEq, Repr

/-- A received pause frame (R267): 802.3 PAUSE with one quanta, or PFC with quanta for the classes it names. -/
inductive PauseFrame where
  | pause (quanta : Nat)
  | pfc (quanta : List (Nat × Nat))
  deriving DecidableEq, Repr

/-- Requests for current tokens (R315). -/
inductive ReqKind where
  | wake | search | fill | training
  deriving DecidableEq, Repr

/-- Levels of R305, highest first. -/
inductive Level where
  | value | urgent | live | view | background
  deriving DecidableEq, Repr

/-- What SFDP declares of the flash (R323). -/
structure Sfdp where
  valid : Bool
  bytes : Nat
  erase4k : Bool
  /-- R323: the modes 8D-8D-8D, 1-4-4 and 1-1-4, in bits 0 to 2, that the device offers. -/
  modes : BitVec 3
  deriving DecidableEq, Repr

/-- The events of the manual's events tables (R390), chapter by chapter, in table order. -/
inductive EventId where
  | clockLocked | clockHoldover | clockRelocking | holdoverLimit | clockStep | inputState | lineEventLate
  | lineEventExpired | rasterRetimed
  | ledgerRecordError | tileSuspect | tileLost | ledgerTimesCleared | valueWindowStale | valueWindowClear
  | sweepRestarted | encodeSearchReduced | inputFrameFilled | inputFrameDropped | encodeRowsRepeated | rcArith
  | valueTileDeferred | videoRowHeld | encodeNondeterministic
  | decodeError | decodeRowLate | decodeSkipped | decodeJoined | dualUnavailable | paramSetChanged
  | cmpLineLate | dpLinkShort | dpLinkRetrained | inputFormatRefused | inputLinesMissing | outputGateChanged
  | ptnSwapDone
  | dramUncorrectable | dramCorrected | dramHot | dramScrubUrgent | dramPageRetired | dramRetireFull
  | dramChannelFenced
  | streamGap | stitchResync | stitchPath | stitchSkew | streamQuenched | ldlNobuf | ldlPointer | ageDiscard
  | runqUnread | portStalled | portStallCleared
  | hqQueueError | hostOutputDrop | hostOutputResumed | hqAuthFail | hqFlr
  | admissionDone | streamShed | streamRestored | workUrgent | blwDenied | blwSlow
  | imageFallback | imageSealed | imageWriteFailed | flashPowerWait | flashPageRejected | otpKeyRevoked
  | otpFloorRaised
  | modeChanged | linkLate | startComplete | adoptWaiting | deviceAdopted | twinReplaced | patchStarted | patchDone
  | patchFailed | deviceHalted
  | dmaBusError | tempWarn | supplyWarn | logLost | semBroken | tackWdogWarn | tackRestarted | tackHeld
  | faultCorrected | faultContained | fltWire | unitFenced | pairingChanged | twinLinkUp | twinLinkLost | twinLost
  | twinLeadLost | twinHandover | grtAuthFail | grtSideConflict | twinImageMismatch | twinStateDiverged
  | twinResynced | encodeVerified | encodeDiverged
  | bayThrottled | bayUnthrottled | pmbusError | regulatorFault
  deriving DecidableEq, Repr

/-- A detail item of an event (R389). -/
inductive Item where
  | w16 (v : BitVec 16) | w32 (v : BitVec 32) | w64 (v : BitVec 64)
  deriving DecidableEq, Repr

/-- An event as its block posts it: the partition concerned (none: the whole device), its detail items, and FORCED. -/
structure Ev where
  id : EventId
  part : Option Nat
  items : List Item
  forced : Option Bool := none
  deriving DecidableEq, Repr

/-- Header fields of a received Girth frame (R414); `crcOk` says that both CRCs are right. -/
structure GHdr where
  seq : BitVec 32
  ack : BitVec 32
  crcOk : Bool
  /-- R415: TYPE is one of the table's. -/
  known : Bool
  deriving DecidableEq, Repr

/-- R419: the payload of a heartbeat. -/
structure HeartbeatMsg where
  hbSeq : BitVec 32
  time : BitVec 64
  mode : BitVec 4
  role : BitVec 2
  clk : BitVec 3
  modeSeq : BitVec 16
  fenced : Bool
  shed : Bool
  txSeq : Tbl (BitVec 16)
  deriving DecidableEq, Repr

/-- R417: the content of IDENT with PHASE 0. -/
structure IdentInfo where
  key : List Byte
  side : Bool
  mode : BitVec 4
  role : BitVec 2
  step : BitVec 8
  imageId : BitVec 32
  imageVersion : BitVec 32
  decisions : List (BitVec 16)
  nonce : List Byte
  deriving DecidableEq, Repr

/-- R417: IDENT with PHASE 0, or with PHASE 1 and a signature. -/
inductive IdentMsg where
  | hello (i : IdentInfo)
  | proof (signature : List Byte)
  deriving DecidableEq, Repr

/-- R415: TIMING of one captured input frame. -/
structure Timing where
  raster : Nat
  frame : Nat
  sf : Nat
  clk : BitVec 2
  u : BitVec 32
  deriving DecidableEq, Repr

/-- R427: ENC_STATE, the encoder's state as it stands before picture `picCount`. -/
structure EncAdopt where
  picCount : BitVec 32
  sweepPos : Nat
  seq : BitVec 16
  full : Int
  qpPrev : Int
  bits8 : List Nat
  lastAttest : Option T48
  tb : Option T48
  deriving DecidableEq, Repr

/-- R428: the CRCs of one picture. -/
structure PicCrc where
  picCount : BitVec 32
  bs : BitVec 32
  ledger : BitVec 32
  deriving DecidableEq, Repr

/-- R415: PORT. -/
inductive PortMsg where
  | dp (n : Nat) (rate : BitVec 4) (lanes : BitVec 3) (drive : BitVec 32)
  | st2110 (raster frame : Nat) (seq : BitVec 32)
  deriving DecidableEq, Repr

/-- R415: a semaphore operation of the twin: an acquire, or a write of OP; and the reply to an acquire, with its RESULT. -/
inductive SemMsg where
  | acquire (n : Nat)
  | op (n : Nat) (v : BitVec 2)
  | reply (n : Nat) (result : BitVec 3)
  deriving DecidableEq, Repr

/-- R426: a mirrored transaction, abort or sweep restart. -/
inductive TxnMsg where
  | commit (t : Nat) (writes : List (Nat × Word)) (scope : Option Nat) (pos : LinePos)
  | abort (t : Nat)
  | restart (stream : Nat) (at_ : T48) (trigger : Nat)
  | identity (stream : Nat) (at_ : T48)
  deriving DecidableEq, Repr

/-- R426: one TILE_DELTA entry: stream, tile number, COND and T_ATT. -/
structure TileDelta where
  stream : Nat
  tile : Nat
  cond : BitVec 2
  tAtt : T48
  deriving DecidableEq, Repr

/-- R415: HOST_DATA. -/
inductive HostMsg where
  | picture (stream : Nat) (picTime : T48) (attest : Bool) (raw : RawPicture)
  | data (stream : Nat) (nal : List (BitVec 8)) (eoa : Bool)
  deriving DecidableEq, Repr

/-- Classes of R400, with "none" of R404. -/
inductive FaultClass where
  | none | corrected | contained | fatal
  deriving DecidableEq, Repr

/-- A report at the fault collector (R404); `aux` names the affected entry where the unit's row of R402 has entries. -/
structure Report where
  src : Nat
  cls : FaultClass
  aux : Nat
  deriving DecidableEq, Repr

/-- PMBus readings of a rail (R438). -/
structure RailRead where
  linear16 : Bool
  vout : BitVec 16
  iout : BitVec 16
  temp : BitVec 16
  status : BitVec 16
  deriving DecidableEq, Repr

/-- PLLs other than the root PLL (R443) and the root PLL itself. -/
inductive Pll where
  | root | bay (b : Nat) | ddr5 | ethernet | pcie | displayPort | girth
  deriving DecidableEq, Repr

/-- A supervisory datagram with the address and port of its sender (R294), or of the receiver of a reply (R295). -/
structure Datagram where
  sender : BitVec 128
  port : BitVec 16
  bytes : List Byte
  deriving DecidableEq, Repr

/-- What a host DMA is for: the command of a slot (R285), or the page in flight of an encode stream (R289). -/
inductive HostDma where
  | slot (n : Nat) | page (stream : Nat)
  deriving DecidableEq, Repr

/-- The slot or stream of a host DMA. -/
def HostDma.number : HostDma → Nat
  | .slot n | .page n => n

/-- R140, R160: what a check core gives as its task completes: tiles and errors. -/
structure CheckResult where
  tiles : List TileRes
  errs : List DecErr
  deriving DecidableEq, Repr

/-- R217, R218: a read of a line; `flips` is what the devices give wrong of it, by lane and beat of its burst. -/
structure LineRead where
  addr : Nat
  flips : List (Nat × Nat)
  deriving DecidableEq, Repr

/-- R121, R285: the slot of an ENC_POST, and what its DMA reads of host memory. -/
structure PostDma where
  slot : Nat
  planes : List (BitVec 8)
  deriving DecidableEq, Repr

/-- R282: the slot of a command that reads device memory back; `bad`: a read met an outcome that R282 names. -/
structure ReadBack where
  slot : Nat
  bad : Bool
  deriving DecidableEq, Repr

/-- R435: the straps that reset release samples. -/
structure Straps where
  side : Bool
  vsel : Bool
  deriving DecidableEq, Repr

/-- The commands: one constructor for each row of spec/opcode_table.json. -/
inductive Instr where
  /-- SYNC_MESSAGE (R34). -/
  | syncMessage (e : Int)
  /-- GRANDMASTER_ACCEPTED (R34). -/
  | grandmasterAccepted (port : BitVec 2) (e : Int)
  /-- ANNOUNCE_TIMEOUT (R32). -/
  | announceTimeout
  /-- HOLDOVER_LIMIT (R33). -/
  | holdoverLimit
  /-- LINE_START (R46). -/
  | lineStart (ps : List LinePos)
  /-- LINE_EVENT_ARM (R47). -/
  | lineEventArm (w : Writer) (e : Nat) (v : Word)
  /-- LINE_EVENT_DISARM (R47). -/
  | lineEventDisarm (w : Writer) (e : Nat) (v : Word)
  /-- INPUT_FRAME_START (R41). -/
  | inputFrameStart (k : Nat) (t : FrameStamp) (fmtSeen : Bool)
  /-- INPUT_SIGNAL_TIMEOUT (R42). -/
  | inputSignalTimeout (k : Nat)
  /-- RASTER_REALIGN (R51). -/
  | rasterRealign (k : Nat)
  /-- RASTER_RETIMED (R52). -/
  | rasterRetimed (k : Nat) (fmt : RasterFmt)
  /-- RETIMING_END (R180). -/
  | retimingEnd (k : Nat)
  /-- ENCODE_SELF_RELEASE (R104). -/
  | encodeSelfRelease (s : Nat)
  /-- ENCODE_ROW_ISSUE (R103). -/
  | encodeRowIssue (s core : Nat)
  /-- ENCODE_ROW_COMPLETE (R111). -/
  | encodeRowComplete (s : Nat) (r : CodedRow)
  /-- HOSTFED_FRAME_START (R122). -/
  | hostfedFrameStart (s : Nat)
  /-- SLICE_HEADER_PARSE (R131). -/
  | sliceHeaderParse (s : Nat) (i : SliceInfo)
  /-- PARAM_SET_RECEIVED (R158). -/
  | paramSetReceived (s : Nat) (p : ParamSet) (au : AuKind)
  /-- LEDGER_SEGMENT (R59). -/
  | ledgerSegment (s payloadSize : Nat) (bytes : List Byte)
  /-- ACCESS_UNIT_END (R59). -/
  | accessUnitEnd (s : Nat)
  /-- DECODE_TASK_ISSUE (R14). -/
  | decodeTaskIssue (bay core : Nat)
  /-- DECODE_ROW_COMPLETE (R140). -/
  | decodeRowComplete (task : Nat) (res : List TileRes) (errs : List DecErr)
  /-- CHECK_TASK_COMPLETE (R140). -/
  | checkTaskComplete (task : Nat) (res : CheckResult)
  /-- DECODE_ROW_LATE (R154). -/
  | decodeRowLate (task : Nat)
  /-- DECODE_SKIPPED (R155): `n` access units are discarded. -/
  | decodeSkipped (s n : Nat)
  /-- STREAM_START (R157). -/
  | streamStart (slot : Nat)
  /-- STREAM_REJOIN (R157). -/
  | streamRejoin (slot : Nat)
  /-- OUTPUT_LINE_FETCH (R171). -/
  | outputLineFetch (p : LinePos)
  /-- CMP_LINE_LATE (R172). -/
  | cmpLineLate (w : Nat) (p : LinePos)
  /-- TILE_STATE_VISIT (R71). -/
  | tileStateVisit (first count : Nat)
  /-- TILE_STATE_FILL (R72). -/
  | tileStateFill (s : Nat)
  /-- DP_LINK_TRAIN (R174). -/
  | dpLinkTrain (n : Nat) (links : List (BitVec 4 × BitVec 3))
  /-- DP_HPD_IRQ (R182). -/
  | dpHpdIrq (n : Nat) (links : List (BitVec 4 × BitVec 3))
  /-- DP_SINK_LINK_TRAIN (R176). -/
  | dpSinkLinkTrain (n : Nat) (rate : BitVec 4) (lanes : BitVec 3) (m : MainStream)
  /-- DP_HPD_PULSE_END (R176). -/
  | dpHpdPulseEnd (n : Nat)
  /-- MICROWORD_ISSUE (R189). -/
  | microwordIssue (c : Nat)
  /-- FILL_DONE (R191). -/
  | fillDone (c : Nat)
  /-- DRAIN_DONE (R191). -/
  | drainDone (c : Nat)
  /-- BANK_RELOAD_DONE (R204). -/
  | bankReloadDone (c : Nat) (ue : Bool)
  /-- UNIT_DONE (R193). -/
  | unitDone (c : Nat) (u : BitVec 3) (status info : BitVec 4)
  /-- EXTERNAL_EVENT (R193). -/
  | externalEvent (c ev : Nat)
  /-- DEADLOCK (R202). -/
  | deadlock (c : Nat)
  /-- CORE_C1_ENTRY (R210). -/
  | coreC1Entry (c : Nat)
  /-- CORE_POWER_DOWN (R210). -/
  | corePowerDown (c : Nat) (p : PState)
  /-- CORE_WAKE (R210). -/
  | coreWake (c : Nat)
  /-- CORE_WAKE_DONE (R209). -/
  | coreWakeDone (c : Nat)
  /-- PTN_SWAP (R206). -/
  | ptnSwap (c : Nat)
  /-- CORE_DRAINED (R207). -/
  | coreDrained (c : Nat)
  /-- PATTERN_STORE_WRITE (R477). -/
  | patternStoreWrite (w : Writer) (c : Nat) (bankB : Bool) (a : BitVec 13) (v : BitVec 160)
  /-- COR_FAULT_CLEAR (R462). -/
  | corFaultClear (c : Nat) (v : Word)
  /-- DRAM_READ (R218). -/
  | dramRead (r : Requester) (x : LineRead)
  /-- DRAM_WRITE (R219). -/
  | dramWrite (r : Requester) (addr : Nat) (data : BitVec 512)
  /-- NARROW_WRITE (R220). -/
  | narrowWrite (r : Requester) (addr : Nat) (bytes : List (Option Byte))
  /-- MERGE_FLUSH (R221). -/
  | mergeFlush (ch line : Nat)
  /-- REFRESH (R222). -/
  | refresh (ch : Nat)
  /-- MR4_POLL (R223). -/
  | mr4Poll (ch : Nat) (hot : List Bool)
  /-- RANK_POWER_DOWN (R225). -/
  | rankPowerDown (ch rank : Nat)
  /-- DRAM_TRAINING (R226). -/
  | dramTraining (ch : Nat) (ok : Bool)
  /-- CALIBRATION_SLIVER (R227). -/
  | calibrationSliver (ch : Nat) (k : Sliver)
  /-- HARDWARE_FILL (R228). -/
  | hardwareFill (ch : Nat)
  /-- SCRUB_LINE (R229). -/
  | scrubLine (ch : Nat)
  /-- DRAM_SCRUB_URGENT (R230). -/
  | dramScrubUrgent (ch : Nat)
  /-- DRM_ERRQ_RETIRE (R231). -/
  | drmErrqRetire (ch : Nat) (v : Word)
  /-- DRAM_PAGE_RETIRED (R232). -/
  | dramPageRetired (ch block : Nat)
  /-- DRAM_CHANNEL_FENCED (R233). -/
  | dramChannelFenced (ch cause : Nat)
  /-- REMAP_FILL (R235). -/
  | remapFill (ch : Nat) (loss : RemapLoss)
  /-- FRAME_RECEIVED (R244). -/
  | frameReceived (port : Nat) (f : Frame)
  /-- PAUSE_RECEIVED (R267). -/
  | pauseReceived (port : Nat) (f : PauseFrame)
  /-- PAUSE_TIMER_EXPIRY (R267). -/
  | pauseTimerExpiry (port cls : Nat)
  /-- PORT_STALLED (R268). -/
  | portStalled (port cls : Nat)
  /-- PORT_STALL_CLEARED (R268). -/
  | portStallCleared (port cls : Nat)
  /-- PACKET_SWITCH (R242). -/
  | packetSwitch (q : Nat)
  /-- STITCHER_PACKET (R250). -/
  | stitcherPacket (ctx : Nat)
  /-- STITCH_HOLD_EXPIRY (R251). -/
  | stitchHoldExpiry (ctx : Nat)
  /-- STITCH_PATH (R252). -/
  | stitchPath (ctx : Nat) (b : Bool)
  /-- RUNQ_UNREAD (R261). -/
  | runqUnread (q : Nat)
  /-- PFC_REFRESH (R262). -/
  | pfcRefresh (port : Nat)
  /-- EGRESS_SELECT (R263). -/
  | egressSelect (port : Nat)
  /-- STATS_INTERVAL (R270). -/
  | statsInterval
  /-- ETH_LINK_CHANGE (R243). -/
  | ethLinkChange (port : Nat) (up : Bool)
  /-- QUENCH_PIN (R249). -/
  | quenchPin (low : Bool)
  /-- HQ_DOORBELL (R277). -/
  | hqDoorbell (fn q : Nat) (cq : Bool) (v : Word)
  /-- QUEUE_POLL (R277). -/
  | queuePoll (q : Nat) (shadow : BitVec 64)
  /-- COMMAND_FETCH (R278). -/
  | commandFetch (q : Nat) (entry : List Word)
  /-- COMMAND_COMPLETE (R281). -/
  | commandComplete (slot : Nat)
  /-- CREATE_QUEUE (R275). -/
  | createQueue (slot : Nat)
  /-- DELETE_QUEUE (R276). -/
  | deleteQueue (slot : Nat)
  /-- IDENTIFY (R283). -/
  | identify (slot : Nat)
  /-- GET_LOG (R392). -/
  | getLog (slot : Nat)
  /-- SET_EVENTS (R293). -/
  | setEvents (slot : Nat)
  /-- REG_READ (R283). -/
  | regRead (slot : Nat)
  /-- REG_WRITE (R283). -/
  | regWrite (slot : Nat)
  /-- TXN_BEGIN (R468). -/
  | txnBegin (slot : Nat)
  /-- TXN_COMMIT (R470). -/
  | txnCommit (slot : Nat)
  /-- TXN_ABORT (R473). -/
  | txnAbort (slot : Nat)
  /-- STREAM_QUENCH (R249). -/
  | streamQuench (slot : Nat)
  /-- STREAM_UNQUENCH (R249). -/
  | streamUnquench (slot : Nat)
  /-- SWEEP_RESTART (R101). -/
  | sweepRestart (slot : Nat)
  /-- OUTPUT_SET (R182). -/
  | outputSet (slot : Nat)
  /-- IMAGE_WRITE (R345). -/
  | imageWrite (slot : Nat) (data : List Byte)
  /-- PATCH (R363). -/
  | patch (slot : Nat)
  /-- CTX_READ (R283). -/
  | ctxRead (slot : Nat)
  /-- ENC_POST (R285). -/
  | encPost (x : PostDma)
  /-- DEC_POST (R286). -/
  | decPost (slot : Nat) (lengths : List Nat)
  /-- HOST_DMA_DONE (R285). -/
  | hostDmaDone (dma : HostDma) (ok : Bool)
  /-- FRAME_READ (R283). -/
  | frameRead (x : ReadBack)
  /-- LEDGER_READ (R283). -/
  | ledgerRead (x : ReadBack)
  /-- PAGE_POST (R288). -/
  | pagePost (q : Nat) (entry : List Word)
  /-- PAGE_FLUSH_TIMEOUT (R289). -/
  | pageFlushTimeout (s : Nat)
  /-- FUNCTION_LEVEL_RESET (R291). -/
  | functionLevelReset (fn : Nat)
  /-- SUPERVISORY_MESSAGE (R295). -/
  | supervisoryMessage (m : Datagram)
  /-- ADMISSION (R310). -/
  | admission
  /-- STARVATION_STEP (R306). -/
  | starvationStep (work : Nat)
  /-- URGENT_CAP_WINDOW (R307). -/
  | urgentCapWindow (work : Nat)
  /-- BELLOWS_REQUEST (R317). -/
  | bellowsRequest (rail : Nat) (k : ReqKind) (lv : Level) (requester : Nat)
  /-- BELLOWS_GRANT (R316). -/
  | bellowsGrant (rail : Nat)
  /-- BELLOWS_RELEASE (R320). -/
  | bellowsRelease (rail : Nat) (k : ReqKind) (requester : Nat)
  /-- BELLOWS_DENY (R318). -/
  | bellowsDeny (rail requester : Nat)
  /-- BLW_SLOW (R318). -/
  | blwSlow (rail core : Nat)
  /-- RESET_RELEASE (R435). -/
  | resetRelease (x : Straps)
  /-- RESET_ASSERT (R435). -/
  | resetAssert
  /-- POWER_ON_RESET (R435). -/
  | powerOnReset
  /-- IMAGE_LOAD (R339). -/
  | imageLoad (f : Sfdp)
  /-- SIGNATURE_CHECK (R337). -/
  | signatureCheck
  /-- IDENTITY (R330). -/
  | identity
  /-- PLATFORM (R330). -/
  | platform
  /-- TACK_FW (R331). -/
  | tackFw
  /-- KEYS (R332). -/
  | keys
  /-- PATTERN (R333). -/
  | pattern
  /-- MAP_WRITE (R334). -/
  | mapWrite
  /-- BUDGET (R329). -/
  | budget
  /-- END_RECORD (R329). -/
  | endRecord
  /-- LOAD_DONE (R356). -/
  | loadDone
  /-- TRAIN_END (R357). -/
  | trainEnd (late : List Nat)
  /-- TWIN_WAIT_EXPIRY (R361). -/
  | twinWaitExpiry
  /-- ADOPT_CONFIRM (R368). -/
  | adoptConfirm (v : Word)
  /-- DEVICE_ADOPTED (R360). -/
  | deviceAdopted
  /-- REQ_REST (R362). -/
  | reqRest (w : Writer) (v : Word)
  /-- REQ_WAKE (R368). -/
  | reqWake (w : Writer) (v : Word)
  /-- REQ_DEMOTE (R366). -/
  | reqDemote (w : Writer) (v : Word)
  /-- WAKE_PIN (R362). -/
  | wakePin
  /-- REST_EXIT_DONE (R362). -/
  | restExitDone
  /-- TACK_FW_READY (R364). -/
  | tackFwReady
  /-- PATCH_FAILED (R365). -/
  | patchFailed
  /-- OTP_FUSE_BLOW (R338). -/
  | otpFuseBlow
  /-- FLASH_OP_DONE (R344). -/
  | flashOpDone
  /-- PWR_HOLD_CHANGE (R343). -/
  | pwrHoldChange (high : Bool)
  /-- FLASH_POWER_WAIT (R347). -/
  | flashPowerWait
  /-- IRC_CLAIM (R373). -/
  | ircClaim
  /-- IRC_EOI (R374). -/
  | ircEoi (v : Word)
  /-- IRC_BLK_ACK (R377). -/
  | ircBlkAck (v : Word)
  /-- TACK_RESTARTED (R371). -/
  | tackRestarted (cause : Nat)
  /-- DMA_CHANNEL_START (R378). -/
  | dmaChannelStart (k : Nat)
  /-- DMA_COMPLETE (R379). -/
  | dmaComplete
  /-- DMA_BUS_ERROR (R380). -/
  | dmaBusError (k : Nat) (addr : Word)
  /-- DMA_DISABLE (R381). -/
  | dmaDisable (k : Nat)
  /-- DMA_ENABLE (R380). -/
  | dmaEnable (k : Nat)
  /-- TIMER_EXPIRY (R383). -/
  | timerExpiry (j : Nat)
  /-- TIMER_ACK (R383). -/
  | timerAck (j : Nat)
  /-- UART_RX_CHAR (R385). -/
  | uartRxChar (bits : List (Bool × Bool × Bool))
  /-- UART_BREAK (R385). -/
  | uartBreak
  /-- UART_RX_READ (R386). -/
  | uartRxRead
  /-- UART_TX_WRITE (R386). -/
  | uartTxWrite (v : Word)
  /-- UART_TX_CHAR_DONE (R384). -/
  | uartTxCharDone
  /-- UART_STATUS_CLEAR (R462). -/
  | uartStatusClear (v : Word)
  /-- SENSOR_SAMPLE (R387). -/
  | sensorSample (temps volts : List Int)
  /-- EVENT_POST (R388). -/
  | eventPost (e : Ev)
  /-- LOG_WRITER_MOVE (R388). -/
  | logWriterMove
  /-- LOG_FLUSH (R391). -/
  | logFlush
  /-- SEM_ACQUIRE (R395). -/
  | semAcquire (n : Nat) (x : BitVec 9)
  /-- SEM_RELEASE (R395). -/
  | semRelease (n : Nat) (x : BitVec 9)
  /-- SEM_RECOVERED (R395). -/
  | semRecovered (n : Nat) (x : BitVec 9)
  /-- SEM_BREAK (R395). -/
  | semBreak (n : Nat) (x : BitVec 9)
  /-- SEM_STATE_READ (R396). -/
  | semStateRead (n : Nat)
  /-- WATCHDOG_KICK (R398). -/
  | watchdogKick (v : Word)
  /-- TACK_WDOG_WARN (R398). -/
  | tackWdogWarn
  /-- WATCHDOG_SECOND_EXPIRY (R398). -/
  | watchdogSecondExpiry
  /-- FAULT_REPORT (R406). -/
  | faultReport (rs : List Report)
  /-- RELOAD_DONE (R401). -/
  | reloadDone (src : Nat)
  /-- WIRE_CHECK (R405). -/
  | wireCheck (src : Nat) (ok : Bool)
  /-- WIRE_CODE_INVALID (R404). -/
  | wireCodeInvalid (src : Nat)
  /-- FAULT_FORCE (R407). -/
  | faultForce (w : Writer) (src : Nat) (v : Word)
  /-- FLT_STAT_CLEAR (R462). -/
  | fltStatClear (v : Word)
  /-- GIRTH_LINK_TRAINED (R413). -/
  | girthLinkTrained
  /-- HEARTBEAT_TICK (R419). -/
  | heartbeatTick
  /-- HEARTBEAT (R419). -/
  | heartbeat (h : GHdr) (m : HeartbeatMsg)
  /-- HANDOVER (R425). -/
  | handover (h : GHdr) (demote : Bool)
  /-- IDENT (R417). -/
  | ident (h : GHdr) (m : IdentMsg)
  /-- TIMING (R117). -/
  | timing (h : GHdr) (m : List Timing)
  /-- ENC_STATE (R427). -/
  | encState (h : GHdr) (s : Nat) (m : EncAdopt)
  /-- PIC_CRC (R428). -/
  | picCrc (h : GHdr) (s : Nat) (m : PicCrc)
  /-- PIC_CRC_TIMEOUT (R428). -/
  | picCrcTimeout (s : Nat) (picCount : BitVec 32)
  /-- PORT (R415). -/
  | port (h : GHdr) (m : PortMsg)
  /-- COMMAND (R426). -/
  | command (h : GHdr) (p : SrcPath) (entry : List Word)
  /-- TXN (R426). -/
  | txn (h : GHdr) (m : TxnMsg)
  /-- SEM (R415). -/
  | sem (h : GHdr) (m : SemMsg)
  /-- SNAPSHOT (R427). -/
  | snapshot (h : GHdr) (m : List (Nat × Word)) (last : Bool)
  /-- TILE_DELTA (R426). -/
  | tileDelta (h : GHdr) (m : List TileDelta)
  /-- HOST_DATA (R415). -/
  | hostData (h : GHdr) (m : HostMsg)
  /-- ACK (R416). -/
  | ack (h : GHdr)
  /-- GIRTH_RETRANSMIT (R416). -/
  | girthRetransmit
  /-- DELTA_DROP (R416). -/
  | deltaDrop
  /-- GIRTH_SILENCE (R416). -/
  | girthSilence
  /-- GIRTH_LOCK_LOSS (R416). -/
  | girthLockLoss
  /-- IDENT_RETRY (R417). -/
  | identRetry
  /-- OWN_HEARTBEAT_TIMEOUT (R420). -/
  | ownHeartbeatTimeout
  /-- PEER_FAULT_EDGE (R421). -/
  | peerFaultEdge (low : Bool)
  /-- PEER_OWN_EDGE (R421). -/
  | peerOwnEdge (high : Bool)
  /-- PMBUS_POLL (R438); none where the read failed. -/
  | pmbusPoll (rail : Nat) (r : Option RailRead)
  /-- PMBUS_SET_POINT (R438). -/
  | pmbusSetPoint (rail : Nat) (mv : BitVec 16) (ack : Bool)
  /-- PMBUS_CONFIRM (R438). -/
  | pmbusConfirm (rail : Nat) (mv : BitVec 16)
  /-- SUPPLY_COMPARATOR_TRIP (R436); rails are numbered from 0 in the order of R433's table. -/
  | supplyComparatorTrip (rail : Nat)
  /-- THERMAL_TRIP (R447). -/
  | thermalTrip
  /-- THERMAL_CHECK (R446). -/
  | thermalCheck
  /-- THROTTLE_STEP_UP (R446). -/
  | throttleStepUp (b : Nat)
  /-- BAY_CLOCK_CHANGE (R440). -/
  | bayClockChange (b : Nat)
  /-- SYS_CLK_LOSS (R444). -/
  | sysClkLoss
  /-- PLL_LOCK_LOSS (R443). -/
  | pllLockLoss (p : Pll)
  /-- REGISTER_WRITE (R463). -/
  | registerWrite (w : Writer) (addr : Nat) (v : Word) (whole : Bool)
  /-- TXN_OP_BEGIN (R468). -/
  | txnOpBegin (w : Writer) (t : Nat)
  /-- TXN_OP_COMMIT (R470). -/
  | txnOpCommit (w : Writer) (t : Nat)
  /-- TXN_OP_ABORT (R473). -/
  | txnOpAbort (w : Writer) (t : Nat)
  /-- TXN_WDATA (R469). -/
  | txnWdata (w : Writer) (t : Nat) (v : Word)
  /-- TXN_TIMEOUT (R473). -/
  | txnTimeout (t : Nat)
  /-- GLB_WERR_CLEAR (R462). -/
  | glbWerrClear (v : Word)
  /-- DPI_REASON_CLEAR (R177). -/
  | dpiReasonClear (n : Nat) (v : Word)
  /-- DPO_HPD_CHANGE (R174). -/
  | dpoHpdChange (n : Nat) (high : Bool)
  /-- DPI_LINK_DOWN (R177). -/
  | dpiLinkDown (n : Nat)
  /-- PCIE_LINK_CHANGE (R377). -/
  | pcieLinkChange (st : Nat) (aer : Bool)
  deriving DecidableEq, Repr

end Sys2Proof
end

