-- ==== Sys2Proof/WellFormed.lean ====
section
/-! DEFINITION. The ranges of the identifiers that a command names (R8, R11, and the sizes of the tables). -/

namespace Sys2Proof

/-- R8: the raster of a position is one of the 28. -/
def LinePos.wellFormed (p : LinePos) : Bool := decide (p.raster < 28)

/-- R11, R332: a queue is 0 to 1,024, and a key 0 to 7. -/
def Writer.wellFormed : Writer → Bool
  | .queue q => decide (q < 1025)
  | .key k => decide (k < 8)
  | .tack | .bar0 | .image => true

/-- R11: every identifier that the command names is in its range; a submission entry is 16 words (R280). -/
def Instr.wellFormed : Instr → Bool
  | .syncMessage _ => true
  | .grandmasterAccepted _ _ => true
  | .announceTimeout => true
  | .holdoverLimit => true
  | .lineStart ps => ps.all LinePos.wellFormed
  | .lineEventArm w e _ => w.wellFormed && decide (e < 1024)
  | .lineEventDisarm w e _ => w.wellFormed && decide (e < 1024)
  | .inputFrameStart k _ _ => decide (16 ≤ k) && decide (k < 28)
  | .inputSignalTimeout k => decide (16 ≤ k) && decide (k < 28)
  | .rasterRealign k => decide (k < 28)
  | .rasterRetimed k _ => decide (k < 28)
  | .retimingEnd k => decide (k < 28)
  | .encodeSelfRelease s => decide (s < 256)
  | .encodeRowIssue s core => decide (s < 256) && decide (core < 32)
  | .encodeRowComplete s _ => decide (s < 256)
  | .hostfedFrameStart s => decide (s < 256)
  | .sliceHeaderParse s _ => decide (s < 256)
  | .paramSetReceived s _ _ => decide (s < 256)
  | .ledgerSegment s _ _ => decide (s < 256)
  | .accessUnitEnd s => decide (s < 256)
  | .decodeTaskIssue bay core => decide (bay < 4) && decide (core < 32)
  | .decodeRowComplete _ _ _ => true
  | .checkTaskComplete _ _ => true
  | .decodeRowLate _ => true
  | .decodeSkipped s _ => decide (s < 256)
  | .streamStart slot => decide (slot < 256)
  | .streamRejoin slot => decide (slot < 256)
  | .outputLineFetch p => p.wellFormed
  | .cmpLineLate w p => decide (w < 512) && p.wellFormed
  | .tileStateVisit _ _ => true
  | .tileStateFill s => decide (s < 256)
  | .dpLinkTrain n _ => decide (n < 8)
  | .dpHpdIrq n _ => decide (n < 8)
  | .dpSinkLinkTrain n _ _ _ => decide (n < 4)
  | .dpHpdPulseEnd n => decide (n < 4)
  | .microwordIssue c => decide (c < 32)
  | .fillDone c => decide (c < 32)
  | .drainDone c => decide (c < 32)
  | .bankReloadDone c _ => decide (c < 32)
  | .unitDone c _ _ _ => decide (c < 32)
  | .externalEvent c ev => decide (c < 32) && decide (ev < 64)
  | .deadlock c => decide (c < 32)
  | .coreC1Entry c => decide (c < 32)
  | .corePowerDown c _ => decide (c < 32)
  | .coreWake c => decide (c < 32)
  | .coreWakeDone c => decide (c < 32)
  | .ptnSwap c => decide (c < 32)
  | .coreDrained c => decide (c < 32)
  | .patternStoreWrite w c _ _ _ => w.wellFormed && decide (c < 32)
  | .corFaultClear c _ => decide (c < 32)
  | .dramRead _ x => x.flips.all (fun p => decide (p.1 < 16) && decide (p.2 < 40))
  | .dramWrite _ _ _ => true
  | .narrowWrite _ _ _ => true
  | .mergeFlush ch _ => decide (ch < 12)
  | .refresh ch => decide (ch < 12)
  | .mr4Poll ch _ => decide (ch < 12)
  | .rankPowerDown ch rank => decide (ch < 12) && decide (rank < 2)
  | .dramTraining ch _ => decide (ch < 12)
  | .calibrationSliver ch _ => decide (ch < 12)
  | .hardwareFill ch => decide (ch < 12)
  | .scrubLine ch => decide (ch < 12)
  | .dramScrubUrgent ch => decide (ch < 12)
  | .drmErrqRetire ch _ => decide (ch < 12)
  | .dramPageRetired ch _ => decide (ch < 12)
  | .dramChannelFenced ch _ => decide (ch < 12)
  | .remapFill ch _ => decide (ch < 12)
  | .frameReceived pt _ => decide (pt < 4)
  | .pauseReceived pt _ => decide (pt < 4)
  | .pauseTimerExpiry pt cls => decide (pt < 4) && decide (cls < 8)
  | .portStalled pt cls => decide (pt < 4) && decide (cls < 8)
  | .portStallCleared pt cls => decide (pt < 4) && decide (cls < 8)
  | .packetSwitch q => decide (q < 1152)
  | .stitcherPacket ctx => decide (ctx < 284)
  | .stitchHoldExpiry ctx => decide (ctx < 284)
  | .stitchPath ctx _ => decide (ctx < 284)
  | .runqUnread q => decide (q < 3)
  | .pfcRefresh pt => decide (pt < 4)
  | .egressSelect pt => decide (pt < 4)
  | .statsInterval => true
  | .ethLinkChange pt _ => decide (pt < 4)
  | .quenchPin _ => true
  | .hqDoorbell fn q _ _ => decide (fn < 9) && decide (q < 1025)
  | .queuePoll q _ => decide (q < 1025)
  | .commandFetch q entry => decide (q < 1025) && decide (entry.length = 16)
  | .commandComplete slot => decide (slot < 256)
  | .createQueue slot => decide (slot < 256)
  | .deleteQueue slot => decide (slot < 256)
  | .identify slot => decide (slot < 256)
  | .getLog slot => decide (slot < 256)
  | .setEvents slot => decide (slot < 256)
  | .regRead slot => decide (slot < 256)
  | .regWrite slot => decide (slot < 256)
  | .txnBegin slot => decide (slot < 256)
  | .txnCommit slot => decide (slot < 256)
  | .txnAbort slot => decide (slot < 256)
  | .streamQuench slot => decide (slot < 256)
  | .streamUnquench slot => decide (slot < 256)
  | .sweepRestart slot => decide (slot < 256)
  | .outputSet slot => decide (slot < 256)
  | .imageWrite slot _ => decide (slot < 256)
  | .patch slot => decide (slot < 256)
  | .ctxRead slot => decide (slot < 256)
  | .encPost x => decide (x.slot < 256)
  | .decPost slot _ => decide (slot < 256)
  | .hostDmaDone dma _ => decide (dma.number < 256)
  | .frameRead x => decide (x.slot < 256)
  | .ledgerRead x => decide (x.slot < 256)
  | .pagePost q entry => decide (q < 1025) && decide (entry.length = 16)
  | .pageFlushTimeout s => decide (s < 256)
  | .functionLevelReset fn => decide (fn < 9)
  | .supervisoryMessage _ => true
  | .admission => true
  | .starvationStep work => decide (work < 8192)
  | .urgentCapWindow work => decide (work < 8192)
  | .bellowsRequest rail _ _ _ => decide (rail < 5)
  | .bellowsGrant rail => decide (rail < 5)
  | .bellowsRelease rail _ _ => decide (rail < 5)
  | .bellowsDeny rail _ => decide (rail < 5)
  | .blwSlow rail core => decide (rail < 5) && decide (core < 32)
  | .resetRelease _ => true
  | .resetAssert => true
  | .powerOnReset => true
  | .imageLoad _ => true
  | .signatureCheck => true
  | .identity => true
  | .platform => true
  | .tackFw => true
  | .keys => true
  | .pattern => true
  | .mapWrite => true
  | .budget => true
  | .endRecord => true
  | .loadDone => true
  | .trainEnd _ => true
  | .twinWaitExpiry => true
  | .adoptConfirm _ => true
  | .deviceAdopted => true
  | .reqRest w _ => w.wellFormed
  | .reqWake w _ => w.wellFormed
  | .reqDemote w _ => w.wellFormed
  | .wakePin => true
  | .restExitDone => true
  | .tackFwReady => true
  | .patchFailed => true
  | .otpFuseBlow => true
  | .flashOpDone => true
  | .pwrHoldChange _ => true
  | .flashPowerWait => true
  | .ircClaim => true
  | .ircEoi _ => true
  | .ircBlkAck _ => true
  | .tackRestarted _ => true
  | .dmaChannelStart k => decide (k < 8)
  | .dmaComplete => true
  | .dmaBusError k _ => decide (k < 8)
  | .dmaDisable k => decide (k < 8)
  | .dmaEnable k => decide (k < 8)
  | .timerExpiry j => decide (j < 4)
  | .timerAck j => decide (j < 4)
  | .uartRxChar _ => true
  | .uartBreak => true
  | .uartRxRead => true
  | .uartTxWrite _ => true
  | .uartTxCharDone => true
  | .uartStatusClear _ => true
  | .sensorSample _ _ => true
  | .eventPost _ => true
  | .logWriterMove => true
  | .logFlush => true
  | .semAcquire n _ => decide (n < 64)
  | .semRelease n _ => decide (n < 64)
  | .semRecovered n _ => decide (n < 64)
  | .semBreak n _ => decide (n < 64)
  | .semStateRead n => decide (n < 64)
  | .watchdogKick _ => true
  | .tackWdogWarn => true
  | .watchdogSecondExpiry => true
  | .faultReport _ => true
  | .reloadDone src => decide (src < 416)
  | .wireCheck src _ => decide (src < 416)
  | .wireCodeInvalid src => decide (src < 416)
  | .faultForce w src _ => w.wellFormed && decide (src < 416)
  | .fltStatClear _ => true
  | .girthLinkTrained => true
  | .heartbeatTick => true
  | .heartbeat _ _ => true
  | .handover _ _ => true
  | .ident _ _ => true
  | .timing _ _ => true
  | .encState _ s _ => decide (s < 256)
  | .picCrc _ s _ => decide (s < 256)
  | .picCrcTimeout s _ => decide (s < 256)
  | .port _ _ => true
  | .command _ _ entry => decide (entry.length = 16)
  | .txn _ _ => true
  | .sem _ _ => true
  | .snapshot _ _ _ => true
  | .tileDelta _ _ => true
  | .hostData _ _ => true
  | .ack _ => true
  | .girthRetransmit => true
  | .deltaDrop => true
  | .girthSilence => true
  | .girthLockLoss => true
  | .identRetry => true
  | .ownHeartbeatTimeout => true
  | .peerFaultEdge _ => true
  | .peerOwnEdge _ => true
  | .pmbusPoll rail _ => decide (rail < 11)
  | .pmbusSetPoint rail _ _ => decide (rail < 11)
  | .pmbusConfirm rail _ => decide (rail < 11)
  | .supplyComparatorTrip rail => decide (rail < 14)
  | .thermalTrip => true
  | .thermalCheck => true
  | .throttleStepUp b => decide (b < 4)
  | .bayClockChange b => decide (b < 4)
  | .sysClkLoss => true
  | .pllLockLoss _ => true
  | .registerWrite w _ _ _ => w.wellFormed
  | .txnOpBegin w t => w.wellFormed && decide (t < 4)
  | .txnOpCommit w t => w.wellFormed && decide (t < 4)
  | .txnOpAbort w t => w.wellFormed && decide (t < 4)
  | .txnWdata w t _ => w.wellFormed && decide (t < 4)
  | .txnTimeout t => decide (t < 4)
  | .glbWerrClear _ => true
  | .dpiReasonClear n _ => decide (n < 4)
  | .dpoHpdChange n _ => decide (n < 8)
  | .dpiLinkDown n => decide (n < 4)
  | .pcieLinkChange _ _ => true

end Sys2Proof
end

