-- ==== Sys2Proof/Config.lean ====
section
/-! DEFINITION. What the spec leaves open or leaves to another standard: constants with no body, so that nothing can
be proved of their values. -/

namespace Sys2Proof.Config

/-- R381: REMAIN of a stopped DMA channel, by the counter of free values. -/
opaque freeWord : Nat → BitVec 32

/-- R381: whether a byte or word of a stopped DMA channel's destination holds the new value, by the counter of free
values. -/
opaque freeBool : Nat → Bool

/-- R53: the rate of the grandmaster against SYS_CLK that the clock's servo, which the spec does not give, estimates at a Sync
message, in ppb, by the counter of free values. -/
opaque clockRate : Nat → Int

/-- R209: a byte of working memory or a register after its power was cut, by the number of the loss and the index. -/
opaque lostWord : Nat → Nat → BitVec 32

/-- R370: the bytes of the boot ROM, which the spec does not list. -/
opaque bootRom : Nat → Byte

/-- R228: the 640 bits of a DRAM line at power-up: data, check bytes and tag, by channel and line. -/
opaque freeLine : Nat → Nat → BitVec 512 × BitVec 64 × BitVec 64

/-- R174, R182: the per-lane transmitter settings that link training finds, by the counter of free values. -/
opaque laneDrive : Nat → BitVec 32

/-- R136: how long after its issue a wavefront row has completed 2 CTUs, in ns, which the spec does not give, by the task's number. -/
opaque waveTime : Nat → Nat

/-- R303: for how long a DRAM request holds its slot, in ns, which the spec does not give, by the counter of free values. -/
opaque dramTime : Nat → Nat

/-- R91, R94, R108: the syntax that ITU-T H.265 gives for what a NAL unit says, which the spec leaves to that standard: the payload
of a parameter set or of an SEI message, and the header of a slice segment. -/
opaque syntaxBytes : NalUnit → List Byte

/-- R111: the samples of a CTU coded as intra DC without residual, which the spec leaves to ITU-T H.265: by the bit depth, the sizes of
its planes, and the CTU before it in its slice. -/
opaque intraDc : Nat → (Nat × Nat) × (Nat × Nat) → Option Samples → Samples

/-- R169: the conversion of a pixel from or to a matrix that matrix_coeffs leaves open or reserves: by the source's matrix and
range, the output's, and the pixel. -/
opaque colourConvert : Nat → Nat → Nat × Nat × Nat → Nat × Nat × Nat

/-- SHA-384 (R337, R359). -/
opaque sha384 : List Byte → List Byte

/-- SHA-256 (R206, R338) where the spec names it. -/
opaque sha256 : List Byte → List Byte

/-- ECDSA P-384 verification: public key, message and signature (R337, R417). -/
opaque ecdsaVerify : List Byte → List Byte → List Byte → Bool

/-- ECDSA P-384 signing with the device identity key (R417). -/
opaque ecdsaSign : List Byte → List Byte → List Byte

/-- HMAC-SHA-256 of a message under a key (R294). -/
opaque hmac : List Byte → List Byte → List Byte

/-- The device identity public key of the part's OTP (R359). -/
opaque devicePublicKey : Nat → List Byte

/-- The nonce of the n-th IDENT (R417). -/
opaque nonce : Nat → List Byte

/-- The payload bandwidth in bit/s of a DisplayPort link of a rate code and a lane count (R174). -/
opaque dpPayload : BitVec 4 → BitVec 3 → Nat

/-- The bursts in bytes of the two fixed policers of R244, which the spec does not give: CBS 0 and EBS 1 of the one for
TC6, CBS 2 and EBS 3 of the one for TC0. -/
opaque fixedBurst : Nat → Nat

/-- R272, R476: a word of the PF configuration space that R272 does not give. -/
opaque pciWord : Nat → BitVec 32

/-- R334, R477: a field of a stream's configuration, whose format the image gives: encode (true) or decode, stream, field
number, and the words of the configuration. -/
opaque streamField : Bool → Nat → Nat → List (Nat × BitVec 32) → Nat

/-- R334: a setting that the spec says the image makes and to which it gives no address: image bytes, number of the setting,
and index within it. -/
opaque imageSetting : List Byte → Nat → Nat → Nat

/-- R283: a byte of what IDENTIFY writes, whose layout the spec does not give: the words GLB_ID, GLB_STEP, IMAGE_ID and
IMAGE_VERSION, the partitions bound to VF 1 to 8, and the place of the byte. -/
opaque identifyByte : List (BitVec 32) → List (Option Nat) → Nat → Byte

/-- R178: the RTP SSRC of an ST 2110-20 output raster, which the spec does not give. -/
opaque outSsrc : Nat → BitVec 32

/-- R178: the RTP payload type of an ST 2110-20 output raster, which the spec does not give. -/
opaque outPayType : Nat → BitVec 7

/-- R178: the DSCP of an ST 2110-20 output raster's packets, which the spec does not give. -/
opaque outDscp : Nat → BitVec 6

/-- R440: a bay's OTP trim, from which the model takes a step of 5 mV from -5 to 5. -/
opaque bayTrim : Nat → Nat

/-- R241: the credits of an ingress and egress pair beside TC7's, less 256. -/
opaque pairCredits : Nat → Nat

/-- R260, R261: the length of a receive queue of the Tack, less 1. -/
opaque rxDepth : Nat → Nat

/-- R286: a byte of host memory at a time and an address. -/
opaque hostByte : Nat → Nat → Byte

/-- R237: the lines to which the coding of a tile's slot compresses its samples. -/
opaque packedLines : Samples → Nat

end Sys2Proof.Config
end

