-- ==== Sys2Proof/Machine/EventCodes.lean ====
section
/-! DEFINITION. The codes of the events and the packing of their details (R389, R390). -/

namespace Sys2Proof

/-- R390: the CODE of an event: its group in [15:10] and its row in [9:0]. -/
def EventId.code : EventId → BitVec 16
  | .clockLocked => 0x0800
  | .clockHoldover => 0x0801
  | .clockRelocking => 0x0802
  | .holdoverLimit => 0x0803
  | .clockStep => 0x0804
  | .inputState => 0x0805
  | .lineEventLate => 0x0806
  | .lineEventExpired => 0x0807
  | .rasterRetimed => 0x0808
  | .ledgerRecordError => 0x0c00
  | .tileSuspect => 0x0c01
  | .tileLost => 0x0c02
  | .ledgerTimesCleared => 0x0c03
  | .valueWindowStale => 0x0c04
  | .valueWindowClear => 0x0c05
  | .sweepRestarted => 0x1000
  | .encodeSearchReduced => 0x1001
  | .inputFrameFilled => 0x1002
  | .inputFrameDropped => 0x1003
  | .encodeRowsRepeated => 0x1004
  | .rcArith => 0x1005
  | .valueTileDeferred => 0x1006
  | .videoRowHeld => 0x1007
  | .encodeNondeterministic => 0x1008
  | .decodeError => 0x1400
  | .decodeRowLate => 0x1401
  | .decodeSkipped => 0x1402
  | .decodeJoined => 0x1403
  | .dualUnavailable => 0x1404
  | .paramSetChanged => 0x1405
  | .cmpLineLate => 0x1800
  | .dpLinkShort => 0x1801
  | .dpLinkRetrained => 0x1802
  | .inputFormatRefused => 0x1803
  | .inputLinesMissing => 0x1804
  | .outputGateChanged => 0x1805
  | .ptnSwapDone => 0x1c00
  | .dramUncorrectable => 0x2000
  | .dramCorrected => 0x2001
  | .dramHot => 0x2002
  | .dramScrubUrgent => 0x2003
  | .dramPageRetired => 0x2004
  | .dramRetireFull => 0x2005
  | .dramChannelFenced => 0x2006
  | .streamGap => 0x2400
  | .stitchResync => 0x2401
  | .stitchPath => 0x2402
  | .stitchSkew => 0x2403
  | .streamQuenched => 0x2404
  | .ldlNobuf => 0x2405
  | .ldlPointer => 0x2406
  | .ageDiscard => 0x2407
  | .runqUnread => 0x2408
  | .portStalled => 0x2409
  | .portStallCleared => 0x240a
  | .hqQueueError => 0x2800
  | .hostOutputDrop => 0x2801
  | .hostOutputResumed => 0x2802
  | .hqAuthFail => 0x2803
  | .hqFlr => 0x2804
  | .admissionDone => 0x2c00
  | .streamShed => 0x2c01
  | .streamRestored => 0x2c02
  | .workUrgent => 0x2c03
  | .blwDenied => 0x2c04
  | .blwSlow => 0x2c05
  | .imageFallback => 0x3000
  | .imageSealed => 0x3001
  | .imageWriteFailed => 0x3002
  | .flashPowerWait => 0x3003
  | .flashPageRejected => 0x3004
  | .otpKeyRevoked => 0x3005
  | .otpFloorRaised => 0x3006
  | .modeChanged => 0x3400
  | .linkLate => 0x3401
  | .startComplete => 0x3402
  | .adoptWaiting => 0x3403
  | .deviceAdopted => 0x3404
  | .twinReplaced => 0x3405
  | .patchStarted => 0x3406
  | .patchDone => 0x3407
  | .patchFailed => 0x3408
  | .deviceHalted => 0x3409
  | .dmaBusError => 0x3800
  | .tempWarn => 0x3801
  | .supplyWarn => 0x3802
  | .logLost => 0x3803
  | .semBroken => 0x3804
  | .tackWdogWarn => 0x3805
  | .tackRestarted => 0x3806
  | .tackHeld => 0x3807
  | .faultCorrected => 0x3c00
  | .faultContained => 0x3c01
  | .fltWire => 0x3c02
  | .unitFenced => 0x3c03
  | .pairingChanged => 0x3c04
  | .twinLinkUp => 0x3c05
  | .twinLinkLost => 0x3c06
  | .twinLost => 0x3c07
  | .twinLeadLost => 0x3c08
  | .twinHandover => 0x3c09
  | .grtAuthFail => 0x3c0a
  | .grtSideConflict => 0x3c0b
  | .twinImageMismatch => 0x3c0c
  | .twinStateDiverged => 0x3c0d
  | .twinResynced => 0x3c0e
  | .encodeVerified => 0x3c0f
  | .encodeDiverged => 0x3c10
  | .bayThrottled => 0x4000
  | .bayUnthrottled => 0x4001
  | .pmbusError => 0x4002
  | .regulatorFault => 0x4003

/-- R390: the group of an event. -/
def EventId.group (e : EventId) : Nat := e.code.toNat / 1024

/-- R389: the first word and the following word, if any, of a detail item. -/
def Item.words : Item → Word × List Word
  | .w16 v => (v.setWidth 32, [])
  | .w32 v => (v, [])
  | .w64 v => (v.setWidth 32, [(v >>> 32).setWidth 32])

/-- R389: every word of a detail item. -/
def Item.allWords (i : Item) : List Word := i.words.1 :: i.words.2

/-- R389: DETAIL0, DETAIL1 and the continuation words of a list of items. -/
def packItems : List Item → Word × BitVec 16 × List Word
  | [] => (0, 0, [])
  | [i] => (i.words.1, 0, i.words.2)
  | i :: .w16 v :: r => (i.words.1, v, i.words.2 ++ r.flatMap Item.allWords)
  | i :: j :: r => (i.words.1, 0, i.words.2 ++ (j :: r).flatMap Item.allWords)

/-- R478: WRITER of GLB_WERR. -/
def Writer.code : Writer → BitVec 2
  | .tack => 0
  | .bar0 => 1
  | .queue _ => 2
  | .key _ => 3
  | .image => 0

end Sys2Proof
end

