-- ==== Sys2Proof/Machine/State.lean ====
section
/-! DEFINITION. The state of the part: every register, queue, buffer, counter, mode and pin that the spec gives it,
as plain data, and its value after reset (INVENTORY.md, State, lists each with its rule). -/

namespace Sys2Proof.Machine

/-- R32: states of the clock. -/
inductive ClkState where
  | freerun | locked | holdover | relocking
  deriving DecidableEq, Repr

/-- R67: the clock from PTP time `start` on: its state as reported, and in RELOCKING the offset then remaining. -/
structure ClkSpan where
  start : Nat
  st : ClkState
  offset : Int
  deriving DecidableEq, Repr

/-- R42: states of an input raster. -/
inductive InState where
  | absent | acquiring | tracking | locked
  deriving DecidableEq, Repr

/-- R52: a committed change of a raster: none, committed and not yet in effect, and due at the frame boundary that has come. -/
inductive ChangeSt where
  | none | committed | due
  deriving DecidableEq, Repr

/-- R304: stream classes. -/
inductive StreamClass where
  | value | live | view | background
  deriving DecidableEq, Repr

/-- R106: rate control modes. -/
inductive RcMode where
  | cbr | vbr | capll
  deriving DecidableEq, Repr

/-- R127: how a stream is split over its cores. -/
inductive Split where
  | none | tiles | wpp
  deriving DecidableEq, Repr

/-- R159: STATE of a decode stream. -/
inductive DecState where
  | idle | waiting | decoding | unsupported | skipping
  deriving DecidableEq, Repr

/-- R73: COND of a tile state entry. -/
inductive Cond where
  | verified | suspect | unverified | lost
  deriving DecidableEq, Repr

/-- R73: CAUSE of a tile state entry. -/
inductive Cause where
  | none | crc | dual | drift | future | record | join | loss
  deriving DecidableEq, Repr

/-- R76: the state of a tile as a window shows it. -/
inductive Shown where
  | fresh | stale | unverified | suspect | lost
  deriving DecidableEq, Repr

/-- R311: what admission does to a stream that it cannot place. -/
inductive ShedKind where
  | thinned | stopped | held
  deriving DecidableEq, Repr

/-- R55, R57: what a Berris segment says of a tile: its code, and the CRC-32C and DELTA of its entry. -/
structure SegTile where
  code : BitVec 2
  crc : BitVec 32
  delta : Nat
  deriving DecidableEq, Repr

/-- R59: what is known of the Berris segment that covers a tile row: none yet; its tile records from the left; or that
the record is missing (an invalid segment claimed the row, or none did by the end of the access unit). -/
inductive RowSeg where
  | waiting
  | valid (tiles : List SegTile)
  | missing
  deriving DecidableEq, Repr

/-- R55, R56: the picture-level fields of a Berris segment. -/
structure SegHead where
  attest : Bool
  stepped : Bool
  clk : BitVec 2
  resv : BitVec 4
  cols : Nat
  rows : Nat
  picCount : BitVec 32
  picTime : BitVec 48
  attestTime : BitVec 48
  uncert : BitVec 32
  regions : List Rect
  deriving DecidableEq, Repr

/-- R140, R147: a tile as a core has reconstructed it: its column, samples and checksum, whether a CTU of it was not
decoded, and whether it is tainted. -/
structure TileOut where
  col : Nat
  smp : Samples
  crc : BitVec 32
  lost : Bool
  tainted : Bool
  deriving DecidableEq, Repr

/-- R130: an item of a bitstream queue: payload bytes, a gap marker, or the end of an access unit. -/
inductive QItem where
  | bytes (n : Nat) (arrival : BitVec 48)
  | gap (first count : Nat)
  | eoa
  deriving DecidableEq, Repr

/-- R143: a reconstructed picture in a frame buffer: the number and picture order count of the picture, its place in
output order, its tiles by tile number, the tainted tiles, the CTU rows that are complete, whether all of them are, and
whether it is a generated reference (R156). -/
structure FrameBuf where
  pic : Nat
  poc : BitVec 32
  order : Nat
  tiles : Tbl Samples
  taint : List Nat
  rowsDone : List Nat
  whole : Bool
  gen : Bool
  deriving DecidableEq, Repr

/-- No picture. -/
def FrameBuf.reset : FrameBuf := ⟨0, 0, 0, [], [], [], false, false⟩

/-- R163: a pixel of an output line: three components. -/
structure Pixel where
  a : BitVec 16
  b : BitVec 16
  c : BitVec 16
  deriving DecidableEq, Repr

/-- R174: LINK_STATE of a source port. -/
inductive DpoLink where
  | down | training | active | short | retiming
  deriving DecidableEq, Repr

/-- R177: LINK_STATE of a sink port. -/
inductive DpiLink where
  | down | training | active | refused
  deriving DecidableEq, Repr

/-- R192: states of a thread. -/
inductive ThreadState where
  | idle | ready | wait | swapping
  deriving DecidableEq, Repr

/-- R192, R193: what a thread in WAIT is blocked on. -/
inductive WaitOn where
  | event (e : Nat)
  | unit (u : Nat)
  deriving DecidableEq, Repr

/-- R192: the flags of a thread. -/
structure Flags where
  z : Bool
  n : Bool
  v : Bool
  c : Bool
  t : Bool
  sat : Bool
  dz : Bool
  deriving DecidableEq, Repr

/-- Flags after reset. -/
def Flags.reset : Flags := ⟨false, false, false, false, false, false, false⟩

/-- R184, R186, R190, R193: a unit of a coding core: whether it is busy, the thread that issued to it, the operation and its operand,
the status nibble of its last operation, and the class (entropy) or mode (prediction) that MSEL 4 and 5 select. -/
structure UnitS where
  busy : Bool
  thread : Nat
  op : BitVec 8
  arg : BitVec 32
  status : BitVec 4
  info : BitVec 4
  deriving DecidableEq, Repr

/-- A unit after reset. -/
def UnitS.reset : UnitS := ⟨false, 0, 0, 0, 0, 0⟩

/-- R191: a FILL or DRAIN in progress: the thread, whether FILL, whether of the descriptor table (buffer 15), DRAM line base, working
memory address, length, and the lines moved so far. -/
structure CoreDma where
  fill : Bool
  thread : Nat
  table : Bool
  dram : Nat
  work : Nat
  len : Nat
  done : Nat
  deriving DecidableEq, Repr

/-- R211: ROLE of a core. -/
inductive CoreRole where
  | unassigned | decode | encode | check
  deriving DecidableEq, Repr

/-- R238: STATE of a channel. -/
inductive ChanState where
  | untrained | training | filling | active | selfRefresh | fenced
  deriving DecidableEq, Repr

/-- R218: outcomes of a line read. -/
inductive ReadKind where
  | none | ueSecded | ceTag | ueCrc | misdirect | poisoned | partition | ceSecded | clean | refused
  deriving DecidableEq, Repr

/-- R303: a slot of a channel's request tracker: who holds it (none: scrub, fill, calibration or the Tack), whether it is one reserved
to the holder, and until when. -/
structure DramSlot where
  who : Option Nat
  resv : Bool
  till : Nat
  deriving DecidableEq, Repr

/-- R26, R235: a DRAM request that waits: for a slot of its channel, or for the fill of its block. -/
inductive DramWait where
  | read (r : Requester) (a : LineRead)
  | write (r : Requester) (addr : Nat) (data : BitVec 512)
  | narrow (r : Requester) (addr : Nat) (bytes : List (Option Byte))
  deriving DecidableEq, Repr

/-- R218: outcome and data of a line read. -/
structure ReadResult where
  kind : ReadKind
  data : BitVec 512
  deriving DecidableEq, Repr

/-- No read has been made. -/
def ReadResult.reset : ReadResult := ⟨.none, 0⟩

/-- R255, R258: a Ladle buffer: its generation, whether it is allocated, its handles, the area it came from (0 RESV, 1 TC7_RESV,
2 shared) with the partition charged, and whether it is quarantined. -/
structure BufS where
  gen : BitVec 4
  allocated : Bool
  refs : Nat
  area : Nat
  part : Nat
  quarantined : Bool
  deriving DecidableEq, Repr

/-- R242 to R263: a packet in the Runner: its ingress port, length, payload, partition and class; where it goes (0 the
Stitcher context `stream`, 1 the Tack, 2 the Girth link, 4 the egress flow `stream`); its ST 2022-7 path and colour; its
times of arrival on the device's time and on the PTP clock; its serial number, RTP header, Ladle pointer (pool 4: none) with its parity bit, the
crossbar plane that it took (R242), extended sequence number, start tag, DSCP and VLAN. -/
structure Pkt where
  port : Nat
  len : Nat
  payload : Nat
  part : Nat
  cls : Nat
  dest : Nat
  stream : Nat
  path : Bool
  yellow : Bool
  arrival : Nat
  ptp : BitVec 48
  serial : Nat
  rtp : Option Rtp
  pool : Nat
  buf : Nat
  gen : BitVec 4
  par : Bool
  plane : Bool
  ext : Nat
  tag : Nat
  dscp : BitVec 6
  vid : Option (BitVec 12)
  query : Bool
  deriving DecidableEq, Repr

/-- R275: KIND of a queue. -/
inductive QKind where
  | command | output | event | reserved
  deriving DecidableEq, Repr

/-- R272, R295: the path that carried a command: a queue, an in-band key, or the lead over the Girth link. -/
inductive CmdPath where
  | queue (q : Nat)
  | key (k : Nat)
  | lead (p : SrcPath)
  deriving DecidableEq, Repr

/-- R283, R284: a decoded submission entry. -/
inductive HostCmd where
  | createQueue (qid : Nat) (sqBase cqBase : BitVec 64) (sqSizeM1 cqSizeM1 : BitVec 16) (kind : QKind)
      (func : BitVec 4) (weight : BitVec 8) (poll : BitVec 14) (vector : BitVec 11) (shadow : BitVec 64) (stream : Nat)
  | deleteQueue (qid : Nat)
  | identify (addr : BitVec 64) (len : Nat)
  | getLog (addr : BitVec 64) (len : Nat) (first : BitVec 32)
  | setEvents (mask : BitVec 64)
  | regRead (a : Nat)
  | regWrite (a : Nat) (v : Word)
  | txnBegin (t : Nat)
  | txnCommit (t : Nat) (raster : BitVec 5) (line : BitVec 14) (frame : BitVec 32)
  | txnAbort (t : Nat)
  | streamStart (s : Nat)
  | streamRejoin (s : Nat)
  | streamQuench (s : Nat)
  | streamUnquench (s : Nat)
  | sweepRestart (s : Nat) (raster : BitVec 5) (line : BitVec 14) (frame : BitVec 32)
  | outputSet (k : Nat) (intent : Bool)
  | imageWrite (addr : BitVec 64) (len : Nat) (offset : BitVec 32) (sealIt : Bool)
  | patch
  | ctxRead (addr : BitVec 64) (len a : Nat)
  | encPost (s : Nat) (luma cb : BitVec 64) (pitch cpitch : BitVec 16) (picTime : BitVec 48) (attest : Bool)
  | decPost (s : Nat) (addr : BitVec 64) (len : Nat) (eoa : Bool)
  | frameRead (s : Nat) (luma cb : BitVec 64) (len : Nat) (desc : BitVec 32) (pitch cpitch : BitVec 16)
  | ledgerRead (s : Nat) (addr : BitVec 64) (len : Nat)
  deriving DecidableEq, Repr

/-- R278: a command in execution is ready to execute, waits, or is done and awaits its completion entry. -/
inductive SlotPhase where
  | ready | waiting | done
  deriving DecidableEq, Repr

/-- R282: STATUS of a completion. -/
inductive Status where
  | success | invalidOpcode | invalidField | idRange | notOwned | busy | postFull | hostDma | deviceMemory
  | txnFailed | state | mirrored
  deriving DecidableEq, Repr

/-- R295: an accepted message of which commands are in execution: its key, sender, port and header, and for each entry the
slot that holds it, none once it is completed, and its completion entry. -/
structure KeyMsg where
  key : Nat
  sender : BitVec 128
  port : BitVec 16
  head : List Byte
  slots : List (Option Nat)
  entries : List (List Byte)
  deriving DecidableEq, Repr

/-- R468: states of a transaction. -/
inductive TxnState where
  | free | opened | armed
  deriving DecidableEq, Repr

/-- R468: the opener of a transaction. -/
inductive Opener where
  | queue (q : Nat) | key (k : Nat) | tack | bar0 | lead
  deriving DecidableEq, Repr

/-- R474: OUTCOME of a transaction. -/
inductive TxnOutcome where
  | none | committed | committedLate | aborted | expired | refused | conflict | failedWrite | timeout
  deriving DecidableEq, Repr

/-- R122: a host-posted picture that is not yet coded. -/
structure Posted where
  picTime : BitVec 48
  attest : Bool
  codable : Bool
  slot : Option Nat
  deadline : Nat
  raw : RawPicture
  deriving DecidableEq, Repr

/-- R288, R290: a coded picture staged for host output: its bytes in Annex B form that no page holds yet, whether its
access unit is complete and since when, whether a page has begun it, and whether it ends a drop (GAP). -/
structure StagedPic where
  picCount : BitVec 32
  data : List Byte
  complete : Bool
  begun : Bool
  gap : Bool
  at_ : Nat
  deriving DecidableEq, Repr

/-- R288, R289: a page in flight: its host address, CID and the SQ head after its fetch; the bytes filled, GAP and EOA;
DROPPED as it was when the page began; its status once it is completed and waits for CQ space; and when a byte was last added. -/
structure Page where
  addr : BitVec 64
  cid : BitVec 16
  sqHead : BitVec 16
  filled : Nat
  gap : Bool
  eoa : Bool
  dropped : Nat
  done : Option Status
  last : Nat
  deriving DecidableEq, Repr

/-- R344: a store of the flash controller: what is being written and where. -/
structure Store where
  kind : Nat
  addr : Nat
  bytes : List Byte
  erase : Bool
  slot : Option Nat
  deriving DecidableEq, Repr

/-- R207: a core of a batch and the spare that stands in for it; the streams whose next picture boundary is awaited, each encode (true)
or decode, with the last picture that stays where it is; whether the core has been told to drain, and whether it has swapped, so that
the streams return. -/
structure StandIn where
  core : Nat
  spare : Nat
  streams : List (Bool × Nat × Nat)
  drain : Bool
  back : Bool
  deriving DecidableEq, Repr

/-- R364, R207: a patch under way: its step, the slot patched to, the path of the command, the cores that wait for a batch,
the batch under way, the cores swapped and left on their old bank, and when it began. -/
structure PatchS where
  step : Nat
  target : Bool
  path : CmdPath
  pending : List Nat
  batch : List StandIn
  swapped : Nat
  left : Nat
  since : Nat
  deriving DecidableEq, Repr

/-- R359: an adoption record: SELF and TWIN digests. -/
structure Adoption where
  self : List Byte
  twin : List Byte
  side : Bool
  deriving DecidableEq, Repr

/-- R353: the modes. -/
inductive Mode where
  | fill | load | train | adopt | solo | lead | shadow | takeover | degraded | patch | rest | halt
  deriving DecidableEq, Repr

/-- R352: ROLE. -/
inductive Role where
  | none | solo | lead | shadow
  deriving DecidableEq, Repr

/-- R382: STATE of a DMA channel. -/
inductive DmaState where
  | idle | pending | running | stopped
  deriving DecidableEq, Repr

/-- R394: states of a semaphore. -/
inductive SemState where
  | free | held | broken | recovering
  deriving DecidableEq, Repr

/-- R371: STATE of the Tack. -/
inductive TackState where
  | boot | run | restarting | held
  deriving DecidableEq, Repr

/-- R431: LINK of the Girth link. -/
inductive GrtLink where
  | down | training | ident | up | lost | refused
  deriving DecidableEq, Repr

/-- R415: the content of a frame that the device sends. -/
inductive GMsg where
  | handover (demote : Bool)
  | ident (m : IdentMsg)
  | timing (m : List Timing)
  | encState (s : Nat) (m : EncAdopt)
  | picCrc (s : Nat) (m : PicCrc)
  | port (m : PortMsg)
  | command (path : SrcPath) (entry : List Word)
  | txn (m : TxnMsg)
  | sem (m : SemMsg)
  | snapshot (m : List (Nat × Word)) (last : Bool)
  | tileDelta (m : List TileDelta)
  | hostData (m : HostMsg)
  deriving DecidableEq, Repr

/-- R414: a sequenced frame: its SEQ once sent, its content, and when it was queued or last sent. -/
structure GFrame where
  seq : BitVec 32
  msg : GMsg
  at_ : Nat
  deriving DecidableEq, Repr

/-- R427: a mirrored transaction that waits behind the snapshot. -/
structure MirrorTxn where
  t : Nat
  writes : List (Nat × Word)
  scope : Option Nat
  pos : LinePos
  deriving DecidableEq, Repr

/-- R389: an entry of the ring or the flash log: its four words. -/
structure LogEntry where
  w0 : Word
  w1 : Word
  w2 : Word
  w3 : Word
  deriving DecidableEq, Repr

/-- A memory: the bytes that differ from what an unlisted address reads as, by rising address. -/
abbrev Memory := List Host.Cell

/-- Faults: the model has none, since no rule of the spec stops the part with no next state; HALT (R367) is a mode. -/
inductive Fault where
  /-- Raised by nothing; safe. -/
  | noneRaised
  deriving DecidableEq, Repr

/-- Refusals. -/
inductive Refusal where
  /-- Raised by the dispatcher alone, for a command without a meaning; safe. -/
  | notModelled (mnemonic : String)
  deriving DecidableEq, Repr


/-- The PTP clock of the raster time unit (R31 to R35, R479). -/
structure Clk where
  /-- R32: RAS_CLK_STATE[2:0]. -/
  st : ClkState
  /-- R34: remaining offset from the grandmaster as last measured, in ns (what is to be added to the clock). -/
  offset : Int
  /-- R32: consecutive Sync messages within 1 us, 0 to 16. -/
  inBound : Nat
  /-- R32: device time at which the holdover in progress began. -/
  holdStart : Nat
  /-- R33: HOLDOVER_LIMIT has been raised in this holdover. -/
  limitRaised : Bool
  /-- R479: PORT: Ethernet port of the accepted grandmaster. -/
  gmPort : BitVec 2
  /-- R31: DOMAIN from the image, default 127. -/
  domain : BitVec 8
  /-- R32: HOLDOVER_DRIFT in ppb, default 500. -/
  drift : Nat
  /-- R34: STEP_LIMIT in ns, default 100 us. -/
  stepLimit : Nat
  /-- R33: HOLDOVER_LIMIT in ns, default 1 ms. -/
  holdLimit : Nat
  /-- R67: PTP times of the steps of the clock, newest first. -/
  steps : List Nat
  /-- R67: states of the clock since reset, newest first, for the state and U at an earlier PTP time. -/
  hist : List ClkSpan
  /-- R53: rate of the grandmaster against SYS_CLK as last estimated, in ppb. -/
  rate : Int
  /-- R53: what the rate has added and PTP time does not yet show, in 10^-9 ns. -/
  acc : Nat
  /-- R34: ns since the slew last moved the clock by 1 ns. -/
  slewed : Nat
  /-- R402: source 374 fenced: the clock reports FREERUN until LOAD. -/
  fenced : Bool
  deriving DecidableEq, Repr

/-- Clk after reset (INVENTORY.md, State). -/
def Clk.reset : Clk where
  st := .freerun
  offset := 0
  inBound := 0
  holdStart := 0
  limitRaised := false
  gmPort := 0
  domain := 0x7F
  drift := 500
  stepLimit := 100000
  holdLimit := 1000000
  steps := []
  hist := []
  rate := 0
  acc := 0
  slewed := 0
  fenced := false

/-- One of the 28 rasters of R8: its format, its position and, for an input, its measurement. -/
structure Raster where
  /-- R37: format in force. -/
  fmt : RasterFmt
  /-- R52: RETIMING: no video until the first frame of the new format. -/
  retiming : Bool
  /-- R51: the next vertical blank realigns the raster. -/
  realign : Bool
  /-- R52: where a committed change of the raster stands. -/
  change : ChangeSt
  /-- R38: frame count f. -/
  frame : Nat
  /-- R39: line in progress n. -/
  line : Nat
  /-- R42: RAS_IN_STATE of an input raster. -/
  inState : InState
  /-- R41: measured start S_f of the last measured frame. -/
  sf : Nat
  /-- R41: S_(f-1), none for the first frame after acquisition. -/
  sfPrev : Option Nat
  /-- R41: a frame start has been measured since configuration. -/
  measured : Bool
  /-- R42: consecutive frames of the configured format. -/
  consec : Nat
  /-- R42: consecutive frames within one line of R38. -/
  inBound : Nat
  /-- R179: bytes of the current frame's lines that have arrived, by line, on an ST 2110-20 input. -/
  got : Tbl Nat
  /-- R179: bytes of each line that the capture buffer of an ST 2110-20 input holds, of this frame or an earlier one. -/
  cap : Tbl (List Byte)
  /-- R179: lines of the frame in progress found with samples missing. -/
  missed : Nat
  deriving DecidableEq, Repr

/-- Raster after reset (INVENTORY.md, State). -/
def Raster.reset : Raster where
  fmt := {}
  retiming := false
  realign := false
  change := .none
  frame := 0
  line := 0
  inState := .absent
  sf := 0
  sfPrev := none
  measured := false
  consec := 0
  inBound := 0
  got := []
  cap := []
  missed := 0

/-- One entry of the line event table (R43). -/
structure LineEvent where
  /-- R43: VALID. -/
  valid : Bool
  /-- R43: MATCH. -/
  mode : BitVec 2
  /-- R43: RASTER. -/
  raster : BitVec 5
  /-- R43: LINE. -/
  line : BitVec 14
  /-- R43: ACTION. -/
  action : BitVec 4
  /-- R43: PARTITION. -/
  part : BitVec 3
  /-- R43: ARG. -/
  arg : BitVec 16
  /-- R43: TARGET. -/
  target : BitVec 16
  /-- R43: FRAME. -/
  frame : BitVec 32
  /-- R43: FIRED. -/
  fired : Bool
  /-- R43: LATE. -/
  late : Bool
  /-- R43: EXPIRED. -/
  expired : Bool
  /-- R43: REJECTED. -/
  rejected : Bool
  /-- R43: FIRE_COUNT. -/
  count : BitVec 16
  /-- R47: scope of the arming write: none is the whole device. -/
  scope : Option Nat
  /-- R48: the position passed within LATE_WINDOW; the entry fires at the next line. -/
  latePend : Bool
  deriving DecidableEq, Repr

/-- LineEvent after reset (INVENTORY.md, State). -/
def LineEvent.reset : LineEvent where
  valid := false
  mode := 0
  raster := 0
  line := 0
  action := 0
  part := 0
  arg := 0
  target := 0
  frame := 0
  fired := false
  late := false
  expired := false
  rejected := false
  count := 0
  scope := none
  latePend := false

/-- Raster time unit (R31 to R53, R479). -/
structure Ras where
  /-- R31: the PTP clock. -/
  clk : Clk
  /-- R8: rasters 0 to 27. -/
  rasters : Tbl Raster
  /-- R43: line event entries 0 to 1,023. -/
  events : Tbl LineEvent
  /-- R479: RAS_STAMP[0] to RAS_STAMP[15]. -/
  stamps : Tbl (BitVec 64)
  deriving DecidableEq, Repr

/-- Ras after reset (INVENTORY.md, State). -/
def Ras.reset : Ras where
  clk := Clk.reset
  rasters := []
  events := []
  stamps := []

/-- A picture being coded by an encode stream (R98, R104). -/
structure EncPic where
  /-- R104: frame count of the picture. -/
  frame : Nat
  /-- R63: PIC_TIME. -/
  picTime : BitVec 48
  /-- R119: the full PTP time of which PIC_TIME is the low 48 bits. -/
  picTime64 : Nat
  /-- R56: CLK. -/
  clkCode : BitVec 2
  /-- R67: UNCERT. -/
  uncert : BitVec 32
  /-- R41: frame period P of the frame. -/
  period : Nat
  /-- R66: the host permits the picture to attest. -/
  hostAttest : Bool
  /-- R67: STEPPED. -/
  stepped : Bool
  /-- R64: attesting picture. -/
  attest : Bool
  /-- R98: coded wholly as zero motion. -/
  zeroMotion : Bool
  /-- R91: the IDR picture. -/
  idr : Bool
  /-- R101: a sweep restarts at this picture. -/
  restart : Bool
  /-- R98: sweep position s of the picture. -/
  sweepPos : Nat
  /-- R55: PIC_COUNT. -/
  picCount : BitVec 32
  /-- R103: rows released. -/
  released : Nat
  /-- R103: rows issued. -/
  issued : Nat
  /-- R103: rows completed. -/
  done : Nat
  /-- R105: some rows were repeated. -/
  repeated : Bool
  /-- R49: PTP deadline of each released row. -/
  deadline : List Nat
  /-- R107: bits of the picture so far. -/
  bits : Nat
  /-- R428: NAL unit bytes of the access unit so far, for BS_CRC. -/
  bsBytes : List Byte
  /-- R428: Berris segment bytes of the access unit so far, for LEDGER_CRC. -/
  ledgerBytes : List Byte
  /-- R65: a sample inside the beacon differed from the picture before. -/
  beaconDiff : Bool
  /-- R201: abandonments of the row in flight. -/
  issues : Nat
  /-- R103: cores coding the row in flight: one, or one for each tile column of R123. -/
  cores : List Nat
  /-- R105: rows coded as zero motion with every tile HELD. -/
  zeroRows : List Nat
  /-- R64: the input raster was TRACKING or LOCKED when the picture was formed. -/
  tracked : Bool
  /-- R104: the encoder releases the picture's rows itself. -/
  own : Bool
  /-- R117: PIC_TIME, CLK and UNCERT are those of both devices of a twin pair. -/
  twin : Bool
  /-- R121: the posted planes of a host-fed picture. -/
  source : Option RawPicture
  /-- R94: the access unit is the first of a refresh sweep. -/
  sweepStart : Bool
  /-- R102: the search burst of the row in flight has its tokens. -/
  searched : Bool
  /-- R179: source lines of each released row, as captured from an ST 2110-20 input. -/
  rowSrc : Tbl (List SrcLine)
  /-- R143: capture buffer that holds the picture, by its descriptor. -/
  buf : Option Nat
  deriving DecidableEq, Repr

/-- EncPic after reset (INVENTORY.md, State). -/
def EncPic.reset : EncPic where
  frame := 0
  picTime := 0
  picTime64 := 0
  clkCode := 0
  uncert := 0
  period := 0
  hostAttest := false
  stepped := false
  attest := false
  zeroMotion := false
  idr := false
  restart := false
  sweepPos := 0
  picCount := 0
  released := 0
  issued := 0
  done := 0
  repeated := false
  deadline := []
  bits := 0
  bsBytes := []
  ledgerBytes := []
  beaconDiff := false
  issues := 0
  cores := []
  zeroRows := []
  tracked := false
  own := false
  twin := true
  source := none
  sweepStart := false
  searched := false
  rowSrc := []
  buf := none

/-- Configuration of an encode stream, set by the image (R88 to R115). -/
structure EncCfg where
  /-- R312: the stream is enabled. -/
  enabled : Bool
  /-- R304: stream class. -/
  cls : StreamClass
  /-- R298: owning partition. -/
  part : Nat
  /-- R310: home bay. -/
  home : Nat
  /-- R103: captured input raster 16 to 27; none for a host-fed stream. -/
  input : Option Nat
  /-- R121: raster of a host-fed stream's deadline. -/
  hostRaster : Nat
  /-- R121: line of a host-fed stream's deadline. -/
  hostLine : Nat
  /-- R89: luma width. -/
  width : Nat
  /-- R89: luma height. -/
  height : Nat
  /-- R88: chroma format: 0 monochrome, 1 4:2:0, 2 4:2:2, 3 4:4:4. -/
  chroma : Nat
  /-- R88: coded bit depth. -/
  depth : Nat
  /-- R88: profile. -/
  profile : EncProfile
  /-- R90: the source is RGB, so the planes are G, B and R. -/
  rgb : Bool
  /-- R88: High tier. -/
  highTier : Bool
  /-- R88: level, by its place among those of HEVC from Level 1 on: 9 is Level 5.2. -/
  level : Nat
  /-- R98: L, default 16. -/
  sweepLen : Nat
  /-- R49: row-release margin M, default 2. -/
  margin : Nat
  /-- R49: encode allowance A in lines. -/
  allowance : Nat
  /-- R64: attestation interval I in ms, default 100. -/
  interval : Nat
  /-- R65: liveness beacon, none for NONE. -/
  beacon : Option Rect
  /-- R65: beacon window W in ms, default 2 s. -/
  beaconWin : Nat
  /-- R95: value regions in force. -/
  regions : List Rect
  /-- R106: rate control mode. -/
  rc : RcMode
  /-- R106: R in bit/s. -/
  rate : Nat
  /-- R106: R_avg in bit/s. -/
  rateAvg : Nat
  /-- R106: B in bits. -/
  cpb : Nat
  /-- R109: QP_MIN, default 18. -/
  qpMin : Int
  /-- R109: QP_MAX, default 51. -/
  qpMax : Int
  /-- R109: QP_INIT, default 32. -/
  qpInit : Int
  /-- R116: deterministic encode. -/
  deterministic : Bool
  /-- R54: the ledger is enabled. -/
  ledger : Bool
  /-- R119: RTP SSRC. -/
  ssrc : BitVec 32
  /-- R119: first RTP sequence number. -/
  seq0 : BitVec 16
  /-- R119: RTP payload type. -/
  payType : BitVec 7
  /-- R119: DSCP of the stream's packets. -/
  dscp : BitVec 6
  /-- R119: VLAN of the stream's packets. -/
  vid : Option (BitVec 12)
  /-- R119: the stream's packets are IPv6. -/
  ipv6 : Bool
  /-- R263: egress flow queues that carry the stream's copies. -/
  flows : List Nat
  /-- R120: output to host pages. -/
  toHost : Bool
  /-- R120: output to the network. -/
  toNet : Bool
  /-- R288: OUT_BUF in bytes, default 8 MiB. -/
  outBuf : Nat
  /-- R290: OUT_AGE in ns, default 500 ms. -/
  outAge : Nat
  deriving DecidableEq, Repr

/-- EncCfg after reset (INVENTORY.md, State). -/
def EncCfg.reset : EncCfg where
  enabled := false
  cls := .background
  part := 0
  home := 0
  input := none
  hostRaster := 0
  hostLine := 0
  width := 0
  height := 0
  chroma := 3
  depth := 10
  profile := .main444
  rgb := false
  highTier := false
  level := 9
  sweepLen := 16
  margin := 2
  allowance := 0
  interval := 100
  beacon := none
  beaconWin := 2000
  regions := []
  rc := .cbr
  rate := 0
  rateAvg := 0
  cpb := 0
  qpMin := 18
  qpMax := 51
  qpInit := 32
  deterministic := false
  ledger := false
  ssrc := 0
  seq0 := 0
  payType := 0
  dscp := 0
  vid := none
  ipv6 := false
  flows := []
  toHost := false
  toNet := false
  outBuf := 8388608
  outAge := 500000000

/-- An encode stream: configuration and what the encoder keeps between rows. -/
structure EncStream where
  /-- R88: configuration in force. -/
  cfg : EncCfg
  /-- R115: values that take effect at the first picture of the next sweep after their commit, with its PTP time, oldest first. -/
  pend : List (BitVec 48 × EncCfg)
  /-- R104: the IDR picture has been formed. -/
  started : Bool
  /-- R103: pictures with rows not yet completed, oldest first. -/
  pics : List EncPic
  /-- R104: frame count of the last picture formed. -/
  lastFrame : Nat
  /-- R122: PIC_TIME of the last picture formed. -/
  lastPicTime : BitVec 48
  /-- R64: PIC_TIME of the last attesting picture. -/
  lastAttest : Option (BitVec 48)
  /-- R65: t_b. -/
  tb : Option (BitVec 48)
  /-- R55: PIC_COUNT of the next picture to be formed. -/
  picCount : BitVec 32
  /-- R98: sweep position of the next picture. -/
  sweepPos : Nat
  /-- R101: requested sweep restarts: commit position as a PTP time, and trigger: 0 command, 1 output paging, 2 memory error, 4 divergence, 5 takeover. -/
  restarts : List (BitVec 48 × Nat)
  /-- R101: a held picture requires the sweep to restart. -/
  restartHeld : Bool
  /-- R58: source samples of each tile at its last coding. -/
  lastSrc : Tbl Samples
  /-- R65: source samples of each tile in the picture before. -/
  prevSrc : Tbl Samples
  /-- R58: reconstruction of each tile in the reference picture. -/
  recon : Tbl Samples
  /-- R109: qp_prev. -/
  qpPrev : Int
  /-- R109: bits of the last 8 rows. -/
  bits8 : List Nat
  /-- R107: CPB content after the last removal, in bits times NUM times LT. -/
  full : Int
  /-- R208: decision identity of the banks that code the stream. -/
  decId : Option (BitVec 16)
  /-- R208: commit position, as a PTP time, from which on a sweep may take another decision identity. -/
  decAt : Option (BitVec 48)
  /-- R119: next RTP sequence number. -/
  seq : BitVec 16
  /-- R118: the stream is deterministic now. -/
  det : Bool
  /-- R428: DET_OK of GRT_DET. -/
  detOk : Bool
  /-- R428: consecutive MISSING pictures. -/
  missing8 : Nat
  /-- R427: consecutive matching pictures. -/
  match4 : Nat
  /-- R428: own PIC_CRC values not yet compared. -/
  ownCrc : List PicCrc
  /-- R428: the twin's PIC_CRC values not yet compared. -/
  peerCrc : List PicCrc
  /-- R428: time at which the first value of a pair not yet complete was there, by PIC_COUNT. -/
  crcAt : List (BitVec 32 × Nat)
  /-- R122: host-posted pictures not yet coded, oldest first. -/
  posted : List Posted
  /-- R311: HELD, when shed. -/
  shed : Option ShedKind
  /-- R310: bay of the latest placement. -/
  bay : Option Nat
  /-- R117: the lead's TIMING values for coming frames. -/
  timing : List Timing
  /-- R427: ENC_STATE received and not yet adopted. -/
  encState : Option EncAdopt
  /-- R423: replay buffer: packets coded in the last 2 ms, with the time of coding. -/
  replay : List (Nat × Pkt)
  /-- R424: the stream is sent under the lead's SSRC with bit 0 inverted. -/
  ssrcFlip : Bool
  /-- R124: events already raised for a picture. -/
  evPic : List (EventId × BitVec 32)
  /-- R288: coded pictures staged for host output, oldest first. -/
  staged : List StagedPic
  /-- R288: first pool block of the output buffer in the partition's share. -/
  outBase : Option Nat
  /-- R288: page in flight. -/
  page : Option Page
  /-- R290: a drop is in progress. -/
  dropping : Bool
  /-- R289: pictures dropped since the previous page. -/
  dropped : Nat
  /-- R290: the restart that ends the drop has been requested. -/
  resumeReq : Bool
  deriving DecidableEq, Repr

/-- EncStream after reset (INVENTORY.md, State). -/
def EncStream.reset : EncStream where
  cfg := EncCfg.reset
  pend := []
  started := false
  pics := []
  lastFrame := 0
  lastPicTime := 0
  lastAttest := none
  tb := none
  picCount := 0
  sweepPos := 0
  restarts := []
  restartHeld := false
  lastSrc := []
  prevSrc := []
  recon := []
  qpPrev := 32
  bits8 := []
  full := 0
  decId := none
  decAt := none
  seq := 0
  det := false
  detOk := false
  missing8 := 0
  match4 := 0
  ownCrc := []
  peerCrc := []
  crcAt := []
  posted := []
  shed := none
  bay := none
  timing := []
  encState := none
  replay := []
  ssrcFlip := false
  evPic := []
  staged := []
  outBase := none
  page := none
  dropping := false
  dropped := 0
  resumeReq := false

/-- One tile state entry (R73). -/
structure TileEntry where
  /-- R73: COND. -/
  cond : Cond
  /-- R73: KNOWN. -/
  known : Bool
  /-- R73: TV. -/
  tv : Bool
  /-- R73: CAUSE. -/
  cause : Cause
  /-- R73: VALUE. -/
  value : Bool
  /-- R73: T_ATT. -/
  tAtt : BitVec 48
  /-- R73: CRC_E. -/
  crcE : BitVec 32
  /-- R73: LAST_PIC. -/
  lastPic : BitVec 32
  deriving DecidableEq, Repr

/-- TileEntry after reset (INVENTORY.md, State). -/
def TileEntry.reset : TileEntry where
  cond := .lost
  known := false
  tv := false
  cause := .join
  value := false
  tAtt := 0
  crcE := 0
  lastPic := 0

/-- A CTU-row task of a decode stream (R131, R137). -/
structure RowTask where
  /-- R131: decode stream. -/
  stream : Nat
  /-- R131: picture (decode order number). -/
  pic : Nat
  /-- R131: CTU row. -/
  row : Nat
  /-- R135: HEVC tile column. -/
  tile : Nat
  /-- R137: check task. -/
  check : Bool
  /-- R131: queue mark. -/
  mark : Nat
  /-- R49: PTP deadline in ns. -/
  deadline : Nat
  /-- R49: raster that bears the deadline. -/
  raster : Nat
  /-- R131: bay whose dispatcher holds the task. -/
  bay : Nat
  /-- R103: core running the task. -/
  core : Option Nat
  /-- R133: abandonments so far. -/
  tries : Nat
  /-- R154: the deadline has passed. -/
  late : Bool
  /-- R136: time at which the task was issued. -/
  issuedAt : Nat
  /-- R146: columns of tiles for which a DRAM read met an uncorrectable error. -/
  ue : List Nat
  deriving DecidableEq, Repr

/-- RowTask after reset (INVENTORY.md, State). -/
def RowTask.reset : RowTask where
  stream := 0
  pic := 0
  row := 0
  tile := 0
  check := false
  mark := 0
  deadline := 0
  raster := 0
  bay := 0
  core := none
  tries := 0
  late := false
  issuedAt := 0
  ue := []

/-- What is known of one tile row of a picture being decoded (R140). -/
structure RowRec where
  /-- R131: what the primary's tasks have decoded of the row's tiles so far. -/
  res : List TileRes
  /-- R146: columns for which a primary task's DRAM read met an uncorrectable error. -/
  ue : List Nat
  /-- R140: the primary's tiles, once the row is complete. -/
  prim : List TileOut
  /-- R140: the primary has completed the row. -/
  primDone : Bool
  /-- R138: what the check tasks have decoded of the row's value tiles so far. -/
  chkRes : List TileRes
  /-- R146: columns for which a check task's DRAM read met an uncorrectable error. -/
  chkUe : List Nat
  /-- R137: check tasks of the row not yet completed. -/
  chkOpen : Nat
  /-- R140: the check core's tiles, once they are complete. -/
  chk : List TileOut
  /-- R140: the check core's results are in. -/
  chkDone : Bool
  /-- R137: the decode of the row has begun: its value tiles are fixed. -/
  fixed : Bool
  /-- R137: VR list as the decode of the row began. -/
  regions : List Rect
  /-- R137: columns of the row that are value tiles, as its decode began. -/
  vals : List Nat
  /-- R78: columns that enter a value region with this picture and whose event waits for older pictures. -/
  enters : List Nat
  /-- R59: the row's Berris segment. -/
  seg : RowSeg
  /-- R59: a trustworthy segment has claimed the row. -/
  claimed : Bool
  /-- R78: the events of the row's video tiles have been applied. -/
  video : Bool
  /-- R78: the events of the row's value tiles have been applied. -/
  value : Bool
  /-- R141: no check core was available. -/
  noCheck : Bool
  deriving DecidableEq, Repr

/-- RowRec after reset (INVENTORY.md, State). -/
def RowRec.reset : RowRec where
  res := []
  ue := []
  prim := []
  primDone := false
  chkRes := []
  chkUe := []
  chkOpen := 0
  chk := []
  chkDone := false
  fixed := false
  regions := []
  vals := []
  enters := []
  seg := .waiting
  claimed := false
  video := false
  value := false
  noCheck := false

/-- A picture being decoded (R78, R144). -/
structure DecPic where
  /-- R131: decode order number. -/
  num : Nat
  /-- R144: picture order count. -/
  poc : BitVec 32
  /-- R145: place in output order. -/
  order : Nat
  /-- R126: CTU size. -/
  ctu : Nat
  /-- R144: CTU rows of the picture. -/
  ctuRows : Nat
  /-- R59: PIC_COUNT from the first valid segment. -/
  picCount : Option (BitVec 32)
  /-- R59: picture-level fields of the first valid segment. -/
  head : Option SegHead
  /-- R140: tile row records. -/
  rows : Tbl RowRec
  /-- R132: picture order counts of its reference picture set. -/
  refs : List (BitVec 32)
  /-- R135: widths in CTUs of its HEVC tile columns. -/
  colW : List Nat
  /-- R135: heights in CTUs of its HEVC tile rows. -/
  rowH : List Nat
  /-- R155: its access unit is an entry access unit. -/
  entry : Bool
  /-- R157: RASL picture. -/
  rasl : Bool
  /-- R148: address of the CTU that follows the slice segments parsed so far. -/
  nextCtu : Nat
  /-- R131: tasks formed: CTU row and HEVC tile column. -/
  formed : List (Nat × Nat)
  /-- R144: primary tasks completed: CTU row and HEVC tile column. -/
  done : List (Nat × Nat)
  /-- R59: the access unit has ended. -/
  ended : Bool
  /-- R160: events already raised, by cause. -/
  evs : List (EventId × Nat)
  /-- R149: errors detected so far, each with its core. -/
  errs : List (DecErr × Option Nat)
  /-- R139: CTUs of slices that violate R139: first CTU and count. -/
  voids : List (Nat × Nat)
  /-- R86: tiles that entered SUSPECT by its events, with the cause. -/
  suspects : List (Cause × Nat)
  /-- R86: tiles that entered LOST by its events. -/
  losses : List Nat
  /-- R154: CTU rows that missed their deadline. -/
  lateRows : List Nat
  /-- R144: frame buffer descriptor. -/
  buf : Nat
  /-- R153: IRAP picture. -/
  irap : Bool
  /-- R84: arrival time of the access unit. -/
  arrival : BitVec 48
  /-- R153: recovery picture with exact match and no error since its message. -/
  exact : Bool
  /-- R129: PTP time at which the picture is output. -/
  outTime : Nat
  /-- R137: VR list as the picture begins: the previous picture's last. -/
  regions0 : List Rect
  /-- R138: slices parsed so far: the address of the first CTU of each, and the number of its CTUs with those of its dependent segments. -/
  slices : List (Nat × Nat)
  /-- R148: error class of the slice segment before, where it was not decoded. -/
  broken : Option Nat
  /-- R153: decode order number of the picture of the message whose recovery picture this is. -/
  exactFrom : Nat
  deriving DecidableEq, Repr

/-- DecPic after reset (INVENTORY.md, State). -/
def DecPic.reset : DecPic where
  num := 0
  poc := 0
  order := 0
  ctu := 64
  ctuRows := 0
  picCount := none
  head := none
  rows := []
  refs := []
  colW := []
  rowH := []
  entry := false
  rasl := false
  nextCtu := 0
  formed := []
  done := []
  ended := false
  evs := []
  errs := []
  voids := []
  suspects := []
  losses := []
  lateRows := []
  buf := 0
  irap := false
  arrival := 0
  exact := false
  outTime := 0
  regions0 := []
  slices := []
  broken := none
  exactFrom := 0

/-- Configuration of a decode stream, set by the image (R127). -/
structure DecCfg where
  /-- R312: the stream is enabled. -/
  enabled : Bool
  /-- R304: stream class. -/
  cls : StreamClass
  /-- R298: owning partition. -/
  part : Nat
  /-- R310: home bay. -/
  home : Nat
  /-- R127: CODEC: H.264, default HEVC. -/
  h264 : Bool
  /-- R127: MAX_W. -/
  maxW : Nat
  /-- R127: MAX_H. -/
  maxH : Nat
  /-- R127: MAX_RATE. -/
  maxRate : Nat
  /-- R127: DPB_MAX. -/
  dpbMax : Nat
  /-- R127: SPLIT. -/
  split : Split
  /-- R127: CORES. -/
  cores : Nat
  /-- R127: QUEUE in bytes. -/
  queue : Nat
  /-- R127: BACKLOG. -/
  backlog : Nat
  /-- R127: LEDGER = REQUIRED. -/
  ledger : Bool
  /-- R130: host-fed stream. -/
  hostFed : Bool
  /-- R49: decode raster of a row shown nowhere. -/
  raster : Nat
  /-- R49: decode line of a row shown nowhere. -/
  line : Nat
  /-- R251: HOLD in ns, default 200 us. -/
  hold : Nat
  /-- R308: VALUE_TILES. -/
  valueTiles : Nat
  /-- R308: P, peak byte rate of the stream's policer. -/
  peak : Nat
  /-- R252: ST 2022-7 dual path. -/
  dual : Bool
  deriving DecidableEq, Repr

/-- DecCfg after reset (INVENTORY.md, State). -/
def DecCfg.reset : DecCfg where
  enabled := false
  cls := .background
  part := 0
  home := 0
  h264 := false
  maxW := 3840
  maxH := 2160
  maxRate := 497664000
  dpbMax := 6
  split := .none
  cores := 1
  queue := 4194304
  backlog := 2
  ledger := true
  hostFed := false
  raster := 0
  line := 0
  hold := 200000
  valueTiles := 0
  peak := 0
  dual := false

/-- A decode stream context (R125 to R160). -/
structure DecStream where
  /-- R127: configuration. -/
  cfg : DecCfg
  /-- R159: STATE. -/
  st : DecState
  /-- R159: LAST_ERROR. -/
  lastError : BitVec 4
  /-- R159: CORES. -/
  coresUsed : BitVec 4
  /-- R159: DUAL. -/
  dualNow : Bool
  /-- R159: LATE. -/
  late : Bool
  /-- R159: UPD_SEQ. -/
  updSeq : BitVec 16
  /-- R159: ERRORS. -/
  errors : BitVec 32
  /-- R159: PICTURES. -/
  pictures : BitVec 32
  /-- R159: ROWS_LATE. -/
  rowsLate : BitVec 16
  /-- R159: SKIPPED. -/
  skipped : BitVec 16
  /-- R126: TILE_COLS of the active SPS's grid. -/
  cols : Nat
  /-- R126: TILE_ROWS of the active SPS's grid. -/
  rowsN : Nat
  /-- R157: retained parameter sets. -/
  params : List ParamSet
  /-- R126: active SPS. -/
  sps : Option ParamSet
  /-- R130: bytes of the bitstream queue parsed since start. -/
  rptr : Nat
  /-- R131: unreleased queue marks. -/
  marks : List Nat
  /-- R256: write pointer: bytes appended since start. -/
  wptr : Nat
  /-- R130: items appended and not yet parsed, oldest first. -/
  items : List QItem
  /-- R78: pictures in decoding, oldest first. -/
  pics : List DecPic
  /-- R131: next decode order number. -/
  nextPic : Nat
  /-- R145: descriptor of the newest picture with every row complete. -/
  shown : Option Nat
  /-- R137: VR list of the most recent valid segment. -/
  regions : List Rect
  /-- R70: STEPPED flag of the last valid segment. -/
  stepped : Bool
  /-- R143: value hold store: samples by tile number; unlisted tiles are mid-grey. -/
  hold : Tbl Samples
  /-- R140: tiles whose HM bit is 1. -/
  hm : List Nat
  /-- R138: the two check copies of the value regions, by 65536 x parity of the picture's number + tile number; unlisted tiles are not set. -/
  chkCopy : Tbl Samples
  /-- R146: tainted tiles of the check copies, numbered likewise. -/
  chkTaint : List Nat
  /-- R143: pool descriptors of the hold store, the check copy of even pictures and that of odd ones. -/
  buffers : List Nat
  /-- R143: reconstructed pictures, by frame buffer descriptor number. -/
  frames : Tbl FrameBuf
  /-- R84: arrival time of the access unit in arrival. -/
  arrival : BitVec 48
  /-- R137: check bay of the pairing in force. -/
  checkBay : Option Nat
  /-- R310: bay of the latest placement. -/
  bay : Option Nat
  /-- R311: THINNED or STOPPED, when shed. -/
  shed : Option ShedKind
  /-- R72: tile state entries held on die. -/
  onDie : Bool
  /-- R141: DUAL_UNAVAILABLE has been raised for the condition in force. -/
  noDual : Bool
  /-- R153: recovery picture of an exact-match recovery point message with no error since. -/
  recoverAt : Option (BitVec 32)
  /-- R145: coded video sequences begun. -/
  epoch : Nat
  /-- R286: arrival time of the host-fed access unit that has begun and not ended. -/
  hostArr : Option (BitVec 48)
  /-- R157: SSRC of the source. -/
  ssrc : Option (BitVec 32)
  /-- R87: LAST_PIC of the ledger status. -/
  ledLast : BitVec 32
  /-- R87: UPD_SEQ of the ledger status. -/
  ledSeq : BitVec 16
  /-- R157: RASL pictures of the entry picture are discarded. -/
  noRasl : Bool
  /-- R135: cores of the stream, by their number in it. -/
  team : Tbl (Option Nat)
  /-- R149: error codes raised in the access unit in arrival without a picture. -/
  auErrs : List Nat
  /-- R149: errors of the access unit in arrival found before its picture. -/
  auPend : List DecErr
  /-- R148: no CTU of the access unit in arrival is decoded. -/
  auBad : Bool
  /-- R157: the access unit in arrival is discarded without an event. -/
  auSkip : Bool
  /-- R155: access units discarded in the skip in progress. -/
  skipNow : Nat
  /-- R86: PIC_COUNT for which TILE_SUSPECT with FUTURE was raised. -/
  futureAt : Option (BitVec 32)
  /-- R148: kinds and IDs of parameter sets that have failed: slices that need one are not decoded until an entry access unit. -/
  failed : List (Nat × Nat)
  /-- R158: kind and ID of an accepted parameter set change of the access unit in arrival, not yet reported. -/
  auChange : Option (Nat × Nat)
  /-- R160: PARAM_SET_CHANGED has been raised for the access unit in arrival. -/
  auTold : Bool
  /-- R151: tiles that have left every value region and whose samples are not yet those of the picture, given, that they left with. -/
  leaving : List (Nat × Nat)
  /-- R144: places in output order of the newest picture and of its reference picture set. -/
  rpsNow : List Nat
  /-- R153: decode order number of the picture of the recovery point message. -/
  recoverFrom : Nat
  /-- R256: bytes of the bitstream ring, by offset. -/
  ring : Tbl Byte
  /-- R256: first pool block of the bitstream ring in the partition's share. -/
  ringBase : Option Nat
  deriving DecidableEq, Repr

/-- DecStream after reset (INVENTORY.md, State). -/
def DecStream.reset : DecStream where
  cfg := DecCfg.reset
  st := .idle
  lastError := 0
  coresUsed := 0
  dualNow := false
  late := false
  updSeq := 0
  errors := 0
  pictures := 0
  rowsLate := 0
  skipped := 0
  cols := 0
  rowsN := 0
  params := []
  sps := none
  rptr := 0
  marks := []
  wptr := 0
  items := []
  pics := []
  nextPic := 0
  shown := none
  regions := []
  stepped := false
  hold := []
  hm := []
  chkCopy := []
  chkTaint := []
  buffers := []
  frames := []
  arrival := 0
  checkBay := none
  bay := none
  shed := none
  onDie := false
  noDual := false
  recoverAt := none
  epoch := 0
  hostArr := none
  ssrc := none
  ledLast := 0
  ledSeq := 0
  noRasl := false
  team := []
  auErrs := []
  auPend := []
  auBad := false
  auSkip := false
  skipNow := 0
  futureAt := none
  failed := []
  auChange := none
  auTold := false
  leaving := []
  rpsNow := []
  recoverFrom := 0
  ring := []
  ringBase := none

/-- A window descriptor (R161) and what the compositor keeps of it in a frame. -/
structure Window where
  /-- R161: ENABLE. -/
  enable : Bool
  /-- R161: VALUE. -/
  value : Bool
  /-- R161: PARTITION. -/
  part : BitVec 3
  /-- R161: RASTER. -/
  raster : BitVec 4
  /-- R161: STREAM. -/
  stream : BitVec 8
  /-- R161: LAYER. -/
  layer : BitVec 8
  /-- R161: SRC_X. -/
  srcX : BitVec 16
  /-- R161: SRC_Y. -/
  srcY : BitVec 16
  /-- R161: SRC_W. -/
  srcW : BitVec 16
  /-- R161: SRC_H. -/
  srcH : BitVec 16
  /-- R161: DST_X. -/
  dstX : BitVec 16
  /-- R161: DST_Y. -/
  dstY : BitVec 16
  /-- R161: DST_W. -/
  dstW : BitVec 16
  /-- R161: DST_H. -/
  dstH : BitVec 16
  /-- R161: BOUND. -/
  bound : BitVec 16
  /-- R161: WORST. -/
  worst : Shown
  /-- R161: UPD_SEQ. -/
  updSeq : BitVec 16
  /-- R161: worst state shown so far in the frame in progress. -/
  acc : Shown
  /-- R86: a line of the frame in progress has been fetched. -/
  seen : Bool
  /-- R86: whether the last complete frame showed only FRESH; none before the first. -/
  prev : Option Bool
  /-- R172: frame for which CMP_LINE_LATE was raised. -/
  lateFrame : Option Nat
  /-- R144: pool descriptors counted in SCAN for the frame in progress. -/
  scans : List Nat
  deriving DecidableEq, Repr

/-- Window after reset (INVENTORY.md, State). -/
def Window.reset : Window where
  enable := false
  value := false
  part := 0
  raster := 0
  stream := 0
  layer := 0
  srcX := 0
  srcY := 0
  srcW := 0
  srcH := 0
  dstX := 0
  dstY := 0
  dstW := 0
  dstH := 0
  bound := 0x03E8
  worst := .fresh
  updSeq := 0
  acc := .fresh
  seen := false
  prev := none
  lateFrame := none
  scans := []

/-- The compositor (R161 to R172, R72, R82). -/
structure Cmp where
  /-- R161: window descriptors 0 to 511, in force. -/
  windows : Tbl Window
  /-- R162: committed descriptors waiting for line 0 of their raster. -/
  pendWin : Tbl (Option Window)
  /-- R163: CMP_BG of rasters 0 to 15. -/
  bg : Tbl (BitVec 32)
  /-- R82: CMP_OVL_STYLE, by 4 x partition + state; unlisted ones hold the reset words. -/
  ovl : Tbl (BitVec 32)
  /-- R73: tile state entries, by 65536 x stream + tile number. -/
  tiles : Tbl TileEntry
  /-- R171: lines in the rasters' output buffers, by 8 x raster + line modulo 8. -/
  lines : Tbl (List Pixel)
  /-- R171: frame and line last fetched, by raster. -/
  fetched : Tbl (Option (Nat × Nat))
  /-- R402: source 343 fenced: every window is drawn with the LOST fill. -/
  gateFenced : Bool
  deriving DecidableEq, Repr

/-- Cmp after reset (INVENTORY.md, State). -/
def Cmp.reset : Cmp where
  windows := []
  pendWin := []
  bg := []
  ovl := []
  tiles := []
  lines := []
  fetched := []
  gateFenced := false

/-- A DisplayPort source port (R174). -/
structure DpoPort where
  /-- R174: FORMAT. -/
  format : BitVec 2
  /-- R174: RANGE. -/
  range : Bool
  /-- R174: DEPTH. -/
  depth : Bool
  /-- R174: LINK_RATE. -/
  linkRate : BitVec 4
  /-- R174: LANES. -/
  lanes : BitVec 3
  /-- R182: the trained transmitter settings, a byte for each lane. -/
  drive : BitVec 32
  /-- R174: LINK_STATE. -/
  link : DpoLink
  /-- R52: FORMAT, RANGE and DEPTH of the frames in progress. -/
  video : BitVec 4
  /-- R174: HPD from the sink. -/
  hpd : Bool
  /-- R182: ungated by a takeover switch and not retrained since. -/
  switched : Bool
  /-- R402: the port is fenced. -/
  fenced : Bool
  deriving DecidableEq, Repr

/-- DpoPort after reset (INVENTORY.md, State). -/
def DpoPort.reset : DpoPort where
  format := 0
  range := false
  depth := true
  linkRate := 0
  lanes := 0
  drive := 0
  link := .down
  video := 1
  hpd := false
  switched := false
  fenced := false

/-- A DisplayPort sink port (R177). -/
structure DpiPort where
  /-- R177: ENABLE. -/
  enable : Bool
  /-- R177: FORMAT. -/
  format : BitVec 2
  /-- R177: RANGE. -/
  range : Bool
  /-- R177: DEPTH. -/
  depth : Bool
  /-- R177: EDID_LEN. -/
  edidLen : BitVec 3
  /-- R177: LINK_RATE. -/
  linkRate : BitVec 4
  /-- R177: LANES. -/
  lanes : BitVec 3
  /-- R177: LINK_STATE. -/
  link : DpiLink
  /-- R177: SEQ. -/
  seq : BitVec 8
  /-- R177: REASON. -/
  reason : BitVec 4
  /-- R177: MEAS_W. -/
  measW : BitVec 16
  /-- R177: MEAS_H. -/
  measH : BitVec 16
  /-- R176: HPD asserted by the device. -/
  hpd : Bool
  /-- R176: the 2 ms low pulse of HPD is in progress. -/
  pulse : Bool
  /-- R176: the main stream that the source sends. -/
  stream : Option MainStream
  /-- R177: DPI_EDID words 0 to 127. -/
  edid : Tbl (BitVec 32)
  /-- R402: the port is fenced. -/
  fenced : Bool
  deriving DecidableEq, Repr

/-- DpiPort after reset (INVENTORY.md, State). -/
def DpiPort.reset : DpiPort where
  enable := false
  format := 0
  range := false
  depth := true
  edidLen := 2
  linkRate := 0
  lanes := 0
  link := .down
  seq := 0
  reason := 0
  measW := 0
  measH := 0
  hpd := false
  pulse := false
  stream := none
  edid := []
  fenced := false

/-- An output raster's gate (R182) and, for rasters 8 to 15, its ST 2110-20 sender (R178). -/
structure OutPort where
  /-- R182: INTENT. -/
  intent : Bool
  /-- R182: GATED. -/
  gated : Bool
  /-- R182: value that GATED takes at the next start of line LA. -/
  pendGate : Option Bool
  /-- R178: next extended sequence number. -/
  extSeq : BitVec 32
  /-- R178: egress flow queues that carry the raster's packets. -/
  flows : List Nat
  /-- R182: frame and first extended sequence number the lead last reported. -/
  peerSeq : Option (Nat × BitVec 32)
  /-- R171: the line that the port sends, none without a video stream. -/
  wire : Option (List Pixel)
  deriving DecidableEq, Repr

/-- OutPort after reset (INVENTORY.md, State). -/
def OutPort.reset : OutPort where
  intent := false
  gated := true
  pendGate := none
  extSeq := 0
  flows := []
  peerSeq := none
  wire := none

/-- All output and input ports (R173 to R182). -/
structure OutPorts where
  /-- R174: DPO0 to DPO7. -/
  dpo : Tbl DpoPort
  /-- R177: DPI0 to DPI3. -/
  dpi : Tbl DpiPort
  /-- R182: output rasters 0 to 15. -/
  gates : Tbl OutPort
  /-- R183: raster or port and frame at which each event of R183 was raised last. -/
  evFrame : List (EventId × Nat × Nat)
  deriving DecidableEq, Repr

/-- OutPorts after reset (INVENTORY.md, State). -/
def OutPorts.reset : OutPorts where
  dpo := []
  dpi := []
  gates := []
  evFrame := []

/-- A hardware thread of a coding core (R192). -/
structure Thread where
  /-- R192: thread state. -/
  st : ThreadState
  /-- R192: what a thread in WAIT is blocked on. -/
  waitOn : Option WaitOn
  /-- R192: program address. -/
  pc : BitVec 13
  /-- R192: registers G1 to G31 (G0 reads 0). -/
  regs : Tbl (BitVec 32)
  /-- R209: set when the registers were lost in C4: unlisted ones are free values of this number. -/
  lost : Option Nat
  /-- R192: flags Z, N, V, C, T, SAT and DZ. -/
  flags : Flags
  /-- R196: 64-bit accumulator. -/
  acc : BitVec 64
  /-- R191: micro-stack, top first. -/
  stack : List (BitVec 13)
  /-- R195: YIELD: issues no word in the next cycle. -/
  yielded : Bool
  /-- R197: committed registers. -/
  cRegs : Tbl (BitVec 32)
  /-- R197: committed flags. -/
  cFlags : Flags
  /-- R197: committed accumulator. -/
  cAcc : BitVec 64
  /-- R197: committed micro-stack. -/
  cStack : List (BitVec 13)
  /-- R197: restart address. -/
  restart : BitVec 13
  /-- R201: the thread was IDLE at its last commit. -/
  cIdle : Bool
  /-- R197: visible outputs staged since the last commit. -/
  staged : Nat
  deriving DecidableEq, Repr

/-- Thread after reset (INVENTORY.md, State). -/
def Thread.reset : Thread where
  st := .idle
  waitOn := none
  pc := 0
  regs := []
  lost := none
  flags := Flags.reset
  acc := 0
  stack := []
  yielded := false
  cRegs := []
  cFlags := Flags.reset
  cAcc := 0
  cStack := []
  restart := 0
  cIdle := true
  staged := 0

/-- A coding core (R184 to R211). -/
structure CoreS where
  /-- R211: PSTATE. -/
  pstate : PState
  /-- R210: a wake has been requested and the exit latency has not ended. -/
  waking : Bool
  /-- R210: Bellows tokens of the wake have been granted. -/
  granted : Bool
  /-- R210: time from which the exit latency of the wake counts. -/
  grantAt : Nat
  /-- R210: time at which the entry into the power state is complete. -/
  entered : Nat
  /-- R211: BANK: 0 A, 1 B. -/
  bank : Bool
  /-- R211: FENCED. -/
  fenced : Bool
  /-- R211: DRAINING. -/
  draining : Bool
  /-- R211: ROLE. -/
  role : CoreRole
  /-- R301: owning partition; none for an unowned spare. -/
  part : Option Nat
  /-- R211: SEQ of COR_FAULT. -/
  seq : BitVec 8
  /-- R211: CAUSE. -/
  cause : BitVec 3
  /-- R211: THREAD. -/
  fThread : BitVec 3
  /-- R211: GROUP. -/
  fGroup : BitVec 3
  /-- R211: ADDR. -/
  fAddr : BitVec 13
  /-- R203: times of the deadlock-class faults of the last 1 s (RECENT). -/
  recent : List Nat
  /-- R205: times and word addresses of machine checks of the last 1 s. -/
  checks : List (Nat × BitVec 13)
  /-- R211: SWAP. -/
  swapPend : Bool
  /-- R211: REFUSED. -/
  refused : Bool
  /-- R211: REASON. -/
  reason : BitVec 3
  /-- R211: VALID_A. -/
  validA : Bool
  /-- R211: VALID_B. -/
  validB : Bool
  /-- R206: pattern identity of bank A. -/
  patA : BitVec 16
  /-- R206: pattern identity of bank B. -/
  patB : BitVec 16
  /-- R206: decision identity of bank A. -/
  decA : BitVec 16
  /-- R206: decision identity of bank B. -/
  decB : BitVec 16
  /-- R206: BANK_CRC of bank A's image record. -/
  crcA : BitVec 32
  /-- R206: BANK_CRC of bank B's image record. -/
  crcB : BitVec 32
  /-- R185: pattern store: bank A at 0, bank B at 8,192. -/
  words : Tbl (BitVec 160)
  /-- R185: DRAM copy of the banks. -/
  copies : Tbl (BitVec 160)
  /-- R205: the DRAM copy has met an uncorrectable error and is to be rewritten. -/
  copyBad : Bool
  /-- R192: threads 0 to 7. -/
  threads : Tbl Thread
  /-- R193: event bits. -/
  events : BitVec 64
  /-- R184: units by unit code. -/
  units : Tbl UnitS
  /-- R185: working memory, 1,728 KiB. -/
  mem : Memory
  /-- R209: set when working memory was lost: unlisted bytes are free values of this number. -/
  memLost : Option Nat
  /-- R191: descriptor table, 16 entries of 16 bytes. -/
  desc : Memory
  /-- R191: FILL and DRAIN transfers in progress. -/
  dma : List CoreDma
  /-- R192: thread that issued last. -/
  last : Nat
  /-- R202: time at which the count of cycles towards DEADLOCK last was 0. -/
  movedAt : Nat
  /-- R202: issue stopped by a machine check until the reload ends. -/
  stalled : Bool
  /-- R204: the active bank is being reloaded. -/
  reload : Bool
  /-- R201: decode tasks in flight, by task number. -/
  tasks : List Nat
  /-- R103: encode stream whose row is in flight. -/
  encTask : Option Nat
  /-- R402: motion search unit fenced. -/
  noSearch : Bool
  /-- R402: times of contained faults of the last 1 s. -/
  faults : List Nat
  /-- R402: times of contained motion search faults of the last 1 s. -/
  searchFaults : List Nat
  deriving DecidableEq, Repr

/-- CoreS after reset (INVENTORY.md, State). -/
def CoreS.reset : CoreS where
  pstate := .c4
  waking := false
  granted := false
  grantAt := 0
  entered := 0
  bank := false
  fenced := false
  draining := false
  role := .unassigned
  part := none
  seq := 0
  cause := 0
  fThread := 0
  fGroup := 0
  fAddr := 0
  recent := []
  checks := []
  swapPend := false
  refused := false
  reason := 0
  validA := false
  validB := false
  patA := 0
  patB := 0
  decA := 0
  decB := 0
  crcA := 0
  crcB := 0
  words := []
  copies := []
  copyBad := false
  threads := []
  events := 0
  units := []
  mem := []
  memLost := none
  desc := []
  dma := []
  last := 7
  movedAt := 0
  stalled := false
  reload := false
  tasks := []
  encTask := none
  noSearch := false
  faults := []
  searchFaults := []

/-- One DRAM line as stored (R215). -/
structure DramLine where
  /-- R215: 64 data bytes, byte 0 least significant. -/
  data : BitVec 512
  /-- R215: eight SECDED check bytes, byte 0 least significant. -/
  check : BitVec 64
  /-- R215: the tag. -/
  tag : BitVec 64
  deriving DecidableEq, Repr

/-- DramLine after reset (INVENTORY.md, State). -/
def DramLine.reset : DramLine where
  data := 0
  check := 0
  tag := 0

/-- A merge buffer entry (R220). -/
structure Merge where
  /-- R220: channel line address. -/
  line : Nat
  /-- R220: bytes held, by offset in the line. -/
  bytes : List (Nat × Byte)
  /-- R220: partition of the requester. -/
  part : BitVec 3
  /-- R218: the requester is exempt from the partition test. -/
  exempt : Bool
  deriving DecidableEq, Repr

/-- Merge after reset (INVENTORY.md, State). -/
def Merge.reset : Merge where
  line := 0
  bytes := []
  part := 0
  exempt := false

/-- An entry of the error-address queue (R231, R238). -/
structure ErrEntry where
  /-- R238: KIND. -/
  kind : BitVec 4
  /-- R238: SOURCE. -/
  source : BitVec 2
  /-- R238: PARTITION. -/
  part : BitVec 3
  /-- R238: COUNT. -/
  count : BitVec 8
  /-- R238: L. -/
  line : BitVec 33
  deriving DecidableEq, Repr

/-- ErrEntry after reset (INVENTORY.md, State). -/
def ErrEntry.reset : ErrEntry where
  kind := 0
  source := 0
  part := 0
  count := 0
  line := 0

/-- One rank of a channel (R223, R225). -/
structure RankS where
  /-- R225: the rank is in power-down. -/
  powerDown : Bool
  /-- R223: the last MR4 reading called for doubled refresh. -/
  hot : Bool
  deriving DecidableEq, Repr

/-- RankS after reset (INVENTORY.md, State). -/
def RankS.reset : RankS where
  powerDown := false
  hot := false

/-- The page predictor of a bank (R224). -/
structure BankP where
  /-- R224: predictor, starting at 0b10. -/
  pred : BitVec 2
  /-- R224: row last accessed. -/
  row : Option Nat
  /-- R224: the row is open. -/
  opened : Bool
  deriving DecidableEq, Repr

/-- BankP after reset (INVENTORY.md, State). -/
def BankP.reset : BankP where
  pred := 2
  row := none
  opened := false

/-- A memory channel controller (R212 to R239). -/
structure Chan where
  /-- R238: STATE. -/
  st : ChanState
  /-- R303: slots that requests hold, of 128. -/
  slots : List DramSlot
  /-- R238: HOT. -/
  hot : Bool
  /-- R223: time since which the readings call for normal refresh. -/
  normSince : Option Nat
  /-- R238: SCRUB_URGENT. -/
  urgent : Bool
  /-- R238: RETRAIN_TRIES. -/
  tries : BitVec 3
  /-- R238: RETIRED. -/
  retired : BitVec 16
  /-- R215: lines written since the last fill. -/
  lines : Tbl DramLine
  /-- R228: the hardware fill has written every line. -/
  filled : Bool
  /-- R220: merge buffer, least recently used first. -/
  merge : List Merge
  /-- R231: error-address queue, head first. -/
  errq : List ErrEntry
  /-- R238: SEQ of DRM_ERRQ. -/
  errSeq : BitVec 8
  /-- R238: OVF. -/
  ovf : BitVec 16
  /-- R238: CE_TOTAL. -/
  ceTotal : BitVec 16
  /-- R238: DONE. -/
  scrubDone : BitVec 32
  /-- R230: time at which the sweep began. -/
  scrubStart : Nat
  /-- R230: DRAM_SCRUB_URGENT raised in this sweep. -/
  scrubRaised : Bool
  /-- R233: times and lines of UE of the last 1 s. -/
  ueTimes : List (Nat × Nat)
  /-- R233: times of MISDIRECT of the last 1 s. -/
  misTimes : List Nat
  /-- R225: ranks 0 and 1. -/
  ranks : Tbl RankS
  /-- R224: page predictors, by rank, bank group and bank. -/
  banks : Tbl BankP
  /-- R227: calibration slivers run. -/
  zqTurn : Nat
  /-- R227: the oscillator drift exceeds 1/16 UI and a retrain is due. -/
  drifted : Bool
  /-- R227: ranks whose ZQCAL START awaits its LATCH. -/
  zqLatch : List Nat
  /-- R222: REFab commands issued. -/
  refreshes : Nat
  /-- R232: errors that the Tack has written to the log in the last 24 h: time, line, whether UE. -/
  logErrs : List (Nat × Nat × Bool)
  /-- R235: the poisoned fill has ended. -/
  remapFilled : Bool
  /-- R402: times of RESTART faults of the last 1 s. -/
  faults : List Nat
  deriving DecidableEq, Repr

/-- Chan after reset (INVENTORY.md, State). -/
def Chan.reset : Chan where
  st := .untrained
  slots := []
  hot := false
  normSince := none
  urgent := false
  tries := 0
  retired := 0
  lines := []
  filled := false
  merge := []
  errq := []
  errSeq := 0
  ovf := 0
  ceTotal := 0
  scrubDone := 0
  scrubStart := 0
  scrubRaised := false
  ueTimes := []
  misTimes := []
  ranks := []
  banks := []
  zqTurn := 0
  drifted := false
  zqLatch := []
  refreshes := 0
  logErrs := []
  remapFilled := false
  faults := []

/-- A Flask pool descriptor (R144). -/
structure PoolDesc where
  /-- R144: KIND. -/
  kind : BitVec 2
  /-- R144: REF. -/
  ref : Bool
  /-- R144: OUT. -/
  out : Bool
  /-- R144: CUR. -/
  cur : Bool
  /-- R144: SCAN. -/
  scan : BitVec 10
  /-- R144: PARTITION. -/
  part : BitVec 3
  /-- R144: STREAM. -/
  stream : BitVec 8
  /-- R144: ROWS_DONE. -/
  rowsDone : BitVec 16
  /-- R144: TAINTED. -/
  tainted : BitVec 16
  /-- R144: ORDER. -/
  order : BitVec 32
  /-- R144: BASE. -/
  base : BitVec 32
  /-- R143: pool blocks of the buffer. -/
  size : Nat
  deriving DecidableEq, Repr

/-- PoolDesc after reset (INVENTORY.md, State). -/
def PoolDesc.reset : PoolDesc where
  kind := 0
  ref := false
  out := false
  cur := false
  scan := 0
  part := 0
  stream := 0
  rowsDone := 0
  tainted := 0
  order := 0
  base := 0
  size := 0

/-- The memory system as a whole (R212, R234, R238). -/
structure Drm where
  /-- R212: channels 0 to 11. -/
  chans : Tbl Chan
  /-- R238: REMAPPED. -/
  remapped : Bool
  /-- R238: FENCED_CH. -/
  fencedCh : BitVec 4
  /-- R238: TOLERANT. -/
  tolerant : Bool
  /-- R238: SPARE_BASE. -/
  spareBase : BitVec 19
  /-- R234: pool blocks of the image. -/
  poolBlocks : Nat
  /-- R302: region tables by partition, as ranges of pool blocks. -/
  regions : Tbl (List (Nat × Nat))
  /-- R303: SLOT_RESV by partition. -/
  slotResv : Tbl Nat
  /-- R303: SLOT_MAX by partition. -/
  slotMax : Tbl Nat
  /-- R225: RPD_IDLE, default 64. -/
  rpdIdle : Nat
  /-- R232: retirement list: channel and channel block. -/
  retire : List (Nat × Nat)
  /-- R232: DRAM_RETIRE_FULL raised since LOAD. -/
  retireFull : Bool
  /-- R218: outcome and data of the last read. -/
  last : ReadResult
  /-- R26: requests that wait for a slot or for the fill of their block, oldest first. -/
  waits : List DramWait
  /-- R144: Flask pool descriptors 0 to 4,095. -/
  pool : Tbl PoolDesc
  deriving DecidableEq, Repr

/-- Drm after reset (INVENTORY.md, State). -/
def Drm.reset : Drm where
  chans := []
  remapped := false
  fencedCh := 0xF
  tolerant := false
  spareBase := 0
  poolBlocks := 0
  regions := []
  slotResv := []
  slotMax := []
  rpdIdle := 64
  retire := []
  retireFull := false
  last := ReadResult.reset
  waits := []
  pool := []

/-- A classifier rule (R245). -/
structure Rule where
  /-- R245: VALID. -/
  valid : Bool
  /-- R245: PORTS. -/
  ports : BitVec 4
  /-- R245: VLAN_EN. -/
  vlanEn : Bool
  /-- R245: VID. -/
  vid : BitVec 12
  /-- R245: IPV6. -/
  ipv6 : Bool
  /-- R245: SRC_EN. -/
  srcEn : Bool
  /-- R245: SSRC_EN. -/
  ssrcEn : Bool
  /-- R245: UDP_DPORT. -/
  dport : BitVec 16
  /-- R245: SSRC. -/
  ssrc : BitVec 32
  /-- R245: DST_IP. -/
  dstIp : BitVec 128
  /-- R245: SRC_IP. -/
  srcIp : BitVec 128
  /-- R245: PARTITION. -/
  part : BitVec 3
  /-- R245: TC. -/
  tc : BitVec 3
  /-- R245: DEST. -/
  dest : BitVec 2
  /-- R245: STREAM. -/
  stream : BitVec 8
  /-- R245: PATH. -/
  path : Bool
  /-- R245: QUENCH. -/
  quench : Bool
  /-- R245: POLICER. -/
  policer : BitVec 9
  /-- R245: POL_EN. -/
  polEn : Bool
  deriving DecidableEq, Repr

/-- Rule after reset (INVENTORY.md, State). -/
def Rule.reset : Rule where
  valid := false
  ports := 0
  vlanEn := false
  vid := 0
  ipv6 := false
  srcEn := false
  ssrcEn := false
  dport := 0
  ssrc := 0
  dstIp := 0
  srcIp := 0
  part := 0
  tc := 0
  dest := 3
  stream := 0
  path := false
  quench := false
  policer := 0
  polEn := false

/-- A policer (R247) with its buckets (R248). -/
structure Policer where
  /-- R247: ENABLE. -/
  enable : Bool
  /-- R247: MODE. -/
  mode : Bool
  /-- R247: AWARE. -/
  aware : Bool
  /-- R247: PARTITION. -/
  part : BitVec 3
  /-- R247: CIR. -/
  cir : BitVec 24
  /-- R247: PIR. -/
  pir : BitVec 24
  /-- R247: CBS. -/
  cbs : BitVec 16
  /-- R247: EBS. -/
  ebs : BitVec 16
  /-- R247: committed bucket, in bytes times 10^9. -/
  tc : Nat
  /-- R247: excess or peak bucket, in bytes times 10^9. -/
  te : Nat
  /-- R248: time of the last update. -/
  asOf : Nat
  deriving DecidableEq, Repr

/-- Policer after reset (INVENTORY.md, State). -/
def Policer.reset : Policer where
  enable := false
  mode := false
  aware := false
  part := 0
  cir := 0
  pir := 0
  cbs := 0
  ebs := 0
  tc := 0
  te := 0
  asOf := 0

/-- An egress flow queue and its shaper (R263 to R266). -/
structure Flow where
  /-- R265: ENABLE. -/
  enable : Bool
  /-- R265: PORT. -/
  port : BitVec 2
  /-- R265: TC. -/
  tc : BitVec 3
  /-- R265: WEIGHT. -/
  weight : BitVec 8
  /-- R265: PARTITION. -/
  part : BitVec 3
  /-- R265: PATH. -/
  path : Bool
  /-- R265: RATE. -/
  rate : BitVec 24
  /-- R265: MAX_BURST. -/
  maxBurst : BitVec 16
  /-- R265: bucket, in units of 1/1,024 byte (BKT). -/
  bkt : Int
  /-- R265: time of the last refill. -/
  bktAt : Nat
  /-- R265: refill not yet worth 1/1,024 byte. -/
  frac : Nat
  /-- R263: queued packets, head first. -/
  queue : List Pkt
  /-- R264: finish tag of the last packet. -/
  finish : Nat
  /-- R268: the flow is one copy of an ST 2022-7 pair. -/
  dualPath : Bool
  deriving DecidableEq, Repr

/-- Flow after reset (INVENTORY.md, State). -/
def Flow.reset : Flow where
  enable := false
  port := 0
  tc := 0
  weight := 1
  part := 0
  path := false
  rate := 0
  maxBurst := 0
  bkt := 0
  bktAt := 0
  frac := 0
  queue := []
  finish := 0
  dualPath := false

/-- An Ethernet port (R243, R267 to R269). -/
structure EthPort where
  /-- R31: hardware timestamp of the last frame sent. -/
  txAt : BitVec 48
  /-- R269: LINK. -/
  link : Bool
  /-- R269: PAUSE_MODE. -/
  pauseMode : BitVec 2
  /-- R269: LOOPBACK. -/
  loopback : Bool
  /-- R269: PAUSED. -/
  paused : BitVec 8
  /-- R269: STALLED. -/
  stalled : BitVec 8
  /-- R267: time at which each class's pause timer expires. -/
  pauseEnd : Tbl Nat
  /-- R268: time at which each class's unbroken pause began. -/
  pauseFrom : Tbl Nat
  /-- R268: time at which each stalled class was last unpaused. -/
  freeFrom : Tbl Nat
  /-- R269: counters, by offset divided by 8. -/
  counts : Tbl (BitVec 64)
  /-- R264: virtual time V, in units of 1/(byte times product of weights). -/
  vtime : Nat
  /-- R262: PFC sending enabled. -/
  pfcEn : Bool
  /-- R262: quanta 65,535 are in force toward the sender. -/
  pfcSent : Bool
  /-- R262: time at which they were last sent. -/
  pfcAt : Nat
  /-- R402: the port is fenced. -/
  fenced : Bool
  /-- R31: PTP enabled on the port. -/
  ptpEn : Bool
  /-- R119: MTU, default 1,500 (R243). -/
  mtu : Nat
  deriving DecidableEq, Repr

/-- EthPort after reset (INVENTORY.md, State). -/
def EthPort.reset : EthPort where
  txAt := 0
  link := false
  pauseMode := 0
  loopback := false
  paused := 0
  stalled := 0
  pauseEnd := []
  pauseFrom := []
  freeFrom := []
  counts := []
  vtime := 0
  pfcEn := false
  pfcSent := false
  pfcAt := 0
  fenced := false
  ptpEn := false
  mtu := 1500

/-- A virtual output queue (R241, R242). -/
structure Voq where
  /-- R241: queued packets, head first. -/
  queue : List Pkt
  /-- R242: serial number of the next packet to cross. -/
  serial : Nat
  /-- R242: serial number the egress side expects. -/
  expect : Nat
  /-- R242: packets that have crossed ahead of that number. -/
  early : List Pkt
  deriving DecidableEq, Repr

/-- Voq after reset (INVENTORY.md, State). -/
def Voq.reset : Voq where
  queue := []
  serial := 0
  expect := 0
  early := []

/-- Statistics of a queue (R270). -/
structure QStat where
  /-- R270: DEPTH. -/
  depth : BitVec 32
  /-- R270: greatest DEPTH in the interval in progress. -/
  maxNow : BitVec 32
  /-- R270: MAX_DEPTH. -/
  maxDepth : BitVec 32
  /-- R270: greatest sojourn in the interval in progress. -/
  delayNow : BitVec 32
  /-- R270: MAX_DELAY. -/
  maxDelay : BitVec 32
  /-- R270: AGED. -/
  aged : BitVec 16
  /-- R270: SEQ. -/
  seq : BitVec 16
  deriving DecidableEq, Repr

/-- QStat after reset (INVENTORY.md, State). -/
def QStat.reset : QStat where
  depth := 0
  maxNow := 0
  maxDepth := 0
  delayNow := 0
  maxDelay := 0
  aged := 0
  seq := 0

/-- A Stitcher context (R250 to R254). -/
structure Stitch where
  /-- R250: X, the extended sequence number expected next. -/
  next : Option Nat
  /-- R250: held packets, by ascending number. -/
  held : List Pkt
  /-- R253: jump candidate. -/
  cand : Option Pkt
  /-- R252: time of the last packet on path A. -/
  lastA : Nat
  /-- R252: time of the last packet on path B. -/
  lastB : Nat
  /-- R252: path A is UP. -/
  upA : Bool
  /-- R252: path B is UP. -/
  upB : Bool
  /-- R250: numbers declared missing, of the last 512. -/
  missing : List Nat
  /-- R252: arrival times of released numbers, of the last 512. -/
  arrivals : List (Nat × Nat)
  /-- R250: DUP. -/
  dup : Nat
  /-- R250: LATE. -/
  late : Nat
  /-- R250: packets that have reached the Stitcher and are not yet taken, oldest first. -/
  arrived : List Pkt
  /-- R254: RTP timestamp of the last packet released. -/
  lastTs : Option (BitVec 32)
  /-- R254: the access unit of that packet has not ended. -/
  auOpen : Bool
  /-- R254: arrival time of the access unit that is open. -/
  auAt : BitVec 48
  /-- R254: bytes of the fragmentation unit in progress. -/
  frag : Option (List Byte)
  /-- R253: SSRC of an ST 2110-20 input. -/
  ssrc : Option (BitVec 32)
  /-- R254: packets of kinds that R254 discards and counts. -/
  other : Nat
  /-- R252: skew of the paths as last measured, in ns. -/
  skew : Nat
  /-- R260: the last item written was the gap marker of a DROPPING discard. -/
  dropRun : Bool
  deriving DecidableEq, Repr

/-- Stitch after reset (INVENTORY.md, State). -/
def Stitch.reset : Stitch where
  next := none
  held := []
  cand := none
  lastA := 0
  lastB := 0
  upA := false
  upB := false
  missing := []
  arrivals := []
  dup := 0
  late := 0
  arrived := []
  lastTs := none
  auOpen := false
  auAt := 0
  frag := none
  ssrc := none
  other := 0
  skew := 0
  dropRun := false

/-- A Ladle buffer pool (R255 to R258, R480). -/
structure LdlPool where
  /-- R480: SHARE. -/
  share : BitVec 8
  /-- R480: FENCED. -/
  fenced : Bool
  /-- R255: buffers in the pool. -/
  total : Nat
  /-- R257: RESV by partition. -/
  resv : Tbl Nat
  /-- R257: TC7_RESV. -/
  tc7Resv : Nat
  /-- R257: YELLOW_FLOOR. -/
  yellowFloor : Nat
  /-- R257: SHARE_MAX by partition. -/
  shareMax : Tbl Nat
  /-- R257: buffers of RESV in use, by partition. -/
  usedResv : Tbl Nat
  /-- R257: buffers of TC7_RESV in use. -/
  usedTc7 : Nat
  /-- R257: shared buffers in use, by partition. -/
  usedShared : Tbl Nat
  /-- R258: allocation, generation and owner of each buffer. -/
  bufs : Tbl BufS
  /-- R480: QUARANTINED. -/
  quarantined : BitVec 16
  /-- R258: times of quarantines of the last 1 s. -/
  quarTimes : List Nat
  /-- R480: NOBUF. -/
  nobuf : BitVec 16
  /-- R480: UPD_SEQ. -/
  updSeq : BitVec 16
  deriving DecidableEq, Repr

/-- LdlPool after reset (INVENTORY.md, State). -/
def LdlPool.reset : LdlPool where
  share := 0
  fenced := false
  total := 0
  resv := []
  tc7Resv := 0
  yellowFloor := 0
  shareMax := []
  usedResv := []
  usedTc7 := 0
  usedShared := []
  bufs := []
  quarantined := 0
  quarTimes := []
  nobuf := 0
  updSeq := 0

/-- A receive queue of the Tack or a host queue (R244, R261). -/
structure RxQueue where
  /-- R261: packets, oldest first. -/
  queue : List Pkt
  /-- R261: time of the last dequeue, or of the first packet after empty. -/
  lastDeq : Nat
  /-- R261: the queue is in UNREAD. -/
  unread : Bool
  /-- R261: arrivals discarded in UNREAD. -/
  drops : Nat
  deriving DecidableEq, Repr

/-- RxQueue after reset (INVENTORY.md, State). -/
def RxQueue.reset : RxQueue where
  queue := []
  lastDeq := 0
  unread := false
  drops := 0

/-- The Runner and the Ladle (R240 to R271). -/
structure Run where
  /-- R269: Ethernet ports 0 to 3. -/
  ports : Tbl EthPort
  /-- R269: QUENCH_PIN: QUENCH_N is low. -/
  quenchPin : Bool
  /-- R269: QUENCH_MASK. -/
  quenchMask : BitVec 8
  /-- R269: PLANES. -/
  planes : BitVec 2
  /-- R269: SAMPLE_US. -/
  sampleUs : BitVec 20
  /-- R245: rules 0 to 2,047. -/
  rules : Tbl Rule
  /-- R247: policers 0 to 511; 512 and 513 are the fixed ones of R244. -/
  policers : Tbl Policer
  /-- R247: DSCP maps by partition. -/
  dscp : Tbl (BitVec 128)
  /-- R241: VOQs 0 to 1,151. -/
  voqs : Tbl Voq
  /-- R270: queue statistics 0 to 2,175. -/
  stats : Tbl QStat
  /-- R250: Stitcher contexts: decode streams 0 to 255, ST 2110-20 inputs at 256 + raster. -/
  stitch : Tbl Stitch
  /-- R255: Ladle pools 0 to 3. -/
  pools : Tbl LdlPool
  /-- R257: packet handles in use, by class. -/
  handles : Tbl Nat
  /-- R26: packets of encoders and outputs, each with its copies, that wait for a buffer and handles, oldest first. -/
  outWait : List (List Pkt)
  /-- R244: groups for which the Tack has generated membership reports, oldest first. -/
  reports : List (BitVec 128)
  /-- R179: ST 2110-20 input raster that a rule's STREAM feeds. -/
  capture : Tbl (Option Nat)
  /-- R265: egress flow queues 0 to 1,023. -/
  flows : Tbl Flow
  /-- R259: AGE_LIMIT by class where the image sets it; unlisted classes hold the default of R259. -/
  ageLimit : Tbl Nat
  /-- R251: HOLD in ns of an ST 2110-20 input that differs from 200 us. -/
  inHold : Tbl Nat
  /-- R261: UNREAD_TIMEOUT in ms, default 500. -/
  unreadMs : Nat
  /-- R262: PFC_XOFF, default 512. -/
  pfcXoff : Nat
  /-- R262: PFC_XON, default 1,024. -/
  pfcXon : Nat
  /-- R268: PAUSE_STORM in ms, default 100. -/
  pauseStorm : Nat
  /-- R261: receive queues of the Tack: 0 for TC6, 1 for TC7, 2 for TC0; host queues from 16. -/
  rx : Tbl RxQueue
  /-- R263: frames handed to the Ethernet transmitters and not yet departed. -/
  sent : List Pkt
  /-- R262: PFC frames sent: port and quanta. -/
  pfcOut : List (Nat × Nat)
  /-- R249: streams of quench commands and the times until which their effect is open. -/
  quenchPend : List (Nat × Nat)
  deriving DecidableEq, Repr

/-- Run after reset (INVENTORY.md, State). -/
def Run.reset : Run where
  ports := []
  quenchPin := false
  quenchMask := 0
  planes := 3
  sampleUs := 0x003E8
  rules := []
  policers := []
  dscp := []
  voqs := []
  stats := []
  stitch := []
  pools := []
  handles := []
  outWait := []
  reports := []
  capture := []
  flows := []
  ageLimit := []
  inHold := []
  unreadMs := 500
  pfcXoff := 512
  pfcXon := 1024
  pauseStorm := 100
  rx := []
  sent := []
  pfcOut := []
  quenchPend := []

/-- An admin or I/O queue (R275 to R279, R296). -/
structure HqQueue where
  /-- R296: VALID. -/
  valid : Bool
  /-- R296: KIND. -/
  kind : QKind
  /-- R296: FUNC. -/
  func : BitVec 4
  /-- R296: PARTITION. -/
  part : BitVec 3
  /-- R296: SQ_HEAD. -/
  sqHead : Nat
  /-- R296: SQ_TAIL. -/
  sqTail : Nat
  /-- R296: CQ_HEAD. -/
  cqHead : Nat
  /-- R296: CQ_TAIL. -/
  cqTail : Nat
  /-- R281: PHASE of the next completion. -/
  phase : Bool
  /-- R296: IN_EXEC. -/
  inExec : Nat
  /-- R296: VECTOR. -/
  vector : BitVec 11
  /-- R296: SQ size (SQ_SIZE_M1 + 1). -/
  sqSize : Nat
  /-- R296: CQ size (CQ_SIZE_M1 + 1). -/
  cqSize : Nat
  /-- R296: WEIGHT. -/
  weight : BitVec 8
  /-- R278: entries fetched in the queue's turn. -/
  turn : Nat
  /-- R296: POLL. -/
  poll : BitVec 14
  /-- R277: shadow address. -/
  shadow : BitVec 64
  /-- R275: SQ base. -/
  sqBase : BitVec 64
  /-- R275: CQ base. -/
  cqBase : BitVec 64
  /-- R275: stream of an OUTPUT queue. -/
  stream : Nat
  /-- R293: event group mask of an EVENT queue. -/
  mask : BitVec 64
  /-- R296: SQ_TAIL of HQ_DB as last written. -/
  dbSq : BitVec 16
  /-- R296: CQ_HEAD of HQ_DB as last written. -/
  dbCq : BitVec 16
  deriving DecidableEq, Repr

/-- HqQueue after reset (INVENTORY.md, State). -/
def HqQueue.reset : HqQueue where
  valid := false
  kind := .command
  func := 0
  part := 0
  sqHead := 0
  sqTail := 0
  cqHead := 0
  cqTail := 0
  phase := true
  inExec := 0
  vector := 0
  sqSize := 0
  cqSize := 0
  weight := 0
  turn := 0
  poll := 0
  shadow := 0
  sqBase := 0
  cqBase := 0
  stream := 0
  mask := 0
  dbSq := 0
  dbCq := 0

/-- A command in execution (R278). -/
structure Slot where
  /-- R278: path that carried the command. -/
  path : CmdPath
  /-- R280: CID. -/
  cid : BitVec 16
  /-- R281: SQ head after the fetch. -/
  sqHead : Nat
  /-- R279: fetch order. -/
  order : Nat
  /-- R279: FENCE. -/
  fence : Bool
  /-- R280: words of the submission entry. -/
  entry : List (BitVec 32)
  /-- R283: decoded command, none for one refused at the fetch. -/
  cmd : Option HostCmd
  /-- R278: ready, waiting or done. -/
  phase : SlotPhase
  /-- R282: STATUS. -/
  status : Status
  /-- R281: RESULT. -/
  result : BitVec 32
  /-- R281: FLAGS. -/
  flags : BitVec 8
  /-- R286: PTP time of the fetch. -/
  fetched : Nat
  /-- R347: time at which the command began to wait. -/
  started : Nat
  /-- R286: lengths of the NAL units of a DEC_POST. -/
  lens : List Nat
  /-- R282: bytes that the DMA of the command writes, by host address. -/
  out : List (Nat × List Byte)
  deriving DecidableEq, Repr

/-- Slot after reset (INVENTORY.md, State). -/
def Slot.reset : Slot where
  path := .queue 0
  cid := 0
  sqHead := 0
  order := 0
  fence := false
  entry := []
  cmd := none
  phase := .ready
  status := .success
  result := 0
  flags := 0
  fetched := 0
  started := 0
  lens := []
  out := []

/-- An in-band key (R295, R332). -/
structure Key where
  /-- R332: SCOPE: 0xFF all partitions, 0 to 7 one. -/
  scope : BitVec 8
  /-- R332: KEY, 32 bytes; write-only. -/
  key : List Byte
  /-- R295: last accepted COUNTER. -/
  counter : BitVec 64
  deriving DecidableEq, Repr

/-- Key after reset (INVENTORY.md, State). -/
def Key.reset : Key where
  scope := 0xFF
  key := []
  counter := 0

/-- The host queue engine (R272 to R297). -/
structure Hq where
  /-- R272: the endpoint has been released. -/
  up : Bool
  /-- R289: PAGE_FLUSH in us, default 50. -/
  pageFlush : Nat
  /-- R272: PCIe link state as last reported: 0 down, else rate and width. -/
  linkSt : Nat
  /-- R296: ENABLE. -/
  enable : Bool
  /-- R296: AQ_SIZE_M1. -/
  aqSizeM1 : BitVec 16
  /-- R296: admin SQ base. -/
  asqBase : BitVec 64
  /-- R296: admin CQ base. -/
  acqBase : BitVec 64
  /-- R296: AUTH_FAIL. -/
  authFail : BitVec 32
  /-- R296: EV_DROPPED. -/
  evDropped : BitVec 32
  /-- R296: queue 0 (admin) and I/O queues 1 to 1,024. -/
  queues : Tbl HqQueue
  /-- R278: commands in execution, by slot 0 to 255. -/
  slots : List (Nat × Slot)
  /-- R279: fetch order of the next command. -/
  nextOrder : Nat
  /-- R278: I/O queue whose turn it is. -/
  turnQ : Nat
  /-- R291: VF Enable. -/
  vfEnable : Bool
  /-- R274: partition bound to VF 1 to 8; unlisted ones are unbound. -/
  vfPart : Tbl (Option Nat)
  /-- R295: in-band keys 0 to 7. -/
  keys : Tbl (Option Key)
  /-- R273: bytes the device has written to host memory. -/
  hostMem : Memory
  /-- R292: MSI-X vectors raised and not yet delivered, masked ones included. -/
  msixPend : List Nat
  /-- R292: masked MSI-X vectors. -/
  msixMask : List Nat
  /-- R295: in-band replies sent. -/
  replies : List Datagram
  /-- R295: in-band messages of which commands are in execution. -/
  msgs : List KeyMsg
  /-- R285: posted DMAs in progress: slot and bytes. -/
  dmas : List (Nat × Nat)
  /-- R402: the host path is fenced. -/
  fenced : Bool
  /-- R465: holding words: writer, low address and value. -/
  wideLow : List (Writer × Nat × BitVec 32)
  /-- R272: Advanced Error Reporting has recorded an error. -/
  pciAer : Bool
  deriving DecidableEq, Repr

/-- Hq after reset (INVENTORY.md, State). -/
def Hq.reset : Hq where
  up := false
  pageFlush := 50
  linkSt := 0
  enable := false
  aqSizeM1 := 0
  asqBase := 0
  acqBase := 0
  authFail := 0
  evDropped := 0
  queues := []
  slots := []
  nextOrder := 0
  turnQ := 0
  vfEnable := false
  vfPart := []
  keys := []
  hostMem := []
  msixPend := []
  msixMask := []
  replies := []
  msgs := []
  dmas := []
  fenced := false
  wideLow := []
  pciAer := false

/-- A transaction (R468 to R475). -/
structure Txn where
  /-- R475: STATE. -/
  st : TxnState
  /-- R475: FAILED. -/
  failed : Bool
  /-- R475: CONFLICT. -/
  conflict : Bool
  /-- R469: buffered writes in arrival order (COUNT). -/
  writes : List (Nat × BitVec 32)
  /-- R475: SCOPE, none when ALL is 1. -/
  scope : Option Nat
  /-- R475: OPENER and OPENER_ID. -/
  opener : Opener
  /-- R475: a BEGIN has been taken since LOAD, so SCOPE, ALL and OPENER are in force. -/
  begun : Bool
  /-- R475: RASTER. -/
  raster : BitVec 5
  /-- R475: LINE. -/
  line : BitVec 14
  /-- R475: FRAME. -/
  frame : BitVec 32
  /-- R475: WADDR. -/
  waddr : BitVec 24
  /-- R475: OUTCOME. -/
  outcome : TxnOutcome
  /-- R475: TXN_BAD. -/
  bad : BitVec 26
  /-- R474: slot of the TXN_COMMIT that waits. -/
  waiter : Option Nat
  /-- R470: full frame count of the commit position. -/
  posFrame : Nat
  /-- R48: commits at the next line boundary, marked late. -/
  late : Bool
  /-- R473: time of the BEGIN. -/
  openedAt : Nat
  /-- R470: order of arming. -/
  armSeq : Nat
  deriving DecidableEq, Repr

/-- Txn after reset (INVENTORY.md, State). -/
def Txn.reset : Txn where
  st := .free
  failed := false
  conflict := false
  writes := []
  scope := none
  opener := .queue 0
  begun := false
  raster := 0
  line := 0
  frame := 0
  waddr := 0
  outcome := .none
  bad := 0
  waiter := none
  posFrame := 0
  late := false
  openedAt := 0
  armSeq := 0

/-- The transaction block (R468 to R475). -/
structure TxnS where
  /-- R475: transactions 0 to 3. -/
  txns : Tbl Txn
  /-- R475: TXN_SEQ. -/
  seq : BitVec 16
  /-- R470: order of the next arming. -/
  armNext : Nat
  /-- R473: TXN_TIMEOUT in s, default 10. -/
  timeout : Nat
  /-- R427: configuration journal: latest committed value of each address. -/
  journal : Tbl (Option (BitVec 32))
  /-- R477: stream configuration words, by 64 x stream + word, in the format of the image. -/
  streamCfg : Tbl (BitVec 32)
  /-- R48: LATE_WINDOW_DEV, default 1. -/
  lateDev : Nat
  deriving DecidableEq, Repr

/-- TxnS after reset (INVENTORY.md, State). -/
def TxnS.reset : TxnS where
  txns := []
  seq := 0
  armNext := 0
  timeout := 10
  journal := []
  streamCfg := []
  lateDev := 1

/-- A partition (R298 to R300). -/
structure Part where
  /-- R300: ENABLED. -/
  enabled : Bool
  /-- R300: RANK. -/
  rank : BitVec 3
  /-- R300: CORES. -/
  cores : BitVec 8
  /-- R300: SPARES. -/
  spares : BitVec 8
  /-- R300: CORE_MASK. -/
  mask : BitVec 32
  /-- R300: STOPPED. -/
  stopped : BitVec 16
  /-- R300: THINNED. -/
  thinned : BitVec 16
  /-- R300: ADMIT_SEQ. -/
  admitSeq : BitVec 16
  /-- R48: LATE_WINDOW in frames, default 1. -/
  lateWin : Nat
  deriving DecidableEq, Repr

/-- Part after reset (INVENTORY.md, State). -/
def Part.reset : Part where
  enabled := false
  rank := 0
  cores := 0
  spares := 0
  mask := 0
  stopped := 0
  thinned := 0
  admitSeq := 0
  lateWin := 1

/-- A BACKGROUND work class on a resource (R306). -/
structure Starve where
  /-- R306: AGE_STEPs without service. -/
  steps : Nat
  /-- R306: time of the class's last unit of service or AGE_STEP. -/
  since : Nat
  /-- R307: time at which the class reached its share: it competes at BACKGROUND until the 10 ms window has moved on. -/
  capped : Option Nat
  /-- R306: tile state entries visited toward a unit of service. -/
  part : Nat
  deriving DecidableEq, Repr

/-- Starve after reset (INVENTORY.md, State). -/
def Starve.reset : Starve where
  steps := 0
  since := 0
  capped := none
  part := 0

/-- A token request (R315 to R317). -/
structure TokReq where
  /-- R315: kind of request. -/
  kind : ReqKind
  /-- R317: level of the work it serves. -/
  level : Level
  /-- R317: requester index: core, stream's core, or channel. -/
  requester : Nat
  /-- R317: arrival time. -/
  arrived : Nat
  /-- R315: tokens. -/
  cost : Nat
  /-- R318: BLW_SLOW raised for the wait. -/
  slowRaised : Bool
  deriving DecidableEq, Repr

/-- TokReq after reset (INVENTORY.md, State). -/
def TokReq.reset : TokReq where
  kind := .wake
  level := .background
  requester := 0
  arrived := 0
  cost := 0
  slowRaised := false

/-- A Bellows rail (R314 to R321). -/
structure Rail where
  /-- R321: LIMIT: 0x0258 on rails 0 to 3, 0x01E0 on rail 4. -/
  limit : BitVec 16
  /-- R321: RAMP. -/
  ramp : BitVec 8
  /-- R321: RAMP_BURST. -/
  burst : BitVec 8
  /-- R321: HELD. -/
  held : Nat
  /-- R321: STANDING. -/
  standing : Nat
  /-- R321: requests waiting (QUEUED), head first. -/
  queue : List TokReq
  /-- R321: DENIED. -/
  denied : BitVec 16
  /-- R321: MAX_WAIT. -/
  maxWait : BitVec 16
  /-- R316: ramp bucket in thousandths of a token. -/
  bucket : Nat
  /-- R316: time of the last refill. -/
  bucketAt : Nat
  /-- R315: grants held: kind, requester and cost. -/
  grants : List (ReqKind × Nat × Nat)
  deriving DecidableEq, Repr

/-- Rail after reset (INVENTORY.md, State). -/
def Rail.reset : Rail where
  limit := 0x0258
  ramp := 0x14
  burst := 0x40
  held := 0
  standing := 0
  queue := []
  denied := 0
  maxWait := 0
  bucket := 64000
  bucketAt := 0
  grants := []

/-- A bay's operating point (R440 to R450). -/
structure Bay where
  /-- R449: POINT. -/
  point : BitVec 2
  /-- R449: POINT_MAX. -/
  pointMax : BitVec 2
  /-- R449: THROTTLED. -/
  throttled : Bool
  /-- R449: CAUSE. -/
  cause : BitVec 2
  /-- R449: UNCONFIRMED. -/
  unconfirmed : Bool
  /-- R449: TRIM. -/
  trim : BitVec 8
  /-- R449: FREQ. -/
  freq : BitVec 16
  /-- R449: TEMP. -/
  temp : BitVec 16
  /-- R449: VSET. -/
  vset : BitVec 16
  /-- R449: STEPS. -/
  steps : BitVec 16
  /-- R440: point of a clock change in progress. -/
  changing : Option (BitVec 2)
  /-- R446: time since which the bay has been clear of its causes. -/
  clearSince : Option Nat
  /-- R408: bay fenced. -/
  fenced : Bool
  /-- R25: task numbers waiting in the bay's queue. -/
  tasks : List Nat
  deriving DecidableEq, Repr

/-- Bay after reset (INVENTORY.md, State). -/
def Bay.reset : Bay where
  point := 2
  pointMax := 0
  throttled := false
  cause := 0
  unconfirmed := false
  trim := 0
  freq := 0x0320
  temp := 0
  vset := 0x02EE
  steps := 0
  changing := none
  clearSince := none
  fenced := false
  tasks := []

/-- Partitions, admission and the Bellows (R298 to R322, R440 to R450). -/
structure Blw where
  /-- R300: partitions 0 to 7. -/
  parts : Tbl Part
  /-- R321: rails 0 to 4. -/
  rails : Tbl Rail
  /-- R449: bays 0 to 3. -/
  bays : Tbl Bay
  /-- R306: starvation counters by work class. -/
  starve : Tbl Starve
  /-- R306: AGE_STEP in ms, default 10. -/
  ageStep : Nat
  /-- R312: an admission is to run: its trigger. -/
  admitPend : Option Nat
  /-- R260: a unit has been fenced since admission last ran. -/
  fenceDue : Bool
  /-- R131: decode and check row tasks by task number. -/
  tasks : List (Nat × RowTask)
  /-- R131: next task number. -/
  nextTask : Nat
  /-- R402: source 392 fenced: no further grants. -/
  fenced : Bool
  /-- R315: token costs that the image raises, by kind of request. -/
  costs : Tbl Nat
  /-- R210: deepest power state the image permits, by role code: 4 is C4. -/
  deepest : Tbl Nat
  /-- R446: TJ_THROTTLE in degrees C, default 105. -/
  tjThrottle : Nat
  /-- R301: role and owner the image gives each core. -/
  homeRoles : Tbl (CoreRole × Option Nat)
  deriving DecidableEq, Repr

/-- Blw after reset (INVENTORY.md, State). -/
def Blw.reset : Blw where
  parts := []
  rails := []
  bays := []
  starve := []
  ageStep := 10
  admitPend := none
  fenceDue := false
  tasks := []
  nextTask := 0
  fenced := false
  costs := []
  deepest := []
  tjThrottle := 105
  homeRoles := []

/-- An update under way (R345). -/
structure Update where
  /-- R345: OFFSET expected next. -/
  next : Nat
  /-- R351: IMAGE_WRITE_FAILED has been raised in the update. -/
  failed : Bool
  deriving DecidableEq, Repr

/-- Update after reset (INVENTORY.md, State). -/
def Update.reset : Update where
  next := 0
  failed := false

/-- The image loader (R335 to R339). -/
structure Loader where
  /-- R336: candidates still to be tried, newest first (false A, true B). -/
  cands : List Bool
  /-- R337: candidate being applied. -/
  cur : Option Bool
  /-- R328: flash address of the next record. -/
  cursor : Nat
  /-- R327: records applied of the candidate. -/
  recs : Nat
  /-- R329: record types applied of the candidate, latest first. -/
  seen : List Nat
  /-- R333: roles whose PATTERN record has been applied. -/
  roles : BitVec 3
  /-- R337: the signature of the current candidate has been accepted. -/
  checked : Bool
  deriving DecidableEq, Repr

/-- Loader after reset (INVENTORY.md, State). -/
def Loader.reset : Loader where
  cands := []
  cur := none
  cursor := 0
  recs := 0
  seen := []
  roles := 0
  checked := false

/-- The flash, its controller and the OTP (R323 to R351). -/
structure Fsh where
  /-- R323: flash contents; an unlisted byte is erased. -/
  flash : Memory
  /-- R323: density in bytes as SFDP declares it. -/
  size : Nat
  /-- R323: SFDP is present and valid. -/
  sfdpOk : Bool
  /-- R323: read mode in use: 0 8D-8D-8D, 1 1-4-4, 2 1-1-4, 3 1-1-1. -/
  readMode : Nat
  /-- R350: SLOT: loaded slot. -/
  slot : Option Bool
  /-- R350: OUTCOME. -/
  outcome : BitVec 2
  /-- R350: FLOOR. -/
  floor : BitVec 6
  /-- R350: SVN. -/
  svn : BitVec 6
  /-- R350: REASON_A. -/
  reasonA : BitVec 4
  /-- R350: REASON_B. -/
  reasonB : BitVec 4
  /-- R350: WRITE_REASON. -/
  writeReason : BitVec 4
  /-- R350: FSH_GEN_A. -/
  genA : BitVec 32
  /-- R350: FSH_GEN_B. -/
  genB : BitVec 32
  /-- R350: FSH_FAIL_ADDR. -/
  failAddr : BitVec 32
  /-- R350: open update (WRITE_OPEN, FSH_NEXT_OFF). -/
  update : Option Update
  /-- R339: the loader. -/
  loader : Loader
  /-- R343: PWR_HOLD. -/
  pwrHold : Bool
  /-- R343: time of the last supply warning. -/
  lastWarn : Option Nat
  /-- R344: an erase or program operation is in progress. -/
  busy : Bool
  /-- R344: stores waiting, in order of service. -/
  stores : List Store
  /-- R347: time since which the head store has waited for power. -/
  waitFrom : Option Nat
  /-- R347: FLASH_POWER_WAIT raised for the wait. -/
  waitRaised : Bool
  /-- R349: FLASH_PAGE_REJECTED raised in this load. -/
  pageRejected : Bool
  /-- R348: PAGE_SEQ of the last event log page. -/
  logSeq : BitVec 32
  /-- R348: PAGE_SEQ of the last retirement copy. -/
  retSeq : BitVec 32
  /-- R348: PAGE_SEQ of the last adoption page. -/
  adoptSeq : BitVec 32
  /-- R330: IMAGE_ID. -/
  imageId : BitVec 32
  /-- R330: IMAGE_VERSION. -/
  imageVersion : BitVec 32
  /-- R330: REVOKE of the loaded image. -/
  revoke : BitVec 4
  /-- R330: RAISE_FLOOR of the loaded image. -/
  raiseFloor : Bool
  /-- R327: KEY_SLOT of the loaded image. -/
  keySlot : BitVec 2
  /-- R338: OTP key slot hashes, empty when not programmed. -/
  otpHash : Tbl (List Byte)
  /-- R338: revoke fuses. -/
  otpRevoked : BitVec 4
  /-- R338: fuses are to be blown after the role is taken. -/
  fusesDue : Bool
  /-- R402: source 381 fenced. -/
  fenced : Bool
  /-- R329: BUDGET record. -/
  budget : List Byte
  deriving DecidableEq, Repr

/-- Fsh after reset (INVENTORY.md, State). -/
def Fsh.reset : Fsh where
  flash := []
  size := 16777216
  sfdpOk := true
  readMode := 3
  slot := none
  outcome := 2
  floor := 0
  svn := 0
  reasonA := 0xA
  reasonB := 0xA
  writeReason := 0
  genA := 0
  genB := 0
  failAddr := 0
  update := none
  loader := Loader.reset
  pwrHold := false
  lastWarn := none
  busy := false
  stores := []
  waitFrom := none
  waitRaised := false
  pageRejected := false
  logSeq := 0
  retSeq := 0
  adoptSeq := 0
  imageId := 0
  imageVersion := 0
  revoke := 0
  raiseFloor := false
  keySlot := 0
  otpHash := []
  otpRevoked := 0
  fusesDue := false
  fenced := false
  budget := []

/-- Modes, start-up, adoption and write errors (R352 to R369, R478). -/
structure Glb where
  /-- R352: MODE. -/
  mode : Mode
  /-- R352: ROLE. -/
  role : Role
  /-- R352: REST_SUB. -/
  restSub : BitVec 2
  /-- R352: PATCH_BG. -/
  patchBg : Bool
  /-- R352: SIDE: the TWIN_SIDE strap. -/
  side : Bool
  /-- R453: the FSH_VSEL strap: low for a 1.8 V VDD_FSH, high for 3.3 V. -/
  vsel : Bool
  /-- R352: ADOPT_WAIT. -/
  adoptWait : Bool
  /-- R352: MODE_SEQ. -/
  modeSeq : BitVec 16
  /-- R435: held in reset until reset release. -/
  inReset : Bool
  /-- R368: DEPTH of GLB_MODE_REQ. -/
  depth : BitVec 2
  /-- R368: REQ of GLB_MODE_REQ. -/
  req : BitVec 4
  /-- R368: REFUSED. -/
  refused : Bool
  /-- R368: REASON of GLB_MODE_REQ. -/
  reason : BitVec 3
  /-- R362: a wake from REST is in progress. -/
  waking : Bool
  /-- R366: a lead handing over by REQ = DEMOTE. -/
  demoting : Bool
  /-- R368: POLICY. -/
  policy : Bool
  /-- R368: OUTCOME of GLB_ADOPT. -/
  adoptOut : BitVec 3
  /-- R368: GLB_START T_END 0 to 4. -/
  tEnd : Tbl (BitVec 32)
  /-- R358: the first picture has left the device. -/
  firstPicture : Bool
  /-- R361: TWIN_EN. -/
  twinEn : Bool
  /-- R361: TWIN_WAIT in ms, default 500. -/
  twinWait : Nat
  /-- R357: TRAIN_LIMIT in ms, default 600. -/
  trainLimit : Nat
  /-- R353: mode from which PATCH was entered. -/
  modeFrom : Mode
  /-- R364: patch under way. -/
  patch : Option PatchS
  /-- R359: current adoption record. -/
  adoption : Option Adoption
  /-- R360: adoption record to be stored. -/
  adoptDue : Option Adoption
  /-- R359: digest of the device identity public key. -/
  selfDigest : List Byte
  /-- R466: END has been applied: settings change by transaction only. -/
  loaded : Bool
  /-- R366: a fence in TAKEOVER takes effect at LEAD. -/
  shedWait : Bool
  /-- R478: SEQ of GLB_WERR. -/
  werrSeq : BitVec 8
  /-- R478: REASON of GLB_WERR. -/
  werrReason : BitVec 4
  /-- R478: WRITER. -/
  werrWriter : BitVec 2
  /-- R478: COUNT. -/
  werrCount : BitVec 16
  /-- R478: ADDR. -/
  werrAddr : BitVec 26
  /-- R478: GLB_PLAT_DDR: RATE 0x0C. -/
  platDdr : BitVec 32
  /-- R478: GLB_PLAT_IO. -/
  platIo : BitVec 32
  /-- R356: channels whose training has ended. -/
  trainedCh : List Nat
  /-- R443: the PLLs have been told to lock. -/
  pllLock : Bool
  /-- R411: FAULT_OUT_N. -/
  faultOutN : Bool
  /-- R447: THERM_TRIP_N. -/
  thermTripN : Bool
  /-- R181: OWN. -/
  own : Bool
  /-- R420: time of the device's last heartbeat. -/
  lastHb : Option Nat
  /-- R383: time at which the REST in progress began. -/
  restFrom : Nat
  /-- R375: interrupt sources that were at level 1 as the REST in progress began. -/
  restHigh : List Nat
  /-- R181: an output has been ungated in TAKEOVER. -/
  ungated : Bool
  deriving DecidableEq, Repr

/-- Glb after reset (INVENTORY.md, State). -/
def Glb.reset : Glb where
  mode := .fill
  role := .none
  restSub := 0
  patchBg := false
  side := false
  vsel := false
  adoptWait := false
  modeSeq := 0
  inReset := true
  depth := 0
  req := 0
  refused := false
  reason := 0
  waking := false
  demoting := false
  policy := false
  adoptOut := 0
  tEnd := []
  firstPicture := false
  twinEn := false
  twinWait := 500
  trainLimit := 600
  modeFrom := .fill
  patch := none
  adoption := none
  adoptDue := none
  selfDigest := []
  loaded := false
  shedWait := false
  werrSeq := 0
  werrReason := 0
  werrWriter := 0
  werrCount := 0
  werrAddr := 0
  platDdr := 0x60000000
  platIo := 0
  trainedCh := []
  pllLock := false
  faultOutN := false
  thermTripN := true
  own := false
  lastHb := none
  restFrom := 0
  restHigh := []
  ungated := false

/-- An interrupt source (R376). -/
structure IrcSrc where
  /-- R376: ENABLE. -/
  enable : Bool
  /-- R376: SOFT. -/
  soft : Bool
  /-- R376: PRIO. -/
  prio : BitVec 4
  /-- R376: WAKE. -/
  wake : Bool
  deriving DecidableEq, Repr

/-- IrcSrc after reset (INVENTORY.md, State). -/
def IrcSrc.reset : IrcSrc where
  enable := false
  soft := false
  prio := 0
  wake := false

/-- The interrupt controller (R372 to R377). -/
structure Irc where
  /-- R376: sources 0 to 255. -/
  srcs : Tbl IrcSrc
  /-- R376: priority stack, top first. -/
  stack : List (BitVec 4)
  /-- R376: EOI_ERR. -/
  eoiErr : Bool
  /-- R377: block sources whose latch is set. -/
  latch : List Nat
  /-- R376: value returned by the last read of IRC_CLAIM. -/
  claim : BitVec 32
  deriving DecidableEq, Repr

/-- Irc after reset (INVENTORY.md, State). -/
def Irc.reset : Irc where
  srcs := []
  stack := []
  eoiErr := false
  latch := []
  claim := 0x1FF

/-- A DMA channel of the Tack (R378 to R382). -/
structure DmaCh where
  /-- R382: ENABLE. -/
  enable : Bool
  /-- R382: TRIG. -/
  trig : BitVec 2
  /-- R382: TIMER. -/
  timer : BitVec 2
  /-- R382: SRC_CH. -/
  srcCh : BitVec 3
  /-- R382: STATE. -/
  st : DmaState
  /-- R382: BUSERR. -/
  busErr : Bool
  /-- R382: OVERRUN. -/
  overrun : Bool
  /-- R382: SRC. -/
  src : BitVec 32
  /-- R382: DST. -/
  dst : BitVec 32
  /-- R382: COUNT. -/
  count : BitVec 24
  /-- R382: REMAIN. -/
  remain : BitVec 32
  /-- R378: working SRC. -/
  wSrc : BitVec 32
  /-- R378: working DST. -/
  wDst : BitVec 32
  /-- R372: hardware input of the channel's source. -/
  level : Bool
  deriving DecidableEq, Repr

/-- DmaCh after reset (INVENTORY.md, State). -/
def DmaCh.reset : DmaCh where
  enable := false
  trig := 0
  timer := 0
  srcCh := 0
  st := .idle
  busErr := false
  overrun := false
  src := 0
  dst := 0
  count := 0
  remain := 0
  wSrc := 0
  wDst := 0
  level := false

/-- A Tack timer (R383). -/
structure Timer where
  /-- R383: ENABLE. -/
  enable : Bool
  /-- R383: PERIODIC. -/
  periodic : Bool
  /-- R383: PERIOD. -/
  period : BitVec 24
  /-- R383: time at which the count began. -/
  startAt : Nat
  /-- R383: source level. -/
  level : Bool
  deriving DecidableEq, Repr

/-- Timer after reset (INVENTORY.md, State). -/
def Timer.reset : Timer where
  enable := false
  periodic := false
  period := 0
  startAt := 0
  level := false

/-- The console UART (R384 to R386). -/
structure Uart where
  /-- R386: INC. -/
  inc : BitVec 32
  /-- R386: ENABLE. -/
  enable : Bool
  /-- R386: PARITY. -/
  parity : BitVec 2
  /-- R386: STOP2. -/
  stop2 : Bool
  /-- R386: RX_LEVEL. -/
  rxLevel : BitVec 6
  /-- R386: TX_LEVEL. -/
  txLevel : BitVec 6
  /-- R386: SEQ. -/
  seq : BitVec 8
  /-- R386: STATUS. -/
  status : BitVec 3
  /-- R386: receive FIFO, head first: FE, PE and the character. -/
  rx : List (BitVec 10)
  /-- R386: transmit FIFO, head first. -/
  tx : List Byte
  /-- R386: value returned by the last read of RX. -/
  rxRead : BitVec 32
  /-- R384: characters sent. -/
  sent : List Byte
  /-- R385: after a framing error the receiver waits for a high sample. -/
  waitHigh : Bool
  deriving DecidableEq, Repr

/-- Uart after reset (INVENTORY.md, State). -/
def Uart.reset : Uart where
  inc := 0x00C9539C
  enable := false
  parity := 0
  stop2 := false
  rxLevel := 1
  txLevel := 0
  seq := 0
  status := 0
  rx := []
  tx := []
  rxRead := 0
  sent := []
  waitHigh := false

/-- A thermal sensor or voltage monitor (R387). -/
structure Sensor where
  /-- R387: VALID. -/
  valid : Bool
  /-- R387: HI or OV. -/
  hi : Bool
  /-- R387: LO or UV. -/
  lo : Bool
  /-- R387: VALUE. -/
  value : BitVec 16
  /-- R387: HI threshold. -/
  hiTh : Int
  /-- R387: LO threshold. -/
  loTh : Int
  /-- R387: consecutive samples inside both thresholds. -/
  inside : Nat
  deriving DecidableEq, Repr

/-- Sensor after reset (INVENTORY.md, State). -/
def Sensor.reset : Sensor where
  valid := false
  hi := false
  lo := false
  value := 0
  hiTh := 32767
  loTh := -32768
  inside := 0

/-- The event log (R388 to R393). -/
structure LogS where
  /-- R388: posting queue, oldest first. -/
  postq : List LogEntry
  /-- R388: SRAM ring by slot 0 to 8,191. -/
  ring : Tbl (Option LogEntry)
  /-- R393: NEXT. -/
  next : BitVec 32
  /-- R393: FLUSHED. -/
  flushed : BitVec 32
  /-- R393: OLDEST. -/
  oldest : BitVec 32
  /-- R393: LOST. -/
  lost : BitVec 16
  /-- R388: entries lost and not yet reported by LOG_LOST. -/
  lostPend : Nat
  /-- R391: entries held in the flash log, by index. -/
  flashLog : Tbl (Option LogEntry)
  /-- R399: event limits: key and time of the last post. -/
  recent : List (Nat × Nat)
  /-- R391: FLUSH_AGE in s, default 10. -/
  flushAge : Nat
  /-- R391: posting times of the unflushed entries, oldest first. -/
  times : List Nat
  /-- R402: times of contained faults of the log writer. -/
  writerFaults : List Nat
  deriving DecidableEq, Repr

/-- LogS after reset (INVENTORY.md, State). -/
def LogS.reset : LogS where
  postq := []
  ring := []
  next := 0
  flushed := 0
  oldest := 0
  lost := 0
  lostPend := 0
  flashLog := []
  recent := []
  flushAge := 10
  times := []
  writerFaults := []

/-- A semaphore (R394 to R397). -/
structure Sem where
  /-- R397: STATE. -/
  st : SemState
  /-- R397: OWNER. -/
  owner : BitVec 9
  /-- R397: BREAKS. -/
  breaks : BitVec 6
  /-- R397: REJECTS. -/
  rejects : BitVec 6
  /-- R397: PREV_OWNER. -/
  prev : BitVec 9
  /-- R396: broken and SEM_STATE not read since. -/
  level : Bool
  /-- R397: RESULT returned by the last read of SEM_ACQ. -/
  result : BitVec 3
  deriving DecidableEq, Repr

/-- Sem after reset (INVENTORY.md, State). -/
def Sem.reset : Sem where
  st := .free
  owner := 0x1FF
  breaks := 0
  rejects := 0
  prev := 0x1FF
  level := false
  result := 0

/-- A rail of the PMBus telemetry (R438, R439). -/
structure PRail where
  /-- R439: MASTER. -/
  master : Bool
  /-- R439: ADDR. -/
  addr : BitVec 7
  /-- R439: PAGE. -/
  page : BitVec 8
  /-- R439: AVS. -/
  avs : Bool
  /-- R439: ERR. -/
  err : Bool
  /-- R439: VSET. -/
  vset : BitVec 16
  /-- R439: VREAD. -/
  vread : BitVec 16
  /-- R439: IREAD. -/
  iread : BitVec 16
  /-- R439: TREG. -/
  treg : BitVec 16
  /-- R439: STATUS. -/
  status : BitVec 16
  /-- R439: UPD_SEQ. -/
  updSeq : BitVec 16
  /-- R438: set point written and not yet confirmed. -/
  wanted : Option (BitVec 16)
  /-- R438: time of that write. -/
  wantAt : Nat
  /-- R438: failed attempts of that write. -/
  tries : Nat
  /-- R438: the rail has taken that write. -/
  written : Bool
  /-- R438: VOUT_MODE is not LINEAR16. -/
  notLinear : Bool
  /-- R438: PMBUS_ERROR for VOUT_MODE raised since LOAD. -/
  errRaised : Bool
  deriving DecidableEq, Repr

/-- PRail after reset (INVENTORY.md, State). -/
def PRail.reset : PRail where
  master := false
  addr := 0
  page := 0
  avs := false
  err := false
  vset := 0
  vread := 0
  iread := 0
  treg := 0
  status := 0
  updSeq := 0
  wanted := none
  wantAt := 0
  tries := 0
  written := false
  notLinear := false
  errRaised := false

/-- The Tack (R370 to R399, R438). -/
structure Tck where
  /-- R371: STATE. -/
  st : TackState
  /-- R371: WD_RESETS. -/
  wdResets : BitVec 8
  /-- R371: FW_SEQ. -/
  fwSeq : BitVec 16
  /-- R371: TCK_DWIN. -/
  dwin : BitVec 9
  /-- R370: Tack SRAM, by Tack address; FILL writes zeros. -/
  sram : Memory
  /-- R331: ENTRY. -/
  fwEntry : BitVec 32
  /-- R382: DMA channels 0 to 7. -/
  dma : Tbl DmaCh
  /-- R383: timers 0 to 3. -/
  timers : Tbl Timer
  /-- R386: console UART. -/
  uart : Uart
  /-- R387: thermal sensors 0 to 15. -/
  temps : Tbl Sensor
  /-- R387: voltage monitors 0 to 23. -/
  volts : Tbl Sensor
  /-- R398: the first kick has been written. -/
  kicked : Bool
  /-- R398: TIMEOUT. -/
  timeout : BitVec 16
  /-- R398: BAD_KICKS. -/
  badKicks : BitVec 16
  /-- R398: EXPIRED. -/
  expired : Bool
  /-- R398: time at which the watchdog count began. -/
  wdStart : Nat
  /-- R398: times of watchdog resets of the last 10 min. -/
  wdTimes : List Nat
  /-- R439: TCK_RAIL 0 to 10. -/
  rails : Tbl PRail
  /-- R398: held by the fourth watchdog reset, or by a fence of the boot ROM. -/
  held : Bool
  /-- R402: boot ROM fenced. -/
  romFenced : Bool
  /-- R402: DMA engine fenced. -/
  dmaFenced : Bool
  /-- R402: UART fenced. -/
  uartFenced : Bool
  /-- R402: sensors fenced. -/
  snsFenced : Bool
  /-- R402: PMBus masters fenced. -/
  pmbFenced : BitVec 2
  deriving DecidableEq, Repr

/-- Tck after reset (INVENTORY.md, State). -/
def Tck.reset : Tck where
  st := .boot
  wdResets := 0
  fwSeq := 0
  dwin := 0
  sram := []
  fwEntry := 0
  dma := []
  timers := []
  uart := Uart.reset
  temps := []
  volts := []
  kicked := false
  timeout := 0x03E8
  badKicks := 0
  expired := false
  wdStart := 0
  wdTimes := []
  rails := []
  held := false
  romFenced := false
  dmaFenced := false
  uartFenced := false
  snsFenced := false
  pmbFenced := 0

/-- A fault source (R430). -/
structure FltSrc where
  /-- R430: FORCE. -/
  force : BitVec 2
  /-- R430: FORCE_WIRE. -/
  forceWire : Bool
  /-- R430: FENCED. -/
  fenced : Bool
  /-- R430: WIRE. -/
  wire : Bool
  /-- R430: LAST. -/
  last : BitVec 2
  /-- R430: REACTION. -/
  reaction : BitVec 3
  /-- R430: CE_COUNT. -/
  ce : BitVec 8
  /-- R430: CT_COUNT. -/
  ct : BitVec 4
  /-- R403: times of corrected reports since the count last restarted, of the last 1 s. -/
  ceTimes : List Nat
  /-- R405: the last wire check failed. -/
  wireFail : Bool
  /-- R401: entries of the unit whose RELOAD is in progress. -/
  reloading : List Nat
  /-- R402: times of contained reports of the last 1 s. -/
  times : List Nat
  deriving DecidableEq, Repr

/-- FltSrc after reset (INVENTORY.md, State). -/
def FltSrc.reset : FltSrc where
  force := 0
  forceWire := false
  fenced := false
  wire := false
  last := 0
  reaction := 0
  ce := 0
  ct := 0
  ceTimes := []
  wireFail := false
  reloading := []
  times := []

/-- The fault collector (R400 to R412, R430). -/
structure Flt where
  /-- R430: sources 0 to 415. -/
  srcs : Tbl FltSrc
  /-- R430: SEQ of FLT_STAT. -/
  seq : BitVec 8
  /-- R430: NEW. -/
  new : Bool
  /-- R430: FATAL. -/
  fatal : Bool
  /-- R430: FORCE_FATAL_EN. -/
  forceFatalEn : Bool
  /-- R430: LAST_SRC. -/
  lastSrc : BitVec 9
  /-- R430: LAST_CLASS. -/
  lastClass : BitVec 2
  /-- R430: GATE of FLT_FENCE: as source 343. -/
  gateOut : Bool
  /-- R402: source 344 fenced. -/
  st2110Out : Bool
  deriving DecidableEq, Repr

/-- Flt after reset (INVENTORY.md, State). -/
def Flt.reset : Flt where
  srcs := []
  seq := 0
  new := false
  fatal := false
  forceFatalEn := false
  lastSrc := 0
  lastClass := 0
  gateOut := false
  st2110Out := false

/-- The Girth link (R413 to R432). -/
structure Grt where
  /-- R431: LINK. -/
  link : GrtLink
  /-- R431: PEER_ROLE. -/
  peerRole : BitVec 2
  /-- R419: MODE from the last heartbeat. -/
  peerMode : BitVec 4
  /-- R431: PEER_OWN. -/
  peerOwn : Bool
  /-- R431: PEER_FAULT. -/
  peerFault : Bool
  /-- R431: CONFIG_SYNC. -/
  configSync : Bool
  /-- R431: IMAGE_MATCH. -/
  imageMatch : Bool
  /-- R431: HB_SEQ. -/
  hbSeq : BitVec 16
  /-- R431: RETRANS. -/
  retrans : BitVec 32
  /-- R431: BAD. -/
  bad : BitVec 32
  /-- R431: DELTA_DROP. -/
  deltaDrop : BitVec 32
  /-- R431: STATE_DIFF. -/
  stateDiff : BitVec 32
  /-- R414: SEQ of the next sequenced frame sent. -/
  txSeq : BitVec 32
  /-- R414: next SEQ expected from the peer. -/
  rxSeq : BitVec 32
  /-- R416: sequenced frames sent and not acknowledged, oldest first. -/
  unacked : List GFrame
  /-- R416: retransmissions of the oldest frame. -/
  tries : Nat
  /-- R415: sequenced frames waiting to be sent. -/
  sendq : List GFrame
  /-- R419: the last heartbeat sent to the twin. -/
  hbSent : Option HeartbeatMsg
  /-- R419: HB_SEQ of the next heartbeat emitted. -/
  hbOut : BitVec 32
  /-- R419: TX_SEQ table of the last heartbeat received. -/
  peerTxSeq : Tbl (BitVec 16)
  /-- R419: FENCED_ANY of the last heartbeat received. -/
  peerFenced : Bool
  /-- R419: SHED_ANY of the last heartbeat received. -/
  peerShed : Bool
  /-- R418: digest of the twin last seen on the link since LOAD. -/
  peerDigest : Option (List Byte)
  /-- R417: the peer's last PHASE 0 IDENT. -/
  peerId : Option IdentInfo
  /-- R417: number of the nonce sent (the nonce itself is Config.nonce). -/
  nonce : Nat
  /-- R417: the peer's signature has verified. -/
  authOk : Bool
  /-- R425: HANDOVER received: true for DEMOTE. -/
  handover : Option Bool
  /-- R427: journal entries received and not yet applied. -/
  snapshot : List (Nat × BitVec 32)
  /-- R427: mirrored transactions waiting behind the snapshot. -/
  mirrored : List MirrorTxn
  /-- R427: when the last SNAPSHOT frame was sent or arrived. -/
  snapEnd : Option Nat
  /-- R421: time of the last valid frame. -/
  hbIn : Option Nat
  /-- R402: link fenced until LOAD. -/
  fenced : Bool
  deriving DecidableEq, Repr

/-- Grt after reset (INVENTORY.md, State). -/
def Grt.reset : Grt where
  link := .down
  peerRole := 0
  peerMode := 0
  peerOwn := false
  peerFault := true
  configSync := false
  imageMatch := false
  hbSeq := 0
  retrans := 0
  bad := 0
  deltaDrop := 0
  stateDiff := 0
  txSeq := 0
  rxSeq := 0
  unacked := []
  tries := 0
  sendq := []
  hbSent := none
  hbOut := 0
  peerTxSeq := []
  peerFenced := false
  peerShed := false
  peerDigest := none
  peerId := none
  nonce := 0
  authOk := false
  handover := none
  snapshot := []
  mirrored := []
  snapEnd := none
  hbIn := none
  fenced := false

/-- The whole machine. -/
structure State where
  /-- R2: commands waiting, first in, first out. -/
  pending : List Instr
  /-- R383: device time: ns since reset release, from the 25 MHz reference. -/
  now : Nat
  /-- R40: the PTP clock, in ns. -/
  ptp : BitVec 64
  /-- R381: the model's own counter of free values. -/
  freeCtr : Nat
  /-- R31: raster time unit. -/
  ras : Ras
  /-- R88: encode streams 0 to 255. -/
  enc : Tbl EncStream
  /-- R127: decode streams 0 to 255. -/
  dec : Tbl DecStream
  /-- R161: compositor. -/
  cmp : Cmp
  /-- R173: output and input ports. -/
  out : OutPorts
  /-- R184: coding cores 0 to 31. -/
  cores : Tbl CoreS
  /-- R212: memory system. -/
  drm : Drm
  /-- R240: Runner and Ladle. -/
  run : Run
  /-- R272: host queue engine. -/
  hq : Hq
  /-- R468: transactions. -/
  txn : TxnS
  /-- R298: partitions, admission, Bellows and bays. -/
  blw : Blw
  /-- R323: flash, loader and OTP. -/
  fsh : Fsh
  /-- R352: modes, start-up, adoption, write errors. -/
  glb : Glb
  /-- R372: interrupt controller. -/
  irc : Irc
  /-- R370: Tack. -/
  tck : Tck
  /-- R388: event log. -/
  log : LogS
  /-- R394: semaphores 0 to 63. -/
  sem : Tbl Sem
  /-- R400: fault collector. -/
  flt : Flt
  /-- R413: Girth link. -/
  grt : Grt
  deriving DecidableEq, Repr

/-- State after reset (INVENTORY.md, State). -/
def State.reset : State where
  pending := []
  now := 0
  ptp := 0
  freeCtr := 0
  ras := Ras.reset
  enc := []
  dec := []
  cmp := Cmp.reset
  out := OutPorts.reset
  cores := []
  drm := Drm.reset
  run := Run.reset
  hq := Hq.reset
  txn := TxnS.reset
  blw := Blw.reset
  fsh := Fsh.reset
  glb := Glb.reset
  irc := Irc.reset
  tck := Tck.reset
  log := LogS.reset
  sem := []
  flt := Flt.reset
  grt := Grt.reset

/-- Update of `now`. -/
def State.modNow (h : Nat → Nat) (s : State) : State := { s with now := h s.now }

/-- Update of `ptp`. -/
def State.modPtp (h : (BitVec 64) → (BitVec 64)) (s : State) : State := { s with ptp := h s.ptp }

/-- Update of `freeCtr`. -/
def State.modFreeCtr (h : Nat → Nat) (s : State) : State := { s with freeCtr := h s.freeCtr }

/-- Update of `ras`. -/
def State.modRas (h : Ras → Ras) (s : State) : State := { s with ras := h s.ras }

/-- Update of `enc`. -/
def State.modEnc (h : (Tbl EncStream) → (Tbl EncStream)) (s : State) : State := { s with enc := h s.enc }

/-- Update of `dec`. -/
def State.modDec (h : (Tbl DecStream) → (Tbl DecStream)) (s : State) : State := { s with dec := h s.dec }

/-- Update of `cmp`. -/
def State.modCmp (h : Cmp → Cmp) (s : State) : State := { s with cmp := h s.cmp }

/-- Update of `out`. -/
def State.modOut (h : OutPorts → OutPorts) (s : State) : State := { s with out := h s.out }

/-- Update of `cores`. -/
def State.modCores (h : (Tbl CoreS) → (Tbl CoreS)) (s : State) : State := { s with cores := h s.cores }

/-- Update of `drm`. -/
def State.modDrm (h : Drm → Drm) (s : State) : State := { s with drm := h s.drm }

/-- Update of `run`. -/
def State.modRun (h : Run → Run) (s : State) : State := { s with run := h s.run }

/-- Update of `hq`. -/
def State.modHq (h : Hq → Hq) (s : State) : State := { s with hq := h s.hq }

/-- Update of `txn`. -/
def State.modTxn (h : TxnS → TxnS) (s : State) : State := { s with txn := h s.txn }

/-- Update of `blw`. -/
def State.modBlw (h : Blw → Blw) (s : State) : State := { s with blw := h s.blw }

/-- Update of `fsh`. -/
def State.modFsh (h : Fsh → Fsh) (s : State) : State := { s with fsh := h s.fsh }

/-- Update of `glb`. -/
def State.modGlb (h : Glb → Glb) (s : State) : State := { s with glb := h s.glb }

/-- Update of `irc`. -/
def State.modIrc (h : Irc → Irc) (s : State) : State := { s with irc := h s.irc }

/-- Update of `tck`. -/
def State.modTck (h : Tck → Tck) (s : State) : State := { s with tck := h s.tck }

/-- Update of `log`. -/
def State.modLog (h : LogS → LogS) (s : State) : State := { s with log := h s.log }

/-- Update of `sem`. -/
def State.modSem (h : (Tbl Sem) → (Tbl Sem)) (s : State) : State := { s with sem := h s.sem }

/-- Update of `flt`. -/
def State.modFlt (h : Flt → Flt) (s : State) : State := { s with flt := h s.flt }

/-- Update of `grt`. -/
def State.modGrt (h : Grt → Grt) (s : State) : State := { s with grt := h s.grt }

end Sys2Proof.Machine
end

