-- ==== Sys2Proof/Machine/Tbl.lean ====
section
/-! DEFINITION. The operations on sparse tables: one canonical form, reading, writing and updating an entry. -/

namespace Sys2Proof

/-- The entry of number `i`; `d` is what an unlisted entry reads as. -/
def Tbl.look {α : Type} (t : Tbl α) (d : α) (i : Nat) : α :=
  match t with
  | [] => d
  | (j, a) :: r => if j = i then a else Tbl.look r d i

/-- Insertion of a number by rising order. -/
def Tbl.insertAt {α : Type} (t : Tbl α) (i : Nat) (v : α) : Tbl α :=
  match t with
  | [] => [(i, v)]
  | (j, a) :: r => if i < j then (i, v) :: (j, a) :: r else (j, a) :: Tbl.insertAt r i v

/-- The table without number `i`. -/
def Tbl.drop {α : Type} (t : Tbl α) (i : Nat) : Tbl α := t.filter (fun p => decide (p.1 ≠ i))

/-- Writing entry `i`; writing what an unlisted entry reads as removes it. -/
def Tbl.put {α : Type} [DecidableEq α] (t : Tbl α) (d : α) (i : Nat) (v : α) : Tbl α :=
  if v = d then t.drop i else (t.drop i).insertAt i v

/-- Updating entry `i`. -/
def Tbl.upd {α : Type} [DecidableEq α] (t : Tbl α) (d : α) (i : Nat) (f : α → α) : Tbl α :=
  t.put d i (f (t.look d i))

/-- Updating every listed entry. -/
def Tbl.mapAll {α : Type} [DecidableEq α] (t : Tbl α) (d : α) (f : Nat → α → α) : Tbl α :=
  (t.map (fun p => (p.1, f p.1 p.2))).filter (fun p => decide (p.2 ≠ d))

/-- The keys rise strictly from `n` on. -/
def Tbl.risesFrom {α : Type} (t : Tbl α) (n : Nat) : Bool :=
  match t with
  | [] => true
  | (j, _) :: r => decide (n ≤ j) && Tbl.risesFrom r (j + 1)

/-- The canonical form: keys rise strictly and no entry equals what an unlisted entry reads as. -/
def Tbl.wf {α : Type} [DecidableEq α] (t : Tbl α) (d : Nat → α) : Bool :=
  t.risesFrom 0 && t.all (fun p => decide (p.2 ≠ d p.1))

end Sys2Proof
end

