-- ==== Sys2Proof/Machine/Ops.lean ====
section
/-! DEFINITION. The named operations shared by the meanings: bytes and checksums, access to the numbered things of the
state, interrupt latches, and the posting of events. -/

namespace Sys2Proof.Machine

/-- A next state. -/
abbrev ok (s : State) : Host.Outcome State Fault Refusal := .next s

/-- R373: every entry of the priority stack is strictly higher than the entry below it. -/
def stackRises : List (BitVec 4) → Bool
  | a :: b :: r => decide (b < a) && stackRises (b :: r)
  | _ => true

/-- The components of the state but for the queue. -/
inductive Comp where
  | now | ptp | freeCtr | ras | enc | dec | cmp | out | cores | drm | run | hq | txn | blw | fsh | glb | irc | tck | log | sem | flt | grt
  deriving DecidableEq, Repr

/-- `f` where `b` holds, nothing otherwise. -/
def State.whenB (b : Bool) (f : State → State) (s : State) : State := if b then f s else s

/-- `f` for each element from the first to the last. -/
def State.each {α : Type} (xs : List α) (f : α → State → State) (s : State) : State :=
  xs.foldl (fun t x => f x t) s

/-! Bytes. -/

/-- The bytes of a value, least significant first (R4). -/
def leBytes (n v : Nat) : List Byte :=
  match n with
  | 0 => []
  | k + 1 => BitVec.ofNat 8 v :: leBytes k (v / 256)

/-- The bytes of 32-bit words, little-endian (R4). -/
def wordBytes (ws : List Word) : List Byte := ws.flatMap (fun w => leBytes 4 w.toNat)

/-- The bytes of a value, most significant first (R4). -/
def beBytes (n v : Nat) : List Byte := (leBytes n v).reverse

/-- The value of bytes, least significant first. -/
def leVal (bs : List Byte) : Nat :=
  match bs with
  | [] => 0
  | b :: r => b.toNat + 256 * leVal r

/-- The value of bytes, most significant first. -/
def beVal (bs : List Byte) : Nat := leVal bs.reverse

/-- Writing bytes from address `a`; `d` is what an unlisted byte reads as. -/
def putBytes (m : Memory) (d : Byte) (a : Nat) (bs : List Byte) : Memory :=
  match bs with
  | [] => m
  | b :: r => putBytes (Tbl.put m d a b) d (a + 1) r

/-- Reading `n` bytes from address `a`. -/
def getBytes (m : Memory) (d : Byte) (a n : Nat) : List Byte :=
  match n with
  | 0 => []
  | k + 1 => Tbl.look m d a :: getBytes m d (a + 1) k

/-- The canonical form of a memory; `d` is what an unlisted byte reads as. -/
def Memory.wf (m : Memory) (d : Byte) : Bool := Tbl.wf m (fun _ => d)

/-- One byte of a reflected CRC with the polynomial given. -/
def crcByte (poly acc : BitVec 32) (b : Byte) : BitVec 32 :=
  let x := acc ^^^ b.setWidth 32
  (List.range 8).foldl (fun y _ => if y.getLsbD 0 then (y >>> 1) ^^^ poly else y >>> 1) x

/-- CRC-32C: reflected polynomial 0x82F63B78, all ones at the start, inverted at the end (R60). -/
def crc32c (bs : List Byte) : BitVec 32 :=
  ~~~ (bs.foldl (crcByte 0x82F63B78) 0xFFFFFFFF)

/-! Saturating and modular arithmetic of registers. -/

/-- Increment that stops at all ones. -/
def satInc {w : Nat} (x : BitVec w) : BitVec w := if x = BitVec.allOnes w then x else x + 1

/-- A count as a saturating field of `w` bits. -/
def satNat (w n : Nat) : BitVec w := BitVec.ofNat w (min n (2 ^ w - 1))

/-- R6, R67: `a` minus `b` modulo 2^48 as a signed number. -/
def diff48 (a b : T48) : Int := (a - b).toInt

/-- A time in ns as the low 48 bits of it. -/
def t48 (t : Nat) : T48 := BitVec.ofNat 48 t

/-- The PTP time as a number of ns. -/
def State.time (s : State) : Nat := s.ptp.toNat

/-- PTP time [47:0]. -/
def State.time48 (s : State) : T48 := s.ptp.setWidth 48

/-! The numbered things of the state. -/

/-- Raster `k` (R8). -/
def State.raster (s : State) (k : Nat) : Raster := s.ras.rasters.look Raster.reset k
/-- Update of raster `k`. -/
def State.modRaster (k : Nat) (f : Raster → Raster) (s : State) : State :=
  s.modRas (fun r => { r with rasters := r.rasters.upd Raster.reset k f })
/-- Line event entry `e` (R43). -/
def State.lineEvent (s : State) (e : Nat) : LineEvent := s.ras.events.look LineEvent.reset e
/-- Update of line event entry `e`. -/
def State.modLineEvent (e : Nat) (f : LineEvent → LineEvent) (s : State) : State :=
  s.modRas (fun r => { r with events := r.events.upd LineEvent.reset e f })
/-- Update of the clock. -/
def State.modClk (f : Clk → Clk) (s : State) : State := s.modRas (fun r => { r with clk := f r.clk })
/-- Encode stream `i`. -/
def State.encS (s : State) (i : Nat) : EncStream := s.enc.look EncStream.reset i
/-- Update of encode stream `i`. -/
def State.modEncS (i : Nat) (f : EncStream → EncStream) (s : State) : State :=
  s.modEnc (fun t => t.upd EncStream.reset i f)
/-- Decode stream `i`. -/
def State.decS (s : State) (i : Nat) : DecStream := s.dec.look DecStream.reset i
/-- Update of decode stream `i`. -/
def State.modDecS (i : Nat) (f : DecStream → DecStream) (s : State) : State :=
  s.modDec (fun t => t.upd DecStream.reset i f)
/-- Window `w` (R161). -/
def State.window (s : State) (w : Nat) : Window := s.cmp.windows.look Window.reset w
/-- Update of window `w`. -/
def State.modWindow (w : Nat) (f : Window → Window) (s : State) : State :=
  s.modCmp (fun c => { c with windows := c.windows.upd Window.reset w f })
/-- The key of tile number `n` of stream `i`. -/
def tileKey (i n : Nat) : Nat := 65536 * i + n
/-- Tile state entry of tile number `n` of stream `i` (R73). -/
def State.tile (s : State) (i n : Nat) : TileEntry := s.cmp.tiles.look TileEntry.reset (tileKey i n)
/-- Update of a tile state entry. -/
def State.modTile (i n : Nat) (f : TileEntry → TileEntry) (s : State) : State :=
  s.modCmp (fun c => { c with tiles := c.tiles.upd TileEntry.reset (tileKey i n) f })
/-- DisplayPort source port `n` (R174). -/
def State.dpo (s : State) (n : Nat) : DpoPort := s.out.dpo.look DpoPort.reset n
/-- Update of source port `n`. -/
def State.modDpo (n : Nat) (f : DpoPort → DpoPort) (s : State) : State :=
  s.modOut (fun o => { o with dpo := o.dpo.upd DpoPort.reset n f })
/-- DisplayPort sink port `n` (R177). -/
def State.dpi (s : State) (n : Nat) : DpiPort := s.out.dpi.look DpiPort.reset n
/-- Update of sink port `n`. -/
def State.modDpi (n : Nat) (f : DpiPort → DpiPort) (s : State) : State :=
  s.modOut (fun o => { o with dpi := o.dpi.upd DpiPort.reset n f })
/-- Output raster `k`'s gate (R182). -/
def State.outP (s : State) (k : Nat) : OutPort := s.out.gates.look OutPort.reset k
/-- Update of output raster `k`'s gate. -/
def State.modOutP (k : Nat) (f : OutPort → OutPort) (s : State) : State :=
  s.modOut (fun o => { o with gates := o.gates.upd OutPort.reset k f })
/-- Core `c` (R11). -/
def State.core (s : State) (c : Nat) : CoreS := s.cores.look CoreS.reset c
/-- Update of core `c`. -/
def State.modCore (c : Nat) (f : CoreS → CoreS) (s : State) : State :=
  s.modCores (fun t => t.upd CoreS.reset c f)
/-- Thread `t` of a core (R192). -/
def CoreS.thread (c : CoreS) (t : Nat) : Thread := c.threads.look Thread.reset t
/-- Update of thread `t`. -/
def CoreS.modThread (t : Nat) (f : Thread → Thread) (c : CoreS) : CoreS :=
  { c with threads := c.threads.upd Thread.reset t f }
/-- Channel `n` (R11). -/
def State.chan (s : State) (n : Nat) : Chan := s.drm.chans.look Chan.reset n
/-- Update of channel `n`. -/
def State.modChan (n : Nat) (f : Chan → Chan) (s : State) : State :=
  s.modDrm (fun d => { d with chans := d.chans.upd Chan.reset n f })
/-- Pool descriptor `i` (R144). -/
def State.poolD (s : State) (i : Nat) : PoolDesc := s.drm.pool.look PoolDesc.reset i
/-- Update of pool descriptor `i`. -/
def State.modPoolD (i : Nat) (f : PoolDesc → PoolDesc) (s : State) : State :=
  s.modDrm (fun d => { d with pool := d.pool.upd PoolDesc.reset i f })
/-- Ethernet port `p` (R269). -/
def State.eth (s : State) (p : Nat) : EthPort := s.run.ports.look EthPort.reset p
/-- Update of Ethernet port `p`. -/
def State.modEth (p : Nat) (f : EthPort → EthPort) (s : State) : State :=
  s.modRun (fun r => { r with ports := r.ports.upd EthPort.reset p f })
/-- Classifier rule `i` (R245). -/
def State.rule (s : State) (i : Nat) : Rule := s.run.rules.look Rule.reset i
/-- Update of rule `i`. -/
def State.modRule (i : Nat) (f : Rule → Rule) (s : State) : State :=
  s.modRun (fun r => { r with rules := r.rules.upd Rule.reset i f })
/-- Egress flow queue `i` (R265). -/
def State.flow (s : State) (i : Nat) : Flow := s.run.flows.look Flow.reset i
/-- R119, R178, R243: the MTU that packets copied to flow queues keep to: the least of their ports' (1,500 for none, DESIGN CHOICE, log
entry 189). -/
def State.mtuOf (s : State) (fs : List Nat) : Nat :=
  if fs.isEmpty then 1500 else (fs.map (fun f => (s.eth (s.flow f).port.toNat).mtu)).foldl min 9000
/-- Update of flow `i`. -/
def State.modFlow (i : Nat) (f : Flow → Flow) (s : State) : State :=
  s.modRun (fun r => { r with flows := r.flows.upd Flow.reset i f })
/-- Ladle pool `p` (R480). -/
def State.ladle (s : State) (p : Nat) : LdlPool := s.run.pools.look LdlPool.reset p
/-- Update of Ladle pool `p`. -/
def State.modLadle (p : Nat) (f : LdlPool → LdlPool) (s : State) : State :=
  s.modRun (fun r => { r with pools := r.pools.upd LdlPool.reset p f })
/-- Queue `q` (R296). -/
def State.hqQ (s : State) (q : Nat) : HqQueue := s.hq.queues.look HqQueue.reset q
/-- Update of queue `q`. -/
def State.modHqQ (q : Nat) (f : HqQueue → HqQueue) (s : State) : State :=
  s.modHq (fun h => { h with queues := h.queues.upd HqQueue.reset q f })
/-- The reset value of a slot is no command; slot `i` (R278). -/
def State.slot (s : State) (i : Nat) : Option Slot := (s.hq.slots.find? (fun p => p.1 == i)).map (·.2)
/-- Update of slot `i`, if it holds a command. -/
def State.modSlot (i : Nat) (f : Slot → Slot) (s : State) : State :=
  s.modHq (fun h => { h with slots := h.slots.map (fun p => if p.1 = i then (p.1, f p.2) else p) })
/-- Transaction `t` (R475). -/
def State.trans (s : State) (t : Nat) : Txn := s.txn.txns.look Txn.reset t
/-- Update of transaction `t`. -/
def State.modTrans (t : Nat) (f : Txn → Txn) (s : State) : State :=
  s.modTxn (fun x => { x with txns := x.txns.upd Txn.reset t f })
/-- Partition `p` (R300). -/
def State.part (s : State) (p : Nat) : Part := s.blw.parts.look Part.reset p
/-- Update of partition `p`. -/
def State.modPart (p : Nat) (f : Part → Part) (s : State) : State :=
  s.modBlw (fun b => { b with parts := b.parts.upd Part.reset p f })
/-- R321: LIMIT resets to 0x01E0 on rail 4 and to 0x0258 on the others. -/
def Rail.resetAt (r : Nat) : Rail := if r = 4 then { Rail.reset with limit := 0x01E0 } else Rail.reset
/-- Bellows rail `r` (R321). -/
def State.rail (s : State) (r : Nat) : Rail := s.blw.rails.look (Rail.resetAt r) r
/-- Update of rail `r`. -/
def State.modRail (r : Nat) (f : Rail → Rail) (s : State) : State :=
  s.modBlw (fun b => { b with rails := b.rails.upd (Rail.resetAt r) r f })
/-- Bay `b` (R449). -/
def State.bay (s : State) (b : Nat) : Bay := s.blw.bays.look Bay.reset b
/-- Update of bay `b`. -/
def State.modBay (b : Nat) (f : Bay → Bay) (s : State) : State :=
  s.modBlw (fun x => { x with bays := x.bays.upd Bay.reset b f })
/-- Task `n` (R131). -/
def State.task (s : State) (n : Nat) : Option RowTask := (s.blw.tasks.find? (fun p => p.1 == n)).map (·.2)
/-- Update of task `n`, if it exists. -/
def State.modTask (n : Nat) (f : RowTask → RowTask) (s : State) : State :=
  s.modBlw (fun b => { b with tasks := b.tasks.map (fun p => if p.1 = n then (p.1, f p.2) else p) })
/-- R376: PRIO of source 255 reads 15. -/
def IrcSrc.resetAt (n : Nat) : IrcSrc := if n = 255 then { IrcSrc.reset with prio := 15 } else IrcSrc.reset
/-- Interrupt source `n` (R376). -/
def State.ircSrc (s : State) (n : Nat) : IrcSrc := s.irc.srcs.look (IrcSrc.resetAt n) n
/-- Update of interrupt source `n`. -/
def State.modIrcSrc (n : Nat) (f : IrcSrc → IrcSrc) (s : State) : State :=
  s.modIrc (fun i => { i with srcs := i.srcs.upd (IrcSrc.resetAt n) n f })
/-- DMA channel `k` of the Tack (R382). -/
def State.dma (s : State) (k : Nat) : DmaCh := s.tck.dma.look DmaCh.reset k
/-- Update of DMA channel `k`. -/
def State.modDma (k : Nat) (f : DmaCh → DmaCh) (s : State) : State :=
  s.modTck (fun t => { t with dma := t.dma.upd DmaCh.reset k f })
/-- Timer `j` (R383). -/
def State.timer (s : State) (j : Nat) : Timer := s.tck.timers.look Timer.reset j
/-- Update of timer `j`. -/
def State.modTimer (j : Nat) (f : Timer → Timer) (s : State) : State :=
  s.modTck (fun t => { t with timers := t.timers.upd Timer.reset j f })
/-- Semaphore `n` (R397). -/
def State.semS (s : State) (n : Nat) : Sem := s.sem.look Sem.reset n
/-- Update of semaphore `n`. -/
def State.modSemS (n : Nat) (f : Sem → Sem) (s : State) : State := s.modSem (fun t => t.upd Sem.reset n f)
/-- PMBus rail `r` (R439). -/
def State.pRail (s : State) (r : Nat) : PRail := s.tck.rails.look PRail.reset r
/-- Update of PMBus rail `r`. -/
def State.modPRail (r : Nat) (f : PRail → PRail) (s : State) : State :=
  s.modTck (fun t => { t with rails := t.rails.upd PRail.reset r f })
/-- Fault source `n` (R430). -/
def State.fltSrc (s : State) (n : Nat) : FltSrc := s.flt.srcs.look FltSrc.reset n
/-- Update of fault source `n`. -/
def State.modFltSrc (n : Nat) (f : FltSrc → FltSrc) (s : State) : State :=
  s.modFlt (fun t => { t with srcs := t.srcs.upd FltSrc.reset n f })

/-- R401: entry `e` of a unit is absent until the Tack has rewritten it, or the unit is fenced. -/
def State.reloading (s : State) (n e : Nat) : Bool := (s.fltSrc n).fenced || (s.fltSrc n).reloading.contains e

/-! Free values. -/

/-- The counter of free values advances. -/
def State.tickFree (s : State) : State := s.modFreeCtr (· + 1)

/-! Interrupt latches and events. -/

/-- R377: block source `n` is latched until its ACK. -/
def State.latch (n : Nat) (s : State) : State :=
  s.modIrc (fun i => { i with latch := if i.latch.contains n then i.latch else n :: i.latch })

/-- R389: continuation entries of three words each; `hd` is word 0 without CONT. -/
def continuations (hd : Word) : List Word → List LogEntry
  | [] => []
  | [a] => [⟨hd, a, 0, 0⟩]
  | [a, b] => [⟨hd, a, b, 0⟩]
  | a :: b :: c :: r => ⟨if r.isEmpty then hd else hd ||| 0x800, a, b, c⟩ :: continuations hd r

/-- R389: the entries of an event posted at `t`. -/
def packEvent (e : Ev) (t : T48) : List LogEntry :=
  let (d0, d1, more) := packItems e.items
  let d1 := match e.forced with
    | some true => d1 ||| 0x8000
    | _ => d1
  let pd : Word := match e.part with
    | some p => (BitVec.ofNat 3 p).setWidth 32 <<< 13
    | none => 0x1000
  let w0 : Word := e.id.code.setWidth 32 <<< 16 ||| pd
  let cs := continuations (0xFFFF0000 ||| pd) more
  let w0 := if cs.isEmpty then w0 else w0 ||| 0x800
  ⟨w0, d0, t.setWidth 32, (d1.setWidth 32 : Word) <<< 16 ||| (t >>> 32).setWidth 32⟩ :: cs

/-- R388: posting: the entries enter the queue of 256, or the event is lost and counted. -/
def LogS.take (l : LogS) (es : List LogEntry) : LogS :=
  if l.postq.length + es.length ≤ 256 then { l with postq := l.postq ++ es }
  else { l with lost := satInc l.lost, lostPend := l.lostPend + 1 }

/-- Posting of an event, with the time of posting (R388, R389). -/
def State.post (e : Ev) (s : State) : State := s.modLog (fun l => l.take (packEvent e s.time48))

/-- An event of the whole device. -/
def State.raise (id : EventId) (items : List Item) (s : State) : State := s.post ⟨id, none, items, none⟩

/-- An event of partition `p`. -/
def State.raiseP (p : Nat) (id : EventId) (items : List Item) (s : State) : State := s.post ⟨id, some p, items, none⟩

/-- The last time an event of code and source was posted under a limit. -/
def LogS.lastPost (l : LogS) (key : Nat) : Option Nat := (l.recent.find? (fun p => p.1 == key)).map (·.2)

/-- The key of an event limit: the event and its source. -/
def limitKey (id : EventId) (src : Nat) : Nat := id.code.toNat * 1048576 + src

/-- `f`, unless the event of the source was raised less than `ns` ago; the time is then kept. -/
def State.limited (id : EventId) (src ns : Nat) (f : State → State) (s : State) : State :=
  match s.log.lastPost (limitKey id src) with
  | some t => if s.now < t + ns then s
      else f (s.modLog (fun l => { l with recent := (limitKey id src, s.now) :: l.recent.filter (fun p => p.1 != limitKey id src) }))
  | none => f (s.modLog (fun l => { l with recent := (limitKey id src, s.now) :: l.recent }))

/-- R463, R478: a refused write is counted, and the first since the last clear is recorded. -/
def State.werr (w : Writer) (reason : BitVec 4) (addr : Nat) (s : State) : State :=
  s.modGlb (fun g =>
    let g := { g with werrCount := satInc g.werrCount }
    if g.werrReason = 0 then
      { g with werrReason := reason, werrWriter := w.code, werrAddr := BitVec.ofNat 26 addr, werrSeq := g.werrSeq + 1 }
    else g)

/-- One millisecond in ns. -/
abbrev ms : Nat := 1000000
/-- One second in ns. -/
abbrev sec : Nat := 1000000000

/-- A 16-bit item. -/
abbrev i16 (n : Nat) : Item := .w16 (BitVec.ofNat 16 n)
/-- A 32-bit item, saturating (R389). -/
abbrev i32 (n : Nat) : Item := .w32 (satNat 32 n)
/-- A signed 64-bit item. -/
abbrev i64 (n : Int) : Item := .w64 (BitVec.ofInt 64 n)

/-! The Flask pool (R143, R144). -/

/-- R144: FREE of a descriptor. -/
def PoolDesc.free (p : PoolDesc) : Bool := !p.ref && !p.out && !p.cur && p.scan == 0

/-- R213: a pool block is 64 KiB. -/
abbrev blockBytes : Nat := 65536

/-- R234: the i-th of the channels in service, in ascending number. -/
def Drm.service (d : Drm) (i : Nat) : Nat := if i < d.fencedCh.toNat then i else i + 1

/-- R213, R234: the channel and channel block of a pool block; none where the channel is fenced without a remap. -/
def Drm.place (d : Drm) (p : Nat) : Option (Nat × Nat) :=
  if p % 12 = d.fencedCh.toNat then
    if d.remapped then some (d.service (p / 12 % 11), d.spareBase.toNat + p / 12 / 11) else none
  else some (p % 12, p / 12)

/-- R234: Q, the pool blocks per channel. -/
def Drm.perChannel (d : Drm) : Nat := (d.poolBlocks + 11) / 12

/-- R234, R235: a channel block of channel `n` that holds remapped blocks. -/
def Drm.isSpare (d : Drm) (cb : Nat) : Bool :=
  d.remapped && decide (d.spareBase.toNat ≤ cb) && decide (cb < d.spareBase.toNat + (d.perChannel + 10) / 11)

/-- The pool block at a channel block, normal or remapped. -/
def Drm.blockAt (d : Drm) (n cb : Nat) : Nat :=
  if d.isSpare cb then
    let i := if n < d.fencedCh.toNat then n else n - 1
    12 * (11 * (cb - d.spareBase.toNat) + i) + d.fencedCh.toNat
  else 12 * cb + n

/-- R302: a pool block lies in one of the ranges [BASE, LIMIT) of a partition. -/
def Drm.inRegion (d : Drm) (p blk : Nat) : Bool :=
  (d.regions.look [] p).any (fun r => decide (r.1 ≤ blk) && decide (blk < r.2))

/-- R237, R341: the lines of a tile's slot in DRAM, by chroma format and bit depth. -/
def slotLines (chroma depth : Nat) : Nat :=
  match chroma, decide (depth ≤ 8) with
  | 0, true => 64
  | 0, false => 86
  | 1, true => 96
  | 1, false => 128
  | 2, true => 128
  | 2, false => 171
  | _, true => 192
  | _, false => 256

/-- R237: k, the lines that the compressed data of a tile fills, which its side entry keeps: those of the whole slot where it does not
compress into fewer. The coding is not given, so how far it compresses is a free value. -/
def tileLines (chroma depth : Nat) (x : Samples) : Nat :=
  let k := Config.packedLines x
  if 1 ≤ k ∧ k < slotLines chroma depth then k else slotLines chroma depth

/-- R143, R237: the pool blocks that a buffer of so many tiles takes. -/
def bufferBlocks (tiles chroma depth : Nat) : Nat := (64 * tiles * slotLines chroma depth + blockBytes - 1) / blockBytes

/-- R143, R232: a pool block that a new buffer of a partition may cover: one of its share that no retired or fenced block backs. -/
def Drm.usable (d : Drm) (part b : Nat) : Bool :=
  d.inRegion part b && (match d.place b with
    | some x => !d.retire.contains x
    | none => false)

/-- R130, R256: pool blocks of a stream's bitstream ring. -/
def ringBlocks (c : DecCfg) : Nat := (c.queue + 65535) / 65536

/-- R288: pool blocks of a stream's output buffer. -/
def outBlocks (c : EncCfg) : Nat := (c.outBuf + 65535) / 65536

/-- R143, R144, R256, R288: what takes pool blocks: buffers that are not free, rings and output buffers, by first block and length. -/
def State.liveBuffers (s : State) : List (Nat × Nat) :=
  (s.drm.pool.filter (fun p => !p.2.free)).map (fun p => (p.2.base.toNat, p.2.size)) ++
  s.dec.filterMap (fun x => x.2.ringBase.map (fun b => (b, ringBlocks x.2.cfg))) ++
  s.enc.filterMap (fun x => x.2.outBase.map (fun b => (b, outBlocks x.2.cfg)))

/-- R143: `n` pool blocks from `b` are of the partition's share, usable, and covered by no buffer. -/
def State.fits (s : State) (part n b : Nat) : Bool :=
  (List.range n).all (fun i => s.drm.usable part (b + i)) &&
  s.liveBuffers.all (fun x => decide (b + n ≤ x.1 ∨ x.1 + x.2 ≤ b))

/-- R143: a place with room for `n` pool blocks in a partition's share: at the start of a range, or behind a buffer or a retired
block. -/
def State.room (s : State) (part n : Nat) : Option Nat :=
  if n = 0 then some 0
  else ((s.drm.regions.look [] part).map (·.1) ++ s.liveBuffers.map (fun x => x.1 + x.2) ++
    s.drm.retire.map (fun x => s.drm.blockAt x.1 x.2 + 1)).find? (s.fits part n)

/-- R143, R144: the lowest-numbered free descriptor (DESIGN CHOICE, log entry 13), while the partition's share has room for the buffer. -/
def State.freeDesc (part n : Nat) (s : State) : Option Nat :=
  if (s.room part n).isNone then none else (List.range 4096).find? (fun i => (s.poolD i).free)

/-- R143, R144, R232: a free descriptor is taken for a buffer of `n` pool blocks; where it lies among the places that have room is a
free value (log entry 135). -/
def State.claimDesc (kind : BitVec 2) (part i n b : Nat) (s : State) : State :=
  let x := (Config.freeWord s.freeCtr).toNat
  let at_ := if s.fits part n x then x else (s.room part n).getD 0
  (s.modPoolD b (fun _ => { PoolDesc.reset with
    kind := kind, ref := true, part := BitVec.ofNat 3 part, stream := BitVec.ofNat 8 i, base := BitVec.ofNat 32 at_, size := n })).tickFree

/-- R49: order of stream classes. -/
def StreamClass.rank : StreamClass → Nat
  | .value => 0
  | .live => 1
  | .view => 2
  | .background => 3

/-- R171: the slot of line `n` in the output buffer of raster `k`. -/
def lineSlot (k n : Nat) : Nat := 8 * k + n % 8

/-- R95, R115: the fields that wait for the first picture of the next sweep. -/
def EncCfg.keepSweep (new old : EncCfg) : EncCfg :=
  { new with
    rate := old.rate, rateAvg := old.rateAvg, cpb := old.cpb, qpMin := old.qpMin, qpMax := old.qpMax, sweepLen := old.sweepLen
    regions := old.regions }

/-- R391: unflushed entries of the log. -/
def LogS.unflushed (l : LogS) : Nat := (l.next - l.flushed).toNat

end Sys2Proof.Machine
end

