-- ==== Sys2Proof/Machine/Operands.lean ====
section
/-! DEFINITION. The fields of a microword and the operand forms of the sequencer (R186, R187, R188, R190). -/

namespace Sys2Proof.Machine

/-- A microword (R186). -/
abbrev MWord := BitVec 160

namespace MWord

/-- R186: sequencing operation. -/
def sq (w : MWord) : Nat := (w.extractLsb' 148 4).toNat
/-- R186: next-address base. -/
def na (w : MWord) : BitVec 13 := w.extractLsb' 135 13
/-- R186: multi-way condition vector select. -/
def msel (w : MWord) : Nat := (w.extractLsb' 130 5).toNat
/-- R186: bits of the condition vector ORed into NA. -/
def mmask (w : MWord) : BitVec 4 := w.extractLsb' 126 4
/-- R186: branch condition select. -/
def csel (w : MWord) : Nat := (w.extractLsb' 121 5).toNat
/-- R186: ALU operation. -/
def aop (w : MWord) : Nat := (w.extractLsb' 115 6).toNat
/-- R186: ALU destination register. -/
def adst (w : MWord) : Nat := (w.extractLsb' 110 5).toNat
/-- R186: operand A register. -/
def asrca (w : MWord) : Nat := (w.extractLsb' 105 5).toNat
/-- R186: operand B selects IMM. -/
def bImm (w : MWord) : Bool := w.getLsbD 104
/-- R186: operand B register. -/
def asrcb (w : MWord) : Nat := (w.extractLsb' 99 5).toNat
/-- R186: immediate value, sign-extended. -/
def imm (w : MWord) : Word := (w.extractLsb' 83 16).signExtend 32
/-- R186: unit of slot 0. -/
def u0sel (w : MWord) : Nat := (w.extractLsb' 80 3).toNat
/-- R186: command of slot 0. -/
def u0cmd (w : MWord) : BitVec 8 := w.extractLsb' 72 8
/-- R186: operand register of slot 0. -/
def u0reg (w : MWord) : Nat := (w.extractLsb' 67 5).toNat
/-- R186: unit of slot 1. -/
def u1sel (w : MWord) : Nat := (w.extractLsb' 64 3).toNat
/-- R186: command of slot 1. -/
def u1cmd (w : MWord) : BitVec 8 := w.extractLsb' 56 8
/-- R186: operand register of slot 1. -/
def u1reg (w : MWord) : Nat := (w.extractLsb' 51 5).toNat
/-- R186: memory operation. -/
def mop (w : MWord) : Nat := (w.extractLsb' 48 3).toNat
/-- R186: register holding the buffer offset. -/
def mreg (w : MWord) : Nat := (w.extractLsb' 43 5).toNat
/-- R186: buffer descriptor. -/
def mbuf (w : MWord) : Nat := (w.extractLsb' 39 4).toNat
/-- R186: event operation. -/
def evop (w : MWord) : Nat := (w.extractLsb' 36 3).toNat
/-- R186: event number. -/
def evnum (w : MWord) : Nat := (w.extractLsb' 30 6).toNat
/-- R186: thread operation. -/
def top (w : MWord) : Nat := (w.extractLsb' 27 3).toNat
/-- R186: accumulator operation. -/
def accop (w : MWord) : Nat := (w.extractLsb' 24 3).toNat
/-- R186: accumulator read shift. -/
def accsh (w : MWord) : Nat := (w.extractLsb' 18 6).toNat
/-- R186: flag operation. -/
def flgop (w : MWord) : Nat := (w.extractLsb' 16 2).toNat
/-- R186: reserved bits. -/
def resv (w : MWord) : BitVec 16 := w.extractLsb' 0 16

end MWord

/-- The exclusive-or of the bits of a value. -/
def xorBits {n : Nat} (x : BitVec n) : Bool := (List.range n).foldl (fun a i => a ^^ x.getLsbD i) false

/-- R187: parity group `i` of a word passes. -/
def parityGroup (w : MWord) (i : Nat) : Bool := !(xorBits (w.extractLsb' (19 * i) 19) ^^ w.getLsbD (152 + i))

/-- R187: the first failing parity group. -/
def parityFail (w : MWord) : Option Nat := (List.range 8).find? (fun i => !parityGroup w i)

/-- R186: the word with its parity bits made right: eight bits over the 152 data bits. -/
def withParity (d : BitVec 152) : MWord :=
  let w : MWord := d.setWidth 160
  (List.range 8).foldl (fun x i => if parityGroup x i then x else x ^^^ (1#160 <<< (152 + i))) w

/-- R192: register `r`; G0 reads 0. -/
def Thread.reg (t : Thread) (r : Nat) : Word :=
  if r = 0 then 0
  else match t.regs.find? (fun p => p.1 == r) with
    | some p => p.2
    | none => match t.lost with
      | none => 0
      | some e => Config.lostWord e r

/-- R192: writing register `r`; a write to G0 is discarded. -/
def Thread.setReg (t : Thread) (r : Nat) (v : Word) : Thread :=
  if r = 0 then t
  else if t.lost.isSome then { t with regs := (t.regs.drop r).insertAt r v }
  else { t with regs := t.regs.put 0 r v }

/-- R186: operand A. -/
def Thread.opA (t : Thread) (w : MWord) : Word := t.reg w.asrca

/-- R186: operand B, a register or the immediate. -/
def Thread.opB (t : Thread) (w : MWord) : Word := if w.bImm then w.imm else t.reg w.asrcb

end Sys2Proof.Machine
end

