-- ==== Sys2Proof/Machine/Flags.lean ====
section
/-! DEFINITION. The ALU and the accumulator of a thread: results and flags (R196, R198, R199, R200). -/

namespace Sys2Proof.Machine

/-- R196: MAX. -/
abbrev maxS : Int := 2147483647
/-- R196: MIN. -/
abbrev minS : Int := -2147483648

/-- An exact value outside MIN to MAX. -/
def outS (x : Int) : Bool := decide (x < minS) || decide (maxS < x)

/-- R196: saturation to MAX or MIN. -/
def satS (x : Int) : Int := if x < minS then minS else if maxS < x then maxS else x

/-- What an ALU operation makes: its result, whether it is written, V, C, and whether SAT and DZ are set. -/
structure AluOut where
  r : Word
  write : Bool
  v : Bool
  c : Bool
  sat : Bool
  dz : Bool
  deriving DecidableEq, Repr

/-- A result with V and C clear. -/
def AluOut.plain (r : Word) : AluOut := ⟨r, true, false, false, false, false⟩

/-- A saturating result of an exact value. -/
def AluOut.saturate (x : Int) : AluOut := ⟨BitVec.ofInt 32 (satS x), true, false, false, outS x, false⟩

/-- R198: SHLS of A by a count. -/
def shls (a : Word) (n : Nat) : AluOut :=
  if n = 0 then .plain a
  else if a = 0 then .plain 0
  else if n ≥ 32 then ⟨BitVec.ofInt 32 (if a.toInt < 0 then minS else maxS), true, false, false, true, false⟩
  else .saturate (a.toInt * 2 ^ n)

/-- R199: DIV at its edges and elsewhere. -/
def divide (a b : Word) : AluOut :=
  if b = 0 then
    ⟨if a = 0 then 0 else if a.toInt < 0 then BitVec.ofInt 32 minS else BitVec.ofInt 32 maxS, true, false, false, false, true⟩
  else .saturate (Int.tdiv a.toInt b.toInt)

/-- R199: REM at its edges and elsewhere. -/
def remainder (a b : Word) : AluOut :=
  if b = 0 then ⟨a, true, false, false, false, true⟩ else .plain (BitVec.ofInt 32 (Int.tmod a.toInt b.toInt))

/-- R196: leading zeros of A, 0 to 32. -/
def clz (a : Word) : Nat := (List.range 32).foldl (fun n i => if a.getLsbD i then 31 - i else n) 32

/-- R196: the ALU operations by AOP; none for NOP. -/
def alu (aop : Nat) (a b imm : Word) : Option AluOut :=
  let x := a.toInt
  let y := b.toInt
  let n := (b &&& 0xFF).toNat
  match aop with
  | 0x01 => some ⟨a + b, true, outS (x + y), decide (2 ^ 32 ≤ a.toNat + b.toNat), false, false⟩
  | 0x02 => some (.saturate (x + y))
  | 0x03 => some ⟨a - b, true, outS (x - y), decide (a.toNat < b.toNat), false, false⟩
  | 0x04 => some (.saturate (x - y))
  | 0x05 => some (.saturate (-x))
  | 0x06 => some (.saturate (if x < 0 then -x else x))
  | 0x07 => some (.plain (a &&& b))
  | 0x08 => some (.plain (a ||| b))
  | 0x09 => some (.plain (a ^^^ b))
  | 0x0A => some (.plain (a <<< n))
  | 0x0B => some (.plain (a >>> n))
  | 0x0C => some (.plain (a.sshiftRight n))
  | 0x0D => some (shls a n)
  | 0x0E => some (.plain (if x < y then a else b))
  | 0x0F => some (.plain (if x < y then b else a))
  | 0x10 => some ⟨a * b, true, outS (x * y), false, false, false⟩
  | 0x11 => some (.saturate (x * y))
  | 0x12 => some (divide a b)
  | 0x13 => some (remainder a b)
  | 0x14 => some (.plain a)
  | 0x15 => some (.plain imm)
  | 0x16 => some ⟨a - b, false, outS (x - y), decide (a.toNat < b.toNat), false, false⟩
  | 0x17 => some (.plain (BitVec.ofNat 32 (clz a)))
  | _ => none

/-- R196: Z and N follow the result, V and C are those of the operation, SAT and DZ are sticky. -/
def Flags.after (f : Flags) (o : AluOut) : Flags :=
  { f with z := decide (o.r = 0), n := o.r.msb, v := o.v, c := o.c, sat := f.sat || o.sat, dz := f.dz || o.dz }

/-- R200: saturation at the bounds of 64 bits. -/
def sat64 (x : Int) : Int :=
  if x < -9223372036854775808 then -9223372036854775808
  else if 9223372036854775807 < x then 9223372036854775807 else x

/-- R200: the accumulator after ACCOP, the value RDA reads, and whether SAT is set. -/
def accumulate (accop : Nat) (acc : BitVec 64) (a b : Word) (sh : Nat) : BitVec 64 × Option Word × Bool :=
  match accop with
  | 1 => let x := acc.toInt + a.toInt * b.toInt
         (BitVec.ofInt 64 (sat64 x), none, decide (sat64 x ≠ x))
  | 2 => let x := acc.toInt - a.toInt * b.toInt
         (BitVec.ofInt 64 (sat64 x), none, decide (sat64 x ≠ x))
  | 3 => (0, none, false)
  | 4 => (a.signExtend 64, none, false)
  | 5 => let x := (acc.sshiftRight sh).toInt
         (acc, some (BitVec.ofInt 32 (satS x)), outS x)
  | _ => (acc, none, false)

end Sys2Proof.Machine
end

