-- ==== Sys2Proof/Machine/CoreOps.lean ====
section
/-! DEFINITION. What one coding core does by itself: events, threads, commit and restart, legality of a word, working
memory (R184 to R201). -/

namespace Sys2Proof.Machine

/-- Bytes of working memory (R185). -/
abbrev workBytes : Nat := 1769472

/-- A byte of working memory; bytes lost with the power are free values (R209). -/
def CoreS.byte (c : CoreS) (a : Nat) : Byte :=
  match c.mem.find? (fun p => p.1 == a) with
  | some p => p.2
  | none => match c.memLost with
    | none => 0
    | some e => (Config.lostWord e a).setWidth 8

/-- Writing a byte of working memory; there is none beyond its end. -/
def CoreS.setByte (c : CoreS) (a : Nat) (b : Byte) : CoreS :=
  if workBytes ≤ a then c
  else if c.memLost.isSome then { c with mem := (Tbl.drop c.mem a).insertAt a b } else { c with mem := Tbl.put c.mem 0 a b }

/-- Bytes of working memory from an address. -/
def CoreS.bytes (c : CoreS) (a n : Nat) : List Byte := (List.range n).map (fun i => c.byte (a + i))

/-- Writing bytes of working memory. -/
def CoreS.setBytes (c : CoreS) (a : Nat) (bs : List Byte) : CoreS :=
  bs.zipIdx.foldl (fun c p => c.setByte (a + p.2) p.1) c

/-- R191: word `i` of buffer descriptor `d`: 0 base, 1 length, 2 and 3 DRAM address low and high (log entry 11). -/
def CoreS.descWord (c : CoreS) (d i : Nat) : Nat := leVal (getBytes c.desc 0 (16 * d + 4 * i) 4)

/-- R191, R394: the length of buffer `d`; buffer 15 is the descriptor table, extended to 0x4FF. -/
def CoreS.bufLen (c : CoreS) (d : Nat) : Nat := if d = 15 then 0x500 else c.descWord d 1

/-- R188: a word at an offset of a buffer lies inside it, and inside working memory; what a buffer's descriptor places beyond the end of
working memory counts as outside it (DESIGN CHOICE, log entry 200). -/
def CoreS.inBuf (c : CoreS) (d off : Nat) : Bool :=
  decide (off + 4 ≤ c.bufLen d) && (d == 15 || decide (c.descWord d 0 + off + 4 ≤ workBytes))

/-! Events. -/

/-- R193: event bit `e`. -/
def CoreS.event (c : CoreS) (e : Nat) : Bool := c.events.getLsbD e

/-- Setting or clearing an event bit. -/
def CoreS.putEvent (c : CoreS) (e : Nat) (b : Bool) : CoreS :=
  { c with events := if b then c.events ||| (1#64 <<< e) else c.events &&& ~~~(1#64 <<< e) }

/-- R192, R194: thread `t` waits on event `e`; an IDLE thread waits on event 32. -/
def CoreS.waitsOn (c : CoreS) (e t : Nat) : Bool :=
  let th := c.thread t
  (th.st == .wait && th.waitOn == some (.event e)) || (th.st == .idle && e == 32)

/-- R192, R194: a thread that waited is READY; an IDLE one resumes at its entry word. -/
def Thread.wake (t : Nat) (th : Thread) : Thread :=
  if th.st == .idle then { th with st := .ready, pc := BitVec.ofNat 13 t, waitOn := none }
  else { th with st := .ready, waitOn := none }

/-- R194: event `e` is set: every thread waiting on it becomes READY and the bit is cleared once; with none waiting the
bit stays set. -/
def CoreS.setEvent (e : Nat) (c : CoreS) : CoreS :=
  let ws := (List.range 8).filter (c.waitsOn e)
  if ws.isEmpty then c.putEvent e true
  else ws.foldl (fun c t => c.modThread t (Thread.wake t)) (c.putEvent e false)

/-- Threads waiting on busy unit `u` become READY. -/
def CoreS.unitFree (u : Nat) (c : CoreS) : CoreS :=
  ((List.range 8).filter (fun t => (c.thread t).st == .wait && (c.thread t).waitOn == some (.unit u))).foldl
    (fun c t => c.modThread t (Thread.wake t)) c

/-- A unit by its code. -/
def CoreS.unit (c : CoreS) (u : Nat) : UnitS := c.units.look UnitS.reset u

/-- R184: the motion search unit of a decode or check core is clock-gated: it takes a command and does not end it (DESIGN CHOICE, log
entry 205). -/
def CoreS.gated (c : CoreS) (u : Nat) : Bool := u == 4 && (c.role == .decode || c.role == .check)

/-- R193: unit `u` finishes its command: its status is kept, it is free, and its unit-done event 7 + u is set. A command
of the ledger unit stages a visible output (R197). -/
def CoreS.unitDone (c : CoreS) (u : Nat) (status info : BitVec 4) : CoreS :=
  let x := c.unit u
  let c := { c with units := c.units.put UnitS.reset u { x with busy := false, status := status, info := info } }
  let c := if u = 6 then c.modThread x.thread (fun t => { t with staged := t.staged + 1 }) else c
  (c.setEvent (7 + u)).unitFree u

/-- R192: a thread enters IDLE; a set event 32 is consumed at once and the thread resumes at its entry word. -/
def CoreS.enterIdle (t : Nat) (c : CoreS) : CoreS :=
  let c := c.modThread t (fun th => { th with st := .idle, waitOn := none, pc := BitVec.ofNat 13 t })
  if c.event 32 then (c.putEvent 32 false).modThread t (Thread.wake t) else c

/-- R192, R194: event 32, if it is set, is consumed, and every IDLE thread, which waits on it, resumes at its entry word. -/
def CoreS.takeArrival (c : CoreS) : CoreS := if c.event 32 then c.setEvent 32 else c

/-- R197: the committed copy is taken, the restart address recorded, and the staged outputs released. -/
def Thread.commit (idle : Bool) (th : Thread) : Thread :=
  { th with cRegs := th.regs, cFlags := th.flags, cAcc := th.acc, cStack := th.stack
            restart := th.pc, cIdle := idle, staged := 0 }

/-- R201: the committed copy returns, what was staged is discarded, and the thread resumes at its restart address, or
is IDLE if it was IDLE at that commit. -/
def Thread.restartNow (t : Nat) (th : Thread) : Thread :=
  { th with regs := th.cRegs, flags := { th.cFlags with sat := false, dz := false }, acc := th.cAcc, stack := th.cStack
            staged := 0, yielded := false, waitOn := none
            pc := if th.cIdle then BitVec.ofNat 13 t else th.restart
            st := if th.cIdle then .idle else .ready }

/-- R192, R201: every thread restarts, and the units' commands in flight are abandoned; those that are IDLE take an event 32 that is
set. -/
def CoreS.restartAll (c : CoreS) : CoreS :=
  let c : CoreS := { c with units := c.units.map (fun p => (p.1, { p.2 with busy := false })), dma := [] }
  CoreS.takeArrival ((List.range 8).foldl (fun c t => c.modThread t (Thread.restartNow t)) c)

/-! Legality of a word (R188). -/

/-- R188: a reserved field value or a reserved bit. -/
def MWord.reservedUsed (w : MWord) : Bool :=
  decide (9 ≤ w.sq) || (decide (8 ≤ w.msel) && decide (w.msel < 16)) || decide (24 ≤ w.msel) || decide (13 ≤ w.csel) ||
  decide (0x18 ≤ w.aop) || w.u0sel == 7 || w.u1sel == 7 || decide (5 ≤ w.mop) || decide (5 ≤ w.evop) ||
  decide (4 ≤ w.top) || decide (6 ≤ w.accop) || w.flgop == 3 || w.resv != 0

/-- R193: an event operation on an event that does not allow it. -/
def MWord.eventBad (w : MWord) : Bool :=
  match w.evop with
  | 0 => false
  | 2 => !(decide (w.evnum < 8) || (decide (16 ≤ w.evnum) && decide (w.evnum < 32)))
  | _ => decide (38 ≤ w.evnum)

/-- R188: illegal in itself. -/
def MWord.illegal (w : MWord) : Bool :=
  w.reservedUsed || (w.u0sel != 0 && w.u0sel == w.u1sel) || (w.mop == 1 && w.aop != 0) ||
  (w.accop == 5 && w.aop != 0) || w.eventBad

/-- R190: branch condition CSEL. -/
def CoreS.condition (c : CoreS) (th : Thread) (w : MWord) : Bool :=
  let f := th.flags
  match w.csel with
  | 0 => true
  | 1 => f.z
  | 2 => !f.z
  | 3 => f.n
  | 4 => !f.n
  | 5 => f.v
  | 6 => f.c
  | 7 => f.sat
  | 8 => f.dz
  | 9 => f.t
  | 10 => w.u0sel != 0 && (c.unit w.u0sel).busy
  | 11 => th.stack.isEmpty
  | 12 => decide (th.opA w = 0)
  | _ => false

/-- R188, R191: a push onto a full micro-stack, or a pop from an empty one. -/
def CoreS.stackBad (c : CoreS) (th : Thread) (w : MWord) : Bool :=
  match w.sq with
  | 5 | 6 => decide (8 ≤ th.stack.length)
  | 7 => th.stack.isEmpty
  | 8 => c.condition th w && th.stack.isEmpty
  | _ => false

/-- R188: a load or store outside its buffer. -/
def CoreS.boundsBad (c : CoreS) (th : Thread) (w : MWord) : Bool :=
  (w.mop == 1 || w.mop == 2) && !c.inBuf w.mbuf (th.reg w.mreg).toNat

/-- R188, R211: the cause code of an illegal word: 5 ILLEGAL, 4 STACK, 6 BOUNDS; of a word that is illegal in several ways, the first in
this order (DESIGN CHOICE, log entry 199). -/
def CoreS.illegalCause (c : CoreS) (th : Thread) (w : MWord) : Option (BitVec 3) :=
  if w.illegal then some 5 else if c.stackBad th w then some 4 else if c.boundsBad th w then some 6 else none

/-! Next address (R190). -/

/-- R190: four bits, the first the most significant. -/
def vec4 (a b c d : Bool) : BitVec 4 := BitVec.ofBool a ++ BitVec.ofBool b ++ BitVec.ofBool c ++ BitVec.ofBool d

/-- R190: the condition vector that MSEL selects. Event 8 or 32 is V[0], and V of MSEL 2 or 3 without a unit in the slot is 0 (DESIGN
CHOICE, log entry 202). -/
def CoreS.vector (c : CoreS) (th : Thread) (w : MWord) : BitVec 4 :=
  let f := th.flags
  match w.msel with
  | 0 => vec4 f.z f.n f.v f.c
  | 1 => vec4 false false f.dz f.sat
  | 2 => if w.u0sel = 0 then 0 else (c.unit w.u0sel).status
  | 3 => if w.u1sel = 0 then 0 else (c.unit w.u1sel).status
  | 4 => (c.unit 1).info
  | 5 => (c.unit 3).info
  | 6 => c.events.extractLsb' 8 4
  | 7 => c.events.extractLsb' 32 4
  | k => (th.opA w).extractLsb' (4 * (k - 16)) 4

/-- R190: the next address and the micro-stack; addresses wrap modulo 8,192. -/
def CoreS.next (c : CoreS) (th : Thread) (w : MWord) : BitVec 13 × List (BitVec 13) :=
  let seq := th.pc + 1
  let way := w.na ||| (c.vector th w &&& w.mmask).setWidth 13
  match w.sq with
  | 0 => (seq, th.stack)
  | 1 => (w.na, th.stack)
  | 2 => (if c.condition th w then w.na else seq, th.stack)
  | 3 => (if c.condition th w then seq else w.na, th.stack)
  | 4 => (way, th.stack)
  | 5 => (w.na, seq :: th.stack)
  | 6 => (way, seq :: th.stack)
  | 7 => (th.stack.headD 0, th.stack.tail)
  | 8 => if c.condition th w then (th.stack.headD 0, th.stack.tail) else (seq, th.stack)
  | _ => (seq, th.stack)

/-! Issue (R189). -/

/-- R192: the thread that issues: the first READY one after the thread that issued last that has not yielded. -/
def CoreS.pick (c : CoreS) : Option Nat :=
  ((List.range 8).map (fun i => (c.last + 1 + i) % 8)).find?
    (fun t => (c.thread t).st == .ready && !(c.thread t).yielded)

/-- R195: a yield lasts one cycle. -/
def CoreS.endYields (c : CoreS) : CoreS :=
  (List.range 8).foldl (fun c t => c.modThread t (fun th => { th with yielded := false })) c

/-- The word at an address of the active bank (R206). -/
def CoreS.word (c : CoreS) (a : BitVec 13) : MWord := c.words.look 0 (8192 * c.bank.toNat + a.toNat)

/-- R192: a unit that the word names and that is busy. -/
def CoreS.busyUnit (c : CoreS) (w : MWord) : Option Nat :=
  [w.u0sel, w.u1sel].find? (fun u => u != 0 && (c.unit u).busy)

/-- R186, R189, 1: a command is issued to a unit, with the register that is its operand. -/
def CoreS.command (c : CoreS) (t u : Nat) (cmd : BitVec 8) (arg : Word) : CoreS :=
  if u = 0 then c
  else { c with units := c.units.upd UnitS.reset u (fun x => { x with busy := true, thread := t, op := cmd, arg := arg }) }

/-- R189, 2: ALU, accumulator and memory results; `ld` is the word that LD loads, which stands in the register where RDA writes the same
one (DESIGN CHOICE, log entry 201). -/
def Thread.results (th : Thread) (w : MWord) (ld : Option Word) : Thread :=
  let a := th.opA w
  let b := th.opB w
  let (acc, rda, sat) := accumulate w.accop th.acc a b w.accsh
  let t1 := match alu w.aop a b w.imm with
    | some o => { (if o.write then th.setReg w.adst o.r else th) with flags := th.flags.after o }
    | none => th
  let t2 := { t1 with acc := acc, flags := { t1.flags with sat := t1.flags.sat || sat } }
  let t3 := match rda with
    | some v => t2.setReg w.adst v
    | none => t2
  match ld with
  | some v => t3.setReg w.adst v
  | none => t3

/-- R189, 3: FLGOP; the copy reads SAT and DZ as they stood before the word issued. -/
def Thread.flagOp (old : Flags) (w : MWord) (th : Thread) : Thread :=
  match w.flgop with
  | 1 => { th with flags := { th.flags with sat := false, dz := false } }
  | 2 => { th with flags := { th.flags with t := old.sat || old.dz } }
  | _ => th

/-- R189, 4: the event operation (R194). -/
def CoreS.eventOp (c : CoreS) (t : Nat) (w : MWord) : CoreS :=
  match w.evop with
  | 1 => if c.event w.evnum then c.putEvent w.evnum false
         else c.modThread t (fun th => { th with st := .wait, waitOn := some (.event w.evnum) })
  | 2 => c.setEvent w.evnum
  | 3 => c.putEvent w.evnum false
  | 4 => c.modThread t (fun th => { th with flags := { th.flags with t := c.event w.evnum } })
  | _ => c

/-- R189, 5: the thread operation (R195). -/
def CoreS.threadOp (c : CoreS) (t : Nat) (w : MWord) : CoreS :=
  match w.top with
  | 1 => c.modThread t (Thread.commit false)
  | 2 => c.modThread t (fun th => { th with yielded := true })
  | 3 => (c.modThread t (Thread.commit true)).enterIdle t
  | _ => c

/-- R189: the effects of a legal word whose units are free, in order; `ld` is the word that LD loads. -/
def CoreS.issue (c : CoreS) (t : Nat) (w : MWord) (ld : Option Word) : CoreS :=
  let th := c.thread t
  let (pc, stack) := c.next th w
  let c1 := (c.command t w.u0sel w.u0cmd (th.reg w.u0reg)).command t w.u1sel w.u1cmd (th.reg w.u1reg)
  let c2 := c1.modThread t (fun x => { (Thread.flagOp th.flags w (x.results w ld)) with pc := pc, stack := stack })
  let c3 := (c2.eventOp t w).threadOp t w
  { c3 with last := t }

/-- R192: a word that names a busy unit is not issued, and its thread waits until the unit is free. -/
def CoreS.waitUnit (c : CoreS) (t u : Nat) : CoreS :=
  c.modThread t (fun th => { th with st := .wait, waitOn := some (.unit u) })

/-! Faults of a core (R203, R211). -/

/-- R203: times within the last second. -/
def within (ns now : Nat) (ts : List Nat) : List Nat := ts.filter (fun t => decide (now < t + ns))

/-- R211: a fault is recorded in COR_FAULT. -/
def CoreS.record (c : CoreS) (cause : BitVec 3) (t g : Nat) (a : BitVec 13) : CoreS :=
  { c with seq := c.seq + 1, cause := cause, fThread := BitVec.ofNat 3 t, fGroup := BitVec.ofNat 3 g, fAddr := a }

/-- R202: all eight threads are in WAIT on internal events or on busy units. -/
def CoreS.deadlocked (c : CoreS) : Bool :=
  (List.range 8).all (fun t => (c.thread t).st == .wait && (match (c.thread t).waitOn with
    | some (.event e) => decide (e < 32)
    | some (.unit _) => true
    | none => false))

/-- Every thread is IDLE (R206, R210). -/
def CoreS.allIdle (c : CoreS) : Bool := (List.range 8).all (fun t => (c.thread t).st == .idle)

/-- R209: what C3 keeps: threads are IDLE with their committed copies; working memory is lost. -/
def CoreS.enterC3 (n : Nat) (c : CoreS) : CoreS :=
  let c := { c with mem := [], memLost := some n }
  (List.range 8).foldl (fun c t => c.modThread t (fun th => { th with
    regs := th.cRegs, flags := th.cFlags, acc := th.cAcc, stack := th.cStack, st := .idle, waitOn := none })) c

/-- R209: C4 keeps nothing: registers, flags and accumulators are free values, the inactive bank is not valid; control and event
state are as after reset (DEDUCED, log entry 153). -/
def CoreS.enterC4 (n : Nat) (c : CoreS) : CoreS :=
  let lostT (t : Nat) : Thread :=
    let b (i : Nat) : Bool := (Config.lostWord (n + t) (1000 + i)).getLsbD 0
    let f : Flags := ⟨b 0, b 1, b 2, b 3, b 4, b 5, b 6⟩
    let a : BitVec 64 := Config.lostWord (n + t) 32 ++ Config.lostWord (n + t) 33
    { Thread.reset with lost := some (n + t), flags := f, cFlags := f, acc := a, cAcc := a }
  { c with
    mem := [], memLost := some n, desc := [], units := [], dma := [], events := 0
    threads := (List.range 8).map (fun t => (t, lostT t))
    validA := !c.bank && c.validA, validB := c.bank && c.validB
    words := c.words.filter (fun p => decide (8192 ≤ p.1) == c.bank) }

/-- R204, R209: the active bank as its DRAM copy holds it. -/
def CoreS.reloadBank (c : CoreS) : CoreS :=
  let keep := c.words.filter (fun p => decide (8192 ≤ p.1) != c.bank)
  let back := c.copies.filter (fun p => decide (8192 ≤ p.1) == c.bank)
  { c with words := if c.bank then keep ++ back else back ++ keep }

end Sys2Proof.Machine
end

