-- ==== Sys2Proof/Machine/Convert.lean ====
section
/-! DEFINITION. Colour formats and the conversion of a pixel between them (R90, R169). -/

namespace Sys2Proof.Machine

/-- R169: a colour format: matrix_coeffs (0 is R'G'B'), limited range, and the bit depths of its first component and of the
others. -/
structure ColourFmt where
  matrix : Nat
  limited : Bool
  depth : Nat
  depthC : Nat
  deriving DecidableEq, Repr

/-- R82, R163, R169: the format of overlay colours and backgrounds: R'G'B' of full range and 10 bits. -/
def ColourFmt.overlay : ColourFmt := ⟨0, false, 10, 10⟩

/-- Kr and Kb of a matrix in units of 1/10,000, as the standards that matrix_coeffs names give them; none for R'G'B' and for
matrices of another kind. -/
def lumaWeights (matrix : Nat) : Option (Rat × Rat) :=
  match matrix with
  | 1 => some (2126 / 10000, 722 / 10000)
  | 4 => some (3000 / 10000, 1100 / 10000)
  | 5 | 6 => some (2990 / 10000, 1140 / 10000)
  | 7 => some (2120 / 10000, 870 / 10000)
  | 9 => some (2627 / 10000, 593 / 10000)
  | _ => none

/-- The code of a component's zero and of its span of one, by its range and depth; `chroma` for a difference component. -/
def codeSpan (limited chroma : Bool) (depth : Nat) : Nat × Nat :=
  match limited, chroma with
  | true, false => (16 * 2 ^ (depth - 8), 219 * 2 ^ (depth - 8))
  | true, true => (2 ^ (depth - 1), 224 * 2 ^ (depth - 8))
  | false, false => (0, 2 ^ depth - 1)
  | false, true => (2 ^ (depth - 1), 2 ^ depth - 1)

/-- A code as a component's value. -/
def fromCode (limited chroma : Bool) (depth v : Nat) : Rat :=
  let (z, w) := codeSpan limited chroma depth
  ((v : Rat) - (z : Rat)) / (w : Rat)

/-- R169: a component's value as a code, rounded half up and clipped to the sample range. -/
def toCode (limited chroma : Bool) (depth : Nat) (e : Rat) : Nat :=
  let (z, w) := codeSpan limited chroma depth
  min ((z : Rat) + (w : Rat) * e + 1 / 2).floor.toNat (2 ^ depth - 1)

/-- ITU-T H.265: R'G'B' values of a YCgCo pixel (matrix_coeffs 8), whose differences have the span of its luma. -/
def ColourFmt.ofYCgCo (f : ColourFmt) (x : Nat × Nat × Nat) : Rat × Rat × Rat :=
  let diff (v : Nat) : Rat := ((v : Rat) - ((2 ^ (f.depthC - 1) : Nat) : Rat)) / ((codeSpan f.limited false f.depthC).2 : Rat)
  let y := fromCode f.limited false f.depth x.1
  let cg := diff x.2.1
  let co := diff x.2.2
  (y - cg + co, y + cg, y - cg - co)

/-- R169: R'G'B' values of a pixel of a format; none for a matrix whose equations no name gives, or whose equations (those of constant
luminance) need the transfer characteristics. -/
def ColourFmt.toRgb (f : ColourFmt) (x : Nat × Nat × Nat) : Option (Rat × Rat × Rat) :=
  if f.matrix = 0 then
    some (fromCode f.limited false f.depth x.1, fromCode f.limited false f.depthC x.2.1, fromCode f.limited false f.depthC x.2.2)
  else if f.matrix = 8 then some (f.ofYCgCo x)
  else (lumaWeights f.matrix).map (fun k =>
    let y := fromCode f.limited false f.depth x.1
    let r := y + 2 * (1 - k.1) * fromCode f.limited true f.depthC x.2.2
    let b := y + 2 * (1 - k.2) * fromCode f.limited true f.depthC x.2.1
    (r, (y - k.1 * r - k.2 * b) / (1 - k.1 - k.2), b))

/-- R169: the codes of a pixel in a format, from its R'G'B' values. -/
def ColourFmt.ofRgb (f : ColourFmt) (x : Rat × Rat × Rat) : Option (Nat × Nat × Nat) :=
  if f.matrix = 0 then
    some (toCode f.limited false f.depth x.1, toCode f.limited false f.depthC x.2.1, toCode f.limited false f.depthC x.2.2)
  else (lumaWeights f.matrix).map (fun k =>
    let y := k.1 * x.1 + (1 - k.1 - k.2) * x.2.1 + k.2 * x.2.2
    (toCode f.limited false f.depth y, toCode f.limited true f.depthC ((x.2.2 - y) / (2 * (1 - k.2))),
      toCode f.limited true f.depthC ((x.1 - y) / (2 * (1 - k.1)))))

/-- R168: a sample at another bit depth: shifted left, or rounded half up. -/
def redepth (a b v : Nat) : Nat := if a ≤ b then v * 2 ^ (b - a) else min ((v + 2 ^ (a - b) / 2) / 2 ^ (a - b)) (2 ^ b - 1)

/-- R169: a pixel converted from one format to another: its matrix and range, with exact arithmetic (DESIGN CHOICE, log entry
141); a format of the same matrix and range changes its depth only. A matrix that has no such equations gives a free value. -/
def convertPixel (a b : ColourFmt) (x : Nat × Nat × Nat) : Nat × Nat × Nat :=
  if a.matrix = b.matrix ∧ a.limited = b.limited then
    (redepth a.depth b.depth x.1, redepth a.depthC b.depthC x.2.1, redepth a.depthC b.depthC x.2.2)
  else match (a.toRgb x).bind b.ofRgb with
    | some y => y
    | none => Config.colourConvert (2 * a.matrix + a.limited.toNat) (2 * b.matrix + b.limited.toNat) x

/-- R61, R169: how many luma columns and lines a chroma sample stands for: 4:2:0, 4:2:2, or 4:4:4. -/
def chromaStep (chroma : Nat) : Nat × Nat := (if chroma = 1 ∨ chroma = 2 then 2 else 1, if chroma = 1 then 2 else 1)

end Sys2Proof.Machine
end

