-- ==== Sys2Proof/Machine/ModeOps.lean ====
section
/-! DEFINITION. Modes, the output pins, HALT, and the record that the fault collector keeps of a report (R352, R353,
R181, R367, R403, R406, R411, R430). -/

namespace Sys2Proof.Machine

/-- R353: the mode codes. -/
def Mode.code : Mode → BitVec 4
  | .fill => 1
  | .load => 2
  | .train => 3
  | .adopt => 4
  | .solo => 5
  | .lead => 6
  | .shadow => 7
  | .takeover => 8
  | .degraded => 9
  | .patch => 0xA
  | .rest => 0xB
  | .halt => 0xC

/-- R352: the role codes. -/
def Role.code : Role → BitVec 2
  | .none => 0
  | .solo => 1
  | .lead => 2
  | .shadow => 3

/-- The part is out of reset and not in HALT, so its blocks run (R353, R367, R435). -/
def State.running (s : State) : Bool := !s.glb.inReset && s.glb.mode != .halt

/-- R353: the modes in which everything runs: ADOPT while it waits for confirmation, and the modes of service (LOAD and
TRAIN run the loader and link training; REST a sub-state). -/
def State.serving (s : State) : Bool :=
  !s.glb.inReset && (match s.glb.mode with
    | .adopt => s.glb.adoptWait
    | .solo | .lead | .shadow | .takeover | .degraded | .patch => true
    | _ => false)

/-- R117, R423: the device codes as the shadow of a living lead. -/
def State.follows (s : State) : Bool := s.glb.role == .shadow && s.glb.mode != .takeover

/-- R181: the modes in which OWN may be high. -/
def Glb.ownMode (g : Glb) : Bool :=
  match g.mode with
  | .solo | .lead => true
  | .patch => g.modeFrom == .solo || g.modeFrom == .lead
  | .takeover => g.ungated
  | _ => false

/-- R181: DPOn_SEL is high while output raster n is not gated, in the modes named for OWN. -/
def State.dpoSel (s : State) (n : Nat) : Bool := s.glb.ownMode && !(s.outP n).gated

/-- R420: the device's own heartbeat generator has emitted a heartbeat within the last 200 µs. -/
def State.hbFresh (s : State) : Bool := s.glb.lastHb.any (fun t => decide (s.now < t + 200000))

/-- R352, R369: MODE, ROLE or REST_SUB change: MODE_SEQ advances, source 32 is latched, MODE_CHANGED is raised, and OWN
follows (R181). -/
def State.setMode (m : Mode) (r : Role) (sub : BitVec 2) (s : State) : State :=
  let g := s.glb
  let s1 := s.modGlb (fun g =>
    let g := { g with mode := m, role := r, restSub := sub }
    { g with own := g.ownMode && s.hbFresh })
  if g.mode = m ∧ g.role = r ∧ g.restSub = sub then s1
  else ((s1.modGlb (fun g => { g with modeSeq := g.modeSeq + 1 })).latch 32).raise .modeChanged
    [.w16 (g.mode.code.setWidth 16), .w16 (m.code.setWidth 16), .w16 (g.role.code.setWidth 16), .w16 (r.code.setWidth 16)]

/-- R367, R411: HALT: FAULT_OUT_N and OWN fall, every transmitter stops, and an adoption waits no longer. -/
def State.enterHalt (src : Nat) (s : State) : State :=
  if s.glb.mode = .halt then s
  else
    let s := s.setMode .halt s.glb.role 0
    (s.modGlb (fun g => { g with faultOutN := false, own := false, adoptWait := false })).raise .deviceHalted [i16 src]

/-- R404: the class codes. -/
def classCode : FaultClass → BitVec 2
  | .none => 0
  | .corrected => 1
  | .contained => 2
  | .fatal => 3

/-- R402: the core that holds a source, of sources 0 to 255. -/
def srcCore (n : Nat) : Option Nat := if n < 256 then some (n / 8) else none

/-- R402: the bay that holds a source: its cores, its own three sources, its PLL and its supply. -/
def srcBay (n : Nat) : Option Nat :=
  if n < 256 then some (n / 64)
  else if n < 268 then some ((n - 256) / 3)
  else if 399 ≤ n ∧ n ≤ 402 then some (n - 399)
  else if 409 ≤ n ∧ n ≤ 412 then some (n - 409)
  else none

/-- R406: reports of a fenced unit, or from inside a fenced core or bay, are masked. -/
def State.masked (s : State) (n : Nat) : Bool :=
  (s.fltSrc n).fenced ||
  (match srcCore n with
    | some c => (s.core c).fenced
    | none => false) ||
  (match srcBay n with
    | some b => (s.bay b).fenced
    | none => false)

/-- R401: the reaction codes. -/
inductive Reaction where
  | count | retry | restart | reload | fenceUnit | fenceCore | fenceBay | halt
  deriving DecidableEq, Repr

/-- R401: codes of the reactions. -/
def Reaction.code : Reaction → BitVec 3
  | .count => 0
  | .retry => 1
  | .restart => 2
  | .reload => 3
  | .fenceUnit => 4
  | .fenceCore => 5
  | .fenceBay => 6
  | .halt => 7

/-- R430, R432: a corrected report is counted; FAULT_CORRECTED at each multiple of 64. -/
def State.recordCorrected (n : Nat) (s : State) : State :=
  let x := s.fltSrc n
  let s := s.modFltSrc n (fun x => { x with last := 1, reaction := 0, ce := satInc x.ce })
  if x.ce.toNat % 64 = 63 ∧ x.ce ≠ 0xFF then s.limited .faultCorrected n ms (State.raise .faultCorrected [i16 n]) else s

/-- R430, R432: a contained report that is acted on is counted, recorded in FLT_STAT, and FAULT_CONTAINED is raised. -/
def State.recordContained (n : Nat) (r : Reaction) (forced : Bool) (s : State) : State :=
  let s := s.modFltSrc n (fun x => { x with
    last := 2, reaction := r.code, ct := satInc x.ct, times := s.now :: within sec s.now x.times })
  let s := s.modFlt (fun f => { f with seq := f.seq + 1, new := true, lastSrc := BitVec.ofNat 9 n, lastClass := 2 })
  s.limited .faultContained n ms (State.post ⟨.faultContained, none, [i16 n, .w16 (r.code.setWidth 16)], some forced⟩)

/-- R430, R411: a fatal report that is acted on is recorded, and HALT is entered. -/
def State.recordFatal (n : Nat) (s : State) : State :=
  let s := s.modFltSrc n (fun x => { x with last := 3, reaction := 7 })
  let s := s.modFlt (fun f => { f with
    seq := f.seq + 1, new := true, fatal := true, lastSrc := BitVec.ofNat 9 n, lastClass := 3 })
  s.enterHalt n

/-- R432: UNIT_FENCED with the level of R12 (3 unit, 4 core, 5 bay). -/
def State.unitFenced (n level : Nat) (s : State) : State :=
  s.limited .unitFenced n ms (State.raise .unitFenced [i16 n, i16 level])

/-- R306: the background work classes: scrub of a channel at its number, calibration slivers of a channel at 12 more, tile
state visits, statistics sampling and log flush. -/
abbrev workSliver : Nat := 12
/-- R306: tile state visits. -/
abbrev workVisit : Nat := 24
/-- R306: statistics sampling. -/
abbrev workStats : Nat := 25
/-- R306: log flush. -/
abbrev workFlush : Nat := 26

/-- R306, R307: a background work class receives a unit of service: it is at its home level again, and keeps to its cap. -/
def State.served (work : Nat) (s : State) : State :=
  s.modBlw (fun b => { b with starve := b.starve.upd Starve.reset work (fun x => { x with steps := 0, since := s.now, part := 0 }) })

/-- R414, R415: a sequenced frame is queued for the twin while the link is UP. -/
def State.gPut (m : GMsg) (s : State) : State :=
  if s.grt.link = .up then s.modGrt (fun g => { g with sendq := g.sendq ++ [⟨0, m, s.now⟩] }) else s

/-- R101: a sweep restart of encode stream `i` at a commit position is requested; a lead mirrors it (R426). -/
def State.encRestart (i : Nat) (t : T48) (trigger : Nat) (s : State) : State :=
  let s := s.modEncS i (fun e => { e with restarts := e.restarts ++ [(t, trigger)] })
  if s.glb.role = .lead then s.gPut (.txn (.restart i t trigger)) else s

/-- R312: admission is to run for a trigger; a run that is due keeps its first trigger. -/
def State.wantAdmission (trigger : Nat) (s : State) : State :=
  s.modBlw (fun b => { b with admitPend := some (b.admitPend.getD trigger), fenceDue := b.fenceDue || trigger == 1 })

end Sys2Proof.Machine
end

