-- ==== Sys2Proof/Machine/RasterOps.lean ====
section
/-! DEFINITION. The PTP clock, the times and positions of the rasters, and the states of an input raster (R31 to R42). -/

namespace Sys2Proof.Machine

/-! Times and positions. -/

/-- R37: a format within the ranges of the table: its frame rate, lines and PHASE. -/
def fmtLegal (p : RasterFmt) : Bool :=
  (p.den == 1 || p.den == 1001) && decide (24000 * p.den ≤ 1001 * p.num) && decide (p.num ≤ 120 * p.den) &&
  decide (1 ≤ p.la) && decide (p.la ≤ 4320) && decide (p.la < p.lt) && decide (p.lt ≤ 16383) &&
  decide ((p.phase.natAbs + 1) * p.num ≤ p.den * sec)

/-- R173: a format within the limits of raster `k`'s transport: active size, frame rate, pixel rate and sampling. -/
def fmtFits (k : Nat) (p : RasterFmt) : Bool :=
  if k < 8 then decide (p.width ≤ 5120) && decide (p.la ≤ 2880) && decide (p.width ≤ p.hTotal) &&
    decide (p.hTotal * p.lt * p.num ≤ 1200000000 * p.den) && decide (p.width ≤ p.syncStart) && decide (p.syncStart + p.syncWidth ≤ p.hTotal) &&
    decide (p.sampling < 3)
  else decide (p.width ≤ 3840) && decide (p.la ≤ 2160) && decide (p.num ≤ 60 * p.den) &&
    (if 16 ≤ k ∧ k < 20 then decide (max p.width p.hTotal * p.lt * p.num ≤ 600000000 * p.den)
      else decide (p.width * p.la * p.num ≤ 497664000 * p.den)) &&
    decide (p.sampling < (if 16 ≤ k ∧ k < 20 then 3 else 5))

/-- R41: the nominal frame period in ns. -/
def fmtPeriod (p : RasterFmt) : Nat := p.den * sec / p.num

/-- R38: the start of absolute line index `m`. -/
def fmtLine (p : RasterFmt) (m : Int) : Int := p.phase + m * (p.den * sec : Nat) / ((p.num * p.lt : Nat) : Int)

/-- R39: the absolute line index in progress at a time. -/
def fmtPosition (p : RasterFmt) (t : Int) : Int :=
  let m0 := (t - p.phase) * ((p.num * p.lt : Nat) : Int) / ((p.den * sec : Nat) : Int)
  if fmtLine p (m0 + 1) ≤ t then m0 + 1 else m0

/-- R41: the frame period P of a measured raster. -/
def Raster.period (r : Raster) : Nat :=
  match r.sfPrev with
  | some q => r.sf - q
  | none => fmtPeriod r.fmt

/-- R38, R41: the time of line `n` of frame `f`: R38 on an output raster and on an input raster with no measured frame;
else from the measured frame, extrapolated by whole frames. -/
def State.lineTime (s : State) (k : Nat) (f n : Nat) : Int :=
  let r := s.raster k
  if 16 ≤ k ∧ r.measured then
    (r.sf : Int) + ((f : Int) - (r.frame : Int)) * (r.period : Int) + ((n * r.period / r.fmt.lt : Nat) : Int)
  else fmtLine r.fmt ((f * r.fmt.lt + n : Nat) : Int)

/-- R9: the time of a position. -/
def State.posTime (s : State) (p : LinePos) : Int := s.lineTime p.raster p.frame p.line

/-- R39, R41: the absolute line index in progress on a raster. -/
def State.lineIndex (s : State) (k : Nat) : Int :=
  let r := s.raster k
  if 16 ≤ k ∧ ¬ r.measured then fmtPosition r.fmt s.time else ((r.frame * r.fmt.lt + r.line : Nat) : Int)

/-- R41: the frame count of a raster now. -/
def State.frameNow (s : State) (k : Nat) : Int :=
  let r := s.raster k
  if 16 ≤ k ∧ ¬ r.measured then s.lineIndex k / (r.fmt.lt : Int) else (r.frame : Int)

/-- R8: the raster is used by the image. -/
def State.rasterUsed (s : State) (k : Nat) : Bool := decide (k < 28) && (s.raster k).fmt.inUse

/-- R8: output rasters that the image uses. -/
def State.outputs (s : State) : List Nat := (List.range 16).filter s.rasterUsed

/-! The clock (R32 to R36). -/

/-- R402: a fenced clock reports FREERUN until LOAD. -/
def Clk.reported (c : Clk) : ClkState := if c.fenced then .freerun else c.st

/-- R32: codes of RAS_CLK_STATE. -/
def ClkState.code : ClkState → BitVec 3
  | .freerun => 0
  | .locked => 1
  | .holdover => 2
  | .relocking => 3

/-- R56: codes of CLK. -/
def ClkState.segCode : ClkState → BitVec 2
  | .locked => 0
  | .holdover => 1
  | .relocking => 2
  | .freerun => 3

/-- R32: the uncertainty U in ns, not defined in FREERUN; h x D is rounded down (DESIGN CHOICE, log entry 128). -/
def State.uncertainty (s : State) : Option Nat :=
  let c := s.ras.clk
  match c.reported with
  | .freerun => none
  | .locked => some 0
  | .holdover => some (20 + (s.now - c.holdStart) * c.drift / sec)
  | .relocking => some (c.offset.natAbs + 20)

/-- R67: UNCERT of an uncertainty. -/
def uncertWord (u : Option Nat) : BitVec 32 :=
  match u with
  | none => 0xFFFFFFFF
  | some u => satNat 32 u

/-- R67, R479: U now. -/
def State.uncert32 (s : State) : BitVec 32 := uncertWord s.uncertainty

/-- R34: the slew moves the clock by 1 ns in 20,000 ns: 50 ppm, its greatest rate (DESIGN CHOICE, log entry 129). -/
abbrev slewSpan : Nat := 20000

/-- R34: an offset after a slew of `t` ns. -/
def slewLeft (e : Int) (t : Nat) : Int := e.sign * ((e.natAbs - t / slewSpan : Nat) : Int)

/-- R32, R67: U at PTP time `t` in a span of the clock's history. -/
def ClkSpan.uncertainty (drift t : Nat) (x : ClkSpan) : Option Nat :=
  match x.st with
  | .freerun => none
  | .locked => some 0
  | .holdover => some (20 + (t - x.start) * drift / sec)
  | .relocking => some ((slewLeft x.offset (t - x.start)).natAbs + 20)

/-- R67: the state of the clock at PTP time `t`, and U at that moment; before the first change of state it is FREERUN. -/
def State.clkAt (s : State) (t : Nat) : ClkState × Option Nat :=
  match s.ras.clk.hist.find? (fun x => decide (x.start ≤ t)) with
  | some x => (x.st, x.uncertainty s.ras.clk.drift t)
  | none => (.freerun, none)

/-- R67: what the clock reports from now on enters its history. -/
def State.noteClk (s : State) : State :=
  s.modClk (fun c => { c with hist := ⟨s.time, c.reported, c.offset⟩ :: c.hist })

/-- R34, R53: how far 1 ns of device time takes the clock: its PTP time by the rate last estimated, and by the slew while an
offset remains. -/
def Clk.advance (c : Clk) : Clk × Int :=
  let a := (c.acc : Int) + (if c.st = .freerun then 0 else c.rate)
  let slews := (c.st == .locked || c.st == .relocking) && c.offset != 0
  let turn := slews && decide (slewSpan ≤ c.slewed + 1)
  let d : Int := if turn then c.offset.sign else 0
  ({ c with acc := (a % (sec : Int)).toNat, offset := c.offset - d, slewed := if turn || !slews then 0 else c.slewed + 1 },
    1 + a / (sec : Int) + d)

/-- R32, R34, R53, R383: 1 ns of device time passes, from reset release on. -/
def State.passTime (s : State) : State :=
  if s.glb.inReset then s
  else
    let (c, d) := s.ras.clk.advance
    ((s.modClk (fun _ => c)).modPtp (fun t => t + BitVec.ofInt 64 d)).modNow (· + 1)

/-- R53, R442: the rate of the grandmaster against SYS_CLK as the clock estimates it, in ppb: a free value within the 50 ppm
of SYS_CLK (log entry 129). -/
def State.estimateRate (s : State) : State :=
  (s.modClk (fun c => { c with rate := max (-50000) (min 50000 (Config.clockRate s.freeCtr)) })).tickFree

/-- R33, R377: a change of the clock's state, its event and source 48. -/
def State.clkState (st : ClkState) (id : EventId) (items : List Item) (s : State) : State :=
  if s.ras.clk.st = st then s
  else ((s.modClk (fun c => { c with st := st, limitRaised := false })).latch 48).raise id items

/-- R86: a ledger event, with the stream and PIC_COUNT, and source 62. -/
def State.ledgerEvent (id : EventId) (i : Nat) (pc : BitVec 32) (items : List Item) (s : State) : State :=
  (s.latch 62).raiseP (s.decS i).cfg.part id (i16 i :: .w32 pc :: items)

/-- R70, R86: TV is cleared for every tile of every stream; the event, which concerns no stream, carries stream 0 and
PIC_COUNT 0 (DESIGN CHOICE, log entry 133). -/
def State.clearAllTimes (s : State) : State :=
  ((s.modCmp (fun c => { c with tiles := c.tiles.mapAll TileEntry.reset (fun _ e => { e with tv := false }) })).latch 62).raise
    .ledgerTimesCleared [i16 0, .w32 0, i16 1]

/-- R70: TV is cleared for every tile of stream `i` by its picture of PIC_COUNT `pc`. -/
def State.clearTimes (i : Nat) (pc : BitVec 32) (s : State) : State :=
  let f (k : Nat) (e : TileEntry) : TileEntry := if k / 65536 = i then { e with tv := false } else e
  (s.modCmp (fun c => { c with tiles := c.tiles.mapAll TileEntry.reset f })).ledgerEvent
    .ledgerTimesCleared i pc [i16 2]

/-- R51: every output raster in use is to be realigned. -/
def State.realignAll (s : State) : State :=
  s.each ((List.range 16).filter s.rasterUsed) (fun k => State.modRaster k (fun r => { r with realign := true }))

/-- R34: the clock steps by `e`; every output raster is to be realigned (R51), and TV of every tile is cleared (R70). -/
def State.clkStep (e : Int) (s : State) : State :=
  let s := s.modPtp (fun t => t + BitVec.ofInt 64 e)
  let s := s.modClk (fun c => { c with steps := s.time :: c.steps, offset := 0, inBound := 0 })
  (s.raise .clockStep [i64 e]).clearAllTimes.realignAll

/-- R34: the clock returns to a grandmaster at offset `e` by a slew or a step, and enters RELOCKING. -/
def State.relock (e : Int) (s : State) : State :=
  let s := if s.ras.clk.stepLimit < e.natAbs then s.clkStep e
    else s.modClk (fun c => { c with offset := e, inBound := 0 })
  (s.clkState .relocking .clockRelocking [i64 e]).noteClk

/-- R32, R34: a Sync message shows the offset `e`. While RELOCKING the clock slews whatever the offset, and never steps (DESIGN CHOICE,
log entry 198). -/
def State.syncOffset (e : Int) (s : State) : State :=
  match s.ras.clk.st with
  | .locked => if 1000 < e.natAbs then s.relock e else s.modClk (fun c => { c with offset := e })
  | .relocking =>
    let n := if 1000 < e.natAbs then 0 else s.ras.clk.inBound + 1
    let s := s.modClk (fun c => { c with offset := e, inBound := n })
    (if 16 ≤ n then s.clkState .locked .clockLocked [.w16 (s.ras.clk.gmPort.setWidth 16)] else s).noteClk
  | _ => s

/-- GRANDMASTER_ACCEPTED (R31, R34): a grandmaster on a port that the image enables for PTP is accepted at offset `e`. -/
def execGrandmasterAccepted (pt : BitVec 2) (e : Int) (s : State) := ok (
  if s.ras.clk.fenced || !(s.eth pt.toNat).ptpEn then s else (s.modClk (fun c => { c with gmPort := pt })).relock e)

/-- ANNOUNCE_TIMEOUT (R32): LOCKED or RELOCKING gives way to HOLDOVER. -/
def execAnnounceTimeout (s : State) := ok (
  if s.ras.clk.st = .locked ∨ s.ras.clk.st = .relocking then
    ((s.modClk (fun c => { c with holdStart := s.now })).clkState .holdover .clockHoldover []).noteClk
  else s)

/-- HOLDOVER_LIMIT (R33): once per holdover, when U exceeds the limit. -/
def execHoldoverLimit (s : State) := ok (
  match s.ras.clk.st, s.uncertainty with
  | .holdover, some u =>
    if s.ras.clk.limitRaised = false ∧ s.ras.clk.holdLimit < u then
      ((s.modClk (fun c => { c with limitRaised := true })).latch 48).raise .holdoverLimit [i32 u]
    else s
  | _, _ => s)

/-! Input rasters (R42). -/

/-- R42: codes of RAS_IN_STATE. -/
def InState.code : InState → BitVec 2
  | .absent => 0
  | .acquiring => 1
  | .tracking => 2
  | .locked => 3

/-- R42: a change of state of an input raster, its event and source. -/
def State.setInState (k : Nat) (st : InState) (s : State) : State :=
  if (s.raster k).inState = st then s
  else ((s.modRaster k (fun r => { r with inState := st })).latch (50 + (k - 16))).raise .inputState
    [i16 k, .w16 (st.code.setWidth 16)]

/-- R41, R42: an input raster loses its measurement and takes nominal times. -/
def Raster.forget (r : Raster) : Raster :=
  { r with measured := false, sfPrev := none, consec := 0, inBound := 0 }

/-- R64, R104: an input raster is TRACKING or LOCKED. -/
def State.tracking (s : State) (k : Nat) : Bool :=
  (s.raster k).inState == .tracking || (s.raster k).inState == .locked

end Sys2Proof.Machine
end

