-- ==== Sys2Proof/Machine/Ledger.lean ====
section
/-! DEFINITION. Berris segments, tile checksums, stored times, tile events and the shown state (R54 to R87). -/

namespace Sys2Proof.Machine

/-! Segments as bytes (R55). -/

/-- R55: the family UUID. -/
def ledgerUuid : List Byte :=
  [0x7C, 0x3A, 0x9E, 0x41, 0x5D, 0x2B, 0x4F, 0x86, 0xB0, 0xC7, 0x1E, 0x64, 0xA2, 0xD9, 0x5F, 0x38]

/-- A big-endian field of a segment; bytes that are not there read 0. -/
def field (bs : List Byte) (at_ n : Nat) : Nat := beVal ((bs.drop at_).take n)

/-- R55: a segment as its bytes say it, before any check. -/
structure Segment where
  version : Nat
  head : SegHead
  firstRow : Nat
  rowCount : Nat
  vrCount : Nat
  runs : List (BitVec 2 × Nat)
  entries : List (BitVec 32 × Nat)
  length : Nat
  crc : BitVec 32
  deriving DecidableEq, Repr

/-- R57: a code that has an entry. -/
def codeHasEntry (c : BitVec 2) : Bool := c == 2 || c == 3

/-- R55: the tiles of a list of runs. -/
def runTiles (runs : List (BitVec 2 × Nat)) : List (BitVec 2) := runs.flatMap (fun r => List.replicate r.2 r.1)

/-- R55: the fields of a segment. -/
def parseSegment (bs : List Byte) : Segment :=
  let fl := BitVec.ofNat 8 (field bs 17 1)
  let vr := field bs 46 1
  let p := 47 + 8 * vr
  let rc := field bs p 2
  let runs := (List.range rc).map (fun i =>
    let w := BitVec.ofNat 16 (field bs (p + 2 + 2 * i) 2)
    (w.extractLsb' 14 2, (w.extractLsb' 0 14).toNat + 1))
  let q := p + 2 + 2 * rc
  let e := ((runs.filter (fun r => codeHasEntry r.1)).map (·.2)).sum
  let region (i : Nat) : Rect :=
    ⟨field bs (47 + 8 * i) 2, field bs (49 + 8 * i) 2, field bs (51 + 8 * i) 2, field bs (53 + 8 * i) 2⟩
  { version := field bs 16 1
    head := {
      attest := fl.getLsbD 7, stepped := fl.getLsbD 6, clk := fl.extractLsb' 4 2, resv := fl.extractLsb' 0 4
      cols := field bs 18 2, rows := field bs 20 2
      picCount := BitVec.ofNat 32 (field bs 26 4), picTime := BitVec.ofNat 48 (field bs 30 6)
      attestTime := BitVec.ofNat 48 (field bs 36 6), uncert := BitVec.ofNat 32 (field bs 42 4)
      regions := (List.range vr).map region }
    firstRow := field bs 22 2, rowCount := field bs 24 2, vrCount := vr, runs := runs
    entries := (List.range e).map (fun i => (BitVec.ofNat 32 (field bs (q + 6 * i) 4), field bs (q + 6 * i + 4) 2))
    length := q + 6 * e + 4
    crc := BitVec.ofNat 32 (field bs (q + 6 * e) 4) }

/-- R55: the tile records of a segment, pairing entries with the codes that have them. -/
def segTiles : List (BitVec 2) → List (BitVec 32 × Nat) → List SegTile
  | [], _ => []
  | c :: cs, es =>
    if codeHasEntry c then
      match es with
      | (k, d) :: r => ⟨c, k, d⟩ :: segTiles cs r
      | [] => ⟨c, 0, 0⟩ :: segTiles cs []
    else ⟨c, 0, 0⟩ :: segTiles cs es

/-- R55, R56: the bytes of FLAGS. -/
def SegHead.flags (h : SegHead) : Byte := BitVec.ofBool h.attest ++ BitVec.ofBool h.stepped ++ h.clk ++ h.resv

/-- R55: runs of equal codes, none longer than 16,384. -/
def packRuns : List (BitVec 2) → List (BitVec 2 × Nat)
  | [] => []
  | c :: r => match packRuns r with
    | (d, n) :: q => if c = d ∧ n < 16384 then (c, n + 1) :: q else (c, 1) :: (d, n) :: q
    | [] => [(c, 1)]

/-- R55: the bytes of a segment that covers one tile row, as an encoder writes it. -/
def buildSegment (h : SegHead) (row : Nat) (tiles : List SegTile) : List Byte :=
  let runs := packRuns (tiles.map (·.code))
  let region (r : Rect) : List Byte := beBytes 2 r.col ++ beBytes 2 r.row ++ beBytes 2 r.cols ++ beBytes 2 r.rows
  let run (r : BitVec 2 × Nat) : List Byte := beBytes 2 (r.1.toNat * 16384 + (r.2 - 1))
  let entry (t : SegTile) : List Byte := if codeHasEntry t.code then beBytes 4 t.crc.toNat ++ beBytes 2 t.delta else []
  let body := [(1 : Byte), h.flags] ++ beBytes 2 h.cols ++ beBytes 2 h.rows ++ beBytes 2 row ++ beBytes 2 1 ++
    beBytes 4 h.picCount.toNat ++ beBytes 6 h.picTime.toNat ++ beBytes 6 h.attestTime.toNat ++
    beBytes 4 h.uncert.toNat ++ [BitVec.ofNat 8 h.regions.length] ++ h.regions.flatMap region ++
    beBytes 2 runs.length ++ runs.flatMap run ++ tiles.flatMap entry
  ledgerUuid ++ body ++ beBytes 4 (crc32c body).toNat

/-! Validity (R59). -/

/-- Two rectangles of tiles overlap. -/
def rectOverlap (a b : Rect) : Bool :=
  decide (a.col < b.col + b.cols) && decide (b.col < a.col + a.cols) &&
  decide (a.row < b.row + b.rows) && decide (b.row < a.row + a.rows)

/-- Tile (c, r) lies in a rectangle. -/
def rectHas (x : Rect) (c r : Nat) : Bool :=
  decide (x.col ≤ c) && decide (c < x.col + x.cols) && decide (x.row ≤ r) && decide (r < x.row + x.rows)

/-- Tile (c, r) lies in one of the regions. -/
def inRegions (rs : List Rect) (c r : Nat) : Bool := rs.any (fun x => rectHas x c r)

/-- No two of the rectangles overlap. -/
def rectsApart : List Rect → Bool
  | [] => true
  | a :: r => r.all (fun b => !rectOverlap a b) && rectsApart r

/-- R59, 0x06 and 0x07: the segment's length and checksum. -/
def Segment.lengthBad (g : Segment) (bs : List Byte) (payload : Nat) : Bool :=
  decide (payload ≠ g.length) || decide (bs.length ≠ g.length)

/-- R59, 0x07. -/
def Segment.crcBad (g : Segment) (bs : List Byte) : Bool := crc32c ((bs.drop 16).take (g.length - 20)) != g.crc

/-- R59, 0x03. -/
def Segment.regionsBad (g : Segment) (cols rows : Nat) : Bool :=
  decide (16 < g.vrCount) || !rectsApart g.head.regions ||
  g.head.regions.any (fun r => r.cols == 0 || r.rows == 0 || decide (cols < r.col + r.cols) ||
    decide (rows < r.row + r.rows))

/-- R59, 0x0A: rows outside the grid, or claimed already. -/
def Segment.rowsBad (g : Segment) (rows : Nat) (claimed : Nat → Bool) : Bool :=
  decide (rows < g.firstRow + g.rowCount) ||
  (List.range g.rowCount).any (fun i => claimed (g.firstRow + i))

/-- R56, R59: picture-level fields agree; the reserved bits of FLAGS are ignored on receipt. -/
def SegHead.agrees (g h : SegHead) : Bool := { g with resv := h.resv } == h

/-- R59: the reason code of an invalid segment, in the order of the rule; 0 for a valid one. -/
def Segment.reason (g : Segment) (bs : List Byte) (payload cols rows : Nat) (ctu64 : Bool) (claimed : Nat → Bool)
    (first : Option SegHead) : Nat :=
  if g.lengthBad bs payload then 6
  else if g.crcBad bs then 7
  else if g.version ≠ 1 then 1
  else if g.head.cols ≠ cols ∨ g.head.rows ≠ rows ∨ ctu64 = false then 2
  else if g.regionsBad cols rows then 3
  else if g.rowsBad rows claimed then 10
  else if g.runs.isEmpty ∨ (g.runs.map (·.2)).sum ≠ g.head.cols * g.rowCount then 4
  else if g.head.attest = false ∧ g.runs.any (fun r => r.1 == 1) then 5
  else match first with
    | some h => if g.head.agrees h then 0 else 8
    | none => 0

/-- R59: FIRST_ROW and ROW_COUNT can be trusted. -/
def Segment.trusty (g : Segment) (bs : List Byte) (payload rows : Nat) (claimed : Nat → Bool) : Bool :=
  !g.lengthBad bs payload && !g.crcBad bs && !g.rowsBad rows claimed

/-! Checksums (R60, R61). -/

/-- R61: the bytes of a tile's samples. -/
def sampleBytes (x : Samples) : List Byte :=
  (x.y ++ x.cb ++ x.cr).flatMap (fun v => leBytes 2 v.toNat)

/-- R61: the checksum of a tile. -/
def tileCrc (x : Samples) : BitVec 32 := crc32c (sampleBytes x)

/-! Stored times (R68). -/

/-- R68: the time that a tile record states: none where it states no time; the flag says that the time is valid. -/
def statedTime (h : SegHead) (t : SegTile) : Option (T48 × Bool) :=
  let okay := h.clk != 3 && h.uncert != 0xFFFFFFFF
  let u : T48 := h.uncert.setWidth 48
  if t.code = 2 then some (h.picTime + BitVec.ofNat 48 (10000 * t.delta) - u, okay)
  else if t.code = 1 ∨ (t.code = 3 ∧ h.attest) then some (h.attestTime - u, okay)
  else none

/-- R68: an attestation of time `t` replaces T_ATT unless that moves it backward. -/
def TileEntry.attest (t : T48) (valid : Bool) (e : TileEntry) : TileEntry :=
  if valid && (!e.tv || decide ((t - e.tAtt).toNat < 2 ^ 47)) then { e with tAtt := t, tv := true } else e

/-! Tile events (R75). -/

/-- R75: the events of a tile. -/
inductive TileEvent where
  /-- A tile record, with its time, whether the comparison set matched, and the cause of R74 where it did not. -/
  | record (code : BitVec 2) (attesting : Bool) (matched : Bool) (cause : Cause) (crc : BitVec 32)
      (time : Option (T48 × Bool))
  /-- Not decodable. -/
  | loss
  /-- Decoded without a valid segment, with the checksum of the samples; none where the two cores of a value tile differ. -/
  | noSegment (crc : Option (BitVec 32))
  /-- A future timestamp at scan-out. -/
  | future
  /-- The tile enters a value region. -/
  | join
  /-- The stream context started or rejoined, or the tile grid changed. -/
  | start
  deriving DecidableEq, Repr

/-- R75: "C". -/
def TileEntry.expect (crc : BitVec 32) (e : TileEntry) : TileEntry := { e with crcE := crc, known := true }

/-- R75: a condition with its cause. -/
def TileEntry.become (c : Cond) (k : Cause) (e : TileEntry) : TileEntry := { e with cond := c, cause := k }

/-- R75, "T": the time of a CHANGED tile always replaces. -/
def TileEntry.changed (time : Option (T48 × Bool)) (e : TileEntry) : TileEntry :=
  match time with
  | some (t, v) => { e with tAtt := t, tv := v }
  | none => e

/-- R75, "T" of an attestation. -/
def TileEntry.attested (time : Option (T48 × Bool)) (e : TileEntry) : TileEntry :=
  match time with
  | some (t, v) => e.attest t v
  | none => e

/-- R75: a matching record. -/
def TileEntry.matched (code : BitVec 2) (att : Bool) (crc : BitVec 32) (time : Option (T48 × Bool)) (e : TileEntry) :
    TileEntry :=
  match code, att with
  | 2, _ => ((e.become .verified .none).changed time).expect crc
  | 3, true => ((e.become .verified .none).attested time).expect crc
  | 3, false =>
    if e.cond = .verified then e.expect crc
    else { ((e.become .unverified .none).expect crc) with tv := false }
  | 1, _ => match e.cond with
    | .verified => e.attested time
    | .suspect => e
    | .unverified => if e.known then (e.become .verified .none).attested time else e
    | .lost => { (e.become .unverified .loss) with known := false }
  | _, _ => if e.cond = .lost then { (e.become .unverified .loss) with known := false } else e

/-- R75: the table of events. -/
def TileEntry.event (v : TileEvent) (e : TileEntry) : TileEntry :=
  match v with
  | .record code att true _ crc time => e.matched code att crc time
  | .record code _ false cause crc _ =>
    let e := e.become .suspect cause
    if codeHasEntry code then e.expect crc else e
  | .loss => if e.cond = .lost then e else e.become .lost .loss
  | .noSegment crc =>
    if e.known && crc == some e.crcE && e.cond != .lost then e
    else { (e.become .unverified .record) with known := false }
  | .future => if e.cond = .verified then e.become .suspect .future else e
  | .join => if e.cond = .lost then e else { (e.become .unverified .join) with known := false }
  | .start => { (e.become .lost .join) with known := false, tv := false }

/-- R75: LAST_PIC follows an event that a picture causes and that changes the entry. -/
def TileEntry.picEvent (pc : BitVec 32) (v : TileEvent) (e : TileEntry) : TileEntry :=
  let x := e.event v
  if x = e then e else { x with lastPic := pc }

/-! Comparison sets (R74). -/

/-- R74: the comparison set of checksums matches. -/
def setMatches (prim : BitVec 32) (chk expected : Option (BitVec 32)) : Bool :=
  (chk.getD prim == prim) && (expected.getD prim == prim)

/-- R74: CAUSE of a set that does not match. -/
def mismatchCause (code : BitVec 2) (prim : BitVec 32) (chk expected : Option (BitVec 32)) : Cause :=
  match chk, expected with
  | some c, some x => if c ≠ prim ∧ (x = c ∨ x = prim) then .dual else if codeHasEntry code then .crc else .drift
  | _, _ => if codeHasEntry code then .crc else .drift

/-- R74: the expected value: the entry CRC of CHANGED and RESENT, else CRC_E when it is known. -/
def expectedCrc (t : SegTile) (e : TileEntry) : Option (BitVec 32) :=
  if codeHasEntry t.code then some t.crc else if e.known then some e.crcE else none

/-! The shown state (R69, R76, R81). -/

/-- R69: D at a scan-out time with uncertainty U. -/
def ageD (ts : T48) (u : Nat) (tAtt : T48) : Nat := (ts + BitVec.ofNat 48 u - tAtt).toNat

/-- R35, R76: the shown state of an entry; `u` is none in FREERUN, when a tile with a record is over its bound and a
foreign tile is not affected. A foreign tile, which is only ever VERIFIED or LOST (R84), is STALE under a time that lies in
the future (DESIGN CHOICE, log entry 132). -/
def TileEntry.shown (ts : T48) (u : Option Nat) (foreign : Bool) (bound : Nat) (e : TileEntry) : Shown :=
  match e.cond with
  | .lost => .lost
  | .suspect => .suspect
  | .unverified => .unverified
  | .verified =>
    if !e.tv then .stale
    else if u.isNone && !foreign then .stale
    else
      let d := ageD ts (u.getD 0) e.tAtt
      if 2 ^ 47 ≤ d then (if foreign then .stale else .suspect) else if bound * 1000000 < d then .stale else .fresh

/-- R76, R84: the entry is to latch SUSPECT(FUTURE); a foreign tile never does. -/
def TileEntry.futureNow (ts : T48) (u : Option Nat) (foreign : Bool) (e : TileEntry) : Bool :=
  !foreign && e.cond == .verified && e.tv && u.isSome && decide (2 ^ 47 ≤ ageD ts (u.getD 0) e.tAtt)

/-- R161: codes of WORST, which rise with R81's order from best to worst. -/
def Shown.code : Shown → BitVec 3
  | .fresh => 0
  | .stale => 1
  | .unverified => 2
  | .lost => 3
  | .suspect => 4

/-- R389: a tile as an item of an event: its column, then its row. -/
def tileItem (cols n : Nat) : Item := .w32 (BitVec.ofNat 16 (n % cols) ++ BitVec.ofNat 16 (n / cols))

/-- R81: the worse of two states. -/
def Shown.worse (a b : Shown) : Shown := if a.code < b.code then b else a

/-! Status (R87). -/

/-- R84: a stream whose records are ignored. -/
def DecCfg.foreign (c : DecCfg) : Bool := c.h264 || !c.ledger

/-- R87: tiles of stream `i` with a condition; an unlisted tile is LOST. -/
def State.countCond (s : State) (i : Nat) (c : Cond) : Nat :=
  let n := (s.decS i).cols * (s.decS i).rowsN
  (List.range n).countP (fun t => (s.tile i t).cond == c)

/-- R87: words 0, 1 and 2 of the ledger status. -/
def State.ledgerWords (s : State) (i : Nat) : Word × Word × Word :=
  let n (c : Cond) : BitVec 16 := BitVec.ofNat 16 (s.countCond i c)
  (n .verified ++ n .suspect, n .unverified ++ n .lost, (s.decS i).ledLast)

/-- R73: COND. -/
def Cond.code : Cond → BitVec 2
  | .verified => 0 | .suspect => 1 | .unverified => 2 | .lost => 3

/-- R426: the entries of stream `i` whose COND or T_ATT differs between two tables, as TILE_DELTA gives them. -/
def tileDeltas (i : Nat) (old new : Tbl TileEntry) : List TileDelta :=
  let mine (t : Tbl TileEntry) : List Nat := (t.filter (fun p => p.1 / 65536 == i)).map (·.1)
  let keys := mine new ++ (mine old).filter (fun k => !(new.any (fun p => p.1 == k)))
  (keys.filter (fun k =>
    let a := old.look TileEntry.reset k
    let b := new.look TileEntry.reset k
    a.cond != b.cond || a.tAtt != b.tAtt)).map (fun k =>
      let b := new.look TileEntry.reset k
      ⟨i, k % 65536, b.cond.code, b.tAtt⟩)

/-- R426: a lead in step with its twin sends what changes in its tile state entries. -/
def State.sendDeltas (i : Nat) (old new : State) : State :=
  if new.glb.role = .lead ∧ new.grt.link = .up then
    match tileDeltas i old.cmp.tiles new.cmp.tiles with
    | [] => new
    | ds => new.gPut (.tileDelta ds)
  else new

/-- R87, R426: UPD_SEQ advances when words 0 to 2 change, and a lead sends the entries that changed. -/
def State.withLedger (i : Nat) (f : State → State) (s : State) : State :=
  let t := f s
  let u := State.sendDeltas i s t
  if t.ledgerWords i = s.ledgerWords i then u else u.modDecS i (fun d => { d with ledSeq := d.ledSeq + 1 })

end Sys2Proof.Machine
end

