-- ==== Sys2Proof/Machine/Pgroup.lean ====
section
/-! DEFINITION. The pgroups in which ST 2110-20 carries the samples of a line (R178, R179). The layout within a pgroup is that of RFC 4175
(PRESUMED, log entry 188). -/

namespace Sys2Proof.Machine

/-- R178: the bytes of a pgroup of ST 2110-20, by the bytes that a pixel takes. -/
def pgroup (f : RasterFmt) : Nat :=
  if 4 * f.lineBytes = 15 * f.width then 15 else if f.lineBytes = 3 * f.width then 3
  else if 2 * f.lineBytes = 5 * f.width then 5 else 4

/-- RFC 4175: the samples of a pgroup of so many bytes, their bits, and the pixels that they make. -/
def groupShape (n : Nat) : Nat × Nat × Nat :=
  match n with
  | 15 => (12, 10, 4)
  | 3 => (3, 8, 1)
  | 5 => (4, 10, 2)
  | _ => (4, 8, 2)

/-- RFC 4175: the samples of a line in the order sent: R, G, B, or Cb, Y, Cr, or of 4:2:2 Cb, Y, Cr and the next Y. -/
def lineSamples (f : RasterFmt) (l : SrcLine) : List (BitVec 16) :=
  if 3 ≤ f.sampling then
    (List.range ((l.a.length + 1) / 2)).flatMap (fun i => [l.b.getD i 0, l.a.getD (2 * i) 0, l.c.getD i 0, l.a.getD (2 * i + 1) 0])
  else
    (List.range l.a.length).flatMap (fun i =>
      let (a, b, c) := (l.a.getD i 0, l.b.getD i 0, l.c.getD i 0)
      if f.sampling = 0 then [a, b, c] else [b, a, c])

/-- The line that samples in the order sent make. -/
def samplesLine (f : RasterFmt) (xs : List (BitVec 16)) : SrcLine :=
  let every (k o : Nat) : List (BitVec 16) := (List.range ((xs.length + k - 1 - o) / k)).map (fun i => xs.getD (k * i + o) 0)
  if 3 ≤ f.sampling then ⟨every 2 1, every 4 0, every 4 2⟩
  else if f.sampling = 0 then ⟨every 3 0, every 3 1, every 3 2⟩
  else ⟨every 3 1, every 3 0, every 3 2⟩

/-- R178: the bytes of a line. -/
def packLine (f : RasterFmt) (l : SrcLine) : List Byte :=
  let g := pgroup f
  let (n, d, _) := groupShape g
  let xs := lineSamples f l
  (List.range ((xs.length + n - 1) / n)).flatMap (fun i =>
    beBytes g ((List.range n).foldl (fun v j => v * 2 ^ d + (xs.getD (n * i + j) 0).toNat % 2 ^ d) 0))

/-- R179: the line whose bytes are given. -/
def unpackLine (f : RasterFmt) (bs : List Byte) : SrcLine :=
  let g := pgroup f
  let (n, d, _) := groupShape g
  samplesLine f ((List.range (bs.length / g)).flatMap (fun i =>
    let v := beVal ((bs.drop (g * i)).take g)
    (List.range n).map (fun j => BitVec.ofNat 16 (v / 2 ^ (d * (n - 1 - j)) % 2 ^ d))))

/-- R171, R178: a composed line as source samples; the chroma of a 4:2:2 line stands at its even pixels. -/
def pixelLine (f : RasterFmt) (ps : List Pixel) : SrcLine :=
  let evens := (List.range ((ps.length + 1) / 2)).map (fun i => ps.getD (2 * i) ⟨0, 0, 0⟩)
  let cs := if 3 ≤ f.sampling then evens else ps
  ⟨ps.map (·.a), cs.map (·.b), cs.map (·.c)⟩

/-- R179: the bytes of a line of a capture buffer, with those of a packet in place; the others stay as they are, zero at first
(DESIGN CHOICE, log entry 195). -/
def captureBytes (f : RasterFmt) (offset : Nat) (new old : List Byte) : List Byte :=
  let (_, _, px) := groupShape (pgroup f)
  let o := offset / px * pgroup f
  (List.range f.lineBytes).map (fun i => if o ≤ i ∧ i < o + new.length then new.getD (i - o) 0 else old.getD i 0)

/-- R179: the lines of CTU row `j` that a capture buffer holds. -/
def Raster.capturedRow (r : Raster) (j : Nat) : List SrcLine :=
  (List.range (min 64 (r.fmt.la - 64 * j))).map (fun y => unpackLine r.fmt (r.cap.look [] (64 * j + y)))

end Sys2Proof.Machine
end

