-- ==== Sys2Proof/Machine/EncTools.lean ====
section
/-! DEFINITION. What an encoder may decide: the geometry of its pictures, the source samples of a row, slices, and the rules on
coding units (R88 to R102, R121, R123). -/

namespace Sys2Proof.Machine

/-! Geometry. -/

/-- R104, R122: the raster that gives a stream its cadence. -/
def EncCfg.raster (c : EncCfg) : Nat := c.input.getD c.hostRaster

/-- Tile columns of a stream's picture. -/
def EncCfg.cols (c : EncCfg) : Nat := (c.width + 63) / 64

/-- R107: K, the CTU rows of a picture. -/
def EncCfg.rows (c : EncCfg) : Nat := (c.height + 63) / 64

/-- R123: a picture is coded as two tile columns on two cores. -/
def EncCfg.twoTiles (c : EncCfg) (f : RasterFmt) : Bool :=
  c.input.isNone && c.regions.isEmpty && decide (750000000 * f.den < c.width * c.height * f.num)

/-- R123: the first tile column of the second tile. -/
def EncCfg.split (c : EncCfg) (f : RasterFmt) : Option Nat := if c.twoTiles f then some ((c.cols + 1) / 2) else none

/-- R95, R106: tile (x, r) is treated as a value tile; under CAPLL every tile is. -/
def EncCfg.isValue (c : EncCfg) (x r : Nat) : Bool := c.rc == .capll || inRegions c.regions x r

/-- R96: C_max in bits. -/
def EncCfg.cMax (c : EncCfg) : Nat := 4096 * 3 * c.depth + 1024

/-- R97: the bits beyond which a value CTU is coded as four PCM coding units. -/
def EncCfg.pcmBound (c : EncCfg) : Nat := 4096 * 3 * c.depth + 512

/-- R110: F_row in bits. -/
abbrev rowFloor : Nat := 8192

/-- R105, R311: the whole picture is coded as zero motion. -/
def EncPic.wholly (p : EncPic) (rows : Nat) : Bool := p.zeroMotion || (List.range rows).all p.zeroRows.contains

/-- R98: the columns from a sweep's first to one past its last in picture `p`; none in a picture coded wholly as zero motion. -/
def EncCfg.sweep (c : EncCfg) (p : EncPic) : Nat × Nat :=
  if p.wholly c.rows then (0, 0)
  else
    let w := (c.cols + c.sweepLen - 1) / c.sweepLen
    (min (p.sweepPos * w) c.cols, min ((p.sweepPos + 1) * w) c.cols)

/-- R61: width and height of tile (x, r) in the luma plane and in a chroma plane. -/
def EncCfg.tileDims (c : EncCfg) (x r : Nat) : (Nat × Nat) × (Nat × Nat) :=
  let w := min 64 (c.width - 64 * x)
  let h := min 64 (c.height - 64 * r)
  let (sx, sy) := chromaStep c.chroma
  ((w, h), ((w + sx - 1) / sx, (h + sy - 1) / sy))

/-! Source samples (R90, R121). -/

/-- The lines of a CTU row, plane by plane in the coded order. -/
structure RowPlanes where
  y : List (List (BitVec 16))
  cb : List (List (BitVec 16))
  cr : List (List (BitVec 16))
  deriving DecidableEq, Repr

/-- R90: a line of RGB samples as YCbCr of BT.709, in the source's range (DESIGN CHOICE, log entry 144). -/
def toYcc (limited : Bool) (depth : Nat) (l : SrcLine) : SrcLine :=
  let px := (l.a.zip (l.b.zip l.c)).map (fun x =>
    convertPixel ⟨0, limited, depth, depth⟩ ⟨1, limited, depth, depth⟩ (x.1.toNat, x.2.1.toNat, x.2.2.toNat))
  ⟨px.map (fun x => BitVec.ofNat 16 x.1), px.map (fun x => BitVec.ofNat 16 x.2.1), px.map (fun x => BitVec.ofNat 16 x.2.2)⟩

/-- R90: the filter [1 2 1] / 4 at position `i` of a line, times 4, with the line's ends repeated. -/
def filterAt (l : List (BitVec 16)) (i : Nat) : Nat :=
  let m := (l.getD i 0).toNat
  (l.getD (i - 1) 0).toNat + 2 * m + (l.getD (i + 1) (l.getD i 0)).toNat

/-- R90, R173: a chroma plane of a CTU row subsampled to 4:2:0 at co-located positions and rounded half up, filtered in both
directions (DESIGN CHOICE, log entry 144), or vertically where the source is 4:2:2 and not `wide`. -/
def subsample (wide : Bool) (above : Option (List (BitVec 16))) (ls : List (List (BitVec 16))) : List (List (BitVec 16)) :=
  (List.range ((ls.length + 1) / 2)).map (fun j =>
    let m := ls.getD (2 * j) []
    let u := if j = 0 then above.getD m else ls.getD (2 * j - 1) m
    let d := ls.getD (2 * j + 1) m
    if wide then (List.range ((m.length + 1) / 2)).map (fun i =>
      BitVec.ofNat 16 ((filterAt u (2 * i) + 2 * filterAt m (2 * i) + filterAt d (2 * i) + 8) / 16))
    else (List.range m.length).map (fun i =>
      BitVec.ofNat 16 (((u.getD i 0).toNat + 2 * (m.getD i 0).toNat + (d.getD i 0).toNat + 2) / 4)))

/-- R90: the planes of a CTU row as they are coded: G, B and R of an RGB source, Y, Cb and Cr as they arrive, or 4:2:0. -/
def rowPlanes (c : EncCfg) (f : RasterFmt) (r : CodedRow) : RowPlanes :=
  if c.chroma = 3 then
    if c.rgb then ⟨r.lines.map (·.b), r.lines.map (·.c), r.lines.map (·.a)⟩
    else ⟨r.lines.map (·.a), r.lines.map (·.b), r.lines.map (·.c)⟩
  else
    let ycc (l : SrcLine) : SrcLine := if c.rgb then toYcc f.limited c.depth l else l
    let ls := r.lines.map ycc
    let up := r.above.map ycc
    let wide := decide (f.sampling < 3)
    ⟨ls.map (·.a), subsample wide (up.map (·.b)) (ls.map (·.b)), subsample wide (up.map (·.c)) (ls.map (·.c))⟩

/-- R121: `w` samples of 16 bits, little-endian, at a place of a posted picture. -/
def rawLine (p : RawPicture) (at_ w : Nat) : List (BitVec 16) :=
  (List.range w).map (fun i => BitVec.ofNat 16 (leVal ((p.planes.drop (at_ + 2 * i)).take 2)))

/-- R121: the planes of CTU row `r` of a posted picture. -/
def rawRow (c : EncCfg) (r : Nat) (p : RawPicture) : RowPlanes :=
  let (sx, sy) := chromaStep c.chroma
  let h := min 64 (c.height - 64 * r)
  let cw := (c.width + sx - 1) / sx
  let cb := p.pitch * c.height
  let cr := cb + p.cpitch * ((c.height + sy - 1) / sy)
  let chroma (base : Nat) : List (List (BitVec 16)) :=
    (List.range ((h + sy - 1) / sy)).map (fun y => rawLine p (base + p.cpitch * (64 * r / sy + y)) cw)
  ⟨(List.range h).map (fun y => rawLine p (p.pitch * (64 * r + y)) c.width), chroma cb, chroma cr⟩

/-- R61: tile `x` of a CTU row's planes. -/
def RowPlanes.tile (c : EncCfg) (x : Nat) (p : RowPlanes) : Samples :=
  let (sx, _) := chromaStep c.chroma
  let cut (ls : List (List (BitVec 16))) (w : Nat) : List (BitVec 16) := ls.flatMap (fun l => (l.drop (w * x)).take w)
  ⟨cut p.y 64, cut p.cb (64 / sx), cut p.cr (64 / sx)⟩

/-- R90, R121: the source samples of the tiles of row `j` of a picture. -/
def EncCfg.rowSource (c : EncCfg) (f : RasterFmt) (p : EncPic) (j : Nat) (r : CodedRow) : List Samples :=
  let ps := match p.source with
    | some raw => rawRow c j raw
    | none => rowPlanes c f r
  (List.range c.cols).map (fun x => ps.tile c x)

/-! Slices (R92, R123). -/

/-- R92: the number of the value region that holds tile (x, r). -/
def EncCfg.regionAt (c : EncCfg) (x r : Nat) : Option Nat := c.regions.findIdx? (fun y => rectHas y x r)

/-- R92, R123: a slice of row `r` begins at column `x`; `hi` ends the sweep column, if the row has one. -/
def EncCfg.sliceStart (c : EncCfg) (split hi : Option Nat) (r x : Nat) : Bool :=
  x == 0 || c.regionAt x r != c.regionAt (x - 1) r || hi == some x || split == some x

/-- R92: the column at which the slice that holds column `x` begins. -/
def EncCfg.sliceOf (c : EncCfg) (split hi : Option Nat) (r x : Nat) : Nat :=
  ((List.range (x + 1)).filter (c.sliceStart split hi r)).getLastD 0

/-! Coding units (R91, R93, R96, R97, R99, R102). -/

/-- The row and column of a CTU, and what the rules on its coding units depend on: the slice's first column, whether its tile is
a value tile and the region that its inter prediction may read, whether it is intra-coded, the luma column that bounds
its references in the refreshed area (R99), and whether its search burst has its tokens (R102). -/
structure CtuPlace where
  row : Nat
  col : Nat
  slice : Nat
  value : Bool
  region : Option Rect
  intra : Bool
  bound : Option Nat
  granted : Bool
  deriving DecidableEq, Repr

/-- R91: a coding unit's place and size. -/
def unitPlaced (u : CodingUnit) : Bool :=
  [8, 16, 32, 64].contains u.size && u.x % u.size == 0 && u.y % u.size == 0 && decide (u.x + u.size ≤ 64) &&
  decide (u.y + u.size ≤ 64)

/-- Two coding units have no sample in common. -/
def unitsApart (a b : CodingUnit) : Bool :=
  decide (a.x + a.size ≤ b.x) || decide (b.x + b.size ≤ a.x) || decide (a.y + a.size ≤ b.y) || decide (b.y + b.size ≤ a.y)

/-- R93, R96: the tools of a coding unit, by profile and region. -/
def unitToolsOk (p : EncProfile) (value : Bool) (u : CodingUnit) : Bool :=
  u.transforms.all [4, 8, 16, 32].contains && u.bypass == value && (u.skipLog == 0 || (u.skipLog == 2 && !value)) && !u.act &&
  (p != .main10 || (!u.rdpcm && !u.crossComp)) &&
  (match u.kind with
    | .palette | .copy _ => p == .screen444
    | _ => true)

/-- R102: how far a search goes from its start, in samples. -/
def searchWindow (p : EncProfile) (value : Bool) : Nat × Nat :=
  if value then (64, 64) else if p = .main10 then (256, 128) else (128, 64)

/-- R102: a motion vector that the search can give: in its window to quarter samples, or without tokens the zero vector or the
spatial predictor. -/
def partSearched (p : EncProfile) (value granted : Bool) (b : InterPart) : Bool :=
  let (h, v) := searchWindow p value
  let r : Nat := if value then 0 else 3
  if granted then decide ((b.mv.1 - b.pred.1).natAbs ≤ 4 * h + r) && decide ((b.mv.2 - b.pred.2).natAbs ≤ 4 * v + r)
  else b.mv == (0, 0) || b.mv == b.pred

/-- R99: the greatest luma column that the prediction of a block reads, the taps of the interpolation filters included. -/
def partReach (chroma : Nat) (x0 : Nat) (b : InterPart) : Int :=
  let right : Int := ((x0 + b.x + b.w : Nat) : Int) - 1
  let luma := right + b.mv.1 / 4 + (if b.mv.1 % 4 = 0 then 0 else 4)
  let step := (chromaStep chroma).1
  let c := right / step + b.mv.1 / (4 * step) + (if b.mv.1 % (4 * step) = 0 then 0 else 2)
  max luma (c * step + step - 1)

/-- R97: the prediction block lies in the co-located region, at an integer vector. -/
def partInside (reg : Rect) (x0 y0 : Nat) (b : InterPart) : Bool :=
  let x : Int := ((x0 + b.x : Nat) : Int) + b.mv.1 / 4
  let y : Int := ((y0 + b.y : Nat) : Int) + b.mv.2 / 4
  b.mv.1 % 4 == 0 && b.mv.2 % 4 == 0 && decide (((64 * reg.col : Nat) : Int) ≤ x) && decide (((64 * reg.row : Nat) : Int) ≤ y) &&
  decide (x + b.w ≤ ((64 * (reg.col + reg.cols) : Nat) : Int)) && decide (y + b.h ≤ ((64 * (reg.row + reg.rows) : Nat) : Int))

/-- R97, R99, R102: an inter prediction block obeys the rules of its CTU. -/
def partOk (c : EncCfg) (k : CtuPlace) (b : InterPart) : Bool :=
  !k.intra && partSearched c.profile k.value k.granted b &&
  (match k.region with
    | some reg => partInside reg (64 * k.col) (64 * k.row) b
    | none => !k.value || (b.mv.1 % 4 == 0 && b.mv.2 % 4 == 0)) &&
  (match k.bound with
    | some n => decide (partReach c.chroma (64 * k.col) b < (n : Int))
    | none => true)

/-- R97, R99, R102: an intra block copy reads samples of its slice and its CTU row only, already coded. -/
def copyOk (k : CtuPlace) (u : CodingUnit) (bv : Int × Int) : Bool :=
  let x : Int := ((64 * k.col + u.x : Nat) : Int) + bv.1
  decide (((64 * k.slice : Nat) : Int) ≤ x) && decide (bv.1 ≤ 0) && decide (-63 ≤ bv.2) && decide (bv.2 ≤ 0) &&
  decide (0 ≤ (u.y : Int) + bv.2) && (decide (bv.1 ≤ -(u.size : Int)) || decide (bv.2 ≤ -(u.size : Int)))

/-- R93, R96, R97, R99, R102: a coding unit obeys the rules of its CTU. -/
def unitOk (c : EncCfg) (k : CtuPlace) (u : CodingUnit) : Bool :=
  unitPlaced u && unitToolsOk c.profile k.value u &&
  (match u.kind with
    | .inter ps => ps.all (fun b => decide (u.x ≤ b.x) && decide (u.y ≤ b.y) && decide (b.x + b.w ≤ u.x + u.size) &&
        decide (b.y + b.h ≤ u.y + u.size) && partOk c k b) && (ps.map (fun b => b.w * b.h)).sum == u.size * u.size
    | .copy bv => copyOk k u bv
    | _ => true)

/-- R91, R97: the coding units of a CTU cover it once, each obeys its rules, and its PCM form keeps within C_max. -/
def ctuOk (c : EncCfg) (k : CtuPlace) (t : CodedTile) : Bool :=
  let ((w, h), _) := c.tileDims k.col k.row
  t.units.all (unitOk c k) && t.units.zipIdx.all (fun a => (t.units.drop (a.2 + 1)).all (unitsApart a.1)) &&
  (t.units.map (fun u => u.size * u.size)).sum == ((w + 7) / 8 * 8) * ((h + 7) / 8 * 8) &&
  (!k.value || decide (8 * t.pcm.length ≤ c.cMax))

/-- R92 to R102: the place of the CTU at column `x` of row `j` of a picture. A reference past the picture's right edge reads its last
column, so that nothing bounds the references where the refreshed area is the whole picture. -/
def EncCfg.place (c : EncCfg) (f : RasterFmt) (p : EncPic) (j : Nat) (granted : Bool) (x : Nat) : CtuPlace :=
  let (lo, hi) := c.sweep p
  let cut := if lo < hi then some hi else none
  { row := j, col := x, slice := c.sliceOf (c.split f) cut j x, value := c.isValue x j
    region := (c.regionAt x j).bind (fun n => c.regions[n]?)
    intra := p.idr || (decide (lo ≤ x) && decide (x < hi))
    bound := if x < lo && decide (lo < c.cols) then some (64 * lo) else none
    granted := granted }

/-- R179: the source lines of a row of an ST 2110-20 input are those captured by its release, with the line above them. -/
def EncCfg.capturedOk (c : EncCfg) (p : EncPic) (j : Nat) (r : CodedRow) : Bool :=
  decide (c.raster < 20) || (r.lines == p.rowSrc.look [] j &&
    r.above == (if j = 0 then none else (p.rowSrc.look [] (j - 1)).getLast?))

/-- R92 to R102: a coded row keeps to the rules on its source, its CTUs and its runs. -/
def rowOk (c : EncCfg) (f : RasterFmt) (p : EncPic) (j : Nat) (granted : Bool) (r : CodedRow) : Bool :=
  let cw := if f.sampling < 3 then c.width else (c.width + 1) / 2
  r.tiles.length == c.cols && r.runs.all (fun x => x.ctus.length == c.cols) &&
  (p.source.isSome || (r.lines.length == min 64 (c.height - 64 * j) && c.capturedOk p j r &&
    r.lines.all (fun l => l.a.length == c.width && l.b.length == cw && l.c.length == cw))) &&
  r.tiles.zipIdx.all (fun t => ctuOk c (c.place f p j granted t.2) t.1)

end Sys2Proof.Machine
end

