-- ==== Sys2Proof/Machine/EncUnits.lean ====
section
/-! DEFINITION. The NAL units of an encoded stream as bytes, slice segments, and packets (R54, R91, R94, R108, R113, R119). -/

namespace Sys2Proof.Machine

/-! NAL units as bytes. What the spec leaves to ITU-T H.265 is Config.syntaxBytes (log entry 145). -/

/-- ITU-T H.265: emulation prevention: a byte 3 stands before a byte of 0 to 3 that follows two zero bytes; `z` counts the zero
bytes before. -/
def emulate (z : Nat) : List Byte → List Byte
  | [] => []
  | b :: r =>
    if 2 ≤ z ∧ b.toNat ≤ 3 then 3 :: b :: emulate (if b = 0 then 1 else 0) r
    else b :: emulate (if b = 0 then z + 1 else 0) r

/-- ITU-T H.265: a NAL unit of type `t` in layer 0: the two bytes of its header and its payload. -/
def nalBytes (t : Nat) (rbsp : List Byte) : List Byte := [BitVec.ofNat 8 (2 * t), 1] ++ emulate 0 rbsp

/-- ITU-T H.265: an SEI payload size or type: bytes 255 and the rest. -/
def seiNumber (n : Nat) : List Byte := List.replicate (n / 255) 255 ++ [BitVec.ofNat 8 (n % 255)]

/-- ITU-T H.265: the payload of a NAL unit that carries one SEI message. -/
def seiRbsp (ty : Nat) (payload : List Byte) : List Byte := seiNumber ty ++ seiNumber payload.length ++ payload ++ [128]

/-- R54, R91, R94, R113: the bytes of a NAL unit: VPS 32, SPS 33, PPS 34, prefix SEI 39, suffix SEI 40, filler data 38, slices of
an IDR picture 20 and of a TRAIL_R picture 1. -/
def unitBytes (u : NalUnit) : List Byte :=
  match u with
  | .vps _ => nalBytes 32 (Config.syntaxBytes u)
  | .sps _ => nalBytes 33 (Config.syntaxBytes u)
  | .pps _ => nalBytes 34 (Config.syntaxBytes u)
  | .bufferingPeriod .. => nalBytes 39 (seiRbsp 0 (Config.syntaxBytes u))
  | .recoveryPoint .. => nalBytes 39 (seiRbsp 6 (Config.syntaxBytes u))
  | .duInfo _ => nalBytes 39 (seiRbsp 130 (Config.syntaxBytes u))
  | .slice h data => nalBytes (if h.idr then 20 else 1) (Config.syntaxBytes (.slice h []) ++ data)
  | .ledger seg => nalBytes 40 (seiRbsp 5 seg)
  | .filler n => nalBytes 38 (List.replicate (n - 3) 255 ++ [128])
  | .pictureHash crcs => nalBytes 40 (seiRbsp 132 (1 :: crcs.flatMap (fun x => beBytes 2 x.toNat)))

/-- The bits of NAL units. -/
def unitBits (us : List NalUnit) : Nat := 8 * (us.map (fun u => (unitBytes u).length)).sum

/-! Parameter sets (R88, R90, R91, R93, R108). -/

/-- R88 to R93, R106, R108: what the parameter sets of a stream say. -/
def EncCfg.params (c : EncCfg) (f : RasterFmt) : SeqParams where
  profile := c.profile
  highTier := c.highTier
  level := c.level
  width := c.width
  height := c.height
  chroma := c.chroma
  depth := c.depth
  gbr := c.rgb && c.chroma == 3
  maxReorder := 0
  maxDecBufferingMinus1 := 1
  log2Ctb := 6
  log2MinCb := 3
  temporalMvp := false
  weightedPred := false
  entropySync := false
  transquantBypass := c.rc == .capll || !c.regions.isEmpty
  log2MinTb := 2
  log2MaxTb := 5
  transformSkip := true
  pcmLog2 := if c.rc == .capll || !c.regions.isEmpty then some 5 else none
  pcmDepth := if c.rc == .capll || !c.regions.isEmpty then some c.depth else none
  rdpcm := c.profile != .main10
  crossComp := c.profile != .main10
  palette := c.profile == .screen444
  copy := c.profile == .screen444
  act := false
  deblocking := true
  sao := true
  split := c.split f
  subPicHrd := true
  duInPicTiming := false
  rate := c.rate
  cpb := c.cpb
  cbr := c.rc == .cbr
  num := f.num
  den := f.den

/-- R94, R100, R115: the units before the first decoding unit of an access unit that begins a sweep. -/
def EncCfg.headUnits (c : EncCfg) (f : RasterFmt) (p : EncPic) : List NalUnit :=
  if p.idr || p.sweepStart then
    let q := c.params f
    [.vps q, .sps q, .pps q, .bufferingPeriod (!p.idr) 0 c.rate c.cpb, .recoveryPoint (c.sweepLen - 1) true false]
  else []

/-! Slice segments (R92, R119). -/

/-- R119: the payload limit: the MTU less the IP, UDP and RTP headers. -/
def EncCfg.payloadLimit (c : EncCfg) (mtu : Nat) : Nat := mtu - (if c.ipv6 then 40 else 20) - 8 - 12

/-- R119: a slice is divided into dependent slice segments: each ends at the last CTU that keeps its NAL unit within the limit.
`addr` is the segment's first CTU, `next` the next one, and `acc` the segment's data so far. -/
def cutSegments (limit : Nat) (mk : Bool → Nat → List Byte → NalUnit) (dep : Bool) (addr next : Nat) (acc : List Byte) :
    List (List Byte) → List NalUnit
  | [] => [mk dep addr acc]
  | d :: r =>
    if next = addr ∨ (unitBytes (mk dep addr (acc ++ d))).length ≤ limit then
      cutSegments limit mk dep addr (next + 1) (acc ++ d) r
    else mk dep addr acc :: cutSegments limit mk true next (next + 1) d r

/-- R92, R119: the slice segments of row `j` from the slice data of its CTUs: a slice that begins immediately after the sweep column
has loop filtering across its edges off. -/
def EncCfg.sliceUnits (c : EncCfg) (f : RasterFmt) (mtu : Nat) (p : EncPic) (j : Nat) (zero : Bool) (qp : Int) (data : List (List Byte)) :
    List NalUnit :=
  let (lo, hi) := c.sweep p
  let cut := if lo < hi && !zero then some hi else none
  let starts := (List.range c.cols).filter (c.sliceStart (c.split f) cut j)
  let ends := starts.drop 1 ++ [c.cols]
  (starts.zip ends).flatMap (fun x =>
    let mk (dep : Bool) (addr : Nat) (d : List Byte) : NalUnit :=
      .slice ⟨p.idr, addr == 0, dep, addr, cut != some x.1, qp⟩ d
    cutSegments (c.payloadLimit mtu) mk false (c.cols * j + x.1) (c.cols * j + x.1) [] ((data.drop x.1).take (x.2 - x.1)))

/-! The decoded picture hash (R94). -/

/-- ITU-T H.265: a bit enters the CRC of a picture hash. -/
def hashBit (crc : Nat) (b : Bool) : Nat :=
  (crc * 2 % 65536 + b.toNat) ^^^ (if 32768 ≤ crc then 0x1021 else 0)

/-- ITU-T H.265: a byte enters the CRC, its most significant bit first. -/
def hashByte (crc : Nat) (b : Byte) : Nat := (List.range 8).foldl (fun x i => hashBit x (b.getLsbD (7 - i))) crc

/-- ITU-T H.265: picture_crc of a plane: each sample's low byte, and its high byte beyond 8 bits. -/
def planeHash (depth : Nat) (xs : List (BitVec 16)) : BitVec 16 :=
  let bytes := xs.flatMap (fun v => (leBytes 2 v.toNat).take (if 8 < depth then 2 else 1))
  BitVec.ofNat 16 ((bytes ++ [0, 0]).foldl hashByte 65535)

/-- The samples of a plane of a picture in raster order, from its tiles. -/
def joinPlane (cols rows : Nat) (dims : Nat → Nat → Nat × Nat) (tile : Nat → List (BitVec 16)) : List (BitVec 16) :=
  (List.range rows).flatMap (fun r =>
    (List.range (dims 0 r).2).flatMap (fun y =>
      (List.range cols).flatMap (fun x => ((tile (cols * r + x)).drop ((dims x r).1 * y)).take (dims x r).1)))

/-- R94: the decoded picture hash SEI message, hash_type 1, of a picture by its tiles. -/
def EncCfg.hashUnit (c : EncCfg) (tile : Nat → Samples) : NalUnit :=
  let luma (x r : Nat) := (c.tileDims x r).1
  let chroma (x r : Nat) := (c.tileDims x r).2
  .pictureHash [planeHash c.depth (joinPlane c.cols c.rows luma (fun t => (tile t).y)),
    planeHash c.depth (joinPlane c.cols c.rows chroma (fun t => (tile t).cb)),
    planeHash c.depth (joinPlane c.cols c.rows chroma (fun t => (tile t).cr))]

/-! Packets (R119). -/

/-- RFC 7798: the payload header of a fragmentation unit, of type 49, and its FU header: S, E and the type of the NAL unit. -/
def fuHead (nal : List Byte) (first last : Bool) : List Byte :=
  let a := nal.headD 0
  [(a &&& 0x81) ||| 0x62, nal.getD 1 0,
    (if first then 0x80 else 0) ||| (if last then 0x40 else 0) ||| ((a >>> 1) &&& 0x3F)]

/-- R119: the RTP payloads of a NAL unit: a single NAL unit packet, or fragmentation units, whose payload header and FU header take 3
bytes in place of the NAL unit's 2. -/
def nalPackets (limit : Nat) (nal : List Byte) : List (List Byte × PayKind) :=
  if nal.length ≤ limit then [(nal, .single)]
  else
    let m := limit - 3
    let k := (nal.length - 2 + m - 1) / m
    (List.range k).map (fun i =>
      (fuHead nal (i == 0) (i + 1 == k) ++ (nal.drop (2 + i * m)).take m, .fragment (i == 0) (i + 1 == k)))

/-- R119, R243: the length of a packet's frame, from the destination MAC address through the FCS. -/
def EncCfg.frameLen (c : EncCfg) (payload : Nat) : Nat :=
  14 + (if c.vid.isSome then 4 else 0) + (if c.ipv6 then 40 else 20) + 8 + 12 + payload + 4

end Sys2Proof.Machine
end

