-- ==== Sys2Proof/Machine/HostRing.lean ====
section
/-! DEFINITION. Completion queues in host memory, MSI-X vectors, and the delivery of events (R281, R292, R293). -/

namespace Sys2Proof.Machine

/-- What a byte of host memory that the device has not written reads as (DESIGN CHOICE, log entry 9). -/
abbrev hostByte : Byte := 0

/-- Writing bytes to host memory. -/
def State.hostWrite (a : Nat) (bs : List Byte) (s : State) : State :=
  s.modHq (fun h => { h with hostMem := putBytes h.hostMem hostByte a bs })

/-- R292: a vector is raised, or held as pending while it is masked; the model lists both. -/
def State.msix (v : Nat) (s : State) : State :=
  s.modHq (fun h => { h with msixPend := if h.msixPend.contains v then h.msixPend else h.msixPend ++ [v] })

/-- A completion queue has no free entry. -/
def HqQueue.cqFull (q : HqQueue) : Bool := decide ((q.cqTail + 1) % q.cqSize = q.cqHead)

/-- R281: one entry of four words, with PHASE in bit 31 of word 3, is written to the CQ; the tail advances, PHASE is
inverted on each wrap, and the CQ's vector is raised. -/
def State.cqPut (q : Nat) (w0 w1 w2 w3 : Word) (s : State) : State :=
  let x := s.hqQ q
  let w3' := if x.phase then w3 ||| 0x80000000 else w3
  let t := (x.cqTail + 1) % x.cqSize
  ((s.hostWrite (x.cqBase.toNat + 16 * x.cqTail) (wordBytes [w0, w1, w2, w3'])).modHqQ q
    (fun y => { y with cqTail := t, phase := if t = 0 then !y.phase else y.phase })).msix x.vector.toNat

/-- The partition of function `fn`: none for the PF, whose scope is the whole device (R274). -/
def State.fnPart (s : State) (fn : Nat) : Option Nat := if fn = 0 then none else s.hq.vfPart.look none fn

/-- R272: Vendor ID, Device ID and class code that a function reports; nothing until the end of LOAD, while configuration requests get
Configuration Request Retry Status. -/
def State.pcieIdent (s : State) (fn : Nat) : Option (BitVec 16 × BitVec 16 × BitVec 24) :=
  if s.hq.up then some (0x1F6D, if fn = 0 then 0x6480 else 0x6481, 0x048000) else none

/-- R274, R389: an event about an object of function `fn`: of the partition of a VF, or of the device. -/
def State.raiseFn (fn : Nat) (id : EventId) (items : List Item) (s : State) : State :=
  match s.fnPart fn with
  | some p => s.raiseP p id items
  | none => s.raise id items

/-- R293: an event entry lies in the scope of a function: the PF's is the whole device; a VF's is the events of its
partition, never those with DEVICE. -/
def State.inScope (s : State) (fn : Nat) (e : LogEntry) : Bool :=
  fn == 0 || (!e.w0.getLsbD 12 && s.fnPart fn == some (e.w0 >>> 13 &&& 7).toNat)

/-- R293: an event entry of index `idx` is written to EVENT queue `q`, or counted in EV_DROPPED when it is full. -/
def State.deliverTo (idx : BitVec 32) (e : LogEntry) (q : Nat) (s : State) : State :=
  let x := s.hqQ q
  if x.valid && x.kind == .event && x.mask.getLsbD (e.w0 >>> 26).toNat && s.inScope x.func.toNat e then
    if x.cqFull then s.modHq (fun h => { h with evDropped := satInc h.evDropped })
    else s.cqPut q (e.w0 &&& 0xFFFF0000 ||| idx &&& 0xFFFF) e.w1 e.w2 (e.w3 &&& 0xFFFF)
  else s

/-- R293: delivery of an entry to every EVENT queue; a continuation, a page header or a missing index is no event. -/
def State.deliver (idx : BitVec 32) (e : LogEntry) (s : State) : State :=
  if e.w0 >>> 16 ≥ 0xFFFD then s
  else s.each (s.hq.queues.map (·.1)) (State.deliverTo idx e)

end Sys2Proof.Machine
end

