-- ==== Sys2Proof/Machine/HostOut.lean ====
section
/-! DEFINITION. Output paging: staging of coded pictures, pages in flight and drops (R288 to R290). -/

namespace Sys2Proof.Machine

/-- R282: STATUS values. -/
def Status.code : Status → BitVec 16
  | .success => 0
  | .invalidOpcode => 1
  | .invalidField => 2
  | .idRange => 3
  | .notOwned => 4
  | .busy => 5
  | .postFull => 6
  | .hostDma => 7
  | .deviceMemory => 8
  | .txnFailed => 9
  | .state => 10
  | .mirrored => 11

/-- R288: a page holds 4 KiB. -/
abbrev pageBytes : Nat := 4096

/-- R275: the OUTPUT queue of encode stream `i`. -/
def State.outQueue (s : State) (i : Nat) : Option Nat :=
  (s.hq.queues.find? (fun q => q.2.valid && q.2.kind == .output && q.2.stream == i)).map (·.1)

/-- R289: RESULT of a page: DROPPED and BYTES. -/
def Page.result (p : Page) : Word :=
  BitVec.ofNat 16 (min p.dropped 0xFFFF) ++ (0 : BitVec 3) ++ BitVec.ofNat 13 p.filled

/-- R289: FLAGS of a page: GAP, EOA and PARTIAL. -/
def Page.flags (p : Page) : BitVec 8 :=
  (0 : BitVec 5) ++ BitVec.ofBool p.gap ++ BitVec.ofBool p.eoa ++ BitVec.ofBool (decide (p.filled < pageBytes))

/-- R281, R289: a completed page's completion entry is written once its CQ has space. -/
def State.pageEntry (i : Nat) (s : State) : State :=
  match (s.encS i).page, s.outQueue i with
  | some p, some q => match p.done with
    | some st => if (s.hqQ q).cqFull then s else
        let s := s.cqPut q p.result (p.sqHead ++ BitVec.ofNat 16 q) (p.cid ++ (0 : BitVec 8) ++ p.flags) (st.code.setWidth 32)
        (s.modEncS i (fun e => { e with page := none })).modHqQ q (fun x => { x with inExec := x.inExec - 1 })
    | none => s
  | _, _ => s

/-- R289: the page in flight is completed; a page that holds no byte stays in flight. -/
def State.pageDone (i : Nat) (st : Status) (s : State) : State :=
  match (s.encS i).page with
  | some p => if p.done.isSome || p.filled == 0 then s
      else (s.modEncS i (fun e => { e with page := some { p with done := some st } })).pageEntry i
  | none => s

/-- R290: a drop begins: the page in flight is completed, and every staged picture that no page has begun is discarded. -/
def State.beginDrop (i : Nat) (s : State) : State :=
  if (s.encS i).dropping then s
  else
    let s := s.pageDone i .success
    let e := s.encS i
    let s := s.modEncS i (fun e => { e with
      dropping := true, resumeReq := false, staged := e.staged.filter (·.begun)
      dropped := e.dropped + (e.staged.filter (fun p => !p.begun && p.complete)).length })
    s.limited .hostOutputDrop i ms (State.raiseP e.cfg.part .hostOutputDrop [i16 i])

/-- R288, R289: bytes of the oldest staged picture fill the page in flight; the page is completed when it is full or the
access unit ends. -/
def State.fillPage (i : Nat) (s : State) : State :=
  let e := s.encS i
  match e.page, e.staged with
  | some p, x :: r =>
    if p.done.isSome || x.data.isEmpty || (x.gap && !x.begun && p.filled != 0) then s
    else
      let n := min (pageBytes - p.filled) x.data.length
      let left := x.data.drop n
      let ends := x.complete && left.isEmpty
      let gap := p.gap || (x.gap && !x.begun)
      let s := s.hostWrite (p.addr.toNat + p.filled) (x.data.take n)
      let s := s.modEncS i (fun e => { e with
        page := some { p with filled := p.filled + n, gap := gap, eoa := ends, dropped := p.dropped + e.dropped, last := s.now }
        dropped := 0, staged := if ends then r else { x with data := left, begun := true } :: r })
      if ends || p.filled + n == pageBytes then s.pageDone i .success else s
  | _, _ => s

/-- R290: the restarted sweep's first access unit begins, so the drop ends. -/
def State.endDrop (i : Nat) (s : State) : State :=
  let e := s.encS i
  (s.modEncS i (fun e => { e with dropping := false, resumeReq := false })).limited .hostOutputResumed i ms
    (State.raiseP e.cfg.part .hostOutputResumed [i16 i, i16 (min e.dropped 0xFFFF)])

/-- R288: Annex B bytes of NAL units. -/
def annexB (nals : List (List Byte)) : List Byte := nals.flatMap (fun n => [0, 0, 0, 1] ++ n)

/-- R290: the age test at a picture boundary. -/
def State.ageTest (i : Nat) (s : State) : State :=
  let e := s.encS i
  let old := e.staged.any (fun x => x.complete && decide (e.cfg.outAge < s.now - x.at_))
  let size := (e.staged.map (fun x => x.data.length)).sum
  if old || decide (e.cfg.outBuf < size) then s.beginDrop i else s

/-- R288: the output buffer of encode stream `i` takes its pool blocks in the partition's share. -/
def State.claimOut (i : Nat) (s : State) : State :=
  let e := s.encS i
  if e.outBase.isSome then s else s.modEncS i (fun x => { x with outBase := s.room e.cfg.part (outBlocks e.cfg) })

/-- R288, R290: the NAL units of a row of a picture are staged; `first` and `last` mark the ends of its access unit,
`restart` one that begins a restarted sweep. -/
def State.stageRow (i : Nat) (pc : BitVec 32) (nals : List (List Byte)) (first last restart : Bool) (s : State) : State :=
  let s := s.claimOut i
  let e := s.encS i
  let ends := e.dropping && e.resumeReq && first && restart && !e.restarts.any (fun r => r.2 == 1)
  let s := if ends then s.endDrop i else s
  if (s.encS i).dropping then
    let s := if (s.encS i).staged.any (fun x => x.picCount == pc) then s.modEncS i (fun e => { e with
        staged := e.staged.map (fun x => if x.picCount = pc then
          { x with data := x.data ++ annexB nals, complete := last, at_ := s.now } else x) })
      else if last then s.modEncS i (fun e => { e with dropped := e.dropped + 1 }) else s
    s.fillPage i
  else
    let s := if first then
        s.modEncS i (fun e => { e with staged := e.staged ++ [⟨pc, [], false, false, ends, s.now⟩] }) else s
    let s := s.modEncS i (fun e => { e with
      staged := e.staged.map (fun x => if x.picCount = pc then
        { x with data := x.data ++ annexB nals, complete := last, at_ := s.now } else x) })
    let s := s.fillPage i
    if last then s.ageTest i else s

/-- R290: the second frame of the stream's raster after now: its line 0 as a PTP time. -/
def State.resumeTime (s : State) (i : Nat) : T48 :=
  let c := (s.encS i).cfg
  let k := c.input.getD c.hostRaster
  BitVec.ofInt 48 (s.lineTime k ((s.frameNow k).toNat + 2) 0)

/-- R288, R290: a page entry fetched from queue `q` starts a page for encode stream `i`; in a drop it requests a sweep
restart. -/
def State.startPage (i : Nat) (addr : BitVec 64) (cid sqHead : BitVec 16) (s : State) : State :=
  let s := s.modEncS i (fun e => { e with page := some ⟨addr, cid, sqHead, 0, false, false, 0, none, s.now⟩ })
  let e := s.encS i
  let s := if e.dropping && !e.resumeReq then
      (s.modEncS i (fun e => { e with resumeReq := true })).encRestart i (s.resumeTime i) 1
    else s
  s.fillPage i

/-- R288: the engine is ready to start a page: none is in flight, and bytes are staged or a drop waits for its restart. -/
def EncStream.wantsPage (e : EncStream) : Bool :=
  e.page.isNone && (e.dropping || e.staged.any (fun x => !x.data.isEmpty))

end Sys2Proof.Machine
end

