-- ==== Sys2Proof/Machine/Wakes.lean ====
section
/-! DEFINITION. What the bay dispatchers do with cores: token requests, wakes and events, roles and banks, and the batches of a patch
(R14, R193, R207, R209, R210, R315, R317). -/

namespace Sys2Proof.Machine

/-! Token requests (R305, R315, R317, R320). -/

/-- R305: the levels by rank, highest first. -/
def levelRank : Level → Nat
  | .value => 0
  | .urgent => 1
  | .live => 2
  | .view => 3
  | .background => 4

/-- R315: the least cost of a request. -/
def reqCost : ReqKind → Nat
  | .wake => 57
  | .search => 10
  | .fill => 30
  | .training => 20

/-- The number of a kind of request. -/
def reqCode : ReqKind → Nat
  | .wake => 0
  | .search => 1
  | .fill => 2
  | .training => 3

/-- R315: the cost of a request, which the image may raise. -/
def State.tokenCost (s : State) (k : ReqKind) : Nat := max (reqCost k) (s.blw.costs.look 0 (reqCode k))

/-- R317: request `a` stands before request `b`. -/
def TokReq.before (a b : TokReq) : Bool :=
  decide (levelRank a.level < levelRank b.level) || (a.level == b.level &&
    (decide (a.arrived < b.arrived) || (a.arrived == b.arrived && decide (a.requester < b.requester))))

/-- R317: a request enters the queue in its place. -/
def insertReq (q : TokReq) : List TokReq → List TokReq
  | [] => [q]
  | a :: r => if q.before a then q :: a :: r else a :: insertReq q r

/-- R315, R317: a requester asks for tokens on a rail. -/
def State.askTokens (rail : Nat) (k : ReqKind) (lv : Level) (who : Nat) (s : State) : State :=
  if 5 ≤ rail || (s.rail rail).queue.any (fun q => q.kind == k && q.requester == who) then s
  else s.modRail rail (fun r => { r with queue := insertReq ⟨k, lv, who, s.now, s.tokenCost k, false⟩ r.queue })

/-- R320: the tokens that a requester holds for a kind of operation are released. -/
def State.freeTokens (rail : Nat) (k : ReqKind) (who : Nat) (s : State) : State :=
  let mine (g : ReqKind × Nat × Nat) : Bool := g.1 == k && g.2.1 == who
  s.modRail rail (fun r => { r with
    held := r.held - ((r.grants.filter mine).map (·.2.2)).sum, grants := r.grants.filter (fun g => !mine g) })

/-! Wakes and events (R14, R193, R209, R210). -/

/-- R209: the order of the power states. -/
def stateDepth : PState → Nat
  | .c0 => 0
  | .c1 => 1
  | .c2 => 2
  | .c3 => 3
  | .c4 => 4

/-- R209: nanoseconds of the entry into a power state; that of C1, one cycle, is none. -/
def entryTime : PState → Nat
  | .c2 => 100
  | .c3 => 1000
  | .c4 => 5000
  | _ => 0

/-- R209: the exit latency of a power state, in ns. -/
def exitTime : PState → Nat
  | .c0 => 0
  | .c1 => 25
  | .c2 => 250
  | .c3 => 2500
  | .c4 => 25000

/-- R14, R362: the state of the bays: C2 in QUIET, C4 where DOZE and DEEP gate their power, C0 otherwise. -/
def State.bayState (s : State) : PState :=
  if s.glb.mode = .rest then (if s.glb.restSub = 0 then .c2 else .c4) else .c0

/-- R317: the rank of the work that waits for a core: of the tasks of its bay that its partition's streams have there, or of the encode
streams of its partition with rows to code. -/
def State.wakeRank (s : State) (c : Nat) : Nat :=
  let x := s.core c
  let ts := (((s.bay (c / 8)).tasks.filterMap s.task).map (fun t => (s.decS t.stream).cfg)).filter (fun d => some d.part == x.part)
  let es := if x.role == .encode then (s.enc.map (·.2)).filter (fun e => !e.pics.isEmpty && some e.cfg.part == x.part &&
    e.bay.getD e.cfg.home == c / 8) else []
  (ts.map (fun d => d.cls.rank) ++ es.map (fun e => e.cfg.cls.rank)).foldl min 3

/-- R317: the level of a core wake: the highest among the tasks waiting for the core. -/
def State.wakeLevel (s : State) (c : Nat) : Level :=
  match s.wakeRank c with
  | 0 => .value
  | 1 => .live
  | 2 => .view
  | _ => .background

/-- R20, R210: a wake cause reaches a core: out of C1 at once, out of a deeper state after a Bellows grant, for which a core asks once
its bay is up (R14). -/
def State.wakeCore (c : Nat) (s : State) : State :=
  let x := s.core c
  if 32 ≤ c || x.fenced || x.waking then s
  else match x.pstate with
    | .c0 => s
    | .c1 => s.modCore c (fun x => { x with waking := true, granted := true, grantAt := max s.now x.entered })
    | _ => (s.modCore c (fun x => { x with waking := true, granted := false })).whenB (s.bayState == .c0) (fun s =>
        s.askTokens (c / 8) .wake (s.wakeLevel c) c)

/-- R14, R210: the bays are up again: the cores that a wake has reached ask for their tokens. -/
def State.askWakes (s : State) : State :=
  s.each (List.range 32) (fun c s =>
    if (s.core c).waking && !(s.core c).granted then s.askTokens (c / 8) .wake (s.wakeLevel c) c else s)

/-- R193, R202, R210: an event of a core is set, which wakes it; an external one that was not set restarts the deadlock count. -/
def State.coreEvent (c ev : Nat) (s : State) : State :=
  if 32 ≤ c || (s.core c).fenced then s
  else (s.modCore c (fun x => CoreS.setEvent ev (if ev < 32 || x.event ev then x else { x with movedAt := s.now }))).wakeCore c

/-- R193: an event reaches the cores that satisfy `p`. -/
def State.eventAt (p : CoreS → Bool) (ev : Nat) (s : State) : State :=
  s.each ((List.range 32).filter (fun c => p (s.core c))) (fun c => State.coreEvent c ev)

/-- R193: a core reads the bitstream queue and the frame buffers of decode stream `i`: it has a task of it. -/
def State.readsStream (s : State) (i : Nat) (c : CoreS) : Bool := c.tasks.any (fun n => (s.task n).any (fun t => t.stream == i))

/-! Roles and banks (R301, R310, R333). -/

/-- R402: a core in service: not fenced, its bay not fenced, and not asleep behind a fenced Bellows. -/
def State.inService (s : State) (c : Nat) : Bool :=
  let x := s.core c
  !x.fenced && !(s.bay (c / 8)).fenced && !(s.blw.fenced && (x.pstate == .c2 || x.pstate == .c3 || x.pstate == .c4))

/-- R333: a core loads the bank in use of another core, from its DRAM copy, as bank A. -/
def CoreS.loadBank (d c : CoreS) : CoreS :=
  let mine := (d.copies.filter (fun p => decide (8192 ≤ p.1) == d.bank)).map (fun p => (p.1 % 8192, p.2))
  { c with
    bank := false, validA := true, validB := false, patA := if d.bank then d.patB else d.patA
    decA := if d.bank then d.decB else d.decA, crcA := if d.bank then d.crcB else d.crcA, words := mine, copies := mine, copyBad := false }

/-- R205, R301, R310, R333: a core takes a role and an owner; one that takes another role loads that role's bank, from a copy that has met
no uncorrectable error. -/
def State.setRole (c : Nat) (r : CoreRole) (o : Option Nat) (s : State) : State :=
  let fresh := (s.core c).role != r && r != .unassigned
  let donor := if fresh then (List.range 32).find? (fun d =>
    d != c && (s.core d).role == r && !(s.core d).copies.isEmpty && !(s.core d).copyBad) else none
  let s := match donor with
    | some d => s.modCore c (CoreS.loadBank (s.core d))
    | none => s
  s.modCore c (fun x => { x with role := r, part := o })

/-! The batches of a patch (R207). -/

/-- Update of the patch under way. -/
def State.modPatch (f : PatchS → PatchS) (s : State) : State := s.modGlb (fun g => { g with patch := g.patch.map f })

/-- R207: the streams that are in the middle of a picture on a core: those of its owner in its bay and role, with the last picture begun. -/
def State.streamsOn (s : State) (c : Nat) : List (Bool × Nat × Nat) :=
  let x := s.core c
  let mine (part : Nat) (bay : Option Nat) : Bool := x.part == some part && bay == some (c / 8)
  match x.role with
  | .encode => (s.enc.filter (fun e => mine e.2.cfg.part (some (e.2.bay.getD e.2.cfg.home)))).filterMap (fun e =>
      e.2.pics.head?.bind (fun p => if 0 < p.issued then some (true, e.1, p.picCount.toNat) else none))
  | .decode => (s.dec.filter (fun d => mine d.2.cfg.part (some (d.2.bay.getD d.2.cfg.home)))).filterMap (fun d =>
      d.2.pics.getLast?.map (fun p => (false, d.1, p.num)))
  | .check => (s.dec.filter (fun d => mine d.2.cfg.part d.2.checkBay)).filterMap (fun d =>
      d.2.pics.getLast?.map (fun p => (false, d.1, p.num)))
  | .unassigned => []

/-- R207: a stream has not yet come to the picture boundary after a picture. -/
def State.midPicture (s : State) (x : Bool × Nat × Nat) : Bool :=
  if x.1 then (s.encS x.2.1).pics.any (fun p => decide (0 < p.issued) && p.picCount.toNat == x.2.2)
  else (s.decS x.2.1).pics.any (fun p => decide (p.num ≤ x.2.2))

/-- R207: a picture of a stream belongs to those that stay where they are. -/
def StandIn.keeps (b : StandIn) (enc : Bool) (i n : Nat) : Bool :=
  b.streams.any (fun x => x.1 == enc && x.2.1 == i && (if enc then x.2.2 == n else decide (n ≤ x.2.2)))

/-- R207: during the batches a core of one, or a spare that stands in, takes the work of a picture: streams move between the two only at
picture boundaries. -/
def State.batchAllows (s : State) (enc : Bool) (i n c : Nat) : Bool :=
  match s.glb.patch with
  | none => true
  | some p => p.batch.all (fun b =>
      if b.core = c then b.keeps enc i n != b.back else if b.spare = c then b.keeps enc i n == b.back else true)

/-- R207: step 2: a spare takes a core's role and owner; the streams of the core move to it at their next picture boundary. -/
def State.standIn (x c : Nat) (s : State) : State :=
  let y := s.core c
  let b : StandIn := ⟨c, x, s.streamsOn c, false, false⟩
  (s.setRole x y.role y.part).modPatch (fun p => { p with batch := p.batch ++ [b] })

/-- R207: a core of a batch whose streams have all come to their boundary: it drains (step 2), or its spare is free (step 4). -/
def State.stepStandIn (b : StandIn) (s : State) : State :=
  let left := b.streams.filter s.midPicture
  let put (f : List StandIn → List StandIn) (s : State) : State := s.modPatch (fun p => { p with batch := f p.batch })
  if !left.isEmpty then put (fun l => l.map (fun x => if x = b then { b with streams := left } else x)) s
  else if b.back then put (fun l => l.erase b) (s.setRole b.spare .unassigned none)
  else if b.drain then s
  else put (fun l => l.map (fun x => if x = b then { b with streams := [], drain := true } else x))
    ((s.coreEvent b.core 36).modCore b.core (fun x => { x with draining := true }))

/-- R207: every core of the batch. -/
def State.stepBatch (s : State) : State :=
  match s.glb.patch with
  | some p => s.each p.batch State.stepStandIn
  | none => s

/-- R206: the decision identity of a core's active bank. -/
def CoreS.decision (c : CoreS) : BitVec 16 := if c.bank then c.decB else c.decA

/-- R208: encode stream `i` may take another decision identity from a commit position on; a lead mirrors it as a transaction. -/
def State.newIdentity (i : Nat) (s : State) : State :=
  let s := s.modEncS i (fun e => { e with decAt := some s.time48 })
  s.whenB (s.glb.role == .lead) (State.gPut (.txn (.identity i s.time48)))

/-- R208: deterministic encode streams for which a core in service of their owner has a bank of another decision identity may take it, at
the first picture of a sweep that begins after this position. A shadow hears of it from its lead. -/
def State.newIdentities (s : State) : State :=
  if s.follows then s
  else
    let other (e : EncStream) : Bool := (List.range 32).any (fun c =>
      s.inService c && (s.core c).role == .encode && (s.core c).part == some e.cfg.part && e.decId.any (· != (s.core c).decision))
    s.each ((s.enc.filter (fun x => x.2.cfg.enabled && x.2.cfg.deterministic && x.2.decAt.isNone && other x.2)).map (·.1)) State.newIdentity

/-- R207: each spare core in service stands in for a core that has not swapped, one of its bay first. -/
def pairSpares (spares pending : List Nat) : List (Nat × Nat) :=
  spares.foldl (fun ps x =>
    let free := pending.filter (fun c => !ps.any (fun p => p.2 == c))
    match (free.find? (fun c => c / 8 == x / 8)).or free.head? with
    | some c => ps ++ [(x, c)]
    | none => ps) []

/-- R207, R364: the last batch is done; where no output raster is in use the differences are committed with the admission that
follows. -/
def State.endBatches (s : State) : State :=
  match s.glb.patch with
  | none => s
  | some p =>
    let s := (s.modPatch (fun p => { p with step := 5, pending := [], batch := [] })).raise .ptnSwapDone [i32 p.swapped, i32 p.left]
    s.newIdentities.whenB s.outputs.isEmpty (State.wantAdmission 2)

/-- R207, R365: the next batch begins; without a spare core the cores left stay on their old banks. -/
def State.nextBatch (s : State) : State :=
  match s.glb.patch with
  | none => s
  | some p =>
    let pend := p.pending.filter (fun c => !(s.core c).fenced)
    let free := (List.range 32).filter (fun c => s.inService c && (s.core c).role == .unassigned && (s.core c).part.isNone)
    let ps := pairSpares free pend
    if ps.isEmpty then (s.modPatch (fun p => { p with left := p.left + pend.length })).endBatches
    else
      let s := s.modPatch (fun p => { p with pending := pend.filter (fun c => !ps.any (fun x => x.2 == c)) })
      (s.each ps (fun x => State.standIn x.1 x.2)).stepBatch

/-- R207: the batch goes on where its streams have come to their picture boundaries; when it is over the next one begins. -/
def State.patchStep (s : State) : State :=
  match s.glb.patch with
  | none => s
  | some p =>
    if p.step != 4 then s
    else
      let s := s.stepBatch
      if p.batch.isEmpty || (s.glb.patch.map (·.batch.isEmpty)).getD false then s.nextBatch else s

/-- R207: step 3: a core of the batch is done with, and its streams return at their next picture boundary. -/
def State.standBack (c : Nat) (done : Bool) (s : State) : State :=
  s.modPatch (fun p => { p with
    batch := p.batch.map (fun b => if b.core = c then { b with streams := s.streamsOn b.spare, drain := false, back := true } else b)
    swapped := p.swapped + done.toNat, left := p.left + (!done).toNat })

end Sys2Proof.Machine
end

