-- ==== Sys2Proof/Machine/Windows.lean ====
section
/-! DEFINITION. The geometry of windows: taps of the scaler, contributing rows and columns, and the deadlines of decode
row tasks (R49, R161, R166 to R168). -/

namespace Sys2Proof.Machine

/-- R166: ceil(3s) with s = max(1, src / dst). -/
def tapReach (src dst : Nat) : Nat := if src ≤ dst then 3 else (3 * src + dst - 1) / dst

/-- R166: floor(p) and the phase of p in 64ths for output index `i`. -/
def tapCentre (src dst i : Nat) : Int × Nat :=
  let num : Int := ((2 * i + 1) * src : Nat) - (dst : Int)
  let den : Int := ((2 * dst : Nat) : Int)
  let fl := num / den
  let ph := ((num - fl * den) * 128 + den) / (2 * den)
  if ph = 64 then (fl + 1, 0) else (fl, ph.toNat)

/-- R166: the first and last tap before clamping. -/
def tapRange (src dst i : Nat) : Int × Int :=
  let c := (tapCentre src dst i).1
  (c - (tapReach src dst : Int) + 1, c + (tapReach src dst : Int))

/-- R166: a tap clamped to the source. -/
def clampTap (src : Nat) (t : Int) : Nat := min t.toNat (src - 1)

/-- R166, R168: the first and last source sample that an output index reads, in one direction of a window. -/
def sourceSpan (value : Bool) (src dst i : Nat) : Nat × Nat :=
  if value then (i * src / dst, i * src / dst)
  else
    let (a, b) := tapRange src dst i
    (clampTap src a, clampTap src b)

/-- R161: the window crosses output line `n`. -/
def Window.crosses (w : Window) (n : Nat) : Bool :=
  decide (w.dstY.toNat ≤ n) && decide (n < w.dstY.toNat + w.dstH.toNat)

/-- R161: the output pixel (x, n) lies in the window. -/
def Window.covers (w : Window) (x n : Nat) : Bool :=
  w.crosses n && decide (w.dstX.toNat ≤ x) && decide (x < w.dstX.toNat + w.dstW.toNat)

/-- The first and last source lines of the picture that output line `n` reads. -/
def Window.lines (w : Window) (n : Nat) : Nat × Nat :=
  let (a, b) := sourceSpan w.value w.srcH.toNat w.dstH.toNat (n - w.dstY.toNat)
  (w.srcY.toNat + a, w.srcY.toNat + b)

/-- The first and last source columns of the picture that output pixel `x` reads. -/
def Window.cols (w : Window) (x : Nat) : Nat × Nat :=
  let (a, b) := sourceSpan w.value w.srcW.toNat w.dstW.toNat (x - w.dstX.toNat)
  (w.srcX.toNat + a, w.srcX.toNat + b)

/-- R49, R167: the first output line whose taps reach the CTU row that begins at picture line `y` and has `h` lines. -/
def Window.firstLine (w : Window) (y h : Nat) : Option Nat :=
  if y + h ≤ w.srcY.toNat ∨ w.srcY.toNat + w.srcH.toNat ≤ y then none
  else ((List.range w.dstH.toNat).find? (fun i => decide (y ≤ (w.lines (w.dstY.toNat + i)).2))).map (w.dstY.toNat + ·)

/-- R161, R301: the enabled windows that show decode stream `i`, with their numbers. -/
def State.windowsOf (s : State) (i : Nat) : List (Nat × Window) :=
  s.cmp.windows.filter (fun p => p.2.enable && p.2.stream.toNat == i)

/-- R41, R49: the time of line `n`, counted from its line 0, of the first frame of a raster that begins at or after a time:
by R38, or from the measured frame of an input raster. -/
def State.lineFrom (s : State) (k t : Nat) (n : Int) : Int :=
  let r := s.raster k
  let f := r.fmt
  if 16 ≤ k ∧ r.measured then
    let ahead := -(((r.sf : Int) - (t : Int)) / (r.period : Int))
    (r.sf : Int) + ahead * (r.period : Int) + n * (r.period : Int) / (f.lt : Int)
  else
    let m := fmtPosition f t
    let first := if m % (f.lt : Int) = 0 ∧ fmtLine f m = t then m / (f.lt : Int) else m / (f.lt : Int) + 1
    fmtLine f (first * (f.lt : Int) + n)

/-- R41, R49, R129: the deadline of the CTU row at picture line `y` of a picture output at time `t`, and the raster that
bears it: the earliest of the first lines that show the row, minus 12 lines; else the decode raster and line of the
stream's configuration. -/
def State.rowDeadline (s : State) (i y h t : Nat) : Nat × Nat :=
  let ds := (s.windowsOf i).filterMap (fun p => (p.2.firstLine y h).map (fun n =>
    ((s.lineFrom p.2.raster.toNat t ((n : Int) - 12)).toNat, p.2.raster.toNat)))
  match ds with
  | [] =>
    let c := (s.decS i).cfg
    ((s.lineFrom c.raster t (c.line : Int)).toNat, c.raster)
  | d :: r => r.foldl (fun a b => if b.1 < a.1 then b else a) d

end Sys2Proof.Machine
end

