-- ==== Sys2Proof/Machine/Recon.lean ====
section
/-! DEFINITION. Decode streams: events, tiles and their concealment, the Flask pool, output order, stream contexts, and the
tile events of a row (R74, R75, R77, R78, R86, R129, R137 to R160). -/

namespace Sys2Proof.Machine

/-! Status, pictures and events. -/

/-- R159: the words of the status record but UPD_SEQ. -/
def DecStream.statusWords (d : DecStream) :=
  ((d.st, d.lastError, d.coresUsed, d.dualNow, d.late), (d.errors, d.pictures, d.rowsLate, d.skipped))

/-- R159: UPD_SEQ advances when words 0 to 3 change. -/
def State.withStatus (i : Nat) (f : State → State) (s : State) : State :=
  let t := f s
  if (t.decS i).statusWords = (s.decS i).statusWords then t else t.modDecS i (fun d => { d with updSeq := d.updSeq + 1 })

/-- The picture of decode order number `n`. -/
def DecStream.pic (d : DecStream) (n : Nat) : DecPic := (d.pics.find? (fun p => p.num == n)).getD DecPic.reset

/-- Update of the picture of decode order number `n`. -/
def State.modPic (i n : Nat) (f : DecPic → DecPic) (s : State) : State :=
  s.modDecS i (fun d => { d with pics := d.pics.map (fun p => if p.num = n then f p else p) })

/-- The row record of tile row `r`. -/
def DecPic.rowRec (p : DecPic) (r : Nat) : RowRec := p.rows.look RowRec.reset r

/-- Update of the row record of tile row `r`. -/
def State.modRow (i n r : Nat) (f : RowRec → RowRec) (s : State) : State :=
  s.modPic i n (fun p => { p with rows := p.rows.upd RowRec.reset r f })

/-- R144: the picture whose access unit is in arrival. -/
def DecStream.openPic (d : DecStream) : Option DecPic :=
  match d.pics.getLast? with
  | some p => if p.ended then none else some p
  | none => none

/-- R86, R160: an event of a picture, at most once for each cause. -/
def State.picOnce (i n : Nat) (id : EventId) (cause : Nat) (f : State → State) (s : State) : State :=
  if ((s.decS i).pic n).evs.contains (id, cause) then s
  else f (s.modPic i n (fun p => { p with evs := (id, cause) :: p.evs }))

/-- R160: an event of the decoder, with the stream and picture order count. -/
def State.decEvent (i n : Nat) (id : EventId) (cause : Nat) (items : List Item) (s : State) : State :=
  s.picOnce i n id cause (State.raiseP (s.decS i).cfg.part id (i16 i :: .w32 ((s.decS i).pic n).poc :: items))

/-- R160: an event of the decoder with a picture order count that may not be known: it is a free value then (log entry 28). -/
def State.pocEvent (i : Nat) (poc : Option (BitVec 32)) (id : EventId) (items : List Item) (s : State) : State :=
  (s.raiseP (s.decS i).cfg.part id (i16 i :: .w32 (poc.getD (Config.freeWord s.freeCtr)) :: items)).whenB poc.isNone State.tickFree

/-- R148, R159, R160: DECODE_ERROR; where no core found the error, the core that it names is a free value (log entry 28). -/
def State.raiseError (i : Nat) (poc : Option (BitVec 32)) (x : DecErr × Option Nat) (s : State) : State :=
  let s := s.modDecS i (fun d => { d with errors := satInc d.errors, lastError := BitVec.ofNat 4 x.1.code })
  let core : Item := match x.2 with
    | some c => i16 c
    | none => .w16 ((Config.freeWord (s.freeCtr + 1)).setWidth 16)
  (s.pocEvent i poc .decodeError [i16 x.1.code, i32 x.1.first, i32 x.1.count, core]).modFreeCtr (· + 2)

/-- R149: the number of CTUs in spans, each counted once. -/
def spanSize (xs : List (Nat × Nat)) : Nat :=
  ((xs.mergeSort (fun a b => decide (a.1 ≤ b.1))).foldl (fun t x =>
    let from_ := max t.1 x.1
    (max t.1 (x.1 + x.2), t.2 + (x.1 + x.2 - from_))) (0, 0)).2

/-- R149: the errors of a picture, one for each code: the first CTU affected and the count of CTUs affected; what both cores
find counts once. -/
def errGroups (errs : List (DecErr × Option Nat)) : List (DecErr × Option Nat) :=
  (errs.map (·.1.code)).eraseDups.map (fun c =>
    let mine := errs.filter (fun x => x.1.code == c)
    let es := (mine.map (·.1)).eraseDups
    (⟨c, (es.map (·.first)).foldl min ((es.head?.map (·.first)).getD 0), spanSize (es.map (fun e => (e.first, e.count)))⟩,
      mine.findSome? (·.2)))

/-- R153: an error found in picture `n` ends the exact recovery of every message that lies no later, and of its recovery picture. -/
def DecStream.endExact (n : Nat) (d : DecStream) : DecStream :=
  { d with
    recoverAt := if d.recoverFrom ≤ n then none else d.recoverAt
    pics := d.pics.map (fun p => if p.exact && decide (p.exactFrom ≤ n) && decide (n ≤ p.num) then { p with exact := false } else p) }

/-- R148, R149: an error of a picture is detected; it ends an exact recovery (R153). It is raised with the others of its code
when the picture is done (DESIGN CHOICE, log entry 134). -/
def State.decError (i n : Nat) (e : DecErr) (core : Option Nat) (s : State) : State :=
  (s.modDecS i (DecStream.endExact n)).modPic i n (fun p => { p with errs := p.errs ++ [(e, core)] })

/-- R149: an error in an access unit without a picture: at most once for each code. -/
def State.unitError (i : Nat) (poc : Option (BitVec 32)) (e : DecErr) (s : State) : State :=
  if (s.decS i).auErrs.contains e.code then s
  else (s.modDecS i (fun d => { d with auErrs := e.code :: d.auErrs, recoverAt := none })).raiseError i poc (e, none)

/-- R148: an error of the picture in arrival, or of an access unit that has none, whose picture order count may be known. -/
def State.streamError (i : Nat) (poc : Option (BitVec 32)) (e : DecErr) (s : State) : State :=
  match (s.decS i).openPic with
  | some p => s.decError i p.num e none
  | none => s.unitError i poc e

/-! Tiles of a picture. -/

/-- The active SPS, or one of size 0. -/
def DecStream.grid (d : DecStream) : ParamSet :=
  d.sps.getD ⟨1, 0, 0, 0, 0, none, true, [], 0, 0, 0, 1, 8, 8, 64, false, true, 1, none, 0, 0, 0, [0], [0], false⟩

/-- R61: width and height of a tile in the luma plane and in a chroma plane. -/
def tileSize (p : ParamSet) (c r : Nat) : (Nat × Nat) × (Nat × Nat) :=
  let w := min 64 (p.width - 64 * c)
  let h := min 64 (p.height - 64 * r)
  let cw := if p.chroma = 3 then w else if p.chroma = 0 then 0 else (w + 1) / 2
  let ch := if p.chroma = 1 then (h + 1) / 2 else if p.chroma = 0 then 0 else h
  ((w, h), (cw, ch))

/-- R143, R150: mid-grey of a bit depth. -/
def grey (depth : Nat) : BitVec 16 := BitVec.ofNat 16 (2 ^ (depth - 1))

/-- R143: a tile of mid-grey. -/
def greyTile (p : ParamSet) (c r : Nat) : Samples :=
  let ((w, h), (cw, ch)) := tileSize p c r
  ⟨List.replicate (w * h) (grey p.depth), List.replicate (cw * ch) (grey p.depthC), List.replicate (cw * ch) (grey p.depthC)⟩

/-- R148: the results of a tile of which nothing was decoded. -/
def lostTile (p : ParamSet) (c r : Nat) : TileRes :=
  let ((w, h), (cw, ch)) := tileSize p c r
  ⟨c, List.replicate (w * h) none, List.replicate (cw * ch) none, List.replicate (cw * ch) none, [], false, false⟩

/-- R131: what two tasks have decoded of a plane. -/
def mergePlane : List (Option (BitVec 16)) → List (Option (BitVec 16)) → List (Option (BitVec 16))
  | [], b => b
  | a, [] => a
  | x :: a, y :: b => (y.or x) :: mergePlane a b

/-- R131: what two tasks have decoded of a tile. -/
def mergeTile (a b : TileRes) : TileRes :=
  ⟨a.col, mergePlane a.y b.y, mergePlane a.cb b.cb, mergePlane a.cr b.cr, a.reads ++ b.reads, a.lossy || b.lossy, a.strays || b.strays⟩

/-- R131: the results of a row with those of a further task. -/
def mergeRes (old new : List TileRes) : List TileRes :=
  new.foldl (fun acc t =>
    if acc.any (fun x => x.col == t.col) then acc.map (fun x => if x.col = t.col then mergeTile x t else x) else acc ++ [t]) old

/-- R139: a plane of a tile without the samples of voided CTUs; `w` is its width in the tile, and `ctuOf x y` the CTU of a
sample. -/
def voidPlane (bad : Nat → Bool) (ctuOf : Nat → Nat → Nat) (w : Nat) (xs : List (Option (BitVec 16))) : List (Option (BitVec 16)) :=
  xs.zipIdx.map (fun q => if bad (ctuOf (q.2 % w) (q.2 / w)) then none else q.1)

/-- The CTU address of a sample at (x, y) of a plane of tile (c, r), subsampled by `sx` and `sy`. -/
def tileCtu (g : ParamSet) (c r sx sy x y : Nat) : Nat :=
  (64 * r + y * sy) / g.ctu * ((g.width + g.ctu - 1) / g.ctu) + (64 * c + x * sx) / g.ctu

/-- The subsampling of the chroma planes. -/
def ParamSet.steps (g : ParamSet) : Nat × Nat := (if g.chroma = 3 then 1 else 2, if g.chroma = 1 then 2 else 1)

/-- R139: a tile without the samples of CTUs that are bad. -/
def dropCtus (g : ParamSet) (bad : Nat → Bool) (r : Nat) (t : TileRes) : TileRes :=
  let ((w, _), (cw, _)) := tileSize g t.col r
  let (sx, sy) := ParamSet.steps g
  { t with
    y := voidPlane bad (tileCtu g t.col r 1 1) w t.y, cb := voidPlane bad (tileCtu g t.col r sx sy) cw t.cb
    cr := voidPlane bad (tileCtu g t.col r sx sy) cw t.cr }

/-- R139: a tile without the CTUs of slices that violate the test. -/
def voidTile (g : ParamSet) (voids : List (Nat × Nat)) (r : Nat) (t : TileRes) : TileRes :=
  if voids.isEmpty then t
  else dropCtus g (fun a => voids.any (fun v => decide (v.1 ≤ a) && decide (a < v.1 + v.2))) r t

/-- R150: a plane whose missing samples are copied from the co-located ones, or are mid-grey. -/
def fillPlane (g : BitVec 16) : List (Option (BitVec 16)) → List (BitVec 16) → List (BitVec 16)
  | [], _ => []
  | some v :: r, old => v :: fillPlane g r old.tail
  | none :: r, old => old.headD g :: fillPlane g r old.tail

/-- R147: a CTU of the tile was not decoded, of those whose tasks are complete; `pending` says of which CTUs the tasks are not. -/
def tileLost (g : ParamSet) (pending : Nat → Bool) (r : Nat) (t : TileRes) : Bool :=
  let ((w, _), (cw, _)) := tileSize g t.col r
  let (sx, sy) := ParamSet.steps g
  let gone (sx sy w : Nat) (xs : List (Option (BitVec 16))) : Bool :=
    xs.zipIdx.any (fun q => q.1.isNone && !pending (tileCtu g t.col r sx sy (q.2 % w) (q.2 / w)))
  gone 1 1 w t.y || gone sx sy cw t.cb || gone sx sy cw t.cr

/-- R150, R151: a tile with its missing samples concealed. -/
def conceal (g : ParamSet) (t : TileRes) (old : Samples) : Samples :=
  ⟨fillPlane (grey g.depth) t.y old.y, fillPlane (grey g.depthC) t.cb old.cb, fillPlane (grey g.depthC) t.cr old.cr⟩

/-- R146, R153: a tile as reconstructed; `lost` says that a CTU of it was not decoded, `tainted` that its decoding read a tainted
sample or one with an uncorrectable error, `clears` that R153 clears the taint of a decoded tile. -/
def tileOut (g : ParamSet) (clears tainted lost : Bool) (t : TileRes) (old : Samples) : TileOut :=
  let x := conceal g t old
  ⟨t.col, x, tileCrc x, lost, lost || (tainted && !clears)⟩

/-- No samples. -/
def noSamples : Samples := ⟨[], [], []⟩

/-- R143: tile number `n` of the hold store; unlisted tiles are mid-grey. -/
def DecStream.held (d : DecStream) (n : Nat) : Samples :=
  let x := d.hold.look noSamples n
  if x = noSamples then greyTile d.grid (n % d.cols) (n / d.cols) else x

/-- A frame buffer of the stream. -/
def DecStream.frame (d : DecStream) (b : Nat) : FrameBuf := d.frames.look FrameBuf.reset b

/-- The tile of a frame buffer; a tile that is not there is mid-grey. -/
def FrameBuf.tileAt (f : FrameBuf) (d : DecStream) (c r : Nat) : Samples :=
  let t := f.tiles.look noSamples (r * d.cols + c)
  if t = noSamples then greyTile d.grid c r else t

/-- R150: the most recent decoded picture that precedes a place in output order. -/
def DecStream.before (d : DecStream) (order : Nat) : Option FrameBuf :=
  d.frames.foldl (fun best p =>
    if p.2.whole && !p.2.gen && decide (p.2.order < order) && best.all (fun b => decide (b.order < p.2.order)) then some p.2 else best)
    none

/-- R150: the co-located tile that fills what is missing of a tile. -/
def DecStream.colocated (d : DecStream) (order c r : Nat) : Samples :=
  match d.before order with
  | some f => f.tileAt d c r
  | none => greyTile d.grid c r

/-- R132: the newest frame buffer of a picture order count. -/
def DecStream.refOf (d : DecStream) (poc : BitVec 32) : Option FrameBuf :=
  d.frames.foldl (fun best p =>
    if p.2.poc == poc && best.all (fun b => decide (b.order < p.2.order)) then some p.2 else best) none

/-- R146: a tile's decoding read a sample of a tainted tile of a reference, or of a reference that is not there. -/
def DecStream.readTaint (d : DecStream) (rs : List RefRead) : Bool :=
  rs.any (fun r => match d.refOf r.poc with
    | some f => f.taint.contains r.tile
    | none => true)

/-- R138, R143: the number of a tile in the check copy of picture `n`. -/
def copyKey (n tile : Nat) : Nat := 65536 * (n % 2) + tile

/-- R138, R146: a check core's tile read a sample of a tainted tile of the check copy of the picture before, or of a generated
reference. -/
def DecStream.checkTaint (d : DecStream) (n : Nat) (rs : List RefRead) : Bool :=
  rs.any (fun r => d.chkTaint.contains (copyKey (n + 1) r.tile) || (d.refOf r.poc).all (·.gen))

/-! The Flask pool (R143 to R145). -/

/-- R144: frame buffers whose descriptors are free leave the stream. -/
def State.dropFrames (i : Nat) (s : State) : State :=
  s.modDecS i (fun d => { d with frames := d.frames.filter (fun p => !(s.poolD p.1).free) })

/-- R145: the frame buffers of stream `i` that satisfy `p` have their descriptors updated. -/
def State.eachFrame (i : Nat) (p : FrameBuf → Bool) (f : PoolDesc → PoolDesc) (s : State) : State :=
  s.each (((s.decS i).frames.filter (fun x => p x.2)).map (·.1)) (fun b => State.modPoolD b f)

/-- R143, R237: pool blocks of a frame buffer of a stream, and of its value regions. -/
def DecStream.frameBlocks (d : DecStream) : Nat := bufferBlocks (d.cols * d.rowsN) d.grid.chroma d.grid.depth
/-- R143, R237: pool blocks of a check copy or hold store. -/
def DecStream.valueBlocks (d : DecStream) : Nat := bufferBlocks d.cfg.valueTiles d.grid.chroma d.grid.depth

/-- R144: a free descriptor for a frame buffer of stream `i`. -/
def State.freeFrame (s : State) (i : Nat) : Option Nat := s.freeDesc (s.decS i).cfg.part (s.decS i).frameBlocks

/-- R143: stream `i` has a frame buffer left of its DPB_MAX + 1. -/
def State.frameRoom (i : Nat) (s : State) : Bool :=
  decide ((s.decS i).frames.length ≤ (s.decS i).cfg.dpbMax) && (s.freeFrame i).isSome

/-- R144: a frame buffer for a picture of stream `i`; while none is free, nothing is taken. -/
def State.newFrame (i : Nat) (f : FrameBuf) (s : State) : State :=
  match s.freeFrame i with
  | none => s
  | some b =>
    if !s.frameRoom i then s
    else
      ((s.claimDesc 0 (s.decS i).cfg.part i (s.decS i).frameBlocks b).modPoolD b (fun p => { p with
        out := !f.gen, cur := !f.gen, rowsDone := BitVec.ofNat 16 f.rowsDone.length, tainted := BitVec.ofNat 16 f.taint.length
        order := f.poc })).modDecS i (fun d => { d with frames := (d.frames.drop b).insertAt b f })

/-- Update of a frame buffer; TAINTED and ROWS_DONE follow. -/
def State.modFrame (i b : Nat) (f : FrameBuf → FrameBuf) (s : State) : State :=
  let x := f ((s.decS i).frame b)
  (s.modDecS i (fun d => { d with frames := d.frames.map (fun p => if p.1 = b then (b, x) else p) })).modPoolD b
    (fun p => { p with rowsDone := BitVec.ofNat 16 x.rowsDone.length, tainted := BitVec.ofNat 16 x.taint.length })

/-- R143: the hold store and the two check copies of a stream that carries records take their descriptors. -/
def State.claimBuffers (i : Nat) (s : State) : State :=
  let c := (s.decS i).cfg
  if c.foreign then s
  else s.each [(2 : BitVec 2), 1, 1] (fun k s =>
    let n := (s.decS i).valueBlocks
    match s.freeDesc c.part n with
    | none => s
    | some b => (s.claimDesc k c.part i n b).modDecS i (fun d => { d with buffers := d.buffers ++ [b] }))

/-- R143: a stream gives its hold store and check copies back. -/
def State.freeBuffers (i : Nat) (s : State) : State :=
  (s.each (s.decS i).buffers (fun b => State.modPoolD b (fun p => { p with ref := false, cur := false }))).modDecS i
    (fun d => { d with buffers := [] })

/-- R144: the check copy of picture `n` is being written, and the other is not. -/
def State.turnCopies (i n : Nat) (poc : BitVec 32) (s : State) : State :=
  match (s.decS i).buffers with
  | [_, a, b] =>
    let (now, old) := if n % 2 = 0 then (a, b) else (b, a)
    (s.modPoolD now (fun p => { p with cur := true, order := poc, rowsDone := 0, tainted := 0 })).modPoolD old (fun p => { p with cur := false })
  | _ => s

/-- R156: a generated reference: mid-grey with every tile tainted, in the frame buffer and, unless the picture before is another one
that is there, in its check copy. -/
def State.generate (i n : Nat) (poc : BitVec 32) (order : Nat) (s : State) : State :=
  let d := s.decS i
  let s := s.newFrame i ⟨0, poc, order, [], List.range (d.cols * d.rowsN), [], true, true⟩
  let here := d.frames.any (fun f => f.2.pic + 1 == n && !f.2.gen && f.2.order != order)
  let tiles := if here then [] else (List.range (d.cols * d.rowsN)).filter (fun t => inRegions d.regions (t % d.cols) (t / d.cols))
  s.modDecS i (fun d => tiles.foldl (fun d t =>
    let k := copyKey (n + 1) t
    { d with chkCopy := (Tbl.drop d.chkCopy k).insertAt k (greyTile d.grid (t % d.cols) (t / d.cols))
             chkTaint := k :: d.chkTaint.filter (· != k) }) d)

/-! Output order (R129, R145). -/

/-- R129: the reorder depth: of the SPS, or MaxDpbFrames of the level where an H.264 stream gives none. -/
def DecStream.reorderDepth (d : DecStream) : Nat :=
  d.grid.reorder.getD (if d.cfg.h264 then d.grid.maxDpb else 0)

/-- R129: a picture has been output: of its coded video sequence, as many pictures as the reorder depth follow it in output
order, or a later sequence has begun. -/
def DecStream.eligible (d : DecStream) (f : FrameBuf) : Bool :=
  !f.gen && (decide (f.order / 2 ^ 32 < d.epoch) ||
    decide (d.reorderDepth ≤ (d.frames.filter (fun p => !p.2.gen && decide (f.order < p.2.order))).length))

/-- R16, R129, R145: the frame buffer of a picture in decoding, if the stream still has it, has been output. -/
def DecStream.isOut (d : DecStream) (p : DecPic) : Bool :=
  d.reorderDepth == 0 || (d.frames.all (fun f => f.2.pic != p.num || f.2.gen || d.eligible f.2))

/-- The newest in output order of the frame buffers that satisfy `p`, with its descriptor. -/
def DecStream.newest (d : DecStream) (p : FrameBuf → Bool) : Option (Nat × FrameBuf) :=
  d.frames.foldl (fun best x => if p x.2 && best.all (fun b => decide (b.2.order < x.2.order)) then some x else best) none

/-- R145: the newest picture in output order whose complete rows cover luma line `y`. -/
def DecStream.rowFrame (d : DecStream) (y : Nat) : Option (Nat × FrameBuf) :=
  d.newest (fun f => d.eligible f && f.rowsDone.contains (y / d.grid.ctu))

/-- R145: pictures that a newer one with every row complete replaces lose OUT. -/
def State.outputOrder (i : Nat) (s : State) : State :=
  match (s.decS i).newest (fun f => f.whole && (s.decS i).eligible f) with
  | none => s
  | some m =>
    ((s.eachFrame i (fun f => decide (f.order < m.2.order)) (fun x => { x with out := false })).modDecS i
      (fun d => { d with shown := some m.1 })).dropFrames i

/-! Tile events (R74, R75, R140, R147, R153). -/

/-- R73: codes of CAUSE. -/
def Cause.code : Cause → Nat
  | .none => 0
  | .crc => 1
  | .dual => 2
  | .drift => 3
  | .future => 4
  | .record => 5
  | .join => 6
  | .loss => 7

/-- R153: a tile's taint bits are cleared in the frame buffer and the check copy of picture `n`. -/
def State.untaint (i n b t : Nat) (s : State) : State :=
  (s.modFrame i b (fun f => { f with taint := f.taint.filter (· != t) })).modDecS i
    (fun d => { d with chkTaint := d.chkTaint.filter (· != copyKey n t) })

/-- R140: the check core's samples of a tile enter the hold store; HM follows a match. -/
def DecStream.holdWrite (d : DecStream) (n : Nat) (x : Samples) (matched : Bool) : DecStream :=
  { d with hold := d.hold.put noSamples n x, hm := if matched && !d.hm.contains n then n :: d.hm else d.hm }

/-- R140, R151: what the hold store takes of a value tile's results: content whose comparison set matched, or, before any
such content, what both cores agree on. HM is set by every match (DEDUCED, log entry 136). -/
def DecStream.holdTake (d : DecStream) (n : Nat) (matched : Bool) (p c : TileOut) : DecStream :=
  if matched then d.holdWrite n c.smp true
  else if !d.hm.contains n && p.crc == c.crc && !(p.lost || c.lost || p.tainted || c.tainted) then d.holdWrite n c.smp false
  else d

/-- R74, R75, R147: the event of a tile of a ledger stream: its entry, the segment's record, the primary's and, for a
value tile, the check core's result. The flag says that its comparison set matched a CHANGED or RESENT record. -/
def tileEventOf (h : SegHead) (t : SegTile) (e : TileEntry) (p : TileOut) (k : Option TileOut) : TileEvent × Bool :=
  let chk := k.map (·.crc)
  let want := expectedCrc t e
  let good := setMatches p.crc chk want
  let fresh := good && codeHasEntry t.code
  let lost := p.lost || (k.map (·.lost)).getD false
  let tainted := p.tainted || (k.map (·.tainted)).getD false
  let excused := if k.isSome then good else fresh
  if lost || (tainted && !excused) then (.loss, false)
  else (.record t.code h.attest good (if good then .none else mismatchCause t.code p.crc chk want) t.crc (statedTime h t), fresh)

/-- R75, R147: the event of a tile whose record is missing; the comparison set of a value tile is that of its two cores
(DEDUCED, log entry 136). -/
def tileEventBare (p : TileOut) (k : Option TileOut) : TileEvent :=
  match k with
  | none => if p.lost || p.tainted then .loss else .noSegment (some p.crc)
  | some c =>
    if p.lost || c.lost || ((p.tainted || c.tainted) && p.crc != c.crc) then .loss
    else .noSegment (if p.crc = c.crc then some p.crc else none)

/-- R75, R86: an event reaches a tile's entry; what it enters is noted for TILE_SUSPECT and TILE_LOST. -/
def State.applyTile (i n tile : Nat) (pc : BitVec 32) (v : TileEvent) (s : State) : State :=
  let old := s.tile i tile
  let new := old.picEvent pc v
  (s.modTile i tile (fun _ => new)).modPic i n (fun p => { p with
    suspects := if new.cond = .suspect ∧ old.cond ≠ .suspect then p.suspects ++ [(new.cause, tile)] else p.suspects
    losses := if new.cond = .lost ∧ old.cond ≠ .lost then p.losses ++ [tile] else p.losses })

/-- R152: a tile of a foreign stream. -/
def State.applyForeign (i n tile : Nat) (pc : BitVec 32) (arrival : T48) (p : TileOut) (s : State) : State :=
  if p.lost || p.tainted then s.applyTile i n tile pc .loss
  else s.modTile i tile (fun e => { (e.become .verified .none) with tAtt := arrival, tv := true })

/-- R140, R74, R75: one tile of row `r` of a picture of a stream that carries records. A tile that is in a value region without a
check core having decoded it, since only its own picture's segment put it there, shows a content that its record matches (R77). -/
def State.applyLedger (i n r : Nat) (pc : BitVec 32) (p : TileOut) (k : Option TileOut) (s : State) : State :=
  let d := s.decS i
  let pic := d.pic n
  let tile := r * d.cols + p.col
  let x := match (pic.rowRec r).seg, pic.head with
    | .valid ts, some h => tileEventOf h (ts.getD p.col ⟨0, 0, 0⟩) (s.tile i tile) p k
    | _, _ => (tileEventBare p k, false)
  let good := match x.1 with
    | .record _ _ m _ _ _ => m
    | _ => false
  let s := s.applyTile i n tile pc x.1
  let s := if x.2 then s.untaint i n pic.buf tile else s
  match k with
  | none => if x.2 && (s.tile i tile).value then s.modDecS i (fun d => d.holdWrite tile p.smp true) else s
  | some c => s.modDecS i (fun d => d.holdTake tile good p c)

/-- R73: PIC_COUNT of a picture; where no segment gave one it is a free value (log entry 28). -/
def State.picCountOf (s : State) (p : DecPic) : BitVec 32 := p.picCount.getD (Config.freeWord s.freeCtr)

/-- R86: TILE_SUSPECT for each cause and TILE_LOST of a picture's tiles, and R149's errors, as the picture is done. -/
def State.flushPic (i : Nat) (p : DecPic) (s : State) : State :=
  let cols := (s.decS i).cols
  let pc := s.picCountOf p
  let s := if p.picCount.isNone && !(p.suspects.isEmpty && p.losses.isEmpty) then s.tickFree else s
  let s := s.each (p.suspects.map (·.1)).eraseDups (fun c s =>
    let ts := (p.suspects.filter (fun x => x.1 == c)).map (·.2)
    s.ledgerEvent .tileSuspect i pc [i16 c.code, i32 ts.length, tileItem cols (ts.headD 0)])
  let s := match p.losses with
    | [] => s
    | t :: _ => s.ledgerEvent .tileLost i pc [i32 p.losses.length, tileItem cols t]
  s.each (errGroups p.errs) (State.raiseError i (some p.poc))

/-- R86, R148, R164: every tile of stream `i` is not decodable, by no picture in the list. -/
def State.loseAll (i : Nat) (s : State) : State :=
  let d := s.decS i
  let pc := Config.freeWord s.freeCtr
  let tiles := List.range (d.cols * d.rowsN)
  let lost := tiles.filter (fun t => (s.tile i t).cond != .lost)
  match lost with
  | [] => s
  | t :: _ =>
    (((s.each lost (fun t => State.modTile i t (TileEntry.picEvent pc .loss)))).tickFree).ledgerEvent .tileLost i pc
      [i32 lost.length, tileItem d.cols t]

/-- R78: every older picture has had its events of a row applied. -/
def DecStream.olderDone (d : DecStream) (n r : Nat) : Bool :=
  d.pics.all (fun p => decide (n ≤ p.num) || ((p.rowRec r).video && (p.rowRec r).value))

/-- R59: the row's segment is known, or the stream carries none. -/
def RowRec.segKnown (x : RowRec) (foreign : Bool) : Bool := foreign || x.seg != .waiting

/-- R87: LAST_PIC of the ledger status follows a picture that is applied; one without a PIC_COUNT leaves it as it stands
(DESIGN CHOICE, log entry 190). -/
def State.ledgerApplied (i : Nat) (p : DecPic) (s : State) : State :=
  match p.picCount with
  | some c => s.modDecS i (fun d => { d with ledLast := c })
  | none => s.tickFree

/-- R75, R78: the tiles of row `r` that enter a value region with a picture take their event. -/
def State.applyEnters (i n r : Nat) (s : State) : State :=
  let d := s.decS i
  let p := d.pic n
  (s.each (p.rowRec r).enters (fun c => State.applyTile i n (r * d.cols + c) (s.picCountOf p) .join)).modRow i n r
    (fun x => { x with enters := [] })

/-- R16: row `r` of a foreign stream's reordered picture `n` is not what the compositor shows: a picture later in output order is. -/
def DecStream.overshown (d : DecStream) (n r : Nat) : Bool :=
  d.cfg.foreign && d.reorderDepth != 0 && (d.rowFrame (64 * r)).all (fun f => f.2.pic != n)

/-- R75, R84, R151: the events of the video tiles of row `r`; tiles that left their value regions with the picture are shown from it from
here on. -/
def State.settleVideo (i n r : Nat) (s : State) : State :=
  let d := s.decS i
  let pic := d.pic n
  let x := pic.rowRec r
  let pc := s.picCountOf pic
  let plain := x.prim.filter (fun t => !x.vals.contains t.col)
  let s := if d.overshown n r then s else s.each plain (fun t =>
    if d.cfg.foreign then State.applyForeign i n (r * d.cols + t.col) pc pic.arrival t else State.applyLedger i n r pc t none)
  let s := s.modDecS i (fun d => { d with leaving := d.leaving.filter (fun x => x.1 / d.cols != r || decide (n < x.2)) })
  (s.modRow i n r (fun x => { x with video := true })).ledgerApplied i pic

/-- R140, R141: the events of the value tiles of row `r`, once the check core is in; without one they take no event. -/
def State.settleValue (i n r : Nat) (s : State) : State :=
  let pic := (s.decS i).pic n
  let x := pic.rowRec r
  if x.vals.isEmpty || x.noCheck then s.modRow i n r (fun x => { x with value := true })
  else if x.chkDone then
    let pc := s.picCountOf pic
    let pairs := x.chk.filterMap (fun c => (x.prim.find? (fun p => p.col == c.col)).map (fun p => (p, c)))
    let s := s.each pairs (fun q => State.applyLedger i n r pc q.1 (some q.2))
    (s.modRow i n r (fun x => { x with value := true })).ledgerApplied i pic
  else s

/-- R75, R78: the events of row `r` of a picture that are due: those of older pictures come first, and a tile's entry into a value
region before the same picture's other event (DESIGN CHOICE, log entry 191). The events of a stream with reordering wait for the
picture's output, and those of a foreign one keep its output order (R16; DEDUCED, log entry 192). -/
def State.settleRow (i n r : Nat) (s : State) : State :=
  let d := s.decS i
  let first := (d.cfg.foreign && d.reorderDepth != 0) || d.olderDone n r
  if !first || !d.isOut (d.pic n) then s
  else
    let s := if (((s.decS i).pic n).rowRec r).enters.isEmpty then s else s.applyEnters i n r
    let x := ((s.decS i).pic n).rowRec r
    if !(x.primDone && x.segKnown (s.decS i).cfg.foreign) then s
    else
      let s := if x.video then s else s.settleVideo i n r
      if x.value then s else s.settleValue i n r

/-- R126: tile rows of the active grid. -/
def DecStream.tileRows (d : DecStream) : List Nat := List.range d.rowsN

/-- R78: every row of a picture has been applied and its access unit has ended. -/
def DecStream.picDone (d : DecStream) (p : DecPic) : Bool :=
  p.ended && d.tileRows.all (fun r => (p.rowRec r).primDone && (p.rowRec r).video && (p.rowRec r).value)

/-- R78: every event that is due is applied, in decode order; pictures that are done leave the list. -/
def State.settle (i : Nat) (s : State) : State :=
  let s := s.each ((s.decS i).pics.map (·.num)) (fun n s => s.each (s.decS i).tileRows (fun r => State.settleRow i n r))
  let gone := (s.decS i).pics.filter (s.decS i).picDone
  (s.each gone (State.flushPic i)).modDecS i (fun d => { d with pics := d.pics.filter (fun p => !d.picDone p) })

/-! Stream contexts (R79, R143, R157). -/

/-- R75, R79, R86: every tile of stream `i` takes the event of a start; TILE_LOST follows where tiles enter LOST, with a free
PIC_COUNT since no picture causes it (log entry 28). -/
def State.startTiles (i : Nat) (s : State) : State :=
  let lost := s.cmp.tiles.filter (fun p => p.1 / 65536 == i && p.2.cond != .lost)
  let f (k : Nat) (e : TileEntry) : TileEntry := if k / 65536 = i then { e.event .start with value := false } else e
  let s := s.modCmp (fun c => { c with tiles := c.tiles.mapAll TileEntry.reset f })
  match lost with
  | [] => s
  | p :: _ => s.tickFree.ledgerEvent .tileLost i (Config.freeWord s.freeCtr)
      [i32 lost.length, tileItem (s.decS i).cols (p.1 % 65536)]

/-- R131: the tasks of stream `i` are dropped everywhere, with their marks. -/
def State.dropTasks (i : Nat) (s : State) : State :=
  let gone := (s.blw.tasks.filter (fun p => p.2.stream == i)).map (·.1)
  let s := s.modDecS i (fun d => { d with marks := [], coresUsed := 0 })
  if gone.isEmpty then s else
  let s := s.modBlw (fun b => { b with
    tasks := b.tasks.filter (fun p => p.2.stream != i)
    bays := b.bays.mapAll Bay.reset (fun _ y => { y with tasks := y.tasks.filter (fun n => !gone.contains n) }) })
  s.modCores (fun t => t.mapAll CoreS.reset (fun _ c => { c with tasks := c.tasks.filter (fun n => !gone.contains n) }))

/-- R143, R79: the hold store, check copies and regions of a context return to their start; its pictures go, and what they
have raised nothing for yet is raised. -/
def State.clearContext (i : Nat) (s : State) : State :=
  let s := s.each (s.decS i).pics (State.flushPic i)
  let s := s.eachFrame i (fun _ => true) (fun p => { p with ref := false, out := false, cur := false })
  (s.modDecS i (fun d => { d with
    pics := [], frames := [], shown := none, hold := [], hm := [], chkCopy := [], chkTaint := []
    regions := [], stepped := false, team := [], leaving := [], rpsNow := [] })).startTiles i

/-- R256: the bitstream ring of stream `i` takes its pool blocks in the partition's share. -/
def State.claimRing (i : Nat) (s : State) : State :=
  let d := s.decS i
  if d.ringBase.isSome then s
  else s.modDecS i (fun x => { x with ringBase := s.room d.cfg.part (ringBlocks d.cfg) })

/-- R157, R79, R143: a stream context is started, or rejoined keeping its parameter sets, and enters WAITING. -/
def State.startStream (i : Nat) (keep : Bool) (s : State) : State :=
  s.withLedger i (State.withStatus i (fun s =>
    ((((s.dropTasks i).clearContext i).freeBuffers i).modDecS i (fun d => { d with
      st := .waiting, params := if keep then d.params else [], sps := none, recoverAt := none
      failed := [], noRasl := false, auErrs := [], auPend := [], auBad := false, auSkip := false, skipNow := 0
      dualNow := false, noDual := false })).claimRing i))

end Sys2Proof.Machine
end

