-- ==== Sys2Proof/Machine/Decoder.lean ====
section
/-! DEFINITION. Decoding: rows and their tasks, dual decode, the bitstream queue, parameter sets, slices, Berris segments, the
end of an access unit, and skipping (R59, R125 to R160). -/

namespace Sys2Proof.Machine

/-! The pictures' grids. -/

/-- R134: an SPS whose stream carries more than 2.0 Gpixel/s or 2.0 Gbit/s. -/
def heavySps (p : ParamSet) : Bool := decide (2000000000 < p.rate) || decide (2000000000 < p.bitRate)

/-- R128, R134: the stream is decoded on several cores. -/
def DecStream.splitNow (d : DecStream) : Bool := !d.cfg.h264 && d.cfg.split != .none && d.sps.any heavySps

/-- CTUs of a row of the active grid. -/
def DecStream.ctuCols (d : DecStream) : Nat := (d.grid.width + d.grid.ctu - 1) / d.grid.ctu

/-- R135: the HEVC tile columns into which a picture's rows are cut. -/
def DecStream.pieces (d : DecStream) (p : DecPic) : Nat :=
  if d.splitNow && d.cfg.split == .tiles then max 1 p.colW.length else 1

/-- R133: the first CTU column of a task and the number of its columns. -/
def DecStream.taskCols (d : DecStream) (p : DecPic) (tile : Nat) : Nat × Nat :=
  if d.pieces p = 1 then (0, d.ctuCols) else ((p.colW.take tile).sum, p.colW.getD tile 0)

/-- CTUs of a picture of the active grid. -/
def DecStream.ctuCount (d : DecStream) (p : DecPic) : Nat := d.ctuCols * p.ctuRows

/-- R145: the place of a picture order count in output order. -/
def orderOf (epoch : Nat) (poc : BitVec 32) : Nat := epoch * 2 ^ 32 + (poc ^^^ 0x80000000).toNat

/-! Rows (R131, R132, R138 to R140, R144 to R151). -/

/-- R137: the columns of tile row `r` that lie in value regions. -/
def DecStream.valueCols (d : DecStream) (regs : List Rect) (r : Nat) : List Nat :=
  if d.cfg.foreign then [] else (List.range d.cols).filter (fun c => inRegions regs c r)

/-- R137: the value tiles of a row are fixed, as its decode begins: for row 0 by the previous picture's last segment. -/
def State.fixRow (i n r : Nat) (s : State) : State :=
  let d := s.decS i
  let regs := if r = 0 then (d.pic n).regions0 else d.regions
  s.modRow i n r (fun x => if x.fixed then x else { x with fixed := true, regions := regs, vals := d.valueCols regs r })

/-- R144: the index of the HEVC tile row or column that holds a CTU row or column, by their sizes. -/
def tileRowOf (rowH : List Nat) (row : Nat) : Nat :=
  (((List.range rowH.length).filter (fun j => decide ((rowH.take (j + 1)).sum ≤ row))).length)

/-- R146: the primary task of a CTU is not complete. -/
def DecStream.pendingCtu (d : DecStream) (p : DecPic) (a : Nat) : Bool :=
  !p.done.contains (a / d.ctuCols, if d.pieces p = 1 then 0 else tileRowOf p.colW (a % d.ctuCols))

/-- R139, R146, R150, R151, R153: tile column `c` of row `r` of picture `n` as its primary has decoded it so far. -/
def DecStream.primTile (d : DecStream) (n r c : Nat) : TileOut :=
  let p := d.pic n
  let x := p.rowRec r
  let t := voidTile d.grid p.voids r ((x.res.find? (fun t => t.col == c)).getD (lostTile d.grid c r))
  tileOut d.grid (p.irap || p.exact) (d.readTaint t.reads || x.ue.contains c) (tileLost d.grid (d.pendingCtu p) r t) t
    (d.colocated p.order c r)

/-- R140, R146: tiles enter a frame buffer with their taint bits. -/
def FrameBuf.take (f : FrameBuf) (cols r : Nat) (out : List TileOut) : FrameBuf :=
  out.foldl (fun f t =>
    let tile := r * cols + t.col
    { f with tiles := (f.tiles.drop tile).insertAt tile t.smp
             taint := if t.tainted then tile :: f.taint.filter (· != tile) else f.taint.filter (· != tile) }) f

/-- R140, R150: the primary's tiles of some columns of a row enter the frame buffer. -/
def State.writeTiles (i n r : Nat) (cs : List Nat) (s : State) : State :=
  let d := s.decS i
  s.modFrame i (d.pic n).buf (fun f => f.take d.cols r (cs.map (d.primTile n r)))

/-- R140: the primary has completed a tile row. -/
def State.closeRow (i n r : Nat) (s : State) : State :=
  let cs := List.range (s.decS i).cols
  let s := (s.fixRow i n r).writeTiles i n r cs
  let d := s.decS i
  s.modRow i n r (fun x => { x with prim := cs.map (d.primTile n r), primDone := true })

/-- R138: CTU `a` lies in a slice that the check core decodes: one whose first CTU lies in a value region. -/
def DecStream.checked (d : DecStream) (p : DecPic) (regs : List Rect) (a : Nat) : Bool :=
  p.slices.any (fun s => decide (s.1 ≤ a) && decide (a < s.1 + s.2) && inRegions regs (s.1 % d.ctuCols) (s.1 / d.ctuCols))

/-- R138, R146, R151: value tile column `c` of row `r` of picture `n` as its check core has decoded it; what is missing, as it is of the
slices that it passes over, is filled from the check copy of the picture before. -/
def DecStream.chkTile (d : DecStream) (n r c : Nat) : TileOut :=
  let p := d.pic n
  let x := p.rowRec r
  let t := voidTile d.grid p.voids r ((x.chkRes.find? (fun t => t.col == c)).getD (lostTile d.grid c r))
  let t := dropCtus d.grid (fun a => !d.checked p x.regions a) r t
  let own := d.chkCopy.look noSamples (copyKey (n + 1) (r * d.cols + c))
  tileOut d.grid (p.irap || p.exact) (d.checkTaint n t.reads || x.chkUe.contains c) (tileLost d.grid (fun _ => false) r t) t
    (if own = noSamples then d.colocated p.order c r else own)

/-- R138, R146: a tile enters the check copy of picture `n`. -/
def DecStream.copyTake (d : DecStream) (n tile : Nat) (x : Samples) (tainted : Bool) : DecStream :=
  let k := copyKey n tile
  { d with chkCopy := (Tbl.drop d.chkCopy k).insertAt k x
           chkTaint := if tainted then k :: d.chkTaint.filter (· != k) else d.chkTaint.filter (· != k) }

/-- R141, R151: the value tiles of a row without a check core are filled from the check copy of the picture before, and tainted. -/
def State.carryCopies (i n r : Nat) (s : State) : State :=
  let x := ((s.decS i).pic n).rowRec r
  s.modDecS i (fun d => x.vals.foldl (fun d c =>
    let tile := r * d.cols + c
    let own := d.chkCopy.look noSamples (copyKey (n + 1) tile)
    if own = noSamples then d else d.copyTake n tile own true) d)

/-- R144: ROWS_DONE and TAINTED of the check copy of picture `n`: the rows whose value tiles are in, and the tainted tiles. -/
def State.markCopy (i n : Nat) (s : State) : State :=
  let d := s.decS i
  let rows := ((d.pic n).rows.filter (fun x => x.2.chkDone)).length
  let bad := (d.chkTaint.filter (fun k => k / 65536 == n % 2)).length
  match d.buffers with
  | [_, a, b] => s.modPoolD (if n % 2 = 0 then a else b) (fun p => { p with rowsDone := BitVec.ofNat 16 rows, tainted := BitVec.ofNat 16 bad })
  | _ => s

/-- R138, R139, R140: the check core's results of a row are in: they enter the check copy and, where a slice violates R139,
the primary's tiles lose its CTUs too. -/
def State.closeCheck (i n r : Nat) (s : State) : State :=
  let d := s.decS i
  let x := (d.pic n).rowRec r
  if !x.primDone || x.chkDone || x.chkOpen != 0 || x.vals.isEmpty then s
  else if x.noCheck then ((s.carryCopies i n r).modRow i n r (fun x => { x with chkDone := true })).markCopy i n
  else
    let s := if (d.pic n).voids.isEmpty then s else s.closeRow i n r
    let out := x.vals.map ((s.decS i).chkTile n r)
    let s := s.modDecS i (fun d => out.foldl (fun d t => d.copyTake n (r * d.cols + t.col) t.smp t.tainted) d)
    (s.modRow i n r (fun x => { x with chk := out, chkDone := true })).markCopy i n

/-- R144, R156: the frame buffers that no picture in decoding refers to, and that are not of the newest picture's reference picture set,
lose REF. -/
def State.keepRefs (i : Nat) (s : State) : State :=
  let d := s.decS i
  let busy := d.pics.filter (fun p => !d.frames.any (fun f => f.2.pic == p.num && !f.2.gen && f.2.whole))
  let keep := d.rpsNow ++ busy.flatMap (fun p => p.order :: p.refs.map (orderOf (p.order / 2 ^ 32)))
  (s.eachFrame i (fun f => !keep.contains f.order) (fun p => { p with ref := false })).dropFrames i

/-- R144: every primary task of a CTU row is complete, for each tile column of the picture. -/
def DecStream.rowComplete (d : DecStream) (p : DecPic) (row : Nat) : Bool :=
  (List.range (d.pieces p)).all (fun c => p.done.contains (row, c))

/-- R145, R159: every row of a picture is complete. -/
def State.picComplete (i n : Nat) (s : State) : State :=
  let p := (s.decS i).pic n
  let s := (s.modPoolD p.buf (fun x => { x with cur := false })).modFrame i p.buf (fun f => { f with whole := true })
  ((s.modDecS i (fun d => { d with pictures := d.pictures + 1, late := !p.lateRows.isEmpty })).keepRefs i).outputOrder i

/-- R131, R144: a CTU row of a primary may be complete: ROWS_DONE counts it, and its tile row may be complete. -/
def State.rowFinished (i n row : Nat) (s : State) : State :=
  let d := s.decS i
  let p := d.pic n
  if d.rowComplete p row && !(d.frame p.buf).rowsDone.contains row then
    let r := row * p.ctu / 64
    let mine := (List.range p.ctuRows).filter (fun j => j * p.ctu / 64 == r)
    let s := if mine.all (fun j => j == row || (d.frame p.buf).rowsDone.contains j) then (s.closeRow i n r).closeCheck i n r else s
    let s := (s.modFrame i p.buf (fun f => { f with rowsDone := row :: f.rowsDone })).eventAt (s.readsStream i) 34
    if ((s.decS i).frame p.buf).rowsDone.length = p.ctuRows then s.picComplete i n else s
  else s

/-- R133, R148: the CTUs of a task are not decoded: what is missing of its row is concealed. -/
def State.pieceLost (i n : Nat) (k : Nat × Nat) (s : State) : State :=
  let d := s.decS i
  let p := d.pic n
  let r := k.1 * p.ctu / 64
  ((s.modPic i n (fun p => { p with done := p.done ++ [k] })).writeTiles i n r (List.range d.cols)).rowFinished i n k.1

/-! Row tasks (R131, R133 to R137). -/

/-- R159: the primary cores that run tasks of stream `i`. -/
def State.coresOf (s : State) (i : Nat) : List Nat :=
  ((s.blw.tasks.filter (fun p => p.2.stream == i && !p.2.check)).filterMap (·.2.core)).dedup

/-- R159: CORES follows the tasks in flight. -/
def State.countCores (i : Nat) (s : State) : State :=
  s.modDecS i (fun d => { d with coresUsed := BitVec.ofNat 4 (s.coresOf i).length })

/-- R131: a task leaves; its mark is released when no other task of its stream holds it. -/
def State.endTask (n : Nat) (s : State) : State :=
  match s.task n with
  | none => s
  | some t =>
    let s := s.modBlw (fun b => { b with tasks := b.tasks.filter (fun p => p.1 != n) })
    let s := s.modBay t.bay (fun y => { y with tasks := y.tasks.filter (· != n) })
    let s := match t.core with
      | some c => s.modCore c (fun x => { x with tasks := x.tasks.filter (· != n) })
      | none => s
    let s := if s.blw.tasks.any (fun p => p.2.stream == t.stream && p.2.mark == t.mark) then s
      else s.modDecS t.stream (fun d => { d with marks := d.marks.filter (· != t.mark) })
    s.countCores t.stream

/-- R131: a task is formed and waits at the dispatcher of its bay. -/
def State.addTask (t : RowTask) (s : State) : State :=
  let n := s.blw.nextTask
  (s.modBlw (fun b => { b with nextTask := n + 1, tasks := b.tasks ++ [(n, t)] })).modBay t.bay
    (fun y => { y with tasks := y.tasks ++ [n] })

/-- The tile row of a task. -/
def DecStream.tileRow (d : DecStream) (t : RowTask) : Nat := t.row * (d.pic t.pic).ctu / 64

/-- R133: a task has exhausted its re-issues: its CTUs are not decoded. -/
def State.giveUpTask (n : Nat) (t : RowTask) (s : State) : State :=
  let i := t.stream
  let d := s.decS i
  let (c0, w) := d.taskCols (d.pic t.pic) t.tile
  let s := (s.endTask n).decError i t.pic ⟨13, t.row * d.ctuCols + c0, w⟩ t.core
  let r := d.tileRow t
  (if t.check then (s.modRow i t.pic r (fun x => { x with chkOpen := x.chkOpen - 1 })).closeCheck i t.pic r
    else s.pieceLost i t.pic (t.row, t.tile)).settle i

/-- R133: a task is abandoned: it returns to its dispatcher, or on the third time its CTUs are not decoded. -/
def State.abandonTask (n : Nat) (s : State) : State :=
  match s.task n with
  | none => s
  | some t =>
    let s := s.modCore (t.core.getD 0) (fun x => { x with tasks := x.tasks.filter (· != n) })
    State.withLedger t.stream (State.withStatus t.stream (fun s =>
      if t.tries + 1 < 3 then
        ((s.modTask n (fun t => { t with tries := t.tries + 1, core := none, ue := [] })).modBay t.bay
          (fun y => { y with tasks := y.tasks ++ [n] })).countCores t.stream
      else s.giveUpTask n t)) s

/-- R133, R408: the tasks in flight on a core are abandoned. -/
def State.abandonCore (c : Nat) (s : State) : State := s.each (s.core c).tasks State.abandonTask

/-- R49: the first of two tasks, by deadline, class and stream. -/
def State.taskBefore (s : State) (a b : RowTask) : Bool :=
  let k (t : RowTask) : Nat × Nat × Nat := (t.deadline, (s.decS t.stream).cfg.cls.rank, t.stream)
  let thin (t : RowTask) : Bool := (s.decS t.stream).shed == some .thinned
  let (a1, a2, a3) := k a
  let (b1, b2, b3) := k b
  if thin a != thin b then thin b else
  decide (a1 < b1) || (a1 == b1 && (decide (a2 < b2) || (a2 == b2 && decide (a3 < b3))))

/-- R135: ways of dividing HEVC tiles among cores: the CTUs of each core, and the cores of the tiles so far in scan order. -/
abbrev Shares := List (List Nat × List Nat)

/-- R135: one way for each division of the CTUs, the first by tile scan order. -/
def Shares.distinct (xs : Shares) : Shares :=
  xs.foldl (fun acc x => if acc.any (fun y => y.1 == x.1) then acc else acc ++ [x]) []

/-- R135: the ways of dividing tiles of the given sizes among cores. -/
def sharesOf (cores : Nat) (sizes : List Nat) : Shares :=
  sizes.foldl (fun acc w => Shares.distinct (acc.flatMap (fun x =>
    (List.range cores).map (fun k => (x.1.set k (x.1.getD k 0 + w), x.2 ++ [k]))))) [(List.replicate cores 0, [])]

/-- R135: the first of two divisions is more even: its greatest share is less, or is equal and its least share greater. -/
def evener (a b : List Nat) : Bool :=
  let hi (x : List Nat) : Nat := x.foldl max 0
  let lo (x : List Nat) : Nat := x.foldl min (x.headD 0)
  decide (hi a < hi b) || (hi a == hi b && decide (lo b < lo a))

/-- R135: the HEVC tiles of a picture, in scan order, with the number among the stream's cores that decodes each: the division
whose CTU counts are as even as whole tiles allow, the first by tile scan order among equals. -/
def tileShare (colW rowH : List Nat) (cores : Nat) : List (Nat × Nat) :=
  let xs := sharesOf (max 1 cores) (rowH.flatMap (fun h => colW.map (fun w => w * h)))
  let best := xs.foldl (fun b x => if evener x.1 b.1 then x else b) (xs.headD ([], []))
  best.2.zipIdx.map (fun q => (q.2, q.1))

/-- R134 to R136: the number among the stream's cores of the core that a primary task is for. -/
def DecStream.slotOf (d : DecStream) (t : RowTask) : Nat :=
  let p := d.pic t.pic
  if !d.splitNow then 0
  else match d.cfg.split with
    | .none => 0
    | .wpp => if p.ctuRows < 4 then 0 else t.row % (max 1 (min 4 d.cfg.cores))
    | .tiles => ((tileShare p.colW p.rowH d.cfg.cores).find? (fun q =>
        q.1 == tileRowOf p.rowH t.row * p.colW.length + t.tile)).elim 0 (·.2)

/-- R136: under WPP, a row waits until the row above it has completed 2 CTUs, which of one in flight is a free value (log entry 194),
and at most four rows are in flight. -/
def State.waveAllows (s : State) (t : RowTask) : Bool :=
  let d := s.decS t.stream
  let p := d.pic t.pic
  let flying := (s.blw.tasks.filter (fun q => q.2.stream == t.stream && !q.2.check && q.2.core.isSome)).map (fun q => (q.2.pic, q.2.row))
  !(d.splitNow && d.cfg.split == .wpp) || decide (p.ctuRows < 4) ||
  (decide (flying.dedup.length < 4) &&
    (t.row == 0 || p.done.contains (t.row - 1, t.tile) || s.blw.tasks.any (fun q =>
      q.2.stream == t.stream && !q.2.check && q.2.core.isSome && q.2.pic == t.pic && q.2.row + 1 == t.row &&
      decide (q.2.issuedAt + Config.waveTime q.1 ≤ s.now))))

/-- R14, R211: a core that can take tasks of a partition in a role. -/
def State.canTake (s : State) (core : Nat) (role : CoreRole) (part : Nat) : Bool :=
  let c := s.core core
  !c.fenced && c.role == role && c.part == some part

/-- R133 to R136: a task may go to a core: the one that has its number in the stream, or one that has none; one that has been abandoned
to any. -/
def State.slotAllows (s : State) (t : RowTask) (core : Nat) : Bool :=
  let d := s.decS t.stream
  let k := d.slotOf t
  let usable (c : Nat) : Bool := decide (c / 8 = t.bay) && s.canTake c .decode d.cfg.part
  t.tries != 0 || match d.team.look none k with
  | some c => if usable c then c == core else d.team.all (fun q => q.1 == k || q.2 != some core)
  | none => d.team.all (fun q => q.2 != some core)

/-- R15: the other task of a primary and its check task, in the same bay. -/
def State.pairIn (s : State) (bay : Nat) (t : RowTask) : Bool :=
  s.blw.tasks.any (fun q => q.2.stream == t.stream && q.2.pic == t.pic && q.2.row == t.row && q.2.tile == t.tile && q.2.check != t.check &&
    q.2.bay == bay)

/-- R14, R15, R133, R137, R207, R301: a task may run on a core of the bay, once it is in C0. -/
def State.mayRun (s : State) (bay core : Nat) (t : RowTask) : Bool :=
  let c := s.core core
  decide (core / 8 = bay) && (s.decS t.stream).shed != some .stopped && !c.draining && !c.stalled &&
  s.batchAllows false t.stream t.pic core &&
  s.canTake core (if t.check then .check else .decode) (s.decS t.stream).cfg.part && decide (c.tasks.length < 1024) &&
  !s.pairIn bay t && (t.check || (s.slotAllows t core && s.waveAllows t))

/-- R14: the task that the dispatcher of a bay issues next to a core. -/
def State.nextTask (s : State) (bay core : Nat) : Option Nat :=
  ((s.bay bay).tasks.filterMap (fun n => (s.task n).map (fun t => (n, t)))).foldl (fun best x =>
    if !s.mayRun bay core x.2 then best
    else match best with
      | none => some x
      | some b => if s.taskBefore x.2 b.2 then some x else best) none |>.map (·.1)

/-- R137, R142: a bay has a check core of a partition in service. -/
def State.bayChecks (s : State) (b part : Nat) : Bool :=
  !(s.bay b).fenced && (List.range 8).any (fun j => s.canTake (8 * b + j) .check part)

/-- R137: the check bay of the stream's pairing, when it has a check core. -/
def State.checkReady (s : State) (i : Nat) : Option Nat :=
  (s.decS i).checkBay.filter (fun b => s.bayChecks b (s.decS i).cfg.part)

/-- R138: the check copy of a tile that has none is set from the primary's reconstruction in the reference picture. -/
def State.seedCopy (i n tile : Nat) (s : State) : State :=
  s.modDecS i (fun d =>
    if d.chkCopy.look noSamples (copyKey (n + 1) tile) ≠ noSamples then d
    else match (d.pic n).refs.head?.bind d.refOf with
      | some f => d.copyTake (n + 1) tile (f.tileAt d (tile % d.cols) (tile / d.cols)) (f.taint.contains tile)
      | none => d)

/-- R141: a row has no check core; DUAL_UNAVAILABLE is raised when the condition begins. -/
def State.noDualRow (i n r bay : Nat) (s : State) : State :=
  let s := s.modRow i n r (fun x => { x with noCheck := true })
  if (s.decS i).noDual then s
  else (s.modDecS i (fun d => { d with noDual := true, dualNow := false })).decEvent i n .dualUnavailable 0 [i16 bay]

/-- R137: the columns of a task's tile row that hold its value CTUs. -/
def DecStream.taskValues (d : DecStream) (t : RowTask) : List Nat :=
  let (c0, w) := d.taskCols (d.pic t.pic) t.tile
  ((d.pic t.pic).rowRec (d.tileRow t)).vals.filter (fun c =>
    decide (c0 * d.grid.ctu < 64 * (c + 1)) && decide (64 * c < (c0 + w) * d.grid.ctu))

/-- R137, R138, R141: as a primary's decode begins, its value tiles are fixed, and a check task with its mark and deadline is
formed or, with no check core available, the row is left without one. -/
def State.beginDual (t : RowTask) (s : State) : State :=
  let i := t.stream
  let r := (s.decS i).tileRow t
  let s := s.fixRow i t.pic r
  let vals := (s.decS i).taskValues t
  if vals.isEmpty || t.tries != 0 then s
  else match s.checkReady i with
    | some b =>
      let s := s.each vals (fun c s => s.seedCopy i t.pic (r * (s.decS i).cols + c))
      ((s.modDecS i (fun d => { d with noDual := false, dualNow := true })).modRow i t.pic r
        (fun x => { x with chkOpen := x.chkOpen + 1 })).addTask { t with check := true, bay := b, core := none, late := false, ue := [] }
    | none => s.noDualRow i t.pic r t.bay

/-- DECODE_TASK_ISSUE (R14, R133 to R137, R193, R210): the dispatcher of a bay issues its next task to a core, with event 32, or wakes the
core for it. -/
def execDecodeTaskIssue (bay core : Nat) (s : State) := ok (
  if !s.serving || (s.bay bay).fenced then s
  else match s.nextTask bay core with
    | none => s
    | some n => if (s.core core).pstate != .c0 then s.wakeCore core else match s.task n with
      | none => s
      | some t => State.withStatus t.stream (fun s =>
          let s := s.modBay bay (fun y => { y with tasks := y.tasks.filter (· != n) })
          let s := s.modCore core (fun c => { c with tasks := c.tasks ++ [n] })
          let s := s.modTask n (fun t => { t with core := some core, issuedAt := s.now })
          let k := (s.decS t.stream).slotOf t
          let s := if t.check then s
            else (s.beginDual t).modDecS t.stream (fun d => { d with team := d.team.put none k (some core) })
          (s.countCores t.stream).coreEvent core 32) s)

/-- R132: a reference row that a primary task reads is not complete: its thread stalls. -/
def DecStream.stalls (d : DecStream) (res : List TileRes) : Bool :=
  res.any (fun t => t.reads.any (fun x => match d.refOf x.poc with
    | some f => !f.whole && !f.rowsDone.contains x.row
    | none => false))

/-- R132: a row of the check copy of the picture before, which a check task reads, is not complete. -/
def DecStream.checkStalls (d : DecStream) (n : Nat) (res : List TileRes) : Bool :=
  res.any (fun t => t.reads.any (fun x => d.pics.any (fun p =>
    p.num + 1 == n && p.poc == x.poc &&
    (let y := p.rowRec (x.row * p.ctu / 64)
     !(y.primDone && (y.vals.isEmpty || y.noCheck || y.chkDone))))))

/-- R139: a value tile's decoding violates the test: a lossy coding unit, a read outside the co-located region, or one outside the
slice. -/
def violates (cols : Nat) (reg : Rect) (t : TileRes) : Bool :=
  t.lossy || t.strays || t.reads.any (fun x => !rectHas reg (x.tile % cols) (x.tile / cols))

/-- R139, class 0x0B: the slices of value tiles in a task's results that violate the test. -/
def DecStream.violations (d : DecStream) (n r : Nat) (res : List TileRes) : List DecErr :=
  let p := d.pic n
  let x := p.rowRec r
  (res.filter (fun t => x.vals.contains t.col && (x.regions.find? (fun g => rectHas g t.col r)).any (fun g => violates d.cols g t))).filterMap
    (fun t =>
      let a := r * d.ctuCols + t.col
      (p.slices.find? (fun s => decide (s.1 ≤ a) && decide (a < s.1 + s.2))).map (fun s => ⟨11, s.1, s.2⟩))

/-- R139: rows that are complete, and whose events are not all applied, lose the CTUs of violating slices. -/
def State.revoid (i n : Nat) (s : State) : State :=
  s.each (((s.decS i).pic n).rows.map (·.1)) (fun r s =>
    let x := ((s.decS i).pic n).rowRec r
    if !x.primDone || (x.video && x.value) then s
    else
      let s := s.closeRow i n r
      if x.chkDone && !x.noCheck then (s.modRow i n r (fun x => { x with chkDone := false })).closeCheck i n r else s)

/-- R139, R148, R149: the errors that a core finds in a task; the CTUs of a slice that violates R139 are not decoded. -/
def State.taskErrors (t : RowTask) (res : List TileRes) (errs : List DecErr) (s : State) : State :=
  let errs := (errs ++ (s.decS t.stream).violations t.pic ((s.decS t.stream).tileRow t) res).eraseDups
  let voids := (errs.filter (fun e => e.code == 11)).map (fun e => (e.first, e.count))
  let s := s.each errs (fun e => State.decError t.stream t.pic e t.core)
  if voids.isEmpty then s
  else (s.modPic t.stream t.pic (fun p => { p with voids := p.voids ++ voids })).revoid t.stream t.pic

/-- R131, R146, R149: a primary row task commits its tiles and errors. -/
def State.primaryDone (n : Nat) (t : RowTask) (res : List TileRes) (errs : List DecErr) (s : State) : State :=
  let i := t.stream
  let r := (s.decS i).tileRow t
  let s := (s.taskErrors t res errs).modRow i t.pic r (fun x => { x with res := mergeRes x.res res, ue := x.ue ++ t.ue })
  let s := (s.modPic i t.pic (fun p => { p with done := p.done ++ [(t.row, t.tile)] })).writeTiles i t.pic r (res.map (·.col))
  ((s.endTask n).rowFinished i t.pic t.row).settle i

/-- DECODE_ROW_COMPLETE (R132, R140, R144, R145); a task that reads a row not yet complete stalls and commits nothing. -/
def execDecodeRowComplete (n : Nat) (res : List TileRes) (errs : List DecErr) (s : State) := ok (
  match s.task n with
  | none => s
  | some t =>
    if t.check || t.core.isNone || (s.decS t.stream).stalls res then s
    else (State.withLedger t.stream (State.withStatus t.stream (State.primaryDone n t res errs)) s).patchStep)

/-- R138, R140: a check task commits its value tiles and errors. -/
def State.checkTaskDone (n : Nat) (t : RowTask) (res : List TileRes) (errs : List DecErr) (s : State) : State :=
  let i := t.stream
  let r := (s.decS i).tileRow t
  let s := (s.taskErrors t res errs).modRow i t.pic r (fun x => { x with
    chkRes := mergeRes x.chkRes res, chkUe := x.chkUe ++ t.ue, chkOpen := x.chkOpen - 1 })
  ((s.endTask n).closeCheck i t.pic r).settle i

/-- CHECK_TASK_COMPLETE (R132, R138 to R140). -/
def execCheckTaskComplete (n : Nat) (res : CheckResult) (s : State) := ok (
  match s.task n with
  | none => s
  | some t =>
    if !t.check || t.core.isNone || (s.decS t.stream).checkStalls t.pic res.tiles then s
    else (State.withLedger t.stream (State.withStatus t.stream (State.checkTaskDone n t res.tiles res.errs)) s).patchStep)

/-- R154, R159: a CTU row of a primary is late. -/
def State.rowLate (t : RowTask) (s : State) : State :=
  let i := t.stream
  let f := (s.raster t.raster).fmt
  let lines := (s.time - t.deadline) * (f.num * f.lt) / (f.den * sec)
  if ((s.decS i).pic t.pic).lateRows.contains t.row then s
  else ((s.modDecS i (fun d => { d with rowsLate := satInc d.rowsLate })).modPic i t.pic
    (fun p => { p with lateRows := p.lateRows ++ [t.row] })).decEvent i t.pic .decodeRowLate 0 [i32 t.row, i32 lines]

/-- DECODE_ROW_LATE (R154, R142, R377): a task misses its deadline and runs on. -/
def execDecodeRowLate (n : Nat) (s : State) := ok (
  match s.task n with
  | none => s
  | some t =>
    if t.late || decide (s.time ≤ t.deadline) then s
    else
      let s := (s.modTask n (fun t => { t with late := true })).latch (96 + t.bay)
      if t.check then s else State.withStatus t.stream (State.rowLate t) s)

/-- R142: a check task whose bay has no check core left is given up, and its row falls under R141. -/
def State.dropCheck (n : Nat) (t : RowTask) (s : State) : State :=
  let i := t.stream
  let r := (s.decS i).tileRow t
  State.withLedger i (State.withStatus i (fun s =>
    (((s.endTask n).modRow i t.pic r (fun x => { x with chkOpen := x.chkOpen - 1 })).noDualRow i t.pic r
      ((s.decS i).bay.getD (s.decS i).cfg.home)).closeCheck i t.pic r |>.settle i)) s

/-- R142: the check tasks whose bay has no check core left are given up. -/
def State.recheck (s : State) : State :=
  s.each (s.blw.tasks.filter (fun p => p.2.check && !s.bayChecks p.2.bay (s.decS p.2.stream).cfg.part))
    (fun p => State.dropCheck p.1 p.2)

/-! The bitstream queue (R130, R131). -/

/-- R131: bytes of the queue that are in use: from the oldest unreleased mark, or from the parser, to the end. -/
def DecStream.queueUsed (d : DecStream) : Nat := d.wptr - d.marks.foldl min d.rptr

/-- R130, R148: bytes are parsed off the front of the queue; the flag says that a gap marker was passed. -/
def takeItems (n : Nat) : List QItem → List QItem × Bool
  | [] => ([], false)
  | .bytes m a :: r => if n < m then (.bytes (m - n) a :: r, false)
      else if n = m then (r, false)
      else takeItems (n - m) r
  | .gap .. :: r => let (q, _) := takeItems n r; (q, true)
  | .eoa :: r => takeItems n r

/-- R130: an item is a gap marker. -/
def QItem.isGap : QItem → Bool
  | .gap .. => true
  | _ => false

/-- The bytes of an item. -/
def QItem.size : QItem → Nat
  | .bytes n _ => n
  | _ => 0

/-- R130: the rest of an access unit leaves the queue with its end mark: the bytes that it held, and whether a gap marker was
among them. -/
def dropUnit (q : List QItem) : Nat × Bool × List QItem :=
  if q.contains .eoa then
    let head := q.takeWhile (· != .eoa)
    ((head.map QItem.size).sum, head.any QItem.isGap, q.drop (head.length + 1))
  else (0, false, q)

/-- R84: the arrival time of the first bytes in a queue. -/
def headArrival (old : T48) : List QItem → T48
  | [] => old
  | .bytes _ a :: _ => a
  | _ :: r => headArrival old r

/-- R130: `n` bytes are parsed; the arrival time of the first of them is kept. -/
def State.parse (i n : Nat) (s : State) : State × Bool :=
  let (q, gap) := takeItems n (s.decS i).items
  (s.modDecS i (fun d => { d with items := q, rptr := d.rptr + n, arrival := headArrival d.arrival d.items }), gap)

/-! Parameter sets (R125 to R128, R134, R158). -/

/-- A retained parameter set. -/
def DecStream.param (d : DecStream) (kind id : Nat) : Option ParamSet := d.params.find? (fun p => p.kind == kind && p.id == id)

/-- A parameter set replaces the one of its kind and ID. -/
def DecStream.keepParam (d : DecStream) (p : ParamSet) : DecStream :=
  { d with params := d.params.filter (fun q => !(q.kind == p.kind && q.id == p.id)) ++ [p] }

/-- R134: a stream above 2.0 Gpixel/s or 2.0 Gbit/s is split as its configuration says. -/
def DecStream.splitOk (d : DecStream) (p : ParamSet) : Bool :=
  !heavySps p ||
  (let pps := d.params.filter (fun q => q.kind == 2)
   match d.cfg.split with
   | .none => false
   | .tiles => pps.all (fun q => decide (1 < q.colW.length * q.rowH.length))
   | .wpp => pps.all (fun q => q.wpp))

/-- R125: the chroma formats and bit depths of an HEVC profile. -/
def profileFits (p : ParamSet) (x : Profile) : Bool :=
  let depths (ok : Nat → Bool) : Bool := ok p.depth && (p.chroma == 0 || ok p.depthC)
  match x with
  | .main => p.chroma == 1 && depths (· == 8)
  | .main10 => p.chroma == 1 && depths (fun n => n == 8 || n == 10)
  | .main444 => decide (p.chroma ≤ 3) && depths (· == 8)
  | .main444x10 | .screen444x10 => decide (p.chroma ≤ 3) && depths (fun n => decide (8 ≤ n) && decide (n ≤ 10))
  | _ => false

/-- R128: the chroma formats of an H.264 profile. -/
def profileFitsAvc (p : ParamSet) (x : Profile) : Bool :=
  match x with
  | .baseline | .avcMain => p.chroma == 1
  | .high => decide (p.chroma ≤ 1)
  | _ => false

/-- R125 to R128: an SPS keeps to the standard's profiles and levels that the part accepts. -/
def DecStream.accepts (d : DecStream) (p : ParamSet) : Bool :=
  if d.cfg.h264 then
    decide (p.level ≤ 52) && p.frameMbsOnly && p.depth == 8 && (p.chroma == 0 || p.depthC == 8) && p.profiles.any (profileFitsAvc p)
  else decide (p.level ≤ 61) && (p.ctu == 16 || p.ctu == 32 || p.ctu == 64) && p.profiles.any (profileFits p)

/-- R126 to R128, R134: an SPS is accepted. -/
def DecStream.supports (d : DecStream) (p : ParamSet) : Bool :=
  let c := d.cfg
  d.accepts p && !p.fieldSeq && decide (p.width ≤ 8192) && decide (p.height ≤ 4320) &&
  decide (p.width ≤ c.maxW) && decide (p.height ≤ c.maxH) && decide (p.rate ≤ c.maxRate) && decide (p.dpb ≤ c.dpbMax) && d.splitOk p

/-- R158: a new picture size, chroma format, bit depth or CTU size. -/
def gridChanged (a b : ParamSet) : Bool :=
  a.width != b.width || a.height != b.height || a.chroma != b.chroma || a.depth != b.depth || a.depthC != b.depthC || a.ctu != b.ctu

/-- R158: two SPSs differ at most in their VUI. -/
def vuiOnly (a b : ParamSet) : Bool := a.content == b.content && !gridChanged a b

/-- R126, R143: an SPS becomes active: the tile grid follows; a changed grid restarts the tiles and the hold store, and the buffers are
of the new size. -/
def State.activate (i : Nat) (p : ParamSet) (s : State) : State :=
  let s := match (s.decS i).sps with
    | some q => if gridChanged q p then ((s.dropTasks i).clearContext i).freeBuffers i else s
    | none => s
  let s := s.modDecS i (fun d => { d with sps := some p, cols := (p.width + 63) / 64, rowsN := (p.height + 63) / 64 })
  if (s.decS i).buffers.isEmpty then s.claimBuffers i else s

/-- R155: the access units discarded in a skip are reported as it ends. -/
def State.endSkip (i : Nat) (poc : Option (BitVec 32)) (s : State) : State :=
  (s.pocEvent i poc .decodeSkipped [i32 (s.decS i).skipNow]).modDecS i (fun d => { d with skipNow := 0 })

/-- R148, class 0x04: the stream is unsupported, and every CTU is not decoded from now on; a skip ends with it (R155). -/
def State.unsupported (i : Nat) (poc : Option (BitVec 32)) (p : ParamSet) (s : State) : State :=
  let s := if (s.decS i).st = .skipping then s.endSkip i poc else s
  ((s.streamError i poc ⟨4, 0, ((p.width + p.ctu - 1) / p.ctu) * ((p.height + p.ctu - 1) / p.ctu)⟩).modDecS i
    (fun d => { d with st := .unsupported })).loseAll i

/-- R148, class 0x03: the error is one of the picture in arrival, or of the one that follows in its access unit. -/
def State.paramError (i first count : Nat) (s : State) : State :=
  match (s.decS i).openPic with
  | some p => s.decError i p.num ⟨3, first, count⟩ none
  | none => s.modDecS i (fun d => { d with auPend := d.auPend ++ [⟨3, first, count⟩] })

/-- R148: parameter sets have failed. -/
def DecStream.fail (xs : List (Nat × Nat)) (d : DecStream) : DecStream := { d with failed := (d.failed ++ xs).eraseDups }

/-- R148, class 0x03: a parameter set has failed: the one retained is no longer what the stream names by its ID. Before an entry access
unit no event tells of it (R157). -/
def State.failSet (i : Nat) (p : ParamSet) (s : State) : State :=
  let s := s.modDecS i (fun d => { d with params := d.params.filter (fun q => !(q.kind == p.kind && q.id == p.id)) })
  if (s.decS i).st = .waiting then s else (s.paramError i 0 0).modDecS i (DecStream.fail [(p.kind, p.id)])

/-- R158: an accepted change of a parameter set is to be reported, the first of an access unit (R160). -/
def DecStream.noteChange (p : ParamSet) (d : DecStream) : DecStream :=
  if d.auTold then d else { d with auChange := some (d.auChange.getD (p.kind, p.id)) }

/-- R158, R160, R389: PARAM_SET_CHANGED; the kind is coded 1 PPS, 2 SPS, 3 VPS, by its place in R158's table (DEDUCED, log entry 138). -/
def State.tellChange (i : Nat) (poc : Option (BitVec 32)) (s : State) : State :=
  match (s.decS i).auChange with
  | some x => (s.modDecS i (fun d => { d with auChange := none, auTold := true })).pocEvent i poc .paramSetChanged [i16 (3 - x.1), i16 x.2]
  | none => s

/-- R158: where a change is accepted. -/
def changeAllowed (old p : ParamSet) (au : AuKind) : Bool :=
  if p.kind = 2 then au != .midPicture
  else if p.kind = 1 ∧ vuiOnly old p then au == .irap || au == .recovery
  else au == .irap

/-- R134, R158: an SPS that does not pass, or a parameter set that the active SPS does not survive. -/
def DecStream.breaks (d : DecStream) (p : ParamSet) : Option ParamSet :=
  let e := d.keepParam p
  if p.kind = 1 ∧ (d.sps.map (·.id)) = some p.id then (if e.supports p then none else some p)
  else d.sps.filter (fun q => p.kind == 2 && !e.splitOk q)

/-- R126, R134, R158: a parameter set that may take effect is kept; one that the active SPS does not survive makes the stream
unsupported, and is what later slices name by its ID. -/
def State.takeParam (i : Nat) (p : ParamSet) (change : Bool) (s : State) : State :=
  let d := s.decS i
  let s := s.modDecS i (·.keepParam p)
  match d.breaks p with
  | some q => s.unsupported i none q
  | none =>
    let s := if change && p.kind != 2 then s.modDecS i (DecStream.noteChange p) else s
    if p.kind = 1 ∧ d.st = .decoding ∧ (d.sps.map (·.id)) = some p.id then s.activate i p else s

/-- R158: a parameter set received in a stream that is not IDLE; those of other layers are discarded (R126). -/
def State.paramSet (i : Nat) (p : ParamSet) (au : AuKind) (s : State) : State :=
  let d := s.decS i
  if !d.cfg.h264 && decide (0 < p.layer) then s
  else if !p.wellFormed then s.failSet i p
  else match d.param p.kind p.id with
    | none => s.takeParam i p false
    | some old =>
      if old = p then s
      else if d.st = .waiting then s.modDecS i (·.keepParam p)
      else if changeAllowed old p au then s.takeParam i p true
      else s.failSet i p

/-- PARAM_SET_RECEIVED (R126 to R128, R134, R158). -/
def execParamSetReceived (i : Nat) (p : ParamSet) (au : AuKind) (s : State) := ok (
  if !s.serving || (s.decS i).st == .idle then s
  else State.withLedger i (State.withStatus i (State.paramSet i p au)) s)

/-- R126, R127: the active SPS is held to the maxima of a new configuration. -/
def State.retest (i : Nat) (s : State) : State :=
  let d := s.decS i
  match d.sps with
  | some p => if d.st = .decoding ∧ d.supports p = false then
      State.withLedger i (State.withStatus i (State.unsupported i none p)) s else s
  | none => s

/-! Pictures (R129, R131, R144, R156). -/

/-- R157: an entry access unit: IRAP or recovery point, with its parameter sets present. -/
def DecStream.entry (d : DecStream) (x : SliceInfo) : Bool :=
  (x.irap || x.recovery.isSome) && (d.cfg.h264 || (d.param 0 x.vps).isSome) && (d.param 1 x.sps).isSome &&
  (d.param 2 x.pps).isSome

/-- R91, R145: an IRAP picture whose order count does not rise begins a coded video sequence. -/
def DecStream.epochOf (d : DecStream) (x : SliceInfo) : Nat :=
  if x.irap && d.frames.any (fun p => decide (orderOf d.epoch x.poc ≤ p.2.order)) then d.epoch + 1 else d.epoch

/-- R148, class 0x09: a picture order count that a picture of the same sequence has. -/
def DecStream.duplicate (d : DecStream) (x : SliceInfo) : Bool :=
  !x.irap && d.frames.any (fun p => !p.2.gen && p.2.order == orderOf d.epoch x.poc)

/-- R156: references that are absent are generated for picture `n`. -/
def State.fillRefs (i n epoch : Nat) (refs : List (BitVec 32)) (s : State) : State :=
  let has (p : BitVec 32) : Bool := (s.decS i).frames.any (fun q => q.2.order == orderOf epoch p)
  s.each (refs.eraseDups.filter (fun p => !has p)) (fun p => State.generate i n p (orderOf epoch p))

/-- R148, R156, class 0x08: it leaves no CTU undecoded, and names the first with a count of 0 (DESIGN CHOICE, log entry 193). -/
def refMissing : DecErr := ⟨8, 0, 0⟩

/-- R144, R156: the reference picture set: pictures outside it lose REF; absent ones are generated, and a picture that refers to
a generated one has an error of class 0x08; so has one before which frames that may not be missing are (H.264). -/
def State.references (i n epoch : Nat) (x : SliceInfo) (s : State) : State :=
  let s := (s.modDecS i (fun d => { d with rpsNow := (x.poc :: x.rps ++ x.gaps).map (orderOf epoch) })).keepRefs i
  let s := s.fillRefs i n epoch (x.gaps ++ x.rps)
  let bad := x.rps.any (fun p => (s.decS i).frames.any (fun q => q.2.order == orderOf epoch p && q.2.gen)) ||
    (!x.gaps.isEmpty && !x.gapsOk)
  if bad then s.decError i n refMissing none else s

/-- R132, R156: a picture whose header is parsed has lost references before they were complete. -/
def State.lostRefs (i n : Nat) (s : State) : State :=
  let d := s.decS i
  let p := d.pic n
  let e := p.order / 2 ^ 32
  if p.refs.all (fun r => d.frames.any (fun q => q.2.order == orderOf e r)) then s
  else (s.fillRefs i n e p.refs).decError i n refMissing none

/-- R131, R132, R144, R153: a picture begins, in a frame buffer of its own; none while the stream has no frame buffer left. -/
def State.newPicture (i : Nat) (x : SliceInfo) (s : State) : Option State :=
  let d := s.decS i
  let g := d.grid
  let n := d.nextPic
  let e := d.epochOf x
  let pps := (d.param 2 x.pps).getD g
  let s := s.modDecS i (fun d => { d with
    nextPic := n + 1, epoch := e, team := if s.blw.tasks.any (fun t => t.2.stream == i) then d.team else []
    recoverAt := if d.recoverAt == some x.poc then none else d.recoverAt
    pics := d.pics ++ [{ DecPic.reset with
      num := n, poc := x.poc, order := orderOf e x.poc, ctu := g.ctu, ctuRows := (g.height + g.ctu - 1) / g.ctu
      irap := x.irap, rasl := x.rasl, entry := d.entry x, refs := x.rps, colW := pps.colW, rowH := pps.rowH, regions0 := d.regions
      arrival := d.arrival, exact := d.recoverAt == some x.poc, exactFrom := d.recoverFrom, outTime := x.outTime }], auPend := [] })
  let s := s.each d.auPend (fun e => State.decError i n e none)
  let s := (s.references i n e x).outputOrder i
  match s.freeFrame i with
  | none => none
  | some b =>
    if s.frameRoom i then
      some (((s.newFrame i ⟨n, x.poc, orderOf e x.poc, [], [], [], false, false⟩).modPic i n (fun p => { p with buf := b })).turnCopies i n x.poc)
    else none

/-- R49, R131: the tasks of a slice segment's rows that are not formed yet. -/
def State.formTasks (i : Nat) (p : DecPic) (x : SliceInfo) (mark : Nat) (s : State) : State :=
  let d := s.decS i
  let rows := (List.range (x.lastRow + 1 - x.firstRow)).map (x.firstRow + ·)
  let cols := if d.pieces p = 1 then [0] else x.tileCols
  let want := (rows.flatMap (fun r => cols.map (fun c => (r, c)))).filter
    (fun k => !p.formed.contains k && decide (k.1 < p.ctuRows) && decide (k.2 < d.pieces p))
  if want.isEmpty then s else
  let s := s.modPic i p.num (fun p => { p with formed := p.formed ++ want })
  let s := s.modDecS i (fun d => { d with marks := if d.marks.contains mark then d.marks else d.marks ++ [mark] })
  s.each want (fun k s =>
    let y := s.rowDeadline i (k.1 * p.ctu) p.ctu p.outTime
    s.addTask { RowTask.reset with
      stream := i, pic := p.num, row := k.1, tile := k.2, mark := mark, deadline := y.1, raster := y.2
      bay := d.bay.getD d.cfg.home })

/-! Slices (R131, R148, R157). -/

/-- R148: what the parser finds wrong with a slice segment: an error of its own, or CTUs that are decoded already or lie
outside the picture. -/
def DecStream.sliceError (d : DecStream) (p : DecPic) (x : SliceInfo) : Option DecErr :=
  if x.forbidden || x.tidPlus1 = 0 then some ⟨2, x.addr, x.ctus⟩
  else match x.err with
  | some e => some e
  | none => if x.addr < p.nextCtu ∨ d.ctuCount p < x.addr + x.ctus then some ⟨5, x.addr, x.ctus⟩ else none

/-- R148, class 0x01: the CTUs whose data a gap hides, up to a slice segment that follows it, if it is independent, or to its end. -/
def gapError (p : DecPic) (x : SliceInfo) : DecErr :=
  ⟨1, p.nextCtu, x.addr + (if x.dependent then x.ctus else 0) - p.nextCtu⟩

/-- R148: the parameter sets that a slice segment needs, by kind and ID. -/
def DecStream.needs (d : DecStream) (x : SliceInfo) : List (Nat × Nat) :=
  (if d.cfg.h264 then [] else [(0, x.vps)]) ++ [(1, x.sps), (2, x.pps)]

/-- R148, class 0x03: the sets of those that are absent, have failed, or are an SPS that is not active. -/
def DecStream.lacks (d : DecStream) (x : SliceInfo) : List (Nat × Nat) :=
  (d.needs x).filter (fun k => (d.param k.1 k.2).isNone || d.failed.contains k || (k.1 == 1 && (d.sps.map (·.id)) != some k.2))

/-- R148: the error of a slice segment that is not decoded. A dependent one that follows a segment which is not is that segment's
loss in classes 0x01 and 0x05, and else of class 0x07; the parser resumes at an independent one. -/
def DecStream.segmentError (d : DecStream) (p : DecPic) (x : SliceInfo) (gap : Bool) : Option DecErr :=
  match (if x.dependent then (if gap then some 1 else p.broken) else none) with
  | some c => some ⟨if c = 1 ∨ c = 5 then c else 7, x.addr, x.ctus⟩
  | none => match d.sliceError p x with
    | some e => some e
    | none => if (d.lacks x).isEmpty then none else some ⟨3, x.addr, x.ctus⟩

/-- R138: the slices of a picture with one more segment. -/
def addSegment (x : SliceInfo) (xs : List (Nat × Nat)) : List (Nat × Nat) :=
  match x.dependent, xs.getLast? with
  | true, some l => xs.dropLast ++ [(l.1, x.addr + x.ctus - l.1)]
  | _, _ => xs ++ [(x.addr, x.ctus)]

/-- R131, R148, R158: a slice segment of the picture in arrival: its errors, and its tasks where its CTUs are decoded. -/
def State.sliceOf (i : Nat) (p : DecPic) (x : SliceInfo) (mark : Nat) (gap : Bool) (s : State) : State :=
  let d := s.decS i
  let bad := d.segmentError p x gap
  let s := if gap && (x.err.map (·.code)) != some 1 then s.decError i p.num (gapError p x) none else s
  let s := match bad with
    | some e => s.decError i p.num e none
    | none => s
  let s := if bad.any (fun e => e.code == 3) then s.modDecS i (DecStream.fail (d.lacks x)) else s
  let s := s.modPic i p.num (fun p => { p with
    nextCtu := max p.nextCtu (x.addr + x.ctus), slices := addSegment x p.slices, broken := bad.map (·.code) })
  if bad.isSome then s else s.formTasks i p x mark

/-- R148, R157: no CTU of the access unit in arrival is decoded: it holds a duplicate picture order count. -/
def State.badUnit (i : Nat) (x : SliceInfo) (s : State) : State :=
  (s.unitError i (some x.poc) ⟨9, 0, (s.decS i).ctuCols * (((s.decS i).grid.height + (s.decS i).grid.ctu - 1) / (s.decS i).grid.ctu)⟩).modDecS i
    (fun d => { d with auBad := true })

/-- R131, R148, R153, R156, R157: a slice segment of a stream that decodes; none while its picture waits for a frame buffer. -/
def State.slice (i : Nat) (x : SliceInfo) (mark : Nat) (gap : Bool) (s : State) : Option State :=
  let d := s.decS i
  if d.auBad || d.auSkip then some s
  else if x.newPic && d.duplicate x then some (s.badUnit i x)
  else if x.newPic && d.noRasl && x.rasl then some (s.modDecS i (fun d => { d with auSkip := true }))
  else
    let message := x.exact && x.recovery.isSome
    let s := s.modDecS i (fun d => { d with
      recoverAt := if message then x.recovery else d.recoverAt
      recoverFrom := if message then (if x.newPic then d.nextPic else d.nextPic - 1) else d.recoverFrom })
    (if x.newPic then s.newPicture i x else some s).map (fun s =>
      match (s.decS i).openPic with
      | none => s
      | some p => s.sliceOf i p x mark gap)

/-- R157, R158: a stream at an entry access unit activates its SPS and decodes, or is unsupported. -/
def State.enter (i : Nat) (x : SliceInfo) (p : ParamSet) (s : State) : State :=
  let d := s.decS i
  if !d.supports p then (if d.st == .unsupported then s else s.unsupported i (some x.poc) p)
  else
    let s := if d.st != .waiting && d.sps.isSome && d.sps != some p then s.modDecS i (DecStream.noteChange p) else s
    let s := if d.st == .skipping then s.endSkip i (some x.poc) else s
    let s := (s.activate i p).modDecS i (fun e => { e with
      st := .decoding, failed := e.failed.filter (fun k => !(e.needs x).contains k), noRasl := x.irap && d.st != .decoding })
    if d.st == .decoding then s else s.pocEvent i (some x.poc) .decodeJoined [i16 (if x.irap then 1 else 2)]

/-- R157, R158: what the first slice segment of an access unit does to the stream's state: at an entry access unit it may begin
to decode, and another SPS becomes active where R158 accepts it. -/
def State.atEntry (i : Nat) (x : SliceInfo) (s : State) : State :=
  let d := s.decS i
  let s := if x.newPic && x.irap then s.modDecS i (fun d => { d with noRasl := false }) else s
  if !x.newPic then s
  else match d.param 1 x.sps with
    | none => s
    | some p =>
      if !d.entry x then s
      else if d.st != .decoding || (d.needs x).any d.failed.contains then s.enter i x p
      else if d.sps != some p && (x.irap || d.sps.any (vuiOnly p)) then s.enter i x p
      else s

/-- R130, R131: the slice segment's bytes leave the queue; the mark lies at its first byte. -/
def State.sliceParse (i : Nat) (x : SliceInfo) (s : State) : Option State :=
  let mark := (s.decS i).rptr + x.lead
  let q := s.parse i x.bytes
  let s := q.1
  if !(s.decS i).cfg.h264 && decide (0 < x.layer) then some s
  else
    let s := s.atEntry i x
    let s := if x.newPic then s.tellChange i (some x.poc) else s
    let d := s.decS i
    if d.st == .decoding || (d.st == .skipping && d.openPic.isSome && !x.newPic) then s.slice i x mark q.2 else some s

/-- R16, R129: a picture that begins lets reordered ones before it be output, with their events. -/
def State.settleOut (i : Nat) (s : State) : State := if (s.decS i).reorderDepth = 0 then s else s.settle i

/-- SLICE_HEADER_PARSE (R131, R148, R156, R157): while the stream has no frame buffer for a picture that begins, its parser
waits. -/
def execSliceHeaderParse (i : Nat) (x : SliceInfo) (s : State) := ok (
  let d := s.decS i
  if !s.serving || d.st == .idle || decide (d.wptr < d.rptr + x.bytes) || (s.sliceParse i x).isNone then s
  else State.withLedger i (State.withStatus i (fun s => ((s.sliceParse i x).getD s).settleOut i)) s)

/-! Segments and the end of an access unit (R59). -/

/-- R59: the trustworthy rows of a picture. -/
def DecPic.claimedRow (p : DecPic) (r : Nat) : Bool := (p.rowRec r).claimed

/-- R75, R78, R158, R137: picture `n` changes the value regions: tiles that enter have VALUE and wait for their event behind those
of older pictures; tiles that leave lose VALUE and their check copies. -/
def State.setRegions (i n : Nat) (new : List Rect) (s : State) : State :=
  let d := s.decS i
  if d.regions = new then s
  else
    let tiles := List.range (d.cols * d.rowsN)
    let inNew (t : Nat) : Bool := inRegions new (t % d.cols) (t / d.cols)
    let inOld (t : Nat) : Bool := inRegions d.regions (t % d.cols) (t / d.cols)
    let s := s.each (tiles.filter (fun t => inNew t && !inOld t)) (fun t s =>
      (s.modTile i t (fun e => { e with value := true })).modRow i n (t / d.cols) (fun x => { x with enters := x.enters ++ [t % d.cols] }))
    let gone := tiles.filter (fun t => inOld t && !inNew t)
    let s := s.each gone (fun t => State.modTile i t (fun e => { e with value := false }))
    s.modDecS i (fun d => { d with
      regions := new, leaving := d.leaving.filter (fun x => !inNew x.1) ++ gone.map (fun t => (t, n)) 
      chkCopy := d.chkCopy.filter (fun p => !gone.contains (p.1 % 65536))
      chkTaint := d.chkTaint.filter (fun t => !gone.contains (t % 65536)) })

/-- R59: a valid segment. -/
def State.validSegment (i n : Nat) (g : Segment) (s : State) : State :=
  let d := s.decS i
  let s := if !d.stepped && g.head.stepped then s.clearTimes i g.head.picCount else s
  let s := s.modDecS i (fun d => { d with stepped := g.head.stepped })
  let s := s.modPic i n (fun p => { p with head := some g.head, picCount := some g.head.picCount })
  let s := s.setRegions i n g.head.regions
  let ts := segTiles (runTiles g.runs) g.entries
  s.each (List.range g.rowCount) (fun j => State.modRow i n (g.firstRow + j) (fun x => { x with
    claimed := true, seg := .valid ((ts.drop (j * g.head.cols)).take g.head.cols) }))

/-- R59, R86: LEDGER_RECORD_ERROR, once for each reason; PIC_COUNT is a free value before any valid segment. -/
def State.recordError (i n reason row : Nat) (s : State) : State :=
  s.picOnce i n .ledgerRecordError reason (fun s =>
    let p := (s.decS i).pic n
    (s.ledgerEvent .ledgerRecordError i (s.picCountOf p) [i16 reason, i32 row]).whenB p.picCount.isNone State.tickFree)

/-- R59: a segment of the picture in arrival. -/
def State.segment (i n payload : Nat) (bs : List Byte) (s : State) : State :=
  let d := s.decS i
  let p := d.pic n
  let g := parseSegment bs
  let reason := g.reason bs payload d.cols d.rowsN (d.grid.ctu == 64) p.claimedRow p.head
  if reason = 0 then s.validSegment i n g
  else
    let s := s.recordError i n reason g.firstRow
    if g.trusty bs payload d.rowsN p.claimedRow then
      s.each (List.range g.rowCount) (fun j =>
        State.modRow i n (g.firstRow + j) (fun x => { x with claimed := true, seg := .missing }))
    else s

/-- LEDGER_SEGMENT (R54, R59): segments of a foreign stream, and messages with another UUID, are ignored. -/
def execLedgerSegment (i payload : Nat) (bs : List Byte) (s : State) := ok (
  let d := s.decS i
  match d.openPic with
  | none => s
  | some p =>
    if (d.st != .decoding && d.st != .skipping) || d.cfg.foreign || bs.take 16 != ledgerUuid then s
    else State.withLedger i (State.withStatus i (fun s => (s.segment i p.num payload bs).settle i)) s)

/-- R59: rows that no trustworthy segment of the picture claims miss their record; such rows are those that code 0x09 calls
covered by no segment (DEDUCED, log entry 139). -/
def State.bareRows (i n : Nat) (s : State) : State :=
  let d := s.decS i
  let p := d.pic n
  let bare := d.tileRows.filter (fun r => !p.claimedRow r)
  if d.cfg.foreign then s
  else
    let s := match bare with
      | [] => s
      | r :: _ => s.recordError i n 9 r
    s.each bare (fun r => State.modRow i n r (fun x => { x with seg := .missing }))

/-- R59, R148: the end of an access unit with a picture: rows with no segment miss their record, and CTUs with no task are not
decoded; data that ended early, or a gap marker after the last slice segment, is an error of class 0x01. -/
def State.endPicture (i n : Nat) (gap : Bool) (s : State) : State :=
  let s := s.bareRows i n
  let d := s.decS i
  let p := d.pic n
  let s := if gap || decide (p.nextCtu < d.ctuCount p) then s.decError i n ⟨1, p.nextCtu, d.ctuCount p - p.nextCtu⟩ none else s
  let lost := ((List.range p.ctuRows).flatMap (fun r => (List.range (d.pieces p)).map (fun c => (r, c)))).filter
    (fun k => !p.formed.contains k)
  let s := s.each lost (State.pieceLost i n)
  (s.modPic i n (fun p => { p with ended := true })).settle i

/-- R148, class 0x09: an access unit without a first slice segment: every tile is not decodable. -/
def State.endBare (i : Nat) (s : State) : State :=
  let d := s.decS i
  (s.unitError i none ⟨9, 0, d.ctuCols * ((d.grid.height + d.grid.ctu - 1) / d.grid.ctu)⟩).loseAll i

/-- R148, R155, R157: the end of an access unit that has no picture: it was discarded, skipped, or not decoded. -/
def State.endNone (i : Nat) (s : State) : State :=
  let d := s.decS i
  if d.auSkip then s
  else if d.st = .skipping then s.modDecS i (fun d => { d with skipNow := d.skipNow + 1, skipped := satInc d.skipped })
  else if d.st != .decoding then s
  else if d.auBad then s.loseAll i
  else s.endBare i

/-- ACCESS_UNIT_END (R59, R85, R148, R155). -/
def execAccessUnitEnd (i : Nat) (s : State) := ok (
  let d := s.decS i
  if d.st == .idle then s
  else
    let u := dropUnit d.items
    let s := s.modDecS i (fun d => { d with items := u.2.2, rptr := d.rptr + u.1 })
    let s := State.withLedger i (State.withStatus i (fun s =>
      match d.openPic with
      | some p => s.endPicture i p.num u.2.1
      | none => s.endNone i)) s
    let s := State.withStatus i (fun s => (s.each (s.decS i).auPend (State.unitError i none)).tellChange i none) s
    s.modDecS i (fun d => { d with auErrs := [], auPend := [], auTold := false, auBad := false, auSkip := false }))

/-! Skipping (R155). -/

/-- R155: a picture of which no task has been issued. -/
def State.unstarted (s : State) (i : Nat) (p : DecPic) : Bool :=
  p.done.isEmpty && s.blw.tasks.all (fun t => t.2.stream != i || t.2.pic != p.num || t.2.core.isNone)

/-- R155: an undecoded access unit is discarded: its tasks, marks and buffer go, and no tile event is applied; the rest of one
that is still in arrival is discarded with it. -/
def State.discardPic (i : Nat) (p : DecPic) (s : State) : State :=
  let gone := (s.blw.tasks.filter (fun t => t.2.stream == i && t.2.pic == p.num)).map (·.1)
  let s := (s.each gone State.endTask).flushPic i { p with suspects := [], losses := [] }
  let s := s.modPoolD p.buf (fun x => { x with ref := false, out := false, cur := false })
  (s.modDecS i (fun d => { d with
    pics := d.pics.filter (fun q => q.num != p.num), auSkip := d.auSkip || !p.ended
    skipNow := d.skipNow + 1, skipped := satInc d.skipped })).dropFrames i

/-- R155: the deadline of the last row of the oldest undecoded access unit has passed by more than BACKLOG frame periods of
the raster that bears it. -/
def State.behind (i : Nat) (s : State) : Bool :=
  match (s.decS i).pics.find? (fun p => (s.poolD p.buf).cur) with
  | none => false
  | some p =>
    let x := s.rowDeadline i ((p.ctuRows - 1) * p.ctu) p.ctu p.outTime
    decide (x.1 + (s.decS i).cfg.backlog * (s.raster x.2).period < s.time)

/-- R155, R157: the undecoded access units that a skip discards: those before the next entry access unit and, at an IRAP, its
RASL pictures. -/
def skipped (waiting : List DecPic) : List DecPic × Option DecPic :=
  let head := waiting.takeWhile (fun p => !p.entry)
  match waiting.drop head.length with
  | [] => (head, none)
  | e :: r => (head ++ (if e.irap then r.filter (·.rasl) else []), some e)

/-- DECODE_SKIPPED (R155): a stream that is behind discards its `n` undecoded access units up to the next entry one; a picture whose
decoding has begun is completed (DEDUCED, log entry 140). -/
def execDecodeSkipped (i n : Nat) (s : State) := ok (
  if (s.decS i).st != .decoding || !s.behind i || (skipped ((s.decS i).pics.filter (s.unstarted i))).1.length != n then s
  else State.withLedger i (State.withStatus i (fun s =>
    let x := skipped ((s.decS i).pics.filter (s.unstarted i))
    let s := s.each x.1 (State.discardPic i)
    let s := s.each ((s.decS i).pics.map (·.num)) (State.lostRefs i)
    (match x.2 with
    | some e => (if x.1.isEmpty then s else s.endSkip i (some e.poc)).modDecS i (fun d => { d with noRasl := e.irap })
    | none => s.modDecS i (fun d => { d with st := .skipping })).settle i)) s)

end Sys2Proof.Machine
end

