-- ==== Sys2Proof/Machine/RunnerOps.lean ====
section
/-! DEFINITION. The Runner's building blocks: policers, the Ladle, virtual output queues, statistics, flow queues and
shapers, and the Stitcher (R240 to R270). -/

namespace Sys2Proof.Machine

/-! Policers (R247). -/

/-- R247: colours. -/
inductive Colour where
  | green | yellow | red
  deriving DecidableEq, Repr

/-- Buckets are kept in 10^-9 byte. -/
abbrev nano : Nat := 1000000000

/-- R247: burst sizes of a policer in bucket units. -/
def Policer.burst (p : Policer) : Nat × Nat := (p.cbs.toNat * 64 * nano, p.ebs.toNat * 64 * nano)

/-- R247, RFC 2697, RFC 2698: the buckets at a time; `c` and `e` are the burst sizes, `cir` and `pir` in 1,000 B/s. -/
def refill (trtcm : Bool) (c e cir pir dt tc te : Nat) : Nat × Nat :=
  let add := dt * cir * 1000
  if trtcm then (min c (tc + add), min e (te + dt * pir * 1000))
  else
    let up := min c (tc + add)
    (up, min e (te + (tc + add - up)))

/-- R247: the colour of a packet of length `l` and the buckets after it; `pre` is its incoming colour, green when blind. -/
def colour (trtcm : Bool) (pre : Colour) (l tc te : Nat) : Colour × Nat × Nat :=
  let n := l * nano
  if trtcm then
    if pre = .red ∨ te < n then (.red, tc, te)
    else if pre = .yellow ∨ tc < n then (.yellow, tc, te - n)
    else (.green, tc - n, te - n)
  else
    if pre = .green ∧ n ≤ tc then (.green, tc - n, te)
    else if pre ≠ .red ∧ n ≤ te then (.yellow, tc, te - n)
    else (.red, tc, te)

/-- R247: the colour of a DSCP under a partition's map; the reserved code counts as red. -/
def dscpColour (m : BitVec 128) (d : BitVec 6) : Colour :=
  match m.extractLsb' (2 * d.toNat) 2 with
  | 0 => .green
  | 1 => .yellow
  | _ => .red

/-- R247: policer `i` takes a packet. -/
def State.police (i l : Nat) (dscp : BitVec 6) (s : State) : State × Colour :=
  let p := s.run.policers.look Policer.reset i
  if !p.enable then (s, .green)
  else
    let (c, e) := p.burst
    let (tc, te) := refill p.mode c e p.cir.toNat p.pir.toNat (s.now - p.asOf) p.tc p.te
    let pre := if p.aware then dscpColour (s.run.dscp.look 0 p.part.toNat) dscp else .green
    let (k, tc, te) := colour p.mode pre l tc te
    (s.modRun (fun r => { r with policers := r.policers.put Policer.reset i { p with tc := tc, te := te, asOf := s.now } }), k)

/-- R244: the fixed policers: srTCM with CIR 20 Mb/s (for TC6, number 512) or 10 Mb/s (for TC0, number 513); their
bursts are not given and are free values. They begin full. -/
def State.policeFixed (i l : Nat) (s : State) : State × Colour :=
  let c := Config.fixedBurst (2 * (i - 512)) * nano
  let e := Config.fixedBurst (2 * (i - 512) + 1) * nano
  let d : Policer := { Policer.reset with tc := c, te := e }
  let p := s.run.policers.look d i
  let x := refill false c e (if i = 512 then 2500 else 1250) 0 (s.now - p.asOf) p.tc p.te
  let y := colour false .green l x.1 x.2
  (s.modRun (fun r => { r with policers := r.policers.put d i { p with tc := y.2.1, te := y.2.2, asOf := s.now } }), y.1)

/-! The Ladle (R255 to R258). -/

/-- R255: buffer sizes of the pools. -/
def bufferSize (p : Nat) : Nat :=
  match p with
  | 0 => 256
  | 1 => 2048
  | 2 => 10240
  | _ => 65536

/-- R257: the shared area of a pool. -/
def LdlPool.sharedSize (p : LdlPool) : Nat := p.total - ((List.range 8).map (p.resv.look 0)).sum - p.tc7Resv

/-- R257: shared buffers in use. -/
def LdlPool.sharedUsed (p : LdlPool) : Nat := ((List.range 8).map (p.usedShared.look 0)).sum

/-- R257: free shared buffers. -/
def LdlPool.sharedFree (p : LdlPool) : Nat := p.sharedSize - p.sharedUsed

/-- R262: PFC is sent as pool 1's free shared buffers cross the thresholds. -/
def State.pfcCheck (s : State) : State :=
  let free := (s.ladle 1).sharedFree
  s.each ((List.range 4).filter (fun p => (s.eth p).pfcEn)) (fun p s =>
    if free < s.run.pfcXoff ∧ (s.eth p).pfcSent = false then
      (s.modEth p (fun e => { e with pfcSent := true, pfcAt := s.now })).modRun (fun r => { r with pfcOut := r.pfcOut ++ [(p, 65535)] })
    else if s.run.pfcXon < free ∧ (s.eth p).pfcSent then
      (s.modEth p (fun e => { e with pfcSent := false })).modRun (fun r => { r with pfcOut := r.pfcOut ++ [(p, 0)] })
    else s)

/-- R258: the parity bit of a buffer pointer: odd when the other bits hold an odd number of ones (PRESUMED, log entry 217). -/
def pointerParity (pool buf gen part : Nat) : Bool :=
  (List.range 32).foldl (fun a i => a ^^ (pool.testBit i ^^ buf.testBit i ^^ gen.testBit i ^^ part.testBit i)) false

/-- R257: the area that serves an allocation: 1 TC7_RESV, 0 RESV, 2 shared. -/
def LdlPool.area (p : LdlPool) (part cls : Nat) (yellow : Bool) : Option Nat :=
  if cls = 7 ∧ p.usedTc7 < p.tc7Resv then some 1
  else if p.usedResv.look 0 part < p.resv.look 0 part then some 0
  else if 0 < p.sharedFree ∧ (cls = 7 ∨ (p.usedShared.look 0 part < p.shareMax.look 0 part ∧
      (yellow = false ∨ p.yellowFloor < p.sharedFree))) then some 2
  else none

/-- R257: a count of the area rises or falls. -/
def LdlPool.count (p : LdlPool) (area part : Nat) (f : Nat → Nat) : LdlPool :=
  match area with
  | 1 => { p with usedTc7 := f p.usedTc7 }
  | 0 => { p with usedResv := p.usedResv.upd 0 part f }
  | _ => { p with usedShared := p.usedShared.upd 0 part f }

/-- The reset value of a buffer: not allocated. -/
def BufS.reset : BufS := ⟨0, false, 0, 0, 0, false⟩

/-- R255: the lowest-numbered buffer that is free (DESIGN CHOICE, log entry 13). -/
def LdlPool.freeBuf (p : LdlPool) : Option Nat :=
  (List.range p.total).find? (fun i =>
    let b := p.bufs.look BufS.reset i
    !b.allocated && !b.quarantined)

/-- R255, R257: a buffer of a pool for a packet: the pool, the buffer and its generation. -/
def LdlPool.alloc (p : LdlPool) (part cls : Nat) (yellow : Bool) : Option (LdlPool × Nat × BitVec 4) :=
  if p.fenced then none
  else match p.area part cls yellow, p.freeBuf with
    | some a, some i =>
      let g := (p.bufs.look BufS.reset i).gen + 1
      some ({ (p.count a part (· + 1)) with bufs := p.bufs.put BufS.reset i ⟨g, true, 1, a, part, false⟩ }, i, g)
    | _, _ => none

/-- R255: the smallest pool whose buffer holds a packet, and the next larger one. -/
def poolsFor (len : Nat) : List Nat :=
  let p := if len ≤ 256 then 0 else if len ≤ 2048 then 1 else if len ≤ 10240 then 2 else 3
  if p < 3 then [p, p + 1] else [3]

/-- R255, R258: the pools tried for a packet: a fenced pool's packets take the next larger one. -/
def State.poolsTried (s : State) (len : Nat) : List Nat :=
  ((poolsFor len) ++ [2, 3]).filter (fun p => !(s.ladle p).fenced && decide (len ≤ bufferSize p)) |>.dedup |>.take 2

/-- R257: a handle of the 131,072 is free for a class: 512 are reserved to TC7 and 512 to TC6. -/
def Run.handleFree (r : Run) (cls : Nat) : Bool :=
  let h (c : Nat) : Nat := r.handles.look 0 c
  let shared := ((List.range 6).map h).sum + (h 6 - 512) + (h 7 - 512)
  (decide (6 ≤ cls) && decide (h cls < 512)) || decide (shared < 131072 - 1024)

/-- A packet as it enters the Runner, with no buffer yet. -/
def State.newPkt (s : State) (port len payload part cls dest stream : Nat) : Pkt where
  port := port
  len := len
  payload := payload
  part := part
  cls := cls
  dest := dest
  stream := stream
  path := false
  yellow := false
  arrival := s.now
  ptp := s.time48
  serial := 0
  rtp := none
  pool := 4
  buf := 0
  gen := 0
  par := false
  plane := false
  ext := 0
  tag := 0
  dscp := 0
  vid := none
  query := false

/-- R247: a yellow packet is buffered only while the shared area of its pool holds more free buffers than YELLOW_FLOOR. -/
def State.yellowFits (s : State) (k : Pkt) : Bool :=
  !k.yellow || (s.poolsTried k.len).head?.any (fun p => decide ((s.ladle p).yellowFloor < (s.ladle p).sharedFree))

/-- R255, R257, R262: a packet takes a buffer and a handle, or none of its sources can serve it. -/
def State.allocPkt (k : Pkt) (s : State) : Option (State × Pkt) :=
  if !s.run.handleFree k.cls then none
  else (s.poolsTried k.len).findSome? (fun p =>
    ((s.ladle p).alloc k.part k.cls k.yellow).map (fun x =>
      (((s.modLadle p (fun _ => x.1)).modRun (fun r => { r with handles := r.handles.upd 0 k.cls (· + 1) })).pfcCheck,
        { k with pool := p, buf := x.2.1, gen := x.2.2, par := pointerParity p x.2.1 x.2.2.toNat k.part })))

/-- R480: UPD_SEQ advances when NOBUF or QUARANTINED changes. -/
def LdlPool.bump (f : LdlPool → LdlPool) (p : LdlPool) : LdlPool := { f p with updSeq := p.updSeq + 1 }

/-- R258, R402: Ladle pool `p` is fenced; pool 3, or a second pool, is fatal. -/
def State.fencePool (p : Nat) (s : State) : State :=
  if (s.ladle p).fenced then s
  else if p = 3 ∨ (List.range 4).any (fun q => (s.ladle q).fenced) then (s.modLadle p (fun x => { x with fenced := true })).recordFatal (333 + p)
  else ((s.modLadle p (fun x => { x with fenced := true })).modFltSrc (333 + p) (fun x => { x with fenced := true }))
    |>.unitFenced (333 + p) 3 |>.wantAdmission 1

/-- R258: a bad pointer: a contained fault; its buffer is quarantined, and the 65th of a pool within 1 s fences it. -/
def State.badPointer (k : Pkt) (check : Nat) (s : State) : State :=
  let p := k.pool
  let s := (s.latch (194 + p)).limited .ldlPointer p ms (State.raise .ldlPointer [i16 p, i16 check])
  let s := s.recordContained (333 + p) .restart false
  let q (x : LdlPool) : LdlPool := { x with
    bufs := x.bufs.upd BufS.reset k.buf (fun b => { b with quarantined := true })
    quarantined := satInc x.quarantined, quarTimes := s.now :: within sec s.now x.quarTimes }
  let s := s.modLadle p (LdlPool.bump q)
  if 64 < (s.ladle p).quarTimes.length then s.fencePool p else s

/-- R258: the check that a pointer fails, if any: 1 parity, 2 index, 3 not allocated, 4 generation, 5 partition. -/
def State.pointerBad (s : State) (k : Pkt) : Option Nat :=
  let p := s.ladle k.pool
  let b := p.bufs.look BufS.reset k.buf
  if k.par != pointerParity k.pool k.buf k.gen.toNat k.part then some 1
  else if p.total ≤ k.buf then some 2
  else if !b.allocated then some 3
  else if b.gen ≠ k.gen then some 4
  else if b.part ≠ k.part ∧ k.dest ≠ 1 then some 5
  else none

/-! Statistics and ageing (R259, R270). -/

/-- Statistics of queue `q`. -/
def State.modStat (q : Nat) (f : QStat → QStat) (s : State) : State :=
  s.modRun (fun r => { r with stats := r.stats.upd QStat.reset q f })

/-- R270: bytes enter a queue. -/
def State.statIn (q n : Nat) (s : State) : State :=
  s.modStat q (fun x =>
    let d := satNat 32 (x.depth.toNat + n)
    { x with depth := d, maxNow := if x.maxNow < d then d else x.maxNow })

/-- R270: a packet leaves a queue. -/
def State.statOut (q : Nat) (k : Pkt) (s : State) : State :=
  let age := satNat 32 (s.now - k.arrival)
  s.modStat q (fun x => { x with
    depth := BitVec.ofNat 32 (x.depth.toNat - k.len), delayNow := if x.delayNow < age then age else x.delayNow })

/-- R259: the default AGE_LIMIT of a class in ns. -/
def defaultAge (cls : Nat) : Nat :=
  match cls with
  | 7 => 100000000
  | 6 => 1000000
  | 5 => 2000000
  | 4 => 2000000
  | 3 => 10000000
  | 2 => 500000
  | 1 => 1000000000
  | _ => 100000000

/-- R259: a packet has aged out. -/
def State.aged (s : State) (k : Pkt) : Bool :=
  decide (s.run.ageLimit.look (defaultAge k.cls) k.cls < s.now - k.arrival)

/-! Virtual output queues (R241, R242). -/

/-- R241: the number of a VOQ. -/
def voqOf (ingress egress cls : Nat) : Nat := 96 * ingress + 8 * egress + cls

/-- A VOQ. -/
def State.voq (s : State) (q : Nat) : Voq := s.run.voqs.look Voq.reset q

/-- Update of a VOQ. -/
def State.modVoq (q : Nat) (f : Voq → Voq) (s : State) : State :=
  s.modRun (fun r => { r with voqs := r.voqs.upd Voq.reset q f })

/-- R241: a packet enters its VOQ. -/
def State.voqPut (egress : Nat) (k : Pkt) (s : State) : State :=
  let q := voqOf k.port egress k.cls
  (s.modVoq q (fun v => { v with queue := v.queue ++ [k] })).statIn q k.len

/-- R255, R257: a copy of a packet takes a handle of its class, and shares the buffer of the first copy. -/
def State.copyPkt (k c : Pkt) (s : State) : Option (State × Pkt) :=
  if !s.run.handleFree c.cls then none
  else some ((s.modLadle k.pool (fun p => { p with bufs := p.bufs.upd BufS.reset k.buf (fun b => { b with refs := b.refs + 1 }) })).modRun
    (fun r => { r with handles := r.handles.upd 0 c.cls (· + 1) }), { c with pool := k.pool, buf := k.buf, gen := k.gen, par := k.par })

/-- R255: the copies of a packet take one buffer and a handle each, or none of them does. -/
def State.allocCopies (ks : List Pkt) (s : State) : Option (State × List Pkt) :=
  match ks with
  | [] => some (s, [])
  | k :: r => (s.allocPkt k).bind (fun x => r.foldl (fun acc c => acc.bind (fun y =>
      (y.1.copyPkt x.2 c).map (fun z => (z.1, y.2 ++ [z.2])))) (some (x.1, [x.2])))

/-- R26: one of the packets that wait for a buffer and handles takes them, unless an earlier one of its flow still waits. -/
def State.retryOne (ks : List Pkt) (s : State) : State :=
  if s.run.outWait.any (fun w => w.any (fun k => ks.any (fun j => j.stream == k.stream))) then
    s.modRun (fun r => { r with outWait := r.outWait ++ [ks] })
  else match s.allocCopies ks with
    | some (t, ks) => t.each ks (fun k s => s.voqPut (s.flow k.stream).port.toNat k)
    | none => s.modRun (fun r => { r with outWait := r.outWait ++ [ks] })

/-- R26, R257: each packet of an encoder, an output or the Tack that waits for a buffer and handles takes them where one of its own sources
can serve it. -/
def State.retryOut (s : State) : State :=
  (s.modRun (fun r => { r with outWait := [] })).each s.run.outWait State.retryOne

/-- R119, R178, R255: a packet is handed to the Runner, one copy for each of its egress flows; without a buffer and handles it waits
(R26). -/
def State.sendCopies (k : Pkt) (fs : List Nat) (s : State) : State :=
  let ks := fs.map (fun f =>
    let x := s.flow f
    { k with dest := 4, stream := f, cls := x.tc.toNat, path := x.path, arrival := s.now, ptp := s.time48 })
  if ks.isEmpty then s else s.retryOne ks

/-- R240, R263: the flow of the Tack's traffic of a class: the lowest enabled one that no encode stream and no output names (DESIGN
CHOICE, log entry 213). -/
def State.tackFlow (s : State) (cls : Nat) : Option Nat :=
  (s.run.flows.find? (fun x => x.2.enable && x.2.tc.toNat == cls && !s.enc.any (fun e => e.2.cfg.flows.contains x.1) &&
    !(List.range 28).any (fun k => (s.outP k).flows.contains x.1))).map (·.1)

/-- R240, R263: a packet of the Tack with `n` bytes above UDP or IP enters the Runner by port 11. -/
def State.sendTack (cls len n : Nat) (s : State) : State :=
  match s.tackFlow cls with
  | some f => s.sendCopies (s.newPkt 11 len n (s.flow f).part.toNat cls 4 f) [f]
  | none => s

/-- R255: a handle is freed, and its buffer with the last one; a bad pointer is a fault. -/
def State.freePkt (k : Pkt) (s : State) : State := (
  if 4 ≤ k.pool then s
  else
    let s := s.modRun (fun r => { r with handles := r.handles.upd 0 k.cls (· - 1) })
    match s.pointerBad k with
    | some c => s.badPointer k c
    | none => s.modLadle k.pool (fun p =>
        let b := p.bufs.look BufS.reset k.buf
        if 1 < b.refs then { p with bufs := p.bufs.put BufS.reset k.buf { b with refs := b.refs - 1 } }
        else { (p.count b.area b.part (· - 1)) with
                bufs := p.bufs.put BufS.reset k.buf { b with allocated := false, refs := 0 } })).retryOut.pfcCheck

/-- R259: an aged packet is discarded and counted. -/
def State.ageOut (q : Nat) (k : Pkt) (s : State) : State :=
  let s := (s.statOut q k).modStat q (fun x => { x with aged := satInc x.aged })
  (s.limited .ageDiscard q ms (State.raiseP k.part .ageDiscard [i16 q, i16 k.cls])).freePkt k

/-- R240: the egress port of a destination: a bay, the compositor, the Tack or the Girth link. -/
def State.egressOf (s : State) (dest stream : Nat) : Nat :=
  match dest with
  | 0 => if (s.run.capture.look none stream).isSome then 10 else 6 + ((s.decS stream).bay.getD (s.decS stream).cfg.home)
  | 1 => 11
  | 4 => (s.flow stream).port.toNat
  | _ => 5

/-- R259: an aged packet in a Stitcher hold is discarded and counted at the VOQ that it came by (DESIGN CHOICE, log entry 212). -/
def State.ageHeld (k : Pkt) (s : State) : State :=
  let q := voqOf k.port (s.egressOf k.dest k.stream) k.cls
  let s := s.modStat q (fun x => { x with aged := satInc x.aged })
  (s.limited .ageDiscard q ms (State.raiseP k.part .ageDiscard [i16 q, i16 k.cls])).freePkt k

/-- R261: a receive queue is in UNREAD: the first dequeue finds it empty, with the flag. -/
def State.rxUnread (s : State) (q : Nat) : Bool := (s.run.rx.look RxQueue.reset q).unread

/-- R261: the consumer dequeues a receive queue: it takes the oldest packet, if any, and UNREAD ends. -/
def State.rxTake (q : Nat) (s : State) : State :=
  let x := s.run.rx.look RxQueue.reset q
  let s := s.modRun (fun r => { r with rx := r.rx.put RxQueue.reset q { x with queue := x.queue.tail, lastDeq := s.now, unread := false } })
  match x.queue.head? with
  | some k => s.freePkt k
  | none => s

/-! Flow queues and shapers (R263 to R266). -/

/-- R264: the unit of tags, so that a length divided by any weight is whole. -/
def tagUnit : Nat := (List.range 255).foldl (fun a i => Nat.lcm a (i + 1)) 1

/-- R269: a counter of an Ethernet port, by offset divided by 8, saturating. -/
def State.portCount (p i n : Nat) (s : State) : State :=
  s.modEth p (fun e => { e with counts := e.counts.put 0 i (satNat 64 ((e.counts.look 0 i).toNat + n)) })

/-- R264: a packet enters a flow queue with its start tag. -/
def State.flowPut (f : Nat) (k : Pkt) (s : State) : State :=
  let x := s.flow f
  let start := if x.queue.isEmpty then (s.eth x.port.toNat).vtime else x.finish
  let fin := start + k.len * tagUnit / x.weight.toNat
  if s.reloading 330 f then (s.freePkt k).portCount x.port.toNat 5 1
  else (s.modFlow f (fun x => { x with queue := x.queue ++ [{ k with tag := start }], finish := fin })).statIn (1152 + f) k.len

/-- R265, R266: the bucket at time `now`, with the fraction not yet worth 1/1,024 byte. -/
def Flow.accrue (now : Nat) (x : Flow) : Flow :=
  if x.rate = 0 then { x with bktAt := now }
  else
    let n := (now - x.bktAt) * x.rate.toNat * 1000 * 1024 + x.frac
    let b := x.bkt + ((n / nano : Nat) : Int)
    let top : Int := ((x.maxBurst.toNat * 65536 : Nat) : Int)
    if top ≤ b then { x with bkt := top, frac := 0, bktAt := now }
    else { x with bkt := b, frac := n % nano, bktAt := now }

/-- R265: the head packet may depart. -/
def Flow.mayDepart (x : Flow) : Bool := decide (0 ≤ x.bkt) && x.rate != 0

/-! The Stitcher (R250 to R254). -/

/-- A Stitcher context. -/
def State.stitch (s : State) (c : Nat) : Stitch := s.run.stitch.look Stitch.reset c

/-- Update of a Stitcher context. -/
def State.modStitch (c : Nat) (f : Stitch → Stitch) (s : State) : State :=
  s.modRun (fun r => { r with stitch := r.stitch.upd Stitch.reset c f })

/-- R251: the arrival of the first held packet. -/
def Stitch.heldAt (x : Stitch) : Nat :=
  match x.held with
  | [] => 0
  | k :: r => r.foldl (fun a p => min a p.arrival) k.arrival

/-- R250: the extended number nearest to `x` that is congruent to `v` modulo `m`. -/
def extendNear (x v m : Nat) : Nat :=
  let base := x - x % m
  let near := [base + m + v, base + v, base - m + v].filter (fun a => decide (a < x + m / 2) && decide (x ≤ a + m / 2))
  near.headD (base + v)

/-- R250: the extended sequence number of a packet given X; the first packet of a context is X itself. -/
def extNumber (capture : Bool) (next : Option Nat) (h : Rtp) : Nat :=
  let v := if capture then h.seqHi.toNat * 65536 + h.seq.toNat else h.seq.toNat
  let m := if capture then 2 ^ 32 else 65536
  match next with
  | none => m + v
  | some x => extendNear x v m

/-- R193, R256: bytes, a gap marker or an access unit end enter a bitstream queue: event 33 for the cores that read it. -/
def State.ringPut (i : Nat) (it : QItem) (s : State) : State :=
  (s.modDecS i (fun d => { d with
    items := d.items ++ [it]
    wptr := match it with
      | .bytes n _ => d.wptr + n
      | _ => d.wptr })).eventAt (s.readsStream i) 33

/-- R256: the ring with bytes copied to it at the write pointer. -/
def DecStream.copied (bs : List Byte) (d : DecStream) : DecStream :=
  { d with ring := bs.zipIdx.foldl (fun t x => t.put 0 ((d.wptr + x.2) % d.cfg.queue) x.1) d.ring }

/-- R256: payload bytes are copied into the bitstream ring at its write pointer, and are one item of the queue. -/
def State.ringCopy (i : Nat) (bs : List Byte) (at_ : T48) (s : State) : State :=
  (s.modDecS i (DecStream.copied bs)).ringPut i (.bytes bs.length at_)

/-- R271, R389: an event about Stitcher context `c`: of the partition of its decode stream, or of the device for an input's context. -/
def State.raiseCtx (c : Nat) (id : EventId) (items : List Item) (s : State) : State :=
  if c < 256 then s.raiseP (s.decS c).cfg.part id (i16 c :: items) else s.raise id (i16 c :: items)

/-- R251, R260, R271: a gap marker is written, with STREAM_GAP. -/
def State.gapMark (c first count : Nat) (s : State) : State :=
  let s := (s.latch 189).limited .streamGap c ms (State.raiseCtx c .streamGap [i32 first, i32 count])
  let s := s.modStitch c (fun x => { x with frag := none })
  if c < 256 then s.ringPut c (.gap first count) else s

/-- R84, R254: the arrival time of a packet's access unit as far as it is known: the earliest of the packet and of the
held packets with its timestamp. -/
def unitArrival (k : Pkt) (held : List Pkt) : T48 :=
  let ts (p : Pkt) : Option (BitVec 32) := p.rtp.map (·.ts)
  (held.filter (fun p => ts p == ts k)).foldl (fun a p => if diff48 p.ptp a < 0 then p.ptp else a) k.ptp

/-- R256: the payload bytes of a packet; those that the command does not give are 0 (DESIGN CHOICE, log entry 215). -/
def Pkt.bytes (k : Pkt) (h : Rtp) : List Byte := (List.range k.payload).map (fun j => h.body.getD j 0)

/-- R254: the bytes that a packet appends, and the fragmentation unit in progress after it; none where the kind is
discarded. -/
def payloadOf (frag : Option (List Byte)) (kind : PayKind) (bs : List Byte) : Option (List Byte) × Option (List Byte) :=
  match kind with
  | .single | .aggregation => (some bs, none)
  | .fragment true true => (some bs, none)
  | .fragment true false => (some [], some bs)
  | .fragment false last => match frag with
    | none => (some [], none)
    | some m => if last then (some (m ++ bs), none) else (some [], some (m ++ bs))
  | .other => (none, frag)

/-- R254: a packet of a decode stream is released into its bitstream queue. -/
def State.releaseStream (c : Nat) (k : Pkt) (h : Rtp) (s : State) : State :=
  let x := s.stitch c
  let boundary := x.auOpen && x.lastTs != some h.ts
  let s := if boundary then s.ringPut c .eoa else s
  let at_ := if x.auOpen && !boundary then x.auAt else unitArrival k x.held
  let (bs, frag) := payloadOf x.frag h.kind (k.bytes h)
  let s := match bs with
    | none => s.modStitch c (fun x => { x with other := x.other + 1 })
    | some bs => if bs.isEmpty then s else s.ringCopy c bs at_
  let s := if h.marker then s.ringPut c .eoa else s
  s.modStitch c (fun x => { x with frag := frag, lastTs := some h.ts, auOpen := !h.marker, auAt := at_ })

/-- R42, R179: a packet of an ST 2110-20 input is a signal, and is written to the capture buffer. -/
def State.releaseCapture (k : Nat) (p : Pkt) (h : Rtp) (s : State) : State :=
  if s.flt.st2110Out then s
  else
    let s := if (s.raster k).inState = .absent then s.setInState k .acquiring else s
    s.modRaster k (fun r => { r with
      got := r.got.upd 0 h.line (· + p.payload), cap := r.cap.upd [] h.line (captureBytes r.fmt h.offset h.body) })

/-- R250: a packet is released; X passes it, and its buffer is freed. -/
def State.release (c : Nat) (k : Pkt) (s : State) : State :=
  let s := match k.rtp with
    | some h => if c < 256 then s.releaseStream c k h else s.releaseCapture (c - 256) k h
    | none => s
  (s.modStitch c (fun x => { x with
    next := some (k.ext + 1), arrivals := ((k.ext, k.arrival) :: x.arrivals).take 512, dropRun := false })).freePkt k

/-- R250, R259: held packets that follow in unbroken order are released, at most `n` of them; one that has aged is discarded, and is
missing. -/
def State.releaseRun (n c : Nat) (s : State) : State :=
  match n with
  | 0 => s
  | m + 1 =>
    let x := s.stitch c
    match x.held with
    | k :: r =>
      if some k.ext ≠ x.next then s
      else
        let t := s.modStitch c (fun x => { x with held := r })
        if s.aged k then t.ageHeld k else (t.release c k).releaseRun m c
    | [] => s

/-- R251: the numbers from X to one less than the lowest held are declared missing: a gap marker, and the held packets
are released. -/
def State.declareMissing (c : Nat) (s : State) : State :=
  let x := s.stitch c
  match x.next, x.held with
  | some n, k :: _ =>
    let s := s.gapMark c n (k.ext - n)
    let gone := (List.range (min 512 (k.ext - n))).map (fun i => k.ext - 1 - i)
    let s := s.modStitch c (fun x => { x with next := some k.ext, missing := (gone ++ x.missing).take 512 })
    s.releaseRun 513 c
  | _, _ => s

/-- A packet enters the held ones by ascending number. -/
def insertHeld (k : Pkt) : List Pkt → List Pkt
  | [] => [k]
  | a :: r => if k.ext < a.ext then k :: a :: r else a :: insertHeld k r

/-- R252: the context has both paths of ST 2022-7: the decode stream's configuration says so, or rules of both paths feed the input. -/
def State.dualCtx (s : State) (c : Nat) : Bool :=
  if c < 256 then (s.decS c).cfg.dual
  else
    let mine (b : Bool) : Bool := s.run.rules.any (fun x => x.2.valid && x.2.dest == 0 && x.2.path == b &&
      s.run.capture.look none x.2.stream.toNat == some (c - 256))
    mine false && mine true

/-- R251: HOLD of a context, in ns. -/
def State.holdOf (s : State) (c : Nat) : Nat :=
  if c < 256 then (s.decS c).cfg.hold else s.run.inHold.look 200000 (c - 256)

/-- R250: a packet within the window of X. -/
def State.inWindow (c : Nat) (k : Pkt) (s : State) : State :=
  let x := s.stitch c
  let n := x.next.getD k.ext
  if k.ext = n then (s.release c k).releaseRun 513 c
  else if n < k.ext then
    match x.held.find? (fun h => h.ext == k.ext) with
    | some h => (s.modStitch c (fun x => { x with dup := x.dup + 1, skew := k.arrival - h.arrival })).freePkt k
    | none =>
      let s := s.modStitch c (fun x => { x with held := insertHeld k x.held })
      if 512 ≤ (s.stitch c).held.length then s.declareMissing c else s
  else if x.missing.contains k.ext then
    let s := s.modStitch c (fun x => { x with late := x.late + 1 })
    let s := if s.dualCtx c ∧ s.holdOf c < x.skew then
        (s.latch 189).limited .stitchSkew c sec (State.raiseCtx c .stitchSkew [i32 x.skew]) else s
    s.freePkt k
  else
    let skew := match x.arrivals.find? (fun a => a.1 == k.ext) with
      | some a => k.arrival - a.2
      | none => x.skew
    (s.modStitch c (fun x => { x with dup := x.dup + 1, skew := skew })).freePkt k

/-- R250: a number is a jump from X. -/
def isJump (x e : Nat) : Bool := decide (x + 1024 ≤ e) || decide (e + 512 < x)

/-- R250: the sequence numbers of a context repeat after so many: 16 bits of RTP, or 32 bits of ST 2110-20. -/
def seqMod (c : Nat) : Nat := if c < 256 then 65536 else 2 ^ 32

/-- R250, R253: a packet with its extended number: a jump is kept as candidate, and the next packet continues from it or
discards it. -/
def State.stitchOne (c : Nat) (k : Pkt) (s : State) : State :=
  let x := s.stitch c
  match x.next with
  | none => s.inWindow c k
  | some n =>
    match x.cand with
    | some j =>
      if k.ext % seqMod c = (j.ext + 1) % seqMod c then
        let s := s.each x.held State.freePkt
        let s := s.modStitch c (fun x => { x with cand := none, held := [], next := some j.ext, missing := [], arrivals := [] })
        let s := s.gapMark c n (j.ext - n)
        let s := ((s.latch 189).limited .stitchResync c ms (State.raiseCtx c .stitchResync [i32 n, i32 (j.ext + 2)]))
        (s.release c j).release c { k with ext := j.ext + 1 }
      else
        let s := (s.modStitch c (fun x => { x with cand := none })).freePkt j
        if isJump n k.ext then s.modStitch c (fun x => { x with cand := some k }) else s.inWindow c k
    | none => if isJump n k.ext then s.modStitch c (fun x => { x with cand := some k }) else s.inWindow c k

/-- R252: a packet on a path; under ST 2022-7 a path that is DOWN comes UP. -/
def State.pathSeen (c : Nat) (b : Bool) (s : State) : State :=
  let x := s.stitch c
  let was := if b then x.upB else x.upA
  let s := s.modStitch c (fun x =>
    if b then { x with lastB := s.now, upB := true } else { x with lastA := s.now, upA := true })
  if was || !s.dualCtx c then s
  else (s.latch 189).limited .stitchPath (2 * c + b.toNat) ms (State.raiseCtx c .stitchPath [i16 b.toNat, i16 2])

/-- R253: a context begins anew; the packets that it holds are freed. -/
def State.resetStitch (c : Nat) (s : State) : State :=
  let x := s.stitch c
  (s.each (x.held ++ x.cand.toList) State.freePkt).modStitch c (fun x => { x with
    next := none, held := [], cand := none, missing := [], arrivals := [], lastTs := none, auOpen := false, frag := none })

/-- R253: the SSRC of a context's source. -/
def State.ssrcOf (s : State) (c : Nat) : Option (BitVec 32) := if c < 256 then (s.decS c).ssrc else (s.stitch c).ssrc

/-- R157, R253: a change of SSRC is no jump: the context begins anew, and a decode stream is rejoined. -/
def State.ssrcSeen (c : Nat) (v : BitVec 32) (s : State) : State :=
  let other := (s.ssrcOf c).any (· != v)
  let s := s.whenB other (State.resetStitch c)
  if c < 256 then (s.modDecS c (fun d => { d with ssrc := some v })).whenB other (fun s => s.startStream c true)
  else s.modStitch c (fun x => { x with ssrc := some v })

end Sys2Proof.Machine
end

