-- ==== Sys2Proof/Machine/Encoder.lean ====
section
/-! DEFINITION. Encode streams: cadence, row release, sweep, buffer model, deferral and packets (R88 to R124). -/

namespace Sys2Proof.Machine

/-! Events and pictures. -/

/-- R124: an event of the encoder, once per stream, picture and event. -/
def State.encEvent (i : Nat) (pc : BitVec 32) (id : EventId) (items : List Item) (s : State) : State :=
  let e := s.encS i
  if e.evPic.contains (id, pc) then s
  else (s.modEncS i (fun e => { e with evPic := (id, pc) :: e.evPic.take 127 })).raiseP e.cfg.part id
    (i16 i :: .w32 pc :: items)

/-- R117, R118, R428: a local cause ends deterministic encode: 0 repeated rows, 1 local values, which every stream reports. -/
def State.nonDet (i : Nat) (pc : BitVec 32) (cause : Nat) (s : State) : State :=
  let e := s.encS i
  let s := if e.det then s.modEncS i (fun e => { e with det := false, detOk := false, match4 := 0 }) else s
  if e.det || cause == 1 then s.encEvent i pc .encodeNondeterministic [i16 (cause + 1)] else s

/-- Update of the oldest picture that is not complete. -/
def State.modHead (i : Nat) (f : EncPic → EncPic) (s : State) : State :=
  s.modEncS i (fun e => { e with pics := match e.pics with
    | p :: r => f p :: r
    | [] => [] })

/-- Update of the picture of PIC_COUNT `pc`. -/
def State.modEncPic (i : Nat) (pc : BitVec 32) (f : EncPic → EncPic) (s : State) : State :=
  s.modEncS i (fun e => { e with pics := e.pics.map (fun p => if p.picCount = pc then f p else p) })

/-- R105, R201: rows `a` up to but not including `b` of a picture become zero-motion rows with every tile HELD; the
picture is held, so the sweep restarts (R101). -/
def State.repeatRows (i : Nat) (pc : BitVec 32) (a b : Nat) (s : State) : State :=
  let k := (s.encS i).cfg.rows
  let s := (s.modEncS i (fun e => { e with restartHeld := true })).modEncPic i pc (fun p => { p with
      released := max p.released b, repeated := true, deadline := p.deadline ++ List.replicate (b - p.deadline.length) s.time
      zeroRows := p.zeroRows ++ (List.range (min b k)).filter (fun r => decide (a ≤ r) && !p.zeroRows.contains r) })
  (s.encEvent i pc .encodeRowsRepeated [i32 a, i32 (b - a)]).nonDet i pc 0

/-- R49: the time of line min(64 (r + 1), LA) + M, plus `extra` lines, of frame `f` of the input raster. -/
def State.releaseTime (s : State) (c : EncCfg) (f r extra : Nat) : Nat :=
  (s.lineTime c.raster f (min (64 * (r + 1)) (s.raster c.raster).fmt.la + c.margin + extra)).toNat

/-- R49: the nominal time of the same line (R38). -/
def State.nominalTime (s : State) (c : EncCfg) (f r extra : Nat) : Nat :=
  let fm := (s.raster c.raster).fmt
  (fmtLine fm ((f * fm.lt + min (64 * (r + 1)) fm.la + c.margin + extra : Nat) : Int)).toNat

/-- R63, R64, R67: a picture of frame `f` at PIC_TIME `t`, before any row is released: CLK and UNCERT are those of that time, and
whether the input is TRACKING is judged as the picture is formed (DESIGN CHOICE, log entry 147). -/
def State.freshPic (s : State) (i f t : Nat) (zero : Bool) (period : Nat) : EncPic :=
  let x := s.clkAt t
  { EncPic.reset with
    frame := f, picTime := t48 t, picTime64 := t, clkCode := x.1.segCode, uncert := uncertWord x.2
    zeroMotion := zero, period := period, tracked := s.tracking (s.encS i).cfg.raster }

/-- R103, R104, R119: a picture joins the stream with the next PIC_COUNT; the first one is the IDR picture, and its packets begin at
the sequence number of the image. -/
def State.addPic (i : Nat) (p : EncPic) (s : State) : State :=
  s.modEncS i (fun e => { e with
    pics := e.pics ++ [{ p with idr := !e.started, picCount := e.picCount }], picCount := e.picCount + 1, started := true
    lastFrame := p.frame, lastPicTime := p.picTime
    full := if e.started then e.full else 0, seq := if e.started then e.seq else e.cfg.seq0 })

/-- R143: the picture of PIC_COUNT `pc` takes a capture buffer, which the input port writes. -/
def State.captureBuf (i : Nat) (pc : BitVec 32) (s : State) : State :=
  let c := (s.encS i).cfg
  let n := bufferBlocks (c.cols * c.rows) 3 c.depth
  match s.freeDesc c.part n with
  | none => s
  | some b => ((s.claimDesc 3 c.part i n b).modPoolD b (fun d => { d with ref := false, cur := true })).modEncPic i pc
      (fun p => { p with buf := some b })

/-- R104: every row of a picture is released at once, with the deadlines given. -/
def releaseAll (k : Nat) (deadline : Nat → Nat) (p : EncPic) : EncPic :=
  { p with released := k, deadline := (List.range k).map deadline }

/-- R105: a row of a picture that is not issued is still to be coded in its own way. -/
def EncPic.overtaken (p : EncPic) (r k : Nat) : Bool :=
  decide (p.issued ≤ r) && !((List.range k).drop p.issued).all p.zeroRows.contains

/-- R105: when row `r` of the picture of PIC_COUNT `pc` is released, the unissued rows of the pictures before it whose row `r` is
not issued are repeated. -/
def State.overtake (i : Nat) (pc : BitVec 32) (r : Nat) (s : State) : State :=
  let e := s.encS i
  let k := e.cfg.rows
  let late := (e.pics.takeWhile (fun p => p.picCount != pc)).filter (fun p => p.overtaken r k)
  s.each late (fun p s => s.repeatRows i p.picCount p.issued k)

/-! Cadence (R104). -/

/-- R38: the nominal start of frame `f`. -/
def State.nominalStart (s : State) (k f : Nat) : Nat :=
  (fmtLine (s.raster k).fmt ((f * (s.raster k).fmt.lt : Nat) : Int)).toNat

/-- R104, R105: zero-motion pictures for the frames from `a` up to but not including `f`, with the deadlines of frame `f`; the release
of their rows repeats what earlier pictures have not issued (among themselves it does not, DESIGN CHOICE, log entry 148). -/
def State.fillFrames (i a f : Nat) (s : State) : State :=
  let c := (s.encS i).cfg
  let pc := (s.encS i).picCount
  let s := s.overtake i pc (c.rows - 1)
  let s := s.each ((List.range (f - a)).map (a + ·)) (fun g s =>
    s.addPic i (releaseAll c.rows (fun r => s.releaseTime c f r c.allowance)
      (s.freshPic i g (s.nominalStart c.raster g) true 0)))
  s.encEvent i pc .inputFrameFilled [i32 (f - a)]

/-- R104: the start of frame `f` of the input of encode stream `i` has been measured; `was` says that the input was
TRACKING before. A dropped frame's event carries the PIC_COUNT of the last picture formed (DESIGN CHOICE, log entry 148). -/
def State.encFrame (i : Nat) (f : Int) (was : Bool) (s : State) : State :=
  let e := s.encS i
  let k := e.cfg.raster
  if !s.tracking k || f < 0 then s
  else
    let p := s.freshPic i f.toNat (s.lineTime k f.toNat 0).toNat false (s.raster k).period
    if !e.started then if was then (s.addPic i p).captureBuf i e.picCount else s
    else if f = e.lastFrame then s.encEvent i (e.picCount - 1) .inputFrameDropped [.w32 (BitVec.ofInt 32 f)]
    else
      let s := if f ≤ e.lastFrame + 1 then s else s.fillFrames i (e.lastFrame + 1) f.toNat
      (s.addPic i p).captureBuf i (s.encS i).picCount

/-- R41, R117: at the release of row 0, a shadow takes the lead's values for a frame, and with the lead's start of the frame before it
the frame's period, or falls back to its own. -/
def State.takeTiming (i frame : Nat) (pc : BitVec 32) (s : State) : State :=
  let e := s.encS i
  if !s.follows then s
  else match e.timing.find? (fun t => t.raster == e.cfg.raster && t.frame == frame) with
    | some t => (s.modEncS i (fun e => { e with timing := e.timing.filter (fun x => decide (frame ≤ x.frame)) })).modEncPic i pc
        (fun p => { p with
          picTime := t48 t.sf, picTime64 := t.sf, clkCode := t.clk, uncert := t.u
          period := match e.timing.find? (fun x => x.raster == t.raster && x.frame + 1 == frame) with
            | some x => t.sf - x.sf
            | none => p.period })
    | none => (s.modEncPic i pc (fun p => { p with twin := false })).nonDet i pc 1

/-- R179: the released picture keeps the source lines of rows `a` up to but not including `b` of an ST 2110-20 input. -/
def State.keepSource (i : Nat) (pc : BitVec 32) (a b : Nat) (s : State) : State :=
  let k := (s.encS i).cfg.raster
  if k < 20 then s
  else s.modEncPic i pc (fun p => { p with
    rowSrc := ((List.range b).drop a).foldl (fun t j => Tbl.put t [] j ((s.raster k).capturedRow j)) p.rowSrc })

/-- R44, R103: the release of row `r` of frame `f` of encode stream `i`. -/
def State.encRelease (i f r : Nat) (s : State) : State :=
  let e := s.encS i
  match e.pics.find? (fun p => p.frame == f && !p.zeroMotion && decide (p.released ≤ r)) with
  | none => s
  | some p =>
    if !s.tracking e.cfg.raster || e.cfg.rows ≤ r then s
    else
      let s := s.overtake i p.picCount r
      let s := if p.released = 0 then s.takeTiming i f p.picCount else s
      let s := match p.buf with
        | some b => (s.modPoolD b (fun d => { d with rowsDone := BitVec.ofNat 16 (r + 1) })).eventAt (fun c => c.encTask == some i) 34
        | none => s
      let s := s.keepSource i p.picCount p.released (r + 1)
      let d (m : Nat) : Nat := s.releaseTime e.cfg f m e.cfg.allowance
      s.modEncPic i p.picCount (fun p => { p with
        deadline := p.deadline ++ ((List.range (r + 1)).drop p.released).map d, released := max p.released (r + 1) })

/-- R38, R104: the next nominal frame that an encoder codes by itself: the one after the last picture's, or, where the frame count has
moved backward, the next one to begin. -/
def State.nextOwnFrame (s : State) (i : Nat) : Nat :=
  let e := s.encS i
  let fm := (s.raster e.cfg.raster).fmt
  min (e.lastFrame + 1) ((fmtPosition fm s.time / (fm.lt : Int)).toNat + 1)

/-- R104: the encoder releases row `p.released` of a picture itself; a captured picture's row becomes a zero-motion row (DESIGN CHOICE,
log entry 149). -/
def State.ownRelease (i : Nat) (p : EncPic) (s : State) : State :=
  let s := s.overtake i p.picCount p.released
  let s := if p.zeroMotion then s else s.repeatRows i p.picCount p.released (p.released + 1)
  let d := s.nominalTime (s.encS i).cfg p.frame p.released (s.encS i).cfg.allowance
  s.modEncPic i p.picCount (fun x => { x with own := true, released := p.released + 1, deadline := p.deadline ++ [d] })

/-- ENCODE_SELF_RELEASE (R104): while the input is ABSENT or ACQUIRING, the encoder releases the next row: of a picture
whose rows are not all released, or row 0 of the next nominal frame's zero-motion picture. A picture that it has begun to release so
it releases to its end. -/
def execEncodeSelfRelease (i : Nat) (s : State) := ok (
  let e := s.encS i
  let k := e.cfg.rows
  let tracking := s.tracking e.cfg.raster
  if !s.serving || !e.started || e.cfg.input.isNone || k = 0 then s
  else match e.pics.find? (fun p => decide (p.released < k) && (p.own || !tracking)) with
    | some p => s.ownRelease i p
    | none =>
      if tracking then s
      else
        let g := s.nextOwnFrame i
        let s := s.addPic i (s.freshPic i g (s.nominalStart e.cfg.raster g) true 0)
        match (s.encS i).pics.getLast? with
        | some p => s.ownRelease i p
        | none => s)

/-- R122: the deadline of the rows of a host-fed stream's zero-motion picture: line n of raster k in the frame that follows frame `f`. -/
def State.hostDeadline (s : State) (c : EncCfg) (f : Nat) : Nat := (s.lineTime c.hostRaster (f + 1) c.hostLine).toNat

/-- R105, R122: a picture of a host-fed stream joins it, and all its rows are released. -/
def State.addHostPic (i : Nat) (deadline : Nat) (p : EncPic) (s : State) : State :=
  let e := s.encS i
  (s.overtake i e.picCount (e.cfg.rows - 1)).addPic i (releaseAll e.cfg.rows (fun _ => deadline) p)

/-- HOSTFED_FRAME_START (R122): the oldest codable posted picture is coded, or else a zero-motion picture. -/
def execHostfedFrameStart (i : Nat) (s : State) := ok (
  let e := s.encS i
  if !s.serving || !e.cfg.enabled || e.cfg.input.isSome then s
  else
    let f := (s.frameNow e.cfg.hostRaster).toNat
    match e.posted.find? (·.codable) with
    | some x =>
      let t := ((s.time : Int) + diff48 x.picTime s.time48).toNat
      let p := { s.freshPic i (max f (e.lastFrame + 1)) t false 0 with hostAttest := x.attest, source := some x.raw }
      (s.modEncS i (fun e => { e with posted := e.posted.erase x })).addHostPic i x.deadline p
    | none =>
      if !e.started then s
      else
        let t := ((s.time : Int) + diff48 e.lastPicTime s.time48).toNat
        s.addHostPic i (s.hostDeadline e.cfg f) (s.freshPic i (max f (e.lastFrame + 1)) t true 0))

/-! The start of a picture's coding: sweep, attestation and adoption (R64, R65, R95, R98, R101, R115, R427). -/

/-- R65: liveness of a picture. -/
def EncStream.live (e : EncStream) (p : EncPic) : Bool :=
  match e.cfg.beacon, e.tb with
  | none, _ => true
  | some _, none => true
  | some _, some t => decide (diff48 p.picTime t ≤ ((e.cfg.beaconWin * ms : Nat) : Int))

/-- R64, R66: whether a picture attests. -/
def EncStream.attests (e : EncStream) (p : EncPic) : Bool :=
  let due := match e.lastAttest with
    | none => true
    | some t => decide (((e.cfg.interval * ms : Nat) : Int) ≤ diff48 p.picTime t)
  due && (if e.cfg.input.isNone then p.hostAttest else p.tracked && e.live p)

/-- R67: STEPPED of a picture. -/
def State.steppedAt (s : State) (c : EncCfg) (t : Nat) : Bool :=
  s.ras.clk.steps.any (fun x => decide (x ≤ t) && decide (t ≤ x + c.interval * ms))

/-- R427: ENC_STATE is taken at a sweep start; the pictures that wait are counted on from it. -/
def EncStream.adopt (m : EncAdopt) (e : EncStream) : EncStream :=
  { e with
    pics := e.pics.zipIdx.map (fun p => { p.1 with picCount := m.picCount + BitVec.ofNat 32 p.2 })
    picCount := m.picCount + BitVec.ofNat 32 e.pics.length, sweepPos := m.sweepPos, seq := m.seq, full := m.full
    qpPrev := m.qpPrev, bits8 := m.bits8
    lastAttest := m.lastAttest, tb := m.tb, encState := none, det := e.cfg.deterministic }

/-- R427: the encoder's state before picture `p`, as a lead sends it. -/
def EncStream.toAdopt (e : EncStream) (p : EncPic) : EncAdopt :=
  ⟨p.picCount, e.sweepPos, e.seq, e.full, e.qpPrev, e.bits8, e.lastAttest, e.tb⟩

/-- R427: at a sweep start of a deterministic stream a lead sends ENC_STATE, and a shadow adopts it or falls back. -/
def State.sweepTwin (i : Nat) (p : EncPic) (s : State) : State :=
  let e := s.encS i
  if !e.cfg.deterministic || e.detOk || s.grt.link != .up || !s.grt.imageMatch then s
  else if s.glb.role = .lead then s.gPut (.encState i (e.toAdopt p))
  else if s.follows then match e.encState with
      | some m => s.modEncS i (EncStream.adopt m)
      | none => if s.grt.configSync then s.nonDet i p.picCount 1 else s
  else s

/-- R98, R101: the sweep position of a picture and the trigger of a restart, if it restarts the sweep. -/
def EncStream.sweepFor (e : EncStream) (p : EncPic) : Nat × Option Nat :=
  if p.idr then (0, none)
  else match e.restarts.find? (fun r => decide (0 ≤ diff48 p.picTime r.1)) with
    | some r => (0, some r.2)
    | none => if e.restartHeld && !p.zeroMotion && p.zeroRows.isEmpty && e.shed.isNone then (0, some 3) else (e.sweepPos, none)

/-- R95, R115: the values that wait take effect at a picture that begins a sweep after their commit. -/
def EncStream.takePending (p : EncPic) (e : EncStream) : EncStream :=
  let due (x : BitVec 48 × EncCfg) : Bool := decide (0 ≤ diff48 p.picTime x.1)
  match (e.pend.filter due).getLast? with
  | some x => { e with cfg := e.cfg.keepSweep x.2, pend := e.pend.filter (fun y => !due y) }
  | none => e

/-- R118: both devices of a twin pair code the same input with the same values; a device without a twin has no other. -/
def State.sameInputs (s : State) (p : EncPic) : Bool :=
  p.twin && ((s.glb.role != .lead && s.glb.role != .shadow) || (s.grt.link == .up && s.grt.imageMatch && s.grt.configSync))

/-- R98, R101, R311: the sweep position of the oldest picture; every row of a HELD stream's picture is a repeated one. -/
def State.beginSweep (i : Nat) (p : EncPic) (pos : Nat) (trig : Option Nat) (s : State) : State :=
  let held := p.zeroMotion || p.repeated || (s.encS i).shed.isSome
  let s := s.modEncS i (fun e => { e with
    sweepPos := pos, restarts := e.restarts.filter (fun r => !decide (0 ≤ diff48 p.picTime r.1))
    restartHeld := if held then true else if trig.isSome then false else e.restartHeld })
  if (s.encS i).shed.isSome then
    (s.modHead i (fun p => { p with zeroRows := List.range (s.encS i).cfg.rows })).nonDet i p.picCount 0
  else s

/-- R94, R95, R101, R115, R118, R427: the oldest picture begins a sweep. -/
def State.startSweep (i : Nat) (p : EncPic) (trig : Option Nat) (s : State) : State :=
  let s := s.sweepTwin i p
  let same := s.sameInputs p
  let s := s.modEncS i (fun e => { e.takePending p with
    det := e.det || (e.cfg.deterministic && (p.idr || trig.isSome) && same) })
  s.modHead i (fun p => { p with sweepStart := true })

/-- R54 to R67: the attestation and the ledger's fields of the oldest picture. -/
def State.attestPic (i : Nat) (restart : Bool) (s : State) : State :=
  let e := s.encS i
  match e.pics with
  | [] => s
  | p :: _ =>
    let att := e.attests p
    (s.modHead i (fun p => { p with
      attest := att, stepped := s.steppedAt e.cfg p.picTime64, sweepPos := e.sweepPos, restart := restart })).modEncS i
      (fun e => { e with lastAttest := if att then some p.picTime else e.lastAttest })

/-- R64, R95, R98, R101, R115: the oldest picture's coding begins, as its row 0 is issued. -/
def State.beginPic (i : Nat) (s : State) : State :=
  match (s.encS i).pics with
  | [] => s
  | p :: _ =>
    let r := (s.encS i).sweepFor p
    let s := s.beginSweep i p r.1 r.2
    let p := (s.encS i).pics.headD p
    let s := if r.1 = 0 && !p.wholly (s.encS i).cfg.rows then s.startSweep i p r.2 else s
    let s := s.attestPic i r.2.isSome
    match r.2 with
    | some t => s.encEvent i ((s.encS i).pics.headD p).picCount .sweepRestarted [i16 (t + 1)]
    | none => s

/-! Issue (R49, R103). -/

/-- R208: a core's decision identity suits a deterministic stream: it is the one in use, or the next row is the first of
a sweep that begins after the commit position of a change. -/
def EncStream.identityOk (e : EncStream) (d : BitVec 16) : Bool :=
  match e.decId, e.pics with
  | some i, p :: _ => !e.cfg.deterministic || i == d ||
      (p.issued == 0 && (e.sweepFor p).1 == 0 && !p.zeroMotion && e.decAt.any (fun t => decide (0 ≤ diff48 p.picTime t)))
  | _, _ => true

/-- R103, R207: a core may code a row of the stream, once it is in C0. -/
def State.mayEncode (s : State) (i c : Nat) : Bool :=
  let e := s.encS i
  let x := s.core c
  decide (c < 32) && decide (c / 8 = e.bay.getD e.cfg.home) && x.role == .encode && !x.fenced && !(s.bay (c / 8)).fenced &&
  !x.stalled && !x.draining && x.encTask.isNone && x.part == some e.cfg.part && e.identityOk x.decision &&
  s.batchAllows true i ((e.pics.headD EncPic.reset).picCount.toNat) c

/-- R123: the cores that a row needs. -/
def State.rowCores (s : State) (i : Nat) : Nat :=
  if (s.encS i).cfg.twoTiles (s.raster (s.encS i).cfg.raster).fmt then 2 else 1

/-- R103, R201: a row of a stream's oldest picture waits for a core: the next one, one that was abandoned, or the second tile column of
one in flight. -/
def State.rowReady (s : State) (i : Nat) : Bool :=
  match (s.encS i).pics with
  | p :: _ => if p.done < p.issued then decide (p.cores.length < s.rowCores i) else decide (p.issued < p.released)
  | [] => false

/-- R49: what the order of encode rows goes by: the deadline, the stream's class and its identifier. -/
def EncStream.order (i : Nat) (e : EncStream) : Nat × Nat × Nat :=
  let p := e.pics.headD EncPic.reset
  (p.deadline.getD p.done 0, e.cfg.cls.rank, i)

/-- R49: the first of two orders. -/
def orderBefore (a b : Nat × Nat × Nat) : Bool :=
  decide (a.1 < b.1) || (a.1 == b.1 && (decide (a.2.1 < b.2.1) || (a.2.1 == b.2.1 && decide (a.2.2 < b.2.2))))

/-- R49: another stream's row stands before stream `i`'s at core `c`. -/
def State.rowBefore (s : State) (i c : Nat) : Bool :=
  s.enc.any (fun x => x.1 != i && s.rowReady x.1 && s.mayEncode x.1 c && orderBefore (x.2.order x.1) ((s.encS i).order i))

/-- R103, R193, R208: core `c` takes the row in flight of stream `i`, with event 32; a deterministic stream's burst has its standing grant
(R102). -/
def State.takeRow (i c : Nat) (cores : List Nat) (s : State) : State :=
  let d := (s.core c).decision
  let s := (s.modCore c (fun x => { x with encTask := some i })).modEncS i (fun e => { e with
    decAt := if e.decId.any (· != d) then none else e.decAt, decId := some d })
  (s.modHead i (fun p => { p with
    cores := cores ++ [c], searched := if cores.isEmpty then (s.encS i).cfg.deterministic else p.searched })).coreEvent c 32

/-- ENCODE_ROW_ISSUE (R49, R103, R123, R210): the next row of the oldest picture goes to an encode core of the owning bay, by deadline; a
row of two tile columns takes a second core. A core that is not in C0 is woken for it first. -/
def execEncodeRowIssue (i c : Nat) (s : State) := ok (
  if !s.serving || !s.mayEncode i c || !s.rowReady i || s.rowBefore i c then s
  else if (s.core c).pstate != .c0 then s.wakeCore c
  else match (s.encS i).pics with
    | [] => s
    | p :: _ =>
      if p.done < p.issued then s.takeRow i c p.cores
      else
        let s := if p.issued = 0 then s.beginPic i else s
        (s.modHead i (fun p => { p with issued := p.issued + 1 })).takeRow i c [])

/-- R201: the encode row in flight on core `c` is abandoned: it is re-issued, or on its third abandonment repeated. -/
def State.abandonEncode (c : Nat) (s : State) : State :=
  match (s.core c).encTask with
  | none => s
  | some i =>
    let p := ((s.encS i).pics.headD EncPic.reset)
    let s := s.each p.cores (fun c => State.modCore c (fun x => { x with encTask := none }))
    let s := s.modHead i (fun p => { p with cores := [], issues := p.issues + 1 })
    if p.issues + 1 = 3 then s.repeatRows i p.picCount p.done (p.done + 1) else s

/-! The buffer model (R107 to R114). -/

/-- R107: bits are kept times NUM × LT, so that every arrival is whole. -/
def bufUnit (f : RasterFmt) : Nat := f.num * f.lt

/-- R107: H(n, j), the headroom of row `j` of picture `p`, in bits times NUM × LT. -/
def EncStream.headroom (e : EncStream) (f : RasterFmt) (p : EncPic) (j : Nat) : Int :=
  let c := e.cfg
  let b : Int := ((c.cpb * bufUnit f : Nat) : Int)
  let step : Int := ((c.rate * f.den * 64 : Nat) : Int)
  let n : Int := (c.rows : Int) - 1
  if p.idr && j == 0 then b - step * n
  else
    let frame : Int := ((c.rate * f.den : Nat) : Int) * ((f.lt : Int) - 64 * n)
    let h := e.full + (if j = 0 then frame else step)
    if c.rc = .cbr then h else min h b

/-- R110: value tiles of row `m` that are never deferred. -/
def EncCfg.sweepValue (c : EncCfg) (p : EncPic) (m : Nat) : Nat :=
  let (lo, hi) := c.sweep p
  if p.zeroRows.contains m then 0
  else ((List.range c.cols).filter (fun x => decide (lo ≤ x) && decide (x < hi) && c.isValue x m)).length

/-- R110: Res(n, j), in bits times NUM × LT. -/
def EncStream.reserve (e : EncStream) (f : RasterFmt) (p : EncPic) (j : Nat) : Int :=
  let c := e.cfg
  let later := (List.range c.rows).drop (j + 1)
  let need := (later.map (fun m => c.sweepValue p m * c.cMax + rowFloor)).sum * bufUnit f
  let come := (c.rows - 1 - j) * c.rate * f.den * 64
  max 0 ((need : Int) - (come : Int))

/-- R109: t_row = R_t × δ, rounded down to whole bits (DESIGN CHOICE, log entry 150). -/
def EncCfg.rowTarget (c : EncCfg) (f : RasterFmt) : Nat :=
  (if c.rc = .vbr then c.rateAvg else c.rate) * 64 * f.den / (f.num * f.lt)

/-- R109, R196: an operation of the pattern sequencer's ALU within the rate arithmetic: its result, with SAT and DZ so far. -/
def rcOp (aop : Nat) (a b : Word × BitVec 2) : Word × BitVec 2 :=
  let x := (alu aop a.1 b.1 0).getD (AluOut.plain 0)
  (x.r, a.2 ||| b.2 ||| (BitVec.ofBool x.dz ++ BitVec.ofBool x.sat))

/-- A constant of the rate arithmetic. -/
def rcWord (n : Int) : Word × BitVec 2 := (BitVec.ofInt 32 n, 0)

/-- R109: qp_row on the pattern sequencer's saturating arithmetic, with DZ (bit 1) and SAT (bit 0). -/
def qpRow (c : EncCfg) (prev : Int) (bits : List Nat) (row : Nat) : Int × BitVec 2 :=
  let bits8 := bits.foldl (fun a n => rcOp 2 a (rcWord n)) (rcWord 0)
  let t8 := rcOp 0x11 (rcWord 8) (rcWord row)
  let dq := rcOp 0x12 (rcOp 0x11 (rcWord 6) (rcOp 4 bits8 t8)) t8
  let dq := rcOp 0x0E (rcOp 0x0F dq (rcWord (-3))) (rcWord 3)
  let q := rcOp 0x0E (rcOp 0x0F (rcOp 2 (rcWord prev) dq) (rcWord c.qpMin)) (rcWord c.qpMax)
  (q.1.toInt, q.2)

/-! A row's forms (R58, R92 to R99, R110 to R113). -/

/-- A row in one form: the configuration, format, MTU, picture and row number; whether it is a zero-motion row with every tile HELD; its
QP; the source samples, those of each tile's last coding, and the reference picture; the ledger's fields; what the core decided; and
of R111 the stage, the columns of the non-sweep value tiles kept, and the entropy unit's run. -/
structure RowForm where
  cfg : EncCfg
  fmt : RasterFmt
  mtu : Nat
  pic : EncPic
  row : Nat
  zero : Bool
  qp : Int
  src : List Samples
  last : Tbl Samples
  recon : Tbl Samples
  head : SegHead
  tiles : List CodedTile
  stage : Nat
  kept : List Nat
  run : EntropyRun
  deriving DecidableEq, Repr

/-- The number of the tile at column `x`. -/
def RowForm.tile (g : RowForm) (x : Nat) : Nat := g.cfg.cols * g.row + x

/-- The tile at column `x` of the reference picture. -/
def RowForm.before (g : RowForm) (x : Nat) : Samples := g.recon.look noSamples (g.tile x)

/-- The source samples of the tile at column `x`. -/
def RowForm.source (g : RowForm) (x : Nat) : Samples := g.src.getD x noSamples

/-- R98: tile column `x` lies in the sweep column of the row. -/
def RowForm.inSweep (g : RowForm) (x : Nat) : Bool :=
  !g.zero && decide ((g.cfg.sweep g.pic).1 ≤ x) && decide (x < (g.cfg.sweep g.pic).2)

/-- R58: the tile is coded afresh whatever it holds: it lies in the sweep column or belongs to the IDR picture. -/
def RowForm.must (g : RowForm) (x : Nat) : Bool := !g.zero && (g.pic.idr || g.inSweep x)

/-- R58, R110, R112: the tile may be deferred: a non-sweep value tile whose source differs from the reference picture, not of the IDR
picture. -/
def RowForm.candidate (g : RowForm) (x : Nat) : Bool :=
  !g.zero && g.cfg.isValue x g.row && !g.must x && g.source x != g.before x

/-- R112: the tile is a deferred value tile. -/
def RowForm.deferred (g : RowForm) (x : Nat) : Bool := g.candidate x && !g.kept.contains x

/-- R92, R123: a slice of the row begins at column `x`. -/
def RowForm.begins (g : RowForm) (x : Nat) : Bool :=
  let (lo, hi) := g.cfg.sweep g.pic
  g.cfg.sliceStart (g.cfg.split g.fmt) (if lo < hi then some hi else none) g.row x

/-- R96, R111, R112: the reconstruction of the tile at column `x`, `left` being that of the tile before it: the reference picture's in
a zero-motion row and for a deferred or unchanged value tile, and the source of a value tile that is coded. A video tile is as the
entropy unit's run gives it, and at stages 3 and 4 as the reference picture's, or where it is intra-coded as DC without residual
(DESIGN CHOICE, log entry 187, for the IDR picture). -/
def RowForm.recAt (g : RowForm) (x : Nat) (left : Samples) : Samples :=
  if g.zero then g.before x
  else if g.cfg.isValue x g.row then
    if g.must x || (g.candidate x && !g.deferred x) then g.source x else g.before x
  else if g.stage < 3 then (g.run.ctus.getD x ⟨[], noSamples⟩).recon
  else if g.must x then Config.intraDc g.cfg.depth (g.cfg.tileDims x g.row) (if g.begins x then none else some left)
  else g.before x

/-- R96, R111, R112: the reconstruction of the tile at a column. -/
def RowForm.recOf (g : RowForm) : Nat → Samples
  | 0 => g.recAt 0 noSamples
  | x + 1 => g.recAt (x + 1) (g.recOf x)

/-- R58: the tile is coded afresh. -/
def RowForm.afresh (g : RowForm) (x : Nat) : Bool := g.must x || g.recOf x != g.before x

/-- R58: the tile's source differs from that of its last coding. -/
def RowForm.srcDiffers (g : RowForm) (x : Nat) : Bool := g.pic.idr || g.source x != g.last.look noSamples (g.tile x)

/-- R58, R104, R112: the code of a tile: HELD in a zero-motion row and when deferred. -/
def RowForm.code (g : RowForm) (x : Nat) : BitVec 2 :=
  if g.zero || g.deferred x then 0
  else if g.afresh x then (if g.srcDiffers x then 2 else 3)
  else if !g.srcDiffers x && g.pic.attest then 1 else 0

/-- R63: DELTA of a row. -/
def RowForm.delta (g : RowForm) : Nat :=
  if g.cfg.input.isNone then 0 else min (64 * g.row * g.pic.period / g.fmt.lt / 10000) 0xFFFF

/-- R55 to R58: the tile records of a row. -/
def RowForm.records (g : RowForm) : List SegTile :=
  (List.range g.cfg.cols).map (fun x =>
    let k := g.code x
    ⟨k, if codeHasEntry k then tileCrc (g.recOf x) else 0, if k = 2 then g.delta else 0⟩)

/-- R55, R56: the picture-level fields of a picture's segments. -/
def segHeadOf (c : EncCfg) (last : Option T48) (p : EncPic) : SegHead :=
  ⟨p.attest, p.stepped, p.clkCode, 0, c.cols, c.rows, p.picCount, p.picTime,
    if p.attest then p.picTime else last.getD 0, p.uncert, c.regions⟩

/-- R54, R55: the Berris segment of a row; none where the ledger is not enabled. -/
def RowForm.segment (g : RowForm) : List Byte := if g.cfg.ledger then buildSegment g.head g.row g.records else []

/-- R97: the slice data of a CTU: a value CTU beyond its bound is coded as four PCM coding units. -/
def RowForm.dataOf (g : RowForm) (x : Nat) : List Byte :=
  let d := (g.run.ctus.getD x ⟨[], noSamples⟩).data
  if g.cfg.isValue x g.row && g.afresh x && decide (g.cfg.pcmBound < 8 * d.length) then (g.tiles.getD x ⟨[], []⟩).pcm else d

/-- R54, R92, R94: the NAL units of a row up to its Berris segment: those that begin a sweep's access unit, the decoding unit
information, the slice segments, and the segment. -/
def RowForm.units (g : RowForm) : List NalUnit :=
  (if g.row = 0 then g.cfg.headUnits g.fmt g.pic else []) ++ [.duInfo (g.cfg.rows - 1 - g.row)] ++
  g.cfg.sliceUnits g.fmt g.mtu g.pic g.row g.zero g.qp ((List.range g.cfg.cols).map g.dataOf) ++
  (if g.cfg.ledger then [.ledger g.segment] else [])

/-- R94: the decoded picture hash after the last row. -/
def RowForm.tail (g : RowForm) : List NalUnit :=
  if g.row + 1 = g.cfg.rows then
    [g.cfg.hashUnit (fun t => if t / g.cfg.cols = g.row then g.recOf (t % g.cfg.cols) else g.recon.look noSamples t)]
  else []

/-- R107: d(n, j) of a row in a form, without filler. -/
def RowForm.bits (g : RowForm) : Nat := unitBits (g.units ++ g.tail)

/-- R106, R111, R112: the columns of the tiles that may be deferred, in the order in which they are kept: raster order,
and under CAPLL the tiles of value regions before the others. -/
def RowForm.candidates (g : RowForm) : List Nat :=
  let xs := (List.range g.cfg.cols).filter g.candidate
  xs.filter (fun x => inRegions g.cfg.regions x g.row) ++ xs.filter (fun x => !inRegions g.cfg.regions x g.row)

/-- R111: the row at a stage with the first `k` value tiles kept, if the entropy unit has run so. -/
def RowForm.form (g : RowForm) (runs : List EntropyRun) (cand : List Nat) (st k : Nat) : Option RowForm :=
  (runs.find? (fun r => r.stage == st && r.kept == k)).map (fun r => { g with stage := st, kept := cand.take k, run := r })

/-- R111: whether the form fits that the entropy unit's run at a stage gives; none without such a run. -/
def RowForm.fitsAt (g : RowForm) (runs : List EntropyRun) (cand : List Nat) (fits : RowForm → Bool) (st k : Nat) : Option Bool :=
  (g.form runs cand st k).map fits

/-- R111: what the binary search of stage 3 over `n` tiles finds: the most that fit, where one more does not, or that none fit;
none where the runs do not show it. -/
def RowForm.search (fitsAt : Nat → Option Bool) (n : Nat) : Option (Option Nat) :=
  match (List.range (n + 1)).reverse.find? (fun k => fitsAt k == some true) with
  | some k => if k = n ∨ fitsAt (k + 1) = some false then some (some k) else none
  | none => if fitsAt 0 = some false then some none else none

/-- R111: the first form that fits; stage 3 that keeps none of the tiles is stage 4 (DESIGN CHOICE, log entry 151). None where a run
that the order calls for is missing. -/
def RowForm.choose (g : RowForm) (runs : List EntropyRun) (cand : List Nat) (fits : RowForm → Bool) : Option RowForm :=
  let form := g.form runs cand
  let fit := g.fitsAt runs cand fits
  let n := cand.length
  if g.zero then form 4 0
  else match fit 1 n with
    | none => none
    | some true => form 1 n
    | some false => match RowForm.search (fit 3) n with
      | none => none
      | some none => form 4 0
      | some (some k) => match fit 2 k with
        | none => none
        | some true => form 2 k
        | some false => if k = 0 ∧ 0 < n then form 4 0 else form 3 k

/-- R113: the filler bytes that a CBR row needs when `left` remains after it and `come` arrives before the next removal. -/
def fillerBytes (unit : Nat) (left come cap : Int) : Nat :=
  let extra := left + come - cap
  if extra ≤ 0 then 0 else max 3 ((extra.toNat + 8 * unit - 1) / (8 * unit))

/-! Sending (R119). -/

/-- R423 to R425: the device hands the stream's packets to egress; a stream that restarts after a takeover is sent from the
restarted sweep on. -/
def State.sendsCoded (s : State) (i : Nat) : Bool :=
  (s.glb.role != .shadow || s.glb.mode == .takeover) && s.glb.mode != .degraded && !s.glb.demoting &&
  !((s.encS i).ssrcFlip && (s.encS i).restarts.any (fun r => r.2 == 5))

/-- R119: a packet is handed to the Runner, one copy for each of the stream's flows. -/
def State.sendPacket (i : Nat) (k : Pkt) (s : State) : State := s.sendCopies k (s.encS i).cfg.flows

/-- R119: the RTP timestamp. -/
def rtpTime (t : Nat) : BitVec 32 := BitVec.ofNat 32 (t * 9 / 100000)

/-- R119, R424: a packet of picture `p` with the RTP payload `x.1`; `last` ends the access unit. -/
def State.rowPacket (i : Nat) (p : EncPic) (last : Bool) (x : List Byte × PayKind) (s : State) : State :=
  let n := x.1.length
  let e := s.encS i
  let c := e.cfg
  let ssrc := if e.ssrcFlip then c.ssrc ^^^ 1 else c.ssrc
  let h : Rtp := ⟨ssrc, e.seq, 0, rtpTime p.picTime64, last, x.2, 0, c.payType, 0, x.1⟩
  let k : Pkt := { s.newPkt (6 + e.bay.getD c.home) (c.frameLen n) n c.part 0 4 0 with rtp := some h, dscp := c.dscp, vid := c.vid }
  let s := s.modEncS i (fun e => { e with seq := e.seq + 1 })
  if s.sendsCoded i then s.sendPacket i k
  else s.modEncS i (fun e => { e with
    replay := (e.replay.filter (fun x => decide (s.now < x.1 + 2 * ms))) ++ [(s.now, k)] })

/-- R119: the packets of a row's NAL units, in order; `ends` says that the row ends the access unit. -/
def State.rowPackets (i : Nat) (p : EncPic) (nals : List (List Byte)) (ends : Bool) (s : State) : State :=
  let ps := nals.flatMap (fun n => nalPackets ((s.encS i).cfg.payloadLimit (s.mtuOf (s.encS i).cfg.flows)) n)
  s.each ps.zipIdx (fun y => State.rowPacket i p (ends && y.2 + 1 == ps.length) y.1)

/-! The end of a picture (R65, R428). -/

/-- R427, R428: the device's own CRCs of a picture are compared with the twin's, once both are there. -/
def State.crcCheck (i : Nat) (pc : BitVec 32) (s : State) : State :=
  let e := s.encS i
  match e.ownCrc.find? (fun x => x.picCount == pc), e.peerCrc.find? (fun x => x.picCount == pc) with
  | some a, some b =>
    let s := s.modEncS i (fun e => { e with
      ownCrc := e.ownCrc.filter (fun x => x.picCount != pc), peerCrc := e.peerCrc.filter (fun x => x.picCount != pc)
      crcAt := e.crcAt.filter (fun x => x.1 != pc), missing8 := 0 })
    if a = b then
      let n := e.match4 + 1
      let s := s.modEncS i (fun e => { e with match4 := n })
      if e.detOk || n < 4 || !e.det then s
      else
        let s := (s.modEncS i (fun e => { e with detOk := true })).limited .encodeVerified i ms
          (State.raiseP e.cfg.part .encodeVerified [i16 i, .w32 pc])
        if s.enc.all (fun x => !x.2.cfg.deterministic || x.2.detOk) then s.limited .twinResynced 0 ms (State.raise .twinResynced [])
        else s
    else
      let which := (if a.bs = b.bs then 0 else 1) + (if a.ledger = b.ledger then 0 else 2)
      let s := (s.modEncS i (fun e => { e with det := false, detOk := false, match4 := 0 })).latch 207
      let s := s.limited .encodeDiverged i ms (State.raiseP e.cfg.part .encodeDiverged [i16 i, .w32 pc, i16 which])
      if s.glb.role = .lead then s.encRestart i (e.lastPicTime + 1) 4 else s
  | _, _ => if e.crcAt.any (fun x => x.1 == pc) then s else s.modEncS i (fun e => { e with crcAt := e.crcAt ++ [(pc, s.now)] })

/-- R143: a capture buffer is free again. -/
def State.freeCapture (p : EncPic) (s : State) : State :=
  match p.buf with
  | some b => s.modPoolD b (fun d => { d with cur := false })
  | none => s

/-- R98: the sweep position after a picture: one coded wholly as zero motion does not advance it. -/
def EncCfg.nextPos (c : EncCfg) (p : EncPic) : Nat := if p.wholly c.rows then p.sweepPos else (p.sweepPos + 1) % c.sweepLen

/-- R65, R98, R428: the oldest picture is complete. -/
def State.endPic (i : Nat) (s : State) : State :=
  match (s.encS i).pics with
  | [] => s
  | p :: r =>
    let s := (s.freeCapture p).modEncS i (fun e => { e with
      pics := r, tb := if p.beaconDiff || p.idr then some p.picTime else e.tb, sweepPos := e.cfg.nextPos p })
    let e := s.encS i
    if e.cfg.deterministic && s.grt.link == .up && (s.glb.role == .lead || s.glb.role == .shadow) then
      let m : PicCrc := ⟨p.picCount, crc32c p.bsBytes, crc32c p.ledgerBytes⟩
      ((s.modEncS i (fun e => { e with ownCrc := e.ownCrc ++ [m] })).gPut (.picCrc i m)).crcCheck i p.picCount
    else s

/-! The end of a row (R109 to R114). -/

/-- R112, R124: the events of a row; under CAPLL the tiles outside the value regions count as value tiles too (DESIGN CHOICE, log
entry 151). -/
def State.rowEvents (i : Nat) (g : RowForm) (cand : List Nat) (s : State) : State :=
  let put := cand.filter (fun x => !g.kept.contains x)
  let s := if g.zero || put.isEmpty then s
    else s.encEvent i g.pic.picCount .valueTileDeferred
      [i32 put.length, tileItem g.cfg.cols (g.cfg.cols * g.row + put.foldl min (put.headD 0))]
  if !g.zero && decide (3 ≤ g.stage) then s.encEvent i g.pic.picCount .videoRowHeld [i32 g.row, i16 g.stage] else s

/-- R113: the picture after `p`: the one that waits, or else one a frame period later (DEDUCED, log entry 150). -/
def EncStream.upcoming (e : EncStream) (f : RasterFmt) (p : EncPic) : EncPic :=
  e.pics[1]?.getD { EncPic.reset with picTime := t48 (p.picTime64 + fmtPeriod f) }

/-- R101, R115: the configuration of the picture after `p`: the values that wait and are due, where that picture begins a sweep. -/
def EncStream.nextCfg (e : EncStream) (f : RasterFmt) (p : EncPic) : EncCfg :=
  let q := e.upcoming f p
  let e := { e with sweepPos := e.cfg.nextPos p }
  if (e.sweepFor q).1 = 0 && !q.wholly e.cfg.rows then (e.takePending q).cfg else e.cfg

/-- R113, R115: the filler bytes of a row in the form chosen, with headroom `h`. -/
def EncStream.filler (e : EncStream) (f : RasterFmt) (p : EncPic) (j coded : Nat) (h : Int) : Nat :=
  let ends := decide (j + 1 = e.cfg.rows)
  let c := if ends then e.nextCfg f p else e.cfg
  let come : Int := ((c.rate * f.den * (if ends then f.lt else 64) : Nat) : Int)
  if c.rc = .cbr then
    fillerBytes (bufUnit f) (h - ((coded * bufUnit f : Nat) : Int)) come ((c.cpb * bufUnit f : Nat) : Int)
  else 0

/-- R65: a source sample of a row inside the beacon differs from the picture before. -/
def EncStream.beaconSeen (e : EncStream) (j : Nat) (src : List Samples) : Bool :=
  match e.cfg.beacon with
  | some b => src.zipIdx.any (fun y => rectHas b y.2 j && y.1 != e.prevSrc.look noSamples (e.cfg.cols * j + y.2))
  | none => false

/-- R58, R65: what the encoder keeps of a row's tiles. -/
def EncStream.keepTiles (g : RowForm) (e : EncStream) : EncStream :=
  let xs := List.range g.cfg.cols
  { e with
    recon := xs.foldl (fun t x => Tbl.put t noSamples (g.tile x) (g.recOf x)) e.recon
    lastSrc := xs.foldl (fun t x => if g.afresh x then Tbl.put t noSamples (g.tile x) (g.source x) else t) e.lastSrc
    prevSrc := if g.src.isEmpty then e.prevSrc
      else xs.foldl (fun t x => Tbl.put t noSamples (g.tile x) (g.source x)) e.prevSrc }

/-- R105, R311: row `j` of a picture is a zero-motion row with every tile HELD. -/
def EncStream.rowZero (e : EncStream) (p : EncPic) (j : Nat) : Bool := p.zeroMotion || p.zeroRows.contains j || e.shed.isSome

/-- R90, R109: row `j` of picture `p` before the stages of R111. -/
def EncStream.rowForm (e : EncStream) (f : RasterFmt) (mtu : Nat) (p : EncPic) (j : Nat) (qp : Int) (r : CodedRow) : RowForm where
  cfg := e.cfg
  fmt := f
  mtu := mtu
  pic := p
  row := j
  zero := e.rowZero p j
  qp := qp
  src := if r.lines.isEmpty && p.source.isNone then [] else e.cfg.rowSource f p j r
  last := e.lastSrc
  recon := e.recon
  head := segHeadOf e.cfg e.lastAttest p
  tiles := r.tiles
  stage := 1
  kept := []
  run := ⟨1, 0, []⟩

/-- R109: the QP of row `j`, and DZ and SAT of the rate arithmetic; while one is set, qp_prev is used unchanged. -/
def EncStream.rowQp (e : EncStream) (f : RasterFmt) (p : EncPic) (j : Nat) : Int × BitVec 2 :=
  if p.idr && j == 0 then (e.cfg.qpInit, 0)
  else
    let q := qpRow e.cfg e.qpPrev e.bits8 (e.cfg.rowTarget f)
    if q.2 = 0 then q else (e.qpPrev, q.2)

/-- R58, R65, R107, R109, R112, R113, R119: a row is committed in the form chosen. -/
def State.commitForm (i : Nat) (g : RowForm) (cand : List Nat) (flags : BitVec 2) (s : State) : State :=
  let e := s.encS i
  let p := g.pic
  let j := g.row
  let h := e.headroom g.fmt p j
  let fill := e.filler g.fmt p j g.bits h
  let units := g.units ++ (if fill = 0 then [] else [.filler fill]) ++ g.tail
  let nals := units.map unitBytes
  let bits := unitBits units
  let ends := decide (j + 1 = e.cfg.rows)
  let s := s.modEncS i (fun e => { e.keepTiles g with
    full := h - ((bits * bufUnit g.fmt : Nat) : Int), qpPrev := g.qp, bits8 := (bits :: e.bits8).take 8 })
  let s := s.modHead i (fun p => { p with
    done := j + 1, cores := [], issues := 0, searched := false, bits := p.bits + bits
    beaconDiff := p.beaconDiff || e.beaconSeen j g.src
    bsBytes := p.bsBytes ++ nals.flatten, ledgerBytes := p.ledgerBytes ++ g.segment })
  let s := if flags = 0 then s else s.encEvent i p.picCount .rcArith [.w16 (flags.setWidth 16), i32 j]
  let s := s.rowEvents i g cand
  let s := if e.cfg.toNet then s.rowPackets i p nals ends else s
  let s := if e.cfg.toHost then s.stageRow i p.picCount nals (decide (j = 0)) ends p.restart else s
  if ends then s.endPic i else s

/-- R92 to R113: what the core has coded of row `j` of picture `p` gives a form of the row that can be committed: it keeps to the
rules on a row's coding (none hold in a zero-motion row), and the first form that fits is taken. -/
def State.rowChoice (s : State) (i : Nat) (p : EncPic) (r : CodedRow) : Option (RowForm × List Nat × BitVec 2) :=
  let e := s.encS i
  let f := (s.raster e.cfg.raster).fmt
  let j := p.done
  let q := e.rowQp f p j
  let g := e.rowForm f (s.mtuOf e.cfg.flows) p j q.1 r
  let cand := g.candidates
  let room := e.headroom f p j - e.reserve f p j
  if g.zero || rowOk e.cfg f p j p.searched r then
    (g.choose r.runs cand (fun g => decide (((g.bits * bufUnit f : Nat) : Int) ≤ room))).map (fun g => (g, cand, q.2))
  else none

/-- ENCODE_ROW_COMPLETE (R109, R111): the row in flight is committed and its cores are free. A row that does not keep to the rules on
its coding is none that a core completes. -/
def execEncodeRowComplete (i : Nat) (r : CodedRow) (s : State) := ok (
  match (s.encS i).pics with
  | [] => s
  | p :: _ =>
    if p.done < p.issued ∧ p.cores.length = s.rowCores i then
      match s.rowChoice i p r with
      | some x => ((s.each p.cores (fun c => State.modCore c (fun x => { x with encTask := none }))).commitForm i x.1 x.2.1 x.2.2).patchStep
      | none => s
    else s)

end Sys2Proof.Machine
end

