-- ==== Sys2Proof/Machine/Bellows.lean ====
section
/-! DEFINITION. The Bellows and the starvation of background work (R305 to R307, R314 to R321). -/

namespace Sys2Proof.Machine

/-! Background work (R306, R307). -/

/-- R230, R306, R307: the level of a background work class; a scrubber that is behind its schedule is URGENT whatever its counter. -/
def State.workLevel (s : State) (work : Nat) : Level :=
  let x := s.blw.starve.look Starve.reset work
  let capped := match x.capped with
    | some t => decide (s.now < t + 10 * ms)
    | none => false
  if capped then .background
  else if work < 12 && (s.chan work).urgent then .urgent
  else match x.steps with
    | 0 => .background
    | 1 => .view
    | 2 => .live
    | _ => .urgent

/-- R306: the place of a work class in the table, counted from 1. -/
def workClass (work : Nat) : Nat := if work < 12 then 1 else if work < 24 then 2 else work - 21

/-- R306: a class has work pending: a channel that is in service to scrub and calibrate, tile states of a stream, or log entries that are
not yet in flash; statistics are always sampled. -/
def State.workPending (s : State) (work : Nat) : Bool :=
  if work < 24 then (s.chan (work % 12)).st == .active
  else if work = workVisit then !s.cmp.tiles.isEmpty
  else if work = workStats then true
  else decide (0 < s.log.unflushed)

/-- R304, R317: the level of a stream class. -/
def StreamClass.level (c : StreamClass) : Level :=
  match c with
  | .value => .value
  | .live => .live
  | .view => .view
  | .background => .background

/-- R317: the level of a request: of a core wake that of the tasks waiting for it, of a search burst that of the stream whose row the core
codes; the request itself says it of fills and trainings. -/
def State.reqLevel (s : State) (k : ReqKind) (lv : Level) (who : Nat) : Level :=
  match k with
  | .wake => s.wakeLevel who
  | .search => match (s.core who).encTask with
    | some i => StreamClass.level (s.encS i).cfg.cls
    | none => lv
  | _ => lv

/-- STARVATION_STEP (R306): an AGE_STEP passes with work and without service, and the class rises one level, to URGENT at most. -/
def execStarvationStep (work : Nat) (s : State) := ok (
  let x := s.blw.starve.look Starve.reset work
  if !s.serving || 26 < work || !s.workPending work || 3 ≤ x.steps || decide (s.now < x.since + s.blw.ageStep * ms) then s
  else
    let s := s.modBlw (fun b => { b with starve := b.starve.put Starve.reset work { x with steps := x.steps + 1, since := s.now } })
    if x.steps = 2 then s.limited .workUrgent work ms (State.raise .workUrgent [i16 (workClass work), i16 (if work < 24 then work % 12 else 0)]) else s)

/-- URGENT_CAP_WINDOW (R307): a class at URGENT has taken 5 % of a 10 ms window and competes at BACKGROUND. -/
def execUrgentCapWindow (work : Nat) (s : State) := ok (
  let x := s.blw.starve.look Starve.reset work
  if s.workLevel work = .urgent then
    s.modBlw (fun b => { b with starve := b.starve.put Starve.reset work { x with capped := some s.now } })
  else s)

/-! Tokens (R314 to R321). -/

/-- R316: the ramp bucket at a time, in thousandths of a token. -/
def Rail.refill (now : Nat) (r : Rail) : Rail :=
  { r with bucket := min (r.bucket + (now - r.bucketAt) * r.ramp.toNat) (r.burst.toNat * 1000), bucketAt := now }

/-- R320: everything that a fenced requester holds or waits for on a rail goes, without a denial. -/
def State.dropTokens (rail who : Nat) (s : State) : State :=
  let s := (s.freeTokens rail .wake who).freeTokens rail .search who
  s.modRail rail (fun r => { r with queue := r.queue.filter (fun q => q.requester != who) })

/-- R316: the head of a rail's queue can be granted. -/
def State.mayGrant (s : State) (rail : Nat) : Bool :=
  let r := (s.rail rail).refill s.now
  match r.queue with
  | q :: _ => !s.blw.fenced && decide (r.held + q.cost ≤ r.limit.toNat) && decide (q.cost * 1000 ≤ r.bucket)
  | [] => false

/-- R20, R102: a core asks for the tokens of its row's search burst; a deterministic stream's bursts have their standing grant. -/
def State.mayBurst (s : State) (c : Nat) : Bool :=
  match (s.core c).encTask with
  | some i => !(s.encS i).cfg.deterministic
  | none => true

/-- R20, R102: the search burst of the row that core `c` codes may begin. -/
def State.startBurst (c : Nat) (s : State) : State :=
  let s := s.coreEvent c 35
  match (s.core c).encTask with
  | some i => s.modHead i (fun p => { p with searched := true })
  | none => s

/-- BELLOWS_REQUEST (R315, R317): core wakes and search bursts of a bay's cores on the bay's rail, fills and trainings of
the channels on rail 4. -/
def execBellowsRequest (rail : Nat) (k : ReqKind) (lv : Level) (who : Nat) (s : State) := ok (
  let fits := match k with
    | .wake => decide (who / 8 = rail) && decide (rail < 4) && !(s.core who).fenced
    | .search => decide (who / 8 = rail) && decide (rail < 4) && !(s.core who).fenced && s.mayBurst who
    | .fill => decide (rail = 4) && ((s.chan who).st == .filling ||
        (s.drm.remapped && (s.chan who).st == .active && !(s.chan who).remapFilled))
    | .training => decide (rail = 4) && (s.chan who).st == .training
  if s.running && fits then s.askTokens rail k (s.reqLevel k lv who) who else s)

/-- BELLOWS_GRANT (R316, R317): the head request is granted: its tokens are held, and the requester may begin. -/
def execBellowsGrant (rail : Nat) (s : State) := ok (
  if !s.running || !s.mayGrant rail then s
  else match (s.rail rail).queue with
    | [] => s
    | q :: rest =>
      let wait := satNat 16 ((s.now - q.arrived) / 10)
      let s := s.modRail rail (fun r =>
        let r := r.refill s.now
        { r with
          queue := rest, held := r.held + q.cost, bucket := r.bucket - q.cost * 1000
          grants := r.grants ++ [(q.kind, q.requester, q.cost)], maxWait := if r.maxWait < wait then wait else r.maxWait })
      match q.kind with
      | .wake => (s.modCore q.requester (fun c => { c with granted := true, grantAt := max s.now c.entered })).coreEvent q.requester 35
      | .search => s.startBurst q.requester
      | _ => s)

/-- BELLOWS_RELEASE (R320): the operation has ended. -/
def execBellowsRelease (rail : Nat) (k : ReqKind) (who : Nat) (s : State) := ok (s.freeTokens rail k who)

/-- BELLOWS_DENY (R318): a motion search burst that has waited 2 us is removed and denied. -/
def execBellowsDeny (rail who : Nat) (s : State) := ok (
  let r := s.rail rail
  match r.queue.find? (fun q => q.kind == .search && q.requester == who && decide (q.arrived + 2000 ≤ s.now)) with
  | none => s
  | some q =>
    let s := (s.modRail rail (fun r => { r with queue := r.queue.erase q, denied := satInc r.denied })).latch (39 + rail)
    let s := s.limited .blwDenied rail ms (State.raise .blwDenied [i16 rail, i16 2, i16 who])
    match (s.core who).encTask with
    | some i =>
      let p := (s.encS i).pics.headD EncPic.reset
      s.encEvent i p.picCount .encodeSearchReduced [i32 p.done]
    | none => s)

/-- BLW_SLOW (R318): a core wake has waited beyond 20 us. -/
def execBlwSlow (rail core : Nat) (s : State) := ok (
  match (s.rail rail).queue.find? (fun q => q.kind == .wake && q.requester == core && !q.slowRaised && decide (q.arrived + 20000 < s.now)) with
  | none => s
  | some q =>
    let s := (s.modRail rail (fun r => { r with
      queue := r.queue.map (fun x => if x = q then { x with slowRaised := true } else x) })).latch (39 + rail)
    s.limited .blwSlow rail ms (State.raise .blwSlow [i16 rail, i16 core, i32 (s.now - q.arrived)]))

end Sys2Proof.Machine
end

