-- ==== Sys2Proof/Machine/Colour.lean ====
section
/-! DEFINITION. The colour formats of streams and outputs (R169). -/

namespace Sys2Proof.Machine

/-- R169: the format of a stream's samples: of its VUI, or BT.709 with limited range. -/
def DecStream.colour (d : DecStream) : ColourFmt :=
  let g := d.grid
  let c := g.colour.getD (1, false)
  ⟨c.1, !c.2, g.depth, g.depthC⟩

/-- R37, R178: the matrix of a sampling code: R'G'B', YCbCr 4:4:4 or 4:2:2 of BT.709 or BT.2020. -/
def samplingMatrix (n : Nat) : Nat :=
  match n with
  | 0 => 0
  | 1 | 3 => 1
  | _ => 9

/-- R173, R178: the format that the image gives an ST 2110-20 output. -/
def sdiFormat (f : RasterFmt) : ColourFmt := ⟨samplingMatrix f.sampling, f.limited, 10, 10⟩

/-- R169, R173, R174: the format of output raster `k`: FORMAT, RANGE and DEPTH of a DisplayPort output's frames in progress, or
that of an ST 2110-20 output. -/
def State.outFormat (s : State) (k : Nat) : ColourFmt :=
  if k < 8 then
    let v := (s.dpo k).video
    let n := if v.getLsbD 0 then 10 else 8
    ⟨samplingMatrix (v.extractLsb' 2 2).toNat, v.getLsbD 1, n, n⟩
  else sdiFormat (s.raster k).fmt

/-- R52, R174: the format of output raster `k` as its registers set it, which its next frames take. -/
def State.nextFormat (s : State) (k : Nat) : ColourFmt :=
  if k < 8 then
    let p := s.dpo k
    let n := if p.depth then 10 else 8
    ⟨samplingMatrix p.format.toNat, p.range, n, n⟩
  else sdiFormat (s.raster k).fmt

/-- R173: output raster `k` is YCbCr 4:2:2. -/
def State.halfChroma (s : State) (k : Nat) : Bool := decide (8 ≤ k) && decide (3 ≤ (s.raster k).fmt.sampling)

/-- A pixel of three samples. -/
def pixelOf (x : Nat × Nat × Nat) : Pixel := ⟨BitVec.ofNat 16 x.1, BitVec.ofNat 16 x.2.1, BitVec.ofNat 16 x.2.2⟩

/-- R169: samples of a decoded picture in raster `k`'s format; the planes of a GBR source are G, B and R. -/
def State.convertFrom (s : State) (k : Nat) (a : ColourFmt) (x : Nat × Nat × Nat) : Pixel :=
  pixelOf (convertPixel a (s.outFormat k) (if a.matrix = 0 then (x.2.2, x.1, x.2.1) else x))

/-- R82, R163: RED, GREEN and BLUE of a register word, in raster `k`'s format. -/
def State.convertWord (s : State) (k : Nat) (w : Word) : Pixel :=
  pixelOf (convertPixel .overlay (s.outFormat k)
    ((w.extractLsb' 20 10).toNat, (w.extractLsb' 10 10).toNat, (w.extractLsb' 0 10).toNat))

/-- R169: a 4:2:2 line of pixels: the chroma of even pixels is filtered by [1 2 1] / 4, with the line's ends repeated; odd
pixels carry none (DESIGN CHOICE, log entry 141). -/
def filterChroma (line : List Pixel) : List Pixel :=
  line.zipIdx.map (fun q =>
    if q.2 % 2 = 1 then { q.1 with b := 0, c := 0 }
    else
      let l := line.getD (q.2 - 1) q.1
      let r := line.getD (q.2 + 1) q.1
      let f (a b c : BitVec 16) : BitVec 16 := BitVec.ofNat 16 ((a.toNat + 2 * b.toNat + c.toNat + 2) / 4)
      { q.1 with b := f l.b q.1.b r.b, c := f l.c q.1.c r.c })

end Sys2Proof.Machine
end

