-- ==== Sys2Proof/Machine/Compositor.lean ====
section
/-! DEFINITION. The compositor: scaling, shown states, overlays and output lines (R71, R72, R80 to R83, R161 to R172). -/

namespace Sys2Proof.Machine

/-! The scaler (R166). -/

/-- π in units of 2^-64. -/
def piFix : Int := 57952155664616982739

/-- The sine of an angle, both in units of 2^-64, by its power series. -/
def sinFix (a : Int) : Int :=
  let one : Int := 2 ^ 64
  let sq := a * a / one
  ((List.range 34).foldl (fun st i =>
    let term := -(st.2 * sq / one) / (((2 * i + 2) * (2 * i + 3) : Nat) : Int)
    (st.1 + term, term)) (a, a)).1

/-- R166: L(num / den) = sinc(x) sinc(x / 3) in units of 2^-64 (DEDUCED: the rounding of R166 is that of these values). -/
def lanczos (num den : Int) : Int :=
  let one : Int := 2 ^ 64
  if num = 0 then one
  else if 3 * den ≤ num.natAbs then 0
  else
    let t := piFix * num / den
    let t3 := t / 3
    sinFix t * one / t * (sinFix t3 * one / t3) / one

/-- R166: the raw weight of tap `t` for output index `i`, in units of 2^-64. -/
def rawWeight (src dst i : Nat) (t : Int) : Int :=
  let (fl, ph) := tapCentre src dst i
  let d := 64 * (t - fl) - (ph : Int)
  if src ≤ dst then lanczos d 64 else lanczos (d * (dst : Int)) (64 * (src : Int))

/-- R166: the taps of output index `i`, clamped to the source, with their weights in units of 1/256, which sum to 256. -/
def tapWeights (src dst i : Nat) : List (Nat × Int) :=
  let (fl, ph) := tapCentre src dst i
  let (a, b) := tapRange src dst i
  let ts := (List.range (b + 1 - a).toNat).map (fun j => a + (j : Int))
  let raw := ts.map (rawWeight src dst i)
  let all := raw.foldl (· + ·) 0
  let ws := raw.map (fun w => (512 * w + all) / (2 * all))
  let rest := 256 - ws.foldl (· + ·) 0
  let nearest := if ph < 32 then fl else fl + 1
  (ts.zip ws).map (fun p => (clampTap src p.1, if p.1 = nearest then p.2 + rest else p.2))

/-- R166: a weighted sum, rounded half up and clipped to the sample range. -/
def weigh (top : Nat) (ws : List (Nat × Int)) (get : Nat → Nat) : Nat :=
  let n := ws.foldl (fun a p => a + p.2 * (get p.1 : Int)) 0
  min ((n + 128) / 256).toNat top

/-- R166: a plane scaled vertically, then horizontally; `get x y` is a source sample. -/
def scale (top sw sh dw dh x y : Nat) (get : Nat → Nat → Nat) : Nat :=
  let v := tapWeights sh dh y
  weigh top (tapWeights sw dw x) (fun tx => weigh top v (fun ty => get tx ty))

/-! Samples of a picture. -/

/-- A sample of a tile's plane; `w` is the plane's width in the tile. -/
def planeAt (xs : List (BitVec 16)) (w x y : Nat) : Nat := (xs.getD (y * w + x) 0).toNat

/-- R77, R151: a tile is shown from the hold store: a value tile, and one whose row in the picture with which it left its region is not
decoded yet. -/
def State.fromHold (s : State) (i t : Nat) : Bool := (s.tile i t).value || (s.decS i).leaving.any (fun x => x.1 == t)

/-- R77, R140, R145: tile (c, r) of stream `i` as the compositor reads it for luma line `y`: a value tile from the hold store, another from the newest picture in output order that covers the line. -/
def State.shownTile (s : State) (i c r y : Nat) : Samples :=
  let d := s.decS i
  if s.fromHold i (r * d.cols + c) then d.held (r * d.cols + c)
  else match d.rowFrame y with
    | some (_, f) => f.tileAt d c r
    | none => greyTile d.grid c r

/-- A luma sample of the stream's picture. -/
def State.lumaAt (s : State) (i x y : Nat) : Nat :=
  planeAt (s.shownTile i (x / 64) (y / 64) y).y (tileSize (s.decS i).grid (x / 64) (y / 64)).1.1 (x % 64) (y % 64)

/-- A chroma sample of the stream's picture, by its place in the chroma plane. -/
def State.chromaAt (s : State) (i : Nat) (second : Bool) (x y : Nat) : Nat :=
  let g := (s.decS i).grid
  let (sx, sy) := chromaStep g.chroma
  let c := x * sx / 64
  let r := y * sy / 64
  let t := s.shownTile i c r (y * sy)
  planeAt (if second then t.cr else t.cb) (tileSize g c r).2.1 (x - c * 64 / sx) (y - r * 64 / sy)

/-- R169: a chroma sample on the luma grid. -/
def State.chromaLuma (s : State) (i : Nat) (second : Bool) (x y : Nat) : Nat :=
  let g := (s.decS i).grid
  if g.chroma = 3 then s.chromaAt i second x y
  else if g.chroma = 0 then 2 ^ (g.depth - 1)
  else
    let (sx, sy) := chromaStep g.chroma
    scale (2 ^ g.depthC - 1) ((g.width + sx - 1) / sx) ((g.height + sy - 1) / sy) g.width g.height x y (s.chromaAt i second)

/-! Output formats (R164). -/

/-- R164: mid-grey of 512 in every 10-bit component, as the output carries it (DESIGN CHOICE, log entry 141). -/
def State.midGrey (s : State) (k : Nat) : Pixel := if (s.outFormat k).depth = 10 then ⟨512, 512, 512⟩ else ⟨128, 128, 128⟩

/-! Shown states (R76, R81). -/

/-- R164: the stream has a picture to show. -/
def DecStream.showing (d : DecStream) : Bool :=
  (d.st == .decoding || d.st == .skipping) && d.shown.isSome && decide (0 < d.cols)

/-- What a line's fetch fixes: the raster, line, scan-out time and uncertainty. -/
structure Scan where
  k : Nat
  n : Nat
  ts : T48
  u : Option Nat

/-- The tiles (column, row) that contribute to output pixel (x, n) of a window. -/
def Window.tilesAt (w : Window) (x n : Nat) : List (Nat × Nat) :=
  let (y0, y1) := w.lines n
  let (x0, x1) := w.cols x
  ((List.range (y1 / 64 + 1)).drop (y0 / 64)).flatMap (fun r => ((List.range (x1 / 64 + 1)).drop (x0 / 64)).map (fun c => (c, r)))

/-- R76, R81: the worst shown state of an output pixel of a window. -/
def State.pixelShown (s : State) (sc : Scan) (w : Window) (x n : Nat) : Shown :=
  let i := w.stream.toNat
  let d := s.decS i
  if !d.showing then .lost
  else (w.tilesAt x n).foldl (fun a t =>
    a.worse ((s.tile i (t.2 * d.cols + t.1)).shown sc.ts sc.u d.cfg.foreign w.bound.toNat)) .fresh

/-! Overlays (R80 to R83). -/

/-- R82: the reset words of CMP_OVL_STYLE. -/
def styleReset (i : Nat) : Word :=
  match i with
  | 0 => 0xBFFBFC00
  | 1 => 0xBFF003FF
  | 2 => 0xC00FFFFF
  | _ => 0xA0080200

/-- R82: the style of state `i` in partition `p`. -/
def State.style (s : State) (p i : Nat) : Word := s.cmp.ovl.look (styleReset i) (4 * p + i)

/-- R82: the number of a state's style. -/
def Shown.style : Shown → Nat
  | .stale => 0
  | .suspect => 1
  | .unverified => 2
  | _ => 3

/-- R80: the pattern of a state covers output pixel (x, y). -/
def patternAt (st : Shown) (x y : Nat) : Bool :=
  let a := decide ((x + y) % 8 < 2)
  match st with
  | .fresh => false
  | .stale => a
  | .suspect => a || decide (((x : Int) - (y : Int)) % 8 < 2)
  | .unverified => decide (x % 8 < 2) && decide (y % 8 < 2)
  | .lost => true

/-- R80: a component blended by quarters, halves rounded up. -/
def blend (q : Nat) (src colour : BitVec 16) : BitVec 16 :=
  BitVec.ofInt 16 ((src.toNat : Int) + ((q : Int) * ((colour.toNat : Int) - (src.toNat : Int)) + 2) / 4)

/-- A pixel blended by quarters. -/
def blendPixel (q : Nat) (p c : Pixel) : Pixel := ⟨blend q p.a c.a, blend q p.b c.b, blend q p.c c.c⟩

/-- R82: BLEND in quarters. -/
def quarters (w : Word) : Nat :=
  match w.extractLsb' 30 2 with
  | 0 => 0
  | 1 => 1
  | 2 => 2
  | _ => 4

/-- R80, R82, R83: a pixel of a window with the fill or pattern of its state; `border` is drawn at 100 %. -/
def State.overlay (s : State) (k : Nat) (w : Window) (st : Shown) (border : Bool) (p : Pixel) : Pixel :=
  let word := s.style w.part.toNat st.style
  let q := if w.value then max 1 (quarters word) else quarters word
  blendPixel (if border then 4 else q) p (s.convertWord k word)

/-- R80: a LOST pixel lies on the border: within two pixels is one that is not LOST or not in the window. -/
def State.onBorder (s : State) (sc : Scan) (w : Window) (x n : Nat) : Bool :=
  (List.range 5).any (fun dy => (List.range 5).any (fun dx =>
    decide (x + dx < 2) || decide (n + dy < 2) ||
    !w.covers (x + dx - 2) (n + dy - 2) || s.pixelShown sc w (x + dx - 2) (n + dy - 2) != .lost))

/-! Pixels of a line (R163, R171). -/

/-- R166, R168, R169: the picture's pixel of a window, in the raster's format: each sample of a value window is repeated, and a
video window is scaled. -/
def State.picture (s : State) (k : Nat) (w : Window) (x n : Nat) : Pixel :=
  let i := w.stream.toNat
  let d := s.decS i
  let dx := x - w.dstX.toNat
  let dy := n - w.dstY.toNat
  let sample (top : Nat) (get : Nat → Nat → Nat) : Nat :=
    if w.value then get (w.srcX.toNat + dx * w.srcW.toNat / w.dstW.toNat) (w.srcY.toNat + dy * w.srcH.toNat / w.dstH.toNat)
    else scale top w.srcW.toNat w.srcH.toNat w.dstW.toNat w.dstH.toNat dx dy
      (fun tx ty => get (w.srcX.toNat + tx) (w.srcY.toNat + ty))
  s.convertFrom k d.colour (sample (2 ^ d.grid.depth - 1) (s.lumaAt i), sample (2 ^ d.grid.depthC - 1) (s.chromaLuma i false),
    sample (2 ^ d.grid.depthC - 1) (s.chromaLuma i true))

/-- R163: the enabled window of highest LAYER that contains an output pixel. -/
def State.topWindow (s : State) (k x n : Nat) : Option (Nat × Window) :=
  (s.cmp.windows.filter (fun p => p.2.enable && p.2.raster.toNat == k && p.2.covers x n)).foldl
    (fun best p => if best.all (fun b => decide (b.2.layer < p.2.layer)) then some p else best) none

/-- R172, R402: a pixel with the LOST fill over mid-grey, without border. -/
def State.lostFill (s : State) (k : Nat) (w : Window) : Pixel := s.overlay k w .lost false (s.midGrey k)

/-- R163, R164, R171: one pixel of an output line. -/
def State.pixel (s : State) (sc : Scan) (x : Nat) : Pixel :=
  match s.topWindow sc.k x sc.n with
  | none => s.convertWord sc.k (s.cmp.bg.look 0 sc.k)
  | some (i, w) =>
    if s.cmp.gateFenced || s.reloading 339 i then s.lostFill sc.k w
    else
      let st := s.pixelShown sc w x sc.n
      let p := if (s.decS w.stream.toNat).showing then s.picture sc.k w x sc.n else s.midGrey sc.k
      if !patternAt st x sc.n then p
      else s.overlay sc.k w st (st == .lost && s.onBorder sc w x sc.n) p

/-! The effects of a fetch on the state (R76, R78, R86, R144, R161, R162). -/

/-- R86, R161: a frame of window `w` is over: what it showed decides VALUE_WINDOW_STALE and VALUE_WINDOW_CLEAR, which are
raised then, with the PIC_COUNT of the stream's last picture (DEDUCED, log entry 142). -/
def State.windowEvents (w : Nat) (x : Window) (s : State) : State :=
  let id : Option EventId := match x.prev, x.acc with
    | some true, .fresh => none
    | some true, _ => some .valueWindowStale
    | some false, .fresh => some .valueWindowClear
    | _, _ => none
  let i := x.stream.toNat
  let items := [i16 i, .w32 (s.decS i).ledLast, i16 w]
  match id with
  | some .valueWindowStale =>
    (s.latch 63).raiseP x.part.toNat .valueWindowStale (items ++ [.w16 (x.acc.code.setWidth 16)])
  | some id => (s.latch 63).raiseP x.part.toNat id items
  | none => s

/-- R144, R145, R161: the output frame in which window `w` was drawn is over: its buffers are no longer scanned, and WORST is
latched. -/
def State.endWindowFrame (w : Nat) (s : State) : State :=
  let x := s.window w
  if !x.seen then s
  else
    let s := s.each x.scans (fun b => State.modPoolD b (fun p => { p with scan := p.scan - 1 }))
    let s := if x.scans.isEmpty then s else s.dropFrames x.stream.toNat
    let s := s.modWindow w (fun y => { y with
      worst := y.acc, updSeq := if y.acc = y.worst then y.updSeq else y.updSeq + 1
      acc := .fresh, seen := false, scans := [], prev := some (y.acc == .fresh) })
    if x.value then s.windowEvents w x else s

/-- R72: a stream that no window maps any more leaves the tile state memory. -/
def State.dropUnmapped (s : State) : State :=
  s.modDec (fun t => t.mapAll DecStream.reset (fun i d => { d with onDie := d.onDie && !(s.windowsOf i).isEmpty }))

/-- R162: the descriptors committed for raster `k` take effect at line 0. -/
def State.takeWindows (k : Nat) (s : State) : State :=
  let mine (p : Nat × Option Window) : Bool := p.2.any (fun x => x.raster.toNat == k)
  let due := s.cmp.pendWin.filterMap (fun p => if mine p then p.2.map (fun x => (p.1, x)) else none)
  let s := s.modCmp (fun c => { c with pendWin := c.pendWin.filter (fun p => !mine p) })
  let s := s.each due (fun p => State.modWindow p.1 (fun x => { p.2 with
    worst := x.worst, updSeq := x.updSeq, acc := x.acc, seen := x.seen, prev := x.prev, lateFrame := x.lateFrame, scans := x.scans }))
  if due.isEmpty then s else s.dropUnmapped

/-- R144, R145: buffers that a window reads on a line are counted in SCAN once in the frame: frame buffers, and the hold store where it
shows value tiles. -/
def State.scanWindow (w n : Nat) (tiles : List (Nat × Nat)) (s : State) : State :=
  let x := s.window w
  let d := s.decS x.stream.toNat
  if !d.showing then s
  else
    let (a, b) := x.lines n
    let held := tiles.any (fun t => s.fromHold x.stream.toNat (t.2 * d.cols + t.1))
    let bufs := ((((List.range (b + 1)).drop a).filterMap (fun y => (d.rowFrame y).map (·.1))).eraseDups ++
      (if held then d.buffers.take 1 else [])).filter (fun b => !x.scans.contains b)
    (s.each bufs (fun b => State.modPoolD b (fun p => { p with scan := p.scan + 1 }))).modWindow w
      (fun y => { y with scans := y.scans ++ bufs })

/-! Tile state memory (R72). -/

/-- R72: tiles of the tile state memory. -/
abbrev dieTiles : Nat := 196608

/-- R72: tiles of the streams whose entries are on die. -/
def State.onDieTiles (s : State) : Nat := ((s.dec.filter (fun x => x.2.onDie)).map (fun x => x.2.cols * x.2.rowsN)).sum

/-- R72: the entries of stream `i` come on die, where they fit. -/
def State.bringOnDie (i : Nat) (s : State) : State :=
  let d := s.decS i
  if d.onDie || decide (dieTiles < s.onDieTiles + d.cols * d.rowsN) then s else s.modDecS i (fun d => { d with onDie := true })

/-- R76, R78: tiles of a line whose timestamp lies in the future are latched, with one TILE_SUSPECT for the picture. -/
def State.latchFuture (sc : Scan) (i : Nat) (tiles : List (Nat × Nat)) (s : State) : State :=
  let d := s.decS i
  let nums := (tiles.map (fun t => t.2 * d.cols + t.1)).eraseDups.filter (fun n => (s.tile i n).futureNow sc.ts sc.u d.cfg.foreign)
  match nums with
  | [] => s
  | n :: _ =>
    let s := s.withLedger i (fun s => s.each nums (fun n => State.modTile i n (TileEntry.event .future)))
    if d.futureAt = some d.ledLast then s
    else (s.modDecS i (fun d => { d with futureAt := some d.ledLast })).ledgerEvent .tileSuspect i d.ledLast
      [i16 Cause.future.code, i32 nums.length, tileItem d.cols n]

/-- R161, R172, R402: what window `w` shows on a line enters the worst state of its frame. -/
def State.showWindow (sc : Scan) (w : Nat) (s : State) : State :=
  let x := s.window w
  let xs := (List.range x.dstW.toNat).map (· + x.dstX.toNat)
  let tiles := (xs.flatMap (fun p => x.tilesAt p sc.n)).eraseDups
  let s := (((s.bringOnDie x.stream.toNat).scanWindow w sc.n tiles).latchFuture sc x.stream.toNat tiles)
  let worst := if s.cmp.gateFenced || s.reloading 339 w then .lost else xs.foldl (fun a p => a.worse (s.pixelShown sc x p sc.n)) .fresh
  s.modWindow w (fun y => { y with acc := y.acc.worse worst, seen := true })

/-- R169, R171: a line as the port sends it: what the output buffer holds, filtered where it is 4:2:2. -/
def State.outLine (s : State) (k n : Nat) : List Pixel :=
  let l := s.cmp.lines.look [] (lineSlot k n)
  if s.halfChroma k then filterChroma l else l

/-- R171: a line is built from the windows in force: entries, samples and states are fixed, and the line is drawn into the output
buffer at full chroma resolution. -/
def State.drawLine (p : LinePos) (s : State) : State :=
  let k := p.raster
  let sc : Scan := ⟨k, p.line, BitVec.ofInt 48 (s.posTime p), s.uncertainty⟩
  let ws := (s.cmp.windows.filter (fun w => w.2.enable && w.2.raster.toNat == k && w.2.crosses p.line)).map (·.1)
  let s := s.each ws (State.showWindow sc)
  let line := (List.range (s.raster k).fmt.width).map (s.pixel sc)
  s.modCmp (fun c => { c with
    lines := c.lines.put [] (lineSlot k p.line) line, fetched := c.fetched.put none k (some (p.frame, p.line)) })

/-- OUTPUT_LINE_FETCH (R171): line n of raster k is built; at line 0 the frame before is over, and committed windows take
effect. A raster in RETIMING draws no window (R180). -/
def execOutputLineFetch (p : LinePos) (s : State) := ok (
  let k := p.raster
  let r := s.raster k
  if !s.serving || 16 ≤ k || !s.rasterUsed k || r.fmt.la ≤ p.line || r.retiming then s
  else
    let s := if p.line = 0 then
        (s.each ((s.cmp.windows.filter (fun w => w.2.raster.toNat == k)).map (·.1)) State.endWindowFrame).takeWindows k
      else s
    s.drawLine p)

/-- R162: windows committed for raster `k` after lines of its next frame have been fetched, and not after that frame's start, take
effect in it: its lines are drawn again. -/
def State.redraw (k : Nat) (s : State) : State :=
  match s.cmp.fetched.look none k with
  | none => s
  | some (f, n) =>
    if decide (s.posTime ⟨k, f, 0⟩ < (s.time : Int)) || !(s.cmp.pendWin.any (fun p => p.2.any (fun x => x.raster.toNat == k))) then s
    else
      let s := s.takeWindows k
      let s := s.each ((s.cmp.windows.filter (fun w => w.2.raster.toNat == k)).map (·.1)) (fun w =>
        State.modWindow w (fun y => { y with acc := .fresh }))
      s.each (List.range (n + 1)) (fun m => State.drawLine ⟨k, f, m⟩)

/-- R162: windows committed now, on every raster. -/
def State.redrawAll (s : State) : State := s.each (List.range 16) State.redraw

/-- CMP_LINE_LATE (R172): a window's samples of a line are late, so its part of the line is the LOST fill over mid-grey. -/
def execCmpLineLate (w : Nat) (p : LinePos) (s : State) := ok (
  let x := s.window w
  let k := p.raster
  if !s.serving || !x.enable || x.raster.toNat != k || !x.crosses p.line then s
  else
    let redraw (l : List Pixel) : List Pixel := l.zipIdx.map (fun q =>
      if ((s.topWindow k q.2 p.line).map (·.1)) == some w then s.lostFill k x else q.1)
    let t := s.modCmp (fun c => { c with lines := c.lines.upd [] (lineSlot k p.line) redraw })
    if x.lateFrame = some p.frame then t
    else ((t.modWindow w (fun y => { y with lateFrame := some p.frame })).latch 132).raiseP x.part.toNat .cmpLineLate
      [i16 w, i16 p.line])

/-! Background work on the tile state memory (R71, R72). -/

/-- R306: tile state entries are visited; 256 of them are a unit of service. -/
def State.visited (n : Nat) (s : State) : State :=
  let x := s.blw.starve.look Starve.reset workVisit
  if 256 ≤ x.part + n then s.served workVisit
  else s.modBlw (fun b => { b with starve := b.starve.put Starve.reset workVisit { x with part := x.part + n } })

/-- TILE_STATE_VISIT (R71): TV of VERIFIED entries whose D is at least 2^46 and below 2^47 is cleared. A visit has no output
line: D is taken with the PTP time of the visit for t_s, and with U as 0 in FREERUN (DESIGN CHOICE, log entry 143). -/
def execTileStateVisit (first count : Nat) (s : State) := ok (
  if !s.serving then s
  else
    let d (e : TileEntry) : Nat := ageD s.time48 (s.uncertainty.getD 0) e.tAtt
    let visit (k : Nat) (e : TileEntry) : TileEntry :=
      if first ≤ k ∧ k < first + count ∧ e.cond = .verified ∧ e.tv ∧ 2 ^ 46 ≤ d e ∧ d e < 2 ^ 47 then { e with tv := false } else e
    let s := s.modCmp (fun c => { c with tiles := c.tiles.mapAll TileEntry.reset visit })
    s.visited count)

/-- TILE_STATE_FILL (R72): a stream's entries come on die before a window that maps it, in force or committed, is first
scanned. -/
def execTileStateFill (i : Nat) (s : State) := ok (
  let mapped := !(s.windowsOf i).isEmpty || s.cmp.pendWin.any (fun p => p.2.any (fun x => x.enable && x.stream.toNat == i))
  if s.serving && decide (i < 256) && mapped then s.bringOnDie i else s)

end Sys2Proof.Machine
end

