-- ==== Sys2Proof/Machine/Admission.lean ====
section
/-! DEFINITION. Admission: loads, placement in keep order, spares and shedding (R308 to R313, R319). -/

namespace Sys2Proof.Machine

/-- A quotient rounded up. -/
def ceilDiv (a b : Nat) : Nat := (a + b - 1) / b

/-! Loads (R308). -/

/-- R308: TILES. -/
def DecCfg.tileCount (c : DecCfg) : Nat := ceilDiv c.maxW 64 * ceilDiv c.maxH 64

/-- R308: the peak byte rate of the policers of a stream's rules: PIR for trTCM and CIR for srTCM, none for a host-fed stream. A stream
without a policer has the peak rate that its configuration gives (DESIGN CHOICE, log entry 218). -/
def State.peakRate (s : State) (i : Nat) : Nat :=
  let c := (s.decS i).cfg
  let rs := s.run.rules.filter (fun x => x.2.valid && x.2.dest == 0 && x.2.stream.toNat == i && x.2.polEn)
  if c.hostFed then 0
  else if rs.isEmpty then c.peak
  else (rs.map (fun x =>
    let p := s.run.policers.look Policer.reset x.2.policer.toNat
    1000 * (if p.mode then p.pir else p.cir).toNat)).foldl max 0

/-- R308: the load of a decode primary with peak byte rate `peak`. -/
def DecCfg.load (c : DecCfg) (peak : Nat) : Nat :=
  max (ceilDiv (1024 * c.maxRate) 2000000000) (ceilDiv (1024 * 8 * peak) 2000000000)

/-- R308: the load of the check. -/
def DecCfg.checkLoad (c : DecCfg) : Nat := ceilDiv (1024 * c.maxRate * c.valueTiles) (c.tileCount * 2000000000)

/-- R308: the load of an encode stream. -/
def EncCfg.load (c : EncCfg) (f : RasterFmt) : Nat := ceilDiv (1024 * c.width * c.height * f.num) (f.den * 750000000)

/-! Placement (R309, R310). -/

/-- A stream to be placed; `pair` is the check bay that it has. -/
structure Ask where
  enc : Bool
  id : Nat
  cls : StreamClass
  part : Nat
  home : Nat
  load : Nat
  check : Nat
  split : Bool
  pair : Option Nat
  deriving DecidableEq, Repr

/-- A placement of a stream: its bay and its check bay. -/
structure Placed where
  ask : Ask
  bay : Nat
  checkBay : Option Nat
  deriving DecidableEq, Repr

/-- An admission under way: role and owner of each core in service, and the placements so far. -/
structure Adm where
  cores : List (Nat × CoreRole × Option Nat)
  placed : List Placed
  shed : List Ask
  deriving DecidableEq, Repr

/-- The role in which a stream's own work runs. -/
def Ask.role (a : Ask) : CoreRole := if a.enc then .encode else .decode

/-- R309: 1,024 units for each core of a partition, bay and role. -/
def Adm.capacity (m : Adm) (part bay : Nat) (role : CoreRole) : Nat :=
  1024 * (m.cores.filter (fun c => c.1 / 8 == bay && c.2.1 == role && c.2.2 == some part)).length

/-- R309: the load placed on a partition, bay and role. -/
def Adm.used (m : Adm) (part bay : Nat) (role : CoreRole) : Nat :=
  (m.placed.map (fun p =>
    (if p.ask.part = part ∧ p.bay = bay ∧ p.ask.role = role then p.ask.load else 0) +
    (if p.ask.part = part ∧ p.checkBay = some bay ∧ role = .check then p.ask.check else 0))).sum

/-- Free units. -/
def Adm.free (m : Adm) (part bay : Nat) (role : CoreRole) : Nat := m.capacity part bay role - m.used part bay role

/-- R309: a placement fits. -/
def Adm.fits (m : Adm) (p : Placed) : Bool :=
  decide (p.ask.load ≤ m.free p.ask.part p.bay p.ask.role) && (p.ask.split || decide (p.ask.load ≤ 1024) || p.ask.enc) &&
  (match p.checkBay with
    | some b => decide (p.ask.check ≤ m.free p.ask.part b .check)
    | none => true)

/-- Bays by most free units of a partition and role, ties lowest bay. -/
def Adm.byFree (m : Adm) (part : Nat) (role : CoreRole) (bays : List Nat) : List Nat :=
  bays.mergeSort (fun a b => decide (m.free part b role < m.free part a role) ||
    (m.free part a role == m.free part b role && decide (a ≤ b)))

/-- R137, R310: the check bay of a stream placed in bay `b`: the one that it is paired with, while that is in service, else by the rule of
R310. -/
def Adm.checkFor (m : Adm) (inService : List Nat) (a : Ask) (b : Nat) : Option Nat :=
  if a.enc then none
  else match a.pair.filter (fun c => c != b && inService.contains c) with
    | some c => some c
    | none => (m.byFree a.part .check (inService.filter (· != b))).head?

/-- R310: a placement of a stream without a further spare. -/
def Adm.direct (m : Adm) (inService : List Nat) (a : Ask) : Option Placed :=
  let home := inService.filter (· == a.home)
  let bays := home ++ m.byFree a.part a.role (inService.filter (· != a.home))
  (bays.map (fun b => (⟨a, b, m.checkFor inService a b⟩ : Placed))).find? m.fits

/-- R310: unowned spares. -/
def Adm.spares (m : Adm) : List Nat := (m.cores.filter (fun c => c.2.2.isNone)).map (·.1)

/-- R310: a spare is given to a partition in a role. -/
def Adm.give (m : Adm) (c part : Nat) (role : CoreRole) : Adm :=
  { m with cores := m.cores.map (fun x => if x.1 = c then (c, role, some part) else x) }

/-- R310: a stream is placed with at most `n` spares given to its partition. -/
def Adm.tryPlace (inService : List Nat) (a : Ask) : Nat → Adm → Option Adm
  | 0, m => (m.direct inService a).map (fun p => { m with placed := m.placed ++ [p] })
  | n + 1, m => match m.direct inService a with
    | some p => some { m with placed := m.placed ++ [p] }
    | none => (m.spares.flatMap (fun c => (if a.enc then [CoreRole.encode] else [CoreRole.decode, CoreRole.check]).map (fun r => (c, r)))).findSome?
        (fun x => Adm.tryPlace inService a n (m.give x.1 a.part x.2))

/-- R310: one stream in keep order. -/
def Adm.place (inService : List Nat) (m : Adm) (a : Ask) : Adm :=
  match (List.range (m.spares.length + 1)).findSome? (fun n => Adm.tryPlace inService a n m) with
  | some x => x
  | none => { m with shed := m.shed ++ [a] }

/-- R310: keep order. -/
def State.keepBefore (s : State) (a b : Ask) : Bool :=
  let ra := (s.part a.part).rank.toNat
  let rb := (s.part b.part).rank.toNat
  decide (a.cls.rank < b.cls.rank) || (a.cls == b.cls && (decide (rb < ra) || (ra == rb && decide (a.id ≤ b.id))))

/-- R312: the enabled streams, in keep order. -/
def State.asks (s : State) : List Ask :=
  let ds := (s.dec.filter (fun x => x.2.cfg.enabled)).map (fun x =>
    let c := x.2.cfg
    (⟨false, x.1, c.cls, c.part, c.home, c.load (s.peakRate x.1), c.checkLoad, c.split != .none, x.2.checkBay⟩ : Ask))
  let es := (s.enc.filter (fun x => x.2.cfg.enabled)).map (fun x =>
    let c := x.2.cfg
    (⟨true, x.1, c.cls, c.part, c.home, c.load (s.raster c.raster).fmt, 0, false, none⟩ : Ask))
  (ds ++ es).mergeSort s.keepBefore

/-- R302: pool blocks of a partition's regions. -/
def Drm.blocksOf (d : Drm) (p : Nat) : Nat := ((d.regions.look [] p).map (fun r => r.2 - r.1)).sum

/-- R29, R234: the partitions that the fence of a channel sheds under an image that does not tolerate it: the lowest-ranked first, until
their blocks are as many as those lost with the channel (DESIGN CHOICE, log entry 210). -/
def State.lostParts (s : State) : List Nat :=
  if s.drm.fencedCh = 0xF || s.drm.tolerant then []
  else
    let ps := ((List.range 8).filter (fun p => (s.part p).enabled)).mergeSort (fun a b => decide ((s.part a).rank.toNat ≤ (s.part b).rank.toNat))
    ps.foldl (fun (l : List Nat) p => if (s.drm.poolBlocks + 11) / 12 ≤ (l.map s.drm.blocksOf).sum then l else l ++ [p]) []

/-- R234, R310: admission from the image's ownership and roles of the cores in service. -/
def State.admission (s : State) : Adm :=
  let cs := (List.range 32).filter s.inService
  let bays := (List.range 4).filter (fun b => !(s.bay b).fenced)
  let role (c : Nat) : CoreRole × Option Nat :=
    let (r, p) := s.blw.homeRoles.look (.unassigned, none) c
    (if r == .encode && (s.core c).noSearch then .decode else r, p)
  let gone (a : Ask) : Bool := s.lostParts.contains a.part
  (s.asks.filter (fun a => !gone a)).foldl (Adm.place bays) ⟨cs.map (fun c => (c, role c)), [], s.asks.filter gone⟩

/-! The outcome (R300, R311, R312, R319). -/

/-- R311: how a stream is shed. -/
def Ask.shedKind (a : Ask) : ShedKind :=
  if a.enc then .held else if a.cls = .value ∨ a.cls = .live then .thinned else .stopped

/-- Codes of the ways to shed. -/
def ShedKind.code : ShedKind → Nat
  | .thinned => 1
  | .stopped => 2
  | .held => 3

/-- R322: the source number of a stream's events: decode streams, then encode streams. -/
def Ask.number (a : Ask) : Nat := if a.enc then 256 + a.id else a.id

/-- R311: a stream is shed. -/
def State.shedStream (a : Ask) (s : State) : State :=
  let was := if a.enc then (s.encS a.id).shed else (s.decS a.id).shed
  let k := a.shedKind
  let s := if a.enc then s.modEncS a.id (fun e => { e with shed := some k }) else s.modDecS a.id (fun d => { d with shed := some k })
  if was = some k then s
  else s.limited .streamShed a.number ms (State.raiseP a.part .streamShed [i16 a.number, i16 k.code])

/-- R310: a task goes to the dispatcher of a bay, from another's or from the core that runs it. -/
def State.moveTask (bay n : Nat) (t : RowTask) (s : State) : State :=
  let s := match t.core with
    | some c => s.modCore c (fun x => { x with tasks := x.tasks.filter (· != n) })
    | none => s.modBay t.bay (fun y => { y with tasks := y.tasks.filter (· != n) })
  (s.modBay bay (fun y => { y with tasks := y.tasks ++ [n] })).modTask n (fun t => { t with bay := bay, core := none })

/-- R310: waiting tasks of a stream move to the bay of its placement. A check task that would share that bay moves to the check bay
of the pairing, or where none is ready its row has no check core (R15, R141). -/
def State.moveTasks (i bay : Nat) (s : State) : State :=
  let mine := s.blw.tasks.filter (fun p => p.2.stream == i && !p.2.check && p.2.core.isNone && p.2.bay != bay)
  let s := s.each mine (fun p => State.moveTask bay p.1 p.2)
  let near := s.blw.tasks.filter (fun p => p.2.stream == i && p.2.check && p.2.bay == bay)
  s.each near (fun p s => match (s.checkReady i).filter (· != bay) with
    | some b => s.moveTask b p.1 p.2
    | none => s.dropCheck p.1 p.2)

/-- R310, R312, R432: a stream is placed; one that was shed is restored, and a change of check bay is reported. -/
def State.placeStream (p : Placed) (s : State) : State :=
  let a := p.ask
  let was := if a.enc then (s.encS a.id).shed else (s.decS a.id).shed
  let old := (s.decS a.id).checkBay
  let s := if a.enc then s.modEncS a.id (fun e => { e with shed := none, bay := some p.bay })
    else (s.modDecS a.id (fun d => { d with shed := none, bay := some p.bay, checkBay := p.checkBay })).moveTasks a.id p.bay
  let s := if was.isNone then s
    else s.limited .streamRestored a.number ms (State.raiseP a.part .streamRestored [i16 a.number])
  match old, p.checkBay with
  | some x, some y => if a.enc || x == y || a.check == 0 then s
      else s.limited .pairingChanged a.id ms (State.raiseP a.part .pairingChanged [i16 a.id, i16 x, i16 y])
  | _, _ => s

/-- R301, R310: the cores take their roles and owners. -/
def State.setRoles (m : Adm) (s : State) : State := s.each m.cores (fun x => State.setRole x.1 x.2.1 x.2.2)

/-- R319: the standing grants of deterministic encode streams on their home bays' rails. -/
def State.setStanding (m : Adm) (s : State) : State :=
  s.each (List.range 4) (fun b s =>
    let n := 10 * (m.placed.filter (fun p => p.ask.enc && p.ask.home == b && (s.encS p.ask.id).cfg.deterministic)).length
    s.modRail b (fun r => { r with held := r.held - r.standing + n, standing := n }))

/-- R300: the status of a partition after an admission. -/
def State.setPart (m : Adm) (q : Nat) (s : State) : State :=
  let mine := (m.cores.filter (fun c => c.2.2 == some q)).map (·.1)
  let spare := mine.filter (fun c => (s.blw.homeRoles.look (.unassigned, none) c).2.isNone)
  let gone := m.shed.filter (fun a => a.part == q)
  let mask := mine.foldl (fun w c => w ||| (1#32 <<< c)) 0
  s.modPart q (fun p => { p with
    cores := BitVec.ofNat 8 mine.length, spares := BitVec.ofNat 8 spare.length, mask := mask
    stopped := BitVec.ofNat 16 (gone.filter (fun a => a.shedKind == .stopped)).length
    thinned := BitVec.ofNat 16 (gone.filter (fun a => a.shedKind != .stopped)).length
    admitSeq := p.admitSeq + 1 })

/-- R310 to R312: a run of admission. -/
def State.runAdmission (s : State) : State :=
  let trigger := s.blw.admitPend.getD 0
  let m := s.admission
  let s := (s.modBlw (fun b => { b with admitPend := none, fenceDue := false })).setRoles m
  let s := (s.each m.placed State.placeStream).each m.shed State.shedStream
  let s := (s.setStanding m).each (List.range 8) (State.setPart m)
  s.recheck.limited .admissionDone 0 ms (State.raise .admissionDone [i16 (trigger + 1), .w32 ((s.part 0).admitSeq.setWidth 32)])

end Sys2Proof.Machine
end

