-- ==== Sys2Proof/Machine/Dram.lean ====
section
/-! DEFINITION. The memory system: addresses, the line and its checks, merge buffers, refresh, pages, calibration,
fill, scrubbing, the error-address queue and the channel fence (R212 to R239). -/

namespace Sys2Proof.Machine

/-! Addresses. -/

/-- R478: CAP, GiB per channel. -/
def State.capGiB (s : State) : Nat := (s.glb.platDdr.extractLsb' 17 6).toNat

/-- The number of lines of a channel. -/
def State.chanLines (s : State) : Nat := s.capGiB * 16777216

/-- R214: the channel line address of a pool address. -/
def Drm.lineOf (d : Drm) (a : Nat) : Option (Nat × Nat) :=
  (d.place (a / blockBytes)).map (fun (n, cb) => (n, (cb * blockBytes + a % blockBytes) / 64))

/-- R228: the partition that owns a pool block in the image, or 0. -/
def Drm.owner (d : Drm) (blk : Nat) : BitVec 3 :=
  BitVec.ofNat 3 (((List.range 8).find? (fun p => d.inRegion p blk)).getD 0)

/-- R214: the bank of a line, with its sub-channel and rank, and its row. -/
def State.bankRow (s : State) (l : Nat) : Nat × Nat :=
  let burst := if s.glb.platDdr.getLsbD 26 then 7 else 6
  let ranks := if s.glb.platDdr.getLsbD 25 then 1 else 0
  let hi := l / 2 ^ (1 + burst)
  (l % 2 + 2 * (hi % 2 ^ (5 + ranks)), hi / 2 ^ (5 + ranks))

/-- R214: the rank of a line. -/
def State.rankOf (s : State) (l : Nat) : Nat := (s.bankRow l).1 / 64 % 2

/-! The line (R215, R216). -/

/-- Bits of an eight-bit number. -/
def weight8 (v : Nat) : Nat := (List.range 8).countP (fun i => v.testBit i)

/-- R216: the columns of the 64 data bits. -/
def hsiaoColumns : List Nat :=
  ((List.range 256).filter (fun v => weight8 v == 3)) ++ (((List.range 256).filter (fun v => weight8 v == 5)).take 8)

/-- R216: the check byte of a 64-bit word. -/
def secdedCheck (d : BitVec 64) : BitVec 8 :=
  hsiaoColumns.zipIdx.foldl (fun c p => if d.getLsbD p.2 then c ^^^ BitVec.ofNat 8 p.1 else c) 0

/-- R216: a word after its check: clean, corrected, or uncorrectable. -/
inductive WordCheck where
  | clean (d : BitVec 64)
  | fixed (d : BitVec 64)
  | bad (d : BitVec 64)
  deriving DecidableEq, Repr

/-- R216: a syndrome of 0 is clean, a column names the bit to correct, any other syndrome is uncorrectable. -/
def secdedRead (d : BitVec 64) (c : BitVec 8) : WordCheck :=
  let syn := (secdedCheck d ^^^ c).toNat
  if syn = 0 then .clean d
  else if weight8 syn = 1 then .fixed d
  else match hsiaoColumns.findIdx? (· == syn) with
    | some j => .fixed (d ^^^ (1#64 <<< j))
    | none => .bad d

/-- R216: the data of a checked word. -/
def WordCheck.data : WordCheck → BitVec 64
  | .clean d | .fixed d | .bad d => d

/-- R215: SECDED word `i` of a line's data. -/
def lineWord (d : BitVec 512) (i : Nat) : BitVec 64 := d.extractLsb' (64 * i) 64

/-- R215: the check bytes of a line's data. -/
def lineCheck (d : BitVec 512) : BitVec 64 :=
  (List.range 8).foldl (fun c i => c ||| ((secdedCheck (lineWord d i)).setWidth 64 <<< (8 * i))) 0

/-- R215: ADDR_PAR of a channel line address. -/
def addrPar (l : Nat) : BitVec 8 :=
  (List.range 33).foldl (fun p j => if l.testBit j then p ^^^ (1#8 <<< (j % 8)) else p) 0

/-- R215: LINE_CRC over the data bytes and tag bytes 4 to 7. -/
def lineCrc (d : BitVec 512) (tag : BitVec 64) : BitVec 32 :=
  crc32c (leBytes 64 d.toNat ++ leBytes 4 (tag >>> 32).toNat)

/-- R215: a line written with a partition and POISON, with fresh checks. -/
def mkLine (d : BitVec 512) (part : BitVec 3) (poison : Bool) (l : Nat) : DramLine :=
  let hi : BitVec 64 := (part.setWidth 64 <<< 61) ||| ((BitVec.ofBool poison).setWidth 64 <<< 60) |||
    ((addrPar l).setWidth 64 <<< 48)
  ⟨d, lineCheck d, hi ||| (lineCrc d hi).setWidth 64⟩

/-- R215: PARTITION of a tag. -/
def tagPart (t : BitVec 64) : BitVec 3 := t.extractLsb' 61 3
/-- R215: POISON of a tag. -/
def tagPoison (t : BitVec 64) : Bool := t.getLsbD 60
/-- R215: ADDR_PAR of a tag. -/
def tagPar (t : BitVec 64) : BitVec 8 := t.extractLsb' 48 8

/-- R218: whether LINE_CRC matches. -/
def crcOk (d : BitVec 512) (t : BitVec 64) : Bool := lineCrc d t == t.setWidth 32

/-- R218: the tag with the one bit flipped that explains a mismatch. -/
def tagFix (d : BitVec 512) (t : BitVec 64) : Option (BitVec 64) :=
  ((List.range 64).map (fun i => t ^^^ (1#64 <<< i))).find? (crcOk d)

/-- R218: the tests after LINE_CRC, on corrected data and tag; a POISONED line's data are as read. -/
def classifyTag (raw d : BitVec 512) (t : BitVec 64) (l : Nat) (part : Option (BitVec 3)) (fixed : Bool) : ReadResult :=
  if tagPar t ≠ addrPar l then ⟨.misdirect, 0⟩
  else if tagPoison t then ⟨.poisoned, raw⟩
  else if part.isSome && part != some (tagPart t) then ⟨.partition, 0⟩
  else if fixed then ⟨.ceSecded, d⟩
  else ⟨.clean, d⟩

/-- R218: the first outcome that applies, and the line in corrected form. -/
def classify (x : DramLine) (l : Nat) (part : Option (BitVec 3)) : ReadResult × DramLine :=
  let ws := (List.range 8).map (fun i => secdedRead (lineWord x.data i) (x.check.extractLsb' (8 * i) 8))
  if ws.any (fun w => match w with
      | .bad _ => true
      | _ => false) then (⟨.ueSecded, x.data⟩, x)
  else
    let d := ws.zipIdx.foldl (fun a p => a ||| ((p.1.data.setWidth 512 : BitVec 512) <<< (64 * p.2))) (0 : BitVec 512)
    let fixed := ws.any (fun w => match w with
      | .fixed _ => true
      | _ => false)
    if crcOk d x.tag then (classifyTag x.data d x.tag l part fixed, ⟨d, lineCheck d, x.tag⟩)
    else match tagFix d x.tag with
      | some t => (⟨.ceTag, d⟩, ⟨d, lineCheck d, t⟩)
      | none => (⟨.ueCrc, x.data⟩, x)

/-! The burst of a line (R217). -/

/-- R217: the place in a line that lane `lane` of beat `b` of its burst carries: a data bit, a bit of the check bytes, or a bit of the
tag. Lanes 0 to 31 are the data lanes and 32 to 39 the check lanes. -/
inductive LaneBit where
  | data (i : Nat)
  | check (i : Nat)
  | tag (i : Nat)
  deriving DecidableEq, Repr

/-- R217: beat `b` carries half of SECDED word b div 2 on the data lanes, and on the check lanes the word's check byte in an even beat
and tag byte (b - 1) / 2 in an odd one. -/
def laneBit (b lane : Nat) : LaneBit :=
  if lane < 32 then .data (64 * (b / 2) + 32 * (b % 2) + lane)
  else if b % 2 = 0 then .check (8 * (b / 2) + (lane - 32))
  else .tag (8 * (b / 2) + (lane - 32))

/-- R217: a line with the bit of one lane and beat of its burst inverted. -/
def DramLine.flipBit (x : DramLine) (p : Nat × Nat) : DramLine :=
  match laneBit p.1 p.2 with
  | .data i => { x with data := x.data ^^^ (1#512 <<< i) }
  | .check i => { x with check := x.check ^^^ (1#64 <<< i) }
  | .tag i => { x with tag := x.tag ^^^ (1#64 <<< i) }

/-- R217: the lanes of device `d` of a sub-channel, x4 or x8. -/
def deviceLanes (x4 : Bool) (d : Nat) : List Nat := if x4 then (List.range 4).map (4 * d + ·) else (List.range 8).map (8 * d + ·)

/-- R217: a line as it arrives: the bits of the lanes and beats that the devices give wrong are inverted. A failed device does so on
lanes of its own in any beat. -/
def DramLine.damaged (x : DramLine) (flips : List (Nat × Nat)) : DramLine := flips.foldl DramLine.flipBit x

/-! Lines of a channel. -/

/-- R228, R235: what a line that has not been written since the fill holds; before the fill its content is free. -/
def State.fillLine (s : State) (n l : Nat) : DramLine :=
  let cb := l / 1024
  if !(s.chan n).filled then
    let (d, c, t) := Config.freeLine n l
    ⟨d, c, t⟩
  else mkLine 0 (s.drm.owner (s.drm.blockAt n cb)) (s.drm.isSpare cb) l

/-- The line as stored. -/
def State.lineAt (s : State) (n l : Nat) : DramLine :=
  match (s.chan n).lines.find? (fun p => p.1 == l) with
  | some p => p.2
  | none => s.fillLine n l

/-- Storing a line. -/
def State.putLine (n l : Nat) (x : DramLine) (s : State) : State :=
  s.modChan n (fun c => { c with lines := (c.lines.drop l).insertAt l x })

/-! The error-address queue (R231). -/

/-- R238: KIND of an outcome; 0 where nothing is queued. -/
def ReadKind.code : ReadKind → BitVec 4
  | .ceSecded => 1
  | .ceTag => 2
  | .ueSecded => 3
  | .ueCrc => 4
  | .misdirect => 5
  | .partition => 6
  | _ => 0

/-- R231: an error that may replace a CE entry. -/
def ReadKind.severe : ReadKind → Bool
  | .ueSecded | .ueCrc | .misdirect | .partition => true
  | _ => false

/-- A CE entry. -/
def ErrEntry.ce (e : ErrEntry) : Bool := e.kind == 1 || e.kind == 2

/-- R231: an error enters the queue; the flag says whether it was queued as a new entry. -/
def Chan.queueErr (c : Chan) (e : ErrEntry) (severe : Bool) : Chan × Bool :=
  match c.errq.findIdx? (fun x => x.line == e.line && x.kind == e.kind) with
  | some i => ({ c with errq := c.errq.modify i (fun x => { x with count := satInc x.count }) }, false)
  | none =>
    if c.errq.length < 16 then
      ({ c with errq := c.errq ++ [e], errSeq := if c.errq.isEmpty then c.errSeq + 1 else c.errSeq }, true)
    else match severe, c.errq.findIdx? ErrEntry.ce with
      | true, some i => ({ c with errq := c.errq.set i e, errSeq := if i = 0 then c.errSeq + 1 else c.errSeq }, true)
      | _, _ => ({ c with ovf := satInc c.ovf }, false)

/-- R231, R239: an error of a channel line is counted and queued; `src` is SOURCE. -/
def State.logErr (n : Nat) (k : ReadKind) (src : BitVec 2) (part : BitVec 3) (l : Nat) (s : State) : State :=
  if k.code = 0 then s else
  let ce := !k.severe
  let c0 := s.chan n
  let (c1, fresh) := c0.queueErr ⟨k.code, src, part, 1, BitVec.ofNat 33 l⟩ k.severe
  let ue := k == .ueSecded || k == .ueCrc
  let c2 := { c1 with
    ceTotal := if ce then satInc c1.ceTotal else c1.ceTotal
    ueTimes := if ue then (s.now, l) :: c1.ueTimes.filter (fun p => decide (s.now < p.1 + sec)) else c1.ueTimes
    misTimes := if k == .misdirect then s.now :: within sec s.now c1.misTimes else c1.misTimes }
  let s := s.modChan n (fun _ => c2)
  let s := if fresh && k.severe then
      s.limited .dramUncorrectable n ms (State.raise .dramUncorrectable [i16 n, .w16 (k.code.setWidth 16), i64 l]) else s
  if ce && c0.ceTotal != 0xFFFF && c0.ceTotal.toNat % 256 == 255 then
    s.limited .dramCorrected n ms (State.raise .dramCorrected [i16 n, .w16 c2.ceTotal]) else s

/-! The channel fence (R233, R234, R236). -/

/-- R402: the controller's source of channel `n`. -/
def chanSrc (n : Nat) : Nat := 268 + 4 * n

/-- R233 to R236: channel `n` is fenced on a cause (1 training, 2 UE, 3 MISDIRECT, 4 PHY fault) reported at `src`; the
second fence is fatal. Requests in flight complete as UE, merge buffer entries are dropped, remapping begins. -/
def State.fenceChan (n cause src : Nat) (s : State) : State :=
  if (s.chan n).st = .fenced then s
  else if s.drm.fencedCh ≠ 0xF then
    (((s.modChan n (fun c => { c with st := .fenced, merge := [] })).latch (173 + n)).limited .dramChannelFenced n ms
      (State.raise .dramChannelFenced [i16 n, i16 cause])).recordFatal src
  else
    let s := (s.modChan n (fun c => { c with st := .fenced, merge := [] })).latch (173 + n)
    let s := s.modDrm (fun d => { d with fencedCh := BitVec.ofNat 4 n, remapped := d.tolerant })
    let s := s.each (List.range 12) (fun k => State.modChan k (fun c => { c with
      lines := c.lines.filter (fun p => !s.drm.isSpare (p.1 / 1024)), merge := c.merge.filter (fun m => !s.drm.isSpare (m.line / 1024)) }))
    let s := (s.modFltSrc src (fun x => { x with fenced := true })).unitFenced src 4
    let s := s.limited .dramChannelFenced n ms (State.raise .dramChannelFenced [i16 n, i16 cause])
    s.wantAdmission 1

/-- R233: a fence that follows from the errors of the last second. -/
def State.fenceIfDue (n : Nat) (s : State) : State :=
  let c := s.chan n
  if 16 ≤ (c.ueTimes.map (·.2)).dedup.length then (s.recordContained (chanSrc n) .fenceUnit false).fenceChan n 2 (chanSrc n)
  else if 2 ≤ c.misTimes.length then (s.recordContained (chanSrc n) .fenceUnit false).fenceChan n 3 (chanSrc n)
  else s

/-! Pages and ranks (R224, R225). -/

/-- R224: an access to a row of a bank; one with no access before it neither increments nor decrements (DEDUCED, log entry 209). -/
def BankP.access (b : BankP) (row : Nat) : BankP :=
  let p := match b.row with
    | some r => if r = row then satInc b.pred else if b.pred = 0 then 0 else b.pred - 1
    | none => b.pred
  { pred := p, row := some row, opened := decide (2 ≤ p.toNat) }

/-- R224, R225: the bank and rank of an accessed line. -/
def State.touch (n l : Nat) (s : State) : State :=
  let (b, row) := s.bankRow l
  s.modChan n (fun c => { c with
    banks := c.banks.upd BankP.reset b (fun x => x.access row)
    ranks := c.ranks.upd RankS.reset (s.rankOf l) (fun r => { r with powerDown := false }) })

/-! Reads and writes. -/

/-- R218, R302: requesters exempt from the partition tests. -/
def srcExempt : ReqSrc → Bool
  | .tack | .scrub | .fill => true
  | _ => false

/-- The requester's partition, none for an exempt one. -/
def reqPart (r : Requester) : Option (BitVec 3) := if srcExempt r.src then none else some r.part

/-- R302: the region check of a pool address. -/
def State.regionOk (s : State) (r : Requester) (a : Nat) : Bool :=
  srcExempt r.src || s.drm.inRegion r.part.toNat (a / blockBytes)

/-- R218: a line is read from DRAM by a requester and classified; a corrected line is rewritten; the error is logged. -/
def State.readChan (n l : Nat) (r : Requester) (src : BitVec 2) (s : State) : State × ReadResult :=
  let (res, x) := classify (s.lineAt n l) l (reqPart r)
  let s := s.touch n l
  let s := if res.kind == .ceSecded || res.kind == .ceTag then s.putLine n l x else s
  ((s.logErr n res.kind src r.part l).fenceIfDue n, res)

/-- R220: the merge buffer entry of a line. -/
def Chan.mergeOf (c : Chan) (l : Nat) : Option Merge := c.merge.find? (fun m => m.line == l)

/-- R220: data overlaid with an entry's bytes. -/
def patchLine (d : BitVec 512) (bs : List (Nat × Byte)) : BitVec 512 :=
  bs.foldl (fun d p => (d &&& ~~~((0xFF#512) <<< (8 * p.1))) ||| ((p.2.setWidth 512 : BitVec 512) <<< (8 * p.1))) d

/-- R20, R315: a grant held on a rail. -/
def State.holds (s : State) (rail : Nat) (k : ReqKind) (who : Nat) : Bool :=
  (s.rail rail).grants.any (fun g => g.1 == k && g.2.1 == who)

/-- R235: a request to a line of a remapped block waits until the block is filled: until the poisoned fill of the channel has begun
under its grant, from which on the block is filled next. -/
def State.awaitsFill (s : State) (n l : Nat) : Bool :=
  s.drm.isSpare (l / 1024) && !(s.chan n).remapFilled && !s.holds 4 .fill n

/-- R218, R220, R302: a read of the line of a pool address. -/
def State.readLine (r : Requester) (a : Nat) (s : State) : State × ReadResult :=
  match s.drm.lineOf a with
  | none => (s, ⟨.ueSecded, 0⟩)
  | some (n, l) =>
    if !s.regionOk r a then (s.logErr n .partition 0 r.part l, ⟨.partition, 0⟩)
    else if (s.chan n).st = .fenced then (s, ⟨.ueSecded, 0⟩)
    else if (s.chan n).st ≠ .active ∨ s.awaitsFill n l then (s, ⟨.refused, 0⟩)
    else match (s.chan n).mergeOf l with
      | some m =>
        if m.bytes.length = 64 then (s, ⟨.clean, patchLine 0 m.bytes⟩)
        else
          let (s, res) := s.readChan n l r 0
          if res.kind == .misdirect || res.kind == .partition then (s, res)
          else (s, { res with data := patchLine res.data m.bytes })
      | none => s.readChan n l r 0

/-- R219: a full-line write: a fresh tag and checks; an entry of the merge buffer is dropped. -/
def State.writeLine (r : Requester) (a : Nat) (d : BitVec 512) (s : State) : State :=
  match s.drm.lineOf a with
  | none => s
  | some (n, l) =>
    if !s.regionOk r a then s.logErr n .partition 0 r.part l
    else if (s.chan n).st ≠ .active ∨ s.awaitsFill n l then s
    else ((s.modChan n (fun c => { c with merge := c.merge.filter (fun m => m.line != l) })).putLine n l
      (mkLine d r.part false l)).touch n l

/-- R221: the atomic read-merge-write of an entry. -/
def State.flushMerge (n : Nat) (m : Merge) (s : State) : State :=
  let s := s.modChan n (fun c => { c with merge := c.merge.filter (fun x => x.line != m.line) })
  let (res, _) := classify (s.lineAt n m.line) m.line (if m.exempt then none else some m.part)
  let s := ((s.logErr n res.kind 1 m.part m.line).touch n m.line).fenceIfDue n
  if res.kind == .misdirect || res.kind == .partition then s
  else
    let poison := res.kind == .ueSecded || res.kind == .ueCrc || res.kind == .poisoned
    s.putLine n m.line (mkLine (patchLine res.data m.bytes) m.part poison m.line)

/-- R220: bytes merge into an entry, the later byte replacing the earlier. -/
def mergeBytes (old : List (Nat × Byte)) (new : List (Option Byte)) : List (Nat × Byte) :=
  new.zipIdx.foldl (fun bs p => match p.1 with
    | some b => Tbl.insertAt (Tbl.drop bs p.2) p.2 b
    | none => bs) old

/-- R220: a narrow write merges into the entry for its line, allocating one, evicting the least recently used entry
when all 32 are in use, and writing the full line when all 64 bytes are there; what the eviction fences the channel of is dropped. -/
def State.narrow (r : Requester) (a : Nat) (bytes : List (Option Byte)) (s : State) : State :=
  match s.drm.lineOf a with
  | none => s
  | some (n, l) =>
    if !s.regionOk r a then s.logErr n .partition 0 r.part l
    else if (s.chan n).st ≠ .active ∨ s.awaitsFill n l then s
    else
      let old := match (s.chan n).mergeOf l with
        | some m => m.bytes
        | none => []
      let bs := mergeBytes old (bytes.take 64)
      if bs.length = 64 then s.writeLine r a (patchLine 0 bs)
      else
        let s := if ((s.chan n).mergeOf l).isNone && decide (32 ≤ (s.chan n).merge.length) then
            (match (s.chan n).merge with
              | m :: _ => s.flushMerge n m
              | [] => s) else s
        if (s.chan n).st = .active then s.modChan n (fun c => { c with
          merge := c.merge.filter (fun m => m.line != l) ++ [⟨l, bs, r.part, srcExempt r.src⟩] })
        else s

/-! The request tracker (R25, R26, R303). -/

/-- R303: the slots of channel `n` that requests hold now. -/
def State.liveSlots (s : State) (n : Nat) : List DramSlot := (s.chan n).slots.filter (fun x => decide (s.now < x.till))

/-- R303: the slots of a channel that are shared. -/
def Drm.sharedSlots (d : Drm) : Nat := 120 - ((List.range 8).map (d.slotResv.look 0)).sum

/-- R303: the slot that a request of a holder (none for scrub, fill, calibration and the Tack) takes at a channel: a reserved one (true) or
a shared one; none while neither is free. -/
def State.freeSlotOf (s : State) (n : Nat) (who : Option Nat) : Option Bool :=
  let live := s.liveSlots n
  let mine (resv : Bool) : Nat := (live.filter (fun x => x.who == who && x.resv == resv)).length
  let shared := (live.filter (fun x => !x.resv)).length
  let resv := match who with
    | none => 8
    | some p => s.drm.slotResv.look 0 p
  let most := match who with
    | none => 128
    | some p => s.drm.slotMax.look 0 p
  if mine true < resv then some true
  else if shared < s.drm.sharedSlots ∧ mine false < most then some false
  else none

/-- R303: the holder of a requester's slot. -/
def slotWho (r : Requester) : Option Nat := if srcExempt r.src then none else some r.part.toNat

/-- R26, R303: a slot is free for a request at a pool address. -/
def State.slotOk (s : State) (r : Requester) (a : Nat) : Bool :=
  match s.drm.lineOf a with
  | none => true
  | some (n, _) => (s.freeSlotOf n (slotWho r)).isSome

/-- R303: a request at a pool address takes its slot; for how long it holds it is a free value (log entry 125). -/
def State.takeSlot (r : Requester) (a : Nat) (s : State) : State :=
  match s.drm.lineOf a with
  | none => s
  | some (n, _) => match s.freeSlotOf n (slotWho r) with
    | none => s
    | some resv => (s.modChan n (fun c => { c with
        slots := s.liveSlots n ++ [⟨slotWho r, resv, s.now + Config.dramTime s.freeCtr⟩] })).tickFree

/-- R26, R225, R235: a request at a pool address waits: for a slot of its channel, for the fill of its block, or for the end of
self-refresh. -/
def State.requestWaits (s : State) (r : Requester) (a : Nat) : Bool :=
  match s.drm.lineOf a with
  | none => false
  | some (n, l) => (s.freeSlotOf n (slotWho r)).isNone || (s.chan n).st == .selfRefresh || ((s.chan n).st == .active && s.awaitsFill n l)

/-- The requester and the pool address of a request that waits. -/
def DramWait.request : DramWait → Requester × Nat
  | .read r a => (r, a.addr)
  | .write r a _ => (r, a)
  | .narrow r a _ => (r, a)

/-- R191, R231: an access by a core that no partition owns. -/
def State.notOwned (a : Nat) (s : State) : State :=
  match s.drm.lineOf a with
  | none => s
  | some (n, l) => s.logErr n .partition 0 0 l

/-! Commands. -/

/-- MERGE_FLUSH (R221): the entry of a line, idle for 256 DRAM clocks, is written. -/
def execMergeFlush (ch line : Nat) (s : State) := ok (
  if (s.chan ch).st = .active then
    match (s.chan ch).mergeOf line with
    | some m => s.flushMerge ch m
    | none => s
  else s)

/-- REFRESH (R222, R224): REFab to both ranks closes every row; a rank in power-down leaves it. -/
def execRefresh (ch : Nat) (s : State) := ok (
  if (s.chan ch).st = .active then s.modChan ch (fun c => { c with
    refreshes := c.refreshes + 1
    banks := c.banks.map (fun p => (p.1, { p.2 with opened := false }))
    ranks := (c.ranks.map (fun p => (p.1, { p.2 with powerDown := false }))).filter (fun p => decide (p.2 ≠ RankS.reset)) })
  else s)

/-- R239, R377: DRAM_HOT with tREFI in ns, and source 173 + n. -/
def State.dramHot (ch tREFI : Nat) (s : State) : State := (s.raise .dramHot [i16 ch, i32 tREFI]).latch (173 + ch)

/-- MR4_POLL (R223): any device that calls for it doubles the refresh; 1 s of normal readings returns it. -/
def execMr4Poll (ch : Nat) (hot : List Bool) (s : State) := ok (
  if (s.chan ch).st = .active then
    let c := s.chan ch
    let s := s.modChan ch (fun c => { c with
      ranks := hot.zipIdx.foldl (fun t p => Tbl.upd t RankS.reset p.2 (fun r => { r with hot := p.1 })) c.ranks })
    if hot.any id then
      let s := s.modChan ch (fun c => { c with hot := true, normSince := none })
      if c.hot then s else s.dramHot ch 1950
    else if c.hot then
      match c.normSince with
      | none => s.modChan ch (fun c => { c with normSince := some s.now })
      | some t => if t + sec ≤ s.now then
          (s.modChan ch (fun c => { c with hot := false, normSince := none })).dramHot ch 3900 else s
    else s
  else s)

/-- RANK_POWER_DOWN (R225): an idle rank enters power-down, unless RPD_IDLE is 0. -/
def execRankPowerDown (ch rank : Nat) (s : State) := ok (
  if (s.chan ch).st = .active ∧ s.drm.rpdIdle ≠ 0 then
    s.modChan ch (fun c => { c with ranks := c.ranks.upd RankS.reset rank (fun r => { r with powerDown := true }) })
  else s)

/-- DRAM_TRAINING (R226): training under a Bellows grant ends: the channel is filled next, or is fenced. -/
def execDramTraining (ch : Nat) (okay : Bool) (s : State) := ok (
  if (s.chan ch).st = .training ∧ s.holds 4 .training ch then
    let s := s.modGlb (fun g => { g with trainedCh := ch :: g.trainedCh })
    if okay then (s.modChan ch (fun c => { c with st := .filling })).latch (173 + ch)
    else (s.recordContained (chanSrc ch) .fenceUnit false).fenceChan ch 1 (chanSrc ch)
  else s)

/-- R227: a retrain that fails the fourth time is a training failure. -/
def State.retrain (ch : Nat) (within : Bool) (s : State) : State :=
  if within then s.modChan ch (fun c => { c with tries := 0, drifted := false })
  else
    let n := (s.chan ch).tries + 1
    let s := s.modChan ch (fun c => { c with tries := n })
    if 4 ≤ n.toNat then (s.recordContained (chanSrc ch) .fenceUnit false).fenceChan ch 1 (chanSrc ch) else s

/-- CALIBRATION_SLIVER (R227): a ZQ sliver of a rank is ZQCAL START, and the next one of the rank its ZQCAL LATCH. -/
def execCalibrationSliver (ch : Nat) (k : Sliver) (s : State) := ok (
  if (s.chan ch).st = .active then
    let s := (s.modChan ch (fun c => { c with zqTurn := c.zqTurn + 1 })).served (workSliver + ch)
    match k with
    | .retrain within => if (s.chan ch).drifted then s.retrain ch within else s
    | .oscillator _ drifted => if drifted then s.modChan ch (fun c => { c with drifted := true }) else s
    | .zq r => s.modChan ch (fun c => { c with
        zqLatch := if c.zqLatch.contains r then c.zqLatch.erase r else c.zqLatch ++ [r] })
  else s)

/-- HARDWARE_FILL (R228): under a Bellows grant every line of the channel has been written. -/
def execHardwareFill (ch : Nat) (s : State) := ok (
  if (s.chan ch).st = .filling ∧ s.holds 4 .fill ch then
    (s.modChan ch (fun c => { c with st := .active, filled := true, lines := [], scrubStart := s.now })).latch (173 + ch)
  else s)

/-- R230: lines that a sweep is behind its 20 h pace, 0 when it is not. -/
def State.scrubBehind (s : State) (ch : Nat) : Nat :=
  (s.chanLines * (s.now - (s.chan ch).scrubStart) + (72000 * sec - 1)) / (72000 * sec) - (s.chan ch).scrubDone.toNat

/-- R229: one line is scrubbed. -/
def State.scrubOne (ch l : Nat) (s : State) : State :=
  if ((s.chan ch).mergeOf l).isSome then s
  else
    let (res, x) := classify (s.lineAt ch l) l none
    let s := match res.kind with
      | .ceSecded | .ceTag => s.putLine ch l x
      | .ueSecded | .ueCrc => s.putLine ch l (mkLine res.data (tagPart x.tag) true l)
      | _ => s
    ((s.logErr ch res.kind 2 (tagPart x.tag) l).touch ch l).fenceIfDue ch

/-- SCRUB_LINE (R229, R230): the next line of the sweep; the next sweep begins when this one ends. -/
def execScrubLine (ch : Nat) (s : State) := ok (
  if (s.chan ch).st = .active then
    let s := s.scrubOne ch (s.chan ch).scrubDone.toNat
    let n := (s.chan ch).scrubDone.toNat + 1
    let s := if n % 64 = 0 then s.served ch else s
    if s.chanLines ≤ n then s.modChan ch (fun c => { c with
      scrubDone := 0, scrubStart := s.now, scrubRaised := false, urgent := false })
    else
      let s := s.modChan ch (fun c => { c with scrubDone := BitVec.ofNat 32 n })
      if s.scrubBehind ch = 0 then s.modChan ch (fun c => { c with urgent := false }) else s
  else s)

/-- DRAM_SCRUB_URGENT (R230): behind schedule, the scrubber is URGENT; the event is raised once per sweep. -/
def execDramScrubUrgent (ch : Nat) (s : State) := ok (
  if (s.chan ch).st = .active ∧ 0 < s.scrubBehind ch then
    let raised := (s.chan ch).scrubRaised
    let n := s.scrubBehind ch
    let s := (s.modChan ch (fun c => { c with urgent := true, scrubRaised := true })).latch (173 + ch)
    if raised then s else s.raise .dramScrubUrgent [i16 ch, i32 n]
  else s)

/-- R231, R232: the Tack has written the head entry to the log and retires it; the log keeps each occurrence of a CE or UE for 24 h. -/
def Chan.retireErr (now : Nat) (c : Chan) : Chan :=
  match c.errq with
  | [] => c
  | e :: r =>
    let ue := e.kind == 3 || e.kind == 4
    let new := if e.ce || ue then List.replicate e.count.toNat (now, e.line.toNat, ue) else []
    { c with
      errq := r, errSeq := if r.isEmpty then c.errSeq else c.errSeq + 1
      logErrs := new ++ c.logErrs.filter (fun p => decide (now < p.1 + 86400 * sec)) }

/-- DRM_ERRQ_RETIRE (R231, R232, R238, R462): a write of the SEQ in force retires the head entry; SEQ increments as the next
entry reaches the head. With the Tack held the queues stop (R398). -/
def execDrmErrqRetire (ch : Nat) (v : Word) (s : State) := ok (
  if (v >>> 24).setWidth 8 = (s.chan ch).errSeq ∧ !s.tck.held then s.modChan ch (Chan.retireErr s.now) else s)

/-- DRAM_CHANNEL_FENCED (R233): the channel is fenced on a cause: 1 training, 2 UE, 3 MISDIRECT, 4 PHY fault. -/
def execDramChannelFenced (ch cause : Nat) (s : State) := ok (
  if s.running ∧ ch < 12 then s.fenceChan ch cause (if cause = 4 then chanSrc ch + 1 else chanSrc ch) else s)

end Sys2Proof.Machine
end

