-- ==== Sys2Proof/Machine/Ports.lean ====
section
/-! DEFINITION. DisplayPort source and sink ports (R173 to R177, R182, R183). -/

namespace Sys2Proof.Machine

/-- R174, R377: LINK_STATE of a source port changes. -/
def State.setDpoLink (n : Nat) (st : DpoLink) (s : State) : State :=
  if (s.dpo n).link = st then s else (s.modDpo n (fun p => { p with link := st })).latch (149 + n)

/-- R174: the bandwidth that a raster needs, in bit/s: its pixel rate including blanking times the bits per pixel. -/
def State.bandwidth (s : State) (n : Nat) : Nat :=
  let f := (s.raster n).fmt
  f.hTotal * f.lt * f.num / f.den * (if (s.dpo n).video.getLsbD 0 then 30 else 24)

/-- R174: a link that training finds has bandwidth enough. -/
def State.enough (s : State) (n : Nat) (l : BitVec 4 × BitVec 3) : Bool := decide (s.bandwidth n ≤ Config.dpPayload l.1 l.2)

/-- R415: a lead reports a port's trained settings to its twin. -/
def State.reportPort (n : Nat) (s : State) : State :=
  if s.glb.role = .lead then s.gPut (.port (.dp n (s.dpo n).linkRate (s.dpo n).lanes (s.dpo n).drive)) else s

/-- R174, R182: the rate, lanes and transmitter settings of a trained link; the settings are free values (log entry 152). -/
def State.setTrained (n : Nat) (l : BitVec 4 × BitVec 3) (s : State) : State :=
  (s.modDpo n (fun p => { p with linkRate := l.1, lanes := l.2, drive := Config.laneDrive s.freeCtr })).tickFree

/-- R183: an event of a raster or port, at most once per output frame of raster `k`. -/
def State.raiseFrame (k : Nat) (id : EventId) (items : List Item) (s : State) : State :=
  let f := (s.raster k).frame
  if s.out.evFrame.contains (id, k, f) then s
  else (s.modOut (fun o => { o with evFrame := (id, k, f) :: o.evFrame.filter (fun x => x.1 != id || x.2.1 != k) })).raise id items

/-- R174: the links that a source port trains with, in the order in which it tries them: UHBR13.5, UHBR10, HBR3 and HBR2, each over 4, 2
and 1 lanes (DESIGN CHOICE, log entry 152). -/
def sourceLinks : List (BitVec 4 × BitVec 3) := [6, 5, 4, 3].flatMap (fun r => [4, 2, 1].map (fun l => (r, l)))

/-- R174: of the links that train, the first with bandwidth enough is kept, else the first of them is held in SHORT. -/
def State.train (n : Nat) (found : List (BitVec 4 × BitVec 3)) (s : State) : State :=
  let links := sourceLinks.filter found.contains
  match links.find? (s.enough n) with
  | some l =>
    let s := s.setTrained n l
    (s.setDpoLink n (if (s.raster n).retiming then .retiming else .active)).reportPort n
  | none => match links with
    | l :: _ =>
      let s := s.setTrained n l
      let s := (s.setDpoLink n .short).reportPort n
      s.raiseFrame n .dpLinkShort [i16 n, .w16 (l.1.setWidth 16), .w16 (l.2.setWidth 16)]
    | [] => (s.modDpo n (fun p => { p with linkRate := 0, lanes := 0 })).setDpoLink n .training

/-- R353, R413: a link can train: the part is past LOAD and not in HALT. -/
def State.linksUp (s : State) : Bool := s.running && s.glb.mode != .fill && s.glb.mode != .load

/-- DP_LINK_TRAIN (R174): a source port completes training; the first after a takeover switch raises DP_LINK_RETRAINED. -/
def execDpLinkTrain (n : Nat) (links : List (BitVec 4 × BitVec 3)) (s : State) := ok (
  let p := s.dpo n
  if !s.linksUp || 8 ≤ n || !p.hpd || p.fenced then s
  else
    let s := s.train n links
    if p.switched then (s.modDpo n (fun p => { p with switched := false })).raiseFrame n .dpLinkRetrained [i16 n] else s)

/-- DP_HPD_IRQ (R182, R183): the sink requests training and the port retrains. -/
def execDpHpdIrq (n : Nat) (links : List (BitVec 4 × BitVec 3)) (s : State) := ok (
  let p := s.dpo n
  if !s.linksUp || 8 ≤ n || !p.hpd || p.fenced then s
  else ((s.train n links).modDpo n (fun p => { p with switched := false })).raiseFrame n .dpLinkRetrained [i16 n])

/-- DPO_HPD_CHANGE (R174): the sink's HPD starts training, or puts LINK_STATE in DOWN. -/
def execDpoHpdChange (n : Nat) (high : Bool) (s : State) := ok (
  if 8 ≤ n || (s.dpo n).hpd == high then s
  else
    let s := s.modDpo n (fun p => { p with hpd := high, linkRate := 0, lanes := 0 })
    if !high then s.setDpoLink n .down
    else if s.linksUp && !(s.dpo n).fenced then s.setDpoLink n .training else s)

/-- R177, R377: LINK_STATE of a sink port changes. -/
def State.setDpiLink (n : Nat) (st : DpiLink) (s : State) : State :=
  if (s.dpi n).link = st then s else (s.modDpi n (fun p => { p with link := st })).latch (157 + n)

/-- R176, R177: the reason for which a main stream is refused, 0 for one that is accepted. -/
def State.sinkReason (s : State) (n : Nat) (m : MainStream) : BitVec 4 :=
  let p := s.dpi n
  let f := (s.raster (16 + n)).fmt
  if 3 ≤ m.sampling then 1
  else if 10 < m.depth then 2
  else if m.width ≠ f.width ∨ m.height ≠ f.la ∨ m.num * f.den ≠ f.num * m.den ∨ m.sampling ≠ p.format.toNat ∨
      m.limited ≠ p.range ∨ m.depth ≠ (if p.depth then 10 else 8) then 3
  else 0

/-- R42, R176, R177: the main stream that arrives at sink port `n` is held against the configured format: its raster is in ACQUIRING
until frames of that format are seen, and a refusal is recorded. -/
def State.judgeStream (n : Nat) (m : MainStream) (s : State) : State :=
  let why := s.sinkReason n m
  if why = 0 then
    let s := s.setDpiLink n .active
    if (s.raster (16 + n)).inState = .absent then s.setInState (16 + n) .acquiring else s
  else
    let s := ((s.modDpi n (fun p => { p with reason := why, seq := p.seq + 1 })).setDpiLink n .refused).latch (157 + n)
    let s := (s.modRaster (16 + n) Raster.forget).setInState (16 + n) .acquiring
    s.raiseFrame (16 + n) .inputFormatRefused [i16 n, .w16 (why.setWidth 16)]

/-- R176: a rate of the five that a sink port accepts, over 1, 2 or 4 lanes. -/
def sinkLink (rate : BitVec 4) (lanes : BitVec 3) : Bool :=
  decide (1 ≤ rate.toNat ∧ rate.toNat ≤ 5) && (lanes == 1 || lanes == 2 || lanes == 4)

/-- R176, R177: the bytes of EDID that a sink port presents over AUX. -/
def DpiPort.presented (p : DpiPort) : List Byte :=
  (wordBytes ((List.range 128).map (p.edid.look 0))).take (128 * p.edidLen.toNat)

/-- DP_SINK_LINK_TRAIN (R176, R177): the link trains, and the source's format is checked. -/
def execDpSinkLinkTrain (n : Nat) (rate : BitVec 4) (lanes : BitVec 3) (m : MainStream) (s : State) := ok (
  let p := s.dpi n
  if !s.linksUp || 4 ≤ n || !p.enable || !p.hpd || p.fenced || !sinkLink rate lanes then s
  else (s.modDpi n (fun p => { p with
    linkRate := rate, lanes := lanes, measW := BitVec.ofNat 16 m.width, measH := BitVec.ofNat 16 m.height, stream := some m })).judgeStream n m)

/-- DPI_LINK_DOWN (R177): the source drops its link. -/
def execDpiLinkDown (n : Nat) (s : State) := ok (
  if 4 ≤ n then s
  else (s.modDpi n (fun p => { p with linkRate := 0, lanes := 0, measW := 0, measH := 0, stream := none })).setDpiLink n .down)

/-- DP_HPD_PULSE_END (R176): HPD is asserted again after the low pulse. -/
def execDpHpdPulseEnd (n : Nat) (s : State) := ok (
  if (s.dpi n).pulse then s.modDpi n (fun p => { p with pulse := false, hpd := p.enable && !p.fenced }) else s)

/-- DPI_REASON_CLEAR (R177, R462): a write of the value that SEQ reads clears REASON. -/
def execDpiReasonClear (n : Nat) (v : Word) (s : State) := ok (
  if v.extractLsb' 24 8 = (s.dpi n).seq then s.modDpi n (fun p => { p with reason := 0 }) else s)

end Sys2Proof.Machine
end

