-- ==== Sys2Proof/Machine/Runner.lean ====
section
/-! DEFINITION. The Runner's commands: frames received, switching, the Stitcher, pauses, egress and statistics (R243 to
R271). -/

namespace Sys2Proof.Machine

/-! Ingress (R243 to R249). -/

/-- R243: a frame that the port discards. -/
def frameBad (mtu : Nat) (f : Frame) : Bool :=
  !f.fcsOk || decide (mtu + (if f.vid.isSome then 22 else 18) < f.len) ||
  (f.ip && ((!f.ipv6 && (f.fragment || !f.hdrSumOk)) || (f.ipv6 && f.extHeader))) || (f.udp && !f.udpSumOk)

/-- R245: a rule matches a frame of port `p`. -/
def Rule.hits (r : Rule) (p : Nat) (f : Frame) : Bool :=
  r.valid && r.ports.getLsbD p && (!r.vlanEn || f.vid == some r.vid) && r.ipv6 == f.ipv6 &&
  r.dport == f.dport && r.dstIp == f.dst && (!r.srcEn || r.srcIp == f.src) &&
  (!r.ssrcEn || (f.rtp.map (·.ssrc)) == some r.ssrc)

/-- R249: a command for the stream of a rule was executed within the last 1 µs, so that its effect is open. -/
def State.quenchOpen (s : State) (r : Rule) : Bool :=
  r.dest == 0 && s.run.quenchPend.any (fun x => x.1 == r.stream.toNat && decide (s.now ≤ x.2))

/-- R249: a rule is quenched by its bit or by the pin; TC7 and TC6 rules never are. Within 1 µs of a command the bit is a free
value. -/
def State.quenched (s : State) (r : Rule) : Bool :=
  let bit := if s.quenchOpen r then (Config.freeWord s.freeCtr).getLsbD 0 else r.quench
  decide (r.tc.toNat < 6) && (bit || (s.run.quenchPin && s.run.quenchMask.getLsbD r.part.toNat))

/-- R247, R257: a packet of an Ethernet port is buffered, or discarded: a yellow one at the floor as R247 says, else as LDL_NOBUF. -/
def State.bufferFrame (p : Nat) (k : Pkt) (s : State) : State :=
  if !s.yellowFits k then s.portCount p 6 1
  else match s.allocPkt k with
  | some (s, k) => s.voqPut (s.egressOf k.dest k.stream) k
  | none =>
    let l := (s.poolsTried k.len).headD 3
    let s := (s.portCount p 8 1).modLadle l (LdlPool.bump (fun x => { x with nobuf := satInc x.nobuf }))
    (s.latch (194 + l)).limited .ldlNobuf l ms (State.raiseP k.part .ldlNobuf [i16 l, i16 k.cls])

/-- A packet as classified. -/
def State.pktOf (s : State) (p : Nat) (f : Frame) (part cls dest stream : Nat) (path yellow : Bool) : Pkt :=
  { s.newPkt p f.len f.payload part cls dest stream with
    path := path, yellow := yellow, rtp := f.rtp, dscp := f.dscp, vid := f.vid, query := f.query }

/-- R244: a packet for the Tack under a fixed policer. -/
def State.toTack (p : Nat) (f : Frame) (policer cls : Nat) (s : State) : State :=
  let x := s.policeFixed policer f.len
  if x.2 = .red then x.1.portCount p 6 1
  else x.1.bufferFrame p (x.1.pktOf p f 0 cls 1 0 false (x.2 == .yellow))

/-- R247, R401: the policer of a rule marks a frame; one under RELOAD lets none pass. -/
def State.policeBy (f : Frame) (r : Rule) (s : State) : State × Colour :=
  if !r.polEn then (s, .green)
  else if s.reloading 327 r.policer.toNat then (s, .red)
  else s.police r.policer.toNat f.len f.dscp

/-- R246 to R249: a packet that matches a rule. -/
def State.byRule (p : Nat) (f : Frame) (r : Rule) (s : State) : State :=
  let st := r.stream.toNat
  if s.quenched r then (s.whenB (s.quenchOpen r) State.tickFree).portCount p 7 1
  else if r.dest = 3 then s
  else if r.dest = 0 ∧ (s.run.capture.look none st).isNone ∧ (s.decS st).st = .idle then s.portCount p 5 1
  else
    let (s, c) := s.policeBy f r
    if c = .red then s.portCount p 6 1
    else s.bufferFrame p (s.pktOf p f r.part.toNat r.tc.toNat r.dest.toNat st r.path (c == .yellow))

/-- R243: a frame may arrive at the port. -/
def State.portUp (s : State) (p : Nat) : Bool := s.running && (s.eth p).link && !(s.eth p).fenced

/-- FRAME_RECEIVED (R243 to R249, R257). -/
def execFrameReceived (p : Nat) (f : Frame) (s : State) := ok (
  if !s.portUp p then s
  else
    let s := (s.portCount p 1 1).portCount p 2 f.len
    if frameBad (s.eth p).mtu f then s.portCount p 4 1
    else if f.ip && f.udp && (f.dport == 319 || f.dport == 320) then s.toTack p f 512 6
    else match if f.ip && f.udp then s.run.rules.find? (fun r => r.2.hits p f) else none with
      | some r => if s.reloading 326 r.1 then s.portCount p 5 1 else s.byRule p f r.2
      | none => s.toTack p f 513 0)

/-! Pauses (R267, R268). -/

/-- Bit `c` of an eight-bit set. -/
def bitOf (c : Nat) : BitVec 8 := 1#8 <<< c

/-- R267, R268: a class is paused for `q` quanta, or resumed by 0; one that is not paused stays unpaused without a break. -/
def EthPort.pause (now c q : Nat) (e : EthPort) : EthPort :=
  if q = 0 then { e with
    paused := e.paused &&& ~~~bitOf c, pauseEnd := e.pauseEnd.put 0 c 0, pauseFrom := e.pauseFrom.put 0 c 0
    freeFrom := if e.paused.getLsbD c then e.freeFrom.put 0 c now else e.freeFrom }
  else { e with
    pauseEnd := e.pauseEnd.put 0 c (now + q * 512 / 100)
    pauseFrom := if e.paused.getLsbD c then e.pauseFrom else e.pauseFrom.put 0 c now
    paused := e.paused ||| bitOf c }

/-- PAUSE_RECEIVED (R267): acted on as PAUSE_MODE says, else discarded and counted; a MAC control frame has 64 bytes (PRESUMED, log
entry 154). -/
def execPauseReceived (p : Nat) (f : PauseFrame) (s : State) := ok (
  if !s.portUp p then s
  else
    let s := (s.portCount p 1 1).portCount p 2 64
    match (s.eth p).pauseMode, f with
    | 1, .pause q => s.each (List.range 8) (fun c => State.modEth p (EthPort.pause s.now c q))
    | 2, .pfc qs => s.each (qs.filter (fun x => decide (x.1 < 8))) (fun x => State.modEth p (EthPort.pause s.now x.1 x.2))
    | _, _ => s.portCount p 9 1)

/-- PAUSE_TIMER_EXPIRY (R267): the class resumes. -/
def execPauseTimerExpiry (p c : Nat) (s : State) := ok (
  if (s.eth p).paused.getLsbD c && decide ((s.eth p).pauseEnd.look 0 c ≤ s.now) then s.modEth p (EthPort.pause s.now c 0) else s)

/-- PORT_STALLED (R268): a class has stayed paused for longer than PAUSE_STORM. -/
def execPortStalled (p c : Nat) (s : State) := ok (
  let e := s.eth p
  if e.paused.getLsbD c && !e.stalled.getLsbD c && decide (e.pauseFrom.look 0 c + s.run.pauseStorm * ms < s.now) then
    ((s.modEth p (fun e => { e with stalled := e.stalled ||| bitOf c })).latch (185 + p)).limited .portStalled (8 * p + c) ms
      (State.raise .portStalled [i16 p, i16 c])
  else s)

/-- PORT_STALL_CLEARED (R268): the class has been unpaused for 1 s. -/
def execPortStallCleared (p c : Nat) (s : State) := ok (
  let e := s.eth p
  if e.stalled.getLsbD c && !e.paused.getLsbD c && decide (e.freeFrom.look 0 c + sec ≤ s.now) then
    ((s.modEth p (fun e => { e with stalled := e.stalled &&& ~~~bitOf c })).latch (185 + p)).limited .portStallCleared
      (8 * p + c) ms (State.raise .portStallCleared [i16 p, i16 c])
  else s)

/-! Switching (R241, R242, R260). -/

/-- R260, R312, R407: DROPPING is in force: in FILL, LOAD, TRAIN and TAKEOVER, from a fence until admission has run, and in test. -/
def State.dropping (s : State) : Bool :=
  s.glb.mode == .fill || s.glb.mode == .load || s.glb.mode == .train || s.glb.mode == .takeover ||
  s.blw.fenceDue || (List.range 4).any (fun p => (s.eth p).loopback) ||
  (List.range 23).any (fun i => (s.fltSrc (316 + i)).force != 0)

/-- R244: the receive queue of the Tack for a class. -/
def tackQueue (cls : Nat) : Nat := if cls = 6 then 0 else if cls = 7 then 1 else 2

/-- R241: the credits of 256 B that a packet takes. -/
def Pkt.credits (k : Pkt) : Nat := (k.len + 255) / 256

/-- R241, R242: packets that have crossed and have not been taken at their destination hold their credits. -/
def State.lent (s : State) (p : Pkt → Bool) : Nat :=
  (((s.run.stitch.flatMap (fun x => x.2.arrived) ++ s.run.voqs.flatMap (fun x => x.2.early)).filter p).map Pkt.credits).sum

/-- R241: the whole length of a packet is covered by credit: 16 credits of its ingress and egress pair are TC7's alone, and how many
there are beside them is a free value of at least the longest packet (DESIGN CHOICE, log entry 211). -/
def State.credited (s : State) (k : Pkt) : Bool :=
  let e := s.egressOf k.dest k.stream
  let pair (j : Pkt) : Bool := j.port == k.port && s.egressOf j.dest j.stream == e
  let top := s.lent (fun j => pair j && j.cls == 7)
  let rest := s.lent (fun j => pair j && j.cls != 7)
  let all := 256 + Config.pairCredits (12 * k.port + e)
  if k.cls = 7 then decide (top + rest + k.credits ≤ 16 + all) else decide (rest + (top - 16) + k.credits ≤ all)

/-- R256: payload bytes on their way to a bitstream ring: in the Stitcher, or of a fragmentation unit in progress. -/
def State.stitchBytes (s : State) (c : Nat) : Nat :=
  let x := s.stitch c
  ((x.held ++ x.arrived ++ x.cand.toList).map (·.payload)).sum + (x.frag.getD []).length

/-- R260: the destination of a packet can accept it: it has credit, and its bitstream ring, with the 64 bytes that stay reserved, or its
receive queue has space; how long a receive queue is, is a free value (DESIGN CHOICE, log entry 211). -/
def State.accepts (s : State) (k : Pkt) : Bool :=
  s.credited k && (match k.dest with
  | 0 => (s.run.capture.look none k.stream).isSome ||
      decide ((s.decS k.stream).queueUsed + s.stitchBytes k.stream + k.payload + 64 ≤ (s.decS k.stream).cfg.queue)
  | 1 =>
    let x := s.run.rx.look RxQueue.reset (tackQueue k.cls)
    x.unread || decide (x.queue.length < 1 + Config.rxDepth (tackQueue k.cls))
  | _ => true)

/-- R250: the Stitcher context of a packet. -/
def State.contextOf (s : State) (k : Pkt) : Nat :=
  match s.run.capture.look none k.stream with
  | some r => 256 + r
  | none => k.stream

/-- R244: the multicast groups that enabled rules name, in order. -/
def State.groups (s : State) : List (BitVec 128) :=
  ((s.run.rules.filter (fun x => x.2.valid && (if x.2.ipv6 then x.2.dstIp.extractLsb' 120 8 == 0xFF else x.2.dstIp.extractLsb' 28 4 == 0xE))).map
    (fun x => x.2.dstIp)).dedup

/-- R244: the Tack reports groups on TC0, with a frame for each: of 64 bytes for IGMPv3, of 94 for MLDv2 (PRESUMED, log entry 220). -/
def State.report (gs : List (BitVec 128)) (s : State) : State :=
  (s.modRun (fun r => { r with reports := r.reports ++ gs })).each gs (fun g =>
    if g.extractLsb' 120 8 == 0xFF then State.sendTack 0 94 76 else State.sendTack 0 64 40)

/-- R261: a packet reaches a receive queue of the Tack; in UNREAD it is discarded and counted. A membership query makes the Tack
report every group (R244), as it reaches the queue (DEDUCED, log entry 155). -/
def State.rxPut (k : Pkt) (s : State) : State :=
  let s := s.whenB (k.query && !s.tck.held) (State.report s.groups)
  let q := tackQueue k.cls
  let x := s.run.rx.look RxQueue.reset q
  if x.unread then
    (s.modRun (fun r => { r with rx := r.rx.put RxQueue.reset q { x with drops := x.drops + 1 } })).freePkt k
  else
    let y := { x with queue := x.queue ++ [k], lastDeq := if x.queue.isEmpty then s.now else x.lastDeq }
    s.modRun (fun r => { r with rx := r.rx.put RxQueue.reset q y })

/-- R242, R268: a packet leaves the crossbar. -/
def State.cross (k : Pkt) (s : State) : State :=
  match k.dest with
  | 0 => s.modStitch (s.contextOf k) (fun x => { x with arrived := x.arrived ++ [k] })
  | 1 => s.rxPut k
  | 4 =>
    let f := s.flow k.stream
    if f.dualPath && (s.eth f.port.toNat).stalled.getLsbD k.cls then s.freePkt k else s.flowPut k.stream k
  | _ => (s.modRun (fun r => { r with sent := r.sent ++ [{ k with port := 5 }] })).freePkt k

/-- R260: a packet is discarded under DROPPING; consecutive discards for a stream share one gap marker. -/
def State.dropPkt (k : Pkt) (s : State) : State :=
  let c := s.contextOf k
  let s := if k.dest = 0 ∧ c < 256 ∧ (s.stitch c).dropRun = false then
      (s.gapMark c (((s.stitch c).next).getD 0) 1).modStitch c (fun x => { x with dropRun := true }) else s
  s.freePkt k

/-- R242: the plane that a packet crosses: the one with more free credit toward its egress port, plane 0 where both have the same; a
plane out of service carries nothing. -/
def State.planeOf (s : State) (k : Pkt) : Bool :=
  let e := s.egressOf k.dest k.stream
  let on (b : Bool) : Nat := s.lent (fun j => s.egressOf j.dest j.stream == e && j.plane == b)
  if s.run.planes = 3 then decide (on true < on false) else s.run.planes == 2

/-- R242: the egress side takes packets that crossed early as their serial numbers come; at most `n` of them. -/
def State.catchUp (n q : Nat) (s : State) : State :=
  match n with
  | 0 => s
  | m + 1 => match (s.voq q).early.find? (fun k => k.serial == (s.voq q).expect) with
    | some k => ((s.modVoq q (fun v => { v with expect := v.expect + 1, early := v.early.erase k })).cross k).catchUp m q
    | none => s

/-- R242: the egress side puts the packets of VOQ `q` back into serial order. -/
def State.putBack (q : Nat) (k : Pkt) (s : State) : State :=
  if k.serial = (s.voq q).expect then
    ((s.modVoq q (fun v => { v with expect := v.expect + 1 })).cross k).catchUp (s.voq q).early.length q
  else s.modVoq q (fun v => { v with early := v.early ++ [k] })

/-- PACKET_SWITCH (R241, R242, R258 to R260): the head of a VOQ ages out, crosses a plane, waits, or is dropped. -/
def execPacketSwitch (q : Nat) (s : State) := ok (
  match (s.voq q).queue with
  | [] => s
  | k :: r =>
    if !s.running || s.run.planes == 0 then s
    else
      let t := s.modVoq q (fun v => { v with queue := r })
      if s.aged k then t.ageOut q k
      else if !s.accepts k then
        if s.dropping then (t.statOut q k).dropPkt k else s
      else match (if k.pool < 4 then s.pointerBad k else none) with
        | some _ => (t.statOut q k).freePkt k
        | none =>
          let t := (t.statOut q k).modVoq q (fun v => { v with serial := v.serial + 1 })
          t.putBack q { k with serial := (s.voq q).serial, plane := s.planeOf k })

/-! The Stitcher. -/

/-- STITCHER_PACKET (R250 to R254, R258): the oldest packet at a context is taken. -/
def execStitcherPacket (c : Nat) (s : State) := ok (
  match (s.stitch c).arrived with
  | [] => s
  | k :: r =>
    let s := s.modStitch c (fun x => { x with arrived := r })
    match (if (s.pointerBad k).isSome then none else k.rtp) with
    | none => s.freePkt k
    | some h =>
      let s := s.ssrcSeen c h.ssrc
      let s := s.pathSeen c k.path
      s.stitchOne c { k with ext := extNumber (decide (256 ≤ c)) (s.stitch c).next h })

/-- STITCH_HOLD_EXPIRY (R251, R259): HOLD has passed since the first held packet arrived. -/
def execStitchHoldExpiry (c : Nat) (s : State) := ok (
  let old := (s.stitch c).held.filter (fun k => s.aged k)
  let s := s.modStitch c (fun x => { x with held := x.held.filter (fun k => !s.aged k) })
  let s := s.each old State.ageHeld
  if decide ((s.stitch c).heldAt + s.holdOf c ≤ s.now) || decide (512 ≤ (s.stitch c).held.length) then s.declareMissing c else s)

/-- STITCH_PATH (R252): under ST 2022-7 a path has delivered no packet for 10 ms. -/
def execStitchPath (c : Nat) (b : Bool) (s : State) := ok (
  let x := s.stitch c
  if s.dualCtx c && (if b then x.upB else x.upA) && decide ((if b then x.lastB else x.lastA) + 10 * ms ≤ s.now) then
    let s := s.modStitch c (fun x => if b then { x with upB := false } else { x with upA := false })
    (s.latch 189).limited .stitchPath (2 * c + b.toNat) ms (State.raiseCtx c .stitchPath [i16 b.toNat, i16 1])
  else s)

/-- RUNQ_UNREAD (R261): a receive queue that is not dequeued enters UNREAD, and its contents are freed. -/
def execRunqUnread (q : Nat) (s : State) := ok (
  let x := s.run.rx.look RxQueue.reset q
  if x.queue.isEmpty || x.unread || decide (s.now < x.lastDeq + s.run.unreadMs * ms) then s
  else
    let s := s.each x.queue State.freePkt
    let s := s.modRun (fun r => { r with rx := r.rx.put RxQueue.reset q { x with queue := [], unread := true } })
    (s.latch 193).limited .runqUnread q ms (State.raise .runqUnread [i16 q]))

/-! Egress (R262 to R266). -/

/-- PFC_REFRESH (R262): quanta 65,535 are repeated every 100 µs while they are in force. -/
def execPfcRefresh (p : Nat) (s : State) := ok (
  if (s.eth p).pfcSent ∧ (s.eth p).pfcAt + 100000 ≤ s.now then
    (s.modEth p (fun e => { e with pfcAt := s.now })).modRun (fun r => { r with pfcOut := r.pfcOut ++ [(p, 65535)] })
  else s)

/-- R259: aged packets leave the head of a flow queue; at most `n` of them. -/
def State.ageFlow (n f : Nat) (s : State) : State :=
  match n with
  | 0 => s
  | m + 1 => match (s.flow f).queue with
    | k :: r => if s.aged k then
        ((s.modFlow f (fun x => { x with queue := r })).ageOut (1152 + f) k).ageFlow m f else s
    | [] => s

/-- R263: the flow queues of a port that are eligible, with their heads. -/
def State.eligible (s : State) (p : Nat) : List (Nat × Flow × Pkt) :=
  s.run.flows.filterMap (fun x =>
    match x.2.queue with
    | k :: _ => if x.2.enable && x.2.port.toNat == p && !(s.eth p).paused.getLsbD x.2.tc.toNat && x.2.mayDepart
        then some (x.1, x.2, k) else none
    | [] => none)

/-- R263: the better of two eligible queues: TC7, then TC6, then the smallest start tag, then the higher class, then the
lower index. -/
def flowBetter (a b : Nat × Flow × Pkt) : Bool :=
  let ca := a.2.1.tc.toNat
  let cb := b.2.1.tc.toNat
  if 6 ≤ ca ∨ 6 ≤ cb then decide (cb < ca)
  else decide (a.2.2.tag < b.2.2.tag) || (a.2.2.tag == b.2.2.tag && decide (cb < ca))

/-- R263: the queue that a port serves next. -/
def State.chooseFlow (s : State) (p : Nat) : Option (Nat × Flow × Pkt) :=
  (s.eligible p).foldl (fun best x => match best with
    | none => some x
    | some b => if flowBetter x b then some x else best) none

/-- R258, R264, R265: flow queue `f` of port `p` sends its head `k`; one with a bad pointer is discarded. -/
def State.sendHead (p f : Nat) (x : Flow) (k : Pkt) (s : State) : State :=
  if (s.pointerBad k).isSome then ((s.modFlow f (fun y => { y with queue := y.queue.tail })).statOut (1152 + f) k).freePkt k
  else
    let s := s.modFlow f (fun y => { y with queue := y.queue.tail, bkt := y.bkt - ((k.len * 1024 : Nat) : Int) })
    let s := if x.tc.toNat < 6 then s.modEth p (fun e => { e with vtime := k.tag }) else s
    let s := (s.statOut (1152 + f) k).portCount p 3 1
    let s := s.modEth p (fun e => { e with txAt := s.time48 })
    (s.modRun (fun r => { r with sent := r.sent ++ [{ k with ptp := s.time48 }] })).freePkt k

/-- EGRESS_SELECT (R258, R259, R263 to R265): a port at a frame boundary sends the head of the queue it chooses. -/
def execEgressSelect (p : Nat) (s : State) := ok (
  if !s.portUp p then s
  else
    let mine := (s.run.flows.filter (fun x => x.2.port.toNat == p)).map (·.1)
    let s := s.each mine (fun f s => (s.modFlow f (Flow.accrue s.now)).ageFlow (s.flow f).queue.length f)
    match s.chooseFlow p with
    | none => s
    | some (f, x, k) => s.sendHead p f x k)

/-! Statistics and ports. -/

/-- R270: the end of an interval for one queue. -/
def QStat.latch (x : QStat) : QStat :=
  { x with maxDepth := x.maxNow, maxDelay := x.delayNow, maxNow := x.depth, delayNow := 0, seq := x.seq + 1 }

/-- STATS_INTERVAL (R270): MAX_DEPTH and MAX_DELAY of every queue are latched. -/
def execStatsInterval (s : State) := ok (
  if s.running then (s.modRun (fun r => { r with
    stats := (List.range 2176).foldl (fun t q => t.upd QStat.reset q QStat.latch) r.stats })).served workStats
  else s)

/-- ETH_LINK_CHANGE (R243, R269). -/
def execEthLinkChange (p : Nat) (up : Bool) (s : State) := ok (
  if (s.eth p).link = up ∨ (s.eth p).fenced then s else (s.modEth p (fun e => { e with link := up })).latch (185 + p))

/-- R249, R271: partition `p` has a rule whose quench state follows the pin: one that can be quenched, and that its own bit does not quench. -/
def State.pinMoves (s : State) (p : Nat) : Bool :=
  s.run.quenchMask.getLsbD p && s.run.rules.any (fun x => x.2.valid && x.2.part.toNat == p && decide (x.2.tc.toNat < 6) && !x.2.quench)

/-- QUENCH_PIN (R249): QUENCH_N falls or rises; the rules of the masked partitions follow. -/
def execQuenchPin (low : Bool) (s : State) := ok (
  if s.run.quenchPin = low then s
  else
    let s := s.modRun (fun r => { r with quenchPin := low })
    s.each ((List.range 8).filter s.pinMoves) (fun p =>
      State.limited .streamQuenched (256 + p) ms (State.raiseP p .streamQuenched [i16 1])))

end Sys2Proof.Machine
end

