-- ==== Sys2Proof/Machine/PowerOps.lean ====
section
/-! DEFINITION. The bays' operating points and set points (R440, R446, R449, R450). -/

namespace Sys2Proof.Machine

/-- R440: the voltage in mV of an operating point, before trim. -/
def pointMv (p : BitVec 2) : Int :=
  match p with
  | 0 => 850
  | 1 => 780
  | 2 => 720
  | _ => 650

/-- R440: the bay clock in MHz of an operating point. -/
def pointMhz (p : BitVec 2) : BitVec 16 :=
  match p with
  | 0 => 1200
  | 1 => 1000
  | 2 => 800
  | _ => 600

/-- R440: the bay's set point for an operating point: with the trim, and clamped to 650 to 850 mV. -/
def Bay.setPoint (x : Bay) (p : BitVec 2) : BitVec 16 :=
  BitVec.ofInt 16 (min 850 (max 650 (pointMv p + 5 * x.trim.toInt)))

/-- R440: the confirmed set point carries an operating point. -/
def Bay.covers (x : Bay) (p : BitVec 2) : Bool := decide (x.setPoint p ≤ x.vset)

/-- R440, R450: the next point of a bay outside its throttling: slower where POINT_MAX is slower, and faster, one point at a
time, where the voltage is confirmed. -/
def Bay.aim (x : Bay) : Option (BitVec 2) :=
  if x.changing.isSome || x.fenced then none
  else if x.point < x.pointMax then some (x.point + 1)
  else if x.pointMax < x.point && (!x.throttled || x.cause == 3) && x.covers (x.point - 1) then some (x.point - 1)
  else none

/-- R440: a clock change begins where the bay has a point to move to. -/
def State.bayMove (b : Nat) (s : State) : State :=
  match (s.bay b).aim with
  | some p => s.modBay b (fun x => { x with changing := some p })
  | none => s

/-- R446, R450, R456: a bay is throttled: BAY_THROTTLED on the first step. -/
def State.throttle (b : Nat) (cause : BitVec 2) (s : State) : State :=
  let x := s.bay b
  let s := (s.modBay b (fun x => { x with throttled := true, cause := cause })).latch (44 + b)
  if x.throttled then s
  else s.limited .bayThrottled b ms (State.raise .bayThrottled [i16 b, .w16 (cause.setWidth 16), .w32 (x.temp.signExtend 32)])

/-- R450: a bay whose voltage cannot be written or confirmed is held at the boot point, P2. -/
def State.voltageHold (b : Nat) (s : State) : State :=
  let x := s.bay b
  if x.point == 2 && x.pointMax < 2 && !x.throttled && !x.fenced && x.changing.isNone && !x.covers 1 then s.throttle b 3 else s

/-- R449: the bay's TRIM from the part's OTP, in steps of 5 mV from -5 to 5. -/
def bayTrim (b : Nat) : BitVec 8 := BitVec.ofInt 8 ((Config.bayTrim b % 11 : Nat) - 5 : Int)

/-- R450: as the PLLs lock, the bays stand at the boot point with their trims. -/
def State.bootBays (s : State) : State := s.each (List.range 4) (fun b => State.modBay b (fun x => { x with trim := bayTrim b }))

/-- R446: the temperature of a bay: the higher of its two sensors, in units of 0.125 degrees C. -/
def State.takeBayTemp (b : Nat) (s : State) : State :=
  let v (i : Nat) := (s.tck.temps.look Sensor.reset i).value
  s.modBay b (fun x => { x with temp := if (v (2 * b)).toInt ≤ (v (2 * b + 1)).toInt then v (2 * b + 1) else v (2 * b) })

/-- R437: what the thresholds of a voltage monitor are offsets from: a bay's current set point for monitors 0 to 7. -/
def State.monitorBase (s : State) (j : Nat) : Int :=
  if j < 8 then (((s.pRail (j / 2)).wanted.getD (s.bay (j / 2)).vset).toNat : Int) else 0

end Sys2Proof.Machine
end

