-- ==== Sys2Proof/Machine/Tack.lean ====
section
/-! DEFINITION. The Tack's interrupt controller, timers, UART, sensors, event log writer, semaphores and watchdog
(R372 to R399). -/

namespace Sys2Proof.Machine

/-! Interrupt controller. -/

/-- R377, source 198: commands that need the Tack (those that touch the flash, the log or the firmware) wait. -/
def HostCmd.needsTack : HostCmd → Bool
  | .imageWrite .. | .patch | .getLog .. => true
  | _ => false

/-- R377: the hardware inputs of block sources 32 to 254; a frame for the Tack is taken in the step in which it arrives, so
source 206 is never held. -/
def State.blockLevel (s : State) (n : Nat) : Bool :=
  s.irc.latch.contains n ||
  (n == 37 && s.flt.new) ||
  (decide (64 ≤ n) && decide (n < 96) && decide ((s.core (n - 64)).cause ≠ 0)) ||
  (decide (161 ≤ n) && decide (n < 173) && !(s.chan (n - 161)).errq.isEmpty) ||
  (decide (190 ≤ n) && decide (n < 193) && !(s.run.rx.look RxQueue.reset (n - 190)).queue.isEmpty) ||
  (n == 198 && s.hq.slots.any (fun p => p.2.phase == .ready && (p.2.cmd.map HostCmd.needsTack).getD false)) ||
  (n == 203 && s.fsh.waitFrom.isSome) ||
  (n == 204 && decide (254 ≤ s.log.unflushed))

/-- R386: the UART's source. -/
def Uart.level (u : Uart) : Bool :=
  decide (u.rxLevel.toNat ≤ u.rx.length) || decide (u.tx.length ≤ u.txLevel.toNat) || decide (u.status ≠ 0)

/-- R372: the hardware input of source `n`. -/
def State.hwLevel (s : State) (n : Nat) : Bool :=
  if n < 16 then false
  else if n < 24 then (s.dma (n - 16)).level
  else if n < 28 then (s.timer (n - 24)).level
  else if n = 28 then s.tck.uart.level
  else if n = 29 then s.tck.temps.any (fun p => p.2.hi || p.2.lo) || s.tck.volts.any (fun p => p.2.hi || p.2.lo)
  else if n = 30 then !s.log.postq.isEmpty
  else if n = 31 then s.sem.any (fun p => p.2.level)
  else if n < 255 then s.blockLevel n
  else s.tck.expired

/-- R372: the level of source `n`: its hardware input or its SOFT bit. -/
def State.ircLevel (s : State) (n : Nat) : Bool := s.hwLevel n || (s.ircSrc n).soft

/-- R373: source `n` is pending. -/
def State.ircPending (s : State) (n : Nat) : Bool := s.ircLevel n && (s.ircSrc n).enable

/-- R373: a priority is above the running priority; any is above none. -/
def aboveTop (stack : List (BitVec 4)) (p : BitVec 4) : Bool :=
  match stack with
  | [] => true
  | t :: _ => decide (t < p)

/-- R373: the better of a source found so far and source `n`: the higher priority, the lower number winning ties. -/
def State.claimStep (s : State) (best : Option (Nat × BitVec 4)) (n : Nat) : Option (Nat × BitVec 4) :=
  let p := (s.ircSrc n).prio
  if s.ircPending n && aboveTop s.irc.stack p then
    match best with
    | some (b, q) => if q < p then some (n, p) else some (b, q)
    | none => some (n, p)
  else best

/-- R373: the source that a claim selects. -/
def State.claimBest (s : State) : Option (Nat × BitVec 4) := (List.range 256).foldl s.claimStep none

/-- IRC_CLAIM (R373): the read returns the source and pushes its PRIO, or returns 0x1FF and pushes nothing. -/
def ircClaim (s : State) : State :=
  match s.claimBest with
  | some (n, p) => s.modIrc (fun i => { i with
      stack := p :: i.stack, claim := (p.setWidth 32 : Word) <<< 28 ||| BitVec.ofNat 32 n })
  | none => s.modIrc (fun i => { i with claim := 0x1FF })

def execIrcClaim (s : State) := ok (ircClaim s)

/-- IRC_EOI (R374): pops the stack; with the stack empty it sets EOI_ERR. -/
def execIrcEoi (_v : Word) (s : State) := ok (s.modIrc (fun i =>
  match i.stack with
  | [] => { i with eoiErr := true }
  | _ :: r => { i with stack := r }))

/-- IRC_BLK_ACK (R377): clears the latch of a block source; a number outside 32 to 207 is ignored. -/
def execIrcBlkAck (v : Word) (s : State) := ok (
  if 32 ≤ v.toNat ∧ v.toNat < 208 then s.modIrc (fun i => { i with latch := i.latch.filter (· != v.toNat) }) else s)

/-- R375: in REST, a source with WAKE = 1 whose level rises begins the wake. -/
def State.wakeRise (old new : State) : State :=
  if new.glb.mode == .rest && (List.range 256).any (fun n => (new.ircSrc n).wake && !old.ircLevel n && new.ircLevel n)
  then new.modGlb (fun g => { g with waking := true }) else new

/-! DMA channel starts. -/

/-- R378: a start of a channel. -/
def DmaCh.start (c : DmaCh) : DmaCh :=
  if !c.enable || c.st == .stopped then c
  else if c.st == .idle then
    { c with st := .pending, wSrc := c.src, wDst := c.dst, remain := c.count.setWidth 32, level := false }
  else { c with overrun := true }

/-- R379: when the path is free, the PENDING channel with the lowest number runs. -/
def State.dmaArbitrate (s : State) : State :=
  if (List.range 8).any (fun k => (s.dma k).st == .running) then s
  else match (List.range 8).find? (fun k => (s.dma k).st == .pending) with
    | some k => s.modDma k (fun c => { c with st := .running })
    | none => s

/-- Starts of several channels in one cycle, and then the choice of R379. -/
def State.dmaStartAll (ks : List Nat) (s : State) : State :=
  if s.tck.dmaFenced then s else (s.each ks (fun k => State.modDma k DmaCh.start)).dmaArbitrate

/-- DMA_CHANNEL_START (R378). -/
def execDmaChannelStart (k : Nat) (s : State) := ok (if k < 8 then s.dmaStartAll [k] else s)

/-! Timers. -/

/-- R383, R378: the channels that timer `j` starts. -/
def State.timerChannels (s : State) (j : Nat) : List Nat :=
  (List.range 8).filter (fun k => (s.dma k).trig == 1 && (s.dma k).timer.toNat == j)

/-- R362: timers stop in DEEP. -/
def State.deep (s : State) : Bool := s.glb.mode == .rest && s.glb.restSub == 2

/-- TIMER_EXPIRY (R383): the level is set, a one-shot timer is disabled, and its channels start. -/
def execTimerExpiry (j : Nat) (s : State) := ok (
  if (s.timer j).enable && !s.deep && decide (j < 4) &&
      decide ((s.timer j).startAt + (s.timer j).period.toNat * 1000 ≤ s.now) then
    let t := (s.modTimer j (fun t => { t with level := true, enable := t.periodic, startAt := s.now })).dmaStartAll
      (s.timerChannels j)
    State.wakeRise s t
  else s)

/-- TIMER_ACK (R383): a write to word 2 clears the level. -/
def execTimerAck (j : Nat) (s : State) := ok (s.modTimer j (fun t => { t with level := false }))

/-! UART. -/

/-- R386: STATUS gains bits, and SEQ increments when it gains one. -/
def Uart.gain (u : Uart) (m : BitVec 3) : Uart :=
  if u.status ||| m = u.status then u else { u with status := u.status ||| m, seq := u.seq + 1 }

/-- Update of the UART. -/
def State.modUart (f : Uart → Uart) (s : State) : State := s.modTck (fun t => { t with uart := f t.uart })

/-- R385: the majority of samples 7, 8 and 9. -/
def majority (b : Bool × Bool × Bool) : Bool := (b.1 && b.2.1) || (b.1 && b.2.2) || (b.2.1 && b.2.2)

/-- The value of eight bits, least significant first. -/
def bitsByte (bs : List Bool) : Byte := BitVec.ofNat 8 (bs.foldr (fun b n => 2 * n + b.toNat) 0)

/-- R384: whether a parity bit is right: 0b01 even, 0b10 odd. -/
def parityOk (mode : BitVec 2) (ones : Nat) (p : Bool) : Bool :=
  if mode = 1 then (ones + p.toNat) % 2 == 0 else (ones + p.toNat) % 2 == 1

/-- R384: bits of a character: start, eight data bits, parity if any, one or two stop bits. -/
def Uart.charBits (u : Uart) : Nat := 9 + (if u.parity = 0 then 0 else 1) + (if u.stop2 then 2 else 1)

/-- R385, R386: a received character: a false start stores nothing; framing and parity are noted; a full FIFO discards
the character and sets OVERRUN. -/
def Uart.receive (u : Uart) (bits : List (Bool × Bool × Bool)) : Uart :=
  let bs := bits.map majority
  if bs.head? = some true then u else
  let data := (bs.drop 1).take 8
  let rest := bs.drop 9
  let stops := if u.parity = 0 then rest else rest.drop 1
  let fe := !stops.all id
  let pe := u.parity != 0 && !parityOk u.parity (data.countP id) (rest.head?.getD false)
  let ch : BitVec 10 := BitVec.ofBool fe ++ BitVec.ofBool pe ++ bitsByte data
  let bad : BitVec 3 := if fe || pe then 1 else 0
  let u := { u with waitHigh := fe }
  if u.rx.length < 64 then { u with rx := u.rx ++ [ch] }.gain bad else u.gain (4 ||| bad)

/-- R384: the UART is in service. -/
def State.uartOn (s : State) : Bool := s.tck.uart.enable && !s.tck.uartFenced && !s.deep

/-- UART_RX_CHAR (R385). -/
def execUartRxChar (bits : List (Bool × Bool × Bool)) (s : State) := ok (
  if s.uartOn && bits.length == s.tck.uart.charBits then State.wakeRise s (s.modUart (·.receive bits)) else s)

/-- UART_BREAK (R385): sets BREAK. -/
def execUartBreak (s : State) := ok (if s.uartOn then State.wakeRise s (s.modUart (·.gain 2)) else s)

/-- UART_RX_READ (R386): the head character is returned and removed; an empty FIFO reads 0. -/
def execUartRxRead (s : State) := ok (s.modUart (fun u =>
  match u.rx with
  | [] => { u with rxRead := 0 }
  | c :: r => { u with rxRead := c.setWidth 32, rx := r }))

/-- UART_TX_WRITE (R386): appends a character; a write to a full FIFO is discarded. -/
def execUartTxWrite (v : Word) (s : State) := ok (s.modUart (fun u =>
  if u.tx.length < 64 then { u with tx := u.tx ++ [v.setWidth 8] } else u))

/-- UART_TX_CHAR_DONE (R384): the head character of the transmit FIFO has been sent. -/
def execUartTxCharDone (s : State) := ok (
  if s.uartOn then s.modUart (fun u =>
    match u.tx with
    | [] => u
    | c :: r => { u with tx := r, sent := u.sent ++ [c] })
  else s)

/-- UART_STATUS_CLEAR (R462, R386): a write of the SEQ in force clears STATUS. -/
def execUartStatusClear (v : Word) (s : State) := ok (s.modUart (fun u =>
  if (v >>> 24).setWidth 8 = u.seq then { u with status := 0 } else u))

/-! Sensors. -/

/-- R387, R437: a sample of a sensor whose thresholds are offsets from `base`: a warning bit is set outside its threshold,
and clears after 100 consecutive samples inside both. -/
def Sensor.take (x : Sensor) (base v : Int) : Sensor :=
  let high := decide (base + x.hiTh < v)
  let low := decide (v < base + x.loTh)
  let n := if high || low then 0 else x.inside + 1
  let clear := decide (100 ≤ n)
  { x with valid := true, value := BitVec.ofInt 16 v, inside := n
           hi := high || (x.hi && !clear), lo := low || (x.lo && !clear) }

/-- One thermal sensor's sample, with TEMP_WARN (at most once per source per 1 ms, R399). -/
def State.sampleTemp (i : Nat) (v : Int) (s : State) : State :=
  let x := s.tck.temps.look Sensor.reset i
  let s := s.modTck (fun t => { t with temps := t.temps.put Sensor.reset i (x.take 0 v) })
  if x.hiTh < v ∨ v < x.loTh then
    s.limited .tempWarn i ms (State.raise .tempWarn [i16 i, .w32 (BitVec.ofInt 32 v)])
  else s

/-- One voltage monitor's sample, with SUPPLY_WARN; a warning is the supply warning of R343. -/
def State.sampleVolt (j : Nat) (v : Int) (s : State) : State :=
  let x := s.tck.volts.look Sensor.reset j
  let s := s.modTck (fun t => { t with volts := t.volts.put Sensor.reset j (x.take (s.monitorBase j) v) })
  if s.monitorBase j + x.hiTh < v ∨ v < s.monitorBase j + x.loTh then
    (s.modFsh (fun f => { f with lastWarn := some s.now })).limited .supplyWarn j ms
      (State.raise .supplyWarn [i16 j, .w32 (BitVec.ofInt 32 v)])
  else s

/-- SENSOR_SAMPLE (R387): the 16 thermal sensors and the 24 voltage monitors are sampled. -/
def execSensorSample (temps volts : List Int) (s : State) := ok (
  if s.tck.snsFenced then s else
  let t := s.each ((temps.take 16).zipIdx) (fun p => State.sampleTemp p.2 p.1)
  let t := t.each (List.range 4) State.takeBayTemp
  State.wakeRise s (t.each ((volts.take 24).zipIdx) (fun p => State.sampleVolt p.2 p.1)))

/-! The event log. -/

/-- EVENT_POST (R388): a block posts an event, or it is lost and counted. -/
def execEventPost (e : Ev) (s : State) := ok (s.post e)

/-- R388: an entry takes the next index in the ring; an unflushed entry that it overwrites is lost (R391). -/
def LogS.append (l : LogS) (e : LogEntry) : LogS :=
  let lose := decide (8192 ≤ (l.next - l.flushed).toNat)
  { l with
    ring := l.ring.put none (l.next.toNat % 8192) (some e)
    next := l.next + 1
    oldest := if l.flashLog.isEmpty && decide (8192 ≤ (l.next - l.oldest).toNat) then l.next - 8191 else l.oldest
    lost := if lose then satInc l.lost else l.lost
    lostPend := if lose then l.lostPend + 1 else l.lostPend }

/-- R388, R293: an entry enters the ring and is delivered. -/
def State.logAppend (e : LogEntry) (s : State) : State :=
  let idx := s.log.next
  (s.modLog (fun l => { l.append e with times := l.times ++ [s.now] })).deliver idx e

/-- R388: LOG_LOST, when entries have been lost and its limit allows it. -/
def State.logLost (s : State) : State :=
  if s.log.lostPend = 0 then s
  else s.limited .logLost 0 ms (fun s =>
    match packEvent ⟨.logLost, none, [i32 s.log.lostPend], none⟩ s.time48 with
    | e :: _ => (s.modLog (fun l => { l with lostPend := 0 })).logAppend e
    | [] => s)

/-- LOG_WRITER_MOVE (R388): one entry moves from the posting queue into the ring and to delivery; LOG_LOST follows. -/
def execLogWriterMove (s : State) := ok (
  match s.log.postq with
  | [] => s
  | e :: r =>
    ((s.modLog (fun l => { l with postq := r })).logAppend e).logLost)

/-! Semaphores. -/

/-- R396: a semaphore is made BROKEN; SEM_BROKEN is raised with the old owner, and the level of source 31 set. -/
def State.semBreakNow (n : Nat) (s : State) : State :=
  let x := s.semS n
  (s.modSemS n (fun x => { x with
    st := .broken, prev := x.owner, owner := 0x1FF, breaks := satInc x.breaks, level := true })).limited .semBroken n ms
    (State.raise .semBroken [i16 n, i16 x.owner.toNat])

/-- R396: a semaphore HELD or RECOVERING by an owner that satisfies `p` is made BROKEN. -/
def State.semBreakIf (p : BitVec 9 → Bool) (n : Nat) (s : State) : State :=
  let x := s.semS n
  if (x.st == .held || x.st == .recovering) && p x.owner then s.semBreakNow n else s

/-- R396: every semaphore of the owners that satisfy `p` is made BROKEN. -/
def State.semBreakOwners (p : BitVec 9 → Bool) (s : State) : State := s.each (List.range 64) (State.semBreakIf p)

/-- R394: an owner ID that some party holds. -/
def ownerOk (x : BitVec 9) : Bool := decide (x.toNat ≤ 0x10A)

/-- R395: an ignored write increments REJECTS. -/
def State.semReject (n : Nat) (s : State) : State := s.modSemS n (fun x => { x with rejects := satInc x.rejects })

/-- R395: an acquire by `x`: the new state, owner and RESULT (0 GRANTED, 1 BUSY, 2 BROKEN, 3 OWNED). -/
def Sem.acquire (m : Sem) (x : BitVec 9) : Sem :=
  match m.st with
  | .free => { m with st := .held, owner := x, result := 0 }
  | .held => { m with result := if m.owner = x then 3 else 1 }
  | .broken => { m with st := .recovering, owner := x, result := 2 }
  | .recovering => { m with result := if m.owner = x then 2 else 1 }

/-- SEM_ACQUIRE (R395). -/
def execSemAcquire (n : Nat) (x : BitVec 9) (s : State) := ok (
  if decide (n < 64) && ownerOk x then s.modSemS n (·.acquire x) else s)

/-- R395: a write of 1 to OP. -/
def State.semRelease (n : Nat) (x : BitVec 9) (s : State) : State :=
  let m := s.semS n
  if m.st == .held && m.owner == x then s.modSemS n (fun m => { m with st := .free, owner := 0x1FF })
  else if m.st == .recovering && m.owner == x then s.modSemS n (fun m => { m with st := .broken, owner := 0x1FF })
  else s.semReject n

/-- SEM_RELEASE (R395). -/
def execSemRelease (n : Nat) (x : BitVec 9) (s : State) := ok (
  if decide (n < 64) && ownerOk x then s.semRelease n x else s)

/-- R395: a write of 2 to OP. -/
def State.semRecover (n : Nat) (x : BitVec 9) (s : State) : State :=
  let m := s.semS n
  if m.st == .recovering && m.owner == x then s.modSemS n (fun m => { m with st := .held }) else s.semReject n

/-- SEM_RECOVERED (R395). -/
def execSemRecovered (n : Nat) (x : BitVec 9) (s : State) := ok (
  if decide (n < 64) && ownerOk x then s.semRecover n x else s)

/-- R395: a write of 3 to OP, of the Tack alone; any other writer's is ignored. -/
def State.semBreakOp (n : Nat) (x : BitVec 9) (s : State) : State :=
  let m := s.semS n
  if x == 0x100 && (m.st == .held || m.st == .recovering) then s.semBreakNow n else s.semReject n

/-- SEM_BREAK (R395). -/
def execSemBreak (n : Nat) (x : BitVec 9) (s : State) := ok (
  if decide (n < 64) && ownerOk x then s.semBreakOp n x else s)

/-- SEM_STATE_READ (R396): lowers source 31's level for the semaphore; the semaphore is unchanged otherwise. -/
def execSemStateRead (n : Nat) (s : State) := ok (s.modSemS n (fun x => { x with level := false }))

/-! Restart of the Tack and the watchdog. -/

/-- R381: a RUNNING channel that is disabled returns to IDLE with REMAIN undefined; the bytes of its destination are
left to the DMA's own file. -/
def DmaCh.disable (free : Word) (c : DmaCh) : DmaCh :=
  match c.st with
  | .running => { c with enable := false, st := .idle, remain := free }
  | .pending => { c with enable := false, st := .idle }
  | _ => { c with enable := false }

/-- R375: the interrupt controller is reset. -/
def State.ircReset (s : State) : State := s.modIrc (fun i => { i with srcs := [], stack := [] })

/-- R398: TIMEOUT of a write to TCK_WDOG is refused when it is out of range, or would change after the first kick. -/
def State.wdogReason (s : State) (v : Word) : Option (BitVec 4) :=
  let t := v &&& 0xFFFF
  if t < 10 ∨ 10000 < t then some 1
  else if s.tck.kicked && t != s.tck.timeout.setWidth 32 then some 1 else none

/-- R398: the effect of an accepted write to TCK_WDOG. -/
def Tck.wdogApply (now : Nat) (v : Word) (t : Tck) : Tck :=
  let t := { t with timeout := v.setWidth 16 }
  if v >>> 16 = 0x5AC3 then { t with kicked := true, expired := false, wdStart := now }
  else { t with badKicks := t.badKicks + 1 }

/-- R398: a write to TCK_WDOG. -/
def State.wdogWrite (w : Writer) (v : Word) (s : State) : State :=
  match s.wdogReason v with
  | some r => s.werr w r 0x600080
  | none => s.modTck (Tck.wdogApply s.now v)

/-- WATCHDOG_KICK (R398): 0x5AC3 restarts the count and clears EXPIRED; any other value increments BAD_KICKS. TIMEOUT of
the same word is written only before the first kick. -/
def execWatchdogKick (v : Word) (s : State) := ok (s.wdogWrite .tack v)

/-- TACK_WDOG_WARN (R398): the first TIMEOUT without a kick. -/
def execTackWdogWarn (s : State) := ok (
  if s.tck.st == .run && !s.tck.expired && !s.deep && decide (s.tck.wdStart + s.tck.timeout.toNat * ms ≤ s.now) then
    let t := (s.modTck (fun t => { t with expired := true })).limited .tackWdogWarn 0 ms (State.raise .tackWdogWarn [])
    State.wakeRise s t
  else s)

end Sys2Proof.Machine
end

