-- ==== Sys2Proof/Machine/FenceOps.lean ====
section
/-! DEFINITION. Restarting and fencing cores, bays and ports (R201, R203, R402, R408). -/

namespace Sys2Proof.Machine

/-- R394: an owner ID is a thread of core `c`. -/
def ownerOfCore (c : Nat) (x : BitVec 9) : Bool := decide (x.toNat / 8 = c) && decide (x.toNat < 256)

/-- R201, R396: every routine of core `c` is abandoned and restarted, its tasks are re-issued, and its threads'
semaphores are broken. -/
def State.restartCore (c : Nat) (s : State) : State :=
  (((s.abandonCore c).abandonEncode c).modCore c CoreS.restartAll).semBreakOwners (ownerOfCore c)

/-- R203, R205, R401: core `c` is fenced; its tasks are re-issued in its bay, and its tokens are released. -/
def State.fenceCore (c src : Nat) (s : State) : State :=
  if (s.core c).fenced then s
  else
    let s := s.restartCore c
    let s := s.modCore c (fun x => { x with fenced := true, stalled := false, reload := false, waking := false, granted := false })
    ((s.dropTokens (c / 8) c).unitFenced src 4).wantAdmission 1

/-- R408: the unissued rows of the current picture of an encode stream are to be repeated. -/
def State.repeatCurrent (i : Nat) (s : State) : State :=
  match (s.encS i).pics with
  | p :: _ => if p.released = 0 then s
      else (s.modHead i (fun p => { p with cores := [], issued := p.done })).repeatRows i p.picCount p.done (s.encS i).cfg.rows
  | [] => s

/-- R142, R408: a task in flight on a fenced bay is not re-issued; the row of a check task has no check core. -/
def State.loseTask (n : Nat) (s : State) : State :=
  match s.task n with
  | some t => if t.check then s.dropCheck n t else (s.modTask n (fun t => { t with tries := 2 })).abandonTask n
  | none => s

/-- R408: bay `b` is fenced. -/
def State.fenceBay (b src : Nat) (s : State) : State :=
  if (s.bay b).fenced then s
  else
    let cs := (List.range 8).map (8 * b + ·)
    let s := s.each cs (fun c s => s.each (s.core c).tasks State.loseTask)
    let es := (s.enc.filter (fun x => x.2.cfg.enabled && x.2.bay.getD x.2.cfg.home == b)).map (·.1)
    let s := s.each es State.repeatCurrent
    let s := s.each cs (fun c s =>
      (s.modCore c (fun x => { x.restartAll with
        fenced := true, encTask := none, stalled := false, reload := false, waking := false, granted := false })).semBreakOwners
        (ownerOfCore c))
    let s := s.modBay b (fun y => { y with fenced := true, changing := none })
    let s := s.modRail b (fun r => { r with grants := [], queue := [], held := r.standing })
    (s.unitFenced src 5).wantAdmission 1

/-- R402: an Ethernet port is fenced: it is down. -/
def State.fenceEth (p src : Nat) (s : State) : State :=
  ((s.modEth p (fun e => { e with fenced := true, link := false })).latch (185 + p)).unitFenced src 3

/-- R242, R402: crossbar plane `k` is fenced; a second one is fatal. -/
def State.fencePlane (k src : Nat) (s : State) : State :=
  let s := s.modRun (fun r => { r with planes := r.planes &&& ~~~(1#2 <<< k) })
  if s.run.planes = 0 then s.recordFatal src else s.unitFenced src 3

/-- R402: a DisplayPort source port is fenced. -/
def State.fenceDpo (n src : Nat) (s : State) : State :=
  ((s.modDpo n (fun p => { p with fenced := true, linkRate := 0, lanes := 0 })).setDpoLink n .down).unitFenced src 3

/-- R402: a DisplayPort sink port is fenced. -/
def State.fenceDpi (n src : Nat) (s : State) : State :=
  ((s.modDpi n (fun p => { p with fenced := true, hpd := false, linkRate := 0, lanes := 0 })).setDpiLink n .down).unitFenced src 3

/-- R402: the host path is fenced: commands in execution end without completion, and pages in flight are lost. -/
def State.fenceHost (src : Nat) (s : State) : State :=
  let s := s.modHq (fun h => { h with fenced := true, slots := [], dmas := [] })
  let s := s.modEnc (fun t => t.mapAll EncStream.reset (fun _ e => { e with page := none }))
  s.unitFenced src 3

/-- R402: the clock is fenced: it reports FREERUN until LOAD. -/
def State.fenceClock (src : Nat) (s : State) : State :=
  ((s.modClk (fun c => { c with fenced := true })).noteClk.latch 48).unitFenced src 3

end Sys2Proof.Machine
end

