-- ==== Sys2Proof/Machine/CoreCmds.lean ====
section
/-! DEFINITION. Commands of the coding cores: microwords, DMA, faults, power states and banks (R184 to R211). -/

namespace Sys2Proof.Machine

/-! Faults (R202 to R205). -/

/-- R402: the source of a core's pattern sequencer. -/
def seqSrc (c : Nat) : Nat := 8 * c + 6

/-- R211, R377: a fault of core `c` is recorded in COR_FAULT. -/
def State.coreFault (c : Nat) (cause : BitVec 3) (t g : Nat) (a : BitVec 13) (s : State) : State :=
  s.modCore c (CoreS.record · cause t g a)

/-- R202, R203: a deadlock-class fault: recorded, every routine restarted; the third within 1 s fences the core. -/
def State.deadlockClass (c : Nat) (cause : BitVec 3) (t : Nat) (a : BitVec 13) (s : State) : State :=
  let s := ((s.coreFault c cause t 0 a).recordContained (seqSrc c) .restart false).restartCore c
  let times := s.now :: within sec s.now (s.core c).recent
  let s := s.modCore c (fun x => { x with recent := times })
  if 3 ≤ times.length then s.fenceCore c (seqSrc c) else s

/-- R204, R205: a machine check of a cause (2 PARITY, 3 SECDED): recorded, every task abandoned, and the active bank reloaded; the second
at one word address within 1 s fences the core. -/
def State.machineCheck (c : Nat) (cause : BitVec 3) (forced : Bool) (t g : Nat) (a : BitVec 13) (s : State) : State :=
  let s := ((s.coreFault c cause t g a).recordContained (seqSrc c) .restart forced).restartCore c
  let old := (s.core c).checks.filter (fun x => decide (s.now < x.1 + sec))
  let s := s.modCore c (fun x => { x with checks := (s.now, a) :: old, stalled := true, reload := true })
  if old.any (fun x => x.2 == a) then s.fenceCore c (seqSrc c) else s

/-- R14, R202: nanoseconds of `n` cycles of core `c`'s bay, whose frequency is in MHz; none while the clock stands still. -/
def State.cycles (s : State) (c n : Nat) : Nat := ceilDiv (1000 * n) (s.bay (c / 8)).freq.toNat

/-- DEADLOCK (R202): the count has reached 4,096 cycles. -/
def execDeadlock (c : Nat) (s : State) := ok (
  let x := s.core c
  if s.running && decide (c < 32) && !x.fenced && (s.bay (c / 8)).changing.isNone && x.pstate == .c0 && !x.stalled && x.deadlocked && decide (x.movedAt + s.cycles c 4096 ≤ s.now) then s.deadlockClass c 1 0 0
  else s)

/-- BANK_RELOAD_DONE (R204, R205): issue resumes at the restart addresses, or the core is fenced when the copy met an
uncorrectable error. -/
def execBankReloadDone (c : Nat) (ue : Bool) (s : State) := ok (
  if !(s.core c).reload then s
  else if ue then (s.modCore c (fun x => { x with copyBad := true, reload := false })).fenceCore c (seqSrc c)
  else s.modCore c (fun x => { x.reloadBank with stalled := false, reload := false }))

/-- COR_FAULT_CLEAR (R211, R462): a write of the value that SEQ reads clears CAUSE. -/
def execCorFaultClear (c : Nat) (v : Word) (s : State) := ok (
  if v.extractLsb' 24 8 = (s.core c).seq then s.modCore c (fun x => { x with cause := 0 }) else s)

/-! Microwords (R189 to R200). -/

/-- R191, R394: LD of a word of buffer `d`: the descriptor table, a semaphore, or working memory. -/
def State.loadWord (c t d off : Nat) (s : State) : State × Word :=
  let x := s.core c
  if d = 15 then
    if off < 0x100 then (s, BitVec.ofNat 32 (leVal (getBytes x.desc 0 off 4)))
    else if off % 16 = 0 then
      let n := (off - 0x100) / 16
      let m := (s.semS n).acquire (BitVec.ofNat 9 (8 * c + t))
      (s.modSemS n (fun _ => m), m.result ++ (0 : BitVec 20) ++ m.owner)
    else (s, 0)
  else (s, BitVec.ofNat 32 (leVal (x.bytes (x.descWord d 0 + off) 4)))

/-- R191, R394: ST of a word to buffer `d`. -/
def State.storeWord (c t d off : Nat) (v : Word) (s : State) : State :=
  if d = 15 then
    if off < 0x100 then s.modCore c (fun x => { x with desc := putBytes x.desc 0 off (leBytes 4 v.toNat) })
    else if off % 16 = 4 then
      let n := (off - 0x100) / 16
      let o := BitVec.ofNat 9 (8 * c + t)
      match v.extractLsb' 0 2 with
      | 1 => s.semRelease n o
      | 2 => s.semRecover n o
      | 3 => s.semBreakOp n o
      | _ => s
    else s
  else s.modCore c (fun x => x.setBytes (x.descWord d 0 + off) (leBytes 4 v.toNat))

/-- R191: a FILL or DRAIN of buffer `d` is begun; that of buffer 15 moves the 256 bytes of the descriptor table (DESIGN CHOICE, log entry
206). -/
def CoreS.startDma (fill : Bool) (t d : Nat) (c : CoreS) : CoreS :=
  let base := c.descWord d 2 + c.descWord d 3 * 2 ^ 32
  let x : CoreDma := if d = 15 then ⟨fill, t, true, base, 0, 256, 0⟩ else ⟨fill, t, false, base, c.descWord d 0, c.descWord d 1, 0⟩
  { c with dma := c.dma ++ [x] }

/-- R189: a legal word of thread `t` issues. -/
def State.issueWord (c t : Nat) (w : MWord) (s : State) : State :=
  let th := (s.core c).thread t
  let off := (th.reg w.mreg).toNat
  let (s, ld) := if w.mop = 1 then
      let (s, v) := s.loadWord c t w.mbuf off
      (s, some v)
    else (s, none)
  let s := if w.mop = 2 then s.storeWord c t w.mbuf off (th.opA w) else s
  s.modCore c (fun x =>
    let x := if w.mop = 3 then x.startDma true t w.mbuf else if w.mop = 4 then x.startDma false t w.mbuf else x
    x.issue t w ld)

/-- R185, R440: a core issues words: in service, in C0, not stopped by a machine check, and its bay's clock not changing. -/
def State.issues (s : State) (c : Nat) : Bool :=
  let x := s.core c
  s.running && decide (c < 32) && !x.fenced && !(s.bay (c / 8)).fenced && (s.bay (c / 8)).changing.isNone && x.pstate == .c0 && !x.stalled

/-- MICROWORD_ISSUE (R187 to R201): the next READY thread's word is checked, and executed, kept waiting for a unit, or
made a fault; an illegal word that also names a busy unit faults at once (DESIGN CHOICE, log entry 203). -/
def execMicrowordIssue (c : Nat) (s : State) := ok (
  if !s.issues c then s
  else
    let x := s.core c
    match x.pick with
    | none => s.modCore c CoreS.endYields
    | some t =>
      let s := s.modCore c CoreS.endYields
      let th := x.thread t
      let w := x.word th.pc
      match parityFail w with
      | some g => s.machineCheck c 2 false t g th.pc
      | none => match x.illegalCause th w with
        | some k => s.deadlockClass c k t th.pc
        | none => match x.busyUnit w with
          | some u => s.modCore c (fun x => { x.waitUnit t u with movedAt := s.now })
          | none => (s.issueWord c t w).modCore c (fun x => { x with movedAt := s.now }))

/-- R101, R218: an uncorrectable error, or a poisoned line. -/
def ReadKind.uncorrectable (k : ReadKind) : Bool := k == .ueSecded || k == .ueCrc || k == .poisoned

/-- R146, R148: a decode or check task meets an uncorrectable error for a tile: it is tainted, with an error of class 0x0C. -/
def State.tileReadBad (core n col : Nat) (s : State) : State :=
  match s.task n with
  | none => s
  | some t =>
    if t.core != some core then s
    else
      let d := s.decS t.stream
      let w := max 1 (64 / d.grid.ctu)
      (s.modTask n (fun t => { t with ue := if t.ue.contains col then t.ue else col :: t.ue })).decError t.stream t.pic
        ⟨12, t.row * d.ctuCols + col * w, min w (d.ctuCols - col * w)⟩ (some core)

/-- R101, R146, R218: what an uncorrectable error does to the work that a core's read serves. -/
def State.coreReadBad (c : Nat) (use : CoreUse) (s : State) : State :=
  match use, (s.core c).encTask with
  | .reference, some e => s.encRestart e s.time48 2
  | .tile n col, _ | .side n col, _ => s.tileReadBad c n col
  | _, _ => s

/-- R218, R237: an outcome that is an uncorrectable memory error to what the read serves: PARTITION too for the side entry of a tile, which
makes the whole tile UE. -/
def CoreUse.fails (u : CoreUse) (k : ReadKind) : Bool :=
  k.uncorrectable || (match u with
    | .side .. => k == .partition
    | _ => false)

/-- R191: the requester of a DMA of a core that partition `p` owns. -/
def coreReq (c p : Nat) : Requester := ⟨.core c .other, BitVec.ofNat 3 p⟩

/-- R191: bytes of working memory, or of the descriptor table. -/
def CoreS.dmaBytes (c : CoreS) (d : CoreDma) (i n : Nat) : List Byte :=
  if d.table then getBytes c.desc 0 (64 * i) n else c.bytes (d.work + 64 * i) n

/-- R191: bytes brought into working memory, or into the descriptor table. -/
def CoreS.putDma (d : CoreDma) (i : Nat) (bs : List Byte) (c : CoreS) : CoreS :=
  if d.table then { c with desc := putBytes c.desc 0 (64 * i) bs } else c.setBytes (d.work + 64 * i) bs

/-- R218: a FILL meets UE or POISONED: the reference of the core's row (R101), or the tiles of its oldest task (R146, R148), as which of
them its bytes serve is not said (DESIGN CHOICE, log entry 208). -/
def State.fillBad (c : Nat) (s : State) : State :=
  match (s.core c).encTask, (s.core c).tasks with
  | some e, _ => s.encRestart e s.time48 2
  | none, n :: _ => match s.task n with
    | some t =>
      let d := s.decS t.stream
      let (c0, w) := d.taskCols (d.pic t.pic) t.tile
      s.each ((List.range d.cols).filter (fun x => decide (c0 * d.grid.ctu < 64 * (x + 1)) && decide (64 * x < (c0 + w) * d.grid.ctu)))
        (fun x => State.tileReadBad c n x)
    | none => s
  | none, [] => s

/-- R191, R218: line `i` of a FILL; a core that no partition owns is refused it (DEDUCED, log entry 207). -/
def State.dmaIn (c : Nat) (d : CoreDma) (i : Nat) (s : State) : State :=
  let a := d.dram + 64 * i
  match (s.core c).part with
  | none => (s.notOwned a).modDrm (fun m => { m with last := ⟨.partition, 0⟩ })
  | some p =>
    let x := (s.takeSlot (coreReq c p) a).readLine (coreReq c p) a
    let s := (x.1.modDrm (fun m => { m with last := x.2 })).modCore c (CoreS.putDma d i ((leBytes 64 x.2.data.toNat).take (d.len - 64 * i)))
    if x.2.kind.uncorrectable then s.fillBad c else s

/-- R191: line `i` of a DRAIN; a last line that is not whole is a narrow write. -/
def State.dmaOut (c : Nat) (d : CoreDma) (i : Nat) (s : State) : State :=
  let a := d.dram + 64 * i
  let bs := (s.core c).dmaBytes d i (min 64 (d.len - 64 * i))
  match (s.core c).part with
  | none => s.notOwned a
  | some p =>
    let s := s.takeSlot (coreReq c p) a
    if bs.length = 64 then s.writeLine (coreReq c p) a (BitVec.ofNat 512 (leVal bs)) else s.narrow (coreReq c p) a (bs.map some)

/-- R191: lines of a FILL or DRAIN. -/
def CoreDma.lines (d : CoreDma) : Nat := (d.len + 63) / 64

/-- R26, R191, R235: at most `n` lines of a FILL or DRAIN move, up to one that waits; what remains of it. -/
def State.moveLines (c : Nat) : Nat → CoreDma → State → CoreDma × State
  | 0, d, s => (d, s)
  | n + 1, d, s =>
    let a := d.dram + 64 * d.done
    if (s.core c).part.any (fun p => s.requestWaits (coreReq c p) a) then (d, s)
    else State.moveLines c n { d with done := d.done + 1 } (if d.fill then s.dmaIn c d d.done else s.dmaOut c d d.done)

/-- R26, R191, R193: a FILL or DRAIN goes on; at its end it sets its event, 14 or 15. -/
def State.moveDma (c : Nat) (d : CoreDma) (s : State) : State :=
  let x := s.moveLines c d.lines d
  if x.1.done < d.lines then x.2.modCore c (fun y => { y with dma := y.dma.map (fun e => if e = d then x.1 else e) })
  else (x.2.modCore c (fun y => { y with dma := y.dma.erase d, movedAt := s.now })).coreEvent c (if d.fill then 14 else 15)

/-- The oldest FILL or DRAIN in progress. -/
def CoreS.oldestDma (c : CoreS) (fill : Bool) : Option CoreDma := c.dma.find? (fun d => d.fill == fill)

/-- FILL_DONE (R26, R191): the oldest FILL ends and sets event 14, once every line of it has had its request. -/
def execFillDone (c : Nat) (s : State) := ok (
  match (s.core c).oldestDma true with
  | none => s
  | some d => s.moveDma c d)

/-- DRAIN_DONE (R26, R191): the oldest DRAIN ends and sets event 15, once every line of it has had its request. -/
def execDrainDone (c : Nat) (s : State) := ok (
  match (s.core c).oldestDma false with
  | none => s
  | some d => s.moveDma c d)

/-- UNIT_DONE (R193): unit `u` ends its command. -/
def execUnitDone (c : Nat) (u : BitVec 3) (status info : BitVec 4) (s : State) := ok (
  if ((s.core c).unit u.toNat).busy && !(s.core c).gated u.toNat then
    (s.modCore c (fun x => { x.unitDone u.toNat status info with movedAt := s.now })).wakeCore c else s)

/-! Power states (R209, R210). -/

/-- EXTERNAL_EVENT (R193, R210): an external event is set; it wakes the core, and event 36 begins its draining. -/
def execExternalEvent (c ev : Nat) (s : State) := ok (
  if ev < 32 || 37 < ev || 32 ≤ c || (s.core c).fenced then s
  else (s.coreEvent c ev).modCore c (fun x => if ev = 36 then { x with draining := !x.tasks.isEmpty || x.encTask.isSome } else x))

/-- CORE_C1_ENTRY (R210): all threads have been IDLE for 64 cycles. -/
def execCoreC1Entry (c : Nat) (s : State) := ok (
  let x := s.core c
  if x.pstate == .c0 && !x.fenced && x.allIdle then s.modCore c (fun x => { x with pstate := .c1 }) else s)

/-- R209, R315: a core enters C2, C3 or C4; its tokens are released, and what the state does not keep is lost. -/
def State.powerDown (c : Nat) (p : PState) (s : State) : State :=
  let n := s.freeCtr
  let s := ((s.freeTokens (c / 8) .wake c).modFreeCtr (· + 8)).modCore c (fun x => { x with entered := s.now + entryTime p })
  match p with
  | .c3 => s.modCore c (fun x => { x.enterC3 n with pstate := .c3 })
  | .c4 => (s.modCore c (fun x => { x.enterC4 n with pstate := .c4 })).semBreakOwners (ownerOfCore c)
  | _ => s.modCore c (fun x => { x with pstate := p })

/-- R211: the code of a role. -/
def roleIndex : CoreRole → Nat
  | .unassigned => 0
  | .decode => 1
  | .encode => 2
  | .check => 3

/-- CORE_POWER_DOWN (R210): the bay dispatcher orders a core with no task into C2, C3 or C4. -/
def execCorePowerDown (c : Nat) (p : PState) (s : State) := ok (
  let x := s.core c
  if 2 ≤ stateDepth p && decide (stateDepth p ≤ s.blw.deepest.look 4 (roleIndex x.role)) && decide (stateDepth x.pstate < stateDepth p) && !x.fenced && !x.waking && x.allIdle && x.tasks.isEmpty &&
    x.encTask.isNone && x.dma.isEmpty then s.powerDown c p
  else s)

/-- CORE_WAKE (R210): a wake cause reaches a core. -/
def execCoreWake (c : Nat) (s : State) := ok (if s.running && decide (c < 32) then s.wakeCore c else s)

/-- CORE_WAKE_DONE (R14, R209, R210): the exit latency has passed since the grant, with the bay up; out of C4 the active bank has been
reloaded from its DRAM copy. An event 32 that is set resumes the IDLE threads. -/
def execCoreWakeDone (c : Nat) (s : State) := ok (
  let x := s.core c
  if !(x.waking && x.granted) || x.fenced || s.bayState != .c0 || decide (s.now < x.grantAt + exitTime x.pstate) then s
  else
    let s := if x.pstate = .c4 then s.modCore c CoreS.reloadBank else s
    s.modCore c (fun x => { x.takeArrival with pstate := .c0, waking := false, granted := false }))

/-! Banks (R206, R207, R477). -/

/-- R206, R333: the CRC-32C of a bank as read back: 8,192 words of 20 bytes, little-endian. -/
def CoreS.bankCrc (c : CoreS) (bankB : Bool) : BitVec 32 :=
  crc32c ((List.range 8192).flatMap (fun a => leBytes 20 (c.words.look 0 (8192 * bankB.toNat + a)).toNat))

/-- R206, R211: the reason for which a swap is refused, 0 for none. -/
def CoreS.swapReason (c : CoreS) : BitVec 3 :=
  let other := !c.bank
  if !c.allIdle then 1
  else if (List.range 8).any (fun t => (c.thread t).staged != 0) then 2
  else if !(if other then c.validB else c.validA) then 4
  else if c.bankCrc other ≠ (if other then c.crcB else c.crcA) then 3
  else 0

/-- R206, R377, R396: a swap request is performed or refused. -/
def State.swapBank (c : Nat) (s : State) : State :=
  let why := (s.core c).swapReason
  if why ≠ 0 then (s.modCore c (fun x => { x with swapPend := false, refused := true, reason := why })).latch (100 + c)
  else
    let s := s.modCore c (fun x =>
      CoreS.takeArrival ((List.range 8).foldl (fun x t => x.modThread t (fun th => { th with st := .idle, waitOn := none, pc := BitVec.ofNat 13 t }))
        { x with bank := !x.bank, swapPend := false, refused := false, reason := 0 }))
    (s.semBreakOwners (ownerOfCore c)).latch (100 + c)

/-- PTN_SWAP (R206, R208): a write of SWAP = 1 to PTN_CTL, of a fenced core too; encode streams that are to follow another decision
identity do so from now on. -/
def execPtnSwap (c : Nat) (s : State) := ok (
  if s.running && decide (c < 32) then (s.swapBank c).newIdentities else s)

/-- PATTERN_STORE_WRITE (R206, R477): a whole word enters an inactive bank; a write to the active bank is refused with
reason 5. -/
def execPatternStoreWrite (w : Writer) (c : Nat) (bankB : Bool) (a : BitVec 13) (v : BitVec 160) (s : State) := ok (
  if 32 ≤ c then s
  else if (s.core c).bank = bankB then
    s.werr w 5 (0x03600000 + 0x50000 * c + 0x28000 * bankB.toNat + 20 * a.toNat)
  else s.modCore c (fun x => { x with words := x.words.put 0 (8192 * bankB.toNat + a.toNat) v }))

end Sys2Proof.Machine
end

