-- ==== Sys2Proof/Machine/FlashOps.lean ====
section
/-! DEFINITION. The flash: its layout, seals, images and pages, and the stores of its controller (R323 to R349). -/

namespace Sys2Proof.Machine

/-! Layout. -/

/-- R326: an erased byte. -/
abbrev erased : Byte := 0xFF
/-- R323: a flash sector. -/
abbrev sector : Nat := 4096

/-- R324: SLOT_SIZE of a flash of `f` bytes. -/
def slotSize (f : Nat) : Nat := 65536 * ((f - 5242880) / 2 / 65536)

/-- R324: the flash offset of slot A (false) or B. -/
def Fsh.slotBase (f : Fsh) (b : Bool) : Nat := 0x500000 + if b then slotSize f.size else 0

/-- Bytes of the flash. -/
def Fsh.bytes (f : Fsh) (a n : Nat) : List Byte := getBytes f.flash erased a n

/-- The little-endian value of `n` bytes of the flash (R4). -/
def Fsh.val (f : Fsh) (a n : Nat) : Nat := leVal (f.bytes a n)

/-- The CRC-32C field at `a` is that of the `n` bytes before it. -/
def Fsh.crcAt (f : Fsh) (a n : Nat) : Bool := f.val a 4 == (crc32c (f.bytes (a - n) n)).toNat

/-- R325: a header copy passes every test. -/
def Fsh.headerAt (f : Fsh) (a : Nat) : Bool :=
  f.val a 4 == 0x4C464243 && f.val (a + 4) 2 == 1 && f.val (a + 6) 2 == f.size / 1048576 &&
  f.val (a + 8) 4 == slotSize f.size && f.crcAt (a + 12) 12

/-- R325: the header is valid. -/
def Fsh.headerOk (f : Fsh) : Bool := f.headerAt 0 || f.headerAt sector

/-- R325: the bytes of a header copy. -/
def headerBytes (size : Nat) : List Byte :=
  let h := leBytes 4 0x4C464243 ++ leBytes 2 1 ++ leBytes 2 (size / 1048576) ++ leBytes 4 (slotSize size)
  h ++ leBytes 4 (crc32c h).toNat

/-- R326: the seal of a slot is valid. -/
def Fsh.sealOk (f : Fsh) (b : Bool) : Bool :=
  let a := f.slotBase b
  f.val a 4 == 0x4C414553 && f.crcAt (a + 16) 16

/-- R326: GENERATION of a slot, 0 without a valid seal (R350). -/
def Fsh.genOf (f : Fsh) (b : Bool) : BitVec 32 := if f.sealOk b then BitVec.ofNat 32 (f.val (f.slotBase b + 4) 4) else 0

/-- R326: the bytes of a seal. -/
def sealBytes (gen : BitVec 32) (len : Nat) (crc : BitVec 32) : List Byte :=
  let h := leBytes 4 0x4C414553 ++ leBytes 4 gen.toNat ++ leBytes 4 len ++ leBytes 4 crc.toNat
  h ++ leBytes 4 (crc32c h).toNat

/-- R336: a generation is newer than another. -/
def newer (a b : BitVec 32) : Bool := decide (a - b ≠ 0) && decide ((a - b).toNat < 2147483648)

/-- R336: the candidates, newest first (false A, true B). -/
def Fsh.candidates (f : Fsh) : List Bool :=
  if f.sealOk false && f.sealOk true then
    (if newer (f.genOf true) (f.genOf false) then [true, false] else [false, true])
  else (if f.sealOk false then [false] else []) ++ (if f.sealOk true then [true] else [])

/-! Images (R327 to R335). -/

/-- R327: the flash address of byte 0 of a slot's image. -/
def Fsh.image (f : Fsh) (b : Bool) : Nat := f.slotBase b + sector

/-- R327: SIGNED_LEN. -/
def Fsh.signedLen (f : Fsh) (b : Bool) : Nat := f.val (f.image b + 8) 4

/-- R328: a record header at flash address `a`: TYPE, OPTIONAL, LENGTH. -/
structure RecHdr where
  typ : Nat
  optional : Bool
  len : Nat
  deriving DecidableEq, Repr

/-- R328: the header at `a`. -/
def Fsh.recAt (f : Fsh) (a : Nat) : RecHdr := ⟨f.val a 2, (f.val (a + 2) 1).testBit 0, f.val (a + 4) 4⟩

/-- R328: bytes that a record takes. -/
def RecHdr.size (r : RecHdr) : Nat := 16 + (r.len + 15) / 16 * 16

/-- R329: types that the loader knows. -/
def RecHdr.known (r : RecHdr) : Bool := (decide (1 ≤ r.typ) && decide (r.typ ≤ 7)) || r.typ == 0xFFFF

/-- R328, R329: the records from flash address `a` to the signature block at `e`, END last; none where a record lies outside
or its RCRC is wrong. -/
def Fsh.walk (f : Fsh) (e : Nat) : Nat → Nat → Option (List (Nat × RecHdr))
  | 0, _ => none
  | n + 1, a =>
    let r := f.recAt a
    if e < a + r.size || f.val (a + 8) 4 != (crc32c (f.bytes (a + 16) r.len)).toNat then none
    else if r.typ = 0xFFFF then if a + r.size = e ∧ r.len = 0 then some [(a, r)] else none
    else (f.walk e n (a + r.size)).map ((a, r) :: ·)

/-- R329: the records of an image. -/
def Fsh.records (f : Fsh) (b : Bool) : Option (List (Nat × RecHdr)) :=
  f.walk (f.image b + f.signedLen b) (f.signedLen b / 16) (f.image b + 32)

/-- R333: ROLES of the PATTERN records. -/
def Fsh.patternRoles (f : Fsh) (rs : List (Nat × RecHdr)) : List Nat :=
  (rs.filter (fun r => r.2.typ == 5)).map (fun r => f.val (r.1 + 16) 1)

/-- R329, R333: counts and order of the records. -/
def Fsh.orderOk (f : Fsh) (rs : List (Nat × RecHdr)) : Bool :=
  let kn := rs.filter (fun r => r.2.known)
  let count (t : Nat) : Nat := (kn.filter (fun r => r.2.typ == t)).length
  let roles := f.patternRoles rs
  (kn.take 3).map (fun r => r.2.typ) == [1, 2, 3] && count 1 == 1 && count 2 == 1 && count 3 == 1 && decide (count 4 ≤ 1) &&
  count 7 == 1 && rs.all (fun r => r.2.known || r.2.optional) &&
  (List.range 3).all (fun i => decide ((roles.filter (fun x => x.testBit i)).length ≤ 1))

/-- R338: the digest of an OTP key slot. -/
def Fsh.otp (f : Fsh) (k : Nat) : List Byte := f.otpHash.look [] k

/-- R335: the first of reasons 0x2 to 0x8 that applies to the image of a slot, `len` bytes long with `crc`; 0 accepts it. -/
def Fsh.reason (f : Fsh) (b : Bool) (len : Nat) (crc : BitVec 32) : BitVec 4 :=
  let a := f.image b
  let sl := f.signedLen b
  let recs := f.records b
  let pub := f.bytes (a + sl) 97
  let key := f.val (a + 6) 1
  let id := a + 48
  if slotSize f.size - sector < len || crc32c (f.bytes a len) != crc || len != sl + 196 then 2
  else if f.val a 4 != 0x4D494243 || f.val (a + 4) 2 != 1 || sl % 16 != 0 || sl < 32 ||
    recs.any (fun r => r.length != f.val (a + 12) 4) then 3
  else if 4 ≤ key || (f.otp key).isEmpty || f.otpRevoked.getLsbD key || Config.sha384 pub != f.otp key then 4
  else if !Config.ecdsaVerify pub (Config.sha384 (f.bytes a sl)) (f.bytes (a + sl + 100) 96) then 5
  else match recs with
    | none => 8
    | some rs =>
      if (f.recAt (a + 32)).typ != 1 then 8
      else if f.val (id + 13) 1 % 64 < f.floor.toNat then 6
      else if f.val (id + 8) 4 != 0x64800D5A || 0xB0 < f.val (id + 12) 1 then 7
      else if !f.orderOk rs then 8
      else 0

/-- R335: the first reason that applies to a slot, its seal included. -/
def Fsh.slotReason (f : Fsh) (b : Bool) : BitVec 4 :=
  let a := f.slotBase b
  if !f.sealOk b then 1 else f.reason b (f.val (a + 8) 4) (BitVec.ofNat 32 (f.val (a + 12) 4))

/-! Pages (R348). -/

/-- R348: a page; bytes of its content that nothing uses hold `pad`. -/
def pageOf (seq : BitVec 32) (typ : Byte) (content : List Byte) (pad : Byte) : List Byte :=
  let h := leBytes 4 seq.toNat ++ [typ, 0, 0, 0] ++ leBytes 4 content.length ++ content ++
    List.replicate (4080 - content.length) pad
  h ++ leBytes 4 (crc32c h).toNat

/-- R348: the page at `a` is a valid one of type `typ`. -/
def Fsh.pageOk (f : Fsh) (a typ : Nat) : Bool :=
  f.val (a + 4) 1 == typ && decide (f.val (a + 8) 4 ≤ 4080) && f.crcAt (a + 4092) 4092

/-- A sector is erased. -/
def Fsh.blank (f : Fsh) (a : Nat) : Bool := !f.flash.any (fun c => decide (a ≤ c.1) && decide (c.1 < a + sector))

/-- PAGE_SEQ of the page at `a`. -/
def Fsh.pageSeq (f : Fsh) (a : Nat) : BitVec 32 := BitVec.ofNat 32 (f.val a 4)

/-- R348: the content of the page at `a`. -/
def Fsh.pageContent (f : Fsh) (a : Nat) : List Byte := f.bytes (a + 12) (f.val (a + 8) 4)

/-- R348: the address of the newest valid page among those given. -/
def Fsh.newest (f : Fsh) (typ : Nat) (xs : List Nat) : Option Nat :=
  (xs.filter (fun a => f.pageOk a typ)).foldl (fun m a => match m with
    | none => some a
    | some b => if newer (f.pageSeq a) (f.pageSeq b) then some a else some b) none

/-- R348: addresses of the adoption pages, of the first pages of the retirement pairs, and of the event log pages. -/
def adoptPages : List Nat := (List.range 16).map (fun i => 0x10000 + sector * i)
/-- R348: the first page of each retirement pair. -/
def retirePages : List Nat := (List.range 8).map (fun i => 0x20000 + 2 * sector * i)
/-- R348: the event log pages. -/
def logPages : List Nat := (List.range 1024).map (fun i => 0x100000 + sector * i)

/-- The 32-bit words of bytes, little-endian. -/
def wordsOf : List Byte → List Word
  | a :: b :: c :: d :: r => BitVec.ofNat 32 (leVal [a, b, c, d]) :: wordsOf r
  | _ => []

/-- R389: the entries of a page's content. -/
def entriesOf : List Word → List LogEntry
  | a :: b :: c :: d :: r => ⟨a, b, c, d⟩ :: entriesOf r
  | _ => []

/-! Stores (R343, R344, R347). -/

/-- The kinds of stores: an image write, an event log page, a retirement copy, an adoption page, a seal or header. -/
abbrev stImage : Nat := 0
/-- An event log page. -/
abbrev stLog : Nat := 1
/-- A retirement copy. -/
abbrev stRetire : Nat := 2
/-- An adoption page. -/
abbrev stAdopt : Nat := 3
/-- The seal of a sealed image. -/
abbrev stSeal : Nat := 4
/-- The erase of a patched slot's seal (R365). -/
abbrev stUnseal : Nat := 5

/-- R305, R344: stores of IMAGE_WRITE are VIEW work, the others BACKGROUND. -/
def Store.view (x : Store) : Bool := x.kind == stImage || x.kind == stSeal

/-- R344: the place of a store's writer in the list, counted from 1; the erase of a patched slot's seal (R365) is 5. -/
def Store.writer (x : Store) : Nat :=
  match x.kind with
  | 1 => 2
  | 2 => 3
  | 3 => 4
  | 5 => 5
  | _ => 1

/-- R343: the condition holds now. -/
def State.powerOk (s : State) : Bool :=
  s.fsh.pwrHold && (match s.fsh.lastWarn with
    | none => true
    | some t => decide (t + 100 * ms ≤ s.now))

/-- R343, R347: the operation at the head starts, or waits for power; FLASH_POWER_WAIT once per wait longer than 100 ms. -/
def State.startOp (s : State) : State :=
  match s.fsh.stores with
  | [] => s
  | x :: _ =>
    if s.fsh.busy || s.fsh.fenced || s.tck.held then s
    else if s.powerOk then
      let slow := !s.fsh.waitRaised && (s.fsh.waitFrom.map (fun t => decide (t + 100 * ms < s.now))).getD false
      (s.modFsh (fun f => { f with busy := true, waitFrom := none, waitRaised := false })).whenB slow
        (State.raise .flashPowerWait [i16 x.writer])
    else s.modFsh (fun f => { f with waitFrom := some (f.waitFrom.getD s.now) })

/-- R344: stores join the queue: VIEW work ahead of BACKGROUND work, behind an operation in progress. -/
def State.queueStores (xs : List Store) (s : State) : State :=
  let put (f : Fsh) : List Store :=
    let (hd, rest) := if f.busy then (f.stores.take 1, f.stores.drop 1) else ([], f.stores)
    if xs.all Store.view then hd ++ rest.filter Store.view ++ xs ++ rest.filter (fun x => !x.view) else hd ++ rest ++ xs
  (s.modFsh (fun f => { f with stores := put f })).startOp

/-- R344: one operation of a store: the erase of its sector, or the program of 256 bytes; and what is left of it. -/
def Store.operate (x : Store) (m : Memory) : Memory × Option Store :=
  if x.erase then
    (m.filter (fun c => !(decide (x.addr ≤ c.1) && decide (c.1 < x.addr + sector))),
     if x.bytes.isEmpty then none else some { x with erase := false })
  else
    (putBytes m erased x.addr (x.bytes.take 256),
     if x.bytes.length ≤ 256 then none else some { x with addr := x.addr + 256, bytes := x.bytes.drop 256 })

/-- R348: the erase of the 32 KiB half that begins at `a`. -/
def eraseHalf (kind a : Nat) : List Store := (List.range 8).map (fun i => ⟨kind, a + sector * i, [], true, none⟩)

/-- A free value for bytes that the spec gives no content. -/
def State.padByte (s : State) : Byte := (Config.freeWord s.freeCtr).setWidth 8

/-- R348, R349, R359: an adoption page with record `r` and HOW is stored at the next position. -/
def State.storeAdoption (r : Adoption) (how : Byte) (s : State) : State :=
  let q := s.fsh.adoptSeq + 1
  let pos := q.toNat % 16
  let content := r.self ++ r.twin ++ [if r.side then 1 else 0, how, 0, 0] ++ leBytes 4 q.toNat ++ leBytes 8 s.time ++
    List.replicate 16 0
  let a := 0x10000 + sector * pos
  let page : Store := ⟨stAdopt, a, pageOf q 3 content s.padByte, pos % 8 != 0 && !s.fsh.blank a, none⟩
  let s := (s.modFsh (fun f => { f with adoptSeq := q })).tickFree
  s.queueStores ((if pos % 8 = 0 then eraseHalf stAdopt (0x10000 + sector * pos) else []) ++ [page])

/-- R232, R348: the word of a retirement entry. -/
def retireWord (e : Nat × Nat) : Word := BitVec.ofNat 4 e.1 ++ (0 : BitVec 9) ++ BitVec.ofNat 19 e.2

/-- R348, R349: a whole copy of the retirement list is stored at the next pair position; a sector that is not erased is erased first. -/
def State.storeRetirement (s : State) : State :=
  let q := s.fsh.retSeq + 1
  let pos := q.toNat % 8
  let ws := s.drm.retire.map retireWord
  let page (i : Nat) (xs : List Word) : Store :=
    let a := 0x20000 + sector * (2 * pos + i)
    ⟨stRetire, a, pageOf q 2 (wordBytes xs) s.padByte, pos % 4 != 0 && !s.fsh.blank a, none⟩
  let s' := (s.modFsh (fun f => { f with retSeq := q })).tickFree
  s'.queueStores ((if pos % 4 = 0 then eraseHalf stRetire (0x20000 + 2 * sector * pos) else []) ++
    [page 0 (ws.take 1020), page 1 (ws.drop 1020)])

end Sys2Proof.Machine
end

