-- ==== Sys2Proof/Machine/Modes.lean ====
section
/-! DEFINITION. Roles and modes in service: gating, handover, takeover, DEGRADED and adoption (R182, R352 to R369, R409,
R423 to R425). -/

namespace Sys2Proof.Machine

/-! Gates (R182). -/

/-- R182: GATED of every output raster is to be `v` from its next line LA on. -/
def State.gateAll (v : Bool) (s : State) : State :=
  s.each s.outputs (fun k => State.modOutP k (fun p => { p with pendGate := if p.gated = v then none else some v }))

/-- R353, R361: SOLO, LEAD or SHADOW is entered, and the outputs are gated to suit. -/
def State.enterService (m : Mode) (r : Role) (s : State) : State := (s.setMode m r 0).gateAll (m == .shadow)

/-! Handover (R366, R409, R425). -/

/-- R366: the twin is in SHADOW. -/
def State.twinShadow (s : State) : Bool := s.grt.link == .up && s.grt.peerMode == Mode.shadow.code

/-- R409: every Ethernet port of a non-empty list is fenced. -/
def State.portsFenced (s : State) (ps : List Nat) : Bool := !ps.isEmpty && ps.all (fun p => (s.eth p).fenced)

/-- R245: Ethernet ports that the rules of decode stream `i` name. -/
def State.rulePorts (s : State) (i : Nat) : List Nat :=
  (s.run.rules.filter (fun r => r.2.valid && r.2.dest == 0 && r.2.stream.toNat == i)).flatMap
    (fun r => (List.range 4).filter (fun p => r.2.ports.getLsbD p))

/-- Ethernet ports of egress flows. -/
def State.flowPorts (s : State) (fs : List Nat) : List Nat := fs.map (fun f => (s.flow f).port.toNat)

/-- R409: output raster `k` cannot carry video because its port, its PLL or the gate is fenced. -/
def State.outputDead (s : State) (k : Nat) : Bool :=
  s.flt.gateOut || (if k < 8 then (s.dpo k).fenced else s.flt.st2110Out || s.portsFenced (s.flowPorts (s.outP k).flows))

/-- R409: a fence in force counts as shedding a stream. -/
def State.fenceSheds (s : State) : Bool :=
  s.dec.any (fun x => x.2.cfg.enabled && (x.2.shed.isSome || s.portsFenced (s.rulePorts x.1))) ||
  s.enc.any (fun x => x.2.cfg.enabled && (x.2.shed.isSome || s.portsFenced (s.flowPorts x.2.cfg.flows))) ||
  s.outputs.any (fun k => (s.outP k).intent && s.outputDead k) || s.ras.clk.fenced

/-- R425: encoded packets that are queued and not yet departed are discarded. -/
def State.dropCoded (s : State) : State :=
  let fs := (s.enc.filter (fun x => x.2.cfg.enabled)).flatMap (fun x => x.2.cfg.flows)
  let s := s.modRun (fun r => { r with outWait := r.outWait.filter (fun ks => !ks.any (fun k => fs.contains k.stream)) })
  let s := s.each fs (fun f s => (s.each (s.flow f).queue (fun k => State.freePkt k)).modFlow f (fun x => { x with queue := [] }))
  s.each (s.run.voqs.map (·.1)) (fun q s =>
    let mine := (s.voq q).queue.filter (fun k => k.dest == 4 && fs.contains k.stream)
    (s.each mine (fun k => State.freePkt k)).modVoq q (fun v => { v with queue := v.queue.filter (fun k => !mine.contains k) }))

/-- R419: the RTP sequence number of the last packet of egress flow `f` that has been sent. -/
def State.lastSent (s : State) (f : Nat) : Option (BitVec 16) :=
  (s.run.sent.reverse.find? (fun k => k.dest == 4 && k.stream == f)).bind (fun k => k.rtp.map (·.seq))

/-- R419: TX_SEQ of an encode stream: the last packet sent on every flow that it uses; 0 while there is none. -/
def State.txSeqOf (s : State) (i : Nat) : BitVec 16 :=
  let fs := (s.encS i).cfg.flows
  let xs := fs.filterMap s.lastSent
  if xs.length < fs.length then 0
  else match xs with
    | [] => 0
    | x :: r => r.foldl (fun a b => if (a - b).toNat < 32768 then b else a) x

/-- R419: the payload of a heartbeat sent now. -/
def State.heartbeatNow (s : State) : HeartbeatMsg :=
  { hbSeq := s.grt.hbOut, time := s.ptp, mode := s.glb.mode.code, role := s.glb.role.code, clk := s.ras.clk.reported.code
    modeSeq := s.glb.modeSeq, fenced := s.flt.srcs.any (fun x => x.2.fenced)
    shed := s.dec.any (fun x => x.2.shed.isSome) || s.enc.any (fun x => x.2.shed.isSome)
    txSeq := s.enc.foldl (fun (t : Tbl (BitVec 16)) x => if x.2.cfg.enabled then t.put 0 x.1 (s.txSeqOf x.1) else t) [] }

/-- R419: a heartbeat is emitted; while the link is UP it is sent to the twin. -/
def State.emitHeartbeat (s : State) : State :=
  (s.modGrt (fun g => { g with
    hbOut := g.hbOut + 1, hbSent := if g.link = .up then some s.heartbeatNow else g.hbSent })).modGlb
      (fun g => { g with lastHb := some s.now })

/-- R425: a lead hands over: HANDOVER, the packets not yet departed, the final heartbeat, and the gates. -/
def State.handOver (demote : Bool) (s : State) : State :=
  let s := ((s.gPut (.handover demote)).modGlb (fun g => { g with demoting := true })).dropCoded
  ((s.emitHeartbeat.gateAll true).limited .twinHandover 0 ms (State.raise .twinHandover [i16 (demote.toNat + 1)]))

/-- R353, R365: DEGRADED is entered; a patch goes on in the background. -/
def State.enterDegraded (s : State) : State :=
  ((s.modGlb (fun g => { g with patchBg := g.patchBg || g.mode == .patch })).setMode .degraded .shadow 0).gateAll true

/-- R366, R409: what a fence leads to once its admission, if any, has run. -/
def State.fenceOutcome (s : State) : State :=
  if !s.fenceSheds then s
  else
    let m := if s.glb.mode = .patch then s.glb.modeFrom else s.glb.mode
    match m with
    | .takeover => s.modGlb (fun g => { g with shedWait := true })
    | .lead => if s.twinShadow && !s.grt.peerFenced && !s.glb.demoting then (s.handOver false).enterDegraded else s
    | .shadow => s.enterDegraded
    | _ => s

/-- R366: TAKEOVER ends in LEAD once every output raster with INTENT = 1 has ungated and admission has completed. -/
def State.endTakeover (s : State) : State :=
  if s.glb.mode != .takeover || s.blw.admitPend.isSome || s.outputs.any (fun k => (s.outP k).intent && (s.outP k).gated) then s
  else
    let wait := s.glb.shedWait
    ((s.setMode .lead .lead 0).modGlb (fun g => { g with shedWait := false })).whenB wait State.fenceOutcome

/-! Takeover (R421 to R424). -/

/-- R421: the device decides on takeover. -/
def State.guards (s : State) : Bool :=
  s.glb.mode == .shadow || s.glb.mode == .degraded || (s.glb.mode == .patch && s.glb.role == .shadow)

/-- R423, R424: an encode stream at takeover: it resends from TX_SEQ + 1, or restarts its sweep under another SSRC. -/
def State.takeStream (i : Nat) (s : State) : State :=
  let e := s.encS i
  if !e.cfg.enabled || !e.cfg.toNet then s
  else if e.detOk then
    let tx := s.grt.peerTxSeq.look 0 i
    let due := e.replay.filter (fun x => (x.2.rtp.map (fun h => decide ((h.seq - (tx + 1)).toNat < 32768))).getD false)
    (s.each due (fun x => State.sendPacket i x.2)).modEncS i (fun e => { e with replay := [] })
  else s.modEncS i (fun e => { e with ssrcFlip := true, replay := [], restarts := e.restarts ++ [(s.time48 + 1, 5)] })

/-- R421, R423: takeover, for cause 1 PEER_FAULT_N low, 2 link LOST with PEER_OWN low, 4 handover. -/
def State.takeover (cause : Nat) (s : State) : State :=
  if !s.guards then s
  else
    let s := s.modGlb (fun g => { g with
      ungated := false, shedWait := false, demoting := false, patchBg := g.patchBg || g.mode == .patch })
    let s := (s.setMode .takeover .shadow 0).limited .twinLeadLost 0 ms (State.raise .twinLeadLost [i16 cause])
    let s := s.semBreakOwners (· == 0x10A)
    let s := s.each (s.enc.map (·.1)) State.takeStream
    (s.gateAll false).wantAdmission 3

/-! Adoption and roles (R359 to R361, R418). -/

/-- R359: the record's SELF is this device's digest. -/
def State.selfMatches (s : State) : Bool := s.glb.adoption.any (fun a => a.self == s.glb.selfDigest)

/-- R359: TWIN of the record; all zeros for none. -/
def State.recordTwin (s : State) : List Byte := (s.glb.adoption.map (·.twin)).getD (List.replicate 32 0)

/-- R359: the digest of the twin on the link, all zeros for none. -/
def State.linkTwin (s : State) : List Byte :=
  if s.grt.link = .up then s.grt.peerDigest.getD (List.replicate 32 0) else List.replicate 32 0

/-- R360: a record is written and stored, with HOW 1 automatic or 2 confirmed. -/
def State.writeAdoption (how : Byte) (s : State) : State :=
  let r : Adoption := ⟨s.glb.selfDigest, s.linkTwin, s.glb.side⟩
  (s.modGlb (fun g => { g with adoption := some r, adoptDue := some r })).storeAdoption r how

/-- R361: the twin on the link is SOLO or LEAD. -/
def State.twinServes (s : State) : Bool := s.grt.link == .up && (s.grt.peerRole == 1 || s.grt.peerRole == 2)

/-- R361: the twin on the link is in ADOPT. -/
def State.twinAdopts (s : State) : Bool := s.grt.link == .up && s.grt.peerMode == Mode.adopt.code

/-- R361: TWIN_WAIT has passed since the start of ADOPT. -/
def State.twinWaitOver (s : State) : Bool := decide ((s.glb.tEnd.look 0 2).toNat * 1000 + s.glb.twinWait * ms ≤ s.now)

/-- R361: there is no twin to wait for. -/
def State.alone (s : State) : Bool := !s.glb.twinEn || (s.grt.link != .up && s.twinWaitOver)

/-- R368: T_END i takes the time since reset release, in µs. -/
def State.stampEnd (i : Nat) (s : State) : State :=
  s.modGlb (fun g => { g with tEnd := g.tEnd.put 0 i (BitVec.ofNat 32 (s.now / 1000)) })

/-- R361: ADOPT ends with a role. -/
def State.takeRole (s : State) : State :=
  let s := (s.modGlb (fun g => { g with adoptWait := false })).stampEnd 3
  if s.alone then s.enterService .solo .solo
  else if s.twinServes || s.glb.side then s.enterService .shadow .shadow
  else s.enterService .lead .lead

/-- R368: OUTCOME of GLB_ADOPT. -/
def State.adoptOutcome (v : BitVec 3) (s : State) : State := s.modGlb (fun g => { g with adoptOut := v })

/-- R360: ADOPT acts as soon as it knows whether there is a twin, and what the twin is. -/
def State.adoptStep (s : State) : State :=
  if s.glb.mode != .adopt || !(s.alone || s.twinServes || (s.glb.twinEn && s.twinAdopts)) then s
  else if s.selfMatches then
    let replaced := s.grt.link == .up && s.recordTwin != s.linkTwin
    (s.adoptOutcome (if replaced then 2 else 1)).takeRole
  else if s.twinServes || !s.glb.policy then ((s.writeAdoption 1).adoptOutcome 3).takeRole
  else if s.glb.adoptWait then s
  else ((s.modGlb (fun g => { g with adoptWait := true })).adoptOutcome 5).raise .adoptWaiting []

/-- R360, R418: TWIN is rewritten once the twin reports MATCH or an adoption, which its role shows. -/
def State.rewriteTwin (s : State) : State :=
  if s.grt.link == .up && s.selfMatches && s.recordTwin != s.linkTwin && s.grt.peerRole != 0 then s.writeAdoption 1 else s

/-- R361: a SOLO device and its twin find each other in service. -/
def State.pairUp (s : State) : State :=
  if s.glb.mode != .solo || !s.glb.twinEn || s.grt.link != .up then s
  else if s.grt.peerRole = 3 then s.enterService .lead .lead
  else if s.grt.peerRole = 2 ∨ (s.grt.peerRole = 1 ∧ s.glb.side) then s.enterService .shadow .shadow
  else s

/-- R425: a demoted lead enters SHADOW once its twin is LEAD. -/
def State.endDemotion (s : State) : State :=
  if s.glb.demoting && s.glb.mode == .lead && s.grt.link == .up && s.grt.peerMode == Mode.lead.code then
    (s.modGlb (fun g => { g with demoting := false })).enterService .shadow .shadow
  else s

/-! REST (R362). -/

/-- R362: the conditions of REST. -/
def State.mayRest (s : State) : Bool :=
  s.glb.mode == .solo && s.dec.all (fun x => x.2.st == .idle) && s.enc.all (fun x => !x.2.cfg.enabled) &&
  (List.range 16).all (fun k => !(s.outP k).intent)

/-- R362: a wake cause in REST. -/
def State.wake (s : State) : State := if s.glb.mode = .rest then s.modGlb (fun g => { g with waking := true }) else s

/-- R362: a command path is a wake cause in QUIET; PCI Express access is one in each sub-state. -/
def State.wakeBy (pcie : Bool) (s : State) : State :=
  if s.glb.mode == .rest && (pcie || s.glb.restSub == 0) then s.wake else s

end Sys2Proof.Machine
end

