-- ==== Sys2Proof/Machine/GirthOps.lean ====
section
/-! DEFINITION. The Girth link: sending and receiving frames, the loss of the link and of the twin, authentication, and
the start of mirroring (R413 to R427). -/

namespace Sys2Proof.Machine

/-! Sending (R414 to R416). -/

/-- R415: the order in which the sender serves sequenced frames. -/
def GMsg.rank : GMsg → Nat
  | .handover _ => 0
  | .ident _ => 1
  | .timing _ => 2
  | .encState _ _ => 3
  | .picCrc _ _ => 4
  | .port _ => 5
  | .command _ _ => 6
  | .txn _ => 7
  | .sem _ => 8
  | .snapshot _ _ => 9
  | .tileDelta _ => 10
  | .hostData _ => 11

/-- R415: a frame is queued whatever the state of the link (IDENT). -/
def State.gSend (m : GMsg) (s : State) : State := s.modGrt (fun g => { g with sendq := g.sendq ++ [⟨0, m, s.now⟩] })

/-- R414, R415: the frames waiting take their SEQ in the sender's order and await acknowledgement. -/
def State.transmit (s : State) : State :=
  s.modGrt (fun g =>
    let q := g.sendq.mergeSort (fun a b => decide (a.msg.rank ≤ b.msg.rank))
    { g with
      sendq := [], txSeq := g.txSeq + BitVec.ofNat 32 q.length
      unacked := g.unacked ++ q.zipIdx.map (fun x => { x.1 with seq := g.txSeq + BitVec.ofNat 32 x.2, at_ := s.now }) })

/-- R377, R431: LINK changes. -/
def State.setLink (l : GrtLink) (s : State) : State :=
  if s.grt.link = l then s else (s.modGrt (fun g => { g with link := l })).latch 205

/-- R357, R362: the link trains, in TRAIN and after a REST sub-state that took it down. -/
def State.trainLink (s : State) : State := if s.grt.fenced || s.grt.link != .down then s else s.setLink .training

/-! Loss of the link and of the twin (R416, R418, R421, R422). -/

/-- R421, R428: a lead treats its twin as absent; verification stops. -/
def State.twinLost (cause : Nat) (s : State) : State :=
  let s := s.modEnc (fun t => t.mapAll EncStream.reset (fun _ e => { e with
    ownCrc := [], peerCrc := [], crcAt := [], missing8 := 0, match4 := 0, detOk := false }))
  s.limited .twinLost 0 ms (State.raise .twinLost [i16 cause])

/-- R422: the link is lost and the lead is alive: every encode stream falls back under R117. -/
def State.linkFault (cause : Nat) (s : State) : State :=
  let s := s.each (s.enc.map (·.1)) (fun i s =>
    (s.nonDet i (s.encS i).picCount 1).modEncS i (fun e => { e with detOk := false, timing := [], encState := none }))
  s.limited .twinLinkLost 0 ms (State.raise .twinLinkLost [i16 (cause + 1)])

/-- R421: what a device does of its twin while the link is LOST, by the pins. -/
def State.judgeTwin (cause : Nat) (s : State) : State :=
  let gone := s.grt.peerFault || !s.grt.peerOwn
  if s.guards then
    if s.grt.peerFault then s.takeover 1 else if gone then s.takeover 2 else s.linkFault cause
  else if s.glb.role == .lead && gone then s.twinLost (if s.grt.peerFault then 1 else 2)
  else s

/-- R416: the link is LOST, for cause 0 silence, 1 retransmissions, 2 lock, 3 a fence. -/
def State.linkLost (cause : Nat) (s : State) : State :=
  let was := s.grt.link
  if was = .lost ∨ ((was = .down ∨ was = .training) ∧ cause ≠ 3) then s
  else
    let s := (s.setLink .lost).modGrt (fun g => { g with
      configSync := false, authOk := false, unacked := [], sendq := [], tries := 0, snapshot := [], mirrored := []
      snapEnd := none, handover := none })
    if was = .up then (s.semBreakOwners (· == 0x10A)).judgeTwin cause else s

/-! Receiving (R414, R416). -/

/-- R416: frames that an acknowledgement covers are no longer outstanding. -/
def Grt.acked (ack : BitVec 32) (g : Grt) : Grt :=
  let left := g.unacked.filter (fun f => !decide ((ack - f.seq - 1).toNat < 2147483648))
  { g with unacked := left, tries := if left.length = g.unacked.length then g.tries else 0 }

/-- R414, R416: the link carries frames. -/
def State.carries (s : State) : Bool :=
  s.linksUp && !s.grt.fenced && (s.grt.link == .up || s.grt.link == .ident)

/-- R415, R416: an unsequenced frame: one with bad CRCs is discarded, and one of a reserved TYPE discarded and counted. -/
def State.recv (h : GHdr) (f : State → State) (s : State) : State :=
  if !s.carries || !h.crcOk then s
  else if !h.known then s.modGrt (fun g => { g with bad := satInc g.bad })
  else f (s.modGrt (fun g => { g.acked h.ack with hbIn := some s.now }))

/-- R416: a sequenced frame: one that is a duplicate or out of order is discarded too. -/
def State.recvSeq (h : GHdr) (f : State → State) (s : State) : State :=
  s.recv h (fun s => if h.seq = s.grt.rxSeq then f (s.modGrt (fun g => { g with rxSeq := g.rxSeq + 1 })) else s)

/-- R416: a sequenced frame that needs the link to be UP. -/
def State.recvUp (h : GHdr) (f : State → State) (s : State) : State :=
  s.recvSeq h (fun s => if s.grt.link = .up then f s else s)

/-! Authentication (R417, R418). -/

/-- R208, R417: the decision identities of the banks in use. -/
def State.decisions (s : State) : List (BitVec 16) :=
  (((List.range 32).filter (fun c => (s.core c).role != .unassigned)).map (fun c => (s.core c).decision)).dedup

/-- R417: the content of this device's IDENT with PHASE 0. -/
def State.identInfo (s : State) : IdentInfo :=
  ⟨Config.devicePublicKey 0, s.glb.side, s.glb.mode.code, s.glb.role.code, 0xB0, s.fsh.imageId, s.fsh.imageVersion,
   s.decisions, Config.nonce s.grt.nonce⟩

/-- R417: IDENT with PHASE 0 is sent, with a new nonce. -/
def State.sendIdent (s : State) : State :=
  let s := s.modGrt (fun g => { g with nonce := g.nonce + 1, authOk := false, peerId := none })
  (s.gSend (.ident (.hello s.identInfo))).setLink .ident

/-- R417: the message that an end signs: the peer's nonce, its own digest and its SIDE. -/
def identMessage (nonce digest : List Byte) (side : Bool) : List Byte :=
  Config.sha256 (nonce ++ digest ++ [if side then 1 else 0])

/-- R427: step 1: the images are compared. -/
def State.compareImages (i : IdentInfo) (s : State) : State :=
  let same := [i.imageId == s.fsh.imageId, i.imageVersion == s.fsh.imageVersion, i.decisions == s.decisions]
  let bad := (same.zipIdx.filter (fun x => !x.1)).map (fun x => x.2 + 1)
  let s := s.modGrt (fun g => { g with imageMatch := bad.isEmpty })
  if bad.isEmpty then s else s.limited .twinImageMismatch 0 ms (State.raise .twinImageMismatch (bad.map i16))

/-- R414, R427: what the lead sends to bring a shadow into step: its journal, in frames of at most 8,192 bytes. -/
def State.sendJournal (s : State) : State :=
  let es := s.txn.journal.filterMap (fun x => x.2.map (fun v => (x.1, v)))
  let n := max 1 (ceilDiv es.length 1024)
  let s := s.each (List.range n) (fun i => State.gPut (.snapshot ((es.drop (1024 * i)).take 1024) (decide (i + 1 = n))))
  s.modGrt (fun g => { g with snapEnd := some s.now })

/-- R427: a lead whose twin is a SHADOW with the same image brings it into step, once per link-up. -/
def State.bringUp (s : State) : State :=
  if s.glb.role == .lead && s.grt.link == .up && s.grt.imageMatch && s.grt.peerRole == 3 && s.grt.snapEnd.isNone then s.sendJournal
  else s

/-- R360, R361, R366, R418, R425, R427: what a device does when it learns of its twin. -/
def State.twinSeen (s : State) : State := s.adoptStep.rewriteTwin.pairUp.endDemotion.bringUp

/-- R417, R418: both signatures have verified: the link is UP. TWIN_REPLACED carries the first 8 bytes of the twin's digest as one
item, the first of them most significant (DESIGN CHOICE, log entry 197). -/
def State.linkUp (i : IdentInfo) (s : State) : State :=
  let d := Config.sha256 i.key
  let replaced := s.grt.peerDigest.any (· != d) || (s.glb.adoption.isSome && s.recordTwin != d)
  let s := (s.setLink .up).modGrt (fun g => { g with
    authOk := true, peerDigest := some d, peerRole := i.role, peerMode := i.mode, hbIn := some s.now
    snapEnd := none, snapshot := [], mirrored := [] })
  let s := s.limited .twinLinkUp 0 ms (State.raise .twinLinkUp [i16 i.side.toNat])
  let s := if replaced then s.raise .twinReplaced [.w64 (BitVec.ofNat 64 (beVal (d.take 8)))] else s
  (s.compareImages i).twinSeen

end Sys2Proof.Machine
end

