-- ==== Sys2Proof/Machine/RegMap.lean ====
section
/-! DEFINITION. The address map: which register an address names (R211, R476, R477). -/

namespace Sys2Proof.Machine

/-- The registers of the map; a number names the thing and then the word (low word 0, high word 1 of a wide value). -/
inductive Reg where
  | glbId | glbStep | glbMode | glbModeReq | glbAdopt | glbStart (i : Nat) | werr (w : Nat) | platDdr | platIo
  | part (p w : Nat)
  | txn (t w : Nat) | txnSeq
  | fltSrc (n : Nat) | fltStat | fltFence (w : Nat)
  | ircSrc (n : Nat) | ircClaim | ircEoi | ircRun | ircAck
  | rail (r w : Nat) | bay (b w : Nat)
  | rasClk (w : Nat) | inState (i : Nat) | frameCount (k h : Nat) | stamp (j h : Nat) | lineEvent (e w : Nat)
  | sem (n w : Nat) | ledger (s w : Nat)
  | corState (c : Nat) | corFault (c : Nat) | ptnCtl (c : Nat) | ptnId (c : Nat)
  | bg (k : Nat) | ovl (i : Nat) | dpo (n : Nat) | dpi (n w : Nat) | edid (n i : Nat)
  | drmState (n : Nat) | errq (n w : Nat) | scrub (n : Nat) | drmPool
  | port (n w : Nat) | runCtl | rule (i w : Nat) | flow (f w : Nat) | policer (i w : Nat) | dscp (p w : Nat)
  | stat (q w : Nat) | pool (p w : Nat)
  | hqCtl | asq (h : Nat) | acq (h : Nat) | authFail | evDropped | qstat (q w : Nat) | doorbell (q w : Nat) | pci (i : Nat)
  | tckState | dwin | wdog | wdogStat | timer (j w : Nat) | dma (k w : Nat) | uart (w : Nat)
  | fshLoad | genA | genB | failAddr | nextOff
  | temp (i : Nat) | volt (j : Nat) | logStat (w : Nat) | tckRail (i w : Nat)
  | grtState | grtCnt (i : Nat) | grtDet (i : Nat)
  | window (w i : Nat) | poolDesc (i w : Nat) | decStat (s w : Nat) | streamCfg (s i : Nat) | patIds (c i : Nat)
  | tile (s n w : Nat) | bank (c k a w : Nat)
  deriving DecidableEq, Repr

/-- An array of registers: `n` entries of stride `st` from `base`, each with words 0 to `ws` - 1. -/
def inArray (a base st n ws : Nat) : Option (Nat × Nat) :=
  if base ≤ a ∧ a < base + st * n ∧ (a - base) % st / 4 < ws then some ((a - base) / st, (a - base) % st / 4) else none

/-- R476: registers below 0x0004_0000: GLB, TXN, FLT, IRC, BLW. -/
def addrLow (a : Nat) : Option Reg :=
  match a with
  | 0x0 => some .glbId
  | 0x4 => some .glbStep
  | 0x10 => some .glbMode
  | 0x14 => some .glbModeReq
  | 0x18 => some .glbAdopt
  | 0x40 => some (.werr 0)
  | 0x44 => some (.werr 1)
  | 0x100 => some .platDdr
  | 0x104 => some .platIo
  | 0x1100 => some .txnSeq
  | 0x10800 => some .fltStat
  | 0x20400 => some .ircClaim
  | 0x20404 => some .ircEoi
  | 0x20408 => some .ircRun
  | 0x2040C => some .ircAck
  | _ =>
    (inArray a 0x20 4 5 1).map (fun x => .glbStart x.1) <|> (inArray a 0x800 0x10 8 4).map (fun x => .part x.1 x.2) <|>
    (inArray a 0x1000 0x40 4 8).map (fun x => .txn x.1 x.2) <|> (inArray a 0x10000 4 416 1).map (fun x => .fltSrc x.1) <|>
    (inArray a 0x10810 12 1 3).map (fun x => .fltFence x.2) <|> (inArray a 0x20000 4 256 1).map (fun x => .ircSrc x.1) <|>
    (inArray a 0x30000 0x20 5 4).map (fun x => .rail x.1 x.2) <|> (inArray a 0x30100 0x10 4 4).map (fun x => .bay x.1 x.2)

/-- R476: RAS, SEM, LDG. -/
def addrRas (a : Nat) : Option Reg :=
  (inArray a 0x40000 20 1 5).map (fun x => .rasClk x.2) <|> (inArray a 0x40020 4 12 1).map (fun x => .inState x.1) <|>
  (inArray a 0x40100 8 28 2).map (fun x => .frameCount x.1 x.2) <|> (inArray a 0x40200 8 16 2).map (fun x => .stamp x.1 x.2) <|>
  (inArray a 0x48000 16 1024 4).map (fun x => .lineEvent x.1 x.2) <|> (inArray a 0x50000 16 64 4).map (fun x => .sem x.1 x.2) <|>
  (inArray a 0x61000 16 256 4).map (fun x => .ledger x.1 x.2)

/-- R211: the registers of the core windows. -/
def addrCore (a : Nat) : Option Reg :=
  if a < 0x100000 ∨ 0x200000 ≤ a then none
  else
    let b := (a - 0x100000) / 0x40000
    let c := 8 * b + (a - 0x100000) % 0x40000 / 0x8000
    match (a - 0x100000) % 0x8000 with
    | 0 => some (.corState c)
    | 0x10 => some (.corFault c)
    | 0x4000 => some (.ptnCtl c)
    | 0x4004 => some (.ptnId c)
    | _ => none

/-- R476: CMP, DPO, DPI, DRM. -/
def addrVideo (a : Nat) : Option Reg :=
  if a = 0x3F0000 then some .drmPool
  else
    (inArray a 0x200000 4 16 1).map (fun x => .bg x.1) <|> (inArray a 0x200100 4 32 1).map (fun x => .ovl x.1) <|>
    (inArray a 0x240000 0x100 8 1).map (fun x => .dpo x.1) <|> (inArray a 0x241000 0x100 4 4).map (fun x => .dpi x.1 x.2) <|>
    (inArray a 0x241800 0x200 4 128).map (fun x => .edid x.1 x.2) <|>
    (inArray a 0x300000 0x10000 12 13).bind (fun x => match x.2 with
      | 0 => some (.drmState x.1)
      | 4 => some (.errq x.1 0)
      | 5 => some (.errq x.1 1)
      | 6 => some (.errq x.1 2)
      | 7 => some (.errq x.1 3)
      | 12 => some (.scrub x.1)
      | _ => none)

/-- R476: RUN, LDL, HQ, PCI. -/
def addrRun (a : Nat) : Option Reg :=
  match a with
  | 0x401000 => some .runCtl
  | 0x50C000 => some .hqCtl
  | 0x50C008 => some (.asq 0)
  | 0x50C00C => some (.asq 1)
  | 0x50C010 => some (.acq 0)
  | 0x50C014 => some (.acq 1)
  | 0x50C020 => some .authFail
  | 0x50C024 => some .evDropped
  | _ =>
    (inArray a 0x400000 0x100 4 64).map (fun x => .port x.1 x.2) <|> (inArray a 0x410000 0x40 2048 16).map (fun x => .rule x.1 x.2) <|>
    (inArray a 0x430000 16 1024 4).map (fun x => .flow x.1 x.2) <|> (inArray a 0x434000 16 512 4).map (fun x => .policer x.1 x.2) <|>
    (inArray a 0x436000 16 8 4).map (fun x => .dscp x.1 x.2) <|> (inArray a 0x440000 16 2176 4).map (fun x => .stat x.1 x.2) <|>
    (inArray a 0x480000 16 4 4).map (fun x => .pool x.1 x.2) <|> (inArray a 0x500000 0x20 1025 8).map (fun x => .qstat x.1 x.2) <|>
    (inArray a 0x510000 8 1025 2).map (fun x => .doorbell x.1 x.2) <|> (inArray a 0x520000 4 1024 1).map (fun x => .pci x.1)

/-- R476: TCK, DMA, UAT, FSH, SNS, LOG, GRT. -/
def addrTack (a : Nat) : Option Reg :=
  match a with
  | 0x600000 => some .tckState
  | 0x600004 => some .dwin
  | 0x600080 => some .wdog
  | 0x600084 => some .wdogStat
  | 0x603000 => some .fshLoad
  | 0x603004 => some .genA
  | 0x603008 => some .genB
  | 0x60300C => some .failAddr
  | 0x603010 => some .nextOff
  | 0x700000 => some .grtState
  | _ =>
    (inArray a 0x600100 16 4 3).map (fun x => .timer x.1 x.2) <|> (inArray a 0x601000 0x20 8 8).map (fun x => .dma x.1 x.2) <|>
    (inArray a 0x602000 20 1 5).map (fun x => .uart x.2) <|> (inArray a 0x604000 4 16 1).map (fun x => .temp x.1) <|>
    (inArray a 0x604040 4 24 1).map (fun x => .volt x.1) <|> (inArray a 0x605000 16 1 4).map (fun x => .logStat x.2) <|>
    (inArray a 0x606000 16 11 4).map (fun x => .tckRail x.1 x.2) <|> (inArray a 0x700010 16 1 4).map (fun x => .grtCnt x.2) <|>
    (inArray a 0x700100 4 8 1).map (fun x => .grtDet x.1)

/-- R477: the context RAM windows. -/
def addrCtx (a : Nat) : Option Reg :=
  (inArray a 0x1000000 0x20 512 8).map (fun x => .window x.1 x.2) <|> (inArray a 0x1020000 16 4096 4).map (fun x => .poolDesc x.1 x.2) <|>
  (inArray a 0x1030000 16 256 4).map (fun x => .decStat x.1 x.2) <|> (inArray a 0x1040000 0x100 256 64).map (fun x => .streamCfg x.1 x.2) <|>
  (inArray a 0x1050000 8 32 2).map (fun x => .patIds x.1 x.2) <|>
  (inArray a 0x1400000 0x22000 256 0x8800).map (fun x => .tile x.1 (x.2 / 4) (x.2 % 4)) <|>
  (inArray a 0x3600000 0x28000 64 40960).map (fun x => .bank (x.1 / 2) (x.1 % 2) (x.2 / 5) (x.2 % 5))

/-- R476: the register at byte address `a`. -/
def regAt (a : Nat) : Option Reg :=
  if a % 4 ≠ 0 then none
  else if a < 0x40000 then addrLow a
  else if a < 0x100000 then addrRas a
  else if a < 0x200000 then addrCore a
  else if a < 0x400000 then addrVideo a
  else if a < 0x600000 then addrRun a
  else if a < 0x1000000 then addrTack a
  else addrCtx a

end Sys2Proof.Machine
end

