-- ==== Sys2Proof/Machine/RegRead.lean ====
section
/-! DEFINITION. What a read of each register returns (R457 to R461 and the register tables). -/

namespace Sys2Proof.Machine

/-- A field placed at its lowest bit. -/
def fld {w : Nat} (v : BitVec w) (sh : Nat) : Word := v.setWidth 32 <<< sh
/-- A number placed at its lowest bit. -/
def num (n sh : Nat) : Word := BitVec.ofNat 32 n <<< sh
/-- One bit. -/
def flag (b : Bool) (sh : Nat) : Word := if b then 1 <<< sh else 0
/-- The bits of a list of numbered conditions. -/
def mask (n sh : Nat) (p : Nat → Bool) : Word := (List.range n).foldl (fun w i => w ||| flag (p i) (sh + i)) 0
/-- Word `h` of a 64-bit value: 0 low, 1 high (R460). -/
def half (v : BitVec 64) (h : Nat) : Word := (v >>> (32 * h)).setWidth 32

/-! Codes of states. -/

/-- R211: PSTATE and ROLE. -/
def pstateCode : PState → BitVec 3
  | .c0 => 0 | .c1 => 1 | .c2 => 2 | .c3 => 3 | .c4 => 4
/-- R211: ROLE. -/
def CoreRole.code : CoreRole → BitVec 2
  | .unassigned => 0 | .decode => 1 | .encode => 2 | .check => 3
/-- R174: LINK_STATE of a source port. -/
def DpoLink.code : DpoLink → BitVec 3
  | .down => 0 | .training => 1 | .active => 2 | .short => 3 | .retiming => 4
/-- R177: LINK_STATE of a sink port. -/
def DpiLink.code : DpiLink → BitVec 3
  | .down => 0 | .training => 1 | .active => 2 | .refused => 3
/-- R238: STATE of a channel. -/
def ChanState.code : ChanState → BitVec 3
  | .untrained => 0 | .training => 1 | .filling => 2 | .active => 3 | .selfRefresh => 4 | .fenced => 5
/-- R159: STATE of a decode stream. -/
def DecState.code : DecState → BitVec 4
  | .idle => 0 | .waiting => 1 | .decoding => 2 | .unsupported => 3 | .skipping => 4
/-- R382: STATE of a DMA channel. -/
def DmaState.code : DmaState → BitVec 2
  | .idle => 0 | .pending => 1 | .running => 2 | .stopped => 3
/-- R371: STATE of the Tack. -/
def TackState.code : TackState → BitVec 2
  | .boot => 0 | .run => 1 | .restarting => 2 | .held => 3
/-- R397: STATE of a semaphore. -/
def SemState.code : SemState → BitVec 2
  | .free => 0 | .held => 1 | .broken => 2 | .recovering => 3
/-- R431: LINK. -/
def GrtLink.code : GrtLink → BitVec 3
  | .down => 0 | .training => 1 | .ident => 2 | .up => 3 | .lost => 4 | .refused => 5
/-- R275: KIND of a queue. -/
def QKind.code : QKind → BitVec 2
  | .command => 0 | .output => 1 | .event => 2 | .reserved => 3
/-- R475: STATE of a transaction. -/
def TxnState.code : TxnState → BitVec 2
  | .free => 0 | .opened => 1 | .armed => 2
/-- R474: OUTCOME. -/
def TxnOutcome.code : TxnOutcome → BitVec 4
  | .none => 0 | .committed => 1 | .committedLate => 2 | .aborted => 3 | .expired => 4 | .refused => 5 | .conflict => 6
  | .failedWrite => 7 | .timeout => 8
/-- R475: OPENER and OPENER_ID; a mirrored transaction of the lead reads as one of queue 0. -/
def Opener.code : Opener → BitVec 2 × Nat
  | .queue q => (0, q) | .key k => (1, k) | .tack => (2, 0) | .bar0 => (3, 0) | .lead => (0, 0)

/-! The blocks. -/

/-- R352, R368, R300, R478: GLB. -/
def State.readGlb (s : State) (r : Reg) : Word :=
  let g := s.glb
  match r with
  | .glbId => 0x64800D5A
  | .glbStep => 0xB0
  | .glbMode => fld g.mode.code 28 ||| fld g.role.code 26 ||| fld g.restSub 24 ||| flag g.patchBg 23 ||| flag g.side 22 |||
      flag g.adoptWait 21 ||| fld g.modeSeq 0
  | .glbModeReq => fld g.req 28 ||| fld g.depth 26 ||| flag g.refused 25 ||| fld g.reason 22
  | .glbAdopt => flag g.policy 15 ||| fld g.adoptOut 12
  | .glbStart i => g.tEnd.look 0 i
  | .werr 0 => fld g.werrSeq 24 ||| fld g.werrReason 20 ||| fld g.werrWriter 18 ||| fld g.werrCount 0
  | .werr _ => fld g.werrAddr 0
  | .platDdr => g.platDdr
  | .platIo => g.platIo
  | .part p 0 => flag (s.part p).enabled 31 ||| fld (s.part p).rank 28 ||| fld (s.part p).cores 16 ||| fld (s.part p).spares 8
  | .part p 1 => (s.part p).mask
  | .part p 2 => fld (s.part p).stopped 16 ||| fld (s.part p).thinned 0
  | .part p _ => fld (s.part p).admitSeq 16
  | _ => 0

/-- R475: TXN. -/
def State.readTxn (s : State) (t w : Nat) : Word :=
  let x := s.trans t
  match w with
  | 0 => fld x.st.code 27 ||| flag x.failed 26 ||| flag x.conflict 25 ||| num x.writes.length 15 ||| num (x.scope.getD 0) 12 |||
      flag (x.begun && x.scope.isNone) 11
  | 1 => fld x.raster 27 ||| fld x.line 13
  | 2 => x.frame
  | 3 => fld x.waddr 2
  | 5 => fld x.outcome.code 28 ||| (if x.begun then fld x.opener.code.1 26 ||| num x.opener.code.2 15 else 0)
  | 6 => fld x.bad 0
  | _ => 0

/-- R430: FLT. -/
def State.readFlt (s : State) (r : Reg) : Word :=
  match r with
  | .fltSrc n =>
    let x := s.fltSrc n
    fld x.force 30 ||| flag x.forceWire 29 ||| flag (s.masked n) 28 ||| flag x.wire 27 ||| fld x.last 25 ||| fld x.reaction 22 |||
      fld x.ce 8 ||| fld x.ct 4
  | .fltStat => fld s.flt.seq 24 ||| flag s.flt.new 23 ||| flag s.flt.fatal 22 ||| flag (s.flt.srcs.any (fun x => x.2.wire)) 21 |||
      flag s.flt.forceFatalEn 20 ||| fld s.flt.lastSrc 9 ||| fld s.flt.lastClass 7
  | .fltFence 0 => mask 4 28 (fun b => (s.bay b).fenced) ||| mask 12 16 (fun n => (s.chan n).st == .fenced) |||
      mask 4 12 (fun k => (s.ladle k).fenced) ||| mask 2 10 (fun k => !s.run.planes.getLsbD k) ||| mask 4 6 (fun p => (s.eth p).fenced)
  | .fltFence 1 => mask 32 0 (fun c => (s.core c).fenced)
  | .fltFence _ => mask 8 24 (fun n => (s.dpo n).fenced) ||| mask 4 20 (fun n => (s.dpi n).fenced) ||| flag s.ras.clk.fenced 19 |||
      flag s.flt.gateOut 18 ||| flag s.blw.fenced 17 ||| flag s.hq.fenced 16 ||| flag s.grt.fenced 15
  | _ => 0

/-- R376: IRC, but for the claim that a read of IRC_CLAIM makes. -/
def State.readIrc (s : State) (r : Reg) : Word :=
  match r with
  | .ircSrc n =>
    let x := s.ircSrc n
    flag x.enable 31 ||| flag x.soft 30 ||| flag (s.ircLevel n) 29 ||| flag (s.ircPending n) 28 ||| fld x.prio 24 ||| flag x.wake 23
  | .ircClaim => s.irc.claim
  | .ircRun => fld (s.irc.stack.headD 0) 28 ||| num s.irc.stack.length 16 ||| flag s.irc.eoiErr 0
  | _ => 0

/-- R321, R449: BLW. -/
def State.readBlw (s : State) (r : Reg) : Word :=
  match r with
  | .rail n w =>
    let x := s.rail n
    match w with
    | 0 => fld x.limit 16 ||| fld x.ramp 8 ||| fld x.burst 0
    | 1 => num x.held 16 ||| num x.standing 0
    | 2 => num x.queue.length 16 ||| fld x.denied 0
    | _ => fld x.maxWait 16
  | .bay b w =>
    let x := s.bay b
    match w with
    | 0 => fld x.point 30 ||| fld x.pointMax 28 ||| flag x.throttled 27 ||| fld x.cause 25 ||| flag x.unconfirmed 24 ||| fld x.trim 16 |||
        fld x.freq 0
    | 1 => fld x.temp 16 ||| fld x.vset 0
    | 2 => fld x.steps 16
    | _ => 0
  | _ => 0

/-- R43: a word of a line event entry. -/
def LineEvent.word (e : LineEvent) (w : Nat) : Word :=
  match w with
  | 0 => flag e.valid 31 ||| fld e.mode 29 ||| fld e.raster 24 ||| fld e.line 10 ||| fld e.action 6 ||| fld e.part 3
  | 1 => fld e.arg 16 ||| fld e.target 0
  | 2 => e.frame
  | _ => flag e.fired 31 ||| flag e.late 30 ||| flag e.expired 29 ||| flag e.rejected 28 ||| fld e.count 0

/-- R43, R479: RAS. -/
def State.readRas (s : State) (r : Reg) : Word :=
  match r with
  | .rasClk 0 => fld s.ras.clk.domain 8 ||| fld s.ras.clk.gmPort 3 ||| fld s.ras.clk.reported.code 0
  | .rasClk 2 => half s.ptp 0
  | .rasClk 3 => half s.ptp 1
  | .rasClk 4 => s.uncert32
  | .inState i => fld (s.raster (16 + i)).inState.code 0
  | .frameCount k h => half (BitVec.ofInt 64 (s.frameNow k)) h
  | .stamp j h => half (s.ras.stamps.look 0 j) h
  | .lineEvent e w => (s.lineEvent e).word w
  | _ => 0

/-- R397: SEM; word 0 as it stands after the last acquire. -/
def State.readSem (s : State) (n w : Nat) : Word :=
  let x := s.semS n
  match w with
  | 0 => fld x.result 29 ||| fld x.owner 0
  | 2 => fld x.st.code 30 ||| fld x.breaks 24 ||| fld x.rejects 18 ||| fld x.prev 9 ||| fld x.owner 0
  | _ => 0

/-- R87: LDG. -/
def State.readLedger (s : State) (i w : Nat) : Word :=
  let x := s.ledgerWords i
  match w with
  | 0 => x.1
  | 1 => x.2.1
  | 2 => x.2.2
  | _ => fld (s.decS i).ledSeq 16 ||| flag ((s.decS i).cfg.enabled && (s.decS i).cfg.ledger) 0

/-- R211: COR and PTN. -/
def State.readCore (s : State) (r : Reg) : Word :=
  match r with
  | .corState c =>
    let x := s.core c
    fld (pstateCode x.pstate) 29 ||| flag x.bank 28 ||| flag x.fenced 27 ||| flag (x.draining && (!x.tasks.isEmpty || x.encTask.isSome)) 26 ||| fld x.role.code 24 |||
      mask 8 16 (fun t => (x.thread t).st == .wait) ||| mask 8 8 (fun t => (x.thread t).st == .idle)
  | .corFault c =>
    let x := s.core c
    fld x.seq 24 ||| fld x.cause 21 ||| fld x.fThread 18 ||| num (min 2 (within sec s.now x.recent).length) 16 ||| fld x.fGroup 13 |||
      fld x.fAddr 0
  | .ptnCtl c =>
    let x := s.core c
    flag x.swapPend 31 ||| flag x.refused 30 ||| fld x.reason 27 ||| flag x.validA 26 ||| flag x.validB 25
  | .ptnId c =>
    let x := s.core c
    let b (v : BitVec 16) : BitVec 8 := v.setWidth 8
    fld (b x.patA) 24 ||| fld (b x.patB) 16 ||| fld (b x.decA) 8 ||| fld (b x.decB) 0
  | _ => 0

/-- R163, R82, R174, R177: CMP, DPO, DPI. -/
def State.readVideo (s : State) (r : Reg) : Word :=
  match r with
  | .bg k => s.cmp.bg.look 0 k
  | .ovl i => s.style (i / 4) (i % 4)
  | .dpo n =>
    let p := s.dpo n
    flag (s.outP n).intent 31 ||| flag (s.outP n).gated 30 ||| fld p.format 28 ||| flag p.range 27 ||| flag p.depth 26 |||
      fld p.linkRate 22 ||| fld p.lanes 19 ||| fld p.link.code 16
  | .dpi n w =>
    let p := s.dpi n
    match w with
    | 0 => flag p.enable 31 ||| fld p.format 29 ||| flag p.range 28 ||| flag p.depth 27 ||| fld p.edidLen 24 ||| fld p.linkRate 20 |||
        fld p.lanes 17 ||| fld p.link.code 14
    | 1 => fld p.seq 24 ||| fld p.reason 20
    | 2 => fld p.measW 16 ||| fld p.measH 0
    | _ => 0
  | .edid n i => (s.dpi n).edid.look 0 i
  | _ => 0

/-- R238: DRM. -/
def State.readDrm (s : State) (r : Reg) : Word :=
  match r with
  | .drmState n =>
    let c := s.chan n
    fld c.st.code 29 ||| flag c.hot 28 ||| flag c.urgent 27 ||| fld c.tries 24 ||| num c.merge.length 16 ||| fld c.retired 0
  | .errq n w =>
    let c := s.chan n
    let e := c.errq.headD ErrEntry.reset
    match w with
    | 0 => fld c.errSeq 24 ||| fld e.kind 20 ||| fld e.source 18 ||| fld e.part 15 ||| fld e.count 0
    | 1 => e.line.setWidth 32
    | 2 => flag (e.line.getLsbD 32) 0
    | _ => fld c.ovf 16 ||| fld c.ceTotal 0
  | .scrub n => (s.chan n).scrubDone
  | .drmPool => flag s.drm.remapped 31 ||| fld s.drm.fencedCh 27 ||| flag s.drm.tolerant 26 ||| fld s.drm.spareBase 0
  | _ => 0

/-- A 128-bit address as four words, the most significant first (R245). -/
def addrWord (v : BitVec 128) (i : Nat) : Word := (v >>> (32 * (3 - i))).setWidth 32

/-- R245: a word of a rule. -/
def Rule.word (r : Rule) (w : Nat) : Word :=
  match w with
  | 0 => flag r.valid 31 ||| fld r.ports 27 ||| flag r.vlanEn 26 ||| fld r.vid 14 ||| flag r.ipv6 13 ||| flag r.srcEn 12 ||| flag r.ssrcEn 11
  | 1 => fld r.dport 16
  | 2 => r.ssrc
  | 11 => fld r.part 29 ||| fld r.tc 26 ||| fld r.dest 24 ||| fld r.stream 16 ||| flag r.path 15 ||| flag r.quench 14 ||| fld r.policer 5 |||
      flag r.polEn 4
  | n => if 3 ≤ n ∧ n < 7 then addrWord r.dstIp (n - 3) else if 7 ≤ n ∧ n < 11 then addrWord r.srcIp (n - 7) else 0

/-- R265: a word of a flow; BKT in whole bytes, truncated toward zero. -/
def Flow.word (f : Flow) (w : Nat) : Word :=
  match w with
  | 0 => flag f.enable 31 ||| fld f.port 29 ||| fld f.tc 26 ||| fld f.weight 18 ||| fld f.part 15 ||| flag f.path 14
  | 1 => fld f.rate 0
  | 2 => fld f.maxBurst 16
  | _ => BitVec.ofInt 32 (f.bkt.tdiv 1024)

/-- R247: a word of a policer. -/
def Policer.word (p : Policer) (w : Nat) : Word :=
  match w with
  | 0 => flag p.enable 31 ||| flag p.mode 30 ||| flag p.aware 29 ||| fld p.part 26
  | 1 => fld p.cir 0
  | 2 => fld p.pir 0
  | _ => fld p.cbs 16 ||| fld p.ebs 0

/-- R269, R245, R265, R247, R270, R480: RUN and LDL. -/
def State.readRun (s : State) (r : Reg) : Word :=
  match r with
  | .port n 0 =>
    let e := s.eth n
    flag e.link 31 ||| fld e.pauseMode 29 ||| flag e.loopback 28 ||| fld e.paused 20 ||| fld e.stalled 12
  | .port n w => if 2 ≤ w ∧ w < 20 then half ((s.eth n).counts.look 0 (w / 2)) (w % 2) else 0
  | .runCtl => flag s.dropping 31 ||| flag s.run.quenchPin 30 ||| fld s.run.quenchMask 22 ||| fld s.run.planes 20 ||| fld s.run.sampleUs 0
  | .rule i w => (s.rule i).word w
  | .flow f w => ((s.flow f).accrue s.now).word w
  | .policer i w => (s.run.policers.look Policer.reset i).word w
  | .dscp p w => (s.run.dscp.look 0 p >>> (32 * w)).setWidth 32
  | .stat q w =>
    let x := s.run.stats.look QStat.reset q
    match w with
    | 0 => x.depth
    | 1 => x.maxDepth
    | 2 => x.maxDelay
    | _ => fld x.aged 16 ||| fld x.seq 0
  | .pool p w =>
    let x := s.ladle p
    match w with
    | 0 => fld x.share 24 ||| flag x.fenced 23
    | 1 => num x.sharedFree 0
    | 2 => fld x.quarantined 16 ||| fld x.nobuf 0
    | _ => fld x.updSeq 0
  | _ => 0

/-- R296, R272: HQ and PCI; words of the configuration space that R272 does not give are those of another standard. -/
def State.readHq (s : State) (r : Reg) : Word :=
  match r with
  | .hqCtl => flag s.hq.enable 31 ||| fld s.hq.aqSizeM1 0
  | .asq h => half s.hq.asqBase h
  | .acq h => half s.hq.acqBase h
  | .authFail => s.hq.authFail
  | .evDropped => s.hq.evDropped
  | .qstat q w =>
    let x := s.hqQ q
    match w with
    | 0 => flag x.valid 31 ||| fld x.kind.code 29 ||| fld x.func 25 ||| fld x.part 22
    | 1 => num x.sqHead 16 ||| num x.sqTail 0
    | 2 => num x.cqHead 16 ||| num x.cqTail 0
    | 3 => num x.inExec 16 ||| fld x.vector 0
    | 4 => num (x.sqSize - 1) 16 ||| num (x.cqSize - 1) 0
    | 5 => fld x.weight 24 ||| fld x.poll 0
    | _ => 0
  | .doorbell q w => if w = 0 then fld (s.hqQ q).dbSq 0 else fld (s.hqQ q).dbCq 0
  | .pci 0 => 0x64801F6D
  | .pci 2 => 0x04800000 ||| Config.pciWord 2 &&& 0xFF
  | .pci i => Config.pciWord i
  | _ => 0

/-- R383: the current count of a timer, in µs. -/
def Timer.count (t : Timer) (now : Nat) : Nat :=
  if t.enable then min ((now - t.startAt) / 1000) t.period.toNat else 0

/-- R382: a word of a DMA channel. -/
def DmaCh.word (c : DmaCh) (w : Nat) : Word :=
  match w with
  | 0 => flag c.enable 31 ||| fld c.trig 28 ||| fld c.timer 26 ||| fld c.srcCh 23 ||| fld c.st.code 21 ||| flag c.busErr 20 ||| flag c.overrun 19
  | 1 => c.src
  | 2 => c.dst
  | 3 => fld c.count 0
  | 4 => c.remain
  | _ => 0

/-- R386: a word of the UART, but for the removal that a read of word 2 makes. -/
def Uart.word (u : Uart) (w : Nat) : Word :=
  match w with
  | 0 => u.inc
  | 1 => flag u.enable 31 ||| fld u.parity 29 ||| flag u.stop2 28 ||| fld u.rxLevel 22 ||| fld u.txLevel 16
  | 2 => u.rxRead
  | 4 => fld u.seq 24 ||| fld u.status 21 ||| num u.rx.length 14 ||| num u.tx.length 7
  | _ => 0

/-- A word of a sensor (R387). -/
def Sensor.word (x : Sensor) : Word := flag x.valid 31 ||| flag x.hi 30 ||| flag x.lo 29 ||| fld x.value 0

/-- R439: a word of a PMBus rail. -/
def PRail.word (x : PRail) (w : Nat) : Word :=
  match w with
  | 0 => flag x.master 31 ||| fld x.addr 24 ||| fld x.page 16 ||| flag x.avs 15 ||| flag x.err 14
  | 1 => fld x.vset 16 ||| fld x.vread 0
  | 2 => fld x.iread 16 ||| fld x.treg 0
  | _ => fld x.status 16 ||| fld x.updSeq 0

/-- R371, R383, R382, R386, R350, R387, R393, R439: the Tack's block. -/
def State.readTack (s : State) (r : Reg) : Word :=
  let f := s.fsh
  match r with
  | .tckState => fld s.tck.st.code 30 ||| fld s.tck.wdResets 16 ||| fld s.tck.fwSeq 0
  | .dwin => fld s.tck.dwin 0
  | .wdog => fld s.tck.timeout 0
  | .wdogStat => fld s.tck.badKicks 16 ||| flag s.tck.expired 0
  | .timer j 0 => flag (s.timer j).enable 31 ||| flag (s.timer j).periodic 30 ||| fld (s.timer j).period 0
  | .timer j 1 => num ((s.timer j).count s.now) 0
  | .dma k w => (s.dma k).word w
  | .uart w => s.tck.uart.word w
  | .fshLoad => (match f.slot with
      | none => num 2 30
      | some b => flag b 30) ||| fld f.outcome 28 ||| fld f.floor 22 ||| fld f.svn 16 ||| flag s.powerOk 15 ||| flag f.update.isSome 14 |||
      fld f.reasonA 8 ||| fld f.reasonB 4 ||| fld f.writeReason 0
  | .genA => f.genA
  | .genB => f.genB
  | .failAddr => f.failAddr
  | .nextOff => num ((f.update.map (·.next)).getD 0) 0
  | .temp i => (s.tck.temps.look Sensor.reset i).word
  | .volt j => (s.tck.volts.look Sensor.reset j).word
  | .logStat 0 => s.log.next
  | .logStat 1 => s.log.flushed
  | .logStat 2 => s.log.oldest
  | .logStat _ => fld s.log.lost 16
  | .tckRail i w => (s.pRail i).word w
  | _ => 0

/-- R431: GRT. -/
def State.readGrt (s : State) (r : Reg) : Word :=
  let g := s.grt
  match r with
  | .grtState => fld g.link.code 29 ||| fld g.peerRole 27 ||| flag g.peerOwn 26 ||| flag g.peerFault 25 ||| flag g.configSync 24 |||
      flag g.imageMatch 23 ||| fld g.hbSeq 0
  | .grtCnt 0 => g.retrans
  | .grtCnt 1 => g.bad
  | .grtCnt 2 => g.deltaDrop
  | .grtCnt _ => g.stateDiff
  | .grtDet i => mask 32 0 (fun b => (s.encS (32 * i + b)).detOk)
  | _ => 0

/-- R161: a word of a window descriptor. -/
def Window.word (x : Window) (i : Nat) : Word :=
  match i with
  | 0 => flag x.enable 31 ||| flag x.value 30 ||| fld x.part 27 ||| fld x.raster 23 ||| fld x.stream 15 ||| fld x.layer 7
  | 1 => fld x.srcX 16 ||| fld x.srcY 0
  | 2 => fld x.srcW 16 ||| fld x.srcH 0
  | 3 => fld x.dstX 16 ||| fld x.dstY 0
  | 4 => fld x.dstW 16 ||| fld x.dstH 0
  | 5 => fld x.bound 16
  | 6 => fld x.worst.code 29 ||| fld x.updSeq 0
  | _ => 0

/-- R144: a word of a pool descriptor. -/
def PoolDesc.word (p : PoolDesc) (w : Nat) : Word :=
  match w with
  | 0 => fld p.kind 30 ||| flag p.ref 29 ||| flag p.out 28 ||| flag p.cur 27 ||| fld p.scan 17 ||| flag p.free 16 ||| fld p.part 13 ||| fld p.stream 0
  | 1 => fld p.rowsDone 16 ||| fld p.tainted 0
  | 2 => p.order
  | _ => p.base

/-- R159: a word of a decode stream's status record. -/
def DecStream.word (d : DecStream) (w : Nat) : Word :=
  match w with
  | 0 => fld d.st.code 28 ||| fld d.lastError 24 ||| fld d.coresUsed 20 ||| flag d.dualNow 19 ||| flag d.late 18 ||| fld d.updSeq 0
  | 1 => d.errors
  | 2 => d.pictures
  | _ => fld d.rowsLate 16 ||| fld d.skipped 0

/-- R73: a word of a tile state entry. -/
def TileEntry.word (e : TileEntry) (w : Nat) : Word :=
  match w with
  | 0 => fld e.cond.code 30 ||| flag e.known 29 ||| flag e.tv 28 ||| num e.cause.code 25 ||| flag e.value 24 ||| fld (e.tAtt >>> 32) 0
  | 1 => e.tAtt.setWidth 32
  | 2 => e.crcE
  | _ => e.lastPic

/-- R477: the address in a core's pattern store of word `a` of bank `k`. -/
def bankWord (k a : Nat) : Nat := 8192 * k + a

/-- R477: the context RAM windows; a tile outside its stream's grid reads 0. -/
def State.readCtx (s : State) (r : Reg) : Word :=
  match r with
  | .window w i => (s.window w).word i
  | .poolDesc i w => (s.poolD i).word w
  | .decStat i w => (s.decS i).word w
  | .streamCfg i w => s.txn.streamCfg.look 0 (64 * i + w)
  | .patIds c 0 => fld (s.core c).patB 16 ||| fld (s.core c).patA 0
  | .patIds c _ => fld (s.core c).decB 16 ||| fld (s.core c).decA 0
  | .tile i n w => if n < (s.decS i).cols * (s.decS i).rowsN then (s.tile i n).word w else 0
  | .bank c k a w => ((s.core c).words.look 0 (bankWord k a) >>> (32 * w)).setWidth 32
  | _ => 0

/-- R457, R460: the value that a read of a register returns. -/
def State.readReg (s : State) (r : Reg) : Word :=
  match r with
  | .txn t w => s.readTxn t w
  | .txnSeq => fld s.txn.seq 0
  | .fltSrc _ | .fltStat | .fltFence _ => s.readFlt r
  | .ircSrc _ | .ircClaim | .ircEoi | .ircRun | .ircAck => s.readIrc r
  | .rail _ _ | .bay _ _ => s.readBlw r
  | .rasClk _ | .inState _ | .frameCount _ _ | .stamp _ _ | .lineEvent _ _ => s.readRas r
  | .sem n w => s.readSem n w
  | .ledger i w => s.readLedger i w
  | .corState _ | .corFault _ | .ptnCtl _ | .ptnId _ => s.readCore r
  | .bg _ | .ovl _ | .dpo _ | .dpi _ _ | .edid _ _ => s.readVideo r
  | .drmState _ | .errq _ _ | .scrub _ | .drmPool => s.readDrm r
  | .port _ _ | .runCtl | .rule _ _ | .flow _ _ | .policer _ _ | .dscp _ _ | .stat _ _ | .pool _ _ => s.readRun r
  | .hqCtl | .asq _ | .acq _ | .authFail | .evDropped | .qstat _ _ | .doorbell _ _ | .pci _ => s.readHq r
  | .grtState | .grtCnt _ | .grtDet _ => s.readGrt r
  | .window _ _ | .poolDesc _ _ | .decStat _ _ | .streamCfg _ _ | .patIds _ _ | .tile _ _ _ | .bank _ _ _ _ => s.readCtx r
  | .glbId | .glbStep | .glbMode | .glbModeReq | .glbAdopt | .glbStart _ | .werr _ | .platDdr | .platIo | .part _ _ => s.readGlb r
  | .tckState | .dwin | .wdog | .wdogStat | .timer _ _ | .dma _ _ | .uart _ | .fshLoad | .genA | .genB | .failAddr | .nextOff
  | .temp _ | .volt _ | .logStat _ | .tckRail _ _ => s.readTack r

/-- R458: an address that holds no register reads 0. -/
def State.readAddr (s : State) (a : Nat) : Word := ((regAt a).map s.readReg).getD 0

end Sys2Proof.Machine
end

