-- ==== Sys2Proof/Machine/RegWrite.lean ====
section
/-! DEFINITION. Writes of registers: scope (R274, R283), the reasons for which a write is refused (R463, R466, R467), and the
fields that a write sets with no further effect. -/

namespace Sys2Proof.Machine

/-! Scope (R274, R283). -/

/-- R274, R332: the scope of a writer: none for the whole device, or one partition. -/
def State.writerScope (s : State) (w : Writer) : Option Nat :=
  match w with
  | .queue q => s.fnPart (s.hqQ q).func.toNat
  | .key k => (s.hq.keys.look none k).bind (fun x => if x.scope = 0xFF then none else some (x.scope.toNat % 8))
  | _ => none

/-- The function that a writer acts for. -/
def State.writerFn (s : State) (w : Writer) : Option Nat :=
  match w with
  | .queue q => some (s.hqQ q).func.toNat
  | _ => none

/-- R274: stream `i` is one of partition `p`: by its enabled side, or by either side when neither is enabled. -/
def State.streamOf (s : State) (p i : Nat) : Bool :=
  let d := (s.decS i).cfg
  let e := (s.encS i).cfg
  if d.enabled || e.enabled then (d.enabled && d.part == p) || (e.enabled && e.part == p) else d.part == p || e.part == p

/-- R283: what a VF queue, or a key of one partition, may do at a register: 0 nothing, 1 read, 2 read and write. -/
def State.reach (s : State) (p : Nat) (fn : Option Nat) (r : Reg) : Nat :=
  let own (x : BitVec 3) (n : Nat) : Nat := if x.toNat = p then n else 0
  let stream (i n : Nat) : Nat := if s.streamOf p i then n else 0
  match r with
  | .window w _ => own (s.window w).part 2
  | .rule i _ => own (s.rule i).part 2
  | .policer i _ => own (s.run.policers.look Policer.reset i).part 2
  | .flow f _ => own (s.flow f).part 2
  | .lineEvent e _ => own (s.lineEvent e).part 2
  | .poolDesc i _ => own (s.poolD i).part 2
  | .streamCfg i _ => stream i 2
  | .decStat i _ => stream i 1
  | .ledger i _ => stream i 1
  | .tile i _ _ => stream i 1
  | .dscp q _ => if q = p then 2 else 0
  | .ovl i => if i / 4 = p then 2 else 0
  | .part q _ => if q = p then 1 else 0
  | .qstat q _ => if some (s.hqQ q).func.toNat = fn then 1 else 0
  | .glbId | .glbStep | .glbMode | .txnSeq | .rasClk _ | .inState _ | .frameCount _ _ => 1
  | _ => 0

/-- R457: the register has a field that can be written. -/
def Reg.rw (r : Reg) : Bool :=
  match r with
  | .glbModeReq | .glbAdopt | .platDdr | .platIo | .fltSrc _ | .fltStat | .ircSrc _ | .ircEoi | .ircAck | .ircRun | .corFault _
  | .ptnCtl _ | .bg _ | .ovl _ | .dpo _ | .edid _ _ | .runCtl | .dscp _ _ | .hqCtl | .asq _ | .acq _ | .doorbell _ _ | .dwin | .wdog
  | .streamCfg _ _ | .bank _ _ _ _ => true
  | .werr w | .part _ w | .rail _ w | .bay _ w | .errq _ w | .port _ w | .tckRail _ w => w == 0
  | .txn _ w => decide (w < 5)
  | .lineEvent _ w | .flow _ w => decide (w < 3)
  | .sem _ w => w == 1
  | .dpi _ w => decide (w < 2)
  | .rule _ w => decide (w < 12)
  | .policer _ w | .dma _ w => decide (w < 4)
  | .timer _ w => w == 0 || w == 2
  | .uart w => w == 0 || w == 1 || w == 3 || w == 4
  | .window _ i => decide (i < 6)
  | _ => false

/-! Reasons (R463). -/

/-- R467: the platform registers. -/
def Reg.platform : Reg → Bool
  | .platDdr | .platIo | .tckRail _ 0 => true
  | _ => false

/-- R466: the bits of a register that change only by transaction. -/
def Reg.txnMask : Reg → Word
  | .part _ 0 => 0x70000000
  | .rail _ 0 => 0xFFFFFFFF
  | .bay _ 0 => 0x30000000
  | .glbAdopt => 0x00008000
  | .window _ i => if i < 6 then 0xFFFFFFFF else 0
  | .rule _ w => if w < 11 then 0xFFFFFFFF else if w = 11 then 0xFFFFBFF0 else 0
  | .flow _ w => if w = 0 then 0x03FC0000 else if w < 3 then 0xFFFFFFFF else 0
  | .dpo _ => 0x3C000000
  | .dpi _ w => if w = 0 then 0xFF000000 else 0
  | .edid _ _ => 0xFFFFFFFF
  | .streamCfg _ _ => 0xFFFFFFFF
  | _ => 0

/-- R466: words that hold both kinds of field, judged by the values they write. -/
def Reg.mixed : Reg → Bool
  | .glbAdopt | .dpo _ | .rule _ 11 | .flow _ 0 => true
  | _ => false

/-- R466, reason 0x2. -/
def State.txnOnly (s : State) (r : Reg) (v : Word) : Bool :=
  s.glb.loaded && (if r.mixed then (v ^^^ s.readReg r) &&& r.txnMask != 0 else r.txnMask != 0)

/-- R274, reason 0x4: the write would give an object to another partition. -/
def partBad (p : Nat) (r : Reg) (v : Word) : Bool :=
  let x : Option (BitVec 3) := match r with
    | .window _ 0 => some (v.extractLsb' 27 3)
    | .rule _ 11 => some (v.extractLsb' 29 3)
    | .policer _ 0 => some (v.extractLsb' 26 3)
    | .flow _ 0 => some (v.extractLsb' 15 3)
    | .lineEvent _ 0 => some (v.extractLsb' 3 3)
    | _ => none
  x.any (fun x => x.toNat != p)

/-- Reason 0x5: an object in a state that forbids the write. -/
def State.stateBad (s : State) (r : Reg) : Bool :=
  match r with
  | .bank c k _ _ => (s.core c).bank == (k == 1)
  | .lineEvent e w => (w == 1 || w == 2) && (s.lineEvent e).valid
  | .dma k w => decide (1 ≤ w) && decide (w < 4) && (s.dma k).st != .idle
  | _ => false

/-- Reason 0x1: a value out of range or a reserved encoding. -/
def State.rangeBad (s : State) (r : Reg) (v : Word) : Bool :=
  let f (lo n : Nat) : Nat := (v.extractLsb' lo n).toNat
  match r with
  | .glbModeReq => decide (3 < f 28 4) || f 26 2 == 3
  | .platDdr => f 27 5 < 12 || 20 < f 27 5 || f 23 2 == 3 || f 17 6 < 2 || 32 < f 17 6
  | .platIo => f 30 2 == 3 || f 28 2 == 3
  | .txn _ 0 => decide (3 < f 29 3)
  | .txn _ 1 => decide (0x1C ≤ f 27 5) && f 27 5 != 0x1F
  | .fltSrc _ => f 30 2 == 3 && !s.flt.forceFatalEn
  | .rail _ 0 => f 8 8 == 0
  | .dpo _ => f 28 2 == 3
  | .dpi _ 0 => f 29 2 == 3 || f 24 3 == 0 || decide (4 < f 24 3)
  | .runCtl => decide (f 0 20 < 10) || decide (1000000 < f 0 20)
  | .flow _ 0 => f 18 8 == 0
  | .flow _ 1 => decide (12500000 < f 0 24)
  | .flow i 2 => decide (f 16 16 * 64 < (s.eth (s.flow i).port.toNat).mtu + 22)
  | .dma _ 0 => f 28 2 == 3
  | .dma _ 3 => f 0 24 % 4 != 0
  | .timer _ 0 => f 0 24 == 0
  | .uart 1 => f 29 2 == 3 || f 22 6 == 0
  | .hqCtl => f 0 16 == 0 || decide (4095 < f 0 16)
  | .wdog => (s.wdogReason v).isSome
  | .window _ 2 => f 16 16 == 0 || decide (8192 < f 16 16) || f 0 16 == 0 || decide (4320 < f 0 16)
  | .window _ 5 => f 16 16 == 0
  | _ => false

/-- R463, R466 to R468: the reason for which a write to a register is refused, of a direct write or (`inTxn`) of one that a
transaction makes or buffers; the TXN block's own writes are judged by R475. -/
def State.writeReason (s : State) (w : Writer) (inTxn : Bool) (r : Reg) (v : Word) : Option (BitVec 4) :=
  match r with
  | .txn _ _ => some 8
  | _ =>
    if r.platform then some 3
    else if (s.writerScope w).any (fun p => partBad p r v) then some 4
    else if s.stateBad r then some 5
    else if !inTxn && w != .image && s.txnOnly r v then some 2
    else if s.rangeBad r v then some 1
    else none

/-! Fields with no further effect. -/

/-- R161: a word of a window descriptor. -/
def Window.setWord (i : Nat) (v : Word) (x : Window) : Window :=
  match i with
  | 0 => { x with
      enable := v.getLsbD 31, value := v.getLsbD 30, part := v.extractLsb' 27 3, raster := v.extractLsb' 23 4
      stream := v.extractLsb' 15 8, layer := v.extractLsb' 7 8 }
  | 1 => { x with srcX := v.extractLsb' 16 16, srcY := v.extractLsb' 0 16 }
  | 2 => { x with srcW := v.extractLsb' 16 16, srcH := v.extractLsb' 0 16 }
  | 3 => { x with dstX := v.extractLsb' 16 16, dstY := v.extractLsb' 0 16 }
  | 4 => { x with dstW := v.extractLsb' 16 16, dstH := v.extractLsb' 0 16 }
  | 5 => { x with bound := v.extractLsb' 16 16 }
  | _ => x

/-- R162: a word of a window: at once during LOAD, and at line 0 of the window's raster afterwards. -/
def State.setWindow (w i : Nat) (v : Word) (s : State) : State :=
  if s.glb.loaded then
    s.modCmp (fun c => { c with
      pendWin := c.pendWin.put none w (some (((c.pendWin.look none w).getD (c.windows.look Window.reset w)).setWord i v)) })
  else s.modWindow w (Window.setWord i v)

/-- R245: a 128-bit address with word `i` of it replaced, the most significant word first. -/
def setAddrWord (a : BitVec 128) (i : Nat) (v : Word) : BitVec 128 :=
  let sh := 32 * (3 - i)
  (a &&& ~~~((0xFFFFFFFF : BitVec 128) <<< sh)) ||| (v.setWidth 128 <<< sh)

/-- R245: a word of a rule. -/
def Rule.setWord (w : Nat) (v : Word) (x : Rule) : Rule :=
  match w with
  | 0 => { x with
      valid := v.getLsbD 31, ports := v.extractLsb' 27 4, vlanEn := v.getLsbD 26, vid := v.extractLsb' 14 12, ipv6 := v.getLsbD 13
      srcEn := v.getLsbD 12, ssrcEn := v.getLsbD 11 }
  | 1 => { x with dport := v.extractLsb' 16 16 }
  | 2 => { x with ssrc := v }
  | 11 => { x with
      part := v.extractLsb' 29 3, tc := v.extractLsb' 26 3, dest := v.extractLsb' 24 2, stream := v.extractLsb' 16 8
      path := v.getLsbD 15, quench := v.getLsbD 14, policer := v.extractLsb' 5 9, polEn := v.getLsbD 4 }
  | n =>
    if 3 ≤ n ∧ n < 7 then { x with dstIp := setAddrWord x.dstIp (n - 3) v }
    else if 7 ≤ n ∧ n < 11 then { x with srcIp := setAddrWord x.srcIp (n - 7) v }
    else x

/-- R265: a word of an egress flow; the bucket is brought up to the time of the change first. -/
def Flow.setWord (now w : Nat) (v : Word) (x : Flow) : Flow :=
  let x := x.accrue now
  match w with
  | 0 => { x with
      enable := v.getLsbD 31, port := v.extractLsb' 29 2, tc := v.extractLsb' 26 3, weight := v.extractLsb' 18 8
      part := v.extractLsb' 15 3, path := v.getLsbD 14 }
  | 1 => { x with rate := v.extractLsb' 0 24 }
  | 2 => { x with maxBurst := v.extractLsb' 16 16, bkt := min x.bkt (((v.extractLsb' 16 16).toNat * 65536 : Nat) : Int) }
  | _ => x

/-- R247, R248: a word of a policer: the tokens held are kept, and clipped to the new bursts; during LOAD the buckets are
full. -/
def Policer.setWord (loaded : Bool) (now w : Nat) (v : Word) (x : Policer) : Policer :=
  let (c, e) := x.burst
  let (tc, te) := refill x.mode c e x.cir.toNat x.pir.toNat (now - x.asOf) x.tc x.te
  let y := match w with
    | 0 => { x with enable := v.getLsbD 31, mode := v.getLsbD 30, aware := v.getLsbD 29, part := v.extractLsb' 26 3 }
    | 1 => { x with cir := v.extractLsb' 0 24 }
    | 2 => { x with pir := v.extractLsb' 0 24 }
    | _ => { x with cbs := v.extractLsb' 16 16, ebs := v.extractLsb' 0 16 }
  let (c, e) := y.burst
  { y with tc := if loaded then min c tc else c, te := if loaded then min e te else e, asOf := now }

/-- A word of a wide value replaced: 0 low, 1 high. -/
def setHalf (x : BitVec 64) (h : Nat) (v : Word) : BitVec 64 :=
  if h = 0 then (x >>> 32 <<< 32) ||| v.setWidth 64 else (v.setWidth 64 <<< 32) ||| (x.setWidth 32).setWidth 64

/-- Word `w` of a 160-bit microword replaced (R333). -/
def setMicro (x : BitVec 160) (w : Nat) (v : Word) : BitVec 160 :=
  (x &&& ~~~((0xFFFFFFFF : BitVec 160) <<< (32 * w))) ||| (v.setWidth 160 <<< (32 * w))

/-- Word `w` of a DSCP map replaced. -/
def setDscp (x : BitVec 128) (w : Nat) (v : Word) : BitVec 128 :=
  (x &&& ~~~((0xFFFFFFFF : BitVec 128) <<< (32 * w))) ||| (v.setWidth 128 <<< (32 * w))

/-- R376: IRC_SRC; PRIO of source 255 is read-only. -/
def IrcSrc.set (n : Nat) (v : Word) (x : IrcSrc) : IrcSrc :=
  { x with enable := v.getLsbD 31, soft := v.getLsbD 30, prio := if n = 255 then x.prio else v.extractLsb' 24 4, wake := v.getLsbD 23 }

/-- R457: the fields that a write of a register sets at once and that have no effect of their own. -/
def State.setPlain (r : Reg) (v : Word) (s : State) : State :=
  match r with
  | .glbAdopt => s.modGlb (fun g => { g with policy := v.getLsbD 15 })
  | .platDdr => s.modGlb (fun g => { g with platDdr := v &&& 0xFFFF0000 })
  | .platIo => s.modGlb (fun g => { g with platIo := v &&& 0xFF000000 })
  | .part p 0 => s.modPart p (fun x => { x with rank := v.extractLsb' 28 3 })
  | .rail n 0 => s.modRail n (fun x => { x with limit := v.extractLsb' 16 16, ramp := v.extractLsb' 8 8, burst := v.extractLsb' 0 8 })
  | .bay b 0 => (s.modBay b (fun x => { x with pointMax := v.extractLsb' 28 2 })).bayMove b
  | .ircSrc n => s.modIrcSrc n (IrcSrc.set n v)
  | .ircRun => s.modIrc (fun i => { i with eoiErr := i.eoiErr && v.getLsbD 0 })
  | .bg k => s.modCmp (fun c => { c with bg := c.bg.put 0 k (v &&& 0x3FFFFFFF) })
  | .ovl i => s.modCmp (fun c => { c with ovl := c.ovl.put (styleReset (i % 4)) i v })
  | .port p 0 => s.modEth p (fun e => { e with loopback := v.getLsbD 28 })
  | .runCtl => s.modRun (fun x => { x with sampleUs := v.extractLsb' 0 20 })
  | .rule i w => s.modRule i (Rule.setWord w v)
  | .flow f w => s.modFlow f (Flow.setWord s.now w v)
  | .policer i w => s.modRun (fun x => { x with policers := x.policers.upd Policer.reset i (Policer.setWord s.glb.loaded s.now w v) })
  | .dscp p w => s.modRun (fun x => { x with dscp := x.dscp.put 0 p (setDscp (x.dscp.look 0 p) w v) })
  | .dwin => s.modTck (fun t => { t with dwin := v.extractLsb' 0 9 })
  | .timer j 0 => s.modTimer j (fun t =>
      { t with enable := v.getLsbD 31, periodic := v.getLsbD 30, period := v.extractLsb' 0 24
               startAt := if v.getLsbD 31 && !t.enable then s.now else t.startAt })
  | .dma k 1 => s.modDma k (fun c => { c with src := v })
  | .dma k 2 => s.modDma k (fun c => { c with dst := v })
  | .dma k 3 => s.modDma k (fun c => { c with count := v.extractLsb' 0 24 })
  | .uart 0 => s.modUart (fun u => { u with inc := v })
  | .uart 1 => s.modUart (fun u => { u with
      enable := v.getLsbD 31, parity := v.extractLsb' 29 2, stop2 := v.getLsbD 28, rxLevel := v.extractLsb' 22 6
      txLevel := v.extractLsb' 16 6 })
  | .tckRail i 0 => s.modPRail i (fun x => { x with master := v.getLsbD 31, addr := v.extractLsb' 24 7, page := v.extractLsb' 16 8 })
  | .window w i => s.setWindow w i v
  | _ => s

end Sys2Proof.Machine
end

