-- ==== Sys2Proof/Machine/LineEvents.lean ====
section
/-! DEFINITION. The line event table: arming and disarming, and positions that have passed (R43 to R48). -/

namespace Sys2Proof.Machine

/-! Positions (R39, R48, R470). -/

/-- R470: the frame count that a frame modulo 2^32 names: the one within 2^31 of the raster's current count. -/
def State.fullFrame (s : State) (k : Nat) (f : BitVec 32) : Int :=
  s.frameNow k + (f - BitVec.ofInt 32 (s.frameNow k)).toInt

/-- R48: whether a position is still to come, passed within the late window, or before it. -/
inductive Due where
  | coming | late | expired
  deriving DecidableEq, Repr

/-- R48: the age of line `n` of frame `f` of raster `k`, with a late window of `lw` frames. -/
def State.due (s : State) (k : Nat) (f : Int) (n lw : Nat) : Due :=
  let lt : Nat := (s.raster k).fmt.lt
  let mp : Int := f * lt + n
  let m := s.lineIndex k
  if m < mp then .coming else if m - mp ≤ ((lw * lt : Nat) : Int) then .late else .expired

/-! Entries (R44, R47). -/

/-- R44: the rows of a frame: for each CTU row j, the line min(64 (j + 1), LA) of its last sample. -/
def rowEnds (fmt : RasterFmt) : List Nat := (List.range ((fmt.la + 63) / 64)).map (fun j => min (64 * (j + 1)) fmt.la)

/-- R44, R47: the lines of a frame on which an entry falls. -/
def LineEvent.lines (e : LineEvent) (fmt : RasterFmt) : List Nat :=
  if e.mode = 3 then ((rowEnds fmt).map (· + e.line.toNat)).filterMap (fun l =>
    if l < fmt.lt then some l else if l < 2 * fmt.lt then some (l - fmt.lt) else none)
  else [e.line.toNat]

/-- R47: armed entries other than `e` that fall on line `l` of raster `k`. -/
def State.armedOn (s : State) (e k l : Nat) : Nat :=
  (s.ras.events.filter (fun x => x.1 != e && x.2.valid && x.2.raster.toNat == k &&
    (x.2.lines (s.raster k).fmt).contains l)).length

/-- R292: the MSI-X vectors of the VF bound to partition `p`. -/
def State.vectorOf (s : State) (p v : Nat) : Bool :=
  (List.range 8).any (fun i => s.hq.vfPart.look none (i + 1) == some p && decide (1024 + 128 * i ≤ v) && decide (v < 1152 + 128 * i))

/-- R47: ACTION and TARGET are valid, and TARGET belongs to PARTITION, for the scope of the arming write; a stream that the
image does not configure is one of no partition. -/
def State.targetOk (s : State) (scope : Option Nat) (e : LineEvent) : Bool :=
  let t := e.target.toNat
  match e.action.toNat with
  | 0 => true
  | 1 => decide (t < 256) && decide (0 < (s.encS t).cfg.width) && (s.encS t).cfg.part == (scope.getD e.part.toNat)
  | 2 => decide (t < 4)
  | 3 => scope.isNone && decide (t < 8)
  | 4 => scope.isNone && decide (t < 256)
  | 5 => decide (t < 2048) && scope.all (fun p => s.vectorOf p t)
  | 6 => scope.isNone && decide (t < 16)
  | 7 => scope.isNone
  | _ => false

/-- R47: entry `n` may be armed as `e`. -/
def State.armOk (s : State) (scope : Option Nat) (n : Nat) (e : LineEvent) : Bool :=
  let k := e.raster.toNat
  let fmt := (s.raster k).fmt
  s.rasterUsed k && decide (e.line.toNat < if e.mode = 3 then 64 else fmt.lt) &&
  (e.mode != 2 || decide ((e.frame >>> 16).toNat < (e.frame &&& 0xFFFF).toNat)) &&
  s.targetOk scope e && (match scope with | some p => e.part.toNat == p | none => (s.part e.part.toNat).enabled) &&
  (e.lines fmt).all (fun l => decide (s.armedOn n k l < 64))

/-- R43: the fields of word 0. -/
def LineEvent.setWord0 (v : Word) (e : LineEvent) : LineEvent :=
  { e with
    valid := v.getLsbD 31, mode := v.extractLsb' 29 2, raster := v.extractLsb' 24 5, line := v.extractLsb' 10 14
    action := v.extractLsb' 6 4, part := v.extractLsb' 3 3 }

/-- R48: entry `n` is disarmed unfired. -/
def State.expireEvent (n : Nat) (s : State) : State :=
  ((s.modLineEvent n (fun e => { e with valid := false, latePend := false, expired := true })).latch 49).raiseP (s.lineEvent n).part.toNat .lineEventExpired [i16 n]

/-- R48: what becomes of a Once entry as it is armed. -/
def State.ageEvent (n : Nat) (s : State) : State :=
  let e := s.lineEvent n
  let k := e.raster.toNat
  if e.mode != 1 then s
  else match s.due k (s.fullFrame k e.frame) e.line.toNat (s.part e.part.toNat).lateWin with
    | .coming => s
    | .late => s.modLineEvent n (fun e => { e with latePend := true })
    | .expired => s.expireEvent n

/-- R47: a write to word 0 with VALID = 1 that passes the tests: the entry is armed afresh, with the scope of the write;
LATE and EXPIRED clear with FIRED (DESIGN CHOICE, log entry 130). -/
def State.armEvent (scope : Option Nat) (n : Nat) (v : Word) (s : State) : State :=
  (s.modLineEvent n (fun e => { e.setWord0 v with
    fired := false, late := false, expired := false, rejected := false, count := 0, scope := scope, latePend := false })).ageEvent n

/-- R47: a write to word 0 with VALID = 0. -/
def State.disarmEvent (n : Nat) (v : Word) (s : State) : State :=
  s.modLineEvent n (fun e => { e.setWord0 v with valid := false, latePend := false })

/-- R47: an arming write is refused by the rules of the table. -/
def State.armBad (s : State) (scope : Option Nat) (n : Nat) (v : Word) : Bool :=
  v.getLsbD 31 && !s.armOk scope n ((s.lineEvent n).setWord0 v)

/-- R47, R377: a refused write sets REJECTED. -/
def State.rejectEvent (n : Nat) (s : State) : State :=
  (s.modLineEvent n (fun e => { e with rejected := true })).latch 49

/-- R43, R47: an accepted write to a word of an entry. -/
def State.setEvent (scope : Option Nat) (n w : Nat) (v : Word) (s : State) : State :=
  match w with
  | 0 => if v.getLsbD 31 then s.armEvent scope n v else s.disarmEvent n v
  | 1 => s.modLineEvent n (fun e => { e with arg := v.extractLsb' 16 16, target := v.extractLsb' 0 16 })
  | 2 => s.modLineEvent n (fun e => { e with frame := v })
  | _ => s

/-- R43: the address of word 0 of entry `n`. -/
abbrev eventAddr (n : Nat) : Nat := 0x48000 + 16 * n

/-- R47: a direct write to word 0 of an entry. -/
def State.writeEvent (w : Writer) (n : Nat) (v : Word) (s : State) : State :=
  let scope := s.writerScope w
  if scope.any (fun p => partBad p (.lineEvent n 0) v) then (s.rejectEvent n).werr w 4 (eventAddr n)
  else if s.armBad scope n v then (s.rejectEvent n).werr w 1 (eventAddr n)
  else s.setEvent scope n 0 v

/-- LINE_EVENT_ARM (R47): a write to word 0 with VALID = 1. -/
def execLineEventArm (w : Writer) (n : Nat) (v : Word) (s : State) := ok (
  if decide (n < 1024) && v.getLsbD 31 then s.writeEvent w n v else s)

/-- LINE_EVENT_DISARM (R47): a write to word 0 with VALID = 0. -/
def execLineEventDisarm (w : Writer) (n : Nat) (v : Word) (s : State) := ok (
  if decide (n < 1024) && !v.getLsbD 31 then s.writeEvent w n v else s)

/-- R52: an armed entry no longer fits a format: its line does not exist, or in row mode none of its rows does. -/
def LineEvent.misfit (e : LineEvent) (fmt : RasterFmt) : Bool :=
  if e.mode = 3 then (e.lines fmt).isEmpty else decide (fmt.lt ≤ e.line.toNat)

/-- R52: entries of raster `k` that no longer fit its format are disarmed. -/
def State.dropMisfits (k : Nat) (s : State) : State :=
  let bad := s.ras.events.filter (fun x => x.2.valid && x.2.raster.toNat == k && x.2.misfit (s.raster k).fmt)
  s.each (bad.map (·.1)) State.expireEvent

end Sys2Proof.Machine
end

