-- ==== Sys2Proof/Machine/RegSide.lean ====
section
/-! DEFINITION. Reads with effects (R373, R386, R395, R396), the configuration of streams (R115, R477), and the Tack's
addresses (R370). -/

namespace Sys2Proof.Machine

/-- The next state that an outcome answers. -/
def nextOr (s : State) (o : Host.Outcome State Fault Refusal) : State :=
  match o with
  | .next t => t
  | _ => s

/-! Reads (R457). -/

/-- R394: the owner ID by which a writer or reader of the register map reaches the semaphores. -/
def writerOwner : Writer → BitVec 9
  | .tack => 0x100
  | _ => 0x101

/-- R457, R458: the effect of reading a register. -/
def State.readEffect (w : Writer) (r : Reg) (s : State) : State :=
  match r with
  | .ircClaim => ircClaim s
  | .sem n 0 => s.modSemS n (·.acquire (writerOwner w))
  | .sem n 2 => nextOr s (execSemStateRead n s)
  | .uart 2 => nextOr s (execUartRxRead s)
  | _ => s

/-- A read of an address by a writer: the value, after the effect that the read itself has. -/
def State.readBy (w : Writer) (a : Nat) (s : State) : State × Word :=
  match regAt a with
  | none => (s, 0)
  | some (.sem n 2) => (s.readEffect w (.sem n 2), s.readReg (.sem n 2))
  | some r =>
    let t := s.readEffect w r
    (t, t.readReg r)

/-! Stream configurations (R115, R477). -/

/-- A number clipped to a range. -/
def clip (lo hi v : Nat) : Nat := max lo (min hi v)

/-- The words of stream `i`'s configuration. -/
def TxnS.cfgWords (x : TxnS) (i : Nat) : List (Nat × Word) :=
  (x.streamCfg.filter (fun p => p.1 / 64 == i)).map (fun p => (p.1 % 64, p.2))

/-- A rectangle from four fields. -/
def rectOf (f : Nat → Nat) (n : Nat) : Rect := ⟨f n, f (n + 1), f (n + 2), f (n + 3)⟩

/-- R304: a stream class. -/
def classOf (n : Nat) : StreamClass :=
  match n % 4 with
  | 0 => .value
  | 1 => .live
  | 2 => .view
  | _ => .background

/-- R88: the profile of a number. -/
def profileOf (n : Nat) : EncProfile :=
  match n % 3 with
  | 0 => .main444
  | 1 => .screen444
  | _ => .main10

/-- R334, R477: the encode configuration that the words give, field by field as the image's format places them. -/
def EncCfg.ofWords (i : Nat) (ws : List (Nat × Word)) : EncCfg :=
  let f (n : Nat) : Nat := Config.streamField true i n ws
  let b (n : Nat) : Bool := f n != 0
  { enabled := b 0, cls := classOf (f 1), part := f 2 % 8, home := f 3 % 4
    input := if b 4 then some (16 + f 5 % 12) else none
    hostRaster := f 6 % 28, hostLine := f 7, width := f 8, height := f 9, profile := profileOf (f 10), depth := f 11
    chroma := if f 10 % 3 = 2 then 1 else 3, rgb := b 42, highTier := b 43, level := min 9 (f 44)
    sweepLen := clip 4 64 (f 12), margin := min 63 (f 13), allowance := f 14, interval := clip 10 1000 (f 15)
    beacon := if b 16 then some (rectOf f 17) else none
    beaconWin := max (clip 10 60000 (f 21)) (clip 10 1000 (f 15))
    regions := (List.range (f 22 % 17)).map (fun j => rectOf f (100 + 4 * j))
    rc := match f 23 % 3 with
      | 0 => .cbr
      | 1 => .vbr
      | _ => .capll
    rate := f 24, rateAvg := f 25, cpb := f 26, qpMin := (f 27 : Int) - 64, qpMax := (f 28 : Int) - 64, qpInit := (f 29 : Int) - 64
    deterministic := b 30, ledger := b 31, ssrc := BitVec.ofNat 32 (f 33), seq0 := BitVec.ofNat 16 (f 34)
    flows := (List.range (f 35 % 3)).map (fun j => f (36 + j) % 1024)
    toHost := b 38, toNet := b 39, outBuf := clip 1048576 67108864 (f 40), outAge := clip 10000000 60000000000 (f 41)
    payType := BitVec.ofNat 7 (f 45), dscp := BitVec.ofNat 6 (f 46), vid := if b 47 then some (BitVec.ofNat 12 (f 48)) else none
    ipv6 := b 49 }

/-- R334, R477: the decode configuration that the words give. -/
def DecCfg.ofWords (i : Nat) (ws : List (Nat × Word)) : DecCfg :=
  let f (n : Nat) : Nat := Config.streamField false i n ws
  let b (n : Nat) : Bool := f n != 0
  { enabled := b 0, cls := classOf (f 1), part := f 2 % 8, home := f 3 % 4, h264 := b 4, maxW := clip 64 8192 (f 5)
    maxH := clip 64 4320 (f 6), maxRate := min 2139095040 (f 7), dpbMax := clip 1 16 (f 8)
    split := match f 9 % 3 with
      | 0 => .none
      | 1 => .tiles
      | _ => .wpp
    cores := clip 1 8 (f 10), queue := clip 262144 67108864 (f 11), backlog := clip 1 8 (f 12), ledger := b 13, hostFed := b 14, raster := f 15 % 28, line := f 16, hold := clip 10000 50000000 (f 17)
    valueTiles := f 18, peak := f 19, dual := b 20 }

/-- R115, R477: stream `i` takes the configuration that its words give: at once during LOAD and before its first picture;
else what waits for a sweep waits. -/
def State.takeConfig (i : Nat) (s : State) : State :=
  let ws := s.txn.cfgWords i
  let new := EncCfg.ofWords i ws
  let s := s.modDecS i (fun d => { d with cfg := DecCfg.ofWords i ws })
  s.modEncS i (fun e =>
    if s.glb.loaded && e.started then
      let now := new.keepSweep e.cfg
      let before := e.pend.filter (fun x => x.1 != s.time48)
      { e with cfg := now, pend := if now = new ∧ before = [] then [] else before ++ [(s.time48, new)] }
    else { e with cfg := new, pend := [], ssrcFlip := false })

/-- R115: the configuration of an encode stream once all that waits has taken effect. -/
def EncStream.target (e : EncStream) : EncCfg :=
  match e.pend.getLast? with
  | some x => e.cfg.keepSweep x.2
  | none => e.cfg

/-- R477: a word of a stream's configuration. -/
def State.setStreamWord (i w : Nat) (v : Word) (s : State) : State :=
  (s.modTxn (fun x => { x with streamCfg := x.streamCfg.put 0 (64 * i + w) v })).takeConfig i

/-! The Tack's addresses (R370). -/

/-- The Tack as a requester of DRAM. -/
def tackReq : Requester := ⟨.tack, 0⟩

/-- R370: the pool address of a Tack address in the DRAM window. -/
def State.tackPool (s : State) (a : Nat) : Nat := s.tck.dwin.toNat * 1073741824 + (a - 0x40000000)

/-- R218, R370: outcomes that are a bus error to the Tack. -/
def ReadKind.busError : ReadKind → Bool
  | .ueSecded | .ueCrc | .misdirect | .poisoned | .partition | .refused => true
  | _ => false

/-- R388: a word of the log ring. -/
def State.ringWord (s : State) (off : Nat) : Word :=
  match s.log.ring.look none (off / 16) with
  | none => 0
  | some e => match off % 16 / 4 with
    | 0 => e.w0
    | 1 => e.w1
    | 2 => e.w2
    | _ => e.w3

/-- R388: writing a word of the log ring. -/
def State.setRingWord (off : Nat) (v : Word) (s : State) : State :=
  let e := (s.log.ring.look none (off / 16)).getD ⟨0, 0, 0, 0⟩
  let e := match off % 16 / 4 with
    | 0 => { e with w0 := v }
    | 1 => { e with w1 := v }
    | 2 => { e with w2 := v }
    | _ => { e with w3 := v }
  s.modLog (fun l => { l with ring := l.ring.put none (off / 16) (some e) })

/-- R370: the line of DRAM that a read in the Tack's window reaches. -/
def State.tackLine (a : Nat) (s : State) : State × ReadResult := s.readLine tackReq (s.tackPool a / 64 * 64)

/-- R370: what a read of a word by the Tack or its DMA engine changes. -/
def State.busReadEffect (a : Nat) (s : State) : State :=
  if a < 0x04000000 then (s.readBy .tack a).1
  else if 0x40000000 ≤ a ∧ a < 0x80000000 then (s.tackLine a).1
  else s

/-- R370: the word that a read by the Tack or its DMA engine gives; none is a bus error. -/
def State.busWord (a : Nat) (s : State) : Option Word :=
  if a < 0x04000000 then some (s.readBy .tack a).2
  else if 0x10000000 ≤ a ∧ a < 0x10020000 then
    some (BitVec.ofNat 32 (leVal ((List.range 4).map (fun i => Config.bootRom (a - 0x10000000 + i)))))
  else if 0x20000000 ≤ a ∧ a < 0x20060000 then some (BitVec.ofNat 32 (leVal (getBytes s.tck.sram 0 a 4)))
  else if 0x20060000 ≤ a ∧ a < 0x20080000 then some (s.ringWord (a - 0x20060000))
  else if 0x40000000 ≤ a ∧ a < 0x80000000 then
    let x := (s.tackLine a).2
    if x.kind.busError then none else some ((x.data >>> (8 * (s.tackPool a % 64))).setWidth 32)
  else none

/-- R370: a read of a word by the Tack or its DMA engine; none is a bus error. -/
def State.busRead (a : Nat) (s : State) : State × Option Word := (s.busReadEffect a, s.busWord a)

/-- R370: a word written to memory by the Tack or its DMA engine: SRAM, the log ring or DRAM. -/
def State.busStore (a : Nat) (v : Word) (s : State) : State :=
  if 0x20000000 ≤ a ∧ a < 0x20060000 then s.modTck (fun t => { t with sram := putBytes t.sram 0 a (leBytes 4 v.toNat) })
  else if 0x20060000 ≤ a ∧ a < 0x20080000 then s.setRingWord (a - 0x20060000) v
  else if 0x40000000 ≤ a ∧ a < 0x80000000 then
    let p := s.tackPool a
    s.narrow tackReq (p / 64 * 64) (List.replicate (p % 64) none ++ (leBytes 4 v.toNat).map some)
  else s

/-- R370: an address that the Tack can write: a register, SRAM or the DRAM window. -/
def busWritable (a : Nat) : Bool :=
  decide (a < 0x04000000) || (decide (0x20000000 ≤ a) && decide (a < 0x20080000)) || (decide (0x40000000 ≤ a) && decide (a < 0x80000000))

/-! Stopping DMA channels (R381). -/

/-- R381: word `i` of a stopped transfer's destination, old or new: for registers, the fields without further effect. -/
def State.mixWord (src dst : Nat) (s : State) : State :=
  let take := Config.freeBool s.freeCtr
  let s := s.tickFree
  if !take then s
  else
    let (s, v) := s.busRead src
    match v with
    | none => s
    | some v => if dst < 0x04000000 then (match regAt dst with
        | some r => if (s.writeReason .tack false r v).isNone then s.setPlain r v else s
        | none => s)
      else s.busStore dst v

/-- R381: writing ENABLE = 0 to a channel: a RUNNING one leaves an undefined mix in its destination and an undefined
REMAIN. -/
def State.stopChannel (k : Nat) (s : State) : State :=
  let c := s.dma k
  let s := if c.st = .running then
      s.each (List.range (c.count.toNat / 4)) (fun i s => s.mixWord (c.wSrc.toNat + 4 * i) (c.wDst.toNat + 4 * i))
    else s
  (s.modDma k (DmaCh.disable (Config.freeWord s.freeCtr))).tickFree

/-- R371: every channel stops and is disabled. -/
def State.stopAllDma (s : State) : State := s.each (List.range 8) State.stopChannel

end Sys2Proof.Machine
end

