-- ==== Sys2Proof/Machine/TxnOps.lean ====
section
/-! DEFINITION. Transactions up to their commit: opening, buffering, arming and ending (R468 to R475). -/

namespace Sys2Proof.Machine

/-- R281: a command in execution is done, with its status and result; its completion entry is written by the engine. -/
def State.finish (slot : Nat) (st : Status) (res : Word) (s : State) : State :=
  s.modSlot slot (fun x => { x with phase := .done, status := st, result := res })

/-- R474: STATUS of a TXN_COMMIT by its outcome. -/
def TxnOutcome.status : TxnOutcome → Status
  | .committed | .committedLate => .success
  | _ => .txnFailed

/-- R474: a transaction ends: it is FREE, its writes are discarded, its outcome stands, a TXN_COMMIT that waits completes, and
its source is latched. -/
def State.endTxn (t : Nat) (o : TxnOutcome) (s : State) : State :=
  let w := (s.trans t).waiter
  let s := s.modTrans t (fun x => { x with st := .free, writes := [], outcome := o, waiter := none, late := false })
  let s := s.latch (33 + t)
  match w with
  | some slot => s.finish slot o.status (o.code.setWidth 32)
  | none => s

/-- R426: a lead tells its twin of an abort. -/
def State.mirrorTxn (m : TxnMsg) (s : State) : State := if s.glb.role = .lead then s.gPut (.txn m) else s

/-- R473: a transaction that is not FREE is aborted. -/
def State.abortTxn (t : Nat) (o : TxnOutcome) (s : State) : State :=
  if (s.trans t).st = .free then s
  else
    let was := (s.trans t).st
    (s.endTxn t o).whenB (was == .armed) (State.mirrorTxn (.abort t))

/-- R473: every transaction of the openers that satisfy `p` is aborted. -/
def State.abortBy (p : Opener → Bool) (s : State) : State :=
  s.each (List.range 4) (fun t s => if p (s.trans t).opener then s.abortTxn t .aborted else s)

/-- R468: the opener that a writer is. -/
def writerOpener : Writer → Opener
  | .tack | .image => .tack
  | .bar0 => .bar0
  | .queue q => .queue q
  | .key k => .key k

/-- R468, R474: BEGIN of a FREE transaction. -/
def State.beginTxn (t : Nat) (o : Opener) (scope : Option Nat) (s : State) : State :=
  s.modTrans t (fun x => { x with
    st := .opened, failed := false, conflict := false, writes := [], scope := scope, opener := o, begun := true
    outcome := .none, bad := 0, waiter := none, late := false, openedAt := s.now })

/-- The buffered writes with one more: a later write to an address replaces the earlier value in place. -/
def bufferWrite (ws : List (Nat × Word)) (a : Nat) (v : Word) : List (Nat × Word) :=
  if ws.any (fun p => p.1 == a) then ws.map (fun p => if p.1 = a then (a, v) else p) else ws ++ [(a, v)]

/-- R469: the reason for which a buffered write is refused as it arrives: reasons 0x3 to 0x7, the TXN block, and the 513th
write. -/
def State.bufferReason (s : State) (w : Writer) (t a : Nat) (v : Word) : Option (BitVec 4) :=
  match regAt a with
  | none => some 7
  | some r =>
    match s.writeReason w true r v with
    | some 1 => none
    | some k => some k
    | none =>
      let ws := (s.trans t).writes
      if decide (512 ≤ ws.length) && !ws.any (fun p => p.1 == a) then some 8 else none

/-- R47: a write to an entry at address `a` that is refused, directly or in a transaction, sets REJECTED of the entry. -/
def State.rejectArm (a : Nat) (s : State) : State :=
  match regAt a with
  | some (.lineEvent e _) => s.rejectEvent e
  | _ => s

/-- R469: a write is buffered by an OPEN transaction, or refused and the transaction marked FAILED. -/
def State.bufferTxn (w : Writer) (t a : Nat) (v : Word) (s : State) : State × Option (BitVec 4) :=
  match s.bufferReason w t a v with
  | none => (s.modTrans t (fun x => { x with writes := bufferWrite x.writes a v }), none)
  | some k =>
    ((s.whenB (k != 8) (State.rejectArm a)).modTrans t (fun x => { x with failed := true, bad := if x.failed then x.bad else BitVec.ofNat 26 a }), some k)

/-- R468: the OPEN transaction of an opener, the lowest first. -/
def State.openOf (s : State) (o : Opener) : Option Nat :=
  (List.range 4).find? (fun t => (s.trans t).st == .opened && (s.trans t).opener == o)

/-- R470: RASTER that means the next uncore cycle. -/
abbrev nowRaster : Nat := 0x1F

/-- R470: a commit position is one of a raster in use. -/
def State.posOk (s : State) (k n : Nat) : Bool := k == nowRaster || (s.rasterUsed k && decide (n < (s.raster k).fmt.lt))

/-- R48, R468: the late window of a transaction. -/
def State.txnLate (s : State) (t : Nat) : Nat :=
  match (s.trans t).scope with
  | none => s.txn.lateDev
  | some p => (s.part p).lateWin

/-- R470: a transaction is ARMED at a position; one that has passed commits late or expires (R48). The frame is a full
count. -/
def State.armTxn (t k n : Nat) (f : Int) (s : State) : State :=
  let q := s.txn.armNext
  let s := (s.modTrans t (fun x => { x with
    st := .armed, raster := BitVec.ofNat 5 k, line := BitVec.ofNat 14 n, frame := BitVec.ofInt 32 f, posFrame := f.toNat, armSeq := q
    late := false })).modTxn (fun x => { x with armNext := q + 1 })
  if k = nowRaster then s
  else match s.due k f n (s.txnLate t) with
    | .coming => s
    | .late => s.modTrans t (fun x => { x with late := true })
    | .expired => s.endTxn t .expired

/-- R426: what a lead sends of a transaction that it arms or commits. -/
def State.commitMsg (s : State) (t : Nat) : TxnMsg :=
  let x := s.trans t
  .commit t x.writes x.scope ⟨x.raster.toNat, x.posFrame, x.line.toNat⟩

/-- R472: an address has been written: it marks CONFLICT on every transaction but `but` that holds a buffered write to it. -/
def State.markConflict (but : Option Nat) (addrs : List Nat) (s : State) : State :=
  s.each (List.range 4) (fun t s =>
    if some t != but && (s.trans t).st != .free && (s.trans t).writes.any (fun p => addrs.contains p.1)
    then s.modTrans t (fun x => { x with conflict := true }) else s)

end Sys2Proof.Machine
end

