-- ==== Sys2Proof/Machine/Faults.lean ====
section
/-! DEFINITION. The fault collector: the reactions of each source and the order in which reports are taken (R400 to R412,
R430, R432), and the restart of the Tack (R371, R398). -/

namespace Sys2Proof.Machine

/-! Restart of the Tack (R331, R371, R398). -/

/-- R331: the address of the TACK_FW payload of a slot. -/
def Fsh.firmware (f : Fsh) (b : Bool) : Option Nat :=
  ((f.records b).bind (fun rs => rs.find? (fun r => r.2.typ == 3))).map (fun r => r.1 + 16)

/-- R331: the firmware at a payload is copied to Tack SRAM. -/
def State.copyFirmware (a : Nat) (s : State) : State :=
  let f := s.fsh
  s.modTck (fun t => { t with
    sram := putBytes t.sram 0 (0x20000000 + f.val a 4) (f.bytes (a + 12) (f.val (a + 8) 4)), fwEntry := BitVec.ofNat 32 (f.val (a + 4) 4) })

/-- R371: the slot from which a restart loads: the one being patched at step 2 of R364, else the loaded one. -/
def State.fwSlot (s : State) : Option Bool :=
  match s.glb.patch with
  | some p => if p.step = 2 then some p.target else s.fsh.slot
  | none => s.fsh.slot

/-- R371, R398: the boot ROM has loaded the firmware, and it runs from ENTRY. -/
def State.startFirmware (s : State) : State :=
  let s := match s.fwSlot.bind s.fsh.firmware with
    | some a => s.copyFirmware a
    | none => s
  s.modTck (fun t => { t with st := .run, fwSeq := t.fwSeq + 1, wdStart := s.now, expired := false })

/-- R371, R375, R381, R396, R473: what a restart does at once. -/
def State.resetTack (s : State) : State :=
  ((s.ircReset.stopAllDma).semBreakOwners (· == 0x100)).abortBy (· == .tack)

/-- R398: the Tack is held in reset until LOAD; source 391 reports. -/
def State.holdTack (s : State) : State :=
  if s.tck.st = .held then s
  else
    let s := s.resetTack.modTck (fun t => { t with st := .held, held := true })
    let s := s.limited .tackHeld 0 ms (State.raise .tackHeld [.w16 (s.tck.wdResets.setWidth 16)])
    s.recordContained 391 .count false

/-- R371: the Tack restarts, for cause 1 PATCH, 2 the watchdog, 3 a fault; with the boot ROM fenced it is held (R402). -/
def State.restartTack (cause : Nat) (s : State) : State :=
  if s.tck.st = .held then s
  else if s.tck.romFenced then s.holdTack
  else
    let s := s.resetTack.modTck (fun t => { t with st := .restarting })
    s.limited .tackRestarted 0 ms (State.raise .tackRestarted [i16 cause, .w32 ((s.tck.fwSeq + 1).setWidth 32)])

/-- TACK_RESTARTED (R371): the restart, where it has not begun, and the start of the firmware at its end. -/
def execTackRestarted (cause : Nat) (s : State) := ok (
  if s.glb.inReset || s.tck.st == .held || s.tck.st == .boot then s
  else
    let s := if s.tck.st = .restarting then s else s.restartTack cause
    if s.tck.st = .restarting then s.startFirmware else s)

/-- R398: watchdog resets within 10 min. -/
abbrev tenMinutes : Nat := 600 * sec

/-- WATCHDOG_SECOND_EXPIRY (R398): a second TIMEOUT without a kick. -/
def execWatchdogSecondExpiry (s : State) := ok (
  if s.tck.st != .run || !s.tck.expired || s.deep || decide (s.now < s.tck.wdStart + 2 * s.tck.timeout.toNat * ms) then s
  else
    let times := s.now :: within tenMinutes s.now s.tck.wdTimes
    let s := s.modTck (fun t => { t with wdResets := satInc t.wdResets, wdTimes := times })
    if 4 ≤ times.length then s.holdTack else s.restartTack 2)

/-! Reactions of the sources (R402). -/

/-- R406: sources of a fenced unit are masked. -/
def State.maskSrcs (ns : List Nat) (s : State) : State := s.each ns (fun n => State.modFltSrc n (fun x => { x with fenced := true }))

/-- R312, R366: a fence that calls for no admission leads to its outcome at once. -/
def State.fenceDone (s : State) : State := if s.blw.admitPend.isSome then s else s.fenceOutcome

/-- R204, R402: a contained fault of a coding-core unit; that of the sequencer is an uncorrectable SECDED error of its pattern store, at
the thread and word that the report gives (DEDUCED, log entry 204). `inBay` says that the bay is being fenced in the same cycle (R406). -/
def State.coreUnit (n aux : Nat) (inBay forced : Bool) (s : State) : State :=
  let c := n / 8
  let u := n % 8
  if inBay then s.recordContained n .fenceBay forced
  else if u = 6 then s.machineCheck c 3 forced (aux / 8192 % 8) 0 (BitVec.ofNat 13 aux)
  else if u = 3 then
    let times := s.now :: within sec s.now (s.core c).searchFaults
    let s := s.modCore c (fun x => { x with searchFaults := times })
    if 3 ≤ times.length then
      ((((s.recordContained n .fenceUnit forced).modCore c (fun x => { x with noSearch := true })).maskSrcs [n]).unitFenced n 3).wantAdmission 1
    else (s.recordContained n .restart forced).restartCore c
  else
    let times := s.now :: within sec s.now (s.core c).faults
    let s := s.modCore c (fun x => { x with faults := times })
    if 3 ≤ times.length then (s.recordContained n .fenceCore forced).fenceCore c n
    else (s.recordContained n .restart forced).restartCore c

/-- R402: a request that waits completes as UE: a write is lost. -/
def State.failWait (w : DramWait) (s : State) : State :=
  let s := s.modDrm (fun d => { d with waits := d.waits.erase w })
  match w with
  | .read r _ =>
    let s := s.modDrm (fun d => { d with last := ⟨.ueSecded, 0⟩ })
    match r.src with
    | .core c use => s.coreReadBad c use
    | _ => s
  | _ => s

/-- R402: the line for which a FILL or DRAIN of core `c` waits completes as UE. -/
def State.failDma (c : Nat) (d : CoreDma) (s : State) : State :=
  let s := s.modCore c (fun x => { x with dma := x.dma.map (fun e => if e = d then { e with done := e.done + 1 } else e) })
  if d.fill then s.fillBad c else s

/-- A pool address lies in channel `n`. -/
def State.inChan (s : State) (n a : Nat) : Bool := (s.drm.lineOf a).any (fun x => x.1 == n)

/-- R402: the request queues of channel `n` restart: the requests in flight complete as UE. -/
def State.failRequests (n : Nat) (s : State) : State :=
  let s := s.modChan n (fun c => { c with slots := [] })
  let s := s.each (s.drm.waits.filter (fun w => s.inChan n w.request.2)) State.failWait
  s.each (List.range 32) (fun c s => s.each ((s.core c).dma.filter (fun d =>
    decide (d.done < d.lines) && s.inChan n (d.dram + 64 * d.done))) (State.failDma c))

/-- R402: a contained fault of a unit of channel `n / 4` of the sources from 268. -/
def State.chanUnit (src : Nat) (forced : Bool) (s : State) : State :=
  let n := (src - 268) / 4
  let all := (List.range 4).map (fun k => 268 + 4 * n + k)
  if (src - 268) % 4 < 2 then (((s.recordContained src .fenceUnit forced).fenceChan n 4 src).maskSrcs all)
  else
    let times := s.now :: within sec s.now (s.chan n).faults
    let s := s.modChan n (fun c => { c with faults := times })
    if 3 ≤ times.length then ((s.recordContained src .fenceUnit forced).fenceChan n 4 src).maskSrcs all
    else (s.recordContained src .restart forced).failRequests n

/-- R402: a unit whose third contained fault within 1 s is fatal: after the record, its restart or HALT. -/
def State.thirdFatal (src : Nat) (forced : Bool) (f : State → State) (s : State) : State :=
  if 2 ≤ (within sec s.now (s.fltSrc src).times).length then s.recordFatal src
  else f (s.recordContained src .restart forced)

/-- R402, source 328: packets in the VOQs are discarded; the Stitcher finds them missing and writes the gap markers. -/
def State.clearVoqs (s : State) : State :=
  s.each (s.run.voqs.map (·.1)) (fun q s =>
    (s.each ((s.voq q).queue ++ (s.voq q).early) (fun k => State.freePkt k)).modVoq q (fun v =>
      { v with queue := [], early := [], expect := v.serial }))

/-- R402: packets in the Stitcher are discarded, each context waits for its next packet, and gap markers are written. -/
def State.clearStitch (s : State) : State :=
  s.each (s.run.stitch.map (·.1)) (fun c s =>
    let x := s.stitch c
    let ks := x.held ++ x.arrived ++ x.cand.toList
    if ks.isEmpty then s
    else ((s.each ks (fun k => State.freePkt k)).modStitch c (fun x => { x with
      next := none, held := [], arrived := [], cand := none, frag := none })).gapMark c (x.next.getD 0) ks.length)

/-- R402: the items of every bitstream queue are discarded, and a gap marker is written in their place. -/
def State.clearRings (s : State) : State :=
  s.each (s.dec.map (·.1)) (fun i s =>
    if (s.decS i).items.isEmpty then s
    else (s.modDecS i (fun d => { d with items := [], rptr := d.wptr })).ringPut i (.gap 0 0))

/-- R402: a buffer of a Ladle pool is quarantined (R258). -/
def State.quarantine (p b : Nat) (forced : Bool) (s : State) : State :=
  let s := s.recordContained (333 + p) .restart forced
  let s := s.modLadle p (LdlPool.bump (fun x => { x with
    bufs := x.bufs.upd BufS.reset b (fun y => { y with quarantined := true })
    quarantined := satInc x.quarantined, quarTimes := s.now :: within sec s.now x.quarTimes }))
  if 64 < (s.ladle p).quarTimes.length then s.fencePool p else s

/-- R401: the entry of a unit that RELOAD treats as absent; while the Tack is HELD the unit is fenced. -/
def State.reload (src e : Nat) (forced : Bool) (s : State) : State :=
  if s.tck.st = .held then ((s.recordContained src .fenceUnit forced).maskSrcs [src]).unitFenced src 3
  else (s.recordContained src .reload forced).modFltSrc src (fun x => { x with
    reloading := if x.reloading.contains e then x.reloading else e :: x.reloading })

/-- R402: the line of a raster that lay in a line buffer or a converter is drawn under R172. -/
def State.redrawLost (k n : Nat) (s : State) : State :=
  s.each (s.cmp.windows.map (·.1)) (fun w s => nextOr s (execCmpLineLate w ⟨k, (s.raster k).frame, n⟩ s))

/-- R402, source 375: the raster counters are recomputed from R38. -/
def State.recount (s : State) : State :=
  s.each s.outputs (fun k s =>
    let r := s.raster k
    let m := (fmtPosition r.fmt s.time).toNat
    s.modRaster k (fun r => { r with frame := m / r.fmt.lt, line := m % r.fmt.lt }))

/-- R402: a unit that is fenced where `f` says what that takes away. -/
def State.fenceUnit (src : Nat) (forced : Bool) (f : State → State) (s : State) : State :=
  (((f (s.recordContained src .fenceUnit forced)).maskSrcs [src]).unitFenced src 3).fenceDone

/-- R402: a port or ports that are fenced, all their sources with them. -/
def State.fencePorts (src : Nat) (forced : Bool) (srcs : List Nat) (f : State → State) (s : State) : State :=
  ((f (s.recordContained src .fenceUnit forced)).maskSrcs srcs).fenceDone

/-- R402: Ethernet port `p`. -/
def State.fenceEthAll (p src : Nat) (s : State) : State := (s.fenceEth p src).maskSrcs [316 + p, 320 + p]
/-- R402: source port `n`. -/
def State.fenceDpoAll (n src : Nat) (s : State) : State := (s.fenceDpo n src).maskSrcs [345 + n, 353 + n]
/-- R402: sink port `n`. -/
def State.fenceDpiAll (n src : Nat) (s : State) : State := (s.fenceDpi n src).maskSrcs [361 + n, 365 + n]
/-- R402, R421: the Girth link is fenced: it is LOST until LOAD. -/
def State.fenceGirth (src : Nat) (s : State) : State :=
  (((s.modGrt (fun g => { g with fenced := true })).maskSrcs [393, 394, 395, 396, 397]).unitFenced src 3).linkLost 3

/-- R402: the bay that a source fences. -/
def fencesBay (n : Nat) : Option Nat := if 256 ≤ n then srcBay n else none

/-- R402: sources that report the fatal class alone. -/
def fatalOnly (n : Nat) : Bool :=
  n == 331 || n == 398 || n == 403 || n == 408 || decide (413 ≤ n)

/-- R402: the contained reaction of a source of the Tack's units (376 to 392). -/
def State.tackUnit (n aux : Nat) (forced : Bool) (s : State) : State :=
  match n with
  | 376 => s.reload n aux forced
  | 377 => (s.recordContained n .restart forced).startStream (s.poolD aux).stream.toNat true
  | 378 | 379 | 385 => (s.recordContained n .restart forced).restartTack 3
  | 380 => s.fenceUnit n forced (State.modTck (fun t => { t with romFenced := true }))
  | 381 => s.fenceUnit n forced (State.modFsh (fun f => { f with fenced := true }))
  | 382 => s.fenceUnit n forced (fun s => s.stopAllDma.modTck (fun t => { t with dmaFenced := true }))
  | 383 =>
    let times := s.now :: within sec s.now s.log.writerFaults
    let lost := s.log.postq.length
    if 2 ≤ times.length then s.recordFatal n
    else
      let s := s.modLog (fun l => { l with
        writerFaults := times, postq := [], lost := satNat 16 (l.lost.toNat + lost), lostPend := l.lostPend + lost })
      s.recordContained n .restart forced
  | 384 => s.fenceUnit n forced id
  | 386 => s.fenceUnit n forced (State.modTck (fun t => { t with snsFenced := true }))
  | 387 => (s.recordContained n .restart forced).semBreakOwners (fun _ => true)
  | 388 => s.fenceUnit n forced (State.modTck (fun t => { t with pmbFenced := t.pmbFenced ||| 1 }))
  | 389 => s.fenceUnit n forced (State.modTck (fun t => { t with pmbFenced := t.pmbFenced ||| 2 }))
  | 390 => s.fenceUnit n forced (State.modTck (fun t => { t with uartFenced := true }))
  | 391 => s.recordContained n .count forced
  | _ => ((((s.recordContained n .fenceUnit forced).modBlw (fun b => { b with fenced := true })).maskSrcs [n]).unitFenced n 3).wantAdmission 1

/-- R86, R87, R402: a tile state entry is lost to a fault of its memory: it becomes LOST, with the event where it was not; no picture is
its cause, so PIC_COUNT is a free value. -/
def State.tileFault (i n : Nat) (s : State) : State :=
  s.withLedger i (fun s =>
    let was := (s.tile i n).cond
    let s := s.modTile i n (fun t => { t with cond := .lost, cause := .loss, known := false, tv := false })
    if was = .lost then s
    else s.tickFree.ledgerEvent .tileLost i (Config.freeWord s.freeCtr) [i32 1, tileItem (s.decS i).cols n])

/-- R402: the contained reaction of the Runner's and the compositor's units (316 to 344). -/
def State.pathUnit (n aux : Nat) (forced : Bool) (s : State) : State :=
  if n < 324 then s.fencePorts n forced [] (State.fenceEthAll ((n - 316) % 4) n)
  else if n < 326 then ((s.recordContained n .fenceUnit forced).fencePlane (n - 324) n).maskSrcs [n]
  else match n with
    | 326 | 327 | 330 | 339 => s.reload n aux forced
    | 328 => s.thirdFatal n forced State.clearVoqs
    | 329 => s.thirdFatal n forced State.clearStitch
    | 337 => s.thirdFatal n forced State.clearRings
    | 332 => (s.recordContained n .restart forced).modRun (fun r => { r with handles := r.handles.upd 0 (aux % 8) (· + 1) })
    | 333 | 334 | 335 | 336 => s.quarantine (n - 333) aux forced
    | 338 => (s.recordContained n .restart forced).modRun (fun r => { r with
        stats := r.stats.mapAll QStat.reset (fun _ x => { x with maxNow := x.depth, delayNow := 0 }) })
    | 340 => (s.recordContained n .restart forced).tileFault (aux / 65536) (aux % 65536)
    | 341 | 342 => (s.recordContained n .restart forced).redrawLost (aux / 65536) (aux % 65536)
    | 343 => s.fenceUnit n forced (fun s => (s.modCmp (fun c => { c with gateFenced := true })).modFlt (fun f => { f with gateOut := true }))
    | _ => s.fenceUnit n forced (State.modFlt (fun f => { f with st2110Out := true }))

/-- R402, R406: the contained reaction of source `n` is taken; `bays` are the bays being fenced in the same cycle. -/
def State.contain (bays : List Nat) (n aux : Nat) (forced : Bool) (s : State) : State :=
  if s.glb.mode = .halt then s
  else if fatalOnly n then s.recordFatal n
  else match fencesBay n with
    | some b => (s.recordContained n .fenceBay forced).fenceBay b n
    | none =>
      if n < 256 then s.coreUnit n aux (bays.contains (n / 64)) forced
      else if n < 316 then s.chanUnit n forced
      else if n < 345 then s.pathUnit n aux forced
      else if n < 361 then s.fencePorts n forced [] (State.fenceDpoAll ((n - 345) % 8) n)
      else if n < 369 then s.fencePorts n forced [] (State.fenceDpiAll ((n - 361) % 4) n)
      else if n < 374 then s.fencePorts n forced [369, 370, 371, 372, 373] (State.fenceHost n)
      else if n = 374 then s.fencePorts n forced [374] (State.fenceClock n)
      else if n = 375 then (s.recordContained n .restart forced).recount
      else if n < 393 then s.tackUnit n aux forced
      else if n < 398 then s.fencePorts n forced [] (State.fenceGirth n)
      else if n = 404 then s.fencePorts n forced [n] (fun s => s.each (List.range 4) (fun p => State.fenceEthAll p n))
      else if n = 405 then s.fencePorts n forced [369, 370, 371, 372, 373, n] (State.fenceHost n)
      else if n = 406 then s.fencePorts n forced [n] (fun s =>
        (s.each (List.range 8) (fun p => State.fenceDpoAll p n)).each (List.range 4) (fun p => State.fenceDpiAll p n))
      else s.fencePorts n forced [n] (State.fenceGirth n)

/-- R403, R430: a corrected report; the 256th within 1 s receives the contained reaction once. -/
def State.correct (n aux : Nat) (s : State) : State :=
  let times := s.now :: within sec s.now (s.fltSrc n).ceTimes
  let s := (s.recordCorrected n).modFltSrc n (fun x => { x with ceTimes := if 256 ≤ times.length then [] else times })
  if 256 ≤ times.length then s.contain [] n aux false else s

/-! A cycle of the collector (R406). -/

/-- R406: one report that is not masked, of a cycle with no fatal report before it. -/
def State.takeReport (bays : List Nat) (forced : Bool) (r : Report) (s : State) : State :=
  if 416 ≤ r.src || s.masked r.src || s.glb.mode == .halt then s
  else match r.cls with
    | .none => s
    | .corrected => s.correct r.src r.aux
    | .contained => s.contain bays r.src r.aux forced
    | .fatal => s.recordFatal r.src

/-- R406: a report that a fatal one pre-empts is logged. -/
def State.logReport (r : Report) (s : State) : State :=
  s.modFltSrc r.src (fun x => match r.cls with
    | .corrected => { x with last := 1, ce := satInc x.ce }
    | .contained => { x with last := 2, ct := satInc x.ct }
    | _ => x)

/-- R406: reports of one class by ascending source. -/
def ofClass (c : FaultClass) (rs : List Report) : List Report :=
  (rs.filter (fun r => r.cls == c)).mergeSort (fun a b => decide (a.src ≤ b.src))

/-- R402, R406: source `n` lies in the ports of a PLL whose fence is taken in the same cycle. -/
def inPllFence (srcs : List Nat) (n : Nat) : Bool :=
  (srcs.contains 404 && decide (316 ≤ n) && decide (n < 324)) || (srcs.contains 405 && decide (369 ≤ n) && decide (n < 374)) ||
  (srcs.contains 406 && decide (345 ≤ n) && decide (n < 369)) || (srcs.contains 407 && decide (393 ≤ n) && decide (n < 398))

/-- R406: the reports of one cycle: fatal, contained, corrected, by ascending source within a class. -/
def State.collect (forced : Bool) (rs : List Report) (s : State) : State :=
  let live := rs.filter (fun r => decide (r.src < 416) && !s.masked r.src)
  match ofClass .fatal live with
  | f :: _ => (s.recordFatal f.src).each (live.filter (fun r => r.cls != .fatal)) (fun r => State.logReport r)
  | [] =>
    let bays := ((ofClass .contained live).filterMap (fun r => fencesBay r.src)).eraseDups
    let pll := inPllFence ((ofClass .contained live).map (·.src))
    let s := s.each ((ofClass .contained live).filter (fun r => pll r.src)) (fun r => State.recordContained r.src .fenceUnit forced)
    let s := s.each ((ofClass .contained live).filter (fun r => !pll r.src)) (State.takeReport bays forced)
    s.each (ofClass .corrected live) (State.takeReport [] forced)

/-- R435: the collector runs: the part is out of reset, and not in HALT. -/
def State.collects (s : State) : Bool := !s.glb.inReset && s.glb.mode != .halt

/-- FAULT_REPORT (R406): the reports of one collector cycle. -/
def execFaultReport (rs : List Report) (s : State) := ok (if s.collects then s.collect false rs else s)

/-- RELOAD_DONE (R401): the Tack has rewritten the unit's entries; while it is RESTARTING the reload waits. -/
def execReloadDone (src : Nat) (s : State) := ok (
  if s.tck.st = .run then s.modFltSrc src (fun x => { x with reloading := [] }) else s)

/-- R405: a wire fault: WIRE, FLT_WIRE and the contained reaction. -/
def State.wireFault (n : Nat) (s : State) : State :=
  let s := ((s.modFltSrc n (fun x => { x with wire := true, wireFail := false })).latch 38).limited .fltWire n ms (State.raise .fltWire [i16 n])
  s.contain [] n 0 false

/-- WIRE_CHECK (R405, R407): the check of a source in its slot; the second failure in a row is a wire fault. -/
def execWireCheck (n : Nat) (pass : Bool) (s : State) := ok (
  if !s.collects || 416 ≤ n || s.masked n then s
  else if pass && !(s.fltSrc n).forceWire then s.modFltSrc n (fun x => { x with wireFail := false })
  else if (s.fltSrc n).wireFail then s.wireFault n
  else s.modFltSrc n (fun x => { x with wireFail := true }))

/-- WIRE_CODE_INVALID (R404, R405): an invalid code on a pair for 4 collector cycles. -/
def execWireCodeInvalid (n : Nat) (s : State) := ok (
  if !s.collects || 416 ≤ n || s.masked n then s else s.wireFault n)

/-- R404: the class of a code. -/
def classOfCode (c : BitVec 2) : FaultClass :=
  match c with
  | 0 => .none
  | 1 => .corrected
  | 2 => .contained
  | _ => .fatal

/-- R407: an accepted write to FLT_SRC: the source reports a class that appears; the collector acts once. -/
def State.setFltSrc (n : Nat) (v : Word) (s : State) : State :=
  let c : BitVec 2 := v.extractLsb' 30 2
  let old := (s.fltSrc n).force
  let s := s.modFltSrc n (fun x => { x with force := c, forceWire := v.getLsbD 29 })
  if c = 0 || c == old || !s.collects then s else s.collect true [⟨n, classOfCode c, 0⟩]

/-- FAULT_FORCE (R407): a write to FLT_SRC of a source; FORCE = 0b11 is refused without FORCE_FATAL_EN. -/
def execFaultForce (w : Writer) (n : Nat) (v : Word) (s : State) := ok (
  if 416 ≤ n then s
  else match s.writeReason w false (.fltSrc n) v with
    | some k => s.werr w k (0x10000 + 4 * n)
    | none => s.setFltSrc n v)

/-- R430, R462: a write to FLT_STAT of the SEQ in force clears NEW. -/
def State.setFltStat (v : Word) (s : State) : State :=
  if v.extractLsb' 24 8 = s.flt.seq then s.modFlt (fun f => { f with new := false }) else s

/-- FLT_STAT_CLEAR (R430, R462). -/
def execFltStatClear (v : Word) (s : State) := ok (s.setFltStat v)

end Sys2Proof.Machine
end

