-- ==== Sys2Proof/Machine/ModeReq.lean ====
section
/-! DEFINITION. Mode requests, REST, and the confirmation of an adoption (R354, R360 to R362, R366, R368). -/

namespace Sys2Proof.Machine

/-! REST (R362). -/

/-- R362: the power state that a REST sub-state puts the cores in. -/
def restState (depth : BitVec 2) : PState := if depth = 0 then .c2 else .c4

/-- R362: the cores enter the sub-state's power state. -/
def State.restCores (depth : BitVec 2) (s : State) : State :=
  s.each (List.range 32) (fun c s =>
    if (s.core c).fenced || stateDepth (restState depth) ≤ stateDepth (s.core c).pstate then s else s.powerDown c (restState depth))

/-- R362: in DOZE and DEEP the ports, the Girth link and the grandmaster are gone. -/
def State.restPorts (s : State) : State :=
  let s := s.each (List.range 4) (fun p s => if (s.eth p).link then (s.modEth p (fun e => { e with link := false })).latch (185 + p) else s)
  let s := s.each (List.range 8) (fun n s =>
    (s.modDpo n (fun p => { p with linkRate := 0, lanes := 0 })).setDpoLink n .down)
  let s := s.each (List.range 4) (fun n s =>
    (s.modDpi n (fun p => { p with hpd := false, linkRate := 0, lanes := 0 })).setDpiLink n .down)
  let s := if s.ras.clk.st = .locked ∨ s.ras.clk.st = .relocking then
      ((s.modClk (fun c => { c with holdStart := s.now })).clkState .holdover .clockHoldover []).noteClk
    else s
  (s.setLink .down).modGrt (fun g => { g with unacked := [], sendq := [], tries := 0, authOk := false })

/-- R220: every merge buffer entry of a channel is read, merged and written. -/
def State.flushAll (n : Nat) (s : State) : State := s.each (s.chan n).merge (State.flushMerge n)

/-- R362: in DEEP the DRAM is in self-refresh. -/
def State.restDram (new old : ChanState) (s : State) : State :=
  s.each (List.range 12) (fun n => State.modChan n (fun c => if c.st = old then { c with st := new } else c))

/-- R362: a REST sub-state is entered. -/
def State.enterRest (depth : BitVec 2) (s : State) : State :=
  let s := (s.modGlb (fun g => { g with
    waking := false, restFrom := s.now, restHigh := (List.range 256).filter s.ircLevel })).restCores depth
  let s := if depth = 0 then s else s.restPorts
  let s := if depth = 2 then (s.each (List.range 12) State.flushAll).restDram .selfRefresh .active else s
  s.setMode .rest s.glb.role depth

/-- R383: timers that stopped in DEEP go on with their counts. -/
def State.resumeTimers (s : State) : State :=
  if !s.deep then s
  else s.modTck (fun t => { t with timers := t.timers.mapAll Timer.reset (fun _ x =>
    if x.enable then { x with startAt := x.startAt + (s.now - s.glb.restFrom) } else x), wdStart := t.wdStart + (s.now - s.glb.restFrom) })

/-- R176: HPD of the sink ports that are enabled. -/
def State.assertHpd (s : State) : State :=
  s.each (List.range 4) (fun n => State.modDpi n (fun p => { p with hpd := p.enable && !p.fenced && !p.pulse }))

/-- R362, R375: a wake cause has come: a request or a pin, or the level of a source with WAKE = 1 has risen since REST began. -/
def State.wakeDue (s : State) : Bool :=
  s.glb.waking || (List.range 256).any (fun n => (s.ircSrc n).wake && s.ircLevel n && !s.glb.restHigh.contains n)

/-- REST_EXIT_DONE (R362): the exit latency has passed: MODE reads SOLO again. -/
def execRestExitDone (s : State) := ok (
  if s.glb.mode != .rest || !s.wakeDue then s
  else
    let s := (s.resumeTimers.restDram .active .selfRefresh).modGlb (fun g => { g with waking := false })
    (s.setMode .solo s.glb.role 0).trainLink.assertHpd.askWakes)

/-- WAKE_PIN (R362): WAKE_N low is a wake cause in each sub-state. -/
def execWakePin (s : State) := ok s.wake

/-! Requests (R368). -/

/-- R368: a request is refused. -/
def State.refuseReq (why : BitVec 3) (s : State) : State := s.modGlb (fun g => { g with refused := true, reason := why })
/-- R368: a request is acted on. -/
def State.takeReq (s : State) : State := s.modGlb (fun g => { g with refused := false, reason := 0 })

/-- R354, R362: REQ = REST. -/
def State.reqRest (depth : BitVec 2) (s : State) : State :=
  if s.glb.mode = .patch ∨ s.glb.waking then s.refuseReq 1
  else if !s.mayRest then s.refuseReq 2
  else s.takeReq.enterRest depth

/-- R362, R368: REQ = WAKE. -/
def State.reqWake (s : State) : State := s.takeReq.wake

/-- R366: REQ = DEMOTE. -/
def State.reqDemote (s : State) : State :=
  if s.glb.mode != .lead || !s.twinShadow then s.refuseReq 3
  else if s.glb.demoting then s
  else s.takeReq.handOver true

/-- R368: an accepted write to GLB_MODE_REQ. -/
def State.setModeReq (v : Word) (s : State) : State :=
  let s := s.modGlb (fun g => { g with depth := v.extractLsb' 26 2 })
  match (v.extractLsb' 28 4).toNat with
  | 1 => s.reqRest (v.extractLsb' 26 2)
  | 2 => s.reqWake
  | 3 => s.reqDemote
  | _ => s

/-- R368: a write to GLB_MODE_REQ whose REQ is `code`. -/
def State.writeModeReq (w : Writer) (code : Nat) (v : Word) (s : State) : State :=
  if (v.extractLsb' 28 4).toNat != code || s.glb.inReset || s.glb.mode == .halt then s
  else match s.writeReason w false .glbModeReq v with
    | some k => s.werr w k 0x14
    | none => s.setModeReq v

/-- REQ_REST (R362): REQ = REST. -/
def execReqRest (w : Writer) (v : Word) (s : State) := ok (s.writeModeReq w 1 v)
/-- REQ_WAKE (R368): REQ = WAKE. -/
def execReqWake (w : Writer) (v : Word) (s : State) := ok (s.writeModeReq w 2 v)
/-- REQ_DEMOTE (R366): REQ = DEMOTE. -/
def execReqDemote (w : Writer) (v : Word) (s : State) := ok (s.writeModeReq w 3 v)

/-! Adoption (R360, R361). -/

/-- R360, R368: CONFIRM = 0xAD0F while ADOPT_WAIT is 1: the record is written and the role taken. -/
def State.confirmAdoption (v : Word) (s : State) : State :=
  if v.extractLsb' 16 16 = (0xAD0F : BitVec 16) ∧ s.glb.adoptWait ∧ s.glb.mode = .adopt then ((s.writeAdoption 2).adoptOutcome 4).takeRole else s

/-- ADOPT_CONFIRM (R368): a write of CONFIRM. -/
def execAdoptConfirm (v : Word) (s : State) := ok (s.confirmAdoption v)

/-- TWIN_WAIT_EXPIRY (R361): TWIN_WAIT has passed since the start of ADOPT. -/
def execTwinWaitExpiry (s : State) := ok (if s.glb.mode = .adopt ∧ s.twinWaitOver then s.adoptStep else s)

end Sys2Proof.Machine
end

