-- ==== Sys2Proof/Machine/RegTop.lean ====
section
/-! DEFINITION. Writes of registers with their effects, the commit of transactions, and the TXN block (R457 to R475). -/

namespace Sys2Proof.Machine

/-! Queue doorbells (R277). -/

/-- R277, R297: HQ_QUEUE_ERROR of a queue for a value that is ignored. -/
def State.queueError (q v : Nat) (s : State) : State :=
  (s.latch 199).limited .hqQueueError q ms (State.raiseFn (s.hqQ q).func.toNat .hqQueueError [i16 q, i32 v])

/-- R277: a new SQ tail, when it lies further ahead of the head; a value not less than the size is ignored. -/
def State.newTail (q v : Nat) (s : State) : State :=
  let x := s.hqQ q
  if x.sqSize ≤ v then s.queueError q v
  else
    let ahead (t : Nat) : Nat := (t + x.sqSize - x.sqHead) % x.sqSize
    if ahead x.sqTail < ahead v then s.modHqQ q (fun x => { x with sqTail := v }) else s

/-- R277: a new CQ head; space in the CQ lets completions that wait be written. Of a polled queue's two values the newer
applies: one behind the head would lie beyond the tail. -/
def State.newHead (q v : Nat) (s : State) : State :=
  let x := s.hqQ q
  let ahead (t : Nat) : Nat := (t + x.cqSize - x.cqHead) % x.cqSize
  if x.cqSize ≤ v then s.queueError q v
  else if x.poll ≠ 0 ∧ ahead x.cqTail < ahead v then s
  else
    let s := s.modHqQ q (fun x => { x with cqHead := v })
    if x.kind = .output then s.pageEntry x.stream else s

/-- R277: a doorbell write of queue `q`: SQ tail, or CQ head. -/
def State.doorbell (q : Nat) (cq : Bool) (v : Word) (s : State) : State :=
  if !(s.hqQ q).valid || s.hq.fenced then s
  else
    let n := (v &&& 0xFFFF).toNat
    let s := s.wakeBy true
    if cq then (s.modHqQ q (fun x => { x with dbCq := v.setWidth 16 })).newHead q n
    else (s.modHqQ q (fun x => { x with dbSq := v.setWidth 16 })).newTail q n

/-- R275, R296: a write to HQ_CTL: ENABLE makes the admin queue, empty; ENABLE = 0 takes it out of service. -/
def State.setHqCtl (v : Word) (s : State) : State :=
  let on := v.getLsbD 31
  let was := s.hq.enable
  let s := s.modHq (fun h => { h with enable := on, aqSizeM1 := v.extractLsb' 0 16 })
  if on && !was then
    let n := (v &&& 0xFFFF).toNat + 1
    s.modHqQ 0 (fun _ => { HqQueue.reset with
      valid := true, sqSize := n, cqSize := n, sqBase := s.hq.asqBase, cqBase := s.hq.acqBase })
  else if !on && was then s.modHqQ 0 (fun x => { x with valid := false })
  else s

/-! Outputs and inputs (R52, R176, R182). -/

/-- R427: the journal's number for INTENT of output raster `k`, beyond the address map. -/
def intentKey (k : Nat) : Nat := 0x4000000 + k

/-- R427: the journal takes a value. -/
def State.journalPut (a : Nat) (v : Word) (s : State) : State := s.modTxn (fun x => { x with journal := x.journal.put none a (some v) })

/-- R182: INTENT of an output raster, held by the journal. -/
def State.setIntent (k : Nat) (b : Bool) (s : State) : State :=
  (s.modOutP k (fun p => { p with intent := b })).journalPut (intentKey k) (if b then 1 else 0)

/-- R174: DPO_CTL; FORMAT, RANGE and DEPTH wait for the frame boundary of R52, but for LOAD. -/
def State.setDpo (n : Nat) (v : Word) (s : State) : State :=
  let s := s.modDpo n (fun p => { p with
    format := v.extractLsb' 28 2, range := v.getLsbD 27, depth := v.getLsbD 26
    video := if s.glb.loaded then p.video else v.extractLsb' 26 4 })
  s.setIntent n (v.getLsbD 31)

/-- R176: HPD of a sink port is pulsed low. -/
def State.pulseHpd (n : Nat) (s : State) : State :=
  s.modDpi n (fun p => if p.hpd || p.pulse then { p with hpd := false, pulse := true } else p)

/-- R52, R176: an input raster whose configured format changes returns to ACQUIRING, and what a DisplayPort source sends is held
against the new format. -/
def State.reacquire (k : Nat) (s : State) : State :=
  let s := (((s.modRaster k Raster.forget).setInState k .acquiring).dropMisfits k).raise .rasterRetimed [i16 k]
  if 20 ≤ k then s
  else match (s.dpi (k - 16)).stream with
    | some m => s.judgeStream (k - 16) m
    | none => s

/-- R176, R177: word 0 of DPI_CTL; a write of it, and so of EDID_LEN, after LOAD pulses HPD. -/
def State.setDpi (n : Nat) (v : Word) (s : State) : State :=
  let p := s.dpi n
  let q := { p with
    enable := v.getLsbD 31, format := v.extractLsb' 29 2, range := v.getLsbD 28, depth := v.getLsbD 27, edidLen := v.extractLsb' 24 3 }
  let s := s.modDpi n (fun _ => { q with hpd := q.enable && !p.fenced && !p.pulse && s.linksUp })
  if !s.glb.loaded then s
  else
    let s := if q.format ≠ p.format ∨ q.range ≠ p.range ∨ q.depth ≠ p.depth then s.reacquire (16 + n) else s
    let s := s.pulseHpd n
    if p.enable && !q.enable then nextOr s (execDpiLinkDown n s) else s

/-- R177: a word of the EDID. -/
def State.setEdid (n i : Nat) (v : Word) (s : State) : State :=
  (s.modDpi n (fun p => { p with edid := p.edid.put 0 i v })).whenB s.glb.loaded (State.pulseHpd n)

/-! Streams (R115, R312, R477). -/

/-- An encode stream that is disabled holds no picture. -/
def State.stopEncode (i : Nat) (s : State) : State :=
  let s := s.modCores (fun t => t.mapAll CoreS.reset (fun _ c => if c.encTask = some i then { c with encTask := none } else c))
  s.modEncS i (fun e => { EncStream.reset with cfg := e.cfg, shed := none })

/-- A decode stream that is disabled is IDLE. -/
def State.stopDecode (i : Nat) (s : State) : State :=
  s.withLedger i (State.withStatus i (fun s => (((s.dropTasks i).clearContext i).freeBuffers i).modDecS i (fun d => { d with
    st := .idle, dualNow := false, ringBase := none, shed := none })))

/-- R477: a word of a stream's configuration, and what disabling the stream does. -/
def State.setStream (i w : Nat) (v : Word) (s : State) : State :=
  let t := s.setStreamWord i w v
  let t := if (s.encS i).cfg.enabled && !(t.encS i).cfg.enabled then t.stopEncode i else t
  if (s.decS i).cfg.enabled && !(t.decS i).cfg.enabled then t.stopDecode i else t

/-- R312: of decode streams, the settings whose change starts admission. -/
def State.decView (s : State) : List (Nat × DecCfg) :=
  s.dec.map (fun x => (x.1, { DecCfg.reset with
    enabled := x.2.cfg.enabled, cls := x.2.cfg.cls, maxW := x.2.cfg.maxW, maxH := x.2.cfg.maxH, maxRate := x.2.cfg.maxRate
    valueTiles := x.2.cfg.valueTiles }))

/-- R312: of encode streams. -/
def State.encView (s : State) : List (Nat × EncCfg) :=
  s.enc.map (fun x => (x.1, { EncCfg.reset with
    enabled := x.2.cfg.enabled, cls := x.2.cfg.cls, width := x.2.cfg.width, height := x.2.cfg.height }))

/-- R312: none of the settings that start admission differs between two states. -/
def sameAdmission (a b : State) : Bool :=
  a.decView == b.decView && a.encView == b.encView && (List.range 8).all (fun p => (a.part p).rank == (b.part p).rank)

/-! Accepted writes (R457). -/

/-- R477: the addresses of the words of a pattern store word. -/
def bankAddr (c k a w : Nat) : Nat := 0x3600000 + 0x50000 * c + 0x28000 * k + 20 * a + 4 * w

/-- R465: the holding word of a writer for an address. -/
def Hq.held (h : Hq) (w : Writer) (a : Nat) : Option Word := (h.wideLow.find? (fun x => x.1 == w && x.2.1 == a)).map (·.2.2)

/-- R465: a holding word is set. -/
def State.hold (w : Writer) (a : Nat) (v : Word) (s : State) : State :=
  s.modHq (fun h => { h with wideLow := (w, a, v) :: h.wideLow.filter (fun x => !(x.1 == w && x.2.1 == a)) })

/-- R465: holding words of a writer are dropped. -/
def State.unhold (w : Writer) (p : Nat → Bool) (s : State) : State :=
  s.modHq (fun h => { h with wideLow := h.wideLow.filter (fun x => !(x.1 == w && p x.2.1)) })

/-- R477: words of a pattern store word are taken in ascending order alone. -/
def State.bankOrder (s : State) (w : Writer) (c k a i : Nat) : Bool :=
  (List.range i).all (fun j => (s.hq.held w (bankAddr c k a j)).isSome)

/-- R477: a word of a pattern store word: the fifth completes it. -/
def State.setBank (w : Writer) (c k a i : Nat) (v : Word) (s : State) : State :=
  let mine (x : Nat) : Bool := decide (0x3600000 ≤ x)
  if i = 0 then (s.unhold w mine).hold w (bankAddr c k a 0) v
  else if i < 4 then s.hold w (bankAddr c k a i) v
  else
    let ws := (List.range 4).map (fun j => (s.hq.held w (bankAddr c k a j)).getD 0)
    let x : BitVec 160 := (ws ++ [v]).zipIdx.foldl (fun x p => setMicro x p.2 p.1) 0
    (s.unhold w mine).modCore c (fun y => { y with words := y.words.put 0 (bankWord k a) x })

/-- R465: a word of a wide value: the low word is held for the writer, and the high word sets both; a transaction and
MAP_WRITE set each word alone. -/
def State.setWide (w : Writer) (alone : Bool) (a : Nat) (h : Nat) (get : Hq → BitVec 64) (put : BitVec 64 → Hq → Hq) (v : Word) (s : State) : State :=
  if alone then s.modHq (fun x => put (setHalf (get x) h v) x)
  else if h = 0 then s.hold w a v
  else
    let low := (s.hq.held w a).getD ((get s.hq).setWidth 32)
    (s.unhold w (· == a)).modHq (put (v ++ low))

/-- R378, R380, R381: word 0 of a DMA channel. -/
def State.setDma (k : Nat) (v : Word) (s : State) : State :=
  let s := s.modDma k (fun c => { c with trig := v.extractLsb' 28 2, timer := v.extractLsb' 26 2, srcCh := v.extractLsb' 23 3, level := false })
  if !v.getLsbD 31 then (s.stopChannel k).dmaArbitrate
  else
    let s := s.modDma k (fun c => if c.st = .stopped then { c with enable := true, st := .idle, busErr := false, overrun := false }
      else { c with enable := true })
    if v.getLsbD 30 then s.dmaStartAll [k] else s

/-- R395: OP of a semaphore. -/
def State.semOp (n : Nat) (o : BitVec 9) (v : Word) (s : State) : State :=
  match v.extractLsb' 0 2 with
  | 1 => s.semRelease n o
  | 2 => s.semRecover n o
  | 3 => s.semBreakOp n o
  | _ => s

/-- R457: an accepted write to a register; `inTxn` says that a transaction makes it, `scope` is the scope of the write. -/
def State.putReg (w : Writer) (inTxn : Bool) (scope : Option Nat) (r : Reg) (v : Word) (s : State) : State :=
  match r with
  | .glbModeReq => s.setModeReq v
  | .glbAdopt => (s.setPlain r v).confirmAdoption v
  | .werr 0 => if v.extractLsb' 24 8 = s.glb.werrSeq then s.modGlb (fun g => { g with werrReason := 0, werrWriter := 0, werrAddr := 0 }) else s
  | .fltSrc n => s.setFltSrc n v
  | .fltStat => s.setFltStat v
  | .ircEoi => nextOr s (execIrcEoi v s)
  | .ircAck => nextOr s (execIrcBlkAck v s)
  | .lineEvent e i => s.setEvent scope e i v
  | .sem n 1 => s.semOp n (writerOwner w) v
  | .corFault c => nextOr s (execCorFaultClear c v s)
  | .ptnCtl c => if v.getLsbD 31 then nextOr s (execPtnSwap c s) else s
  | .dpo n => s.setDpo n v
  | .dpi n 0 => s.setDpi n v
  | .dpi n 1 => nextOr s (execDpiReasonClear n v s)
  | .edid n i => s.setEdid n i v
  | .errq n 0 => nextOr s (execDrmErrqRetire n v s)
  | .hqCtl => s.setHqCtl v
  | .asq h => s.setWide w (inTxn || w == .image) 0x50C008 h (·.asqBase) (fun x y => { y with asqBase := x }) v
  | .acq h => s.setWide w (inTxn || w == .image) 0x50C010 h (·.acqBase) (fun x y => { y with acqBase := x }) v
  | .doorbell q i => s.doorbell q (i == 1) v
  | .wdog => s.modTck (Tck.wdogApply s.now v)
  | .timer j 2 => nextOr s (execTimerAck j s)
  | .dma k 0 => s.setDma k v
  | .uart 3 => nextOr s (execUartTxWrite v s)
  | .uart 4 => nextOr s (execUartStatusClear v s)
  | .streamCfg i k => s.setStream i k v
  | .bank c k a i => s.setBank w c k a i v
  | _ => s.setPlain r v

/-- R463: the reason for which a write is refused, the rules of the line event table and of the pattern store included. -/
def State.refusal (s : State) (w : Writer) (inTxn : Bool) (scope : Option Nat) (r : Reg) (v : Word) : Option (BitVec 4) :=
  match s.writeReason w inTxn r v with
  | some k => some k
  | none => match r with
    | .lineEvent e 0 => if s.armBad scope e v then some 1 else none
    | .bank c k a i => if s.bankOrder w c k a i then none else some 1
    | _ => none

/-! Commit (R470 to R472). -/

/-- R471: the buffered writes are applied in order; with the first address that is refused. -/
def State.applyWrites (w : Writer) (scope : Option Nat) (ws : List (Nat × Word)) (s : State) : State × Option Nat :=
  ws.foldl (fun (x : State × Option Nat) (p : Nat × Word) =>
    match x.2 with
    | some _ => x
    | none =>
      if intentKey 0 ≤ p.1 then (x.1.setIntent (p.1 - intentKey 0) (p.2 == (1 : Word)), none)
      else match regAt p.1 with
        | none => (x.1, some p.1)
        | some r =>
          if !r.rw then x
          else match x.1.refusal w true scope r p.2 with
            | some _ => (x.1, some p.1)
            | none => (x.1.putReg w true scope r p.2, none)) (s, none)

/-- R168: an integer factor of 1 to 8. -/
def factorOk (src dst : Nat) : Bool := (List.range 8).any (fun m => dst == (m + 1) * src)

/-- R170: source samples that a window reads in a second of its raster, each tap line of a downscaled one counted; one that is downscaled
only across its lines has no tap lines (DESIGN CHOICE, log entry 196). -/
def State.windowRate (s : State) (x : Window) : Nat :=
  let f := (s.raster x.raster.toNat).fmt
  let down := !x.value && decide (x.dstH.toNat < x.srcH.toNat)
  let lines := if down then 2 * tapReach x.srcH.toNat x.dstH.toNat * x.dstH.toNat else x.srcH.toNat
  x.srcW.toNat * lines * f.num / f.den

/-- R170: active pixels that output raster `k` carries in a second. -/
def State.rasterRate (s : State) (k : Nat) : Nat :=
  let f := (s.raster k).fmt
  if s.rasterUsed k then f.width * f.la * f.num / f.den else 0

/-- R163: the destination rectangle lies in the raster's active area. -/
def State.insideRaster (s : State) (x : Window) : Bool :=
  let f := (s.raster x.raster.toNat).fmt
  decide (x.dstX.toNat + x.dstW.toNat ≤ f.width) && decide (x.dstY.toNat + x.dstH.toNat ≤ f.la)

/-- The destination rectangles of two windows of a raster overlap. -/
def Window.overlaps (a b : Window) : Bool :=
  a.raster == b.raster &&
  decide (a.dstX.toNat < b.dstX.toNat + b.dstW.toNat) && decide (b.dstX.toNat < a.dstX.toNat + a.dstW.toNat) &&
  decide (a.dstY.toNat < b.dstY.toNat + b.dstH.toNat) && decide (b.dstY.toNat < a.dstY.toNat + a.dstH.toNat)

/-- R163: two windows may stand together: those of one LAYER do not overlap, and nothing above a value window overlaps it. -/
def Window.apart (a b : Window) : Bool :=
  !a.overlaps b || (a.layer != b.layer && !(a.value && decide (a.layer < b.layer)) && !(b.value && decide (b.layer < a.layer)))

/-- No two windows of a list break R163. -/
def windowsApart : List Window → Bool
  | [] => true
  | a :: r => r.all a.apart && windowsApart r

/-- R168: one factor of 1 to 8 in both directions, and a stream and an output whose samples need no conversion; a stream whose
SPS is not known yet meets what is asked of it. -/
def State.valueOk (s : State) (x : Window) : Bool :=
  let k := x.raster.toNat
  let d := s.decS x.stream.toNat
  let o := s.nextFormat k
  factorOk x.srcW.toNat x.dstW.toNat && factorOk x.srcH.toNat x.dstH.toNat &&
  x.dstW.toNat * x.srcH.toNat == x.dstH.toNat * x.srcW.toNat && !s.halfChroma k &&
  (d.sps.isNone || (d.grid.chroma == 3 && d.colour.matrix == o.matrix && d.colour.limited == o.limited &&
    decide (d.grid.depth ≤ o.depth) && decide (d.grid.depthC ≤ o.depthC)))

/-- R162: the windows as they will be meet R163, R165, R168 and R170. -/
def State.windowsOk (s : State) : Bool :=
  let ws := ((List.range 512).map (fun w => (s.cmp.pendWin.look none w).getD (s.window w))).filter (·.enable)
  ws.all (fun x =>
    x.part.toNat == (s.decS x.stream.toNat).cfg.part && s.insideRaster x && (!x.value || s.valueOk x)) &&
  windowsApart ws &&
  decide ((ws.map s.windowRate).sum ≤ 34000000000) && decide (((List.range 16).map s.rasterRate).sum ≤ 12000000000)

/-- R114: the checks of an encode stream that do not rest on the level tables of H.265. -/
def EncCfg.ratesOk (c : EncCfg) (f : RasterFmt) : Bool :=
  let value := ((List.range c.rows).map (fun r => ((List.range c.cols).filter (fun x => c.isValue x r)).length)).sum
  let burst (p : Nat) : Nat := ((List.range c.rows).map (fun r => c.sweepValue { EncPic.reset with sweepPos := p } r)).sum
  let floor := c.rows * rowFloor
  decide (rowFloor * f.num * f.lt ≤ c.rate * 64 * f.den) &&
  decide ((value * c.cMax + c.sweepLen * floor) * f.num ≤ c.rate * c.sweepLen * f.den) &&
  (List.range c.sweepLen).all (fun p => decide (burst p * c.cMax + floor ≤ c.cpb)) &&
  decide (value * c.cMax + floor ≤ c.cpb) &&
  (c.rc != .vbr || (decide (0 < c.rateAvg) && decide (c.rateAvg ≤ c.rate))) && decide (c.allowance ≤ 60)

/-- ITU-T H.265, Tables A.8 and A.9: a level's greatest luma picture size, luma sample rate, and CPB size and bit rate in units of
CpbNalFactor bits, at Main and High tier. -/
structure LevelLimit where
  ps : Nat
  sr : Nat
  cpb : Nat
  cpbHigh : Nat
  br : Nat
  brHigh : Nat

/-- ITU-T H.265: the limits of Levels 1, 2, 2.1, 3, 3.1, 4, 4.1, 5, 5.1 and 5.2 (PRESUMED, log entry 60). -/
def levelLimits : List LevelLimit :=
  [⟨36864, 552960, 350, 350, 128, 128⟩, ⟨122880, 3686400, 1500, 1500, 1500, 1500⟩, ⟨245760, 7372800, 3000, 3000, 3000, 3000⟩,
    ⟨552960, 16588800, 6000, 6000, 6000, 6000⟩, ⟨983040, 33177600, 10000, 10000, 10000, 10000⟩,
    ⟨2228224, 66846720, 12000, 30000, 12000, 30000⟩, ⟨2228224, 133693440, 20000, 50000, 20000, 50000⟩,
    ⟨8912896, 267386880, 25000, 100000, 25000, 100000⟩, ⟨8912896, 534773760, 40000, 160000, 40000, 160000⟩,
    ⟨8912896, 1069547520, 60000, 240000, 60000, 240000⟩]

/-- ITU-T H.265: CpbNalFactor of a profile (PRESUMED, log entry 60). -/
def nalFactor (p : EncProfile) : Nat := if p = .main10 then 1100 else 2750

/-- R89, R114: the picture, its rate, R and B are within the level and tier. -/
def EncCfg.levelOk (c : EncCfg) (f : RasterFmt) : Bool :=
  let x := levelLimits.getD c.level ⟨0, 0, 0, 0, 0, 0⟩
  let n := nalFactor c.profile
  decide (c.width * c.height ≤ x.ps) && decide (c.width * c.width ≤ 8 * x.ps) && decide (c.height * c.height ≤ 8 * x.ps) &&
  decide (c.width * c.height * f.num ≤ x.sr * f.den) &&
  decide (c.rate ≤ (if c.highTier then x.brHigh else x.br) * n) && decide (c.cpb ≤ (if c.highTier then x.cpbHigh else x.cpb) * n)

/-- R89: the pixel rate and picture size: of a captured input or a stream with value regions, or of a host-fed stream without. -/
def EncCfg.pixelsOk (c : EncCfg) (f : RasterFmt) : Bool :=
  if c.input.isSome || !c.regions.isEmpty then
    decide (c.width * c.height * f.num ≤ 750000000 * f.den) && decide (c.width * c.height ≤ 8912896)
  else decide (c.width * c.height * f.num ≤ 1069547520 * f.den)

/-- R88: a profile's chroma format and bit depths; a Main 10 stream has no value regions. -/
def EncCfg.profileOk (c : EncCfg) : Bool :=
  if c.profile = .main10 then c.chroma == 1 && c.depth == 10 && c.regions.isEmpty && c.rc != .capll
  else c.chroma == 3 && (c.depth == 8 || c.depth == 10)

/-- R65, R95: value regions lie inside the tile grid and do not overlap, and a captured stream that has some has a beacon. -/
def EncCfg.regionsOk (c : EncCfg) : Bool :=
  decide (c.regions.length ≤ 16) && rectsApart c.regions &&
  c.regions.all (fun r => decide (0 < r.cols) && decide (0 < r.rows) && decide (r.col + r.cols ≤ c.cols) &&
    decide (r.row + r.rows ≤ c.rows)) &&
  (c.input.isNone || c.regions.isEmpty || c.beacon.isSome)

/-- R65, R88, R89, R95, R103, R114, R173: Thathar's checks of an encode stream. -/
def EncCfg.ok (c : EncCfg) (f : RasterFmt) : Bool :=
  c.profileOk && (c.input.isNone || decide (f.sampling < 3) || c.profile = .main10) && c.pixelsOk f && c.regionsOk && c.levelOk f && c.ratesOk f

/-- R88, R173, R177: the bit depth of the source that input raster `k` carries: DEPTH of a DisplayPort sink port; of an ST 2110-20
receiver 8 where a pixel takes three bytes, and else 10. -/
def State.sourceDepth (s : State) (k : Nat) : Nat :=
  let f := (s.raster k).fmt
  if k < 20 then (if (s.dpi (k - 16)).depth then 10 else 8) else if f.lineBytes = 3 * f.width then 8 else 10

/-- R88: the coded bit depth of every captured stream equals its source's. -/
def State.depthsOk (s : State) : Bool :=
  s.enc.all (fun x => !x.2.cfg.enabled || (match x.2.cfg.input with
    | some k => x.2.cfg.depth == s.sourceDepth k
    | none => true))

/-- R115: the encode streams whose configurations a commit has written pass the checks. -/
def State.encodesOk (s : State) (is : List Nat) : Bool :=
  is.all (fun i =>
    let e := s.encS i
    let c := e.target
    !c.enabled || c.ok (s.raster c.raster).fmt)

/-- R477: the streams whose configurations writes touch. -/
def streamsOf (ws : List (Nat × Word)) : List Nat :=
  (ws.filterMap (fun p => match regAt p.1 with
    | some (.streamCfg i _) => some i
    | _ => none)).eraseDups

/-- R162, R471: writes that Thathar's checks of a commit concern. -/
def checkedWrite (p : Nat × Word) : Bool :=
  match regAt p.1 with
  | some (.streamCfg _ _) | some (.window _ _) | some (.dpo _) | some (.dpi _ 0) => true
  | _ => false

/-- R471: the writes applied and the checks of the commit made: the state, or the first address refused. -/
def State.tryCommit (w : Writer) (scope : Option Nat) (ws : List (Nat × Word)) (s : State) : State × Option Nat :=
  match s.applyWrites w scope ws with
  | (_, some a) => (s, some a)
  | (t, none) =>
    if ws.any checkedWrite && !(t.windowsOk && t.encodesOk (streamsOf ws) && t.depthsOk) then
      (s, some (((ws.find? checkedWrite).map (·.1)).getD 0))
    else ((t.each (streamsOf ws) State.retest).redrawAll, none)

/-- The writer that an opener acts as. -/
def Opener.writer : Opener → Writer
  | .queue q => .queue q
  | .key k => .key k
  | .tack | .lead => .tack
  | .bar0 => .bar0

/-- R426: a shadow that does not commit what the lead committed, or commits it late, is no longer in step. -/
def State.outOfStep (t : Nat) (s : State) : State :=
  if (s.trans t).opener = .lead then s.modGrt (fun g => { g with configSync := false }) else s

/-- R249, R271: a commit that changes the quench state of a rule of a decode stream is reported. -/
def State.quenchEvents (old s : State) : State :=
  s.each (s.run.rules.filter (fun r => r.2.valid && r.2.dest == 0 && (old.rule r.1).quench != r.2.quench)) (fun r =>
    State.limited .streamQuenched r.2.stream.toNat ms
      (State.raiseP (s.decS r.2.stream.toNat).cfg.part .streamQuenched [i16 r.2.stream.toNat, i16 2]))

/-- R52: a transaction has committed; a change of a raster that it carries takes effect from here on. -/
def State.markChange (s : State) : State :=
  s.each ((List.range 28).filter s.rasterUsed) (fun k => State.modRaster k (fun r => { r with change := .committed }))

/-- R471, R472: the commit instant of a transaction. -/
def State.commitTxn (t : Nat) (s : State) : State :=
  let x := s.trans t
  if x.failed then (s.outOfStep t).endTxn t .failedWrite
  else if x.conflict then (s.outOfStep t).endTxn t .conflict
  else match s.tryCommit x.opener.writer x.scope x.writes with
    | (_, some a) => (((s.outOfStep t).modTrans t (fun y => { y with bad := BitVec.ofNat 26 a })).rejectArm a).endTxn t .refused
    | (u, none) =>
      let u := (u.modTxn (fun y => { y with seq := y.seq + 1 })).markChange
      let u := u.each x.writes (fun p => State.journalPut p.1 p.2)
      let u := u.markConflict (some t) (x.writes.map (·.1))
      let u := State.quenchEvents s (if x.late then u.outOfStep t else u)
      let u := u.endTxn t (if x.late then .committedLate else .committed)
      if sameAdmission s u then u else u.wantAdmission 2

/-- R470: an opener arms its OPEN transaction at a position; at the next uncore cycle it commits at once. -/
def State.armCommit (t k n : Nat) (f : Int) (s : State) : State :=
  let s := s.armTxn t k n f
  if (s.trans t).st != .armed then s
  else
    let s := s.mirrorTxn (s.commitMsg t)
    if k = nowRaster then s.commitTxn t else s

/-! The TXN block (R475). -/

/-- R474: a shadow takes no direct BEGIN. -/
def State.shadowed (s : State) : Bool := s.glb.mode == .shadow || s.glb.mode == .degraded || (s.glb.mode == .patch && s.glb.role == .shadow)

/-- R468, R475: OP = BEGIN by the Tack or BAR0; the reason when it is refused. -/
def State.opBegin (w : Writer) (t : Nat) (s : State) : State × Option (BitVec 4) :=
  if s.shadowed || (s.trans t).st != .free then (s, some 8) else (s.beginTxn t (writerOpener w) none, none)

/-- R470, R475: OP = COMMIT. -/
def State.opCommit (w : Writer) (t : Nat) (s : State) : State × Option (BitVec 4) :=
  let x := s.trans t
  if x.st != .opened || x.opener != writerOpener w then (s, some 8)
  else if !s.posOk x.raster.toNat x.line.toNat then (s, some 1)
  else (s.armCommit t x.raster.toNat x.line.toNat (s.fullFrame x.raster.toNat x.frame), none)

/-- R473, R475: OP = ABORT. -/
def State.opAbort (w : Writer) (t : Nat) (s : State) : State × Option (BitVec 4) :=
  let x := s.trans t
  if x.st = .free ∨ x.opener ≠ writerOpener w then (s, some 8) else (s.abortTxn t .aborted, none)

/-- R469, R475: a write to TXN_WDATA buffers and advances TXN_WADDR; the reason and the address when it is refused. -/
def State.opWdata (w : Writer) (t : Nat) (v : Word) (s : State) : State × Option (BitVec 4 × Nat) :=
  let x := s.trans t
  if x.st != .opened || x.opener != writerOpener w then (s, some (8, 0x1010 + 0x40 * t))
  else
    let a := x.waddr.toNat * 4
    let (s, why) := s.bufferTxn w t a v
    (s.modTrans t (fun y => { y with waddr := y.waddr + 1 }), why.map (fun k => (k, a)))

/-- R475: words 1 to 3. -/
def State.setTxnWord (t k : Nat) (v : Word) (s : State) : State :=
  s.modTrans t (fun x => match k with
    | 1 => { x with raster := v.extractLsb' 27 5, line := v.extractLsb' 13 14 }
    | 2 => { x with frame := v }
    | _ => { x with waddr := v.extractLsb' 2 24 })

/-- A refusal at an address. -/
def atAddr (a : Nat) (x : State × Option (BitVec 4)) : State × Option (BitVec 4 × Nat) := (x.1, x.2.map (fun k => (k, a)))

/-- R475: a write to word `k` of transaction `t`; the reason and address when it is refused. -/
def State.writeTxn (w : Writer) (t k : Nat) (v : Word) (s : State) : State × Option (BitVec 4 × Nat) :=
  let a := 0x1000 + 0x40 * t + 4 * k
  let x := s.trans t
  if 5 ≤ k then (s, none)
  else if w != .tack && w != .bar0 then (s, some (8, a))
  else match k with
    | 0 => match (v.extractLsb' 29 3).toNat with
      | 0 => (s, none)
      | 1 => atAddr a (s.opBegin w t)
      | 2 => atAddr a (s.opCommit w t)
      | 3 => atAddr a (s.opAbort w t)
      | _ => (s, some (1, a))
    | 4 => s.opWdata w t v
    | _ =>
      if x.st != .opened || x.opener != writerOpener w then (s, some (8, a))
      else if s.rangeBad (.txn t k) v then (s, some (1, a))
      else (s.setTxnWord t k v, none)

/-! Direct writes (R457, R458, R463). -/

/-- R463: a refusal is counted and recorded. -/
def State.refuse (w : Writer) (x : Option (BitVec 4 × Nat)) (s : State) : State :=
  match x with
  | some (k, a) => s.werr w k a
  | none => s

/-- R457 to R467: a direct write; `whole` says that it is a 32-bit write with every byte enabled. The reason when it is
refused. -/
def State.writeAddr (w : Writer) (a : Nat) (v : Word) (whole : Bool) (s : State) : State × Option (BitVec 4) :=
  if !whole then (s.werr w 6 a, some 6)
  else match regAt a with
    | none => (s.werr w 7 a, some 7)
    | some (.txn t k) =>
      let (s, x) := s.writeTxn w t k v
      (s.refuse w x, x.map (·.1))
    | some r =>
      if !r.rw then (s, none)
      else
        let scope := s.writerScope w
        match s.refusal w false scope r v with
        | some k => ((s.rejectArm a).werr w k a, some k)
        | none => ((s.putReg w false scope r v).markConflict none [a], none)

/-- REGISTER_WRITE (R463): a register access that writes. -/
def execRegisterWrite (w : Writer) (a : Nat) (v : Word) (whole : Bool) (s : State) := ok (
  if s.glb.inReset then s else (s.writeAddr w a v whole).1)

/-- TXN_OP_BEGIN (R468): OP = BEGIN by the Tack or BAR0. -/
def execTxnOpBegin (w : Writer) (t : Nat) (s : State) := ok (
  if 4 ≤ t then s
  else
    let (s, x) := atAddr (0x1000 + 0x40 * t) (s.opBegin w t)
    s.refuse w x)

/-- TXN_OP_COMMIT (R470): OP = COMMIT. -/
def execTxnOpCommit (w : Writer) (t : Nat) (s : State) := ok (
  if 4 ≤ t then s
  else
    let (s, x) := atAddr (0x1000 + 0x40 * t) (s.opCommit w t)
    s.refuse w x)

/-- TXN_OP_ABORT (R473): OP = ABORT. -/
def execTxnOpAbort (w : Writer) (t : Nat) (s : State) := ok (
  if 4 ≤ t then s
  else
    let (s, x) := atAddr (0x1000 + 0x40 * t) (s.opAbort w t)
    s.refuse w x)

/-- TXN_WDATA (R469): a write buffered by a register opener. -/
def execTxnWdata (w : Writer) (t : Nat) (v : Word) (s : State) := ok (
  if 4 ≤ t then s
  else
    let (s, x) := s.opWdata w t v
    s.refuse w x)

/-- TXN_TIMEOUT (R473): a transaction has been OPEN for longer than TXN_TIMEOUT. -/
def execTxnTimeout (t : Nat) (s : State) := ok (
  if (s.trans t).st = .opened ∧ (s.trans t).openedAt + s.txn.timeout * sec < s.now then s.endTxn t .timeout else s)

/-- GLB_WERR_CLEAR (R462, R478): a write of the SEQ in force clears REASON, WRITER and ADDR. -/
def execGlbWerrClear (v : Word) (s : State) := ok (s.putReg .tack false none (.werr 0) v)

end Sys2Proof.Machine
end

