-- ==== Sys2Proof/Machine/ImageSet.lean ====
section
/-! DEFINITION. The settings that the spec says the image makes and to which it gives no address, clipped to the ranges that
the rules give (R31 to R34, R37, R48, R178, R225, R234, R243, R255 to R262, R268, R274, R301 to R303, R306, R315, R357, R361,
R387, R391, R446, R473); notes/assumptions/3.md. -/

namespace Sys2Proof.Machine

/-- The signed bytes of a slot's image. -/
def Fsh.imageBytes (f : Fsh) (b : Bool) : List Byte := f.bytes (f.image b) (f.signedLen b)

/-- R37: the format that the image gives raster `k`. -/
def imageFormat (g : Nat → Nat → Nat) (k : Nat) : RasterFmt :=
  let den := if g 2 k = 1001 then 1001 else 1
  let num := if den = 1001 then clip 24000 120000 (g 1 k) else clip 24 120 (g 1 k)
  let la := clip 1 4320 (g 3 k)
  let p : Nat := den * sec / num
  { inUse := decide (g 0 k = 1), num := num, den := den, la := la, lt := clip (la + 1) 16383 (g 4 k)
    phase := ((clip 0 (2 * p - 2) (g 5 k) : Nat) : Int) - ((p - 1 : Nat) : Int)
    width := clip 1 8192 (g 6 k), hTotal := g 7 k, lineBytes := g 8 k, sampling := g 63 k % 5
    limited := g 64 k == 1, syncStart := g 70 k, syncWidth := g 71 k }

/-- R31 to R34, R37, R48: the raster time unit. -/
def State.setRas (g : Nat → Nat → Nat) (s : State) : State :=
  let s := s.each (List.range 28) (fun k => State.modRaster k (fun r => { r with fmt := imageFormat g k }))
  let s := s.modClk (fun c => { c with
    domain := BitVec.ofNat 8 (g 10 0), drift := clip 10 10000 (g 11 0)
    stepLimit := clip 1000 sec (g 12 0), holdLimit := clip 1000 sec (g 13 0) })
  let s := s.each (List.range 8) (fun p => State.modPart p (fun x => { x with lateWin := clip 0 16 (g 14 p), enabled := g 58 p == 1 }))
  s.modTxn (fun x => { x with lateDev := clip 0 16 (g 15 0), timeout := clip 1 3600 (g 16 0) })

/-- The role of a code of R211. -/
def roleOf (n : Nat) : CoreRole :=
  match n % 4 with
  | 0 => .unassigned
  | 1 => .decode
  | 2 => .encode
  | _ => .check

/-- R211, R301, R306, R315, R446: cores, partitions' work and the Bellows. -/
def State.setWork (g : Nat → Nat → Nat) (s : State) : State :=
  let s := s.modBlw (fun b => { b with
    deepest := (List.range 4).foldl (fun t k => t.put 4 k (clip 1 4 (g 60 k))) b.deepest
    ageStep := clip 1 100 (g 17 0), tjThrottle := clip 85 110 (g 52 0)
    costs := (List.range 4).foldl (fun t k => t.put 0 k (g 19 k)) b.costs })
  s.each (List.range 32) (fun c s =>
    let o : Option Nat := if g 21 c = 0 then none else some ((g 21 c - 1) % 8)
    let r : CoreRole := if o.isNone then .unassigned else roleOf (g 20 c)
    (s.modBlw (fun b => { b with homeRoles := b.homeRoles.put (.unassigned, none) c (r, o) })).modCore c
      (fun x => { x with role := r, part := o }))

/-- R213, R234: each channel holds ceil(Q / 11) blocks from SPARE_BASE on, outside every pool block's normal place. -/
def State.tolerates (s : State) (pool base : Nat) : Bool :=
  let q := (pool + 11) / 12
  decide (q ≤ base) && decide (base + (q + 10) / 11 ≤ s.chanLines / 1024)

/-- R225, R234, R302, R303: the memory system. -/
def State.setMem (g : Nat → Nat → Nat) (s : State) : State :=
  s.modDrm (fun d => { d with
    poolBlocks := g 22 0, rpdIdle := if g 27 0 = 0 then 0 else clip 16 1024 (g 27 0)
    spareBase := BitVec.ofNat 19 (g 28 0), tolerant := g 29 0 == 1 && s.tolerates (g 22 0) (g 28 0 % 524288)
    regions := (List.range 8).foldl (fun t p =>
      t.put [] p ((List.range (clip 0 16 (g 23 p))).map (fun j => (g 24 (32 * p + 2 * j), g 24 (32 * p + 2 * j + 1))))) d.regions
    slotResv := (List.range 8).foldl (fun t p => t.put 0 p (g 25 p)) d.slotResv
    slotMax := (List.range 8).foldl (fun t p => t.put 0 p (g 26 p)) d.slotMax })

/-- R23, R255: the MiB of pool `p`: as the image divides the 32 MiB in whole MiB of at least 1 each, or the default division. -/
def ladleShare (g : Nat → Nat → Nat) (p : Nat) : Nat :=
  let xs := (List.range 4).map (g 30)
  if xs.all (fun x => decide (1 ≤ x)) && xs.sum == 32 then xs.getD p 0 else [16, 8, 6, 2].getD p 0

/-- R255, R257: a Ladle pool. -/
def LdlPool.configure (g : Nat → Nat → Nat) (p : Nat) (x : LdlPool) : LdlPool :=
  { x with
    share := BitVec.ofNat 8 (ladleShare g p), total := ladleShare g p * 1048576 / bufferSize p, tc7Resv := g 32 p, yellowFloor := g 33 p
    resv := (List.range 8).foldl (fun t q => t.put 0 q (g 31 (8 * p + q))) x.resv
    shareMax := (List.range 8).foldl (fun t q => t.put 0 q (g 34 (8 * p + q))) x.shareMax }

/-- R179, R243, R255 to R262, R268: the Runner. -/
def State.setRun (g : Nat → Nat → Nat) (s : State) : State :=
  let s := s.modRun (fun r => { r with
    capture := (List.range 256).foldl (fun t i => t.put none i (if g 35 i = 0 then none else some (20 + (g 35 i - 1) % 8))) r.capture
    ageLimit := (List.range 8).foldl (fun t c => t.put 0 c (clip 10000 10000000000 (g 36 c))) r.ageLimit
    inHold := (List.range 28).foldl (fun t k => t.put 200000 k (clip 10000 50000000 (g 62 k))) r.inHold
    unreadMs := clip 1 60000 (g 37 0), pfcXoff := g 38 0, pfcXon := g 39 0
    quenchMask := BitVec.ofNat 8 (g 66 0), pauseStorm := clip 1 1000 (g 40 0) })
  let s := s.each (List.range 4) (fun p => State.modLadle p (LdlPool.configure g p))
  let s := s.each (List.range 4) (fun p => State.modEth p (fun e => { e with
    pauseMode := BitVec.ofNat 2 (g 65 p), pfcEn := g 42 p == 1, ptpEn := g 43 p == 1, mtu := clip 1280 9000 (g 41 p) }))
  s.each (List.range 1024) (fun f => State.modFlow f (fun x => { x with dualPath := g 44 f == 1 }))

/-- R178, R182, R274, R357, R361, R387, R391: outputs, the host, start-up and the Tack. -/
def State.setSystem (g : Nat → Nat → Nat) (s : State) : State :=
  let s := s.each (List.range 16) (fun k => State.modOutP k (fun p => { p with
    extSeq := BitVec.ofNat 32 (g 45 k), flows := (List.range (clip 0 2 (g 46 k))).map (fun j => g 47 (2 * k + j) % 1024)
    intent := if 8 ≤ k then g 59 k == 1 else p.intent }))
  let s := s.modHq (fun h => { h with
    pageFlush := clip 10 10000 (g 61 0)
    vfPart := (List.range 8).foldl (fun t i =>
      t.put none (i + 1) (if g 48 i = 0 then none else some ((g 48 i - 1) % 8))) h.vfPart })
  let s := s.modGlb (fun x => { x with
    twinEn := g 49 0 == 1, twinWait := clip 0 10000 (g 50 0), trainLimit := clip 100 5000 (g 51 0) })
  let th (a b i : Nat) (x : Sensor) : Sensor := { x with hiTh := (BitVec.ofNat 16 (g a i)).toInt, loTh := (BitVec.ofNat 16 (g b i)).toInt }
  let s := s.modTck (fun t => { t with
    temps := (List.range 16).foldl (fun u i => u.upd Sensor.reset i (th 53 54 i)) t.temps
    volts := (List.range 24).foldl (fun u i => u.upd Sensor.reset i (th 55 56 i)) t.volts })
  let s := s.modFlt (fun t => { t with forceFatalEn := g 67 0 == 1 })
  s.modLog (fun l => { l with flushAge := clip 1 600 (g 18 0) })

/-- R334: every setting of the image in slot `b` that has no address. -/
def State.applySettings (b : Bool) (s : State) : State :=
  let g := Config.imageSetting (s.fsh.imageBytes b)
  ((((s.setRas g).setWork g).setMem g).setRun g).setSystem g

end Sys2Proof.Machine
end

