-- ==== Sys2Proof/Machine/Load.lean ====
section
/-! DEFINITION. Reset, the image loader, and start-up to the end of TRAIN (R323 to R340, R348, R355 to R357, R435). -/

namespace Sys2Proof.Machine

/-! Reset (R355, R435). -/

/-- R435: what a reset leaves: the flash, the OTP, what the pins bring from outside, and what the host's memory holds. -/
def State.afterReset (s : State) : State :=
  let s0 := State.reset
  { s0 with
    pending := s.pending, freeCtr := s.freeCtr
    fsh := { Fsh.reset with
      flash := s.fsh.flash, otpHash := s.fsh.otpHash, otpRevoked := s.fsh.otpRevoked, floor := s.fsh.floor, pwrHold := s.fsh.pwrHold }
    hq := { Hq.reset with hostMem := s.hq.hostMem }
    run := { Run.reset with quenchPin := s.run.quenchPin }
    out := { OutPorts.reset with
      dpo := s.out.dpo.mapAll DpoPort.reset (fun _ p => { DpoPort.reset with hpd := p.hpd }) }
    grt := { Grt.reset with peerOwn := s.grt.peerOwn, peerFault := s.grt.peerFault } }

/-- R344: the operation of the flash that is in progress runs to its end. -/
def State.endFlashOp (s : State) : State :=
  match s.fsh.stores with
  | x :: _ => if s.fsh.busy then s.modFsh (fun f => { f with flash := (x.operate f.flash).1 }) else s
  | [] => s

/-- R349: power loss leaves each byte of the operation in progress with a free value. -/
def State.breakFlashOp (s : State) : State :=
  match s.fsh.stores with
  | x :: _ => if s.fsh.busy then
      let n := if x.erase then sector else min 256 x.bytes.length
      let c := s.freeCtr
      let bs := (List.range n).map (fun i => (Config.freeWord (c + i)).setWidth 8)
      { s.modFsh (fun f => { f with flash := putBytes f.flash erased x.addr bs }) with freeCtr := c + n }
    else s
  | [] => s

/-- RESET_ASSERT (R435, R367): RESET_N is low; HALT is left by a power cycle alone. -/
def execResetAssert (s : State) := ok (if s.glb.mode = .halt then s else s.endFlashOp.afterReset)

/-- POWER_ON_RESET (R435): VDD_AON has fallen; what the flash was writing is damaged. -/
def execPowerOnReset (s : State) := ok s.breakFlashOp.afterReset

/-- RESET_RELEASE (R355, R435): the straps are sampled, and FILL writes zeros to every on-die SRAM. -/
def execResetRelease (x : Straps) (s : State) := ok (
  if !s.glb.inReset then s
  else s.modGlb (fun g => { g with
    inReset := false, side := x.side, vsel := x.vsel, mode := .fill, selfDigest := Config.sha256 (Config.devicePublicKey 0) }))

/-! What the loader reads first (R348, R349, R388). -/

/-- R349: pages of an area that are neither erased nor valid, with their numbers. -/
def Fsh.badPages (f : Fsh) (typ : Nat) (xs : List Nat) : List Nat :=
  (xs.zipIdx.filter (fun x => !f.blank x.1 && !f.pageOk x.1 typ)).map (·.2)

/-- R348: the current copy of the retirement list, a pair with one PAGE_SEQ. -/
def State.readRetirement (s : State) : State :=
  let f := s.fsh
  let pairs := retirePages.filter (fun a => f.pageOk (a + sector) 2 && f.pageSeq (a + sector) == f.pageSeq a)
  match f.newest 2 pairs with
  | none => s
  | some a =>
    let ws := wordsOf (f.pageContent a ++ f.pageContent (a + sector))
    let es : List (Nat × Nat) := ws.map (fun (w : Word) => ((w >>> 28).toNat, (w &&& 0x7FFFF).toNat))
    let s := (s.modFsh (fun f => { f with retSeq := f.pageSeq a })).modDrm (fun d => { d with retire := es })
    s.each (List.range 12) (fun n =>
      State.modChan n (fun c => { c with retired := BitVec.ofNat 16 (es.filter (fun e => e.1 == n)).length }))

/-- R359: the record of an adoption page; none where HOW is reserved. -/
def adoptionOf (bs : List Byte) : Option Adoption :=
  let how := (bs.drop 65).headD 0
  if how = 1 ∨ how = 2 then some ⟨bs.take 32, (bs.drop 32).take 32, (bs.drop 64).headD 0 == (1 : Byte)⟩ else none

/-- R348: the current adoption record. -/
def State.readAdoption (s : State) : State :=
  match s.fsh.newest 3 (adoptPages.filter (fun a => s.fsh.pageOk a 3 && (adoptionOf (s.fsh.pageContent a)).isSome)) with
  | none => s
  | some a => (s.modFsh (fun f => { f with adoptSeq := f.pageSeq a })).modGlb (fun g => { g with
      adoption := adoptionOf (s.fsh.pageContent a) })

/-- R391: the first index of an event log page, and its entries. -/
def Fsh.logPage (f : Fsh) (a : Nat) : Nat × List LogEntry :=
  match entriesOf (wordsOf (f.pageContent a)) with
  | h :: r => (h.w1.toNat, r)
  | [] => (0, [])

/-- R388, R391: the flash log, and the index from which the writer resumes. -/
def State.readLog (s : State) : State :=
  let f := s.fsh
  match f.newest 1 logPages with
  | none => s
  | some a =>
    let ps := (logPages.filter (fun x => f.pageOk x 1)).map f.logPage
    let t : Tbl (Option LogEntry) := ps.foldl (fun t p => p.2.zipIdx.foldl (fun t e => t.put none (p.1 + e.2) (some e.1)) t) []
    let n := (f.logPage a).1 + (f.logPage a).2.length
    let n32 := BitVec.ofNat 32 n
    (s.modFsh (fun f => { f with logSeq := f.pageSeq a })).modLog (fun l =>
      let l := if newer n32 l.next then { l with next := n32, flushed := n32, times := [] } else l
      { l with flashLog := t, oldest := BitVec.ofNat 32 ((t.head?.map (·.1)).getD n) })

/-- R349: the first page rejected is reported, once per load. -/
def State.reportPages (s : State) : State :=
  let f := s.fsh
  let bad := [(2, f.badPages 2 ((List.range 16).map (fun i => 0x20000 + sector * i))), (3, f.badPages 3 adoptPages),
    (1, f.badPages 1 logPages)]
  match bad.find? (fun x => !x.2.isEmpty) with
  | some x => if f.pageRejected then s
      else (s.modFsh (fun f => { f with pageRejected := true })).raise .flashPageRejected [i16 x.1, i32 (x.2.headD 0)]
  | none => s

/-! Candidates (R335 to R337, R340). -/

/-- R340: the loader stops with an outcome; the endpoint is released. -/
def State.stopLoad (outcome : BitVec 2) (s : State) : State :=
  (s.modFsh (fun f => { f with slot := none, outcome := outcome, loader := Loader.reset })).modHq (fun h => { h with up := true })

/-- R337: the next candidate is taken, or the loader stops with NO_IMAGE. -/
def State.nextCandidate (s : State) : State :=
  match s.fsh.loader.cands with
  | [] => s.stopLoad 2
  | b :: r => s.modFsh (fun f => { f with loader := { Loader.reset with cands := r, cur := some b } })

/-- The reason of a slot. -/
def Fsh.setReason (b : Bool) (why : BitVec 4) (f : Fsh) : Fsh :=
  if b then { f with reasonB := why } else { f with reasonA := why }

/-- R339: step 4: the seals are read and the candidates ordered. -/
def State.readSeals (s : State) : State :=
  let f := s.fsh
  let why (b : Bool) : BitVec 4 := if f.sealOk b then 0xA else 1
  (s.modFsh (fun f => { f with
    genA := f.genOf false, genB := f.genOf true, reasonA := why false, reasonB := why true
    loader := { Loader.reset with cands := f.candidates } })).nextCandidate

/-- R339: steps 2 to 4. -/
def State.startLoad (s : State) : State :=
  if !s.fsh.headerOk then s.stopLoad 2
  else s.readRetirement.readAdoption.readLog.reportPages.readSeals

/-- R337: every block that the loader has written returns to its reset values; a host that serves already (R340) keeps its admin queue. -/
def State.unload (s : State) : State :=
  let s0 := State.reset
  { s0 with
    pending := s.pending, now := s.now, ptp := s.ptp, freeCtr := s.freeCtr
    ras := { Ras.reset with clk := { Clk.reset with st := s.ras.clk.st } }
    out := { OutPorts.reset with dpo := s.out.dpo.mapAll DpoPort.reset (fun _ p => { DpoPort.reset with hpd := p.hpd }) }
    drm := { Drm.reset with
      retire := s.drm.retire, chans := s.drm.chans.mapAll Chan.reset (fun _ c => { Chan.reset with retired := c.retired }) }
    run := { Run.reset with quenchPin := s.run.quenchPin }
    hq := if s.hq.up then { s.hq with keys := [], vfPart := [], pageFlush := Hq.reset.pageFlush } else { Hq.reset with hostMem := s.hq.hostMem }
    glb := { Glb.reset with
      inReset := s.glb.inReset, mode := s.glb.mode, modeSeq := s.glb.modeSeq, side := s.glb.side, vsel := s.glb.vsel, tEnd := s.glb.tEnd
      selfDigest := s.glb.selfDigest, adoption := s.glb.adoption, faultOutN := s.glb.faultOutN, thermTripN := s.glb.thermTripN
      werrSeq := s.glb.werrSeq, werrReason := s.glb.werrReason, werrWriter := s.glb.werrWriter, werrCount := s.glb.werrCount
      werrAddr := s.glb.werrAddr }
    fsh := s.fsh, log := s.log, flt := s.flt
    irc := { Irc.reset with latch := s.irc.latch }
    grt := { Grt.reset with peerOwn := s.grt.peerOwn, peerFault := s.grt.peerFault } }

/-- R335, R337: the candidate in hand is rejected. -/
def State.rejectSlot (why : BitVec 4) (s : State) : State :=
  match s.fsh.loader.cur with
  | some b => ((s.unload).modFsh (Fsh.setReason b why)).nextCandidate
  | none => s

/-- R323: what SFDP must declare. -/
def Sfdp.ok (f : Sys2Proof.Sfdp) : Bool := f.valid && decide (16777216 ≤ f.bytes) && decide (f.bytes ≤ 268435456) && f.erase4k

/-- R323: the fastest read mode that the flash offers, of 8D-8D-8D, 1-4-4, 1-1-4 and 1-1-1. -/
def Sfdp.readMode (f : Sys2Proof.Sfdp) : Nat := ((List.range 3).find? (fun i => f.modes.getLsbD i)).getD 3

/-- R355, R411: FILL has ended: T_END 0 is taken, and FAULT_OUT_N is driven high. -/
def State.endFill (s : State) : State := (s.stampEnd 0).modGlb (fun g => { g with faultOutN := true })

/-- IMAGE_LOAD (R339, R355): FILL has ended; the flash is found, and steps 1 to 4 are made. -/
def execImageLoad (f : Sys2Proof.Sfdp) (s : State) := ok (
  if s.glb.inReset || s.glb.mode != .fill then s
  else
    let s := s.endFill.setMode .load .none 0
    let s := s.modFsh (fun x => { x with size := f.bytes, sfdpOk := Sfdp.ok f, readMode := if Sfdp.ok f then Sfdp.readMode f else 3 })
    if Sfdp.ok f then s.startLoad else s.stopLoad 3)

/-- SIGNATURE_CHECK (R335, R337): the image has been read; it is accepted, or rejected for the first reason that applies. -/
def execSignatureCheck (s : State) := ok (
  match s.fsh.loader.cur with
  | none => s
  | some b =>
    if s.fsh.loader.checked then s
    else
      let why := s.fsh.slotReason b
      if why ≠ 0 then s.rejectSlot why
      else s.modFsh (fun f => { f with loader := { f.loader with checked := true, cursor := f.image b + 32 } }))

/-! Records (R328 to R334). -/

/-- The slot and the address of the record at the cursor, when it has the type. -/
def State.atRecord (s : State) (typ : Nat) : Option (Bool × Nat) :=
  let l := s.fsh.loader
  match l.cur with
  | some b => if l.checked && (s.fsh.recAt l.cursor).typ == typ then some (b, l.cursor) else none
  | none => none

/-- R329: the record at the cursor has been applied; reserved optional records are skipped. -/
def State.nextRecord (b : Bool) (s : State) : State :=
  let l := s.fsh.loader
  let rs := ((s.fsh.records b).getD []).filter (fun r => decide (l.cursor < r.1) && r.2.known)
  s.modFsh (fun f => { f with loader := { l with
    cursor := (rs.head?.map (·.1)).getD l.cursor, recs := l.recs + 1, seen := (f.recAt l.cursor).typ :: l.seen } })

/-- A record of a type is applied by `f`, which takes the slot and the address of the payload. -/
def State.onRecord (typ : Nat) (f : Bool → Nat → State → State) (s : State) : State :=
  match s.atRecord typ with
  | some (b, a) => (f b (a + 16) s).nextRecord b
  | none => s

/-- IDENTITY (R330). -/
def execIdentity (s : State) := ok (s.onRecord 1 (fun b a => State.modFsh (fun f => { f with
  imageId := BitVec.ofNat 32 (f.val a 4), imageVersion := BitVec.ofNat 32 (f.val (a + 4) 4)
  svn := BitVec.ofNat 6 (f.val (a + 13) 1), revoke := BitVec.ofNat 4 (f.val (a + 14) 1)
  raiseFloor := (f.val (a + 15) 1).testBit 0, keySlot := BitVec.ofNat 2 (f.val (f.image b + 6) 1) })))

/-- The pairs of an address and a value of a PLATFORM payload. -/
def Fsh.pairs (f : Fsh) (a : Nat) : List (Nat × Word) :=
  (List.range (f.val a 4)).map (fun i => (f.val (a + 4 + 8 * i) 4, BitVec.ofNat 32 (f.val (a + 8 + 8 * i) 4)))

/-- R330, R467: a platform register takes its value. -/
def State.putPlatform (x : Nat × Word) (s : State) : Option State :=
  (regAt x.1).bind (fun r => if r.platform && !s.rangeBad r x.2 then some (s.setPlain r x.2) else none)

/-- Writes are made in order, up to the first that is refused, whose address is answered. -/
def State.putAll (f : Nat × Word → State → Option State) (xs : List (Nat × Word)) (s : State) : State × Option Nat :=
  match xs with
  | [] => (s, none)
  | x :: r => match f x s with
    | some t => t.putAll f r
    | none => (s, some x.1)

/-- R334, R335: a record that writes registers: a refused write rejects the image with reason 0x9. -/
def State.writesRecord (typ : Nat) (f : Nat × Word → State → Option State) (xs : Nat → List (Nat × Word)) (s : State) : State :=
  match s.atRecord typ with
  | none => s
  | some (b, a) => match s.putAll f (xs (a + 16)) with
    | (t, none) => t.nextRecord b
    | (_, some a) => (s.rejectSlot 9).modFsh (fun f => { f with failAddr := BitVec.ofNat 32 a })

/-- PLATFORM (R330, R356): the platform registers are written, and the PLLs lock. -/
def execPlatform (s : State) := ok (
  (s.writesRecord 2 State.putPlatform s.fsh.pairs).whenB (s.atRecord 2).isSome (fun s => (s.modGlb (fun g => { g with pllLock := true })).bootBays))

/-- TACK_FW (R331): the code is copied to Tack SRAM; the settings without an address are made. -/
def execTackFw (s : State) := ok (s.onRecord 3 (fun b a s => (s.copyFirmware a).applySettings b))

/-- R332: the keys of a KEYS payload. -/
def Fsh.keysAt (f : Fsh) (a : Nat) : List (Nat × Key) :=
  (List.range (f.val a 1)).map (fun i =>
    let e := a + 4 + 36 * i
    (f.val e 1 % 8, (⟨BitVec.ofNat 8 (f.val (e + 1) 1), f.bytes (e + 4) 32, 0⟩ : Key)))

/-- KEYS (R332): an index that the record does not name holds no key. -/
def execKeys (s : State) := ok (s.onRecord 4 (fun _ a => State.modHq (fun h => { h with
  keys := (s.fsh.keysAt a).foldl (fun t x => t.put none x.1 (some x.2)) ([] : Tbl (Option Key)) })))

/-- R333: whether ROLES names a role. -/
def roleNamed (roles : Nat) : CoreRole → Bool
  | .decode => roles.testBit 0
  | .encode => roles.testBit 1
  | .check => roles.testBit 2
  | .unassigned => false

/-- R333: the microwords of a PATTERN payload, from table number `base` on. -/
def Fsh.microwords (f : Fsh) (a base : Nat) : Tbl (BitVec 160) :=
  (List.range 8192).foldl (fun t i => t.put 0 (base + i) (BitVec.ofNat 160 (f.val (a + 12 + 20 * i) 20))) []

/-- R333: a core takes a PATTERN payload as bank A. -/
def CoreS.takeBankA (f : Fsh) (a : Nat) (c : CoreS) : CoreS :=
  { c with
    bank := false, validA := true, validB := false, patA := BitVec.ofNat 16 (f.val (a + 2) 2), decA := BitVec.ofNat 16 (f.val (a + 4) 2)
    crcA := BitVec.ofNat 32 (f.val (a + 8) 4), words := f.microwords a 0 }

/-- PATTERN (R333): each core whose role is named takes the record as bank A. -/
def execPattern (s : State) := ok (s.onRecord 5 (fun _ a s =>
  let roles := s.fsh.val a 1
  let s := s.each ((List.range 32).filter (fun c => roleNamed roles (s.core c).role)) (fun c => State.modCore c (CoreS.takeBankA s.fsh a))
  s.modFsh (fun f => { f with loader := { f.loader with roles := f.loader.roles ||| BitVec.ofNat 3 roles } })))

/-- R334: the writes of a MAP_WRITE payload. -/
def Fsh.mapWrites (f : Fsh) (a : Nat) : List (Nat × Word) :=
  (List.range (f.val (a + 4) 4)).map (fun i => (f.val a 4 + 4 * i, BitVec.ofNat 32 (f.val (a + 8 + 4 * i) 4)))

/-- R334: a register of the map takes its value, unless the write is refused. -/
def State.putMap (x : Nat × Word) (s : State) : Option State :=
  (regAt x.1).bind (fun r =>
    if r.rw && (s.refusal .image false none r x.2).isNone then some (s.putReg .image false none r x.2) else none)

/-- MAP_WRITE (R334). -/
def execMapWrite (s : State) := ok (s.writesRecord 6 State.putMap s.fsh.mapWrites)

/-- BUDGET (R329): the payload is kept for IDENTIFY and CTX_READ. -/
def execBudget (s : State) := ok (s.onRecord 7 (fun _ a => State.modFsh (fun f => { f with
  budget := f.bytes a (f.val (a - 12) 4) })))

/-- R337: an older candidate is loaded where a newer one has been rejected. -/
def State.loadedSlot (b : Bool) (s : State) : State :=
  let first := s.fsh.candidates.headD b
  let why (x : Bool) : BitVec 4 := if x then s.fsh.reasonB else s.fsh.reasonA
  let s := s.modFsh (fun f => { f.setReason b 0 with
    slot := some b, outcome := if first = b then 0 else 1, fusesDue := true, loader := Loader.reset })
  if first = b then s else s.raise .imageFallback [i16 first.toNat, .w16 ((why first).setWidth 16)]

/-- END_RECORD (R329, R331, R339, R356): the image is loaded, the Tack starts at ENTRY, and every channel is to be trained. -/
def execEndRecord (s : State) := ok (
  match s.atRecord 0xFFFF with
  | none => s
  | some (b, _) =>
    let s := (s.loadedSlot b).modGlb (fun g => { g with loaded := true })
    let s := s.modTck (fun t => { t with st := .run, fwSeq := t.fwSeq + 1, wdStart := s.now })
    s.each (List.range 12) (fun n s => (s.modChan n (fun c => { c with st := .training })).latch (173 + n)))

/-! The end of LOAD and of TRAIN (R356, R357). -/

/-- R356: every channel is in service or fenced. -/
def State.filled (s : State) : Bool := (List.range 12).all (fun n => (s.chan n).st == .active || (s.chan n).st == .fenced)

/-- LOAD_DONE (R157, R176, R185, R272, R356): the pattern copies are written; the endpoint is released, the sinks assert HPD,
and the image's streams start. -/
def execLoadDone (s : State) := ok (
  if s.glb.mode != .load || !s.glb.loaded || !s.filled then s
  else
    let s := s.modCores (fun t => t.mapAll CoreS.reset (fun _ c => { c with copies := c.words, copyBad := false }))
    let s := ((s.stampEnd 1).modHq (fun h => { h with up := true })).setMode .train .none 0
    let s := s.trainLink.assertHpd.each (List.range 4) State.voltageHold
    s.each ((s.dec.filter (fun x => x.2.cfg.enabled)).map (·.1)) (fun i => State.startStream i false))

/-- R357: TRAIN_LIMIT has passed since TRAIN began. -/
def State.trainOver (s : State) : Bool := decide ((s.glb.tEnd.look 0 1).toNat * 1000 + s.glb.trainLimit * ms ≤ s.now)

/-- TRAIN_END (R312, R357, R360): every link is up, or TRAIN_LIMIT has passed; the links named are late. -/
def execTrainEnd (late : List Nat) (s : State) := ok (
  if s.glb.mode != .train || (!late.isEmpty && !s.trainOver) then s
  else
    let s := if late.isEmpty then s else s.raise .linkLate (late.map i16)
    (((s.stampEnd 2).setMode .adopt .none 0).wantAdmission 0).adoptStep)

end Sys2Proof.Machine
end

