-- ==== Sys2Proof/Machine/Patch.lean ====
section
/-! DEFINITION. PATCH: its tests, the restart of the Tack, the batch swaps, the commit and the return (R207, R363 to R365);
the fuses of the OTP (R338). -/

namespace Sys2Proof.Machine

/-! Differences between images (R363). -/

/-- The payload addresses of the records of a type in a slot's image. -/
def Fsh.payloads (f : Fsh) (b : Bool) (typ : Nat) : List Nat :=
  (((f.records b).getD []).filter (fun r => r.2.typ == typ)).map (fun r => r.1 + 16)

/-- R334: every write of a slot's MAP_WRITE records. -/
def Fsh.mapOf (f : Fsh) (b : Bool) : List (Nat × Word) := (f.payloads b 6).flatMap f.mapWrites

/-- The value that a list of writes gives an address. -/
def valueIn (ws : List (Nat × Word)) (a : Nat) : Option Word := (ws.find? (fun x => x.1 == a)).map (·.2)

/-- R363, R364: the words in which the MAP_WRITE records of slot `b` differ from those of the loaded image; an address that
the new image leaves out takes its reset value. -/
def Fsh.mapDiff (f : Fsh) (old new : Bool) : List (Nat × Word) :=
  let a := f.mapOf old
  let b := f.mapOf new
  let back (x : Nat × Word) : Option (Nat × Word) :=
    if (valueIn b x.1).isSome then none else (regAt x.1).map (fun r => (x.1, State.reset.readReg r))
  b.filter (fun x => valueIn a x.1 != some x.2) ++ a.filterMap back

/-- R363: PLATFORM, DRAM geometry and region tables are the same in both images. -/
def Fsh.samePlatform (f : Fsh) (old new : Bool) : Bool :=
  let plat (b : Bool) : List (Nat × Word) := (f.payloads b 2).flatMap f.pairs
  let g (b : Bool) := Config.imageSetting (f.imageBytes b)
  plat old == plat new && [22, 28, 29].all (fun n => g old n 0 == g new n 0) && (List.range 8).all (fun p => g old 23 p == g new 23 p) &&
  (List.range 256).all (fun i => g old 24 i == g new 24 i)

/-- R363: a transaction may make the write. -/
def State.patchable (s : State) (x : Nat × Word) : Bool :=
  (regAt x.1).any (fun r => r.rw && (s.writeReason .tack true r x.2).isNone)

/-- A stream is placed now. -/
def State.placed (s : State) (a : Ask) : Bool :=
  if a.enc then (s.encS a.id).cfg.enabled && (s.encS a.id).shed.isNone else (s.decS a.id).cfg.enabled && (s.decS a.id).shed.isNone

/-- R363: RESULT of a PATCH request to the slot that is not loaded; 0 accepts it. -/
def State.patchResult (s : State) : Word :=
  let f := s.fsh
  match f.slot with
  | none => 1
  | some old =>
    let new := !old
    let why := f.slotReason new
    let ds := f.mapDiff old new
    if !f.sealOk new || !newer (f.genOf new) (f.genOf old) || f.update.isSome then 1
    else if why ≠ 0 then 2 ||| (why.setWidth 32 <<< 8)
    else if !f.samePlatform old new then 3
    else if 512 < ds.length || !ds.all s.patchable then 4
    else if (s.applyWrites .tack none ds).1.admission.shed.any s.placed then 5
    else if s.glb.mode = .lead ∧ ¬ s.twinShadow then 6
    else if s.glb.mode = .solo ∨ s.glb.mode = .lead ∨ s.glb.mode = .shadow then 0
    else 7

/-- IMAGE_ID and IMAGE_VERSION of a slot's image (R330). -/
def Fsh.identityOf (f : Fsh) (b : Bool) : Word × Word :=
  let a := f.image b + 48
  (BitVec.ofNat 32 (f.val a 4), BitVec.ofNat 32 (f.val (a + 4) 4))

/-- R364: steps 1 and 2: PATCH is entered, and the Tack restarts. -/
def State.enterPatch (path : CmdPath) (s : State) : State :=
  match s.fsh.slot with
  | none => s
  | some old =>
    let new := !old
    let s := s.modGlb (fun g => { g with modeFrom := g.mode, patch := some ⟨2, new, path, [], [], 0, 0, s.now⟩ })
    ((s.setMode .patch s.glb.role 0).raise .patchStarted [i16 new.toNat, .w32 (s.fsh.identityOf new).1]).restartTack 1

/-- R364, R365: the device returns to the mode from which it entered PATCH, or the patch in the background ends. -/
def State.leavePatch (s : State) : State :=
  let s := s.modGlb (fun g => { g with patch := none, patchBg := false })
  if s.glb.mode = .patch then s.setMode s.glb.modeFrom s.glb.role 0 else s

/-! Step 3 (R364). -/

/-- R295, R364: KEYS are replaced: an index whose key is unchanged keeps its COUNTER. -/
def State.patchKeys (b : Bool) (s : State) : State :=
  let ks := (s.fsh.payloads b 4).flatMap s.fsh.keysAt
  (s.modHq (fun h => { h with
    keys := ks.foldl (fun t x =>
      let old := h.keys.look none x.1
      let n : BitVec 64 := match old with
        | some k => if k.key = x.2.key then k.counter else 0
        | none => 0
      t.put none x.1 (some { x.2 with counter := n })) ([] : Tbl (Option Key)) })).abortBy (fun o => match o with
        | .key k => !ks.any (fun x => x.1 == k)
        | _ => false)

/-- R364: a core takes a PATTERN payload in its inactive bank and in the DRAM copy of it. -/
def CoreS.takeInactive (f : Fsh) (a : Nat) (c : CoreS) : CoreS :=
  let b := !c.bank
  let new := f.microwords a (8192 * b.toNat)
  let keep (t : Tbl (BitVec 160)) : Tbl (BitVec 160) := t.filter (fun p => decide (8192 ≤ p.1) != b)
  let join (t : Tbl (BitVec 160)) : Tbl (BitVec 160) := if b then keep t ++ new else new ++ keep t
  let id := BitVec.ofNat 16 (f.val (a + 2) 2)
  let dec := BitVec.ofNat 16 (f.val (a + 4) 2)
  let crc := BitVec.ofNat 32 (f.val (a + 8) 4)
  let c := { c with words := join c.words, copies := join c.copies }
  if b then { c with validB := true, patB := id, decB := dec, crcB := crc }
  else { c with validA := true, patA := id, decA := dec, crcA := crc }

/-- R207, R364: new banks are written to the inactive bank of every core: to a spare without a role the first that the image holds. -/
def State.patchBanks (b : Bool) (s : State) : State :=
  let banks := s.fsh.payloads b 5
  let fits (c a : Nat) : Bool := (s.core c).role == .unassigned || roleNamed (s.fsh.val a 1) (s.core c).role
  s.each ((List.range 32).filter (fun c => !(s.core c).fenced)) (fun c s => match banks.find? (fits c) with
    | some a => s.modCore c (CoreS.takeInactive s.fsh a)
    | none => s)

/-! Steps 4 to 6 (R207, R364, R365). -/

/-- R364: step 5: the differences are committed as one transaction, and admission is to run. -/
def State.patchCommit (s : State) : State :=
  match s.glb.patch, s.fsh.slot with
  | some p, some old =>
    let ds := s.fsh.mapDiff old p.target
    let (t, bad) := s.tryCommit .tack none ds
    let t := if bad.isSome then s else (t.modTxn (fun y => { y with seq := y.seq + 1 })).each ds (fun x => State.journalPut x.1 x.2)
    (t.modPatch (fun p => { p with step := 6 })).wantAdmission 2
  | _, _ => s

/-- R415: the path that brought a command to the pair. -/
def CmdPath.src : CmdPath → SrcPath
  | .queue q => .queue q
  | .key k => .key k
  | .lead p => p

/-- R280, R283: the submission entry of PATCH. -/
def patchEntry : List Word := 0x12 :: List.replicate 15 0

/-- TACK_FW_READY (R364, R365): the new firmware is ready: keys and banks are replaced, and the batches begin; a lead then lets
its twin patch too. -/
def execTackFwReady (s : State) := ok (
  match s.glb.patch with
  | none => s
  | some p =>
    if p.step != 2 || s.tck.st != .restarting then s
    else
      let s := s.startFirmware
      let s := if s.glb.role = .lead then s.gPut (.command p.path.src patchEntry) else s
      let s := (s.patchKeys p.target).patchBanks p.target
      let cs := (List.range 32).filter (fun c => (s.core c).role != .unassigned && !(s.core c).fenced)
      (s.modPatch (fun p => { p with step := 4, pending := cs })).patchStep)

/-- PATCH_FAILED (R365): the new firmware is not ready: the old one is reloaded, and the patched slot's seal is erased. -/
def execPatchFailed (s : State) := ok (
  match s.glb.patch with
  | none => s
  | some p =>
    if p.step != 2 || decide (s.now < p.since + 500 * ms) then s
    else
      let s := s.leavePatch
      let s := if s.tck.st = .restarting then s.startFirmware else s
      (s.raise .patchFailed [i32 2]).queueStores [⟨stUnseal, s.fsh.slotBase p.target, [], true, none⟩])

/-- R207: a core of the batch has drained: it swaps, and its streams return at their next picture boundary. -/
def State.batchDrained (c : Nat) (s : State) : State :=
  match s.glb.patch with
  | none => s
  | some p =>
    if !p.batch.any (fun b => b.core == c && !b.back) then s
    else
      let x := s.core c
      let s := if x.fenced then s else s.swapBank c
      s.standBack c (!x.fenced && (s.core c).bank != x.bank)

/-- CORE_DRAINED (R207): the last task of a core that drains has ended; the batches of a patch go on. -/
def execCoreDrained (c : Nat) (s : State) := ok (
  let x := s.core c
  if 32 ≤ c || !x.draining || (!x.fenced && (!x.tasks.isEmpty || x.encTask.isSome)) then s.patchStep
  else ((s.modCore c (fun x => { x with draining := false })).batchDrained c).patchStep)

/-- R364: step 6: admission is done: the patched slot is the loaded one. -/
def State.patchDone (s : State) : State :=
  match s.glb.patch with
  | some p =>
    if p.step != 6 then s
    else
      let a := s.fsh.image p.target + 48
      let s := s.modFsh (fun f => { f with
        slot := some p.target, outcome := 0, imageId := (f.identityOf p.target).1, imageVersion := (f.identityOf p.target).2
        svn := BitVec.ofNat 6 (f.val (a + 13) 1), revoke := BitVec.ofNat 4 (f.val (a + 14) 1)
        raiseFloor := (f.val (a + 15) 1).testBit 0, keySlot := BitVec.ofNat 2 (f.val (f.image p.target + 6) 1), fusesDue := true
        budget := ((f.payloads p.target 7).map (fun a => f.bytes a (f.val (a - 12) 4))).headD [] })
      s.leavePatch.raise .patchDone [i32 p.left]
  | none => s

/-- R205, R235: the Tack rewrites a core's DRAM bank copies from the loaded image: the bank that its role runs. -/
def State.rewriteCopy (c : Nat) (s : State) : State :=
  let x := s.core c
  let bank := s.fsh.slot.bind (fun b => (s.fsh.payloads b 5).find? (fun a => roleNamed (s.fsh.val a 1) x.role))
  match bank with
  | none => s
  | some a =>
    let new := s.fsh.microwords a (8192 * x.bank.toNat)
    let keep := x.copies.filter (fun p => decide (8192 ≤ p.1) != x.bank)
    s.modCore c (fun y => { y with copies := if x.bank then keep ++ new else new ++ keep, copyBad := false })

/-- R205: the copies that met an uncorrectable error are rewritten before a core is next released with the bank. -/
def State.mendCopies (s : State) : State :=
  s.each ((List.range 32).filter (fun c => (s.core c).copyBad)) State.rewriteCopy

/-- ADMISSION (R205, R310, R312, R364, R366): admission runs, and what waited for it follows. -/
def execAdmission (s : State) := ok (
  match s.blw.admitPend with
  | none => s
  | some t =>
    if !s.running || s.glb.mode == .fill || s.glb.mode == .load || s.glb.mode == .train then s
    else
      let s := s.whenB ((s.glb.patch.map (·.step)) == some 5 && s.outputs.isEmpty) State.patchCommit
      let s := s.mendCopies.runAdmission
      let s := if t = 1 then s.fenceOutcome else s
      s.endTakeover.patchDone)

/-! OTP fuses (R338, R436). -/

/-- OTP_FUSE_BLOW (R338): with a role taken and the power of R343 there, the fuses are blown. -/
def execOtpFuseBlow (s : State) := ok (
  if !s.fsh.fusesDue || s.glb.role == .none || !s.powerOk || (s.fltSrc 384).fenced || s.fsh.slot.isNone then s
  else
    let keep : BitVec 4 := ~~~(1#4 <<< s.fsh.keySlot.toNat)
    let new := s.fsh.revoke &&& keep &&& ~~~s.fsh.otpRevoked
    let up := s.fsh.raiseFloor && decide (s.fsh.floor.toNat < s.fsh.svn.toNat)
    let s := s.modFsh (fun f => { f with
      fusesDue := false, otpRevoked := f.otpRevoked ||| new, floor := if up then f.svn else f.floor })
    let s := if new = 0 then s else s.raise .otpKeyRevoked [.w16 (new.setWidth 16)]
    if up then s.raise .otpFloorRaised [.w32 (s.fsh.floor.setWidth 32)] else s)

end Sys2Proof.Machine
end

