-- ==== Sys2Proof/Machine/FlashCmds.lean ====
section
/-! DEFINITION. Stores of the flash as they end, IMAGE_WRITE and its seal, the event log's pages, and the waits for power
(R326, R343 to R351, R359, R391). -/

namespace Sys2Proof.Machine

/-! The queue of stores (R305, R306, R344). -/

/-- R305, R306: the rank of a store: IMAGE_WRITE at VIEW, the others at the level of the log's work class. -/
def State.storeRank (s : State) (x : Store) : Nat := if x.view then levelRank .view else levelRank (s.workLevel workFlush)

/-- R344: the operation in progress ends: the store that it served goes on or leaves, and the order of service is taken
again. -/
def State.endOp (x : Store) (rest : List Store) (s : State) : State :=
  s.modFsh (fun f =>
    let (m, left) := x.operate f.flash
    let q := (left.toList ++ rest).mergeSort (fun a b => decide (s.storeRank a ≤ s.storeRank b))
    { f with
      flash := m, busy := false, stores := q, genA := { f with flash := m }.genOf false, genB := { f with flash := m }.genOf true })

/-! IMAGE_WRITE (R345 to R347). -/

/-- R345: the slot that is written: the one not loaded; A when none is (DESIGN CHOICE, log entry 30). -/
def Fsh.writeSlot (f : Fsh) : Bool :=
  match f.slot with
  | some b => !b
  | none => false

/-- R351: IMAGE_WRITE of a slot completes with an error: its reason is kept, and reported once per update. -/
def State.failImage (slot : Nat) (off : BitVec 32) (st : Status) (why : BitVec 4) (s : State) : State :=
  let told := s.fsh.update.any (·.failed)
  let s := s.modFsh (fun f => { f with
    writeReason := why, update := f.update.map (fun u => { u with failed := true })
    stores := f.stores.filter (fun x => x.slot != some slot) })
  let s := if told then s else s.raise .imageWriteFailed [.w16 (why.setWidth 16), .w32 off]
  s.finish slot st (why.setWidth 32)

/-- R345, R348: the stores that erase and program whole sectors with `bs`. -/
def sectorStores (kind : Nat) (slot : Option Nat) (a : Nat) (bs : List Byte) : List Store :=
  (List.range (ceilDiv bs.length sector)).map (fun i => ⟨kind, a + sector * i, (bs.drop (sector * i)).take sector, true, slot⟩)

/-- R345: the stores of an IMAGE_WRITE: as an update begins, the header copies where the header is invalid and the erase of
the seal sector; then the bytes. -/
def State.imageStores (s : State) (slot : Nat) (off : Nat) (data : List Byte) : List Store :=
  let f := s.fsh
  let b := f.writeSlot
  let h := headerBytes f.size
  let first := if off ≠ 0 then []
    else (if f.headerOk then [] else [⟨stImage, 0, h, true, some slot⟩, ⟨stImage, sector, h, true, some slot⟩]) ++
      [⟨stImage, f.slotBase b, [], true, some slot⟩]
  first ++ sectorStores stImage (some slot) (f.image b + off) data

/-- R346: the image has been programmed: it is read back and tested, and its seal is stored. -/
def State.sealImage (slot : Nat) (off len : Nat) (s : State) : State :=
  let b := s.fsh.writeSlot
  let n := off + len
  let crc := crc32c (s.fsh.bytes (s.fsh.image b) n)
  let why := s.fsh.reason b n crc
  if why ≠ 0 then
    let s := s.modFsh (fun f => if b then { f with reasonB := why } else f)
    (s.failImage slot (BitVec.ofNat 32 off) .invalidField why).modFsh (fun f => { f with update := none })
  else
    let gen := match s.fsh.slot with
      | some x => s.fsh.genOf x + 1
      | none => 1
    s.queueStores [⟨stSeal, s.fsh.slotBase b, sealBytes gen n crc, false, some slot⟩]

/-- R345, R346: the stores of an IMAGE_WRITE have ended. -/
def State.imageStored (slot : Nat) (s : State) : State :=
  match (s.slot slot).bind (·.cmd) with
  | some (.imageWrite _ len off sealIt) =>
    if sealIt then s.sealImage slot off.toNat len
    else (s.modFsh (fun f => { f with update := some ⟨off.toNat + len, (f.update.map (·.failed)).getD false⟩ })).finish slot .success 0
  | _ => s

/-- R340, R346: the seal has been stored: the update ends, and without a loaded slot the loader runs again. -/
def State.sealed (slot : Nat) (s : State) : State :=
  let b := s.fsh.writeSlot
  let s := (s.modFsh (fun f => { f with update := none })).raise .imageSealed
    [i16 b.toNat, .w32 (s.fsh.genOf b), .w32 (s.fsh.identityOf b).1]
  let s := s.finish slot .success 0
  if s.fsh.slot.isNone then s.startLoad else s

/-- R345: IMAGE_WRITE begins: it is refused, or its stores are queued; an OFFSET of 0 discards the update that is open. -/
def State.imageBegin (slot len : Nat) (off : BitVec 32) (sealIt : Bool) (data : List Byte) (s : State) : State :=
  let o := off.toNat
  let room := slotSize s.fsh.size - sector
  let next := s.fsh.update.map (·.next)
  if !s.fsh.sfdpOk || s.glb.patch.isSome then s.failImage slot off .state 0
  else if (o ≠ 0 && next != some o) || room < o + len || o % sector ≠ 0 || (!sealIt && (len % sector ≠ 0 || len = 0)) then
    s.failImage slot off .invalidField 0xB
  else if data.length < len then s.failImage slot off .hostDma 0
  else
    let s := if o = 0 then s.modFsh (fun f => { f with update := some ⟨0, false⟩ }) else s
    let s := s.modSlot slot (fun x => { x with phase := .waiting, started := s.now })
    let q := s.imageStores slot o (data.take len)
    if q.isEmpty then s.imageStored slot else s.queueStores q

/-! Pages of the event log (R391). -/

/-- R388, R392: the entry of an index while the ring holds it. -/
def LogS.ringAt (l : LogS) (i : BitVec 32) : Option LogEntry :=
  if decide (1 ≤ (l.next - i).toNat) && decide ((l.next - i).toNat ≤ 8192) then l.ring.look none (i.toNat % 8192) else none

/-- R391: the entry that stands for an index held nowhere. -/
def missingIndex : LogEntry := ⟨0xFFFD0000, 0, 0, 0⟩

/-- R391: the header entry of a page whose first index is `i`. -/
def pageHeader (i : BitVec 32) : LogEntry := ⟨0xFFFE0000, i, 0, 0⟩

/-- R389: the words of entries. -/
def entryWords (es : List LogEntry) : List Word := es.flatMap (fun e => [e.w0, e.w1, e.w2, e.w3])

/-- R391: a page is due: 254 entries are unflushed, or the oldest has waited FLUSH_AGE, or the device halts. -/
def State.flushDue (s : State) : Bool :=
  let n := s.log.unflushed
  decide (254 ≤ n) || (decide (0 < n) && (s.log.times.head?.any (fun t => decide (t + s.log.flushAge * sec ≤ s.now)) || s.glb.mode == .halt))

/-- R348, R391: a page with up to 254 of the oldest unflushed entries is stored at the next position. -/
def State.storeLogPage (s : State) : State :=
  let l := s.log
  let n := min 254 l.unflushed
  let es := (List.range n).map (fun i => (l.ringAt (l.flushed + BitVec.ofNat 32 i)).getD missingIndex)
  let q := s.fsh.logSeq + 1
  let page := pageOf q 1 (wordBytes (entryWords (pageHeader l.flushed :: es))) s.padByte
  ((s.modFsh (fun f => { f with logSeq := q })).tickFree).queueStores
    [⟨stLog, 0x100000 + sector * (q.toNat % 1024), page, true, none⟩]

/-- LOG_FLUSH (R391): a page of the event log is due. -/
def execLogFlush (s : State) := ok (
  if s.glb.inReset || !s.fsh.sfdpOk || !s.flushDue || s.fsh.stores.any (fun x => x.kind == stLog) then s else s.storeLogPage)

/-- R391: the indices of a page leave the flash log as its sector is erased. -/
def State.dropLogPage (a : Nat) (s : State) : State :=
  if !s.fsh.pageOk a 1 then s
  else
    let (i, es) := s.fsh.logPage a
    s.modLog (fun l =>
      let t := l.flashLog.filter (fun p => !(decide (i ≤ p.1) && decide (p.1 < i + es.length)))
      { l with flashLog := t, oldest := (t.head?.map (fun p => BitVec.ofNat 32 p.1)).getD l.oldest })

/-- R391, R393: a page has been programmed: its entries are in the flash log and FLUSHED moves on. -/
def State.takeLogPage (a : Nat) (s : State) : State :=
  let (i, es) := s.fsh.logPage a
  (s.modLog (fun l =>
    let t := es.zipIdx.foldl (fun (t : Tbl (Option LogEntry)) e => t.put none (i + e.2) (some e.1)) l.flashLog
    { l with flashLog := t, flushed := BitVec.ofNat 32 (i + es.length), times := l.times.drop es.length
             oldest := (t.head?.map (fun p => BitVec.ofNat 32 p.1)).getD l.oldest })).served workFlush

/-! Occurrences. -/

/-- R345 to R348: what follows the end of a store of a kind. -/
def State.stored (x : Store) (s : State) : State :=
  if x.kind = stLog then s.takeLogPage (x.addr / sector * sector)
  else match x.slot with
    | some n =>
      if s.fsh.stores.any (fun y => y.slot == some n) then s
      else if x.kind = stSeal then s.sealed n
      else s.imageStored n
    | none => s

/-- FLASH_OP_DONE (R344): an erase or program operation ends, and the next one starts. -/
def execFlashOpDone (s : State) := ok (
  match s.fsh.stores with
  | [] => s
  | x :: rest =>
    if !s.fsh.busy then s.startOp
    else
      let t := if x.erase && x.kind == stLog then s.dropLogPage x.addr else s
      let t := (t.endOp x rest).latch 202
      let t := if (x.operate s.fsh.flash).2.isNone then t.stored x else t
      t.startOp)

/-- PWR_HOLD_CHANGE (R343): PWR_HOLD enables or stops stores that have not started. -/
def execPwrHoldChange (high : Bool) (s : State) := ok ((s.modFsh (fun f => { f with pwrHold := high })).startOp)

/-- R347: the wait of the store at the head exceeds 100 ms. -/
def State.waitEvent (s : State) : State :=
  match s.fsh.waitFrom, s.fsh.stores with
  | some t, x :: _ =>
    if t + 100 * ms < s.now ∧ ¬ s.fsh.waitRaised then
      (s.modFsh (fun f => { f with waitRaised := true })).raise .flashPowerWait [i16 x.writer]
    else s
  | _, _ => s

/-- R347: IMAGE_WRITE commands that have waited 10 s complete, and their updates stay open. -/
def State.endWaits (s : State) : State :=
  match s.fsh.waitFrom with
  | some t =>
    if s.now < t + 10 * sec then s
    else s.each ((s.fsh.stores.filterMap (·.slot)).eraseDups) (fun n s =>
      match (s.slot n).bind (·.cmd) with
      | some (.imageWrite _ _ off _) => s.failImage n off .state 0xC
      | _ => s)
  | none => s

/-- FLASH_POWER_WAIT (R347): a store has waited for power. -/
def execFlashPowerWait (s : State) := ok (
  let s := s.startOp
  if s.fsh.busy then s else s.waitEvent.endWaits)

/-- DEVICE_ADOPTED (R359, R369): the adoption record has been stored. -/
def execDeviceAdopted (s : State) := ok (
  match s.glb.adoptDue with
  | some r =>
    if s.fsh.stores.any (fun x => x.kind == stAdopt) then s
    else (s.modGlb (fun g => { g with adoptDue := none })).raise .deviceAdopted [.w16 (s.glb.adoptOut.setWidth 16), i16 r.side.toNat]
  | none => s)

end Sys2Proof.Machine
end

