-- ==== Sys2Proof/Machine/HostOps.lean ====
section
/-! DEFINITION. Submission entries as they are fetched, slots, and the frame in which a command executes: its path and scope,
the order of R279, what a mode forbids, and mirroring (R274, R278 to R287, R340, R367, R426). -/

namespace Sys2Proof.Machine

/-! Decoding of a submission entry (R280, R283, R284). -/

/-- Word `i` of an entry. -/
def entryWord (ws : List Word) (i : Nat) : Word := ws.getD i 0

/-- R283: the column of a path: the admin queue, in-band supervision, a COMMAND queue. -/
inductive Letter where
  | a | b | i
  deriving DecidableEq, Repr

/-- R283: the opcodes that each path carries. -/
def opcodeOn (l : Letter) (op : Nat) : Bool :=
  match l with
  | .a => decide (1 ≤ op ∧ op ≤ 0x13)
  | .b => decide (5 ≤ op ∧ op ≤ 0x10) || op == 0x12
  | .i => decide (4 ≤ op ∧ op ≤ 0x10) || op == 0x13 || decide (0x40 ≤ op ∧ op ≤ 0x43)

/-- All bits of a word. -/
abbrev allBits : Word := 0xFFFFFFFF

/-- R284: the bits of the words after word 0 that an opcode lists. -/
def listedBits (op : Nat) : List (Nat × Word) :=
  let target : List (Nat × Word) := [(1, 0xFFFF)]
  let addr : List (Nat × Word) := [(2, allBits), (3, allBits)]
  let addr2 : List (Nat × Word) := [(4, allBits), (5, allBits)]
  let len : List (Nat × Word) := [(6, allBits)]
  let pos : List (Nat × Word) := [(8, 0xFFFFE000), (9, allBits)]
  match op with
  | 0x01 => target ++ addr ++ addr2 ++
      [(8, allBits), (9, 0xFC0000FF), (10, 0xFFFF07FF), (11, allBits), (12, allBits), (13, 0xFF)]
  | 0x02 | 0x08 | 0x0A | 0x0B | 0x0C | 0x0D | 0x0E => target
  | 0x03 => addr ++ len
  | 0x04 | 0x13 => addr ++ len ++ [(8, allBits)]
  | 0x05 | 0x07 => [(8, allBits), (9, allBits)]
  | 0x06 => [(8, allBits)]
  | 0x09 | 0x0F => target ++ pos
  | 0x10 => target ++ [(8, 1)]
  | 0x11 => addr ++ len ++ [(8, allBits), (9, 1)]
  | 0x40 => target ++ addr ++ addr2 ++ [(8, allBits), (9, allBits), (10, 0xFFFF), (11, 1)]
  | 0x41 => target ++ addr ++ len ++ [(8, 1)]
  | 0x42 => target ++ addr ++ addr2 ++ len ++ [(8, allBits), (9, allBits)]
  | 0x43 => target ++ addr ++ len
  | 0x50 => addr
  | _ => []

/-- R280, R284: a reserved or unlisted bit is set, or ADDR is not aligned to 64 bytes. -/
def entryBad (op : Nat) (ws : List Word) : Bool :=
  let ls := listedBits op
  let listed (i : Nat) : Word := ((ls.find? (fun x => x.1 == i)).map (·.2)).getD 0
  decide (entryWord ws 0 &&& 0xDF00 ≠ 0) ||
  (List.range 15).any (fun i => decide (entryWord ws (i + 1) &&& ~~~ listed (i + 1) ≠ 0)) ||
  decide (entryWord ws 2 &&& 0x3F ≠ 0)

/-- R11, R284: the identifier that TARGET names lies outside its range: ID_RANGE for one of R11, else INVALID_FIELD. Queue 0, the admin
queue, can be neither created nor deleted: ID_RANGE too, before any test of R276 (DESIGN CHOICE, log entry 14). -/
def targetBad (op n : Nat) : Option Status :=
  if op = 1 ∨ op = 2 then (if n = 0 ∨ 1024 < n then some .idRange else none)
  else if op = 8 ∨ op = 9 ∨ op = 10 then (if 3 < n then some .invalidField else none)
  else if op = 0x10 then (if 15 < n then some .invalidField else none)
  else if 255 < n then some .idRange
  else none

/-- R275: KIND. -/
def qkindOf (n : Nat) : QKind :=
  match n with
  | 0 => .command
  | 1 => .output
  | 2 => .event
  | _ => .reserved

/-- R284: the command that an entry with a known opcode spells. -/
def parseEntry (op : Nat) (ws : List Word) : HostCmd :=
  let w := entryWord ws
  let t := (w 1 &&& 0xFFFF).toNat
  let addr := w 3 ++ w 2
  let addr2 := w 5 ++ w 4
  let len := (w 6).toNat
  let hi (x : Word) : BitVec 16 := x.extractLsb' 16 16
  let lo (x : Word) : BitVec 16 := x.extractLsb' 0 16
  match op with
  | 0x01 => .createQueue t addr addr2 (hi (w 8)) (lo (w 8)) (qkindOf ((w 9).extractLsb' 30 2).toNat) ((w 9).extractLsb' 26 4)
      ((w 9).extractLsb' 0 8) (if (hi (w 10)).toNat < 16384 then (w 10).extractLsb' 16 14 else 0x3FFF) ((w 10).extractLsb' 0 11)
      (w 12 ++ w 11) (w 13 &&& 0xFF).toNat
  | 0x02 => .deleteQueue t
  | 0x03 => .identify addr len
  | 0x04 => .getLog addr len (w 8)
  | 0x05 => .setEvents (w 9 ++ w 8)
  | 0x06 => .regRead (w 8).toNat
  | 0x07 => .regWrite (w 8).toNat (w 9)
  | 0x08 => .txnBegin t
  | 0x09 => .txnCommit t ((w 8).extractLsb' 27 5) ((w 8).extractLsb' 13 14) (w 9)
  | 0x0A => .txnAbort t
  | 0x0B => .streamStart t
  | 0x0C => .streamRejoin t
  | 0x0D => .streamQuench t
  | 0x0E => .streamUnquench t
  | 0x0F => .sweepRestart t ((w 8).extractLsb' 27 5) ((w 8).extractLsb' 13 14) (w 9)
  | 0x10 => .outputSet t ((w 8).getLsbD 0)
  | 0x11 => .imageWrite addr len (w 8) ((w 9).getLsbD 0)
  | 0x12 => .patch
  | 0x13 => .ctxRead addr len (w 8).toNat
  | 0x40 => .encPost t addr addr2 (hi (w 8)) (lo (w 8)) (lo (w 10) ++ w 9) ((w 11).getLsbD 0)
  | 0x41 => .decPost t addr len ((w 8).getLsbD 0)
  | 0x42 => .frameRead t addr addr2 len (w 8) (hi (w 9)) (lo (w 9))
  | _ => .ledgerRead t addr len

/-- The opcode of an entry (R280). -/
def entryOp (ws : List Word) : Nat := (entryWord ws 0 &&& 0xFF).toNat

/-- R280 to R284: a fetched entry: its command, or the status with which it completes at once. -/
def decodeEntry (l : Letter) (ws : List Word) : Status × Option HostCmd :=
  let op := entryOp ws
  if !opcodeOn l op then (.invalidOpcode, none)
  else if entryBad op ws then (.invalidField, none)
  else match targetBad op (entryWord ws 1 &&& 0xFFFF).toNat with
    | some st => (st, none)
    | none => (.success, some (parseEntry op ws))

/-! Paths (R274, R283, R295, R426). -/

/-- R283: the column of a source path. -/
def srcLetter : SrcPath → Letter
  | .queue 0 => .a
  | .queue _ => .i
  | .key _ => .b

/-- What a command's path gives it: the writer and opener that it acts as, its function, and its scope. -/
structure Ctx where
  writer : Writer
  opener : Opener
  fn : Option Nat
  scope : Option Nat
  deriving DecidableEq, Repr

/-- R274, R295: what a path gives a command; a key acts as the admin queue, and one of a single partition has no function. -/
def State.ctxOf (s : State) (p : CmdPath) : Ctx :=
  let lead := match p with
    | .lead _ => true
    | _ => false
  match p.src with
  | .queue q => ⟨.queue q, if lead then .lead else .queue q, some (s.hqQ q).func.toNat, s.writerScope (.queue q)⟩
  | .key k =>
    let sc := s.writerScope (.key k)
    ⟨.key k, if lead then .lead else .key k, if sc.isNone then some 0 else none, sc⟩

/-- R274: a stream is one of the command's scope. -/
def Ctx.owns (x : Ctx) (s : State) (i : Nat) : Bool := x.scope.all (fun p => s.streamOf p i)

/-! Slots (R278). -/

/-- A command's outcome: its status and result, or none while it stays in execution. -/
abbrev Res : Type := State × Option (Status × Word)

/-- A command completes. -/
def State.say (st : Status) (r : Word) (s : State) : Res := (s, some (st, r))

/-- R278: the lowest free slot of `n` from `a`. -/
def State.freeSlot (s : State) (a n : Nat) : Option Nat := ((List.range n).map (a + ·)).find? (fun i => (s.slot i).isNone)

/-- R278: the I/O slots that the queues of a function hold. -/
def State.slotsOf (s : State) (fn : BitVec 4) : Nat :=
  (s.hq.slots.filter (fun x => match x.2.path with
    | .queue 0 => false
    | .queue q => (s.hqQ q).func == fn
    | _ => false)).length

/-- R278: the slot that queue `q` may take. -/
def State.slotFor (s : State) (q : Nat) : Option Nat :=
  if q = 0 then s.freeSlot 0 16
  else if 32 ≤ (s.hqQ q).inExec ∨ 64 ≤ s.slotsOf (s.hqQ q).func then none
  else s.freeSlot 32 224

/-- R278: an entry takes a slot; one that is refused as it is fetched is done. -/
def State.takeEntry (n : Nat) (p : CmdPath) (head : Nat) (ws : List Word) (s : State) : State :=
  let (st, c) := decodeEntry (srcLetter p.src) ws
  s.modHq (fun h => { h with
    nextOrder := h.nextOrder + 1
    slots := h.slots ++ [(n, { Slot.reset with
      path := p, cid := (entryWord ws 0).extractLsb' 16 16, sqHead := head, order := h.nextOrder, fence := (entryWord ws 0).getLsbD 13
      entry := ws, cmd := c, phase := if c.isNone then .done else .ready, status := st, fetched := s.time, started := s.now })] })

/-- A slot is freed. -/
def State.dropSlot (n : Nat) (s : State) : State := s.modHq (fun h => { h with slots := h.slots.filter (fun x => x.1 != n) })

/-! The start of execution (R279, R287, R340, R367, R377). -/

/-- R340: the loader has stopped, and the endpoint serves the admin queue alone. -/
def State.loaderStopped (s : State) : Bool := s.glb.mode == .load && s.hq.up && s.fsh.slot.isNone && s.fsh.loader.cur.isNone

/-- R287: commands that a shadow executes directly. -/
def HostCmd.direct : HostCmd → Bool
  | .identify .. | .getLog .. | .regRead _ | .ctxRead .. | .frameRead .. | .ledgerRead .. | .imageWrite .. => true
  | _ => false

/-- R367: opcodes that HALT accepts. -/
def HostCmd.inHalt : HostCmd → Bool
  | .identify .. | .getLog .. | .regRead _ | .ctxRead .. => true
  | _ => false

/-- R340: opcodes that a device without an image accepts. -/
def HostCmd.inLoad : HostCmd → Bool
  | .identify .. | .getLog .. | .regRead _ | .imageWrite .. => true
  | _ => false

/-- R426: state-changing commands that a lead mirrors as they begin; transactions, sweep restarts, PATCH and posted data have
frames or times of their own. -/
def HostCmd.mirrored : HostCmd → Bool
  | .createQueue .. | .deleteQueue _ | .setEvents _ | .regWrite _ _ | .streamStart _ | .streamRejoin _ | .streamQuench _
  | .streamUnquench _ | .outputSet _ _ => true
  | _ => false

/-- R249, R283: commands that an open transaction of their opener buffers. -/
def HostCmd.buffered : HostCmd → Bool
  | .regWrite _ _ | .streamQuench _ | .streamUnquench _ => true
  | _ => false

/-- A slot holds an IMAGE_WRITE whose stores are under way. -/
def Slot.storing (x : Slot) : Bool :=
  x.phase == .waiting && (match x.cmd with
    | some (.imageWrite ..) => true
    | _ => false)

/-- R279, R345, R353, R377: the command of a slot may begin: the commands before it on its path have begun, and with FENCE have
completed; the mode accepts commands; and the Tack, or the IMAGE_WRITE before it, is not waited for. -/
def State.begins (s : State) (x : Slot) (c : HostCmd) : Bool :=
  let before := s.hq.slots.filter (fun y => y.2.path == x.path && decide (y.2.order < x.order))
  let mode := match s.glb.mode with
    | .fill | .rest => false
    | .load => s.loaderStopped
    | _ => true
  let image := match c with
    | .imageWrite .. => s.hq.slots.any (fun y => y.2.storing)
    | _ => false
  !s.glb.inReset && x.phase == .ready && mode && (if x.fence then before.isEmpty else before.all (fun y => y.2.phase != .ready)) &&
  !(c.needsTack && (s.tck.st == .restarting || s.tck.st == .held)) && !image

/-- R287, R340, R367: the status with which the mode turns a command away. -/
def State.gate (s : State) (c : HostCmd) (p : CmdPath) : Option Status :=
  if s.glb.mode = .halt then (if c.inHalt && p == .queue 0 then none else some .state)
  else if s.glb.mode = .load then (if c.inLoad then none else some .state)
  else if s.shadowed && !c.direct then some .mirrored
  else none

/-- R426: a lead sends its twin a state-changing command as its execution begins. -/
def State.mirrorCmd (x : Slot) (c : HostCmd) (s : State) : State :=
  if s.glb.role = .lead && c.mirrored && !(c.buffered && (s.openOf (s.ctxOf x.path).opener).isSome) then
    s.gPut (.command x.path.src x.entry)
  else s

/-- The command of slot `n` begins, if it is one that `f` executes. -/
def State.onSlot (n : Nat) (f : HostCmd → Option (Ctx → State → Res)) (s : State) : State :=
  match s.slot n with
  | none => s
  | some x => match x.cmd with
    | none => s
    | some c => match f c with
      | none => s
      | some g =>
        if !s.begins x c then s
        else match s.gate c x.path with
          | some st => s.finish n st 0
          | none => match g (s.ctxOf x.path) (s.mirrorCmd x c) with
            | (t, some (st, r)) => t.finish n st r
            | (t, none) => t

/-- R282: the bytes that the command of slot `n` writes to host memory; it completes with `r` when their DMA is done. -/
def State.sendOut (n : Nat) (r : Word) (out : List (Nat × List Byte)) (s : State) : Res :=
  let size := (out.map (fun x => x.2.length)).sum
  if size = 0 then s.say .success r
  else ((s.modSlot n (fun x => { x with phase := .waiting, result := r, out := out, started := s.now })).modHq
    (fun h => { h with dmas := h.dmas ++ [(n, size)] }), none)

/-! Fetching (R277, R278). -/

/-- R272, R278, R340, R367: the engine fetches: in HALT from the admin queue alone. -/
def State.fetching (s : State) (q : Nat) : Bool :=
  !s.glb.inReset && s.hq.up && !s.hq.fenced &&
  (match s.glb.mode with
    | .fill | .rest => false
    | .halt => q == 0
    | _ => true)

/-- R278: queue `q` has an entry and may take a slot. -/
def State.mayFetch (s : State) (q : Nat) : Bool :=
  let x := s.hqQ q
  s.fetching q && x.valid && x.kind == .command && x.sqHead != x.sqTail && (s.slotFor q).isSome

/-- R278: weighted round robin: the queue whose turn it is, up to WEIGHT entries, then the next one that may fetch. -/
def State.nextIo (s : State) : Option Nat :=
  let t := s.hq.turnQ
  if t ≠ 0 && s.mayFetch t && decide ((s.hqQ t).turn < (s.hqQ t).weight.toNat) then some t
  else
    let qs := (s.hq.queues.map (·.1)).filter (fun q => q != 0 && s.mayFetch q)
    (qs.find? (fun q => decide (t < q))).or qs.head?

/-- COMMAND_FETCH (R278): the admin queue with strict priority, else the queue whose turn it is. -/
def execCommandFetch (q : Nat) (ws : List Word) (s : State) := ok (
  if !s.mayFetch q || (q != 0 && (s.mayFetch 0 || s.nextIo != some q)) then s
  else match s.slotFor q with
    | none => s
    | some n =>
      let x := s.hqQ q
      let head := (x.sqHead + 1) % x.sqSize
      let same := s.hq.turnQ == q && decide (x.turn < x.weight.toNat)
      let s := s.modHqQ q (fun x => { x with sqHead := head, inExec := x.inExec + 1, turn := if same then x.turn + 1 else 1 })
      let s := if q = 0 then s else s.modHq (fun h => { h with turnQ := q })
      s.takeEntry n (.queue q) head ws)

/-- HQ_DOORBELL (R273, R277): a doorbell of BAR0, or of a VF's own queues. -/
def execHqDoorbell (fn q : Nat) (cq : Bool) (v : Word) (s : State) := ok (
  let own := fn == 0 || (s.hq.vfEnable && (s.fnPart fn).isSome && (s.hqQ q).func.toNat == fn)
  if s.glb.inReset || !s.hq.up || !own then s else s.doorbell q cq v)

/-- QUEUE_POLL (R277): SQ tail and CQ head of a polled queue's shadow. -/
def execQueuePoll (q : Nat) (shadow : BitVec 64) (s : State) := ok (
  let x := s.hqQ q
  if !s.fetching q || !x.valid || x.poll == 0 then s
  else ((if x.kind = .event then s else s.newTail q (shadow.extractLsb' 0 32).toNat)).newHead q (shadow.extractLsb' 32 32).toNat)

/-! Completion (R281, R295). -/

/-- R281, R295: the completion entry of a command that came in band: SQ_HEAD and PHASE belong to no queue and are free values. -/
def State.keyEntry (s : State) (x : Slot) : List Byte :=
  let head : BitVec 16 := (Config.freeWord s.freeCtr).setWidth 16
  let phase : Word := if Config.freeBool s.freeCtr then 0x80000000 else 0
  wordBytes [x.result, head ++ (0 : BitVec 16), x.cid ++ (0 : BitVec 8) ++ x.flags, phase ||| x.status.code.setWidth 32]

/-- R294: TAG: the 32 bytes of HMAC-SHA-256. -/
def msgTag (key body : List Byte) : List Byte := (List.range 32).map (fun i => (Config.hmac key body).getD i 0)

/-- R240, R295: the reply, once every entry of a message is completed: header, completion entries and TAG, on TC7; with 46 bytes of
Ethernet, IPv4 and UDP about it (PRESUMED, log entry 220). -/
def State.reply (m : KeyMsg) (s : State) : State :=
  let key := ((s.hq.keys.look none m.key).map (·.key)).getD []
  let body := m.head ++ m.entries.flatten
  (s.modHq (fun h => { h with replies := h.replies ++ [⟨m.sender, m.port, body ++ msgTag key body⟩] })).sendTack 7
    (body.length + 78) (body.length + 32)

/-- R295: a command of an in-band message is completed. -/
def State.keyComplete (n : Nat) (x : Slot) (s : State) : State :=
  let e := s.keyEntry x
  let fill (m : KeyMsg) : KeyMsg := match m.slots.idxOf? (some n) with
    | some i => { m with slots := m.slots.set i none, entries := m.entries.set i e }
    | none => m
  let ms := s.hq.msgs.map fill
  let s := (s.modHq (fun h => { h with msgs := ms.filter (fun m => m.slots.any (·.isSome)) })).tickFree
  (s.each (ms.filter (fun m => m.slots.all (·.isNone))) State.reply).dropSlot n

/-- COMMAND_COMPLETE (R278, R281): the completion entry is written when the CQ has space, and the slot is freed. -/
def execCommandComplete (n : Nat) (s : State) := ok (
  match s.slot n with
  | none => s
  | some x =>
    if x.phase != .done then s
    else match x.path with
      | .queue q =>
        if (s.hqQ q).cqFull then s
        else
          let s := s.cqPut q x.result (BitVec.ofNat 16 x.sqHead ++ BitVec.ofNat 16 q) (x.cid ++ (0 : BitVec 8) ++ x.flags)
            (x.status.code.setWidth 32)
          (s.modHqQ q (fun y => { y with inExec := y.inExec - 1 })).dropSlot n
      | .key _ => s.keyComplete n x
      | .lead _ => s.dropSlot n)

end Sys2Proof.Machine
end

