-- ==== Sys2Proof/Machine/RasterCmds.lean ====
section
/-! DEFINITION. The start of a line: the transactions and line events due at it, the gates, the ST 2110-20 ports, the first
picture and the twin's snapshot (R44 to R48, R178, R179, R182, R358, R427); the frames of input rasters, realignment and
retiming (R41, R42, R51, R52). -/

namespace Sys2Proof.Machine

/-! Positions passed over (R48, R51). -/

/-- R39: the absolute line index of a position. -/
def State.indexOf (s : State) (k : Nat) (f : Int) (n : Nat) : Int := f * ((s.raster k).fmt.lt : Int) + n

/-- R48: Once entries and armed transactions of raster `k` whose positions lie before line index `m` and did not fire. -/
def State.passOver (k : Nat) (m : Int) (s : State) : State :=
  let es := (s.ras.events.filter (fun x => x.2.valid && !x.2.latePend && x.2.mode == 1 && x.2.raster.toNat == k &&
    decide (s.indexOf k (s.fullFrame k x.2.frame) x.2.line.toNat < m))).map (·.1)
  let ts := (List.range 4).filter (fun t =>
    let x := s.trans t
    x.st == .armed && !x.late && x.raster.toNat == k && decide (s.indexOf k x.posFrame x.line.toNat < m))
  (s.each es State.ageEvent).each ts (fun t s =>
    let x := s.trans t
    match s.due k x.posFrame x.line.toNat (s.txnLate t) with
    | .coming => s
    | .late => s.modTrans t (fun x => { x with late := true })
    | .expired => s.endTxn t .expired)

/-! What is due at a line (R44 to R46, R470). -/

/-- R44: the frame and row of the occurrence of a row-mode entry at line `n` of frame `f`; other entries have no row. -/
def LineEvent.occurrence (e : LineEvent) (fmt : RasterFmt) (f n : Nat) : Option (Nat × Nat) :=
  (rowEnds fmt).zipIdx.findSome? (fun (x : Nat × Nat) =>
    let l := x.1 + e.line.toNat
    if l = n then some (f, x.2) else if l = n + fmt.lt ∧ 0 < f then some (f - 1, x.2) else none)

/-- R44, R48: an armed entry fires at a line. -/
def LineEvent.fires (e : LineEvent) (fmt : RasterFmt) (p : LinePos) : Bool :=
  e.valid && e.raster.toNat == p.raster && (e.latePend || (match e.mode.toNat with
    | 0 => e.line.toNat == p.line
    | 1 => e.line.toNat == p.line && e.frame == BitVec.ofNat 32 p.frame
    | 2 => e.line.toNat == p.line && p.frame % (e.frame &&& 0xFFFF).toNat == (e.frame >>> 16).toNat
    | _ => (e.occurrence fmt p.frame p.line).isSome))

/-- R45: the order of an action. -/
def actionOrder (a : Nat) : Nat :=
  match a with
  | 1 => 3
  | 2 => 1
  | 3 => 4
  | 4 => 5
  | 5 => 6
  | 6 => 2
  | _ => 7

/-- An entry that is due: its number, what it held as the line began, and the line. -/
structure Firing where
  n : Nat
  e : LineEvent
  p : LinePos
  deriving DecidableEq, Repr

/-- R46: the order among the entries due at one instant. -/
def Firing.before (a b : Firing) : Bool :=
  let ka := (actionOrder a.e.action.toNat, a.p.raster, a.n)
  let kb := (actionOrder b.e.action.toNat, b.p.raster, b.n)
  decide (ka.1 < kb.1) || (ka.1 == kb.1 && (decide (ka.2.1 < kb.2.1) || (ka.2.1 == kb.2.1 && decide (ka.2.2 ≤ kb.2.2))))

/-- R46, R401: the entries that fire at the lines `ps`, in order; those of an input raster need a measured frame, and those
under RELOAD are absent. -/
def State.firings (s : State) (ps : List LinePos) : List Firing :=
  (ps.flatMap (fun p =>
    if decide (16 ≤ p.raster) && !(s.raster p.raster).measured then []
    else (s.ras.events.filter (fun x => x.2.fires (s.raster p.raster).fmt p && !s.reloading 376 x.1)).map
      (fun x => (⟨x.1, x.2, p⟩ : Firing)))).mergeSort Firing.before

/-- R48, R470: the armed transactions due at the lines `ps`, in the order of arming. -/
def State.txnsDue (s : State) (ps : List LinePos) : List Nat :=
  ((List.range 4).filter (fun t =>
    let x := s.trans t
    x.st == .armed && ps.any (fun p => x.raster.toNat == p.raster && (x.late || (x.posFrame == p.frame && x.line.toNat == p.line))))).mergeSort
    (fun a b => decide ((s.trans a).armSeq ≤ (s.trans b).armSeq))

/-! Actions (R45). -/

/-- R43, R44, R48: what the table records of a firing. -/
def State.recordFiring (g : Firing) (s : State) : State :=
  let e := g.e
  let s := s.modLineEvent g.n (fun x => { x with
    fired := true, count := x.count + 1, valid := x.valid && e.mode != 1, late := x.late || e.latePend, latePend := false })
  if !e.latePend then s
  else
    let k := g.p.raster
    let late := s.indexOf k g.p.frame g.p.line - s.indexOf k (s.fullFrame k e.frame) e.line.toNat
    (s.latch 49).raiseP e.part.toNat .lineEventLate [i16 g.n, i32 late.toNat]

/-- R45, R470: an entry commits an OPEN transaction within its scope, at its line. -/
def State.eventCommit (g : Firing) (s : State) : State :=
  let t := g.e.target.toNat
  let x := s.trans t
  if x.st != .opened || !g.e.scope.all (fun p => x.scope == some p) then s
  else
    let q := s.txn.armNext
    let s := (s.modTrans t (fun x => { x with
      st := .armed, raster := BitVec.ofNat 5 g.p.raster, line := BitVec.ofNat 14 g.p.line, frame := BitVec.ofNat 32 g.p.frame
      posFrame := g.p.frame, armSeq := q, late := false })).modTxn (fun y => { y with armNext := q + 1 })
    (s.mirrorTxn (s.commitMsg t)).commitTxn t

/-- R45: the release of a CTU-row task: of the row that a row-mode entry names, else of the next row of the frame. -/
def State.eventRelease (g : Firing) (s : State) : State :=
  let i := g.e.target.toNat
  if g.e.mode = 3 then
    match g.e.occurrence (s.raster g.p.raster).fmt g.p.frame g.p.line with
    | some (f, r) => s.encRelease i f r
    | none => s
  else
    let r := (((s.encS i).pics.find? (fun p => p.frame == g.p.frame && !p.zeroMotion)).map (·.released)).getD 0
    s.encRelease i g.p.frame r

/-- R45: the action of a firing, but for the start of DMA channels. -/
def State.act (g : Firing) (s : State) : State :=
  let t := g.e.target.toNat
  match g.e.action.toNat with
  | 1 => s.eventRelease g
  | 2 => s.eventCommit g
  | 4 => s.modIrcSrc t (fun x => { x with soft := true })
  | 5 => s.msix t
  | 6 => if g.e.arg = 0 ∨ g.e.arg = 1 then s.setIntent t (g.e.arg == 1) else s
  | 7 => s.modRas (fun r => { r with stamps := r.stamps.put 0 (g.e.arg.toNat % 16) s.ptp })
  | _ => s

/-- R45, R46: the firings of an instant, in order; the DMA channels among them start together. -/
def State.actAll (gs : List Firing) (s : State) : State :=
  let first := gs.filter (fun g => decide (actionOrder g.e.action.toNat < 4))
  let dmas := gs.filter (fun g => g.e.action == 3)
  let rest := gs.filter (fun g => decide (4 < actionOrder g.e.action.toNat))
  let s := (s.each gs State.recordFiring).each first State.act
  (s.whenB (!dmas.isEmpty) (State.dmaStartAll (dmas.map (fun g => g.e.target.toNat)))).each rest State.act

/-! Outputs (R178, R182, R358). -/

/-- R182, R409: output raster `k` carries video. -/
def State.outputCarries (s : State) (k : Nat) : Bool :=
  let p := s.outP k
  p.intent && !p.gated && !s.outputDead k && !(s.raster k).retiming && s.serving && (decide (8 ≤ k) || (s.dpo k).link == .active)

/-- R174, R175: output port `k` sends the composed stream: an ACTIVE port with INTENT, also a gated one in SHADOW, DEGRADED, TAKEOVER
and a PATCH entered from SHADOW; an ST 2110-20 output, which no board switch follows, only when it is not gated. -/
def State.portSends (s : State) (k : Nat) : Bool :=
  let p := s.outP k
  let g := s.glb
  p.intent && !(s.raster k).retiming && !s.outputDead k && s.serving &&
  (if k < 8 then (s.dpo k).link == .active && (!p.gated || g.mode == .shadow || g.mode == .degraded || g.mode == .takeover ||
    (g.mode == .patch && g.role == .shadow)) else !p.gated)

/-- R171, R175: the port of output raster `k` starts an active line: what the output buffer holds of it, or no video stream. -/
def State.portLine (p : LinePos) (s : State) : State :=
  if (s.raster p.raster).fmt.la ≤ p.line then s
  else s.modOutP p.raster (fun y => { y with wire := if s.portSends p.raster then some (s.outLine p.raster p.line) else none })

/-- R178: the payload bytes of a full packet: the greatest whole number of pgroups that the MTU holds beside the headers. -/
def linePayload (f : RasterFmt) (mtu : Nat) : Nat := (mtu - 48) / pgroup f * pgroup f

/-- R178: Q, the packets of a frame. -/
def State.framePackets (s : State) (k : Nat) : Nat :=
  let f := (s.raster k).fmt
  f.la * ceilDiv f.lineBytes (linePayload f (s.mtuOf (s.outP k).flows))

/-- SYNC_MESSAGE (R32, R34, R53, R261): the Tack dequeues a Sync message of the accepted grandmaster, which shows the offset `e`; the
clock estimates the grandmaster's rate anew. A queue in UNREAD gives none. -/
def execSyncMessage (e : Int) (s : State) := ok (
  if s.rxUnread 0 then s.rxTake 0
  else
    let s := s.rxTake 0
    if s.ras.clk.st = .locked ∨ s.ras.clk.st = .relocking then s.estimateRate.syncOffset e else s)

/-- R178: the packets of a line of an ST 2110-20 output are handed to its flows; at line 0 a lead reports the extended
sequence number. -/
def State.sendLine (p : LinePos) (s : State) : State :=
  let k := p.raster
  let f := (s.raster k).fmt
  if f.la ≤ p.line || !s.outputCarries k then s
  else
    let s := if p.line = 0 ∧ s.glb.role = .lead then s.gPut (.port (.st2110 k p.frame (s.outP k).extSeq)) else s
    let pay := linePayload f (s.mtuOf (s.outP k).flows)
    let data := packLine f (pixelLine f (s.outLine k p.line))
    let (_, _, px) := groupShape (pgroup f)
    let n := ceilDiv f.lineBytes pay
    let ts := rtpTime (s.lineTime k p.frame 0).toNat
    s.each (List.range n) (fun j s =>
      let x := (s.outP k).extSeq
      let bytes := min pay (f.lineBytes - j * pay)
      let h : Rtp := ⟨Config.outSsrc k, x.setWidth 16, (x >>> 16).setWidth 16, ts, p.line + 1 == f.la && j + 1 == n, .other, p.line,
        Config.outPayType k, j * pay / pgroup f * px, (data.drop (j * pay)).take bytes⟩
      let pkt : Pkt := { s.newPkt 10 (bytes + 66) bytes 0 2 4 0 with rtp := some h, dscp := Config.outDscp k }
      (s.modOutP k (fun y => { y with extSeq := x + 1 })).sendCopies pkt (s.outP k).flows)

/-- R182, R423: GATED of an output raster changes at the start of its line LA; after a takeover an ST 2110-20 output goes on
from the lead's last report. -/
def State.applyGate (k f : Nat) (s : State) : State :=
  match (s.outP k).pendGate with
  | none => s
  | some v =>
    let s := s.modOutP k (fun p => { p with gated := v, pendGate := none })
    let s := s.raise .outputGateChanged [i16 k, i16 v.toNat]
    if v || s.glb.mode != .takeover then s
    else
      let s := s.modGlb (fun g => let g := { g with ungated := true }; { g with own := g.ownMode && s.hbFresh })
      if k < 8 then s.modDpo k (fun p => { p with switched := true })
      else match (s.outP k).peerSeq with
        | some (g, x) => s.modOutP k (fun p => { p with extSeq := x + BitVec.ofNat 32 (s.framePackets k * (f + 1 - g)) })
        | none => s

/-- R358, R368: the first picture. -/
def State.firstPic (k : Nat) (s : State) : State :=
  if s.glb.firstPicture || !s.outputCarries k then s
  else
    let s := (s.modGlb (fun g => { g with firstPicture := true })).stampEnd 4
    s.raise .startComplete ((List.range 5).map (fun i => .w32 (s.glb.tEnd.look 0 i)))

/-! The snapshot (R427). -/

/-- R426: a transaction mirrored by the lead is armed at the lead's position. -/
def State.armMirror (m : MirrorTxn) (s : State) : State :=
  let s := if (s.trans m.t).st = .free then s else s.endTxn m.t .aborted
  let s := (s.beginTxn m.t .lead m.scope).modTrans m.t (fun x => { x with writes := m.writes })
  let s := s.armTxn m.t m.pos.raster m.pos.line m.pos.frame
  if (s.trans m.t).st ≠ .armed then s.outOfStep m.t
  else if m.pos.raster = nowRaster then s.commitTxn m.t else s

/-- R427: step 3: a shadow applies the snapshot as one transaction, and then those mirrored meanwhile. -/
def State.applySnapshot (s : State) : State :=
  let ready := s.grt.snapEnd.any (fun t => decide (t + 10 * ms ≤ s.now))
  if s.glb.role != .shadow || s.grt.link != .up || !ready then s
  else
    let ws := s.grt.snapshot
    let ms := s.grt.mirrored
    let s := s.modGrt (fun g => { g with snapshot := [], mirrored := [], snapEnd := none })
    match s.tryCommit .tack none ws with
    | (_, some _) => s
    | (u, none) =>
      let u := u.each ws (fun x => State.journalPut x.1 x.2)
      let u := if ws.isEmpty then u else (u.modTxn (fun y => { y with seq := y.seq + 1 })).markChange
      let u := if sameAdmission s u then u else u.wantAdmission 2
      (u.modGrt (fun g => { g with configSync := true })).each ms State.armMirror

/-! Lines (R46, R179, R377). -/

/-- R52: where a committed change of a raster stands as line `n` begins: an output raster's waits for the first frame boundary after its
commit, and takes effect there; an input raster's takes effect where it is committed. -/
def ChangeSt.atLine (output : Bool) (n : Nat) (c : ChangeSt) : ChangeSt :=
  match c with
  | .none => .none
  | .committed => if !output then .none else if n = 0 then .due else .committed
  | .due => .none

/-- R46: the line of a raster that begins. -/
def State.enterLine (p : LinePos) (s : State) : State :=
  s.modRaster p.raster (fun r => { r with frame := p.frame, line := p.line, change := r.change.atLine (decide (p.raster < 16)) p.line })

/-- R46, R51: a position that its raster can reach now: one of a raster in use, of the frame in progress on a measured one, and
a later line of that frame on one that is to be realigned, whose added lines carry no number. -/
def State.reaches (s : State) (p : LinePos) : Bool :=
  let r := s.raster p.raster
  s.rasterUsed p.raster && !r.retiming && decide (p.line < r.fmt.lt) &&
  (decide (p.raster < 16) || !r.measured || r.frame == p.frame) && (!r.realign || (r.frame == p.frame && decide (r.line < p.line)))

/-- R179: an ST 2110-20 input: the line before is judged, and at line LA the lines with samples missing are reported. -/
def State.judgeInput (p : LinePos) (s : State) : State :=
  let k := p.raster
  let r := s.raster k
  if k < 20 || s.flt.st2110Out || !s.tracking k then s
  else
    let s := if 0 < p.line ∧ p.line ≤ r.fmt.la ∧ r.got.look 0 (p.line - 1) < r.fmt.lineBytes then
        s.modRaster k (fun r => { r with missed := r.missed + 1 }) else s
    if p.line ≠ r.fmt.la then s
    else
      let n := (s.raster k).missed
      let s := s.modRaster k (fun r => { r with got := [], missed := 0 })
      if n = 0 then s else s.raise .inputLinesMissing [i16 k, i32 n]

/-- R178, R182, R358, R364, R366, R427: what follows the firings of a line of an output raster. -/
def State.outputLine (p : LinePos) (s : State) : State :=
  let k := p.raster
  let low := s.outputs.head? == some k
  let s := if p.line = 0 then (if low then s.applySnapshot else s).firstPic k else s
  let s := s.portLine p
  let s := if 8 ≤ k then s.sendLine p else s
  if p.line ≠ (s.raster k).fmt.la then s
  else
    let s := ((s.latch (133 + k)).applyGate k p.frame).endTakeover
    if low && s.glb.patch.any (fun x => x.step == 5) then s.patchCommit else s

/-- LINE_START (R46): the lines `ps` start at one instant. -/
def execLineStart (ps : List LinePos) (s : State) := ok (
  if !s.linksUp then s
  else
    let ps := ps.filter s.reaches
    let t := s.each ps State.enterLine
    let gs := t.firings ps
    let t := (t.each (t.txnsDue ps) State.commitTxn).actAll gs
    let t := t.each ps (fun p s => if p.raster < 16 then s.outputLine p else s.judgeInput p)
    State.wakeRise s t)

/-! Frames of input rasters (R41, R42, R104, R117). -/

/-- R41: the PTP time that an RTP timestamp denotes, at or before the arrival of the frame's first packet. -/
def rtpStart (ts : BitVec 32) (arrival : Nat) : Nat :=
  let m := (9 * arrival + 8) / 100000
  (m - (BitVec.ofNat 32 m - ts).toNat) * 100000 / 9

/-- R41: the measured start of a frame, of the kind that the raster's input gives. -/
def stampStart (k : Nat) (t : FrameStamp) : Option Nat :=
  match t with
  | .dp x => if k < 20 then some x else none
  | .rtp ts a => if 20 ≤ k then some (rtpStart ts a) else none

/-- R41: the frame count of a measured start; halves are rounded up (DESIGN CHOICE, log entry 131). -/
def frameCount (f : RasterFmt) (t : Nat) : Int :=
  (2 * ((t : Int) - f.phase) * f.num + (f.den * sec : Nat)) / ((2 * f.den * sec : Nat) : Int)

/-- R42: the distance of a measured start from R38, in ns. -/
def startError (f : RasterFmt) (n : Int) (t : Nat) : Nat := ((t : Int) - fmtLine f (n * f.lt)).natAbs

/-- R42: a measured start lies within `j` lines of R38. -/
def nearLine (f : RasterFmt) (n : Int) (t j : Nat) : Bool :=
  decide (startError f n t * (f.num * f.lt) ≤ j * f.den * sec)

/-- R41: a measured frame of the configured format; `first` says that it is the first after acquisition. -/
def Raster.measure (n : Int) (t : Nat) (first : Bool) (r : Raster) : Raster :=
  let near := nearLine r.fmt n t 1
  { r with
    frame := n.toNat, line := 0, sf := t, measured := true, sfPrev := if first then none else some r.sf
    consec := if first then 1 else r.consec + 1, inBound := if near then (if first then 1 else r.inBound + 1) else 0 }

/-- R42: the state of an input raster that has measured a frame of the configured format. -/
def Raster.nextState (n : Int) (t : Nat) (r : Raster) : InState :=
  if r.consec < 2 then .acquiring
  else if 8 ≤ r.inBound then .locked
  else if r.inState = .locked ∧ nearLine r.fmt n t 2 then .locked
  else .tracking

/-- R67, R415, R427: a lead sends its values of a frame to its twin, CLK and U as they are at S_f. -/
def State.sendTiming (k : Nat) (s : State) : State :=
  let r := s.raster k
  let x := s.clkAt r.sf
  if s.glb.role = .lead ∧ s.grt.imageMatch then s.gPut (.timing [⟨k, r.frame, r.sf, x.1.segCode, uncertWord x.2⟩]) else s

/-- The encode streams that an input raster feeds. -/
def State.fedBy (s : State) (k : Nat) : List Nat :=
  (s.enc.filter (fun x => x.2.cfg.enabled && x.2.cfg.input == some k)).map (·.1)

/-- INPUT_FRAME_START (R41, R42): the start of a frame is measured on an input raster; `fmtSeen` says that the frame has
the configured format. -/
def execInputFrameStart (k : Nat) (t : FrameStamp) (fmtSeen : Bool) (s : State) := ok (
  match stampStart k t with
  | none => s
  | some x =>
    if !s.linksUp || k < 16 || !s.rasterUsed k || (decide (k < 20) && (s.dpi (k - 16)).link != .active) then s
    else if !fmtSeen then (s.modRaster k Raster.forget).setInState k .acquiring
    else
      let r := s.raster k
      let n := frameCount r.fmt x
      let was := s.tracking k
      let back := r.measured && decide (n < r.frame)
      let s := s.modRaster k (Raster.measure n x (back || !r.measured))
      let s := s.setInState k ((s.raster k).nextState n x)
      let s := s.passOver k (s.indexOf k n 0)
      (s.each (s.fedBy k) (fun i => State.encFrame i n was)).sendTiming k)

/-- R42: an ST 2110-20 input has had a packet in the last two nominal frame periods. -/
def State.packetsLately (s : State) (k : Nat) : Bool :=
  let x := s.stitch (256 + k)
  decide (20 ≤ k) && decide (0 < max x.lastA x.lastB) && decide (s.now < max x.lastA x.lastB + 2 * fmtPeriod (s.raster k).fmt)

/-- INPUT_SIGNAL_TIMEOUT (R42): an input raster has had no signal, or no packets for two nominal frame periods. -/
def execInputSignalTimeout (k : Nat) (s : State) := ok (
  if k < 16 || !s.rasterUsed k || s.packetsLately k then s else (s.modRaster k Raster.forget).setInState k .absent)

/-! Realignment and retiming (R51, R52). -/

/-- R51: the frame of R38 whose line 0 is the first at or after a time. -/
def nextFrame (f : RasterFmt) (t : Int) : Int := (fmtPosition f (t - 1) + f.lt) / (f.lt : Int)

/-- RASTER_REALIGN (R51): the last numbered blank line of an output raster ends, and the blank is lengthened by lines without a
number, so that the next line is line 0 of a frame at its R38 time. -/
def execRasterRealign (k : Nat) (s : State) := ok (
  let r := s.raster k
  if 16 ≤ k || !r.realign || !s.rasterUsed k || decide (r.line + 1 ≠ r.fmt.lt) then s
  else
    let f := nextFrame r.fmt s.time
    let s := s.modRaster k (fun r => { r with realign := false, frame := (f - 1).toNat })
    s.passOver k (s.indexOf k f 0))

/-- R52: nothing but PHASE differs between two formats. -/
def samePhaseApart (a b : RasterFmt) : Bool := { a with phase := 0 } == { b with phase := 0 }

/-- R52: a change of raster `k` may take effect: its new format is legal, and a transaction has committed it, at this moment for an
input raster, and before this frame boundary and after the one before for an output raster. -/
def State.retimable (s : State) (k : Nat) (fmt : RasterFmt) : Bool :=
  s.rasterUsed k && s.glb.loaded && fmtLegal fmt && fmtFits k fmt &&
  (if 16 ≤ k then (s.raster k).change == .committed else (s.raster k).change == .due && (s.raster k).line == 0)

/-- R52, R180: an output raster enters RETIMING; a DisplayPort source retrains if the new format does not fit its link. -/
def State.startRetiming (k : Nat) (s : State) : State :=
  let s := (s.modRaster k (fun r => { r with retiming := true })).modOutP k (fun y => { y with wire := none })
  let s := if k < 8 then
      let s := s.modDpo k (fun p => { p with video := p.format ++ BitVec.ofBool p.range ++ BitVec.ofBool p.depth })
      let p := s.dpo k
      if p.link = .active ∨ p.link = .short then s.setDpoLink k (if s.enough k (p.linkRate, p.lanes) then .retiming else .training) else s
    else s
  (s.dropMisfits k).raise .rasterRetimed [i16 k]

/-- RASTER_RETIMED (R52): a committed change of a raster's format or PHASE takes effect. -/
def execRasterRetimed (k : Nat) (fmt : RasterFmt) (s : State) := ok (
  let r := s.raster k
  if !s.retimable k fmt then s
  else
    let video := k < 8 ∧ (s.dpo k).video ≠ (s.dpo k).format ++ BitVec.ofBool (s.dpo k).range ++ BitVec.ofBool (s.dpo k).depth
    let s := s.modRaster k (fun r => { r with fmt := { fmt with inUse := true }, change := .none })
    if 16 ≤ k then s.reacquire k
    else if samePhaseApart r.fmt { fmt with inUse := true } && !decide video then
      (s.modRaster k (fun r => { r with realign := true })).raise .rasterRetimed [i16 k]
    else s.startRetiming k)

/-- RETIMING_END (R52, R180): the first frame of the new format begins at line 0 at its R38 time. -/
def execRetimingEnd (k : Nat) (s : State) := ok (
  let r := s.raster k
  if 16 ≤ k || !r.retiming then s
  else
    let m := fmtPosition r.fmt s.time
    let s := s.modRaster k (fun r => { r with retiming := false, realign := false, frame := (m / (r.fmt.lt : Int)).toNat, line := 0 })
    let s := s.passOver k (s.indexOf k (s.raster k).frame 0)
    if k < 8 ∧ (s.dpo k).link = .retiming then s.setDpoLink k .active else s)

end Sys2Proof.Machine
end

