-- ==== Sys2Proof/Machine/HostCmds.lean ====
section
/-! DEFINITION. The commands of the submission queues and of in-band supervision (R157, R182, R249, R274 to R293, R345, R363, R392,
R468 to R474). -/

namespace Sys2Proof.Machine

/-! Queues and events (R274 to R276, R292, R293). -/

/-- R292: a vector lies in the table of function `fn`. -/
def fnVector (fn v : Nat) : Bool :=
  if fn = 0 then decide (v < 1024) else decide (1024 + 128 * (fn - 1) ≤ v) && decide (v < 1024 + 128 * fn)

/-- R274: function `fn` is the PF or an enabled VF. -/
def State.fnUsable (s : State) (fn : Nat) : Bool := fn == 0 || (decide (fn ≤ 8) && s.hq.vfEnable && (s.fnPart fn).isSome)

/-- R293: the EVENT queue of a function. -/
def State.eventQueue (s : State) (fn : Nat) : Option Nat :=
  (s.hq.queues.find? (fun q => q.2.valid && q.2.kind == .event && q.2.func.toNat == fn)).map (·.1)

/-- R275, R284: an argument of CREATE_QUEUE is out of range. -/
def State.createBad (s : State) (sq cq : BitVec 64) (sm cm : BitVec 16) (kind : QKind) (fn : Nat) (weight : BitVec 8)
    (poll : BitVec 14) (vec : Nat) (shadow : BitVec 64) (stream : Nat) : Bool :=
  let events := kind == .event
  kind == .reserved || !s.fnUsable fn || weight == 0 || cm == 0 || (if events then sm != 0 else sm == 0) ||
  (!events && decide (sq.toNat % 4096 ≠ 0)) || decide (cq.toNat % 4096 ≠ 0) || decide (10000 < poll.toNat) ||
  (if poll = 0 then shadow != 0 else decide (shadow.toNat % 8 ≠ 0)) || !fnVector fn vec || (kind != .output && stream != 0)

/-- R275: CREATE_QUEUE. -/
def State.doCreate (qid : Nat) (sq cq : BitVec 64) (sm cm : BitVec 16) (kind : QKind) (func : BitVec 4) (weight : BitVec 8)
    (poll : BitVec 14) (vec : BitVec 11) (shadow : BitVec 64) (stream : Nat) (s : State) : Res :=
  let fn := func.toNat
  let e := (s.encS stream).cfg
  let part := if kind = .output then e.part else (s.fnPart fn).getD 0
  if (s.hqQ qid).valid then s.say .busy 0
  else if s.createBad sq cq sm cm kind fn weight poll vec.toNat shadow stream then s.say .invalidField 0
  else if kind = .output ∧ ¬ (e.enabled ∧ e.toHost) then s.say .state 0
  else if kind = .output ∧ fn ≠ 0 ∧ s.fnPart fn ≠ some e.part then s.say .notOwned 0
  else if (kind == .output && (s.outQueue stream).isSome) || (kind == .event && (s.eventQueue fn).isSome) then s.say .busy 0
  else
    (s.modHqQ qid (fun _ => { HqQueue.reset with
      valid := true, kind := kind, func := func, part := BitVec.ofNat 3 part, vector := vec
      sqSize := if kind = .event then 0 else sm.toNat + 1, cqSize := cm.toNat + 1, weight := weight, poll := poll
      shadow := shadow, sqBase := sq, cqBase := cq, stream := stream })).say .success 0

/-- A queue and the holding words of its path are gone. -/
def State.removeQueue (q : Nat) (s : State) : State :=
  (s.modHqQ q (fun _ => HqQueue.reset)).unhold (.queue q) (fun _ => true)

/-- R276, R473: DELETE_QUEUE of a queue that is drained. -/
def State.doDelete (qid : Nat) (s : State) : Res :=
  let x := s.hqQ qid
  if !x.valid then s.say .invalidField 0
  else if x.sqHead ≠ x.sqTail ∨ x.inExec ≠ 0 then s.say .busy 0
  else ((s.abortBy (· == .queue qid)).removeQueue qid).say .success 0

/-- R293: SET_EVENTS on the EVENT queue of the command's function. -/
def State.doSetEvents (mask : BitVec 64) (x : Ctx) (s : State) : Res :=
  match x.fn with
  | none => s.say .notOwned 0
  | some fn => match s.eventQueue fn with
    | none => s.say .state 0
    | some q => (s.modHqQ q (fun y => { y with mask := mask })).say .success 0

/-- CREATE_QUEUE (R275). -/
def execCreateQueue (n : Nat) (s : State) := ok (
  s.onSlot n (fun c => match c with
    | .createQueue q a b sm cm k f w p v sh st => some (fun _ => State.doCreate q a b sm cm k f w p v sh st)
    | _ => none))

/-- DELETE_QUEUE (R276). -/
def execDeleteQueue (n : Nat) (s : State) := ok (
  s.onSlot n (fun c => match c with
    | .deleteQueue q => some (fun _ => State.doDelete q)
    | _ => none))

/-- SET_EVENTS (R293). -/
def execSetEvents (n : Nat) (s : State) := ok (
  s.onSlot n (fun c => match c with
    | .setEvents m => some (State.doSetEvents m)
    | _ => none))

/-! IDENTIFY, GET_LOG and reads of contexts (R283, R392). -/

/-- R283: what IDENTIFY writes. -/
def State.identifyBytes (s : State) : List Byte :=
  (List.range 4096).map (Config.identifyByte [0x64800D5A, 0xB0, s.fsh.imageId, s.fsh.imageVersion]
    ((List.range 8).map (fun i => s.hq.vfPart.look none (i + 1))))

/-- IDENTIFY (R283). -/
def execIdentify (n : Nat) (s : State) := ok (
  s.onSlot n (fun c => match c with
    | .identify a len => some (fun _ s =>
        if len < 4096 then s.say .invalidField 0 else s.sendOut n 0 [(a.toNat, s.identifyBytes)])
    | _ => none))

/-- R392: the entry of an index: from the ring, else from the flash log, which is not read where the loader has stopped. -/
def State.logEntry (s : State) (i : BitVec 32) : Option LogEntry :=
  match s.log.ringAt i with
  | some e => some e
  | none => if s.loaderStopped then none else s.log.flashLog.look none i.toNat

/-- R340, R392: the oldest index that is held. -/
def State.logOldest (s : State) : BitVec 32 :=
  let l := s.log
  if s.loaderStopped then
    ((((List.range 8192).map (fun j => l.next - 8192 + BitVec.ofNat 32 j)).find? (fun i => (l.ringAt i).isSome))).getD l.next
  else l.oldest

/-- R392: the entries that GET_LOG copies: the first index and the number of entries after the header. -/
def State.logRange (s : State) (len : Nat) (first : BitVec 32) : BitVec 32 × Nat :=
  let next := s.log.next
  let old := s.logOldest
  if (first - next).toNat < 2147483648 then (first, 0)
  else
    let start := if (next - old).toNat < (next - first).toNat then old else first
    (start, min (len / 16 - 1) (next - start).toNat)

/-- R392: the bytes of a copy of the log. -/
def State.logCopy (s : State) (i : BitVec 32) (n : Nat) : List Byte :=
  wordBytes (entryWords (pageHeader i ::
    (List.range n).map (fun j => (s.logEntry (i + BitVec.ofNat 32 j)).getD missingIndex)))

/-- GET_LOG (R392). -/
def execGetLog (n : Nat) (s : State) := ok (
  s.onSlot n (fun c => match c with
    | .getLog a len first => some (fun _ s =>
        if len % 16 ≠ 0 then s.say .invalidField 0
        else if len = 0 then s.say .success 0
        else
          let (i, k) := s.logRange len first
          s.sendOut n (BitVec.ofNat 32 k) [(a.toNat, s.logCopy i k)])
    | _ => none))

/-- R283: what a command may do at an address: 0 nothing, 1 read, 2 read and write. -/
def Ctx.reach (x : Ctx) (s : State) (a : Nat) : Nat :=
  match x.scope with
  | none => 2
  | some p => match regAt a with
    | some r => s.reach p x.fn r
    | none => 0

/-- CTX_READ (R283, R284): words of a context RAM window. -/
def execCtxRead (n : Nat) (s : State) := ok (
  s.onSlot n (fun c => match c with
    | .ctxRead addr len a => some (fun x s =>
        if a % 4 ≠ 0 ∨ len % 4 ≠ 0 ∨ a < 0x1000000 ∨ 0x4000000 ≤ a ∨ 0x4000000 < a + len then s.say .invalidField 0
        else
          let as := (List.range (len / 4)).map (fun i => a + 4 * i)
          if as.any (fun a => x.reach s a == 0) then s.say .notOwned 0
          else s.sendOut n 0 [(addr.toNat, wordBytes (as.map s.readAddr))])
    | _ => none))

/-! Registers and transactions (R283, R463, R468 to R474). -/

/-- REG_READ (R283): the value of a register, with the effect of reading it. -/
def execRegRead (n : Nat) (s : State) := ok (
  s.onSlot n (fun c => match c with
    | .regRead a => some (fun x s =>
        if a % 4 ≠ 0 then s.say .invalidField 0
        else if x.reach s a = 0 then s.say .notOwned 0
        else
          let (s, v) := s.readBy x.writer a
          s.say .success v)
    | _ => none))

/-- R469: a refused write marks the transaction that would buffer it. -/
def State.markFailed (t a : Nat) (s : State) : State :=
  s.modTrans t (fun x => { x with failed := true, bad := if x.failed then x.bad else BitVec.ofNat 26 a })

/-- R283, R463, R469: REG_WRITE: buffered by the opener's open transaction, or direct. -/
def State.doRegWrite (a : Nat) (v : Word) (x : Ctx) (s : State) : Res :=
  if a % 4 ≠ 0 then s.say .invalidField 0
  else
    let t := s.openOf x.opener
    if x.reach s a < 2 then
      (match t with
        | some t => s.markFailed t a
        | none => s).say .notOwned 0
    else
      let (s, why) := match t with
        | some t => s.bufferTxn x.writer t a v
        | none => s.writeAddr x.writer a v true
      match why with
      | none => s.say .success 0
      | some k => s.say .invalidField (k.setWidth 32)

/-- REG_WRITE (R283, R463, R469). -/
def execRegWrite (n : Nat) (s : State) := ok (
  s.onSlot n (fun c => match c with
    | .regWrite a v => some (State.doRegWrite a v)
    | _ => none))

/-- TXN_BEGIN (R468). -/
def execTxnBegin (n : Nat) (s : State) := ok (
  s.onSlot n (fun c => match c with
    | .txnBegin t => some (fun x s =>
        if (s.trans t).st ≠ .free then s.say .busy 0 else (s.beginTxn t x.opener x.scope).say .success 0)
    | _ => none))

/-- TXN_COMMIT (R470, R474): the command stays in execution until the outcome is known. -/
def execTxnCommit (n : Nat) (s : State) := ok (
  s.onSlot n (fun c => match c with
    | .txnCommit t k l f => some (fun x s =>
        if (s.trans t).st ≠ .opened ∨ (s.trans t).opener ≠ x.opener then s.say .txnFailed 0
        else if !s.posOk k.toNat l.toNat then s.say .invalidField 1
        else
          let s := (s.modTrans t (fun y => { y with waiter := some n })).modSlot n (fun y => { y with phase := .waiting })
          (s.armCommit t k.toNat l.toNat (s.fullFrame k.toNat f), none))
    | _ => none))

/-- TXN_ABORT (R473). -/
def execTxnAbort (n : Nat) (s : State) := ok (
  s.onSlot n (fun c => match c with
    | .txnAbort t => some (fun x s =>
        if (s.trans t).st = .free ∨ (s.trans t).opener ≠ x.opener then s.say .txnFailed 0
        else (s.abortTxn t .aborted).say .success 0)
    | _ => none))

/-! Streams and outputs (R101, R157, R182, R249). -/

/-- R157: STREAM_START or, keeping the parameter sets, STREAM_REJOIN. -/
def State.doStart (i : Nat) (keep : Bool) (x : Ctx) (s : State) : Res :=
  if !x.owns s i then s.say .notOwned 0
  else if !(s.decS i).cfg.enabled then s.say .state 0
  else (s.startStream i keep).say .success 0

/-- STREAM_START (R157). -/
def execStreamStart (n : Nat) (s : State) := ok (
  s.onSlot n (fun c => match c with
    | .streamStart i => some (State.doStart i false)
    | _ => none))

/-- STREAM_REJOIN (R157). -/
def execStreamRejoin (n : Nat) (s : State) := ok (
  s.onSlot n (fun c => match c with
    | .streamRejoin i => some (State.doStart i true)
    | _ => none))

/-- R249: the rules that name decode stream `i`. -/
def State.rulesOf (s : State) (i : Nat) : List Nat :=
  (s.run.rules.filter (fun r => r.2.valid && r.2.dest == 0 && r.2.stream.toNat == i)).map (·.1)

/-- R245: word 11 of a rule with QUENCH as given. -/
def quenchWord (v : Word) (on : Bool) : Word := if on then v ||| 0x4000 else v &&& 0xFFFFBFFF

/-- R249: for 1 µs after a command that changes it, the bit of a stream's rules is open. -/
def State.quenchSoon (i : Nat) (s : State) : State :=
  s.modRun (fun r => { r with quenchPend := (i, s.now + 1000) :: r.quenchPend.filter (fun q => q.1 != i && decide (s.now ≤ q.2)) })

/-- R249: QUENCH of every rule that names a stream is set or cleared: inside an open transaction by writes that it buffers, else
at once, with 1 µs in which the effect on packets is open. -/
def State.doQuench (i : Nat) (on : Bool) (x : Ctx) (s : State) : Res :=
  if !x.owns s i then s.say .notOwned 0
  else
    let rs := s.rulesOf i
    match s.openOf x.opener with
    | some t =>
      let (s, why) := rs.foldl (fun (y : State × Option (BitVec 4)) r =>
        let (s, w) := y.1.bufferTxn x.writer t (0x41002C + 0x40 * r) (quenchWord (y.1.readReg (.rule r 11)) on)
        (s, y.2 <|> w)) (s, none)
      match why with
      | none => s.say .success 0
      | some k => s.say .invalidField (k.setWidth 32)
    | none =>
      let turned := rs.any (fun r => (s.rule r).quench != on)
      let s := s.whenB turned (State.quenchSoon i)
      let s := s.each rs (fun r => State.modRule r (fun y => { y with quench := on }))
      (if turned then s.limited .streamQuenched i ms (State.raiseP (s.decS i).cfg.part .streamQuenched [i16 i, i16 2]) else s).say .success 0

/-- STREAM_QUENCH (R249). -/
def execStreamQuench (n : Nat) (s : State) := ok (
  s.onSlot n (fun c => match c with
    | .streamQuench i => some (State.doQuench i true)
    | _ => none))

/-- STREAM_UNQUENCH (R249). -/
def execStreamUnquench (n : Nat) (s : State) := ok (
  s.onSlot n (fun c => match c with
    | .streamUnquench i => some (State.doQuench i false)
    | _ => none))

/-- R101, R284: the commit position of SWEEP_RESTART as a PTP time; RASTER 0x1F is the first PIC_TIME after now. -/
def State.restartTime (s : State) (k : BitVec 5) (l : BitVec 14) (f : BitVec 32) : T48 :=
  if k = 0x1F then s.time48 + 1
  else BitVec.ofInt 48 (s.lineTime k.toNat (s.fullFrame k.toNat f).toNat l.toNat)

/-- SWEEP_RESTART (R101). -/
def execSweepRestart (n : Nat) (s : State) := ok (
  s.onSlot n (fun c => match c with
    | .sweepRestart i k l f => some (fun x s =>
        if !x.owns s i then s.say .notOwned 0
        else if !s.posOk k.toNat l.toNat then s.say .invalidField 0
        else if !(s.encS i).cfg.enabled then s.say .state 0
        else (s.encRestart i (s.restartTime k l f) 0).say .success 0)
    | _ => none))

/-- R182: INTENT of an output raster, which no partition owns. -/
def State.doOutputSet (k : Nat) (b : Bool) (x : Ctx) (s : State) : Res :=
  if x.scope.isSome then s.say .notOwned 0 else (s.setIntent k b).say .success 0

/-- OUTPUT_SET (R182). -/
def execOutputSet (n : Nat) (s : State) := ok (
  s.onSlot n (fun c => match c with
    | .outputSet k b => some (State.doOutputSet k b)
    | _ => none))

/-! Image and patch (R345, R363). -/

/-- IMAGE_WRITE (R345). -/
def execImageWrite (n : Nat) (data : List Byte) (s : State) := ok (
  s.onSlot n (fun c => match c with
    | .imageWrite _ len off sealIt => some (fun _ s => (s.imageBegin n len off sealIt data, none))
    | _ => none))

/-- R363: PATCH. -/
def State.doPatch (p : CmdPath) (s : State) : Res :=
  let r := s.patchResult
  if r = 0 then (s.enterPatch p).say .success 0 else s.say .state r

/-- PATCH (R363). -/
def execPatch (n : Nat) (s : State) := ok (
  s.onSlot n (fun c => match c with
    | .patch => some (fun _ s => s.doPatch (((s.slot n).map (·.path)).getD (.queue 0)))
    | _ => none))

/-! Data of host-fed streams (R121, R122, R285, R286). -/

/-- R121: the chroma planes' height and width in samples: 4:2:0, 4:4:4, or none. -/
def EncCfg.chromaSize (c : EncCfg) : Nat × Nat :=
  if c.chroma = 0 then (0, 0)
  else (((c.width + (chromaStep c.chroma).1 - 1) / (chromaStep c.chroma).1), (c.height + (chromaStep c.chroma).2 - 1) / (chromaStep c.chroma).2)

/-- R121: the deadline of a posted picture's rows: the stream's line in the first frame of its raster that starts at least one
frame period after `t`. -/
def State.postDeadline (s : State) (c : EncCfg) (t : Nat) : Nat :=
  (s.lineFrom c.hostRaster (t + (s.raster c.hostRaster).period) c.hostLine).toNat

/-- R121: the bytes of a posted picture. -/
def EncCfg.pictureBytes (c : EncCfg) (pitch cpitch : Nat) : Nat := pitch * c.height + 2 * (cpitch * c.chromaSize.2)

/-- ENC_POST (R121, R285): a picture is posted, and its DMA begins. -/
def execEncPost (p : PostDma) (s : State) := ok (
  s.onSlot p.slot (fun c => match c with
    | .encPost i _ _ pitch cpitch t attest => some (fun x s =>
        let e := s.encS i
        if !x.owns s i then s.say .notOwned 0
        else if !e.cfg.enabled || e.cfg.input.isSome then s.say .state 0
        else if pitch.toNat % 64 ≠ 0 ∨ cpitch.toNat % 64 ≠ 0 then s.say .invalidField 0
        else if 4 ≤ e.posted.length then s.say .postFull 0
        else
          let at_ := ((s.slot p.slot).map (·.fetched)).getD s.time
          let s := s.modEncS i (fun e => { e with posted := e.posted ++ [⟨t, attest, false, some p.slot, s.postDeadline e.cfg at_,
            ⟨pitch.toNat, cpitch.toNat, p.planes⟩⟩] })
          ((s.modSlot p.slot (fun y => { y with phase := .waiting, started := s.now })).modHq
            (fun h => { h with dmas := h.dmas ++ [(p.slot, e.cfg.pictureBytes pitch.toNat cpitch.toNat)] }), none))
    | _ => none))

/-- R286: bytes of DEC_POSTs of stream `i` whose DMA is in progress. -/
def State.postedBytes (s : State) (i : Nat) : Nat :=
  ((s.hq.dmas.filter (fun d => match (s.slot d.1).bind (·.cmd) with
    | some (.decPost j ..) => j == i
    | _ => false)).map (·.2)).sum

/-- R26, R286: an earlier DEC_POST of the stream still waits for space. -/
def State.postBefore (s : State) (i : Nat) (x : Slot) : Bool :=
  s.hq.slots.any (fun y => decide (y.2.order < x.order) && y.2.phase == .waiting && !s.hq.dmas.any (fun d => d.1 == y.1) &&
    (match y.2.cmd with
      | some (.decPost j ..) => j == i
      | _ => false))

/-- R26, R286: the DMA of a DEC_POST begins once its bytes fit in the queue. -/
def State.startPost (n i len : Nat) (s : State) : State :=
  match s.slot n with
  | none => s
  | some x =>
    let d := s.decS i
    if s.postBefore i x || s.hq.dmas.any (fun d => d.1 == n) || decide (d.cfg.queue < d.queueUsed + s.postedBytes i + len) then s
    else s.modHq (fun h => { h with dmas := h.dmas ++ [(n, len)] })

/-- R286: the lengths that the prefixes of `len` bytes give are those of whole NAL units. -/
def lengthsOk (len : Nat) (ls : List Nat) : Bool := !ls.isEmpty && ls.all (0 < ·) && ls.sum + 4 * ls.length == len

/-- DEC_POST (R286): NAL units are appended by DMA; where the queue lacks space the command waits, and a later occurrence of the
row finds it. -/
def execDecPost (n : Nat) (lengths : List Nat) (s : State) := ok (
  match s.slot n with
  | some ⟨_, _, _, _, _, _, some (.decPost i _ len _), .waiting, _, _, _, _, _, _, _⟩ => s.startPost n i len
  | _ =>
    s.onSlot n (fun c => match c with
      | .decPost i _ len _ => some (fun x s =>
          let d := s.decS i
          if !x.owns s i then s.say .notOwned 0
          else if !d.cfg.enabled || !d.cfg.hostFed then s.say .state 0
          else if d.cfg.queue < len || !lengthsOk len lengths then s.say .invalidField 0
          else ((s.modSlot n (fun y => { y with phase := .waiting, lens := lengths, started := s.now })).startPost n i len, none))
      | _ => none))

/-- R84, R286: NAL units of a host-fed stream enter its queue; the access unit's arrival time is that of its first one. -/
def State.appendNals (i : Nat) (nals : List (List Byte)) (eoa : Bool) (arrival : T48) (s : State) : State :=
  let t := (s.decS i).hostArr.getD arrival
  let s := s.each nals (fun bs => State.ringCopy i bs t)
  let s := s.modDecS i (fun d => { d with hostArr := some t })
  if eoa then (s.ringPut i .eoa).modDecS i (fun d => { d with hostArr := none }) else s

/-- R19, R415: a lead forwards the NAL units of a DEC_POST. -/
def State.forwardNals (i : Nat) (nals : List (List Byte)) (eoa : Bool) (s : State) : State :=
  if s.glb.role = .lead then
    s.each nals.zipIdx (fun k => State.gPut (.hostData (.data i k.1 (eoa && k.2 + 1 == nals.length))))
  else s

/-- R286: the NAL units of a DEC_POST in host memory, each behind its 4-byte length; what host memory holds is a free value (DESIGN
CHOICE, log entry 216). -/
def State.postedNals (s : State) (addr : Nat) (lens : List Nat) : List (List Byte) :=
  lens.zipIdx.map (fun x => (List.range x.1).map (fun j =>
    Config.hostByte s.now (addr + 4 * (x.2 + 1) + (lens.take x.2).sum + j)))

/-- R282: a DMA to host memory that failed leaves some of its bytes; which ones is open. -/
def State.hostMix (a : Nat) (bs : List Byte) (s : State) : State :=
  s.each bs.zipIdx (fun b s =>
    (if Config.freeBool s.freeCtr then s.hostWrite (a + b.2) [b.1] else s).tickFree)

/-- R285, R286: the DMA of slot `n` has ended well: what it brought is codable or appended, or its bytes are in host memory. -/
def State.dmaGood (n : Nat) (x : Slot) (s : State) : State :=
  match x.cmd with
  | some (.encPost i _ _ _ _ t attest) =>
    let raw := (((s.encS i).posted.find? (fun p => p.slot == some n)).map (·.raw)).getD ⟨0, 0, []⟩
    let s := s.modEncS i (fun e => { e with
      posted := e.posted.map (fun p => if p.slot = some n then { p with codable := true, slot := none } else p) })
    let s := if s.glb.role = .lead then s.gPut (.hostData (.picture i t attest raw)) else s
    s.finish n .success 0
  | some (.decPost i addr _ eoa) =>
    let nals := s.postedNals addr.toNat x.lens
    ((s.appendNals i nals eoa (t48 x.fetched)).forwardNals i nals eoa).finish n .success 0
  | _ => (s.each x.out (fun o => State.hostWrite o.1 o.2)).finish n .success x.result

/-- R282: the DMA of slot `n` has failed: the picture or the bytes that it would have brought are not there. -/
def State.dmaBad (n : Nat) (x : Slot) (s : State) : State :=
  let s := match x.cmd with
    | some (.encPost i ..) => s.modEncS i (fun e => { e with posted := e.posted.filter (fun p => p.slot != some n) })
    | some (.decPost ..) => s
    | _ => s.each x.out (fun o => State.hostMix o.1 o.2)
  s.finish n .hostDma 0

/-- R285, R286: the DMA of slot `n` ends. -/
def State.slotDma (n : Nat) (good : Bool) (s : State) : State :=
  match s.slot n with
  | none => s
  | some x =>
    if x.phase != .waiting || !s.hq.dmas.any (fun d => d.1 == n) then s
    else
      let s := s.modHq (fun h => { h with dmas := h.dmas.filter (fun d => d.1 != n) })
      let s := if good then s.dmaGood n x else s.dmaBad n x
      s.modSlot n (fun y => { y with out := [] })

/-- R289: a page in flight fails with HOST_DMA: its data is lost, and the stream is handled as if it had been dropped. -/
def State.pageFail (i : Nat) (s : State) : State :=
  match (s.encS i).page with
  | none => s
  | some p =>
    if p.done.isSome || p.filled == 0 then s
    else
      let c := s.freeCtr
      let s := s.hostWrite p.addr.toNat ((List.range p.filled).map (fun j => (Config.freeWord (c + j)).setWidth 8))
      ((s.modFreeCtr (· + p.filled)).pageDone i .hostDma).beginDrop i

/-- HOST_DMA_DONE (R282, R285, R286, R289): the DMA of a command or of a page ends, well or not. -/
def execHostDmaDone (d : Sys2Proof.HostDma) (good : Bool) (s : State) := ok (
  match d with
  | .slot n => s.slotDma n good
  | .page i => if good then s else s.pageFail i)

/-! Pictures and tile states (R283). -/

/-- R121: rows of a plane of 16-bit samples, with the address of each. -/
def planeRows (a pitch w h : Nat) (get : Nat → Nat → Nat) : List (Nat × List Byte) :=
  (List.range h).map (fun y => (a + pitch * y, (List.range w).flatMap (fun x => leBytes 2 (get x y))))

/-- A luma sample of a frame buffer. -/
def FrameBuf.luma (f : FrameBuf) (d : DecStream) (x y : Nat) : Nat :=
  planeAt (f.tileAt d (x / 64) (y / 64)).y (tileSize d.grid (x / 64) (y / 64)).1.1 (x % 64) (y % 64)

/-- A chroma sample of a frame buffer, by its place in the plane. -/
def FrameBuf.chroma (f : FrameBuf) (d : DecStream) (second : Bool) (x y : Nat) : Nat :=
  let (sx, sy) := chromaStep d.grid.chroma
  let c := x * sx / 64
  let r := y * sy / 64
  let t := f.tileAt d c r
  planeAt (if second then t.cr else t.cb) (tileSize d.grid c r).2.1 (x - c * 64 / sx) (y - r * 64 / sy)

/-- The size of a decoded picture's chroma planes. -/
def DecStream.chromaSize (d : DecStream) : Nat × Nat :=
  let g := d.grid
  let (sx, sy) := chromaStep g.chroma
  if g.chroma = 0 then (0, 0) else ((g.width + sx - 1) / sx, (g.height + sy - 1) / sy)

/-- R121, R283: a picture as three planes. -/
def FrameBuf.planes (f : FrameBuf) (d : DecStream) (a b pitch cpitch : Nat) : List (Nat × List Byte) :=
  let (cw, ch) := d.chromaSize
  planeRows a pitch d.grid.width d.grid.height (f.luma d) ++ planeRows b cpitch cw ch (f.chroma d false) ++
  planeRows (b + cpitch * ch) cpitch cw ch (f.chroma d true)

/-- R283, R284: the frame buffer that FRAME_READ names, or the status with which it fails. -/
def DecStream.pictureFor (d : DecStream) (desc : Word) : Except Status FrameBuf :=
  if desc = 0xFFFFFFFF then (match d.shown with
    | some b => .ok (d.frame b)
    | none => .error .state)
  else if d.frames.any (fun p => p.1 == desc.toNat) then .ok (d.frame desc.toNat) else .error .invalidField

/-- FRAME_READ (R282 to R284). -/
def execFrameRead (r : ReadBack) (s : State) := ok (
  s.onSlot r.slot (fun c => match c with
    | .frameRead i a b len desc pitch cpitch => some (fun x s =>
        let d := s.decS i
        if !x.owns s i then s.say .notOwned 0
        else if pitch.toNat % 64 ≠ 0 ∨ cpitch.toNat % 64 ≠ 0 ∨ len < pitch.toNat * d.grid.height + 2 * (cpitch.toNat * d.chromaSize.2) then
          s.say .invalidField 0
        else match d.pictureFor desc with
          | .error st => s.say st 0
          | .ok f => if r.bad then s.say .deviceMemory 0 else s.sendOut r.slot 0 (f.planes d a.toNat b.toNat pitch.toNat cpitch.toNat))
    | _ => none))

/-- LEDGER_READ (R282, R283): the tile state entries of a stream. -/
def execLedgerRead (r : ReadBack) (s : State) := ok (
  s.onSlot r.slot (fun c => match c with
    | .ledgerRead i a len => some (fun x s =>
        let d := s.decS i
        let k := d.cols * d.rowsN
        if !x.owns s i then s.say .notOwned 0
        else if len < 16 * k then s.say .invalidField 0
        else if r.bad then s.say .deviceMemory 0
        else s.sendOut r.slot 0 [(a.toNat, wordBytes ((List.range k).flatMap (fun t => (List.range 4).map (s.tile i t).word)))])
    | _ => none))

/-! Output pages (R288, R289). -/

/-- R280, R284, R288: the status with which a page entry is refused. -/
def pageBad (ws : List Word) : Option Status :=
  if entryOp ws ≠ 0x50 then some .invalidOpcode
  else if entryBad 0x50 ws || decide (entryWord ws 2 &&& 0xFFF ≠ 0) then some .invalidField
  else none

/-- PAGE_POST (R288): an entry is fetched when the engine is ready to start a page. -/
def execPagePost (q : Nat) (ws : List Word) (s : State) := ok (
  let x := s.hqQ q
  if !s.fetching q || !x.valid || x.kind != .output || x.sqHead == x.sqTail || !(s.encS x.stream).wantsPage then s
  else
    let head := (x.sqHead + 1) % x.sqSize
    let s := s.modHqQ q (fun x => { x with sqHead := head, inExec := x.inExec + 1 })
    let addr := entryWord ws 3 ++ entryWord ws 2
    let cid := (entryWord ws 0).extractLsb' 16 16
    let sqHead := BitVec.ofNat 16 head
    match pageBad ws with
    | some st => (s.modEncS x.stream (fun e => { e with page := some ⟨addr, cid, sqHead, 0, false, false, 0, some st, s.now⟩ })).pageEntry x.stream
    | none => s.startPage x.stream addr cid sqHead)

/-- PAGE_FLUSH_TIMEOUT (R289): no byte has been added for PAGE_FLUSH. -/
def execPageFlushTimeout (i : Nat) (s : State) := ok (
  if (s.encS i).page.any (fun p => decide (p.last + s.hq.pageFlush * 1000 ≤ s.now)) then s.pageDone i .success else s)

/-! Function-level reset (R291). -/

/-- R291: a DEC_POST that is partly appended ends in a gap marker. -/
def State.cutPost (n : Nat) (s : State) : State :=
  match (s.slot n).bind (·.cmd) with
  | some (.decPost i ..) => if s.hq.dmas.any (fun d => d.1 == n) then s.ringPut i (.gap 0 0) else s
  | _ => s

/-- R291: commands in execution are abandoned without completions. -/
def State.abandonSlots (ns : List Nat) (s : State) : State :=
  let s := s.each ns State.cutPost
  let s := s.modTxn (fun x => { x with txns := x.txns.mapAll Txn.reset (fun _ t =>
    if t.waiter.any ns.contains then { t with waiter := none } else t) })
  let s := s.modEnc (fun t => t.mapAll EncStream.reset (fun _ e => { e with
    posted := e.posted.filter (fun p => !p.slot.any ns.contains) }))
  let s := s.modFsh (fun f => { f with
    stores := (f.stores.take f.busy.toNat).map (fun x => if x.slot.any ns.contains then { x with slot := none } else x) ++
      (f.stores.drop f.busy.toNat).filter (fun x => !x.slot.any ns.contains) })
  s.modHq (fun h => { h with
    slots := h.slots.filter (fun x => !ns.contains x.1), dmas := h.dmas.filter (fun d => !ns.contains d.1) })

/-- R290, R291: a page in flight ends without completion; its bytes are lost, as in a drop. -/
def State.losePage (i : Nat) (s : State) : State :=
  match (s.encS i).page with
  | none => s
  | some p =>
    let s := s.modEncS i (fun e => { e with page := none })
    if p.filled = 0 then s else s.beginDrop i

/-- R292: the vectors of a function. -/
def fnVectors (fn : Nat) : List Nat :=
  if fn = 0 then List.range 1024 else (List.range 128).map (1024 + 128 * (fn - 1) + ·)

/-- R291: what a function-level reset does to one function. -/
def State.resetFn (fn : Nat) (s : State) : State :=
  let qs := (s.hq.queues.filter (fun q => q.2.valid && q.2.func.toNat == fn)).map (·.1)
  let ns := (s.hq.slots.filter (fun x => match x.2.path with
    | .queue q => qs.contains q
    | _ => false)).map (·.1)
  let s := s.abandonSlots ns
  let s := s.abortBy (fun o => match o with
    | .queue q => qs.contains q
    | .bar0 => fn == 0
    | _ => false)
  let s := s.each (qs.filter (fun q => (s.hqQ q).kind == .output)) (fun q s => s.losePage (s.hqQ q).stream)
  let s := s.each qs State.removeQueue
  let vs := fnVectors fn
  let s := s.modHq (fun h => { h with msixMask := h.msixMask.filter (fun v => !vs.contains v) ++ vs })
  s.semBreakOwners (fun x => x.toNat == 0x101 + fn)

/-- FUNCTION_LEVEL_RESET (R291): the PF's resets every VF and disables the admin queue. -/
def execFunctionLevelReset (fn : Nat) (s : State) := ok (
  if s.glb.inReset || !s.hq.up || decide (8 < fn) then s
  else
    let s := if fn = 0 then
        (s.each (List.range 9) State.resetFn).modHq (fun h => { h with vfEnable := false, enable := false })
      else s.resetFn fn
    (s.latch 200).raiseFn fn .hqFlr [i16 fn])

/-! In-band supervision (R294, R295). -/

/-- R294: the count of entries that a message states. -/
def msgCount (bs : List Byte) : Nat := beVal ((bs.drop 2).take 2)

/-- R294: KEY. -/
def msgKey (bs : List Byte) : Nat := (bs.getD 1 0).toNat

/-- R294: COUNTER. -/
def msgCounter (bs : List Byte) : BitVec 64 := BitVec.ofNat 64 (beVal ((bs.drop 4).take 8))

/-- R295, R402: a message is accepted; none is with the key store fenced. -/
def State.msgOk (s : State) (bs : List Byte) : Bool :=
  let n := msgCount bs
  let body := bs.take (12 + 64 * n)
  !(s.fltSrc 384).fenced && bs.getD 0 0 == 1 && decide (1 ≤ n ∧ n ≤ 16) && bs.length == 44 + 64 * n && decide (msgKey bs < 8) &&
  (match s.hq.keys.look none (msgKey bs) with
    | some k => msgTag k.key body == bs.drop (12 + 64 * n) && decide (k.counter.toNat < (msgCounter bs).toNat)
    | none => false)

/-- R294: the entries of a message. -/
def msgEntries (bs : List Byte) : List (List Word) :=
  (List.range (msgCount bs)).map (fun i => wordsOf ((bs.drop (12 + 64 * i)).take 64))

/-- R295: any other message is counted and discarded. -/
def State.authFail (m : Datagram) (s : State) : State :=
  let s := (s.modHq (fun h => { h with authFail := satInc h.authFail })).latch 199
  s.limited .hqAuthFail 0 sec (State.raise .hqAuthFail [i16 (msgKey m.bytes), .w32 (m.sender.setWidth 32)])

/-- R278, R295: the entries of an accepted message take in-band slots, and the message waits for its reply. -/
def State.takeMsg (m : Datagram) (s : State) : State :=
  let k := msgKey m.bytes
  let free := ((List.range 16).map (16 + ·)).filter (fun i => (s.slot i).isNone)
  let ns := free.take (msgCount m.bytes)
  let s := s.modHq (fun h => { h with
    keys := h.keys.upd none k (Option.map (fun x => { x with counter := msgCounter m.bytes }))
    msgs := h.msgs ++ [⟨k, m.sender, m.port, m.bytes.take 12, ns.map some, List.replicate ns.length []⟩] })
  s.each (ns.zip (msgEntries m.bytes)) (fun x => State.takeEntry x.1 (.key k) 0 x.2)

/-- SUPERVISORY_MESSAGE (R261, R278, R294, R295): a datagram on TC7 is dequeued; an accepted one waits for slots, and a queue in UNREAD
gives none. -/
def execSupervisoryMessage (m : Datagram) (s : State) := ok (
  if !s.linksUp then s
  else if s.rxUnread 1 then s.rxTake 1
  else
    let free := ((List.range 16).map (16 + ·)).filter (fun i => (s.slot i).isNone)
    if !s.msgOk m.bytes then (s.rxTake 1).authFail m
    else if free.length < msgCount m.bytes then s
    else ((s.rxTake 1).takeMsg m).wakeBy false)

/-! A lead's commands (R19, R426). -/

/-- R19, R426: a mirrored command, executed as it arrives; its completion is discarded. -/
def State.doMirrored (p : SrcPath) (c : HostCmd) (s : State) : State :=
  let x := s.ctxOf (.lead p)
  match c with
  | .createQueue q a b sm cm k f w po v sh st => (s.doCreate q a b sm cm k f w po v sh st).1
  | .deleteQueue q => (s.doDelete q).1
  | .setEvents m => (s.doSetEvents m x).1
  | .regWrite a v => (s.doRegWrite a v x).1
  | .streamStart i => (s.doStart i false x).1
  | .streamRejoin i => (s.doStart i true x).1
  | .streamQuench i => (s.doQuench i true x).1
  | .streamUnquench i => (s.doQuench i false x).1
  | .outputSet k b => (s.doOutputSet k b x).1
  | .patch => (s.doPatch (.lead p)).1
  | _ => s

end Sys2Proof.Machine
end

