-- ==== Sys2Proof/Machine/Girth.lean ====
section
/-! DEFINITION. What arrives over the Girth link, its timers, and the pins of the twin (R413 to R429). -/

namespace Sys2Proof.Machine

/-! The link (R413, R416, R417, R419, R420). -/

/-- R413, R414, R417: the link has trained: the sequence numbers start again, and IDENT is sent. -/
def State.girthStart (s : State) : State :=
  (s.modGrt (fun g => { g with
    txSeq := 0, rxSeq := 0, unacked := [], sendq := [], tries := 0, hbIn := some s.now, handover := none })).sendIdent

/-- GIRTH_LINK_TRAINED (R413, R417). -/
def execGirthLinkTrained (s : State) := ok (
  if !s.linksUp || s.glb.mode == .rest && s.glb.restSub != 0 || s.grt.fenced || s.grt.link == .up || s.grt.link == .ident then s
  else s.girthStart)

/-- IDENT_RETRY (R417): IDENT is retried 1 s after the link was refused. -/
def execIdentRetry (s : State) := ok (
  if s.grt.link = .refused ∧ s.linksUp ∧ ¬ s.grt.fenced ∧ s.grt.hbIn.all (fun t => decide (t + sec ≤ s.now)) then s.girthStart else s)

/-- HEARTBEAT_TICK (R414, R419, R420): a heartbeat is emitted, OWN may be high again, and the frames that wait are sent. -/
def execHeartbeatTick (s : State) := ok (
  if !s.linksUp then s
  else
    let s := s.emitHeartbeat.modGlb (fun g => { g with own := g.ownMode })
    if s.carries then s.transmit else s)

/-- OWN_HEARTBEAT_TIMEOUT (R420): OWN falls when no heartbeat has been emitted for 200 µs. -/
def execOwnHeartbeatTimeout (s : State) := ok (if s.hbFresh then s else s.modGlb (fun g => { g with own := false }))

/-- ACK (R416). -/
def execAck (h : GHdr) (s : State) := ok (s.recv h id)

/-- GIRTH_RETRANSMIT (R416, R431): the oldest frame is not acknowledged within 20 µs; the 8th retransmission loses the link. -/
def execGirthRetransmit (s : State) := ok (
  match s.grt.unacked with
  | [] => s
  | f :: _ =>
    if !s.carries || decide (s.now < f.at_ + 20000) then s
    else
      let s := s.modGrt (fun g => { g with
        retrans := satInc g.retrans, tries := g.tries + 1, unacked := g.unacked.map (fun x => { x with at_ := s.now }) })
      if 8 ≤ s.grt.tries then s.linkLost 1 else s)

/-- R415: a frame is TILE_DELTA. -/
def GFrame.delta (f : GFrame) : Bool :=
  match f.msg with
  | .tileDelta _ => true
  | _ => false

/-- DELTA_DROP (R416): TILE_DELTA frames that could not be sent within 10 ms are dropped and counted. -/
def execDeltaDrop (s : State) := ok (
  let old (f : GFrame) : Bool := f.delta && decide (f.at_ + 10 * ms < s.now)
  let n := s.grt.sendq.filter old
  s.modGrt (fun g => { g with sendq := g.sendq.filter (fun f => !old f), deltaDrop := n.foldl (fun (c : BitVec 32) _ => satInc c) g.deltaDrop }))

/-- GIRTH_SILENCE (R416): no valid frame for 250 µs. -/
def execGirthSilence (s : State) := ok (
  if s.carries && s.grt.hbIn.all (fun t => decide (t + 250000 ≤ s.now)) then s.linkLost 0 else s)

/-- GIRTH_LOCK_LOSS (R416): PCS block lock has been absent for 10 µs. -/
def execGirthLockLoss (s : State) := ok (if s.linksUp then s.linkLost 2 else s)

/-! Identity (R417, R418). -/

/-- R417: the link is refused: the peer counts as absent. -/
def State.refuseLink (id : EventId) (items : List Item) (s : State) : State :=
  ((s.setLink .refused).modGrt (fun g => { g with authOk := false, peerId := none, hbIn := some s.now, unacked := [], sendq := [], tries := 0 })).limited
    id 0 ms (State.raise id items)

/-- R417: an IDENT with PHASE 0 is answered with a signature; two ends of one SIDE refuse each other. -/
def State.hello (i : IdentInfo) (s : State) : State :=
  if i.side = s.glb.side then s.refuseLink .grtSideConflict []
  else
    let s := s.modGrt (fun g => { g with peerId := some i })
    s.gSend (.ident (.proof (Config.ecdsaSign (Config.devicePublicKey 0)
      (identMessage i.nonce (Config.sha256 (Config.devicePublicKey 0)) s.glb.side))))

/-- R417: an IDENT with PHASE 1: the signature verifies and the link is UP, or it is refused. -/
def State.proof (sig : List Byte) (s : State) : State :=
  match s.grt.peerId with
  | none => s.refuseLink .grtAuthFail [i16 1]
  | some i =>
    if Config.ecdsaVerify i.key (identMessage (Config.nonce s.grt.nonce) (Config.sha256 i.key) i.side) sig then s.linkUp i
    else s.refuseLink .grtAuthFail [i16 1]

/-- IDENT (R417). -/
def execIdent (h : GHdr) (m : IdentMsg) (s : State) := ok (
  s.recvSeq h (fun s => if s.grt.link != .ident then s else match m with
    | .hello i => s.hello i
    | .proof sig => s.proof sig))

/-! Heartbeats and handover (R396, R419, R423, R425). -/

/-- R396, R419: the twin reports that it is starting or has halted. -/
def hbDown (m : HeartbeatMsg) : Bool := decide (m.mode.toNat ≤ 3) || m.mode == 0xC

/-- R419: the payload of a heartbeat is taken, and a handover that was announced takes place. -/
def State.takeHeartbeat (m : HeartbeatMsg) (s : State) : State :=
  let s := s.modGrt (fun g => { g with
    hbSeq := m.hbSeq.setWidth 16, peerMode := m.mode, peerRole := m.role, peerFenced := m.fenced, peerShed := m.shed, peerTxSeq := m.txSeq })
  let s := if hbDown m then s.semBreakOwners (· == 0x10A) else s
  match s.grt.handover with
  | some _ => (s.modGrt (fun g => { g with handover := none })).takeover 4
  | none => s.twinSeen

/-- HEARTBEAT (R419, R425). -/
def execHeartbeat (h : GHdr) (m : HeartbeatMsg) (s : State) := ok (
  s.recv h (fun s => if s.grt.link = .up then s.takeHeartbeat m else s))

/-- HANDOVER (R425): the final heartbeat follows. -/
def execHandover (h : GHdr) (demote : Bool) (s : State) := ok (
  s.recvUp h (fun s => if s.guards then s.modGrt (fun g => { g with handover := some demote }) else s))

/-! Pins (R421, R422). -/

/-- PEER_FAULT_EDGE (R421, R422): PEER_FAULT_N changes after the filter. -/
def execPeerFaultEdge (low : Bool) (s : State) := ok (
  let s := s.modGrt (fun g => { g with peerFault := low })
  if !low || !s.running then s
  else if s.guards then s.takeover 1
  else if s.glb.role = .lead then s.twinLost 1
  else s)

/-- PEER_OWN_EDGE (R421, R422): PEER_OWN changes after the filter; with the link LOST its fall loses the lead. -/
def execPeerOwnEdge (high : Bool) (s : State) := ok (
  let s := s.modGrt (fun g => { g with peerOwn := high })
  if high || !s.running || s.grt.link != .lost then s
  else if s.guards then s.takeover 2
  else if s.glb.role = .lead then s.twinLost 2
  else s)

/-! Frames from a lead (R117, R182, R426, R427). -/

/-- TIMING (R117): the lead's values of captured frames reach the encode streams that the raster feeds. -/
def execTiming (h : GHdr) (m : List Timing) (s : State) := ok (
  s.recvUp h (fun s =>
    if !s.follows then s
    else s.modEnc (fun t => t.mapAll EncStream.reset (fun _ e =>
      if e.cfg.enabled then { e with timing := e.timing ++ m.filter (fun x => e.cfg.input == some x.raster) } else e))))

/-- ENC_STATE (R427). -/
def execEncState (h : GHdr) (i : Nat) (m : EncAdopt) (s : State) := ok (
  s.recvUp h (fun s => if s.follows then s.modEncS i (fun e => { e with encState := some m }) else s))

/-- PIC_CRC (R428). -/
def execPicCrc (h : GHdr) (i : Nat) (m : PicCrc) (s : State) := ok (
  s.recvUp h (fun s => (s.modEncS i (fun e => { e with peerCrc := e.peerCrc ++ [m] })).crcCheck i m.picCount))

/-- PIC_CRC_TIMEOUT (R428): a pair that is not complete within 4 frame periods is MISSING; the 8th in a row clears DET_OK. -/
def execPicCrcTimeout (i : Nat) (pc : BitVec 32) (s : State) := ok (
  let e := s.encS i
  let mine (x : PicCrc) : Bool := x.picCount == pc
  let long (x : BitVec 32 × Nat) : Bool := x.1 == pc && decide (x.2 + 4 * (s.raster e.cfg.raster).period ≤ s.now)
  if !(e.ownCrc.any mine || e.peerCrc.any mine) || !e.crcAt.any long then s
  else s.modEncS i (fun e =>
    let n := e.missing8 + 1
    { e with
      ownCrc := e.ownCrc.filter (fun x => !mine x), peerCrc := e.peerCrc.filter (fun x => !mine x)
      crcAt := e.crcAt.filter (fun x => x.1 != pc), missing8 := n
      detOk := e.detOk && decide (n < 8), match4 := if n < 8 then e.match4 else 0 }))

/-- R174, R182: a gated port whose sink is there is on the lead's trained link, and sends its stream into the board's switch where the
link has bandwidth enough. -/
def State.followLink (n : Nat) (s : State) : State :=
  let p := s.dpo n
  if !p.hpd then s
  else if p.linkRate = 0 then s.setDpoLink n .training
  else s.setDpoLink n (if !s.enough n (p.linkRate, p.lanes) then .short else if (s.raster n).retiming then .retiming else .active)

/-- R182: the lead's settings of an output; a gated port takes its rate, lanes and transmitter settings. -/
def State.takePort (m : PortMsg) (s : State) : State :=
  match m with
  | .dp n rate lanes drive =>
    if (s.outP n).gated && !(s.dpo n).fenced then
      (s.modDpo n (fun p => { p with linkRate := rate, lanes := lanes, drive := drive })).followLink n
    else s
  | .st2110 k f x => s.modOutP k (fun p => { p with peerSeq := some (f, x) })

/-- PORT (R182, R415). -/
def execPort (h : GHdr) (m : PortMsg) (s : State) := ok (s.recvUp h (fun s => if s.follows then s.takePort m else s))

/-- COMMAND (R19, R426): a mirrored submission entry; one that the fetch would refuse has no effect. -/
def execCommand (h : GHdr) (p : SrcPath) (ws : List Word) (s : State) := ok (
  s.recvUp h (fun s =>
    if !s.follows then s
    else match (decodeEntry (srcLetter p) ws).2 with
      | some c => s.doMirrored p c
      | none => s))

/-- R426, R427: a transaction, abort or sweep restart of the lead; a transaction waits behind a snapshot. -/
def State.takeTxn (m : TxnMsg) (s : State) : State :=
  match m with
  | .commit t ws scope pos =>
    if s.grt.snapEnd.isSome || !s.grt.snapshot.isEmpty then s.modGrt (fun g => { g with mirrored := g.mirrored ++ [⟨t, ws, scope, pos⟩] })
    else s.armMirror ⟨t, ws, scope, pos⟩
  | .abort t =>
    let s := s.modGrt (fun g => { g with mirrored := g.mirrored.filter (fun x => x.t != t) })
    if (s.trans t).st ≠ .free ∧ (s.trans t).opener = .lead then s.endTxn t .aborted else s
  | .restart i at_ trigger => s.modEncS i (fun e => { e with restarts := e.restarts ++ [(at_, trigger)] })
  | .identity i at_ => s.modEncS i (fun e => { e with decAt := some at_ })

/-- TXN (R426). -/
def execTxn (h : GHdr) (m : TxnMsg) (s : State) := ok (s.recvUp h (fun s => if s.follows then s.takeTxn m else s))

/-- R394, R415: a semaphore operation of owner 0x10A; an acquire is answered. A reply is for the firmware that asked. -/
def State.takeSem (m : SemMsg) (s : State) : State :=
  match m with
  | .acquire n =>
    let s := s.modSemS n (·.acquire 0x10A)
    s.gPut (.sem (.reply n (s.semS n).result))
  | .op n v => s.semOp n 0x10A (v.setWidth 32)
  | .reply _ _ => s

/-- SEM (R415). -/
def execSem (h : GHdr) (m : SemMsg) (s : State) := ok (s.recvUp h (State.takeSem m))

/-- SNAPSHOT (R427): entries of the lead's journal; the last frame starts the 10 ms of step 3. -/
def execSnapshot (h : GHdr) (m : List (Nat × Word)) (last : Bool) (s : State) := ok (
  s.recvUp h (fun s =>
    if !s.follows || !s.grt.imageMatch then s
    else s.modGrt (fun g => { g with
      configSync := false, snapshot := g.snapshot ++ m, snapEnd := if last then some s.now else g.snapEnd })))

/-- R426: a lead's tile differs from this device's own entry. -/
def State.deltaDiffers (s : State) (x : TileDelta) : Bool :=
  let e := s.tile x.stream x.tile
  e.cond.code != x.cond || e.tAtt != x.tAtt

/-- R426, R432: differences are counted, and raised at most once per stream per 1 s; no entry changes. -/
def State.takeDeltas (m : List TileDelta) (s : State) : State :=
  let ds := m.filter s.deltaDiffers
  let s := s.modGrt (fun g => { g with stateDiff := ds.foldl (fun (c : BitVec 32) _ => satInc c) g.stateDiff })
  s.each (ds.map (·.stream)).eraseDups (fun i s =>
    let n := (ds.filter (fun x => x.stream == i)).length
    (s.latch 207).limited .twinStateDiverged i sec (State.raiseP (s.decS i).cfg.part .twinStateDiverged [i16 i, i32 n]))

/-- TILE_DELTA (R426). -/
def execTileDelta (h : GHdr) (m : List TileDelta) (s : State) := ok (s.recvUp h (fun s => if s.follows then s.takeDeltas m else s))

/-- R19, R415: host-fed data as the lead forwards it: a picture is codable at once, bytes enter the queue. -/
def State.takeHostData (m : HostMsg) (s : State) : State :=
  match m with
  | .picture i t attest raw =>
    let e := s.encS i
    if !e.cfg.enabled || e.cfg.input.isSome || decide (4 ≤ e.posted.length) then s
    else s.modEncS i (fun e => { e with posted := e.posted ++ [⟨t, attest, true, none, s.postDeadline e.cfg s.time, raw⟩] })
  | .data i n eoa => if (s.decS i).cfg.enabled && (s.decS i).cfg.hostFed then s.appendNals i [n] eoa s.time48 else s

/-- HOST_DATA (R19, R415). -/
def execHostData (h : GHdr) (m : HostMsg) (s : State) := ok (s.recvUp h (fun s => if s.follows then s.takeHostData m else s))

end Sys2Proof.Machine
end

