-- ==== Sys2Proof/Machine/MemCmds.lean ====
section
/-! DEFINITION. Reads that a core's errors follow; retirement of channel blocks, and the poisoned fill of remapped blocks (R101, R146, R218, R232, R235). -/

namespace Sys2Proof.Machine

/-! Reads (R218). -/

/-- R217, R218: what the devices give wrong of a line, by lane and beat of its burst, stands in it. -/
def State.damageLine (addr : Nat) (flips : List (Nat × Nat)) (s : State) : State :=
  match s.drm.lineOf addr with
  | none => s
  | some (n, l) => if flips.isEmpty || (s.chan n).st != .active then s else s.putLine n l ((s.lineAt n l).damaged flips)

/-- R217, R218: a read: its outcome and data are kept. An encode core that receives UE or POISONED of a reference restarts its sweep
(R101); a decode or check core's tile is tainted (R146). -/
def State.serveRead (r : Requester) (a : LineRead) (s : State) : State :=
  let x := (s.damageLine a.addr a.flips).readLine r a.addr
  let s := x.1.modDrm (fun d => { d with last := x.2 })
  match r.src with
  | .core c use => if CoreUse.fails use x.2.kind then s.coreReadBad c use else s
  | _ => s

/-- R218 to R220, R303: a request has its slot and is served. -/
def State.serve (w : DramWait) (s : State) : State :=
  let s := s.takeSlot w.request.1 w.request.2
  match w with
  | .read r a => s.serveRead r a
  | .write r a d => s.writeLine r a d
  | .narrow r a bs => s.narrow r a bs

/-- R26, R235: a request that need not wait any longer is served. -/
def State.serveWait (w : DramWait) (s : State) : State :=
  if s.requestWaits w.request.1 w.request.2 then s else (s.modDrm (fun d => { d with waits := d.waits.erase w })).serve w

/-- R26, R219, R235: the requests that wait, in the order of their arrival. -/
def State.serveWaits (s : State) : State := if s.running then s.each s.drm.waits State.serveWait else s

/-- R26: a request arrives, behind those that wait. -/
def State.request (w : DramWait) (s : State) : State :=
  if s.running then (s.modDrm (fun d => { d with waits := d.waits ++ [w] })).serveWaits else s

/-- DRAM_READ (R26, R217, R218): without a slot the request waits. -/
def execDramRead (r : Requester) (a : LineRead) (s : State) := ok (s.request (.read r a))

/-- DRAM_WRITE (R26, R219): without a slot the request waits. -/
def execDramWrite (r : Requester) (addr : Nat) (data : BitVec 512) (s : State) := ok (s.request (.write r addr data))

/-- NARROW_WRITE (R26, R220): without a slot the request waits. -/
def execNarrowWrite (r : Requester) (addr : Nat) (bytes : List (Option Byte)) (s : State) := ok (s.request (.narrow r addr bytes))

/-! Retirement (R232). -/

/-- R232: the log of the last 24 h shows errors of a channel block that retire it: a UE, CEs at 2 or more lines, or 8 at one. -/
def State.blockBad (s : State) (ch block : Nat) : Bool :=
  let es := (s.chan ch).logErrs.filter (fun e => decide (s.now < e.1 + 86400 * sec) && decide (e.2.1 / 1024 = block))
  let ces := (es.filter (fun e => !e.2.2)).map (·.2.1)
  es.any (·.2.2) || decide (2 ≤ ces.eraseDups.length) || decide (8 ≤ ces.length)

/-- DRAM_PAGE_RETIRED (R232, R239): the Tack retires a channel block, or finds the list full, once per LOAD. -/
def execDramPageRetired (ch block : Nat) (s : State) := ok (
  if !s.running || s.tck.held || s.drm.retire.contains (ch, block) || !s.blockBad ch block then s
  else if 1024 ≤ s.drm.retire.length then
    if s.drm.retireFull then s
    else (s.modDrm (fun d => { d with retireFull := true })).raise .dramRetireFull []
  else
    let s := s.modDrm (fun d => { d with retire := d.retire ++ [(ch, block)] })
    let s := (s.modChan ch (fun c => { c with retired := satInc c.retired })).storeRetirement
    s.limited .dramPageRetired ch ms (State.raise .dramPageRetired [i16 ch, i32 block]))

/-- R235: tiles of a stream whose hold store lay on the fenced channel: mid-grey with HM = 0, and "tile not decodable". -/
def State.loseHold (i : Nat) (tiles : List Nat) (s : State) : State :=
  s.withLedger i (fun s =>
    let lost := tiles.filter (fun t => (s.tile i t).cond != .lost)
    let s := s.modDecS i (fun d => { d with
      hold := d.hold.filter (fun p => !tiles.contains p.1), hm := d.hm.filter (fun t => !tiles.contains t) })
    let s := s.each tiles (fun t => State.modTile i t (TileEntry.event .loss))
    match lost with
    | [] => s
    | t :: _ => s.tickFree.ledgerEvent .tileLost i (Config.freeWord s.freeCtr) [i32 lost.length, tileItem (s.decS i).cols t])

/-- R235: a tile of a frame buffer that lay on the fenced channel is tainted. -/
def State.taintTile (i b t : Nat) (s : State) : State :=
  s.modFrame i b (fun f => if f.taint.contains t then f else { f with taint := f.taint ++ [t] })

/-- R235: the pattern store copies are rewritten from the image. -/
def State.rewriteCopies (s : State) : State := s.each (List.range 32) State.rewriteCopy

/-- REMAP_FILL (R235): the poisoned fill of a channel's remapped blocks ends under its grant: readers meet POISONED. -/
def execRemapFill (ch : Nat) (loss : Sys2Proof.RemapLoss) (s : State) := ok (
  if !s.drm.remapped || (s.chan ch).st != .active || (s.chan ch).remapFilled || !s.holds 4 .fill ch then s
  else
    let s := s.modChan ch (fun c => { c with remapFilled := true })
    let s := s.each (loss.hold.map (·.1)).eraseDups (fun i =>
      State.loseHold i ((loss.hold.filter (fun x => x.1 == i)).map (·.2)))
    let s := s.each loss.frames (fun x => State.taintTile x.1 x.2.1 x.2.2)
    let s := s.each loss.encs (fun i s => s.encRestart i s.time48 2)
    s.rewriteCopies.serveWaits)

end Sys2Proof.Machine
end

