-- ==== Sys2Proof/Machine/Power.lean ====
section
/-! DEFINITION. Supplies, clocks and temperature (R433 to R450), and the PCI Express link's interrupt (R377). -/

namespace Sys2Proof.Machine

/-! PMBus (R438, R439). -/

/-- R438: the Tack can reach a rail's regulator: it runs, the rail has one, and its master is not fenced. -/
def State.railReach (s : State) (r : Nat) : Bool :=
  let x := s.pRail r
  s.running && s.tck.st == .run && decide (r < 11) && x.addr != 0 && !s.tck.pmbFenced.getLsbD x.master.toNat

/-- R438, R456: PMBUS_ERROR, with the rail and the PMBus command. -/
def State.pmbusError (r cmd : Nat) (s : State) : State :=
  s.limited .pmbusError r ms (State.raise .pmbusError [i16 r, i16 cmd])

/-- PMBUS_POLL (R438, R439): a rail's telemetry is read, or the read fails. -/
def execPmbusPoll (r : Nat) (v : Option RailRead) (s : State) := ok (
  if !s.railReach r then s
  else match v with
    | none => s.modPRail r (fun x => { x with err := true })
    | some t =>
      let old := s.pRail r
      let s := s.modPRail r (fun x => { x with
        vread := t.vout, iread := t.iout, treg := t.temp, status := t.status, updSeq := x.updSeq + 1, err := false
        notLinear := !t.linear16, avs := t.linear16 && decide (r < 5), errRaised := x.errRaised || !t.linear16 })
      let s := s.whenB (!t.linear16 && !old.errRaised) (State.pmbusError r 0x20)
      s.whenB (t.status != 0) (State.limited .regulatorFault r ms (State.raise .regulatorFault [i16 r, .w16 t.status])))

/-- R438: a write has failed: it is retried, and after the third failure the rail keeps its last confirmed set point. -/
def State.pmbusFail (r : Nat) (again : Bool) (s : State) : State :=
  let x := s.pRail r
  if 2 ≤ x.tries then
    let s := (s.modPRail r (fun x => { x with wanted := none, written := false, tries := 0, err := true })).pmbusError r 0x21
    s.whenB (decide (r < 4)) (State.voltageHold r)
  else s.modPRail r (fun x => { x with tries := x.tries + 1, err := true, written := again, wantAt := s.now })

/-- R438, R440: the set points that the Tack may write: a bay's for a point not faster than POINT_MAX and not below what the
point in force or being entered needs; VDD_SOC's in its trimmed range. -/
def State.mayWrite (s : State) (r : Nat) (mv : BitVec 16) : Bool :=
  if r < 4 then
    let x := s.bay r
    let low := match x.changing with
      | some p => if p < x.point then p else x.point
      | none => x.point
    [0, 1, 2, 3].any (fun (p : BitVec 2) => mv == x.setPoint p && x.pointMax ≤ p && p ≤ low)
  else r == 4 && decide (720 ≤ mv) && decide (mv ≤ 800)

/-- PMBUS_SET_POINT (R438): a set point is written with VOUT_COMMAND; a write refused with a NACK has failed. -/
def execPmbusSetPoint (r : Nat) (mv : BitVec 16) (ack : Bool) (s : State) := ok (
  let x := s.pRail r
  if !s.railReach r || x.notLinear || !s.mayWrite r mv then s
  else
    let s := s.modPRail r (fun x => { x with
      wanted := some mv, wantAt := s.now, written := ack, tries := if x.wanted == some mv then x.tries else 0 })
    if ack then s else s.pmbusFail r false)

/-- R438, R440: a set point is confirmed: the rail's VSET is it, and the bay may move. -/
def State.confirmSetPoint (r : Nat) (w : BitVec 16) (s : State) : State :=
  let s := s.modPRail r (fun x => { x with vset := w, wanted := none, written := false, tries := 0, err := false })
  if r < 4 then
    (s.modBay r (fun x => { x with vset := w, unconfirmed := x.unconfirmed && w != x.setPoint x.point })).bayMove r
  else s

/-- PMBUS_CONFIRM (R438): READ_VOUT, 200 µs or more after the write, lies within 10 mV of the set point; 1 ms after the write
it counts as failed, and is made again. -/
def execPmbusConfirm (r : Nat) (mv : BitVec 16) (s : State) := ok (
  let x := s.pRail r
  match x.wanted with
  | none => s
  | some w =>
    if !s.railReach r || !x.written || decide (s.now < x.wantAt + 200000) then s
    else
      let s := s.modPRail r (fun x => { x with vread := mv })
      if ((w.toNat : Int) - mv.toNat).natAbs ≤ 10 then s.confirmSetPoint r w
      else if s.now < x.wantAt + ms then s
      else s.pmbusFail r true)

/-! Operating points and temperature (R440, R446). -/

/-- BAY_CLOCK_CHANGE (R440, R446, R449): a bay's clock change completes; POINT_MAX regained ends the throttling. -/
def execBayClockChange (b : Nat) (s : State) := ok (
  let x := s.bay b
  match x.changing with
  | none => s
  | some p =>
    if x.fenced then s
    else
      let free := x.throttled && p == x.pointMax
      let s := (s.modBay b (fun x => { x with
        point := p, freq := pointMhz p, changing := none
        unconfirmed := decide (x.point < p) && x.vset != x.setPoint p
        throttled := x.throttled && !free, cause := if free then 0 else x.cause, clearSince := if free then none else x.clearSince })).latch (44 + b)
      let s := s.whenB free (State.limited .bayUnthrottled b ms (State.raise .bayUnthrottled [i16 b]))
      s.bayMove b)

/-- R446: the coolest bay in service, in units of 0.125 degrees C. -/
def State.coolest (s : State) : Option Int :=
  (((List.range 4).filter (fun b => !(s.bay b).fenced)).map (fun b => (s.bay b).temp.toInt)).min?

/-- R446: one bay's check against the coolest bay and TJ_THROTTLE; where both causes hold, CAUSE is a free value of the two. -/
def State.checkBay (cool : Int) (b : Nat) (s : State) : State :=
  let x := s.bay b
  let t := x.temp.toInt
  let tj : Int := 8 * s.blw.tjThrottle
  let gradient := decide (cool + 240 < t)
  let limit := decide (tj < t)
  if x.fenced then s
  else if gradient || limit then
    if x.point == 3 || x.changing.isSome then s.modBay b (fun x => { x with clearSince := none })
    else
      let cause : BitVec 2 := if gradient && (!limit || Config.freeBool s.freeCtr) then 1 else 2
      let s := s.whenB (gradient && limit) State.tickFree
      (s.throttle b cause).modBay b (fun x => { x with changing := some (x.point + 1), steps := satInc x.steps, clearSince := none })
  else if t ≤ cool + 200 ∧ t ≤ tj - 40 then
    s.modBay b (fun x => { x with clearSince := if x.throttled then some (x.clearSince.getD s.now) else none })
  else s.modBay b (fun x => { x with clearSince := none })

/-- THERMAL_CHECK (R445, R446): the Bellows checks the bays. -/
def execThermalCheck (s : State) := ok (
  if !s.running || !s.glb.pllLock then s
  else match s.coolest with
    | none => s
    | some cool => s.each (List.range 4) (State.checkBay cool))

/-- THROTTLE_STEP_UP (R446): a throttled bay that has been clear for 100 ms steps up by one point, its voltage confirmed. -/
def execThrottleStepUp (b : Nat) (s : State) := ok (
  let x := s.bay b
  match x.clearSince with
  | none => s
  | some t =>
    if x.throttled && !x.fenced && x.changing.isNone && decide (t + 100 * ms ≤ s.now) && x.pointMax < x.point &&
        x.covers (x.point - 1) then
      s.modBay b (fun x => { x with changing := some (x.point - 1), clearSince := some s.now })
    else s)

/-! Trips and losses (R436, R443, R444, R447). -/

/-- A unit's report reaches the collector by itself. -/
def State.reports (c : FaultClass) (n : Nat) (s : State) : State := if s.collects then s.collect false [⟨n, c, 0⟩] else s

/-- SUPPLY_COMPARATOR_TRIP (R436): a bay's supply is contained, a package supply fatal; VDD_FSH and VPP_OTP count as a supply
warning. -/
def execSupplyComparatorTrip (r : Nat) (s : State) := ok (
  if r < 4 then s.reports .contained (409 + r)
  else if r < 12 then s.reports .fatal 408
  else if r < 14 then s.modFsh (fun f => { f with lastWarn := some s.now })
  else s)

/-- THERMAL_TRIP (R447): fatal on source 413, and THERM_TRIP_N is low until the power-on reset. -/
def execThermalTrip (s : State) := ok ((s.reports .fatal 413).modGlb (fun g => { g with thermTripN := false }))

/-- R443: the source and class of a PLL's report. -/
def pllReport : Sys2Proof.Pll → FaultClass × Nat
  | .root => (.fatal, 398)
  | .bay b => (.contained, 399 + b % 4)
  | .ddr5 => (.fatal, 403)
  | .ethernet => (.contained, 404)
  | .pcie => (.contained, 405)
  | .displayPort => (.contained, 406)
  | .girth => (.contained, 407)

/-- SYS_CLK_LOSS (R444): the root PLL reports fatal. -/
def execSysClkLoss (s : State) := ok (s.reports .fatal 398)

/-- PLL_LOCK_LOSS (R443): a PLL that was locked reports on its source. -/
def execPllLockLoss (p : Sys2Proof.Pll) (s : State) := ok (
  if s.glb.pllLock then s.reports (pllReport p).1 (pllReport p).2 else s)

/-- PCIE_LINK_CHANGE (R377): the link changes state, or an error is recorded; source 201 is held. -/
def execPcieLinkChange (st : Nat) (aer : Bool) (s : State) := ok (
  if s.running && s.hq.up then (s.modHq (fun h => { h with linkSt := st, pciAer := h.pciAer || aer })).latch 201 else s)

end Sys2Proof.Machine
end

