-- ==== Sys2Proof/Machine/TackDma.lean ====
section
/-! DEFINITION. The Tack's DMA transfers (R378 to R381). -/

namespace Sys2Proof.Machine

/-- R370, R457: a word written by the DMA engine. -/
def State.busWrite (a : Nat) (v : Word) (s : State) : State :=
  if a < 0x04000000 then (s.writeAddr .tack a v true).1 else s.busStore a v

/-- R378: one word of a transfer; the failing address when an access is a bus error. -/
def State.copyWord (src dst : Nat) (s : State) : State × Option Nat :=
  match s.busRead src with
  | (s, none) => (s, some src)
  | (s, some v) => if busWritable dst then (s.busWrite dst v, none) else (s, some dst)

/-- R378: the first `n` words of a transfer, ascending, up to the first bus error: its word and address. -/
def State.copyWords (src dst : Nat) : Nat → State → State × Option (Nat × Nat)
  | 0, s => (s, none)
  | n + 1, s => match s.copyWords src dst n with
    | (s, some x) => (s, some x)
    | (s, none) => match s.copyWord (src + 4 * n) (dst + 4 * n) with
      | (s, some a) => (s, some (n, a))
      | (s, none) => (s, none)

/-- R380: a bus error of channel `k` stops every channel. -/
def State.dmaStop (k a : Nat) (s : State) : State :=
  let s := s.each (List.range 8) (fun i => State.modDma i (fun c =>
    if i = k then { c with st := .stopped, busErr := true, level := true } else { c with st := .stopped, enable := false, level := true }))
  s.limited .dmaBusError k ms (State.raise .dmaBusError [i16 k, i32 a])

/-- R379: channels chained to channel `k`. -/
def State.dmaChained (s : State) (k : Nat) : List Nat :=
  (List.range 8).filter (fun i => (s.dma i).trig == 2 && (s.dma i).srcCh.toNat == k)

/-- R379: the RUNNING channel ends: IDLE, its source raised, and the channels chained to it started. -/
def State.dmaEnd (k : Nat) (s : State) : State :=
  (s.modDma k (fun c => { c with st := .idle, remain := 0, level := true })).dmaStartAll (s.dmaChained k)

/-- The RUNNING channel. -/
def State.dmaRunning (s : State) : Option Nat := (List.range 8).find? (fun k => (s.dma k).st == .running)

/-- DMA_COMPLETE (R379): the working COUNT of the RUNNING channel reaches 0; its words are copied here, and one that meets a
bus error ends in R380. -/
def execDmaComplete (s : State) := ok (
  match s.dmaRunning with
  | none => s
  | some k =>
    let c := s.dma k
    match s.copyWords c.wSrc.toNat c.wDst.toNat (c.remain.toNat / 4) with
    | (s, none) => State.wakeRise s (s.dmaEnd k)
    | (s, some (i, a)) =>
      State.wakeRise s ((s.modDma k (fun c => { c with remain := c.remain - BitVec.ofNat 32 (4 * i) })).dmaStop k a))

/-- DMA_BUS_ERROR (R380): an access of the RUNNING channel at an address of its transfer ends in a bus error; the words before
it have been copied. -/
def execDmaBusError (k : Nat) (a : Word) (s : State) := ok (
  let c := s.dma k
  if c.st != .running then s
  else
    let i := if c.wSrc ≤ a ∧ a < c.wSrc + c.remain then (a - c.wSrc).toNat / 4 else (a - c.wDst).toNat / 4
    let n := min i (c.remain.toNat / 4)
    let s := (s.copyWords c.wSrc.toNat c.wDst.toNat n).1
    (s.modDma k (fun c => { c with remain := c.remain - BitVec.ofNat 32 (4 * n) })).dmaStop k a.toNat)

/-- DMA_DISABLE (R381): ENABLE = 0 is written. -/
def execDmaDisable (k : Nat) (s : State) := ok (if k < 8 then (s.stopChannel k).dmaArbitrate else s)

/-- DMA_ENABLE (R380): ENABLE = 1 is written: a STOPPED channel returns to IDLE. -/
def execDmaEnable (k : Nat) (s : State) := ok (
  if 8 ≤ k then s
  else s.modDma k (fun c =>
    if c.st = .stopped then { c with enable := true, st := .idle, busErr := false, overrun := false, level := false }
    else { c with enable := true }))

end Sys2Proof.Machine
end

