-- ==== Sys2Proof/Machine/Dispatch.lean ====
section
/-! DEFINITION. One arm for each command. -/

namespace Sys2Proof.Machine

/-- The effect of a command on everything but the queue. -/
def exec (i : Instr) (s : State) : Host.Outcome State Fault Refusal :=
  match i with
  | .syncMessage e => Sys2Proof.Machine.execSyncMessage e s
  | .grandmasterAccepted port e => Sys2Proof.Machine.execGrandmasterAccepted port e s
  | .announceTimeout => Sys2Proof.Machine.execAnnounceTimeout s
  | .holdoverLimit => Sys2Proof.Machine.execHoldoverLimit s
  | .lineStart ps => Sys2Proof.Machine.execLineStart ps s
  | .lineEventArm w e v => Sys2Proof.Machine.execLineEventArm w e v s
  | .lineEventDisarm w e v => Sys2Proof.Machine.execLineEventDisarm w e v s
  | .inputFrameStart k t fmtSeen => Sys2Proof.Machine.execInputFrameStart k t fmtSeen s
  | .inputSignalTimeout k => Sys2Proof.Machine.execInputSignalTimeout k s
  | .rasterRealign k => Sys2Proof.Machine.execRasterRealign k s
  | .rasterRetimed k fmt => Sys2Proof.Machine.execRasterRetimed k fmt s
  | .retimingEnd k => Sys2Proof.Machine.execRetimingEnd k s
  | .encodeSelfRelease k => Sys2Proof.Machine.execEncodeSelfRelease k s
  | .encodeRowIssue k core => Sys2Proof.Machine.execEncodeRowIssue k core s
  | .encodeRowComplete k r => Sys2Proof.Machine.execEncodeRowComplete k r s
  | .hostfedFrameStart k => Sys2Proof.Machine.execHostfedFrameStart k s
  | .sliceHeaderParse k x => Sys2Proof.Machine.execSliceHeaderParse k x s
  | .paramSetReceived k p au => Sys2Proof.Machine.execParamSetReceived k p au s
  | .ledgerSegment k payloadSize bytes => Sys2Proof.Machine.execLedgerSegment k payloadSize bytes s
  | .accessUnitEnd k => Sys2Proof.Machine.execAccessUnitEnd k s
  | .decodeTaskIssue bay core => Sys2Proof.Machine.execDecodeTaskIssue bay core s
  | .decodeRowComplete task res errs => Sys2Proof.Machine.execDecodeRowComplete task res errs s
  | .checkTaskComplete task res => Sys2Proof.Machine.execCheckTaskComplete task res s
  | .decodeRowLate task => Sys2Proof.Machine.execDecodeRowLate task s
  | .decodeSkipped k n => Sys2Proof.Machine.execDecodeSkipped k n s
  | .streamStart slot => Sys2Proof.Machine.execStreamStart slot s
  | .streamRejoin slot => Sys2Proof.Machine.execStreamRejoin slot s
  | .outputLineFetch p => Sys2Proof.Machine.execOutputLineFetch p s
  | .cmpLineLate w p => Sys2Proof.Machine.execCmpLineLate w p s
  | .tileStateVisit first count => Sys2Proof.Machine.execTileStateVisit first count s
  | .tileStateFill k => Sys2Proof.Machine.execTileStateFill k s
  | .dpLinkTrain n links => Sys2Proof.Machine.execDpLinkTrain n links s
  | .dpHpdIrq n links => Sys2Proof.Machine.execDpHpdIrq n links s
  | .dpSinkLinkTrain n rate lanes m => Sys2Proof.Machine.execDpSinkLinkTrain n rate lanes m s
  | .dpHpdPulseEnd n => Sys2Proof.Machine.execDpHpdPulseEnd n s
  | .microwordIssue c => Sys2Proof.Machine.execMicrowordIssue c s
  | .fillDone c => Sys2Proof.Machine.execFillDone c s
  | .drainDone c => Sys2Proof.Machine.execDrainDone c s
  | .bankReloadDone c ue => Sys2Proof.Machine.execBankReloadDone c ue s
  | .unitDone c u status info => Sys2Proof.Machine.execUnitDone c u status info s
  | .externalEvent c ev => Sys2Proof.Machine.execExternalEvent c ev s
  | .deadlock c => Sys2Proof.Machine.execDeadlock c s
  | .coreC1Entry c => Sys2Proof.Machine.execCoreC1Entry c s
  | .corePowerDown c p => Sys2Proof.Machine.execCorePowerDown c p s
  | .coreWake c => Sys2Proof.Machine.execCoreWake c s
  | .coreWakeDone c => Sys2Proof.Machine.execCoreWakeDone c s
  | .ptnSwap c => Sys2Proof.Machine.execPtnSwap c s
  | .coreDrained c => Sys2Proof.Machine.execCoreDrained c s
  | .patternStoreWrite w c bankB a v => Sys2Proof.Machine.execPatternStoreWrite w c bankB a v s
  | .corFaultClear c v => Sys2Proof.Machine.execCorFaultClear c v s
  | .dramRead r x => Sys2Proof.Machine.execDramRead r x s
  | .dramWrite r addr data => Sys2Proof.Machine.execDramWrite r addr data s
  | .narrowWrite r addr bytes => Sys2Proof.Machine.execNarrowWrite r addr bytes s
  | .mergeFlush ch line => Sys2Proof.Machine.execMergeFlush ch line s
  | .refresh ch => Sys2Proof.Machine.execRefresh ch s
  | .mr4Poll ch hot => Sys2Proof.Machine.execMr4Poll ch hot s
  | .rankPowerDown ch rank => Sys2Proof.Machine.execRankPowerDown ch rank s
  | .dramTraining ch ok => Sys2Proof.Machine.execDramTraining ch ok s
  | .calibrationSliver ch k => Sys2Proof.Machine.execCalibrationSliver ch k s
  | .hardwareFill ch => Sys2Proof.Machine.execHardwareFill ch s
  | .scrubLine ch => Sys2Proof.Machine.execScrubLine ch s
  | .dramScrubUrgent ch => Sys2Proof.Machine.execDramScrubUrgent ch s
  | .drmErrqRetire ch v => Sys2Proof.Machine.execDrmErrqRetire ch v s
  | .dramPageRetired ch block => Sys2Proof.Machine.execDramPageRetired ch block s
  | .dramChannelFenced ch cause => Sys2Proof.Machine.execDramChannelFenced ch cause s
  | .remapFill ch loss => Sys2Proof.Machine.execRemapFill ch loss s
  | .frameReceived port f => Sys2Proof.Machine.execFrameReceived port f s
  | .pauseReceived port f => Sys2Proof.Machine.execPauseReceived port f s
  | .pauseTimerExpiry port cls => Sys2Proof.Machine.execPauseTimerExpiry port cls s
  | .portStalled port cls => Sys2Proof.Machine.execPortStalled port cls s
  | .portStallCleared port cls => Sys2Proof.Machine.execPortStallCleared port cls s
  | .packetSwitch q => Sys2Proof.Machine.execPacketSwitch q s
  | .stitcherPacket ctx => Sys2Proof.Machine.execStitcherPacket ctx s
  | .stitchHoldExpiry ctx => Sys2Proof.Machine.execStitchHoldExpiry ctx s
  | .stitchPath ctx b => Sys2Proof.Machine.execStitchPath ctx b s
  | .runqUnread q => Sys2Proof.Machine.execRunqUnread q s
  | .pfcRefresh port => Sys2Proof.Machine.execPfcRefresh port s
  | .egressSelect port => Sys2Proof.Machine.execEgressSelect port s
  | .statsInterval => Sys2Proof.Machine.execStatsInterval s
  | .ethLinkChange port up => Sys2Proof.Machine.execEthLinkChange port up s
  | .quenchPin low => Sys2Proof.Machine.execQuenchPin low s
  | .hqDoorbell fn q cq v => Sys2Proof.Machine.execHqDoorbell fn q cq v s
  | .queuePoll q shadow => Sys2Proof.Machine.execQueuePoll q shadow s
  | .commandFetch q entry => Sys2Proof.Machine.execCommandFetch q entry s
  | .commandComplete slot => Sys2Proof.Machine.execCommandComplete slot s
  | .createQueue slot => Sys2Proof.Machine.execCreateQueue slot s
  | .deleteQueue slot => Sys2Proof.Machine.execDeleteQueue slot s
  | .identify slot => Sys2Proof.Machine.execIdentify slot s
  | .getLog slot => Sys2Proof.Machine.execGetLog slot s
  | .setEvents slot => Sys2Proof.Machine.execSetEvents slot s
  | .regRead slot => Sys2Proof.Machine.execRegRead slot s
  | .regWrite slot => Sys2Proof.Machine.execRegWrite slot s
  | .txnBegin slot => Sys2Proof.Machine.execTxnBegin slot s
  | .txnCommit slot => Sys2Proof.Machine.execTxnCommit slot s
  | .txnAbort slot => Sys2Proof.Machine.execTxnAbort slot s
  | .streamQuench slot => Sys2Proof.Machine.execStreamQuench slot s
  | .streamUnquench slot => Sys2Proof.Machine.execStreamUnquench slot s
  | .sweepRestart slot => Sys2Proof.Machine.execSweepRestart slot s
  | .outputSet slot => Sys2Proof.Machine.execOutputSet slot s
  | .imageWrite slot data => Sys2Proof.Machine.execImageWrite slot data s
  | .patch slot => Sys2Proof.Machine.execPatch slot s
  | .ctxRead slot => Sys2Proof.Machine.execCtxRead slot s
  | .encPost x => Sys2Proof.Machine.execEncPost x s
  | .decPost slot lengths => Sys2Proof.Machine.execDecPost slot lengths s
  | .hostDmaDone slot ok => Sys2Proof.Machine.execHostDmaDone slot ok s
  | .frameRead x => Sys2Proof.Machine.execFrameRead x s
  | .ledgerRead x => Sys2Proof.Machine.execLedgerRead x s
  | .pagePost q entry => Sys2Proof.Machine.execPagePost q entry s
  | .pageFlushTimeout k => Sys2Proof.Machine.execPageFlushTimeout k s
  | .functionLevelReset fn => Sys2Proof.Machine.execFunctionLevelReset fn s
  | .supervisoryMessage m => Sys2Proof.Machine.execSupervisoryMessage m s
  | .admission => Sys2Proof.Machine.execAdmission s
  | .starvationStep work => Sys2Proof.Machine.execStarvationStep work s
  | .urgentCapWindow work => Sys2Proof.Machine.execUrgentCapWindow work s
  | .bellowsRequest rail k lv requester => Sys2Proof.Machine.execBellowsRequest rail k lv requester s
  | .bellowsGrant rail => Sys2Proof.Machine.execBellowsGrant rail s
  | .bellowsRelease rail k requester => Sys2Proof.Machine.execBellowsRelease rail k requester s
  | .bellowsDeny rail requester => Sys2Proof.Machine.execBellowsDeny rail requester s
  | .blwSlow rail core => Sys2Proof.Machine.execBlwSlow rail core s
  | .resetRelease x => Sys2Proof.Machine.execResetRelease x s
  | .resetAssert => Sys2Proof.Machine.execResetAssert s
  | .powerOnReset => Sys2Proof.Machine.execPowerOnReset s
  | .imageLoad f => Sys2Proof.Machine.execImageLoad f s
  | .signatureCheck => Sys2Proof.Machine.execSignatureCheck s
  | .identity => Sys2Proof.Machine.execIdentity s
  | .platform => Sys2Proof.Machine.execPlatform s
  | .tackFw => Sys2Proof.Machine.execTackFw s
  | .keys => Sys2Proof.Machine.execKeys s
  | .pattern => Sys2Proof.Machine.execPattern s
  | .mapWrite => Sys2Proof.Machine.execMapWrite s
  | .budget => Sys2Proof.Machine.execBudget s
  | .endRecord => Sys2Proof.Machine.execEndRecord s
  | .loadDone => Sys2Proof.Machine.execLoadDone s
  | .trainEnd late => Sys2Proof.Machine.execTrainEnd late s
  | .twinWaitExpiry => Sys2Proof.Machine.execTwinWaitExpiry s
  | .adoptConfirm v => Sys2Proof.Machine.execAdoptConfirm v s
  | .deviceAdopted => Sys2Proof.Machine.execDeviceAdopted s
  | .reqRest w v => Sys2Proof.Machine.execReqRest w v s
  | .reqWake w v => Sys2Proof.Machine.execReqWake w v s
  | .reqDemote w v => Sys2Proof.Machine.execReqDemote w v s
  | .wakePin => Sys2Proof.Machine.execWakePin s
  | .restExitDone => Sys2Proof.Machine.execRestExitDone s
  | .tackFwReady => Sys2Proof.Machine.execTackFwReady s
  | .patchFailed => Sys2Proof.Machine.execPatchFailed s
  | .otpFuseBlow => Sys2Proof.Machine.execOtpFuseBlow s
  | .flashOpDone => Sys2Proof.Machine.execFlashOpDone s
  | .pwrHoldChange high => Sys2Proof.Machine.execPwrHoldChange high s
  | .flashPowerWait => Sys2Proof.Machine.execFlashPowerWait s
  | .ircClaim => Sys2Proof.Machine.execIrcClaim s
  | .ircEoi v => Sys2Proof.Machine.execIrcEoi v s
  | .ircBlkAck v => Sys2Proof.Machine.execIrcBlkAck v s
  | .tackRestarted cause => Sys2Proof.Machine.execTackRestarted cause s
  | .dmaChannelStart k => Sys2Proof.Machine.execDmaChannelStart k s
  | .dmaComplete => Sys2Proof.Machine.execDmaComplete s
  | .dmaBusError k addr => Sys2Proof.Machine.execDmaBusError k addr s
  | .dmaDisable k => Sys2Proof.Machine.execDmaDisable k s
  | .dmaEnable k => Sys2Proof.Machine.execDmaEnable k s
  | .timerExpiry j => Sys2Proof.Machine.execTimerExpiry j s
  | .timerAck j => Sys2Proof.Machine.execTimerAck j s
  | .uartRxChar bits => Sys2Proof.Machine.execUartRxChar bits s
  | .uartBreak => Sys2Proof.Machine.execUartBreak s
  | .uartRxRead => Sys2Proof.Machine.execUartRxRead s
  | .uartTxWrite v => Sys2Proof.Machine.execUartTxWrite v s
  | .uartTxCharDone => Sys2Proof.Machine.execUartTxCharDone s
  | .uartStatusClear v => Sys2Proof.Machine.execUartStatusClear v s
  | .sensorSample temps volts => Sys2Proof.Machine.execSensorSample temps volts s
  | .eventPost e => Sys2Proof.Machine.execEventPost e s
  | .logWriterMove => Sys2Proof.Machine.execLogWriterMove s
  | .logFlush => Sys2Proof.Machine.execLogFlush s
  | .semAcquire n x => Sys2Proof.Machine.execSemAcquire n x s
  | .semRelease n x => Sys2Proof.Machine.execSemRelease n x s
  | .semRecovered n x => Sys2Proof.Machine.execSemRecovered n x s
  | .semBreak n x => Sys2Proof.Machine.execSemBreak n x s
  | .semStateRead n => Sys2Proof.Machine.execSemStateRead n s
  | .watchdogKick v => Sys2Proof.Machine.execWatchdogKick v s
  | .tackWdogWarn => Sys2Proof.Machine.execTackWdogWarn s
  | .watchdogSecondExpiry => Sys2Proof.Machine.execWatchdogSecondExpiry s
  | .faultReport rs => Sys2Proof.Machine.execFaultReport rs s
  | .reloadDone src => Sys2Proof.Machine.execReloadDone src s
  | .wireCheck src ok => Sys2Proof.Machine.execWireCheck src ok s
  | .wireCodeInvalid src => Sys2Proof.Machine.execWireCodeInvalid src s
  | .faultForce w src v => Sys2Proof.Machine.execFaultForce w src v s
  | .fltStatClear v => Sys2Proof.Machine.execFltStatClear v s
  | .girthLinkTrained => Sys2Proof.Machine.execGirthLinkTrained s
  | .heartbeatTick => Sys2Proof.Machine.execHeartbeatTick s
  | .heartbeat h m => Sys2Proof.Machine.execHeartbeat h m s
  | .handover h demote => Sys2Proof.Machine.execHandover h demote s
  | .ident h m => Sys2Proof.Machine.execIdent h m s
  | .timing h m => Sys2Proof.Machine.execTiming h m s
  | .encState h k m => Sys2Proof.Machine.execEncState h k m s
  | .picCrc h k m => Sys2Proof.Machine.execPicCrc h k m s
  | .picCrcTimeout k picCount => Sys2Proof.Machine.execPicCrcTimeout k picCount s
  | .port h m => Sys2Proof.Machine.execPort h m s
  | .command h p entry => Sys2Proof.Machine.execCommand h p entry s
  | .txn h m => Sys2Proof.Machine.execTxn h m s
  | .sem h m => Sys2Proof.Machine.execSem h m s
  | .snapshot h m last => Sys2Proof.Machine.execSnapshot h m last s
  | .tileDelta h m => Sys2Proof.Machine.execTileDelta h m s
  | .hostData h m => Sys2Proof.Machine.execHostData h m s
  | .ack h => Sys2Proof.Machine.execAck h s
  | .girthRetransmit => Sys2Proof.Machine.execGirthRetransmit s
  | .deltaDrop => Sys2Proof.Machine.execDeltaDrop s
  | .girthSilence => Sys2Proof.Machine.execGirthSilence s
  | .girthLockLoss => Sys2Proof.Machine.execGirthLockLoss s
  | .identRetry => Sys2Proof.Machine.execIdentRetry s
  | .ownHeartbeatTimeout => Sys2Proof.Machine.execOwnHeartbeatTimeout s
  | .peerFaultEdge low => Sys2Proof.Machine.execPeerFaultEdge low s
  | .peerOwnEdge high => Sys2Proof.Machine.execPeerOwnEdge high s
  | .pmbusPoll rail r => Sys2Proof.Machine.execPmbusPoll rail r s
  | .pmbusSetPoint rail mv ack => Sys2Proof.Machine.execPmbusSetPoint rail mv ack s
  | .pmbusConfirm rail mv => Sys2Proof.Machine.execPmbusConfirm rail mv s
  | .supplyComparatorTrip rail => Sys2Proof.Machine.execSupplyComparatorTrip rail s
  | .thermalTrip => Sys2Proof.Machine.execThermalTrip s
  | .thermalCheck => Sys2Proof.Machine.execThermalCheck s
  | .throttleStepUp b => Sys2Proof.Machine.execThrottleStepUp b s
  | .bayClockChange b => Sys2Proof.Machine.execBayClockChange b s
  | .sysClkLoss => Sys2Proof.Machine.execSysClkLoss s
  | .pllLockLoss p => Sys2Proof.Machine.execPllLockLoss p s
  | .registerWrite w addr v whole => Sys2Proof.Machine.execRegisterWrite w addr v whole s
  | .txnOpBegin w t => Sys2Proof.Machine.execTxnOpBegin w t s
  | .txnOpCommit w t => Sys2Proof.Machine.execTxnOpCommit w t s
  | .txnOpAbort w t => Sys2Proof.Machine.execTxnOpAbort w t s
  | .txnWdata w t v => Sys2Proof.Machine.execTxnWdata w t v s
  | .txnTimeout t => Sys2Proof.Machine.execTxnTimeout t s
  | .glbWerrClear v => Sys2Proof.Machine.execGlbWerrClear v s
  | .dpiReasonClear n v => Sys2Proof.Machine.execDpiReasonClear n v s
  | .dpoHpdChange n high => Sys2Proof.Machine.execDpoHpdChange n high s
  | .dpiLinkDown n => Sys2Proof.Machine.execDpiLinkDown n s
  | .pcieLinkChange st aer => Sys2Proof.Machine.execPcieLinkChange st aer s

end Sys2Proof.Machine
end

