-- ==== Sys2Proof/Machine/Step.lean ====
section
/-! DEFINITION. The step: the command at the front of the queue, or the passing of time. -/

namespace Sys2Proof.Machine

/-- An empty queue lets 1 ns of the device's time pass, and as much of the PTP clock's as its rate gives (DESIGN CHOICE, log
entry 1); DRAM requests that waited for a slot then get one that has come free. -/
def tick (s : State) : State := s.passTime.serveWaits

/-- One step: the command at the front acts on the state with the rest of the queue. -/
def step (s : State) : Host.Outcome State Fault Refusal :=
  match s.pending with
  | [] => .next (tick s)
  | c :: rest => exec c { s with pending := rest }

/-- The state with the command that a word spells in front of its queue; no word spells one. -/
def State.withFetchWord (s : State) (nbits w : Nat) : State :=
  match decodeTableWord nbits w with
  | some c => { s with pending := c :: s.pending }
  | none => s

end Sys2Proof.Machine
end

