-- ==== Sys2Proof/Safety.lean ====
section
/-! DEFINITION. What counts as a safe state, and what a command leaves alone: the invariants and the frames that statements
use. -/

namespace Sys2Proof

namespace Machine

/-- The byte memories of the device (the flash, the host's memory, the Tack SRAM) are in their canonical form. -/
def State.memOk (s : State) : Bool :=
  Memory.wf s.fsh.flash erased && Memory.wf s.hq.hostMem hostByte && Memory.wf s.tck.sram 0

/-- R373: the stack of running priorities rises strictly. -/
def State.stackOk (s : State) : Bool := stackRises s.irc.stack

/-- R278, R279: the command `c` of slot `n` may begin, and the mode does not turn it away. -/
abbrev State.starts (s : State) (n : Nat) (x : Slot) (c : HostCmd) : Prop :=
  s.slot n = some x ∧ x.cmd = some c ∧ s.begins x c = true ∧ s.gate c x.path = none

/-- R281: the command of slot `n` has completed with a status and a result, and waits for its completion entry. -/
abbrev State.completed (t : State) (n : Nat) (x : Slot) (st : Status) (r : Word) : Prop :=
  t.slot n = some { x with phase := .done, status := st, result := r }

/-- The component is the same in two states. -/
def Comp.same (s t : State) : Comp → Prop
  | .now => t.now = s.now
  | .ptp => t.ptp = s.ptp
  | .freeCtr => t.freeCtr = s.freeCtr
  | .ras => t.ras = s.ras
  | .enc => t.enc = s.enc
  | .dec => t.dec = s.dec
  | .cmp => t.cmp = s.cmp
  | .out => t.out = s.out
  | .cores => t.cores = s.cores
  | .drm => t.drm = s.drm
  | .run => t.run = s.run
  | .hq => t.hq = s.hq
  | .txn => t.txn = s.txn
  | .blw => t.blw = s.blw
  | .fsh => t.fsh = s.fsh
  | .glb => t.glb = s.glb
  | .irc => t.irc = s.irc
  | .tck => t.tck = s.tck
  | .log => t.log = s.log
  | .sem => t.sem = s.sem
  | .flt => t.flt = s.flt
  | .grt => t.grt = s.grt

/-- The queue, and every component that is not listed, is the same in two states. -/
def frame (l : List Comp) (s t : State) : Prop := t.pending = s.pending ∧ ∀ c : Comp, c ∉ l → c.same s t

/-- The components that a command may change; every other component is left as it is. -/
def footprint : Instr → List Comp
  | .syncMessage _ => [.ptp, .freeCtr, .ras, .cmp, .run, .blw, .glb, .irc, .log, .flt]
  | .grandmasterAccepted _ _ => [.ptp, .ras, .cmp, .irc, .log]
  | .announceTimeout => [.ras, .irc, .log]
  | .holdoverLimit => [.ras, .irc, .log]
  | .lineStart _ => [.freeCtr, .ras, .enc, .dec, .cmp, .out, .cores, .drm, .run, .hq, .txn, .blw, .fsh, .glb, .irc, .tck, .log, .sem, .flt, .grt]
  | .lineEventArm _ _ _ => [.ras, .glb, .irc, .log]
  | .lineEventDisarm _ _ _ => [.ras, .glb, .irc, .log]
  | .inputFrameStart _ _ _ => [.freeCtr, .ras, .enc, .drm, .hq, .txn, .irc, .log, .grt]
  | .inputSignalTimeout _ => [.ras, .irc, .log]
  | .rasterRealign _ => [.ras, .hq, .txn, .irc, .log]
  | .rasterRetimed _ _ => [.ras, .out, .irc, .log]
  | .retimingEnd _ => [.ras, .out, .hq, .txn, .irc, .log]
  | .encodeSelfRelease _ => [.enc, .log]
  | .encodeRowIssue _ _ => [.enc, .cores, .blw, .log, .grt]
  | .encodeRowComplete _ _ => [.enc, .cores, .drm, .run, .hq, .blw, .glb, .irc, .log, .grt]
  | .hostfedFrameStart _ => [.enc, .log]
  | .sliceHeaderParse _ _ => [.freeCtr, .dec, .cmp, .cores, .drm, .blw, .irc, .log, .grt]
  | .paramSetReceived _ _ _ => [.freeCtr, .dec, .cmp, .cores, .drm, .blw, .irc, .log, .grt]
  | .ledgerSegment _ _ _ => [.freeCtr, .dec, .cmp, .drm, .irc, .log, .grt]
  | .accessUnitEnd _ => [.freeCtr, .dec, .cmp, .cores, .drm, .blw, .irc, .log, .grt]
  | .decodeTaskIssue _ _ => [.dec, .cores, .blw, .log]
  | .decodeRowComplete _ _ _ => [.freeCtr, .enc, .dec, .cmp, .cores, .drm, .blw, .glb, .irc, .log, .grt]
  | .checkTaskComplete _ _ => [.freeCtr, .enc, .dec, .cmp, .cores, .drm, .blw, .glb, .irc, .log, .grt]
  | .decodeRowLate _ => [.dec, .blw, .irc, .log]
  | .decodeSkipped _ _ => [.freeCtr, .dec, .cmp, .cores, .drm, .blw, .irc, .log, .grt]
  | .streamStart _ => [.freeCtr, .dec, .cmp, .cores, .drm, .hq, .blw, .irc, .log, .grt]
  | .streamRejoin _ => [.freeCtr, .dec, .cmp, .cores, .drm, .hq, .blw, .irc, .log, .grt]
  | .outputLineFetch _ => [.dec, .cmp, .drm, .irc, .log, .grt]
  | .cmpLineLate _ _ => [.cmp, .irc, .log]
  | .tileStateVisit _ _ => [.cmp, .blw]
  | .tileStateFill _ => [.dec]
  | .dpLinkTrain _ _ => [.freeCtr, .out, .irc, .log, .grt]
  | .dpHpdIrq _ _ => [.freeCtr, .out, .irc, .log, .grt]
  | .dpSinkLinkTrain _ _ _ _ => [.ras, .out, .irc, .log]
  | .dpHpdPulseEnd _ => [.out]
  | .microwordIssue _ => [.freeCtr, .enc, .dec, .cmp, .cores, .drm, .blw, .irc, .log, .sem, .flt, .grt]
  | .fillDone _ => [.freeCtr, .enc, .dec, .cores, .drm, .blw, .glb, .irc, .log, .flt, .grt]
  | .drainDone _ => [.freeCtr, .enc, .dec, .cores, .drm, .blw, .glb, .irc, .log, .flt, .grt]
  | .bankReloadDone _ _ => [.freeCtr, .enc, .dec, .cmp, .cores, .drm, .blw, .irc, .log, .sem, .grt]
  | .unitDone _ _ _ _ => [.cores, .blw]
  | .externalEvent _ _ => [.cores, .blw]
  | .deadlock _ => [.freeCtr, .enc, .dec, .cmp, .cores, .drm, .blw, .irc, .log, .sem, .flt, .grt]
  | .coreC1Entry _ => [.cores]
  | .corePowerDown _ _ => [.freeCtr, .cores, .blw, .log, .sem]
  | .coreWake _ => [.cores, .blw]
  | .coreWakeDone _ => [.cores]
  | .ptnSwap _ => [.enc, .cores, .irc, .log, .sem, .grt]
  | .coreDrained _ => [.enc, .cores, .blw, .glb, .irc, .log, .sem, .grt]
  | .patternStoreWrite _ _ _ _ _ => [.cores, .glb]
  | .corFaultClear _ _ => [.cores]
  | .dramRead _ _ => [.freeCtr, .enc, .dec, .drm, .blw, .glb, .irc, .log, .flt, .grt]
  | .dramWrite _ _ _ => [.freeCtr, .enc, .dec, .drm, .blw, .glb, .irc, .log, .flt, .grt]
  | .narrowWrite _ _ _ => [.freeCtr, .enc, .dec, .drm, .blw, .glb, .irc, .log, .flt, .grt]
  | .mergeFlush _ _ => [.drm, .blw, .glb, .irc, .log, .flt]
  | .refresh _ => [.drm]
  | .mr4Poll _ _ => [.drm, .irc, .log]
  | .rankPowerDown _ _ => [.drm]
  | .dramTraining _ _ => [.drm, .blw, .glb, .irc, .log, .flt]
  | .calibrationSliver _ _ => [.drm, .blw, .glb, .irc, .log, .flt]
  | .hardwareFill _ => [.drm, .irc]
  | .scrubLine _ => [.drm, .blw, .glb, .irc, .log, .flt]
  | .dramScrubUrgent _ => [.drm, .irc, .log]
  | .drmErrqRetire _ _ => [.drm]
  | .dramPageRetired _ _ => [.freeCtr, .drm, .fsh, .log]
  | .dramChannelFenced _ _ => [.drm, .blw, .glb, .irc, .log, .flt]
  | .remapFill _ _ => [.freeCtr, .enc, .dec, .cmp, .cores, .drm, .blw, .glb, .irc, .log, .flt, .grt]
  | .frameReceived _ _ => [.freeCtr, .run, .irc, .log]
  | .pauseReceived _ _ => [.run]
  | .pauseTimerExpiry _ _ => [.run]
  | .portStalled _ _ => [.run, .irc, .log]
  | .portStallCleared _ _ => [.run, .irc, .log]
  | .packetSwitch _ => [.dec, .cores, .run, .blw, .glb, .irc, .log, .flt]
  | .stitcherPacket _ => [.freeCtr, .ras, .dec, .cmp, .cores, .drm, .run, .blw, .glb, .irc, .log, .flt, .grt]
  | .stitchHoldExpiry _ => [.ras, .dec, .cores, .run, .blw, .glb, .irc, .log, .flt]
  | .stitchPath _ _ => [.run, .irc, .log]
  | .runqUnread _ => [.run, .blw, .glb, .irc, .log, .flt]
  | .pfcRefresh _ => [.run]
  | .egressSelect _ => [.run, .blw, .glb, .irc, .log, .flt]
  | .statsInterval => [.run, .blw]
  | .ethLinkChange _ _ => [.run, .irc]
  | .quenchPin _ => [.run, .log]
  | .hqDoorbell _ _ _ _ => [.enc, .hq, .glb, .irc, .log]
  | .queuePoll _ _ => [.enc, .hq, .irc, .log]
  | .commandFetch _ _ => [.hq]
  | .commandComplete _ => [.freeCtr, .run, .hq]
  | .createQueue _ => [.hq, .grt]
  | .deleteQueue _ => [.hq, .txn, .irc, .grt]
  | .identify _ => [.hq, .grt]
  | .getLog _ => [.hq, .grt]
  | .setEvents _ => [.hq, .grt]
  | .regRead _ => [.hq, .irc, .tck, .sem, .grt]
  | .regWrite _ => [.freeCtr, .ras, .enc, .dec, .cmp, .out, .cores, .drm, .run, .hq, .txn, .blw, .fsh, .glb, .irc, .tck, .log, .sem, .flt, .grt]
  | .txnBegin _ => [.hq, .txn, .grt]
  | .txnCommit _ => [.freeCtr, .ras, .enc, .dec, .cmp, .out, .cores, .drm, .run, .hq, .txn, .blw, .fsh, .glb, .irc, .tck, .log, .sem, .flt, .grt]
  | .txnAbort _ => [.hq, .txn, .irc, .grt]
  | .streamQuench _ => [.ras, .run, .hq, .txn, .irc, .log, .grt]
  | .streamUnquench _ => [.ras, .run, .hq, .txn, .irc, .log, .grt]
  | .sweepRestart _ => [.enc, .hq, .grt]
  | .outputSet _ => [.out, .hq, .txn, .grt]
  | .imageWrite _ _ => [.hq, .fsh, .log, .grt]
  | .patch _ => [.freeCtr, .cmp, .drm, .run, .hq, .txn, .blw, .glb, .irc, .tck, .log, .sem, .flt, .grt]
  | .ctxRead _ => [.hq, .grt]
  | .encPost _ => [.enc, .hq, .grt]
  | .decPost _ _ => [.hq, .grt]
  | .hostDmaDone _ _ => [.freeCtr, .enc, .dec, .cores, .hq, .blw, .log, .grt]
  | .frameRead _ => [.hq, .grt]
  | .ledgerRead _ => [.hq, .grt]
  | .pagePost _ _ => [.enc, .hq, .grt]
  | .pageFlushTimeout _ => [.enc, .hq]
  | .functionLevelReset _ => [.enc, .dec, .cores, .hq, .txn, .blw, .fsh, .irc, .log, .sem, .grt]
  | .supervisoryMessage _ => [.run, .hq, .blw, .glb, .irc, .log, .flt]
  | .admission => [.freeCtr, .ras, .enc, .dec, .cmp, .out, .cores, .drm, .run, .hq, .txn, .blw, .fsh, .glb, .irc, .tck, .log, .sem, .flt, .grt]
  | .starvationStep _ => [.blw, .log]
  | .urgentCapWindow _ => [.blw]
  | .bellowsRequest _ _ _ _ => [.blw]
  | .bellowsGrant _ => [.enc, .cores, .blw]
  | .bellowsRelease _ _ _ => [.blw]
  | .bellowsDeny _ _ => [.enc, .blw, .irc, .log]
  | .blwSlow _ _ => [.blw, .irc, .log]
  | .resetRelease _ => [.glb]
  | .resetAssert => [.now, .ptp, .ras, .enc, .dec, .cmp, .out, .cores, .drm, .run, .hq, .txn, .blw, .fsh, .glb, .irc, .tck, .log, .sem, .flt, .grt]
  | .powerOnReset => [.now, .ptp, .freeCtr, .ras, .enc, .dec, .cmp, .out, .cores, .drm, .run, .hq, .txn, .blw, .fsh, .glb, .irc, .tck, .log, .sem, .flt, .grt]
  | .imageLoad _ => [.drm, .hq, .fsh, .glb, .irc, .log]
  | .signatureCheck => [.ras, .enc, .dec, .cmp, .out, .cores, .drm, .run, .hq, .txn, .blw, .fsh, .glb, .irc, .tck, .sem, .grt]
  | .identity => [.fsh]
  | .platform => [.ras, .enc, .dec, .cmp, .out, .cores, .drm, .run, .hq, .txn, .blw, .fsh, .glb, .irc, .tck, .sem, .grt]
  | .tackFw => [.ras, .out, .cores, .drm, .run, .hq, .txn, .blw, .fsh, .glb, .tck, .log, .flt]
  | .keys => [.hq, .fsh]
  | .pattern => [.cores, .fsh]
  | .mapWrite => [.freeCtr, .ras, .enc, .dec, .cmp, .out, .cores, .drm, .run, .hq, .txn, .blw, .fsh, .glb, .irc, .tck, .log, .sem, .flt, .grt]
  | .budget => [.fsh]
  | .endRecord => [.drm, .fsh, .glb, .irc, .tck, .log]
  | .loadDone => [.freeCtr, .dec, .cmp, .out, .cores, .drm, .hq, .blw, .glb, .irc, .log, .grt]
  | .trainEnd _ => [.freeCtr, .out, .blw, .fsh, .glb, .irc, .log]
  | .twinWaitExpiry => [.freeCtr, .out, .fsh, .glb, .irc, .log]
  | .adoptConfirm _ => [.freeCtr, .out, .fsh, .glb, .irc, .log]
  | .deviceAdopted => [.glb, .log]
  | .reqRest _ _ => [.freeCtr, .ras, .out, .cores, .drm, .run, .blw, .glb, .irc, .log, .sem, .flt, .grt]
  | .reqWake _ _ => [.freeCtr, .ras, .out, .cores, .drm, .run, .blw, .glb, .irc, .log, .sem, .flt, .grt]
  | .reqDemote _ _ => [.freeCtr, .ras, .out, .cores, .drm, .run, .blw, .glb, .irc, .log, .sem, .flt, .grt]
  | .wakePin => [.glb]
  | .restExitDone => [.out, .drm, .blw, .glb, .irc, .tck, .log, .grt]
  | .tackFwReady => [.enc, .cores, .hq, .txn, .blw, .glb, .irc, .tck, .log, .grt]
  | .patchFailed => [.fsh, .glb, .irc, .tck, .log]
  | .otpFuseBlow => [.fsh, .log]
  | .flashOpDone => [.drm, .hq, .blw, .fsh, .glb, .irc, .log]
  | .pwrHoldChange _ => [.fsh, .log]
  | .flashPowerWait => [.hq, .fsh, .log]
  | .ircClaim => [.irc]
  | .ircEoi _ => [.irc]
  | .ircBlkAck _ => [.irc]
  | .tackRestarted _ => [.freeCtr, .cmp, .drm, .run, .hq, .txn, .blw, .glb, .irc, .tck, .log, .sem, .flt, .grt]
  | .dmaChannelStart _ => [.tck]
  | .dmaComplete => [.freeCtr, .ras, .enc, .dec, .cmp, .out, .cores, .drm, .run, .hq, .txn, .blw, .fsh, .glb, .irc, .tck, .log, .sem, .flt, .grt]
  | .dmaBusError _ _ => [.freeCtr, .ras, .enc, .dec, .cmp, .out, .cores, .drm, .run, .hq, .txn, .blw, .fsh, .glb, .irc, .tck, .log, .sem, .flt, .grt]
  | .dmaDisable _ => [.freeCtr, .cmp, .drm, .run, .blw, .glb, .irc, .tck, .log, .sem, .flt]
  | .dmaEnable _ => [.tck]
  | .timerExpiry _ => [.glb, .tck]
  | .timerAck _ => [.tck]
  | .uartRxChar _ => [.glb, .tck]
  | .uartBreak => [.glb, .tck]
  | .uartRxRead => [.tck]
  | .uartTxWrite _ => [.tck]
  | .uartTxCharDone => [.tck]
  | .uartStatusClear _ => [.tck]
  | .sensorSample _ _ => [.blw, .fsh, .glb, .tck, .log]
  | .eventPost _ => [.log]
  | .logWriterMove => [.hq, .log]
  | .logFlush => [.freeCtr, .fsh, .log]
  | .semAcquire _ _ => [.sem]
  | .semRelease _ _ => [.sem]
  | .semRecovered _ _ => [.sem]
  | .semBreak _ _ => [.log, .sem]
  | .semStateRead _ => [.sem]
  | .watchdogKick _ => [.glb, .tck]
  | .tackWdogWarn => [.glb, .tck, .log]
  | .watchdogSecondExpiry => [.freeCtr, .cmp, .drm, .run, .hq, .txn, .blw, .glb, .irc, .tck, .log, .sem, .flt, .grt]
  | .faultReport _ => [.freeCtr, .ras, .enc, .dec, .cmp, .out, .cores, .drm, .run, .hq, .txn, .blw, .fsh, .glb, .irc, .tck, .log, .sem, .flt, .grt]
  | .reloadDone _ => [.flt]
  | .wireCheck _ _ => [.freeCtr, .ras, .enc, .dec, .cmp, .out, .cores, .drm, .run, .hq, .txn, .blw, .fsh, .glb, .irc, .tck, .log, .sem, .flt, .grt]
  | .wireCodeInvalid _ => [.freeCtr, .ras, .enc, .dec, .cmp, .out, .cores, .drm, .run, .hq, .txn, .blw, .fsh, .glb, .irc, .tck, .log, .sem, .flt, .grt]
  | .faultForce _ _ _ => [.freeCtr, .ras, .enc, .dec, .cmp, .out, .cores, .drm, .run, .hq, .txn, .blw, .fsh, .glb, .irc, .tck, .log, .sem, .flt, .grt]
  | .fltStatClear _ => [.flt]
  | .girthLinkTrained => [.irc, .grt]
  | .heartbeatTick => [.glb, .grt]
  | .heartbeat _ _ => [.freeCtr, .enc, .out, .run, .blw, .fsh, .glb, .irc, .log, .sem, .grt]
  | .handover _ _ => [.grt]
  | .ident _ _ => [.freeCtr, .out, .fsh, .glb, .irc, .log, .grt]
  | .timing _ _ => [.enc, .grt]
  | .encState _ _ _ => [.enc, .grt]
  | .picCrc _ _ _ => [.enc, .irc, .log, .grt]
  | .picCrcTimeout _ _ => [.enc]
  | .port _ _ => [.out, .irc, .grt]
  | .command _ _ _ => [.freeCtr, .ras, .enc, .dec, .cmp, .out, .cores, .drm, .run, .hq, .txn, .blw, .fsh, .glb, .irc, .tck, .log, .sem, .flt, .grt]
  | .txn _ _ => [.freeCtr, .ras, .enc, .dec, .cmp, .out, .cores, .drm, .run, .hq, .txn, .blw, .fsh, .glb, .irc, .tck, .log, .sem, .flt, .grt]
  | .sem _ _ => [.log, .sem, .grt]
  | .snapshot _ _ _ => [.grt]
  | .tileDelta _ _ => [.irc, .log, .grt]
  | .hostData _ _ => [.enc, .dec, .cores, .blw, .grt]
  | .ack _ => [.grt]
  | .girthRetransmit => [.enc, .out, .run, .blw, .glb, .irc, .log, .sem, .grt]
  | .deltaDrop => [.grt]
  | .girthSilence => [.enc, .out, .run, .blw, .glb, .irc, .log, .sem, .grt]
  | .girthLockLoss => [.enc, .out, .run, .blw, .glb, .irc, .log, .sem, .grt]
  | .identRetry => [.irc, .grt]
  | .ownHeartbeatTimeout => [.glb]
  | .peerFaultEdge _ => [.enc, .out, .run, .blw, .glb, .irc, .log, .sem, .grt]
  | .peerOwnEdge _ => [.enc, .out, .run, .blw, .glb, .irc, .log, .sem, .grt]
  | .pmbusPoll _ _ => [.tck, .log]
  | .pmbusSetPoint _ _ _ => [.blw, .irc, .tck, .log]
  | .pmbusConfirm _ _ => [.blw, .irc, .tck, .log]
  | .supplyComparatorTrip _ => [.freeCtr, .ras, .enc, .dec, .cmp, .out, .cores, .drm, .run, .hq, .txn, .blw, .fsh, .glb, .irc, .tck, .log, .sem, .flt, .grt]
  | .thermalTrip => [.freeCtr, .ras, .enc, .dec, .cmp, .out, .cores, .drm, .run, .hq, .txn, .blw, .fsh, .glb, .irc, .tck, .log, .sem, .flt, .grt]
  | .thermalCheck => [.freeCtr, .blw, .irc, .log]
  | .throttleStepUp _ => [.blw]
  | .bayClockChange _ => [.blw, .irc, .log]
  | .sysClkLoss => [.freeCtr, .ras, .enc, .dec, .cmp, .out, .cores, .drm, .run, .hq, .txn, .blw, .fsh, .glb, .irc, .tck, .log, .sem, .flt, .grt]
  | .pllLockLoss _ => [.freeCtr, .ras, .enc, .dec, .cmp, .out, .cores, .drm, .run, .hq, .txn, .blw, .fsh, .glb, .irc, .tck, .log, .sem, .flt, .grt]
  | .registerWrite _ _ _ _ => [.freeCtr, .ras, .enc, .dec, .cmp, .out, .cores, .drm, .run, .hq, .txn, .blw, .fsh, .glb, .irc, .tck, .log, .sem, .flt, .grt]
  | .txnOpBegin _ _ => [.txn, .glb]
  | .txnOpCommit _ _ => [.freeCtr, .ras, .enc, .dec, .cmp, .out, .cores, .drm, .run, .hq, .txn, .blw, .fsh, .glb, .irc, .tck, .log, .sem, .flt, .grt]
  | .txnOpAbort _ _ => [.hq, .txn, .glb, .irc, .grt]
  | .txnWdata _ _ _ => [.ras, .txn, .glb, .irc]
  | .txnTimeout _ => [.hq, .txn, .irc]
  | .glbWerrClear _ => [.freeCtr, .ras, .enc, .dec, .cmp, .out, .cores, .drm, .run, .hq, .txn, .blw, .fsh, .glb, .irc, .tck, .log, .sem, .flt, .grt]
  | .dpiReasonClear _ _ => [.out]
  | .dpoHpdChange _ _ => [.out, .irc]
  | .dpiLinkDown _ => [.out, .irc]
  | .pcieLinkChange _ _ => [.hq, .irc]

/-! Frames of the Girth link, in the terms of the statements. -/

/-- R416: the device takes a sequenced frame with header `h`: the link carries frames, its CRCs are good, its TYPE is one of the table's, and it is next. -/
abbrev State.hears (s : State) (h : GHdr) : Prop := s.carries = true ∧ h.crcOk = true ∧ h.known = true ∧ h.seq = s.grt.rxSeq

/-- R416: the state as a sequenced frame with header `h` has been taken, before its content acts. -/
def State.afterFrame (h : GHdr) (s : State) : State :=
  s.modGrt (fun g => { g.acked h.ack with hbIn := some s.now, rxSeq := g.rxSeq + 1 })

/-- R415: the commands that are sequenced frames, each under one header. -/
inductive Sequenced (h : GHdr) : Instr → Prop
  | ident (m : IdentMsg) : Sequenced h (.ident h m)
  | handover (b : Bool) : Sequenced h (.handover h b)
  | timing (m : List Timing) : Sequenced h (.timing h m)
  | encState (i : Nat) (m : EncAdopt) : Sequenced h (.encState h i m)
  | picCrc (i : Nat) (m : PicCrc) : Sequenced h (.picCrc h i m)
  | port (m : PortMsg) : Sequenced h (.port h m)
  | command (p : SrcPath) (ws : List Word) : Sequenced h (.command h p ws)
  | txn (m : TxnMsg) : Sequenced h (.txn h m)
  | sem (m : SemMsg) : Sequenced h (.sem h m)
  | snapshot (m : List (Nat × Word)) (last : Bool) : Sequenced h (.snapshot h m last)
  | tileDelta (m : List TileDelta) : Sequenced h (.tileDelta h m)
  | hostData (m : HostMsg) : Sequenced h (.hostData h m)

end Machine

end Sys2Proof
end

