-- ==== Sys2Proof/Certificates/Slice0/Obligations.lean ====
section
/-! DEFINITION. The statements for the provers. -/

open Sys2Proof Sys2Proof.Machine

/-- The commands wait first in, first out, and a step executes the one at the front. -/
def Obligations.StepRunsFront : Prop :=
  ∀ (c : Instr) (rest : List Instr) (s : State),
    step { s with pending := c :: rest } = exec c { s with pending := rest }

/-- No path of a command stops; what each does is in the statements of its family. -/
def Obligations.CommandsComplete : Prop :=
  ∀ (c : Instr) (s : State), ∃ t : State, exec c s = .next t

/-- Log entries 1 (DESIGN CHOICE) and 224 (DEDUCED): what a step does when no command waits. -/
def Obligations.EmptyQueueTicks : Prop :=
  (∀ s : State, s.pending = [] → s.glb.inReset = true → step s = .next s) ∧
  (∀ s : State, s.pending = [] → s.glb.inReset = false →
    ∃ t, step s = .next t ∧ t.now = s.now + 1 ∧ t.ptp = s.ptp + BitVec.ofInt 64 s.ras.clk.advance.2 ∧
      t.ras = { s.ras with clk := s.ras.clk.advance.1 } ∧
      frame [.now, .ptp, .ras, .freeCtr, .enc, .dec, .drm, .blw, .glb, .irc, .log, .flt, .grt] s t ∧
      (s.drm.waits = [] → { t with now := s.now, ptp := s.ptp, ras := s.ras } = s)) ∧
  (∀ c : Clk, c.st = .freerun → c.acc < 1000000000 → c.advance.2 = 1)

/-- The frame of every command over the components of the state. -/
def Obligations.CommandFootprint : Prop :=
  ∀ (c : Instr) (s t : State), exec c s = .next t → frame (footprint c) s t

/-- The invariant of the byte memories. -/
def Obligations.StepKeepsMemories : Prop :=
  ∀ s t : State, s.memOk = true → step s = .next t → t.memOk = true

/-- The invariant at reset. -/
def Obligations.ResetMemories : Prop :=
  State.reset.memOk = true ∧ State.reset.fsh.flash = [] ∧ State.reset.hq.hostMem = [] ∧ State.reset.tck.sram = []

/-- The invariant of the interrupt controller's stack. -/
def Obligations.StepKeepsStack : Prop :=
  ∀ s t : State, s.stackOk = true → step s = .next t → t.stackOk = true

/-- The invariant at reset. -/
def Obligations.ResetStack : Prop := State.reset.stackOk = true ∧ State.reset.irc.stack = []

/-- R32 to R34: what the clock's commands do. -/
def Obligations.ClockCommands : Prop :=
  (∀ (s : State) (e : Int), s.rxUnread 0 = true → exec (.syncMessage e) s = .next (s.rxTake 0)) ∧
  (∀ (s : State) (e : Int), s.rxUnread 0 = false → s.ras.clk.st = .freerun ∨ s.ras.clk.st = .holdover →
    exec (.syncMessage e) s = .next (s.rxTake 0)) ∧
  (∀ (s : State) (e : Int), s.rxUnread 0 = false → s.ras.clk.st = .locked → e.natAbs ≤ 1000 →
    exec (.syncMessage e) s = .next ((s.rxTake 0).estimateRate.modClk (fun c => { c with offset := e }))) ∧
  (∀ (s : State) (e : Int), s.rxUnread 0 = false → s.ras.clk.st = .locked → 1000 < e.natAbs →
    ∃ t, exec (.syncMessage e) s = .next t ∧ t.ras.clk.st = .relocking ∧ t.ras.clk.inBound = 0 ∧
      t.ptp = s.ptp + (if s.ras.clk.stepLimit < e.natAbs then BitVec.ofInt 64 e else 0) ∧
      t.ras.clk.offset = if s.ras.clk.stepLimit < e.natAbs then 0 else e) ∧
  (∀ (s : State) (e : Int), s.rxUnread 0 = false → s.ras.clk.st = .relocking → (1000 < e.natAbs ∨ s.ras.clk.inBound < 15) →
    ∃ t, exec (.syncMessage e) s = .next t ∧ t.ras.clk.st = .relocking ∧ t.ras.clk.offset = e ∧
      t.ras.clk.inBound = (if 1000 < e.natAbs then 0 else s.ras.clk.inBound + 1) ∧ t.ptp = s.ptp) ∧
  (∀ (s : State) (e : Int), s.rxUnread 0 = false → s.ras.clk.st = .relocking → e.natAbs ≤ 1000 → 15 ≤ s.ras.clk.inBound →
    ∃ t, exec (.syncMessage e) s = .next t ∧ t.ras.clk.st = .locked ∧ t.ras.clk.offset = e ∧ 48 ∈ t.irc.latch ∧ t.ptp = s.ptp) ∧
  (∀ (s : State) (p : BitVec 2) (e : Int), s.ras.clk.fenced = false → (s.eth p.toNat).ptpEn = true → e.natAbs ≤ s.ras.clk.stepLimit →
    ∃ t, exec (.grandmasterAccepted p e) s = .next t ∧ t.ras.clk.st = .relocking ∧ t.ras.clk.gmPort = p ∧
      t.ras.clk.offset = e ∧ t.ras.clk.inBound = 0 ∧ t.ptp = s.ptp) ∧
  (∀ (s : State) (p : BitVec 2) (e : Int), s.ras.clk.fenced = false → (s.eth p.toNat).ptpEn = true → s.ras.clk.stepLimit < e.natAbs →
    ∃ t, exec (.grandmasterAccepted p e) s = .next t ∧ t.ras.clk.st = .relocking ∧ t.ras.clk.gmPort = p ∧
      t.ptp = s.ptp + BitVec.ofInt 64 e ∧ t.ras.clk.inBound = 0) ∧
  (∀ (s : State) (p : BitVec 2) (e : Int), (s.eth p.toNat).ptpEn = false → exec (.grandmasterAccepted p e) s = .next s) ∧
  (∀ s : State, s.ras.clk.st = .locked ∨ s.ras.clk.st = .relocking →
    ∃ t, exec .announceTimeout s = .next t ∧ t.ras.clk.st = .holdover ∧ t.ras.clk.holdStart = s.now ∧ 48 ∈ t.irc.latch) ∧
  (∀ (s : State) (u : Nat), s.ras.clk.st = .holdover → s.uncertainty = some u → s.ras.clk.limitRaised = false →
    s.ras.clk.holdLimit < u →
    ∃ t, exec .holdoverLimit s = .next t ∧ t.ras.clk = { s.ras.clk with limitRaised := true } ∧ 48 ∈ t.irc.latch)

/-- R43, R47: a direct write of the Tack to word 0 of an entry. -/
def Obligations.LineEventWrites : Prop :=
  ∀ (s : State) (n : Nat) (v : Word), n < 1024 →
    (v.getLsbD 31 = true → v.extractLsb' 29 2 ≠ 1 → s.armOk none n ((s.lineEvent n).setWord0 v) = true →
      ∃ t, exec (.lineEventArm .tack n v) s = .next t ∧
        t.lineEvent n = { (s.lineEvent n).setWord0 v with
          fired := false, late := false, expired := false, rejected := false, count := 0, scope := none, latePend := false } ∧
        (∀ m, n ≠ m → t.lineEvent m = s.lineEvent m) ∧ t.glb = s.glb ∧ t.irc = s.irc) ∧
    (v.getLsbD 31 = true → s.armOk none n ((s.lineEvent n).setWord0 v) = false →
      ∃ t, exec (.lineEventArm .tack n v) s = .next t ∧
        t.lineEvent n = { s.lineEvent n with rejected := true } ∧ (∀ m, n ≠ m → t.lineEvent m = s.lineEvent m) ∧
        49 ∈ t.irc.latch ∧ t.glb.werrCount = satInc s.glb.werrCount) ∧
    (v.getLsbD 31 = false →
      ∃ t, exec (.lineEventDisarm .tack n v) s = .next t ∧
        t.lineEvent n = { (s.lineEvent n).setWord0 v with valid := false, latePend := false } ∧
        (∀ m, n ≠ m → t.lineEvent m = s.lineEvent m) ∧ t.glb = s.glb ∧ t.irc = s.irc)

/-- R43 to R46: a line of a DisplayPort output raster that is neither line 0 nor line LA. -/
def Obligations.LineStarts : Prop :=
  ∀ (s u : State) (p : LinePos), u = s.modRaster p.raster (fun r => { r with frame := p.frame, line := p.line, change := r.change.atLine true p.line }) → s.linksUp = true → s.reaches p = true → p.raster < 8 → p.line ≠ 0 →
    p.line ≠ (s.raster p.raster).fmt.la → s.txn.txns = [] → s.glb.mode ≠ .rest →
    (s.ras.events = [] →
      exec (.lineStart [p]) s = .next (if (s.raster p.raster).fmt.la ≤ p.line then u
        else u.modOutP p.raster (fun y => { y with
          wire := if u.portSends p.raster then some (u.outLine p.raster p.line) else none }))) ∧
    (∀ (n : Nat) (e : LineEvent), s.ras.events = [(n, e)] → e.valid = true → e.raster.toNat = p.raster → e.latePend = false →
      e.mode = 0 → e.line.toNat = p.line → e.action = 7 → s.reloading 376 n = false → e ≠ LineEvent.reset →
      ∃ t, exec (.lineStart [p]) s = .next t ∧ (t.lineEvent n).fired = true ∧ (t.lineEvent n).count = e.count + 1 ∧
        (t.lineEvent n).valid = true ∧ t.ras.stamps.look 0 (e.arg.toNat % 16) = s.ptp ∧
        t.raster p.raster = { s.raster p.raster with frame := p.frame, line := p.line, change := (s.raster p.raster).change.atLine true p.line })

/-- R41, R42: the commands of input rasters. -/
def Obligations.InputRasters : Prop :=
  (∀ (s : State) (k : Nat), 16 ≤ k → s.rasterUsed k = true → (s.raster k).inState ≠ .absent →
    (20 ≤ k → max (s.stitch (256 + k)).lastA (s.stitch (256 + k)).lastB = 0 ∨ max (s.stitch (256 + k)).lastA (s.stitch (256 + k)).lastB + 2 * fmtPeriod (s.raster k).fmt ≤ s.now) →
    ∃ t, exec (.inputSignalTimeout k) s = .next t ∧ (t.raster k).inState = .absent ∧ (t.raster k).measured = false ∧
      (t.raster k).consec = 0 ∧ 50 + (k - 16) ∈ t.irc.latch ∧ (∀ j, k ≠ j → t.raster j = s.raster j)) ∧
  (∀ (s : State) (k x : Nat), 16 ≤ k → k < 20 → s.linksUp = true → s.rasterUsed k = true → (s.dpi (k - 16)).link = .active →
    (s.raster k).inState ≠ .acquiring →
    ∃ t, exec (.inputFrameStart k (.dp x) false) s = .next t ∧ (t.raster k).inState = .acquiring ∧
      (t.raster k).measured = false ∧ 50 + (k - 16) ∈ t.irc.latch ∧ (∀ j, k ≠ j → t.raster j = s.raster j)) ∧
  (∀ (s : State) (k x : Nat), 16 ≤ k → k < 20 → s.linksUp = true → s.rasterUsed k = true → (s.dpi (k - 16)).link = .active →
    s.ras.events = [] → s.txn.txns = [] → s.enc = [] → s.glb.role ≠ .lead → (s.raster k).measured = false →
    ∃ t, exec (.inputFrameStart k (.dp x) true) s = .next t ∧ (t.raster k).sf = x ∧ (t.raster k).measured = true ∧
      (t.raster k).frame = (frameCount (s.raster k).fmt x).toNat ∧ (t.raster k).line = 0 ∧ (t.raster k).inState = .acquiring ∧
      (∀ j, k ≠ j → t.raster j = s.raster j))

/-- R51, R52: realignment and retiming. -/
def Obligations.RasterChanges : Prop :=
  (∀ (s : State) (k : Nat), k < 16 → (s.raster k).realign = true → s.rasterUsed k = true → (s.raster k).line + 1 = (s.raster k).fmt.lt →
    s.ras.events = [] → s.txn.txns = [] →
    ∃ t, exec (.rasterRealign k) s = .next t ∧ (t.raster k).realign = false ∧
      (t.raster k).frame = (nextFrame (s.raster k).fmt s.time - 1).toNat ∧ (t.raster k).line + 1 = (s.raster k).fmt.lt ∧
      (∀ j, k ≠ j → t.raster j = s.raster j)) ∧
  (∀ (s : State) (k : Nat) (f : RasterFmt), k < 16 → s.retimable k f = true →
    (k < 8 → (s.dpo k).video = (s.dpo k).format ++ BitVec.ofBool (s.dpo k).range ++ BitVec.ofBool (s.dpo k).depth) →
    (s.raster k).fmt = { f with inUse := true, phase := (s.raster k).fmt.phase } →
    ∃ t, exec (.rasterRetimed k f) s = .next t ∧ t.raster k = { s.raster k with fmt := { f with inUse := true }, realign := true, change := .none } ∧
      (∀ j, k ≠ j → t.raster j = s.raster j)) ∧
  (∀ (s : State) (k : Nat) (f : RasterFmt), k < 16 → s.retimable k f = true → s.ras.events = [] →
    (samePhaseApart (s.raster k).fmt { f with inUse := true } = false ∨
      (k < 8 ∧ (s.dpo k).video ≠ (s.dpo k).format ++ BitVec.ofBool (s.dpo k).range ++ BitVec.ofBool (s.dpo k).depth)) →
    ∃ t, exec (.rasterRetimed k f) s = .next t ∧ t.raster k = { s.raster k with fmt := { f with inUse := true }, retiming := true, change := .none } ∧ (t.outP k).wire = none ∧
      (k < 8 → (s.dpo k).link = .active ∨ (s.dpo k).link = .short →
        (t.dpo k).link = if t.enough k ((s.dpo k).linkRate, (s.dpo k).lanes) then .retiming else .training) ∧
      (∀ j, k ≠ j → t.raster j = s.raster j)) ∧
  (∀ (s : State) (k : Nat) (f : RasterFmt), 16 ≤ k → s.retimable k f = true → s.ras.events = [] →
    ∃ t, exec (.rasterRetimed k f) s = .next t ∧
      t.raster k = { (s.raster k).forget with fmt := { f with inUse := true }, change := .none, inState := .acquiring } ∧
      (∀ j, k ≠ j → t.raster j = s.raster j)) ∧
  (∀ (s : State) (k : Nat), k < 16 → (s.raster k).retiming = true → s.ras.events = [] → s.txn.txns = [] →
    ∃ t, exec (.retimingEnd k) s = .next t ∧ (t.raster k).retiming = false ∧ (t.raster k).realign = false ∧ (t.raster k).line = 0 ∧
      (t.raster k).frame = (fmtPosition (s.raster k).fmt s.time / ((s.raster k).fmt.lt : Int)).toNat ∧
      (∀ j, k ≠ j → t.raster j = s.raster j))

/-- R103 to R105, R122, R123: what the encode commands do. -/
def Obligations.EncodeCommands : Prop :=
  (∀ (s : State) (i k : Nat) (p : EncPic), s.serving = true → (s.encS i).started = true → (s.encS i).cfg.input = some k →
    s.tracking (s.encS i).cfg.raster = false → (s.encS i).pics = [p] → p.released < (s.encS i).cfg.rows → p.zeroMotion = true →
    ∃ t, exec (.encodeSelfRelease i) s = .next t ∧ t.log = s.log ∧ (t.encS i).pics = [{ p with
      own := true, released := p.released + 1
      deadline := p.deadline ++ [s.nominalTime (s.encS i).cfg p.frame p.released (s.encS i).cfg.allowance] }]) ∧
  (∀ (s : State) (i : Nat) (x : Posted) (r : List Posted), s.serving = true → (s.encS i).cfg.enabled = true →
    (s.encS i).cfg.input = none → (s.encS i).posted = x :: r → x.codable = true → (s.encS i).pics = [] →
    ∃ t, exec (.hostfedFrameStart i) s = .next t ∧ (t.encS i).posted = r ∧ (t.encS i).started = true ∧
      ∃ p, (t.encS i).pics = [p] ∧
        p.released = (s.encS i).cfg.rows ∧ p.zeroMotion = false ∧ p.hostAttest = x.attest ∧ p.source = some x.raw) ∧
  (∀ (s : State) (i : Nat), s.serving = true → (s.encS i).cfg.enabled = true → (s.encS i).cfg.input = none →
    (s.encS i).posted = [] → (s.encS i).started = true → (s.encS i).pics = [] →
    ∃ t, exec (.hostfedFrameStart i) s = .next t ∧ ∃ p, (t.encS i).pics = [p] ∧
      p.released = (s.encS i).cfg.rows ∧ p.zeroMotion = true) ∧
  (∀ (s : State) (i c : Nat), s.serving = true → s.mayEncode i c = true → s.rowReady i = true → s.rowBefore i c = false →
    (s.core c).pstate ≠ .c0 → exec (.encodeRowIssue i c) s = .next (s.wakeCore c)) ∧
  (∀ (s u : State) (i c : Nat) (p q : EncPic) (r l : List EncPic), s.serving = true → s.mayEncode i c = true →
    (s.encS i).pics = p :: r → p.issued = p.done → p.issued < p.released → s.rowBefore i c = false → (s.core c).pstate = .c0 →
    u = (if p.issued = 0 then s.beginPic i else s) → (u.encS i).pics = q :: l →
    ∃ t, exec (.encodeRowIssue i c) s = .next t ∧ (t.core c).encTask = some i ∧
      (t.encS i).pics = { q with issued := q.issued + 1, cores := [c], searched := (u.encS i).cfg.deterministic } :: l ∧
      (t.encS i).decId = some (s.core c).decision ∧ (∀ d, c ≠ d → t.core d = s.core d) ∧ (∀ j, i ≠ j → t.encS j = u.encS j)) ∧
  (∀ (s : State) (i c : Nat) (p : EncPic) (r : List EncPic), s.serving = true → s.mayEncode i c = true →
    (s.encS i).pics = p :: r → p.done < p.issued → p.cores.length < s.rowCores i → s.rowBefore i c = false → (s.core c).pstate = .c0 →
    ∃ t, exec (.encodeRowIssue i c) s = .next t ∧ (t.core c).encTask = some i ∧
      (t.encS i).pics = { p with
        cores := p.cores ++ [c], searched := if p.cores.isEmpty then (s.encS i).cfg.deterministic else p.searched } :: r ∧
      (t.encS i).decId = some (s.core c).decision ∧ (∀ d, c ≠ d → t.core d = s.core d) ∧ (∀ j, i ≠ j → t.encS j = s.encS j)) ∧
  (∀ (s : State) (i : Nat) (x : CodedRow) (p : EncPic) (r : List EncPic) (g : RowForm) (cand : List Nat) (fl : BitVec 2),
    (s.encS i).pics = p :: r → p.done < p.issued → p.cores.length = s.rowCores i → s.rowChoice i p x = some (g, cand, fl) →
    (∀ q, s.glb.patch = some q → q.step ≠ 4) →
    ∃ t, exec (.encodeRowComplete i x) s = .next t ∧ (∀ c, c ∈ p.cores → (t.core c).encTask = none) ∧
      (∀ d, d ∉ p.cores → t.core d = s.core d) ∧ (t.encS i).qpPrev = g.qp ∧
      (∀ k, k < (s.encS i).cfg.cols → (t.encS i).recon.look noSamples ((s.encS i).cfg.cols * p.done + k) = g.recOf k) ∧
      (if p.done + 1 = (s.encS i).cfg.rows then (t.encS i).pics = r
        else ∃ q, (t.encS i).pics = q :: r ∧ q.done = p.done + 1 ∧ q.cores = [] ∧ q.issued = p.issued)) ∧
  (∀ (s : State) (i : Nat) (x : CodedRow) (p : EncPic) (ctus : List CtuRun) (l : List EntropyRun), p.zeroMotion = true →
    x.runs = ⟨4, 0, ctus⟩ :: l → ∃ g cand fl, s.rowChoice i p x = some (g, cand, fl) ∧ g.zero = true ∧
      (∀ k, g.recOf k = (s.encS i).recon.look noSamples ((s.encS i).cfg.cols * p.done + k) ∧ g.code k = 0))

/-- R125 to R131, R148, R157: what the units of a bitstream do. -/
def Obligations.BitstreamUnits : Prop :=
  (∀ (s : State) (i : Nat) (x : SliceInfo), s.serving = true → (s.decS i).st = .waiting ∨ (s.decS i).st = .unsupported →
    (s.decS i).rptr + x.bytes ≤ (s.decS i).wptr → x.newPic = false → (s.decS i).reorderDepth = 0 ∨ (s.decS i).pics = [] →
    ∃ t, exec (.sliceHeaderParse i x) s = .next t ∧ (t.decS i).rptr = (s.decS i).rptr + x.bytes ∧
      (t.decS i).items = (takeItems x.bytes (s.decS i).items).1 ∧ (t.decS i).st = (s.decS i).st ∧
      (∀ j, i ≠ j → t.decS j = s.decS j)) ∧
  (∀ (s : State) (i : Nat) (x : SliceInfo) (p : DecPic), s.serving = true → (s.decS i).st = .decoding → (s.decS i).openPic = some p →
    (s.decS i).rptr + x.bytes ≤ (s.decS i).wptr → (takeItems x.bytes (s.decS i).items).2 = false → x.newPic = false →
    ((s.decS i).cfg.h264 = true ∨ x.layer = 0) → (x.exact = false ∨ x.recovery = none) →
    (s.decS i).auBad = false → (s.decS i).auSkip = false → (s.decS i).segmentError p x false = none → (s.decS i).pieces p = 1 →
    (s.decS i).reorderDepth = 0 →
    ∃ t, exec (.sliceHeaderParse i x) s = .next t ∧ (t.decS i).rptr = (s.decS i).rptr + x.bytes ∧ (t.decS i).st = .decoding ∧
      (∀ r, x.firstRow ≤ r → r ≤ x.lastRow → r < p.ctuRows → (r, 0) ∉ p.formed →
        ∃ y ∈ t.blw.tasks, y.2.stream = i ∧ y.2.pic = p.num ∧ y.2.row = r ∧ y.2.tile = 0 ∧ y.2.check = false ∧
          y.2.mark = (s.decS i).rptr + x.lead) ∧
      (∀ j, i ≠ j → t.decS j = s.decS j)) ∧
  (∀ (s : State) (i : Nat) (x : SliceInfo), s.sliceParse i x = none → exec (.sliceHeaderParse i x) s = .next s) ∧
  (∀ (s : State) (i : Nat) (p : ParamSet) (au : AuKind), s.serving = true → (s.decS i).st ≠ .idle → p.wellFormed = true → p.layer = 0 →
    (s.decS i).param p.kind p.id = none → (s.decS i).breaks p = none → (s.decS i).sps.map (·.id) ≠ some p.id →
    ∃ t, exec (.paramSetReceived i p au) s = .next t ∧ (t.decS i).param p.kind p.id = some p ∧ (t.decS i).st = (s.decS i).st ∧
      (∀ j, i ≠ j → t.decS j = s.decS j)) ∧
  (∀ (s : State) (i : Nat) (p : ParamSet) (au : AuKind), s.serving = true → (s.decS i).st ≠ .idle → p.wellFormed = false →
    ((s.decS i).cfg.h264 = true ∨ p.layer = 0) →
    ∃ t, exec (.paramSetReceived i p au) s = .next t ∧ (t.decS i).param p.kind p.id = none ∧ (t.decS i).st = (s.decS i).st ∧
      t.log = s.log ∧ (∀ j, i ≠ j → t.decS j = s.decS j)) ∧
  (∀ (s : State) (i : Nat), (s.decS i).st = .waiting ∨ (s.decS i).st = .unsupported → (s.decS i).openPic = none →
    ∃ t, exec (.accessUnitEnd i) s = .next t ∧ (t.decS i).items = (dropUnit (s.decS i).items).2.2 ∧
      (t.decS i).rptr = (s.decS i).rptr + (dropUnit (s.decS i).items).1 ∧ (t.decS i).st = (s.decS i).st ∧
      (t.decS i).auErrs = [] ∧ (t.decS i).auPend = [] ∧ (t.decS i).auTold = false ∧ (t.decS i).auBad = false ∧ (t.decS i).auSkip = false ∧
      (t.decS i).pics = (s.decS i).pics ∧ (∀ j, i ≠ j → t.decS j = s.decS j))

/-- R131 to R155: what the commands of row tasks do. -/
def Obligations.DecodeTasks : Prop :=
  (∀ (s : State) (b c n : Nat), s.serving = true → (s.bay b).fenced = false → s.nextTask b c = some n → (s.core c).pstate ≠ .c0 →
    exec (.decodeTaskIssue b c) s = .next (s.wakeCore c)) ∧
  (∀ (s : State) (b c n : Nat) (x : RowTask), s.serving = true → (s.bay b).fenced = false → s.nextTask b c = some n →
    (s.core c).pstate = .c0 → s.task n = some x →
    ∃ t, exec (.decodeTaskIssue b c) s = .next t ∧ (t.core c).tasks = (s.core c).tasks ++ [n] ∧
      t.task n = some { x with core := some c, issuedAt := s.now } ∧ (∀ d, c ≠ d → t.core d = s.core d) ∧
      (x.check = true → (t.bay b).tasks = (s.bay b).tasks.filter (· != n))) ∧
  (∀ (s : State) (n c : Nat) (x : RowTask) (res : List TileRes) (errs : List DecErr), s.task n = some x → x.check = false →
    x.core = some c → (s.decS x.stream).stalls res = false → (∀ q, s.glb.patch = some q → q.step ≠ 4) →
    ∃ t, exec (.decodeRowComplete n res errs) s = .next t ∧ t.task n = none) ∧
  (∀ (s : State) (n c : Nat) (x : RowTask) (res : List TileRes) (errs : List DecErr), s.task n = some x → x.check = true →
    x.core = some c → (s.decS x.stream).checkStalls x.pic res = false → (∀ q, s.glb.patch = some q → q.step ≠ 4) →
    ∃ t, exec (.checkTaskComplete n ⟨res, errs⟩) s = .next t ∧ t.task n = none) ∧
  (∀ (s : State) (n : Nat) (x : RowTask), s.task n = some x → x.late = false → x.deadline < s.time → x.check = true →
    exec (.decodeRowLate n) s = .next ((s.modTask n (fun x => { x with late := true })).latch (96 + x.bay))) ∧
  (∀ (s : State) (n : Nat) (x : RowTask), s.task n = some x → x.late = false → x.deadline < s.time → x.check = false →
    x.row ∉ ((s.decS x.stream).pic x.pic).lateRows →
    ∃ t, exec (.decodeRowLate n) s = .next t ∧ 96 + x.bay ∈ t.irc.latch ∧ (t.decS x.stream).rowsLate = satInc (s.decS x.stream).rowsLate ∧
      t.task n = some { x with late := true }) ∧
  (∀ (s : State) (i : Nat) (x : List DecPic × Option DecPic), (s.decS i).st = .decoding → s.behind i = true →
    x = skipped ((s.decS i).pics.filter (s.unstarted i)) →
    ∃ t, exec (.decodeSkipped i x.1.length) s = .next t ∧ (t.decS i).st = (if x.2.isSome then .decoding else .skipping) ∧
      (∀ j, i ≠ j → (t.decS j).st = (s.decS j).st)) ∧
  (∀ (s : State) (i a : Nat) (bs : List Byte), (s.decS i).cfg.foreign = true ∨ bs.take 16 ≠ ledgerUuid →
    exec (.ledgerSegment i a bs) s = .next s) ∧
  (∀ (s : State) (i a : Nat) (bs : List Byte) (p : DecPic), (s.decS i).cfg.foreign = false → bs.take 16 = ledgerUuid →
    (s.decS i).st = .decoding ∨ (s.decS i).st = .skipping → (s.decS i).openPic = some p →
    exec (.ledgerSegment i a bs) s = .next (State.withLedger i (State.withStatus i (fun u => (u.segment i p.num a bs).settle i)) s))

/-- R71, R72, R163, R171, R172: the compositor's commands. -/
def Obligations.CompositorCommands : Prop :=
  (∀ (s : State) (p : LinePos), s.serving = true → p.raster < 16 → s.rasterUsed p.raster = true →
    p.line < (s.raster p.raster).fmt.la → (s.raster p.raster).retiming = false →
    (∀ x ∈ s.cmp.windows, x.2.enable = true → x.2.raster.toNat = p.raster → x.2.crosses p.line = false) →
    (p.line = 0 → (∀ x ∈ s.cmp.windows, x.2.raster.toNat ≠ p.raster) ∧
      (∀ x ∈ s.cmp.pendWin, x.2.any (fun w => w.raster.toNat == p.raster) = false)) →
    exec (.outputLineFetch p) s = .next (s.modCmp (fun c => { c with
      lines := c.lines.put [] (lineSlot p.raster p.line)
        (List.replicate (s.raster p.raster).fmt.width (s.convertWord p.raster (s.cmp.bg.look 0 p.raster)))
      fetched := c.fetched.put none p.raster (some (p.frame, p.line)) }))) ∧
  (∀ (s : State) (w : Nat) (p : LinePos), s.serving = true → (s.window w).enable = true → (s.window w).raster.toNat = p.raster →
    (s.window w).crosses p.line = true → (s.window w).lateFrame ≠ some p.frame →
    ∃ t, exec (.cmpLineLate w p) s = .next t ∧ (t.window w).lateFrame = some p.frame ∧ 132 ∈ t.irc.latch ∧
      (∀ v, w ≠ v → t.window v = s.window v) ∧ t.cmp.tiles = s.cmp.tiles) ∧
  (∀ (s : State) (w : Nat) (p : LinePos), (s.window w).lateFrame = some p.frame →
    ∃ t, exec (.cmpLineLate w p) s = .next t ∧ t.log = s.log ∧ t.irc = s.irc ∧ t.cmp.windows = s.cmp.windows) ∧
  (∀ (s : State) (first count : Nat), s.serving = true →
    exec (.tileStateVisit first count) s = .next (State.visited count (s.modCmp (fun c => { c with
      tiles := c.tiles.mapAll TileEntry.reset (fun k e =>
        if first ≤ k ∧ k < first + count ∧ e.cond = .verified ∧ e.tv ∧
          2 ^ 46 ≤ ageD s.time48 (s.uncertainty.getD 0) e.tAtt ∧ ageD s.time48 (s.uncertainty.getD 0) e.tAtt < 2 ^ 47
        then { e with tv := false } else e) })))) ∧
  (∀ (s : State) (i : Nat), s.serving = true → i < 256 → s.windowsOf i ≠ [] → (s.decS i).onDie = false →
    s.onDieTiles + (s.decS i).cols * (s.decS i).rowsN ≤ 196608 →
    exec (.tileStateFill i) s = .next (s.modDecS i (fun d => { d with onDie := true })))

/-- R174 to R177, R182, R183: the DisplayPort commands. -/
def Obligations.DisplayPorts : Prop :=
  (∀ (s : State) (n : Nat), n < 8 → (s.dpo n).hpd = true → (s.dpo n).link ≠ .down →
    ∃ t, exec (.dpoHpdChange n false) s = .next t ∧ (t.dpo n).link = .down ∧ (t.dpo n).hpd = false ∧ (t.dpo n).lanes = 0 ∧
      149 + n ∈ t.irc.latch ∧ (∀ m, n ≠ m → t.dpo m = s.dpo m)) ∧
  (∀ (s : State) (n : Nat), n < 8 → (s.dpo n).hpd = false → (s.dpo n).link ≠ .training → s.linksUp = true → (s.dpo n).fenced = false →
    ∃ t, exec (.dpoHpdChange n true) s = .next t ∧ (t.dpo n).link = .training ∧ (t.dpo n).hpd = true ∧
      149 + n ∈ t.irc.latch ∧ (∀ m, n ≠ m → t.dpo m = s.dpo m)) ∧
  (∀ (s : State) (n : Nat) (l : BitVec 4 × BitVec 3) (found : List (BitVec 4 × BitVec 3)), n < 8 → s.linksUp = true →
    (s.dpo n).hpd = true → (s.dpo n).fenced = false → (sourceLinks.filter found.contains).find? (s.enough n) = some l →
    ∃ t, exec (.dpLinkTrain n found) s = .next t ∧ (t.dpo n).linkRate = l.1 ∧ (t.dpo n).lanes = l.2 ∧
      (t.dpo n).link = (if (s.raster n).retiming then .retiming else .active) ∧ (t.dpo n).switched = false ∧
      (∀ m, n ≠ m → t.dpo m = s.dpo m)) ∧
  (∀ (s : State) (n : Nat) (l : BitVec 4 × BitVec 3) (r found : List (BitVec 4 × BitVec 3)), n < 8 → s.linksUp = true →
    (s.dpo n).hpd = true → (s.dpo n).fenced = false → sourceLinks.filter found.contains = l :: r → (∀ x ∈ l :: r, s.enough n x = false) →
    ∃ t, exec (.dpLinkTrain n found) s = .next t ∧ (t.dpo n).linkRate = l.1 ∧ (t.dpo n).lanes = l.2 ∧ (t.dpo n).link = .short ∧
      (∀ m, n ≠ m → t.dpo m = s.dpo m)) ∧
  (∀ (s : State) (n : Nat) (found : List (BitVec 4 × BitVec 3)), n < 8 → s.linksUp = true → (s.dpo n).hpd = true → (s.dpo n).fenced = false →
    sourceLinks.filter found.contains = [] →
    ∃ t, exec (.dpLinkTrain n found) s = .next t ∧ (t.dpo n).lanes = 0 ∧ (t.dpo n).link = .training ∧ (∀ m, n ≠ m → t.dpo m = s.dpo m)) ∧
  (∀ (s : State) (n : Nat) (l : BitVec 4 × BitVec 3) (found : List (BitVec 4 × BitVec 3)), n < 8 → s.linksUp = true →
    (s.dpo n).hpd = true → (s.dpo n).fenced = false → (sourceLinks.filter found.contains).find? (s.enough n) = some l →
    ∃ t, exec (.dpHpdIrq n found) s = .next t ∧ (t.dpo n).linkRate = l.1 ∧ (t.dpo n).lanes = l.2 ∧
      (t.dpo n).link = (if (s.raster n).retiming then .retiming else .active) ∧ (t.dpo n).switched = false ∧
      (∀ m, n ≠ m → t.dpo m = s.dpo m)) ∧
  (∀ (s : State) (n : Nat) (rate : BitVec 4) (lanes : BitVec 3) (m : MainStream), n < 4 → s.linksUp = true → (s.dpi n).enable = true →
    (s.dpi n).hpd = true → (s.dpi n).fenced = false → sinkLink rate lanes = true → s.sinkReason n m = 0 →
    ∃ t, exec (.dpSinkLinkTrain n rate lanes m) s = .next t ∧ (t.dpi n).link = .active ∧ (t.dpi n).linkRate = rate ∧
      (t.dpi n).measW = BitVec.ofNat 16 m.width ∧ (t.dpi n).measH = BitVec.ofNat 16 m.height ∧
      (t.raster (16 + n)).inState = (if (s.raster (16 + n)).inState = .absent then .acquiring else (s.raster (16 + n)).inState)) ∧
  (∀ (s : State) (n : Nat) (rate : BitVec 4) (lanes : BitVec 3) (m : MainStream), n < 4 → s.linksUp = true → (s.dpi n).enable = true →
    (s.dpi n).hpd = true → (s.dpi n).fenced = false → sinkLink rate lanes = true → s.sinkReason n m ≠ 0 →
    ∃ t, exec (.dpSinkLinkTrain n rate lanes m) s = .next t ∧ (t.dpi n).link = .refused ∧ (t.dpi n).reason = s.sinkReason n m ∧
      (t.dpi n).seq = (s.dpi n).seq + 1 ∧ (t.raster (16 + n)).inState = .acquiring ∧ 157 + n ∈ t.irc.latch) ∧
  (∀ (s : State) (n : Nat), n < 4 →
    ∃ t, exec (.dpiLinkDown n) s = .next t ∧ (t.dpi n).link = .down ∧ (t.dpi n).lanes = 0 ∧ (t.dpi n).measW = 0 ∧
      (∀ m, n ≠ m → t.dpi m = s.dpi m)) ∧
  (∀ (s : State) (n : Nat), (s.dpi n).pulse = true →
    exec (.dpHpdPulseEnd n) s = .next (s.modDpi n (fun p => { p with pulse := false, hpd := p.enable && !p.fenced }))) ∧
  (∀ (s : State) (n : Nat) (v : Word), (v.extractLsb' 24 8 = (s.dpi n).seq →
      exec (.dpiReasonClear n v) s = .next (s.modDpi n (fun p => { p with reason := 0 }))) ∧
    (v.extractLsb' 24 8 ≠ (s.dpi n).seq → exec (.dpiReasonClear n v) s = .next s))

/-- R189 to R211: words, units, transfers and faults of a core. -/
def Obligations.CoreIssue : Prop :=
  (∀ (s : State) (c h : Nat), s.issues c = true → (s.core c).pick = some h →
    parityFail ((s.core c).word ((s.core c).thread h).pc) = none →
    (s.core c).illegalCause ((s.core c).thread h) ((s.core c).word ((s.core c).thread h).pc) = none →
    (s.core c).busyUnit ((s.core c).word ((s.core c).thread h).pc) = none →
    ((s.core c).word ((s.core c).thread h).pc).mop ≠ 1 → ((s.core c).word ((s.core c).thread h).pc).mop ≠ 2 →
    exec (.microwordIssue c) s = .next (s.modCore c (fun x =>
      let w := (s.core c).word ((s.core c).thread h).pc
      { (if w.mop = 3 then x.endYields.startDma true h w.mbuf else if w.mop = 4 then x.endYields.startDma false h w.mbuf
          else x.endYields).issue h w none with movedAt := s.now }))) ∧
  (∀ (s : State) (c h : Nat) (w : MWord), s.issues c = true → (s.core c).pick = some h → w = (s.core c).word ((s.core c).thread h).pc →
    parityFail w = none → (s.core c).illegalCause ((s.core c).thread h) w = none → (s.core c).busyUnit w = none → w.mop = 1 →
    ∃ v, exec (.microwordIssue c) s = .next v ∧ (∀ d, c ≠ d → v.core d = s.core d) ∧
      v.core c = { (s.core c).endYields.issue h w (some (State.loadWord c h w.mbuf
        (((s.core c).endYields.thread h).reg w.mreg).toNat (s.modCore c CoreS.endYields)).2) with movedAt := s.now }) ∧
  (∀ (s : State) (c h : Nat) (w : MWord), s.issues c = true → (s.core c).pick = some h → w = (s.core c).word ((s.core c).thread h).pc →
    parityFail w = none → (s.core c).illegalCause ((s.core c).thread h) w = none → (s.core c).busyUnit w = none → w.mop = 2 →
    exec (.microwordIssue c) s = .next ((State.storeWord c h w.mbuf (((s.core c).endYields.thread h).reg w.mreg).toNat
      (((s.core c).endYields.thread h).opA w) (s.modCore c CoreS.endYields)).modCore c (fun x => { x.issue h w none with movedAt := s.now }))) ∧
  (∀ (s : State) (c h u : Nat), s.issues c = true → (s.core c).pick = some h →
    parityFail ((s.core c).word ((s.core c).thread h).pc) = none →
    (s.core c).illegalCause ((s.core c).thread h) ((s.core c).word ((s.core c).thread h).pc) = none →
    (s.core c).busyUnit ((s.core c).word ((s.core c).thread h).pc) = some u →
    ∃ v, exec (.microwordIssue c) s = .next v ∧ ((v.core c).thread h).st = .wait ∧ ((v.core c).thread h).waitOn = some (.unit u)) ∧
  (∀ (s : State) (c : Nat) (u : BitVec 3) (st inf : BitVec 4), ((s.core c).unit u.toNat).busy = true → (s.core c).gated u.toNat = false →
    exec (.unitDone c u st inf) s =
      .next ((s.modCore c (fun x => { x.unitDone u.toNat st inf with movedAt := s.now })).wakeCore c)) ∧
  (∀ (s u : State) (c : Nat) (d e : CoreDma), (s.core c).oldestDma true = some d → s.moveLines c d.lines d = (e, u) → d.lines ≤ e.done →
    exec (.fillDone c) s = .next ((u.modCore c (fun x => { x with dma := x.dma.erase d, movedAt := s.now })).coreEvent c 14)) ∧
  (∀ (s u : State) (c : Nat) (d e : CoreDma), (s.core c).oldestDma false = some d → s.moveLines c d.lines d = (e, u) → d.lines ≤ e.done →
    exec (.drainDone c) s = .next ((u.modCore c (fun x => { x with dma := x.dma.erase d, movedAt := s.now })).coreEvent c 15)) ∧
  (∀ (s : State) (c : Nat), s.running = true → c < 32 → (s.core c).fenced = false → (s.bay (c / 8)).changing = none →
    (s.core c).pstate = .c0 → (s.core c).stalled = false → (s.core c).deadlocked = true → (s.core c).movedAt + s.cycles c 4096 ≤ s.now → (s.core c).tasks = [] →
    (s.core c).encTask = none → (s.core c).recent = [] →
    ∃ t, exec (.deadlock c) s = .next t ∧ (t.core c).cause = 1 ∧ (t.core c).seq = (s.core c).seq + 1 ∧
      (t.core c).recent = [s.now] ∧ (t.core c).fenced = false ∧ (t.core c).dma = [] ∧
      ((s.core c).event 32 = false → ∀ j, j < 8 → (t.core c).thread j = Thread.restartNow j ((s.core c).thread j))) ∧
  (∀ (s : State) (c : Nat), (s.core c).reload = true →
    exec (.bankReloadDone c false) s = .next (s.modCore c (fun x => { x.reloadBank with stalled := false, reload := false }))) ∧
  (∀ (s : State) (c : Nat) (v : Word), v.extractLsb' 24 8 = (s.core c).seq →
    exec (.corFaultClear c v) s = .next (s.modCore c (fun x => { x with cause := 0 })))

/-- R193, R206 to R211, R477: power states and banks of a core. -/
def Obligations.CorePower : Prop :=
  (∀ (s : State) (c e : Nat), c < 32 → (s.core c).fenced = false → (s.core c).pstate = .c0 → 32 ≤ e → e < 38 → e ≠ 36 →
    exec (.externalEvent c e) s = .next (s.modCore c (fun x => CoreS.setEvent e (if x.event e then x else { x with movedAt := s.now })))) ∧
  (∀ (s : State) (c e : Nat), c < 32 → (s.core c).fenced = false → (s.core c).pstate ≠ .c0 → 32 ≤ e → e < 38 →
    ∃ t, exec (.externalEvent c e) s = .next t ∧ (t.core c).waking = true ∧ (t.core c).tasks = (s.core c).tasks ∧
      (∀ d, c ≠ d → t.core d = s.core d)) ∧
  (∀ (s : State) (c : Nat), c < 32 → (s.core c).fenced = false →
    ∃ t, exec (.externalEvent c 36) s = .next t ∧ (t.core c).draining = (!(s.core c).tasks.isEmpty || (s.core c).encTask.isSome) ∧
      (∀ d, c ≠ d → t.core d = s.core d)) ∧
  (∀ (s : State) (c : Nat), (s.core c).pstate = .c0 → (s.core c).fenced = false → (s.core c).allIdle = true →
    exec (.coreC1Entry c) s = .next (s.modCore c (fun x => { x with pstate := .c1 }))) ∧
  (∀ (s : State) (c : Nat) (p : PState), 2 ≤ stateDepth p → stateDepth (s.core c).pstate < stateDepth p → (s.core c).fenced = false →
    (s.core c).waking = false → (s.core c).allIdle = true → (s.core c).tasks = [] → (s.core c).encTask = none → (s.core c).dma = [] →
    stateDepth p ≤ s.blw.deepest.look 4 (roleIndex (s.core c).role) →
    ∃ t, exec (.corePowerDown c p) s = .next t ∧ (t.core c).pstate = p ∧ (t.core c).entered = s.now + entryTime p ∧
      (p = .c2 → t.core c = { s.core c with pstate := .c2, entered := s.now + entryTime p }) ∧
      (∀ d, c ≠ d → t.core d = s.core d) ∧ (t.rail (c / 8)).grants = (s.rail (c / 8)).grants.filter (fun g => !(g.1 == .wake && g.2.1 == c))) ∧
  (∀ (s : State) (c : Nat), s.running = true → c < 32 → (s.core c).fenced = false → (s.core c).waking = false → (s.core c).pstate = .c1 →
    exec (.coreWake c) s = .next (s.modCore c (fun x => { x with waking := true, granted := true, grantAt := max s.now x.entered }))) ∧
  (∀ (s : State) (c : Nat), (s.core c).waking = true → (s.core c).granted = true → (s.core c).fenced = false →
    s.bayState = .c0 → (s.core c).grantAt + exitTime (s.core c).pstate ≤ s.now →
    ∃ t, exec (.coreWakeDone c) s = .next t ∧ (t.core c).pstate = .c0 ∧ (t.core c).waking = false ∧ (t.core c).granted = false ∧
      ((s.core c).pstate ≠ .c4 → t.core c = { (s.core c).takeArrival with pstate := .c0, waking := false, granted := false }) ∧
      (∀ d, c ≠ d → t.core d = s.core d)) ∧
  (∀ (s : State) (c : Nat), s.running = true → c < 32 → (s.core c).swapReason ≠ 0 →
    ∃ t, exec (.ptnSwap c) s = .next t ∧ t.core c = { s.core c with swapPend := false, refused := true, reason := (s.core c).swapReason } ∧
      100 + c ∈ t.irc.latch ∧ (∀ d, c ≠ d → t.core d = s.core d)) ∧
  (∀ (s : State) (c : Nat), s.running = true → c < 32 → (s.core c).swapReason = 0 →
    ∃ t, exec (.ptnSwap c) s = .next t ∧ (t.core c).bank = !(s.core c).bank ∧ (t.core c).refused = false ∧ (t.core c).reason = 0 ∧
      100 + c ∈ t.irc.latch) ∧
  (∀ (s : State) (w : Writer) (c : Nat) (a : BitVec 13) (v : BitVec 160), c < 32 →
    exec (.patternStoreWrite w c (!(s.core c).bank) a v) s = .next (s.modCore c (fun x => { x with
      words := x.words.put 0 (8192 * (!(s.core c).bank).toNat + a.toNat) v })) ∧
    exec (.patternStoreWrite w c (s.core c).bank a v) s =
      .next (s.werr w 5 (0x03600000 + 0x50000 * c + 0x28000 * (s.core c).bank.toNat + 20 * a.toNat))) ∧
  (∀ (s : State) (c : Nat), c < 32 → (s.core c).draining = true → (s.core c).tasks = [] → (s.core c).encTask = none → s.glb.patch = none →
    exec (.coreDrained c) s = .next (s.modCore c (fun x => { x with draining := false })))

/-- R218 to R221: accesses of a running part; a full-line write is read back clean by its requester. -/
def Obligations.DramAccess : Prop :=
  (∀ (s : State) (r : Requester) (a n l : Nat) (d : BitVec 512), s.running = true →
    (∀ v ∈ s.drm.waits, s.requestWaits v.request.1 v.request.2 = true) → s.requestWaits r a = false → s.drm.lineOf a = some (n, l) →
    s.regionOk r a = true → (s.chan n).st = .active →
    ∃ t, exec (.dramWrite r a d) s = .next t ∧ (∀ m, n ≠ m → t.chan m = s.chan m) ∧ (∀ k, l ≠ k → t.lineAt n k = s.lineAt n k) ∧
      ((∀ v ∈ t.drm.waits, t.requestWaits v.request.1 v.request.2 = true) → t.requestWaits r a = false → ∃ u, exec (.dramRead r ⟨a, []⟩) t = .next u ∧ u.drm.last = ⟨.clean, d⟩)) ∧
  (∀ (s : State) (r : Requester) (a n l : Nat) (fs : List (Nat × Nat)), s.running = true →
    (∀ v ∈ s.drm.waits, s.requestWaits v.request.1 v.request.2 = true) → s.requestWaits r a = false →
    s.drm.lineOf a = some (n, l) → s.regionOk r a = true → (s.chan n).st = .fenced → (∀ c u, r.src ≠ .core c u) →
    ∃ t, exec (.dramRead r ⟨a, fs⟩) s = .next t ∧ t.drm.last = ⟨.ueSecded, 0⟩) ∧
  (∀ (s : State) (r : Requester) (a n l : Nat) (bs : List (Option Byte)), s.running = true →
    (∀ v ∈ s.drm.waits, s.requestWaits v.request.1 v.request.2 = true) → s.requestWaits r a = false →
    s.drm.lineOf a = some (n, l) → s.regionOk r a = true → (s.chan n).st = .active →
    (s.chan n).mergeOf l = none → (s.chan n).merge.length < 32 → (mergeBytes [] (bs.take 64)).length < 64 →
    exec (.narrowWrite r a bs) s = .next ((s.takeSlot r a).modChan n (fun c => { c with
      merge := c.merge.filter (fun m => m.line != l) ++ [⟨l, mergeBytes [] (bs.take 64), r.part, srcExempt r.src⟩] }))) ∧
  (∀ (s : State) (r : Requester) (a : Nat) (d : BitVec 512) (bs : List (Option Byte)) (fs : List (Nat × Nat)), s.running = true →
    (∀ v ∈ s.drm.waits, s.requestWaits v.request.1 v.request.2 = true) → s.requestWaits r a = true →
    exec (.dramRead r ⟨a, fs⟩) s = .next (s.modDrm (fun x => { x with waits := x.waits ++ [.read r ⟨a, fs⟩] })) ∧
    exec (.dramWrite r a d) s = .next (s.modDrm (fun x => { x with waits := x.waits ++ [.write r a d] })) ∧
    exec (.narrowWrite r a bs) s = .next (s.modDrm (fun x => { x with waits := x.waits ++ [.narrow r a bs] }))) ∧
  (∀ (s : State) (r : Requester) (a : Nat) (d : BitVec 512) (bs : List (Option Byte)) (fs : List (Nat × Nat)), s.running = false →
    exec (.dramRead r ⟨a, fs⟩) s = .next s ∧ exec (.dramWrite r a d) s = .next s ∧ exec (.narrowWrite r a bs) s = .next s) ∧
  (∀ (s : State) (n l : Nat) (m : Merge), (s.chan n).st = .active → (s.chan n).mergeOf l = some m →
    exec (.mergeFlush n l) s = .next (s.flushMerge n m)) ∧
  (∀ (s : State) (n : Nat), (s.chan n).st = .active → (s.chan n).ueTimes = [] → (s.chan n).misTimes = [] →
    (classify (s.lineAt n (s.chan n).scrubDone.toNat) (s.chan n).scrubDone.toNat none).1.kind = .clean →
    (s.chan n).scrubDone.toNat + 1 < s.chanLines →
    ∃ t, exec (.scrubLine n) s = .next t ∧ (t.chan n).scrubDone = BitVec.ofNat 32 ((s.chan n).scrubDone.toNat + 1) ∧
      (t.chan n).lines = (s.chan n).lines)

/-- R222 to R238: the commands that keep a channel. -/
def Obligations.ChannelUpkeep : Prop :=
  (∀ (s : State) (n : Nat), (s.chan n).st = .active →
    ∃ t, exec (.refresh n) s = .next t ∧ (t.chan n).refreshes = (s.chan n).refreshes + 1 ∧
      (∀ p ∈ (t.chan n).banks, p.2.opened = false) ∧ (∀ p ∈ (t.chan n).ranks, p.2.powerDown = false) ∧
      (t.chan n).lines = (s.chan n).lines ∧ (∀ m, n ≠ m → t.chan m = s.chan m)) ∧
  (∀ (s : State) (n : Nat) (hot : List Bool), (s.chan n).st = .active → hot.any id = true → (s.chan n).hot = false →
    ∃ t, exec (.mr4Poll n hot) s = .next t ∧ (t.chan n).hot = true ∧ (t.chan n).normSince = none ∧ 173 + n ∈ t.irc.latch ∧
      (∀ m, n ≠ m → t.chan m = s.chan m)) ∧
  (∀ (s : State) (n : Nat) (hot : List Bool) (x : Nat), (s.chan n).st = .active → hot.any id = false → (s.chan n).hot = true →
    (s.chan n).normSince = some x → x + sec ≤ s.now →
    ∃ t, exec (.mr4Poll n hot) s = .next t ∧ (t.chan n).hot = false ∧ (t.chan n).normSince = none ∧ 173 + n ∈ t.irc.latch) ∧
  (∀ (s : State) (n r : Nat), (s.chan n).st = .active → s.drm.rpdIdle ≠ 0 →
    ∃ t, exec (.rankPowerDown n r) s = .next t ∧ ((t.chan n).ranks.look RankS.reset r).powerDown = true ∧
      (∀ q, r ≠ q → (t.chan n).ranks.look RankS.reset q = (s.chan n).ranks.look RankS.reset q) ∧ (t.chan n).lines = (s.chan n).lines) ∧
  (∀ (s : State) (n : Nat), (s.chan n).st = .training → s.holds 4 .training n = true →
    ∃ t, exec (.dramTraining n true) s = .next t ∧ (t.chan n).st = .filling ∧ n ∈ t.glb.trainedCh ∧ 173 + n ∈ t.irc.latch) ∧
  (∀ (s : State) (n w : Nat), (s.chan n).st = .active →
    ∃ t, exec (.calibrationSliver n (.zq w)) s = .next t ∧ (t.chan n).zqTurn = (s.chan n).zqTurn + 1 ∧
      (t.chan n).zqLatch = (if (s.chan n).zqLatch.contains w then (s.chan n).zqLatch.erase w else (s.chan n).zqLatch ++ [w]) ∧
      (t.chan n).lines = (s.chan n).lines ∧ (∀ m, n ≠ m → t.chan m = s.chan m)) ∧
  (∀ (s : State) (n : Nat), (s.chan n).st = .active → (s.chan n).drifted = true →
    ∃ t, exec (.calibrationSliver n (.retrain true)) s = .next t ∧ (t.chan n).tries = 0 ∧ (t.chan n).drifted = false ∧ (t.chan n).zqTurn = (s.chan n).zqTurn + 1) ∧
  (∀ (s : State) (n : Nat), (s.chan n).st = .filling → s.holds 4 .fill n = true →
    ∃ t, exec (.hardwareFill n) s = .next t ∧ (t.chan n).st = .active ∧ (t.chan n).filled = true ∧ (t.chan n).lines = [] ∧
      173 + n ∈ t.irc.latch ∧ (∀ m, n ≠ m → t.chan m = s.chan m)) ∧
  (∀ (s : State) (n : Nat), (s.chan n).st = .active → 0 < s.scrubBehind n →
    ∃ t, exec (.dramScrubUrgent n) s = .next t ∧ (t.chan n).urgent = true ∧ (t.chan n).scrubRaised = true ∧ 173 + n ∈ t.irc.latch ∧
      (∀ m, n ≠ m → t.chan m = s.chan m)) ∧
  (∀ (s : State) (n : Nat) (v : Word) (e : ErrEntry) (f : ErrEntry) (r : List ErrEntry), s.tck.held = false →
    (v >>> 24).setWidth 8 = (s.chan n).errSeq → (s.chan n).errq = e :: f :: r →
    ∃ t, exec (.drmErrqRetire n v) s = .next t ∧ (t.chan n).errq = f :: r ∧ (t.chan n).errSeq = (s.chan n).errSeq + 1 ∧
      (t.chan n).lines = (s.chan n).lines ∧ (∀ m, n ≠ m → t.chan m = s.chan m)) ∧
  (∀ (s : State) (n : Nat) (v : Word), (v >>> 24).setWidth 8 ≠ (s.chan n).errSeq → exec (.drmErrqRetire n v) s = .next s)

/-- R232 to R235: fences, retirement and the fill of remapped blocks. -/
def Obligations.ChannelLosses : Prop :=
  (∀ (s : State) (n cause : Nat), s.running = true → n < 12 → (s.chan n).st ≠ .fenced → s.drm.fencedCh = 0xF →
    ∃ t, exec (.dramChannelFenced n cause) s = .next t ∧ (t.chan n).st = .fenced ∧ t.drm.fencedCh = BitVec.ofNat 4 n ∧
      t.drm.remapped = s.drm.tolerant ∧ 173 + n ∈ t.irc.latch ∧ t.blw.admitPend.isSome = true) ∧
  (∀ (s : State) (n b : Nat), s.running = true → s.tck.held = false → (n, b) ∉ s.drm.retire → s.blockBad n b = true →
    s.drm.retire.length < 1024 →
    ∃ t, exec (.dramPageRetired n b) s = .next t ∧ t.drm.retire = s.drm.retire ++ [(n, b)] ∧
      (t.chan n).retired = satInc (s.chan n).retired ∧ t.fsh.retSeq = s.fsh.retSeq + 1) ∧
  (∀ (s : State) (n : Nat), s.drm.remapped = true → (s.chan n).st = .active → (s.chan n).remapFilled = false →
    s.holds 4 .fill n = true →
    exec (.remapFill n ⟨[], [], []⟩) s = .next ((s.modChan n (fun c => { c with remapFilled := true })).rewriteCopies.serveWaits))

/-- R306, R307, R315 to R320: background levels and tokens. -/
def Obligations.BellowsCommands : Prop :=
  (∀ (s : State) (w : Nat), s.serving = true → w < 27 → s.workPending w = true → (s.blw.starve.look Starve.reset w).steps < 3 →
    (s.blw.starve.look Starve.reset w).since + s.blw.ageStep * ms ≤ s.now →
    ∃ t, exec (.starvationStep w) s = .next t ∧
      (t.blw.starve.look Starve.reset w).steps = (s.blw.starve.look Starve.reset w).steps + 1 ∧
      (t.blw.starve.look Starve.reset w).capped = (s.blw.starve.look Starve.reset w).capped ∧
      (∀ v, w ≠ v → t.blw.starve.look Starve.reset v = s.blw.starve.look Starve.reset v) ∧ t.blw.rails = s.blw.rails) ∧
  (∀ (s : State) (w : Nat), s.workLevel w = .urgent →
    ∃ t, exec (.urgentCapWindow w) s = .next t ∧ t.workLevel w = .background ∧
      (∀ v, w ≠ v → t.workLevel v = s.workLevel v)) ∧
  (∀ (s : State) (rail who : Nat) (lv : Level), s.running = true → rail < 4 → who / 8 = rail → (s.core who).fenced = false →
    (s.rail rail).queue = [] →
    ∃ t, exec (.bellowsRequest rail .wake lv who) s = .next t ∧
      (t.rail rail).queue = [⟨.wake, s.wakeLevel who, who, s.now, s.tokenCost .wake, false⟩] ∧
      (t.rail rail).held = (s.rail rail).held ∧ (t.rail rail).bucket = (s.rail rail).bucket ∧ (∀ c, t.core c = s.core c)) ∧
  (∀ (s : State) (rail : Nat) (q : TokReq) (rest : List TokReq), s.running = true → (s.rail rail).queue = q :: rest → s.blw.fenced = false →
    (q.kind = .wake ∨ q.kind = .search → (s.core q.requester).pstate = .c0 ∨ (s.core q.requester).pstate = .c1 ∨ (s.core q.requester).waking = true) →
    (s.rail rail).held + q.cost ≤ (s.rail rail).limit.toNat →
    q.cost * 1000 ≤ min ((s.rail rail).bucket + (s.now - (s.rail rail).bucketAt) * (s.rail rail).ramp.toNat) ((s.rail rail).burst.toNat * 1000) →
    ∃ t, exec (.bellowsGrant rail) s = .next t ∧ (t.rail rail).queue = rest ∧ (t.rail rail).held = (s.rail rail).held + q.cost ∧
      (t.rail rail).bucket = min ((s.rail rail).bucket + (s.now - (s.rail rail).bucketAt) * (s.rail rail).ramp.toNat)
        ((s.rail rail).burst.toNat * 1000) - q.cost * 1000 ∧
      (t.rail rail).bucketAt = s.now ∧
      (t.rail rail).grants = (s.rail rail).grants ++ [(q.kind, q.requester, q.cost)] ∧
      (q.kind = .wake → q.requester < 32 → (s.core q.requester).fenced = false → (s.core q.requester).waking = true →
        (t.core q.requester).granted = true ∧ (t.core q.requester).grantAt = max s.now (s.core q.requester).entered)) ∧
  (∀ (s : State) (rail : Nat) (q : TokReq) (rest : List TokReq), (s.rail rail).queue = q :: rest →
    ((s.rail rail).limit.toNat < (s.rail rail).held + q.cost ∨ s.blw.fenced = true) →
    exec (.bellowsGrant rail) s = .next s) ∧
  (∀ (s : State) (rail : Nat) (k : ReqKind) (who cost : Nat), (s.rail rail).grants = [(k, who, cost)] →
    ∃ t, exec (.bellowsRelease rail k who) s = .next t ∧ (t.rail rail).grants = [] ∧ (t.rail rail).held = (s.rail rail).held - cost ∧
      (t.rail rail).queue = (s.rail rail).queue ∧ (t.rail rail).bucket = (s.rail rail).bucket) ∧
  (∀ (s : State) (rail who : Nat) (q : TokReq), (s.rail rail).queue = [q] → q.kind = .search → q.requester = who → q.arrived + 2000 ≤ s.now →
    ∃ t, exec (.bellowsDeny rail who) s = .next t ∧ (t.rail rail).queue = [] ∧ (t.rail rail).denied = satInc (s.rail rail).denied ∧
      (t.rail rail).held = (s.rail rail).held ∧ 39 + rail ∈ t.irc.latch) ∧
  (∀ (s : State) (rail core : Nat) (q : TokReq), (s.rail rail).queue = [q] → q.kind = .wake → q.requester = core → q.slowRaised = false →
    q.arrived + 20000 < s.now →
    ∃ t, exec (.blwSlow rail core) s = .next t ∧ (t.rail rail).queue = [{ q with slowRaised := true }] ∧ 39 + rail ∈ t.irc.latch)

/-- R354, R360 to R362, R366, R368: the commands on the device's mode in service. -/
def Obligations.ModeRequests : Prop :=
  (∀ (s : State) (w : Writer) (v : Word), (v.extractLsb' 28 4).toNat = 1 → s.glb.inReset = false → s.glb.mode = .solo →
    s.writeReason w false .glbModeReq v = none → s.glb.waking = false → s.mayRest = true →
    ∃ t, exec (.reqRest w v) s = .next t ∧ t.glb.mode = .rest ∧ t.glb.restSub = v.extractLsb' 26 2 ∧ 32 ∈ t.irc.latch) ∧
  (∀ (s : State) (w : Writer) (v : Word), (v.extractLsb' 28 4).toNat = 1 → s.glb.inReset = false → s.glb.mode = .patch →
    s.writeReason w false .glbModeReq v = none →
    ∃ t, exec (.reqRest w v) s = .next t ∧ t.glb = { s.glb with depth := v.extractLsb' 26 2, refused := true, reason := 1 } ∧
      frame [.glb] s t) ∧
  (∀ (s : State) (w : Writer) (v : Word), (v.extractLsb' 28 4).toNat = 2 → s.glb.inReset = false → s.glb.mode = .rest →
    s.writeReason w false .glbModeReq v = none →
    ∃ t, exec (.reqWake w v) s = .next t ∧
      t.glb = { s.glb with depth := v.extractLsb' 26 2, refused := false, reason := 0, waking := true } ∧ frame [.glb] s t) ∧
  (∀ (s : State) (w : Writer) (v : Word), (v.extractLsb' 28 4).toNat = 3 → s.glb.inReset = false → s.glb.mode = .solo →
    s.writeReason w false .glbModeReq v = none →
    ∃ t, exec (.reqDemote w v) s = .next t ∧ t.glb = { s.glb with depth := v.extractLsb' 26 2, refused := true, reason := 3 } ∧
      frame [.glb] s t) ∧
  (∀ (s : State) (w : Writer) (v : Word), (v.extractLsb' 28 4).toNat = 3 → s.glb.inReset = false → s.glb.mode = .lead →
    s.twinShadow = true → s.glb.demoting = false → s.writeReason w false .glbModeReq v = none →
    ∃ t, exec (.reqDemote w v) s = .next t ∧ t.glb.demoting = true ∧ t.glb.refused = false ∧ t.glb.lastHb = some s.now ∧
      (s.enc = [] → t.glb.mode = .lead)) ∧
  (∀ s : State, s.glb.mode = .rest → s.wakeDue = true →
    ∃ t, exec .restExitDone s = .next t ∧ t.glb.mode = .solo ∧ t.glb.waking = false ∧ t.glb.restSub = 0 ∧ t.glb.role = s.glb.role) ∧
  (∀ s : State, (s.glb.mode = .rest → exec .wakePin s = .next (s.modGlb (fun g => { g with waking := true }))) ∧
    (s.glb.mode ≠ .rest → exec .wakePin s = .next s)) ∧
  (∀ (s : State) (v : Word), v.extractLsb' 16 16 = (0xAD0F : BitVec 16) → s.glb.adoptWait = true → s.glb.mode = .adopt → s.glb.twinEn = false →
    ∃ t, exec (.adoptConfirm v) s = .next t ∧ t.glb.mode = .solo ∧ t.glb.role = .solo ∧ t.glb.adoptWait = false ∧ t.glb.adoptOut = 4) ∧
  (∀ (s : State) (v : Word), v.extractLsb' 16 16 ≠ (0xAD0F : BitVec 16) → exec (.adoptConfirm v) s = .next s) ∧
  (∀ s : State, s.glb.mode = .adopt → s.twinWaitOver = true → s.grt.link = .down → s.selfMatches = true →
    ∃ t, exec .twinWaitExpiry s = .next t ∧ t.glb.mode = .solo ∧ t.glb.role = .solo ∧ t.glb.adoptOut = 1)

/-- R367, R411, R435: HALT. -/
def Obligations.HaltStays : Prop :=
  (∀ s : State, s.glb.mode = .halt → s.glb.inReset = false →
    (∀ c ∈ [Instr.resetAssert, .signatureCheck, .loadDone, .tackFwReady, .patchFailed, .admission, .restExitDone, .wakePin,
        .twinWaitExpiry], ∃ t, exec c s = .next t ∧ t.glb.mode = .halt) ∧
    (∀ b : Bool, ∀ c ∈ [Instr.resetRelease ⟨b, b⟩, .peerFaultEdge b, .peerOwnEdge b], ∃ t, exec c s = .next t ∧ t.glb.mode = .halt) ∧
    (∀ (w : Writer) (v : Word), ∀ c ∈ [Instr.reqRest w v, .reqWake w v, .reqDemote w v, .adoptConfirm v, .fltStatClear v],
      ∃ t, exec c s = .next t ∧ t.glb.mode = .halt) ∧
    (∀ f : Sfdp, ∃ t, exec (.imageLoad f) s = .next t ∧ t.glb.mode = .halt) ∧
    (∀ l : List Nat, ∃ t, exec (.trainEnd l) s = .next t ∧ t.glb.mode = .halt) ∧
    (∀ rs : List Report, exec (.faultReport rs) s = .next s) ∧ (∀ (n : Nat) (p : Bool), exec (.wireCheck n p) s = .next s) ∧ (∀ n : Nat, exec (.wireCodeInvalid n) s = .next s)) ∧
  (∀ s : State, ∃ t, exec .powerOnReset s = .next t ∧ t.glb.inReset = true ∧ t.glb.mode = .fill)

/-- R323 to R340, R355, R435: reset and the loader. -/
def Obligations.LoaderCommands : Prop :=
  (∀ s : State, s.glb.mode ≠ .halt → s.fsh.busy = false →
    ∃ t, exec .resetAssert s = .next t ∧ t.glb = Glb.reset ∧ t.fsh.flash = s.fsh.flash ∧ t.fsh.otpRevoked = s.fsh.otpRevoked ∧
      t.fsh.otpHash = s.fsh.otpHash ∧ t.fsh.floor = s.fsh.floor ∧ t.hq.hostMem = s.hq.hostMem ∧ t.drm = Drm.reset ∧ t.pending = s.pending) ∧
  (∀ s : State, s.glb.mode = .halt → exec .resetAssert s = .next s) ∧
  (∀ s : State, s.fsh.busy = false →
    ∃ t, exec .powerOnReset s = .next t ∧ t.glb = Glb.reset ∧ t.fsh.flash = s.fsh.flash ∧ t.fsh.floor = s.fsh.floor ∧
      t.irc = Irc.reset ∧ t.pending = s.pending) ∧
  (∀ (s : State) (side vsel : Bool), s.glb.inReset = true →
    exec (.resetRelease ⟨side, vsel⟩) s = .next (s.modGlb (fun g => { g with
      inReset := false, side := side, vsel := vsel, mode := .fill, selfDigest := Config.sha256 (Config.devicePublicKey 0) }))) ∧
  (∀ (s : State) (f : Sfdp), s.glb.inReset = false → s.glb.mode = .fill → Sfdp.ok f = false →
    ∃ t, exec (.imageLoad f) s = .next t ∧ t.glb.mode = .load ∧ t.fsh.outcome = 3 ∧ t.fsh.slot = none ∧ t.hq.up = true) ∧
  (∀ (s : State) (f : Sfdp), s.glb.inReset = false → s.glb.mode = .fill → Sfdp.ok f = true →
    ({ s.fsh with size := f.bytes, sfdpOk := true } : Fsh).headerOk = false →
    ∃ t, exec (.imageLoad f) s = .next t ∧ t.glb.mode = .load ∧ t.fsh.outcome = 2 ∧ t.fsh.slot = none ∧ t.hq.up = true) ∧
  (∀ (s : State) (f : Sfdp) (b : Bool) (r : List Bool), s.glb.inReset = false → s.glb.mode = .fill → Sfdp.ok f = true →
    ({ s.fsh with size := f.bytes, sfdpOk := true } : Fsh).headerOk = true →
    ({ s.fsh with size := f.bytes, sfdpOk := true } : Fsh).candidates = b :: r →
    ∃ t, exec (.imageLoad f) s = .next t ∧ t.glb.mode = .load ∧ t.fsh.loader.cur = some b ∧ t.fsh.loader.cands = r ∧
      t.fsh.loader.checked = false ∧ t.hq.up = s.hq.up) ∧
  (∀ (s : State) (b : Bool), s.fsh.loader.cur = some b → s.fsh.loader.checked = false →
    ∃ t, exec .signatureCheck s = .next t ∧
      (s.fsh.slotReason b = 0 → t = s.modFsh (fun f => { f with loader := { f.loader with checked := true, cursor := f.image b + 32 } })) ∧
      (s.fsh.slotReason b ≠ 0 → s.fsh.loader.cands = [] → t.fsh.outcome = 2 ∧ t.fsh.slot = none ∧ t.hq.up = true) ∧
      (s.fsh.slotReason b ≠ 0 → (if b then t.fsh.reasonB else t.fsh.reasonA) = s.fsh.slotReason b)) ∧
  (∀ (s : State) (b : Bool) (a : Nat), s.atRecord 1 = some (b, a) →
    ∃ t, exec .identity s = .next t ∧ t.fsh.imageId = BitVec.ofNat 32 (s.fsh.val (a + 16) 4) ∧
      t.fsh.imageVersion = BitVec.ofNat 32 (s.fsh.val (a + 20) 4) ∧ t.fsh.loader.recs = s.fsh.loader.recs + 1 ∧ t.fsh.flash = s.fsh.flash) ∧
  (∀ (s u : State) (b : Bool) (a : Nat), s.atRecord 2 = some (b, a) → s.putAll State.putPlatform (s.fsh.pairs (a + 16)) = (u, none) →
    ∃ t, exec .platform s = .next t ∧ t.glb.pllLock = true ∧ t.fsh = (u.nextRecord b).fsh) ∧
  (∀ (s : State) (b : Bool) (a : Nat), s.atRecord 3 = some (b, a) →
    exec .tackFw s = .next (((s.copyFirmware (a + 16)).applySettings b).nextRecord b)) ∧
  (∀ (s : State) (b : Bool) (a : Nat), s.atRecord 4 = some (b, a) →
    ∃ t, exec .keys s = .next t ∧
      t.hq.keys = (s.fsh.keysAt (a + 16)).foldl (fun t x => Tbl.put t none x.1 (some x.2)) [] ∧
      t.fsh.loader.recs = s.fsh.loader.recs + 1) ∧
  (∀ (s : State) (b : Bool) (a : Nat), s.atRecord 5 = some (b, a) →
    ∃ t, exec .pattern s = .next t ∧ t.fsh.loader.recs = s.fsh.loader.recs + 1 ∧
      (∀ c, (32 ≤ c ∨ roleNamed (s.fsh.val (a + 17) 1) (s.core c).role = false) → t.core c = s.core c)) ∧
  (∀ (s u : State) (b : Bool) (a : Nat), s.atRecord 6 = some (b, a) → s.putAll State.putMap (s.fsh.mapWrites (a + 16)) = (u, none) →
    exec .mapWrite s = .next (u.nextRecord b)) ∧
  (∀ (s u : State) (b : Bool) (a x : Nat), s.atRecord 6 = some (b, a) → s.putAll State.putMap (s.fsh.mapWrites (a + 16)) = (u, some x) →
    s.fsh.loader.cands = [] →
    ∃ t, exec .mapWrite s = .next t ∧ t.fsh.failAddr = BitVec.ofNat 32 x ∧ t.fsh.outcome = 2 ∧ t.hq.up = true) ∧
  (∀ (s : State) (b : Bool) (a : Nat), s.atRecord 7 = some (b, a) →
    ∃ t, exec .budget s = .next t ∧ t.fsh.budget = s.fsh.bytes (a + 16) (s.fsh.val (a + 4) 4) ∧ t.fsh.flash = s.fsh.flash ∧
      t.fsh.loader.recs = s.fsh.loader.recs + 1) ∧
  (∀ (s : State) (b : Bool) (a : Nat), s.atRecord 0xFFFF = some (b, a) →
    ∃ t, exec .endRecord s = .next t ∧ t.fsh.slot = some b ∧ t.glb.loaded = true ∧ t.tck.st = .run ∧ t.tck.fwSeq = s.tck.fwSeq + 1 ∧
      (∀ n, n < 12 → (t.chan n).st = .training) ∧ t.fsh.loader = Loader.reset)

/-- R312, R338, R356 to R365: start-up's end, patches, admission and fuses. -/
def Obligations.ServiceCommands : Prop :=
  (∀ s : State, s.glb.mode = .load → s.glb.loaded = true → s.filled = true → s.dec = [] →
    Tbl.risesFrom s.cores 0 = true →
    ∃ t, exec .loadDone s = .next t ∧ t.glb.mode = .train ∧ t.hq.up = true ∧
      (∀ c, (t.core c).copies = (s.core c).words ∧ (t.core c).copyBad = false)) ∧
  (∀ s : State, s.glb.mode = .load → s.filled = false → exec .loadDone s = .next s) ∧
  (∀ s : State, s.glb.mode = .train → s.glb.twinEn = false → s.selfMatches = true → s.grt.link = .down →
    ∃ t, exec (.trainEnd []) s = .next t ∧ t.glb.mode = .solo ∧ t.glb.role = .solo ∧ t.glb.adoptOut = 1 ∧ t.blw.admitPend.isSome = true) ∧
  (∀ (s : State) (late : List Nat), s.glb.mode = .train → late ≠ [] → s.trainOver = false → exec (.trainEnd late) s = .next s) ∧
  (∀ (s : State) (p : PatchS), s.glb.patch = some p → p.step = 2 → s.tck.st = .restarting →
    ∃ t, exec .tackFwReady s = .next t ∧
      (s.outputs ≠ [] → t.tck.st = .run ∧ t.tck.fwSeq = s.tck.fwSeq + 1 ∧ t.tck.expired = false)) ∧
  (∀ (s : State) (p : PatchS), s.glb.patch = some p → p.step = 2 → s.glb.mode = .patch → s.tck.st = .restarting →
    p.since + 500 * ms ≤ s.now →
    ∃ t, exec .patchFailed s = .next t ∧ t.glb.mode = s.glb.modeFrom ∧ t.glb.patch = none ∧ t.tck.st = .run ∧
      ∃ x ∈ t.fsh.stores, x.addr = s.fsh.slotBase p.target ∧ x.erase = true ∧ x.bytes = []) ∧
  (∀ (s : State) (n : Nat), s.running = true → s.glb.mode = .solo → s.blw.admitPend = some n → n ≠ 1 → s.glb.patch = none →
    (∀ c, (s.core c).copyBad = false) →
    exec .admission s = .next s.runAdmission) ∧
  (∀ s : State, s.blw.admitPend = none → exec .admission s = .next s) ∧
  (∀ s : State, s.fsh.fusesDue = true → s.glb.role ≠ .none → s.powerOk = true → (s.fltSrc 384).fenced = false → s.fsh.slot.isSome = true →
    s.fsh.raiseFloor = true → s.fsh.floor.toNat < s.fsh.svn.toNat →
    ∃ t, exec .otpFuseBlow s = .next t ∧ t.fsh.floor = s.fsh.svn ∧
      t.fsh.otpRevoked = s.fsh.otpRevoked ||| (s.fsh.revoke &&& ~~~(1#4 <<< s.fsh.keySlot.toNat) &&& ~~~s.fsh.otpRevoked) ∧
      t.fsh.fusesDue = false ∧ t.fsh.flash = s.fsh.flash)

/-- R343 to R348, R359, R391: the flash's commands. -/
def Obligations.FlashCommands : Prop :=
  (∀ s : State, s.glb.inReset = false → s.fsh.sfdpOk = true → s.flushDue = true → s.fsh.stores = [] →
    ∃ t, exec .logFlush s = .next t ∧ t.fsh.logSeq = s.fsh.logSeq + 1 ∧ t.fsh.flash = s.fsh.flash ∧ t.fsh.stores.length = 1 ∧
      (∀ x ∈ t.fsh.stores, x.addr = 0x100000 + 4096 * ((s.fsh.logSeq + 1).toNat % 1024) ∧ x.erase = true)) ∧
  (∀ s : State, s.flushDue = false → exec .logFlush s = .next s) ∧
  (∀ (s : State) (x : Store), s.fsh.stores = [x] → s.fsh.busy = true → x.erase = true → x.bytes ≠ [] → x.kind ≠ stLog →
    ∃ t, exec .flashOpDone s = .next t ∧ 202 ∈ t.irc.latch ∧ t.fsh.stores = [{ x with erase := false }] ∧
      (∀ a, Tbl.look t.fsh.flash erased a = if x.addr ≤ a ∧ a < x.addr + 4096 then erased else Tbl.look s.fsh.flash erased a)) ∧
  (∀ (s : State) (x : Store), s.fsh.stores = [x] → s.fsh.busy = true → x.erase = false → 256 < x.bytes.length →
    ∃ t, exec .flashOpDone s = .next t ∧ 202 ∈ t.irc.latch ∧
      t.fsh.stores = [{ x with addr := x.addr + 256, bytes := x.bytes.drop 256 }] ∧
      t.fsh.flash = putBytes s.fsh.flash erased x.addr (x.bytes.take 256)) ∧
  (∀ s : State, s.fsh.stores = [] →
    exec (.pwrHoldChange false) s = .next (s.modFsh (fun f => { f with pwrHold := false }))) ∧
  (∀ (s : State) (x : Store) (r : List Store), s.fsh.stores = x :: r → s.fsh.busy = false → s.fsh.fenced = false → s.tck.held = false →
    s.fsh.lastWarn = none →
    ∃ t, exec (.pwrHoldChange true) s = .next t ∧ t.fsh.pwrHold = true ∧ t.fsh.busy = true ∧ t.fsh.waitFrom = none ∧
      t.fsh.flash = s.fsh.flash) ∧
  (∀ (s : State) (x : Store) (r : List Store), s.fsh.stores = x :: r → s.fsh.busy = false → s.fsh.fenced = false → s.tck.held = false →
    s.fsh.pwrHold = false → s.fsh.waitFrom = none →
    ∃ t, exec .flashPowerWait s = .next t ∧ t.fsh = { s.fsh with waitFrom := some s.now } ∧ t.log = s.log) ∧
  (∀ (s : State) (r : Adoption), s.glb.adoptDue = some r → s.fsh.stores = [] →
    ∃ t, exec .deviceAdopted s = .next t ∧ t.glb = { s.glb with adoptDue := none } ∧ t.fsh = s.fsh)

/-- R275, R276, R279, R283, R293, R392: commands on queues, events and reads. -/
def Obligations.QueueCommands : Prop :=
  (∀ (s : State) (n q : Nat) (x : Slot) (sq cq : BitVec 64) (sm cm : BitVec 16) (f : BitVec 4) (w : BitVec 8) (p : BitVec 14)
      (v : BitVec 11) (sh : BitVec 64) (st : Nat),
    s.starts n x (.createQueue q sq cq sm cm .command f w p v sh st) → (s.hqQ q).valid = false →
    s.createBad sq cq sm cm .command f.toNat w p v.toNat sh st = false →
    ∃ t, exec (.createQueue n) s = .next t ∧ t.completed n x .success 0 ∧
      t.hqQ q = { HqQueue.reset with
        valid := true, kind := .command, func := f, part := BitVec.ofNat 3 ((s.fnPart f.toNat).getD 0), vector := v
        sqSize := sm.toNat + 1, cqSize := cm.toNat + 1, weight := w, poll := p, shadow := sh, sqBase := sq, cqBase := cq, stream := st } ∧
      (∀ r, q ≠ r → t.hqQ r = s.hqQ r)) ∧
  (∀ (s : State) (n q : Nat) (x : Slot) (sq cq : BitVec 64) (sm cm : BitVec 16) (k : QKind) (f : BitVec 4) (w : BitVec 8) (p : BitVec 14)
      (v : BitVec 11) (sh : BitVec 64) (st : Nat),
    s.starts n x (.createQueue q sq cq sm cm k f w p v sh st) → (s.hqQ q).valid = true →
    ∃ t, exec (.createQueue n) s = .next t ∧ t.completed n x .busy 0 ∧ t.hq.queues = s.hq.queues) ∧
  (∀ (s : State) (n q : Nat) (x : Slot), s.starts n x (.deleteQueue q) → (s.hqQ q).valid = true → (s.hqQ q).sqHead = (s.hqQ q).sqTail →
    (s.hqQ q).inExec = 0 → (∀ i, i < 4 → (s.trans i).opener ≠ .queue q) →
    ∃ t, exec (.deleteQueue n) s = .next t ∧ t.completed n x .success 0 ∧ t.hqQ q = HqQueue.reset ∧ (∀ r, q ≠ r → t.hqQ r = s.hqQ r)) ∧
  (∀ (s : State) (n q fn : Nat) (x : Slot) (m : BitVec 64), s.starts n x (.setEvents m) → (s.ctxOf x.path).fn = some fn →
    s.eventQueue fn = some q →
    ∃ t, exec (.setEvents n) s = .next t ∧ t.completed n x .success 0 ∧ t.hqQ q = { s.hqQ q with mask := m } ∧
      (∀ r, q ≠ r → t.hqQ r = s.hqQ r)) ∧
  (∀ (s : State) (n len : Nat) (x : Slot) (a : BitVec 64), s.starts n x (.identify a len) → 4096 ≤ len →
    ∃ t, exec (.identify n) s = .next t ∧
      t.slot n = some { x with phase := .waiting, result := 0, out := [(a.toNat, s.identifyBytes)], started := s.now } ∧
      t.hq.dmas = s.hq.dmas ++ [(n, 4096)]) ∧
  (∀ (s : State) (n len : Nat) (x : Slot) (a : BitVec 64), s.starts n x (.identify a len) → len < 4096 →
    ∃ t, exec (.identify n) s = .next t ∧ t.completed n x .invalidField 0 ∧ t.hq.dmas = s.hq.dmas) ∧
  (∀ (s : State) (n len : Nat) (x : Slot) (a : BitVec 64) (i : BitVec 32), s.starts n x (.getLog a len i) → len % 16 = 0 → len ≠ 0 →
    ∃ t, exec (.getLog n) s = .next t ∧
      t.slot n = some { x with
        phase := .waiting, result := BitVec.ofNat 32 (s.logRange len i).2, started := s.now
        out := [(a.toNat, s.logCopy (s.logRange len i).1 (s.logRange len i).2)] } ∧
      t.hq.dmas = s.hq.dmas ++ [(n, (s.logCopy (s.logRange len i).1 (s.logRange len i).2).length)]) ∧
  (∀ (s : State) (n len a : Nat) (x : Slot) (addr : BitVec 64), s.starts n x (.ctxRead addr len a) → a % 4 = 0 → len % 4 = 0 →
    0x1000000 ≤ a → a < 0x4000000 → a + len ≤ 0x4000000 → 0 < len → (s.ctxOf x.path).scope = none →
    ∃ t, exec (.ctxRead n) s = .next t ∧
      t.slot n = some { x with
        phase := .waiting, result := 0, started := s.now
        out := [(addr.toNat, wordBytes (((List.range (len / 4)).map (fun i => a + 4 * i)).map s.readAddr))] } ∧
      t.hq.dmas = s.hq.dmas ++ [(n, len)]) ∧
  (∀ (s : State) (n a : Nat) (x : Slot) (st : Status), s.slot n = some x → x.cmd = some (.regRead a) → s.begins x (.regRead a) = true →
    s.gate (.regRead a) x.path = some st →
    ∃ t, exec (.regRead n) s = .next t ∧ t.completed n x st 0 ∧ frame [.hq] s t)

/-- R101, R157, R182, R249, R283, R463, R468 to R474: commands on registers, transactions, streams and outputs. -/
def Obligations.ControlCommands : Prop :=
  (∀ (s : State) (n a : Nat) (x : Slot), s.starts n x (.regRead a) → a % 4 = 0 → (s.ctxOf x.path).reach s a ≠ 0 →
    exec (.regRead n) s = .next ((s.readBy (s.ctxOf x.path).writer a).1.finish n .success (s.readBy (s.ctxOf x.path).writer a).2)) ∧
  (∀ (s u r : State) (n a : Nat) (v : Word) (x : Slot), s.starts n x (.regWrite a v) → a % 4 = 0 → (s.ctxOf x.path).reach s a = 2 →
    s.openOf (s.ctxOf x.path).opener = none → u = s.mirrorCmd x (.regWrite a v) →
    u.writeAddr (s.ctxOf x.path).writer a v true = (r, none) →
    exec (.regWrite n) s = .next (r.finish n .success 0)) ∧
  (∀ (s : State) (n a k : Nat) (v : Word) (x : Slot), s.starts n x (.regWrite a v) → a % 4 = 0 → (s.ctxOf x.path).reach s a = 2 →
    s.openOf (s.ctxOf x.path).opener = some k → s.bufferReason (s.ctxOf x.path).writer k a v = none →
    ∃ t, exec (.regWrite n) s = .next t ∧ t.completed n x .success 0 ∧ (t.trans k).writes = bufferWrite (s.trans k).writes a v ∧
      frame [.hq, .txn] s t) ∧
  (∀ (s : State) (n k : Nat) (x : Slot), s.starts n x (.txnBegin k) → (s.trans k).st = .free →
    ∃ t, exec (.txnBegin n) s = .next t ∧ t.completed n x .success 0 ∧ (t.trans k).st = .opened ∧ (t.trans k).writes = [] ∧
      (t.trans k).opener = (s.ctxOf x.path).opener ∧ (t.trans k).failed = false ∧ (∀ j, k ≠ j → t.trans j = s.trans j)) ∧
  (∀ (s : State) (n k : Nat) (x : Slot), s.starts n x (.txnBegin k) → (s.trans k).st ≠ .free →
    ∃ t, exec (.txnBegin n) s = .next t ∧ t.completed n x .busy 0 ∧ t.txn = s.txn) ∧
  (∀ (s : State) (n k : Nat) (x : Slot) (r : BitVec 5) (l : BitVec 14) (f : BitVec 32), s.starts n x (.txnCommit k r l f) →
    (s.trans k).st = .opened → (s.trans k).opener = (s.ctxOf x.path).opener → s.glb.role ≠ .lead → r.toNat ≠ 31 →
    s.posOk r.toNat l.toNat = true →
    s.due r.toNat (s.fullFrame r.toNat f) l.toNat (s.txnLate k) = .coming →
    ∃ t, exec (.txnCommit n) s = .next t ∧ (t.trans k).st = .armed ∧ (t.trans k).raster = BitVec.ofNat 5 r.toNat ∧
      (t.trans k).line = BitVec.ofNat 14 l.toNat ∧ (t.trans k).waiter = some n ∧ (t.trans k).writes = (s.trans k).writes ∧
      t.slot n = some { x with phase := .waiting }) ∧
  (∀ (s : State) (n k : Nat) (x : Slot), s.starts n x (.txnAbort k) → (s.trans k).st = .opened → (s.trans k).waiter = none →
    (s.trans k).opener = (s.ctxOf x.path).opener →
    ∃ t, exec (.txnAbort n) s = .next t ∧ t.completed n x .success 0 ∧ (t.trans k).st = .free ∧ (t.trans k).outcome = .aborted ∧
      (t.trans k).writes = [] ∧ 33 + k ∈ t.irc.latch) ∧
  (∀ (s : State) (n i : Nat) (x : Slot), s.starts n x (.streamStart i) → (s.ctxOf x.path).owns s i = true → (s.decS i).cfg.enabled = true →
    exec (.streamStart n) s = .next (((s.mirrorCmd x (.streamStart i)).startStream i false).finish n .success 0)) ∧
  (∀ (s : State) (n i : Nat) (x : Slot), s.starts n x (.streamRejoin i) → (s.ctxOf x.path).owns s i = true → (s.decS i).cfg.enabled = true →
    exec (.streamRejoin n) s = .next (((s.mirrorCmd x (.streamRejoin i)).startStream i true).finish n .success 0)) ∧
  (∀ (s : State) (n i : Nat) (x : Slot), s.starts n x (.streamStart i) → (s.ctxOf x.path).owns s i = false →
    ∃ t, exec (.streamStart n) s = .next t ∧ t.completed n x .notOwned 0 ∧ t.dec = s.dec) ∧
  (∀ (s : State) (n i : Nat) (x : Slot), s.starts n x (.streamQuench i) → (s.ctxOf x.path).owns s i = true →
    s.openOf (s.ctxOf x.path).opener = none →
    ∃ t, exec (.streamQuench n) s = .next t ∧ t.completed n x .success 0 ∧ (∀ k ∈ s.rulesOf i, (t.rule k).quench = true) ∧
      (∀ k, k ∉ s.rulesOf i → t.rule k = s.rule k)) ∧
  (∀ (s : State) (n i : Nat) (x : Slot), s.starts n x (.streamUnquench i) → (s.ctxOf x.path).owns s i = true →
    s.openOf (s.ctxOf x.path).opener = none →
    ∃ t, exec (.streamUnquench n) s = .next t ∧ t.completed n x .success 0 ∧ (∀ k ∈ s.rulesOf i, (t.rule k).quench = false) ∧
      (∀ k, k ∉ s.rulesOf i → t.rule k = s.rule k)) ∧
  (∀ (s : State) (n i : Nat) (x : Slot) (k : BitVec 5) (l : BitVec 14) (f : BitVec 32), s.starts n x (.sweepRestart i k l f) →
    (s.ctxOf x.path).owns s i = true → s.posOk k.toNat l.toNat = true → (s.encS i).cfg.enabled = true →
    ∃ t, exec (.sweepRestart n) s = .next t ∧ t.completed n x .success 0 ∧
      (t.encS i).restarts = (s.encS i).restarts ++ [(s.restartTime k l f, 0)] ∧ (∀ j, i ≠ j → t.encS j = s.encS j)) ∧
  (∀ (s : State) (n k : Nat) (b : Bool) (x : Slot), s.starts n x (.outputSet k b) → (s.ctxOf x.path).scope = none →
    ∃ t, exec (.outputSet n) s = .next t ∧ t.completed n x .success 0 ∧ t.outP k = { s.outP k with intent := b } ∧
      (∀ j, k ≠ j → t.outP j = s.outP j)) ∧
  (∀ (s : State) (n k p : Nat) (b : Bool) (x : Slot), s.starts n x (.outputSet k b) → (s.ctxOf x.path).scope = some p →
    ∃ t, exec (.outputSet n) s = .next t ∧ t.completed n x .notOwned 0 ∧ t.out = s.out)

/-- R282 to R295, R345, R363: commands that carry data, and what acts on slots from outside. -/
def Obligations.DataCommands : Prop :=
  (∀ (s : State) (n len : Nat) (x : Slot) (a : BitVec 64) (off : BitVec 32) (sealIt : Bool) (bs : List Byte),
    s.starts n x (.imageWrite a len off sealIt) → s.fsh.sfdpOk = true → s.glb.patch = none → off.toNat % 4096 ≠ 0 →
    s.fsh.update = none →
    ∃ t, exec (.imageWrite n bs) s = .next t ∧ t.completed n x .invalidField 11 ∧ t.fsh.writeReason = 0xB ∧ t.fsh.flash = s.fsh.flash) ∧
  (∀ (s : State) (n : Nat) (x : Slot) (a : BitVec 64) (bs : List Byte),
    s.starts n x (.imageWrite a 4096 0 false) → s.fsh.sfdpOk = true → s.glb.patch = none → 4096 ≤ bs.length →
    4096 ≤ slotSize s.fsh.size - 4096 → s.fsh.stores = [] → s.fsh.headerOk = true → s.fsh.busy = false →
    ∃ t, exec (.imageWrite n bs) s = .next t ∧ t.slot n = some { x with phase := .waiting, started := s.now } ∧
      t.fsh.update = some ⟨0, false⟩ ∧
      t.fsh.stores = [⟨stImage, s.fsh.slotBase s.fsh.writeSlot, [], true, some n⟩,
        ⟨stImage, s.fsh.image s.fsh.writeSlot, bs.take 4096, true, some n⟩] ∧ t.fsh.flash = s.fsh.flash) ∧
  (∀ (s : State) (n : Nat) (x : Slot), s.starts n x .patch →
    exec (.patch n) s = .next (if s.patchResult = 0 then (s.enterPatch x.path).finish n .success 0 else s.finish n .state s.patchResult)) ∧
  (∀ (s : State) (n i : Nat) (x : Slot) (a b : BitVec 64) (p c : BitVec 16) (pt : T48) (att : Bool) (ps : List Byte),
    s.starts n x (.encPost i a b p c pt att) → (s.ctxOf x.path).owns s i = true → (s.encS i).cfg.enabled = true →
    (s.encS i).cfg.input = none → p.toNat % 64 = 0 → c.toNat % 64 = 0 → (s.encS i).posted.length < 4 →
    ∃ t, exec (.encPost ⟨n, ps⟩) s = .next t ∧ t.slot n = some { x with phase := .waiting, started := s.now } ∧
      (t.encS i).posted = (s.encS i).posted ++ [⟨pt, att, false, some n, s.postDeadline (s.encS i).cfg x.fetched, ⟨p.toNat, c.toNat, ps⟩⟩] ∧
      t.hq.dmas = s.hq.dmas ++ [(n, (s.encS i).cfg.pictureBytes p.toNat c.toNat)] ∧ (∀ j, i ≠ j → t.encS j = s.encS j)) ∧
  (∀ (s : State) (n i : Nat) (x : Slot) (a b : BitVec 64) (p c : BitVec 16) (pt : T48) (att : Bool) (ps : List Byte),
    s.starts n x (.encPost i a b p c pt att) → (s.ctxOf x.path).owns s i = true → (s.encS i).cfg.enabled = true →
    (s.encS i).cfg.input = none → p.toNat % 64 = 0 → c.toNat % 64 = 0 → 4 ≤ (s.encS i).posted.length →
    ∃ t, exec (.encPost ⟨n, ps⟩) s = .next t ∧ t.completed n x .postFull 0 ∧ t.enc = s.enc) ∧
  (∀ (s : State) (n i len : Nat) (x : Slot) (a : BitVec 64) (e : Bool) (ls : List Nat), s.starts n x (.decPost i a len e) →
    (s.ctxOf x.path).owns s i = true → (s.decS i).cfg.enabled = true → (s.decS i).cfg.hostFed = true → lengthsOk len ls = true →
    s.hq.dmas = [] → (∀ y ∈ s.hq.slots, y.2.phase ≠ .waiting ∧ (y.1 = n → y.2 = x)) → (s.decS i).queueUsed + len ≤ (s.decS i).cfg.queue →
    ∃ t, exec (.decPost n ls) s = .next t ∧ t.slot n = some { x with phase := .waiting, lens := ls, started := s.now } ∧
      t.hq.dmas = [(n, len)] ∧ t.dec = s.dec) ∧
  (∀ (s : State) (n k : Nat) (x : Slot) (a : BitVec 64) (len : Nat), s.slot n = some x → x.cmd = some (.identify a len) →
    x.phase = .waiting → (n, k) ∈ s.hq.dmas → x.out = [] →
    ∃ t, exec (.hostDmaDone (.slot n) true) s = .next t ∧ t.completed n x .success x.result ∧ t.hq.dmas = s.hq.dmas.filter (fun d => d.1 != n) ∧
      t.hq.hostMem = s.hq.hostMem) ∧
  (∀ (s : State) (n k i len : Nat) (x : Slot) (a : BitVec 64) (e : Bool), s.slot n = some x → x.cmd = some (.decPost i a len e) →
    x.phase = .waiting → (n, k) ∈ s.hq.dmas →
    ∃ t, exec (.hostDmaDone (.slot n) false) s = .next t ∧ t.slot n = some { x with phase := .done, status := .hostDma, result := 0, out := [] } ∧
      t.hq.dmas = s.hq.dmas.filter (fun d => d.1 != n) ∧ t.dec = s.dec) ∧
  (∀ (s : State) (n i len : Nat) (x : Slot) (a b : BitVec 64) (d : Word) (p c : BitVec 16) (bad : Bool), s.starts n x (.frameRead i a b len d p c) →
    (s.ctxOf x.path).owns s i = true → p.toNat % 64 = 0 → c.toNat % 64 = 0 →
    p.toNat * (s.decS i).grid.height + 2 * (c.toNat * (s.decS i).chromaSize.2) ≤ len → d = 0xFFFFFFFF → (s.decS i).shown = none →
    ∃ t, exec (.frameRead ⟨n, bad⟩) s = .next t ∧ t.completed n x .state 0) ∧
  (∀ (s : State) (n i len k : Nat) (x : Slot) (a b : BitVec 64) (d : Word) (p c : BitVec 16), s.starts n x (.frameRead i a b len d p c) →
    (s.ctxOf x.path).owns s i = true → p.toNat % 64 = 0 → c.toNat % 64 = 0 →
    p.toNat * (s.decS i).grid.height + 2 * (c.toNat * (s.decS i).chromaSize.2) ≤ len → d = 0xFFFFFFFF → (s.decS i).shown = some k →
    0 < (s.decS i).grid.width → 0 < (s.decS i).grid.height →
    ∃ t, exec (.frameRead ⟨n, false⟩) s = .next t ∧
      t.slot n = some { x with
        phase := .waiting, result := 0, started := s.now
        out := ((s.decS i).frame k).planes (s.decS i) a.toNat b.toNat p.toNat c.toNat }) ∧
  (∀ (s : State) (n i len : Nat) (x : Slot) (a : BitVec 64), s.starts n x (.ledgerRead i a len) → (s.ctxOf x.path).owns s i = true →
    16 * ((s.decS i).cols * (s.decS i).rowsN) ≤ len → 0 < (s.decS i).cols * (s.decS i).rowsN →
    ∃ t, exec (.ledgerRead ⟨n, false⟩) s = .next t ∧
      t.slot n = some { x with
        phase := .waiting, result := 0, started := s.now
        out := [(a.toNat, wordBytes ((List.range ((s.decS i).cols * (s.decS i).rowsN)).flatMap (fun k => (List.range 4).map (s.tile i k).word)))] }) ∧
  (∀ (s : State) (n i len : Nat) (x : Slot) (a : BitVec 64), s.starts n x (.ledgerRead i a len) → (s.ctxOf x.path).owns s i = true →
    16 * ((s.decS i).cols * (s.decS i).rowsN) ≤ len →
    ∃ t, exec (.ledgerRead ⟨n, true⟩) s = .next t ∧ t.completed n x .deviceMemory 0 ∧ t.hq.dmas = s.hq.dmas) ∧
  (∀ (s : State) (q i : Nat) (ws : List Word), s.fetching q = true → (s.hqQ q).valid = true → (s.hqQ q).kind = .output →
    (s.hqQ q).sqHead ≠ (s.hqQ q).sqTail → (s.hqQ q).stream = i → (s.encS i).page = none → (s.encS i).dropping = true →
    (s.encS i).resumeReq = true → (s.encS i).staged = [] → pageBad ws = none →
    ∃ t, exec (.pagePost q ws) s = .next t ∧ (t.hqQ q).sqHead = ((s.hqQ q).sqHead + 1) % (s.hqQ q).sqSize ∧
      (t.hqQ q).inExec = (s.hqQ q).inExec + 1 ∧
      (t.encS i).page = some ⟨entryWord ws 3 ++ entryWord ws 2, (entryWord ws 0).extractLsb' 16 16,
        BitVec.ofNat 16 (((s.hqQ q).sqHead + 1) % (s.hqQ q).sqSize), 0, false, false, 0, none, s.now⟩) ∧
  (∀ (s : State) (i : Nat) (p : Page), (s.encS i).page = some p → p.done = none → p.filled ≠ 0 → s.outQueue i = none →
    p.last + s.hq.pageFlush * 1000 ≤ s.now →
    exec (.pageFlushTimeout i) s = .next (s.modEncS i (fun e => { e with page := some { p with done := some .success } }))) ∧
  (∀ (s : State) (i : Nat) (p : Page), (s.encS i).page = some p → p.filled = 0 → exec (.pageFlushTimeout i) s = .next s) ∧
  (∀ (s : State) (i : Nat) (p : Page), (s.encS i).page = some p → p.done = none → p.filled ≠ 0 → s.outQueue i = none →
    (s.encS i).dropping = false →
    ∃ t, exec (.hostDmaDone (.page i) false) s = .next t ∧ (t.encS i).page = some { p with done := some .hostDma } ∧
      (t.encS i).dropping = true ∧ (∀ x ∈ (t.encS i).staged, x.begun = true)) ∧
  (∀ (s : State) (fn : Nat), s.glb.inReset = false → s.hq.up = true → 1 ≤ fn → fn ≤ 8 →
    ∃ t, exec (.functionLevelReset fn) s = .next t ∧ 200 ∈ t.irc.latch ∧
      (∀ q, (s.hqQ q).valid = true → (s.hqQ q).func.toNat = fn → t.hqQ q = HqQueue.reset) ∧
      (∀ v ∈ fnVectors fn, v ∈ t.hq.msixMask)) ∧
  (∀ (s : State) (m : Datagram), s.linksUp = true → s.rxUnread 1 = true → exec (.supervisoryMessage m) s = .next (s.rxTake 1)) ∧
  (∀ (s : State) (m : Datagram), s.linksUp = true → s.rxUnread 1 = false → s.msgOk m.bytes = false →
    ∃ t, exec (.supervisoryMessage m) s = .next t ∧ t.hq.authFail = satInc s.hq.authFail ∧ 199 ∈ t.irc.latch ∧
      t.hq.keys = s.hq.keys ∧ t.hq.slots = s.hq.slots) ∧
  (∀ (s : State) (m : Datagram), s.linksUp = true → s.rxUnread 1 = false → s.msgOk m.bytes = true →
    (((List.range 16).map (16 + ·)).filter (fun i => (s.slot i).isNone)).length < msgCount m.bytes →
    exec (.supervisoryMessage m) s = .next s) ∧
  (∀ (s : State) (m : Datagram), s.linksUp = true → s.rxUnread 1 = false → s.msgOk m.bytes = true → s.hq.slots = [] →
    ∃ t, exec (.supervisoryMessage m) s = .next t ∧ t.hq.slots.length = msgCount m.bytes ∧ t.hq.msgs.length = s.hq.msgs.length + 1 ∧
      (t.hq.keys.look none (msgKey m.bytes)).map (·.counter) = some (msgCounter m.bytes))

/-- R273, R277, R278, R281: the queue engine. -/
def Obligations.QueueEngine : Prop :=
  (∀ (s : State) (ws : List Word), s.mayFetch 0 = true →
    ∃ t n, exec (.commandFetch 0 ws) s = .next t ∧ n < 16 ∧ s.slot n = none ∧ (t.slot n).isSome = true ∧
      (t.hqQ 0).sqHead = ((s.hqQ 0).sqHead + 1) % (s.hqQ 0).sqSize ∧ (t.hqQ 0).inExec = (s.hqQ 0).inExec + 1 ∧
      (∀ q, 0 ≠ q → t.hqQ q = s.hqQ q)) ∧
  (∀ (s : State) (q : Nat) (ws : List Word), s.mayFetch q = false → exec (.commandFetch q ws) s = .next s) ∧
  (∀ (s : State) (q : Nat) (v : Word), s.glb.inReset = false → s.hq.up = true → s.hq.fenced = false → (s.hqQ q).valid = true →
    (v &&& 0xFFFF).toNat < (s.hqQ q).sqSize →
    ((s.hqQ q).sqTail + (s.hqQ q).sqSize - (s.hqQ q).sqHead) % (s.hqQ q).sqSize <
      ((v &&& 0xFFFF).toNat + (s.hqQ q).sqSize - (s.hqQ q).sqHead) % (s.hqQ q).sqSize →
    ∃ t, exec (.hqDoorbell 0 q false v) s = .next t ∧
      t.hqQ q = { s.hqQ q with sqTail := (v &&& 0xFFFF).toNat, dbSq := v.setWidth 16 } ∧ (∀ r, q ≠ r → t.hqQ r = s.hqQ r)) ∧
  (∀ (s : State) (q : Nat) (v : Word), s.glb.inReset = false → s.hq.up = true → s.hq.fenced = false → (s.hqQ q).valid = true →
    (s.hqQ q).sqSize ≤ (v &&& 0xFFFF).toNat →
    ∃ t, exec (.hqDoorbell 0 q false v) s = .next t ∧ (t.hqQ q).sqTail = (s.hqQ q).sqTail ∧ (t.hqQ q).sqHead = (s.hqQ q).sqHead) ∧
  (∀ (s : State) (q : Nat) (v : Word), s.glb.inReset = false → s.hq.up = true → s.hq.fenced = false → (s.hqQ q).valid = true →
    (s.hqQ q).kind = .command → (s.hqQ q).poll = 0 → (v &&& 0xFFFF).toNat < (s.hqQ q).cqSize →
    ∃ t, exec (.hqDoorbell 0 q true v) s = .next t ∧
      t.hqQ q = { s.hqQ q with cqHead := (v &&& 0xFFFF).toNat, dbCq := v.setWidth 16 } ∧ (∀ r, q ≠ r → t.hqQ r = s.hqQ r)) ∧
  (∀ (s : State) (q : Nat) (v : BitVec 64), (s.hqQ q).poll = 0 → exec (.queuePoll q v) s = .next s) ∧
  (∀ (s : State) (q : Nat) (v : BitVec 64), s.fetching q = true → (s.hqQ q).valid = true → (s.hqQ q).poll ≠ 0 →
    exec (.queuePoll q v) s = .next ((if (s.hqQ q).kind = .event then s else s.newTail q (v.extractLsb' 0 32).toNat).newHead q
      (v.extractLsb' 32 32).toNat)) ∧
  (∀ (s : State) (n q : Nat) (x : Slot), s.slot n = some x → x.phase = .done → x.path = .queue q → (s.hqQ q).cqFull = false →
    ∃ t, exec (.commandComplete n) s = .next t ∧ t.slot n = none ∧ (t.hqQ q).inExec = (s.hqQ q).inExec - 1 ∧
      (t.hqQ q).cqTail = ((s.hqQ q).cqTail + 1) % (s.hqQ q).cqSize ∧ (s.hqQ q).vector.toNat ∈ t.hq.msixPend ∧
      (∀ r, q ≠ r → t.hqQ r = s.hqQ r) ∧ (∀ m, n ≠ m → t.slot m = s.slot m)) ∧
  (∀ (s : State) (n q : Nat) (x : Slot), s.slot n = some x → x.path = .queue q → (s.hqQ q).cqFull = true →
    exec (.commandComplete n) s = .next s)

/-- R241 to R249, R260, R261: ingress, the crossbar and the receive queues. -/
def Obligations.RunnerIngress : Prop :=
  (∀ (s : State) (p : Nat) (f : Frame), s.portUp p = true → frameBad (s.eth p).mtu f = true →
    exec (.frameReceived p f) s = .next (((s.portCount p 1 1).portCount p 2 f.len).portCount p 4 1)) ∧
  (∀ (s : State) (p k : Nat) (f : Frame) (r : Rule), s.portUp p = true → frameBad (s.eth p).mtu f = false → f.ip = true → f.udp = true →
    f.dport ≠ 319 → f.dport ≠ 320 → s.run.rules.find? (fun r => r.2.hits p f) = some (k, r) → s.reloading 326 k = false →
    s.quenched r = true →
    exec (.frameReceived p f) s = .next ((State.whenB (s.quenchOpen r) State.tickFree ((s.portCount p 1 1).portCount p 2 f.len)).portCount p 7 1)) ∧
  (∀ (s : State) (p k : Nat) (f : Frame) (r : Rule) (u : State) (q : Pkt), s.portUp p = true → frameBad (s.eth p).mtu f = false →
    f.ip = true → f.udp = true → f.dport ≠ 319 → f.dport ≠ 320 → s.run.rules.find? (fun r => r.2.hits p f) = some (k, r) →
    s.reloading 326 k = false → s.quenched r = false → r.dest ≠ 3 → r.polEn = false →
    (r.dest = 0 → (s.run.capture.look none r.stream.toNat).isSome = true ∨ (s.decS r.stream.toNat).st ≠ .idle) →
    ((s.portCount p 1 1).portCount p 2 f.len).allocPkt
      (State.pktOf ((s.portCount p 1 1).portCount p 2 f.len) p f r.part.toNat r.tc.toNat r.dest.toNat r.stream.toNat r.path false) = some (u, q) →
    exec (.frameReceived p f) s = .next (u.voqPut (u.egressOf q.dest q.stream) q)) ∧
  (∀ (s : State) (p : Nat) (f : Frame), s.portUp p = false → exec (.frameReceived p f) s = .next s) ∧
  (∀ (s : State) (q : Nat) (k : Pkt) (r : List Pkt), (s.voq q).queue = k :: r → s.running = true → s.run.planes ≠ 0 → s.aged k = false →
    k.dest = 0 → s.accepts k = true → s.pointerBad k = none → (s.voq q).serial = (s.voq q).expect → (s.voq q).early = [] →
    ∃ t, exec (.packetSwitch q) s = .next t ∧ (t.voq q).queue = r ∧ (t.voq q).serial = (s.voq q).serial + 1 ∧ (t.voq q).expect = (s.voq q).expect + 1 ∧
      (∀ p, q ≠ p → t.voq p = s.voq p) ∧ t.dec = s.dec ∧
      (t.stitch (s.contextOf k)).arrived = (s.stitch (s.contextOf k)).arrived ++ [{ k with serial := (s.voq q).serial, plane := s.planeOf k }]) ∧
  (∀ (s : State) (q : Nat) (k : Pkt) (r : List Pkt), (s.voq q).queue = k :: r → s.running = true → s.run.planes ≠ 0 → s.aged k = false →
    k.dest = 1 → s.accepts k = true → s.pointerBad k = none → (s.voq q).serial = (s.voq q).expect → (s.voq q).early = [] →
    k.query = false → (s.run.rx.look RxQueue.reset (tackQueue k.cls)).unread = false →
    ∃ t, exec (.packetSwitch q) s = .next t ∧ (t.voq q).queue = r ∧ (t.voq q).serial = (s.voq q).serial + 1 ∧ (t.voq q).expect = (s.voq q).expect + 1 ∧
      (∀ p, q ≠ p → t.voq p = s.voq p) ∧
      (t.run.rx.look RxQueue.reset (tackQueue k.cls)).queue = (s.run.rx.look RxQueue.reset (tackQueue k.cls)).queue ++
        [{ k with serial := (s.voq q).serial, plane := s.planeOf k }]) ∧
  (∀ (s : State) (q : Nat) (k : Pkt) (r : List Pkt), (s.voq q).queue = k :: r → s.running = true → s.run.planes ≠ 0 → s.aged k = true →
    exec (.packetSwitch q) s = .next ((s.modVoq q (fun v => { v with queue := r })).ageOut q k)) ∧
  (∀ (s : State) (q : Nat) (k : Pkt) (r : List Pkt), (s.voq q).queue = k :: r → s.running = true → s.run.planes ≠ 0 → s.aged k = false →
    s.accepts k = false → s.dropping = true →
    exec (.packetSwitch q) s = .next (((s.modVoq q (fun v => { v with queue := r })).statOut q k).dropPkt k)) ∧
  (∀ (s : State) (q : Nat) (k : Pkt) (r : List Pkt), (s.voq q).queue = k :: r → s.running = true → s.run.planes ≠ 0 → s.aged k = false →
    s.accepts k = false → s.dropping = false → exec (.packetSwitch q) s = .next s) ∧
  (∀ (s : State) (q : Nat), (s.run.rx.look RxQueue.reset q).queue ≠ [] → (s.run.rx.look RxQueue.reset q).unread = false →
    (s.run.rx.look RxQueue.reset q).lastDeq + s.run.unreadMs * ms ≤ s.now →
    ∃ t, exec (.runqUnread q) s = .next t ∧ (t.run.rx.look RxQueue.reset q).queue = [] ∧
      (t.run.rx.look RxQueue.reset q).unread = true ∧ 193 ∈ t.irc.latch ∧ t.dec = s.dec)

/-- R250 to R256: the Stitcher. -/
def Obligations.StitcherCommands : Prop :=
  (∀ (s : State) (c n : Nat) (k : Pkt) (r : List Pkt) (h : Rtp), c < 256 → (s.stitch c).arrived = k :: r → k.rtp = some h →
    s.pointerBad k = none → (s.decS c).ssrc = some h.ssrc → (s.stitch c).next = some n → extNumber false (some n) h = n → (s.stitch c).cand = none → (s.stitch c).held = [] →
    (s.stitch c).frag = none → h.kind = .single → h.marker = false → (s.stitch c).auOpen = true → (s.stitch c).lastTs = some h.ts →
    k.payload ≠ 0 →
    ∃ t, exec (.stitcherPacket c) s = .next t ∧ (t.stitch c).arrived = r ∧
      (t.stitch c).next = some (n + 1) ∧ (t.decS c).items = (s.decS c).items ++ [.bytes k.payload (s.stitch c).auAt] ∧
      (t.decS c).ring = (DecStream.copied (k.bytes h) (s.decS c)).ring ∧ (t.decS c).wptr = (s.decS c).wptr + k.payload) ∧
  (∀ (s : State) (c n : Nat) (k : Pkt) (h : Rtp), c < 256 → (s.stitch c).next = some n → (s.stitch c).held = [k] → s.aged k = false →
    k.rtp = some h → s.pointerBad k = none → h.kind = .single → h.marker = false → (s.stitch c).auOpen = false → k.payload ≠ 0 →
    n < k.ext → (s.stitch c).heldAt + (s.decS c).cfg.hold ≤ s.now →
    ∃ t, exec (.stitchHoldExpiry c) s = .next t ∧ (t.stitch c).next = some (k.ext + 1) ∧ (t.stitch c).held = [] ∧
      (t.decS c).items = (s.decS c).items ++ [.gap n (k.ext - n), .bytes k.payload k.ptp] ∧ 189 ∈ t.irc.latch) ∧
  (∀ (s : State) (c : Nat) (b : Bool), s.dualCtx c = true → (if b then (s.stitch c).upB else (s.stitch c).upA) = true →
    (if b then (s.stitch c).lastB else (s.stitch c).lastA) + 10 * ms ≤ s.now →
    ∃ t, exec (.stitchPath c b) s = .next t ∧
      t.stitch c = (if b then { s.stitch c with upB := false } else { s.stitch c with upA := false }) ∧ 189 ∈ t.irc.latch ∧
      (∀ d, c ≠ d → t.stitch d = s.stitch d) ∧ t.dec = s.dec)

/-- R249, R262 to R270: pauses, egress, statistics and links. -/
def Obligations.RunnerEgress : Prop :=
  (∀ (s : State) (p c q : Nat), s.portUp p = true → (s.eth p).pauseMode = 2 → c < 8 →
    exec (.pauseReceived p (.pfc [(c, q)])) s = .next (((s.portCount p 1 1).portCount p 2 64).modEth p (EthPort.pause s.now c q))) ∧
  (∀ (s : State) (p c q : Nat), s.portUp p = true → (s.eth p).pauseMode = 1 → c < 8 → q ≠ 0 →
    ∃ t, exec (.pauseReceived p (.pause q)) s = .next t ∧ (t.eth p).paused.getLsbD c = true ∧
      Tbl.look (t.eth p).pauseEnd 0 c = s.now + q * 512 / 100 ∧ (∀ j, p ≠ j → t.eth j = s.eth j)) ∧
  (∀ (s : State) (p : Nat) (f : PauseFrame), s.portUp p = true → (s.eth p).pauseMode = 0 →
    exec (.pauseReceived p f) s = .next (((s.portCount p 1 1).portCount p 2 64).portCount p 9 1)) ∧
  (∀ (s : State) (p c : Nat), c < 8 → (s.eth p).paused.getLsbD c = true → Tbl.look (s.eth p).pauseEnd 0 c ≤ s.now →
    ∃ t, exec (.pauseTimerExpiry p c) s = .next t ∧ (t.eth p).paused.getLsbD c = false ∧
      (∀ d, d < 8 → c ≠ d → (t.eth p).paused.getLsbD d = (s.eth p).paused.getLsbD d)) ∧
  (∀ (s : State) (p c : Nat), c < 8 → (s.eth p).paused.getLsbD c = true → (s.eth p).stalled.getLsbD c = false →
    Tbl.look (s.eth p).pauseFrom 0 c + s.run.pauseStorm * ms < s.now →
    ∃ t, exec (.portStalled p c) s = .next t ∧ (t.eth p).stalled = (s.eth p).stalled ||| bitOf c ∧ 185 + p ∈ t.irc.latch ∧
      (t.eth p).paused = (s.eth p).paused) ∧
  (∀ (s : State) (p c : Nat), c < 8 → (s.eth p).stalled.getLsbD c = true → (s.eth p).paused.getLsbD c = false →
    Tbl.look (s.eth p).freeFrom 0 c + sec ≤ s.now →
    ∃ t, exec (.portStallCleared p c) s = .next t ∧ (t.eth p).stalled = (s.eth p).stalled &&& ~~~bitOf c ∧ 185 + p ∈ t.irc.latch) ∧
  (∀ (s : State) (p : Nat), (s.eth p).pfcSent = true → (s.eth p).pfcAt + 100000 ≤ s.now →
    exec (.pfcRefresh p) s = .next ((s.modEth p (fun e => { e with pfcAt := s.now })).modRun (fun r => { r with pfcOut := r.pfcOut ++ [(p, 65535)] }))) ∧
  (∀ (s : State) (p : Nat), ((s.eth p).pfcSent = false ∨ s.now < (s.eth p).pfcAt + 100000) → exec (.pfcRefresh p) s = .next s) ∧
  (∀ (s : State) (p f : Nat) (x : Flow) (k : Pkt) (r : List Pkt), s.portUp p = true → s.run.flows = [(f, x)] → x.queue = k :: r → x.enable = true →
    x.port.toNat = p → (s.eth p).paused.getLsbD x.tc.toNat = false → 0 ≤ (x.accrue s.now).bkt → x.rate ≠ 0 →
    s.aged k = false → s.pointerBad k = none →
    ∃ t, exec (.egressSelect p) s = .next t ∧ (t.flow f).queue = r ∧
      (t.flow f).bkt = (x.accrue s.now).bkt - ((k.len * 1024 : Nat) : Int) ∧ (t.flow f).enable = true ∧
      t.run.sent = s.run.sent ++ [{ k with ptp := s.time48 }] ∧ (t.eth p).txAt = s.time48 ∧ (x.tc.toNat < 6 → (t.eth p).vtime = k.tag)) ∧
  (∀ (s : State) (p : Nat), s.portUp p = true → s.run.flows = [] → exec (.egressSelect p) s = .next s) ∧
  (∀ (s : State) (q : Nat), s.running = true → q < 2176 →
    ∃ t, exec .statsInterval s = .next t ∧
      t.run.stats.look QStat.reset q = (s.run.stats.look QStat.reset q).latch ∧ t.run.voqs = s.run.voqs) ∧
  (∀ (s : State) (p : Nat) (up : Bool), (s.eth p).link ≠ up → (s.eth p).fenced = false →
    ∃ t, exec (.ethLinkChange p up) s = .next t ∧ t.eth p = { s.eth p with link := up } ∧ 185 + p ∈ t.irc.latch ∧
      (∀ q, p ≠ q → t.eth q = s.eth q)) ∧
  (∀ (s : State) (low : Bool), s.run.quenchPin ≠ low →
    ∃ t, exec (.quenchPin low) s = .next t ∧ t.run = { s.run with quenchPin := low }) ∧
  (∀ s : State, exec (.quenchPin s.run.quenchPin) s = .next s)

/-- R373, R374, R377: the interrupt controller. -/
def Obligations.Interrupts : Prop :=
  (∀ s : State, s.claimBest = none →
    ∃ t, exec .ircClaim s = .next t ∧ t.irc = { s.irc with claim := 0x1FF } ∧ frame [.irc] s t) ∧
  (∀ (s : State) (n : Nat) (p : BitVec 4), s.claimBest = some (n, p) →
    ∃ t, exec .ircClaim s = .next t ∧ t.irc.stack = p :: s.irc.stack ∧
      t.irc.claim = (p.setWidth 32 : Word) <<< 28 ||| BitVec.ofNat 32 n ∧ t.irc.latch = s.irc.latch ∧ frame [.irc] s t) ∧
  (∀ (s : State) (n : Nat) (p : BitVec 4), s.claimBest = some (n, p) →
    n < 256 ∧ s.ircPending n = true ∧ p = (s.ircSrc n).prio ∧ aboveTop s.irc.stack p = true ∧
    (∀ m, m < 256 → s.ircPending m = true → aboveTop s.irc.stack (s.ircSrc m).prio = true →
      (s.ircSrc m).prio ≤ p ∧ ((s.ircSrc m).prio = p → n ≤ m))) ∧
  (∀ s : State, s.claimBest = none → ∀ m, m < 256 → s.ircPending m = true → aboveTop s.irc.stack (s.ircSrc m).prio = false) ∧
  (∀ (s : State) (v : Word) (p : BitVec 4) (r : List (BitVec 4)), s.irc.stack = p :: r →
    exec (.ircEoi v) s = .next (s.modIrc (fun i => { i with stack := r }))) ∧
  (∀ (s : State) (v : Word), s.irc.stack = [] → exec (.ircEoi v) s = .next (s.modIrc (fun i => { i with eoiErr := true }))) ∧
  (∀ (s : State) (v : Word), 32 ≤ v.toNat → v.toNat < 208 →
    ∃ t, exec (.ircBlkAck v) s = .next t ∧ v.toNat ∉ t.irc.latch ∧ (∀ n, n ≠ v.toNat → (n ∈ t.irc.latch ↔ n ∈ s.irc.latch)) ∧
      t.irc.stack = s.irc.stack ∧ frame [.irc] s t) ∧
  (∀ (s : State) (v : Word), (v.toNat < 32 ∨ 208 ≤ v.toNat) → exec (.ircBlkAck v) s = .next s)

/-- R383 to R388, R398, R462: the Tack's units. -/
def Obligations.TackUnits : Prop :=
  (∀ (s : State) (j : Nat), j < 4 → (s.timer j).enable = true → s.deep = false → s.timerChannels j = [] → s.glb.mode ≠ .rest →
    (s.timer j).startAt + (s.timer j).period.toNat * 1000 ≤ s.now →
    ∃ t, exec (.timerExpiry j) s = .next t ∧
      t.timer j = { s.timer j with level := true, enable := (s.timer j).periodic, startAt := s.now } ∧ (∀ i, j ≠ i → t.timer i = s.timer i)) ∧
  (∀ (s : State) (j : Nat), exec (.timerAck j) s = .next (s.modTimer j (fun t => { t with level := false }))) ∧
  (∀ (s : State) (bits : List (Bool × Bool × Bool)), s.uartOn = true → bits.length = s.tck.uart.charBits → s.glb.mode ≠ .rest →
    exec (.uartRxChar bits) s = .next (s.modUart (fun u => u.receive bits))) ∧
  (∀ (u : Uart) (bits : List (Bool × Bool × Bool)), (bits.map majority).head? = some false → u.rx.length < 64 →
    (u.receive bits).rx.length = u.rx.length + 1 ∧ u.rx <+: (u.receive bits).rx) ∧
  (∀ (u : Uart) (bits : List (Bool × Bool × Bool)), (bits.map majority).head? = some false → 64 ≤ u.rx.length →
    (u.receive bits).rx = u.rx ∧ (u.receive bits).status.getLsbD 2 = true) ∧
  (∀ s : State, s.uartOn = true → s.glb.mode ≠ .rest →
    ∃ t, exec .uartBreak s = .next t ∧ t.tck.uart.status = s.tck.uart.status ||| 2 ∧ t.tck.uart.rx = s.tck.uart.rx) ∧
  (∀ (s : State) (c : BitVec 10) (r : List (BitVec 10)), s.tck.uart.rx = c :: r →
    ∃ t, exec .uartRxRead s = .next t ∧ t.tck.uart.rxRead = c.setWidth 32 ∧ t.tck.uart.rx = r ∧ frame [.tck] s t) ∧
  (∀ s : State, s.tck.uart.rx = [] → ∃ t, exec .uartRxRead s = .next t ∧ t.tck.uart = { s.tck.uart with rxRead := 0 }) ∧
  (∀ (s : State) (v : Word), s.tck.uart.tx.length < 64 →
    ∃ t, exec (.uartTxWrite v) s = .next t ∧ t.tck.uart = { s.tck.uart with tx := s.tck.uart.tx ++ [v.setWidth 8] } ∧ frame [.tck] s t) ∧
  (∀ (s : State) (v : Word), 64 ≤ s.tck.uart.tx.length → ∃ t, exec (.uartTxWrite v) s = .next t ∧ t.tck = s.tck) ∧
  (∀ (s : State) (c : Byte) (r : List Byte), s.uartOn = true → s.tck.uart.tx = c :: r →
    ∃ t, exec .uartTxCharDone s = .next t ∧ t.tck.uart = { s.tck.uart with tx := r, sent := s.tck.uart.sent ++ [c] }) ∧
  (∀ (s : State) (v : Word), (v >>> 24).setWidth 8 = s.tck.uart.seq →
    ∃ t, exec (.uartStatusClear v) s = .next t ∧ t.tck.uart = { s.tck.uart with status := 0 }) ∧
  (∀ (s : State) (v : Int), s.tck.snsFenced = false → s.glb.mode ≠ .rest → (s.tck.temps.look Sensor.reset 0).hiTh < v →
    (s.tck.temps.look Sensor.reset 0).loTh ≤ v →
    ∃ t, exec (.sensorSample [v] []) s = .next t ∧ (t.tck.temps.look Sensor.reset 0).hi = true ∧
      (t.tck.temps.look Sensor.reset 0).valid = true ∧ (t.tck.temps.look Sensor.reset 0).value = BitVec.ofInt 16 v) ∧
  (∀ (s : State) (e : Ev), exec (.eventPost e) s = .next (s.post e)) ∧
  (∀ s : State, s.log.postq = [] → exec .logWriterMove s = .next s) ∧
  (∀ (s : State) (e : LogEntry) (r : List LogEntry), s.log.postq = e :: r → s.log.lostPend = 0 → s.log.next - s.log.flushed < 8192 →
    ∃ t, exec .logWriterMove s = .next t ∧ t.log.postq = r ∧ t.log.next = s.log.next + 1 ∧
      t.log.ring.look none (s.log.next.toNat % 8192) = some e ∧ t.log.lost = s.log.lost) ∧
  (∀ (s : State) (v : Word), s.wdogReason v = none → v >>> 16 = 0x5AC3 →
    ∃ t, exec (.watchdogKick v) s = .next t ∧ t.tck.kicked = true ∧ t.tck.expired = false ∧ t.tck.wdStart = s.now ∧
      t.tck.badKicks = s.tck.badKicks) ∧
  (∀ (s : State) (v : Word), s.wdogReason v = none → v >>> 16 ≠ 0x5AC3 →
    ∃ t, exec (.watchdogKick v) s = .next t ∧ t.tck.badKicks = s.tck.badKicks + 1 ∧ t.tck.expired = s.tck.expired ∧
      t.tck.wdStart = s.tck.wdStart) ∧
  (∀ s : State, s.tck.st = .run → s.tck.expired = false → s.deep = false → s.glb.mode ≠ .rest →
    s.tck.wdStart + s.tck.timeout.toNat * ms ≤ s.now →
    ∃ t, exec .tackWdogWarn s = .next t ∧ t.tck = { s.tck with expired := true }) ∧
  (∀ s : State, s.tck.st ≠ .run → exec .tackWdogWarn s = .next s)

/-- R395, R396: the operations on a semaphore. -/
def Obligations.Semaphores : Prop :=
  (∀ (s : State) (n : Nat) (x : BitVec 9), n < 64 → ownerOk x = true →
    ∃ t, exec (.semAcquire n x) s = .next t ∧ (∀ m, n ≠ m → t.semS m = s.semS m) ∧
      ((s.semS n).st = .free → t.semS n = { s.semS n with st := .held, owner := x, result := 0 }) ∧
      ((s.semS n).st = .held → (s.semS n).owner = x → t.semS n = { s.semS n with result := 3 }) ∧
      ((s.semS n).st = .held → (s.semS n).owner ≠ x → t.semS n = { s.semS n with result := 1 }) ∧
      ((s.semS n).st = .broken → t.semS n = { s.semS n with st := .recovering, owner := x, result := 2 }) ∧
      ((s.semS n).st = .recovering → (s.semS n).owner = x → t.semS n = { s.semS n with result := 2 }) ∧
      ((s.semS n).st = .recovering → (s.semS n).owner ≠ x → t.semS n = { s.semS n with result := 1 })) ∧
  (∀ (s : State) (n : Nat) (x : BitVec 9), n < 64 → ownerOk x = true →
    ∃ t, exec (.semRelease n x) s = .next t ∧ (∀ m, n ≠ m → t.semS m = s.semS m) ∧
      ((s.semS n).st = .held → (s.semS n).owner = x → t.semS n = { s.semS n with st := .free, owner := 0x1FF }) ∧
      ((s.semS n).st = .recovering → (s.semS n).owner = x → t.semS n = { s.semS n with st := .broken, owner := 0x1FF }) ∧
      (((s.semS n).st = .free ∨ (s.semS n).st = .broken ∨ (s.semS n).owner ≠ x) →
        t.semS n = { s.semS n with rejects := satInc (s.semS n).rejects })) ∧
  (∀ (s : State) (n : Nat) (x : BitVec 9), n < 64 → ownerOk x = true →
    ∃ t, exec (.semRecovered n x) s = .next t ∧ (∀ m, n ≠ m → t.semS m = s.semS m) ∧
      ((s.semS n).st = .recovering → (s.semS n).owner = x → t.semS n = { s.semS n with st := .held }) ∧
      (((s.semS n).st ≠ .recovering ∨ (s.semS n).owner ≠ x) → t.semS n = { s.semS n with rejects := satInc (s.semS n).rejects })) ∧
  (∀ (s : State) (n : Nat) (x : BitVec 9), n < 64 → ownerOk x = true →
    ∃ t, exec (.semBreak n x) s = .next t ∧ (∀ m, n ≠ m → t.semS m = s.semS m) ∧
      (x = 0x100 → ((s.semS n).st = .held ∨ (s.semS n).st = .recovering) →
        t.semS n = { s.semS n with
          st := .broken, prev := (s.semS n).owner, owner := 0x1FF, breaks := satInc (s.semS n).breaks, level := true }) ∧
      ((x ≠ 0x100 ∨ (s.semS n).st = .free ∨ (s.semS n).st = .broken) →
        t.semS n = { s.semS n with rejects := satInc (s.semS n).rejects })) ∧
  (∀ (s : State) (n : Nat), exec (.semStateRead n) s = .next (s.modSemS n (fun x => { x with level := false })))

/-- R371, R378 to R381, R398: the DMA engine and the Tack's restarts. -/
def Obligations.TackDma : Prop :=
  (∀ (s : State) (k : Nat), k < 8 → s.tck.dmaFenced = false → (s.dma k).enable = true → (s.dma k).st = .idle →
    (∀ j, j < 8 → k ≠ j → (s.dma j).st = .idle) →
    ∃ t, exec (.dmaChannelStart k) s = .next t ∧ t.dma k = { s.dma k with
        st := .running, wSrc := (s.dma k).src, wDst := (s.dma k).dst, remain := (s.dma k).count.setWidth 32, level := false } ∧
      (∀ j, k ≠ j → t.dma j = s.dma j)) ∧
  (∀ (s : State) (k : Nat), k < 8 → s.tck.dmaFenced = false → (s.dma k).enable = true → (s.dma k).st = .running →
    ∃ t, exec (.dmaChannelStart k) s = .next t ∧ t.dma k = { s.dma k with overrun := true } ∧ (∀ j, k ≠ j → t.dma j = s.dma j)) ∧
  (∀ (s : State) (k : Nat), s.dmaRunning = some k → (s.dma k).remain = 0 → s.dmaChained k = [] → s.glb.mode ≠ .rest →
    (∀ j, j < 8 → k ≠ j → (s.dma j).st = .idle) →
    ∃ t, exec .dmaComplete s = .next t ∧ t.dma k = { s.dma k with st := .idle, remain := 0, level := true } ∧
      (∀ j, k ≠ j → t.dma j = s.dma j) ∧ t.tck.sram = s.tck.sram) ∧
  (∀ (s : State) (k : Nat) (a : Word), k < 8 → (s.dma k).st = .running → (s.dma k).remain ≠ 0 → (s.dma k).wSrc = a →
    (s.dma k).wSrc < (s.dma k).wSrc + (s.dma k).remain →
    ∃ t, exec (.dmaBusError k a) s = .next t ∧ (t.dma k).st = .stopped ∧ (t.dma k).busErr = true ∧ (t.dma k).level = true ∧
      (t.dma k).remain = (s.dma k).remain ∧ (∀ j, j < 8 → (t.dma j).st = .stopped) ∧ t.tck.sram = s.tck.sram) ∧
  (∀ (s : State) (k : Nat), k < 8 → (s.dma k).st = .pending → (∃ j, j < 8 ∧ (s.dma j).st = .running) →
    ∃ t, exec (.dmaDisable k) s = .next t ∧ (t.dma k).st = .idle ∧ (t.dma k).enable = false ∧ (∀ j, k ≠ j → t.dma j = s.dma j)) ∧
  (∀ (s : State) (k : Nat), k < 8 → (s.dma k).st = .stopped →
    exec (.dmaEnable k) s = .next (s.modDma k (fun c =>
      if c.st = .stopped then { c with enable := true, st := .idle, busErr := false, overrun := false, level := false }
      else { c with enable := true }))) ∧
  (∀ (s : State) (k : Nat), k < 8 → (s.dma k).st = .stopped →
    ∃ t, exec (.dmaEnable k) s = .next t ∧ (t.dma k).st = .idle ∧ (t.dma k).enable = true ∧ (t.dma k).busErr = false) ∧
  (∀ (s : State) (c : Nat), s.glb.inReset = false → s.tck.st = .restarting →
    ∃ t, exec (.tackRestarted c) s = .next t ∧ t.tck.st = .run ∧ t.tck.fwSeq = s.tck.fwSeq + 1 ∧ t.tck.expired = false ∧
      t.tck.wdStart = s.now) ∧
  (∀ s : State, s.tck.st = .run → s.tck.expired = true → s.deep = false → s.tck.romFenced = false → s.tck.wdTimes = [] →
    (∀ k, k < 8 → (s.dma k).st ≠ .running) →
    s.tck.wdStart + 2 * s.tck.timeout.toNat * ms ≤ s.now →
    ∃ t, exec .watchdogSecondExpiry s = .next t ∧ t.tck.st = .restarting ∧ t.tck.wdResets = satInc s.tck.wdResets ∧ t.irc.stack = []) ∧
  (∀ s : State, s.tck.expired = false → exec .watchdogSecondExpiry s = .next s)

/-- R402, R403, R406, R411, R430: FAULT_REPORT. -/
def Obligations.FaultReports : Prop :=
  (∀ (s : State) (rs : List Report) (r : Report), s.collects = true → r ∈ rs → r.cls = .fatal → r.src < 416 → s.masked r.src = false →
    (∀ q ∈ rs, q.cls = .fatal → q.src < 416 → s.masked q.src = false → r.src ≤ q.src) →
    (∀ q ∈ rs, q.src = r.src → q.cls = .fatal) →
    ∃ t, exec (.faultReport rs) s = .next t ∧ t.glb.mode = .halt ∧ t.glb.faultOutN = false ∧ t.glb.own = false ∧
      t.flt.fatal = true ∧ t.flt.new = true ∧ t.flt.lastSrc = BitVec.ofNat 9 r.src ∧ t.flt.lastClass = 3 ∧
      t.flt.seq = s.flt.seq + 1 ∧ (t.fltSrc r.src).last = 3 ∧ (t.fltSrc r.src).reaction = 7) ∧
  (∀ (s : State) (n a : Nat), s.collects = true → n < 416 → s.masked n = false → (s.fltSrc n).ceTimes.length < 255 →
    ∃ t, exec (.faultReport [⟨n, .corrected, a⟩]) s = .next t ∧
      t.fltSrc n = { s.fltSrc n with
        last := 1, reaction := 0, ce := satInc (s.fltSrc n).ce, ceTimes := s.now :: within sec s.now (s.fltSrc n).ceTimes } ∧
      (∀ m, n ≠ m → t.fltSrc m = s.fltSrc m) ∧ t.flt.seq = s.flt.seq ∧ t.flt.new = s.flt.new ∧ frame [.flt, .log] s t) ∧
  (∀ (s : State) (n a b : Nat), s.collects = true → fencesBay n = some b → b < 4 → n < 416 → s.masked n = false → (s.bay b).fenced = false →
    ∃ t, exec (.faultReport [⟨n, .contained, a⟩]) s = .next t ∧ (t.bay b).fenced = true ∧
      (∀ c, c / 8 = b → (t.core c).fenced = true) ∧ t.blw.admitPend.isSome = true) ∧
  (∀ (s : State) (a : Nat), s.collects = true → s.masked 344 = false →
    ∃ t, exec (.faultReport [⟨344, .contained, a⟩]) s = .next t ∧ t.flt.st2110Out = true ∧ (t.fltSrc 344).fenced = true ∧
      (t.fltSrc 344).last = 2 ∧ (t.fltSrc 344).reaction = 4 ∧ t.flt.new = true ∧
      (s.glb.mode = .solo → t.flt.lastSrc = 344)) ∧
  (∀ (s : State) (rs : List Report), (∀ r ∈ rs, s.masked r.src = true) → exec (.faultReport rs) s = .next s) ∧
  (∀ (s : State) (rs : List Report), s.collects = false → exec (.faultReport rs) s = .next s)

/-- R401, R404, R405, R407, R430, R462, R463: the other commands of the fault collector. -/
def Obligations.FaultCommands : Prop :=
  (∀ (s : State) (n : Nat), s.tck.st = .run →
    ∃ t, exec (.reloadDone n) s = .next t ∧ t.fltSrc n = { s.fltSrc n with reloading := [] } ∧ (∀ m, n ≠ m → t.fltSrc m = s.fltSrc m) ∧
      frame [.flt] s t) ∧
  (∀ (s : State) (n : Nat), s.tck.st ≠ .run → exec (.reloadDone n) s = .next s) ∧
  (∀ (s : State) (n : Nat), s.collects = true → n < 416 → s.masked n = false → (s.fltSrc n).forceWire = false →
    ∃ t, exec (.wireCheck n true) s = .next t ∧ t.fltSrc n = { s.fltSrc n with wireFail := false } ∧
      (∀ m, n ≠ m → t.fltSrc m = s.fltSrc m) ∧ frame [.flt] s t) ∧
  (∀ (s : State) (n : Nat) (pass : Bool), s.collects = true → n < 416 → s.masked n = false →
    (pass = false ∨ (s.fltSrc n).forceWire = true) → (s.fltSrc n).wireFail = false →
    ∃ t, exec (.wireCheck n pass) s = .next t ∧ t.fltSrc n = { s.fltSrc n with wireFail := true } ∧
      (∀ m, n ≠ m → t.fltSrc m = s.fltSrc m) ∧ frame [.flt] s t) ∧
  (∀ (s : State) (n : Nat) (pass : Bool), s.collects = true → n < 416 → s.masked n = false →
    (pass = false ∨ (s.fltSrc n).forceWire = true) → (s.fltSrc n).wireFail = true →
    exec (.wireCheck n pass) s = exec (.wireCodeInvalid n) s) ∧
  (∀ (s : State) (n : Nat), s.collects = true → n < 416 → s.masked n = false → fatalOnly n = true →
    ∃ t, exec (.wireCodeInvalid n) s = .next t ∧ (t.fltSrc n).wire = true ∧ t.glb.mode = .halt ∧ t.flt.fatal = true ∧
      38 ∈ t.irc.latch) ∧
  (∀ s : State, s.collects = true → s.masked 344 = false →
    ∃ t, exec (.wireCodeInvalid 344) s = .next t ∧ (t.fltSrc 344).wire = true ∧ (t.fltSrc 344).fenced = true ∧ t.flt.st2110Out = true) ∧
  (∀ (s : State) (n : Nat), s.masked n = true → exec (.wireCodeInvalid n) s = .next s) ∧
  (∀ (s : State) (w : Writer) (n : Nat) (v : Word), n < 416 → s.writeReason w false (.fltSrc n) v = none → v.extractLsb' 30 2 = (0 : BitVec 2) →
    ∃ t, exec (.faultForce w n v) s = .next t ∧ t.fltSrc n = { s.fltSrc n with force := 0, forceWire := v.getLsbD 29 } ∧
      (∀ m, n ≠ m → t.fltSrc m = s.fltSrc m) ∧ frame [.flt] s t) ∧
  (∀ (s : State) (w : Writer) (n : Nat) (v : Word), n < 416 → s.writeReason w false (.fltSrc n) v = none →
    v.extractLsb' 30 2 = (1 : BitVec 2) → s.collects = true → s.masked n = false → (s.fltSrc n).force = 0 → (s.fltSrc n).ceTimes.length < 255 →
    ∃ t, exec (.faultForce w n v) s = .next t ∧ (t.fltSrc n).force = 1 ∧ (t.fltSrc n).ce = satInc (s.fltSrc n).ce ∧
      (t.fltSrc n).last = 1 ∧ frame [.flt, .log] s t) ∧
  (∀ (s : State) (n : Nat) (v : Word), n < 416 → v.extractLsb' 30 2 = (3 : BitVec 2) → s.flt.forceFatalEn = false →
    exec (.faultForce .tack n v) s = .next (s.werr .tack 1 (0x10000 + 4 * n))) ∧
  (∀ (s : State) (v : Word), v.extractLsb' 24 8 = s.flt.seq →
    exec (.fltStatClear v) s = .next (s.modFlt (fun f => { f with new := false }))) ∧
  (∀ (s : State) (v : Word), v.extractLsb' 24 8 ≠ s.flt.seq → exec (.fltStatClear v) s = .next s)

/-- R413 to R420: the link. -/
def Obligations.GirthLink : Prop :=
  (∀ s : State, s.linksUp = true → s.glb.mode ≠ .rest → s.grt.fenced = false → s.grt.link ≠ .up → s.grt.link ≠ .ident →
    ∃ t, exec .girthLinkTrained s = .next t ∧ t.grt.link = .ident ∧ t.grt.txSeq = 0 ∧ t.grt.rxSeq = 0 ∧ t.grt.unacked = [] ∧
      t.grt.sendq.length = 1 ∧ t.grt.nonce = s.grt.nonce + 1 ∧ 205 ∈ t.irc.latch ∧ frame [.irc, .grt] s t) ∧
  (∀ (s : State) (a : Nat), s.grt.link = .refused → s.linksUp = true → s.grt.fenced = false → s.grt.hbIn = some a → a + sec ≤ s.now →
    ∃ t, exec .identRetry s = .next t ∧ t.grt.link = .ident ∧ t.grt.nonce = s.grt.nonce + 1 ∧ frame [.irc, .grt] s t) ∧
  (∀ s : State, s.grt.link ≠ .refused → exec .identRetry s = .next s) ∧
  (∀ s : State, s.linksUp = true →
    ∃ t, exec .heartbeatTick s = .next t ∧ t.grt.hbOut = s.grt.hbOut + 1 ∧ t.glb.lastHb = some s.now ∧ t.glb.own = s.glb.ownMode ∧
      (s.carries = true → t.grt.sendq = [] ∧ t.grt.txSeq = s.grt.txSeq + BitVec.ofNat 32 s.grt.sendq.length ∧
        t.grt.unacked.length = s.grt.unacked.length + s.grt.sendq.length ∧ s.grt.unacked <+: t.grt.unacked) ∧
      (s.carries = false → t.grt.sendq = s.grt.sendq ∧ t.grt.unacked = s.grt.unacked) ∧ frame [.glb, .grt] s t) ∧
  (∀ s : State, s.hbFresh = false → exec .ownHeartbeatTimeout s = .next (s.modGlb (fun g => { g with own := false }))) ∧
  (∀ s : State, s.hbFresh = true → exec .ownHeartbeatTimeout s = .next s) ∧
  (∀ (s : State) (h : GHdr), s.carries = true → h.crcOk = true → h.known = true →
    ∃ t, exec (.ack h) s = .next t ∧ (∀ f ∈ t.grt.unacked, f ∈ s.grt.unacked ∧ 2147483648 ≤ (h.ack - f.seq - 1).toNat) ∧
      (∀ f ∈ s.grt.unacked, 2147483648 ≤ (h.ack - f.seq - 1).toNat → f ∈ t.grt.unacked) ∧ t.grt.hbIn = some s.now ∧ frame [.grt] s t) ∧
  (∀ (s : State) (h : GHdr), (h.crcOk = false ∨ s.carries = false) → exec (.ack h) s = .next s) ∧
  (∀ (s : State) (h : GHdr), s.carries = true → h.crcOk = true → h.known = false →
    exec (.ack h) s = .next (s.modGrt (fun g => { g with bad := satInc g.bad }))) ∧
  (∀ (s : State) (f : GFrame) (r : List GFrame), s.carries = true → s.grt.unacked = f :: r → f.at_ + 20000 ≤ s.now → s.grt.tries < 7 →
    ∃ t, exec .girthRetransmit s = .next t ∧ t.grt.retrans = satInc s.grt.retrans ∧ t.grt.tries = s.grt.tries + 1 ∧
      t.grt.unacked.map (·.seq) = s.grt.unacked.map (·.seq) ∧ t.grt.link = s.grt.link ∧ frame [.grt] s t) ∧
  (∀ (s : State) (f : GFrame) (r : List GFrame), s.carries = true → s.grt.unacked = f :: r → f.at_ + 20000 ≤ s.now → s.grt.tries = 7 →
    ∃ t, exec .girthRetransmit s = .next t ∧ t.grt.link = .lost ∧ t.grt.retrans = satInc s.grt.retrans ∧ t.grt.unacked = []) ∧
  (∀ s : State, s.grt.sendq.all (fun f => !f.delta || decide (s.now ≤ f.at_ + 10 * ms)) = true → exec .deltaDrop s = .next s) ∧
  (∀ (s : State) (f : GFrame) (r : List GFrame), s.grt.sendq = f :: r → f.delta = true → f.at_ + 10 * ms < s.now →
    r.all (fun f => !f.delta || decide (s.now ≤ f.at_ + 10 * ms)) = true →
    exec .deltaDrop s = .next (s.modGrt (fun g => { g with sendq := r, deltaDrop := satInc g.deltaDrop }))) ∧
  (∀ (s : State) (a : Nat), s.carries = true → s.grt.hbIn = some a → a + 250000 ≤ s.now →
    ∃ t, exec .girthSilence s = .next t ∧ t.grt.link = .lost ∧ t.grt.configSync = false) ∧
  (∀ (s : State) (a : Nat), s.grt.hbIn = some a → s.now < a + 250000 → exec .girthSilence s = .next s) ∧
  (∀ s : State, s.linksUp = true → s.grt.link ≠ .down → ∃ t, exec .girthLockLoss s = .next t ∧ t.grt.link = .lost) ∧
  (∀ (s : State) (h : GHdr) (i : IdentInfo), s.hears h → s.grt.link = .ident → i.side ≠ s.glb.side →
    ∃ t, exec (.ident h (.hello i)) s = .next t ∧ t.grt.peerId = some i ∧ t.grt.link = .ident ∧ t.grt.rxSeq = s.grt.rxSeq + 1 ∧
      t.grt.sendq.length = s.grt.sendq.length + 1 ∧ frame [.grt] s t) ∧
  (∀ (s : State) (h : GHdr) (i : IdentInfo), s.hears h → s.grt.link = .ident → i.side = s.glb.side →
    ∃ t, exec (.ident h (.hello i)) s = .next t ∧ t.grt.link = .refused ∧ t.grt.authOk = false ∧ frame [.irc, .log, .grt] s t) ∧
  (∀ (s : State) (h : GHdr) (i : IdentInfo) (sig : List Byte), s.hears h → s.grt.link = .ident → s.grt.peerId = some i →
    (if Config.ecdsaVerify i.key (identMessage (Config.nonce s.grt.nonce) (Config.sha256 i.key) i.side) sig then
      ∃ t, exec (.ident h (.proof sig)) s = .next t ∧ t.grt.link = .up ∧ t.grt.authOk = true ∧
        t.grt.peerDigest = some (Config.sha256 i.key) ∧ t.grt.peerRole = i.role
    else ∃ t, exec (.ident h (.proof sig)) s = .next t ∧ t.grt.link = .refused ∧ t.grt.peerId = none ∧ frame [.irc, .log, .grt] s t))

/-- R416, R426 to R428: frames. -/
def Obligations.GirthFrames : Prop :=
  (∀ (s : State) (h : GHdr) (c : Instr), Sequenced h c → (h.crcOk = false ∨ s.carries = false) → exec c s = .next s) ∧
  (∀ (s : State) (h : GHdr) (c : Instr), Sequenced h c → s.carries = true → h.crcOk = true → h.known = false →
    exec c s = .next (s.modGrt (fun g => { g with bad := satInc g.bad }))) ∧
  (∀ (s : State) (h : GHdr) (c : Instr), Sequenced h c → s.carries = true → h.crcOk = true → h.known = true → h.seq ≠ s.grt.rxSeq →
    exec c s = .next (s.modGrt (fun g => { g.acked h.ack with hbIn := some s.now }))) ∧
  (∀ (s : State) (h : GHdr) (m : List Timing) (i k : Nat), s.hears h → s.grt.link = .up → s.follows = true →
    (s.encS i).cfg.enabled = true → (s.encS i).cfg.input = some k → Tbl.risesFrom s.enc 0 = true →
    ∃ t, exec (.timing h m) s = .next t ∧ t.encS i = { s.encS i with timing := (s.encS i).timing ++ m.filter (fun x => x.raster == k) } ∧
      frame [.enc, .grt] s t) ∧
  (∀ (s : State) (h : GHdr) (i : Nat) (m : EncAdopt), s.hears h → s.grt.link = .up → s.follows = true →
    exec (.encState h i m) s = .next ((s.afterFrame h).modEncS i (fun e => { e with encState := some m }))) ∧
  (∀ (s : State) (h : GHdr) (i : Nat) (m : PicCrc), s.hears h → s.grt.link = .up → (s.encS i).ownCrc = [] → (s.encS i).crcAt = [] →
    ∃ t, exec (.picCrc h i m) s = .next t ∧
      t.encS i = { s.encS i with peerCrc := (s.encS i).peerCrc ++ [m], crcAt := [(m.picCount, s.now)] } ∧ frame [.enc, .grt] s t) ∧
  (∀ (s : State) (h : GHdr) (i : Nat) (m a : PicCrc), s.hears h → s.grt.link = .up → (s.encS i).ownCrc = [a] → (s.encS i).peerCrc = [] →
    a.picCount = m.picCount → a ≠ m → s.glb.role ≠ .lead →
    ∃ t, exec (.picCrc h i m) s = .next t ∧ (t.encS i).det = false ∧ (t.encS i).detOk = false ∧ (t.encS i).match4 = 0 ∧ (t.encS i).ownCrc = [] ∧
      (t.encS i).peerCrc = [] ∧ 207 ∈ t.irc.latch) ∧
  (∀ (s : State) (i u : Nat) (c : BitVec 32) (a : PicCrc), (s.encS i).ownCrc = [a] → (s.encS i).peerCrc = [] → a.picCount = c →
    (c, u) ∈ (s.encS i).crcAt → u + 4 * (s.raster (s.encS i).cfg.raster).period ≤ s.now →
    ∃ t, exec (.picCrcTimeout i c) s = .next t ∧ (t.encS i).ownCrc = [] ∧ (t.encS i).missing8 = (s.encS i).missing8 + 1 ∧
      (t.encS i).detOk = ((s.encS i).detOk && decide ((s.encS i).missing8 + 1 < 8)) ∧ frame [.enc] s t) ∧
  (∀ (s : State) (i : Nat) (c : BitVec 32), (s.encS i).ownCrc = [] → (s.encS i).peerCrc = [] → exec (.picCrcTimeout i c) s = .next s) ∧
  (∀ (s : State) (h : GHdr) (k f : Nat) (x : BitVec 32), s.hears h → s.grt.link = .up → s.follows = true →
    exec (.port h (.st2110 k f x)) s = .next ((s.afterFrame h).modOutP k (fun p => { p with peerSeq := some (f, x) }))) ∧
  (∀ (s : State) (h : GHdr) (n : Nat) (r : BitVec 4) (l : BitVec 3) (v : Word), s.hears h → s.grt.link = .up → s.follows = true →
    (s.outP n).gated = true → (s.dpo n).fenced = false →
    ∃ t, exec (.port h (.dp n r l v)) s = .next t ∧ t.dpo n = { s.dpo n with linkRate := r, lanes := l, drive := v } ∧ frame [.out, .grt] s t) ∧
  (∀ (s : State) (h : GHdr) (p : SrcPath) (ws : List Word), s.hears h → s.grt.link = .up → s.follows = true →
    exec (.command h p ws) s = .next (match (decodeEntry (srcLetter p) ws).2 with
      | some c => (s.afterFrame h).doMirrored p c
      | none => s.afterFrame h)) ∧
  (∀ (s : State) (h : GHdr) (c : Instr), Sequenced h c → s.hears h → s.grt.link = .up → s.follows = false →
    (∀ i m, c ≠ .picCrc h i m) → (∀ m, c ≠ .sem h m) → (∀ b, c ≠ .handover h b) → exec c s = .next (s.afterFrame h)) ∧
  (∀ (s : State) (h : GHdr) (i : Nat) (a : T48) (g : Nat), s.hears h → s.grt.link = .up → s.follows = true →
    exec (.txn h (.restart i a g)) s = .next ((s.afterFrame h).modEncS i (fun e => { e with restarts := e.restarts ++ [(a, g)] }))) ∧
  (∀ (s : State) (h : GHdr) (k : Nat) (ws : List (Nat × Word)) (sc : Option Nat) (pos : LinePos), s.hears h → s.grt.link = .up →
    s.follows = true → s.grt.snapshot ≠ [] →
    ∃ t, exec (.txn h (.commit k ws sc pos)) s = .next t ∧ t.grt.mirrored = s.grt.mirrored ++ [⟨k, ws, sc, pos⟩] ∧ frame [.grt] s t) ∧
  (∀ (s : State) (h : GHdr) (n : Nat) (v : BitVec 2), s.hears h → s.grt.link = .up →
    exec (.sem h (.op n v)) s = .next ((s.afterFrame h).semOp n 0x10A (v.setWidth 32))) ∧
  (∀ (s : State) (h : GHdr) (n : Nat), s.hears h → s.grt.link = .up →
    ∃ t, exec (.sem h (.acquire n)) s = .next t ∧ t.semS n = (s.semS n).acquire 0x10A ∧
      t.grt.sendq = s.grt.sendq ++ [⟨0, .sem (.reply n (t.semS n).result), s.now⟩] ∧ frame [.sem, .grt] s t) ∧
  (∀ (s : State) (h : GHdr) (m : List (Nat × Word)) (last : Bool), s.hears h → s.grt.link = .up → s.follows = true →
    s.grt.imageMatch = true →
    ∃ t, exec (.snapshot h m last) s = .next t ∧ t.grt.snapshot = s.grt.snapshot ++ m ∧ t.grt.configSync = false ∧
      (last = true → t.grt.snapEnd = some s.now) ∧ frame [.grt] s t) ∧
  (∀ (s : State) (h : GHdr) (m : List TileDelta), s.hears h → s.grt.link = .up → s.follows = true →
    ∃ t, exec (.tileDelta h m) s = .next t ∧ (∀ i k, t.tile i k = s.tile i k) ∧
      ((∀ x ∈ m, s.deltaDiffers x = false) → t = s.afterFrame h) ∧ frame [.irc, .log, .grt] s t) ∧
  (∀ (s : State) (h : GHdr) (i : Nat) (x : T48) (a : Bool) (raw : RawPicture), s.hears h → s.grt.link = .up → s.follows = true →
    (s.encS i).cfg.enabled = true → (s.encS i).cfg.input = none → (s.encS i).posted.length < 4 →
    ∃ t, exec (.hostData h (.picture i x a raw)) s = .next t ∧
      (t.encS i).posted = (s.encS i).posted ++ [⟨x, a, true, none, s.postDeadline (s.encS i).cfg s.time, raw⟩] ∧ frame [.enc, .grt] s t) ∧
  (∀ (s : State) (h : GHdr) (i : Nat) (n : List Byte) (e : Bool), s.hears h → s.grt.link = .up → s.follows = true →
    exec (.hostData h (.data i n e)) s = .next (if (s.decS i).cfg.enabled && (s.decS i).cfg.hostFed then
      (s.afterFrame h).appendNals i [n] e s.time48 else s.afterFrame h))

/-- R419, R421, R422, R425: the twin. -/
def Obligations.TwinWatch : Prop :=
  (∀ (s : State) (h : GHdr) (m : HeartbeatMsg), s.carries = true → h.crcOk = true → h.known = true → s.grt.link = .up → s.glb.mode = .shadow →
    s.glb.role = .shadow → s.glb.demoting = false → s.grt.handover = none → hbDown m = false →
    ∃ t, exec (.heartbeat h m) s = .next t ∧ t.grt.hbSeq = m.hbSeq.setWidth 16 ∧ t.grt.peerMode = m.mode ∧ t.grt.peerRole = m.role ∧
      t.grt.peerTxSeq = m.txSeq ∧ t.grt.hbIn = some s.now ∧ t.glb.mode = .shadow ∧ t.enc = s.enc ∧ t.out = s.out) ∧
  (∀ (s : State) (h : GHdr) (m : HeartbeatMsg), (h.crcOk = false ∨ s.carries = false) → exec (.heartbeat h m) s = .next s) ∧
  (∀ (s : State) (h : GHdr) (b : Bool), s.hears h → s.grt.link = .up → s.guards = true →
    ∃ t, exec (.handover h b) s = .next t ∧ t.grt.handover = some b ∧ t.grt.rxSeq = s.grt.rxSeq + 1 ∧ frame [.grt] s t) ∧
  (∀ (s : State) (h : GHdr) (b : Bool), s.hears h → s.grt.link = .up → s.guards = false →
    exec (.handover h b) s = .next (s.afterFrame h)) ∧
  (∀ (s : State) (h : GHdr) (m : HeartbeatMsg) (b : Bool), s.carries = true → h.crcOk = true → h.known = true → s.grt.link = .up → s.guards = true →
    s.grt.handover = some b → hbDown m = false →
    ∃ t, exec (.heartbeat h m) s = .next t ∧ t.glb.mode = .takeover ∧ t.glb.role = .shadow ∧ t.grt.handover = none ∧
      t.blw.admitPend.isSome = true) ∧
  (∀ s : State, s.running = true → s.guards = true →
    ∃ t, exec (.peerFaultEdge true) s = .next t ∧ t.glb.mode = .takeover ∧ t.grt.peerFault = true ∧ t.blw.admitPend.isSome = true ∧
      (∀ k, k ∈ s.outputs → (s.outP k).gated = true → (t.outP k).pendGate = some false)) ∧
  (∀ s : State, exec (.peerFaultEdge false) s = .next (s.modGrt (fun g => { g with peerFault := false }))) ∧
  (∀ s : State, s.running = true → s.glb.mode = .lead → s.glb.role = .lead →
    ∃ t, exec (.peerFaultEdge true) s = .next t ∧ t.glb = s.glb ∧ t.grt.peerFault = true) ∧
  (∀ s : State, s.running = true → s.guards = true → s.grt.link = .lost →
    ∃ t, exec (.peerOwnEdge false) s = .next t ∧ t.glb.mode = .takeover ∧ t.grt.peerOwn = false ∧ t.blw.admitPend.isSome = true) ∧
  (∀ s : State, exec (.peerOwnEdge true) s = .next (s.modGrt (fun g => { g with peerOwn := true }))) ∧
  (∀ s : State, s.grt.link ≠ .lost → exec (.peerOwnEdge false) s = .next (s.modGrt (fun g => { g with peerOwn := false })))

/-- R438 to R440, R446, R449, R450: regulators and points. -/
def Obligations.PowerPoints : Prop :=
  (∀ (s : State) (r : Nat) (v : Option RailRead), s.railReach r = false → exec (.pmbusPoll r v) s = .next s) ∧
  (∀ (s : State) (r : Nat), s.railReach r = true → exec (.pmbusPoll r none) s = .next (s.modPRail r (fun x => { x with err := true }))) ∧
  (∀ (s : State) (r : Nat) (v : RailRead), s.railReach r = true → v.linear16 = true →
    ∃ t, exec (.pmbusPoll r (some v)) s = .next t ∧ (t.pRail r).vread = v.vout ∧ (t.pRail r).iread = v.iout ∧ (t.pRail r).treg = v.temp ∧
      (t.pRail r).status = v.status ∧ (t.pRail r).err = false ∧ (t.pRail r).updSeq = (s.pRail r).updSeq + 1 ∧
      (t.pRail r).vset = (s.pRail r).vset ∧ (∀ q, r ≠ q → t.pRail q = s.pRail q) ∧ frame [.tck, .log] s t) ∧
  (∀ (s : State) (r : Nat) (mv : BitVec 16), s.railReach r = true → (s.pRail r).notLinear = false → s.mayWrite r mv = true →
    ∃ t, exec (.pmbusSetPoint r mv true) s = .next t ∧ (t.pRail r).wanted = some mv ∧ (t.pRail r).wantAt = s.now ∧
      (t.pRail r).written = true ∧ (t.pRail r).vset = (s.pRail r).vset ∧ (∀ q, r ≠ q → t.pRail q = s.pRail q) ∧ frame [.tck] s t) ∧
  (∀ (s : State) (r : Nat) (mv : BitVec 16) (ack : Bool), s.mayWrite r mv = false → exec (.pmbusSetPoint r mv ack) s = .next s) ∧
  (∀ (s : State) (r : Nat) (mv : BitVec 16), s.railReach r = true → (s.pRail r).notLinear = false → s.mayWrite r mv = true →
    (s.pRail r).wanted = some mv → (s.pRail r).tries = 2 →
    ∃ t, exec (.pmbusSetPoint r mv false) s = .next t ∧ (t.pRail r).wanted = none ∧ (t.pRail r).err = true ∧
      (t.pRail r).vset = (s.pRail r).vset ∧ frame [.blw, .irc, .tck, .log] s t) ∧
  (∀ (s : State) (r : Nat) (mv w : BitVec 16), s.railReach r = true → (s.pRail r).wanted = some w → (s.pRail r).written = true →
    (s.pRail r).wantAt + 200000 ≤ s.now → ((w.toNat : Int) - mv.toNat).natAbs ≤ 10 →
    ∃ t, exec (.pmbusConfirm r mv) s = .next t ∧ (t.pRail r).vset = w ∧ (t.pRail r).wanted = none ∧ (t.pRail r).err = false ∧
      (r < 4 → (t.bay r).vset = w) ∧ (∀ b, r ≠ b → t.bay b = s.bay b)) ∧
  (∀ (s : State) (r : Nat) (mv : BitVec 16), (s.pRail r).wanted = none → exec (.pmbusConfirm r mv) s = .next s) ∧
  (∀ (s : State) (r : Nat) (mv : BitVec 16), s.now < (s.pRail r).wantAt + 200000 → exec (.pmbusConfirm r mv) s = .next s) ∧
  (∀ (s : State) (b : Nat) (p : BitVec 2), (s.bay b).changing = some p → (s.bay b).fenced = false →
    ∃ t, exec (.bayClockChange b) s = .next t ∧ (t.bay b).point = p ∧ (t.bay b).freq = pointMhz p ∧ 44 + b ∈ t.irc.latch ∧
      (∀ d, b ≠ d → t.bay d = s.bay d)) ∧
  (∀ (s : State) (b : Nat), (s.bay b).changing = none → exec (.bayClockChange b) s = .next s) ∧
  (∀ (s : State) (b : Nat) (cool : Int), b < 4 → s.running = true → s.glb.pllLock = true → s.coolest = some cool →
    (s.bay b).fenced = false → cool + 240 < (s.bay b).temp.toInt → (s.bay b).temp.toInt ≤ 8 * (s.blw.tjThrottle : Int) →
    (s.bay b).point ≠ 3 → (s.bay b).changing = none →
    ∃ t, exec .thermalCheck s = .next t ∧ (t.bay b).changing = some ((s.bay b).point + 1) ∧ (t.bay b).throttled = true ∧
      (t.bay b).cause = 1 ∧ (t.bay b).steps = satInc (s.bay b).steps ∧ (t.bay b).point = (s.bay b).point) ∧
  (∀ (s : State) (b : Nat), b < 4 → s.running = true → s.glb.pllLock = true → s.coolest.isSome = true → (s.bay b).fenced = true →
    ∃ t, exec .thermalCheck s = .next t ∧ t.bay b = s.bay b) ∧
  (∀ (s : State) (b a : Nat), (s.bay b).clearSince = some a → (s.bay b).throttled = true → (s.bay b).fenced = false →
    (s.bay b).changing = none → a + 100 * ms ≤ s.now → (s.bay b).pointMax < (s.bay b).point → (s.bay b).covers ((s.bay b).point - 1) = true →
    exec (.throttleStepUp b) s = .next (s.modBay b (fun x => { x with changing := some (x.point - 1), clearSince := some s.now }))) ∧
  (∀ (s : State) (b : Nat), (s.bay b).clearSince = none → exec (.throttleStepUp b) s = .next s)

/-- R377, R436, R443, R444, R447: trips and losses. -/
def Obligations.PowerLosses : Prop :=
  (∀ (s : State) (r : Nat), r < 4 → s.collects = true → s.masked (409 + r) = false →
    ∃ t, exec (.supplyComparatorTrip r) s = .next t ∧ (t.bay r).fenced = true) ∧
  (∀ (s : State) (r : Nat), 4 ≤ r → r < 12 → s.collects = true → s.masked 408 = false →
    ∃ t, exec (.supplyComparatorTrip r) s = .next t ∧ t.glb.mode = .halt ∧ t.flt.lastSrc = 408 ∧ t.flt.fatal = true) ∧
  (∀ (s : State) (r : Nat), 12 ≤ r → r < 14 →
    exec (.supplyComparatorTrip r) s = .next (s.modFsh (fun f => { f with lastWarn := some s.now }))) ∧
  (∀ s : State, s.collects = true → s.masked 413 = false →
    ∃ t, exec .thermalTrip s = .next t ∧ t.glb.mode = .halt ∧ t.glb.thermTripN = false ∧ t.glb.faultOutN = false ∧ t.flt.lastSrc = 413) ∧
  (∀ s : State, s.collects = true → s.masked 398 = false →
    ∃ t, exec .sysClkLoss s = .next t ∧ t.glb.mode = .halt ∧ t.flt.lastSrc = 398 ∧ t.flt.lastClass = 3) ∧
  (∀ (s : State) (p : Sys2Proof.Pll) (n : Nat), pllReport p = (.fatal, n) → s.glb.pllLock = true → s.collects = true → s.masked n = false →
    ∃ t, exec (.pllLockLoss p) s = .next t ∧ t.glb.mode = .halt ∧ t.flt.lastSrc = BitVec.ofNat 9 n) ∧
  (∀ (s : State) (b : Nat), b < 4 → s.glb.pllLock = true → s.collects = true → s.masked (399 + b) = false →
    ∃ t, exec (.pllLockLoss (.bay b)) s = .next t ∧ (t.bay b).fenced = true) ∧
  (∀ s : State, s.glb.pllLock = true → s.collects = true → s.masked 404 = false →
    ∃ t, exec (.pllLockLoss .ethernet) s = .next t ∧ (∀ p, p < 4 → (t.eth p).fenced = true ∧ (t.eth p).link = false) ∧
      (t.fltSrc 404).fenced = true) ∧
  (∀ (s : State) (p : Sys2Proof.Pll), s.glb.pllLock = false → exec (.pllLockLoss p) s = .next s) ∧
  (∀ (s : State) (n : Nat) (e : Bool), s.running = true → s.hq.up = true →
    ∃ t, exec (.pcieLinkChange n e) s = .next t ∧ t.hq = { s.hq with linkSt := n, pciAer := s.hq.pciAer || e } ∧ 201 ∈ t.irc.latch ∧
      frame [.hq, .irc] s t) ∧
  (∀ (s : State) (n : Nat) (e : Bool), s.hq.up = false → exec (.pcieLinkChange n e) s = .next s)

/-- R457, R458, R462, R463, R466, R467, R478: direct writes. -/
def Obligations.RegisterWrites : Prop :=
  (∀ (s : State) (w : Writer) (a : Nat) (v : Word), s.glb.inReset = false →
    exec (.registerWrite w a v false) s = .next (s.werr w 6 a)) ∧
  (∀ (s : State) (w : Writer) (a : Nat) (v : Word), s.glb.inReset = false → regAt a = none →
    exec (.registerWrite w a v true) s = .next (s.werr w 7 a)) ∧
  (∀ (s : State) (w : Writer) (a : Nat) (v : Word) (r : Reg), s.glb.inReset = false → regAt a = some r → (∀ x j : Nat, r ≠ .txn x j) →
    r.rw = false → exec (.registerWrite w a v true) s = .next s) ∧
  (∀ (s : State) (w : Writer) (a : Nat) (v : Word) (r : Reg) (k : BitVec 4), s.glb.inReset = false → regAt a = some r →
    (∀ x j : Nat, r ≠ .txn x j) → (∀ x j : Nat, r ≠ .lineEvent x j) → r.rw = true → s.writeReason w false r v = some k →
    exec (.registerWrite w a v true) s = .next (s.werr w k a)) ∧
  (∀ (s : State) (w : Writer) (k : BitVec 4) (a : Nat),
    (s.werr w k a).glb.werrCount = satInc s.glb.werrCount ∧ frame [.glb] s (s.werr w k a) ∧
      (s.glb.werrReason = 0 → (s.werr w k a).glb = { s.glb with
        werrCount := satInc s.glb.werrCount, werrReason := k, werrWriter := w.code, werrAddr := BitVec.ofNat 26 a
        werrSeq := s.glb.werrSeq + 1 }) ∧
      (s.glb.werrReason ≠ 0 → (s.werr w k a).glb = { s.glb with werrCount := satInc s.glb.werrCount })) ∧
  (∀ (s : State) (w : Writer) (a : Nat) (v : Word) (r : Reg), r.platform = true → (∀ x j : Nat, r ≠ .txn x j) →
    s.writeReason w false r v = some 3) ∧
  (∀ (s : State) (r : Reg) (v : Word), s.txnOnly r v = true → r.platform = false → s.stateBad r = false → (∀ x j : Nat, r ≠ .txn x j) →
    s.writeReason .tack false r v = some 2) ∧
  (∀ (s : State) (a n : Nat) (v : Word), s.glb.inReset = false → regAt a = some (.txn n 2) → (s.trans n).st = .opened →
    (s.trans n).opener = .tack →
    exec (.registerWrite .tack a v true) s = .next (s.modTrans n (fun x => { x with frame := v }))) ∧
  (∀ (s : State) (a n : Nat) (v : Word), s.glb.inReset = false → regAt a = some (.txn n 2) → (s.trans n).st ≠ .opened →
    exec (.registerWrite .tack a v true) s = .next (s.werr .tack 8 (0x1000 + 0x40 * n + 8))) ∧
  (∀ (s : State) (w : Writer) (a : Nat) (v : Word) (b : Bool), s.glb.inReset = true → exec (.registerWrite w a v b) s = .next s) ∧
  (∀ (s : State) (v : Word), v.extractLsb' 24 8 = s.glb.werrSeq →
    exec (.glbWerrClear v) s = .next (s.modGlb (fun g => { g with werrReason := 0, werrWriter := 0, werrAddr := 0 }))) ∧
  (∀ (s : State) (v : Word), v.extractLsb' 24 8 ≠ s.glb.werrSeq → exec (.glbWerrClear v) s = .next s)

/-- R468 to R475: transactions. -/
def Obligations.Transactions : Prop :=
  (∀ (s : State) (w : Writer) (n : Nat), n < 4 → (s.trans n).st = .free → s.shadowed = false →
    ∃ t, exec (.txnOpBegin w n) s = .next t ∧ (t.trans n).st = .opened ∧ (t.trans n).opener = writerOpener w ∧ (t.trans n).writes = [] ∧
      (t.trans n).scope = none ∧ (t.trans n).failed = false ∧ (t.trans n).conflict = false ∧ (t.trans n).openedAt = s.now ∧
      (∀ m, n ≠ m → t.trans m = s.trans m) ∧ frame [.txn] s t) ∧
  (∀ (s : State) (w : Writer) (n : Nat), n < 4 → (s.trans n).st ≠ .free → exec (.txnOpBegin w n) s = .next (s.werr w 8 (0x1000 + 0x40 * n))) ∧
  (∀ (s : State) (w : Writer) (n : Nat) (v : Word), n < 4 → (s.trans n).st = .opened → (s.trans n).opener = writerOpener w →
    s.bufferReason w n ((s.trans n).waddr.toNat * 4) v = none →
    ∃ t, exec (.txnWdata w n v) s = .next t ∧ (t.trans n).waddr = (s.trans n).waddr + 1 ∧
      (t.trans n).writes = bufferWrite (s.trans n).writes ((s.trans n).waddr.toNat * 4) v ∧ (t.trans n).failed = (s.trans n).failed ∧
      (∀ m, n ≠ m → t.trans m = s.trans m) ∧ frame [.txn] s t) ∧
  (∀ (s : State) (w : Writer) (n : Nat) (v : Word) (k : BitVec 4), n < 4 → (s.trans n).st = .opened → (s.trans n).opener = writerOpener w →
    s.bufferReason w n ((s.trans n).waddr.toNat * 4) v = some k →
    ∃ t, exec (.txnWdata w n v) s = .next t ∧ (t.trans n).waddr = (s.trans n).waddr + 1 ∧ (t.trans n).writes = (s.trans n).writes ∧
      (t.trans n).failed = true ∧ t.glb = (s.werr w k ((s.trans n).waddr.toNat * 4)).glb ∧ frame [.txn, .glb] s t) ∧
  (∀ (ws : List (Nat × Word)) (a : Nat) (v : Word), (a, v) ∈ bufferWrite ws a v ∧
    (∀ p ∈ bufferWrite ws a v, p.1 = a → p.2 = v) ∧ (∀ p ∈ ws, p.1 ≠ a → p ∈ bufferWrite ws a v) ∧
    (∀ p ∈ bufferWrite ws a v, p.1 ≠ a → p ∈ ws)) ∧
  (∀ (s : State) (w : Writer) (n : Nat), n < 4 → (s.trans n).st = .opened → (s.trans n).opener = writerOpener w →
    (s.trans n).raster = 0x1F → (s.trans n).failed = true → s.glb.role ≠ .lead →
    ∃ t, exec (.txnOpCommit w n) s = .next t ∧ (t.trans n).st = .free ∧ (t.trans n).outcome = .failedWrite ∧ (t.trans n).writes = [] ∧
      t.txn.seq = s.txn.seq ∧ 33 + n ∈ t.irc.latch) ∧
  (∀ (s : State) (w : Writer) (n : Nat), n < 4 → (s.trans n).st = .opened → (s.trans n).opener = writerOpener w →
    (s.trans n).raster = 0x1F → (s.trans n).failed = false → (s.trans n).conflict = false → (s.trans n).writes = [] → s.glb.role ≠ .lead →
    ∃ t, exec (.txnOpCommit w n) s = .next t ∧ (t.trans n).st = .free ∧ (t.trans n).outcome = .committed ∧
      t.txn.seq = s.txn.seq + 1 ∧ 33 + n ∈ t.irc.latch) ∧
  (∀ (s : State) (n r x : Nat) (v : Word), n < 4 → (s.trans n).st = .opened → (s.trans n).opener = .tack → (s.trans n).raster = 0x1F →
    (s.trans n).failed = false → (s.trans n).conflict = false → s.glb.role ≠ .lead → regAt x = some (.rail r 0) →
    (s.trans n).writes = [(x, v)] → v.extractLsb' 8 8 ≠ (0 : BitVec 8) →
    ∃ t, exec (.txnOpCommit .tack n) s = .next t ∧ (t.trans n).st = .free ∧ (t.trans n).outcome = .committed ∧
      t.rail r = { s.rail r with limit := v.extractLsb' 16 16, ramp := v.extractLsb' 8 8, burst := v.extractLsb' 0 8 } ∧
      (∀ q, r ≠ q → t.rail q = s.rail q) ∧ t.txn.seq = s.txn.seq + 1 ∧ 33 + n ∈ t.irc.latch) ∧
  (∀ (s : State) (w : Writer) (n : Nat), n < 4 → ((s.trans n).st ≠ .opened ∨ (s.trans n).opener ≠ writerOpener w) →
    exec (.txnOpCommit w n) s = .next (s.werr w 8 (0x1000 + 0x40 * n))) ∧
  (∀ (s : State) (w : Writer) (n : Nat), n < 4 → (s.trans n).st ≠ .free → (s.trans n).opener = writerOpener w →
    ∃ t, exec (.txnOpAbort w n) s = .next t ∧ (t.trans n).st = .free ∧ (t.trans n).writes = [] ∧ (t.trans n).outcome = .aborted ∧
      t.txn.seq = s.txn.seq ∧ (∀ m, n ≠ m → t.trans m = s.trans m)) ∧
  (∀ (s : State) (w : Writer) (n : Nat), n < 4 → ((s.trans n).st = .free ∨ (s.trans n).opener ≠ writerOpener w) →
    exec (.txnOpAbort w n) s = .next (s.werr w 8 (0x1000 + 0x40 * n))) ∧
  (∀ (s : State) (n : Nat), (s.trans n).st = .opened → (s.trans n).openedAt + s.txn.timeout * sec < s.now →
    ∃ t, exec (.txnTimeout n) s = .next t ∧ (t.trans n).st = .free ∧ (t.trans n).outcome = .timeout ∧ (t.trans n).writes = [] ∧
      33 + n ∈ t.irc.latch) ∧
  (∀ (s : State) (n : Nat), s.now ≤ (s.trans n).openedAt + s.txn.timeout * sec → exec (.txnTimeout n) s = .next s)

/-- R198: SHL is AOP 0x0A, SHR 0x0B, SAR 0x0C and SHLS 0x0D. -/
def Obligations.ShiftCounts : Prop :=
  ∀ (a b imm : Word) (n : Nat), n = b.toNat % 256 →
    (n = 0 → ∀ op ∈ [0x0A, 0x0B, 0x0C, 0x0D], alu op a b imm = some (.plain a)) ∧
    (32 ≤ n → alu 0x0A a b imm = some (.plain 0) ∧ alu 0x0B a b imm = some (.plain 0) ∧
      alu 0x0C a b imm = some (.plain (if a.msb then BitVec.allOnes 32 else 0)) ∧
      (a = 0 → alu 0x0D a b imm = some (.plain 0)) ∧
      (a ≠ 0 → alu 0x0D a b imm =
        some ⟨if a.msb then 0x80000000 else 0x7FFFFFFF, true, false, false, true, false⟩)) ∧
    (1 ≤ n → n ≤ 31 → alu 0x0A a b imm = some (.plain (a <<< n)) ∧ alu 0x0B a b imm = some (.plain (a >>> n)) ∧
      alu 0x0C a b imm = some (.plain (a.sshiftRight n)) ∧
      ((∃ i, 31 - n ≤ i ∧ i ≤ 31 ∧ a.getLsbD i ≠ a.msb) → alu 0x0D a b imm =
        some ⟨if a.msb then 0x80000000 else 0x7FFFFFFF, true, false, false, true, false⟩) ∧
      ((∀ i, 31 - n ≤ i → i ≤ 31 → a.getLsbD i = a.msb) → alu 0x0D a b imm = some (.plain (a <<< n))))

/-- R199: DIV is AOP 0x12, REM 0x13; the flags are those that the operation adds to the thread's. -/
def Obligations.DivisionEdges : Prop :=
  ∀ (f : Flags) (a imm : Word),
    (∃ o, alu 0x12 0x80000000 0xFFFFFFFF imm = some o ∧ o.r = 0x7FFFFFFF ∧ (f.after o).sat = true ∧ (f.after o).dz = f.dz) ∧
    (∃ o, alu 0x13 0x80000000 0xFFFFFFFF imm = some o ∧ o.r = 0 ∧ (f.after o).sat = f.sat ∧ (f.after o).dz = f.dz) ∧
    (∃ o, alu 0x12 a 0 imm = some o ∧
      o.r = (if a = 0 then 0 else if a.msb then 0x80000000 else 0x7FFFFFFF) ∧ (f.after o).dz = true ∧ (f.after o).sat = f.sat) ∧
    (∃ o, alu 0x13 a 0 imm = some o ∧ o.r = a ∧ (f.after o).dz = true ∧ (f.after o).sat = f.sat)

/-- R60: the plain bit-serial register, most significant bit first, against the model's table-free reflected form. -/
def Obligations.TileChecksum : Prop :=
  (∀ bs : List Byte, crc32c bs =
    ~~~ (BitVec.reverse ((bs.flatMap (fun b => (List.range 8).map (fun i => b.getLsbD i))).foldl
      (fun (r : BitVec 32) (x : Bool) => if r.msb ^^ x then (r <<< 1) ^^^ 0x1EDC6F41 else r <<< 1) 0xFFFFFFFF))) ∧
  crc32c [0x31, 0x32, 0x33, 0x34, 0x35, 0x36, 0x37, 0x38, 0x39] = 0xE3069283 ∧
  (∀ x : Samples, tileCrc x = crc32c (sampleBytes x)) ∧
  (∀ (g : Segment) (bs : List Byte), g.crcBad bs = false ↔ crc32c ((bs.drop 16).take (g.length - 20)) = g.crc)

/-- R336: slot A is `false`, slot B `true`. -/
def Obligations.SlotOrder : Prop :=
  (∀ (f : Fsh) (b : Bool), b ∈ f.candidates ↔ f.sealOk b = true) ∧
  (∀ f : Fsh, f.candidates.Nodup) ∧
  (∀ f : Fsh, f.sealOk false = true → f.sealOk true = true →
    let d := ((f.genOf true).toNat + 2 ^ 32 - (f.genOf false).toNat) % 2 ^ 32
    (1 ≤ d ∧ d ≤ 2 ^ 31 - 1 → f.candidates = [true, false]) ∧ (¬ (1 ≤ d ∧ d ≤ 2 ^ 31 - 1) → f.candidates = [false, true])) ∧
  (∀ (s : State) (b : Bool) (r : List Bool), s.fsh.candidates = b :: r →
    (s.readSeals).fsh.loader.cur = some b ∧ (s.readSeals).fsh.loader.cands = r) ∧
  (∀ (s : State) (b : Bool) (r : List Bool) (c : Bool) (why : BitVec 4), s.fsh.loader.cur = some c → s.fsh.loader.cands = b :: r →
    (s.rejectSlot why).fsh.loader.cur = some b ∧ (s.rejectSlot why).fsh.loader.cands = r)

/-- The values that the register tables give for reset. -/
def Obligations.ResetState : Prop :=
  let s := State.reset
  s.glb.mode = .fill ∧ s.glb.role = .none ∧ s.glb.modeSeq = 0 ∧ s.glb.restSub = 0 ∧ s.glb.own = false ∧ s.glb.faultOutN = false ∧
  s.glb.thermTripN = true ∧ s.glb.werrReason = 0 ∧ s.glb.werrCount = 0 ∧ s.glb.werrSeq = 0 ∧
  s.irc.stack = [] ∧ s.irc.latch = [] ∧ s.irc.eoiErr = false ∧
  (∀ n, (s.ircSrc n).enable = false ∧ (s.ircSrc n).prio = if n = 255 then 15 else 0) ∧
  (∀ n, (s.trans n).st = .free ∧ (s.trans n).outcome = .none ∧ (s.trans n).writes = []) ∧ s.txn.seq = 0 ∧
  (∀ n, s.fltSrc n = FltSrc.reset) ∧ FltSrc.reset.ce = 0 ∧ FltSrc.reset.ct = 0 ∧ FltSrc.reset.last = 0 ∧ FltSrc.reset.wire = false ∧
  s.flt.seq = 0 ∧ s.flt.new = false ∧ s.flt.fatal = false ∧ s.flt.lastSrc = 0 ∧
  (∀ c, (s.core c).pstate = .c4 ∧ (s.core c).fenced = false ∧ (s.core c).cause = 0) ∧
  (∀ n, (s.semS n).st = .free) ∧ s.grt.link = .down ∧ s.grt.retrans = 0 ∧ s.grt.configSync = false ∧
  (∀ b, (s.bay b).fenced = false) ∧ s.ras.clk.st = .freerun ∧ s.pending = [] ∧ (∀ q, (s.hqQ q).valid = false) ∧ s.hq.slots = []
end

