-- ==== Sys2Proof/Laws/Tbl.lean ====
section
/-! SUPPORT. Sparse tables: what a write leaves to be read, and that every operation keeps the canonical form. -/

namespace Sys2Proof

variable {α : Type}

/-- The canonical form with one value that unlisted entries read as. -/
def Tbl.canon [DecidableEq α] (t : Tbl α) (d : α) : Prop := t.wf (fun _ => d) = true

theorem Tbl.look_drop_same (t : Tbl α) (d : α) (i : Nat) : (t.drop i).look d i = d := by
  induction t with
  | nil => rfl
  | cons p r ih =>
    by_cases h : p.1 = i
    · simpa [Tbl.drop, h] using ih
    · simp only [Tbl.drop, List.filter_cons, h, ne_eq, not_false_eq_true, decide_true, if_true, Tbl.look, if_false]
      exact ih

theorem Tbl.look_drop_other (t : Tbl α) (d : α) {i j : Nat} (h : i ≠ j) : (t.drop i).look d j = t.look d j := by
  induction t with
  | nil => rfl
  | cons p r ih =>
    by_cases e : p.1 = i
    · have : p.1 ≠ j := by omega
      simp only [Tbl.drop, List.filter_cons, e, ne_eq, not_true_eq_false, decide_false, Tbl.look]
      simpa [Tbl.drop, h] using ih
    · simp only [Tbl.drop, List.filter_cons, e, ne_eq, not_false_eq_true, decide_true, if_true, Tbl.look]
      split
      · rfl
      · exact ih

theorem Tbl.look_insertAt_same (t : Tbl α) (d : α) (i : Nat) (v : α) (h : ∀ p ∈ t, p.1 ≠ i) : (t.insertAt i v).look d i = v := by
  induction t with
  | nil => simp [Tbl.insertAt, Tbl.look]
  | cons p r ih =>
    have hp := h p (by simp)
    simp only [Tbl.insertAt]
    split
    · simp [Tbl.look]
    · simp only [Tbl.look, hp, if_false]
      exact ih (fun q hq => h q (by simp [hq]))

theorem Tbl.look_insertAt_other (t : Tbl α) (d : α) {i j : Nat} (v : α) (h : i ≠ j) :
    (t.insertAt i v).look d j = t.look d j := by
  induction t with
  | nil => simp [Tbl.insertAt, Tbl.look, h]
  | cons p r ih =>
    simp only [Tbl.insertAt]
    split
    · simp [Tbl.look, h]
    · simp only [Tbl.look]
      split
      · rfl
      · exact ih

theorem Tbl.drop_ne (t : Tbl α) (i : Nat) : ∀ p ∈ t.drop i, p.1 ≠ i := by
  intro p hp
  simpa [Tbl.drop] using (List.mem_filter.mp hp).2

/-- Reading the entry that was written. -/
@[simp] theorem Tbl.look_put_same [DecidableEq α] (t : Tbl α) (d : α) (i : Nat) (v : α) : (t.put d i v).look d i = v := by
  unfold Tbl.put
  split
  · rename_i h
    rw [h]
    exact t.look_drop_same d i
  · exact Tbl.look_insertAt_same _ d i v (t.drop_ne i)

/-- A write leaves every other entry. -/
theorem Tbl.look_put_other [DecidableEq α] (t : Tbl α) (d : α) {i j : Nat} (v : α) (h : i ≠ j) :
    (t.put d i v).look d j = t.look d j := by
  unfold Tbl.put
  split
  · exact t.look_drop_other d h
  · rw [Tbl.look_insertAt_other _ d v h, t.look_drop_other d h]

@[simp] theorem Tbl.look_upd_same [DecidableEq α] (t : Tbl α) (d : α) (i : Nat) (f : α → α) :
    (t.upd d i f).look d i = f (t.look d i) := by simp [Tbl.upd]

theorem Tbl.look_upd_other [DecidableEq α] (t : Tbl α) (d : α) {i j : Nat} (f : α → α) (h : i ≠ j) :
    (t.upd d i f).look d j = t.look d j := by simp [Tbl.upd, Tbl.look_put_other, h]

/-! The canonical form. -/

theorem Tbl.risesFrom_weaken (t : Tbl α) {m n : Nat} (h : m ≤ n) (k : t.risesFrom n = true) : t.risesFrom m = true := by
  cases t with
  | nil => rfl
  | cons p r =>
    simp only [Tbl.risesFrom, Bool.and_eq_true, decide_eq_true_eq] at k ⊢
    exact ⟨by omega, k.2⟩

theorem Tbl.risesFrom_drop (t : Tbl α) (i n : Nat) (k : t.risesFrom n = true) : (t.drop i).risesFrom n = true := by
  induction t generalizing n with
  | nil => rfl
  | cons p r ih =>
    simp only [Tbl.risesFrom, Bool.and_eq_true, decide_eq_true_eq] at k
    by_cases e : p.1 = i
    · simp only [Tbl.drop, List.filter_cons, e, ne_eq, not_true_eq_false, decide_false]
      exact Tbl.risesFrom_weaken _ (by omega) (ih _ k.2)
    · simp only [Tbl.drop, List.filter_cons, e, ne_eq, not_false_eq_true, decide_true, if_true, Tbl.risesFrom, Bool.and_eq_true,
        decide_eq_true_eq]
      exact ⟨k.1, ih _ k.2⟩

theorem Tbl.risesFrom_insertAt (t : Tbl α) (i : Nat) (v : α) (n : Nat) (h : n ≤ i) (g : ∀ p ∈ t, p.1 ≠ i)
    (k : t.risesFrom n = true) : (t.insertAt i v).risesFrom n = true := by
  induction t generalizing n with
  | nil => simp [Tbl.insertAt, Tbl.risesFrom, h]
  | cons p r ih =>
    have hp := g p (by simp)
    simp only [Tbl.risesFrom, Bool.and_eq_true, decide_eq_true_eq] at k
    simp only [Tbl.insertAt]
    split
    · simp only [Tbl.risesFrom, Bool.and_eq_true, decide_eq_true_eq]
      exact ⟨h, by omega, k.2⟩
    · simp only [Tbl.risesFrom, Bool.and_eq_true, decide_eq_true_eq]
      exact ⟨k.1, ih _ (by omega) (fun q hq => g q (by simp [hq])) k.2⟩

theorem Tbl.mem_insertAt (t : Tbl α) (i : Nat) (v : α) : ∀ p ∈ t.insertAt i v, p = (i, v) ∨ p ∈ t := by
  induction t with
  | nil => simp [Tbl.insertAt]
  | cons q r ih =>
    intro p hp
    simp only [Tbl.insertAt] at hp
    split at hp
    · simpa using hp
    · rcases List.mem_cons.mp hp with h | h
      · simp [h]
      · rcases ih p h with h | h
        · exact .inl h
        · exact .inr (by simp [h])

theorem Tbl.risesFrom_filter (t : Tbl α) (f : Nat × α → Bool) (n : Nat) (k : t.risesFrom n = true) :
    Tbl.risesFrom (t.filter f) n = true := by
  induction t generalizing n with
  | nil => rfl
  | cons p r ih =>
    simp only [Tbl.risesFrom, Bool.and_eq_true, decide_eq_true_eq] at k
    by_cases e : f p = true
    · simp only [List.filter_cons, e, if_true, Tbl.risesFrom, Bool.and_eq_true, decide_eq_true_eq]
      exact ⟨k.1, ih _ k.2⟩
    · simp only [List.filter_cons, e]
      exact Tbl.risesFrom_weaken _ (by omega) (ih _ k.2)

/-- Leaving entries out keeps the canonical form. -/
theorem Tbl.filter_canon [DecidableEq α] (t : Tbl α) (d : α) (f : Nat × α → Bool) (k : t.canon d) :
    Tbl.canon (t.filter f) d := by
  simp only [Tbl.canon, Tbl.wf, Bool.and_eq_true, List.all_eq_true, decide_eq_true_eq] at k ⊢
  exact ⟨t.risesFrom_filter f 0 k.1, fun p hp => k.2 p (List.mem_filter.mp hp).1⟩

/-- A write keeps the canonical form. -/
theorem Tbl.put_canon [DecidableEq α] (t : Tbl α) (d : α) (i : Nat) (v : α) (k : t.canon d) : (t.put d i v).canon d := by
  simp only [Tbl.canon, Tbl.wf, Bool.and_eq_true, List.all_eq_true, decide_eq_true_eq] at k ⊢
  have h : ∀ p ∈ t.drop i, p.2 ≠ d := fun p hp => k.2 p (List.mem_filter.mp hp).1
  unfold Tbl.put
  split
  · exact ⟨t.risesFrom_drop i 0 k.1, h⟩
  · rename_i e
    refine ⟨Tbl.risesFrom_insertAt _ i v 0 (by omega) (t.drop_ne i) (t.risesFrom_drop i 0 k.1), ?_⟩
    intro p hp
    rcases Tbl.mem_insertAt _ i v p hp with q | q
    · rw [q]
      exact e
    · exact h p q

/-- A write of bytes keeps the canonical form of a memory. -/
theorem Machine.putBytes_wf (m : Machine.Memory) (d : Byte) (a : Nat) (bs : List Byte) (k : Machine.Memory.wf m d) :
    Machine.Memory.wf (Machine.putBytes m d a bs) d := by
  induction bs generalizing m a with
  | nil => exact k
  | cons b r ih => exact ih _ _ (Tbl.put_canon m d a b k)

end Sys2Proof
end

