-- ==== Sys2Proof/Laws/Keeps.lean ====
section
/-! SUPPORT. What an operation may change: a property of states that is closed under the updates of some components is kept
by every operation that updates those components alone. The updates of the components that hold a byte memory are
those that keep its canonical form, and those of the interrupt controller keep its stack of priorities rising. -/

namespace Sys2Proof.Machine

/-- The property is closed under the updates of a component. -/
def Opens (P : State → Prop) : Comp → Prop
  | .now => ∀ h s, P s → P (s.modNow h)
  | .ptp => ∀ h s, P s → P (s.modPtp h)
  | .freeCtr => ∀ h s, P s → P (s.modFreeCtr h)
  | .ras => ∀ h s, P s → P (s.modRas h)
  | .enc => ∀ h s, P s → P (s.modEnc h)
  | .dec => ∀ h s, P s → P (s.modDec h)
  | .cmp => ∀ h s, P s → P (s.modCmp h)
  | .out => ∀ h s, P s → P (s.modOut h)
  | .cores => ∀ h s, P s → P (s.modCores h)
  | .drm => ∀ h s, P s → P (s.modDrm h)
  | .run => ∀ h s, P s → P (s.modRun h)
  | .hq => ∀ (h : Hq → Hq) (s : State), (∀ x, Memory.wf x.hostMem hostByte → Memory.wf (h x).hostMem hostByte) → P s → P (s.modHq h)
  | .txn => ∀ h s, P s → P (s.modTxn h)
  | .blw => ∀ h s, P s → P (s.modBlw h)
  | .fsh => ∀ (h : Fsh → Fsh) (s : State), (∀ x, Memory.wf x.flash erased → Memory.wf (h x).flash erased) → P s → P (s.modFsh h)
  | .glb => ∀ h s, P s → P (s.modGlb h)
  | .irc => ∀ (h : Irc → Irc) (s : State), (stackRises s.irc.stack = true → stackRises (h s.irc).stack = true) → P s → P (s.modIrc h)
  | .tck => ∀ (h : Tck → Tck) (s : State), (∀ x, Memory.wf x.sram 0 → Memory.wf (h x).sram 0) → P s → P (s.modTck h)
  | .log => ∀ h s, P s → P (s.modLog h)
  | .sem => ∀ h s, P s → P (s.modSem h)
  | .flt => ∀ h s, P s → P (s.modFlt h)
  | .grt => ∀ h s, P s → P (s.modGrt h)

/-- The property is closed under the updates of each component listed. -/
def Keeps (l : List Comp) (P : State → Prop) : Prop := ∀ c ∈ l, Opens P c

theorem Keeps.mono {l m : List Comp} {P : State → Prop} (u : Keeps l P) (h : m.all l.contains = true) : Keeps m P :=
  fun c hc => u c (by simpa using List.all_eq_true.mp h c hc)

variable {P : State → Prop} {s : State}

theorem State.modNow_keeps (u : Keeps [.now] P) {h : _ → _} (k : P s) : P (s.modNow h) := u .now (by decide) h s k
theorem State.modPtp_keeps (u : Keeps [.ptp] P) {h : _ → _} (k : P s) : P (s.modPtp h) := u .ptp (by decide) h s k
theorem State.modFreeCtr_keeps (u : Keeps [.freeCtr] P) {h : _ → _} (k : P s) : P (s.modFreeCtr h) := u .freeCtr (by decide) h s k
theorem State.modRas_keeps (u : Keeps [.ras] P) {h : _ → _} (k : P s) : P (s.modRas h) := u .ras (by decide) h s k
theorem State.modEnc_keeps (u : Keeps [.enc] P) {h : _ → _} (k : P s) : P (s.modEnc h) := u .enc (by decide) h s k
theorem State.modDec_keeps (u : Keeps [.dec] P) {h : _ → _} (k : P s) : P (s.modDec h) := u .dec (by decide) h s k
theorem State.modCmp_keeps (u : Keeps [.cmp] P) {h : _ → _} (k : P s) : P (s.modCmp h) := u .cmp (by decide) h s k
theorem State.modOut_keeps (u : Keeps [.out] P) {h : _ → _} (k : P s) : P (s.modOut h) := u .out (by decide) h s k
theorem State.modCores_keeps (u : Keeps [.cores] P) {h : _ → _} (k : P s) : P (s.modCores h) := u .cores (by decide) h s k
theorem State.modDrm_keeps (u : Keeps [.drm] P) {h : _ → _} (k : P s) : P (s.modDrm h) := u .drm (by decide) h s k
theorem State.modRun_keeps (u : Keeps [.run] P) {h : _ → _} (k : P s) : P (s.modRun h) := u .run (by decide) h s k
theorem State.modHq_keeps (u : Keeps [.hq] P) {h : Hq → Hq} (e : ∀ x, Memory.wf x.hostMem hostByte → Memory.wf (h x).hostMem hostByte) (k : P s) :
    P (s.modHq h) := u .hq (by decide) h s e k
theorem State.modTxn_keeps (u : Keeps [.txn] P) {h : _ → _} (k : P s) : P (s.modTxn h) := u .txn (by decide) h s k
theorem State.modBlw_keeps (u : Keeps [.blw] P) {h : _ → _} (k : P s) : P (s.modBlw h) := u .blw (by decide) h s k
theorem State.modFsh_keeps (u : Keeps [.fsh] P) {h : Fsh → Fsh} (e : ∀ x, Memory.wf x.flash erased → Memory.wf (h x).flash erased) (k : P s) :
    P (s.modFsh h) := u .fsh (by decide) h s e k
theorem State.modGlb_keeps (u : Keeps [.glb] P) {h : _ → _} (k : P s) : P (s.modGlb h) := u .glb (by decide) h s k
theorem State.modIrc_keeps (u : Keeps [.irc] P) {h : Irc → Irc} (e : stackRises s.irc.stack = true → stackRises (h s.irc).stack = true) (k : P s) :
    P (s.modIrc h) := u .irc (by decide) h s e k
theorem State.modTck_keeps (u : Keeps [.tck] P) {h : Tck → Tck} (e : ∀ x, Memory.wf x.sram 0 → Memory.wf (h x).sram 0) (k : P s) :
    P (s.modTck h) := u .tck (by decide) h s e k
theorem State.modLog_keeps (u : Keeps [.log] P) {h : _ → _} (k : P s) : P (s.modLog h) := u .log (by decide) h s k
theorem State.modSem_keeps (u : Keeps [.sem] P) {h : _ → _} (k : P s) : P (s.modSem h) := u .sem (by decide) h s k
theorem State.modFlt_keeps (u : Keeps [.flt] P) {h : _ → _} (k : P s) : P (s.modFlt h) := u .flt (by decide) h s k
theorem State.modGrt_keeps (u : Keeps [.grt] P) {h : _ → _} (k : P s) : P (s.modGrt h) := u .grt (by decide) h s k

/-! Equality of one component is kept by what does not update it. -/

theorem keeps_now {l : List Comp} (h : l.contains .now = false) : Keeps l (fun t => t.now = s.now) := by
  intro c hc
  cases c <;> first
    | (intro g t k; exact k)
    | (intro g t _ k; exact k)
    | (exfalso; simp_all)

theorem keeps_ptp {l : List Comp} (h : l.contains .ptp = false) : Keeps l (fun t => t.ptp = s.ptp) := by
  intro c hc
  cases c <;> first
    | (intro g t k; exact k)
    | (intro g t _ k; exact k)
    | (exfalso; simp_all)

theorem keeps_freeCtr {l : List Comp} (h : l.contains .freeCtr = false) : Keeps l (fun t => t.freeCtr = s.freeCtr) := by
  intro c hc
  cases c <;> first
    | (intro g t k; exact k)
    | (intro g t _ k; exact k)
    | (exfalso; simp_all)

theorem keeps_ras {l : List Comp} (h : l.contains .ras = false) : Keeps l (fun t => t.ras = s.ras) := by
  intro c hc
  cases c <;> first
    | (intro g t k; exact k)
    | (intro g t _ k; exact k)
    | (exfalso; simp_all)

theorem keeps_enc {l : List Comp} (h : l.contains .enc = false) : Keeps l (fun t => t.enc = s.enc) := by
  intro c hc
  cases c <;> first
    | (intro g t k; exact k)
    | (intro g t _ k; exact k)
    | (exfalso; simp_all)

theorem keeps_dec {l : List Comp} (h : l.contains .dec = false) : Keeps l (fun t => t.dec = s.dec) := by
  intro c hc
  cases c <;> first
    | (intro g t k; exact k)
    | (intro g t _ k; exact k)
    | (exfalso; simp_all)

theorem keeps_cmp {l : List Comp} (h : l.contains .cmp = false) : Keeps l (fun t => t.cmp = s.cmp) := by
  intro c hc
  cases c <;> first
    | (intro g t k; exact k)
    | (intro g t _ k; exact k)
    | (exfalso; simp_all)

theorem keeps_out {l : List Comp} (h : l.contains .out = false) : Keeps l (fun t => t.out = s.out) := by
  intro c hc
  cases c <;> first
    | (intro g t k; exact k)
    | (intro g t _ k; exact k)
    | (exfalso; simp_all)

theorem keeps_cores {l : List Comp} (h : l.contains .cores = false) : Keeps l (fun t => t.cores = s.cores) := by
  intro c hc
  cases c <;> first
    | (intro g t k; exact k)
    | (intro g t _ k; exact k)
    | (exfalso; simp_all)

theorem keeps_drm {l : List Comp} (h : l.contains .drm = false) : Keeps l (fun t => t.drm = s.drm) := by
  intro c hc
  cases c <;> first
    | (intro g t k; exact k)
    | (intro g t _ k; exact k)
    | (exfalso; simp_all)

theorem keeps_run {l : List Comp} (h : l.contains .run = false) : Keeps l (fun t => t.run = s.run) := by
  intro c hc
  cases c <;> first
    | (intro g t k; exact k)
    | (intro g t _ k; exact k)
    | (exfalso; simp_all)

theorem keeps_hq {l : List Comp} (h : l.contains .hq = false) : Keeps l (fun t => t.hq = s.hq) := by
  intro c hc
  cases c <;> first
    | (intro g t k; exact k)
    | (intro g t _ k; exact k)
    | (exfalso; simp_all)

theorem keeps_txn {l : List Comp} (h : l.contains .txn = false) : Keeps l (fun t => t.txn = s.txn) := by
  intro c hc
  cases c <;> first
    | (intro g t k; exact k)
    | (intro g t _ k; exact k)
    | (exfalso; simp_all)

theorem keeps_blw {l : List Comp} (h : l.contains .blw = false) : Keeps l (fun t => t.blw = s.blw) := by
  intro c hc
  cases c <;> first
    | (intro g t k; exact k)
    | (intro g t _ k; exact k)
    | (exfalso; simp_all)

theorem keeps_fsh {l : List Comp} (h : l.contains .fsh = false) : Keeps l (fun t => t.fsh = s.fsh) := by
  intro c hc
  cases c <;> first
    | (intro g t k; exact k)
    | (intro g t _ k; exact k)
    | (exfalso; simp_all)

theorem keeps_glb {l : List Comp} (h : l.contains .glb = false) : Keeps l (fun t => t.glb = s.glb) := by
  intro c hc
  cases c <;> first
    | (intro g t k; exact k)
    | (intro g t _ k; exact k)
    | (exfalso; simp_all)

theorem keeps_irc {l : List Comp} (h : l.contains .irc = false) : Keeps l (fun t => t.irc = s.irc) := by
  intro c hc
  cases c <;> first
    | (intro g t k; exact k)
    | (intro g t _ k; exact k)
    | (exfalso; simp_all)

theorem keeps_tck {l : List Comp} (h : l.contains .tck = false) : Keeps l (fun t => t.tck = s.tck) := by
  intro c hc
  cases c <;> first
    | (intro g t k; exact k)
    | (intro g t _ k; exact k)
    | (exfalso; simp_all)

theorem keeps_log {l : List Comp} (h : l.contains .log = false) : Keeps l (fun t => t.log = s.log) := by
  intro c hc
  cases c <;> first
    | (intro g t k; exact k)
    | (intro g t _ k; exact k)
    | (exfalso; simp_all)

theorem keeps_sem {l : List Comp} (h : l.contains .sem = false) : Keeps l (fun t => t.sem = s.sem) := by
  intro c hc
  cases c <;> first
    | (intro g t k; exact k)
    | (intro g t _ k; exact k)
    | (exfalso; simp_all)

theorem keeps_flt {l : List Comp} (h : l.contains .flt = false) : Keeps l (fun t => t.flt = s.flt) := by
  intro c hc
  cases c <;> first
    | (intro g t k; exact k)
    | (intro g t _ k; exact k)
    | (exfalso; simp_all)

theorem keeps_grt {l : List Comp} (h : l.contains .grt = false) : Keeps l (fun t => t.grt = s.grt) := by
  intro c hc
  cases c <;> first
    | (intro g t k; exact k)
    | (intro g t _ k; exact k)
    | (exfalso; simp_all)

theorem keeps_pending {l : List Comp} {q : List Sys2Proof.Instr} : Keeps l (fun t => t.pending = q) := by
  intro c _
  cases c <;> first
    | (intro g t k; exact k)
    | (intro g t _ k; exact k)

theorem State.each_keeps {α : Type} {xs : List α} {f : α → State → State} (h : ∀ x t, P t → P (f x t)) (k : P s) :
    P (s.each xs f) := by
  unfold State.each
  induction xs generalizing s with
  | nil => exact k
  | cons x r ih => exact ih (h x s k)

theorem State.whenB_keeps {b : Bool} {f : State → State} (h : ∀ t, P t → P (f t)) (k : P s) : P (s.whenB b f) := by
  unfold State.whenB
  split
  · exact h s k
  · exact k

theorem ite_keeps {c : Prop} [Decidable c] {x y : State} (h1 : P x) (h2 : P y) : P (if c then x else y) := by
  split
  · exact h1
  · exact h2

theorem foldl_fst_keeps {α β : Type} {xs : List α} {f : State × β → α → State × β} {y : State × β}
    (h : ∀ t x, P t.1 → P (f t x).1) (k : P y.1) : P (xs.foldl f y).1 := by
  induction xs generalizing y with
  | nil => exact k
  | cons x r ih => exact ih (h y x k)

theorem foldl_keeps {α : Type} {xs : List α} {f : State → α → State} (h : ∀ t x, P t → P (f t x)) (k : P s) :
    P (xs.foldl f s) := by
  induction xs generalizing s with
  | nil => exact k
  | cons x r ih => exact ih (h s x k)

end Sys2Proof.Machine
end

