-- ==== Sys2Proof/Laws/Ops.lean ====
section
/-! SUPPORT. What each operation of Ops keeps. -/

namespace Sys2Proof.Machine

set_option linter.unreachableTactic false
set_option linter.unusedTactic false

variable {P : State → Prop} {s : State}

theorem State.modCore_keeps (u : Keeps [.cores] P) {a0 : Nat} {a1 : CoreS → CoreS} (k : P s) : P (State.modCore a0 a1 s) := by
  unfold State.modCore
  repeat' (first
    | with_reducible assumption
    | (with_reducible refine u.mono ?_; decide)
    | (with_reducible refine State.modCores_keeps ?_ ?_)
    | (with_reducible refine ite_keeps ?_ ?_)
    | split
    | dsimp only [id])

theorem State.modDecS_keeps (u : Keeps [.dec] P) {a0 : Nat} {a1 : DecStream → DecStream} (k : P s) : P (State.modDecS a0 a1 s) := by
  unfold State.modDecS
  repeat' (first
    | with_reducible assumption
    | (with_reducible refine u.mono ?_; decide)
    | (with_reducible refine State.modDec_keeps ?_ ?_)
    | (with_reducible refine ite_keeps ?_ ?_)
    | split
    | dsimp only [id])

theorem State.modBay_keeps (u : Keeps [.blw] P) {a0 : Nat} {a1 : Bay → Bay} (k : P s) : P (State.modBay a0 a1 s) := by
  unfold State.modBay
  repeat' (first
    | with_reducible assumption
    | (with_reducible refine u.mono ?_; decide)
    | (with_reducible refine State.modBlw_keeps ?_ ?_)
    | (with_reducible refine ite_keeps ?_ ?_)
    | split
    | dsimp only [id])

theorem State.modTask_keeps (u : Keeps [.blw] P) {a0 : Nat} {a1 : RowTask → RowTask} (k : P s) : P (State.modTask a0 a1 s) := by
  unfold State.modTask
  repeat' (first
    | with_reducible assumption
    | (with_reducible refine u.mono ?_; decide)
    | (with_reducible refine State.modBlw_keeps ?_ ?_)
    | (with_reducible refine ite_keeps ?_ ?_)
    | split
    | dsimp only [id])

theorem State.modTile_keeps (u : Keeps [.cmp] P) {a0 : Nat} {a1 : Nat} {a2 : TileEntry → TileEntry} (k : P s) : P (State.modTile a0 a1 a2 s) := by
  unfold State.modTile
  repeat' (first
    | with_reducible assumption
    | (with_reducible refine u.mono ?_; decide)
    | (with_reducible refine State.modCmp_keeps ?_ ?_)
    | (with_reducible refine ite_keeps ?_ ?_)
    | split
    | dsimp only [id])

theorem State.modPoolD_keeps (u : Keeps [.drm] P) {a0 : Nat} {a1 : PoolDesc → PoolDesc} (k : P s) : P (State.modPoolD a0 a1 s) := by
  unfold State.modPoolD
  repeat' (first
    | with_reducible assumption
    | (with_reducible refine u.mono ?_; decide)
    | (with_reducible refine State.modDrm_keeps ?_ ?_)
    | (with_reducible refine ite_keeps ?_ ?_)
    | split
    | dsimp only [id])

theorem State.tickFree_keeps (u : Keeps [.freeCtr] P) (k : P s) : P (State.tickFree s) := by
  unfold State.tickFree
  repeat' (first
    | with_reducible assumption
    | (with_reducible refine u.mono ?_; decide)
    | (with_reducible refine State.modFreeCtr_keeps ?_ ?_)
    | (with_reducible refine ite_keeps ?_ ?_)
    | split
    | dsimp only [id])

theorem State.post_keeps (u : Keeps [.log] P) {a0 : Sys2Proof.Ev} (k : P s) : P (State.post a0 s) := by
  unfold State.post
  repeat' (first
    | with_reducible assumption
    | (with_reducible refine u.mono ?_; decide)
    | (with_reducible refine State.modLog_keeps ?_ ?_)
    | (with_reducible refine ite_keeps ?_ ?_)
    | split
    | dsimp only [id])

theorem State.raiseP_keeps (u : Keeps [.log] P) {a0 : Nat} {a1 : Sys2Proof.EventId} {a2 : List Sys2Proof.Item} (k : P s) : P (State.raiseP a0 a1 a2 s) := by
  unfold State.raiseP
  repeat' (first
    | with_reducible assumption
    | (with_reducible refine u.mono ?_; decide)
    | (with_reducible refine State.post_keeps ?_ ?_)
    | (with_reducible refine ite_keeps ?_ ?_)
    | split
    | dsimp only [id])

theorem State.latch_keeps (u : Keeps [.irc] P) {a0 : Nat} (k : P s) : P (State.latch a0 s) := by
  unfold State.latch
  repeat' (first
    | with_reducible assumption
    | (with_reducible refine u.mono ?_; decide)
    | (intro _ h; exact h)
    | (intro h; exact h)
    | (intro _; rfl)
    | (with_reducible refine State.modIrc_keeps ?_ ?_ ?_)
    | (with_reducible refine ite_keeps ?_ ?_)
    | split
    | dsimp only [id])

theorem State.modRail_keeps (u : Keeps [.blw] P) {a0 : Nat} {a1 : Rail → Rail} (k : P s) : P (State.modRail a0 a1 s) := by
  unfold State.modRail
  repeat' (first
    | with_reducible assumption
    | (with_reducible refine u.mono ?_; decide)
    | (with_reducible refine State.modBlw_keeps ?_ ?_)
    | (with_reducible refine ite_keeps ?_ ?_)
    | split
    | dsimp only [id])

theorem State.modEncS_keeps (u : Keeps [.enc] P) {a0 : Nat} {a1 : EncStream → EncStream} (k : P s) : P (State.modEncS a0 a1 s) := by
  unfold State.modEncS
  repeat' (first
    | with_reducible assumption
    | (with_reducible refine u.mono ?_; decide)
    | (with_reducible refine State.modEnc_keeps ?_ ?_)
    | (with_reducible refine ite_keeps ?_ ?_)
    | split
    | dsimp only [id])

theorem State.modTrans_keeps (u : Keeps [.txn] P) {a0 : Nat} {a1 : Txn → Txn} (k : P s) : P (State.modTrans a0 a1 s) := by
  unfold State.modTrans
  repeat' (first
    | with_reducible assumption
    | (with_reducible refine u.mono ?_; decide)
    | (with_reducible refine State.modTxn_keeps ?_ ?_)
    | (with_reducible refine ite_keeps ?_ ?_)
    | split
    | dsimp only [id])

theorem State.modSlot_keeps (u : Keeps [.hq] P) {a0 : Nat} {a1 : Slot → Slot} (k : P s) : P (State.modSlot a0 a1 s) := by
  unfold State.modSlot
  repeat' (first
    | with_reducible assumption
    | (with_reducible refine u.mono ?_; decide)
    | (intro _ h; exact h)
    | (intro h; exact h)
    | (intro _; rfl)
    | (with_reducible refine State.modHq_keeps ?_ ?_ ?_)
    | (with_reducible refine ite_keeps ?_ ?_)
    | split
    | dsimp only [id])

theorem State.modOutP_keeps (u : Keeps [.out] P) {a0 : Nat} {a1 : OutPort → OutPort} (k : P s) : P (State.modOutP a0 a1 s) := by
  unfold State.modOutP
  repeat' (first
    | with_reducible assumption
    | (with_reducible refine u.mono ?_; decide)
    | (with_reducible refine State.modOut_keeps ?_ ?_)
    | (with_reducible refine ite_keeps ?_ ?_)
    | split
    | dsimp only [id])

theorem State.limited_keeps (u : Keeps [.log] P) {a0 : Sys2Proof.EventId} {a1 : Nat} {a2 : Nat} {a3 : State → State} (h3 : ∀ x0, P x0 → P (a3 x0)) (k : P s) : P (State.limited a0 a1 a2 a3 s) := by
  unfold State.limited
  repeat' (first
    | with_reducible assumption
    | (with_reducible refine u.mono ?_; decide)
    | (with_reducible refine State.modLog_keeps ?_ ?_)
    | (with_reducible refine h3 _ ?_)
    | (with_reducible refine ite_keeps ?_ ?_)
    | split
    | dsimp only [id])

theorem State.raise_keeps (u : Keeps [.log] P) {a0 : Sys2Proof.EventId} {a1 : List Sys2Proof.Item} (k : P s) : P (State.raise a0 a1 s) := by
  unfold State.raise
  repeat' (first
    | with_reducible assumption
    | (with_reducible refine u.mono ?_; decide)
    | (with_reducible refine State.post_keeps ?_ ?_)
    | (with_reducible refine ite_keeps ?_ ?_)
    | split
    | dsimp only [id])

theorem State.modSemS_keeps (u : Keeps [.sem] P) {a0 : Nat} {a1 : Sem → Sem} (k : P s) : P (State.modSemS a0 a1 s) := by
  unfold State.modSemS
  repeat' (first
    | with_reducible assumption
    | (with_reducible refine u.mono ?_; decide)
    | (with_reducible refine State.modSem_keeps ?_ ?_)
    | (with_reducible refine ite_keeps ?_ ?_)
    | split
    | dsimp only [id])

theorem State.modEth_keeps (u : Keeps [.run] P) {a0 : Nat} {a1 : EthPort → EthPort} (k : P s) : P (State.modEth a0 a1 s) := by
  unfold State.modEth
  repeat' (first
    | with_reducible assumption
    | (with_reducible refine u.mono ?_; decide)
    | (with_reducible refine State.modRun_keeps ?_ ?_)
    | (with_reducible refine ite_keeps ?_ ?_)
    | split
    | dsimp only [id])

theorem State.modDpo_keeps (u : Keeps [.out] P) {a0 : Nat} {a1 : DpoPort → DpoPort} (k : P s) : P (State.modDpo a0 a1 s) := by
  unfold State.modDpo
  repeat' (first
    | with_reducible assumption
    | (with_reducible refine u.mono ?_; decide)
    | (with_reducible refine State.modOut_keeps ?_ ?_)
    | (with_reducible refine ite_keeps ?_ ?_)
    | split
    | dsimp only [id])

theorem State.modDpi_keeps (u : Keeps [.out] P) {a0 : Nat} {a1 : DpiPort → DpiPort} (k : P s) : P (State.modDpi a0 a1 s) := by
  unfold State.modDpi
  repeat' (first
    | with_reducible assumption
    | (with_reducible refine u.mono ?_; decide)
    | (with_reducible refine State.modOut_keeps ?_ ?_)
    | (with_reducible refine ite_keeps ?_ ?_)
    | split
    | dsimp only [id])

theorem State.modClk_keeps (u : Keeps [.ras] P) {a0 : Clk → Clk} (k : P s) : P (State.modClk a0 s) := by
  unfold State.modClk
  repeat' (first
    | with_reducible assumption
    | (with_reducible refine u.mono ?_; decide)
    | (with_reducible refine State.modRas_keeps ?_ ?_)
    | (with_reducible refine ite_keeps ?_ ?_)
    | split
    | dsimp only [id])

theorem State.modChan_keeps (u : Keeps [.drm] P) {a0 : Nat} {a1 : Chan → Chan} (k : P s) : P (State.modChan a0 a1 s) := by
  unfold State.modChan
  repeat' (first
    | with_reducible assumption
    | (with_reducible refine u.mono ?_; decide)
    | (with_reducible refine State.modDrm_keeps ?_ ?_)
    | (with_reducible refine ite_keeps ?_ ?_)
    | split
    | dsimp only [id])

theorem State.modFltSrc_keeps (u : Keeps [.flt] P) {a0 : Nat} {a1 : FltSrc → FltSrc} (k : P s) : P (State.modFltSrc a0 a1 s) := by
  unfold State.modFltSrc
  repeat' (first
    | with_reducible assumption
    | (with_reducible refine u.mono ?_; decide)
    | (with_reducible refine State.modFlt_keeps ?_ ?_)
    | (with_reducible refine ite_keeps ?_ ?_)
    | split
    | dsimp only [id])

theorem State.modFlow_keeps (u : Keeps [.run] P) {a0 : Nat} {a1 : Flow → Flow} (k : P s) : P (State.modFlow a0 a1 s) := by
  unfold State.modFlow
  repeat' (first
    | with_reducible assumption
    | (with_reducible refine u.mono ?_; decide)
    | (with_reducible refine State.modRun_keeps ?_ ?_)
    | (with_reducible refine ite_keeps ?_ ?_)
    | split
    | dsimp only [id])

theorem State.modLadle_keeps (u : Keeps [.run] P) {a0 : Nat} {a1 : LdlPool → LdlPool} (k : P s) : P (State.modLadle a0 a1 s) := by
  unfold State.modLadle
  repeat' (first
    | with_reducible assumption
    | (with_reducible refine u.mono ?_; decide)
    | (with_reducible refine State.modRun_keeps ?_ ?_)
    | (with_reducible refine ite_keeps ?_ ?_)
    | split
    | dsimp only [id])

theorem State.modPart_keeps (u : Keeps [.blw] P) {a0 : Nat} {a1 : Part → Part} (k : P s) : P (State.modPart a0 a1 s) := by
  unfold State.modPart
  repeat' (first
    | with_reducible assumption
    | (with_reducible refine u.mono ?_; decide)
    | (with_reducible refine State.modBlw_keeps ?_ ?_)
    | (with_reducible refine ite_keeps ?_ ?_)
    | split
    | dsimp only [id])

theorem State.modIrcSrc_keeps (u : Keeps [.irc] P) {a0 : Nat} {a1 : IrcSrc → IrcSrc} (k : P s) : P (State.modIrcSrc a0 a1 s) := by
  unfold State.modIrcSrc
  repeat' (first
    | with_reducible assumption
    | (with_reducible refine u.mono ?_; decide)
    | (intro _ h; exact h)
    | (intro h; exact h)
    | (intro _; rfl)
    | (with_reducible refine State.modIrc_keeps ?_ ?_ ?_)
    | (with_reducible refine ite_keeps ?_ ?_)
    | split
    | dsimp only [id])

theorem State.modRule_keeps (u : Keeps [.run] P) {a0 : Nat} {a1 : Rule → Rule} (k : P s) : P (State.modRule a0 a1 s) := by
  unfold State.modRule
  repeat' (first
    | with_reducible assumption
    | (with_reducible refine u.mono ?_; decide)
    | (with_reducible refine State.modRun_keeps ?_ ?_)
    | (with_reducible refine ite_keeps ?_ ?_)
    | split
    | dsimp only [id])

theorem State.modTimer_keeps (u : Keeps [.tck] P) {a0 : Nat} {a1 : Timer → Timer} (k : P s) : P (State.modTimer a0 a1 s) := by
  unfold State.modTimer
  repeat' (first
    | with_reducible assumption
    | (with_reducible refine u.mono ?_; decide)
    | (intro _ h; exact h)
    | (intro h; exact h)
    | (intro _; rfl)
    | (with_reducible refine State.modTck_keeps ?_ ?_ ?_)
    | (with_reducible refine ite_keeps ?_ ?_)
    | split
    | dsimp only [id])

theorem State.modDma_keeps (u : Keeps [.tck] P) {a0 : Nat} {a1 : DmaCh → DmaCh} (k : P s) : P (State.modDma a0 a1 s) := by
  unfold State.modDma
  repeat' (first
    | with_reducible assumption
    | (with_reducible refine u.mono ?_; decide)
    | (intro _ h; exact h)
    | (intro h; exact h)
    | (intro _; rfl)
    | (with_reducible refine State.modTck_keeps ?_ ?_ ?_)
    | (with_reducible refine ite_keeps ?_ ?_)
    | split
    | dsimp only [id])

theorem State.modPRail_keeps (u : Keeps [.tck] P) {a0 : Nat} {a1 : PRail → PRail} (k : P s) : P (State.modPRail a0 a1 s) := by
  unfold State.modPRail
  repeat' (first
    | with_reducible assumption
    | (with_reducible refine u.mono ?_; decide)
    | (intro _ h; exact h)
    | (intro h; exact h)
    | (intro _; rfl)
    | (with_reducible refine State.modTck_keeps ?_ ?_ ?_)
    | (with_reducible refine ite_keeps ?_ ?_)
    | split
    | dsimp only [id])

theorem State.modWindow_keeps (u : Keeps [.cmp] P) {a0 : Nat} {a1 : Window → Window} (k : P s) : P (State.modWindow a0 a1 s) := by
  unfold State.modWindow
  repeat' (first
    | with_reducible assumption
    | (with_reducible refine u.mono ?_; decide)
    | (with_reducible refine State.modCmp_keeps ?_ ?_)
    | (with_reducible refine ite_keeps ?_ ?_)
    | split
    | dsimp only [id])

theorem ok_keeps (k : P s) : ∀ t, ok s = .next t → P t := by
  intro t e
  injection e with e
  rw [← e]
  clear e
  repeat' (first
    | with_reducible assumption
    | (with_reducible refine ite_keeps ?_ ?_)
    | split
    | dsimp only [id])

theorem State.modRaster_keeps (u : Keeps [.ras] P) {a0 : Nat} {a1 : Raster → Raster} (k : P s) : P (State.modRaster a0 a1 s) := by
  unfold State.modRaster
  repeat' (first
    | with_reducible assumption
    | (with_reducible refine u.mono ?_; decide)
    | (with_reducible refine State.modRas_keeps ?_ ?_)
    | (with_reducible refine ite_keeps ?_ ?_)
    | split
    | dsimp only [id])

theorem State.modLineEvent_keeps (u : Keeps [.ras] P) {a0 : Nat} {a1 : LineEvent → LineEvent} (k : P s) : P (State.modLineEvent a0 a1 s) := by
  unfold State.modLineEvent
  repeat' (first
    | with_reducible assumption
    | (with_reducible refine u.mono ?_; decide)
    | (with_reducible refine State.modRas_keeps ?_ ?_)
    | (with_reducible refine ite_keeps ?_ ?_)
    | split
    | dsimp only [id])

theorem State.modHqQ_keeps (u : Keeps [.hq] P) {a0 : Nat} {a1 : HqQueue → HqQueue} (k : P s) : P (State.modHqQ a0 a1 s) := by
  unfold State.modHqQ
  repeat' (first
    | with_reducible assumption
    | (with_reducible refine u.mono ?_; decide)
    | (intro _ h; exact h)
    | (intro h; exact h)
    | (intro _; rfl)
    | (with_reducible refine State.modHq_keeps ?_ ?_ ?_)
    | (with_reducible refine ite_keeps ?_ ?_)
    | split
    | dsimp only [id])

theorem State.claimDesc_keeps (u : Keeps [.freeCtr, .drm] P) {a0 : BitVec 2} {a1 : Nat} {a2 : Nat} {a3 : Nat} {a4 : Nat} (k : P s) : P (State.claimDesc a0 a1 a2 a3 a4 s) := by
  unfold State.claimDesc
  repeat' (first
    | with_reducible assumption
    | (with_reducible refine u.mono ?_; decide)
    | (with_reducible refine State.tickFree_keeps ?_ ?_)
    | (with_reducible refine State.modPoolD_keeps ?_ ?_)
    | (with_reducible refine ite_keeps ?_ ?_)
    | split
    | dsimp only [id])

theorem State.werr_keeps (u : Keeps [.glb] P) {a0 : Sys2Proof.Writer} {a1 : BitVec 4} {a2 : Nat} (k : P s) : P (State.werr a0 a1 a2 s) := by
  unfold State.werr
  repeat' (first
    | with_reducible assumption
    | (with_reducible refine u.mono ?_; decide)
    | (with_reducible refine State.modGlb_keeps ?_ ?_)
    | (with_reducible refine ite_keeps ?_ ?_)
    | split
    | dsimp only [id])

end Sys2Proof.Machine
end

