-- ==== Sys2Proof/Laws/HostRing.lean ====
section
/-! SUPPORT. What each operation of HostRing keeps. -/

namespace Sys2Proof.Machine

set_option linter.unreachableTactic false
set_option linter.unusedTactic false

variable {P : State → Prop} {s : State}

theorem State.raiseFn_keeps (u : Keeps [.log] P) {a0 : Nat} {a1 : Sys2Proof.EventId} {a2 : List Sys2Proof.Item} (k : P s) : P (State.raiseFn a0 a1 a2 s) := by
  unfold State.raiseFn
  repeat' (first
    | with_reducible assumption
    | (with_reducible refine u.mono ?_; decide)
    | (with_reducible refine State.raiseP_keeps ?_ ?_)
    | (with_reducible refine State.raise_keeps ?_ ?_)
    | (with_reducible refine ite_keeps ?_ ?_)
    | split
    | dsimp only [id])

theorem State.msix_keeps (u : Keeps [.hq] P) {a0 : Nat} (k : P s) : P (State.msix a0 s) := by
  unfold State.msix
  repeat' (first
    | with_reducible assumption
    | (with_reducible refine u.mono ?_; decide)
    | (intro _ h; exact h)
    | (intro h; exact h)
    | (intro _; rfl)
    | (with_reducible refine State.modHq_keeps ?_ ?_ ?_)
    | (with_reducible refine ite_keeps ?_ ?_)
    | split
    | dsimp only [id])

theorem State.hostWrite_keeps (u : Keeps [.hq] P) {a0 : Nat} {a1 : List Sys2Proof.Byte} (k : P s) : P (State.hostWrite a0 a1 s) := by
  unfold State.hostWrite
  repeat' (first
    | with_reducible assumption
    | (with_reducible refine u.mono ?_; decide)
    | (intro _ h; exact h)
    | (intro h; exact h)
    | (intro _; rfl)
    | (intro _ h; exact putBytes_wf _ _ _ _ h)
    | (with_reducible refine State.modHq_keeps ?_ ?_ ?_)
    | (with_reducible refine ite_keeps ?_ ?_)
    | split
    | dsimp only [id])

theorem State.cqPut_keeps (u : Keeps [.hq] P) {a0 : Nat} {a1 : Sys2Proof.Word} {a2 : Sys2Proof.Word} {a3 : Sys2Proof.Word} {a4 : Sys2Proof.Word} (k : P s) : P (State.cqPut a0 a1 a2 a3 a4 s) := by
  unfold State.cqPut
  repeat' (first
    | with_reducible assumption
    | (with_reducible refine u.mono ?_; decide)
    | (intro _ h; exact h)
    | (intro h; exact h)
    | (intro _; rfl)
    | (with_reducible refine State.msix_keeps ?_ ?_)
    | (with_reducible refine State.modHqQ_keeps ?_ ?_)
    | (with_reducible refine State.hostWrite_keeps ?_ ?_)
    | (with_reducible refine ite_keeps ?_ ?_)
    | split
    | dsimp only [id])

theorem State.deliverTo_keeps (u : Keeps [.hq] P) {a0 : BitVec 32} {a1 : LogEntry} {a2 : Nat} (k : P s) : P (State.deliverTo a0 a1 a2 s) := by
  unfold State.deliverTo
  repeat' (first
    | with_reducible assumption
    | (with_reducible refine u.mono ?_; decide)
    | (intro _ h; exact h)
    | (intro h; exact h)
    | (intro _; rfl)
    | (with_reducible refine State.modHq_keeps ?_ ?_ ?_)
    | (with_reducible refine State.cqPut_keeps ?_ ?_)
    | (with_reducible refine ite_keeps ?_ ?_)
    | split
    | dsimp only [id])

theorem State.deliver_keeps (u : Keeps [.hq] P) {a0 : BitVec 32} {a1 : LogEntry} (k : P s) : P (State.deliver a0 a1 s) := by
  unfold State.deliver
  repeat' (first
    | with_reducible assumption
    | (with_reducible refine u.mono ?_; decide)
    | (intro _ h; exact h)
    | (intro h; exact h)
    | (intro _; rfl)
    | (with_reducible refine State.each_keeps (fun _ _ _ => ?_) ?_)
    | (with_reducible refine State.deliverTo_keeps ?_ ?_)
    | (with_reducible refine ite_keeps ?_ ?_)
    | split
    | dsimp only [id])

end Sys2Proof.Machine
end

