-- ==== Sys2Proof/Laws/ModeOps.lean ====
section
/-! SUPPORT. What each operation of ModeOps keeps. -/

namespace Sys2Proof.Machine

set_option linter.unreachableTactic false
set_option linter.unusedTactic false

variable {P : State → Prop} {s : State}

theorem State.gPut_keeps (u : Keeps [.grt] P) {a0 : GMsg} (k : P s) : P (State.gPut a0 s) := by
  unfold State.gPut
  repeat' (first
    | with_reducible assumption
    | (with_reducible refine u.mono ?_; decide)
    | (with_reducible refine State.modGrt_keeps ?_ ?_)
    | (with_reducible refine ite_keeps ?_ ?_)
    | split
    | dsimp only [id])

theorem State.setMode_keeps (u : Keeps [.glb, .irc, .log] P) {a0 : Mode} {a1 : Role} {a2 : BitVec 2} (k : P s) : P (State.setMode a0 a1 a2 s) := by
  unfold State.setMode
  repeat' (first
    | with_reducible assumption
    | (with_reducible refine u.mono ?_; decide)
    | (intro _ h; exact h)
    | (intro h; exact h)
    | (intro _; rfl)
    | (with_reducible refine State.modGlb_keeps ?_ ?_)
    | (with_reducible refine State.raise_keeps ?_ ?_)
    | (with_reducible refine State.latch_keeps ?_ ?_)
    | (with_reducible refine ite_keeps ?_ ?_)
    | split
    | dsimp only [id])

theorem State.enterHalt_keeps (u : Keeps [.glb, .irc, .log] P) {a0 : Nat} (k : P s) : P (State.enterHalt a0 s) := by
  unfold State.enterHalt
  repeat' (first
    | with_reducible assumption
    | (with_reducible refine u.mono ?_; decide)
    | (intro _ h; exact h)
    | (intro h; exact h)
    | (intro _; rfl)
    | (with_reducible refine State.setMode_keeps ?_ ?_)
    | (with_reducible refine State.raise_keeps ?_ ?_)
    | (with_reducible refine State.modGlb_keeps ?_ ?_)
    | (with_reducible refine ite_keeps ?_ ?_)
    | split
    | dsimp only [id])

theorem State.recordFatal_keeps (u : Keeps [.glb, .irc, .log, .flt] P) {a0 : Nat} (k : P s) : P (State.recordFatal a0 s) := by
  unfold State.recordFatal
  repeat' (first
    | with_reducible assumption
    | (with_reducible refine u.mono ?_; decide)
    | (intro _ h; exact h)
    | (intro h; exact h)
    | (intro _; rfl)
    | (with_reducible refine State.modFltSrc_keeps ?_ ?_)
    | (with_reducible refine State.modFlt_keeps ?_ ?_)
    | (with_reducible refine State.enterHalt_keeps ?_ ?_)
    | (with_reducible refine ite_keeps ?_ ?_)
    | split
    | dsimp only [id])

theorem State.unitFenced_keeps (u : Keeps [.log] P) {a0 : Nat} {a1 : Nat} (k : P s) : P (State.unitFenced a0 a1 s) := by
  unfold State.unitFenced
  repeat' (first
    | with_reducible assumption
    | (with_reducible refine u.mono ?_; decide)
    | (with_reducible refine State.limited_keeps ?_ (fun _ _ => ?_) ?_)
    | (with_reducible refine State.raise_keeps ?_ ?_)
    | (with_reducible refine ite_keeps ?_ ?_)
    | split
    | dsimp only [id])

theorem State.wantAdmission_keeps (u : Keeps [.blw] P) {a0 : Nat} (k : P s) : P (State.wantAdmission a0 s) := by
  unfold State.wantAdmission
  repeat' (first
    | with_reducible assumption
    | (with_reducible refine u.mono ?_; decide)
    | (with_reducible refine State.modBlw_keeps ?_ ?_)
    | (with_reducible refine ite_keeps ?_ ?_)
    | split
    | dsimp only [id])

theorem State.recordContained_keeps (u : Keeps [.log, .flt] P) {a0 : Nat} {a1 : Reaction} {a2 : Bool} (k : P s) : P (State.recordContained a0 a1 a2 s) := by
  unfold State.recordContained
  repeat' (first
    | with_reducible assumption
    | (with_reducible refine u.mono ?_; decide)
    | (with_reducible refine State.modFltSrc_keeps ?_ ?_)
    | (with_reducible refine State.modFlt_keeps ?_ ?_)
    | (with_reducible refine State.limited_keeps ?_ (fun _ _ => ?_) ?_)
    | (with_reducible refine State.post_keeps ?_ ?_)
    | (with_reducible refine ite_keeps ?_ ?_)
    | split
    | dsimp only [id])

theorem State.recordCorrected_keeps (u : Keeps [.log, .flt] P) {a0 : Nat} (k : P s) : P (State.recordCorrected a0 s) := by
  unfold State.recordCorrected
  repeat' (first
    | with_reducible assumption
    | (with_reducible refine u.mono ?_; decide)
    | (with_reducible refine State.modFltSrc_keeps ?_ ?_)
    | (with_reducible refine State.limited_keeps ?_ (fun _ _ => ?_) ?_)
    | (with_reducible refine State.raise_keeps ?_ ?_)
    | (with_reducible refine ite_keeps ?_ ?_)
    | split
    | dsimp only [id])

theorem State.encRestart_keeps (u : Keeps [.enc, .grt] P) {a0 : Nat} {a1 : Sys2Proof.T48} {a2 : Nat} (k : P s) : P (State.encRestart a0 a1 a2 s) := by
  unfold State.encRestart
  repeat' (first
    | with_reducible assumption
    | (with_reducible refine u.mono ?_; decide)
    | (with_reducible refine State.modEncS_keeps ?_ ?_)
    | (with_reducible refine State.gPut_keeps ?_ ?_)
    | (with_reducible refine ite_keeps ?_ ?_)
    | split
    | dsimp only [id])

theorem State.served_keeps (u : Keeps [.blw] P) {a0 : Nat} (k : P s) : P (State.served a0 s) := by
  unfold State.served
  repeat' (first
    | with_reducible assumption
    | (with_reducible refine u.mono ?_; decide)
    | (with_reducible refine State.modBlw_keeps ?_ ?_)
    | (with_reducible refine ite_keeps ?_ ?_)
    | split
    | dsimp only [id])

end Sys2Proof.Machine
end

