-- ==== Sys2Proof/Laws/RasterOps.lean ====
section
/-! SUPPORT. What each operation of RasterOps keeps. -/

namespace Sys2Proof.Machine

set_option linter.unreachableTactic false
set_option linter.unusedTactic false

variable {P : State → Prop} {s : State}

theorem State.ledgerEvent_keeps (u : Keeps [.irc, .log] P) {a0 : Sys2Proof.EventId} {a1 : Nat} {a2 : BitVec 32} {a3 : List Sys2Proof.Item} (k : P s) : P (State.ledgerEvent a0 a1 a2 a3 s) := by
  unfold State.ledgerEvent
  repeat' (first
    | with_reducible assumption
    | (with_reducible refine u.mono ?_; decide)
    | (intro _ h; exact h)
    | (intro h; exact h)
    | (intro _; rfl)
    | (with_reducible refine State.raiseP_keeps ?_ ?_)
    | (with_reducible refine State.latch_keeps ?_ ?_)
    | (with_reducible refine ite_keeps ?_ ?_)
    | split
    | dsimp only [id])

theorem State.noteClk_keeps (u : Keeps [.ras] P) (k : P s) : P (State.noteClk s) := by
  unfold State.noteClk
  repeat' (first
    | with_reducible assumption
    | (with_reducible refine u.mono ?_; decide)
    | (with_reducible refine State.modClk_keeps ?_ ?_)
    | (with_reducible refine ite_keeps ?_ ?_)
    | split
    | dsimp only [id])

theorem State.clkState_keeps (u : Keeps [.ras, .irc, .log] P) {a0 : ClkState} {a1 : Sys2Proof.EventId} {a2 : List Sys2Proof.Item} (k : P s) : P (State.clkState a0 a1 a2 s) := by
  unfold State.clkState
  repeat' (first
    | with_reducible assumption
    | (with_reducible refine u.mono ?_; decide)
    | (intro _ h; exact h)
    | (intro h; exact h)
    | (intro _; rfl)
    | (with_reducible refine State.raise_keeps ?_ ?_)
    | (with_reducible refine State.latch_keeps ?_ ?_)
    | (with_reducible refine State.modClk_keeps ?_ ?_)
    | (with_reducible refine ite_keeps ?_ ?_)
    | split
    | dsimp only [id])

theorem State.setInState_keeps (u : Keeps [.ras, .irc, .log] P) {a0 : Nat} {a1 : InState} (k : P s) : P (State.setInState a0 a1 s) := by
  unfold State.setInState
  repeat' (first
    | with_reducible assumption
    | (with_reducible refine u.mono ?_; decide)
    | (intro _ h; exact h)
    | (intro h; exact h)
    | (intro _; rfl)
    | (with_reducible refine State.raise_keeps ?_ ?_)
    | (with_reducible refine State.latch_keeps ?_ ?_)
    | (with_reducible refine State.modRaster_keeps ?_ ?_)
    | (with_reducible refine ite_keeps ?_ ?_)
    | split
    | dsimp only [id])

theorem State.clearAllTimes_keeps (u : Keeps [.cmp, .irc, .log] P) (k : P s) : P (State.clearAllTimes s) := by
  unfold State.clearAllTimes
  repeat' (first
    | with_reducible assumption
    | (with_reducible refine u.mono ?_; decide)
    | (intro _ h; exact h)
    | (intro h; exact h)
    | (intro _; rfl)
    | (with_reducible refine State.raise_keeps ?_ ?_)
    | (with_reducible refine State.latch_keeps ?_ ?_)
    | (with_reducible refine State.modCmp_keeps ?_ ?_)
    | (with_reducible refine ite_keeps ?_ ?_)
    | split
    | dsimp only [id])

theorem State.clearTimes_keeps (u : Keeps [.cmp, .irc, .log] P) {a0 : Nat} {a1 : BitVec 32} (k : P s) : P (State.clearTimes a0 a1 s) := by
  unfold State.clearTimes
  repeat' (first
    | with_reducible assumption
    | (with_reducible refine u.mono ?_; decide)
    | (intro _ h; exact h)
    | (intro h; exact h)
    | (intro _; rfl)
    | (with_reducible refine State.ledgerEvent_keeps ?_ ?_)
    | (with_reducible refine State.modCmp_keeps ?_ ?_)
    | (with_reducible refine ite_keeps ?_ ?_)
    | split
    | dsimp only [id])

theorem State.realignAll_keeps (u : Keeps [.ras] P) (k : P s) : P (State.realignAll s) := by
  unfold State.realignAll
  repeat' (first
    | with_reducible assumption
    | (with_reducible refine u.mono ?_; decide)
    | (with_reducible refine State.each_keeps (fun _ _ _ => ?_) ?_)
    | (with_reducible refine State.modRaster_keeps ?_ ?_)
    | (with_reducible refine ite_keeps ?_ ?_)
    | split
    | dsimp only [id])

theorem State.clkStep_keeps (u : Keeps [.ptp, .ras, .cmp, .irc, .log] P) {a0 : ℤ} (k : P s) : P (State.clkStep a0 s) := by
  unfold State.clkStep
  repeat' (first
    | with_reducible assumption
    | (with_reducible refine u.mono ?_; decide)
    | (intro _ h; exact h)
    | (intro h; exact h)
    | (intro _; rfl)
    | (with_reducible refine State.modPtp_keeps ?_ ?_)
    | (with_reducible refine State.modClk_keeps ?_ ?_)
    | (with_reducible refine State.realignAll_keeps ?_ ?_)
    | (with_reducible refine State.clearAllTimes_keeps ?_ ?_)
    | (with_reducible refine State.raise_keeps ?_ ?_)
    | (with_reducible refine ite_keeps ?_ ?_)
    | split
    | dsimp only [id])

theorem State.estimateRate_keeps (u : Keeps [.freeCtr, .ras] P) (k : P s) : P (State.estimateRate s) := by
  unfold State.estimateRate
  repeat' (first
    | with_reducible assumption
    | (with_reducible refine u.mono ?_; decide)
    | (with_reducible refine State.tickFree_keeps ?_ ?_)
    | (with_reducible refine State.modClk_keeps ?_ ?_)
    | (with_reducible refine ite_keeps ?_ ?_)
    | split
    | dsimp only [id])

theorem State.passTime_keeps (u : Keeps [.now, .ptp, .ras] P) (k : P s) : P (State.passTime s) := by
  unfold State.passTime
  repeat' (first
    | with_reducible assumption
    | (with_reducible refine u.mono ?_; decide)
    | (with_reducible refine State.modNow_keeps ?_ ?_)
    | (with_reducible refine State.modPtp_keeps ?_ ?_)
    | (with_reducible refine State.modClk_keeps ?_ ?_)
    | (with_reducible refine ite_keeps ?_ ?_)
    | split
    | dsimp only [id])

theorem State.relock_keeps (u : Keeps [.ptp, .ras, .cmp, .irc, .log] P) {a0 : ℤ} (k : P s) : P (State.relock a0 s) := by
  unfold State.relock
  repeat' (first
    | with_reducible assumption
    | (with_reducible refine u.mono ?_; decide)
    | (intro _ h; exact h)
    | (intro h; exact h)
    | (intro _; rfl)
    | (with_reducible refine State.clkStep_keeps ?_ ?_)
    | (with_reducible refine State.modClk_keeps ?_ ?_)
    | (with_reducible refine State.noteClk_keeps ?_ ?_)
    | (with_reducible refine State.clkState_keeps ?_ ?_)
    | (with_reducible refine ite_keeps ?_ ?_)
    | split
    | dsimp only [id])

theorem State.syncOffset_keeps (u : Keeps [.ptp, .ras, .cmp, .irc, .log] P) {a0 : ℤ} (k : P s) : P (State.syncOffset a0 s) := by
  unfold State.syncOffset
  repeat' (first
    | with_reducible assumption
    | (with_reducible refine u.mono ?_; decide)
    | (intro _ h; exact h)
    | (intro h; exact h)
    | (intro _; rfl)
    | (with_reducible refine State.relock_keeps ?_ ?_)
    | (with_reducible refine State.modClk_keeps ?_ ?_)
    | (with_reducible refine State.noteClk_keeps ?_ ?_)
    | (with_reducible refine State.clkState_keeps ?_ ?_)
    | (with_reducible refine ite_keeps ?_ ?_)
    | split
    | dsimp only [id])

theorem execGrandmasterAccepted_keeps (u : Keeps [.ptp, .ras, .cmp, .irc, .log] P) {a0 : BitVec 2} {a1 : ℤ} (k : P s) : ∀ t, execGrandmasterAccepted a0 a1 s = .next t → P t := by
  intro t e
  injection e with e
  rw [← e]
  clear e
  repeat' (first
    | with_reducible assumption
    | (with_reducible refine u.mono ?_; decide)
    | (intro _ h; exact h)
    | (intro h; exact h)
    | (intro _; rfl)
    | (with_reducible refine nextOr_keeps (ok_keeps ?_) ?_)
    | (with_reducible refine State.relock_keeps ?_ ?_)
    | (with_reducible refine State.modClk_keeps ?_ ?_)
    | (with_reducible refine ite_keeps ?_ ?_)
    | split
    | dsimp only [id])

theorem execAnnounceTimeout_keeps (u : Keeps [.ras, .irc, .log] P) (k : P s) : ∀ t, execAnnounceTimeout s = .next t → P t := by
  intro t e
  injection e with e
  rw [← e]
  clear e
  repeat' (first
    | with_reducible assumption
    | (with_reducible refine u.mono ?_; decide)
    | (intro _ h; exact h)
    | (intro h; exact h)
    | (intro _; rfl)
    | (with_reducible refine nextOr_keeps (ok_keeps ?_) ?_)
    | (with_reducible refine State.noteClk_keeps ?_ ?_)
    | (with_reducible refine State.clkState_keeps ?_ ?_)
    | (with_reducible refine State.modClk_keeps ?_ ?_)
    | (with_reducible refine ite_keeps ?_ ?_)
    | split
    | dsimp only [id])

theorem execHoldoverLimit_keeps (u : Keeps [.ras, .irc, .log] P) (k : P s) : ∀ t, execHoldoverLimit s = .next t → P t := by
  intro t e
  injection e with e
  rw [← e]
  clear e
  repeat' (first
    | with_reducible assumption
    | (with_reducible refine u.mono ?_; decide)
    | (intro _ h; exact h)
    | (intro h; exact h)
    | (intro _; rfl)
    | (with_reducible refine nextOr_keeps (ok_keeps ?_) ?_)
    | (with_reducible refine State.raise_keeps ?_ ?_)
    | (with_reducible refine State.latch_keeps ?_ ?_)
    | (with_reducible refine State.modClk_keeps ?_ ?_)
    | (with_reducible refine ite_keeps ?_ ?_)
    | split
    | dsimp only [id])

end Sys2Proof.Machine
end

