-- ==== Sys2Proof/Laws/HostOut.lean ====
section
/-! SUPPORT. What each operation of HostOut keeps. -/

namespace Sys2Proof.Machine

set_option linter.unreachableTactic false
set_option linter.unusedTactic false

variable {P : State → Prop} {s : State}

theorem State.pageEntry_keeps (u : Keeps [.enc, .hq] P) {a0 : Nat} (k : P s) : P (State.pageEntry a0 s) := by
  unfold State.pageEntry
  repeat' (first
    | with_reducible assumption
    | (with_reducible refine u.mono ?_; decide)
    | (intro _ h; exact h)
    | (intro h; exact h)
    | (intro _; rfl)
    | (with_reducible refine State.cqPut_keeps ?_ ?_)
    | (with_reducible refine State.modHqQ_keeps ?_ ?_)
    | (with_reducible refine State.modEncS_keeps ?_ ?_)
    | (with_reducible refine ite_keeps ?_ ?_)
    | split
    | dsimp only [id])

theorem State.pageDone_keeps (u : Keeps [.enc, .hq] P) {a0 : Nat} {a1 : Status} (k : P s) : P (State.pageDone a0 a1 s) := by
  unfold State.pageDone
  repeat' (first
    | with_reducible assumption
    | (with_reducible refine u.mono ?_; decide)
    | (intro _ h; exact h)
    | (intro h; exact h)
    | (intro _; rfl)
    | (with_reducible refine State.pageEntry_keeps ?_ ?_)
    | (with_reducible refine State.modEncS_keeps ?_ ?_)
    | (with_reducible refine ite_keeps ?_ ?_)
    | split
    | dsimp only [id])

theorem State.beginDrop_keeps (u : Keeps [.enc, .hq, .log] P) {a0 : Nat} (k : P s) : P (State.beginDrop a0 s) := by
  unfold State.beginDrop
  repeat' (first
    | with_reducible assumption
    | (with_reducible refine u.mono ?_; decide)
    | (intro _ h; exact h)
    | (intro h; exact h)
    | (intro _; rfl)
    | (with_reducible refine State.pageDone_keeps ?_ ?_)
    | (with_reducible refine State.modEncS_keeps ?_ ?_)
    | (with_reducible refine State.limited_keeps ?_ (fun _ _ => ?_) ?_)
    | (with_reducible refine State.raiseP_keeps ?_ ?_)
    | (with_reducible refine ite_keeps ?_ ?_)
    | split
    | dsimp only [id])

theorem State.ageTest_keeps (u : Keeps [.enc, .hq, .log] P) {a0 : Nat} (k : P s) : P (State.ageTest a0 s) := by
  unfold State.ageTest
  repeat' (first
    | with_reducible assumption
    | (with_reducible refine u.mono ?_; decide)
    | (intro _ h; exact h)
    | (intro h; exact h)
    | (intro _; rfl)
    | (with_reducible refine State.beginDrop_keeps ?_ ?_)
    | (with_reducible refine ite_keeps ?_ ?_)
    | split
    | dsimp only [id])

theorem State.claimOut_keeps (u : Keeps [.enc] P) {a0 : Nat} (k : P s) : P (State.claimOut a0 s) := by
  unfold State.claimOut
  repeat' (first
    | with_reducible assumption
    | (with_reducible refine u.mono ?_; decide)
    | (with_reducible refine State.modEncS_keeps ?_ ?_)
    | (with_reducible refine ite_keeps ?_ ?_)
    | split
    | dsimp only [id])

theorem State.endDrop_keeps (u : Keeps [.enc, .log] P) {a0 : Nat} (k : P s) : P (State.endDrop a0 s) := by
  unfold State.endDrop
  repeat' (first
    | with_reducible assumption
    | (with_reducible refine u.mono ?_; decide)
    | (with_reducible refine State.limited_keeps ?_ (fun _ _ => ?_) ?_)
    | (with_reducible refine State.raiseP_keeps ?_ ?_)
    | (with_reducible refine State.modEncS_keeps ?_ ?_)
    | (with_reducible refine ite_keeps ?_ ?_)
    | split
    | dsimp only [id])

theorem State.fillPage_keeps (u : Keeps [.enc, .hq] P) {a0 : Nat} (k : P s) : P (State.fillPage a0 s) := by
  unfold State.fillPage
  repeat' (first
    | with_reducible assumption
    | (with_reducible refine u.mono ?_; decide)
    | (intro _ h; exact h)
    | (intro h; exact h)
    | (intro _; rfl)
    | (with_reducible refine State.hostWrite_keeps ?_ ?_)
    | (with_reducible refine State.modEncS_keeps ?_ ?_)
    | (with_reducible refine State.pageDone_keeps ?_ ?_)
    | (with_reducible refine ite_keeps ?_ ?_)
    | split
    | dsimp only [id])

theorem State.stageRow_keeps (u : Keeps [.enc, .hq, .log] P) {a0 : Nat} {a1 : BitVec 32} {a2 : List (List Sys2Proof.Byte)} {a3 : Bool} {a4 : Bool} {a5 : Bool} (k : P s) : P (State.stageRow a0 a1 a2 a3 a4 a5 s) := by
  unfold State.stageRow
  repeat' (first
    | with_reducible assumption
    | (with_reducible refine u.mono ?_; decide)
    | (intro _ h; exact h)
    | (intro h; exact h)
    | (intro _; rfl)
    | (with_reducible refine State.claimOut_keeps ?_ ?_)
    | (with_reducible refine State.endDrop_keeps ?_ ?_)
    | (with_reducible refine State.modEncS_keeps ?_ ?_)
    | (with_reducible refine State.fillPage_keeps ?_ ?_)
    | (with_reducible refine State.ageTest_keeps ?_ ?_)
    | (with_reducible refine ite_keeps ?_ ?_)
    | split
    | dsimp only [id])

theorem State.startPage_keeps (u : Keeps [.enc, .hq, .grt] P) {a0 : Nat} {a1 : BitVec 64} {a2 : BitVec 16} {a3 : BitVec 16} (k : P s) : P (State.startPage a0 a1 a2 a3 s) := by
  unfold State.startPage
  repeat' (first
    | with_reducible assumption
    | (with_reducible refine u.mono ?_; decide)
    | (intro _ h; exact h)
    | (intro h; exact h)
    | (intro _; rfl)
    | (with_reducible refine State.modEncS_keeps ?_ ?_)
    | (with_reducible refine State.encRestart_keeps ?_ ?_)
    | (with_reducible refine State.fillPage_keeps ?_ ?_)
    | (with_reducible refine ite_keeps ?_ ?_)
    | split
    | dsimp only [id])

end Sys2Proof.Machine
end

