-- ==== Sys2Proof/Laws/Ledger.lean ====
section
/-! SUPPORT. What each operation of Ledger keeps. -/

namespace Sys2Proof.Machine

set_option linter.unreachableTactic false
set_option linter.unusedTactic false

variable {P : State → Prop} {s : State}

theorem State.sendDeltas_keeps (u : Keeps [.grt] P) {a0 : Nat} {a1 : State} (k : P s) : P (State.sendDeltas a0 a1 s) := by
  unfold State.sendDeltas
  repeat' (first
    | with_reducible assumption
    | (with_reducible refine u.mono ?_; decide)
    | (with_reducible refine State.gPut_keeps ?_ ?_)
    | (with_reducible refine ite_keeps ?_ ?_)
    | split
    | dsimp only [id])

theorem State.withLedger_keeps (u : Keeps [.dec, .grt] P) {a0 : Nat} {a1 : State → State} (h1 : ∀ x0, P x0 → P (a1 x0)) (k : P s) : P (State.withLedger a0 a1 s) := by
  unfold State.withLedger
  repeat' (first
    | with_reducible assumption
    | (with_reducible refine u.mono ?_; decide)
    | (with_reducible refine State.sendDeltas_keeps ?_ ?_)
    | (with_reducible refine State.modDecS_keeps ?_ ?_)
    | (with_reducible refine h1 _ ?_)
    | (with_reducible refine ite_keeps ?_ ?_)
    | split
    | dsimp only [id])

end Sys2Proof.Machine
end

