-- ==== Sys2Proof/Laws/Wakes.lean ====
section
/-! SUPPORT. What each operation of Wakes keeps. -/

namespace Sys2Proof.Machine

set_option linter.unreachableTactic false
set_option linter.unusedTactic false

variable {P : State → Prop} {s : State}

theorem State.askTokens_keeps (u : Keeps [.blw] P) {a0 : Nat} {a1 : Sys2Proof.ReqKind} {a2 : Sys2Proof.Level} {a3 : Nat} (k : P s) : P (State.askTokens a0 a1 a2 a3 s) := by
  unfold State.askTokens
  repeat' (first
    | with_reducible assumption
    | (with_reducible refine u.mono ?_; decide)
    | (with_reducible refine State.modRail_keeps ?_ ?_)
    | (with_reducible refine ite_keeps ?_ ?_)
    | split
    | dsimp only [id])

theorem State.wakeCore_keeps (u : Keeps [.cores, .blw] P) {a0 : Nat} (k : P s) : P (State.wakeCore a0 s) := by
  unfold State.wakeCore
  repeat' (first
    | with_reducible assumption
    | (with_reducible refine u.mono ?_; decide)
    | (with_reducible refine State.modCore_keeps ?_ ?_)
    | (with_reducible refine State.whenB_keeps (fun _ _ => ?_) ?_)
    | (with_reducible refine State.askTokens_keeps ?_ ?_)
    | (with_reducible refine ite_keeps ?_ ?_)
    | split
    | dsimp only [id])

theorem State.coreEvent_keeps (u : Keeps [.cores, .blw] P) {a0 : Nat} {a1 : Nat} (k : P s) : P (State.coreEvent a0 a1 s) := by
  unfold State.coreEvent
  repeat' (first
    | with_reducible assumption
    | (with_reducible refine u.mono ?_; decide)
    | (with_reducible refine State.wakeCore_keeps ?_ ?_)
    | (with_reducible refine State.modCore_keeps ?_ ?_)
    | (with_reducible refine ite_keeps ?_ ?_)
    | split
    | dsimp only [id])

theorem State.eventAt_keeps (u : Keeps [.cores, .blw] P) {a0 : CoreS → Bool} {a1 : Nat} (k : P s) : P (State.eventAt a0 a1 s) := by
  unfold State.eventAt
  repeat' (first
    | with_reducible assumption
    | (with_reducible refine u.mono ?_; decide)
    | (with_reducible refine State.each_keeps (fun _ _ _ => ?_) ?_)
    | (with_reducible refine State.coreEvent_keeps ?_ ?_)
    | (with_reducible refine ite_keeps ?_ ?_)
    | split
    | dsimp only [id])

theorem State.freeTokens_keeps (u : Keeps [.blw] P) {a0 : Nat} {a1 : Sys2Proof.ReqKind} {a2 : Nat} (k : P s) : P (State.freeTokens a0 a1 a2 s) := by
  unfold State.freeTokens
  repeat' (first
    | with_reducible assumption
    | (with_reducible refine u.mono ?_; decide)
    | (with_reducible refine State.modRail_keeps ?_ ?_)
    | (with_reducible refine ite_keeps ?_ ?_)
    | split
    | dsimp only [id])

theorem State.newIdentity_keeps (u : Keeps [.enc, .grt] P) {a0 : Nat} (k : P s) : P (State.newIdentity a0 s) := by
  unfold State.newIdentity
  repeat' (first
    | with_reducible assumption
    | (with_reducible refine u.mono ?_; decide)
    | (with_reducible refine State.modEncS_keeps ?_ ?_)
    | (with_reducible refine State.whenB_keeps (fun _ _ => ?_) ?_)
    | (with_reducible refine State.gPut_keeps ?_ ?_)
    | (with_reducible refine ite_keeps ?_ ?_)
    | split
    | dsimp only [id])

theorem State.newIdentities_keeps (u : Keeps [.enc, .grt] P) (k : P s) : P (State.newIdentities s) := by
  unfold State.newIdentities
  repeat' (first
    | with_reducible assumption
    | (with_reducible refine u.mono ?_; decide)
    | (with_reducible refine State.each_keeps (fun _ _ _ => ?_) ?_)
    | (with_reducible refine State.newIdentity_keeps ?_ ?_)
    | (with_reducible refine ite_keeps ?_ ?_)
    | split
    | dsimp only [id])

theorem State.askWakes_keeps (u : Keeps [.blw] P) (k : P s) : P (State.askWakes s) := by
  unfold State.askWakes
  repeat' (first
    | with_reducible assumption
    | (with_reducible refine u.mono ?_; decide)
    | (with_reducible refine State.each_keeps (fun _ _ _ => ?_) ?_)
    | (with_reducible refine State.askTokens_keeps ?_ ?_)
    | (with_reducible refine ite_keeps ?_ ?_)
    | split
    | dsimp only [id])

theorem State.modPatch_keeps (u : Keeps [.glb] P) {a0 : PatchS → PatchS} (k : P s) : P (State.modPatch a0 s) := by
  unfold State.modPatch
  repeat' (first
    | with_reducible assumption
    | (with_reducible refine u.mono ?_; decide)
    | (with_reducible refine State.modGlb_keeps ?_ ?_)
    | (with_reducible refine ite_keeps ?_ ?_)
    | split
    | dsimp only [id])

theorem State.standBack_keeps (u : Keeps [.glb] P) {a0 : Nat} {a1 : Bool} (k : P s) : P (State.standBack a0 a1 s) := by
  unfold State.standBack
  repeat' (first
    | with_reducible assumption
    | (with_reducible refine u.mono ?_; decide)
    | (with_reducible refine State.modPatch_keeps ?_ ?_)
    | (with_reducible refine ite_keeps ?_ ?_)
    | split
    | dsimp only [id])

theorem State.endBatches_keeps (u : Keeps [.enc, .blw, .glb, .log, .grt] P) (k : P s) : P (State.endBatches s) := by
  unfold State.endBatches
  repeat' (first
    | with_reducible assumption
    | (with_reducible refine u.mono ?_; decide)
    | (with_reducible refine State.raise_keeps ?_ ?_)
    | (with_reducible refine State.modPatch_keeps ?_ ?_)
    | (with_reducible refine State.whenB_keeps (fun _ _ => ?_) ?_)
    | (with_reducible refine State.wantAdmission_keeps ?_ ?_)
    | (with_reducible refine State.newIdentities_keeps ?_ ?_)
    | (with_reducible refine ite_keeps ?_ ?_)
    | split
    | dsimp only [id])

theorem State.setRole_keeps (u : Keeps [.cores] P) {a0 : Nat} {a1 : CoreRole} {a2 : Option Nat} (k : P s) : P (State.setRole a0 a1 a2 s) := by
  unfold State.setRole
  repeat' (first
    | with_reducible assumption
    | (with_reducible refine u.mono ?_; decide)
    | (with_reducible refine State.modCore_keeps ?_ ?_)
    | (with_reducible refine ite_keeps ?_ ?_)
    | split
    | dsimp only [id])

theorem State.stepStandIn_keeps (u : Keeps [.cores, .blw, .glb] P) {a0 : StandIn} (k : P s) : P (State.stepStandIn a0 s) := by
  unfold State.stepStandIn
  repeat' (first
    | with_reducible assumption
    | (with_reducible refine u.mono ?_; decide)
    | (with_reducible refine State.modPatch_keeps ?_ ?_)
    | (with_reducible refine State.setRole_keeps ?_ ?_)
    | (with_reducible refine State.modCore_keeps ?_ ?_)
    | (with_reducible refine State.coreEvent_keeps ?_ ?_)
    | (with_reducible refine ite_keeps ?_ ?_)
    | split
    | dsimp only [id])

theorem State.stepBatch_keeps (u : Keeps [.cores, .blw, .glb] P) (k : P s) : P (State.stepBatch s) := by
  unfold State.stepBatch
  repeat' (first
    | with_reducible assumption
    | (with_reducible refine u.mono ?_; decide)
    | (with_reducible refine State.each_keeps (fun _ _ _ => ?_) ?_)
    | (with_reducible refine State.stepStandIn_keeps ?_ ?_)
    | (with_reducible refine ite_keeps ?_ ?_)
    | split
    | dsimp only [id])

theorem State.standIn_keeps (u : Keeps [.cores, .glb] P) {a0 : Nat} {a1 : Nat} (k : P s) : P (State.standIn a0 a1 s) := by
  unfold State.standIn
  repeat' (first
    | with_reducible assumption
    | (with_reducible refine u.mono ?_; decide)
    | (with_reducible refine State.modPatch_keeps ?_ ?_)
    | (with_reducible refine State.setRole_keeps ?_ ?_)
    | (with_reducible refine ite_keeps ?_ ?_)
    | split
    | dsimp only [id])

theorem State.nextBatch_keeps (u : Keeps [.enc, .cores, .blw, .glb, .log, .grt] P) (k : P s) : P (State.nextBatch s) := by
  unfold State.nextBatch
  repeat' (first
    | with_reducible assumption
    | (with_reducible refine u.mono ?_; decide)
    | (with_reducible refine State.endBatches_keeps ?_ ?_)
    | (with_reducible refine State.modPatch_keeps ?_ ?_)
    | (with_reducible refine State.stepBatch_keeps ?_ ?_)
    | (with_reducible refine State.each_keeps (fun _ _ _ => ?_) ?_)
    | (with_reducible refine State.standIn_keeps ?_ ?_)
    | (with_reducible refine ite_keeps ?_ ?_)
    | split
    | dsimp only [id])

theorem State.patchStep_keeps (u : Keeps [.enc, .cores, .blw, .glb, .log, .grt] P) (k : P s) : P (State.patchStep s) := by
  unfold State.patchStep
  repeat' (first
    | with_reducible assumption
    | (with_reducible refine u.mono ?_; decide)
    | (with_reducible refine State.stepBatch_keeps ?_ ?_)
    | (with_reducible refine State.nextBatch_keeps ?_ ?_)
    | (with_reducible refine ite_keeps ?_ ?_)
    | split
    | dsimp only [id])

end Sys2Proof.Machine
end

