-- ==== Sys2Proof/Laws/Recon.lean ====
section
/-! SUPPORT. What each operation of Recon keeps. -/

namespace Sys2Proof.Machine

set_option linter.unreachableTactic false
set_option linter.unusedTactic false

variable {P : State → Prop} {s : State}

theorem State.withStatus_keeps (u : Keeps [.dec] P) {a0 : Nat} {a1 : State → State} (h1 : ∀ x0, P x0 → P (a1 x0)) (k : P s) : P (State.withStatus a0 a1 s) := by
  unfold State.withStatus
  repeat' (first
    | with_reducible assumption
    | (with_reducible refine u.mono ?_; decide)
    | (with_reducible refine State.modDecS_keeps ?_ ?_)
    | (with_reducible refine h1 _ ?_)
    | (with_reducible refine ite_keeps ?_ ?_)
    | split
    | dsimp only [id])

theorem State.modPic_keeps (u : Keeps [.dec] P) {a0 : Nat} {a1 : Nat} {a2 : DecPic → DecPic} (k : P s) : P (State.modPic a0 a1 a2 s) := by
  unfold State.modPic
  repeat' (first
    | with_reducible assumption
    | (with_reducible refine u.mono ?_; decide)
    | (with_reducible refine State.modDecS_keeps ?_ ?_)
    | (with_reducible refine ite_keeps ?_ ?_)
    | split
    | dsimp only [id])

theorem State.decError_keeps (u : Keeps [.dec] P) {a0 : Nat} {a1 : Nat} {a2 : Sys2Proof.DecErr} {a3 : Option Nat} (k : P s) : P (State.decError a0 a1 a2 a3 s) := by
  unfold State.decError
  repeat' (first
    | with_reducible assumption
    | (with_reducible refine u.mono ?_; decide)
    | (with_reducible refine State.modPic_keeps ?_ ?_)
    | (with_reducible refine State.modDecS_keeps ?_ ?_)
    | (with_reducible refine ite_keeps ?_ ?_)
    | split
    | dsimp only [id])

theorem State.modRow_keeps (u : Keeps [.dec] P) {a0 : Nat} {a1 : Nat} {a2 : Nat} {a3 : RowRec → RowRec} (k : P s) : P (State.modRow a0 a1 a2 a3 s) := by
  unfold State.modRow
  repeat' (first
    | with_reducible assumption
    | (with_reducible refine u.mono ?_; decide)
    | (with_reducible refine State.modPic_keeps ?_ ?_)
    | (with_reducible refine ite_keeps ?_ ?_)
    | split
    | dsimp only [id])

theorem State.applyTile_keeps (u : Keeps [.dec, .cmp] P) {a0 : Nat} {a1 : Nat} {a2 : Nat} {a3 : BitVec 32} {a4 : TileEvent} (k : P s) : P (State.applyTile a0 a1 a2 a3 a4 s) := by
  unfold State.applyTile
  repeat' (first
    | with_reducible assumption
    | (with_reducible refine u.mono ?_; decide)
    | (with_reducible refine State.modPic_keeps ?_ ?_)
    | (with_reducible refine State.modTile_keeps ?_ ?_)
    | (with_reducible refine ite_keeps ?_ ?_)
    | split
    | dsimp only [id])

theorem State.applyEnters_keeps (u : Keeps [.dec, .cmp] P) {a0 : Nat} {a1 : Nat} {a2 : Nat} (k : P s) : P (State.applyEnters a0 a1 a2 s) := by
  unfold State.applyEnters
  repeat' (first
    | with_reducible assumption
    | (with_reducible refine u.mono ?_; decide)
    | (with_reducible refine State.modRow_keeps ?_ ?_)
    | (with_reducible refine State.each_keeps (fun _ _ _ => ?_) ?_)
    | (with_reducible refine State.applyTile_keeps ?_ ?_)
    | (with_reducible refine ite_keeps ?_ ?_)
    | split
    | dsimp only [id])

theorem State.applyForeign_keeps (u : Keeps [.dec, .cmp] P) {a0 : Nat} {a1 : Nat} {a2 : Nat} {a3 : BitVec 32} {a4 : Sys2Proof.T48} {a5 : TileOut} (k : P s) : P (State.applyForeign a0 a1 a2 a3 a4 a5 s) := by
  unfold State.applyForeign
  repeat' (first
    | with_reducible assumption
    | (with_reducible refine u.mono ?_; decide)
    | (with_reducible refine State.applyTile_keeps ?_ ?_)
    | (with_reducible refine State.modTile_keeps ?_ ?_)
    | (with_reducible refine ite_keeps ?_ ?_)
    | split
    | dsimp only [id])

theorem State.modFrame_keeps (u : Keeps [.dec, .drm] P) {a0 : Nat} {a1 : Nat} {a2 : FrameBuf → FrameBuf} (k : P s) : P (State.modFrame a0 a1 a2 s) := by
  unfold State.modFrame
  repeat' (first
    | with_reducible assumption
    | (with_reducible refine u.mono ?_; decide)
    | (with_reducible refine State.modPoolD_keeps ?_ ?_)
    | (with_reducible refine State.modDecS_keeps ?_ ?_)
    | (with_reducible refine ite_keeps ?_ ?_)
    | split
    | dsimp only [id])

theorem State.untaint_keeps (u : Keeps [.dec, .drm] P) {a0 : Nat} {a1 : Nat} {a2 : Nat} {a3 : Nat} (k : P s) : P (State.untaint a0 a1 a2 a3 s) := by
  unfold State.untaint
  repeat' (first
    | with_reducible assumption
    | (with_reducible refine u.mono ?_; decide)
    | (with_reducible refine State.modDecS_keeps ?_ ?_)
    | (with_reducible refine State.modFrame_keeps ?_ ?_)
    | (with_reducible refine ite_keeps ?_ ?_)
    | split
    | dsimp only [id])

theorem State.applyLedger_keeps (u : Keeps [.dec, .cmp, .drm] P) {a0 : Nat} {a1 : Nat} {a2 : Nat} {a3 : BitVec 32} {a4 : TileOut} {a5 : Option TileOut} (k : P s) : P (State.applyLedger a0 a1 a2 a3 a4 a5 s) := by
  unfold State.applyLedger
  repeat' (first
    | with_reducible assumption
    | (with_reducible refine u.mono ?_; decide)
    | (with_reducible refine State.applyTile_keeps ?_ ?_)
    | (with_reducible refine State.untaint_keeps ?_ ?_)
    | (with_reducible refine State.modDecS_keeps ?_ ?_)
    | (with_reducible refine ite_keeps ?_ ?_)
    | split
    | dsimp only [id])

theorem State.ledgerApplied_keeps (u : Keeps [.freeCtr, .dec] P) {a0 : Nat} {a1 : DecPic} (k : P s) : P (State.ledgerApplied a0 a1 s) := by
  unfold State.ledgerApplied
  repeat' (first
    | with_reducible assumption
    | (with_reducible refine u.mono ?_; decide)
    | (with_reducible refine State.modDecS_keeps ?_ ?_)
    | (with_reducible refine State.tickFree_keeps ?_ ?_)
    | (with_reducible refine ite_keeps ?_ ?_)
    | split
    | dsimp only [id])

theorem State.settleVideo_keeps (u : Keeps [.freeCtr, .dec, .cmp, .drm] P) {a0 : Nat} {a1 : Nat} {a2 : Nat} (k : P s) : P (State.settleVideo a0 a1 a2 s) := by
  unfold State.settleVideo
  repeat' (first
    | with_reducible assumption
    | (with_reducible refine u.mono ?_; decide)
    | (with_reducible refine State.each_keeps (fun _ _ _ => ?_) ?_)
    | (with_reducible refine State.applyForeign_keeps ?_ ?_)
    | (with_reducible refine State.applyLedger_keeps ?_ ?_)
    | (with_reducible refine State.modDecS_keeps ?_ ?_)
    | (with_reducible refine State.ledgerApplied_keeps ?_ ?_)
    | (with_reducible refine State.modRow_keeps ?_ ?_)
    | (with_reducible refine ite_keeps ?_ ?_)
    | split
    | dsimp only [id])

theorem State.settleValue_keeps (u : Keeps [.freeCtr, .dec, .cmp, .drm] P) {a0 : Nat} {a1 : Nat} {a2 : Nat} (k : P s) : P (State.settleValue a0 a1 a2 s) := by
  unfold State.settleValue
  repeat' (first
    | with_reducible assumption
    | (with_reducible refine u.mono ?_; decide)
    | (with_reducible refine State.modRow_keeps ?_ ?_)
    | (with_reducible refine State.each_keeps (fun _ _ _ => ?_) ?_)
    | (with_reducible refine State.applyLedger_keeps ?_ ?_)
    | (with_reducible refine State.ledgerApplied_keeps ?_ ?_)
    | (with_reducible refine ite_keeps ?_ ?_)
    | split
    | dsimp only [id])

theorem State.settleRow_keeps (u : Keeps [.freeCtr, .dec, .cmp, .drm] P) {a0 : Nat} {a1 : Nat} {a2 : Nat} (k : P s) : P (State.settleRow a0 a1 a2 s) := by
  unfold State.settleRow
  repeat' (first
    | with_reducible assumption
    | (with_reducible refine u.mono ?_; decide)
    | (with_reducible refine State.applyEnters_keeps ?_ ?_)
    | (with_reducible refine State.settleVideo_keeps ?_ ?_)
    | (with_reducible refine State.settleValue_keeps ?_ ?_)
    | (with_reducible refine ite_keeps ?_ ?_)
    | split
    | dsimp only [id])

theorem State.pocEvent_keeps (u : Keeps [.freeCtr, .log] P) {a0 : Nat} {a1 : Option (BitVec 32)} {a2 : Sys2Proof.EventId} {a3 : List Sys2Proof.Item} (k : P s) : P (State.pocEvent a0 a1 a2 a3 s) := by
  unfold State.pocEvent
  repeat' (first
    | with_reducible assumption
    | (with_reducible refine u.mono ?_; decide)
    | (with_reducible refine State.whenB_keeps (fun _ _ => ?_) ?_)
    | (with_reducible refine State.tickFree_keeps ?_ ?_)
    | (with_reducible refine State.raiseP_keeps ?_ ?_)
    | (with_reducible refine ite_keeps ?_ ?_)
    | split
    | dsimp only [id])

theorem State.raiseError_keeps (u : Keeps [.freeCtr, .dec, .log] P) {a0 : Nat} {a1 : Option (BitVec 32)} {a2 : Sys2Proof.DecErr × Option Nat} (k : P s) : P (State.raiseError a0 a1 a2 s) := by
  unfold State.raiseError
  repeat' (first
    | with_reducible assumption
    | (with_reducible refine u.mono ?_; decide)
    | (with_reducible refine State.modDecS_keeps ?_ ?_)
    | (with_reducible refine State.modFreeCtr_keeps ?_ ?_)
    | (with_reducible refine State.pocEvent_keeps ?_ ?_)
    | (with_reducible refine ite_keeps ?_ ?_)
    | split
    | dsimp only [id])

theorem State.flushPic_keeps (u : Keeps [.freeCtr, .dec, .irc, .log] P) {a0 : Nat} {a1 : DecPic} (k : P s) : P (State.flushPic a0 a1 s) := by
  unfold State.flushPic
  repeat' (first
    | with_reducible assumption
    | (with_reducible refine u.mono ?_; decide)
    | (intro _ h; exact h)
    | (intro h; exact h)
    | (intro _; rfl)
    | (with_reducible refine State.tickFree_keeps ?_ ?_)
    | (with_reducible refine State.each_keeps (fun _ _ _ => ?_) ?_)
    | (with_reducible refine State.ledgerEvent_keeps ?_ ?_)
    | (with_reducible refine State.raiseError_keeps ?_ ?_)
    | (with_reducible refine ite_keeps ?_ ?_)
    | split
    | dsimp only [id])

theorem State.settle_keeps (u : Keeps [.freeCtr, .dec, .cmp, .drm, .irc, .log] P) {a0 : Nat} (k : P s) : P (State.settle a0 s) := by
  unfold State.settle
  repeat' (first
    | with_reducible assumption
    | (with_reducible refine u.mono ?_; decide)
    | (intro _ h; exact h)
    | (intro h; exact h)
    | (intro _; rfl)
    | (with_reducible refine State.each_keeps (fun _ _ _ => ?_) ?_)
    | (with_reducible refine State.settleRow_keeps ?_ ?_)
    | (with_reducible refine State.modDecS_keeps ?_ ?_)
    | (with_reducible refine State.flushPic_keeps ?_ ?_)
    | (with_reducible refine ite_keeps ?_ ?_)
    | split
    | dsimp only [id])

theorem State.dropFrames_keeps (u : Keeps [.dec] P) {a0 : Nat} (k : P s) : P (State.dropFrames a0 s) := by
  unfold State.dropFrames
  repeat' (first
    | with_reducible assumption
    | (with_reducible refine u.mono ?_; decide)
    | (with_reducible refine State.modDecS_keeps ?_ ?_)
    | (with_reducible refine ite_keeps ?_ ?_)
    | split
    | dsimp only [id])

theorem State.eachFrame_keeps (u : Keeps [.drm] P) {a0 : Nat} {a1 : FrameBuf → Bool} {a2 : PoolDesc → PoolDesc} (k : P s) : P (State.eachFrame a0 a1 a2 s) := by
  unfold State.eachFrame
  repeat' (first
    | with_reducible assumption
    | (with_reducible refine u.mono ?_; decide)
    | (with_reducible refine State.each_keeps (fun _ _ _ => ?_) ?_)
    | (with_reducible refine State.modPoolD_keeps ?_ ?_)
    | (with_reducible refine ite_keeps ?_ ?_)
    | split
    | dsimp only [id])

theorem State.outputOrder_keeps (u : Keeps [.dec, .drm] P) {a0 : Nat} (k : P s) : P (State.outputOrder a0 s) := by
  unfold State.outputOrder
  repeat' (first
    | with_reducible assumption
    | (with_reducible refine u.mono ?_; decide)
    | (with_reducible refine State.dropFrames_keeps ?_ ?_)
    | (with_reducible refine State.modDecS_keeps ?_ ?_)
    | (with_reducible refine State.eachFrame_keeps ?_ ?_)
    | (with_reducible refine ite_keeps ?_ ?_)
    | split
    | dsimp only [id])

theorem State.picOnce_keeps (u : Keeps [.dec] P) {a0 : Nat} {a1 : Nat} {a2 : Sys2Proof.EventId} {a3 : Nat} {a4 : State → State} (h4 : ∀ x0, P x0 → P (a4 x0)) (k : P s) : P (State.picOnce a0 a1 a2 a3 a4 s) := by
  unfold State.picOnce
  repeat' (first
    | with_reducible assumption
    | (with_reducible refine u.mono ?_; decide)
    | (with_reducible refine State.modPic_keeps ?_ ?_)
    | (with_reducible refine h4 _ ?_)
    | (with_reducible refine ite_keeps ?_ ?_)
    | split
    | dsimp only [id])

theorem State.decEvent_keeps (u : Keeps [.dec, .log] P) {a0 : Nat} {a1 : Nat} {a2 : Sys2Proof.EventId} {a3 : Nat} {a4 : List Sys2Proof.Item} (k : P s) : P (State.decEvent a0 a1 a2 a3 a4 s) := by
  unfold State.decEvent
  repeat' (first
    | with_reducible assumption
    | (with_reducible refine u.mono ?_; decide)
    | (with_reducible refine State.picOnce_keeps ?_ (fun _ _ => ?_) ?_)
    | (with_reducible refine State.raiseP_keeps ?_ ?_)
    | (with_reducible refine ite_keeps ?_ ?_)
    | split
    | dsimp only [id])

theorem State.claimRing_keeps (u : Keeps [.dec] P) {a0 : Nat} (k : P s) : P (State.claimRing a0 s) := by
  unfold State.claimRing
  repeat' (first
    | with_reducible assumption
    | (with_reducible refine u.mono ?_; decide)
    | (with_reducible refine State.modDecS_keeps ?_ ?_)
    | (with_reducible refine ite_keeps ?_ ?_)
    | split
    | dsimp only [id])

theorem State.freeBuffers_keeps (u : Keeps [.dec, .drm] P) {a0 : Nat} (k : P s) : P (State.freeBuffers a0 s) := by
  unfold State.freeBuffers
  repeat' (first
    | with_reducible assumption
    | (with_reducible refine u.mono ?_; decide)
    | (with_reducible refine State.modDecS_keeps ?_ ?_)
    | (with_reducible refine State.each_keeps (fun _ _ _ => ?_) ?_)
    | (with_reducible refine State.modPoolD_keeps ?_ ?_)
    | (with_reducible refine ite_keeps ?_ ?_)
    | split
    | dsimp only [id])

theorem State.startTiles_keeps (u : Keeps [.freeCtr, .cmp, .irc, .log] P) {a0 : Nat} (k : P s) : P (State.startTiles a0 s) := by
  unfold State.startTiles
  repeat' (first
    | with_reducible assumption
    | (with_reducible refine u.mono ?_; decide)
    | (intro _ h; exact h)
    | (intro h; exact h)
    | (intro _; rfl)
    | (with_reducible refine State.modCmp_keeps ?_ ?_)
    | (with_reducible refine State.ledgerEvent_keeps ?_ ?_)
    | (with_reducible refine State.tickFree_keeps ?_ ?_)
    | (with_reducible refine ite_keeps ?_ ?_)
    | split
    | dsimp only [id])

theorem State.clearContext_keeps (u : Keeps [.freeCtr, .dec, .cmp, .drm, .irc, .log] P) {a0 : Nat} (k : P s) : P (State.clearContext a0 s) := by
  unfold State.clearContext
  repeat' (first
    | with_reducible assumption
    | (with_reducible refine u.mono ?_; decide)
    | (intro _ h; exact h)
    | (intro h; exact h)
    | (intro _; rfl)
    | (with_reducible refine State.each_keeps (fun _ _ _ => ?_) ?_)
    | (with_reducible refine State.flushPic_keeps ?_ ?_)
    | (with_reducible refine State.eachFrame_keeps ?_ ?_)
    | (with_reducible refine State.startTiles_keeps ?_ ?_)
    | (with_reducible refine State.modDecS_keeps ?_ ?_)
    | (with_reducible refine ite_keeps ?_ ?_)
    | split
    | dsimp only [id])

theorem State.dropTasks_keeps (u : Keeps [.dec, .cores, .blw] P) {a0 : Nat} (k : P s) : P (State.dropTasks a0 s) := by
  unfold State.dropTasks
  repeat' (first
    | with_reducible assumption
    | (with_reducible refine u.mono ?_; decide)
    | (with_reducible refine State.modDecS_keeps ?_ ?_)
    | (with_reducible refine State.modBlw_keeps ?_ ?_)
    | (with_reducible refine State.modCores_keeps ?_ ?_)
    | (with_reducible refine ite_keeps ?_ ?_)
    | split
    | dsimp only [id])

theorem State.startStream_keeps (u : Keeps [.freeCtr, .dec, .cmp, .cores, .drm, .blw, .irc, .log, .grt] P) {a0 : Nat} {a1 : Bool} (k : P s) : P (State.startStream a0 a1 s) := by
  unfold State.startStream
  repeat' (first
    | with_reducible assumption
    | (with_reducible refine u.mono ?_; decide)
    | (intro _ h; exact h)
    | (intro h; exact h)
    | (intro _; rfl)
    | (with_reducible refine State.withLedger_keeps ?_ (fun _ _ => ?_) ?_)
    | (with_reducible refine State.withStatus_keeps ?_ (fun _ _ => ?_) ?_)
    | (with_reducible refine State.claimRing_keeps ?_ ?_)
    | (with_reducible refine State.modDecS_keeps ?_ ?_)
    | (with_reducible refine State.freeBuffers_keeps ?_ ?_)
    | (with_reducible refine State.clearContext_keeps ?_ ?_)
    | (with_reducible refine State.dropTasks_keeps ?_ ?_)
    | (with_reducible refine ite_keeps ?_ ?_)
    | split
    | dsimp only [id])

theorem State.loseAll_keeps (u : Keeps [.freeCtr, .cmp, .irc, .log] P) {a0 : Nat} (k : P s) : P (State.loseAll a0 s) := by
  unfold State.loseAll
  repeat' (first
    | with_reducible assumption
    | (with_reducible refine u.mono ?_; decide)
    | (intro _ h; exact h)
    | (intro h; exact h)
    | (intro _; rfl)
    | (with_reducible refine State.ledgerEvent_keeps ?_ ?_)
    | (with_reducible refine State.tickFree_keeps ?_ ?_)
    | (with_reducible refine State.each_keeps (fun _ _ _ => ?_) ?_)
    | (with_reducible refine State.modTile_keeps ?_ ?_)
    | (with_reducible refine ite_keeps ?_ ?_)
    | split
    | dsimp only [id])

theorem State.unitError_keeps (u : Keeps [.freeCtr, .dec, .log] P) {a0 : Nat} {a1 : Option (BitVec 32)} {a2 : Sys2Proof.DecErr} (k : P s) : P (State.unitError a0 a1 a2 s) := by
  unfold State.unitError
  repeat' (first
    | with_reducible assumption
    | (with_reducible refine u.mono ?_; decide)
    | (with_reducible refine State.raiseError_keeps ?_ ?_)
    | (with_reducible refine State.modDecS_keeps ?_ ?_)
    | (with_reducible refine ite_keeps ?_ ?_)
    | split
    | dsimp only [id])

theorem State.streamError_keeps (u : Keeps [.freeCtr, .dec, .log] P) {a0 : Nat} {a1 : Option (BitVec 32)} {a2 : Sys2Proof.DecErr} (k : P s) : P (State.streamError a0 a1 a2 s) := by
  unfold State.streamError
  repeat' (first
    | with_reducible assumption
    | (with_reducible refine u.mono ?_; decide)
    | (with_reducible refine State.decError_keeps ?_ ?_)
    | (with_reducible refine State.unitError_keeps ?_ ?_)
    | (with_reducible refine ite_keeps ?_ ?_)
    | split
    | dsimp only [id])

theorem State.claimBuffers_keeps (u : Keeps [.freeCtr, .dec, .drm] P) {a0 : Nat} (k : P s) : P (State.claimBuffers a0 s) := by
  unfold State.claimBuffers
  repeat' (first
    | with_reducible assumption
    | (with_reducible refine u.mono ?_; decide)
    | (with_reducible refine State.each_keeps (fun _ _ _ => ?_) ?_)
    | (with_reducible refine State.modDecS_keeps ?_ ?_)
    | (with_reducible refine State.claimDesc_keeps ?_ ?_)
    | (with_reducible refine ite_keeps ?_ ?_)
    | split
    | dsimp only [id])

theorem State.newFrame_keeps (u : Keeps [.freeCtr, .dec, .drm] P) {a0 : Nat} {a1 : FrameBuf} (k : P s) : P (State.newFrame a0 a1 s) := by
  unfold State.newFrame
  repeat' (first
    | with_reducible assumption
    | (with_reducible refine u.mono ?_; decide)
    | (with_reducible refine State.modDecS_keeps ?_ ?_)
    | (with_reducible refine State.modPoolD_keeps ?_ ?_)
    | (with_reducible refine State.claimDesc_keeps ?_ ?_)
    | (with_reducible refine ite_keeps ?_ ?_)
    | split
    | dsimp only [id])

theorem State.generate_keeps (u : Keeps [.freeCtr, .dec, .drm] P) {a0 : Nat} {a1 : Nat} {a2 : BitVec 32} {a3 : Nat} (k : P s) : P (State.generate a0 a1 a2 a3 s) := by
  unfold State.generate
  repeat' (first
    | with_reducible assumption
    | (with_reducible refine u.mono ?_; decide)
    | (with_reducible refine State.newFrame_keeps ?_ ?_)
    | (with_reducible refine State.modDecS_keeps ?_ ?_)
    | (with_reducible refine foldl_fst_keeps (fun _ _ _ => ?_) ?_)
    | (with_reducible refine foldl_keeps (fun _ _ _ => ?_) ?_)
    | (with_reducible refine ite_keeps ?_ ?_)
    | split
    | dsimp only [id])

theorem State.turnCopies_keeps (u : Keeps [.drm] P) {a0 : Nat} {a1 : Nat} {a2 : BitVec 32} (k : P s) : P (State.turnCopies a0 a1 a2 s) := by
  unfold State.turnCopies
  repeat' (first
    | with_reducible assumption
    | (with_reducible refine u.mono ?_; decide)
    | (with_reducible refine State.modPoolD_keeps ?_ ?_)
    | (with_reducible refine ite_keeps ?_ ?_)
    | split
    | dsimp only [id])

end Sys2Proof.Machine
end

