-- ==== Sys2Proof/Laws/Decoder.lean ====
section
/-! SUPPORT. What each operation of Decoder keeps. -/

namespace Sys2Proof.Machine

set_option linter.unreachableTactic false
set_option linter.unusedTactic false

variable {P : State → Prop} {s : State}

theorem State.countCores_keeps (u : Keeps [.dec] P) {a0 : Nat} (k : P s) : P (State.countCores a0 s) := by
  unfold State.countCores
  repeat' (first
    | with_reducible assumption
    | (with_reducible refine u.mono ?_; decide)
    | (with_reducible refine State.modDecS_keeps ?_ ?_)
    | (with_reducible refine ite_keeps ?_ ?_)
    | split
    | dsimp only [id])

theorem State.endTask_keeps (u : Keeps [.dec, .cores, .blw] P) {a0 : Nat} (k : P s) : P (State.endTask a0 s) := by
  unfold State.endTask
  repeat' (first
    | with_reducible assumption
    | (with_reducible refine u.mono ?_; decide)
    | (with_reducible refine State.modBlw_keeps ?_ ?_)
    | (with_reducible refine State.modBay_keeps ?_ ?_)
    | (with_reducible refine State.modCore_keeps ?_ ?_)
    | (with_reducible refine State.modDecS_keeps ?_ ?_)
    | (with_reducible refine State.countCores_keeps ?_ ?_)
    | (with_reducible refine ite_keeps ?_ ?_)
    | split
    | dsimp only [id])

theorem State.markCopy_keeps (u : Keeps [.drm] P) {a0 : Nat} {a1 : Nat} (k : P s) : P (State.markCopy a0 a1 s) := by
  unfold State.markCopy
  repeat' (first
    | with_reducible assumption
    | (with_reducible refine u.mono ?_; decide)
    | (with_reducible refine State.modPoolD_keeps ?_ ?_)
    | (with_reducible refine ite_keeps ?_ ?_)
    | split
    | dsimp only [id])

theorem State.carryCopies_keeps (u : Keeps [.dec] P) {a0 : Nat} {a1 : Nat} {a2 : Nat} (k : P s) : P (State.carryCopies a0 a1 a2 s) := by
  unfold State.carryCopies
  repeat' (first
    | with_reducible assumption
    | (with_reducible refine u.mono ?_; decide)
    | (with_reducible refine State.modDecS_keeps ?_ ?_)
    | (with_reducible refine foldl_fst_keeps (fun _ _ _ => ?_) ?_)
    | (with_reducible refine foldl_keeps (fun _ _ _ => ?_) ?_)
    | (with_reducible refine ite_keeps ?_ ?_)
    | split
    | dsimp only [id])

theorem State.writeTiles_keeps (u : Keeps [.dec, .drm] P) {a0 : Nat} {a1 : Nat} {a2 : Nat} {a3 : List Nat} (k : P s) : P (State.writeTiles a0 a1 a2 a3 s) := by
  unfold State.writeTiles
  repeat' (first
    | with_reducible assumption
    | (with_reducible refine u.mono ?_; decide)
    | (with_reducible refine State.modFrame_keeps ?_ ?_)
    | (with_reducible refine ite_keeps ?_ ?_)
    | split
    | dsimp only [id])

theorem State.fixRow_keeps (u : Keeps [.dec] P) {a0 : Nat} {a1 : Nat} {a2 : Nat} (k : P s) : P (State.fixRow a0 a1 a2 s) := by
  unfold State.fixRow
  repeat' (first
    | with_reducible assumption
    | (with_reducible refine u.mono ?_; decide)
    | (with_reducible refine State.modRow_keeps ?_ ?_)
    | (with_reducible refine ite_keeps ?_ ?_)
    | split
    | dsimp only [id])

theorem State.closeRow_keeps (u : Keeps [.dec, .drm] P) {a0 : Nat} {a1 : Nat} {a2 : Nat} (k : P s) : P (State.closeRow a0 a1 a2 s) := by
  unfold State.closeRow
  repeat' (first
    | with_reducible assumption
    | (with_reducible refine u.mono ?_; decide)
    | (with_reducible refine State.writeTiles_keeps ?_ ?_)
    | (with_reducible refine State.fixRow_keeps ?_ ?_)
    | (with_reducible refine State.modRow_keeps ?_ ?_)
    | (with_reducible refine ite_keeps ?_ ?_)
    | split
    | dsimp only [id])

theorem State.closeCheck_keeps (u : Keeps [.dec, .drm] P) {a0 : Nat} {a1 : Nat} {a2 : Nat} (k : P s) : P (State.closeCheck a0 a1 a2 s) := by
  unfold State.closeCheck
  repeat' (first
    | with_reducible assumption
    | (with_reducible refine u.mono ?_; decide)
    | (with_reducible refine State.markCopy_keeps ?_ ?_)
    | (with_reducible refine State.modRow_keeps ?_ ?_)
    | (with_reducible refine State.carryCopies_keeps ?_ ?_)
    | (with_reducible refine State.closeRow_keeps ?_ ?_)
    | (with_reducible refine State.modDecS_keeps ?_ ?_)
    | (with_reducible refine foldl_fst_keeps (fun _ _ _ => ?_) ?_)
    | (with_reducible refine foldl_keeps (fun _ _ _ => ?_) ?_)
    | (with_reducible refine ite_keeps ?_ ?_)
    | split
    | dsimp only [id])

theorem State.keepRefs_keeps (u : Keeps [.dec, .drm] P) {a0 : Nat} (k : P s) : P (State.keepRefs a0 s) := by
  unfold State.keepRefs
  repeat' (first
    | with_reducible assumption
    | (with_reducible refine u.mono ?_; decide)
    | (with_reducible refine State.dropFrames_keeps ?_ ?_)
    | (with_reducible refine State.eachFrame_keeps ?_ ?_)
    | (with_reducible refine ite_keeps ?_ ?_)
    | split
    | dsimp only [id])

theorem State.picComplete_keeps (u : Keeps [.dec, .drm] P) {a0 : Nat} {a1 : Nat} (k : P s) : P (State.picComplete a0 a1 s) := by
  unfold State.picComplete
  repeat' (first
    | with_reducible assumption
    | (with_reducible refine u.mono ?_; decide)
    | (with_reducible refine State.modFrame_keeps ?_ ?_)
    | (with_reducible refine State.modPoolD_keeps ?_ ?_)
    | (with_reducible refine State.outputOrder_keeps ?_ ?_)
    | (with_reducible refine State.keepRefs_keeps ?_ ?_)
    | (with_reducible refine State.modDecS_keeps ?_ ?_)
    | (with_reducible refine ite_keeps ?_ ?_)
    | split
    | dsimp only [id])

theorem State.rowFinished_keeps (u : Keeps [.dec, .cores, .drm, .blw] P) {a0 : Nat} {a1 : Nat} {a2 : Nat} (k : P s) : P (State.rowFinished a0 a1 a2 s) := by
  unfold State.rowFinished
  repeat' (first
    | with_reducible assumption
    | (with_reducible refine u.mono ?_; decide)
    | (with_reducible refine State.closeCheck_keeps ?_ ?_)
    | (with_reducible refine State.closeRow_keeps ?_ ?_)
    | (with_reducible refine State.eventAt_keeps ?_ ?_)
    | (with_reducible refine State.modFrame_keeps ?_ ?_)
    | (with_reducible refine State.picComplete_keeps ?_ ?_)
    | (with_reducible refine ite_keeps ?_ ?_)
    | split
    | dsimp only [id])

theorem State.pieceLost_keeps (u : Keeps [.dec, .cores, .drm, .blw] P) {a0 : Nat} {a1 : Nat} {a2 : Nat × Nat} (k : P s) : P (State.pieceLost a0 a1 a2 s) := by
  unfold State.pieceLost
  repeat' (first
    | with_reducible assumption
    | (with_reducible refine u.mono ?_; decide)
    | (with_reducible refine State.rowFinished_keeps ?_ ?_)
    | (with_reducible refine State.writeTiles_keeps ?_ ?_)
    | (with_reducible refine State.modPic_keeps ?_ ?_)
    | (with_reducible refine ite_keeps ?_ ?_)
    | split
    | dsimp only [id])

theorem State.giveUpTask_keeps (u : Keeps [.freeCtr, .dec, .cmp, .cores, .drm, .blw, .irc, .log] P) {a0 : Nat} {a1 : RowTask} (k : P s) : P (State.giveUpTask a0 a1 s) := by
  unfold State.giveUpTask
  repeat' (first
    | with_reducible assumption
    | (with_reducible refine u.mono ?_; decide)
    | (intro _ h; exact h)
    | (intro h; exact h)
    | (intro _; rfl)
    | (with_reducible refine State.decError_keeps ?_ ?_)
    | (with_reducible refine State.endTask_keeps ?_ ?_)
    | (with_reducible refine State.settle_keeps ?_ ?_)
    | (with_reducible refine State.closeCheck_keeps ?_ ?_)
    | (with_reducible refine State.modRow_keeps ?_ ?_)
    | (with_reducible refine State.pieceLost_keeps ?_ ?_)
    | (with_reducible refine ite_keeps ?_ ?_)
    | split
    | dsimp only [id])

theorem State.abandonTask_keeps (u : Keeps [.freeCtr, .dec, .cmp, .cores, .drm, .blw, .irc, .log, .grt] P) {a0 : Nat} (k : P s) : P (State.abandonTask a0 s) := by
  unfold State.abandonTask
  repeat' (first
    | with_reducible assumption
    | (with_reducible refine u.mono ?_; decide)
    | (intro _ h; exact h)
    | (intro h; exact h)
    | (intro _; rfl)
    | (with_reducible refine State.modCore_keeps ?_ ?_)
    | (with_reducible refine State.withLedger_keeps ?_ (fun _ _ => ?_) ?_)
    | (with_reducible refine State.withStatus_keeps ?_ (fun _ _ => ?_) ?_)
    | (with_reducible refine State.countCores_keeps ?_ ?_)
    | (with_reducible refine State.modBay_keeps ?_ ?_)
    | (with_reducible refine State.modTask_keeps ?_ ?_)
    | (with_reducible refine State.giveUpTask_keeps ?_ ?_)
    | (with_reducible refine ite_keeps ?_ ?_)
    | split
    | dsimp only [id])

theorem State.abandonCore_keeps (u : Keeps [.freeCtr, .dec, .cmp, .cores, .drm, .blw, .irc, .log, .grt] P) {a0 : Nat} (k : P s) : P (State.abandonCore a0 s) := by
  unfold State.abandonCore
  repeat' (first
    | with_reducible assumption
    | (with_reducible refine u.mono ?_; decide)
    | (intro _ h; exact h)
    | (intro h; exact h)
    | (intro _; rfl)
    | (with_reducible refine State.each_keeps (fun _ _ _ => ?_) ?_)
    | (with_reducible refine State.abandonTask_keeps ?_ ?_)
    | (with_reducible refine ite_keeps ?_ ?_)
    | split
    | dsimp only [id])

theorem State.noDualRow_keeps (u : Keeps [.dec, .log] P) {a0 : Nat} {a1 : Nat} {a2 : Nat} {a3 : Nat} (k : P s) : P (State.noDualRow a0 a1 a2 a3 s) := by
  unfold State.noDualRow
  repeat' (first
    | with_reducible assumption
    | (with_reducible refine u.mono ?_; decide)
    | (with_reducible refine State.modRow_keeps ?_ ?_)
    | (with_reducible refine State.decEvent_keeps ?_ ?_)
    | (with_reducible refine State.modDecS_keeps ?_ ?_)
    | (with_reducible refine ite_keeps ?_ ?_)
    | split
    | dsimp only [id])

theorem State.dropCheck_keeps (u : Keeps [.freeCtr, .dec, .cmp, .cores, .drm, .blw, .irc, .log, .grt] P) {a0 : Nat} {a1 : RowTask} (k : P s) : P (State.dropCheck a0 a1 s) := by
  unfold State.dropCheck
  repeat' (first
    | with_reducible assumption
    | (with_reducible refine u.mono ?_; decide)
    | (intro _ h; exact h)
    | (intro h; exact h)
    | (intro _; rfl)
    | (with_reducible refine State.withLedger_keeps ?_ (fun _ _ => ?_) ?_)
    | (with_reducible refine State.withStatus_keeps ?_ (fun _ _ => ?_) ?_)
    | (with_reducible refine State.settle_keeps ?_ ?_)
    | (with_reducible refine State.closeCheck_keeps ?_ ?_)
    | (with_reducible refine State.noDualRow_keeps ?_ ?_)
    | (with_reducible refine State.modRow_keeps ?_ ?_)
    | (with_reducible refine State.endTask_keeps ?_ ?_)
    | (with_reducible refine ite_keeps ?_ ?_)
    | split
    | dsimp only [id])

theorem State.endSkip_keeps (u : Keeps [.freeCtr, .dec, .log] P) {a0 : Nat} {a1 : Option (BitVec 32)} (k : P s) : P (State.endSkip a0 a1 s) := by
  unfold State.endSkip
  repeat' (first
    | with_reducible assumption
    | (with_reducible refine u.mono ?_; decide)
    | (with_reducible refine State.modDecS_keeps ?_ ?_)
    | (with_reducible refine State.pocEvent_keeps ?_ ?_)
    | (with_reducible refine ite_keeps ?_ ?_)
    | split
    | dsimp only [id])

theorem State.unsupported_keeps (u : Keeps [.freeCtr, .dec, .cmp, .irc, .log] P) {a0 : Nat} {a1 : Option (BitVec 32)} {a2 : Sys2Proof.ParamSet} (k : P s) : P (State.unsupported a0 a1 a2 s) := by
  unfold State.unsupported
  repeat' (first
    | with_reducible assumption
    | (with_reducible refine u.mono ?_; decide)
    | (intro _ h; exact h)
    | (intro h; exact h)
    | (intro _; rfl)
    | (with_reducible refine State.endSkip_keeps ?_ ?_)
    | (with_reducible refine State.loseAll_keeps ?_ ?_)
    | (with_reducible refine State.modDecS_keeps ?_ ?_)
    | (with_reducible refine State.streamError_keeps ?_ ?_)
    | (with_reducible refine ite_keeps ?_ ?_)
    | split
    | dsimp only [id])

theorem State.retest_keeps (u : Keeps [.freeCtr, .dec, .cmp, .irc, .log, .grt] P) {a0 : Nat} (k : P s) : P (State.retest a0 s) := by
  unfold State.retest
  repeat' (first
    | with_reducible assumption
    | (with_reducible refine u.mono ?_; decide)
    | (intro _ h; exact h)
    | (intro h; exact h)
    | (intro _; rfl)
    | (with_reducible refine State.withLedger_keeps ?_ (fun _ _ => ?_) ?_)
    | (with_reducible refine State.withStatus_keeps ?_ (fun _ _ => ?_) ?_)
    | (with_reducible refine State.unsupported_keeps ?_ ?_)
    | (with_reducible refine ite_keeps ?_ ?_)
    | split
    | dsimp only [id])

theorem State.activate_keeps (u : Keeps [.freeCtr, .dec, .cmp, .cores, .drm, .blw, .irc, .log] P) {a0 : Nat} {a1 : Sys2Proof.ParamSet} (k : P s) : P (State.activate a0 a1 s) := by
  unfold State.activate
  repeat' (first
    | with_reducible assumption
    | (with_reducible refine u.mono ?_; decide)
    | (intro _ h; exact h)
    | (intro h; exact h)
    | (intro _; rfl)
    | (with_reducible refine State.freeBuffers_keeps ?_ ?_)
    | (with_reducible refine State.clearContext_keeps ?_ ?_)
    | (with_reducible refine State.dropTasks_keeps ?_ ?_)
    | (with_reducible refine State.modDecS_keeps ?_ ?_)
    | (with_reducible refine State.claimBuffers_keeps ?_ ?_)
    | (with_reducible refine ite_keeps ?_ ?_)
    | split
    | dsimp only [id])

theorem State.addTask_keeps (u : Keeps [.blw] P) {a0 : RowTask} (k : P s) : P (State.addTask a0 s) := by
  unfold State.addTask
  repeat' (first
    | with_reducible assumption
    | (with_reducible refine u.mono ?_; decide)
    | (with_reducible refine State.modBay_keeps ?_ ?_)
    | (with_reducible refine State.modBlw_keeps ?_ ?_)
    | (with_reducible refine ite_keeps ?_ ?_)
    | split
    | dsimp only [id])

theorem State.enter_keeps (u : Keeps [.freeCtr, .dec, .cmp, .cores, .drm, .blw, .irc, .log] P) {a0 : Nat} {a1 : Sys2Proof.SliceInfo} {a2 : Sys2Proof.ParamSet} (k : P s) : P (State.enter a0 a1 a2 s) := by
  unfold State.enter
  repeat' (first
    | with_reducible assumption
    | (with_reducible refine u.mono ?_; decide)
    | (intro _ h; exact h)
    | (intro h; exact h)
    | (intro _; rfl)
    | (with_reducible refine State.unsupported_keeps ?_ ?_)
    | (with_reducible refine State.modDecS_keeps ?_ ?_)
    | (with_reducible refine State.endSkip_keeps ?_ ?_)
    | (with_reducible refine State.activate_keeps ?_ ?_)
    | (with_reducible refine State.pocEvent_keeps ?_ ?_)
    | (with_reducible refine ite_keeps ?_ ?_)
    | split
    | dsimp only [id])

theorem State.atEntry_keeps (u : Keeps [.freeCtr, .dec, .cmp, .cores, .drm, .blw, .irc, .log] P) {a0 : Nat} {a1 : Sys2Proof.SliceInfo} (k : P s) : P (State.atEntry a0 a1 s) := by
  unfold State.atEntry
  repeat' (first
    | with_reducible assumption
    | (with_reducible refine u.mono ?_; decide)
    | (intro _ h; exact h)
    | (intro h; exact h)
    | (intro _; rfl)
    | (with_reducible refine State.modDecS_keeps ?_ ?_)
    | (with_reducible refine State.enter_keeps ?_ ?_)
    | (with_reducible refine ite_keeps ?_ ?_)
    | split
    | dsimp only [id])

theorem State.badUnit_keeps (u : Keeps [.freeCtr, .dec, .log] P) {a0 : Nat} {a1 : Sys2Proof.SliceInfo} (k : P s) : P (State.badUnit a0 a1 s) := by
  unfold State.badUnit
  repeat' (first
    | with_reducible assumption
    | (with_reducible refine u.mono ?_; decide)
    | (with_reducible refine State.modDecS_keeps ?_ ?_)
    | (with_reducible refine State.unitError_keeps ?_ ?_)
    | (with_reducible refine ite_keeps ?_ ?_)
    | split
    | dsimp only [id])

theorem State.recordError_keeps (u : Keeps [.freeCtr, .dec, .irc, .log] P) {a0 : Nat} {a1 : Nat} {a2 : Nat} {a3 : Nat} (k : P s) : P (State.recordError a0 a1 a2 a3 s) := by
  unfold State.recordError
  repeat' (first
    | with_reducible assumption
    | (with_reducible refine u.mono ?_; decide)
    | (intro _ h; exact h)
    | (intro h; exact h)
    | (intro _; rfl)
    | (with_reducible refine State.picOnce_keeps ?_ (fun _ _ => ?_) ?_)
    | (with_reducible refine State.whenB_keeps (fun _ _ => ?_) ?_)
    | (with_reducible refine State.tickFree_keeps ?_ ?_)
    | (with_reducible refine State.ledgerEvent_keeps ?_ ?_)
    | (with_reducible refine ite_keeps ?_ ?_)
    | split
    | dsimp only [id])

theorem State.bareRows_keeps (u : Keeps [.freeCtr, .dec, .irc, .log] P) {a0 : Nat} {a1 : Nat} (k : P s) : P (State.bareRows a0 a1 s) := by
  unfold State.bareRows
  repeat' (first
    | with_reducible assumption
    | (with_reducible refine u.mono ?_; decide)
    | (intro _ h; exact h)
    | (intro h; exact h)
    | (intro _; rfl)
    | (with_reducible refine State.recordError_keeps ?_ ?_)
    | (with_reducible refine State.each_keeps (fun _ _ _ => ?_) ?_)
    | (with_reducible refine State.modRow_keeps ?_ ?_)
    | (with_reducible refine ite_keeps ?_ ?_)
    | split
    | dsimp only [id])

theorem State.seedCopy_keeps (u : Keeps [.dec] P) {a0 : Nat} {a1 : Nat} {a2 : Nat} (k : P s) : P (State.seedCopy a0 a1 a2 s) := by
  unfold State.seedCopy
  repeat' (first
    | with_reducible assumption
    | (with_reducible refine u.mono ?_; decide)
    | (with_reducible refine State.modDecS_keeps ?_ ?_)
    | (with_reducible refine ite_keeps ?_ ?_)
    | split
    | dsimp only [id])

theorem State.beginDual_keeps (u : Keeps [.dec, .blw, .log] P) {a0 : RowTask} (k : P s) : P (State.beginDual a0 s) := by
  unfold State.beginDual
  repeat' (first
    | with_reducible assumption
    | (with_reducible refine u.mono ?_; decide)
    | (with_reducible refine State.fixRow_keeps ?_ ?_)
    | (with_reducible refine State.each_keeps (fun _ _ _ => ?_) ?_)
    | (with_reducible refine State.seedCopy_keeps ?_ ?_)
    | (with_reducible refine State.addTask_keeps ?_ ?_)
    | (with_reducible refine State.modRow_keeps ?_ ?_)
    | (with_reducible refine State.modDecS_keeps ?_ ?_)
    | (with_reducible refine State.noDualRow_keeps ?_ ?_)
    | (with_reducible refine ite_keeps ?_ ?_)
    | split
    | dsimp only [id])

theorem State.revoid_keeps (u : Keeps [.dec, .drm] P) {a0 : Nat} {a1 : Nat} (k : P s) : P (State.revoid a0 a1 s) := by
  unfold State.revoid
  repeat' (first
    | with_reducible assumption
    | (with_reducible refine u.mono ?_; decide)
    | (with_reducible refine State.each_keeps (fun _ _ _ => ?_) ?_)
    | (with_reducible refine State.closeRow_keeps ?_ ?_)
    | (with_reducible refine State.closeCheck_keeps ?_ ?_)
    | (with_reducible refine State.modRow_keeps ?_ ?_)
    | (with_reducible refine ite_keeps ?_ ?_)
    | split
    | dsimp only [id])

theorem State.taskErrors_keeps (u : Keeps [.dec, .drm] P) {a0 : RowTask} {a1 : List Sys2Proof.TileRes} {a2 : List Sys2Proof.DecErr} (k : P s) : P (State.taskErrors a0 a1 a2 s) := by
  unfold State.taskErrors
  repeat' (first
    | with_reducible assumption
    | (with_reducible refine u.mono ?_; decide)
    | (with_reducible refine State.each_keeps (fun _ _ _ => ?_) ?_)
    | (with_reducible refine State.decError_keeps ?_ ?_)
    | (with_reducible refine State.revoid_keeps ?_ ?_)
    | (with_reducible refine State.modPic_keeps ?_ ?_)
    | (with_reducible refine ite_keeps ?_ ?_)
    | split
    | dsimp only [id])

theorem State.checkTaskDone_keeps (u : Keeps [.freeCtr, .dec, .cmp, .cores, .drm, .blw, .irc, .log] P) {a0 : Nat} {a1 : RowTask} {a2 : List Sys2Proof.TileRes} {a3 : List Sys2Proof.DecErr} (k : P s) : P (State.checkTaskDone a0 a1 a2 a3 s) := by
  unfold State.checkTaskDone
  repeat' (first
    | with_reducible assumption
    | (with_reducible refine u.mono ?_; decide)
    | (intro _ h; exact h)
    | (intro h; exact h)
    | (intro _; rfl)
    | (with_reducible refine State.modRow_keeps ?_ ?_)
    | (with_reducible refine State.taskErrors_keeps ?_ ?_)
    | (with_reducible refine State.settle_keeps ?_ ?_)
    | (with_reducible refine State.closeCheck_keeps ?_ ?_)
    | (with_reducible refine State.endTask_keeps ?_ ?_)
    | (with_reducible refine ite_keeps ?_ ?_)
    | split
    | dsimp only [id])

theorem State.discardPic_keeps (u : Keeps [.freeCtr, .dec, .cores, .drm, .blw, .irc, .log] P) {a0 : Nat} {a1 : DecPic} (k : P s) : P (State.discardPic a0 a1 s) := by
  unfold State.discardPic
  repeat' (first
    | with_reducible assumption
    | (with_reducible refine u.mono ?_; decide)
    | (intro _ h; exact h)
    | (intro h; exact h)
    | (intro _; rfl)
    | (with_reducible refine State.flushPic_keeps ?_ ?_)
    | (with_reducible refine State.each_keeps (fun _ _ _ => ?_) ?_)
    | (with_reducible refine State.endTask_keeps ?_ ?_)
    | (with_reducible refine State.modPoolD_keeps ?_ ?_)
    | (with_reducible refine State.dropFrames_keeps ?_ ?_)
    | (with_reducible refine State.modDecS_keeps ?_ ?_)
    | (with_reducible refine ite_keeps ?_ ?_)
    | split
    | dsimp only [id])

theorem State.endBare_keeps (u : Keeps [.freeCtr, .dec, .cmp, .irc, .log] P) {a0 : Nat} (k : P s) : P (State.endBare a0 s) := by
  unfold State.endBare
  repeat' (first
    | with_reducible assumption
    | (with_reducible refine u.mono ?_; decide)
    | (intro _ h; exact h)
    | (intro h; exact h)
    | (intro _; rfl)
    | (with_reducible refine State.loseAll_keeps ?_ ?_)
    | (with_reducible refine State.unitError_keeps ?_ ?_)
    | (with_reducible refine ite_keeps ?_ ?_)
    | split
    | dsimp only [id])

theorem State.endNone_keeps (u : Keeps [.freeCtr, .dec, .cmp, .irc, .log] P) {a0 : Nat} (k : P s) : P (State.endNone a0 s) := by
  unfold State.endNone
  repeat' (first
    | with_reducible assumption
    | (with_reducible refine u.mono ?_; decide)
    | (intro _ h; exact h)
    | (intro h; exact h)
    | (intro _; rfl)
    | (with_reducible refine State.modDecS_keeps ?_ ?_)
    | (with_reducible refine State.loseAll_keeps ?_ ?_)
    | (with_reducible refine State.endBare_keeps ?_ ?_)
    | (with_reducible refine ite_keeps ?_ ?_)
    | split
    | dsimp only [id])

theorem State.endPicture_keeps (u : Keeps [.freeCtr, .dec, .cmp, .cores, .drm, .blw, .irc, .log] P) {a0 : Nat} {a1 : Nat} {a2 : Bool} (k : P s) : P (State.endPicture a0 a1 a2 s) := by
  unfold State.endPicture
  repeat' (first
    | with_reducible assumption
    | (with_reducible refine u.mono ?_; decide)
    | (intro _ h; exact h)
    | (intro h; exact h)
    | (intro _; rfl)
    | (with_reducible refine State.bareRows_keeps ?_ ?_)
    | (with_reducible refine State.decError_keeps ?_ ?_)
    | (with_reducible refine State.each_keeps (fun _ _ _ => ?_) ?_)
    | (with_reducible refine State.pieceLost_keeps ?_ ?_)
    | (with_reducible refine State.settle_keeps ?_ ?_)
    | (with_reducible refine State.modPic_keeps ?_ ?_)
    | (with_reducible refine ite_keeps ?_ ?_)
    | split
    | dsimp only [id])

theorem State.paramError_keeps (u : Keeps [.dec] P) {a0 : Nat} {a1 : Nat} {a2 : Nat} (k : P s) : P (State.paramError a0 a1 a2 s) := by
  unfold State.paramError
  repeat' (first
    | with_reducible assumption
    | (with_reducible refine u.mono ?_; decide)
    | (with_reducible refine State.decError_keeps ?_ ?_)
    | (with_reducible refine State.modDecS_keeps ?_ ?_)
    | (with_reducible refine ite_keeps ?_ ?_)
    | split
    | dsimp only [id])

theorem State.failSet_keeps (u : Keeps [.dec] P) {a0 : Nat} {a1 : Sys2Proof.ParamSet} (k : P s) : P (State.failSet a0 a1 s) := by
  unfold State.failSet
  repeat' (first
    | with_reducible assumption
    | (with_reducible refine u.mono ?_; decide)
    | (with_reducible refine State.modDecS_keeps ?_ ?_)
    | (with_reducible refine State.paramError_keeps ?_ ?_)
    | (with_reducible refine ite_keeps ?_ ?_)
    | split
    | dsimp only [id])

theorem State.fillRefs_keeps (u : Keeps [.freeCtr, .dec, .drm] P) {a0 : Nat} {a1 : Nat} {a2 : Nat} {a3 : List (BitVec 32)} (k : P s) : P (State.fillRefs a0 a1 a2 a3 s) := by
  unfold State.fillRefs
  repeat' (first
    | with_reducible assumption
    | (with_reducible refine u.mono ?_; decide)
    | (with_reducible refine State.each_keeps (fun _ _ _ => ?_) ?_)
    | (with_reducible refine State.generate_keeps ?_ ?_)
    | (with_reducible refine ite_keeps ?_ ?_)
    | split
    | dsimp only [id])

theorem State.formTasks_keeps (u : Keeps [.dec, .blw] P) {a0 : Nat} {a1 : DecPic} {a2 : Sys2Proof.SliceInfo} {a3 : Nat} (k : P s) : P (State.formTasks a0 a1 a2 a3 s) := by
  unfold State.formTasks
  repeat' (first
    | with_reducible assumption
    | (with_reducible refine u.mono ?_; decide)
    | (with_reducible refine State.modPic_keeps ?_ ?_)
    | (with_reducible refine State.modDecS_keeps ?_ ?_)
    | (with_reducible refine State.each_keeps (fun _ _ _ => ?_) ?_)
    | (with_reducible refine State.addTask_keeps ?_ ?_)
    | (with_reducible refine ite_keeps ?_ ?_)
    | split
    | dsimp only [id])

theorem State.lostRefs_keeps (u : Keeps [.freeCtr, .dec, .drm] P) {a0 : Nat} {a1 : Nat} (k : P s) : P (State.lostRefs a0 a1 s) := by
  unfold State.lostRefs
  repeat' (first
    | with_reducible assumption
    | (with_reducible refine u.mono ?_; decide)
    | (with_reducible refine State.decError_keeps ?_ ?_)
    | (with_reducible refine State.fillRefs_keeps ?_ ?_)
    | (with_reducible refine ite_keeps ?_ ?_)
    | split
    | dsimp only [id])

theorem State.references_keeps (u : Keeps [.freeCtr, .dec, .drm] P) {a0 : Nat} {a1 : Nat} {a2 : Nat} {a3 : Sys2Proof.SliceInfo} (k : P s) : P (State.references a0 a1 a2 a3 s) := by
  unfold State.references
  repeat' (first
    | with_reducible assumption
    | (with_reducible refine u.mono ?_; decide)
    | (with_reducible refine State.keepRefs_keeps ?_ ?_)
    | (with_reducible refine State.modDecS_keeps ?_ ?_)
    | (with_reducible refine State.fillRefs_keeps ?_ ?_)
    | (with_reducible refine State.decError_keeps ?_ ?_)
    | (with_reducible refine ite_keeps ?_ ?_)
    | split
    | dsimp only [id])

theorem ite_some {c : Prop} [Decidable c] {a t : State} (e : (if c then some a else none) = some t) : a = t := by
  by_cases h : c
  · rw [if_pos h] at e
    exact Option.some.inj e
  · rw [if_neg h] at e
    cases e

theorem State.newPicture_keeps (u : Keeps [.freeCtr, .dec, .drm] P) {a0 : Nat} {a1 : Sys2Proof.SliceInfo} {t : State} (e : State.newPicture a0 a1 s = some t) (k : P s) :
    P t := by
  unfold State.newPicture at e
  dsimp only at e
  split at e
  · cases e
  · have e := ite_some e
    rw [← e]
    refine State.turnCopies_keeps (u.mono (by decide)) (State.modPic_keeps (u.mono (by decide)) (State.newFrame_keeps (u.mono (by decide))
      (State.outputOrder_keeps (u.mono (by decide)) (State.references_keeps (u.mono (by decide)) (State.each_keeps (fun _ _ h => State.decError_keeps (u.mono (by decide)) h) (State.modDecS_keeps (u.mono (by decide)) k))))))

theorem State.takeParam_keeps (u : Keeps [.freeCtr, .dec, .cmp, .cores, .drm, .blw, .irc, .log] P) {a0 : Nat} {a1 : Sys2Proof.ParamSet} {a2 : Bool} (k : P s) : P (State.takeParam a0 a1 a2 s) := by
  unfold State.takeParam
  repeat' (first
    | with_reducible assumption
    | (with_reducible refine u.mono ?_; decide)
    | (intro _ h; exact h)
    | (intro h; exact h)
    | (intro _; rfl)
    | (with_reducible refine State.modDecS_keeps ?_ ?_)
    | (with_reducible refine State.unsupported_keeps ?_ ?_)
    | (with_reducible refine State.activate_keeps ?_ ?_)
    | (with_reducible refine ite_keeps ?_ ?_)
    | split
    | dsimp only [id])

theorem State.paramSet_keeps (u : Keeps [.freeCtr, .dec, .cmp, .cores, .drm, .blw, .irc, .log] P) {a0 : Nat} {a1 : Sys2Proof.ParamSet} {a2 : Sys2Proof.AuKind} (k : P s) : P (State.paramSet a0 a1 a2 s) := by
  unfold State.paramSet
  repeat' (first
    | with_reducible assumption
    | (with_reducible refine u.mono ?_; decide)
    | (intro _ h; exact h)
    | (intro h; exact h)
    | (intro _; rfl)
    | (with_reducible refine State.failSet_keeps ?_ ?_)
    | (with_reducible refine State.takeParam_keeps ?_ ?_)
    | (with_reducible refine State.modDecS_keeps ?_ ?_)
    | (with_reducible refine ite_keeps ?_ ?_)
    | split
    | dsimp only [id])

theorem State.parse_keeps (u : Keeps [.dec] P) {a0 : Nat} {a1 : Nat} (k : P s) : P (State.parse a0 a1 s).1 := by
  unfold State.parse
  repeat' (first
    | with_reducible assumption
    | (with_reducible refine u.mono ?_; decide)
    | (with_reducible refine State.modDecS_keeps ?_ ?_)
    | (with_reducible refine ite_keeps ?_ ?_)
    | split
    | dsimp only [id])
theorem State.parse_keeps_of (u : Keeps [.dec] P) {a0 : Nat} {a1 : Nat} {t r} (k : P s) (e : State.parse a0 a1 s = (t, r)) : P t := by
  have h := State.parse_keeps (P := P) u (a0 := a0) (a1 := a1) k
  rw [e] at h
  exact h

theorem State.primaryDone_keeps (u : Keeps [.freeCtr, .dec, .cmp, .cores, .drm, .blw, .irc, .log] P) {a0 : Nat} {a1 : RowTask} {a2 : List Sys2Proof.TileRes} {a3 : List Sys2Proof.DecErr} (k : P s) : P (State.primaryDone a0 a1 a2 a3 s) := by
  unfold State.primaryDone
  repeat' (first
    | with_reducible assumption
    | (with_reducible refine u.mono ?_; decide)
    | (intro _ h; exact h)
    | (intro h; exact h)
    | (intro _; rfl)
    | (with_reducible refine State.modRow_keeps ?_ ?_)
    | (with_reducible refine State.taskErrors_keeps ?_ ?_)
    | (with_reducible refine State.writeTiles_keeps ?_ ?_)
    | (with_reducible refine State.modPic_keeps ?_ ?_)
    | (with_reducible refine State.settle_keeps ?_ ?_)
    | (with_reducible refine State.rowFinished_keeps ?_ ?_)
    | (with_reducible refine State.endTask_keeps ?_ ?_)
    | (with_reducible refine ite_keeps ?_ ?_)
    | split
    | dsimp only [id])

theorem State.recheck_keeps (u : Keeps [.freeCtr, .dec, .cmp, .cores, .drm, .blw, .irc, .log, .grt] P) (k : P s) : P (State.recheck s) := by
  unfold State.recheck
  repeat' (first
    | with_reducible assumption
    | (with_reducible refine u.mono ?_; decide)
    | (intro _ h; exact h)
    | (intro h; exact h)
    | (intro _; rfl)
    | (with_reducible refine State.each_keeps (fun _ _ _ => ?_) ?_)
    | (with_reducible refine State.dropCheck_keeps ?_ ?_)
    | (with_reducible refine ite_keeps ?_ ?_)
    | split
    | dsimp only [id])

theorem State.rowLate_keeps (u : Keeps [.dec, .log] P) {a0 : RowTask} (k : P s) : P (State.rowLate a0 s) := by
  unfold State.rowLate
  repeat' (first
    | with_reducible assumption
    | (with_reducible refine u.mono ?_; decide)
    | (with_reducible refine State.decEvent_keeps ?_ ?_)
    | (with_reducible refine State.modPic_keeps ?_ ?_)
    | (with_reducible refine State.modDecS_keeps ?_ ?_)
    | (with_reducible refine ite_keeps ?_ ?_)
    | split
    | dsimp only [id])

theorem State.setRegions_keeps (u : Keeps [.dec, .cmp] P) {a0 : Nat} {a1 : Nat} {a2 : List Sys2Proof.Rect} (k : P s) : P (State.setRegions a0 a1 a2 s) := by
  unfold State.setRegions
  repeat' (first
    | with_reducible assumption
    | (with_reducible refine u.mono ?_; decide)
    | (with_reducible refine State.each_keeps (fun _ _ _ => ?_) ?_)
    | (with_reducible refine State.modRow_keeps ?_ ?_)
    | (with_reducible refine State.modTile_keeps ?_ ?_)
    | (with_reducible refine State.modDecS_keeps ?_ ?_)
    | (with_reducible refine ite_keeps ?_ ?_)
    | split
    | dsimp only [id])

theorem State.validSegment_keeps (u : Keeps [.dec, .cmp, .irc, .log] P) {a0 : Nat} {a1 : Nat} {a2 : Segment} (k : P s) : P (State.validSegment a0 a1 a2 s) := by
  unfold State.validSegment
  repeat' (first
    | with_reducible assumption
    | (with_reducible refine u.mono ?_; decide)
    | (intro _ h; exact h)
    | (intro h; exact h)
    | (intro _; rfl)
    | (with_reducible refine State.clearTimes_keeps ?_ ?_)
    | (with_reducible refine State.modDecS_keeps ?_ ?_)
    | (with_reducible refine State.modPic_keeps ?_ ?_)
    | (with_reducible refine State.setRegions_keeps ?_ ?_)
    | (with_reducible refine State.each_keeps (fun _ _ _ => ?_) ?_)
    | (with_reducible refine State.modRow_keeps ?_ ?_)
    | (with_reducible refine ite_keeps ?_ ?_)
    | split
    | dsimp only [id])

theorem State.segment_keeps (u : Keeps [.freeCtr, .dec, .cmp, .irc, .log] P) {a0 : Nat} {a1 : Nat} {a2 : Nat} {a3 : List Sys2Proof.Byte} (k : P s) : P (State.segment a0 a1 a2 a3 s) := by
  unfold State.segment
  repeat' (first
    | with_reducible assumption
    | (with_reducible refine u.mono ?_; decide)
    | (intro _ h; exact h)
    | (intro h; exact h)
    | (intro _; rfl)
    | (with_reducible refine State.validSegment_keeps ?_ ?_)
    | (with_reducible refine State.recordError_keeps ?_ ?_)
    | (with_reducible refine State.each_keeps (fun _ _ _ => ?_) ?_)
    | (with_reducible refine State.modRow_keeps ?_ ?_)
    | (with_reducible refine ite_keeps ?_ ?_)
    | split
    | dsimp only [id])

theorem State.settleOut_keeps (u : Keeps [.freeCtr, .dec, .cmp, .drm, .irc, .log] P) {a0 : Nat} (k : P s) : P (State.settleOut a0 s) := by
  unfold State.settleOut
  repeat' (first
    | with_reducible assumption
    | (with_reducible refine u.mono ?_; decide)
    | (intro _ h; exact h)
    | (intro h; exact h)
    | (intro _; rfl)
    | (with_reducible refine State.settle_keeps ?_ ?_)
    | (with_reducible refine ite_keeps ?_ ?_)
    | split
    | dsimp only [id])

theorem State.sliceOf_keeps (u : Keeps [.dec, .blw] P) {a0 : Nat} {a1 : DecPic} {a2 : Sys2Proof.SliceInfo} {a3 : Nat} {a4 : Bool} (k : P s) : P (State.sliceOf a0 a1 a2 a3 a4 s) := by
  unfold State.sliceOf
  repeat' (first
    | with_reducible assumption
    | (with_reducible refine u.mono ?_; decide)
    | (with_reducible refine State.decError_keeps ?_ ?_)
    | (with_reducible refine State.modDecS_keeps ?_ ?_)
    | (with_reducible refine State.modPic_keeps ?_ ?_)
    | (with_reducible refine State.formTasks_keeps ?_ ?_)
    | (with_reducible refine ite_keeps ?_ ?_)
    | split
    | dsimp only [id])

theorem State.slice_keeps (u : Keeps [.freeCtr, .dec, .drm, .blw, .log] P) {a0 : Nat} {a1 : Sys2Proof.SliceInfo} {a2 : Nat} {a3 : Bool} {t : State}
    (e : State.slice a0 a1 a2 a3 s = some t) (k : P s) : P t := by
  unfold State.slice at e
  dsimp only at e
  split at e
  · injection e with e
    exact e ▸ k
  · split at e
    · injection e with e
      rw [← e]
      exact State.badUnit_keeps (u.mono (by decide)) k
    · split at e
      · injection e with e
        rw [← e]
        exact State.modDecS_keeps (u.mono (by decide)) k
      · rw [Option.map_eq_some_iff] at e
        obtain ⟨x, h, e⟩ := e
        rw [← e]
        have g : P x := by
          split at h
          · exact State.newPicture_keeps (u.mono (by decide)) h (State.modDecS_keeps (u.mono (by decide)) k)
          · injection h with h
            rw [← h]
            exact State.modDecS_keeps (u.mono (by decide)) k
        split
        · exact g
        · exact State.sliceOf_keeps (u.mono (by decide)) g

theorem State.tellChange_keeps (u : Keeps [.freeCtr, .dec, .log] P) {a0 : Nat} {a1 : Option (BitVec 32)} (k : P s) : P (State.tellChange a0 a1 s) := by
  unfold State.tellChange
  repeat' (first
    | with_reducible assumption
    | (with_reducible refine u.mono ?_; decide)
    | (with_reducible refine State.pocEvent_keeps ?_ ?_)
    | (with_reducible refine State.modDecS_keeps ?_ ?_)
    | (with_reducible refine ite_keeps ?_ ?_)
    | split
    | dsimp only [id])

theorem State.sliceParse_keeps (u : Keeps [.freeCtr, .dec, .cmp, .cores, .drm, .blw, .irc, .log] P) {a0 : Nat} {a1 : Sys2Proof.SliceInfo} {t : State} (e : State.sliceParse a0 a1 s = some t) (k : P s) :
    P t := by
  have h := State.parse_keeps (P := P) (u.mono (by decide)) (a0 := a0) (a1 := a1.bytes) k
  unfold State.sliceParse at e
  dsimp only at e
  split at e
  · injection e with e
    exact e ▸ h
  · have g := State.atEntry_keeps (P := P) (u.mono (by decide)) (a0 := a0) (a1 := a1) h
    have g : P (if a1.newPic = true then State.tellChange a0 (some a1.poc) (State.atEntry a0 a1 (State.parse a0 a1.bytes s).1)
        else State.atEntry a0 a1 (State.parse a0 a1.bytes s).1) := ite_keeps (State.tellChange_keeps (u.mono (by decide)) g) g
    by_cases c : a1.newPic = true
    · simp only [if_pos c] at e g
      split at e
      · exact State.slice_keeps (u.mono (by decide)) e g
      · injection e with e
        exact e ▸ g
    · simp only [if_neg c] at e g
      split at e
      · exact State.slice_keeps (u.mono (by decide)) e g
      · injection e with e
        exact e ▸ g

theorem State.sliceParse_getD (u : Keeps [.freeCtr, .dec, .cmp, .cores, .drm, .blw, .irc, .log] P) {a0 : Nat} {a1 : Sys2Proof.SliceInfo} {x : State} (k : P x) :
    P ((State.sliceParse a0 a1 x).getD x) := by
  cases e : State.sliceParse a0 a1 x with
  | none => exact k
  | some t => exact State.sliceParse_keeps u e k

theorem execSliceHeaderParse_keeps (u : Keeps [.freeCtr, .dec, .cmp, .cores, .drm, .blw, .irc, .log, .grt] P) {a0 : Nat} {a1 : Sys2Proof.SliceInfo} (k : P s) :
    ∀ t, execSliceHeaderParse a0 a1 s = .next t → P t := by
  intro t e
  injection e with e
  rw [← e]
  clear e
  dsimp only
  split
  · exact k
  · exact State.withLedger_keeps (u.mono (by decide)) (fun y g => State.withStatus_keeps (u.mono (by decide))
      (fun x h => State.settleOut_keeps (u.mono (by decide)) (State.sliceParse_getD (u.mono (by decide)) h)) g) k

theorem execParamSetReceived_keeps (u : Keeps [.freeCtr, .dec, .cmp, .cores, .drm, .blw, .irc, .log, .grt] P) {a0 : Nat} {a1 : Sys2Proof.ParamSet} {a2 : Sys2Proof.AuKind} (k : P s) : ∀ t, execParamSetReceived a0 a1 a2 s = .next t → P t := by
  intro t e
  injection e with e
  rw [← e]
  clear e
  repeat' (first
    | with_reducible assumption
    | (with_reducible refine u.mono ?_; decide)
    | (intro _ h; exact h)
    | (intro h; exact h)
    | (intro _; rfl)
    | (with_reducible refine nextOr_keeps (ok_keeps ?_) ?_)
    | (with_reducible refine State.withLedger_keeps ?_ (fun _ _ => ?_) ?_)
    | (with_reducible refine State.withStatus_keeps ?_ (fun _ _ => ?_) ?_)
    | (with_reducible refine State.paramSet_keeps ?_ ?_)
    | (with_reducible refine ite_keeps ?_ ?_)
    | split
    | dsimp only [id])

theorem execLedgerSegment_keeps (u : Keeps [.freeCtr, .dec, .cmp, .drm, .irc, .log, .grt] P) {a0 : Nat} {a1 : Nat} {a2 : List Sys2Proof.Byte} (k : P s) : ∀ t, execLedgerSegment a0 a1 a2 s = .next t → P t := by
  intro t e
  injection e with e
  rw [← e]
  clear e
  repeat' (first
    | with_reducible assumption
    | (with_reducible refine u.mono ?_; decide)
    | (intro _ h; exact h)
    | (intro h; exact h)
    | (intro _; rfl)
    | (with_reducible refine nextOr_keeps (ok_keeps ?_) ?_)
    | (with_reducible refine State.withLedger_keeps ?_ (fun _ _ => ?_) ?_)
    | (with_reducible refine State.withStatus_keeps ?_ (fun _ _ => ?_) ?_)
    | (with_reducible refine State.settle_keeps ?_ ?_)
    | (with_reducible refine State.segment_keeps ?_ ?_)
    | (with_reducible refine ite_keeps ?_ ?_)
    | split
    | dsimp only [id])

theorem execAccessUnitEnd_keeps (u : Keeps [.freeCtr, .dec, .cmp, .cores, .drm, .blw, .irc, .log, .grt] P) {a0 : Nat} (k : P s) : ∀ t, execAccessUnitEnd a0 s = .next t → P t := by
  intro t e
  injection e with e
  rw [← e]
  clear e
  repeat' (first
    | with_reducible assumption
    | (with_reducible refine u.mono ?_; decide)
    | (intro _ h; exact h)
    | (intro h; exact h)
    | (intro _; rfl)
    | (with_reducible refine nextOr_keeps (ok_keeps ?_) ?_)
    | (with_reducible refine State.modDecS_keeps ?_ ?_)
    | (with_reducible refine State.withLedger_keeps ?_ (fun _ _ => ?_) ?_)
    | (with_reducible refine State.withStatus_keeps ?_ (fun _ _ => ?_) ?_)
    | (with_reducible refine State.endPicture_keeps ?_ ?_)
    | (with_reducible refine State.endNone_keeps ?_ ?_)
    | (with_reducible refine State.tellChange_keeps ?_ ?_)
    | (with_reducible refine State.each_keeps (fun _ _ _ => ?_) ?_)
    | (with_reducible refine State.unitError_keeps ?_ ?_)
    | (with_reducible refine ite_keeps ?_ ?_)
    | split
    | dsimp only [id])

theorem execDecodeTaskIssue_keeps (u : Keeps [.dec, .cores, .blw, .log] P) {a0 : Nat} {a1 : Nat} (k : P s) : ∀ t, execDecodeTaskIssue a0 a1 s = .next t → P t := by
  intro t e
  injection e with e
  rw [← e]
  clear e
  repeat' (first
    | with_reducible assumption
    | (with_reducible refine u.mono ?_; decide)
    | (with_reducible refine nextOr_keeps (ok_keeps ?_) ?_)
    | (with_reducible refine State.wakeCore_keeps ?_ ?_)
    | (with_reducible refine State.withStatus_keeps ?_ (fun _ _ => ?_) ?_)
    | (with_reducible refine State.modBay_keeps ?_ ?_)
    | (with_reducible refine State.modCore_keeps ?_ ?_)
    | (with_reducible refine State.modTask_keeps ?_ ?_)
    | (with_reducible refine State.modDecS_keeps ?_ ?_)
    | (with_reducible refine State.beginDual_keeps ?_ ?_)
    | (with_reducible refine State.coreEvent_keeps ?_ ?_)
    | (with_reducible refine State.countCores_keeps ?_ ?_)
    | (with_reducible refine ite_keeps ?_ ?_)
    | split
    | dsimp only [id])

theorem execDecodeRowComplete_keeps (u : Keeps [.freeCtr, .enc, .dec, .cmp, .cores, .drm, .blw, .glb, .irc, .log, .grt] P) {a0 : Nat} {a1 : List Sys2Proof.TileRes} {a2 : List Sys2Proof.DecErr} (k : P s) : ∀ t, execDecodeRowComplete a0 a1 a2 s = .next t → P t := by
  intro t e
  injection e with e
  rw [← e]
  clear e
  repeat' (first
    | with_reducible assumption
    | (with_reducible refine u.mono ?_; decide)
    | (intro _ h; exact h)
    | (intro h; exact h)
    | (intro _; rfl)
    | (with_reducible refine nextOr_keeps (ok_keeps ?_) ?_)
    | (with_reducible refine State.patchStep_keeps ?_ ?_)
    | (with_reducible refine State.withLedger_keeps ?_ (fun _ _ => ?_) ?_)
    | (with_reducible refine State.withStatus_keeps ?_ (fun _ _ => ?_) ?_)
    | (with_reducible refine State.primaryDone_keeps ?_ ?_)
    | (with_reducible refine ite_keeps ?_ ?_)
    | split
    | dsimp only [id])

theorem execCheckTaskComplete_keeps (u : Keeps [.freeCtr, .enc, .dec, .cmp, .cores, .drm, .blw, .glb, .irc, .log, .grt] P) {a0 : Nat} {a1 : Sys2Proof.CheckResult} (k : P s) : ∀ t, execCheckTaskComplete a0 a1 s = .next t → P t := by
  intro t e
  injection e with e
  rw [← e]
  clear e
  repeat' (first
    | with_reducible assumption
    | (with_reducible refine u.mono ?_; decide)
    | (intro _ h; exact h)
    | (intro h; exact h)
    | (intro _; rfl)
    | (with_reducible refine nextOr_keeps (ok_keeps ?_) ?_)
    | (with_reducible refine State.patchStep_keeps ?_ ?_)
    | (with_reducible refine State.withLedger_keeps ?_ (fun _ _ => ?_) ?_)
    | (with_reducible refine State.withStatus_keeps ?_ (fun _ _ => ?_) ?_)
    | (with_reducible refine State.checkTaskDone_keeps ?_ ?_)
    | (with_reducible refine ite_keeps ?_ ?_)
    | split
    | dsimp only [id])

theorem execDecodeRowLate_keeps (u : Keeps [.dec, .blw, .irc, .log] P) {a0 : Nat} (k : P s) : ∀ t, execDecodeRowLate a0 s = .next t → P t := by
  intro t e
  injection e with e
  rw [← e]
  clear e
  repeat' (first
    | with_reducible assumption
    | (with_reducible refine u.mono ?_; decide)
    | (intro _ h; exact h)
    | (intro h; exact h)
    | (intro _; rfl)
    | (with_reducible refine nextOr_keeps (ok_keeps ?_) ?_)
    | (with_reducible refine State.latch_keeps ?_ ?_)
    | (with_reducible refine State.modTask_keeps ?_ ?_)
    | (with_reducible refine State.withStatus_keeps ?_ (fun _ _ => ?_) ?_)
    | (with_reducible refine State.rowLate_keeps ?_ ?_)
    | (with_reducible refine ite_keeps ?_ ?_)
    | split
    | dsimp only [id])

theorem execDecodeSkipped_keeps (u : Keeps [.freeCtr, .dec, .cmp, .cores, .drm, .blw, .irc, .log, .grt] P) {a0 : Nat} {a1 : Nat} (k : P s) : ∀ t, execDecodeSkipped a0 a1 s = .next t → P t := by
  intro t e
  injection e with e
  rw [← e]
  clear e
  repeat' (first
    | with_reducible assumption
    | (with_reducible refine u.mono ?_; decide)
    | (intro _ h; exact h)
    | (intro h; exact h)
    | (intro _; rfl)
    | (with_reducible refine nextOr_keeps (ok_keeps ?_) ?_)
    | (with_reducible refine State.withLedger_keeps ?_ (fun _ _ => ?_) ?_)
    | (with_reducible refine State.withStatus_keeps ?_ (fun _ _ => ?_) ?_)
    | (with_reducible refine State.each_keeps (fun _ _ _ => ?_) ?_)
    | (with_reducible refine State.discardPic_keeps ?_ ?_)
    | (with_reducible refine State.lostRefs_keeps ?_ ?_)
    | (with_reducible refine State.settle_keeps ?_ ?_)
    | (with_reducible refine State.modDecS_keeps ?_ ?_)
    | (with_reducible refine State.endSkip_keeps ?_ ?_)
    | (with_reducible refine ite_keeps ?_ ?_)
    | split
    | dsimp only [id])

end Sys2Proof.Machine
end

