-- ==== Sys2Proof/Laws/RunnerOps.lean ====
section
/-! SUPPORT. What reading a VOQ and a Stitcher context answers after each update, and what each operation of RunnerOps keeps. -/

namespace Sys2Proof.Machine

set_option linter.unreachableTactic false
set_option linter.unusedTactic false

variable {P : State → Prop} {s : State}

@[simp] theorem State.modVoq_same (k : Nat) (f : Voq → Voq) : (s.modVoq k f).voq k = f (s.voq k) := by
  simp [State.modVoq, State.modRun, State.voq]

theorem State.modVoq_other {k j : Nat} (f : Voq → Voq) (h : k ≠ j) : (s.modVoq k f).voq j = s.voq j := by
  simp [State.modVoq, State.modRun, State.voq, Tbl.look_upd_other, h]

@[simp] theorem State.modStitch_same (k : Nat) (f : Stitch → Stitch) : (s.modStitch k f).stitch k = f (s.stitch k) := by
  simp [State.modStitch, State.modRun, State.stitch]

theorem State.modStitch_other {k j : Nat} (f : Stitch → Stitch) (h : k ≠ j) : (s.modStitch k f).stitch j = s.stitch j := by
  simp [State.modStitch, State.modRun, State.stitch, Tbl.look_upd_other, h]

theorem State.ringPut_keeps (u : Keeps [.dec, .cores, .blw] P) {a0 : Nat} {a1 : QItem} (k : P s) : P (State.ringPut a0 a1 s) := by
  unfold State.ringPut
  repeat' (first
    | with_reducible assumption
    | (with_reducible refine u.mono ?_; decide)
    | (with_reducible refine State.eventAt_keeps ?_ ?_)
    | (with_reducible refine State.modDecS_keeps ?_ ?_)
    | (with_reducible refine ite_keeps ?_ ?_)
    | split
    | dsimp only [id])

theorem State.pfcCheck_keeps (u : Keeps [.run] P) (k : P s) : P (State.pfcCheck s) := by
  unfold State.pfcCheck
  repeat' (first
    | with_reducible assumption
    | (with_reducible refine u.mono ?_; decide)
    | (with_reducible refine State.each_keeps (fun _ _ _ => ?_) ?_)
    | (with_reducible refine State.modRun_keeps ?_ ?_)
    | (with_reducible refine State.modEth_keeps ?_ ?_)
    | (with_reducible refine ite_keeps ?_ ?_)
    | split
    | dsimp only [id])

theorem State.allocPkt_keeps_of (u : Keeps [.run] P) {a0 : Pkt} {t r} (k : P s) (e : State.allocPkt a0 s = some (t, r)) : P t := by
  unfold State.allocPkt at e
  split at e
  · cases e
  · obtain ⟨p, -, e⟩ := List.exists_of_findSome?_eq_some e
    simp only [Option.map_eq_some_iff] at e
    obtain ⟨x, -, e⟩ := e
    injection e with e1 e2
    rw [← e1]
    exact State.pfcCheck_keeps (u.mono (by decide)) (State.modRun_keeps (u.mono (by decide)) (State.modLadle_keeps (u.mono (by decide)) k))

theorem State.copyPkt_keeps_of (u : Keeps [.run] P) {a0 a1 : Pkt} {t r} (k : P s) (e : State.copyPkt a0 a1 s = some (t, r)) : P t := by
  unfold State.copyPkt at e
  split at e
  · cases e
  · injection e with e
    injection e with e1 e2
    rw [← e1]
    exact State.modRun_keeps u (State.modLadle_keeps u k)

theorem State.allocCopies_keeps_of (u : Keeps [.run] P) {a0 : List Pkt} {t r} (k : P s) (e : State.allocCopies a0 s = some (t, r)) : P t := by
  unfold State.allocCopies at e
  split at e
  · injection e with e
    injection e with e1 e2
    exact e1 ▸ k
  · rename_i p l
    rw [Option.bind_eq_some_iff] at e
    obtain ⟨x, h, e⟩ := e
    have g : ∀ (l : List Pkt) (acc : Option (State × List Pkt)), (∀ y, acc = some y → P y.1) →
        ∀ y, l.foldl (fun acc c => acc.bind (fun y => (y.1.copyPkt x.2 c).map (fun z => (z.1, y.2 ++ [z.2])))) acc = some y → P y.1 := by
      intro l
      induction l with
      | nil => intro acc h; exact h
      | cons c l ih =>
        intro acc h
        refine ih _ (fun y e => ?_)
        simp only [Option.bind_eq_some_iff, Option.map_eq_some_iff] at e
        obtain ⟨w, hw, z, hz, e⟩ := e
        rw [← e]
        exact State.copyPkt_keeps_of (u.mono (by decide)) (h w hw) (r := z.2) hz
    exact g l _ (fun y e => by injection e with e; rw [← e]; exact State.allocPkt_keeps_of u k (r := x.2) h) (t, r) e

theorem State.modStat_keeps (u : Keeps [.run] P) {a0 : Nat} {a1 : QStat → QStat} (k : P s) : P (State.modStat a0 a1 s) := by
  unfold State.modStat
  repeat' (first
    | with_reducible assumption
    | (with_reducible refine u.mono ?_; decide)
    | (with_reducible refine State.modRun_keeps ?_ ?_)
    | (with_reducible refine ite_keeps ?_ ?_)
    | split
    | dsimp only [id])

theorem State.statIn_keeps (u : Keeps [.run] P) {a0 : Nat} {a1 : Nat} (k : P s) : P (State.statIn a0 a1 s) := by
  unfold State.statIn
  repeat' (first
    | with_reducible assumption
    | (with_reducible refine u.mono ?_; decide)
    | (with_reducible refine State.modStat_keeps ?_ ?_)
    | (with_reducible refine ite_keeps ?_ ?_)
    | split
    | dsimp only [id])

theorem State.modVoq_keeps (u : Keeps [.run] P) {a0 : Nat} {a1 : Voq → Voq} (k : P s) : P (State.modVoq a0 a1 s) := by
  unfold State.modVoq
  repeat' (first
    | with_reducible assumption
    | (with_reducible refine u.mono ?_; decide)
    | (with_reducible refine State.modRun_keeps ?_ ?_)
    | (with_reducible refine ite_keeps ?_ ?_)
    | split
    | dsimp only [id])

theorem State.voqPut_keeps (u : Keeps [.run] P) {a0 : Nat} {a1 : Pkt} (k : P s) : P (State.voqPut a0 a1 s) := by
  unfold State.voqPut
  repeat' (first
    | with_reducible assumption
    | (with_reducible refine u.mono ?_; decide)
    | (with_reducible refine State.statIn_keeps ?_ ?_)
    | (with_reducible refine State.modVoq_keeps ?_ ?_)
    | (with_reducible refine ite_keeps ?_ ?_)
    | split
    | dsimp only [id])

theorem State.retryOne_keeps (u : Keeps [.run] P) {a0 : List Pkt} (k : P s) : P (State.retryOne a0 s) := by
  unfold State.retryOne
  repeat' (first
    | with_reducible assumption
    | (with_reducible refine u.mono ?_; decide)
    | (with_reducible refine State.modRun_keeps ?_ ?_)
    | (with_reducible refine State.allocCopies_keeps_of ?_ ?_ (by assumption))
    | (with_reducible refine State.each_keeps (fun _ _ _ => ?_) ?_)
    | (with_reducible refine State.voqPut_keeps ?_ ?_)
    | (with_reducible refine ite_keeps ?_ ?_)
    | split
    | dsimp only [id])

theorem State.retryOut_keeps (u : Keeps [.run] P) (k : P s) : P (State.retryOut s) := by
  unfold State.retryOut
  repeat' (first
    | with_reducible assumption
    | (with_reducible refine u.mono ?_; decide)
    | (with_reducible refine State.each_keeps (fun _ _ _ => ?_) ?_)
    | (with_reducible refine State.retryOne_keeps ?_ ?_)
    | (with_reducible refine State.modRun_keeps ?_ ?_)
    | (with_reducible refine ite_keeps ?_ ?_)
    | split
    | dsimp only [id])

theorem State.fencePool_keeps (u : Keeps [.run, .blw, .glb, .irc, .log, .flt] P) {a0 : Nat} (k : P s) : P (State.fencePool a0 s) := by
  unfold State.fencePool
  repeat' (first
    | with_reducible assumption
    | (with_reducible refine u.mono ?_; decide)
    | (intro _ h; exact h)
    | (intro h; exact h)
    | (intro _; rfl)
    | (with_reducible refine State.recordFatal_keeps ?_ ?_)
    | (with_reducible refine State.modLadle_keeps ?_ ?_)
    | (with_reducible refine State.wantAdmission_keeps ?_ ?_)
    | (with_reducible refine State.unitFenced_keeps ?_ ?_)
    | (with_reducible refine State.modFltSrc_keeps ?_ ?_)
    | (with_reducible refine ite_keeps ?_ ?_)
    | split
    | dsimp only [id])

theorem State.badPointer_keeps (u : Keeps [.run, .blw, .glb, .irc, .log, .flt] P) {a0 : Pkt} {a1 : Nat} (k : P s) : P (State.badPointer a0 a1 s) := by
  unfold State.badPointer
  repeat' (first
    | with_reducible assumption
    | (with_reducible refine u.mono ?_; decide)
    | (intro _ h; exact h)
    | (intro h; exact h)
    | (intro _; rfl)
    | (with_reducible refine State.limited_keeps ?_ (fun _ _ => ?_) ?_)
    | (with_reducible refine State.raise_keeps ?_ ?_)
    | (with_reducible refine State.latch_keeps ?_ ?_)
    | (with_reducible refine State.recordContained_keeps ?_ ?_)
    | (with_reducible refine State.modLadle_keeps ?_ ?_)
    | (with_reducible refine State.fencePool_keeps ?_ ?_)
    | (with_reducible refine ite_keeps ?_ ?_)
    | split
    | dsimp only [id])

theorem State.freePkt_keeps (u : Keeps [.run, .blw, .glb, .irc, .log, .flt] P) {a0 : Pkt} (k : P s) : P (State.freePkt a0 s) := by
  unfold State.freePkt
  repeat' (first
    | with_reducible assumption
    | (with_reducible refine u.mono ?_; decide)
    | (intro _ h; exact h)
    | (intro h; exact h)
    | (intro _; rfl)
    | (with_reducible refine State.pfcCheck_keeps ?_ ?_)
    | (with_reducible refine State.retryOut_keeps ?_ ?_)
    | (with_reducible refine State.modRun_keeps ?_ ?_)
    | (with_reducible refine State.badPointer_keeps ?_ ?_)
    | (with_reducible refine State.modLadle_keeps ?_ ?_)
    | (with_reducible refine ite_keeps ?_ ?_)
    | split
    | dsimp only [id])

theorem State.raiseCtx_keeps (u : Keeps [.log] P) {a0 : Nat} {a1 : Sys2Proof.EventId} {a2 : List Sys2Proof.Item} (k : P s) : P (State.raiseCtx a0 a1 a2 s) := by
  unfold State.raiseCtx
  repeat' (first
    | with_reducible assumption
    | (with_reducible refine u.mono ?_; decide)
    | (with_reducible refine State.raiseP_keeps ?_ ?_)
    | (with_reducible refine State.raise_keeps ?_ ?_)
    | (with_reducible refine ite_keeps ?_ ?_)
    | split
    | dsimp only [id])

theorem State.modStitch_keeps (u : Keeps [.run] P) {a0 : Nat} {a1 : Stitch → Stitch} (k : P s) : P (State.modStitch a0 a1 s) := by
  unfold State.modStitch
  repeat' (first
    | with_reducible assumption
    | (with_reducible refine u.mono ?_; decide)
    | (with_reducible refine State.modRun_keeps ?_ ?_)
    | (with_reducible refine ite_keeps ?_ ?_)
    | split
    | dsimp only [id])

theorem State.gapMark_keeps (u : Keeps [.dec, .cores, .run, .blw, .irc, .log] P) {a0 : Nat} {a1 : Nat} {a2 : Nat} (k : P s) : P (State.gapMark a0 a1 a2 s) := by
  unfold State.gapMark
  repeat' (first
    | with_reducible assumption
    | (with_reducible refine u.mono ?_; decide)
    | (intro _ h; exact h)
    | (intro h; exact h)
    | (intro _; rfl)
    | (with_reducible refine State.limited_keeps ?_ (fun _ _ => ?_) ?_)
    | (with_reducible refine State.raiseCtx_keeps ?_ ?_)
    | (with_reducible refine State.latch_keeps ?_ ?_)
    | (with_reducible refine State.modStitch_keeps ?_ ?_)
    | (with_reducible refine State.ringPut_keeps ?_ ?_)
    | (with_reducible refine ite_keeps ?_ ?_)
    | split
    | dsimp only [id])

theorem State.sendCopies_keeps (u : Keeps [.run] P) {a0 : Pkt} {a1 : List Nat} (k : P s) : P (State.sendCopies a0 a1 s) := by
  unfold State.sendCopies
  repeat' (first
    | with_reducible assumption
    | (with_reducible refine u.mono ?_; decide)
    | (with_reducible refine State.retryOne_keeps ?_ ?_)
    | (with_reducible refine ite_keeps ?_ ?_)
    | split
    | dsimp only [id])

theorem State.statOut_keeps (u : Keeps [.run] P) {a0 : Nat} {a1 : Pkt} (k : P s) : P (State.statOut a0 a1 s) := by
  unfold State.statOut
  repeat' (first
    | with_reducible assumption
    | (with_reducible refine u.mono ?_; decide)
    | (with_reducible refine State.modStat_keeps ?_ ?_)
    | (with_reducible refine ite_keeps ?_ ?_)
    | split
    | dsimp only [id])

theorem State.ageOut_keeps (u : Keeps [.run, .blw, .glb, .irc, .log, .flt] P) {a0 : Nat} {a1 : Pkt} (k : P s) : P (State.ageOut a0 a1 s) := by
  unfold State.ageOut
  repeat' (first
    | with_reducible assumption
    | (with_reducible refine u.mono ?_; decide)
    | (intro _ h; exact h)
    | (intro h; exact h)
    | (intro _; rfl)
    | (with_reducible refine State.modStat_keeps ?_ ?_)
    | (with_reducible refine State.statOut_keeps ?_ ?_)
    | (with_reducible refine State.freePkt_keeps ?_ ?_)
    | (with_reducible refine State.limited_keeps ?_ (fun _ _ => ?_) ?_)
    | (with_reducible refine State.raiseP_keeps ?_ ?_)
    | (with_reducible refine ite_keeps ?_ ?_)
    | split
    | dsimp only [id])

theorem State.ageHeld_keeps (u : Keeps [.run, .blw, .glb, .irc, .log, .flt] P) {a0 : Pkt} (k : P s) : P (State.ageHeld a0 s) := by
  unfold State.ageHeld
  repeat' (first
    | with_reducible assumption
    | (with_reducible refine u.mono ?_; decide)
    | (intro _ h; exact h)
    | (intro h; exact h)
    | (intro _; rfl)
    | (with_reducible refine State.modStat_keeps ?_ ?_)
    | (with_reducible refine State.freePkt_keeps ?_ ?_)
    | (with_reducible refine State.limited_keeps ?_ (fun _ _ => ?_) ?_)
    | (with_reducible refine State.raiseP_keeps ?_ ?_)
    | (with_reducible refine ite_keeps ?_ ?_)
    | split
    | dsimp only [id])

theorem State.ringCopy_keeps (u : Keeps [.dec, .cores, .blw] P) {a0 : Nat} {a1 : List Sys2Proof.Byte} {a2 : Sys2Proof.T48} (k : P s) : P (State.ringCopy a0 a1 a2 s) := by
  unfold State.ringCopy
  repeat' (first
    | with_reducible assumption
    | (with_reducible refine u.mono ?_; decide)
    | (with_reducible refine State.ringPut_keeps ?_ ?_)
    | (with_reducible refine State.modDecS_keeps ?_ ?_)
    | (with_reducible refine ite_keeps ?_ ?_)
    | split
    | dsimp only [id])

theorem State.portCount_keeps (u : Keeps [.run] P) {a0 : Nat} {a1 : Nat} {a2 : Nat} (k : P s) : P (State.portCount a0 a1 a2 s) := by
  unfold State.portCount
  repeat' (first
    | with_reducible assumption
    | (with_reducible refine u.mono ?_; decide)
    | (with_reducible refine State.modEth_keeps ?_ ?_)
    | (with_reducible refine ite_keeps ?_ ?_)
    | split
    | dsimp only [id])

theorem State.police_keeps (u : Keeps [.run] P) {a0 : Nat} {a1 : Nat} {a2 : BitVec 6} (k : P s) : P (State.police a0 a1 a2 s).1 := by
  unfold State.police
  repeat' (first
    | with_reducible assumption
    | (with_reducible refine u.mono ?_; decide)
    | (with_reducible refine State.modRun_keeps ?_ ?_)
    | (with_reducible refine ite_keeps ?_ ?_)
    | split
    | dsimp only [id])
theorem State.police_keeps_of (u : Keeps [.run] P) {a0 : Nat} {a1 : Nat} {a2 : BitVec 6} {t r} (k : P s) (e : State.police a0 a1 a2 s = (t, r)) : P t := by
  have h := State.police_keeps (P := P) u (a0 := a0) (a1 := a1) (a2 := a2) k
  rw [e] at h
  exact h

theorem State.sendTack_keeps (u : Keeps [.run] P) {a0 : Nat} {a1 : Nat} {a2 : Nat} (k : P s) : P (State.sendTack a0 a1 a2 s) := by
  unfold State.sendTack
  repeat' (first
    | with_reducible assumption
    | (with_reducible refine u.mono ?_; decide)
    | (with_reducible refine State.sendCopies_keeps ?_ ?_)
    | (with_reducible refine ite_keeps ?_ ?_)
    | split
    | dsimp only [id])

theorem State.flowPut_keeps (u : Keeps [.run, .blw, .glb, .irc, .log, .flt] P) {a0 : Nat} {a1 : Pkt} (k : P s) : P (State.flowPut a0 a1 s) := by
  unfold State.flowPut
  repeat' (first
    | with_reducible assumption
    | (with_reducible refine u.mono ?_; decide)
    | (intro _ h; exact h)
    | (intro h; exact h)
    | (intro _; rfl)
    | (with_reducible refine State.portCount_keeps ?_ ?_)
    | (with_reducible refine State.freePkt_keeps ?_ ?_)
    | (with_reducible refine State.statIn_keeps ?_ ?_)
    | (with_reducible refine State.modFlow_keeps ?_ ?_)
    | (with_reducible refine ite_keeps ?_ ?_)
    | split
    | dsimp only [id])

theorem State.releaseStream_keeps (u : Keeps [.dec, .cores, .run, .blw] P) {a0 : Nat} {a1 : Pkt} {a2 : Sys2Proof.Rtp} (k : P s) : P (State.releaseStream a0 a1 a2 s) := by
  unfold State.releaseStream
  repeat' (first
    | with_reducible assumption
    | (with_reducible refine u.mono ?_; decide)
    | (with_reducible refine State.ringPut_keeps ?_ ?_)
    | (with_reducible refine State.modStitch_keeps ?_ ?_)
    | (with_reducible refine State.ringCopy_keeps ?_ ?_)
    | (with_reducible refine ite_keeps ?_ ?_)
    | split
    | dsimp only [id])

theorem State.releaseCapture_keeps (u : Keeps [.ras, .irc, .log] P) {a0 : Nat} {a1 : Pkt} {a2 : Sys2Proof.Rtp} (k : P s) : P (State.releaseCapture a0 a1 a2 s) := by
  unfold State.releaseCapture
  repeat' (first
    | with_reducible assumption
    | (with_reducible refine u.mono ?_; decide)
    | (intro _ h; exact h)
    | (intro h; exact h)
    | (intro _; rfl)
    | (with_reducible refine State.setInState_keeps ?_ ?_)
    | (with_reducible refine State.modRaster_keeps ?_ ?_)
    | (with_reducible refine ite_keeps ?_ ?_)
    | split
    | dsimp only [id])

theorem State.release_keeps (u : Keeps [.ras, .dec, .cores, .run, .blw, .glb, .irc, .log, .flt] P) {a0 : Nat} {a1 : Pkt} (k : P s) : P (State.release a0 a1 s) := by
  unfold State.release
  repeat' (first
    | with_reducible assumption
    | (with_reducible refine u.mono ?_; decide)
    | (intro _ h; exact h)
    | (intro h; exact h)
    | (intro _; rfl)
    | (with_reducible refine State.releaseStream_keeps ?_ ?_)
    | (with_reducible refine State.releaseCapture_keeps ?_ ?_)
    | (with_reducible refine State.freePkt_keeps ?_ ?_)
    | (with_reducible refine State.modStitch_keeps ?_ ?_)
    | (with_reducible refine ite_keeps ?_ ?_)
    | split
    | dsimp only [id])

theorem State.releaseRun_keeps (u : Keeps [.ras, .dec, .cores, .run, .blw, .glb, .irc, .log, .flt] P) {a0 : Nat} {a1 : Nat} (k : P s) : P (State.releaseRun a0 a1 s) := by
  induction a0 generalizing s with
  | zero => exact k
  | succ n ih =>
    unfold State.releaseRun
    dsimp only
    split
    · split
      · exact k
      · split
        · exact State.ageHeld_keeps (u.mono (by decide)) (State.modStitch_keeps (u.mono (by decide)) k)
        · exact ih (State.release_keeps (u.mono (by decide)) (State.modStitch_keeps (u.mono (by decide)) k))
    · exact k

theorem State.declareMissing_keeps (u : Keeps [.ras, .dec, .cores, .run, .blw, .glb, .irc, .log, .flt] P) {a0 : Nat} (k : P s) : P (State.declareMissing a0 s) := by
  unfold State.declareMissing
  repeat' (first
    | with_reducible assumption
    | (with_reducible refine u.mono ?_; decide)
    | (intro _ h; exact h)
    | (intro h; exact h)
    | (intro _; rfl)
    | (with_reducible refine State.gapMark_keeps ?_ ?_)
    | (with_reducible refine State.modStitch_keeps ?_ ?_)
    | (with_reducible refine State.releaseRun_keeps ?_ ?_)
    | (with_reducible refine ite_keeps ?_ ?_)
    | split
    | dsimp only [id])

theorem State.inWindow_keeps (u : Keeps [.ras, .dec, .cores, .run, .blw, .glb, .irc, .log, .flt] P) {a0 : Nat} {a1 : Pkt} (k : P s) : P (State.inWindow a0 a1 s) := by
  unfold State.inWindow
  repeat' (first
    | with_reducible assumption
    | (with_reducible refine u.mono ?_; decide)
    | (intro _ h; exact h)
    | (intro h; exact h)
    | (intro _; rfl)
    | (with_reducible refine State.releaseRun_keeps ?_ ?_)
    | (with_reducible refine State.release_keeps ?_ ?_)
    | (with_reducible refine State.freePkt_keeps ?_ ?_)
    | (with_reducible refine State.modStitch_keeps ?_ ?_)
    | (with_reducible refine State.declareMissing_keeps ?_ ?_)
    | (with_reducible refine State.limited_keeps ?_ (fun _ _ => ?_) ?_)
    | (with_reducible refine State.raiseCtx_keeps ?_ ?_)
    | (with_reducible refine State.latch_keeps ?_ ?_)
    | (with_reducible refine ite_keeps ?_ ?_)
    | split
    | dsimp only [id])

theorem State.pathSeen_keeps (u : Keeps [.run, .irc, .log] P) {a0 : Nat} {a1 : Bool} (k : P s) : P (State.pathSeen a0 a1 s) := by
  unfold State.pathSeen
  repeat' (first
    | with_reducible assumption
    | (with_reducible refine u.mono ?_; decide)
    | (intro _ h; exact h)
    | (intro h; exact h)
    | (intro _; rfl)
    | (with_reducible refine State.modStitch_keeps ?_ ?_)
    | (with_reducible refine State.limited_keeps ?_ (fun _ _ => ?_) ?_)
    | (with_reducible refine State.raiseCtx_keeps ?_ ?_)
    | (with_reducible refine State.latch_keeps ?_ ?_)
    | (with_reducible refine ite_keeps ?_ ?_)
    | split
    | dsimp only [id])

theorem State.policeFixed_keeps (u : Keeps [.run] P) {a0 a1 : Nat} (k : P s) : P (State.policeFixed a0 a1 s).1 := by
  unfold State.policeFixed
  dsimp only
  exact State.modRun_keeps u k
theorem State.policeFixed_keeps_of (u : Keeps [.run] P) {a0 a1 : Nat} {t r} (k : P s) (e : State.policeFixed a0 a1 s = (t, r)) : P t := by
  have h := State.policeFixed_keeps (P := P) u (a0 := a0) (a1 := a1) k
  rw [e] at h
  exact h

theorem State.resetStitch_keeps (u : Keeps [.run, .blw, .glb, .irc, .log, .flt] P) {a0 : Nat} (k : P s) : P (State.resetStitch a0 s) := by
  unfold State.resetStitch
  repeat' (first
    | with_reducible assumption
    | (with_reducible refine u.mono ?_; decide)
    | (intro _ h; exact h)
    | (intro h; exact h)
    | (intro _; rfl)
    | (with_reducible refine State.modStitch_keeps ?_ ?_)
    | (with_reducible refine State.each_keeps (fun _ _ _ => ?_) ?_)
    | (with_reducible refine State.freePkt_keeps ?_ ?_)
    | (with_reducible refine ite_keeps ?_ ?_)
    | split
    | dsimp only [id])

theorem State.rxTake_keeps (u : Keeps [.run, .blw, .glb, .irc, .log, .flt] P) {a0 : Nat} (k : P s) : P (State.rxTake a0 s) := by
  unfold State.rxTake
  repeat' (first
    | with_reducible assumption
    | (with_reducible refine u.mono ?_; decide)
    | (intro _ h; exact h)
    | (intro h; exact h)
    | (intro _; rfl)
    | (with_reducible refine State.modRun_keeps ?_ ?_)
    | (with_reducible refine State.freePkt_keeps ?_ ?_)
    | (with_reducible refine ite_keeps ?_ ?_)
    | split
    | dsimp only [id])

theorem State.ssrcSeen_keeps (u : Keeps [.freeCtr, .dec, .cmp, .cores, .drm, .run, .blw, .glb, .irc, .log, .flt, .grt] P) {a0 : Nat} {a1 : BitVec 32} (k : P s) : P (State.ssrcSeen a0 a1 s) := by
  unfold State.ssrcSeen
  repeat' (first
    | with_reducible assumption
    | (with_reducible refine u.mono ?_; decide)
    | (intro _ h; exact h)
    | (intro h; exact h)
    | (intro _; rfl)
    | (with_reducible refine State.whenB_keeps (fun _ _ => ?_) ?_)
    | (with_reducible refine State.resetStitch_keeps ?_ ?_)
    | (with_reducible refine State.startStream_keeps ?_ ?_)
    | (with_reducible refine State.modDecS_keeps ?_ ?_)
    | (with_reducible refine State.modStitch_keeps ?_ ?_)
    | (with_reducible refine ite_keeps ?_ ?_)
    | split
    | dsimp only [id])

theorem State.stitchOne_keeps (u : Keeps [.ras, .dec, .cores, .run, .blw, .glb, .irc, .log, .flt] P) {a0 : Nat} {a1 : Pkt} (k : P s) : P (State.stitchOne a0 a1 s) := by
  unfold State.stitchOne
  repeat' (first
    | with_reducible assumption
    | (with_reducible refine u.mono ?_; decide)
    | (intro _ h; exact h)
    | (intro h; exact h)
    | (intro _; rfl)
    | (with_reducible refine State.inWindow_keeps ?_ ?_)
    | (with_reducible refine State.each_keeps (fun _ _ _ => ?_) ?_)
    | (with_reducible refine State.freePkt_keeps ?_ ?_)
    | (with_reducible refine State.modStitch_keeps ?_ ?_)
    | (with_reducible refine State.gapMark_keeps ?_ ?_)
    | (with_reducible refine State.limited_keeps ?_ (fun _ _ => ?_) ?_)
    | (with_reducible refine State.raiseCtx_keeps ?_ ?_)
    | (with_reducible refine State.latch_keeps ?_ ?_)
    | (with_reducible refine State.release_keeps ?_ ?_)
    | (with_reducible refine ite_keeps ?_ ?_)
    | split
    | dsimp only [id])

end Sys2Proof.Machine
end

