-- ==== Sys2Proof/Laws/Encoder.lean ====
section
/-! SUPPORT. What each operation of Encoder keeps. -/

namespace Sys2Proof.Machine

set_option linter.unreachableTactic false
set_option linter.unusedTactic false

variable {P : State → Prop} {s : State}

theorem State.modHead_keeps (u : Keeps [.enc] P) {a0 : Nat} {a1 : EncPic → EncPic} (k : P s) : P (State.modHead a0 a1 s) := by
  unfold State.modHead
  repeat' (first
    | with_reducible assumption
    | (with_reducible refine u.mono ?_; decide)
    | (with_reducible refine State.modEncS_keeps ?_ ?_)
    | (with_reducible refine ite_keeps ?_ ?_)
    | split
    | dsimp only [id])

theorem State.modEncPic_keeps (u : Keeps [.enc] P) {a0 : Nat} {a1 : BitVec 32} {a2 : EncPic → EncPic} (k : P s) : P (State.modEncPic a0 a1 a2 s) := by
  unfold State.modEncPic
  repeat' (first
    | with_reducible assumption
    | (with_reducible refine u.mono ?_; decide)
    | (with_reducible refine State.modEncS_keeps ?_ ?_)
    | (with_reducible refine ite_keeps ?_ ?_)
    | split
    | dsimp only [id])

theorem State.encEvent_keeps (u : Keeps [.enc, .log] P) {a0 : Nat} {a1 : BitVec 32} {a2 : Sys2Proof.EventId} {a3 : List Sys2Proof.Item} (k : P s) : P (State.encEvent a0 a1 a2 a3 s) := by
  unfold State.encEvent
  repeat' (first
    | with_reducible assumption
    | (with_reducible refine u.mono ?_; decide)
    | (with_reducible refine State.raiseP_keeps ?_ ?_)
    | (with_reducible refine State.modEncS_keeps ?_ ?_)
    | (with_reducible refine ite_keeps ?_ ?_)
    | split
    | dsimp only [id])

theorem State.nonDet_keeps (u : Keeps [.enc, .log] P) {a0 : Nat} {a1 : BitVec 32} {a2 : Nat} (k : P s) : P (State.nonDet a0 a1 a2 s) := by
  unfold State.nonDet
  repeat' (first
    | with_reducible assumption
    | (with_reducible refine u.mono ?_; decide)
    | (with_reducible refine State.modEncS_keeps ?_ ?_)
    | (with_reducible refine State.encEvent_keeps ?_ ?_)
    | (with_reducible refine ite_keeps ?_ ?_)
    | split
    | dsimp only [id])

theorem State.repeatRows_keeps (u : Keeps [.enc, .log] P) {a0 : Nat} {a1 : BitVec 32} {a2 : Nat} {a3 : Nat} (k : P s) : P (State.repeatRows a0 a1 a2 a3 s) := by
  unfold State.repeatRows
  repeat' (first
    | with_reducible assumption
    | (with_reducible refine u.mono ?_; decide)
    | (with_reducible refine State.modEncPic_keeps ?_ ?_)
    | (with_reducible refine State.modEncS_keeps ?_ ?_)
    | (with_reducible refine State.nonDet_keeps ?_ ?_)
    | (with_reducible refine State.encEvent_keeps ?_ ?_)
    | (with_reducible refine ite_keeps ?_ ?_)
    | split
    | dsimp only [id])

theorem State.abandonEncode_keeps (u : Keeps [.enc, .cores, .log] P) {a0 : Nat} (k : P s) : P (State.abandonEncode a0 s) := by
  unfold State.abandonEncode
  repeat' (first
    | with_reducible assumption
    | (with_reducible refine u.mono ?_; decide)
    | (with_reducible refine State.each_keeps (fun _ _ _ => ?_) ?_)
    | (with_reducible refine State.modCore_keeps ?_ ?_)
    | (with_reducible refine State.modHead_keeps ?_ ?_)
    | (with_reducible refine State.repeatRows_keeps ?_ ?_)
    | (with_reducible refine ite_keeps ?_ ?_)
    | split
    | dsimp only [id])

theorem State.overtake_keeps (u : Keeps [.enc, .log] P) {a0 : Nat} {a1 : BitVec 32} {a2 : Nat} (k : P s) : P (State.overtake a0 a1 a2 s) := by
  unfold State.overtake
  repeat' (first
    | with_reducible assumption
    | (with_reducible refine u.mono ?_; decide)
    | (with_reducible refine State.each_keeps (fun _ _ _ => ?_) ?_)
    | (with_reducible refine State.repeatRows_keeps ?_ ?_)
    | (with_reducible refine ite_keeps ?_ ?_)
    | split
    | dsimp only [id])

theorem State.takeTiming_keeps (u : Keeps [.enc, .log] P) {a0 : Nat} {a1 : Nat} {a2 : BitVec 32} (k : P s) : P (State.takeTiming a0 a1 a2 s) := by
  unfold State.takeTiming
  repeat' (first
    | with_reducible assumption
    | (with_reducible refine u.mono ?_; decide)
    | (with_reducible refine State.modEncPic_keeps ?_ ?_)
    | (with_reducible refine State.modEncS_keeps ?_ ?_)
    | (with_reducible refine State.nonDet_keeps ?_ ?_)
    | (with_reducible refine ite_keeps ?_ ?_)
    | split
    | dsimp only [id])

theorem State.keepSource_keeps (u : Keeps [.enc] P) {a0 : Nat} {a1 : BitVec 32} {a2 : Nat} {a3 : Nat} (k : P s) : P (State.keepSource a0 a1 a2 a3 s) := by
  unfold State.keepSource
  repeat' (first
    | with_reducible assumption
    | (with_reducible refine u.mono ?_; decide)
    | (with_reducible refine State.modEncPic_keeps ?_ ?_)
    | (with_reducible refine foldl_fst_keeps (fun _ _ _ => ?_) ?_)
    | (with_reducible refine foldl_keeps (fun _ _ _ => ?_) ?_)
    | (with_reducible refine ite_keeps ?_ ?_)
    | split
    | dsimp only [id])

theorem State.encRelease_keeps (u : Keeps [.enc, .cores, .drm, .blw, .log] P) {a0 : Nat} {a1 : Nat} {a2 : Nat} (k : P s) : P (State.encRelease a0 a1 a2 s) := by
  unfold State.encRelease
  repeat' (first
    | with_reducible assumption
    | (with_reducible refine u.mono ?_; decide)
    | (with_reducible refine State.overtake_keeps ?_ ?_)
    | (with_reducible refine State.takeTiming_keeps ?_ ?_)
    | (with_reducible refine State.eventAt_keeps ?_ ?_)
    | (with_reducible refine State.modPoolD_keeps ?_ ?_)
    | (with_reducible refine State.keepSource_keeps ?_ ?_)
    | (with_reducible refine State.modEncPic_keeps ?_ ?_)
    | (with_reducible refine ite_keeps ?_ ?_)
    | split
    | dsimp only [id])

theorem State.sendPacket_keeps (u : Keeps [.run] P) {a0 : Nat} {a1 : Pkt} (k : P s) : P (State.sendPacket a0 a1 s) := by
  unfold State.sendPacket
  repeat' (first
    | with_reducible assumption
    | (with_reducible refine u.mono ?_; decide)
    | (with_reducible refine State.sendCopies_keeps ?_ ?_)
    | (with_reducible refine ite_keeps ?_ ?_)
    | split
    | dsimp only [id])

theorem State.addPic_keeps (u : Keeps [.enc] P) {a0 : Nat} {a1 : EncPic} (k : P s) : P (State.addPic a0 a1 s) := by
  unfold State.addPic
  repeat' (first
    | with_reducible assumption
    | (with_reducible refine u.mono ?_; decide)
    | (with_reducible refine State.modEncS_keeps ?_ ?_)
    | (with_reducible refine ite_keeps ?_ ?_)
    | split
    | dsimp only [id])

theorem State.addHostPic_keeps (u : Keeps [.enc, .log] P) {a0 : Nat} {a1 : Nat} {a2 : EncPic} (k : P s) : P (State.addHostPic a0 a1 a2 s) := by
  unfold State.addHostPic
  repeat' (first
    | with_reducible assumption
    | (with_reducible refine u.mono ?_; decide)
    | (with_reducible refine State.addPic_keeps ?_ ?_)
    | (with_reducible refine State.overtake_keeps ?_ ?_)
    | (with_reducible refine ite_keeps ?_ ?_)
    | split
    | dsimp only [id])

theorem State.attestPic_keeps (u : Keeps [.enc] P) {a0 : Nat} {a1 : Bool} (k : P s) : P (State.attestPic a0 a1 s) := by
  unfold State.attestPic
  repeat' (first
    | with_reducible assumption
    | (with_reducible refine u.mono ?_; decide)
    | (with_reducible refine State.modEncS_keeps ?_ ?_)
    | (with_reducible refine State.modHead_keeps ?_ ?_)
    | (with_reducible refine ite_keeps ?_ ?_)
    | split
    | dsimp only [id])

theorem State.beginSweep_keeps (u : Keeps [.enc, .log] P) {a0 : Nat} {a1 : EncPic} {a2 : Nat} {a3 : Option Nat} (k : P s) : P (State.beginSweep a0 a1 a2 a3 s) := by
  unfold State.beginSweep
  repeat' (first
    | with_reducible assumption
    | (with_reducible refine u.mono ?_; decide)
    | (with_reducible refine State.modEncS_keeps ?_ ?_)
    | (with_reducible refine State.nonDet_keeps ?_ ?_)
    | (with_reducible refine State.modHead_keeps ?_ ?_)
    | (with_reducible refine ite_keeps ?_ ?_)
    | split
    | dsimp only [id])

theorem State.sweepTwin_keeps (u : Keeps [.enc, .log, .grt] P) {a0 : Nat} {a1 : EncPic} (k : P s) : P (State.sweepTwin a0 a1 s) := by
  unfold State.sweepTwin
  repeat' (first
    | with_reducible assumption
    | (with_reducible refine u.mono ?_; decide)
    | (with_reducible refine State.gPut_keeps ?_ ?_)
    | (with_reducible refine State.modEncS_keeps ?_ ?_)
    | (with_reducible refine State.nonDet_keeps ?_ ?_)
    | (with_reducible refine ite_keeps ?_ ?_)
    | split
    | dsimp only [id])

theorem State.startSweep_keeps (u : Keeps [.enc, .log, .grt] P) {a0 : Nat} {a1 : EncPic} {a2 : Option Nat} (k : P s) : P (State.startSweep a0 a1 a2 s) := by
  unfold State.startSweep
  repeat' (first
    | with_reducible assumption
    | (with_reducible refine u.mono ?_; decide)
    | (with_reducible refine State.sweepTwin_keeps ?_ ?_)
    | (with_reducible refine State.modEncS_keeps ?_ ?_)
    | (with_reducible refine State.modHead_keeps ?_ ?_)
    | (with_reducible refine ite_keeps ?_ ?_)
    | split
    | dsimp only [id])

theorem State.beginPic_keeps (u : Keeps [.enc, .log, .grt] P) {a0 : Nat} (k : P s) : P (State.beginPic a0 s) := by
  unfold State.beginPic
  repeat' (first
    | with_reducible assumption
    | (with_reducible refine u.mono ?_; decide)
    | (with_reducible refine State.beginSweep_keeps ?_ ?_)
    | (with_reducible refine State.startSweep_keeps ?_ ?_)
    | (with_reducible refine State.attestPic_keeps ?_ ?_)
    | (with_reducible refine State.encEvent_keeps ?_ ?_)
    | (with_reducible refine ite_keeps ?_ ?_)
    | split
    | dsimp only [id])

theorem State.captureBuf_keeps (u : Keeps [.freeCtr, .enc, .drm] P) {a0 : Nat} {a1 : BitVec 32} (k : P s) : P (State.captureBuf a0 a1 s) := by
  unfold State.captureBuf
  repeat' (first
    | with_reducible assumption
    | (with_reducible refine u.mono ?_; decide)
    | (with_reducible refine State.modEncPic_keeps ?_ ?_)
    | (with_reducible refine State.modPoolD_keeps ?_ ?_)
    | (with_reducible refine State.claimDesc_keeps ?_ ?_)
    | (with_reducible refine ite_keeps ?_ ?_)
    | split
    | dsimp only [id])

theorem State.rowEvents_keeps (u : Keeps [.enc, .log] P) {a0 : Nat} {a1 : RowForm} {a2 : List Nat} (k : P s) : P (State.rowEvents a0 a1 a2 s) := by
  unfold State.rowEvents
  repeat' (first
    | with_reducible assumption
    | (with_reducible refine u.mono ?_; decide)
    | (with_reducible refine State.encEvent_keeps ?_ ?_)
    | (with_reducible refine foldl_fst_keeps (fun _ _ _ => ?_) ?_)
    | (with_reducible refine foldl_keeps (fun _ _ _ => ?_) ?_)
    | (with_reducible refine ite_keeps ?_ ?_)
    | split
    | dsimp only [id])

theorem State.rowPacket_keeps (u : Keeps [.enc, .run] P) {a0 : Nat} {a1 : EncPic} {a2 : Bool} {a3 : List Sys2Proof.Byte × Sys2Proof.PayKind} (k : P s) : P (State.rowPacket a0 a1 a2 a3 s) := by
  unfold State.rowPacket
  repeat' (first
    | with_reducible assumption
    | (with_reducible refine u.mono ?_; decide)
    | (with_reducible refine State.modEncS_keeps ?_ ?_)
    | (with_reducible refine State.sendPacket_keeps ?_ ?_)
    | (with_reducible refine ite_keeps ?_ ?_)
    | split
    | dsimp only [id])

theorem State.rowPackets_keeps (u : Keeps [.enc, .run] P) {a0 : Nat} {a1 : EncPic} {a2 : List (List Sys2Proof.Byte)} {a3 : Bool} (k : P s) : P (State.rowPackets a0 a1 a2 a3 s) := by
  unfold State.rowPackets
  repeat' (first
    | with_reducible assumption
    | (with_reducible refine u.mono ?_; decide)
    | (with_reducible refine State.each_keeps (fun _ _ _ => ?_) ?_)
    | (with_reducible refine State.rowPacket_keeps ?_ ?_)
    | (with_reducible refine ite_keeps ?_ ?_)
    | split
    | dsimp only [id])

theorem State.freeCapture_keeps (u : Keeps [.drm] P) {a0 : EncPic} (k : P s) : P (State.freeCapture a0 s) := by
  unfold State.freeCapture
  repeat' (first
    | with_reducible assumption
    | (with_reducible refine u.mono ?_; decide)
    | (with_reducible refine State.modPoolD_keeps ?_ ?_)
    | (with_reducible refine ite_keeps ?_ ?_)
    | split
    | dsimp only [id])

theorem State.crcCheck_keeps (u : Keeps [.enc, .irc, .log, .grt] P) {a0 : Nat} {a1 : BitVec 32} (k : P s) : P (State.crcCheck a0 a1 s) := by
  unfold State.crcCheck
  repeat' (first
    | with_reducible assumption
    | (with_reducible refine u.mono ?_; decide)
    | (intro _ h; exact h)
    | (intro h; exact h)
    | (intro _; rfl)
    | (with_reducible refine State.modEncS_keeps ?_ ?_)
    | (with_reducible refine State.limited_keeps ?_ (fun _ _ => ?_) ?_)
    | (with_reducible refine State.raiseP_keeps ?_ ?_)
    | (with_reducible refine State.raise_keeps ?_ ?_)
    | (with_reducible refine State.latch_keeps ?_ ?_)
    | (with_reducible refine State.encRestart_keeps ?_ ?_)
    | (with_reducible refine ite_keeps ?_ ?_)
    | split
    | dsimp only [id])

theorem State.endPic_keeps (u : Keeps [.enc, .drm, .irc, .log, .grt] P) {a0 : Nat} (k : P s) : P (State.endPic a0 s) := by
  unfold State.endPic
  repeat' (first
    | with_reducible assumption
    | (with_reducible refine u.mono ?_; decide)
    | (intro _ h; exact h)
    | (intro h; exact h)
    | (intro _; rfl)
    | (with_reducible refine State.modEncS_keeps ?_ ?_)
    | (with_reducible refine State.freeCapture_keeps ?_ ?_)
    | (with_reducible refine State.crcCheck_keeps ?_ ?_)
    | (with_reducible refine State.gPut_keeps ?_ ?_)
    | (with_reducible refine ite_keeps ?_ ?_)
    | split
    | dsimp only [id])

theorem State.commitForm_keeps (u : Keeps [.enc, .drm, .run, .hq, .irc, .log, .grt] P) {a0 : Nat} {a1 : RowForm} {a2 : List Nat} {a3 : BitVec 2} (k : P s) : P (State.commitForm a0 a1 a2 a3 s) := by
  unfold State.commitForm
  repeat' (first
    | with_reducible assumption
    | (with_reducible refine u.mono ?_; decide)
    | (intro _ h; exact h)
    | (intro h; exact h)
    | (intro _; rfl)
    | (with_reducible refine State.modEncS_keeps ?_ ?_)
    | (with_reducible refine State.modHead_keeps ?_ ?_)
    | (with_reducible refine State.encEvent_keeps ?_ ?_)
    | (with_reducible refine State.rowEvents_keeps ?_ ?_)
    | (with_reducible refine State.rowPackets_keeps ?_ ?_)
    | (with_reducible refine State.stageRow_keeps ?_ ?_)
    | (with_reducible refine State.endPic_keeps ?_ ?_)
    | (with_reducible refine ite_keeps ?_ ?_)
    | split
    | dsimp only [id])

theorem State.fillFrames_keeps (u : Keeps [.enc, .log] P) {a0 : Nat} {a1 : Nat} {a2 : Nat} (k : P s) : P (State.fillFrames a0 a1 a2 s) := by
  unfold State.fillFrames
  repeat' (first
    | with_reducible assumption
    | (with_reducible refine u.mono ?_; decide)
    | (with_reducible refine State.overtake_keeps ?_ ?_)
    | (with_reducible refine State.each_keeps (fun _ _ _ => ?_) ?_)
    | (with_reducible refine State.addPic_keeps ?_ ?_)
    | (with_reducible refine State.encEvent_keeps ?_ ?_)
    | (with_reducible refine ite_keeps ?_ ?_)
    | split
    | dsimp only [id])

theorem State.encFrame_keeps (u : Keeps [.freeCtr, .enc, .drm, .log] P) {a0 : Nat} {a1 : ℤ} {a2 : Bool} (k : P s) : P (State.encFrame a0 a1 a2 s) := by
  unfold State.encFrame
  repeat' (first
    | with_reducible assumption
    | (with_reducible refine u.mono ?_; decide)
    | (with_reducible refine State.captureBuf_keeps ?_ ?_)
    | (with_reducible refine State.addPic_keeps ?_ ?_)
    | (with_reducible refine State.encEvent_keeps ?_ ?_)
    | (with_reducible refine State.fillFrames_keeps ?_ ?_)
    | (with_reducible refine ite_keeps ?_ ?_)
    | split
    | dsimp only [id])

theorem State.ownRelease_keeps (u : Keeps [.enc, .log] P) {a0 : Nat} {a1 : EncPic} (k : P s) : P (State.ownRelease a0 a1 s) := by
  unfold State.ownRelease
  repeat' (first
    | with_reducible assumption
    | (with_reducible refine u.mono ?_; decide)
    | (with_reducible refine State.overtake_keeps ?_ ?_)
    | (with_reducible refine State.repeatRows_keeps ?_ ?_)
    | (with_reducible refine State.modEncPic_keeps ?_ ?_)
    | (with_reducible refine ite_keeps ?_ ?_)
    | split
    | dsimp only [id])

theorem State.takeRow_keeps (u : Keeps [.enc, .cores, .blw] P) {a0 : Nat} {a1 : Nat} {a2 : List Nat} (k : P s) : P (State.takeRow a0 a1 a2 s) := by
  unfold State.takeRow
  repeat' (first
    | with_reducible assumption
    | (with_reducible refine u.mono ?_; decide)
    | (with_reducible refine State.modEncS_keeps ?_ ?_)
    | (with_reducible refine State.modCore_keeps ?_ ?_)
    | (with_reducible refine State.coreEvent_keeps ?_ ?_)
    | (with_reducible refine State.modHead_keeps ?_ ?_)
    | (with_reducible refine ite_keeps ?_ ?_)
    | split
    | dsimp only [id])

theorem execEncodeSelfRelease_keeps (u : Keeps [.enc, .log] P) {a0 : Nat} (k : P s) : ∀ t, execEncodeSelfRelease a0 s = .next t → P t := by
  intro t e
  injection e with e
  rw [← e]
  clear e
  repeat' (first
    | with_reducible assumption
    | (with_reducible refine u.mono ?_; decide)
    | (with_reducible refine nextOr_keeps (ok_keeps ?_) ?_)
    | (with_reducible refine State.ownRelease_keeps ?_ ?_)
    | (with_reducible refine State.addPic_keeps ?_ ?_)
    | (with_reducible refine ite_keeps ?_ ?_)
    | split
    | dsimp only [id])

theorem execEncodeRowIssue_keeps (u : Keeps [.enc, .cores, .blw, .log, .grt] P) {a0 : Nat} {a1 : Nat} (k : P s) : ∀ t, execEncodeRowIssue a0 a1 s = .next t → P t := by
  intro t e
  injection e with e
  rw [← e]
  clear e
  repeat' (first
    | with_reducible assumption
    | (with_reducible refine u.mono ?_; decide)
    | (with_reducible refine nextOr_keeps (ok_keeps ?_) ?_)
    | (with_reducible refine State.wakeCore_keeps ?_ ?_)
    | (with_reducible refine State.takeRow_keeps ?_ ?_)
    | (with_reducible refine State.beginPic_keeps ?_ ?_)
    | (with_reducible refine State.modHead_keeps ?_ ?_)
    | (with_reducible refine ite_keeps ?_ ?_)
    | split
    | dsimp only [id])

theorem execEncodeRowComplete_keeps (u : Keeps [.enc, .cores, .drm, .run, .hq, .blw, .glb, .irc, .log, .grt] P) {a0 : Nat} {a1 : Sys2Proof.CodedRow} (k : P s) : ∀ t, execEncodeRowComplete a0 a1 s = .next t → P t := by
  intro t e
  injection e with e
  rw [← e]
  clear e
  repeat' (first
    | with_reducible assumption
    | (with_reducible refine u.mono ?_; decide)
    | (intro _ h; exact h)
    | (intro h; exact h)
    | (intro _; rfl)
    | (with_reducible refine nextOr_keeps (ok_keeps ?_) ?_)
    | (with_reducible refine State.patchStep_keeps ?_ ?_)
    | (with_reducible refine State.commitForm_keeps ?_ ?_)
    | (with_reducible refine State.each_keeps (fun _ _ _ => ?_) ?_)
    | (with_reducible refine State.modCore_keeps ?_ ?_)
    | (with_reducible refine ite_keeps ?_ ?_)
    | split
    | dsimp only [id])

theorem execHostfedFrameStart_keeps (u : Keeps [.enc, .log] P) {a0 : Nat} (k : P s) : ∀ t, execHostfedFrameStart a0 s = .next t → P t := by
  intro t e
  injection e with e
  rw [← e]
  clear e
  repeat' (first
    | with_reducible assumption
    | (with_reducible refine u.mono ?_; decide)
    | (with_reducible refine nextOr_keeps (ok_keeps ?_) ?_)
    | (with_reducible refine State.addHostPic_keeps ?_ ?_)
    | (with_reducible refine State.modEncS_keeps ?_ ?_)
    | (with_reducible refine ite_keeps ?_ ?_)
    | split
    | dsimp only [id])

end Sys2Proof.Machine
end

