-- ==== Sys2Proof/Laws/Bellows.lean ====
section
/-! SUPPORT. What each operation of Bellows keeps. -/

namespace Sys2Proof.Machine

set_option linter.unreachableTactic false
set_option linter.unusedTactic false

variable {P : State → Prop} {s : State}

theorem State.dropTokens_keeps (u : Keeps [.blw] P) {a0 : Nat} {a1 : Nat} (k : P s) : P (State.dropTokens a0 a1 s) := by
  unfold State.dropTokens
  repeat' (first
    | with_reducible assumption
    | (with_reducible refine u.mono ?_; decide)
    | (with_reducible refine State.freeTokens_keeps ?_ ?_)
    | (with_reducible refine State.modRail_keeps ?_ ?_)
    | (with_reducible refine ite_keeps ?_ ?_)
    | split
    | dsimp only [id])

theorem State.startBurst_keeps (u : Keeps [.enc, .cores, .blw] P) {a0 : Nat} (k : P s) : P (State.startBurst a0 s) := by
  unfold State.startBurst
  repeat' (first
    | with_reducible assumption
    | (with_reducible refine u.mono ?_; decide)
    | (with_reducible refine State.coreEvent_keeps ?_ ?_)
    | (with_reducible refine State.modHead_keeps ?_ ?_)
    | (with_reducible refine ite_keeps ?_ ?_)
    | split
    | dsimp only [id])

theorem execStarvationStep_keeps (u : Keeps [.blw, .log] P) {a0 : Nat} (k : P s) : ∀ t, execStarvationStep a0 s = .next t → P t := by
  intro t e
  injection e with e
  rw [← e]
  clear e
  repeat' (first
    | with_reducible assumption
    | (with_reducible refine u.mono ?_; decide)
    | (with_reducible refine nextOr_keeps (ok_keeps ?_) ?_)
    | (with_reducible refine State.modBlw_keeps ?_ ?_)
    | (with_reducible refine State.limited_keeps ?_ (fun _ _ => ?_) ?_)
    | (with_reducible refine State.raise_keeps ?_ ?_)
    | (with_reducible refine ite_keeps ?_ ?_)
    | split
    | dsimp only [id])

theorem execUrgentCapWindow_keeps (u : Keeps [.blw] P) {a0 : Nat} (k : P s) : ∀ t, execUrgentCapWindow a0 s = .next t → P t := by
  intro t e
  injection e with e
  rw [← e]
  clear e
  repeat' (first
    | with_reducible assumption
    | (with_reducible refine u.mono ?_; decide)
    | (with_reducible refine nextOr_keeps (ok_keeps ?_) ?_)
    | (with_reducible refine State.modBlw_keeps ?_ ?_)
    | (with_reducible refine ite_keeps ?_ ?_)
    | split
    | dsimp only [id])

theorem execBellowsRequest_keeps (u : Keeps [.blw] P) {a0 : Nat} {a1 : Sys2Proof.ReqKind} {a2 : Sys2Proof.Level} {a3 : Nat} (k : P s) : ∀ t, execBellowsRequest a0 a1 a2 a3 s = .next t → P t := by
  intro t e
  injection e with e
  rw [← e]
  clear e
  repeat' (first
    | with_reducible assumption
    | (with_reducible refine u.mono ?_; decide)
    | (with_reducible refine nextOr_keeps (ok_keeps ?_) ?_)
    | (with_reducible refine State.askTokens_keeps ?_ ?_)
    | (with_reducible refine ite_keeps ?_ ?_)
    | split
    | dsimp only [id])

theorem execBellowsGrant_keeps (u : Keeps [.enc, .cores, .blw] P) {a0 : Nat} (k : P s) : ∀ t, execBellowsGrant a0 s = .next t → P t := by
  intro t e
  injection e with e
  rw [← e]
  clear e
  repeat' (first
    | with_reducible assumption
    | (with_reducible refine u.mono ?_; decide)
    | (with_reducible refine nextOr_keeps (ok_keeps ?_) ?_)
    | (with_reducible refine State.modRail_keeps ?_ ?_)
    | (with_reducible refine State.coreEvent_keeps ?_ ?_)
    | (with_reducible refine State.modCore_keeps ?_ ?_)
    | (with_reducible refine State.startBurst_keeps ?_ ?_)
    | (with_reducible refine ite_keeps ?_ ?_)
    | split
    | dsimp only [id])

theorem execBellowsRelease_keeps (u : Keeps [.blw] P) {a0 : Nat} {a1 : Sys2Proof.ReqKind} {a2 : Nat} (k : P s) : ∀ t, execBellowsRelease a0 a1 a2 s = .next t → P t := by
  intro t e
  injection e with e
  rw [← e]
  clear e
  repeat' (first
    | with_reducible assumption
    | (with_reducible refine u.mono ?_; decide)
    | (with_reducible refine nextOr_keeps (ok_keeps ?_) ?_)
    | (with_reducible refine State.freeTokens_keeps ?_ ?_)
    | (with_reducible refine ite_keeps ?_ ?_)
    | split
    | dsimp only [id])

theorem execBellowsDeny_keeps (u : Keeps [.enc, .blw, .irc, .log] P) {a0 : Nat} {a1 : Nat} (k : P s) : ∀ t, execBellowsDeny a0 a1 s = .next t → P t := by
  intro t e
  injection e with e
  rw [← e]
  clear e
  repeat' (first
    | with_reducible assumption
    | (with_reducible refine u.mono ?_; decide)
    | (intro _ h; exact h)
    | (intro h; exact h)
    | (intro _; rfl)
    | (with_reducible refine nextOr_keeps (ok_keeps ?_) ?_)
    | (with_reducible refine State.latch_keeps ?_ ?_)
    | (with_reducible refine State.modRail_keeps ?_ ?_)
    | (with_reducible refine State.limited_keeps ?_ (fun _ _ => ?_) ?_)
    | (with_reducible refine State.raise_keeps ?_ ?_)
    | (with_reducible refine State.encEvent_keeps ?_ ?_)
    | (with_reducible refine ite_keeps ?_ ?_)
    | split
    | dsimp only [id])

theorem execBlwSlow_keeps (u : Keeps [.blw, .irc, .log] P) {a0 : Nat} {a1 : Nat} (k : P s) : ∀ t, execBlwSlow a0 a1 s = .next t → P t := by
  intro t e
  injection e with e
  rw [← e]
  clear e
  repeat' (first
    | with_reducible assumption
    | (with_reducible refine u.mono ?_; decide)
    | (intro _ h; exact h)
    | (intro h; exact h)
    | (intro _; rfl)
    | (with_reducible refine nextOr_keeps (ok_keeps ?_) ?_)
    | (with_reducible refine State.latch_keeps ?_ ?_)
    | (with_reducible refine State.modRail_keeps ?_ ?_)
    | (with_reducible refine State.limited_keeps ?_ (fun _ _ => ?_) ?_)
    | (with_reducible refine State.raise_keeps ?_ ?_)
    | (with_reducible refine ite_keeps ?_ ?_)
    | split
    | dsimp only [id])

end Sys2Proof.Machine
end

