-- ==== Sys2Proof/Laws/Admission.lean ====
section
/-! SUPPORT. What each operation of Admission keeps. -/

namespace Sys2Proof.Machine

set_option linter.unreachableTactic false
set_option linter.unusedTactic false

variable {P : State → Prop} {s : State}

theorem State.moveTask_keeps (u : Keeps [.cores, .blw] P) {a0 : Nat} {a1 : Nat} {a2 : RowTask} (k : P s) : P (State.moveTask a0 a1 a2 s) := by
  unfold State.moveTask
  repeat' (first
    | with_reducible assumption
    | (with_reducible refine u.mono ?_; decide)
    | (with_reducible refine State.modCore_keeps ?_ ?_)
    | (with_reducible refine State.modBay_keeps ?_ ?_)
    | (with_reducible refine State.modTask_keeps ?_ ?_)
    | (with_reducible refine ite_keeps ?_ ?_)
    | split
    | dsimp only [id])

theorem State.moveTasks_keeps (u : Keeps [.freeCtr, .dec, .cmp, .cores, .drm, .blw, .irc, .log, .grt] P) {a0 : Nat} {a1 : Nat} (k : P s) : P (State.moveTasks a0 a1 s) := by
  unfold State.moveTasks
  repeat' (first
    | with_reducible assumption
    | (with_reducible refine u.mono ?_; decide)
    | (intro _ h; exact h)
    | (intro h; exact h)
    | (intro _; rfl)
    | (with_reducible refine State.each_keeps (fun _ _ _ => ?_) ?_)
    | (with_reducible refine State.moveTask_keeps ?_ ?_)
    | (with_reducible refine State.dropCheck_keeps ?_ ?_)
    | (with_reducible refine ite_keeps ?_ ?_)
    | split
    | dsimp only [id])

theorem State.placeStream_keeps (u : Keeps [.freeCtr, .enc, .dec, .cmp, .cores, .drm, .blw, .irc, .log, .grt] P) {a0 : Placed} (k : P s) : P (State.placeStream a0 s) := by
  unfold State.placeStream
  repeat' (first
    | with_reducible assumption
    | (with_reducible refine u.mono ?_; decide)
    | (intro _ h; exact h)
    | (intro h; exact h)
    | (intro _; rfl)
    | (with_reducible refine State.modEncS_keeps ?_ ?_)
    | (with_reducible refine State.moveTasks_keeps ?_ ?_)
    | (with_reducible refine State.modDecS_keeps ?_ ?_)
    | (with_reducible refine State.limited_keeps ?_ (fun _ _ => ?_) ?_)
    | (with_reducible refine State.raiseP_keeps ?_ ?_)
    | (with_reducible refine ite_keeps ?_ ?_)
    | split
    | dsimp only [id])

theorem State.setRoles_keeps (u : Keeps [.cores] P) {a0 : Adm} (k : P s) : P (State.setRoles a0 s) := by
  unfold State.setRoles
  repeat' (first
    | with_reducible assumption
    | (with_reducible refine u.mono ?_; decide)
    | (with_reducible refine State.each_keeps (fun _ _ _ => ?_) ?_)
    | (with_reducible refine State.setRole_keeps ?_ ?_)
    | (with_reducible refine ite_keeps ?_ ?_)
    | split
    | dsimp only [id])

theorem State.shedStream_keeps (u : Keeps [.enc, .dec, .log] P) {a0 : Ask} (k : P s) : P (State.shedStream a0 s) := by
  unfold State.shedStream
  repeat' (first
    | with_reducible assumption
    | (with_reducible refine u.mono ?_; decide)
    | (with_reducible refine State.modEncS_keeps ?_ ?_)
    | (with_reducible refine State.modDecS_keeps ?_ ?_)
    | (with_reducible refine State.limited_keeps ?_ (fun _ _ => ?_) ?_)
    | (with_reducible refine State.raiseP_keeps ?_ ?_)
    | (with_reducible refine ite_keeps ?_ ?_)
    | split
    | dsimp only [id])

theorem State.setPart_keeps (u : Keeps [.blw] P) {a0 : Adm} {a1 : Nat} (k : P s) : P (State.setPart a0 a1 s) := by
  unfold State.setPart
  repeat' (first
    | with_reducible assumption
    | (with_reducible refine u.mono ?_; decide)
    | (with_reducible refine State.modPart_keeps ?_ ?_)
    | (with_reducible refine foldl_fst_keeps (fun _ _ _ => ?_) ?_)
    | (with_reducible refine foldl_keeps (fun _ _ _ => ?_) ?_)
    | (with_reducible refine ite_keeps ?_ ?_)
    | split
    | dsimp only [id])

theorem State.setStanding_keeps (u : Keeps [.blw] P) {a0 : Adm} (k : P s) : P (State.setStanding a0 s) := by
  unfold State.setStanding
  repeat' (first
    | with_reducible assumption
    | (with_reducible refine u.mono ?_; decide)
    | (with_reducible refine State.each_keeps (fun _ _ _ => ?_) ?_)
    | (with_reducible refine State.modRail_keeps ?_ ?_)
    | (with_reducible refine ite_keeps ?_ ?_)
    | split
    | dsimp only [id])

theorem State.runAdmission_keeps (u : Keeps [.freeCtr, .enc, .dec, .cmp, .cores, .drm, .blw, .irc, .log, .grt] P) (k : P s) : P (State.runAdmission s) := by
  unfold State.runAdmission
  repeat' (first
    | with_reducible assumption
    | (with_reducible refine u.mono ?_; decide)
    | (intro _ h; exact h)
    | (intro h; exact h)
    | (intro _; rfl)
    | (with_reducible refine State.setRoles_keeps ?_ ?_)
    | (with_reducible refine State.modBlw_keeps ?_ ?_)
    | (with_reducible refine State.each_keeps (fun _ _ _ => ?_) ?_)
    | (with_reducible refine State.shedStream_keeps ?_ ?_)
    | (with_reducible refine State.placeStream_keeps ?_ ?_)
    | (with_reducible refine State.setPart_keeps ?_ ?_)
    | (with_reducible refine State.setStanding_keeps ?_ ?_)
    | (with_reducible refine State.limited_keeps ?_ (fun _ _ => ?_) ?_)
    | (with_reducible refine State.raise_keeps ?_ ?_)
    | (with_reducible refine State.recheck_keeps ?_ ?_)
    | (with_reducible refine ite_keeps ?_ ?_)
    | split
    | dsimp only [id])

end Sys2Proof.Machine
end

