-- ==== Sys2Proof/Laws/Compositor.lean ====
section
/-! SUPPORT. What each operation of Compositor keeps. -/

namespace Sys2Proof.Machine

set_option linter.unreachableTactic false
set_option linter.unusedTactic false

variable {P : State → Prop} {s : State}

theorem execCmpLineLate_keeps (u : Keeps [.cmp, .irc, .log] P) {a0 : Nat} {a1 : Sys2Proof.LinePos} (k : P s) : ∀ t, execCmpLineLate a0 a1 s = .next t → P t := by
  intro t e
  injection e with e
  rw [← e]
  clear e
  repeat' (first
    | with_reducible assumption
    | (with_reducible refine u.mono ?_; decide)
    | (intro _ h; exact h)
    | (intro h; exact h)
    | (intro _; rfl)
    | (with_reducible refine nextOr_keeps (ok_keeps ?_) ?_)
    | (with_reducible refine State.modCmp_keeps ?_ ?_)
    | (with_reducible refine State.raiseP_keeps ?_ ?_)
    | (with_reducible refine State.latch_keeps ?_ ?_)
    | (with_reducible refine State.modWindow_keeps ?_ ?_)
    | (with_reducible refine ite_keeps ?_ ?_)
    | split
    | dsimp only [id])

theorem State.dropUnmapped_keeps (u : Keeps [.dec] P) (k : P s) : P (State.dropUnmapped s) := by
  unfold State.dropUnmapped
  repeat' (first
    | with_reducible assumption
    | (with_reducible refine u.mono ?_; decide)
    | (with_reducible refine State.modDec_keeps ?_ ?_)
    | (with_reducible refine ite_keeps ?_ ?_)
    | split
    | dsimp only [id])

theorem State.takeWindows_keeps (u : Keeps [.dec, .cmp] P) {a0 : Nat} (k : P s) : P (State.takeWindows a0 s) := by
  unfold State.takeWindows
  repeat' (first
    | with_reducible assumption
    | (with_reducible refine u.mono ?_; decide)
    | (with_reducible refine State.modCmp_keeps ?_ ?_)
    | (with_reducible refine State.each_keeps (fun _ _ _ => ?_) ?_)
    | (with_reducible refine State.modWindow_keeps ?_ ?_)
    | (with_reducible refine State.dropUnmapped_keeps ?_ ?_)
    | (with_reducible refine ite_keeps ?_ ?_)
    | split
    | dsimp only [id])

theorem State.latchFuture_keeps (u : Keeps [.dec, .cmp, .irc, .log, .grt] P) {a0 : Scan} {a1 : Nat} {a2 : List (Nat × Nat)} (k : P s) : P (State.latchFuture a0 a1 a2 s) := by
  unfold State.latchFuture
  repeat' (first
    | with_reducible assumption
    | (with_reducible refine u.mono ?_; decide)
    | (intro _ h; exact h)
    | (intro h; exact h)
    | (intro _; rfl)
    | (with_reducible refine State.withLedger_keeps ?_ (fun _ _ => ?_) ?_)
    | (with_reducible refine State.each_keeps (fun _ _ _ => ?_) ?_)
    | (with_reducible refine State.modTile_keeps ?_ ?_)
    | (with_reducible refine State.ledgerEvent_keeps ?_ ?_)
    | (with_reducible refine State.modDecS_keeps ?_ ?_)
    | (with_reducible refine ite_keeps ?_ ?_)
    | split
    | dsimp only [id])

theorem State.scanWindow_keeps (u : Keeps [.cmp, .drm] P) {a0 : Nat} {a1 : Nat} {a2 : List (Nat × Nat)} (k : P s) : P (State.scanWindow a0 a1 a2 s) := by
  unfold State.scanWindow
  repeat' (first
    | with_reducible assumption
    | (with_reducible refine u.mono ?_; decide)
    | (with_reducible refine State.modWindow_keeps ?_ ?_)
    | (with_reducible refine State.each_keeps (fun _ _ _ => ?_) ?_)
    | (with_reducible refine State.modPoolD_keeps ?_ ?_)
    | (with_reducible refine ite_keeps ?_ ?_)
    | split
    | dsimp only [id])

theorem State.bringOnDie_keeps (u : Keeps [.dec] P) {a0 : Nat} (k : P s) : P (State.bringOnDie a0 s) := by
  unfold State.bringOnDie
  repeat' (first
    | with_reducible assumption
    | (with_reducible refine u.mono ?_; decide)
    | (with_reducible refine State.modDecS_keeps ?_ ?_)
    | (with_reducible refine ite_keeps ?_ ?_)
    | split
    | dsimp only [id])

theorem State.showWindow_keeps (u : Keeps [.dec, .cmp, .drm, .irc, .log, .grt] P) {a0 : Scan} {a1 : Nat} (k : P s) : P (State.showWindow a0 a1 s) := by
  unfold State.showWindow
  repeat' (first
    | with_reducible assumption
    | (with_reducible refine u.mono ?_; decide)
    | (intro _ h; exact h)
    | (intro h; exact h)
    | (intro _; rfl)
    | (with_reducible refine State.latchFuture_keeps ?_ ?_)
    | (with_reducible refine State.scanWindow_keeps ?_ ?_)
    | (with_reducible refine State.bringOnDie_keeps ?_ ?_)
    | (with_reducible refine State.modWindow_keeps ?_ ?_)
    | (with_reducible refine foldl_fst_keeps (fun _ _ _ => ?_) ?_)
    | (with_reducible refine foldl_keeps (fun _ _ _ => ?_) ?_)
    | (with_reducible refine ite_keeps ?_ ?_)
    | split
    | dsimp only [id])

theorem State.drawLine_keeps (u : Keeps [.dec, .cmp, .drm, .irc, .log, .grt] P) {a0 : Sys2Proof.LinePos} (k : P s) : P (State.drawLine a0 s) := by
  unfold State.drawLine
  repeat' (first
    | with_reducible assumption
    | (with_reducible refine u.mono ?_; decide)
    | (intro _ h; exact h)
    | (intro h; exact h)
    | (intro _; rfl)
    | (with_reducible refine State.each_keeps (fun _ _ _ => ?_) ?_)
    | (with_reducible refine State.showWindow_keeps ?_ ?_)
    | (with_reducible refine State.modCmp_keeps ?_ ?_)
    | (with_reducible refine ite_keeps ?_ ?_)
    | split
    | dsimp only [id])

theorem State.redraw_keeps (u : Keeps [.dec, .cmp, .drm, .irc, .log, .grt] P) {a0 : Nat} (k : P s) : P (State.redraw a0 s) := by
  unfold State.redraw
  repeat' (first
    | with_reducible assumption
    | (with_reducible refine u.mono ?_; decide)
    | (intro _ h; exact h)
    | (intro h; exact h)
    | (intro _; rfl)
    | (with_reducible refine State.takeWindows_keeps ?_ ?_)
    | (with_reducible refine State.each_keeps (fun _ _ _ => ?_) ?_)
    | (with_reducible refine State.modWindow_keeps ?_ ?_)
    | (with_reducible refine State.drawLine_keeps ?_ ?_)
    | (with_reducible refine ite_keeps ?_ ?_)
    | split
    | dsimp only [id])

theorem State.redrawAll_keeps (u : Keeps [.dec, .cmp, .drm, .irc, .log, .grt] P) (k : P s) : P (State.redrawAll s) := by
  unfold State.redrawAll
  repeat' (first
    | with_reducible assumption
    | (with_reducible refine u.mono ?_; decide)
    | (intro _ h; exact h)
    | (intro h; exact h)
    | (intro _; rfl)
    | (with_reducible refine State.each_keeps (fun _ _ _ => ?_) ?_)
    | (with_reducible refine State.redraw_keeps ?_ ?_)
    | (with_reducible refine ite_keeps ?_ ?_)
    | split
    | dsimp only [id])

theorem State.windowEvents_keeps (u : Keeps [.irc, .log] P) {a0 : Nat} {a1 : Window} (k : P s) : P (State.windowEvents a0 a1 s) := by
  unfold State.windowEvents
  repeat' (first
    | with_reducible assumption
    | (with_reducible refine u.mono ?_; decide)
    | (intro _ h; exact h)
    | (intro h; exact h)
    | (intro _; rfl)
    | (with_reducible refine State.raiseP_keeps ?_ ?_)
    | (with_reducible refine State.latch_keeps ?_ ?_)
    | (with_reducible refine ite_keeps ?_ ?_)
    | split
    | dsimp only [id])

theorem State.endWindowFrame_keeps (u : Keeps [.dec, .cmp, .drm, .irc, .log] P) {a0 : Nat} (k : P s) : P (State.endWindowFrame a0 s) := by
  unfold State.endWindowFrame
  repeat' (first
    | with_reducible assumption
    | (with_reducible refine u.mono ?_; decide)
    | (intro _ h; exact h)
    | (intro h; exact h)
    | (intro _; rfl)
    | (with_reducible refine State.each_keeps (fun _ _ _ => ?_) ?_)
    | (with_reducible refine State.modPoolD_keeps ?_ ?_)
    | (with_reducible refine State.dropFrames_keeps ?_ ?_)
    | (with_reducible refine State.modWindow_keeps ?_ ?_)
    | (with_reducible refine State.windowEvents_keeps ?_ ?_)
    | (with_reducible refine ite_keeps ?_ ?_)
    | split
    | dsimp only [id])

theorem State.visited_keeps (u : Keeps [.blw] P) {a0 : Nat} (k : P s) : P (State.visited a0 s) := by
  unfold State.visited
  repeat' (first
    | with_reducible assumption
    | (with_reducible refine u.mono ?_; decide)
    | (with_reducible refine State.served_keeps ?_ ?_)
    | (with_reducible refine State.modBlw_keeps ?_ ?_)
    | (with_reducible refine ite_keeps ?_ ?_)
    | split
    | dsimp only [id])

theorem execOutputLineFetch_keeps (u : Keeps [.dec, .cmp, .drm, .irc, .log, .grt] P) {a0 : Sys2Proof.LinePos} (k : P s) : ∀ t, execOutputLineFetch a0 s = .next t → P t := by
  intro t e
  injection e with e
  rw [← e]
  clear e
  repeat' (first
    | with_reducible assumption
    | (with_reducible refine u.mono ?_; decide)
    | (intro _ h; exact h)
    | (intro h; exact h)
    | (intro _; rfl)
    | (with_reducible refine nextOr_keeps (ok_keeps ?_) ?_)
    | (with_reducible refine State.takeWindows_keeps ?_ ?_)
    | (with_reducible refine State.each_keeps (fun _ _ _ => ?_) ?_)
    | (with_reducible refine State.endWindowFrame_keeps ?_ ?_)
    | (with_reducible refine State.drawLine_keeps ?_ ?_)
    | (with_reducible refine ite_keeps ?_ ?_)
    | split
    | dsimp only [id])

theorem execTileStateVisit_keeps (u : Keeps [.cmp, .blw] P) {a0 : Nat} {a1 : Nat} (k : P s) : ∀ t, execTileStateVisit a0 a1 s = .next t → P t := by
  intro t e
  injection e with e
  rw [← e]
  clear e
  repeat' (first
    | with_reducible assumption
    | (with_reducible refine u.mono ?_; decide)
    | (with_reducible refine nextOr_keeps (ok_keeps ?_) ?_)
    | (with_reducible refine State.modCmp_keeps ?_ ?_)
    | (with_reducible refine State.visited_keeps ?_ ?_)
    | (with_reducible refine ite_keeps ?_ ?_)
    | split
    | dsimp only [id])

theorem execTileStateFill_keeps (u : Keeps [.dec] P) {a0 : Nat} (k : P s) : ∀ t, execTileStateFill a0 s = .next t → P t := by
  intro t e
  injection e with e
  rw [← e]
  clear e
  repeat' (first
    | with_reducible assumption
    | (with_reducible refine u.mono ?_; decide)
    | (with_reducible refine nextOr_keeps (ok_keeps ?_) ?_)
    | (with_reducible refine State.bringOnDie_keeps ?_ ?_)
    | (with_reducible refine ite_keeps ?_ ?_)
    | split
    | dsimp only [id])

end Sys2Proof.Machine
end

