-- ==== Sys2Proof/Laws/Dram.lean ====
section
/-! SUPPORT. What each operation of Dram keeps. -/

namespace Sys2Proof.Machine

set_option linter.unreachableTactic false
set_option linter.unusedTactic false

variable {P : State → Prop} {s : State}

theorem State.fenceChan_keeps (u : Keeps [.drm, .blw, .glb, .irc, .log, .flt] P) {a0 : Nat} {a1 : Nat} {a2 : Nat} (k : P s) : P (State.fenceChan a0 a1 a2 s) := by
  unfold State.fenceChan
  repeat' (first
    | with_reducible assumption
    | (with_reducible refine u.mono ?_; decide)
    | (intro _ h; exact h)
    | (intro h; exact h)
    | (intro _; rfl)
    | (with_reducible refine State.recordFatal_keeps ?_ ?_)
    | (with_reducible refine State.limited_keeps ?_ (fun _ _ => ?_) ?_)
    | (with_reducible refine State.raise_keeps ?_ ?_)
    | (with_reducible refine State.latch_keeps ?_ ?_)
    | (with_reducible refine State.modChan_keeps ?_ ?_)
    | (with_reducible refine State.modDrm_keeps ?_ ?_)
    | (with_reducible refine State.each_keeps (fun _ _ _ => ?_) ?_)
    | (with_reducible refine State.unitFenced_keeps ?_ ?_)
    | (with_reducible refine State.modFltSrc_keeps ?_ ?_)
    | (with_reducible refine State.wantAdmission_keeps ?_ ?_)
    | (with_reducible refine ite_keeps ?_ ?_)
    | split
    | dsimp only [id])

theorem State.fenceIfDue_keeps (u : Keeps [.drm, .blw, .glb, .irc, .log, .flt] P) {a0 : Nat} (k : P s) : P (State.fenceIfDue a0 s) := by
  unfold State.fenceIfDue
  repeat' (first
    | with_reducible assumption
    | (with_reducible refine u.mono ?_; decide)
    | (intro _ h; exact h)
    | (intro h; exact h)
    | (intro _; rfl)
    | (with_reducible refine State.fenceChan_keeps ?_ ?_)
    | (with_reducible refine State.recordContained_keeps ?_ ?_)
    | (with_reducible refine ite_keeps ?_ ?_)
    | split
    | dsimp only [id])

theorem State.touch_keeps (u : Keeps [.drm] P) {a0 : Nat} {a1 : Nat} (k : P s) : P (State.touch a0 a1 s) := by
  unfold State.touch
  repeat' (first
    | with_reducible assumption
    | (with_reducible refine u.mono ?_; decide)
    | (with_reducible refine State.modChan_keeps ?_ ?_)
    | (with_reducible refine ite_keeps ?_ ?_)
    | split
    | dsimp only [id])

theorem State.logErr_keeps (u : Keeps [.drm, .log] P) {a0 : Nat} {a1 : ReadKind} {a2 : BitVec 2} {a3 : BitVec 3} {a4 : Nat} (k : P s) : P (State.logErr a0 a1 a2 a3 a4 s) := by
  unfold State.logErr
  repeat' (first
    | with_reducible assumption
    | (with_reducible refine u.mono ?_; decide)
    | (with_reducible refine State.modChan_keeps ?_ ?_)
    | (with_reducible refine State.limited_keeps ?_ (fun _ _ => ?_) ?_)
    | (with_reducible refine State.raise_keeps ?_ ?_)
    | (with_reducible refine ite_keeps ?_ ?_)
    | split
    | dsimp only [id])

theorem State.putLine_keeps (u : Keeps [.drm] P) {a0 : Nat} {a1 : Nat} {a2 : DramLine} (k : P s) : P (State.putLine a0 a1 a2 s) := by
  unfold State.putLine
  repeat' (first
    | with_reducible assumption
    | (with_reducible refine u.mono ?_; decide)
    | (with_reducible refine State.modChan_keeps ?_ ?_)
    | (with_reducible refine ite_keeps ?_ ?_)
    | split
    | dsimp only [id])

theorem State.flushMerge_keeps (u : Keeps [.drm, .blw, .glb, .irc, .log, .flt] P) {a0 : Nat} {a1 : Merge} (k : P s) : P (State.flushMerge a0 a1 s) := by
  unfold State.flushMerge
  repeat' (first
    | with_reducible assumption
    | (with_reducible refine u.mono ?_; decide)
    | (intro _ h; exact h)
    | (intro h; exact h)
    | (intro _; rfl)
    | (with_reducible refine State.modChan_keeps ?_ ?_)
    | (with_reducible refine State.fenceIfDue_keeps ?_ ?_)
    | (with_reducible refine State.touch_keeps ?_ ?_)
    | (with_reducible refine State.logErr_keeps ?_ ?_)
    | (with_reducible refine State.putLine_keeps ?_ ?_)
    | (with_reducible refine ite_keeps ?_ ?_)
    | split
    | dsimp only [id])

theorem State.readChan_keeps (u : Keeps [.drm, .blw, .glb, .irc, .log, .flt] P) {a0 : Nat} {a1 : Nat} {a2 : Sys2Proof.Requester} {a3 : BitVec 2} (k : P s) : P (State.readChan a0 a1 a2 a3 s).1 := by
  unfold State.readChan
  repeat' (first
    | with_reducible assumption
    | (with_reducible refine u.mono ?_; decide)
    | (intro _ h; exact h)
    | (intro h; exact h)
    | (intro _; rfl)
    | (with_reducible refine State.touch_keeps ?_ ?_)
    | (with_reducible refine State.putLine_keeps ?_ ?_)
    | (with_reducible refine State.fenceIfDue_keeps ?_ ?_)
    | (with_reducible refine State.logErr_keeps ?_ ?_)
    | (with_reducible refine ite_keeps ?_ ?_)
    | split
    | dsimp only [id])
theorem State.readChan_keeps_of (u : Keeps [.drm, .blw, .glb, .irc, .log, .flt] P) {a0 : Nat} {a1 : Nat} {a2 : Sys2Proof.Requester} {a3 : BitVec 2} {t r} (k : P s) (e : State.readChan a0 a1 a2 a3 s = (t, r)) : P t := by
  have h := State.readChan_keeps (P := P) u (a0 := a0) (a1 := a1) (a2 := a2) (a3 := a3) k
  rw [e] at h
  exact h

theorem State.readLine_keeps (u : Keeps [.drm, .blw, .glb, .irc, .log, .flt] P) {a0 : Sys2Proof.Requester} {a1 : Nat} (k : P s) : P (State.readLine a0 a1 s).1 := by
  unfold State.readLine
  repeat' (first
    | with_reducible assumption
    | (with_reducible refine u.mono ?_; decide)
    | (intro _ h; exact h)
    | (intro h; exact h)
    | (intro _; rfl)
    | (with_reducible refine State.logErr_keeps ?_ ?_)
    | (with_reducible refine State.readChan_keeps ?_ ?_)
    | (with_reducible refine State.readChan_keeps_of ?_ ?_ (by assumption))
    | (with_reducible refine ite_keeps ?_ ?_)
    | split
    | dsimp only [id])
theorem State.readLine_keeps_of (u : Keeps [.drm, .blw, .glb, .irc, .log, .flt] P) {a0 : Sys2Proof.Requester} {a1 : Nat} {t r} (k : P s) (e : State.readLine a0 a1 s = (t, r)) : P t := by
  have h := State.readLine_keeps (P := P) u (a0 := a0) (a1 := a1) k
  rw [e] at h
  exact h

theorem State.writeLine_keeps (u : Keeps [.drm, .log] P) {a0 : Sys2Proof.Requester} {a1 : Nat} {a2 : BitVec 512} (k : P s) : P (State.writeLine a0 a1 a2 s) := by
  unfold State.writeLine
  repeat' (first
    | with_reducible assumption
    | (with_reducible refine u.mono ?_; decide)
    | (with_reducible refine State.logErr_keeps ?_ ?_)
    | (with_reducible refine State.touch_keeps ?_ ?_)
    | (with_reducible refine State.putLine_keeps ?_ ?_)
    | (with_reducible refine State.modChan_keeps ?_ ?_)
    | (with_reducible refine ite_keeps ?_ ?_)
    | split
    | dsimp only [id])

theorem State.narrow_keeps (u : Keeps [.drm, .blw, .glb, .irc, .log, .flt] P) {a0 : Sys2Proof.Requester} {a1 : Nat} {a2 : List (Option Sys2Proof.Byte)} (k : P s) : P (State.narrow a0 a1 a2 s) := by
  unfold State.narrow
  repeat' (first
    | with_reducible assumption
    | (with_reducible refine u.mono ?_; decide)
    | (intro _ h; exact h)
    | (intro h; exact h)
    | (intro _; rfl)
    | (with_reducible refine State.logErr_keeps ?_ ?_)
    | (with_reducible refine State.writeLine_keeps ?_ ?_)
    | (with_reducible refine State.flushMerge_keeps ?_ ?_)
    | (with_reducible refine State.modChan_keeps ?_ ?_)
    | (with_reducible refine ite_keeps ?_ ?_)
    | split
    | dsimp only [id])

theorem execDrmErrqRetire_keeps (u : Keeps [.drm] P) {a0 : Nat} {a1 : Sys2Proof.Word} (k : P s) : ∀ t, execDrmErrqRetire a0 a1 s = .next t → P t := by
  intro t e
  injection e with e
  rw [← e]
  clear e
  repeat' (first
    | with_reducible assumption
    | (with_reducible refine u.mono ?_; decide)
    | (with_reducible refine nextOr_keeps (ok_keeps ?_) ?_)
    | (with_reducible refine State.modChan_keeps ?_ ?_)
    | (with_reducible refine ite_keeps ?_ ?_)
    | split
    | dsimp only [id])

theorem State.notOwned_keeps (u : Keeps [.drm, .log] P) {a0 : Nat} (k : P s) : P (State.notOwned a0 s) := by
  unfold State.notOwned
  repeat' (first
    | with_reducible assumption
    | (with_reducible refine u.mono ?_; decide)
    | (with_reducible refine State.logErr_keeps ?_ ?_)
    | (with_reducible refine ite_keeps ?_ ?_)
    | split
    | dsimp only [id])

theorem State.takeSlot_keeps (u : Keeps [.freeCtr, .drm] P) {a0 : Sys2Proof.Requester} {a1 : Nat} (k : P s) : P (State.takeSlot a0 a1 s) := by
  unfold State.takeSlot
  repeat' (first
    | with_reducible assumption
    | (with_reducible refine u.mono ?_; decide)
    | (with_reducible refine State.tickFree_keeps ?_ ?_)
    | (with_reducible refine State.modChan_keeps ?_ ?_)
    | (with_reducible refine ite_keeps ?_ ?_)
    | split
    | dsimp only [id])

theorem State.dramHot_keeps (u : Keeps [.irc, .log] P) {a0 : Nat} {a1 : Nat} (k : P s) : P (State.dramHot a0 a1 s) := by
  unfold State.dramHot
  repeat' (first
    | with_reducible assumption
    | (with_reducible refine u.mono ?_; decide)
    | (intro _ h; exact h)
    | (intro h; exact h)
    | (intro _; rfl)
    | (with_reducible refine State.latch_keeps ?_ ?_)
    | (with_reducible refine State.raise_keeps ?_ ?_)
    | (with_reducible refine ite_keeps ?_ ?_)
    | split
    | dsimp only [id])

theorem State.retrain_keeps (u : Keeps [.drm, .blw, .glb, .irc, .log, .flt] P) {a0 : Nat} {a1 : Bool} (k : P s) : P (State.retrain a0 a1 s) := by
  unfold State.retrain
  repeat' (first
    | with_reducible assumption
    | (with_reducible refine u.mono ?_; decide)
    | (intro _ h; exact h)
    | (intro h; exact h)
    | (intro _; rfl)
    | (with_reducible refine State.modChan_keeps ?_ ?_)
    | (with_reducible refine State.fenceChan_keeps ?_ ?_)
    | (with_reducible refine State.recordContained_keeps ?_ ?_)
    | (with_reducible refine ite_keeps ?_ ?_)
    | split
    | dsimp only [id])

theorem State.scrubOne_keeps (u : Keeps [.drm, .blw, .glb, .irc, .log, .flt] P) {a0 : Nat} {a1 : Nat} (k : P s) : P (State.scrubOne a0 a1 s) := by
  unfold State.scrubOne
  repeat' (first
    | with_reducible assumption
    | (with_reducible refine u.mono ?_; decide)
    | (intro _ h; exact h)
    | (intro h; exact h)
    | (intro _; rfl)
    | (with_reducible refine State.putLine_keeps ?_ ?_)
    | (with_reducible refine State.fenceIfDue_keeps ?_ ?_)
    | (with_reducible refine State.touch_keeps ?_ ?_)
    | (with_reducible refine State.logErr_keeps ?_ ?_)
    | (with_reducible refine ite_keeps ?_ ?_)
    | split
    | dsimp only [id])

theorem execMergeFlush_keeps (u : Keeps [.drm, .blw, .glb, .irc, .log, .flt] P) {a0 : Nat} {a1 : Nat} (k : P s) : ∀ t, execMergeFlush a0 a1 s = .next t → P t := by
  intro t e
  injection e with e
  rw [← e]
  clear e
  repeat' (first
    | with_reducible assumption
    | (with_reducible refine u.mono ?_; decide)
    | (intro _ h; exact h)
    | (intro h; exact h)
    | (intro _; rfl)
    | (with_reducible refine nextOr_keeps (ok_keeps ?_) ?_)
    | (with_reducible refine State.flushMerge_keeps ?_ ?_)
    | (with_reducible refine ite_keeps ?_ ?_)
    | split
    | dsimp only [id])

theorem execRefresh_keeps (u : Keeps [.drm] P) {a0 : Nat} (k : P s) : ∀ t, execRefresh a0 s = .next t → P t := by
  intro t e
  injection e with e
  rw [← e]
  clear e
  repeat' (first
    | with_reducible assumption
    | (with_reducible refine u.mono ?_; decide)
    | (with_reducible refine nextOr_keeps (ok_keeps ?_) ?_)
    | (with_reducible refine State.modChan_keeps ?_ ?_)
    | (with_reducible refine ite_keeps ?_ ?_)
    | split
    | dsimp only [id])

theorem execMr4Poll_keeps (u : Keeps [.drm, .irc, .log] P) {a0 : Nat} {a1 : List Bool} (k : P s) : ∀ t, execMr4Poll a0 a1 s = .next t → P t := by
  intro t e
  injection e with e
  rw [← e]
  clear e
  repeat' (first
    | with_reducible assumption
    | (with_reducible refine u.mono ?_; decide)
    | (intro _ h; exact h)
    | (intro h; exact h)
    | (intro _; rfl)
    | (with_reducible refine nextOr_keeps (ok_keeps ?_) ?_)
    | (with_reducible refine State.modChan_keeps ?_ ?_)
    | (with_reducible refine State.dramHot_keeps ?_ ?_)
    | (with_reducible refine foldl_fst_keeps (fun _ _ _ => ?_) ?_)
    | (with_reducible refine foldl_keeps (fun _ _ _ => ?_) ?_)
    | (with_reducible refine ite_keeps ?_ ?_)
    | split
    | dsimp only [id])

theorem execRankPowerDown_keeps (u : Keeps [.drm] P) {a0 : Nat} {a1 : Nat} (k : P s) : ∀ t, execRankPowerDown a0 a1 s = .next t → P t := by
  intro t e
  injection e with e
  rw [← e]
  clear e
  repeat' (first
    | with_reducible assumption
    | (with_reducible refine u.mono ?_; decide)
    | (with_reducible refine nextOr_keeps (ok_keeps ?_) ?_)
    | (with_reducible refine State.modChan_keeps ?_ ?_)
    | (with_reducible refine ite_keeps ?_ ?_)
    | split
    | dsimp only [id])

theorem execDramTraining_keeps (u : Keeps [.drm, .blw, .glb, .irc, .log, .flt] P) {a0 : Nat} {a1 : Bool} (k : P s) : ∀ t, execDramTraining a0 a1 s = .next t → P t := by
  intro t e
  injection e with e
  rw [← e]
  clear e
  repeat' (first
    | with_reducible assumption
    | (with_reducible refine u.mono ?_; decide)
    | (intro _ h; exact h)
    | (intro h; exact h)
    | (intro _; rfl)
    | (with_reducible refine nextOr_keeps (ok_keeps ?_) ?_)
    | (with_reducible refine State.modGlb_keeps ?_ ?_)
    | (with_reducible refine State.latch_keeps ?_ ?_)
    | (with_reducible refine State.modChan_keeps ?_ ?_)
    | (with_reducible refine State.fenceChan_keeps ?_ ?_)
    | (with_reducible refine State.recordContained_keeps ?_ ?_)
    | (with_reducible refine ite_keeps ?_ ?_)
    | split
    | dsimp only [id])

theorem execCalibrationSliver_keeps (u : Keeps [.drm, .blw, .glb, .irc, .log, .flt] P) {a0 : Nat} {a1 : Sys2Proof.Sliver} (k : P s) : ∀ t, execCalibrationSliver a0 a1 s = .next t → P t := by
  intro t e
  injection e with e
  rw [← e]
  clear e
  repeat' (first
    | with_reducible assumption
    | (with_reducible refine u.mono ?_; decide)
    | (intro _ h; exact h)
    | (intro h; exact h)
    | (intro _; rfl)
    | (with_reducible refine nextOr_keeps (ok_keeps ?_) ?_)
    | (with_reducible refine State.served_keeps ?_ ?_)
    | (with_reducible refine State.modChan_keeps ?_ ?_)
    | (with_reducible refine State.retrain_keeps ?_ ?_)
    | (with_reducible refine ite_keeps ?_ ?_)
    | split
    | dsimp only [id])

theorem execHardwareFill_keeps (u : Keeps [.drm, .irc] P) {a0 : Nat} (k : P s) : ∀ t, execHardwareFill a0 s = .next t → P t := by
  intro t e
  injection e with e
  rw [← e]
  clear e
  repeat' (first
    | with_reducible assumption
    | (with_reducible refine u.mono ?_; decide)
    | (intro _ h; exact h)
    | (intro h; exact h)
    | (intro _; rfl)
    | (with_reducible refine nextOr_keeps (ok_keeps ?_) ?_)
    | (with_reducible refine State.latch_keeps ?_ ?_)
    | (with_reducible refine State.modChan_keeps ?_ ?_)
    | (with_reducible refine ite_keeps ?_ ?_)
    | split
    | dsimp only [id])

theorem execScrubLine_keeps (u : Keeps [.drm, .blw, .glb, .irc, .log, .flt] P) {a0 : Nat} (k : P s) : ∀ t, execScrubLine a0 s = .next t → P t := by
  intro t e
  injection e with e
  rw [← e]
  clear e
  repeat' (first
    | with_reducible assumption
    | (with_reducible refine u.mono ?_; decide)
    | (intro _ h; exact h)
    | (intro h; exact h)
    | (intro _; rfl)
    | (with_reducible refine nextOr_keeps (ok_keeps ?_) ?_)
    | (with_reducible refine State.scrubOne_keeps ?_ ?_)
    | (with_reducible refine State.served_keeps ?_ ?_)
    | (with_reducible refine State.modChan_keeps ?_ ?_)
    | (with_reducible refine ite_keeps ?_ ?_)
    | split
    | dsimp only [id])

theorem execDramScrubUrgent_keeps (u : Keeps [.drm, .irc, .log] P) {a0 : Nat} (k : P s) : ∀ t, execDramScrubUrgent a0 s = .next t → P t := by
  intro t e
  injection e with e
  rw [← e]
  clear e
  repeat' (first
    | with_reducible assumption
    | (with_reducible refine u.mono ?_; decide)
    | (intro _ h; exact h)
    | (intro h; exact h)
    | (intro _; rfl)
    | (with_reducible refine nextOr_keeps (ok_keeps ?_) ?_)
    | (with_reducible refine State.latch_keeps ?_ ?_)
    | (with_reducible refine State.modChan_keeps ?_ ?_)
    | (with_reducible refine State.raise_keeps ?_ ?_)
    | (with_reducible refine ite_keeps ?_ ?_)
    | split
    | dsimp only [id])

theorem execDramChannelFenced_keeps (u : Keeps [.drm, .blw, .glb, .irc, .log, .flt] P) {a0 : Nat} {a1 : Nat} (k : P s) : ∀ t, execDramChannelFenced a0 a1 s = .next t → P t := by
  intro t e
  injection e with e
  rw [← e]
  clear e
  repeat' (first
    | with_reducible assumption
    | (with_reducible refine u.mono ?_; decide)
    | (intro _ h; exact h)
    | (intro h; exact h)
    | (intro _; rfl)
    | (with_reducible refine nextOr_keeps (ok_keeps ?_) ?_)
    | (with_reducible refine State.fenceChan_keeps ?_ ?_)
    | (with_reducible refine ite_keeps ?_ ?_)
    | split
    | dsimp only [id])

end Sys2Proof.Machine
end

