-- ==== Sys2Proof/Laws/Ports.lean ====
section
/-! SUPPORT. What each operation of Ports keeps. -/

namespace Sys2Proof.Machine

set_option linter.unreachableTactic false
set_option linter.unusedTactic false

variable {P : State → Prop} {s : State}

theorem State.setDpoLink_keeps (u : Keeps [.out, .irc] P) {a0 : Nat} {a1 : DpoLink} (k : P s) : P (State.setDpoLink a0 a1 s) := by
  unfold State.setDpoLink
  repeat' (first
    | with_reducible assumption
    | (with_reducible refine u.mono ?_; decide)
    | (intro _ h; exact h)
    | (intro h; exact h)
    | (intro _; rfl)
    | (with_reducible refine State.latch_keeps ?_ ?_)
    | (with_reducible refine State.modDpo_keeps ?_ ?_)
    | (with_reducible refine ite_keeps ?_ ?_)
    | split
    | dsimp only [id])

theorem State.setDpiLink_keeps (u : Keeps [.out, .irc] P) {a0 : Nat} {a1 : DpiLink} (k : P s) : P (State.setDpiLink a0 a1 s) := by
  unfold State.setDpiLink
  repeat' (first
    | with_reducible assumption
    | (with_reducible refine u.mono ?_; decide)
    | (intro _ h; exact h)
    | (intro h; exact h)
    | (intro _; rfl)
    | (with_reducible refine State.latch_keeps ?_ ?_)
    | (with_reducible refine State.modDpi_keeps ?_ ?_)
    | (with_reducible refine ite_keeps ?_ ?_)
    | split
    | dsimp only [id])

theorem State.raiseFrame_keeps (u : Keeps [.out, .log] P) {a0 : Nat} {a1 : Sys2Proof.EventId} {a2 : List Sys2Proof.Item} (k : P s) : P (State.raiseFrame a0 a1 a2 s) := by
  unfold State.raiseFrame
  repeat' (first
    | with_reducible assumption
    | (with_reducible refine u.mono ?_; decide)
    | (with_reducible refine State.raise_keeps ?_ ?_)
    | (with_reducible refine State.modOut_keeps ?_ ?_)
    | (with_reducible refine ite_keeps ?_ ?_)
    | split
    | dsimp only [id])

theorem State.judgeStream_keeps (u : Keeps [.ras, .out, .irc, .log] P) {a0 : Nat} {a1 : Sys2Proof.MainStream} (k : P s) : P (State.judgeStream a0 a1 s) := by
  unfold State.judgeStream
  repeat' (first
    | with_reducible assumption
    | (with_reducible refine u.mono ?_; decide)
    | (intro _ h; exact h)
    | (intro h; exact h)
    | (intro _; rfl)
    | (with_reducible refine State.setDpiLink_keeps ?_ ?_)
    | (with_reducible refine State.setInState_keeps ?_ ?_)
    | (with_reducible refine State.latch_keeps ?_ ?_)
    | (with_reducible refine State.modDpi_keeps ?_ ?_)
    | (with_reducible refine State.modRaster_keeps ?_ ?_)
    | (with_reducible refine State.raiseFrame_keeps ?_ ?_)
    | (with_reducible refine ite_keeps ?_ ?_)
    | split
    | dsimp only [id])

theorem execDpiLinkDown_keeps (u : Keeps [.out, .irc] P) {a0 : Nat} (k : P s) : ∀ t, execDpiLinkDown a0 s = .next t → P t := by
  intro t e
  injection e with e
  rw [← e]
  clear e
  repeat' (first
    | with_reducible assumption
    | (with_reducible refine u.mono ?_; decide)
    | (intro _ h; exact h)
    | (intro h; exact h)
    | (intro _; rfl)
    | (with_reducible refine nextOr_keeps (ok_keeps ?_) ?_)
    | (with_reducible refine State.setDpiLink_keeps ?_ ?_)
    | (with_reducible refine State.modDpi_keeps ?_ ?_)
    | (with_reducible refine ite_keeps ?_ ?_)
    | split
    | dsimp only [id])

theorem execDpiReasonClear_keeps (u : Keeps [.out] P) {a0 : Nat} {a1 : Sys2Proof.Word} (k : P s) : ∀ t, execDpiReasonClear a0 a1 s = .next t → P t := by
  intro t e
  injection e with e
  rw [← e]
  clear e
  repeat' (first
    | with_reducible assumption
    | (with_reducible refine u.mono ?_; decide)
    | (with_reducible refine nextOr_keeps (ok_keeps ?_) ?_)
    | (with_reducible refine State.modDpi_keeps ?_ ?_)
    | (with_reducible refine ite_keeps ?_ ?_)
    | split
    | dsimp only [id])

theorem State.reportPort_keeps (u : Keeps [.grt] P) {a0 : Nat} (k : P s) : P (State.reportPort a0 s) := by
  unfold State.reportPort
  repeat' (first
    | with_reducible assumption
    | (with_reducible refine u.mono ?_; decide)
    | (with_reducible refine State.gPut_keeps ?_ ?_)
    | (with_reducible refine ite_keeps ?_ ?_)
    | split
    | dsimp only [id])

theorem State.setTrained_keeps (u : Keeps [.freeCtr, .out] P) {a0 : Nat} {a1 : BitVec 4 × BitVec 3} (k : P s) : P (State.setTrained a0 a1 s) := by
  unfold State.setTrained
  repeat' (first
    | with_reducible assumption
    | (with_reducible refine u.mono ?_; decide)
    | (with_reducible refine State.tickFree_keeps ?_ ?_)
    | (with_reducible refine State.modDpo_keeps ?_ ?_)
    | (with_reducible refine ite_keeps ?_ ?_)
    | split
    | dsimp only [id])

theorem State.train_keeps (u : Keeps [.freeCtr, .out, .irc, .log, .grt] P) {a0 : Nat} {a1 : List (BitVec 4 × BitVec 3)} (k : P s) : P (State.train a0 a1 s) := by
  unfold State.train
  repeat' (first
    | with_reducible assumption
    | (with_reducible refine u.mono ?_; decide)
    | (intro _ h; exact h)
    | (intro h; exact h)
    | (intro _; rfl)
    | (with_reducible refine State.setTrained_keeps ?_ ?_)
    | (with_reducible refine State.reportPort_keeps ?_ ?_)
    | (with_reducible refine State.setDpoLink_keeps ?_ ?_)
    | (with_reducible refine State.raiseFrame_keeps ?_ ?_)
    | (with_reducible refine State.modDpo_keeps ?_ ?_)
    | (with_reducible refine ite_keeps ?_ ?_)
    | split
    | dsimp only [id])

theorem execDpLinkTrain_keeps (u : Keeps [.freeCtr, .out, .irc, .log, .grt] P) {a0 : Nat} {a1 : List (BitVec 4 × BitVec 3)} (k : P s) : ∀ t, execDpLinkTrain a0 a1 s = .next t → P t := by
  intro t e
  injection e with e
  rw [← e]
  clear e
  repeat' (first
    | with_reducible assumption
    | (with_reducible refine u.mono ?_; decide)
    | (intro _ h; exact h)
    | (intro h; exact h)
    | (intro _; rfl)
    | (with_reducible refine nextOr_keeps (ok_keeps ?_) ?_)
    | (with_reducible refine State.train_keeps ?_ ?_)
    | (with_reducible refine State.raiseFrame_keeps ?_ ?_)
    | (with_reducible refine State.modDpo_keeps ?_ ?_)
    | (with_reducible refine ite_keeps ?_ ?_)
    | split
    | dsimp only [id])

theorem execDpHpdIrq_keeps (u : Keeps [.freeCtr, .out, .irc, .log, .grt] P) {a0 : Nat} {a1 : List (BitVec 4 × BitVec 3)} (k : P s) : ∀ t, execDpHpdIrq a0 a1 s = .next t → P t := by
  intro t e
  injection e with e
  rw [← e]
  clear e
  repeat' (first
    | with_reducible assumption
    | (with_reducible refine u.mono ?_; decide)
    | (intro _ h; exact h)
    | (intro h; exact h)
    | (intro _; rfl)
    | (with_reducible refine nextOr_keeps (ok_keeps ?_) ?_)
    | (with_reducible refine State.raiseFrame_keeps ?_ ?_)
    | (with_reducible refine State.modDpo_keeps ?_ ?_)
    | (with_reducible refine State.train_keeps ?_ ?_)
    | (with_reducible refine ite_keeps ?_ ?_)
    | split
    | dsimp only [id])

theorem execDpSinkLinkTrain_keeps (u : Keeps [.ras, .out, .irc, .log] P) {a0 : Nat} {a1 : BitVec 4} {a2 : BitVec 3} {a3 : Sys2Proof.MainStream} (k : P s) : ∀ t, execDpSinkLinkTrain a0 a1 a2 a3 s = .next t → P t := by
  intro t e
  injection e with e
  rw [← e]
  clear e
  repeat' (first
    | with_reducible assumption
    | (with_reducible refine u.mono ?_; decide)
    | (intro _ h; exact h)
    | (intro h; exact h)
    | (intro _; rfl)
    | (with_reducible refine nextOr_keeps (ok_keeps ?_) ?_)
    | (with_reducible refine State.judgeStream_keeps ?_ ?_)
    | (with_reducible refine State.modDpi_keeps ?_ ?_)
    | (with_reducible refine ite_keeps ?_ ?_)
    | split
    | dsimp only [id])

theorem execDpHpdPulseEnd_keeps (u : Keeps [.out] P) {a0 : Nat} (k : P s) : ∀ t, execDpHpdPulseEnd a0 s = .next t → P t := by
  intro t e
  injection e with e
  rw [← e]
  clear e
  repeat' (first
    | with_reducible assumption
    | (with_reducible refine u.mono ?_; decide)
    | (with_reducible refine nextOr_keeps (ok_keeps ?_) ?_)
    | (with_reducible refine State.modDpi_keeps ?_ ?_)
    | (with_reducible refine ite_keeps ?_ ?_)
    | split
    | dsimp only [id])

theorem execDpoHpdChange_keeps (u : Keeps [.out, .irc] P) {a0 : Nat} {a1 : Bool} (k : P s) : ∀ t, execDpoHpdChange a0 a1 s = .next t → P t := by
  intro t e
  injection e with e
  rw [← e]
  clear e
  repeat' (first
    | with_reducible assumption
    | (with_reducible refine u.mono ?_; decide)
    | (intro _ h; exact h)
    | (intro h; exact h)
    | (intro _; rfl)
    | (with_reducible refine nextOr_keeps (ok_keeps ?_) ?_)
    | (with_reducible refine State.modDpo_keeps ?_ ?_)
    | (with_reducible refine State.setDpoLink_keeps ?_ ?_)
    | (with_reducible refine ite_keeps ?_ ?_)
    | split
    | dsimp only [id])

end Sys2Proof.Machine
end

