-- ==== Sys2Proof/Laws/Runner.lean ====
section
/-! SUPPORT. What each operation of Runner keeps. -/

namespace Sys2Proof.Machine

set_option linter.unreachableTactic false
set_option linter.unusedTactic false

variable {P : State → Prop} {s : State}

theorem State.ageFlow_keeps (u : Keeps [.run, .blw, .glb, .irc, .log, .flt] P) {a0 : Nat} {a1 : Nat} (k : P s) : P (State.ageFlow a0 a1 s) := by
  induction a0 generalizing s with
  | zero => exact k
  | succ n ih =>
    unfold State.ageFlow
    split
    · split
      · exact ih (State.ageOut_keeps (u.mono (by decide)) (State.modFlow_keeps (u.mono (by decide)) k))
      · exact k
    · exact k

theorem State.bufferFrame_keeps (u : Keeps [.run, .irc, .log] P) {a0 : Nat} {a1 : Pkt} (k : P s) : P (State.bufferFrame a0 a1 s) := by
  unfold State.bufferFrame
  repeat' (first
    | with_reducible assumption
    | (with_reducible refine u.mono ?_; decide)
    | (intro _ h; exact h)
    | (intro h; exact h)
    | (intro _; rfl)
    | (with_reducible refine State.portCount_keeps ?_ ?_)
    | (with_reducible refine State.allocPkt_keeps_of ?_ ?_ (by assumption))
    | (with_reducible refine State.voqPut_keeps ?_ ?_)
    | (with_reducible refine State.modLadle_keeps ?_ ?_)
    | (with_reducible refine State.limited_keeps ?_ (fun _ _ => ?_) ?_)
    | (with_reducible refine State.raiseP_keeps ?_ ?_)
    | (with_reducible refine State.latch_keeps ?_ ?_)
    | (with_reducible refine ite_keeps ?_ ?_)
    | split
    | dsimp only [id])

theorem State.policeBy_keeps (u : Keeps [.run] P) {a0 : Sys2Proof.Frame} {a1 : Rule} (k : P s) : P (State.policeBy a0 a1 s).1 := by
  unfold State.policeBy
  repeat' (first
    | with_reducible assumption
    | (with_reducible refine u.mono ?_; decide)
    | (with_reducible refine State.police_keeps ?_ ?_)
    | (with_reducible refine State.police_keeps_of ?_ ?_ (by assumption))
    | (with_reducible refine ite_keeps ?_ ?_)
    | split
    | dsimp only [id])
theorem State.policeBy_keeps_of (u : Keeps [.run] P) {a0 : Sys2Proof.Frame} {a1 : Rule} {t r} (k : P s) (e : State.policeBy a0 a1 s = (t, r)) : P t := by
  have h := State.policeBy_keeps (P := P) u (a0 := a0) (a1 := a1) k
  rw [e] at h
  exact h

theorem State.byRule_keeps (u : Keeps [.freeCtr, .run, .irc, .log] P) {a0 : Nat} {a1 : Sys2Proof.Frame} {a2 : Rule} (k : P s) : P (State.byRule a0 a1 a2 s) := by
  unfold State.byRule
  repeat' (first
    | with_reducible assumption
    | (with_reducible refine u.mono ?_; decide)
    | (intro _ h; exact h)
    | (intro h; exact h)
    | (intro _; rfl)
    | (with_reducible refine State.portCount_keeps ?_ ?_)
    | (with_reducible refine State.whenB_keeps (fun _ _ => ?_) ?_)
    | (with_reducible refine State.tickFree_keeps ?_ ?_)
    | (with_reducible refine State.policeBy_keeps ?_ ?_)
    | (with_reducible refine State.policeBy_keeps_of ?_ ?_ (by assumption))
    | (with_reducible refine State.bufferFrame_keeps ?_ ?_)
    | (with_reducible refine ite_keeps ?_ ?_)
    | split
    | dsimp only [id])

theorem State.report_keeps (u : Keeps [.run] P) {a0 : List (BitVec 128)} (k : P s) : P (State.report a0 s) := by
  unfold State.report
  repeat' (first
    | with_reducible assumption
    | (with_reducible refine u.mono ?_; decide)
    | (with_reducible refine State.each_keeps (fun _ _ _ => ?_) ?_)
    | (with_reducible refine State.sendTack_keeps ?_ ?_)
    | (with_reducible refine State.modRun_keeps ?_ ?_)
    | (with_reducible refine ite_keeps ?_ ?_)
    | split
    | dsimp only [id])

theorem State.rxPut_keeps (u : Keeps [.run, .blw, .glb, .irc, .log, .flt] P) {a0 : Pkt} (k : P s) : P (State.rxPut a0 s) := by
  unfold State.rxPut
  repeat' (first
    | with_reducible assumption
    | (with_reducible refine u.mono ?_; decide)
    | (intro _ h; exact h)
    | (intro h; exact h)
    | (intro _; rfl)
    | (with_reducible refine State.whenB_keeps (fun _ _ => ?_) ?_)
    | (with_reducible refine State.report_keeps ?_ ?_)
    | (with_reducible refine State.freePkt_keeps ?_ ?_)
    | (with_reducible refine State.modRun_keeps ?_ ?_)
    | (with_reducible refine ite_keeps ?_ ?_)
    | split
    | dsimp only [id])

theorem State.cross_keeps (u : Keeps [.run, .blw, .glb, .irc, .log, .flt] P) {a0 : Pkt} (k : P s) : P (State.cross a0 s) := by
  unfold State.cross
  repeat' (first
    | with_reducible assumption
    | (with_reducible refine u.mono ?_; decide)
    | (intro _ h; exact h)
    | (intro h; exact h)
    | (intro _; rfl)
    | (with_reducible refine State.modStitch_keeps ?_ ?_)
    | (with_reducible refine State.rxPut_keeps ?_ ?_)
    | (with_reducible refine State.freePkt_keeps ?_ ?_)
    | (with_reducible refine State.flowPut_keeps ?_ ?_)
    | (with_reducible refine State.modRun_keeps ?_ ?_)
    | (with_reducible refine ite_keeps ?_ ?_)
    | split
    | dsimp only [id])

theorem State.catchUp_keeps (u : Keeps [.run, .blw, .glb, .irc, .log, .flt] P) {a0 : Nat} {a1 : Nat} (k : P s) : P (State.catchUp a0 a1 s) := by
  induction a0 generalizing s with
  | zero => exact k
  | succ n ih =>
    unfold State.catchUp
    split
    · exact ih (State.cross_keeps (u.mono (by decide)) (State.modVoq_keeps (u.mono (by decide)) k))
    · exact k

theorem State.dropPkt_keeps (u : Keeps [.dec, .cores, .run, .blw, .glb, .irc, .log, .flt] P) {a0 : Pkt} (k : P s) : P (State.dropPkt a0 s) := by
  unfold State.dropPkt
  repeat' (first
    | with_reducible assumption
    | (with_reducible refine u.mono ?_; decide)
    | (intro _ h; exact h)
    | (intro h; exact h)
    | (intro _; rfl)
    | (with_reducible refine State.modStitch_keeps ?_ ?_)
    | (with_reducible refine State.gapMark_keeps ?_ ?_)
    | (with_reducible refine State.freePkt_keeps ?_ ?_)
    | (with_reducible refine ite_keeps ?_ ?_)
    | split
    | dsimp only [id])

theorem State.putBack_keeps (u : Keeps [.run, .blw, .glb, .irc, .log, .flt] P) {a0 : Nat} {a1 : Pkt} (k : P s) : P (State.putBack a0 a1 s) := by
  unfold State.putBack
  repeat' (first
    | with_reducible assumption
    | (with_reducible refine u.mono ?_; decide)
    | (intro _ h; exact h)
    | (intro h; exact h)
    | (intro _; rfl)
    | (with_reducible refine State.catchUp_keeps ?_ ?_)
    | (with_reducible refine State.cross_keeps ?_ ?_)
    | (with_reducible refine State.modVoq_keeps ?_ ?_)
    | (with_reducible refine ite_keeps ?_ ?_)
    | split
    | dsimp only [id])

theorem State.sendHead_keeps (u : Keeps [.run, .blw, .glb, .irc, .log, .flt] P) {a0 : Nat} {a1 : Nat} {a2 : Flow} {a3 : Pkt} (k : P s) : P (State.sendHead a0 a1 a2 a3 s) := by
  unfold State.sendHead
  repeat' (first
    | with_reducible assumption
    | (with_reducible refine u.mono ?_; decide)
    | (intro _ h; exact h)
    | (intro h; exact h)
    | (intro _; rfl)
    | (with_reducible refine State.freePkt_keeps ?_ ?_)
    | (with_reducible refine State.statOut_keeps ?_ ?_)
    | (with_reducible refine State.modFlow_keeps ?_ ?_)
    | (with_reducible refine State.modEth_keeps ?_ ?_)
    | (with_reducible refine State.portCount_keeps ?_ ?_)
    | (with_reducible refine State.modRun_keeps ?_ ?_)
    | (with_reducible refine ite_keeps ?_ ?_)
    | split
    | dsimp only [id])

theorem State.toTack_keeps (u : Keeps [.run, .irc, .log] P) {a0 : Nat} {a1 : Sys2Proof.Frame} {a2 : Nat} {a3 : Nat} (k : P s) : P (State.toTack a0 a1 a2 a3 s) := by
  unfold State.toTack
  repeat' (first
    | with_reducible assumption
    | (with_reducible refine u.mono ?_; decide)
    | (intro _ h; exact h)
    | (intro h; exact h)
    | (intro _; rfl)
    | (with_reducible refine State.policeFixed_keeps ?_ ?_)
    | (with_reducible refine State.policeFixed_keeps_of ?_ ?_ (by assumption))
    | (with_reducible refine State.portCount_keeps ?_ ?_)
    | (with_reducible refine State.bufferFrame_keeps ?_ ?_)
    | (with_reducible refine ite_keeps ?_ ?_)
    | split
    | dsimp only [id])

theorem execFrameReceived_keeps (u : Keeps [.freeCtr, .run, .irc, .log] P) {a0 : Nat} {a1 : Sys2Proof.Frame} (k : P s) : ∀ t, execFrameReceived a0 a1 s = .next t → P t := by
  intro t e
  injection e with e
  rw [← e]
  clear e
  repeat' (first
    | with_reducible assumption
    | (with_reducible refine u.mono ?_; decide)
    | (intro _ h; exact h)
    | (intro h; exact h)
    | (intro _; rfl)
    | (with_reducible refine nextOr_keeps (ok_keeps ?_) ?_)
    | (with_reducible refine State.portCount_keeps ?_ ?_)
    | (with_reducible refine State.toTack_keeps ?_ ?_)
    | (with_reducible refine State.byRule_keeps ?_ ?_)
    | (with_reducible refine ite_keeps ?_ ?_)
    | split
    | dsimp only [id])

theorem execPauseReceived_keeps (u : Keeps [.run] P) {a0 : Nat} {a1 : Sys2Proof.PauseFrame} (k : P s) : ∀ t, execPauseReceived a0 a1 s = .next t → P t := by
  intro t e
  injection e with e
  rw [← e]
  clear e
  repeat' (first
    | with_reducible assumption
    | (with_reducible refine u.mono ?_; decide)
    | (with_reducible refine nextOr_keeps (ok_keeps ?_) ?_)
    | (with_reducible refine State.portCount_keeps ?_ ?_)
    | (with_reducible refine State.each_keeps (fun _ _ _ => ?_) ?_)
    | (with_reducible refine State.modEth_keeps ?_ ?_)
    | (with_reducible refine ite_keeps ?_ ?_)
    | split
    | dsimp only [id])

theorem execPauseTimerExpiry_keeps (u : Keeps [.run] P) {a0 : Nat} {a1 : Nat} (k : P s) : ∀ t, execPauseTimerExpiry a0 a1 s = .next t → P t := by
  intro t e
  injection e with e
  rw [← e]
  clear e
  repeat' (first
    | with_reducible assumption
    | (with_reducible refine u.mono ?_; decide)
    | (with_reducible refine nextOr_keeps (ok_keeps ?_) ?_)
    | (with_reducible refine State.modEth_keeps ?_ ?_)
    | (with_reducible refine ite_keeps ?_ ?_)
    | split
    | dsimp only [id])

theorem execPortStalled_keeps (u : Keeps [.run, .irc, .log] P) {a0 : Nat} {a1 : Nat} (k : P s) : ∀ t, execPortStalled a0 a1 s = .next t → P t := by
  intro t e
  injection e with e
  rw [← e]
  clear e
  repeat' (first
    | with_reducible assumption
    | (with_reducible refine u.mono ?_; decide)
    | (intro _ h; exact h)
    | (intro h; exact h)
    | (intro _; rfl)
    | (with_reducible refine nextOr_keeps (ok_keeps ?_) ?_)
    | (with_reducible refine State.limited_keeps ?_ (fun _ _ => ?_) ?_)
    | (with_reducible refine State.raise_keeps ?_ ?_)
    | (with_reducible refine State.latch_keeps ?_ ?_)
    | (with_reducible refine State.modEth_keeps ?_ ?_)
    | (with_reducible refine ite_keeps ?_ ?_)
    | split
    | dsimp only [id])

theorem execPortStallCleared_keeps (u : Keeps [.run, .irc, .log] P) {a0 : Nat} {a1 : Nat} (k : P s) : ∀ t, execPortStallCleared a0 a1 s = .next t → P t := by
  intro t e
  injection e with e
  rw [← e]
  clear e
  repeat' (first
    | with_reducible assumption
    | (with_reducible refine u.mono ?_; decide)
    | (intro _ h; exact h)
    | (intro h; exact h)
    | (intro _; rfl)
    | (with_reducible refine nextOr_keeps (ok_keeps ?_) ?_)
    | (with_reducible refine State.limited_keeps ?_ (fun _ _ => ?_) ?_)
    | (with_reducible refine State.raise_keeps ?_ ?_)
    | (with_reducible refine State.latch_keeps ?_ ?_)
    | (with_reducible refine State.modEth_keeps ?_ ?_)
    | (with_reducible refine ite_keeps ?_ ?_)
    | split
    | dsimp only [id])

theorem execPacketSwitch_keeps (u : Keeps [.dec, .cores, .run, .blw, .glb, .irc, .log, .flt] P) {a0 : Nat} (k : P s) : ∀ t, execPacketSwitch a0 s = .next t → P t := by
  intro t e
  injection e with e
  rw [← e]
  clear e
  repeat' (first
    | with_reducible assumption
    | (with_reducible refine u.mono ?_; decide)
    | (intro _ h; exact h)
    | (intro h; exact h)
    | (intro _; rfl)
    | (with_reducible refine nextOr_keeps (ok_keeps ?_) ?_)
    | (with_reducible refine State.modVoq_keeps ?_ ?_)
    | (with_reducible refine State.ageOut_keeps ?_ ?_)
    | (with_reducible refine State.dropPkt_keeps ?_ ?_)
    | (with_reducible refine State.statOut_keeps ?_ ?_)
    | (with_reducible refine State.freePkt_keeps ?_ ?_)
    | (with_reducible refine State.putBack_keeps ?_ ?_)
    | (with_reducible refine ite_keeps ?_ ?_)
    | split
    | dsimp only [id])

theorem execStitcherPacket_keeps (u : Keeps [.freeCtr, .ras, .dec, .cmp, .cores, .drm, .run, .blw, .glb, .irc, .log, .flt, .grt] P) {a0 : Nat} (k : P s) : ∀ t, execStitcherPacket a0 s = .next t → P t := by
  intro t e
  injection e with e
  rw [← e]
  clear e
  repeat' (first
    | with_reducible assumption
    | (with_reducible refine u.mono ?_; decide)
    | (intro _ h; exact h)
    | (intro h; exact h)
    | (intro _; rfl)
    | (with_reducible refine nextOr_keeps (ok_keeps ?_) ?_)
    | (with_reducible refine State.modStitch_keeps ?_ ?_)
    | (with_reducible refine State.freePkt_keeps ?_ ?_)
    | (with_reducible refine State.ssrcSeen_keeps ?_ ?_)
    | (with_reducible refine State.pathSeen_keeps ?_ ?_)
    | (with_reducible refine State.stitchOne_keeps ?_ ?_)
    | (with_reducible refine ite_keeps ?_ ?_)
    | split
    | dsimp only [id])

theorem execStitchHoldExpiry_keeps (u : Keeps [.ras, .dec, .cores, .run, .blw, .glb, .irc, .log, .flt] P) {a0 : Nat} (k : P s) : ∀ t, execStitchHoldExpiry a0 s = .next t → P t := by
  intro t e
  injection e with e
  rw [← e]
  clear e
  repeat' (first
    | with_reducible assumption
    | (with_reducible refine u.mono ?_; decide)
    | (intro _ h; exact h)
    | (intro h; exact h)
    | (intro _; rfl)
    | (with_reducible refine nextOr_keeps (ok_keeps ?_) ?_)
    | (with_reducible refine State.modStitch_keeps ?_ ?_)
    | (with_reducible refine State.each_keeps (fun _ _ _ => ?_) ?_)
    | (with_reducible refine State.ageHeld_keeps ?_ ?_)
    | (with_reducible refine State.declareMissing_keeps ?_ ?_)
    | (with_reducible refine ite_keeps ?_ ?_)
    | split
    | dsimp only [id])

theorem execStitchPath_keeps (u : Keeps [.run, .irc, .log] P) {a0 : Nat} {a1 : Bool} (k : P s) : ∀ t, execStitchPath a0 a1 s = .next t → P t := by
  intro t e
  injection e with e
  rw [← e]
  clear e
  repeat' (first
    | with_reducible assumption
    | (with_reducible refine u.mono ?_; decide)
    | (intro _ h; exact h)
    | (intro h; exact h)
    | (intro _; rfl)
    | (with_reducible refine nextOr_keeps (ok_keeps ?_) ?_)
    | (with_reducible refine State.modStitch_keeps ?_ ?_)
    | (with_reducible refine State.limited_keeps ?_ (fun _ _ => ?_) ?_)
    | (with_reducible refine State.raiseCtx_keeps ?_ ?_)
    | (with_reducible refine State.latch_keeps ?_ ?_)
    | (with_reducible refine ite_keeps ?_ ?_)
    | split
    | dsimp only [id])

theorem execRunqUnread_keeps (u : Keeps [.run, .blw, .glb, .irc, .log, .flt] P) {a0 : Nat} (k : P s) : ∀ t, execRunqUnread a0 s = .next t → P t := by
  intro t e
  injection e with e
  rw [← e]
  clear e
  repeat' (first
    | with_reducible assumption
    | (with_reducible refine u.mono ?_; decide)
    | (intro _ h; exact h)
    | (intro h; exact h)
    | (intro _; rfl)
    | (with_reducible refine nextOr_keeps (ok_keeps ?_) ?_)
    | (with_reducible refine State.each_keeps (fun _ _ _ => ?_) ?_)
    | (with_reducible refine State.freePkt_keeps ?_ ?_)
    | (with_reducible refine State.modRun_keeps ?_ ?_)
    | (with_reducible refine State.limited_keeps ?_ (fun _ _ => ?_) ?_)
    | (with_reducible refine State.raise_keeps ?_ ?_)
    | (with_reducible refine State.latch_keeps ?_ ?_)
    | (with_reducible refine ite_keeps ?_ ?_)
    | split
    | dsimp only [id])

theorem execPfcRefresh_keeps (u : Keeps [.run] P) {a0 : Nat} (k : P s) : ∀ t, execPfcRefresh a0 s = .next t → P t := by
  intro t e
  injection e with e
  rw [← e]
  clear e
  repeat' (first
    | with_reducible assumption
    | (with_reducible refine u.mono ?_; decide)
    | (with_reducible refine nextOr_keeps (ok_keeps ?_) ?_)
    | (with_reducible refine State.modRun_keeps ?_ ?_)
    | (with_reducible refine State.modEth_keeps ?_ ?_)
    | (with_reducible refine ite_keeps ?_ ?_)
    | split
    | dsimp only [id])

theorem execEgressSelect_keeps (u : Keeps [.run, .blw, .glb, .irc, .log, .flt] P) {a0 : Nat} (k : P s) : ∀ t, execEgressSelect a0 s = .next t → P t := by
  intro t e
  injection e with e
  rw [← e]
  clear e
  repeat' (first
    | with_reducible assumption
    | (with_reducible refine u.mono ?_; decide)
    | (intro _ h; exact h)
    | (intro h; exact h)
    | (intro _; rfl)
    | (with_reducible refine nextOr_keeps (ok_keeps ?_) ?_)
    | (with_reducible refine State.each_keeps (fun _ _ _ => ?_) ?_)
    | (with_reducible refine State.ageFlow_keeps ?_ ?_)
    | (with_reducible refine State.modFlow_keeps ?_ ?_)
    | (with_reducible refine State.sendHead_keeps ?_ ?_)
    | (with_reducible refine ite_keeps ?_ ?_)
    | split
    | dsimp only [id])

theorem execStatsInterval_keeps (u : Keeps [.run, .blw] P) (k : P s) : ∀ t, execStatsInterval s = .next t → P t := by
  intro t e
  injection e with e
  rw [← e]
  clear e
  repeat' (first
    | with_reducible assumption
    | (with_reducible refine u.mono ?_; decide)
    | (with_reducible refine nextOr_keeps (ok_keeps ?_) ?_)
    | (with_reducible refine State.served_keeps ?_ ?_)
    | (with_reducible refine State.modRun_keeps ?_ ?_)
    | (with_reducible refine foldl_fst_keeps (fun _ _ _ => ?_) ?_)
    | (with_reducible refine foldl_keeps (fun _ _ _ => ?_) ?_)
    | (with_reducible refine ite_keeps ?_ ?_)
    | split
    | dsimp only [id])

theorem execEthLinkChange_keeps (u : Keeps [.run, .irc] P) {a0 : Nat} {a1 : Bool} (k : P s) : ∀ t, execEthLinkChange a0 a1 s = .next t → P t := by
  intro t e
  injection e with e
  rw [← e]
  clear e
  repeat' (first
    | with_reducible assumption
    | (with_reducible refine u.mono ?_; decide)
    | (intro _ h; exact h)
    | (intro h; exact h)
    | (intro _; rfl)
    | (with_reducible refine nextOr_keeps (ok_keeps ?_) ?_)
    | (with_reducible refine State.latch_keeps ?_ ?_)
    | (with_reducible refine State.modEth_keeps ?_ ?_)
    | (with_reducible refine ite_keeps ?_ ?_)
    | split
    | dsimp only [id])

theorem execQuenchPin_keeps (u : Keeps [.run, .log] P) {a0 : Bool} (k : P s) : ∀ t, execQuenchPin a0 s = .next t → P t := by
  intro t e
  injection e with e
  rw [← e]
  clear e
  repeat' (first
    | with_reducible assumption
    | (with_reducible refine u.mono ?_; decide)
    | (with_reducible refine nextOr_keeps (ok_keeps ?_) ?_)
    | (with_reducible refine State.modRun_keeps ?_ ?_)
    | (with_reducible refine State.each_keeps (fun _ _ _ => ?_) ?_)
    | (with_reducible refine State.limited_keeps ?_ (fun _ _ => ?_) ?_)
    | (with_reducible refine State.raiseP_keeps ?_ ?_)
    | (with_reducible refine ite_keeps ?_ ?_)
    | split
    | dsimp only [id])

end Sys2Proof.Machine
end

