-- ==== Sys2Proof/Laws/PowerOps.lean ====
section
/-! SUPPORT. What each operation of PowerOps keeps. -/

namespace Sys2Proof.Machine

set_option linter.unreachableTactic false
set_option linter.unusedTactic false

variable {P : State → Prop} {s : State}

theorem State.bayMove_keeps (u : Keeps [.blw] P) {a0 : Nat} (k : P s) : P (State.bayMove a0 s) := by
  unfold State.bayMove
  repeat' (first
    | with_reducible assumption
    | (with_reducible refine u.mono ?_; decide)
    | (with_reducible refine State.modBay_keeps ?_ ?_)
    | (with_reducible refine ite_keeps ?_ ?_)
    | split
    | dsimp only [id])

theorem State.bootBays_keeps (u : Keeps [.blw] P) (k : P s) : P (State.bootBays s) := by
  unfold State.bootBays
  repeat' (first
    | with_reducible assumption
    | (with_reducible refine u.mono ?_; decide)
    | (with_reducible refine State.each_keeps (fun _ _ _ => ?_) ?_)
    | (with_reducible refine State.modBay_keeps ?_ ?_)
    | (with_reducible refine ite_keeps ?_ ?_)
    | split
    | dsimp only [id])

theorem State.throttle_keeps (u : Keeps [.blw, .irc, .log] P) {a0 : Nat} {a1 : BitVec 2} (k : P s) : P (State.throttle a0 a1 s) := by
  unfold State.throttle
  repeat' (first
    | with_reducible assumption
    | (with_reducible refine u.mono ?_; decide)
    | (intro _ h; exact h)
    | (intro h; exact h)
    | (intro _; rfl)
    | (with_reducible refine State.latch_keeps ?_ ?_)
    | (with_reducible refine State.modBay_keeps ?_ ?_)
    | (with_reducible refine State.limited_keeps ?_ (fun _ _ => ?_) ?_)
    | (with_reducible refine State.raise_keeps ?_ ?_)
    | (with_reducible refine ite_keeps ?_ ?_)
    | split
    | dsimp only [id])

theorem State.voltageHold_keeps (u : Keeps [.blw, .irc, .log] P) {a0 : Nat} (k : P s) : P (State.voltageHold a0 s) := by
  unfold State.voltageHold
  repeat' (first
    | with_reducible assumption
    | (with_reducible refine u.mono ?_; decide)
    | (intro _ h; exact h)
    | (intro h; exact h)
    | (intro _; rfl)
    | (with_reducible refine State.throttle_keeps ?_ ?_)
    | (with_reducible refine ite_keeps ?_ ?_)
    | split
    | dsimp only [id])

theorem State.takeBayTemp_keeps (u : Keeps [.blw] P) {a0 : Nat} (k : P s) : P (State.takeBayTemp a0 s) := by
  unfold State.takeBayTemp
  repeat' (first
    | with_reducible assumption
    | (with_reducible refine u.mono ?_; decide)
    | (with_reducible refine State.modBay_keeps ?_ ?_)
    | (with_reducible refine ite_keeps ?_ ?_)
    | split
    | dsimp only [id])

end Sys2Proof.Machine
end

