-- ==== Sys2Proof/Laws/Tack.lean ====
section
/-! SUPPORT. What each operation of Tack keeps. -/

namespace Sys2Proof.Machine

set_option linter.unreachableTactic false
set_option linter.unusedTactic false

variable {P : State → Prop} {s : State}

theorem State.semBreakNow_keeps (u : Keeps [.log, .sem] P) {a0 : Nat} (k : P s) : P (State.semBreakNow a0 s) := by
  unfold State.semBreakNow
  repeat' (first
    | with_reducible assumption
    | (with_reducible refine u.mono ?_; decide)
    | (with_reducible refine State.limited_keeps ?_ (fun _ _ => ?_) ?_)
    | (with_reducible refine State.raise_keeps ?_ ?_)
    | (with_reducible refine State.modSemS_keeps ?_ ?_)
    | (with_reducible refine ite_keeps ?_ ?_)
    | split
    | dsimp only [id])

theorem State.semBreakIf_keeps (u : Keeps [.log, .sem] P) {a0 : BitVec 9 → Bool} {a1 : Nat} (k : P s) : P (State.semBreakIf a0 a1 s) := by
  unfold State.semBreakIf
  repeat' (first
    | with_reducible assumption
    | (with_reducible refine u.mono ?_; decide)
    | (with_reducible refine State.semBreakNow_keeps ?_ ?_)
    | (with_reducible refine ite_keeps ?_ ?_)
    | split
    | dsimp only [id])

theorem State.semBreakOwners_keeps (u : Keeps [.log, .sem] P) {a0 : BitVec 9 → Bool} (k : P s) : P (State.semBreakOwners a0 s) := by
  unfold State.semBreakOwners
  repeat' (first
    | with_reducible assumption
    | (with_reducible refine u.mono ?_; decide)
    | (with_reducible refine State.each_keeps (fun _ _ _ => ?_) ?_)
    | (with_reducible refine State.semBreakIf_keeps ?_ ?_)
    | (with_reducible refine ite_keeps ?_ ?_)
    | split
    | dsimp only [id])

theorem State.modUart_keeps (u : Keeps [.tck] P) {a0 : Uart → Uart} (k : P s) : P (State.modUart a0 s) := by
  unfold State.modUart
  repeat' (first
    | with_reducible assumption
    | (with_reducible refine u.mono ?_; decide)
    | (intro _ h; exact h)
    | (intro h; exact h)
    | (intro _; rfl)
    | (with_reducible refine State.modTck_keeps ?_ ?_ ?_)
    | (with_reducible refine ite_keeps ?_ ?_)
    | split
    | dsimp only [id])

theorem claimBest_above {n : Nat} {p : BitVec 4} (e : s.claimBest = some (n, p)) : aboveTop s.irc.stack p = true := by
  have h : ∀ (l : List Nat) (b : Option (Nat × BitVec 4)), (∀ n p, b = some (n, p) → aboveTop s.irc.stack p = true) →
      ∀ n p, l.foldl s.claimStep b = some (n, p) → aboveTop s.irc.stack p = true := by
    intro l
    induction l with
    | nil => intro b h; exact h
    | cons a r ih =>
      intro b h
      refine ih _ (fun n p e => ?_)
      unfold State.claimStep at e
      dsimp only at e
      split at e
      · rename_i c
        rw [Bool.and_eq_true] at c
        split at e
        · rename_i x q
          split at e
          · injection e with e
            injection e with _ e
            rw [← e]
            exact c.2
          · exact h _ _ (by rw [← e])
        · injection e with e
          injection e with _ e
          rw [← e]
          exact c.2
      · exact h _ _ e
  exact h _ _ (fun _ _ e => by cases e) _ _ e

theorem ircClaim_keeps (u : Keeps [.irc] P) (k : P s) : P (ircClaim s) := by
  unfold ircClaim
  split
  · rename_i n p e
    refine State.modIrc_keeps u (fun h => ?_) k
    have a := claimBest_above e
    generalize s.irc.stack = l at a h
    cases l with
    | nil => rfl
    | cons x r =>
      simp only [aboveTop, decide_eq_true_eq] at a
      simp only [stackRises, Bool.and_eq_true, decide_eq_true_eq]
      exact ⟨a, h⟩
  · exact State.modIrc_keeps u (fun h => h) k

theorem execSemStateRead_keeps (u : Keeps [.sem] P) {a0 : Nat} (k : P s) : ∀ t, execSemStateRead a0 s = .next t → P t := by
  intro t e
  injection e with e
  rw [← e]
  clear e
  repeat' (first
    | with_reducible assumption
    | (with_reducible refine u.mono ?_; decide)
    | (with_reducible refine nextOr_keeps (ok_keeps ?_) ?_)
    | (with_reducible refine State.modSemS_keeps ?_ ?_)
    | (with_reducible refine ite_keeps ?_ ?_)
    | split
    | dsimp only [id])

theorem execUartRxRead_keeps (u : Keeps [.tck] P) (k : P s) : ∀ t, execUartRxRead s = .next t → P t := by
  intro t e
  injection e with e
  rw [← e]
  clear e
  repeat' (first
    | with_reducible assumption
    | (with_reducible refine u.mono ?_; decide)
    | (intro _ h; exact h)
    | (intro h; exact h)
    | (intro _; rfl)
    | (with_reducible refine nextOr_keeps (ok_keeps ?_) ?_)
    | (with_reducible refine State.modUart_keeps ?_ ?_)
    | (with_reducible refine ite_keeps ?_ ?_)
    | split
    | dsimp only [id])

theorem State.ircReset_keeps (u : Keeps [.irc] P) (k : P s) : P (State.ircReset s) := by
  unfold State.ircReset
  repeat' (first
    | with_reducible assumption
    | (with_reducible refine u.mono ?_; decide)
    | (intro _ h; exact h)
    | (intro h; exact h)
    | (intro _; rfl)
    | (with_reducible refine State.modIrc_keeps ?_ ?_ ?_)
    | (with_reducible refine ite_keeps ?_ ?_)
    | split
    | dsimp only [id])

theorem execIrcEoi_keeps (u : Keeps [.irc] P) {a0 : Sys2Proof.Word} (k : P s) : ∀ t, execIrcEoi a0 s = .next t → P t := by
  intro t e
  injection e with e
  rw [← e]
  refine State.modIrc_keeps u (fun h => ?_) k
  split
  · exact h
  · rename_i p r c
    rw [c] at h
    show stackRises r = true
    cases r with
    | nil => rfl
    | cons x r =>
      simp only [stackRises, Bool.and_eq_true] at h
      exact h.2

theorem execIrcBlkAck_keeps (u : Keeps [.irc] P) {a0 : Sys2Proof.Word} (k : P s) : ∀ t, execIrcBlkAck a0 s = .next t → P t := by
  intro t e
  injection e with e
  rw [← e]
  clear e
  repeat' (first
    | with_reducible assumption
    | (with_reducible refine u.mono ?_; decide)
    | (intro _ h; exact h)
    | (intro h; exact h)
    | (intro _; rfl)
    | (with_reducible refine nextOr_keeps (ok_keeps ?_) ?_)
    | (with_reducible refine State.modIrc_keeps ?_ ?_ ?_)
    | (with_reducible refine ite_keeps ?_ ?_)
    | split
    | dsimp only [id])

theorem State.semReject_keeps (u : Keeps [.sem] P) {a0 : Nat} (k : P s) : P (State.semReject a0 s) := by
  unfold State.semReject
  repeat' (first
    | with_reducible assumption
    | (with_reducible refine u.mono ?_; decide)
    | (with_reducible refine State.modSemS_keeps ?_ ?_)
    | (with_reducible refine ite_keeps ?_ ?_)
    | split
    | dsimp only [id])

theorem State.semRelease_keeps (u : Keeps [.sem] P) {a0 : Nat} {a1 : BitVec 9} (k : P s) : P (State.semRelease a0 a1 s) := by
  unfold State.semRelease
  repeat' (first
    | with_reducible assumption
    | (with_reducible refine u.mono ?_; decide)
    | (with_reducible refine State.modSemS_keeps ?_ ?_)
    | (with_reducible refine State.semReject_keeps ?_ ?_)
    | (with_reducible refine ite_keeps ?_ ?_)
    | split
    | dsimp only [id])

theorem State.semRecover_keeps (u : Keeps [.sem] P) {a0 : Nat} {a1 : BitVec 9} (k : P s) : P (State.semRecover a0 a1 s) := by
  unfold State.semRecover
  repeat' (first
    | with_reducible assumption
    | (with_reducible refine u.mono ?_; decide)
    | (with_reducible refine State.modSemS_keeps ?_ ?_)
    | (with_reducible refine State.semReject_keeps ?_ ?_)
    | (with_reducible refine ite_keeps ?_ ?_)
    | split
    | dsimp only [id])

theorem State.semBreakOp_keeps (u : Keeps [.log, .sem] P) {a0 : Nat} {a1 : BitVec 9} (k : P s) : P (State.semBreakOp a0 a1 s) := by
  unfold State.semBreakOp
  repeat' (first
    | with_reducible assumption
    | (with_reducible refine u.mono ?_; decide)
    | (with_reducible refine State.semBreakNow_keeps ?_ ?_)
    | (with_reducible refine State.semReject_keeps ?_ ?_)
    | (with_reducible refine ite_keeps ?_ ?_)
    | split
    | dsimp only [id])

theorem execTimerAck_keeps (u : Keeps [.tck] P) {a0 : Nat} (k : P s) : ∀ t, execTimerAck a0 s = .next t → P t := by
  intro t e
  injection e with e
  rw [← e]
  clear e
  repeat' (first
    | with_reducible assumption
    | (with_reducible refine u.mono ?_; decide)
    | (intro _ h; exact h)
    | (intro h; exact h)
    | (intro _; rfl)
    | (with_reducible refine nextOr_keeps (ok_keeps ?_) ?_)
    | (with_reducible refine State.modTimer_keeps ?_ ?_)
    | (with_reducible refine ite_keeps ?_ ?_)
    | split
    | dsimp only [id])

theorem State.dmaArbitrate_keeps (u : Keeps [.tck] P) (k : P s) : P (State.dmaArbitrate s) := by
  unfold State.dmaArbitrate
  repeat' (first
    | with_reducible assumption
    | (with_reducible refine u.mono ?_; decide)
    | (intro _ h; exact h)
    | (intro h; exact h)
    | (intro _; rfl)
    | (with_reducible refine State.modDma_keeps ?_ ?_)
    | (with_reducible refine ite_keeps ?_ ?_)
    | split
    | dsimp only [id])

theorem State.dmaStartAll_keeps (u : Keeps [.tck] P) {a0 : List Nat} (k : P s) : P (State.dmaStartAll a0 s) := by
  unfold State.dmaStartAll
  repeat' (first
    | with_reducible assumption
    | (with_reducible refine u.mono ?_; decide)
    | (intro _ h; exact h)
    | (intro h; exact h)
    | (intro _; rfl)
    | (with_reducible refine State.dmaArbitrate_keeps ?_ ?_)
    | (with_reducible refine State.each_keeps (fun _ _ _ => ?_) ?_)
    | (with_reducible refine State.modDma_keeps ?_ ?_)
    | (with_reducible refine ite_keeps ?_ ?_)
    | split
    | dsimp only [id])

theorem execUartTxWrite_keeps (u : Keeps [.tck] P) {a0 : Sys2Proof.Word} (k : P s) : ∀ t, execUartTxWrite a0 s = .next t → P t := by
  intro t e
  injection e with e
  rw [← e]
  clear e
  repeat' (first
    | with_reducible assumption
    | (with_reducible refine u.mono ?_; decide)
    | (intro _ h; exact h)
    | (intro h; exact h)
    | (intro _; rfl)
    | (with_reducible refine nextOr_keeps (ok_keeps ?_) ?_)
    | (with_reducible refine State.modUart_keeps ?_ ?_)
    | (with_reducible refine ite_keeps ?_ ?_)
    | split
    | dsimp only [id])

theorem execUartStatusClear_keeps (u : Keeps [.tck] P) {a0 : Sys2Proof.Word} (k : P s) : ∀ t, execUartStatusClear a0 s = .next t → P t := by
  intro t e
  injection e with e
  rw [← e]
  clear e
  repeat' (first
    | with_reducible assumption
    | (with_reducible refine u.mono ?_; decide)
    | (intro _ h; exact h)
    | (intro h; exact h)
    | (intro _; rfl)
    | (with_reducible refine nextOr_keeps (ok_keeps ?_) ?_)
    | (with_reducible refine State.modUart_keeps ?_ ?_)
    | (with_reducible refine ite_keeps ?_ ?_)
    | split
    | dsimp only [id])

theorem State.logAppend_keeps (u : Keeps [.hq, .log] P) {a0 : LogEntry} (k : P s) : P (State.logAppend a0 s) := by
  unfold State.logAppend
  repeat' (first
    | with_reducible assumption
    | (with_reducible refine u.mono ?_; decide)
    | (intro _ h; exact h)
    | (intro h; exact h)
    | (intro _; rfl)
    | (with_reducible refine State.deliver_keeps ?_ ?_)
    | (with_reducible refine State.modLog_keeps ?_ ?_)
    | (with_reducible refine ite_keeps ?_ ?_)
    | split
    | dsimp only [id])

theorem State.logLost_keeps (u : Keeps [.hq, .log] P) (k : P s) : P (State.logLost s) := by
  unfold State.logLost
  repeat' (first
    | with_reducible assumption
    | (with_reducible refine u.mono ?_; decide)
    | (intro _ h; exact h)
    | (intro h; exact h)
    | (intro _; rfl)
    | (with_reducible refine State.limited_keeps ?_ (fun _ _ => ?_) ?_)
    | (with_reducible refine State.logAppend_keeps ?_ ?_)
    | (with_reducible refine State.modLog_keeps ?_ ?_)
    | (with_reducible refine ite_keeps ?_ ?_)
    | split
    | dsimp only [id])

theorem State.sampleTemp_keeps (u : Keeps [.tck, .log] P) {a0 : Nat} {a1 : ℤ} (k : P s) : P (State.sampleTemp a0 a1 s) := by
  unfold State.sampleTemp
  repeat' (first
    | with_reducible assumption
    | (with_reducible refine u.mono ?_; decide)
    | (intro _ h; exact h)
    | (intro h; exact h)
    | (intro _; rfl)
    | (with_reducible refine State.modTck_keeps ?_ ?_ ?_)
    | (with_reducible refine State.limited_keeps ?_ (fun _ _ => ?_) ?_)
    | (with_reducible refine State.raise_keeps ?_ ?_)
    | (with_reducible refine ite_keeps ?_ ?_)
    | split
    | dsimp only [id])

theorem State.sampleVolt_keeps (u : Keeps [.fsh, .tck, .log] P) {a0 : Nat} {a1 : ℤ} (k : P s) : P (State.sampleVolt a0 a1 s) := by
  unfold State.sampleVolt
  repeat' (first
    | with_reducible assumption
    | (with_reducible refine u.mono ?_; decide)
    | (intro _ h; exact h)
    | (intro h; exact h)
    | (intro _; rfl)
    | (with_reducible refine State.modTck_keeps ?_ ?_ ?_)
    | (with_reducible refine State.limited_keeps ?_ (fun _ _ => ?_) ?_)
    | (with_reducible refine State.raise_keeps ?_ ?_)
    | (with_reducible refine State.modFsh_keeps ?_ ?_ ?_)
    | (with_reducible refine ite_keeps ?_ ?_)
    | split
    | dsimp only [id])

theorem State.wakeRise_keeps (u : Keeps [.glb] P) {a0 : State} (k : P s) : P (State.wakeRise a0 s) := by
  unfold State.wakeRise
  repeat' (first
    | with_reducible assumption
    | (with_reducible refine u.mono ?_; decide)
    | (with_reducible refine State.modGlb_keeps ?_ ?_)
    | (with_reducible refine ite_keeps ?_ ?_)
    | split
    | dsimp only [id])

theorem Tck.wdogApply_sram (n : Nat) (v : Word) (t : Tck) : (t.wdogApply n v).sram = t.sram := by
  unfold Tck.wdogApply
  split <;> rfl

theorem State.wdogWrite_keeps (u : Keeps [.glb, .tck] P) {a0 : Writer} {a1 : Word} (k : P s) : P (State.wdogWrite a0 a1 s) := by
  unfold State.wdogWrite
  split
  · exact State.werr_keeps (u.mono (by decide)) k
  · exact State.modTck_keeps (u.mono (by decide)) (fun x h => by rw [Tck.wdogApply_sram]; exact h) k

theorem execIrcClaim_keeps (u : Keeps [.irc] P) (k : P s) : ∀ t, execIrcClaim s = .next t → P t := by
  intro t e
  injection e with e
  rw [← e]
  clear e
  repeat' (first
    | with_reducible assumption
    | (with_reducible refine u.mono ?_; decide)
    | (intro _ h; exact h)
    | (intro h; exact h)
    | (intro _; rfl)
    | (with_reducible refine nextOr_keeps (ok_keeps ?_) ?_)
    | (with_reducible refine ircClaim_keeps ?_ ?_)
    | (with_reducible refine ite_keeps ?_ ?_)
    | split
    | dsimp only [id])

theorem execDmaChannelStart_keeps (u : Keeps [.tck] P) {a0 : Nat} (k : P s) : ∀ t, execDmaChannelStart a0 s = .next t → P t := by
  intro t e
  injection e with e
  rw [← e]
  clear e
  repeat' (first
    | with_reducible assumption
    | (with_reducible refine u.mono ?_; decide)
    | (intro _ h; exact h)
    | (intro h; exact h)
    | (intro _; rfl)
    | (with_reducible refine nextOr_keeps (ok_keeps ?_) ?_)
    | (with_reducible refine State.dmaStartAll_keeps ?_ ?_)
    | (with_reducible refine ite_keeps ?_ ?_)
    | split
    | dsimp only [id])

theorem execTimerExpiry_keeps (u : Keeps [.glb, .tck] P) {a0 : Nat} (k : P s) : ∀ t, execTimerExpiry a0 s = .next t → P t := by
  intro t e
  injection e with e
  rw [← e]
  clear e
  repeat' (first
    | with_reducible assumption
    | (with_reducible refine u.mono ?_; decide)
    | (intro _ h; exact h)
    | (intro h; exact h)
    | (intro _; rfl)
    | (with_reducible refine nextOr_keeps (ok_keeps ?_) ?_)
    | (with_reducible refine State.dmaStartAll_keeps ?_ ?_)
    | (with_reducible refine State.modTimer_keeps ?_ ?_)
    | (with_reducible refine State.wakeRise_keeps ?_ ?_)
    | (with_reducible refine ite_keeps ?_ ?_)
    | split
    | dsimp only [id])

theorem execUartRxChar_keeps (u : Keeps [.glb, .tck] P) {a0 : List (Bool × Bool × Bool)} (k : P s) : ∀ t, execUartRxChar a0 s = .next t → P t := by
  intro t e
  injection e with e
  rw [← e]
  clear e
  repeat' (first
    | with_reducible assumption
    | (with_reducible refine u.mono ?_; decide)
    | (intro _ h; exact h)
    | (intro h; exact h)
    | (intro _; rfl)
    | (with_reducible refine nextOr_keeps (ok_keeps ?_) ?_)
    | (with_reducible refine State.wakeRise_keeps ?_ ?_)
    | (with_reducible refine State.modUart_keeps ?_ ?_)
    | (with_reducible refine ite_keeps ?_ ?_)
    | split
    | dsimp only [id])

theorem execUartBreak_keeps (u : Keeps [.glb, .tck] P) (k : P s) : ∀ t, execUartBreak s = .next t → P t := by
  intro t e
  injection e with e
  rw [← e]
  clear e
  repeat' (first
    | with_reducible assumption
    | (with_reducible refine u.mono ?_; decide)
    | (intro _ h; exact h)
    | (intro h; exact h)
    | (intro _; rfl)
    | (with_reducible refine nextOr_keeps (ok_keeps ?_) ?_)
    | (with_reducible refine State.wakeRise_keeps ?_ ?_)
    | (with_reducible refine State.modUart_keeps ?_ ?_)
    | (with_reducible refine ite_keeps ?_ ?_)
    | split
    | dsimp only [id])

theorem execUartTxCharDone_keeps (u : Keeps [.tck] P) (k : P s) : ∀ t, execUartTxCharDone s = .next t → P t := by
  intro t e
  injection e with e
  rw [← e]
  clear e
  repeat' (first
    | with_reducible assumption
    | (with_reducible refine u.mono ?_; decide)
    | (intro _ h; exact h)
    | (intro h; exact h)
    | (intro _; rfl)
    | (with_reducible refine nextOr_keeps (ok_keeps ?_) ?_)
    | (with_reducible refine State.modUart_keeps ?_ ?_)
    | (with_reducible refine ite_keeps ?_ ?_)
    | split
    | dsimp only [id])

theorem execSensorSample_keeps (u : Keeps [.blw, .fsh, .glb, .tck, .log] P) {a0 : List ℤ} {a1 : List ℤ} (k : P s) : ∀ t, execSensorSample a0 a1 s = .next t → P t := by
  intro t e
  injection e with e
  rw [← e]
  clear e
  repeat' (first
    | with_reducible assumption
    | (with_reducible refine u.mono ?_; decide)
    | (intro _ h; exact h)
    | (intro h; exact h)
    | (intro _; rfl)
    | (with_reducible refine nextOr_keeps (ok_keeps ?_) ?_)
    | (with_reducible refine State.each_keeps (fun _ _ _ => ?_) ?_)
    | (with_reducible refine State.sampleTemp_keeps ?_ ?_)
    | (with_reducible refine State.takeBayTemp_keeps ?_ ?_)
    | (with_reducible refine State.wakeRise_keeps ?_ ?_)
    | (with_reducible refine State.sampleVolt_keeps ?_ ?_)
    | (with_reducible refine ite_keeps ?_ ?_)
    | split
    | dsimp only [id])

theorem execEventPost_keeps (u : Keeps [.log] P) {a0 : Sys2Proof.Ev} (k : P s) : ∀ t, execEventPost a0 s = .next t → P t := by
  intro t e
  injection e with e
  rw [← e]
  clear e
  repeat' (first
    | with_reducible assumption
    | (with_reducible refine u.mono ?_; decide)
    | (with_reducible refine nextOr_keeps (ok_keeps ?_) ?_)
    | (with_reducible refine State.post_keeps ?_ ?_)
    | (with_reducible refine ite_keeps ?_ ?_)
    | split
    | dsimp only [id])

theorem execLogWriterMove_keeps (u : Keeps [.hq, .log] P) (k : P s) : ∀ t, execLogWriterMove s = .next t → P t := by
  intro t e
  injection e with e
  rw [← e]
  clear e
  repeat' (first
    | with_reducible assumption
    | (with_reducible refine u.mono ?_; decide)
    | (intro _ h; exact h)
    | (intro h; exact h)
    | (intro _; rfl)
    | (with_reducible refine nextOr_keeps (ok_keeps ?_) ?_)
    | (with_reducible refine State.logLost_keeps ?_ ?_)
    | (with_reducible refine State.logAppend_keeps ?_ ?_)
    | (with_reducible refine State.modLog_keeps ?_ ?_)
    | (with_reducible refine ite_keeps ?_ ?_)
    | split
    | dsimp only [id])

theorem execSemAcquire_keeps (u : Keeps [.sem] P) {a0 : Nat} {a1 : BitVec 9} (k : P s) : ∀ t, execSemAcquire a0 a1 s = .next t → P t := by
  intro t e
  injection e with e
  rw [← e]
  clear e
  repeat' (first
    | with_reducible assumption
    | (with_reducible refine u.mono ?_; decide)
    | (with_reducible refine nextOr_keeps (ok_keeps ?_) ?_)
    | (with_reducible refine State.modSemS_keeps ?_ ?_)
    | (with_reducible refine ite_keeps ?_ ?_)
    | split
    | dsimp only [id])

theorem execSemRelease_keeps (u : Keeps [.sem] P) {a0 : Nat} {a1 : BitVec 9} (k : P s) : ∀ t, execSemRelease a0 a1 s = .next t → P t := by
  intro t e
  injection e with e
  rw [← e]
  clear e
  repeat' (first
    | with_reducible assumption
    | (with_reducible refine u.mono ?_; decide)
    | (with_reducible refine nextOr_keeps (ok_keeps ?_) ?_)
    | (with_reducible refine State.semRelease_keeps ?_ ?_)
    | (with_reducible refine ite_keeps ?_ ?_)
    | split
    | dsimp only [id])

theorem execSemRecovered_keeps (u : Keeps [.sem] P) {a0 : Nat} {a1 : BitVec 9} (k : P s) : ∀ t, execSemRecovered a0 a1 s = .next t → P t := by
  intro t e
  injection e with e
  rw [← e]
  clear e
  repeat' (first
    | with_reducible assumption
    | (with_reducible refine u.mono ?_; decide)
    | (with_reducible refine nextOr_keeps (ok_keeps ?_) ?_)
    | (with_reducible refine State.semRecover_keeps ?_ ?_)
    | (with_reducible refine ite_keeps ?_ ?_)
    | split
    | dsimp only [id])

theorem execSemBreak_keeps (u : Keeps [.log, .sem] P) {a0 : Nat} {a1 : BitVec 9} (k : P s) : ∀ t, execSemBreak a0 a1 s = .next t → P t := by
  intro t e
  injection e with e
  rw [← e]
  clear e
  repeat' (first
    | with_reducible assumption
    | (with_reducible refine u.mono ?_; decide)
    | (with_reducible refine nextOr_keeps (ok_keeps ?_) ?_)
    | (with_reducible refine State.semBreakOp_keeps ?_ ?_)
    | (with_reducible refine ite_keeps ?_ ?_)
    | split
    | dsimp only [id])

theorem execWatchdogKick_keeps (u : Keeps [.glb, .tck] P) {a0 : Sys2Proof.Word} (k : P s) : ∀ t, execWatchdogKick a0 s = .next t → P t := by
  intro t e
  injection e with e
  rw [← e]
  clear e
  repeat' (first
    | with_reducible assumption
    | (with_reducible refine u.mono ?_; decide)
    | (intro _ h; exact h)
    | (intro h; exact h)
    | (intro _; rfl)
    | (with_reducible refine nextOr_keeps (ok_keeps ?_) ?_)
    | (with_reducible refine State.wdogWrite_keeps ?_ ?_)
    | (with_reducible refine ite_keeps ?_ ?_)
    | split
    | dsimp only [id])

theorem execTackWdogWarn_keeps (u : Keeps [.glb, .tck, .log] P) (k : P s) : ∀ t, execTackWdogWarn s = .next t → P t := by
  intro t e
  injection e with e
  rw [← e]
  clear e
  repeat' (first
    | with_reducible assumption
    | (with_reducible refine u.mono ?_; decide)
    | (intro _ h; exact h)
    | (intro h; exact h)
    | (intro _; rfl)
    | (with_reducible refine nextOr_keeps (ok_keeps ?_) ?_)
    | (with_reducible refine State.limited_keeps ?_ (fun _ _ => ?_) ?_)
    | (with_reducible refine State.raise_keeps ?_ ?_)
    | (with_reducible refine State.modTck_keeps ?_ ?_ ?_)
    | (with_reducible refine State.wakeRise_keeps ?_ ?_)
    | (with_reducible refine ite_keeps ?_ ?_)
    | split
    | dsimp only [id])

end Sys2Proof.Machine
end

