-- ==== Sys2Proof/Laws/FenceOps.lean ====
section
/-! SUPPORT. What each operation of FenceOps keeps. -/

namespace Sys2Proof.Machine

set_option linter.unreachableTactic false
set_option linter.unusedTactic false

variable {P : State → Prop} {s : State}

theorem State.loseTask_keeps (u : Keeps [.freeCtr, .dec, .cmp, .cores, .drm, .blw, .irc, .log, .grt] P) {a0 : Nat} (k : P s) : P (State.loseTask a0 s) := by
  unfold State.loseTask
  repeat' (first
    | with_reducible assumption
    | (with_reducible refine u.mono ?_; decide)
    | (intro _ h; exact h)
    | (intro h; exact h)
    | (intro _; rfl)
    | (with_reducible refine State.dropCheck_keeps ?_ ?_)
    | (with_reducible refine State.abandonTask_keeps ?_ ?_)
    | (with_reducible refine State.modTask_keeps ?_ ?_)
    | (with_reducible refine ite_keeps ?_ ?_)
    | split
    | dsimp only [id])

theorem State.repeatCurrent_keeps (u : Keeps [.enc, .log] P) {a0 : Nat} (k : P s) : P (State.repeatCurrent a0 s) := by
  unfold State.repeatCurrent
  repeat' (first
    | with_reducible assumption
    | (with_reducible refine u.mono ?_; decide)
    | (with_reducible refine State.repeatRows_keeps ?_ ?_)
    | (with_reducible refine State.modHead_keeps ?_ ?_)
    | (with_reducible refine ite_keeps ?_ ?_)
    | split
    | dsimp only [id])

theorem State.fenceBay_keeps (u : Keeps [.freeCtr, .enc, .dec, .cmp, .cores, .drm, .blw, .irc, .log, .sem, .grt] P) {a0 : Nat} {a1 : Nat} (k : P s) : P (State.fenceBay a0 a1 s) := by
  unfold State.fenceBay
  repeat' (first
    | with_reducible assumption
    | (with_reducible refine u.mono ?_; decide)
    | (intro _ h; exact h)
    | (intro h; exact h)
    | (intro _; rfl)
    | (with_reducible refine State.each_keeps (fun _ _ _ => ?_) ?_)
    | (with_reducible refine State.loseTask_keeps ?_ ?_)
    | (with_reducible refine State.repeatCurrent_keeps ?_ ?_)
    | (with_reducible refine State.semBreakOwners_keeps ?_ ?_)
    | (with_reducible refine State.modCore_keeps ?_ ?_)
    | (with_reducible refine State.modBay_keeps ?_ ?_)
    | (with_reducible refine State.modRail_keeps ?_ ?_)
    | (with_reducible refine State.wantAdmission_keeps ?_ ?_)
    | (with_reducible refine State.unitFenced_keeps ?_ ?_)
    | (with_reducible refine ite_keeps ?_ ?_)
    | split
    | dsimp only [id])

theorem State.restartCore_keeps (u : Keeps [.freeCtr, .enc, .dec, .cmp, .cores, .drm, .blw, .irc, .log, .sem, .grt] P) {a0 : Nat} (k : P s) : P (State.restartCore a0 s) := by
  unfold State.restartCore
  repeat' (first
    | with_reducible assumption
    | (with_reducible refine u.mono ?_; decide)
    | (intro _ h; exact h)
    | (intro h; exact h)
    | (intro _; rfl)
    | (with_reducible refine State.semBreakOwners_keeps ?_ ?_)
    | (with_reducible refine State.modCore_keeps ?_ ?_)
    | (with_reducible refine State.abandonEncode_keeps ?_ ?_)
    | (with_reducible refine State.abandonCore_keeps ?_ ?_)
    | (with_reducible refine ite_keeps ?_ ?_)
    | split
    | dsimp only [id])

theorem State.fenceCore_keeps (u : Keeps [.freeCtr, .enc, .dec, .cmp, .cores, .drm, .blw, .irc, .log, .sem, .grt] P) {a0 : Nat} {a1 : Nat} (k : P s) : P (State.fenceCore a0 a1 s) := by
  unfold State.fenceCore
  repeat' (first
    | with_reducible assumption
    | (with_reducible refine u.mono ?_; decide)
    | (intro _ h; exact h)
    | (intro h; exact h)
    | (intro _; rfl)
    | (with_reducible refine State.restartCore_keeps ?_ ?_)
    | (with_reducible refine State.modCore_keeps ?_ ?_)
    | (with_reducible refine State.wantAdmission_keeps ?_ ?_)
    | (with_reducible refine State.unitFenced_keeps ?_ ?_)
    | (with_reducible refine State.dropTokens_keeps ?_ ?_)
    | (with_reducible refine ite_keeps ?_ ?_)
    | split
    | dsimp only [id])

theorem State.fenceEth_keeps (u : Keeps [.run, .irc, .log] P) {a0 : Nat} {a1 : Nat} (k : P s) : P (State.fenceEth a0 a1 s) := by
  unfold State.fenceEth
  repeat' (first
    | with_reducible assumption
    | (with_reducible refine u.mono ?_; decide)
    | (intro _ h; exact h)
    | (intro h; exact h)
    | (intro _; rfl)
    | (with_reducible refine State.unitFenced_keeps ?_ ?_)
    | (with_reducible refine State.latch_keeps ?_ ?_)
    | (with_reducible refine State.modEth_keeps ?_ ?_)
    | (with_reducible refine ite_keeps ?_ ?_)
    | split
    | dsimp only [id])

theorem State.fencePlane_keeps (u : Keeps [.run, .glb, .irc, .log, .flt] P) {a0 : Nat} {a1 : Nat} (k : P s) : P (State.fencePlane a0 a1 s) := by
  unfold State.fencePlane
  repeat' (first
    | with_reducible assumption
    | (with_reducible refine u.mono ?_; decide)
    | (intro _ h; exact h)
    | (intro h; exact h)
    | (intro _; rfl)
    | (with_reducible refine State.modRun_keeps ?_ ?_)
    | (with_reducible refine State.recordFatal_keeps ?_ ?_)
    | (with_reducible refine State.unitFenced_keeps ?_ ?_)
    | (with_reducible refine ite_keeps ?_ ?_)
    | split
    | dsimp only [id])

theorem State.fenceDpo_keeps (u : Keeps [.out, .irc, .log] P) {a0 : Nat} {a1 : Nat} (k : P s) : P (State.fenceDpo a0 a1 s) := by
  unfold State.fenceDpo
  repeat' (first
    | with_reducible assumption
    | (with_reducible refine u.mono ?_; decide)
    | (intro _ h; exact h)
    | (intro h; exact h)
    | (intro _; rfl)
    | (with_reducible refine State.unitFenced_keeps ?_ ?_)
    | (with_reducible refine State.setDpoLink_keeps ?_ ?_)
    | (with_reducible refine State.modDpo_keeps ?_ ?_)
    | (with_reducible refine ite_keeps ?_ ?_)
    | split
    | dsimp only [id])

theorem State.fenceDpi_keeps (u : Keeps [.out, .irc, .log] P) {a0 : Nat} {a1 : Nat} (k : P s) : P (State.fenceDpi a0 a1 s) := by
  unfold State.fenceDpi
  repeat' (first
    | with_reducible assumption
    | (with_reducible refine u.mono ?_; decide)
    | (intro _ h; exact h)
    | (intro h; exact h)
    | (intro _; rfl)
    | (with_reducible refine State.unitFenced_keeps ?_ ?_)
    | (with_reducible refine State.setDpiLink_keeps ?_ ?_)
    | (with_reducible refine State.modDpi_keeps ?_ ?_)
    | (with_reducible refine ite_keeps ?_ ?_)
    | split
    | dsimp only [id])

theorem State.fenceHost_keeps (u : Keeps [.enc, .hq, .log] P) {a0 : Nat} (k : P s) : P (State.fenceHost a0 s) := by
  unfold State.fenceHost
  repeat' (first
    | with_reducible assumption
    | (with_reducible refine u.mono ?_; decide)
    | (intro _ h; exact h)
    | (intro h; exact h)
    | (intro _; rfl)
    | (with_reducible refine State.modHq_keeps ?_ ?_ ?_)
    | (with_reducible refine State.modEnc_keeps ?_ ?_)
    | (with_reducible refine State.unitFenced_keeps ?_ ?_)
    | (with_reducible refine ite_keeps ?_ ?_)
    | split
    | dsimp only [id])

theorem State.fenceClock_keeps (u : Keeps [.ras, .irc, .log] P) {a0 : Nat} (k : P s) : P (State.fenceClock a0 s) := by
  unfold State.fenceClock
  repeat' (first
    | with_reducible assumption
    | (with_reducible refine u.mono ?_; decide)
    | (intro _ h; exact h)
    | (intro h; exact h)
    | (intro _; rfl)
    | (with_reducible refine State.unitFenced_keeps ?_ ?_)
    | (with_reducible refine State.latch_keeps ?_ ?_)
    | (with_reducible refine State.noteClk_keeps ?_ ?_)
    | (with_reducible refine State.modClk_keeps ?_ ?_)
    | (with_reducible refine ite_keeps ?_ ?_)
    | split
    | dsimp only [id])

end Sys2Proof.Machine
end

