-- ==== Sys2Proof/Laws/CoreCmds.lean ====
section
/-! SUPPORT. What each operation of CoreCmds keeps. -/

namespace Sys2Proof.Machine

set_option linter.unreachableTactic false
set_option linter.unusedTactic false

variable {P : State → Prop} {s : State}

theorem State.powerDown_keeps (u : Keeps [.freeCtr, .cores, .blw, .log, .sem] P) {a0 : Nat} {a1 : Sys2Proof.PState} (k : P s) : P (State.powerDown a0 a1 s) := by
  unfold State.powerDown
  repeat' (first
    | with_reducible assumption
    | (with_reducible refine u.mono ?_; decide)
    | (with_reducible refine State.modCore_keeps ?_ ?_)
    | (with_reducible refine State.modFreeCtr_keeps ?_ ?_)
    | (with_reducible refine State.freeTokens_keeps ?_ ?_)
    | (with_reducible refine State.semBreakOwners_keeps ?_ ?_)
    | (with_reducible refine ite_keeps ?_ ?_)
    | split
    | dsimp only [id])

theorem State.coreFault_keeps (u : Keeps [.cores] P) {a0 : Nat} {a1 : BitVec 3} {a2 : Nat} {a3 : Nat} {a4 : BitVec 13} (k : P s) : P (State.coreFault a0 a1 a2 a3 a4 s) := by
  unfold State.coreFault
  repeat' (first
    | with_reducible assumption
    | (with_reducible refine u.mono ?_; decide)
    | (with_reducible refine State.modCore_keeps ?_ ?_)
    | (with_reducible refine ite_keeps ?_ ?_)
    | split
    | dsimp only [id])

theorem State.machineCheck_keeps (u : Keeps [.freeCtr, .enc, .dec, .cmp, .cores, .drm, .blw, .irc, .log, .sem, .flt, .grt] P) {a0 : Nat} {a1 : BitVec 3} {a2 : Bool} {a3 : Nat} {a4 : Nat} {a5 : BitVec 13} (k : P s) : P (State.machineCheck a0 a1 a2 a3 a4 a5 s) := by
  unfold State.machineCheck
  repeat' (first
    | with_reducible assumption
    | (with_reducible refine u.mono ?_; decide)
    | (intro _ h; exact h)
    | (intro h; exact h)
    | (intro _; rfl)
    | (with_reducible refine State.restartCore_keeps ?_ ?_)
    | (with_reducible refine State.recordContained_keeps ?_ ?_)
    | (with_reducible refine State.coreFault_keeps ?_ ?_)
    | (with_reducible refine State.modCore_keeps ?_ ?_)
    | (with_reducible refine State.fenceCore_keeps ?_ ?_)
    | (with_reducible refine ite_keeps ?_ ?_)
    | split
    | dsimp only [id])

theorem State.tileReadBad_keeps (u : Keeps [.dec, .blw] P) {a0 : Nat} {a1 : Nat} {a2 : Nat} (k : P s) : P (State.tileReadBad a0 a1 a2 s) := by
  unfold State.tileReadBad
  repeat' (first
    | with_reducible assumption
    | (with_reducible refine u.mono ?_; decide)
    | (with_reducible refine State.decError_keeps ?_ ?_)
    | (with_reducible refine State.modTask_keeps ?_ ?_)
    | (with_reducible refine ite_keeps ?_ ?_)
    | split
    | dsimp only [id])

theorem State.coreReadBad_keeps (u : Keeps [.enc, .dec, .blw, .grt] P) {a0 : Nat} {a1 : Sys2Proof.CoreUse} (k : P s) : P (State.coreReadBad a0 a1 s) := by
  unfold State.coreReadBad
  repeat' (first
    | with_reducible assumption
    | (with_reducible refine u.mono ?_; decide)
    | (with_reducible refine State.encRestart_keeps ?_ ?_)
    | (with_reducible refine State.tileReadBad_keeps ?_ ?_)
    | (with_reducible refine ite_keeps ?_ ?_)
    | split
    | dsimp only [id])

theorem State.fillBad_keeps (u : Keeps [.enc, .dec, .blw, .grt] P) {a0 : Nat} (k : P s) : P (State.fillBad a0 s) := by
  unfold State.fillBad
  repeat' (first
    | with_reducible assumption
    | (with_reducible refine u.mono ?_; decide)
    | (with_reducible refine State.encRestart_keeps ?_ ?_)
    | (with_reducible refine State.each_keeps (fun _ _ _ => ?_) ?_)
    | (with_reducible refine State.tileReadBad_keeps ?_ ?_)
    | (with_reducible refine ite_keeps ?_ ?_)
    | split
    | dsimp only [id])

theorem execCorFaultClear_keeps (u : Keeps [.cores] P) {a0 : Nat} {a1 : Sys2Proof.Word} (k : P s) : ∀ t, execCorFaultClear a0 a1 s = .next t → P t := by
  intro t e
  injection e with e
  rw [← e]
  clear e
  repeat' (first
    | with_reducible assumption
    | (with_reducible refine u.mono ?_; decide)
    | (with_reducible refine nextOr_keeps (ok_keeps ?_) ?_)
    | (with_reducible refine State.modCore_keeps ?_ ?_)
    | (with_reducible refine ite_keeps ?_ ?_)
    | split
    | dsimp only [id])

theorem State.swapBank_keeps (u : Keeps [.cores, .irc, .log, .sem] P) {a0 : Nat} (k : P s) : P (State.swapBank a0 s) := by
  unfold State.swapBank
  repeat' (first
    | with_reducible assumption
    | (with_reducible refine u.mono ?_; decide)
    | (intro _ h; exact h)
    | (intro h; exact h)
    | (intro _; rfl)
    | (with_reducible refine State.latch_keeps ?_ ?_)
    | (with_reducible refine State.modCore_keeps ?_ ?_)
    | (with_reducible refine State.semBreakOwners_keeps ?_ ?_)
    | (with_reducible refine foldl_fst_keeps (fun _ _ _ => ?_) ?_)
    | (with_reducible refine foldl_keeps (fun _ _ _ => ?_) ?_)
    | (with_reducible refine ite_keeps ?_ ?_)
    | split
    | dsimp only [id])

theorem execPtnSwap_keeps (u : Keeps [.enc, .cores, .irc, .log, .sem, .grt] P) {a0 : Nat} (k : P s) : ∀ t, execPtnSwap a0 s = .next t → P t := by
  intro t e
  injection e with e
  rw [← e]
  clear e
  repeat' (first
    | with_reducible assumption
    | (with_reducible refine u.mono ?_; decide)
    | (intro _ h; exact h)
    | (intro h; exact h)
    | (intro _; rfl)
    | (with_reducible refine nextOr_keeps (ok_keeps ?_) ?_)
    | (with_reducible refine State.newIdentities_keeps ?_ ?_)
    | (with_reducible refine State.swapBank_keeps ?_ ?_)
    | (with_reducible refine ite_keeps ?_ ?_)
    | split
    | dsimp only [id])

theorem State.deadlockClass_keeps (u : Keeps [.freeCtr, .enc, .dec, .cmp, .cores, .drm, .blw, .irc, .log, .sem, .flt, .grt] P) {a0 : Nat} {a1 : BitVec 3} {a2 : Nat} {a3 : BitVec 13} (k : P s) : P (State.deadlockClass a0 a1 a2 a3 s) := by
  unfold State.deadlockClass
  repeat' (first
    | with_reducible assumption
    | (with_reducible refine u.mono ?_; decide)
    | (intro _ h; exact h)
    | (intro h; exact h)
    | (intro _; rfl)
    | (with_reducible refine State.restartCore_keeps ?_ ?_)
    | (with_reducible refine State.recordContained_keeps ?_ ?_)
    | (with_reducible refine State.coreFault_keeps ?_ ?_)
    | (with_reducible refine State.modCore_keeps ?_ ?_)
    | (with_reducible refine State.fenceCore_keeps ?_ ?_)
    | (with_reducible refine ite_keeps ?_ ?_)
    | split
    | dsimp only [id])

theorem State.dmaIn_keeps (u : Keeps [.freeCtr, .enc, .dec, .cores, .drm, .blw, .glb, .irc, .log, .flt, .grt] P) {a0 : Nat} {a1 : CoreDma} {a2 : Nat} (k : P s) : P (State.dmaIn a0 a1 a2 s) := by
  unfold State.dmaIn
  repeat' (first
    | with_reducible assumption
    | (with_reducible refine u.mono ?_; decide)
    | (intro _ h; exact h)
    | (intro h; exact h)
    | (intro _; rfl)
    | (with_reducible refine State.modDrm_keeps ?_ ?_)
    | (with_reducible refine State.notOwned_keeps ?_ ?_)
    | (with_reducible refine State.readLine_keeps ?_ ?_)
    | (with_reducible refine State.readLine_keeps_of ?_ ?_ (by assumption))
    | (with_reducible refine State.takeSlot_keeps ?_ ?_)
    | (with_reducible refine State.modCore_keeps ?_ ?_)
    | (with_reducible refine State.fillBad_keeps ?_ ?_)
    | (with_reducible refine ite_keeps ?_ ?_)
    | split
    | dsimp only [id])

theorem State.dmaOut_keeps (u : Keeps [.freeCtr, .drm, .blw, .glb, .irc, .log, .flt] P) {a0 : Nat} {a1 : CoreDma} {a2 : Nat} (k : P s) : P (State.dmaOut a0 a1 a2 s) := by
  unfold State.dmaOut
  repeat' (first
    | with_reducible assumption
    | (with_reducible refine u.mono ?_; decide)
    | (intro _ h; exact h)
    | (intro h; exact h)
    | (intro _; rfl)
    | (with_reducible refine State.notOwned_keeps ?_ ?_)
    | (with_reducible refine State.takeSlot_keeps ?_ ?_)
    | (with_reducible refine State.writeLine_keeps ?_ ?_)
    | (with_reducible refine State.narrow_keeps ?_ ?_)
    | (with_reducible refine ite_keeps ?_ ?_)
    | split
    | dsimp only [id])

theorem State.loadWord_keeps (u : Keeps [.sem] P) {a0 : Nat} {a1 : Nat} {a2 : Nat} {a3 : Nat} (k : P s) : P (State.loadWord a0 a1 a2 a3 s).1 := by
  unfold State.loadWord
  repeat' (first
    | with_reducible assumption
    | (with_reducible refine u.mono ?_; decide)
    | (with_reducible refine State.modSemS_keeps ?_ ?_)
    | (with_reducible refine ite_keeps ?_ ?_)
    | split
    | dsimp only [id])
theorem State.loadWord_keeps_of (u : Keeps [.sem] P) {a0 : Nat} {a1 : Nat} {a2 : Nat} {a3 : Nat} {t r} (k : P s) (e : State.loadWord a0 a1 a2 a3 s = (t, r)) : P t := by
  have h := State.loadWord_keeps (P := P) u (a0 := a0) (a1 := a1) (a2 := a2) (a3 := a3) k
  rw [e] at h
  exact h

theorem State.storeWord_keeps (u : Keeps [.cores, .log, .sem] P) {a0 : Nat} {a1 : Nat} {a2 : Nat} {a3 : Nat} {a4 : Sys2Proof.Word} (k : P s) : P (State.storeWord a0 a1 a2 a3 a4 s) := by
  unfold State.storeWord
  repeat' (first
    | with_reducible assumption
    | (with_reducible refine u.mono ?_; decide)
    | (with_reducible refine State.modCore_keeps ?_ ?_)
    | (with_reducible refine State.semRelease_keeps ?_ ?_)
    | (with_reducible refine State.semRecover_keeps ?_ ?_)
    | (with_reducible refine State.semBreakOp_keeps ?_ ?_)
    | (with_reducible refine ite_keeps ?_ ?_)
    | split
    | dsimp only [id])

theorem State.issueWord_keeps (u : Keeps [.cores, .log, .sem] P) {a0 : Nat} {a1 : Nat} {a2 : MWord} (k : P s) : P (State.issueWord a0 a1 a2 s) := by
  unfold State.issueWord
  repeat' (first
    | with_reducible assumption
    | (with_reducible refine u.mono ?_; decide)
    | (with_reducible refine State.loadWord_keeps ?_ ?_)
    | (with_reducible refine State.loadWord_keeps_of ?_ ?_ (by assumption))
    | (with_reducible refine State.storeWord_keeps ?_ ?_)
    | (with_reducible refine State.modCore_keeps ?_ ?_)
    | (with_reducible refine ite_keeps ?_ ?_)
    | split
    | dsimp only [id])

theorem State.moveLines_keeps (u : Keeps [.freeCtr, .enc, .dec, .cores, .drm, .blw, .glb, .irc, .log, .flt, .grt] P) {a0 : Nat} {a1 : Nat} {a2 : CoreDma} (k : P s) : P (State.moveLines a0 a1 a2 s).2 := by
  induction a1 generalizing s a2 with
  | zero => exact k
  | succ n ih =>
    unfold State.moveLines
    dsimp only
    split
    · exact k
    · refine ih ?_
      split
      · exact State.dmaIn_keeps (u.mono (by decide)) k
      · exact State.dmaOut_keeps (u.mono (by decide)) k
theorem State.moveLines_keeps_of (u : Keeps [.freeCtr, .enc, .dec, .cores, .drm, .blw, .glb, .irc, .log, .flt, .grt] P) {a0 : Nat} {a1 : Nat} {a2 : CoreDma} {t r} (k : P s) (e : State.moveLines a0 a1 a2 s = (r, t)) : P t := by
  have h := State.moveLines_keeps (P := P) u (a0 := a0) (a1 := a1) (a2 := a2) k
  rw [e] at h
  exact h

theorem State.moveDma_keeps (u : Keeps [.freeCtr, .enc, .dec, .cores, .drm, .blw, .glb, .irc, .log, .flt, .grt] P) {a0 : Nat} {a1 : CoreDma} (k : P s) : P (State.moveDma a0 a1 s) := by
  unfold State.moveDma
  repeat' (first
    | with_reducible assumption
    | (with_reducible refine u.mono ?_; decide)
    | (intro _ h; exact h)
    | (intro h; exact h)
    | (intro _; rfl)
    | (with_reducible refine State.moveLines_keeps ?_ ?_)
    | (with_reducible refine State.moveLines_keeps_of ?_ ?_ (by assumption))
    | (with_reducible refine State.modCore_keeps ?_ ?_)
    | (with_reducible refine State.coreEvent_keeps ?_ ?_)
    | (with_reducible refine ite_keeps ?_ ?_)
    | split
    | dsimp only [id])

theorem execMicrowordIssue_keeps (u : Keeps [.freeCtr, .enc, .dec, .cmp, .cores, .drm, .blw, .irc, .log, .sem, .flt, .grt] P) {a0 : Nat} (k : P s) : ∀ t, execMicrowordIssue a0 s = .next t → P t := by
  intro t e
  injection e with e
  rw [← e]
  clear e
  repeat' (first
    | with_reducible assumption
    | (with_reducible refine u.mono ?_; decide)
    | (intro _ h; exact h)
    | (intro h; exact h)
    | (intro _; rfl)
    | (with_reducible refine nextOr_keeps (ok_keeps ?_) ?_)
    | (with_reducible refine State.modCore_keeps ?_ ?_)
    | (with_reducible refine State.machineCheck_keeps ?_ ?_)
    | (with_reducible refine State.deadlockClass_keeps ?_ ?_)
    | (with_reducible refine State.issueWord_keeps ?_ ?_)
    | (with_reducible refine ite_keeps ?_ ?_)
    | split
    | dsimp only [id])

theorem execFillDone_keeps (u : Keeps [.freeCtr, .enc, .dec, .cores, .drm, .blw, .glb, .irc, .log, .flt, .grt] P) {a0 : Nat} (k : P s) : ∀ t, execFillDone a0 s = .next t → P t := by
  intro t e
  injection e with e
  rw [← e]
  clear e
  repeat' (first
    | with_reducible assumption
    | (with_reducible refine u.mono ?_; decide)
    | (intro _ h; exact h)
    | (intro h; exact h)
    | (intro _; rfl)
    | (with_reducible refine nextOr_keeps (ok_keeps ?_) ?_)
    | (with_reducible refine State.moveDma_keeps ?_ ?_)
    | (with_reducible refine ite_keeps ?_ ?_)
    | split
    | dsimp only [id])

theorem execDrainDone_keeps (u : Keeps [.freeCtr, .enc, .dec, .cores, .drm, .blw, .glb, .irc, .log, .flt, .grt] P) {a0 : Nat} (k : P s) : ∀ t, execDrainDone a0 s = .next t → P t := by
  intro t e
  injection e with e
  rw [← e]
  clear e
  repeat' (first
    | with_reducible assumption
    | (with_reducible refine u.mono ?_; decide)
    | (intro _ h; exact h)
    | (intro h; exact h)
    | (intro _; rfl)
    | (with_reducible refine nextOr_keeps (ok_keeps ?_) ?_)
    | (with_reducible refine State.moveDma_keeps ?_ ?_)
    | (with_reducible refine ite_keeps ?_ ?_)
    | split
    | dsimp only [id])

theorem execBankReloadDone_keeps (u : Keeps [.freeCtr, .enc, .dec, .cmp, .cores, .drm, .blw, .irc, .log, .sem, .grt] P) {a0 : Nat} {a1 : Bool} (k : P s) : ∀ t, execBankReloadDone a0 a1 s = .next t → P t := by
  intro t e
  injection e with e
  rw [← e]
  clear e
  repeat' (first
    | with_reducible assumption
    | (with_reducible refine u.mono ?_; decide)
    | (intro _ h; exact h)
    | (intro h; exact h)
    | (intro _; rfl)
    | (with_reducible refine nextOr_keeps (ok_keeps ?_) ?_)
    | (with_reducible refine State.fenceCore_keeps ?_ ?_)
    | (with_reducible refine State.modCore_keeps ?_ ?_)
    | (with_reducible refine ite_keeps ?_ ?_)
    | split
    | dsimp only [id])

theorem execUnitDone_keeps (u : Keeps [.cores, .blw] P) {a0 : Nat} {a1 : BitVec 3} {a2 : BitVec 4} {a3 : BitVec 4} (k : P s) : ∀ t, execUnitDone a0 a1 a2 a3 s = .next t → P t := by
  intro t e
  injection e with e
  rw [← e]
  clear e
  repeat' (first
    | with_reducible assumption
    | (with_reducible refine u.mono ?_; decide)
    | (with_reducible refine nextOr_keeps (ok_keeps ?_) ?_)
    | (with_reducible refine State.wakeCore_keeps ?_ ?_)
    | (with_reducible refine State.modCore_keeps ?_ ?_)
    | (with_reducible refine ite_keeps ?_ ?_)
    | split
    | dsimp only [id])

theorem execExternalEvent_keeps (u : Keeps [.cores, .blw] P) {a0 : Nat} {a1 : Nat} (k : P s) : ∀ t, execExternalEvent a0 a1 s = .next t → P t := by
  intro t e
  injection e with e
  rw [← e]
  clear e
  repeat' (first
    | with_reducible assumption
    | (with_reducible refine u.mono ?_; decide)
    | (with_reducible refine nextOr_keeps (ok_keeps ?_) ?_)
    | (with_reducible refine State.modCore_keeps ?_ ?_)
    | (with_reducible refine State.coreEvent_keeps ?_ ?_)
    | (with_reducible refine ite_keeps ?_ ?_)
    | split
    | dsimp only [id])

theorem execDeadlock_keeps (u : Keeps [.freeCtr, .enc, .dec, .cmp, .cores, .drm, .blw, .irc, .log, .sem, .flt, .grt] P) {a0 : Nat} (k : P s) : ∀ t, execDeadlock a0 s = .next t → P t := by
  intro t e
  injection e with e
  rw [← e]
  clear e
  repeat' (first
    | with_reducible assumption
    | (with_reducible refine u.mono ?_; decide)
    | (intro _ h; exact h)
    | (intro h; exact h)
    | (intro _; rfl)
    | (with_reducible refine nextOr_keeps (ok_keeps ?_) ?_)
    | (with_reducible refine State.deadlockClass_keeps ?_ ?_)
    | (with_reducible refine ite_keeps ?_ ?_)
    | split
    | dsimp only [id])

theorem execCoreC1Entry_keeps (u : Keeps [.cores] P) {a0 : Nat} (k : P s) : ∀ t, execCoreC1Entry a0 s = .next t → P t := by
  intro t e
  injection e with e
  rw [← e]
  clear e
  repeat' (first
    | with_reducible assumption
    | (with_reducible refine u.mono ?_; decide)
    | (with_reducible refine nextOr_keeps (ok_keeps ?_) ?_)
    | (with_reducible refine State.modCore_keeps ?_ ?_)
    | (with_reducible refine ite_keeps ?_ ?_)
    | split
    | dsimp only [id])

theorem execCorePowerDown_keeps (u : Keeps [.freeCtr, .cores, .blw, .log, .sem] P) {a0 : Nat} {a1 : Sys2Proof.PState} (k : P s) : ∀ t, execCorePowerDown a0 a1 s = .next t → P t := by
  intro t e
  injection e with e
  rw [← e]
  clear e
  repeat' (first
    | with_reducible assumption
    | (with_reducible refine u.mono ?_; decide)
    | (with_reducible refine nextOr_keeps (ok_keeps ?_) ?_)
    | (with_reducible refine State.powerDown_keeps ?_ ?_)
    | (with_reducible refine ite_keeps ?_ ?_)
    | split
    | dsimp only [id])

theorem execCoreWake_keeps (u : Keeps [.cores, .blw] P) {a0 : Nat} (k : P s) : ∀ t, execCoreWake a0 s = .next t → P t := by
  intro t e
  injection e with e
  rw [← e]
  clear e
  repeat' (first
    | with_reducible assumption
    | (with_reducible refine u.mono ?_; decide)
    | (with_reducible refine nextOr_keeps (ok_keeps ?_) ?_)
    | (with_reducible refine State.wakeCore_keeps ?_ ?_)
    | (with_reducible refine ite_keeps ?_ ?_)
    | split
    | dsimp only [id])

theorem execCoreWakeDone_keeps (u : Keeps [.cores] P) {a0 : Nat} (k : P s) : ∀ t, execCoreWakeDone a0 s = .next t → P t := by
  intro t e
  injection e with e
  rw [← e]
  clear e
  repeat' (first
    | with_reducible assumption
    | (with_reducible refine u.mono ?_; decide)
    | (with_reducible refine nextOr_keeps (ok_keeps ?_) ?_)
    | (with_reducible refine State.modCore_keeps ?_ ?_)
    | (with_reducible refine ite_keeps ?_ ?_)
    | split
    | dsimp only [id])

theorem execPatternStoreWrite_keeps (u : Keeps [.cores, .glb] P) {a0 : Sys2Proof.Writer} {a1 : Nat} {a2 : Bool} {a3 : BitVec 13} {a4 : BitVec 160} (k : P s) : ∀ t, execPatternStoreWrite a0 a1 a2 a3 a4 s = .next t → P t := by
  intro t e
  injection e with e
  rw [← e]
  clear e
  repeat' (first
    | with_reducible assumption
    | (with_reducible refine u.mono ?_; decide)
    | (with_reducible refine nextOr_keeps (ok_keeps ?_) ?_)
    | (with_reducible refine State.werr_keeps ?_ ?_)
    | (with_reducible refine State.modCore_keeps ?_ ?_)
    | (with_reducible refine ite_keeps ?_ ?_)
    | split
    | dsimp only [id])

end Sys2Proof.Machine
end

