-- ==== Sys2Proof/Laws/FlashOps.lean ====
section
/-! SUPPORT. What each operation of FlashOps keeps. -/

namespace Sys2Proof.Machine

set_option linter.unreachableTactic false
set_option linter.unusedTactic false

variable {P : State → Prop} {s : State}

/-- An operation of the flash keeps the canonical form. -/
theorem Store.operate_wf (x : Store) (m : Memory) (k : Memory.wf m erased) : Memory.wf (x.operate m).1 erased := by
  unfold Store.operate
  split
  · exact Tbl.filter_canon m erased _ k
  · exact putBytes_wf _ _ _ _ k

theorem State.startOp_keeps (u : Keeps [.fsh, .log] P) (k : P s) : P (State.startOp s) := by
  unfold State.startOp
  repeat' (first
    | with_reducible assumption
    | (with_reducible refine u.mono ?_; decide)
    | (intro _ h; exact h)
    | (intro h; exact h)
    | (intro _; rfl)
    | (with_reducible refine State.whenB_keeps (fun _ _ => ?_) ?_)
    | (with_reducible refine State.raise_keeps ?_ ?_)
    | (with_reducible refine State.modFsh_keeps ?_ ?_ ?_)
    | (with_reducible refine ite_keeps ?_ ?_)
    | split
    | dsimp only [id])

theorem State.queueStores_keeps (u : Keeps [.fsh, .log] P) {a0 : List Store} (k : P s) : P (State.queueStores a0 s) := by
  unfold State.queueStores
  repeat' (first
    | with_reducible assumption
    | (with_reducible refine u.mono ?_; decide)
    | (intro _ h; exact h)
    | (intro h; exact h)
    | (intro _; rfl)
    | (with_reducible refine State.startOp_keeps ?_ ?_)
    | (with_reducible refine State.modFsh_keeps ?_ ?_ ?_)
    | (with_reducible refine ite_keeps ?_ ?_)
    | split
    | dsimp only [id])

theorem State.storeAdoption_keeps (u : Keeps [.freeCtr, .fsh, .log] P) {a0 : Adoption} {a1 : Sys2Proof.Byte} (k : P s) : P (State.storeAdoption a0 a1 s) := by
  unfold State.storeAdoption
  repeat' (first
    | with_reducible assumption
    | (with_reducible refine u.mono ?_; decide)
    | (intro _ h; exact h)
    | (intro h; exact h)
    | (intro _; rfl)
    | (with_reducible refine State.tickFree_keeps ?_ ?_)
    | (with_reducible refine State.modFsh_keeps ?_ ?_ ?_)
    | (with_reducible refine State.queueStores_keeps ?_ ?_)
    | (with_reducible refine ite_keeps ?_ ?_)
    | split
    | dsimp only [id])

theorem State.storeRetirement_keeps (u : Keeps [.freeCtr, .fsh, .log] P) (k : P s) : P (State.storeRetirement s) := by
  unfold State.storeRetirement
  repeat' (first
    | with_reducible assumption
    | (with_reducible refine u.mono ?_; decide)
    | (intro _ h; exact h)
    | (intro h; exact h)
    | (intro _; rfl)
    | (with_reducible refine State.tickFree_keeps ?_ ?_)
    | (with_reducible refine State.modFsh_keeps ?_ ?_ ?_)
    | (with_reducible refine State.queueStores_keeps ?_ ?_)
    | (with_reducible refine ite_keeps ?_ ?_)
    | split
    | dsimp only [id])

end Sys2Proof.Machine
end

