-- ==== Sys2Proof/Laws/Modes.lean ====
section
/-! SUPPORT. What each operation of Modes keeps. -/

namespace Sys2Proof.Machine

set_option linter.unreachableTactic false
set_option linter.unusedTactic false

variable {P : State → Prop} {s : State}

theorem State.wake_keeps (u : Keeps [.glb] P) (k : P s) : P (State.wake s) := by
  unfold State.wake
  repeat' (first
    | with_reducible assumption
    | (with_reducible refine u.mono ?_; decide)
    | (with_reducible refine State.modGlb_keeps ?_ ?_)
    | (with_reducible refine ite_keeps ?_ ?_)
    | split
    | dsimp only [id])

theorem State.dropCoded_keeps (u : Keeps [.run, .blw, .glb, .irc, .log, .flt] P) (k : P s) : P (State.dropCoded s) := by
  unfold State.dropCoded
  repeat' (first
    | with_reducible assumption
    | (with_reducible refine u.mono ?_; decide)
    | (intro _ h; exact h)
    | (intro h; exact h)
    | (intro _; rfl)
    | (with_reducible refine State.modRun_keeps ?_ ?_)
    | (with_reducible refine State.each_keeps (fun _ _ _ => ?_) ?_)
    | (with_reducible refine State.modFlow_keeps ?_ ?_)
    | (with_reducible refine State.freePkt_keeps ?_ ?_)
    | (with_reducible refine State.modVoq_keeps ?_ ?_)
    | (with_reducible refine ite_keeps ?_ ?_)
    | split
    | dsimp only [id])

theorem State.gateAll_keeps (u : Keeps [.out] P) {a0 : Bool} (k : P s) : P (State.gateAll a0 s) := by
  unfold State.gateAll
  repeat' (first
    | with_reducible assumption
    | (with_reducible refine u.mono ?_; decide)
    | (with_reducible refine State.each_keeps (fun _ _ _ => ?_) ?_)
    | (with_reducible refine State.modOutP_keeps ?_ ?_)
    | (with_reducible refine ite_keeps ?_ ?_)
    | split
    | dsimp only [id])

theorem State.emitHeartbeat_keeps (u : Keeps [.glb, .grt] P) (k : P s) : P (State.emitHeartbeat s) := by
  unfold State.emitHeartbeat
  repeat' (first
    | with_reducible assumption
    | (with_reducible refine u.mono ?_; decide)
    | (with_reducible refine State.modGlb_keeps ?_ ?_)
    | (with_reducible refine State.modGrt_keeps ?_ ?_)
    | (with_reducible refine ite_keeps ?_ ?_)
    | split
    | dsimp only [id])

theorem State.handOver_keeps (u : Keeps [.out, .run, .blw, .glb, .irc, .log, .flt, .grt] P) {a0 : Bool} (k : P s) : P (State.handOver a0 s) := by
  unfold State.handOver
  repeat' (first
    | with_reducible assumption
    | (with_reducible refine u.mono ?_; decide)
    | (intro _ h; exact h)
    | (intro h; exact h)
    | (intro _; rfl)
    | (with_reducible refine State.dropCoded_keeps ?_ ?_)
    | (with_reducible refine State.modGlb_keeps ?_ ?_)
    | (with_reducible refine State.gPut_keeps ?_ ?_)
    | (with_reducible refine State.limited_keeps ?_ (fun _ _ => ?_) ?_)
    | (with_reducible refine State.raise_keeps ?_ ?_)
    | (with_reducible refine State.gateAll_keeps ?_ ?_)
    | (with_reducible refine State.emitHeartbeat_keeps ?_ ?_)
    | (with_reducible refine ite_keeps ?_ ?_)
    | split
    | dsimp only [id])

theorem State.stampEnd_keeps (u : Keeps [.glb] P) {a0 : Nat} (k : P s) : P (State.stampEnd a0 s) := by
  unfold State.stampEnd
  repeat' (first
    | with_reducible assumption
    | (with_reducible refine u.mono ?_; decide)
    | (with_reducible refine State.modGlb_keeps ?_ ?_)
    | (with_reducible refine ite_keeps ?_ ?_)
    | split
    | dsimp only [id])

theorem State.enterService_keeps (u : Keeps [.out, .glb, .irc, .log] P) {a0 : Mode} {a1 : Role} (k : P s) : P (State.enterService a0 a1 s) := by
  unfold State.enterService
  repeat' (first
    | with_reducible assumption
    | (with_reducible refine u.mono ?_; decide)
    | (intro _ h; exact h)
    | (intro h; exact h)
    | (intro _; rfl)
    | (with_reducible refine State.gateAll_keeps ?_ ?_)
    | (with_reducible refine State.setMode_keeps ?_ ?_)
    | (with_reducible refine ite_keeps ?_ ?_)
    | split
    | dsimp only [id])

theorem State.takeRole_keeps (u : Keeps [.out, .glb, .irc, .log] P) (k : P s) : P (State.takeRole s) := by
  unfold State.takeRole
  repeat' (first
    | with_reducible assumption
    | (with_reducible refine u.mono ?_; decide)
    | (intro _ h; exact h)
    | (intro h; exact h)
    | (intro _; rfl)
    | (with_reducible refine State.stampEnd_keeps ?_ ?_)
    | (with_reducible refine State.modGlb_keeps ?_ ?_)
    | (with_reducible refine State.enterService_keeps ?_ ?_)
    | (with_reducible refine ite_keeps ?_ ?_)
    | split
    | dsimp only [id])

theorem State.adoptOutcome_keeps (u : Keeps [.glb] P) {a0 : BitVec 3} (k : P s) : P (State.adoptOutcome a0 s) := by
  unfold State.adoptOutcome
  repeat' (first
    | with_reducible assumption
    | (with_reducible refine u.mono ?_; decide)
    | (with_reducible refine State.modGlb_keeps ?_ ?_)
    | (with_reducible refine ite_keeps ?_ ?_)
    | split
    | dsimp only [id])

theorem State.writeAdoption_keeps (u : Keeps [.freeCtr, .fsh, .glb, .log] P) {a0 : Sys2Proof.Byte} (k : P s) : P (State.writeAdoption a0 s) := by
  unfold State.writeAdoption
  repeat' (first
    | with_reducible assumption
    | (with_reducible refine u.mono ?_; decide)
    | (intro _ h; exact h)
    | (intro h; exact h)
    | (intro _; rfl)
    | (with_reducible refine State.storeAdoption_keeps ?_ ?_)
    | (with_reducible refine State.modGlb_keeps ?_ ?_)
    | (with_reducible refine ite_keeps ?_ ?_)
    | split
    | dsimp only [id])

theorem State.enterDegraded_keeps (u : Keeps [.out, .glb, .irc, .log] P) (k : P s) : P (State.enterDegraded s) := by
  unfold State.enterDegraded
  repeat' (first
    | with_reducible assumption
    | (with_reducible refine u.mono ?_; decide)
    | (intro _ h; exact h)
    | (intro h; exact h)
    | (intro _; rfl)
    | (with_reducible refine State.gateAll_keeps ?_ ?_)
    | (with_reducible refine State.setMode_keeps ?_ ?_)
    | (with_reducible refine State.modGlb_keeps ?_ ?_)
    | (with_reducible refine ite_keeps ?_ ?_)
    | split
    | dsimp only [id])

theorem State.fenceOutcome_keeps (u : Keeps [.out, .run, .blw, .glb, .irc, .log, .flt, .grt] P) (k : P s) : P (State.fenceOutcome s) := by
  unfold State.fenceOutcome
  repeat' (first
    | with_reducible assumption
    | (with_reducible refine u.mono ?_; decide)
    | (intro _ h; exact h)
    | (intro h; exact h)
    | (intro _; rfl)
    | (with_reducible refine State.modGlb_keeps ?_ ?_)
    | (with_reducible refine State.enterDegraded_keeps ?_ ?_)
    | (with_reducible refine State.handOver_keeps ?_ ?_)
    | (with_reducible refine ite_keeps ?_ ?_)
    | split
    | dsimp only [id])

theorem State.takeStream_keeps (u : Keeps [.enc, .run] P) {a0 : Nat} (k : P s) : P (State.takeStream a0 s) := by
  unfold State.takeStream
  repeat' (first
    | with_reducible assumption
    | (with_reducible refine u.mono ?_; decide)
    | (with_reducible refine State.modEncS_keeps ?_ ?_)
    | (with_reducible refine State.each_keeps (fun _ _ _ => ?_) ?_)
    | (with_reducible refine State.sendPacket_keeps ?_ ?_)
    | (with_reducible refine ite_keeps ?_ ?_)
    | split
    | dsimp only [id])

theorem State.takeover_keeps (u : Keeps [.enc, .out, .run, .blw, .glb, .irc, .log, .sem] P) {a0 : Nat} (k : P s) : P (State.takeover a0 s) := by
  unfold State.takeover
  repeat' (first
    | with_reducible assumption
    | (with_reducible refine u.mono ?_; decide)
    | (intro _ h; exact h)
    | (intro h; exact h)
    | (intro _; rfl)
    | (with_reducible refine State.modGlb_keeps ?_ ?_)
    | (with_reducible refine State.limited_keeps ?_ (fun _ _ => ?_) ?_)
    | (with_reducible refine State.raise_keeps ?_ ?_)
    | (with_reducible refine State.setMode_keeps ?_ ?_)
    | (with_reducible refine State.semBreakOwners_keeps ?_ ?_)
    | (with_reducible refine State.each_keeps (fun _ _ _ => ?_) ?_)
    | (with_reducible refine State.takeStream_keeps ?_ ?_)
    | (with_reducible refine State.wantAdmission_keeps ?_ ?_)
    | (with_reducible refine State.gateAll_keeps ?_ ?_)
    | (with_reducible refine ite_keeps ?_ ?_)
    | split
    | dsimp only [id])

theorem State.wakeBy_keeps (u : Keeps [.glb] P) {a0 : Bool} (k : P s) : P (State.wakeBy a0 s) := by
  unfold State.wakeBy
  repeat' (first
    | with_reducible assumption
    | (with_reducible refine u.mono ?_; decide)
    | (with_reducible refine State.wake_keeps ?_ ?_)
    | (with_reducible refine ite_keeps ?_ ?_)
    | split
    | dsimp only [id])

theorem State.adoptStep_keeps (u : Keeps [.freeCtr, .out, .fsh, .glb, .irc, .log] P) (k : P s) : P (State.adoptStep s) := by
  unfold State.adoptStep
  repeat' (first
    | with_reducible assumption
    | (with_reducible refine u.mono ?_; decide)
    | (intro _ h; exact h)
    | (intro h; exact h)
    | (intro _; rfl)
    | (with_reducible refine State.takeRole_keeps ?_ ?_)
    | (with_reducible refine State.adoptOutcome_keeps ?_ ?_)
    | (with_reducible refine State.writeAdoption_keeps ?_ ?_)
    | (with_reducible refine State.raise_keeps ?_ ?_)
    | (with_reducible refine State.modGlb_keeps ?_ ?_)
    | (with_reducible refine ite_keeps ?_ ?_)
    | split
    | dsimp only [id])

theorem State.endDemotion_keeps (u : Keeps [.out, .glb, .irc, .log] P) (k : P s) : P (State.endDemotion s) := by
  unfold State.endDemotion
  repeat' (first
    | with_reducible assumption
    | (with_reducible refine u.mono ?_; decide)
    | (intro _ h; exact h)
    | (intro h; exact h)
    | (intro _; rfl)
    | (with_reducible refine State.enterService_keeps ?_ ?_)
    | (with_reducible refine State.modGlb_keeps ?_ ?_)
    | (with_reducible refine ite_keeps ?_ ?_)
    | split
    | dsimp only [id])

theorem State.endTakeover_keeps (u : Keeps [.out, .run, .blw, .glb, .irc, .log, .flt, .grt] P) (k : P s) : P (State.endTakeover s) := by
  unfold State.endTakeover
  repeat' (first
    | with_reducible assumption
    | (with_reducible refine u.mono ?_; decide)
    | (intro _ h; exact h)
    | (intro h; exact h)
    | (intro _; rfl)
    | (with_reducible refine State.whenB_keeps (fun _ _ => ?_) ?_)
    | (with_reducible refine State.fenceOutcome_keeps ?_ ?_)
    | (with_reducible refine State.modGlb_keeps ?_ ?_)
    | (with_reducible refine State.setMode_keeps ?_ ?_)
    | (with_reducible refine ite_keeps ?_ ?_)
    | split
    | dsimp only [id])

theorem State.pairUp_keeps (u : Keeps [.out, .glb, .irc, .log] P) (k : P s) : P (State.pairUp s) := by
  unfold State.pairUp
  repeat' (first
    | with_reducible assumption
    | (with_reducible refine u.mono ?_; decide)
    | (intro _ h; exact h)
    | (intro h; exact h)
    | (intro _; rfl)
    | (with_reducible refine State.enterService_keeps ?_ ?_)
    | (with_reducible refine ite_keeps ?_ ?_)
    | split
    | dsimp only [id])

theorem State.rewriteTwin_keeps (u : Keeps [.freeCtr, .fsh, .glb, .log] P) (k : P s) : P (State.rewriteTwin s) := by
  unfold State.rewriteTwin
  repeat' (first
    | with_reducible assumption
    | (with_reducible refine u.mono ?_; decide)
    | (intro _ h; exact h)
    | (intro h; exact h)
    | (intro _; rfl)
    | (with_reducible refine State.writeAdoption_keeps ?_ ?_)
    | (with_reducible refine ite_keeps ?_ ?_)
    | split
    | dsimp only [id])

end Sys2Proof.Machine
end

