-- ==== Sys2Proof/Laws/GirthOps.lean ====
section
/-! SUPPORT. What each operation of GirthOps keeps. -/

namespace Sys2Proof.Machine

set_option linter.unreachableTactic false
set_option linter.unusedTactic false

variable {P : State → Prop} {s : State}

theorem State.setLink_keeps (u : Keeps [.irc, .grt] P) {a0 : GrtLink} (k : P s) : P (State.setLink a0 s) := by
  unfold State.setLink
  repeat' (first
    | with_reducible assumption
    | (with_reducible refine u.mono ?_; decide)
    | (intro _ h; exact h)
    | (intro h; exact h)
    | (intro _; rfl)
    | (with_reducible refine State.latch_keeps ?_ ?_)
    | (with_reducible refine State.modGrt_keeps ?_ ?_)
    | (with_reducible refine ite_keeps ?_ ?_)
    | split
    | dsimp only [id])

theorem State.linkFault_keeps (u : Keeps [.enc, .log] P) {a0 : Nat} (k : P s) : P (State.linkFault a0 s) := by
  unfold State.linkFault
  repeat' (first
    | with_reducible assumption
    | (with_reducible refine u.mono ?_; decide)
    | (with_reducible refine State.each_keeps (fun _ _ _ => ?_) ?_)
    | (with_reducible refine State.modEncS_keeps ?_ ?_)
    | (with_reducible refine State.nonDet_keeps ?_ ?_)
    | (with_reducible refine State.limited_keeps ?_ (fun _ _ => ?_) ?_)
    | (with_reducible refine State.raise_keeps ?_ ?_)
    | (with_reducible refine ite_keeps ?_ ?_)
    | split
    | dsimp only [id])

theorem State.twinLost_keeps (u : Keeps [.enc, .log] P) {a0 : Nat} (k : P s) : P (State.twinLost a0 s) := by
  unfold State.twinLost
  repeat' (first
    | with_reducible assumption
    | (with_reducible refine u.mono ?_; decide)
    | (with_reducible refine State.modEnc_keeps ?_ ?_)
    | (with_reducible refine State.limited_keeps ?_ (fun _ _ => ?_) ?_)
    | (with_reducible refine State.raise_keeps ?_ ?_)
    | (with_reducible refine ite_keeps ?_ ?_)
    | split
    | dsimp only [id])

theorem State.judgeTwin_keeps (u : Keeps [.enc, .out, .run, .blw, .glb, .irc, .log, .sem] P) {a0 : Nat} (k : P s) : P (State.judgeTwin a0 s) := by
  unfold State.judgeTwin
  repeat' (first
    | with_reducible assumption
    | (with_reducible refine u.mono ?_; decide)
    | (intro _ h; exact h)
    | (intro h; exact h)
    | (intro _; rfl)
    | (with_reducible refine State.takeover_keeps ?_ ?_)
    | (with_reducible refine State.linkFault_keeps ?_ ?_)
    | (with_reducible refine State.twinLost_keeps ?_ ?_)
    | (with_reducible refine ite_keeps ?_ ?_)
    | split
    | dsimp only [id])

theorem State.linkLost_keeps (u : Keeps [.enc, .out, .run, .blw, .glb, .irc, .log, .sem, .grt] P) {a0 : Nat} (k : P s) : P (State.linkLost a0 s) := by
  unfold State.linkLost
  repeat' (first
    | with_reducible assumption
    | (with_reducible refine u.mono ?_; decide)
    | (intro _ h; exact h)
    | (intro h; exact h)
    | (intro _; rfl)
    | (with_reducible refine State.modGrt_keeps ?_ ?_)
    | (with_reducible refine State.setLink_keeps ?_ ?_)
    | (with_reducible refine State.judgeTwin_keeps ?_ ?_)
    | (with_reducible refine State.semBreakOwners_keeps ?_ ?_)
    | (with_reducible refine ite_keeps ?_ ?_)
    | split
    | dsimp only [id])

theorem State.sendJournal_keeps (u : Keeps [.grt] P) (k : P s) : P (State.sendJournal s) := by
  unfold State.sendJournal
  repeat' (first
    | with_reducible assumption
    | (with_reducible refine u.mono ?_; decide)
    | (with_reducible refine State.each_keeps (fun _ _ _ => ?_) ?_)
    | (with_reducible refine State.gPut_keeps ?_ ?_)
    | (with_reducible refine State.modGrt_keeps ?_ ?_)
    | (with_reducible refine ite_keeps ?_ ?_)
    | split
    | dsimp only [id])

theorem State.bringUp_keeps (u : Keeps [.grt] P) (k : P s) : P (State.bringUp s) := by
  unfold State.bringUp
  repeat' (first
    | with_reducible assumption
    | (with_reducible refine u.mono ?_; decide)
    | (with_reducible refine State.sendJournal_keeps ?_ ?_)
    | (with_reducible refine ite_keeps ?_ ?_)
    | split
    | dsimp only [id])

theorem State.compareImages_keeps (u : Keeps [.log, .grt] P) {a0 : Sys2Proof.IdentInfo} (k : P s) : P (State.compareImages a0 s) := by
  unfold State.compareImages
  repeat' (first
    | with_reducible assumption
    | (with_reducible refine u.mono ?_; decide)
    | (with_reducible refine State.modGrt_keeps ?_ ?_)
    | (with_reducible refine State.limited_keeps ?_ (fun _ _ => ?_) ?_)
    | (with_reducible refine State.raise_keeps ?_ ?_)
    | (with_reducible refine ite_keeps ?_ ?_)
    | split
    | dsimp only [id])

theorem State.gSend_keeps (u : Keeps [.grt] P) {a0 : GMsg} (k : P s) : P (State.gSend a0 s) := by
  unfold State.gSend
  repeat' (first
    | with_reducible assumption
    | (with_reducible refine u.mono ?_; decide)
    | (with_reducible refine State.modGrt_keeps ?_ ?_)
    | (with_reducible refine ite_keeps ?_ ?_)
    | split
    | dsimp only [id])

theorem State.sendIdent_keeps (u : Keeps [.irc, .grt] P) (k : P s) : P (State.sendIdent s) := by
  unfold State.sendIdent
  repeat' (first
    | with_reducible assumption
    | (with_reducible refine u.mono ?_; decide)
    | (intro _ h; exact h)
    | (intro h; exact h)
    | (intro _; rfl)
    | (with_reducible refine State.modGrt_keeps ?_ ?_)
    | (with_reducible refine State.setLink_keeps ?_ ?_)
    | (with_reducible refine State.gSend_keeps ?_ ?_)
    | (with_reducible refine ite_keeps ?_ ?_)
    | split
    | dsimp only [id])

theorem State.twinSeen_keeps (u : Keeps [.freeCtr, .out, .fsh, .glb, .irc, .log, .grt] P) (k : P s) : P (State.twinSeen s) := by
  unfold State.twinSeen
  repeat' (first
    | with_reducible assumption
    | (with_reducible refine u.mono ?_; decide)
    | (intro _ h; exact h)
    | (intro h; exact h)
    | (intro _; rfl)
    | (with_reducible refine State.bringUp_keeps ?_ ?_)
    | (with_reducible refine State.endDemotion_keeps ?_ ?_)
    | (with_reducible refine State.pairUp_keeps ?_ ?_)
    | (with_reducible refine State.rewriteTwin_keeps ?_ ?_)
    | (with_reducible refine State.adoptStep_keeps ?_ ?_)
    | (with_reducible refine ite_keeps ?_ ?_)
    | split
    | dsimp only [id])

theorem State.linkUp_keeps (u : Keeps [.freeCtr, .out, .fsh, .glb, .irc, .log, .grt] P) {a0 : Sys2Proof.IdentInfo} (k : P s) : P (State.linkUp a0 s) := by
  unfold State.linkUp
  repeat' (first
    | with_reducible assumption
    | (with_reducible refine u.mono ?_; decide)
    | (intro _ h; exact h)
    | (intro h; exact h)
    | (intro _; rfl)
    | (with_reducible refine State.modGrt_keeps ?_ ?_)
    | (with_reducible refine State.setLink_keeps ?_ ?_)
    | (with_reducible refine State.limited_keeps ?_ (fun _ _ => ?_) ?_)
    | (with_reducible refine State.raise_keeps ?_ ?_)
    | (with_reducible refine State.twinSeen_keeps ?_ ?_)
    | (with_reducible refine State.compareImages_keeps ?_ ?_)
    | (with_reducible refine ite_keeps ?_ ?_)
    | split
    | dsimp only [id])

theorem State.recv_keeps (u : Keeps [.grt] P) {a0 : Sys2Proof.GHdr} {a1 : State → State} (h1 : ∀ x0, P x0 → P (a1 x0)) (k : P s) : P (State.recv a0 a1 s) := by
  unfold State.recv
  repeat' (first
    | with_reducible assumption
    | (with_reducible refine u.mono ?_; decide)
    | (with_reducible refine State.modGrt_keeps ?_ ?_)
    | (with_reducible refine h1 _ ?_)
    | (with_reducible refine ite_keeps ?_ ?_)
    | split
    | dsimp only [id])

theorem State.recvSeq_keeps (u : Keeps [.grt] P) {a0 : Sys2Proof.GHdr} {a1 : State → State} (h1 : ∀ x0, P x0 → P (a1 x0)) (k : P s) : P (State.recvSeq a0 a1 s) := by
  unfold State.recvSeq
  repeat' (first
    | with_reducible assumption
    | (with_reducible refine u.mono ?_; decide)
    | (with_reducible refine State.recv_keeps ?_ (fun _ _ => ?_) ?_)
    | (with_reducible refine State.modGrt_keeps ?_ ?_)
    | (with_reducible refine h1 _ ?_)
    | (with_reducible refine ite_keeps ?_ ?_)
    | split
    | dsimp only [id])

theorem State.recvUp_keeps (u : Keeps [.grt] P) {a0 : Sys2Proof.GHdr} {a1 : State → State} (h1 : ∀ x0, P x0 → P (a1 x0)) (k : P s) : P (State.recvUp a0 a1 s) := by
  unfold State.recvUp
  repeat' (first
    | with_reducible assumption
    | (with_reducible refine u.mono ?_; decide)
    | (with_reducible refine State.recvSeq_keeps ?_ (fun _ _ => ?_) ?_)
    | (with_reducible refine h1 _ ?_)
    | (with_reducible refine ite_keeps ?_ ?_)
    | split
    | dsimp only [id])

theorem State.trainLink_keeps (u : Keeps [.irc, .grt] P) (k : P s) : P (State.trainLink s) := by
  unfold State.trainLink
  repeat' (first
    | with_reducible assumption
    | (with_reducible refine u.mono ?_; decide)
    | (intro _ h; exact h)
    | (intro h; exact h)
    | (intro _; rfl)
    | (with_reducible refine State.setLink_keeps ?_ ?_)
    | (with_reducible refine ite_keeps ?_ ?_)
    | split
    | dsimp only [id])

theorem State.transmit_keeps (u : Keeps [.grt] P) (k : P s) : P (State.transmit s) := by
  unfold State.transmit
  repeat' (first
    | with_reducible assumption
    | (with_reducible refine u.mono ?_; decide)
    | (with_reducible refine State.modGrt_keeps ?_ ?_)
    | (with_reducible refine ite_keeps ?_ ?_)
    | split
    | dsimp only [id])

end Sys2Proof.Machine
end

