-- ==== Sys2Proof/Laws/RegWrite.lean ====
section
/-! SUPPORT. What each operation of RegWrite keeps. -/

namespace Sys2Proof.Machine

set_option linter.unreachableTactic false
set_option linter.unusedTactic false

variable {P : State → Prop} {s : State}

theorem State.setWindow_keeps (u : Keeps [.cmp] P) {a0 : Nat} {a1 : Nat} {a2 : Sys2Proof.Word} (k : P s) : P (State.setWindow a0 a1 a2 s) := by
  unfold State.setWindow
  repeat' (first
    | with_reducible assumption
    | (with_reducible refine u.mono ?_; decide)
    | (with_reducible refine State.modCmp_keeps ?_ ?_)
    | (with_reducible refine State.modWindow_keeps ?_ ?_)
    | (with_reducible refine ite_keeps ?_ ?_)
    | split
    | dsimp only [id])

theorem State.setPlain_keeps (u : Keeps [.cmp, .run, .blw, .glb, .irc, .tck] P) {a0 : Reg} {a1 : Sys2Proof.Word} (k : P s) : P (State.setPlain a0 a1 s) := by
  unfold State.setPlain
  repeat' (first
    | with_reducible assumption
    | (with_reducible refine u.mono ?_; decide)
    | (intro _ h; exact h)
    | (intro h; exact h)
    | (intro _; rfl)
    | (with_reducible refine State.modGlb_keeps ?_ ?_)
    | (with_reducible refine State.modPart_keeps ?_ ?_)
    | (with_reducible refine State.modRail_keeps ?_ ?_)
    | (with_reducible refine State.bayMove_keeps ?_ ?_)
    | (with_reducible refine State.modBay_keeps ?_ ?_)
    | (with_reducible refine State.modIrcSrc_keeps ?_ ?_)
    | (with_reducible refine State.modIrc_keeps ?_ ?_ ?_)
    | (with_reducible refine State.modCmp_keeps ?_ ?_)
    | (with_reducible refine State.modEth_keeps ?_ ?_)
    | (with_reducible refine State.modRun_keeps ?_ ?_)
    | (with_reducible refine State.modRule_keeps ?_ ?_)
    | (with_reducible refine State.modFlow_keeps ?_ ?_)
    | (with_reducible refine State.modTck_keeps ?_ ?_ ?_)
    | (with_reducible refine State.modTimer_keeps ?_ ?_)
    | (with_reducible refine State.modDma_keeps ?_ ?_)
    | (with_reducible refine State.modUart_keeps ?_ ?_)
    | (with_reducible refine State.modPRail_keeps ?_ ?_)
    | (with_reducible refine State.setWindow_keeps ?_ ?_)
    | (with_reducible refine ite_keeps ?_ ?_)
    | split
    | dsimp only [id])

end Sys2Proof.Machine
end

