-- ==== Sys2Proof/Laws/LineEvents.lean ====
section
/-! SUPPORT. What each operation of LineEvents keeps. -/

namespace Sys2Proof.Machine

set_option linter.unreachableTactic false
set_option linter.unusedTactic false

variable {P : State → Prop} {s : State}

theorem State.expireEvent_keeps (u : Keeps [.ras, .irc, .log] P) {a0 : Nat} (k : P s) : P (State.expireEvent a0 s) := by
  unfold State.expireEvent
  repeat' (first
    | with_reducible assumption
    | (with_reducible refine u.mono ?_; decide)
    | (intro _ h; exact h)
    | (intro h; exact h)
    | (intro _; rfl)
    | (with_reducible refine State.raiseP_keeps ?_ ?_)
    | (with_reducible refine State.latch_keeps ?_ ?_)
    | (with_reducible refine State.modLineEvent_keeps ?_ ?_)
    | (with_reducible refine ite_keeps ?_ ?_)
    | split
    | dsimp only [id])

theorem State.ageEvent_keeps (u : Keeps [.ras, .irc, .log] P) {a0 : Nat} (k : P s) : P (State.ageEvent a0 s) := by
  unfold State.ageEvent
  repeat' (first
    | with_reducible assumption
    | (with_reducible refine u.mono ?_; decide)
    | (intro _ h; exact h)
    | (intro h; exact h)
    | (intro _; rfl)
    | (with_reducible refine State.modLineEvent_keeps ?_ ?_)
    | (with_reducible refine State.expireEvent_keeps ?_ ?_)
    | (with_reducible refine ite_keeps ?_ ?_)
    | split
    | dsimp only [id])

theorem State.armEvent_keeps (u : Keeps [.ras, .irc, .log] P) {a0 : Option Nat} {a1 : Nat} {a2 : Sys2Proof.Word} (k : P s) : P (State.armEvent a0 a1 a2 s) := by
  unfold State.armEvent
  repeat' (first
    | with_reducible assumption
    | (with_reducible refine u.mono ?_; decide)
    | (intro _ h; exact h)
    | (intro h; exact h)
    | (intro _; rfl)
    | (with_reducible refine State.ageEvent_keeps ?_ ?_)
    | (with_reducible refine State.modLineEvent_keeps ?_ ?_)
    | (with_reducible refine ite_keeps ?_ ?_)
    | split
    | dsimp only [id])

theorem State.disarmEvent_keeps (u : Keeps [.ras] P) {a0 : Nat} {a1 : Sys2Proof.Word} (k : P s) : P (State.disarmEvent a0 a1 s) := by
  unfold State.disarmEvent
  repeat' (first
    | with_reducible assumption
    | (with_reducible refine u.mono ?_; decide)
    | (with_reducible refine State.modLineEvent_keeps ?_ ?_)
    | (with_reducible refine ite_keeps ?_ ?_)
    | split
    | dsimp only [id])

theorem State.setEvent_keeps (u : Keeps [.ras, .irc, .log] P) {a0 : Option Nat} {a1 : Nat} {a2 : Nat} {a3 : Sys2Proof.Word} (k : P s) : P (State.setEvent a0 a1 a2 a3 s) := by
  unfold State.setEvent
  repeat' (first
    | with_reducible assumption
    | (with_reducible refine u.mono ?_; decide)
    | (intro _ h; exact h)
    | (intro h; exact h)
    | (intro _; rfl)
    | (with_reducible refine State.armEvent_keeps ?_ ?_)
    | (with_reducible refine State.disarmEvent_keeps ?_ ?_)
    | (with_reducible refine State.modLineEvent_keeps ?_ ?_)
    | (with_reducible refine ite_keeps ?_ ?_)
    | split
    | dsimp only [id])

theorem State.dropMisfits_keeps (u : Keeps [.ras, .irc, .log] P) {a0 : Nat} (k : P s) : P (State.dropMisfits a0 s) := by
  unfold State.dropMisfits
  repeat' (first
    | with_reducible assumption
    | (with_reducible refine u.mono ?_; decide)
    | (intro _ h; exact h)
    | (intro h; exact h)
    | (intro _; rfl)
    | (with_reducible refine State.each_keeps (fun _ _ _ => ?_) ?_)
    | (with_reducible refine State.expireEvent_keeps ?_ ?_)
    | (with_reducible refine ite_keeps ?_ ?_)
    | split
    | dsimp only [id])

theorem State.rejectEvent_keeps (u : Keeps [.ras, .irc] P) {a0 : Nat} (k : P s) : P (State.rejectEvent a0 s) := by
  unfold State.rejectEvent
  repeat' (first
    | with_reducible assumption
    | (with_reducible refine u.mono ?_; decide)
    | (intro _ h; exact h)
    | (intro h; exact h)
    | (intro _; rfl)
    | (with_reducible refine State.latch_keeps ?_ ?_)
    | (with_reducible refine State.modLineEvent_keeps ?_ ?_)
    | (with_reducible refine ite_keeps ?_ ?_)
    | split
    | dsimp only [id])

theorem State.writeEvent_keeps (u : Keeps [.ras, .glb, .irc, .log] P) {a0 : Sys2Proof.Writer} {a1 : Nat} {a2 : Sys2Proof.Word} (k : P s) : P (State.writeEvent a0 a1 a2 s) := by
  unfold State.writeEvent
  repeat' (first
    | with_reducible assumption
    | (with_reducible refine u.mono ?_; decide)
    | (intro _ h; exact h)
    | (intro h; exact h)
    | (intro _; rfl)
    | (with_reducible refine State.werr_keeps ?_ ?_)
    | (with_reducible refine State.rejectEvent_keeps ?_ ?_)
    | (with_reducible refine State.setEvent_keeps ?_ ?_)
    | (with_reducible refine ite_keeps ?_ ?_)
    | split
    | dsimp only [id])

theorem execLineEventArm_keeps (u : Keeps [.ras, .glb, .irc, .log] P) {a0 : Sys2Proof.Writer} {a1 : Nat} {a2 : Sys2Proof.Word} (k : P s) : ∀ t, execLineEventArm a0 a1 a2 s = .next t → P t := by
  intro t e
  injection e with e
  rw [← e]
  clear e
  repeat' (first
    | with_reducible assumption
    | (with_reducible refine u.mono ?_; decide)
    | (intro _ h; exact h)
    | (intro h; exact h)
    | (intro _; rfl)
    | (with_reducible refine nextOr_keeps (ok_keeps ?_) ?_)
    | (with_reducible refine State.writeEvent_keeps ?_ ?_)
    | (with_reducible refine ite_keeps ?_ ?_)
    | split
    | dsimp only [id])

theorem execLineEventDisarm_keeps (u : Keeps [.ras, .glb, .irc, .log] P) {a0 : Sys2Proof.Writer} {a1 : Nat} {a2 : Sys2Proof.Word} (k : P s) : ∀ t, execLineEventDisarm a0 a1 a2 s = .next t → P t := by
  intro t e
  injection e with e
  rw [← e]
  clear e
  repeat' (first
    | with_reducible assumption
    | (with_reducible refine u.mono ?_; decide)
    | (intro _ h; exact h)
    | (intro h; exact h)
    | (intro _; rfl)
    | (with_reducible refine nextOr_keeps (ok_keeps ?_) ?_)
    | (with_reducible refine State.writeEvent_keeps ?_ ?_)
    | (with_reducible refine ite_keeps ?_ ?_)
    | split
    | dsimp only [id])

end Sys2Proof.Machine
end

