-- ==== Sys2Proof/Laws/RegSide.lean ====
section
/-! SUPPORT. What each operation of RegSide keeps. -/

namespace Sys2Proof.Machine

set_option linter.unreachableTactic false
set_option linter.unusedTactic false

variable {P : State → Prop} {s : State}

theorem nextOr_keeps {o : Host.Outcome State Fault Refusal} (h : ∀ t, o = .next t → P t) (k : P s) : P (nextOr s o) := by
  unfold nextOr
  split
  · exact h _ rfl
  · exact k

theorem State.readEffect_keeps (u : Keeps [.irc, .tck, .sem] P) {a0 : Writer} {a1 : Reg} (k : P s) : P (State.readEffect a0 a1 s) := by
  unfold State.readEffect
  split
  · exact ircClaim_keeps (u.mono (by decide)) k
  · exact State.modSemS_keeps (u.mono (by decide)) k
  · exact State.modSemS_keeps (u.mono (by decide)) k
  · exact nextOr_keeps (fun t e => by
      injection e with e
      exact e ▸ State.modUart_keeps (u.mono (by decide)) k) k
  · exact k

theorem State.readBy_keeps (u : Keeps [.irc, .tck, .sem] P) {a0 : Sys2Proof.Writer} {a1 : Nat} (k : P s) : P (State.readBy a0 a1 s).1 := by
  unfold State.readBy
  repeat' (first
    | with_reducible assumption
    | (with_reducible refine u.mono ?_; decide)
    | (intro _ h; exact h)
    | (intro h; exact h)
    | (intro _; rfl)
    | (with_reducible refine State.readEffect_keeps ?_ ?_)
    | (with_reducible refine ite_keeps ?_ ?_)
    | split
    | dsimp only [id])
theorem State.readBy_keeps_of (u : Keeps [.irc, .tck, .sem] P) {a0 : Sys2Proof.Writer} {a1 : Nat} {t r} (k : P s) (e : State.readBy a0 a1 s = (t, r)) : P t := by
  have h := State.readBy_keeps (P := P) u (a0 := a0) (a1 := a1) k
  rw [e] at h
  exact h

theorem State.tackLine_keeps (u : Keeps [.drm, .blw, .glb, .irc, .log, .flt] P) {a0 : Nat} (k : P s) : P (State.tackLine a0 s).1 := by
  unfold State.tackLine
  repeat' (first
    | with_reducible assumption
    | (with_reducible refine u.mono ?_; decide)
    | (intro _ h; exact h)
    | (intro h; exact h)
    | (intro _; rfl)
    | (with_reducible refine State.readLine_keeps ?_ ?_)
    | (with_reducible refine State.readLine_keeps_of ?_ ?_ (by assumption))
    | (with_reducible refine ite_keeps ?_ ?_)
    | split
    | dsimp only [id])
theorem State.tackLine_keeps_of (u : Keeps [.drm, .blw, .glb, .irc, .log, .flt] P) {a0 : Nat} {t r} (k : P s) (e : State.tackLine a0 s = (t, r)) : P t := by
  have h := State.tackLine_keeps (P := P) u (a0 := a0) k
  rw [e] at h
  exact h

theorem State.busReadEffect_keeps (u : Keeps [.drm, .blw, .glb, .irc, .tck, .log, .sem, .flt] P) {a0 : Nat} (k : P s) : P (State.busReadEffect a0 s) := by
  unfold State.busReadEffect
  repeat' (first
    | with_reducible assumption
    | (with_reducible refine u.mono ?_; decide)
    | (intro _ h; exact h)
    | (intro h; exact h)
    | (intro _; rfl)
    | (with_reducible refine State.readBy_keeps ?_ ?_)
    | (with_reducible refine State.readBy_keeps_of ?_ ?_ (by assumption))
    | (with_reducible refine State.tackLine_keeps ?_ ?_)
    | (with_reducible refine State.tackLine_keeps_of ?_ ?_ (by assumption))
    | (with_reducible refine ite_keeps ?_ ?_)
    | split
    | dsimp only [id])

theorem State.busRead_keeps (u : Keeps [.drm, .blw, .glb, .irc, .tck, .log, .sem, .flt] P) {a0 : Nat} (k : P s) : P (State.busRead a0 s).1 := by
  unfold State.busRead
  repeat' (first
    | with_reducible assumption
    | (with_reducible refine u.mono ?_; decide)
    | (intro _ h; exact h)
    | (intro h; exact h)
    | (intro _; rfl)
    | (with_reducible refine State.busReadEffect_keeps ?_ ?_)
    | (with_reducible refine ite_keeps ?_ ?_)
    | split
    | dsimp only [id])
theorem State.busRead_keeps_of (u : Keeps [.drm, .blw, .glb, .irc, .tck, .log, .sem, .flt] P) {a0 : Nat} {t r} (k : P s) (e : State.busRead a0 s = (t, r)) : P t := by
  have h := State.busRead_keeps (P := P) u (a0 := a0) k
  rw [e] at h
  exact h

theorem State.setRingWord_keeps (u : Keeps [.log] P) {a0 : Nat} {a1 : Sys2Proof.Word} (k : P s) : P (State.setRingWord a0 a1 s) := by
  unfold State.setRingWord
  repeat' (first
    | with_reducible assumption
    | (with_reducible refine u.mono ?_; decide)
    | (with_reducible refine State.modLog_keeps ?_ ?_)
    | (with_reducible refine ite_keeps ?_ ?_)
    | split
    | dsimp only [id])

theorem State.busStore_keeps (u : Keeps [.drm, .blw, .glb, .irc, .tck, .log, .flt] P) {a0 : Nat} {a1 : Sys2Proof.Word} (k : P s) : P (State.busStore a0 a1 s) := by
  unfold State.busStore
  repeat' (first
    | with_reducible assumption
    | (with_reducible refine u.mono ?_; decide)
    | (intro _ h; exact h)
    | (intro h; exact h)
    | (intro _; rfl)
    | (intro _ h; exact putBytes_wf _ _ _ _ h)
    | (with_reducible refine State.modTck_keeps ?_ ?_ ?_)
    | (with_reducible refine State.setRingWord_keeps ?_ ?_)
    | (with_reducible refine State.narrow_keeps ?_ ?_)
    | (with_reducible refine ite_keeps ?_ ?_)
    | split
    | dsimp only [id])

theorem State.mixWord_keeps (u : Keeps [.freeCtr, .cmp, .drm, .run, .blw, .glb, .irc, .tck, .log, .sem, .flt] P) {a0 : Nat} {a1 : Nat} (k : P s) : P (State.mixWord a0 a1 s) := by
  unfold State.mixWord
  repeat' (first
    | with_reducible assumption
    | (with_reducible refine u.mono ?_; decide)
    | (intro _ h; exact h)
    | (intro h; exact h)
    | (intro _; rfl)
    | (with_reducible refine State.tickFree_keeps ?_ ?_)
    | (with_reducible refine State.busRead_keeps ?_ ?_)
    | (with_reducible refine State.busRead_keeps_of ?_ ?_ (by assumption))
    | (with_reducible refine State.setPlain_keeps ?_ ?_)
    | (with_reducible refine State.busStore_keeps ?_ ?_)
    | (with_reducible refine ite_keeps ?_ ?_)
    | split
    | dsimp only [id])

theorem State.stopChannel_keeps (u : Keeps [.freeCtr, .cmp, .drm, .run, .blw, .glb, .irc, .tck, .log, .sem, .flt] P) {a0 : Nat} (k : P s) : P (State.stopChannel a0 s) := by
  unfold State.stopChannel
  repeat' (first
    | with_reducible assumption
    | (with_reducible refine u.mono ?_; decide)
    | (intro _ h; exact h)
    | (intro h; exact h)
    | (intro _; rfl)
    | (with_reducible refine State.each_keeps (fun _ _ _ => ?_) ?_)
    | (with_reducible refine State.mixWord_keeps ?_ ?_)
    | (with_reducible refine State.tickFree_keeps ?_ ?_)
    | (with_reducible refine State.modDma_keeps ?_ ?_)
    | (with_reducible refine ite_keeps ?_ ?_)
    | split
    | dsimp only [id])

theorem State.stopAllDma_keeps (u : Keeps [.freeCtr, .cmp, .drm, .run, .blw, .glb, .irc, .tck, .log, .sem, .flt] P) (k : P s) : P (State.stopAllDma s) := by
  unfold State.stopAllDma
  repeat' (first
    | with_reducible assumption
    | (with_reducible refine u.mono ?_; decide)
    | (intro _ h; exact h)
    | (intro h; exact h)
    | (intro _; rfl)
    | (with_reducible refine State.each_keeps (fun _ _ _ => ?_) ?_)
    | (with_reducible refine State.stopChannel_keeps ?_ ?_)
    | (with_reducible refine ite_keeps ?_ ?_)
    | split
    | dsimp only [id])

theorem State.takeConfig_keeps (u : Keeps [.enc, .dec] P) {a0 : Nat} (k : P s) : P (State.takeConfig a0 s) := by
  unfold State.takeConfig
  repeat' (first
    | with_reducible assumption
    | (with_reducible refine u.mono ?_; decide)
    | (with_reducible refine State.modDecS_keeps ?_ ?_)
    | (with_reducible refine State.modEncS_keeps ?_ ?_)
    | (with_reducible refine ite_keeps ?_ ?_)
    | split
    | dsimp only [id])

theorem State.setStreamWord_keeps (u : Keeps [.enc, .dec, .txn] P) {a0 : Nat} {a1 : Nat} {a2 : Sys2Proof.Word} (k : P s) : P (State.setStreamWord a0 a1 a2 s) := by
  unfold State.setStreamWord
  repeat' (first
    | with_reducible assumption
    | (with_reducible refine u.mono ?_; decide)
    | (with_reducible refine State.takeConfig_keeps ?_ ?_)
    | (with_reducible refine State.modTxn_keeps ?_ ?_)
    | (with_reducible refine ite_keeps ?_ ?_)
    | split
    | dsimp only [id])

end Sys2Proof.Machine
end

