-- ==== Sys2Proof/Laws/TxnOps.lean ====
section
/-! SUPPORT. What each operation of TxnOps keeps. -/

namespace Sys2Proof.Machine

set_option linter.unreachableTactic false
set_option linter.unusedTactic false

variable {P : State → Prop} {s : State}

theorem State.mirrorTxn_keeps (u : Keeps [.grt] P) {a0 : Sys2Proof.TxnMsg} (k : P s) : P (State.mirrorTxn a0 s) := by
  unfold State.mirrorTxn
  repeat' (first
    | with_reducible assumption
    | (with_reducible refine u.mono ?_; decide)
    | (with_reducible refine State.gPut_keeps ?_ ?_)
    | (with_reducible refine ite_keeps ?_ ?_)
    | split
    | dsimp only [id])

theorem State.finish_keeps (u : Keeps [.hq] P) {a0 : Nat} {a1 : Status} {a2 : Sys2Proof.Word} (k : P s) : P (State.finish a0 a1 a2 s) := by
  unfold State.finish
  repeat' (first
    | with_reducible assumption
    | (with_reducible refine u.mono ?_; decide)
    | (intro _ h; exact h)
    | (intro h; exact h)
    | (intro _; rfl)
    | (with_reducible refine State.modSlot_keeps ?_ ?_)
    | (with_reducible refine ite_keeps ?_ ?_)
    | split
    | dsimp only [id])

theorem State.endTxn_keeps (u : Keeps [.hq, .txn, .irc] P) {a0 : Nat} {a1 : TxnOutcome} (k : P s) : P (State.endTxn a0 a1 s) := by
  unfold State.endTxn
  repeat' (first
    | with_reducible assumption
    | (with_reducible refine u.mono ?_; decide)
    | (intro _ h; exact h)
    | (intro h; exact h)
    | (intro _; rfl)
    | (with_reducible refine State.modTrans_keeps ?_ ?_)
    | (with_reducible refine State.latch_keeps ?_ ?_)
    | (with_reducible refine State.finish_keeps ?_ ?_)
    | (with_reducible refine ite_keeps ?_ ?_)
    | split
    | dsimp only [id])

theorem State.abortTxn_keeps (u : Keeps [.hq, .txn, .irc, .grt] P) {a0 : Nat} {a1 : TxnOutcome} (k : P s) : P (State.abortTxn a0 a1 s) := by
  unfold State.abortTxn
  repeat' (first
    | with_reducible assumption
    | (with_reducible refine u.mono ?_; decide)
    | (intro _ h; exact h)
    | (intro h; exact h)
    | (intro _; rfl)
    | (with_reducible refine State.whenB_keeps (fun _ _ => ?_) ?_)
    | (with_reducible refine State.mirrorTxn_keeps ?_ ?_)
    | (with_reducible refine State.endTxn_keeps ?_ ?_)
    | (with_reducible refine ite_keeps ?_ ?_)
    | split
    | dsimp only [id])

theorem State.abortBy_keeps (u : Keeps [.hq, .txn, .irc, .grt] P) {a0 : Opener → Bool} (k : P s) : P (State.abortBy a0 s) := by
  unfold State.abortBy
  repeat' (first
    | with_reducible assumption
    | (with_reducible refine u.mono ?_; decide)
    | (intro _ h; exact h)
    | (intro h; exact h)
    | (intro _; rfl)
    | (with_reducible refine State.each_keeps (fun _ _ _ => ?_) ?_)
    | (with_reducible refine State.abortTxn_keeps ?_ ?_)
    | (with_reducible refine ite_keeps ?_ ?_)
    | split
    | dsimp only [id])

theorem State.rejectArm_keeps (u : Keeps [.ras, .irc] P) {a0 : Nat} (k : P s) : P (State.rejectArm a0 s) := by
  unfold State.rejectArm
  repeat' (first
    | with_reducible assumption
    | (with_reducible refine u.mono ?_; decide)
    | (intro _ h; exact h)
    | (intro h; exact h)
    | (intro _; rfl)
    | (with_reducible refine State.rejectEvent_keeps ?_ ?_)
    | (with_reducible refine ite_keeps ?_ ?_)
    | split
    | dsimp only [id])

theorem State.markConflict_keeps (u : Keeps [.txn] P) {a0 : Option Nat} {a1 : List Nat} (k : P s) : P (State.markConflict a0 a1 s) := by
  unfold State.markConflict
  repeat' (first
    | with_reducible assumption
    | (with_reducible refine u.mono ?_; decide)
    | (with_reducible refine State.each_keeps (fun _ _ _ => ?_) ?_)
    | (with_reducible refine State.modTrans_keeps ?_ ?_)
    | (with_reducible refine ite_keeps ?_ ?_)
    | split
    | dsimp only [id])

theorem State.beginTxn_keeps (u : Keeps [.txn] P) {a0 : Nat} {a1 : Opener} {a2 : Option Nat} (k : P s) : P (State.beginTxn a0 a1 a2 s) := by
  unfold State.beginTxn
  repeat' (first
    | with_reducible assumption
    | (with_reducible refine u.mono ?_; decide)
    | (with_reducible refine State.modTrans_keeps ?_ ?_)
    | (with_reducible refine ite_keeps ?_ ?_)
    | split
    | dsimp only [id])

theorem State.armTxn_keeps (u : Keeps [.hq, .txn, .irc] P) {a0 : Nat} {a1 : Nat} {a2 : Nat} {a3 : ℤ} (k : P s) : P (State.armTxn a0 a1 a2 a3 s) := by
  unfold State.armTxn
  repeat' (first
    | with_reducible assumption
    | (with_reducible refine u.mono ?_; decide)
    | (intro _ h; exact h)
    | (intro h; exact h)
    | (intro _; rfl)
    | (with_reducible refine State.modTxn_keeps ?_ ?_)
    | (with_reducible refine State.modTrans_keeps ?_ ?_)
    | (with_reducible refine State.endTxn_keeps ?_ ?_)
    | (with_reducible refine ite_keeps ?_ ?_)
    | split
    | dsimp only [id])

theorem State.bufferTxn_keeps (u : Keeps [.ras, .txn, .irc] P) {a0 : Sys2Proof.Writer} {a1 : Nat} {a2 : Nat} {a3 : Sys2Proof.Word} (k : P s) : P (State.bufferTxn a0 a1 a2 a3 s).1 := by
  unfold State.bufferTxn
  repeat' (first
    | with_reducible assumption
    | (with_reducible refine u.mono ?_; decide)
    | (intro _ h; exact h)
    | (intro h; exact h)
    | (intro _; rfl)
    | (with_reducible refine State.modTrans_keeps ?_ ?_)
    | (with_reducible refine State.whenB_keeps (fun _ _ => ?_) ?_)
    | (with_reducible refine State.rejectArm_keeps ?_ ?_)
    | (with_reducible refine ite_keeps ?_ ?_)
    | split
    | dsimp only [id])
theorem State.bufferTxn_keeps_of (u : Keeps [.ras, .txn, .irc] P) {a0 : Sys2Proof.Writer} {a1 : Nat} {a2 : Nat} {a3 : Sys2Proof.Word} {t r} (k : P s) (e : State.bufferTxn a0 a1 a2 a3 s = (t, r)) : P t := by
  have h := State.bufferTxn_keeps (P := P) u (a0 := a0) (a1 := a1) (a2 := a2) (a3 := a3) k
  rw [e] at h
  exact h

end Sys2Proof.Machine
end

