-- ==== Sys2Proof/Laws/Faults.lean ====
section
/-! SUPPORT. What each operation of Faults keeps. -/

namespace Sys2Proof.Machine

set_option linter.unreachableTactic false
set_option linter.unusedTactic false

variable {P : State → Prop} {s : State}

theorem State.logReport_keeps (u : Keeps [.flt] P) {a0 : Sys2Proof.Report} (k : P s) : P (State.logReport a0 s) := by
  unfold State.logReport
  repeat' (first
    | with_reducible assumption
    | (with_reducible refine u.mono ?_; decide)
    | (with_reducible refine State.modFltSrc_keeps ?_ ?_)
    | (with_reducible refine ite_keeps ?_ ?_)
    | split
    | dsimp only [id])

theorem State.maskSrcs_keeps (u : Keeps [.flt] P) {a0 : List Nat} (k : P s) : P (State.maskSrcs a0 s) := by
  unfold State.maskSrcs
  repeat' (first
    | with_reducible assumption
    | (with_reducible refine u.mono ?_; decide)
    | (with_reducible refine State.each_keeps (fun _ _ _ => ?_) ?_)
    | (with_reducible refine State.modFltSrc_keeps ?_ ?_)
    | (with_reducible refine ite_keeps ?_ ?_)
    | split
    | dsimp only [id])

theorem State.coreUnit_keeps (u : Keeps [.freeCtr, .enc, .dec, .cmp, .cores, .drm, .blw, .irc, .log, .sem, .flt, .grt] P) {a0 : Nat} {a1 : Nat} {a2 : Bool} {a3 : Bool} (k : P s) : P (State.coreUnit a0 a1 a2 a3 s) := by
  unfold State.coreUnit
  repeat' (first
    | with_reducible assumption
    | (with_reducible refine u.mono ?_; decide)
    | (intro _ h; exact h)
    | (intro h; exact h)
    | (intro _; rfl)
    | (with_reducible refine State.recordContained_keeps ?_ ?_)
    | (with_reducible refine State.machineCheck_keeps ?_ ?_)
    | (with_reducible refine State.modCore_keeps ?_ ?_)
    | (with_reducible refine State.wantAdmission_keeps ?_ ?_)
    | (with_reducible refine State.unitFenced_keeps ?_ ?_)
    | (with_reducible refine State.maskSrcs_keeps ?_ ?_)
    | (with_reducible refine State.restartCore_keeps ?_ ?_)
    | (with_reducible refine State.fenceCore_keeps ?_ ?_)
    | (with_reducible refine ite_keeps ?_ ?_)
    | split
    | dsimp only [id])

theorem State.failWait_keeps (u : Keeps [.enc, .dec, .drm, .blw, .grt] P) {a0 : DramWait} (k : P s) : P (State.failWait a0 s) := by
  unfold State.failWait
  repeat' (first
    | with_reducible assumption
    | (with_reducible refine u.mono ?_; decide)
    | (with_reducible refine State.modDrm_keeps ?_ ?_)
    | (with_reducible refine State.coreReadBad_keeps ?_ ?_)
    | (with_reducible refine ite_keeps ?_ ?_)
    | split
    | dsimp only [id])

theorem State.failDma_keeps (u : Keeps [.enc, .dec, .cores, .blw, .grt] P) {a0 : Nat} {a1 : CoreDma} (k : P s) : P (State.failDma a0 a1 s) := by
  unfold State.failDma
  repeat' (first
    | with_reducible assumption
    | (with_reducible refine u.mono ?_; decide)
    | (with_reducible refine State.modCore_keeps ?_ ?_)
    | (with_reducible refine State.fillBad_keeps ?_ ?_)
    | (with_reducible refine ite_keeps ?_ ?_)
    | split
    | dsimp only [id])

theorem State.failRequests_keeps (u : Keeps [.enc, .dec, .cores, .drm, .blw, .grt] P) {a0 : Nat} (k : P s) : P (State.failRequests a0 s) := by
  unfold State.failRequests
  repeat' (first
    | with_reducible assumption
    | (with_reducible refine u.mono ?_; decide)
    | (with_reducible refine State.modChan_keeps ?_ ?_)
    | (with_reducible refine State.each_keeps (fun _ _ _ => ?_) ?_)
    | (with_reducible refine State.failWait_keeps ?_ ?_)
    | (with_reducible refine State.failDma_keeps ?_ ?_)
    | (with_reducible refine ite_keeps ?_ ?_)
    | split
    | dsimp only [id])

theorem State.chanUnit_keeps (u : Keeps [.enc, .dec, .cores, .drm, .blw, .glb, .irc, .log, .flt, .grt] P) {a0 : Nat} {a1 : Bool} (k : P s) : P (State.chanUnit a0 a1 s) := by
  unfold State.chanUnit
  repeat' (first
    | with_reducible assumption
    | (with_reducible refine u.mono ?_; decide)
    | (intro _ h; exact h)
    | (intro h; exact h)
    | (intro _; rfl)
    | (with_reducible refine State.maskSrcs_keeps ?_ ?_)
    | (with_reducible refine State.fenceChan_keeps ?_ ?_)
    | (with_reducible refine State.recordContained_keeps ?_ ?_)
    | (with_reducible refine State.modChan_keeps ?_ ?_)
    | (with_reducible refine State.failRequests_keeps ?_ ?_)
    | (with_reducible refine ite_keeps ?_ ?_)
    | split
    | dsimp only [id])

theorem State.fenceDone_keeps (u : Keeps [.out, .run, .blw, .glb, .irc, .log, .flt, .grt] P) (k : P s) : P (State.fenceDone s) := by
  unfold State.fenceDone
  repeat' (first
    | with_reducible assumption
    | (with_reducible refine u.mono ?_; decide)
    | (intro _ h; exact h)
    | (intro h; exact h)
    | (intro _; rfl)
    | (with_reducible refine State.fenceOutcome_keeps ?_ ?_)
    | (with_reducible refine ite_keeps ?_ ?_)
    | split
    | dsimp only [id])

theorem State.fencePorts_keeps (u : Keeps [.out, .run, .blw, .glb, .irc, .log, .flt, .grt] P) {a0 : Nat} {a1 : Bool} {a2 : List Nat} {a3 : State → State} (h3 : ∀ x0, P x0 → P (a3 x0)) (k : P s) : P (State.fencePorts a0 a1 a2 a3 s) := by
  unfold State.fencePorts
  repeat' (first
    | with_reducible assumption
    | (with_reducible refine u.mono ?_; decide)
    | (intro _ h; exact h)
    | (intro h; exact h)
    | (intro _; rfl)
    | (with_reducible refine State.fenceDone_keeps ?_ ?_)
    | (with_reducible refine State.maskSrcs_keeps ?_ ?_)
    | (with_reducible refine State.recordContained_keeps ?_ ?_)
    | (with_reducible refine h3 _ ?_)
    | (with_reducible refine ite_keeps ?_ ?_)
    | split
    | dsimp only [id])

theorem State.fenceEthAll_keeps (u : Keeps [.run, .irc, .log, .flt] P) {a0 : Nat} {a1 : Nat} (k : P s) : P (State.fenceEthAll a0 a1 s) := by
  unfold State.fenceEthAll
  repeat' (first
    | with_reducible assumption
    | (with_reducible refine u.mono ?_; decide)
    | (intro _ h; exact h)
    | (intro h; exact h)
    | (intro _; rfl)
    | (with_reducible refine State.maskSrcs_keeps ?_ ?_)
    | (with_reducible refine State.fenceEth_keeps ?_ ?_)
    | (with_reducible refine ite_keeps ?_ ?_)
    | split
    | dsimp only [id])

theorem State.reload_keeps (u : Keeps [.log, .flt] P) {a0 : Nat} {a1 : Nat} {a2 : Bool} (k : P s) : P (State.reload a0 a1 a2 s) := by
  unfold State.reload
  repeat' (first
    | with_reducible assumption
    | (with_reducible refine u.mono ?_; decide)
    | (with_reducible refine State.unitFenced_keeps ?_ ?_)
    | (with_reducible refine State.maskSrcs_keeps ?_ ?_)
    | (with_reducible refine State.recordContained_keeps ?_ ?_)
    | (with_reducible refine State.modFltSrc_keeps ?_ ?_)
    | (with_reducible refine ite_keeps ?_ ?_)
    | split
    | dsimp only [id])

theorem State.thirdFatal_keeps (u : Keeps [.glb, .irc, .log, .flt] P) {a0 : Nat} {a1 : Bool} {a2 : State → State} (h2 : ∀ x0, P x0 → P (a2 x0)) (k : P s) : P (State.thirdFatal a0 a1 a2 s) := by
  unfold State.thirdFatal
  repeat' (first
    | with_reducible assumption
    | (with_reducible refine u.mono ?_; decide)
    | (intro _ h; exact h)
    | (intro h; exact h)
    | (intro _; rfl)
    | (with_reducible refine State.recordFatal_keeps ?_ ?_)
    | (with_reducible refine State.recordContained_keeps ?_ ?_)
    | (with_reducible refine h2 _ ?_)
    | (with_reducible refine ite_keeps ?_ ?_)
    | split
    | dsimp only [id])

theorem State.clearVoqs_keeps (u : Keeps [.run, .blw, .glb, .irc, .log, .flt] P) (k : P s) : P (State.clearVoqs s) := by
  unfold State.clearVoqs
  repeat' (first
    | with_reducible assumption
    | (with_reducible refine u.mono ?_; decide)
    | (intro _ h; exact h)
    | (intro h; exact h)
    | (intro _; rfl)
    | (with_reducible refine State.each_keeps (fun _ _ _ => ?_) ?_)
    | (with_reducible refine State.modVoq_keeps ?_ ?_)
    | (with_reducible refine State.freePkt_keeps ?_ ?_)
    | (with_reducible refine ite_keeps ?_ ?_)
    | split
    | dsimp only [id])

theorem State.clearStitch_keeps (u : Keeps [.dec, .cores, .run, .blw, .glb, .irc, .log, .flt] P) (k : P s) : P (State.clearStitch s) := by
  unfold State.clearStitch
  repeat' (first
    | with_reducible assumption
    | (with_reducible refine u.mono ?_; decide)
    | (intro _ h; exact h)
    | (intro h; exact h)
    | (intro _; rfl)
    | (with_reducible refine State.each_keeps (fun _ _ _ => ?_) ?_)
    | (with_reducible refine State.gapMark_keeps ?_ ?_)
    | (with_reducible refine State.modStitch_keeps ?_ ?_)
    | (with_reducible refine State.freePkt_keeps ?_ ?_)
    | (with_reducible refine ite_keeps ?_ ?_)
    | split
    | dsimp only [id])

theorem State.clearRings_keeps (u : Keeps [.dec, .cores, .blw] P) (k : P s) : P (State.clearRings s) := by
  unfold State.clearRings
  repeat' (first
    | with_reducible assumption
    | (with_reducible refine u.mono ?_; decide)
    | (with_reducible refine State.each_keeps (fun _ _ _ => ?_) ?_)
    | (with_reducible refine State.ringPut_keeps ?_ ?_)
    | (with_reducible refine State.modDecS_keeps ?_ ?_)
    | (with_reducible refine ite_keeps ?_ ?_)
    | split
    | dsimp only [id])

theorem State.quarantine_keeps (u : Keeps [.run, .blw, .glb, .irc, .log, .flt] P) {a0 : Nat} {a1 : Nat} {a2 : Bool} (k : P s) : P (State.quarantine a0 a1 a2 s) := by
  unfold State.quarantine
  repeat' (first
    | with_reducible assumption
    | (with_reducible refine u.mono ?_; decide)
    | (intro _ h; exact h)
    | (intro h; exact h)
    | (intro _; rfl)
    | (with_reducible refine State.recordContained_keeps ?_ ?_)
    | (with_reducible refine State.modLadle_keeps ?_ ?_)
    | (with_reducible refine State.fencePool_keeps ?_ ?_)
    | (with_reducible refine ite_keeps ?_ ?_)
    | split
    | dsimp only [id])

theorem State.tileFault_keeps (u : Keeps [.freeCtr, .dec, .cmp, .irc, .log, .grt] P) {a0 : Nat} {a1 : Nat} (k : P s) : P (State.tileFault a0 a1 s) := by
  unfold State.tileFault
  repeat' (first
    | with_reducible assumption
    | (with_reducible refine u.mono ?_; decide)
    | (intro _ h; exact h)
    | (intro h; exact h)
    | (intro _; rfl)
    | (with_reducible refine State.withLedger_keeps ?_ (fun _ _ => ?_) ?_)
    | (with_reducible refine State.modTile_keeps ?_ ?_)
    | (with_reducible refine State.ledgerEvent_keeps ?_ ?_)
    | (with_reducible refine State.tickFree_keeps ?_ ?_)
    | (with_reducible refine ite_keeps ?_ ?_)
    | split
    | dsimp only [id])

theorem State.redrawLost_keeps (u : Keeps [.cmp, .irc, .log] P) {a0 : Nat} {a1 : Nat} (k : P s) : P (State.redrawLost a0 a1 s) := by
  unfold State.redrawLost
  repeat' (first
    | with_reducible assumption
    | (with_reducible refine u.mono ?_; decide)
    | (intro _ h; exact h)
    | (intro h; exact h)
    | (intro _; rfl)
    | (with_reducible refine State.each_keeps (fun _ _ _ => ?_) ?_)
    | (with_reducible refine nextOr_keeps ?_)
    | (with_reducible refine nextOr_keeps (execCmpLineLate_keeps ?_ ?_) ?_)
    | (with_reducible refine ite_keeps ?_ ?_)
    | split
    | dsimp only [id])

theorem State.fenceUnit_keeps (u : Keeps [.out, .run, .blw, .glb, .irc, .log, .flt, .grt] P) {a0 : Nat} {a1 : Bool} {a2 : State → State} (h2 : ∀ x0, P x0 → P (a2 x0)) (k : P s) : P (State.fenceUnit a0 a1 a2 s) := by
  unfold State.fenceUnit
  repeat' (first
    | with_reducible assumption
    | (with_reducible refine u.mono ?_; decide)
    | (intro _ h; exact h)
    | (intro h; exact h)
    | (intro _; rfl)
    | (with_reducible refine State.fenceDone_keeps ?_ ?_)
    | (with_reducible refine State.unitFenced_keeps ?_ ?_)
    | (with_reducible refine State.maskSrcs_keeps ?_ ?_)
    | (with_reducible refine State.recordContained_keeps ?_ ?_)
    | (with_reducible refine h2 _ ?_)
    | (with_reducible refine ite_keeps ?_ ?_)
    | split
    | dsimp only [id])

theorem State.pathUnit_keeps (u : Keeps [.freeCtr, .dec, .cmp, .out, .cores, .run, .blw, .glb, .irc, .log, .flt, .grt] P) {a0 : Nat} {a1 : Nat} {a2 : Bool} (k : P s) : P (State.pathUnit a0 a1 a2 s) := by
  unfold State.pathUnit
  repeat' (first
    | with_reducible assumption
    | (with_reducible refine u.mono ?_; decide)
    | (intro _ h; exact h)
    | (intro h; exact h)
    | (intro _; rfl)
    | (with_reducible refine State.fencePorts_keeps ?_ (fun _ _ => ?_) ?_)
    | (with_reducible refine State.fenceEthAll_keeps ?_ ?_)
    | (with_reducible refine State.maskSrcs_keeps ?_ ?_)
    | (with_reducible refine State.fencePlane_keeps ?_ ?_)
    | (with_reducible refine State.recordContained_keeps ?_ ?_)
    | (with_reducible refine State.reload_keeps ?_ ?_)
    | (with_reducible refine State.thirdFatal_keeps ?_ (fun _ _ => ?_) ?_)
    | (with_reducible refine State.clearVoqs_keeps ?_ ?_)
    | (with_reducible refine State.clearStitch_keeps ?_ ?_)
    | (with_reducible refine State.clearRings_keeps ?_ ?_)
    | (with_reducible refine State.modRun_keeps ?_ ?_)
    | (with_reducible refine State.quarantine_keeps ?_ ?_)
    | (with_reducible refine State.tileFault_keeps ?_ ?_)
    | (with_reducible refine State.redrawLost_keeps ?_ ?_)
    | (with_reducible refine State.fenceUnit_keeps ?_ (fun _ _ => ?_) ?_)
    | (with_reducible refine State.modFlt_keeps ?_ ?_)
    | (with_reducible refine State.modCmp_keeps ?_ ?_)
    | (with_reducible refine ite_keeps ?_ ?_)
    | split
    | dsimp only [id])

theorem State.fenceDpoAll_keeps (u : Keeps [.out, .irc, .log, .flt] P) {a0 : Nat} {a1 : Nat} (k : P s) : P (State.fenceDpoAll a0 a1 s) := by
  unfold State.fenceDpoAll
  repeat' (first
    | with_reducible assumption
    | (with_reducible refine u.mono ?_; decide)
    | (intro _ h; exact h)
    | (intro h; exact h)
    | (intro _; rfl)
    | (with_reducible refine State.maskSrcs_keeps ?_ ?_)
    | (with_reducible refine State.fenceDpo_keeps ?_ ?_)
    | (with_reducible refine ite_keeps ?_ ?_)
    | split
    | dsimp only [id])

theorem State.fenceDpiAll_keeps (u : Keeps [.out, .irc, .log, .flt] P) {a0 : Nat} {a1 : Nat} (k : P s) : P (State.fenceDpiAll a0 a1 s) := by
  unfold State.fenceDpiAll
  repeat' (first
    | with_reducible assumption
    | (with_reducible refine u.mono ?_; decide)
    | (intro _ h; exact h)
    | (intro h; exact h)
    | (intro _; rfl)
    | (with_reducible refine State.maskSrcs_keeps ?_ ?_)
    | (with_reducible refine State.fenceDpi_keeps ?_ ?_)
    | (with_reducible refine ite_keeps ?_ ?_)
    | split
    | dsimp only [id])

theorem State.recount_keeps (u : Keeps [.ras] P) (k : P s) : P (State.recount s) := by
  unfold State.recount
  repeat' (first
    | with_reducible assumption
    | (with_reducible refine u.mono ?_; decide)
    | (with_reducible refine State.each_keeps (fun _ _ _ => ?_) ?_)
    | (with_reducible refine State.modRaster_keeps ?_ ?_)
    | (with_reducible refine ite_keeps ?_ ?_)
    | split
    | dsimp only [id])

theorem State.resetTack_keeps (u : Keeps [.freeCtr, .cmp, .drm, .run, .hq, .txn, .blw, .glb, .irc, .tck, .log, .sem, .flt, .grt] P) (k : P s) : P (State.resetTack s) := by
  unfold State.resetTack
  repeat' (first
    | with_reducible assumption
    | (with_reducible refine u.mono ?_; decide)
    | (intro _ h; exact h)
    | (intro h; exact h)
    | (intro _; rfl)
    | (with_reducible refine State.abortBy_keeps ?_ ?_)
    | (with_reducible refine State.semBreakOwners_keeps ?_ ?_)
    | (with_reducible refine State.stopAllDma_keeps ?_ ?_)
    | (with_reducible refine State.ircReset_keeps ?_ ?_)
    | (with_reducible refine ite_keeps ?_ ?_)
    | split
    | dsimp only [id])

theorem State.holdTack_keeps (u : Keeps [.freeCtr, .cmp, .drm, .run, .hq, .txn, .blw, .glb, .irc, .tck, .log, .sem, .flt, .grt] P) (k : P s) : P (State.holdTack s) := by
  unfold State.holdTack
  repeat' (first
    | with_reducible assumption
    | (with_reducible refine u.mono ?_; decide)
    | (intro _ h; exact h)
    | (intro h; exact h)
    | (intro _; rfl)
    | (with_reducible refine State.modTck_keeps ?_ ?_ ?_)
    | (with_reducible refine State.resetTack_keeps ?_ ?_)
    | (with_reducible refine State.limited_keeps ?_ (fun _ _ => ?_) ?_)
    | (with_reducible refine State.raise_keeps ?_ ?_)
    | (with_reducible refine State.recordContained_keeps ?_ ?_)
    | (with_reducible refine ite_keeps ?_ ?_)
    | split
    | dsimp only [id])

theorem State.restartTack_keeps (u : Keeps [.freeCtr, .cmp, .drm, .run, .hq, .txn, .blw, .glb, .irc, .tck, .log, .sem, .flt, .grt] P) {a0 : Nat} (k : P s) : P (State.restartTack a0 s) := by
  unfold State.restartTack
  repeat' (first
    | with_reducible assumption
    | (with_reducible refine u.mono ?_; decide)
    | (intro _ h; exact h)
    | (intro h; exact h)
    | (intro _; rfl)
    | (with_reducible refine State.holdTack_keeps ?_ ?_)
    | (with_reducible refine State.modTck_keeps ?_ ?_ ?_)
    | (with_reducible refine State.resetTack_keeps ?_ ?_)
    | (with_reducible refine State.limited_keeps ?_ (fun _ _ => ?_) ?_)
    | (with_reducible refine State.raise_keeps ?_ ?_)
    | (with_reducible refine ite_keeps ?_ ?_)
    | split
    | dsimp only [id])

theorem State.tackUnit_keeps (u : Keeps [.freeCtr, .dec, .cmp, .out, .cores, .drm, .run, .hq, .txn, .blw, .fsh, .glb, .irc, .tck, .log, .sem, .flt, .grt] P) {a0 : Nat} {a1 : Nat} {a2 : Bool} (k : P s) : P (State.tackUnit a0 a1 a2 s) := by
  unfold State.tackUnit
  repeat' (first
    | with_reducible assumption
    | (with_reducible refine u.mono ?_; decide)
    | (intro _ h; exact h)
    | (intro h; exact h)
    | (intro _; rfl)
    | (with_reducible refine State.reload_keeps ?_ ?_)
    | (with_reducible refine State.startStream_keeps ?_ ?_)
    | (with_reducible refine State.recordContained_keeps ?_ ?_)
    | (with_reducible refine State.restartTack_keeps ?_ ?_)
    | (with_reducible refine State.fenceUnit_keeps ?_ (fun _ _ => ?_) ?_)
    | (with_reducible refine State.modTck_keeps ?_ ?_ ?_)
    | (with_reducible refine State.modFsh_keeps ?_ ?_ ?_)
    | (with_reducible refine State.stopAllDma_keeps ?_ ?_)
    | (with_reducible refine State.recordFatal_keeps ?_ ?_)
    | (with_reducible refine State.modLog_keeps ?_ ?_)
    | (with_reducible refine State.semBreakOwners_keeps ?_ ?_)
    | (with_reducible refine State.wantAdmission_keeps ?_ ?_)
    | (with_reducible refine State.unitFenced_keeps ?_ ?_)
    | (with_reducible refine State.maskSrcs_keeps ?_ ?_)
    | (with_reducible refine State.modBlw_keeps ?_ ?_)
    | (with_reducible refine ite_keeps ?_ ?_)
    | split
    | dsimp only [id])

theorem State.fenceGirth_keeps (u : Keeps [.enc, .out, .run, .blw, .glb, .irc, .log, .sem, .flt, .grt] P) {a0 : Nat} (k : P s) : P (State.fenceGirth a0 s) := by
  unfold State.fenceGirth
  repeat' (first
    | with_reducible assumption
    | (with_reducible refine u.mono ?_; decide)
    | (intro _ h; exact h)
    | (intro h; exact h)
    | (intro _; rfl)
    | (with_reducible refine State.linkLost_keeps ?_ ?_)
    | (with_reducible refine State.unitFenced_keeps ?_ ?_)
    | (with_reducible refine State.maskSrcs_keeps ?_ ?_)
    | (with_reducible refine State.modGrt_keeps ?_ ?_)
    | (with_reducible refine ite_keeps ?_ ?_)
    | split
    | dsimp only [id])

theorem State.contain_keeps (u : Keeps [.freeCtr, .ras, .enc, .dec, .cmp, .out, .cores, .drm, .run, .hq, .txn, .blw, .fsh, .glb, .irc, .tck, .log, .sem, .flt, .grt] P) {a0 : List Nat} {a1 : Nat} {a2 : Nat} {a3 : Bool} (k : P s) : P (State.contain a0 a1 a2 a3 s) := by
  unfold State.contain
  repeat' (first
    | with_reducible assumption
    | (with_reducible refine u.mono ?_; decide)
    | (intro _ h; exact h)
    | (intro h; exact h)
    | (intro _; rfl)
    | (with_reducible refine State.recordFatal_keeps ?_ ?_)
    | (with_reducible refine State.fenceBay_keeps ?_ ?_)
    | (with_reducible refine State.recordContained_keeps ?_ ?_)
    | (with_reducible refine State.coreUnit_keeps ?_ ?_)
    | (with_reducible refine State.chanUnit_keeps ?_ ?_)
    | (with_reducible refine State.pathUnit_keeps ?_ ?_)
    | (with_reducible refine State.fencePorts_keeps ?_ (fun _ _ => ?_) ?_)
    | (with_reducible refine State.fenceDpoAll_keeps ?_ ?_)
    | (with_reducible refine State.fenceDpiAll_keeps ?_ ?_)
    | (with_reducible refine State.fenceHost_keeps ?_ ?_)
    | (with_reducible refine State.fenceClock_keeps ?_ ?_)
    | (with_reducible refine State.recount_keeps ?_ ?_)
    | (with_reducible refine State.tackUnit_keeps ?_ ?_)
    | (with_reducible refine State.fenceGirth_keeps ?_ ?_)
    | (with_reducible refine State.each_keeps (fun _ _ _ => ?_) ?_)
    | (with_reducible refine State.fenceEthAll_keeps ?_ ?_)
    | (with_reducible refine ite_keeps ?_ ?_)
    | split
    | dsimp only [id])

theorem State.correct_keeps (u : Keeps [.freeCtr, .ras, .enc, .dec, .cmp, .out, .cores, .drm, .run, .hq, .txn, .blw, .fsh, .glb, .irc, .tck, .log, .sem, .flt, .grt] P) {a0 : Nat} {a1 : Nat} (k : P s) : P (State.correct a0 a1 s) := by
  unfold State.correct
  repeat' (first
    | with_reducible assumption
    | (with_reducible refine u.mono ?_; decide)
    | (intro _ h; exact h)
    | (intro h; exact h)
    | (intro _; rfl)
    | (with_reducible refine State.modFltSrc_keeps ?_ ?_)
    | (with_reducible refine State.recordCorrected_keeps ?_ ?_)
    | (with_reducible refine State.contain_keeps ?_ ?_)
    | (with_reducible refine ite_keeps ?_ ?_)
    | split
    | dsimp only [id])

theorem State.takeReport_keeps (u : Keeps [.freeCtr, .ras, .enc, .dec, .cmp, .out, .cores, .drm, .run, .hq, .txn, .blw, .fsh, .glb, .irc, .tck, .log, .sem, .flt, .grt] P) {a0 : List Nat} {a1 : Bool} {a2 : Sys2Proof.Report} (k : P s) : P (State.takeReport a0 a1 a2 s) := by
  unfold State.takeReport
  repeat' (first
    | with_reducible assumption
    | (with_reducible refine u.mono ?_; decide)
    | (intro _ h; exact h)
    | (intro h; exact h)
    | (intro _; rfl)
    | (with_reducible refine State.correct_keeps ?_ ?_)
    | (with_reducible refine State.contain_keeps ?_ ?_)
    | (with_reducible refine State.recordFatal_keeps ?_ ?_)
    | (with_reducible refine ite_keeps ?_ ?_)
    | split
    | dsimp only [id])

theorem State.collect_keeps (u : Keeps [.freeCtr, .ras, .enc, .dec, .cmp, .out, .cores, .drm, .run, .hq, .txn, .blw, .fsh, .glb, .irc, .tck, .log, .sem, .flt, .grt] P) {a0 : Bool} {a1 : List Sys2Proof.Report} (k : P s) : P (State.collect a0 a1 s) := by
  unfold State.collect
  repeat' (first
    | with_reducible assumption
    | (with_reducible refine u.mono ?_; decide)
    | (intro _ h; exact h)
    | (intro h; exact h)
    | (intro _; rfl)
    | (with_reducible refine State.each_keeps (fun _ _ _ => ?_) ?_)
    | (with_reducible refine State.logReport_keeps ?_ ?_)
    | (with_reducible refine State.recordFatal_keeps ?_ ?_)
    | (with_reducible refine State.recordContained_keeps ?_ ?_)
    | (with_reducible refine State.takeReport_keeps ?_ ?_)
    | (with_reducible refine ite_keeps ?_ ?_)
    | split
    | dsimp only [id])

theorem State.setFltSrc_keeps (u : Keeps [.freeCtr, .ras, .enc, .dec, .cmp, .out, .cores, .drm, .run, .hq, .txn, .blw, .fsh, .glb, .irc, .tck, .log, .sem, .flt, .grt] P) {a0 : Nat} {a1 : Sys2Proof.Word} (k : P s) : P (State.setFltSrc a0 a1 s) := by
  unfold State.setFltSrc
  repeat' (first
    | with_reducible assumption
    | (with_reducible refine u.mono ?_; decide)
    | (intro _ h; exact h)
    | (intro h; exact h)
    | (intro _; rfl)
    | (with_reducible refine State.modFltSrc_keeps ?_ ?_)
    | (with_reducible refine State.collect_keeps ?_ ?_)
    | (with_reducible refine ite_keeps ?_ ?_)
    | split
    | dsimp only [id])

theorem State.setFltStat_keeps (u : Keeps [.flt] P) {a0 : Sys2Proof.Word} (k : P s) : P (State.setFltStat a0 s) := by
  unfold State.setFltStat
  repeat' (first
    | with_reducible assumption
    | (with_reducible refine u.mono ?_; decide)
    | (with_reducible refine State.modFlt_keeps ?_ ?_)
    | (with_reducible refine ite_keeps ?_ ?_)
    | split
    | dsimp only [id])

theorem State.copyFirmware_keeps (u : Keeps [.tck] P) {a0 : Nat} (k : P s) : P (State.copyFirmware a0 s) := by
  unfold State.copyFirmware
  repeat' (first
    | with_reducible assumption
    | (with_reducible refine u.mono ?_; decide)
    | (intro _ h; exact h)
    | (intro h; exact h)
    | (intro _; rfl)
    | (intro _ h; exact putBytes_wf _ _ _ _ h)
    | (with_reducible refine State.modTck_keeps ?_ ?_ ?_)
    | (with_reducible refine ite_keeps ?_ ?_)
    | split
    | dsimp only [id])

theorem State.startFirmware_keeps (u : Keeps [.tck] P) (k : P s) : P (State.startFirmware s) := by
  unfold State.startFirmware
  repeat' (first
    | with_reducible assumption
    | (with_reducible refine u.mono ?_; decide)
    | (intro _ h; exact h)
    | (intro h; exact h)
    | (intro _; rfl)
    | (with_reducible refine State.copyFirmware_keeps ?_ ?_)
    | (with_reducible refine State.modTck_keeps ?_ ?_ ?_)
    | (with_reducible refine ite_keeps ?_ ?_)
    | split
    | dsimp only [id])

theorem State.wireFault_keeps (u : Keeps [.freeCtr, .ras, .enc, .dec, .cmp, .out, .cores, .drm, .run, .hq, .txn, .blw, .fsh, .glb, .irc, .tck, .log, .sem, .flt, .grt] P) {a0 : Nat} (k : P s) : P (State.wireFault a0 s) := by
  unfold State.wireFault
  repeat' (first
    | with_reducible assumption
    | (with_reducible refine u.mono ?_; decide)
    | (intro _ h; exact h)
    | (intro h; exact h)
    | (intro _; rfl)
    | (with_reducible refine State.limited_keeps ?_ (fun _ _ => ?_) ?_)
    | (with_reducible refine State.raise_keeps ?_ ?_)
    | (with_reducible refine State.latch_keeps ?_ ?_)
    | (with_reducible refine State.modFltSrc_keeps ?_ ?_)
    | (with_reducible refine State.contain_keeps ?_ ?_)
    | (with_reducible refine ite_keeps ?_ ?_)
    | split
    | dsimp only [id])

theorem execTackRestarted_keeps (u : Keeps [.freeCtr, .cmp, .drm, .run, .hq, .txn, .blw, .glb, .irc, .tck, .log, .sem, .flt, .grt] P) {a0 : Nat} (k : P s) : ∀ t, execTackRestarted a0 s = .next t → P t := by
  intro t e
  injection e with e
  rw [← e]
  clear e
  repeat' (first
    | with_reducible assumption
    | (with_reducible refine u.mono ?_; decide)
    | (intro _ h; exact h)
    | (intro h; exact h)
    | (intro _; rfl)
    | (with_reducible refine nextOr_keeps (ok_keeps ?_) ?_)
    | (with_reducible refine State.restartTack_keeps ?_ ?_)
    | (with_reducible refine State.startFirmware_keeps ?_ ?_)
    | (with_reducible refine ite_keeps ?_ ?_)
    | split
    | dsimp only [id])

theorem execWatchdogSecondExpiry_keeps (u : Keeps [.freeCtr, .cmp, .drm, .run, .hq, .txn, .blw, .glb, .irc, .tck, .log, .sem, .flt, .grt] P) (k : P s) : ∀ t, execWatchdogSecondExpiry s = .next t → P t := by
  intro t e
  injection e with e
  rw [← e]
  clear e
  repeat' (first
    | with_reducible assumption
    | (with_reducible refine u.mono ?_; decide)
    | (intro _ h; exact h)
    | (intro h; exact h)
    | (intro _; rfl)
    | (with_reducible refine nextOr_keeps (ok_keeps ?_) ?_)
    | (with_reducible refine State.modTck_keeps ?_ ?_ ?_)
    | (with_reducible refine State.holdTack_keeps ?_ ?_)
    | (with_reducible refine State.restartTack_keeps ?_ ?_)
    | (with_reducible refine ite_keeps ?_ ?_)
    | split
    | dsimp only [id])

theorem execFaultReport_keeps (u : Keeps [.freeCtr, .ras, .enc, .dec, .cmp, .out, .cores, .drm, .run, .hq, .txn, .blw, .fsh, .glb, .irc, .tck, .log, .sem, .flt, .grt] P) {a0 : List Sys2Proof.Report} (k : P s) : ∀ t, execFaultReport a0 s = .next t → P t := by
  intro t e
  injection e with e
  rw [← e]
  clear e
  repeat' (first
    | with_reducible assumption
    | (with_reducible refine u.mono ?_; decide)
    | (intro _ h; exact h)
    | (intro h; exact h)
    | (intro _; rfl)
    | (with_reducible refine nextOr_keeps (ok_keeps ?_) ?_)
    | (with_reducible refine State.collect_keeps ?_ ?_)
    | (with_reducible refine ite_keeps ?_ ?_)
    | split
    | dsimp only [id])

theorem execReloadDone_keeps (u : Keeps [.flt] P) {a0 : Nat} (k : P s) : ∀ t, execReloadDone a0 s = .next t → P t := by
  intro t e
  injection e with e
  rw [← e]
  clear e
  repeat' (first
    | with_reducible assumption
    | (with_reducible refine u.mono ?_; decide)
    | (with_reducible refine nextOr_keeps (ok_keeps ?_) ?_)
    | (with_reducible refine State.modFltSrc_keeps ?_ ?_)
    | (with_reducible refine ite_keeps ?_ ?_)
    | split
    | dsimp only [id])

theorem execWireCheck_keeps (u : Keeps [.freeCtr, .ras, .enc, .dec, .cmp, .out, .cores, .drm, .run, .hq, .txn, .blw, .fsh, .glb, .irc, .tck, .log, .sem, .flt, .grt] P) {a0 : Nat} {a1 : Bool} (k : P s) : ∀ t, execWireCheck a0 a1 s = .next t → P t := by
  intro t e
  injection e with e
  rw [← e]
  clear e
  repeat' (first
    | with_reducible assumption
    | (with_reducible refine u.mono ?_; decide)
    | (intro _ h; exact h)
    | (intro h; exact h)
    | (intro _; rfl)
    | (with_reducible refine nextOr_keeps (ok_keeps ?_) ?_)
    | (with_reducible refine State.modFltSrc_keeps ?_ ?_)
    | (with_reducible refine State.wireFault_keeps ?_ ?_)
    | (with_reducible refine ite_keeps ?_ ?_)
    | split
    | dsimp only [id])

theorem execWireCodeInvalid_keeps (u : Keeps [.freeCtr, .ras, .enc, .dec, .cmp, .out, .cores, .drm, .run, .hq, .txn, .blw, .fsh, .glb, .irc, .tck, .log, .sem, .flt, .grt] P) {a0 : Nat} (k : P s) : ∀ t, execWireCodeInvalid a0 s = .next t → P t := by
  intro t e
  injection e with e
  rw [← e]
  clear e
  repeat' (first
    | with_reducible assumption
    | (with_reducible refine u.mono ?_; decide)
    | (intro _ h; exact h)
    | (intro h; exact h)
    | (intro _; rfl)
    | (with_reducible refine nextOr_keeps (ok_keeps ?_) ?_)
    | (with_reducible refine State.wireFault_keeps ?_ ?_)
    | (with_reducible refine ite_keeps ?_ ?_)
    | split
    | dsimp only [id])

theorem execFaultForce_keeps (u : Keeps [.freeCtr, .ras, .enc, .dec, .cmp, .out, .cores, .drm, .run, .hq, .txn, .blw, .fsh, .glb, .irc, .tck, .log, .sem, .flt, .grt] P) {a0 : Sys2Proof.Writer} {a1 : Nat} {a2 : Sys2Proof.Word} (k : P s) : ∀ t, execFaultForce a0 a1 a2 s = .next t → P t := by
  intro t e
  injection e with e
  rw [← e]
  clear e
  repeat' (first
    | with_reducible assumption
    | (with_reducible refine u.mono ?_; decide)
    | (intro _ h; exact h)
    | (intro h; exact h)
    | (intro _; rfl)
    | (with_reducible refine nextOr_keeps (ok_keeps ?_) ?_)
    | (with_reducible refine State.werr_keeps ?_ ?_)
    | (with_reducible refine State.setFltSrc_keeps ?_ ?_)
    | (with_reducible refine ite_keeps ?_ ?_)
    | split
    | dsimp only [id])

theorem execFltStatClear_keeps (u : Keeps [.flt] P) {a0 : Sys2Proof.Word} (k : P s) : ∀ t, execFltStatClear a0 s = .next t → P t := by
  intro t e
  injection e with e
  rw [← e]
  clear e
  repeat' (first
    | with_reducible assumption
    | (with_reducible refine u.mono ?_; decide)
    | (with_reducible refine nextOr_keeps (ok_keeps ?_) ?_)
    | (with_reducible refine State.setFltStat_keeps ?_ ?_)
    | (with_reducible refine ite_keeps ?_ ?_)
    | split
    | dsimp only [id])

end Sys2Proof.Machine
end

