-- ==== Sys2Proof/Laws/ModeReq.lean ====
section
/-! SUPPORT. What each operation of ModeReq keeps. -/

namespace Sys2Proof.Machine

set_option linter.unreachableTactic false
set_option linter.unusedTactic false

variable {P : State → Prop} {s : State}

theorem State.refuseReq_keeps (u : Keeps [.glb] P) {a0 : BitVec 3} (k : P s) : P (State.refuseReq a0 s) := by
  unfold State.refuseReq
  repeat' (first
    | with_reducible assumption
    | (with_reducible refine u.mono ?_; decide)
    | (with_reducible refine State.modGlb_keeps ?_ ?_)
    | (with_reducible refine ite_keeps ?_ ?_)
    | split
    | dsimp only [id])

theorem State.restCores_keeps (u : Keeps [.freeCtr, .cores, .blw, .log, .sem] P) {a0 : BitVec 2} (k : P s) : P (State.restCores a0 s) := by
  unfold State.restCores
  repeat' (first
    | with_reducible assumption
    | (with_reducible refine u.mono ?_; decide)
    | (with_reducible refine State.each_keeps (fun _ _ _ => ?_) ?_)
    | (with_reducible refine State.powerDown_keeps ?_ ?_)
    | (with_reducible refine ite_keeps ?_ ?_)
    | split
    | dsimp only [id])

theorem State.restPorts_keeps (u : Keeps [.ras, .out, .run, .irc, .log, .grt] P) (k : P s) : P (State.restPorts s) := by
  unfold State.restPorts
  repeat' (first
    | with_reducible assumption
    | (with_reducible refine u.mono ?_; decide)
    | (intro _ h; exact h)
    | (intro h; exact h)
    | (intro _; rfl)
    | (with_reducible refine State.each_keeps (fun _ _ _ => ?_) ?_)
    | (with_reducible refine State.latch_keeps ?_ ?_)
    | (with_reducible refine State.modEth_keeps ?_ ?_)
    | (with_reducible refine State.setDpoLink_keeps ?_ ?_)
    | (with_reducible refine State.modDpo_keeps ?_ ?_)
    | (with_reducible refine State.setDpiLink_keeps ?_ ?_)
    | (with_reducible refine State.modDpi_keeps ?_ ?_)
    | (with_reducible refine State.noteClk_keeps ?_ ?_)
    | (with_reducible refine State.clkState_keeps ?_ ?_)
    | (with_reducible refine State.modClk_keeps ?_ ?_)
    | (with_reducible refine State.modGrt_keeps ?_ ?_)
    | (with_reducible refine State.setLink_keeps ?_ ?_)
    | (with_reducible refine ite_keeps ?_ ?_)
    | split
    | dsimp only [id])

theorem State.restDram_keeps (u : Keeps [.drm] P) {a0 : ChanState} {a1 : ChanState} (k : P s) : P (State.restDram a0 a1 s) := by
  unfold State.restDram
  repeat' (first
    | with_reducible assumption
    | (with_reducible refine u.mono ?_; decide)
    | (with_reducible refine State.each_keeps (fun _ _ _ => ?_) ?_)
    | (with_reducible refine State.modChan_keeps ?_ ?_)
    | (with_reducible refine ite_keeps ?_ ?_)
    | split
    | dsimp only [id])

theorem State.flushAll_keeps (u : Keeps [.drm, .blw, .glb, .irc, .log, .flt] P) {a0 : Nat} (k : P s) : P (State.flushAll a0 s) := by
  unfold State.flushAll
  repeat' (first
    | with_reducible assumption
    | (with_reducible refine u.mono ?_; decide)
    | (intro _ h; exact h)
    | (intro h; exact h)
    | (intro _; rfl)
    | (with_reducible refine State.each_keeps (fun _ _ _ => ?_) ?_)
    | (with_reducible refine State.flushMerge_keeps ?_ ?_)
    | (with_reducible refine ite_keeps ?_ ?_)
    | split
    | dsimp only [id])

theorem State.enterRest_keeps (u : Keeps [.freeCtr, .ras, .out, .cores, .drm, .run, .blw, .glb, .irc, .log, .sem, .flt, .grt] P) {a0 : BitVec 2} (k : P s) : P (State.enterRest a0 s) := by
  unfold State.enterRest
  repeat' (first
    | with_reducible assumption
    | (with_reducible refine u.mono ?_; decide)
    | (intro _ h; exact h)
    | (intro h; exact h)
    | (intro _; rfl)
    | (with_reducible refine State.restCores_keeps ?_ ?_)
    | (with_reducible refine State.modGlb_keeps ?_ ?_)
    | (with_reducible refine State.restPorts_keeps ?_ ?_)
    | (with_reducible refine State.restDram_keeps ?_ ?_)
    | (with_reducible refine State.each_keeps (fun _ _ _ => ?_) ?_)
    | (with_reducible refine State.flushAll_keeps ?_ ?_)
    | (with_reducible refine State.setMode_keeps ?_ ?_)
    | (with_reducible refine ite_keeps ?_ ?_)
    | split
    | dsimp only [id])

theorem State.takeReq_keeps (u : Keeps [.glb] P) (k : P s) : P (State.takeReq s) := by
  unfold State.takeReq
  repeat' (first
    | with_reducible assumption
    | (with_reducible refine u.mono ?_; decide)
    | (with_reducible refine State.modGlb_keeps ?_ ?_)
    | (with_reducible refine ite_keeps ?_ ?_)
    | split
    | dsimp only [id])

theorem State.reqRest_keeps (u : Keeps [.freeCtr, .ras, .out, .cores, .drm, .run, .blw, .glb, .irc, .log, .sem, .flt, .grt] P) {a0 : BitVec 2} (k : P s) : P (State.reqRest a0 s) := by
  unfold State.reqRest
  repeat' (first
    | with_reducible assumption
    | (with_reducible refine u.mono ?_; decide)
    | (intro _ h; exact h)
    | (intro h; exact h)
    | (intro _; rfl)
    | (with_reducible refine State.refuseReq_keeps ?_ ?_)
    | (with_reducible refine State.enterRest_keeps ?_ ?_)
    | (with_reducible refine State.takeReq_keeps ?_ ?_)
    | (with_reducible refine ite_keeps ?_ ?_)
    | split
    | dsimp only [id])

theorem State.reqWake_keeps (u : Keeps [.glb] P) (k : P s) : P (State.reqWake s) := by
  unfold State.reqWake
  repeat' (first
    | with_reducible assumption
    | (with_reducible refine u.mono ?_; decide)
    | (with_reducible refine State.wake_keeps ?_ ?_)
    | (with_reducible refine State.takeReq_keeps ?_ ?_)
    | (with_reducible refine ite_keeps ?_ ?_)
    | split
    | dsimp only [id])

theorem State.reqDemote_keeps (u : Keeps [.out, .run, .blw, .glb, .irc, .log, .flt, .grt] P) (k : P s) : P (State.reqDemote s) := by
  unfold State.reqDemote
  repeat' (first
    | with_reducible assumption
    | (with_reducible refine u.mono ?_; decide)
    | (intro _ h; exact h)
    | (intro h; exact h)
    | (intro _; rfl)
    | (with_reducible refine State.refuseReq_keeps ?_ ?_)
    | (with_reducible refine State.handOver_keeps ?_ ?_)
    | (with_reducible refine State.takeReq_keeps ?_ ?_)
    | (with_reducible refine ite_keeps ?_ ?_)
    | split
    | dsimp only [id])

theorem State.setModeReq_keeps (u : Keeps [.freeCtr, .ras, .out, .cores, .drm, .run, .blw, .glb, .irc, .log, .sem, .flt, .grt] P) {a0 : Sys2Proof.Word} (k : P s) : P (State.setModeReq a0 s) := by
  unfold State.setModeReq
  repeat' (first
    | with_reducible assumption
    | (with_reducible refine u.mono ?_; decide)
    | (intro _ h; exact h)
    | (intro h; exact h)
    | (intro _; rfl)
    | (with_reducible refine State.modGlb_keeps ?_ ?_)
    | (with_reducible refine State.reqRest_keeps ?_ ?_)
    | (with_reducible refine State.reqWake_keeps ?_ ?_)
    | (with_reducible refine State.reqDemote_keeps ?_ ?_)
    | (with_reducible refine ite_keeps ?_ ?_)
    | split
    | dsimp only [id])

theorem State.confirmAdoption_keeps (u : Keeps [.freeCtr, .out, .fsh, .glb, .irc, .log] P) {a0 : Sys2Proof.Word} (k : P s) : P (State.confirmAdoption a0 s) := by
  unfold State.confirmAdoption
  repeat' (first
    | with_reducible assumption
    | (with_reducible refine u.mono ?_; decide)
    | (intro _ h; exact h)
    | (intro h; exact h)
    | (intro _; rfl)
    | (with_reducible refine State.takeRole_keeps ?_ ?_)
    | (with_reducible refine State.adoptOutcome_keeps ?_ ?_)
    | (with_reducible refine State.writeAdoption_keeps ?_ ?_)
    | (with_reducible refine ite_keeps ?_ ?_)
    | split
    | dsimp only [id])

theorem State.assertHpd_keeps (u : Keeps [.out] P) (k : P s) : P (State.assertHpd s) := by
  unfold State.assertHpd
  repeat' (first
    | with_reducible assumption
    | (with_reducible refine u.mono ?_; decide)
    | (with_reducible refine State.each_keeps (fun _ _ _ => ?_) ?_)
    | (with_reducible refine State.modDpi_keeps ?_ ?_)
    | (with_reducible refine ite_keeps ?_ ?_)
    | split
    | dsimp only [id])

theorem State.resumeTimers_keeps (u : Keeps [.tck] P) (k : P s) : P (State.resumeTimers s) := by
  unfold State.resumeTimers
  repeat' (first
    | with_reducible assumption
    | (with_reducible refine u.mono ?_; decide)
    | (intro _ h; exact h)
    | (intro h; exact h)
    | (intro _; rfl)
    | (with_reducible refine State.modTck_keeps ?_ ?_ ?_)
    | (with_reducible refine ite_keeps ?_ ?_)
    | split
    | dsimp only [id])

theorem State.writeModeReq_keeps (u : Keeps [.freeCtr, .ras, .out, .cores, .drm, .run, .blw, .glb, .irc, .log, .sem, .flt, .grt] P) {a0 : Sys2Proof.Writer} {a1 : Nat} {a2 : Sys2Proof.Word} (k : P s) : P (State.writeModeReq a0 a1 a2 s) := by
  unfold State.writeModeReq
  repeat' (first
    | with_reducible assumption
    | (with_reducible refine u.mono ?_; decide)
    | (intro _ h; exact h)
    | (intro h; exact h)
    | (intro _; rfl)
    | (with_reducible refine State.werr_keeps ?_ ?_)
    | (with_reducible refine State.setModeReq_keeps ?_ ?_)
    | (with_reducible refine ite_keeps ?_ ?_)
    | split
    | dsimp only [id])

theorem execTwinWaitExpiry_keeps (u : Keeps [.freeCtr, .out, .fsh, .glb, .irc, .log] P) (k : P s) : ∀ t, execTwinWaitExpiry s = .next t → P t := by
  intro t e
  injection e with e
  rw [← e]
  clear e
  repeat' (first
    | with_reducible assumption
    | (with_reducible refine u.mono ?_; decide)
    | (intro _ h; exact h)
    | (intro h; exact h)
    | (intro _; rfl)
    | (with_reducible refine nextOr_keeps (ok_keeps ?_) ?_)
    | (with_reducible refine State.adoptStep_keeps ?_ ?_)
    | (with_reducible refine ite_keeps ?_ ?_)
    | split
    | dsimp only [id])

theorem execAdoptConfirm_keeps (u : Keeps [.freeCtr, .out, .fsh, .glb, .irc, .log] P) {a0 : Sys2Proof.Word} (k : P s) : ∀ t, execAdoptConfirm a0 s = .next t → P t := by
  intro t e
  injection e with e
  rw [← e]
  clear e
  repeat' (first
    | with_reducible assumption
    | (with_reducible refine u.mono ?_; decide)
    | (intro _ h; exact h)
    | (intro h; exact h)
    | (intro _; rfl)
    | (with_reducible refine nextOr_keeps (ok_keeps ?_) ?_)
    | (with_reducible refine State.confirmAdoption_keeps ?_ ?_)
    | (with_reducible refine ite_keeps ?_ ?_)
    | split
    | dsimp only [id])

theorem execReqRest_keeps (u : Keeps [.freeCtr, .ras, .out, .cores, .drm, .run, .blw, .glb, .irc, .log, .sem, .flt, .grt] P) {a0 : Sys2Proof.Writer} {a1 : Sys2Proof.Word} (k : P s) : ∀ t, execReqRest a0 a1 s = .next t → P t := by
  intro t e
  injection e with e
  rw [← e]
  clear e
  repeat' (first
    | with_reducible assumption
    | (with_reducible refine u.mono ?_; decide)
    | (intro _ h; exact h)
    | (intro h; exact h)
    | (intro _; rfl)
    | (with_reducible refine nextOr_keeps (ok_keeps ?_) ?_)
    | (with_reducible refine State.writeModeReq_keeps ?_ ?_)
    | (with_reducible refine ite_keeps ?_ ?_)
    | split
    | dsimp only [id])

theorem execReqWake_keeps (u : Keeps [.freeCtr, .ras, .out, .cores, .drm, .run, .blw, .glb, .irc, .log, .sem, .flt, .grt] P) {a0 : Sys2Proof.Writer} {a1 : Sys2Proof.Word} (k : P s) : ∀ t, execReqWake a0 a1 s = .next t → P t := by
  intro t e
  injection e with e
  rw [← e]
  clear e
  repeat' (first
    | with_reducible assumption
    | (with_reducible refine u.mono ?_; decide)
    | (intro _ h; exact h)
    | (intro h; exact h)
    | (intro _; rfl)
    | (with_reducible refine nextOr_keeps (ok_keeps ?_) ?_)
    | (with_reducible refine State.writeModeReq_keeps ?_ ?_)
    | (with_reducible refine ite_keeps ?_ ?_)
    | split
    | dsimp only [id])

theorem execReqDemote_keeps (u : Keeps [.freeCtr, .ras, .out, .cores, .drm, .run, .blw, .glb, .irc, .log, .sem, .flt, .grt] P) {a0 : Sys2Proof.Writer} {a1 : Sys2Proof.Word} (k : P s) : ∀ t, execReqDemote a0 a1 s = .next t → P t := by
  intro t e
  injection e with e
  rw [← e]
  clear e
  repeat' (first
    | with_reducible assumption
    | (with_reducible refine u.mono ?_; decide)
    | (intro _ h; exact h)
    | (intro h; exact h)
    | (intro _; rfl)
    | (with_reducible refine nextOr_keeps (ok_keeps ?_) ?_)
    | (with_reducible refine State.writeModeReq_keeps ?_ ?_)
    | (with_reducible refine ite_keeps ?_ ?_)
    | split
    | dsimp only [id])

theorem execWakePin_keeps (u : Keeps [.glb] P) (k : P s) : ∀ t, execWakePin s = .next t → P t := by
  intro t e
  injection e with e
  rw [← e]
  clear e
  repeat' (first
    | with_reducible assumption
    | (with_reducible refine u.mono ?_; decide)
    | (with_reducible refine nextOr_keeps (ok_keeps ?_) ?_)
    | (with_reducible refine State.wake_keeps ?_ ?_)
    | (with_reducible refine ite_keeps ?_ ?_)
    | split
    | dsimp only [id])

theorem execRestExitDone_keeps (u : Keeps [.out, .drm, .blw, .glb, .irc, .tck, .log, .grt] P) (k : P s) : ∀ t, execRestExitDone s = .next t → P t := by
  intro t e
  injection e with e
  rw [← e]
  clear e
  repeat' (first
    | with_reducible assumption
    | (with_reducible refine u.mono ?_; decide)
    | (intro _ h; exact h)
    | (intro h; exact h)
    | (intro _; rfl)
    | (with_reducible refine nextOr_keeps (ok_keeps ?_) ?_)
    | (with_reducible refine State.modGlb_keeps ?_ ?_)
    | (with_reducible refine State.restDram_keeps ?_ ?_)
    | (with_reducible refine State.resumeTimers_keeps ?_ ?_)
    | (with_reducible refine State.askWakes_keeps ?_ ?_)
    | (with_reducible refine State.assertHpd_keeps ?_ ?_)
    | (with_reducible refine State.trainLink_keeps ?_ ?_)
    | (with_reducible refine State.setMode_keeps ?_ ?_)
    | (with_reducible refine ite_keeps ?_ ?_)
    | split
    | dsimp only [id])

end Sys2Proof.Machine
end

