-- ==== Sys2Proof/Laws/RegTop.lean ====
section
/-! SUPPORT. What each operation of RegTop keeps. -/

namespace Sys2Proof.Machine

set_option linter.unreachableTactic false
set_option linter.unusedTactic false

variable {P : State → Prop} {s : State}

theorem State.outOfStep_keeps (u : Keeps [.grt] P) {a0 : Nat} (k : P s) : P (State.outOfStep a0 s) := by
  unfold State.outOfStep
  repeat' (first
    | with_reducible assumption
    | (with_reducible refine u.mono ?_; decide)
    | (with_reducible refine State.modGrt_keeps ?_ ?_)
    | (with_reducible refine ite_keeps ?_ ?_)
    | split
    | dsimp only [id])

theorem State.journalPut_keeps (u : Keeps [.txn] P) {a0 : Nat} {a1 : Sys2Proof.Word} (k : P s) : P (State.journalPut a0 a1 s) := by
  unfold State.journalPut
  repeat' (first
    | with_reducible assumption
    | (with_reducible refine u.mono ?_; decide)
    | (with_reducible refine State.modTxn_keeps ?_ ?_)
    | (with_reducible refine ite_keeps ?_ ?_)
    | split
    | dsimp only [id])

theorem State.setIntent_keeps (u : Keeps [.out, .txn] P) {a0 : Nat} {a1 : Bool} (k : P s) : P (State.setIntent a0 a1 s) := by
  unfold State.setIntent
  repeat' (first
    | with_reducible assumption
    | (with_reducible refine u.mono ?_; decide)
    | (with_reducible refine State.journalPut_keeps ?_ ?_)
    | (with_reducible refine State.modOutP_keeps ?_ ?_)
    | (with_reducible refine ite_keeps ?_ ?_)
    | split
    | dsimp only [id])

theorem State.semOp_keeps (u : Keeps [.log, .sem] P) {a0 : Nat} {a1 : BitVec 9} {a2 : Sys2Proof.Word} (k : P s) : P (State.semOp a0 a1 a2 s) := by
  unfold State.semOp
  repeat' (first
    | with_reducible assumption
    | (with_reducible refine u.mono ?_; decide)
    | (with_reducible refine State.semRelease_keeps ?_ ?_)
    | (with_reducible refine State.semRecover_keeps ?_ ?_)
    | (with_reducible refine State.semBreakOp_keeps ?_ ?_)
    | (with_reducible refine ite_keeps ?_ ?_)
    | split
    | dsimp only [id])

theorem State.setDpo_keeps (u : Keeps [.out, .txn] P) {a0 : Nat} {a1 : Sys2Proof.Word} (k : P s) : P (State.setDpo a0 a1 s) := by
  unfold State.setDpo
  repeat' (first
    | with_reducible assumption
    | (with_reducible refine u.mono ?_; decide)
    | (with_reducible refine State.modDpo_keeps ?_ ?_)
    | (with_reducible refine State.setIntent_keeps ?_ ?_)
    | (with_reducible refine ite_keeps ?_ ?_)
    | split
    | dsimp only [id])

theorem State.reacquire_keeps (u : Keeps [.ras, .out, .irc, .log] P) {a0 : Nat} (k : P s) : P (State.reacquire a0 s) := by
  unfold State.reacquire
  repeat' (first
    | with_reducible assumption
    | (with_reducible refine u.mono ?_; decide)
    | (intro _ h; exact h)
    | (intro h; exact h)
    | (intro _; rfl)
    | (with_reducible refine State.raise_keeps ?_ ?_)
    | (with_reducible refine State.dropMisfits_keeps ?_ ?_)
    | (with_reducible refine State.setInState_keeps ?_ ?_)
    | (with_reducible refine State.modRaster_keeps ?_ ?_)
    | (with_reducible refine State.judgeStream_keeps ?_ ?_)
    | (with_reducible refine ite_keeps ?_ ?_)
    | split
    | dsimp only [id])

theorem State.pulseHpd_keeps (u : Keeps [.out] P) {a0 : Nat} (k : P s) : P (State.pulseHpd a0 s) := by
  unfold State.pulseHpd
  repeat' (first
    | with_reducible assumption
    | (with_reducible refine u.mono ?_; decide)
    | (with_reducible refine State.modDpi_keeps ?_ ?_)
    | (with_reducible refine ite_keeps ?_ ?_)
    | split
    | dsimp only [id])

theorem State.setDpi_keeps (u : Keeps [.ras, .out, .irc, .log] P) {a0 : Nat} {a1 : Sys2Proof.Word} (k : P s) : P (State.setDpi a0 a1 s) := by
  unfold State.setDpi
  repeat' (first
    | with_reducible assumption
    | (with_reducible refine u.mono ?_; decide)
    | (intro _ h; exact h)
    | (intro h; exact h)
    | (intro _; rfl)
    | (with_reducible refine State.modDpi_keeps ?_ ?_)
    | (with_reducible refine State.reacquire_keeps ?_ ?_)
    | (with_reducible refine State.pulseHpd_keeps ?_ ?_)
    | (with_reducible refine nextOr_keeps ?_)
    | (with_reducible refine nextOr_keeps (execDpiLinkDown_keeps ?_ ?_) ?_)
    | (with_reducible refine ite_keeps ?_ ?_)
    | split
    | dsimp only [id])

theorem State.setEdid_keeps (u : Keeps [.out] P) {a0 : Nat} {a1 : Nat} {a2 : Sys2Proof.Word} (k : P s) : P (State.setEdid a0 a1 a2 s) := by
  unfold State.setEdid
  repeat' (first
    | with_reducible assumption
    | (with_reducible refine u.mono ?_; decide)
    | (with_reducible refine State.whenB_keeps (fun _ _ => ?_) ?_)
    | (with_reducible refine State.pulseHpd_keeps ?_ ?_)
    | (with_reducible refine State.modDpi_keeps ?_ ?_)
    | (with_reducible refine ite_keeps ?_ ?_)
    | split
    | dsimp only [id])

theorem State.setHqCtl_keeps (u : Keeps [.hq] P) {a0 : Sys2Proof.Word} (k : P s) : P (State.setHqCtl a0 s) := by
  unfold State.setHqCtl
  repeat' (first
    | with_reducible assumption
    | (with_reducible refine u.mono ?_; decide)
    | (intro _ h; exact h)
    | (intro h; exact h)
    | (intro _; rfl)
    | (with_reducible refine State.modHq_keeps ?_ ?_ ?_)
    | (with_reducible refine State.modHqQ_keeps ?_ ?_)
    | (with_reducible refine ite_keeps ?_ ?_)
    | split
    | dsimp only [id])

theorem State.hold_keeps (u : Keeps [.hq] P) {a0 : Sys2Proof.Writer} {a1 : Nat} {a2 : Sys2Proof.Word} (k : P s) : P (State.hold a0 a1 a2 s) := by
  unfold State.hold
  repeat' (first
    | with_reducible assumption
    | (with_reducible refine u.mono ?_; decide)
    | (intro _ h; exact h)
    | (intro h; exact h)
    | (intro _; rfl)
    | (with_reducible refine State.modHq_keeps ?_ ?_ ?_)
    | (with_reducible refine ite_keeps ?_ ?_)
    | split
    | dsimp only [id])

theorem State.unhold_keeps (u : Keeps [.hq] P) {a0 : Sys2Proof.Writer} {a1 : Nat → Bool} (k : P s) : P (State.unhold a0 a1 s) := by
  unfold State.unhold
  repeat' (first
    | with_reducible assumption
    | (with_reducible refine u.mono ?_; decide)
    | (intro _ h; exact h)
    | (intro h; exact h)
    | (intro _; rfl)
    | (with_reducible refine State.modHq_keeps ?_ ?_ ?_)
    | (with_reducible refine ite_keeps ?_ ?_)
    | split
    | dsimp only [id])

theorem State.setWide_keeps (u : Keeps [.hq] P) {a0 : Writer} {a1 : Bool} {a2 a3 : Nat} {a4 : Hq → BitVec 64}
    {a5 : BitVec 64 → Hq → Hq} {a6 : Word} (h : ∀ v x, (a5 v x).hostMem = x.hostMem) (k : P s) :
    P (State.setWide a0 a1 a2 a3 a4 a5 a6 s) := by
  unfold State.setWide
  repeat' (first
    | with_reducible assumption
    | (with_reducible refine u.mono ?_; decide)
    | (intro _ e; rw [h]; exact e)
    | (intro _ e; exact e)
    | (with_reducible refine State.modHq_keeps ?_ ?_ ?_)
    | (with_reducible refine State.hold_keeps ?_ ?_)
    | (with_reducible refine State.unhold_keeps ?_ ?_)
    | (with_reducible refine ite_keeps ?_ ?_)
    | split)

theorem State.queueError_keeps (u : Keeps [.irc, .log] P) {a0 : Nat} {a1 : Nat} (k : P s) : P (State.queueError a0 a1 s) := by
  unfold State.queueError
  repeat' (first
    | with_reducible assumption
    | (with_reducible refine u.mono ?_; decide)
    | (intro _ h; exact h)
    | (intro h; exact h)
    | (intro _; rfl)
    | (with_reducible refine State.limited_keeps ?_ (fun _ _ => ?_) ?_)
    | (with_reducible refine State.raiseFn_keeps ?_ ?_)
    | (with_reducible refine State.latch_keeps ?_ ?_)
    | (with_reducible refine ite_keeps ?_ ?_)
    | split
    | dsimp only [id])

theorem State.newHead_keeps (u : Keeps [.enc, .hq, .irc, .log] P) {a0 : Nat} {a1 : Nat} (k : P s) : P (State.newHead a0 a1 s) := by
  unfold State.newHead
  repeat' (first
    | with_reducible assumption
    | (with_reducible refine u.mono ?_; decide)
    | (intro _ h; exact h)
    | (intro h; exact h)
    | (intro _; rfl)
    | (with_reducible refine State.queueError_keeps ?_ ?_)
    | (with_reducible refine State.modHqQ_keeps ?_ ?_)
    | (with_reducible refine State.pageEntry_keeps ?_ ?_)
    | (with_reducible refine ite_keeps ?_ ?_)
    | split
    | dsimp only [id])

theorem State.newTail_keeps (u : Keeps [.hq, .irc, .log] P) {a0 : Nat} {a1 : Nat} (k : P s) : P (State.newTail a0 a1 s) := by
  unfold State.newTail
  repeat' (first
    | with_reducible assumption
    | (with_reducible refine u.mono ?_; decide)
    | (intro _ h; exact h)
    | (intro h; exact h)
    | (intro _; rfl)
    | (with_reducible refine State.queueError_keeps ?_ ?_)
    | (with_reducible refine State.modHqQ_keeps ?_ ?_)
    | (with_reducible refine ite_keeps ?_ ?_)
    | split
    | dsimp only [id])

theorem State.doorbell_keeps (u : Keeps [.enc, .hq, .glb, .irc, .log] P) {a0 : Nat} {a1 : Bool} {a2 : Sys2Proof.Word} (k : P s) : P (State.doorbell a0 a1 a2 s) := by
  unfold State.doorbell
  repeat' (first
    | with_reducible assumption
    | (with_reducible refine u.mono ?_; decide)
    | (intro _ h; exact h)
    | (intro h; exact h)
    | (intro _; rfl)
    | (with_reducible refine State.wakeBy_keeps ?_ ?_)
    | (with_reducible refine State.newHead_keeps ?_ ?_)
    | (with_reducible refine State.modHqQ_keeps ?_ ?_)
    | (with_reducible refine State.newTail_keeps ?_ ?_)
    | (with_reducible refine ite_keeps ?_ ?_)
    | split
    | dsimp only [id])

theorem State.setDma_keeps (u : Keeps [.freeCtr, .cmp, .drm, .run, .blw, .glb, .irc, .tck, .log, .sem, .flt] P) {a0 : Nat} {a1 : Sys2Proof.Word} (k : P s) : P (State.setDma a0 a1 s) := by
  unfold State.setDma
  repeat' (first
    | with_reducible assumption
    | (with_reducible refine u.mono ?_; decide)
    | (intro _ h; exact h)
    | (intro h; exact h)
    | (intro _; rfl)
    | (with_reducible refine State.modDma_keeps ?_ ?_)
    | (with_reducible refine State.dmaArbitrate_keeps ?_ ?_)
    | (with_reducible refine State.stopChannel_keeps ?_ ?_)
    | (with_reducible refine State.dmaStartAll_keeps ?_ ?_)
    | (with_reducible refine ite_keeps ?_ ?_)
    | split
    | dsimp only [id])

theorem State.stopEncode_keeps (u : Keeps [.enc, .cores] P) {a0 : Nat} (k : P s) : P (State.stopEncode a0 s) := by
  unfold State.stopEncode
  repeat' (first
    | with_reducible assumption
    | (with_reducible refine u.mono ?_; decide)
    | (with_reducible refine State.modCores_keeps ?_ ?_)
    | (with_reducible refine State.modEncS_keeps ?_ ?_)
    | (with_reducible refine ite_keeps ?_ ?_)
    | split
    | dsimp only [id])

theorem State.stopDecode_keeps (u : Keeps [.freeCtr, .dec, .cmp, .cores, .drm, .blw, .irc, .log, .grt] P) {a0 : Nat} (k : P s) : P (State.stopDecode a0 s) := by
  unfold State.stopDecode
  repeat' (first
    | with_reducible assumption
    | (with_reducible refine u.mono ?_; decide)
    | (intro _ h; exact h)
    | (intro h; exact h)
    | (intro _; rfl)
    | (with_reducible refine State.withLedger_keeps ?_ (fun _ _ => ?_) ?_)
    | (with_reducible refine State.withStatus_keeps ?_ (fun _ _ => ?_) ?_)
    | (with_reducible refine State.modDecS_keeps ?_ ?_)
    | (with_reducible refine State.freeBuffers_keeps ?_ ?_)
    | (with_reducible refine State.clearContext_keeps ?_ ?_)
    | (with_reducible refine State.dropTasks_keeps ?_ ?_)
    | (with_reducible refine ite_keeps ?_ ?_)
    | split
    | dsimp only [id])

theorem State.setStream_keeps (u : Keeps [.freeCtr, .enc, .dec, .cmp, .cores, .drm, .txn, .blw, .irc, .log, .grt] P) {a0 : Nat} {a1 : Nat} {a2 : Sys2Proof.Word} (k : P s) : P (State.setStream a0 a1 a2 s) := by
  unfold State.setStream
  repeat' (first
    | with_reducible assumption
    | (with_reducible refine u.mono ?_; decide)
    | (intro _ h; exact h)
    | (intro h; exact h)
    | (intro _; rfl)
    | (with_reducible refine State.setStreamWord_keeps ?_ ?_)
    | (with_reducible refine State.stopEncode_keeps ?_ ?_)
    | (with_reducible refine State.stopDecode_keeps ?_ ?_)
    | (with_reducible refine ite_keeps ?_ ?_)
    | split
    | dsimp only [id])

theorem State.setBank_keeps (u : Keeps [.cores, .hq] P) {a0 : Sys2Proof.Writer} {a1 : Nat} {a2 : Nat} {a3 : Nat} {a4 : Nat} {a5 : Sys2Proof.Word} (k : P s) : P (State.setBank a0 a1 a2 a3 a4 a5 s) := by
  unfold State.setBank
  repeat' (first
    | with_reducible assumption
    | (with_reducible refine u.mono ?_; decide)
    | (intro _ h; exact h)
    | (intro h; exact h)
    | (intro _; rfl)
    | (with_reducible refine State.hold_keeps ?_ ?_)
    | (with_reducible refine State.unhold_keeps ?_ ?_)
    | (with_reducible refine State.modCore_keeps ?_ ?_)
    | (with_reducible refine foldl_fst_keeps (fun _ _ _ => ?_) ?_)
    | (with_reducible refine foldl_keeps (fun _ _ _ => ?_) ?_)
    | (with_reducible refine ite_keeps ?_ ?_)
    | split
    | dsimp only [id])

theorem State.putReg_keeps (u : Keeps [.freeCtr, .ras, .enc, .dec, .cmp, .out, .cores, .drm, .run, .hq, .txn, .blw, .fsh, .glb, .irc, .tck, .log, .sem, .flt, .grt] P) {a0 : Sys2Proof.Writer} {a1 : Bool} {a2 : Option Nat} {a3 : Reg} {a4 : Sys2Proof.Word} (k : P s) : P (State.putReg a0 a1 a2 a3 a4 s) := by
  unfold State.putReg
  repeat' (first
    | with_reducible assumption
    | (with_reducible refine u.mono ?_; decide)
    | (intro _ h; exact h)
    | (intro h; exact h)
    | (intro _; rfl)
    | (with_reducible refine State.setModeReq_keeps ?_ ?_)
    | (with_reducible refine State.confirmAdoption_keeps ?_ ?_)
    | (with_reducible refine State.setPlain_keeps ?_ ?_)
    | (with_reducible refine State.modGlb_keeps ?_ ?_)
    | (with_reducible refine State.setFltSrc_keeps ?_ ?_)
    | (with_reducible refine State.setFltStat_keeps ?_ ?_)
    | (with_reducible refine nextOr_keeps ?_)
    | (with_reducible refine nextOr_keeps (execIrcEoi_keeps ?_ ?_) ?_)
    | (with_reducible refine nextOr_keeps (execIrcBlkAck_keeps ?_ ?_) ?_)
    | (with_reducible refine State.setEvent_keeps ?_ ?_)
    | (with_reducible refine State.semOp_keeps ?_ ?_)
    | (with_reducible refine nextOr_keeps (execCorFaultClear_keeps ?_ ?_) ?_)
    | (with_reducible refine nextOr_keeps (execPtnSwap_keeps ?_ ?_) ?_)
    | (with_reducible refine State.setDpo_keeps ?_ ?_)
    | (with_reducible refine State.setDpi_keeps ?_ ?_)
    | (with_reducible refine nextOr_keeps (execDpiReasonClear_keeps ?_ ?_) ?_)
    | (with_reducible refine State.setEdid_keeps ?_ ?_)
    | (with_reducible refine nextOr_keeps (execDrmErrqRetire_keeps ?_ ?_) ?_)
    | (with_reducible refine State.setHqCtl_keeps ?_ ?_)
    | (with_reducible refine State.setWide_keeps ?_ ?_ ?_)
    | (with_reducible refine State.doorbell_keeps ?_ ?_)
    | (with_reducible refine State.modTck_keeps ?_ ?_ ?_)
    | (with_reducible refine nextOr_keeps (execTimerAck_keeps ?_ ?_) ?_)
    | (with_reducible refine State.setDma_keeps ?_ ?_)
    | (with_reducible refine nextOr_keeps (execUartTxWrite_keeps ?_ ?_) ?_)
    | (with_reducible refine nextOr_keeps (execUartStatusClear_keeps ?_ ?_) ?_)
    | (with_reducible refine State.setStream_keeps ?_ ?_)
    | (with_reducible refine State.setBank_keeps ?_ ?_)
    | (intro x h; rw [Tck.wdogApply_sram]; exact h)
    | (intro _ _; rfl)
    | (with_reducible refine ite_keeps ?_ ?_)
    | split
    | dsimp only [id])

theorem State.applyWrites_keeps (u : Keeps [.freeCtr, .ras, .enc, .dec, .cmp, .out, .cores, .drm, .run, .hq, .txn, .blw, .fsh, .glb, .irc, .tck, .log, .sem, .flt, .grt] P) {a0 : Sys2Proof.Writer} {a1 : Option Nat} {a2 : List (Nat × Sys2Proof.Word)} (k : P s) : P (State.applyWrites a0 a1 a2 s).1 := by
  unfold State.applyWrites
  repeat' (first
    | with_reducible assumption
    | (with_reducible refine u.mono ?_; decide)
    | (intro _ h; exact h)
    | (intro h; exact h)
    | (intro _; rfl)
    | (with_reducible refine State.setIntent_keeps ?_ ?_)
    | (with_reducible refine State.putReg_keeps ?_ ?_)
    | (with_reducible refine foldl_fst_keeps (fun _ _ _ => ?_) ?_)
    | (with_reducible refine foldl_keeps (fun _ _ _ => ?_) ?_)
    | (with_reducible refine ite_keeps ?_ ?_)
    | split
    | dsimp only [id])
theorem State.applyWrites_keeps_of (u : Keeps [.freeCtr, .ras, .enc, .dec, .cmp, .out, .cores, .drm, .run, .hq, .txn, .blw, .fsh, .glb, .irc, .tck, .log, .sem, .flt, .grt] P) {a0 : Sys2Proof.Writer} {a1 : Option Nat} {a2 : List (Nat × Sys2Proof.Word)} {t r} (k : P s) (e : State.applyWrites a0 a1 a2 s = (t, r)) : P t := by
  have h := State.applyWrites_keeps (P := P) u (a0 := a0) (a1 := a1) (a2 := a2) k
  rw [e] at h
  exact h

theorem State.tryCommit_keeps (u : Keeps [.freeCtr, .ras, .enc, .dec, .cmp, .out, .cores, .drm, .run, .hq, .txn, .blw, .fsh, .glb, .irc, .tck, .log, .sem, .flt, .grt] P) {a0 : Sys2Proof.Writer} {a1 : Option Nat} {a2 : List (Nat × Sys2Proof.Word)} (k : P s) : P (State.tryCommit a0 a1 a2 s).1 := by
  unfold State.tryCommit
  repeat' (first
    | with_reducible assumption
    | (with_reducible refine u.mono ?_; decide)
    | (intro _ h; exact h)
    | (intro h; exact h)
    | (intro _; rfl)
    | (with_reducible refine State.applyWrites_keeps ?_ ?_)
    | (with_reducible refine State.applyWrites_keeps_of ?_ ?_ (by assumption))
    | (with_reducible refine State.redrawAll_keeps ?_ ?_)
    | (with_reducible refine State.each_keeps (fun _ _ _ => ?_) ?_)
    | (with_reducible refine State.retest_keeps ?_ ?_)
    | (with_reducible refine ite_keeps ?_ ?_)
    | split
    | dsimp only [id])
theorem State.tryCommit_keeps_of (u : Keeps [.freeCtr, .ras, .enc, .dec, .cmp, .out, .cores, .drm, .run, .hq, .txn, .blw, .fsh, .glb, .irc, .tck, .log, .sem, .flt, .grt] P) {a0 : Sys2Proof.Writer} {a1 : Option Nat} {a2 : List (Nat × Sys2Proof.Word)} {t r} (k : P s) (e : State.tryCommit a0 a1 a2 s = (t, r)) : P t := by
  have h := State.tryCommit_keeps (P := P) u (a0 := a0) (a1 := a1) (a2 := a2) k
  rw [e] at h
  exact h

theorem State.markChange_keeps (u : Keeps [.ras] P) (k : P s) : P (State.markChange s) := by
  unfold State.markChange
  repeat' (first
    | with_reducible assumption
    | (with_reducible refine u.mono ?_; decide)
    | (with_reducible refine State.each_keeps (fun _ _ _ => ?_) ?_)
    | (with_reducible refine State.modRaster_keeps ?_ ?_)
    | (with_reducible refine ite_keeps ?_ ?_)
    | split
    | dsimp only [id])

theorem State.quenchEvents_keeps (u : Keeps [.log] P) {a0 : State} (k : P s) : P (State.quenchEvents a0 s) := by
  unfold State.quenchEvents
  repeat' (first
    | with_reducible assumption
    | (with_reducible refine u.mono ?_; decide)
    | (with_reducible refine State.each_keeps (fun _ _ _ => ?_) ?_)
    | (with_reducible refine State.limited_keeps ?_ (fun _ _ => ?_) ?_)
    | (with_reducible refine State.raiseP_keeps ?_ ?_)
    | (with_reducible refine ite_keeps ?_ ?_)
    | split
    | dsimp only [id])

theorem State.commitTxn_keeps (u : Keeps [.freeCtr, .ras, .enc, .dec, .cmp, .out, .cores, .drm, .run, .hq, .txn, .blw, .fsh, .glb, .irc, .tck, .log, .sem, .flt, .grt] P) {a0 : Nat} (k : P s) : P (State.commitTxn a0 s) := by
  unfold State.commitTxn
  repeat' (first
    | with_reducible assumption
    | (with_reducible refine u.mono ?_; decide)
    | (intro _ h; exact h)
    | (intro h; exact h)
    | (intro _; rfl)
    | (with_reducible refine State.endTxn_keeps ?_ ?_)
    | (with_reducible refine State.outOfStep_keeps ?_ ?_)
    | (with_reducible refine State.tryCommit_keeps ?_ ?_)
    | (with_reducible refine State.tryCommit_keeps_of ?_ ?_ (by assumption))
    | (with_reducible refine State.rejectArm_keeps ?_ ?_)
    | (with_reducible refine State.modTrans_keeps ?_ ?_)
    | (with_reducible refine State.markChange_keeps ?_ ?_)
    | (with_reducible refine State.modTxn_keeps ?_ ?_)
    | (with_reducible refine State.each_keeps (fun _ _ _ => ?_) ?_)
    | (with_reducible refine State.journalPut_keeps ?_ ?_)
    | (with_reducible refine State.markConflict_keeps ?_ ?_)
    | (with_reducible refine State.quenchEvents_keeps ?_ ?_)
    | (with_reducible refine State.wantAdmission_keeps ?_ ?_)
    | (with_reducible refine ite_keeps ?_ ?_)
    | split
    | dsimp only [id])

theorem State.armCommit_keeps (u : Keeps [.freeCtr, .ras, .enc, .dec, .cmp, .out, .cores, .drm, .run, .hq, .txn, .blw, .fsh, .glb, .irc, .tck, .log, .sem, .flt, .grt] P) {a0 : Nat} {a1 : Nat} {a2 : Nat} {a3 : ℤ} (k : P s) : P (State.armCommit a0 a1 a2 a3 s) := by
  unfold State.armCommit
  repeat' (first
    | with_reducible assumption
    | (with_reducible refine u.mono ?_; decide)
    | (intro _ h; exact h)
    | (intro h; exact h)
    | (intro _; rfl)
    | (with_reducible refine State.armTxn_keeps ?_ ?_)
    | (with_reducible refine State.mirrorTxn_keeps ?_ ?_)
    | (with_reducible refine State.commitTxn_keeps ?_ ?_)
    | (with_reducible refine ite_keeps ?_ ?_)
    | split
    | dsimp only [id])

theorem atAddr_keeps {a0 : Nat} {x : State × Option (BitVec 4)} (k : P x.1) : P (atAddr a0 x).1 := k

theorem State.opBegin_keeps (u : Keeps [.txn] P) {a0 : Sys2Proof.Writer} {a1 : Nat} (k : P s) : P (State.opBegin a0 a1 s).1 := by
  unfold State.opBegin
  repeat' (first
    | with_reducible assumption
    | (with_reducible refine u.mono ?_; decide)
    | (with_reducible refine State.beginTxn_keeps ?_ ?_)
    | (with_reducible refine ite_keeps ?_ ?_)
    | split
    | dsimp only [id])
theorem State.opBegin_keeps_of (u : Keeps [.txn] P) {a0 : Sys2Proof.Writer} {a1 : Nat} {t r} (k : P s) (e : State.opBegin a0 a1 s = (t, r)) : P t := by
  have h := State.opBegin_keeps (P := P) u (a0 := a0) (a1 := a1) k
  rw [e] at h
  exact h

theorem State.opCommit_keeps (u : Keeps [.freeCtr, .ras, .enc, .dec, .cmp, .out, .cores, .drm, .run, .hq, .txn, .blw, .fsh, .glb, .irc, .tck, .log, .sem, .flt, .grt] P) {a0 : Sys2Proof.Writer} {a1 : Nat} (k : P s) : P (State.opCommit a0 a1 s).1 := by
  unfold State.opCommit
  repeat' (first
    | with_reducible assumption
    | (with_reducible refine u.mono ?_; decide)
    | (intro _ h; exact h)
    | (intro h; exact h)
    | (intro _; rfl)
    | (with_reducible refine State.armCommit_keeps ?_ ?_)
    | (with_reducible refine ite_keeps ?_ ?_)
    | split
    | dsimp only [id])
theorem State.opCommit_keeps_of (u : Keeps [.freeCtr, .ras, .enc, .dec, .cmp, .out, .cores, .drm, .run, .hq, .txn, .blw, .fsh, .glb, .irc, .tck, .log, .sem, .flt, .grt] P) {a0 : Sys2Proof.Writer} {a1 : Nat} {t r} (k : P s) (e : State.opCommit a0 a1 s = (t, r)) : P t := by
  have h := State.opCommit_keeps (P := P) u (a0 := a0) (a1 := a1) k
  rw [e] at h
  exact h

theorem State.opAbort_keeps (u : Keeps [.hq, .txn, .irc, .grt] P) {a0 : Sys2Proof.Writer} {a1 : Nat} (k : P s) : P (State.opAbort a0 a1 s).1 := by
  unfold State.opAbort
  repeat' (first
    | with_reducible assumption
    | (with_reducible refine u.mono ?_; decide)
    | (intro _ h; exact h)
    | (intro h; exact h)
    | (intro _; rfl)
    | (with_reducible refine State.abortTxn_keeps ?_ ?_)
    | (with_reducible refine ite_keeps ?_ ?_)
    | split
    | dsimp only [id])
theorem State.opAbort_keeps_of (u : Keeps [.hq, .txn, .irc, .grt] P) {a0 : Sys2Proof.Writer} {a1 : Nat} {t r} (k : P s) (e : State.opAbort a0 a1 s = (t, r)) : P t := by
  have h := State.opAbort_keeps (P := P) u (a0 := a0) (a1 := a1) k
  rw [e] at h
  exact h

theorem State.opWdata_keeps (u : Keeps [.ras, .txn, .irc] P) {a0 : Sys2Proof.Writer} {a1 : Nat} {a2 : Sys2Proof.Word} (k : P s) : P (State.opWdata a0 a1 a2 s).1 := by
  unfold State.opWdata
  repeat' (first
    | with_reducible assumption
    | (with_reducible refine u.mono ?_; decide)
    | (intro _ h; exact h)
    | (intro h; exact h)
    | (intro _; rfl)
    | (with_reducible refine State.bufferTxn_keeps ?_ ?_)
    | (with_reducible refine State.bufferTxn_keeps_of ?_ ?_ (by assumption))
    | (with_reducible refine State.modTrans_keeps ?_ ?_)
    | (with_reducible refine ite_keeps ?_ ?_)
    | split
    | dsimp only [id])
theorem State.opWdata_keeps_of (u : Keeps [.ras, .txn, .irc] P) {a0 : Sys2Proof.Writer} {a1 : Nat} {a2 : Sys2Proof.Word} {t r} (k : P s) (e : State.opWdata a0 a1 a2 s = (t, r)) : P t := by
  have h := State.opWdata_keeps (P := P) u (a0 := a0) (a1 := a1) (a2 := a2) k
  rw [e] at h
  exact h

theorem State.setTxnWord_keeps (u : Keeps [.txn] P) {a0 : Nat} {a1 : Nat} {a2 : Sys2Proof.Word} (k : P s) : P (State.setTxnWord a0 a1 a2 s) := by
  unfold State.setTxnWord
  repeat' (first
    | with_reducible assumption
    | (with_reducible refine u.mono ?_; decide)
    | (with_reducible refine State.modTrans_keeps ?_ ?_)
    | (with_reducible refine ite_keeps ?_ ?_)
    | split
    | dsimp only [id])

theorem State.writeTxn_keeps (u : Keeps [.freeCtr, .ras, .enc, .dec, .cmp, .out, .cores, .drm, .run, .hq, .txn, .blw, .fsh, .glb, .irc, .tck, .log, .sem, .flt, .grt] P) {a0 : Sys2Proof.Writer} {a1 : Nat} {a2 : Nat} {a3 : Sys2Proof.Word} (k : P s) : P (State.writeTxn a0 a1 a2 a3 s).1 := by
  unfold State.writeTxn
  repeat' (first
    | with_reducible assumption
    | (with_reducible refine u.mono ?_; decide)
    | (intro _ h; exact h)
    | (intro h; exact h)
    | (intro _; rfl)
    | (with_reducible refine atAddr_keeps ?_)
    | (with_reducible refine atAddr_keeps_of ?_ (by assumption))
    | (with_reducible refine State.opBegin_keeps ?_ ?_)
    | (with_reducible refine State.opBegin_keeps_of ?_ ?_ (by assumption))
    | (with_reducible refine State.opCommit_keeps ?_ ?_)
    | (with_reducible refine State.opCommit_keeps_of ?_ ?_ (by assumption))
    | (with_reducible refine State.opAbort_keeps ?_ ?_)
    | (with_reducible refine State.opAbort_keeps_of ?_ ?_ (by assumption))
    | (with_reducible refine State.opWdata_keeps ?_ ?_)
    | (with_reducible refine State.opWdata_keeps_of ?_ ?_ (by assumption))
    | (with_reducible refine State.setTxnWord_keeps ?_ ?_)
    | (with_reducible refine ite_keeps ?_ ?_)
    | split
    | dsimp only [id])
theorem State.writeTxn_keeps_of (u : Keeps [.freeCtr, .ras, .enc, .dec, .cmp, .out, .cores, .drm, .run, .hq, .txn, .blw, .fsh, .glb, .irc, .tck, .log, .sem, .flt, .grt] P) {a0 : Sys2Proof.Writer} {a1 : Nat} {a2 : Nat} {a3 : Sys2Proof.Word} {t r} (k : P s) (e : State.writeTxn a0 a1 a2 a3 s = (t, r)) : P t := by
  have h := State.writeTxn_keeps (P := P) u (a0 := a0) (a1 := a1) (a2 := a2) (a3 := a3) k
  rw [e] at h
  exact h

theorem State.refuse_keeps (u : Keeps [.glb] P) {a0 : Sys2Proof.Writer} {a1 : Option (BitVec 4 × Nat)} (k : P s) : P (State.refuse a0 a1 s) := by
  unfold State.refuse
  repeat' (first
    | with_reducible assumption
    | (with_reducible refine u.mono ?_; decide)
    | (with_reducible refine State.werr_keeps ?_ ?_)
    | (with_reducible refine ite_keeps ?_ ?_)
    | split
    | dsimp only [id])

theorem State.writeAddr_keeps (u : Keeps [.freeCtr, .ras, .enc, .dec, .cmp, .out, .cores, .drm, .run, .hq, .txn, .blw, .fsh, .glb, .irc, .tck, .log, .sem, .flt, .grt] P) {a0 : Sys2Proof.Writer} {a1 : Nat} {a2 : Sys2Proof.Word} {a3 : Bool} (k : P s) : P (State.writeAddr a0 a1 a2 a3 s).1 := by
  unfold State.writeAddr
  repeat' (first
    | with_reducible assumption
    | (with_reducible refine u.mono ?_; decide)
    | (intro _ h; exact h)
    | (intro h; exact h)
    | (intro _; rfl)
    | (with_reducible refine State.werr_keeps ?_ ?_)
    | (with_reducible refine State.writeTxn_keeps ?_ ?_)
    | (with_reducible refine State.writeTxn_keeps_of ?_ ?_ (by assumption))
    | (with_reducible refine State.refuse_keeps ?_ ?_)
    | (with_reducible refine State.rejectArm_keeps ?_ ?_)
    | (with_reducible refine State.markConflict_keeps ?_ ?_)
    | (with_reducible refine State.putReg_keeps ?_ ?_)
    | (with_reducible refine ite_keeps ?_ ?_)
    | split
    | dsimp only [id])
theorem State.writeAddr_keeps_of (u : Keeps [.freeCtr, .ras, .enc, .dec, .cmp, .out, .cores, .drm, .run, .hq, .txn, .blw, .fsh, .glb, .irc, .tck, .log, .sem, .flt, .grt] P) {a0 : Sys2Proof.Writer} {a1 : Nat} {a2 : Sys2Proof.Word} {a3 : Bool} {t r} (k : P s) (e : State.writeAddr a0 a1 a2 a3 s = (t, r)) : P t := by
  have h := State.writeAddr_keeps (P := P) u (a0 := a0) (a1 := a1) (a2 := a2) (a3 := a3) k
  rw [e] at h
  exact h

theorem execRegisterWrite_keeps (u : Keeps [.freeCtr, .ras, .enc, .dec, .cmp, .out, .cores, .drm, .run, .hq, .txn, .blw, .fsh, .glb, .irc, .tck, .log, .sem, .flt, .grt] P) {a0 : Sys2Proof.Writer} {a1 : Nat} {a2 : Sys2Proof.Word} {a3 : Bool} (k : P s) : ∀ t, execRegisterWrite a0 a1 a2 a3 s = .next t → P t := by
  intro t e
  injection e with e
  rw [← e]
  clear e
  repeat' (first
    | with_reducible assumption
    | (with_reducible refine u.mono ?_; decide)
    | (intro _ h; exact h)
    | (intro h; exact h)
    | (intro _; rfl)
    | (with_reducible refine nextOr_keeps (ok_keeps ?_) ?_)
    | (with_reducible refine State.writeAddr_keeps ?_ ?_)
    | (with_reducible refine State.writeAddr_keeps_of ?_ ?_ (by assumption))
    | (with_reducible refine ite_keeps ?_ ?_)
    | split
    | dsimp only [id])

theorem execTxnOpBegin_keeps (u : Keeps [.txn, .glb] P) {a0 : Sys2Proof.Writer} {a1 : Nat} (k : P s) : ∀ t, execTxnOpBegin a0 a1 s = .next t → P t := by
  intro t e
  injection e with e
  rw [← e]
  clear e
  repeat' (first
    | with_reducible assumption
    | (with_reducible refine u.mono ?_; decide)
    | (with_reducible refine nextOr_keeps (ok_keeps ?_) ?_)
    | (with_reducible refine atAddr_keeps ?_)
    | (with_reducible refine atAddr_keeps_of ?_ (by assumption))
    | (with_reducible refine State.opBegin_keeps ?_ ?_)
    | (with_reducible refine State.opBegin_keeps_of ?_ ?_ (by assumption))
    | (with_reducible refine State.refuse_keeps ?_ ?_)
    | (with_reducible refine ite_keeps ?_ ?_)
    | split
    | dsimp only [id])

theorem execTxnOpCommit_keeps (u : Keeps [.freeCtr, .ras, .enc, .dec, .cmp, .out, .cores, .drm, .run, .hq, .txn, .blw, .fsh, .glb, .irc, .tck, .log, .sem, .flt, .grt] P) {a0 : Sys2Proof.Writer} {a1 : Nat} (k : P s) : ∀ t, execTxnOpCommit a0 a1 s = .next t → P t := by
  intro t e
  injection e with e
  rw [← e]
  clear e
  repeat' (first
    | with_reducible assumption
    | (with_reducible refine u.mono ?_; decide)
    | (intro _ h; exact h)
    | (intro h; exact h)
    | (intro _; rfl)
    | (with_reducible refine nextOr_keeps (ok_keeps ?_) ?_)
    | (with_reducible refine atAddr_keeps ?_)
    | (with_reducible refine atAddr_keeps_of ?_ (by assumption))
    | (with_reducible refine State.opCommit_keeps ?_ ?_)
    | (with_reducible refine State.opCommit_keeps_of ?_ ?_ (by assumption))
    | (with_reducible refine State.refuse_keeps ?_ ?_)
    | (with_reducible refine ite_keeps ?_ ?_)
    | split
    | dsimp only [id])

theorem execTxnOpAbort_keeps (u : Keeps [.hq, .txn, .glb, .irc, .grt] P) {a0 : Sys2Proof.Writer} {a1 : Nat} (k : P s) : ∀ t, execTxnOpAbort a0 a1 s = .next t → P t := by
  intro t e
  injection e with e
  rw [← e]
  clear e
  repeat' (first
    | with_reducible assumption
    | (with_reducible refine u.mono ?_; decide)
    | (intro _ h; exact h)
    | (intro h; exact h)
    | (intro _; rfl)
    | (with_reducible refine nextOr_keeps (ok_keeps ?_) ?_)
    | (with_reducible refine atAddr_keeps ?_)
    | (with_reducible refine atAddr_keeps_of ?_ (by assumption))
    | (with_reducible refine State.opAbort_keeps ?_ ?_)
    | (with_reducible refine State.opAbort_keeps_of ?_ ?_ (by assumption))
    | (with_reducible refine State.refuse_keeps ?_ ?_)
    | (with_reducible refine ite_keeps ?_ ?_)
    | split
    | dsimp only [id])

theorem execTxnWdata_keeps (u : Keeps [.ras, .txn, .glb, .irc] P) {a0 : Sys2Proof.Writer} {a1 : Nat} {a2 : Sys2Proof.Word} (k : P s) : ∀ t, execTxnWdata a0 a1 a2 s = .next t → P t := by
  intro t e
  injection e with e
  rw [← e]
  clear e
  repeat' (first
    | with_reducible assumption
    | (with_reducible refine u.mono ?_; decide)
    | (intro _ h; exact h)
    | (intro h; exact h)
    | (intro _; rfl)
    | (with_reducible refine nextOr_keeps (ok_keeps ?_) ?_)
    | (with_reducible refine State.opWdata_keeps ?_ ?_)
    | (with_reducible refine State.opWdata_keeps_of ?_ ?_ (by assumption))
    | (with_reducible refine State.refuse_keeps ?_ ?_)
    | (with_reducible refine ite_keeps ?_ ?_)
    | split
    | dsimp only [id])

theorem execTxnTimeout_keeps (u : Keeps [.hq, .txn, .irc] P) {a0 : Nat} (k : P s) : ∀ t, execTxnTimeout a0 s = .next t → P t := by
  intro t e
  injection e with e
  rw [← e]
  clear e
  repeat' (first
    | with_reducible assumption
    | (with_reducible refine u.mono ?_; decide)
    | (intro _ h; exact h)
    | (intro h; exact h)
    | (intro _; rfl)
    | (with_reducible refine nextOr_keeps (ok_keeps ?_) ?_)
    | (with_reducible refine State.endTxn_keeps ?_ ?_)
    | (with_reducible refine ite_keeps ?_ ?_)
    | split
    | dsimp only [id])

theorem execGlbWerrClear_keeps (u : Keeps [.freeCtr, .ras, .enc, .dec, .cmp, .out, .cores, .drm, .run, .hq, .txn, .blw, .fsh, .glb, .irc, .tck, .log, .sem, .flt, .grt] P) {a0 : Sys2Proof.Word} (k : P s) : ∀ t, execGlbWerrClear a0 s = .next t → P t := by
  intro t e
  injection e with e
  rw [← e]
  clear e
  repeat' (first
    | with_reducible assumption
    | (with_reducible refine u.mono ?_; decide)
    | (intro _ h; exact h)
    | (intro h; exact h)
    | (intro _; rfl)
    | (with_reducible refine nextOr_keeps (ok_keeps ?_) ?_)
    | (with_reducible refine State.putReg_keeps ?_ ?_)
    | (with_reducible refine ite_keeps ?_ ?_)
    | split
    | dsimp only [id])

end Sys2Proof.Machine
end

