-- ==== Sys2Proof/Laws/ImageSet.lean ====
section
/-! SUPPORT. What each operation of ImageSet keeps. -/

namespace Sys2Proof.Machine

set_option linter.unreachableTactic false
set_option linter.unusedTactic false

variable {P : State → Prop} {s : State}

theorem State.setSystem_keeps (u : Keeps [.out, .hq, .glb, .tck, .log, .flt] P) {a0 : Nat → Nat → Nat} (k : P s) : P (State.setSystem a0 s) := by
  unfold State.setSystem
  repeat' (first
    | with_reducible assumption
    | (with_reducible refine u.mono ?_; decide)
    | (intro _ h; exact h)
    | (intro h; exact h)
    | (intro _; rfl)
    | (with_reducible refine State.each_keeps (fun _ _ _ => ?_) ?_)
    | (with_reducible refine State.modOutP_keeps ?_ ?_)
    | (with_reducible refine State.modHq_keeps ?_ ?_ ?_)
    | (with_reducible refine State.modGlb_keeps ?_ ?_)
    | (with_reducible refine State.modTck_keeps ?_ ?_ ?_)
    | (with_reducible refine State.modFlt_keeps ?_ ?_)
    | (with_reducible refine State.modLog_keeps ?_ ?_)
    | (with_reducible refine foldl_fst_keeps (fun _ _ _ => ?_) ?_)
    | (with_reducible refine foldl_keeps (fun _ _ _ => ?_) ?_)
    | (with_reducible refine ite_keeps ?_ ?_)
    | split
    | dsimp only [id])

theorem State.setRun_keeps (u : Keeps [.run] P) {a0 : Nat → Nat → Nat} (k : P s) : P (State.setRun a0 s) := by
  unfold State.setRun
  repeat' (first
    | with_reducible assumption
    | (with_reducible refine u.mono ?_; decide)
    | (with_reducible refine State.modRun_keeps ?_ ?_)
    | (with_reducible refine State.each_keeps (fun _ _ _ => ?_) ?_)
    | (with_reducible refine State.modLadle_keeps ?_ ?_)
    | (with_reducible refine State.modEth_keeps ?_ ?_)
    | (with_reducible refine State.modFlow_keeps ?_ ?_)
    | (with_reducible refine foldl_fst_keeps (fun _ _ _ => ?_) ?_)
    | (with_reducible refine foldl_keeps (fun _ _ _ => ?_) ?_)
    | (with_reducible refine ite_keeps ?_ ?_)
    | split
    | dsimp only [id])

theorem State.setMem_keeps (u : Keeps [.drm] P) {a0 : Nat → Nat → Nat} (k : P s) : P (State.setMem a0 s) := by
  unfold State.setMem
  repeat' (first
    | with_reducible assumption
    | (with_reducible refine u.mono ?_; decide)
    | (with_reducible refine State.modDrm_keeps ?_ ?_)
    | (with_reducible refine foldl_fst_keeps (fun _ _ _ => ?_) ?_)
    | (with_reducible refine foldl_keeps (fun _ _ _ => ?_) ?_)
    | (with_reducible refine ite_keeps ?_ ?_)
    | split
    | dsimp only [id])

theorem State.setWork_keeps (u : Keeps [.cores, .blw] P) {a0 : Nat → Nat → Nat} (k : P s) : P (State.setWork a0 s) := by
  unfold State.setWork
  repeat' (first
    | with_reducible assumption
    | (with_reducible refine u.mono ?_; decide)
    | (with_reducible refine State.modBlw_keeps ?_ ?_)
    | (with_reducible refine State.each_keeps (fun _ _ _ => ?_) ?_)
    | (with_reducible refine State.modCore_keeps ?_ ?_)
    | (with_reducible refine foldl_fst_keeps (fun _ _ _ => ?_) ?_)
    | (with_reducible refine foldl_keeps (fun _ _ _ => ?_) ?_)
    | (with_reducible refine ite_keeps ?_ ?_)
    | split
    | dsimp only [id])

theorem State.setRas_keeps (u : Keeps [.ras, .txn, .blw] P) {a0 : Nat → Nat → Nat} (k : P s) : P (State.setRas a0 s) := by
  unfold State.setRas
  repeat' (first
    | with_reducible assumption
    | (with_reducible refine u.mono ?_; decide)
    | (with_reducible refine State.each_keeps (fun _ _ _ => ?_) ?_)
    | (with_reducible refine State.modRaster_keeps ?_ ?_)
    | (with_reducible refine State.modClk_keeps ?_ ?_)
    | (with_reducible refine State.modPart_keeps ?_ ?_)
    | (with_reducible refine State.modTxn_keeps ?_ ?_)
    | (with_reducible refine ite_keeps ?_ ?_)
    | split
    | dsimp only [id])

theorem State.applySettings_keeps (u : Keeps [.ras, .out, .cores, .drm, .run, .hq, .txn, .blw, .glb, .tck, .log, .flt] P) {a0 : Bool} (k : P s) : P (State.applySettings a0 s) := by
  unfold State.applySettings
  repeat' (first
    | with_reducible assumption
    | (with_reducible refine u.mono ?_; decide)
    | (intro _ h; exact h)
    | (intro h; exact h)
    | (intro _; rfl)
    | (with_reducible refine State.setSystem_keeps ?_ ?_)
    | (with_reducible refine State.setRun_keeps ?_ ?_)
    | (with_reducible refine State.setMem_keeps ?_ ?_)
    | (with_reducible refine State.setWork_keeps ?_ ?_)
    | (with_reducible refine State.setRas_keeps ?_ ?_)
    | (with_reducible refine ite_keeps ?_ ?_)
    | split
    | dsimp only [id])

end Sys2Proof.Machine
end

