-- ==== Sys2Proof/Laws/Load.lean ====
section
/-! SUPPORT. What each operation of Load keeps. -/

namespace Sys2Proof.Machine

set_option linter.unreachableTactic false
set_option linter.unusedTactic false

variable {P : State → Prop} {s : State}

theorem Fsh.setReason_flash (b : Bool) (v : BitVec 4) (f : Fsh) : (f.setReason b v).flash = f.flash := by
  unfold Fsh.setReason
  split <;> rfl

theorem State.afterReset_keeps (u : Keeps [.now, .ptp, .ras, .enc, .dec, .cmp, .out, .cores, .drm, .run, .hq, .txn, .blw, .fsh, .glb, .irc, .tck, .log, .sem, .flt, .grt] P) (k : P s) : P s.afterReset := by
  have h : s.afterReset =
      State.modGrt (fun g => { Grt.reset with peerOwn := g.peerOwn, peerFault := g.peerFault })
      (State.modFlt (fun _ => Flt.reset) (State.modSem (fun _ => []) (State.modLog (fun _ => LogS.reset)
      (State.modTck (fun _ => Tck.reset) (State.modIrc (fun _ => Irc.reset) (State.modGlb (fun _ => Glb.reset)
      (State.modFsh (fun f => { Fsh.reset with
        flash := f.flash, otpHash := f.otpHash, otpRevoked := f.otpRevoked, floor := f.floor, pwrHold := f.pwrHold })
      (State.modBlw (fun _ => Blw.reset) (State.modTxn (fun _ => TxnS.reset)
      (State.modHq (fun h => { Hq.reset with hostMem := h.hostMem })
      (State.modRun (fun r => { Run.reset with quenchPin := r.quenchPin })
      (State.modDrm (fun _ => Drm.reset) (State.modCores (fun _ => [])
      (State.modOut (fun o => { OutPorts.reset with dpo := o.dpo.mapAll DpoPort.reset (fun _ p => { DpoPort.reset with hpd := p.hpd }) })
      (State.modCmp (fun _ => Cmp.reset) (State.modDec (fun _ => []) (State.modEnc (fun _ => []) (State.modRas (fun _ => Ras.reset)
      (State.modPtp (fun _ => 0) (State.modNow (fun _ => 0) s)))))))))))))))))))) := by
    simp only [State.afterReset, State.reset, State.modNow, State.modPtp, State.modRas, State.modEnc, State.modDec, State.modCmp, State.modOut, State.modCores, State.modDrm, State.modRun, State.modHq, State.modTxn, State.modBlw, State.modFsh, State.modGlb, State.modIrc, State.modTck, State.modLog, State.modSem, State.modFlt, State.modGrt]
  rw [h]
  repeat' (first
    | with_reducible assumption
    | (with_reducible refine u.mono ?_; decide)
    | (intro _ h; exact h)
    | (intro _ _; rfl)
    | (intro _; rfl)
    | (with_reducible refine State.modNow_keeps ?_ ?_)
    | (with_reducible refine State.modPtp_keeps ?_ ?_)
    | (with_reducible refine State.modRas_keeps ?_ ?_)
    | (with_reducible refine State.modEnc_keeps ?_ ?_)
    | (with_reducible refine State.modDec_keeps ?_ ?_)
    | (with_reducible refine State.modCmp_keeps ?_ ?_)
    | (with_reducible refine State.modOut_keeps ?_ ?_)
    | (with_reducible refine State.modCores_keeps ?_ ?_)
    | (with_reducible refine State.modDrm_keeps ?_ ?_)
    | (with_reducible refine State.modRun_keeps ?_ ?_)
    | (with_reducible refine State.modHq_keeps ?_ ?_ ?_)
    | (with_reducible refine State.modTxn_keeps ?_ ?_)
    | (with_reducible refine State.modBlw_keeps ?_ ?_)
    | (with_reducible refine State.modFsh_keeps ?_ ?_ ?_)
    | (with_reducible refine State.modGlb_keeps ?_ ?_)
    | (with_reducible refine State.modIrc_keeps ?_ ?_ ?_)
    | (with_reducible refine State.modTck_keeps ?_ ?_ ?_)
    | (with_reducible refine State.modLog_keeps ?_ ?_)
    | (with_reducible refine State.modSem_keeps ?_ ?_)
    | (with_reducible refine State.modFlt_keeps ?_ ?_)
    | (with_reducible refine State.modGrt_keeps ?_ ?_))

theorem State.breakFlashOp_keeps (u : Keeps [.freeCtr, .fsh] P) (k : P s) : P s.breakFlashOp := by
  unfold State.breakFlashOp
  split
  · split
    · exact State.modFreeCtr_keeps (h := fun _ => s.freeCtr + _) (u.mono (by decide))
        (State.modFsh_keeps (u.mono (by decide)) (fun _ h => putBytes_wf _ _ _ _ h) k)
    · exact k
  · exact k

theorem State.endFill_keeps (u : Keeps [.glb] P) (k : P s) : P (State.endFill s) := by
  unfold State.endFill
  repeat' (first
    | with_reducible assumption
    | (with_reducible refine u.mono ?_; decide)
    | (with_reducible refine State.modGlb_keeps ?_ ?_)
    | (with_reducible refine State.stampEnd_keeps ?_ ?_)
    | (with_reducible refine ite_keeps ?_ ?_)
    | split
    | dsimp only [id])

theorem State.endFlashOp_keeps (u : Keeps [.fsh] P) (k : P s) : P s.endFlashOp := by
  unfold State.endFlashOp
  split
  · split
    · exact State.modFsh_keeps u (fun _ h => Store.operate_wf _ _ h) k
    · exact k
  · exact k

theorem State.loadedSlot_keeps (u : Keeps [.fsh, .log] P) {a0 : Bool} (k : P s) : P (State.loadedSlot a0 s) := by
  unfold State.loadedSlot
  repeat' (first
    | with_reducible assumption
    | (with_reducible refine u.mono ?_; decide)
    | (intro _ h; exact h)
    | (intro h; exact h)
    | (intro _; rfl)
    | (with_reducible refine State.modFsh_keeps ?_ ?_ ?_)
    | (with_reducible refine State.raise_keeps ?_ ?_)
    | (intro x h; rw [Fsh.setReason_flash]; exact h)
    | (with_reducible refine ite_keeps ?_ ?_)
    | split
    | dsimp only [id])

theorem State.stopLoad_keeps (u : Keeps [.hq, .fsh] P) {a0 : BitVec 2} (k : P s) : P (State.stopLoad a0 s) := by
  unfold State.stopLoad
  repeat' (first
    | with_reducible assumption
    | (with_reducible refine u.mono ?_; decide)
    | (intro _ h; exact h)
    | (intro h; exact h)
    | (intro _; rfl)
    | (with_reducible refine State.modHq_keeps ?_ ?_ ?_)
    | (with_reducible refine State.modFsh_keeps ?_ ?_ ?_)
    | (with_reducible refine ite_keeps ?_ ?_)
    | split
    | dsimp only [id])

theorem State.nextCandidate_keeps (u : Keeps [.hq, .fsh] P) (k : P s) : P (State.nextCandidate s) := by
  unfold State.nextCandidate
  repeat' (first
    | with_reducible assumption
    | (with_reducible refine u.mono ?_; decide)
    | (intro _ h; exact h)
    | (intro h; exact h)
    | (intro _; rfl)
    | (with_reducible refine State.stopLoad_keeps ?_ ?_)
    | (with_reducible refine State.modFsh_keeps ?_ ?_ ?_)
    | (with_reducible refine ite_keeps ?_ ?_)
    | split
    | dsimp only [id])

theorem State.nextRecord_keeps (u : Keeps [.fsh] P) {a0 : Bool} (k : P s) : P (State.nextRecord a0 s) := by
  unfold State.nextRecord
  repeat' (first
    | with_reducible assumption
    | (with_reducible refine u.mono ?_; decide)
    | (intro _ h; exact h)
    | (intro h; exact h)
    | (intro _; rfl)
    | (with_reducible refine State.modFsh_keeps ?_ ?_ ?_)
    | (with_reducible refine ite_keeps ?_ ?_)
    | split
    | dsimp only [id])

theorem State.onRecord_keeps (u : Keeps [.fsh] P) {a0 : Nat} {a1 : Bool → Nat → State → State} (h1 : ∀ x0 x1 x2, P x2 → P (a1 x0 x1 x2)) (k : P s) : P (State.onRecord a0 a1 s) := by
  unfold State.onRecord
  repeat' (first
    | with_reducible assumption
    | (with_reducible refine u.mono ?_; decide)
    | (intro _ h; exact h)
    | (intro h; exact h)
    | (intro _; rfl)
    | (with_reducible refine State.nextRecord_keeps ?_ ?_)
    | (with_reducible refine h1 _ _ _ ?_)
    | (with_reducible refine ite_keeps ?_ ?_)
    | split
    | dsimp only [id])

theorem State.putAll_keeps {a0 : Nat × Word → State → Option State} {a1 : List (Nat × Word)}
    (h : ∀ x t t', P t → a0 x t = some t' → P t') (k : P s) : P (State.putAll a0 a1 s).1 := by
  induction a1 generalizing s with
  | nil => exact k
  | cons x r ih =>
    unfold State.putAll
    split
    · rename_i t e
      exact ih (h x s t k e)
    · exact k

theorem State.putMap_keeps {a0 : Nat × Word} {t : State} (u : Keeps [.freeCtr, .ras, .enc, .dec, .cmp, .out, .cores, .drm, .run, .hq, .txn, .blw, .fsh, .glb, .irc, .tck, .log, .sem, .flt, .grt] P) (k : P s) (e : s.putMap a0 = some t) : P t := by
  simp only [State.putMap, Option.bind_eq_some_iff] at e
  obtain ⟨r, -, e⟩ := e
  split at e
  · injection e with e
    exact e ▸ State.putReg_keeps (u.mono (by decide)) k
  · cases e

theorem State.putPlatform_keeps {a0 : Nat × Word} {t : State} (u : Keeps [.cmp, .run, .blw, .glb, .irc, .tck] P) (k : P s) (e : s.putPlatform a0 = some t) : P t := by
  simp only [State.putPlatform, Option.bind_eq_some_iff] at e
  obtain ⟨r, -, e⟩ := e
  split at e
  · injection e with e
    exact e ▸ State.setPlain_keeps (u.mono (by decide)) k
  · cases e

theorem State.readAdoption_keeps (u : Keeps [.fsh, .glb] P) (k : P s) : P (State.readAdoption s) := by
  unfold State.readAdoption
  repeat' (first
    | with_reducible assumption
    | (with_reducible refine u.mono ?_; decide)
    | (intro _ h; exact h)
    | (intro h; exact h)
    | (intro _; rfl)
    | (with_reducible refine State.modGlb_keeps ?_ ?_)
    | (with_reducible refine State.modFsh_keeps ?_ ?_ ?_)
    | (with_reducible refine ite_keeps ?_ ?_)
    | split
    | dsimp only [id])

theorem State.readLog_keeps (u : Keeps [.fsh, .log] P) (k : P s) : P (State.readLog s) := by
  unfold State.readLog
  repeat' (first
    | with_reducible assumption
    | (with_reducible refine u.mono ?_; decide)
    | (intro _ h; exact h)
    | (intro h; exact h)
    | (intro _; rfl)
    | (with_reducible refine State.modLog_keeps ?_ ?_)
    | (with_reducible refine State.modFsh_keeps ?_ ?_ ?_)
    | (with_reducible refine foldl_fst_keeps (fun _ _ _ => ?_) ?_)
    | (with_reducible refine foldl_keeps (fun _ _ _ => ?_) ?_)
    | (with_reducible refine ite_keeps ?_ ?_)
    | split
    | dsimp only [id])

theorem State.readRetirement_keeps (u : Keeps [.drm, .fsh] P) (k : P s) : P (State.readRetirement s) := by
  unfold State.readRetirement
  repeat' (first
    | with_reducible assumption
    | (with_reducible refine u.mono ?_; decide)
    | (intro _ h; exact h)
    | (intro h; exact h)
    | (intro _; rfl)
    | (with_reducible refine State.modDrm_keeps ?_ ?_)
    | (with_reducible refine State.modFsh_keeps ?_ ?_ ?_)
    | (with_reducible refine State.each_keeps (fun _ _ _ => ?_) ?_)
    | (with_reducible refine State.modChan_keeps ?_ ?_)
    | (with_reducible refine ite_keeps ?_ ?_)
    | split
    | dsimp only [id])

theorem State.readSeals_keeps (u : Keeps [.hq, .fsh] P) (k : P s) : P (State.readSeals s) := by
  unfold State.readSeals
  repeat' (first
    | with_reducible assumption
    | (with_reducible refine u.mono ?_; decide)
    | (intro _ h; exact h)
    | (intro h; exact h)
    | (intro _; rfl)
    | (with_reducible refine State.nextCandidate_keeps ?_ ?_)
    | (with_reducible refine State.modFsh_keeps ?_ ?_ ?_)
    | (with_reducible refine ite_keeps ?_ ?_)
    | split
    | dsimp only [id])

theorem State.unload_keeps (u : Keeps [.ras, .enc, .dec, .cmp, .out, .cores, .drm, .run, .hq, .txn, .blw, .glb, .irc, .tck, .sem, .grt] P) (k : P s) : P s.unload := by
  have h : s.unload =
      State.modGrt (fun g => { Grt.reset with peerOwn := g.peerOwn, peerFault := g.peerFault })
      (State.modSem (fun _ => []) (State.modTck (fun _ => Tck.reset) (State.modIrc (fun i => { Irc.reset with latch := i.latch })
      (State.modGlb (fun g => { Glb.reset with
        inReset := g.inReset, mode := g.mode, modeSeq := g.modeSeq, side := g.side, vsel := g.vsel, tEnd := g.tEnd
        selfDigest := g.selfDigest, adoption := g.adoption, faultOutN := g.faultOutN, thermTripN := g.thermTripN
        werrSeq := g.werrSeq, werrReason := g.werrReason, werrWriter := g.werrWriter, werrCount := g.werrCount
        werrAddr := g.werrAddr })
      (State.modBlw (fun _ => Blw.reset) (State.modTxn (fun _ => TxnS.reset)
      (State.modHq (fun h => if h.up then { h with keys := [], vfPart := [], pageFlush := Hq.reset.pageFlush } else { Hq.reset with hostMem := h.hostMem })
      (State.modRun (fun r => { Run.reset with quenchPin := r.quenchPin })
      (State.modDrm (fun d => { Drm.reset with
        retire := d.retire, chans := d.chans.mapAll Chan.reset (fun _ c => { Chan.reset with retired := c.retired }) }) (State.modCores (fun _ => [])
      (State.modOut (fun o => { OutPorts.reset with dpo := o.dpo.mapAll DpoPort.reset (fun _ p => { DpoPort.reset with hpd := p.hpd }) })
      (State.modCmp (fun _ => Cmp.reset) (State.modDec (fun _ => []) (State.modEnc (fun _ => [])
      (State.modRas (fun r => { Ras.reset with clk := { Clk.reset with st := r.clk.st } }) s))))))))))))))) := by
    simp only [State.unload, State.reset, State.modNow, State.modPtp, State.modRas, State.modEnc, State.modDec, State.modCmp, State.modOut, State.modCores, State.modDrm, State.modRun, State.modHq, State.modTxn, State.modBlw, State.modFsh, State.modGlb, State.modIrc, State.modTck, State.modLog, State.modSem, State.modFlt, State.modGrt]
    try rfl
  rw [h]
  repeat' (first
    | with_reducible assumption
    | (with_reducible refine u.mono ?_; decide)
    | (intro _ h; exact h)
    | (intro x h; dsimp only; split <;> exact h)
    | (intro _ _; rfl)
    | (intro _; rfl)
    | (with_reducible refine State.modRas_keeps ?_ ?_)
    | (with_reducible refine State.modEnc_keeps ?_ ?_)
    | (with_reducible refine State.modDec_keeps ?_ ?_)
    | (with_reducible refine State.modCmp_keeps ?_ ?_)
    | (with_reducible refine State.modOut_keeps ?_ ?_)
    | (with_reducible refine State.modCores_keeps ?_ ?_)
    | (with_reducible refine State.modDrm_keeps ?_ ?_)
    | (with_reducible refine State.modRun_keeps ?_ ?_)
    | (with_reducible refine State.modHq_keeps ?_ ?_ ?_)
    | (with_reducible refine State.modTxn_keeps ?_ ?_)
    | (with_reducible refine State.modBlw_keeps ?_ ?_)
    | (with_reducible refine State.modGlb_keeps ?_ ?_)
    | (with_reducible refine State.modIrc_keeps ?_ ?_ ?_)
    | (with_reducible refine State.modTck_keeps ?_ ?_ ?_)
    | (with_reducible refine State.modSem_keeps ?_ ?_)
    | (with_reducible refine State.modGrt_keeps ?_ ?_))

theorem State.rejectSlot_keeps (u : Keeps [.ras, .enc, .dec, .cmp, .out, .cores, .drm, .run, .hq, .txn, .blw, .fsh, .glb, .irc, .tck, .sem, .grt] P) {a0 : BitVec 4} (k : P s) : P (State.rejectSlot a0 s) := by
  unfold State.rejectSlot
  repeat' (first
    | with_reducible assumption
    | (with_reducible refine u.mono ?_; decide)
    | (intro _ h; exact h)
    | (intro h; exact h)
    | (intro _; rfl)
    | (with_reducible refine State.nextCandidate_keeps ?_ ?_)
    | (with_reducible refine State.modFsh_keeps ?_ ?_ ?_)
    | (with_reducible refine State.unload_keeps ?_ ?_)
    | (intro x h; rw [Fsh.setReason_flash]; exact h)
    | (with_reducible refine ite_keeps ?_ ?_)
    | split
    | dsimp only [id])

theorem State.reportPages_keeps (u : Keeps [.fsh, .log] P) (k : P s) : P (State.reportPages s) := by
  unfold State.reportPages
  repeat' (first
    | with_reducible assumption
    | (with_reducible refine u.mono ?_; decide)
    | (intro _ h; exact h)
    | (intro h; exact h)
    | (intro _; rfl)
    | (with_reducible refine State.raise_keeps ?_ ?_)
    | (with_reducible refine State.modFsh_keeps ?_ ?_ ?_)
    | (with_reducible refine ite_keeps ?_ ?_)
    | split
    | dsimp only [id])

theorem State.startLoad_keeps (u : Keeps [.drm, .hq, .fsh, .glb, .log] P) (k : P s) : P (State.startLoad s) := by
  unfold State.startLoad
  repeat' (first
    | with_reducible assumption
    | (with_reducible refine u.mono ?_; decide)
    | (intro _ h; exact h)
    | (intro h; exact h)
    | (intro _; rfl)
    | (with_reducible refine State.stopLoad_keeps ?_ ?_)
    | (with_reducible refine State.readSeals_keeps ?_ ?_)
    | (with_reducible refine State.reportPages_keeps ?_ ?_)
    | (with_reducible refine State.readLog_keeps ?_ ?_)
    | (with_reducible refine State.readAdoption_keeps ?_ ?_)
    | (with_reducible refine State.readRetirement_keeps ?_ ?_)
    | (with_reducible refine ite_keeps ?_ ?_)
    | split
    | dsimp only [id])

theorem State.writesRecord_keeps (u : Keeps [.ras, .enc, .dec, .cmp, .out, .cores, .drm, .run, .hq, .txn, .blw, .fsh, .glb, .irc, .tck, .sem, .grt] P) {a0 : Nat} {a1 : Nat × Word → State → Option State} {a2 : Nat → List (Nat × Word)}
    (h : ∀ x t t', P t → a1 x t = some t' → P t') (k : P s) : P (s.writesRecord a0 a1 a2) := by
  unfold State.writesRecord
  split
  · exact k
  · split
    · rename_i b a _ _ t e
      have g := State.putAll_keeps h (a1 := a2 (a + 16)) k
      rw [e] at g
      exact State.nextRecord_keeps (u.mono (by decide)) g
    · exact State.modFsh_keeps (u.mono (by decide)) (fun _ h => h) (State.rejectSlot_keeps (u.mono (by decide)) k)

theorem execResetRelease_keeps (u : Keeps [.glb] P) {a0 : Sys2Proof.Straps} (k : P s) : ∀ t, execResetRelease a0 s = .next t → P t := by
  intro t e
  injection e with e
  rw [← e]
  clear e
  repeat' (first
    | with_reducible assumption
    | (with_reducible refine u.mono ?_; decide)
    | (with_reducible refine nextOr_keeps (ok_keeps ?_) ?_)
    | (with_reducible refine State.modGlb_keeps ?_ ?_)
    | (with_reducible refine ite_keeps ?_ ?_)
    | split
    | dsimp only [id])

theorem execResetAssert_keeps (u : Keeps [.now, .ptp, .ras, .enc, .dec, .cmp, .out, .cores, .drm, .run, .hq, .txn, .blw, .fsh, .glb, .irc, .tck, .log, .sem, .flt, .grt] P) (k : P s) : ∀ t, execResetAssert s = .next t → P t := by
  intro t e
  injection e with e
  rw [← e]
  clear e
  repeat' (first
    | with_reducible assumption
    | (with_reducible refine u.mono ?_; decide)
    | (intro _ h; exact h)
    | (intro h; exact h)
    | (intro _; rfl)
    | (with_reducible refine nextOr_keeps (ok_keeps ?_) ?_)
    | (with_reducible refine State.afterReset_keeps ?_ ?_)
    | (with_reducible refine State.endFlashOp_keeps ?_ ?_)
    | (with_reducible refine ite_keeps ?_ ?_)
    | split
    | dsimp only [id])

theorem execPowerOnReset_keeps (u : Keeps [.now, .ptp, .freeCtr, .ras, .enc, .dec, .cmp, .out, .cores, .drm, .run, .hq, .txn, .blw, .fsh, .glb, .irc, .tck, .log, .sem, .flt, .grt] P) (k : P s) : ∀ t, execPowerOnReset s = .next t → P t := by
  intro t e
  injection e with e
  rw [← e]
  clear e
  repeat' (first
    | with_reducible assumption
    | (with_reducible refine u.mono ?_; decide)
    | (intro _ h; exact h)
    | (intro h; exact h)
    | (intro _; rfl)
    | (with_reducible refine nextOr_keeps (ok_keeps ?_) ?_)
    | (with_reducible refine State.afterReset_keeps ?_ ?_)
    | (with_reducible refine State.breakFlashOp_keeps ?_ ?_)
    | (with_reducible refine ite_keeps ?_ ?_)
    | split
    | dsimp only [id])

theorem execImageLoad_keeps (u : Keeps [.drm, .hq, .fsh, .glb, .irc, .log] P) {a0 : Sys2Proof.Sfdp} (k : P s) : ∀ t, execImageLoad a0 s = .next t → P t := by
  intro t e
  injection e with e
  rw [← e]
  clear e
  repeat' (first
    | with_reducible assumption
    | (with_reducible refine u.mono ?_; decide)
    | (intro _ h; exact h)
    | (intro h; exact h)
    | (intro _; rfl)
    | (with_reducible refine nextOr_keeps (ok_keeps ?_) ?_)
    | (with_reducible refine State.setMode_keeps ?_ ?_)
    | (with_reducible refine State.endFill_keeps ?_ ?_)
    | (with_reducible refine State.modFsh_keeps ?_ ?_ ?_)
    | (with_reducible refine State.startLoad_keeps ?_ ?_)
    | (with_reducible refine State.stopLoad_keeps ?_ ?_)
    | (with_reducible refine ite_keeps ?_ ?_)
    | split
    | dsimp only [id])

theorem execSignatureCheck_keeps (u : Keeps [.ras, .enc, .dec, .cmp, .out, .cores, .drm, .run, .hq, .txn, .blw, .fsh, .glb, .irc, .tck, .sem, .grt] P) (k : P s) : ∀ t, execSignatureCheck s = .next t → P t := by
  intro t e
  injection e with e
  rw [← e]
  clear e
  repeat' (first
    | with_reducible assumption
    | (with_reducible refine u.mono ?_; decide)
    | (intro _ h; exact h)
    | (intro h; exact h)
    | (intro _; rfl)
    | (with_reducible refine nextOr_keeps (ok_keeps ?_) ?_)
    | (with_reducible refine State.rejectSlot_keeps ?_ ?_)
    | (with_reducible refine State.modFsh_keeps ?_ ?_ ?_)
    | (with_reducible refine ite_keeps ?_ ?_)
    | split
    | dsimp only [id])

theorem execIdentity_keeps (u : Keeps [.fsh] P) (k : P s) : ∀ t, execIdentity s = .next t → P t := by
  intro t e
  injection e with e
  rw [← e]
  clear e
  repeat' (first
    | with_reducible assumption
    | (with_reducible refine u.mono ?_; decide)
    | (intro _ h; exact h)
    | (intro h; exact h)
    | (intro _; rfl)
    | (with_reducible refine nextOr_keeps (ok_keeps ?_) ?_)
    | (with_reducible refine State.onRecord_keeps ?_ (fun _ _ _ _ => ?_) ?_)
    | (with_reducible refine State.modFsh_keeps ?_ ?_ ?_)
    | (with_reducible refine ite_keeps ?_ ?_)
    | split
    | dsimp only [id])

theorem execPlatform_keeps (u : Keeps [.ras, .enc, .dec, .cmp, .out, .cores, .drm, .run, .hq, .txn, .blw, .fsh, .glb, .irc, .tck, .sem, .grt] P) (k : P s) : ∀ t, execPlatform s = .next t → P t := by
  intro t e
  injection e with e
  rw [← e]
  clear e
  repeat' (first
    | with_reducible assumption
    | (with_reducible refine u.mono ?_; decide)
    | (intro _ h; exact h)
    | (intro h; exact h)
    | (intro _; rfl)
    | (with_reducible refine nextOr_keeps (ok_keeps ?_) ?_)
    | (with_reducible refine State.whenB_keeps (fun _ _ => ?_) ?_)
    | (with_reducible refine State.bootBays_keeps ?_ ?_)
    | (with_reducible refine State.modGlb_keeps ?_ ?_)
    | (with_reducible refine State.writesRecord_keeps ?_ (fun _ _ _ => ?_) ?_)
    | (with_reducible refine State.putPlatform_keeps ?_ ?_)
    | (intro h e; exact State.putPlatform_keeps (u.mono (by decide)) h e)
    | (with_reducible refine ite_keeps ?_ ?_)
    | split
    | dsimp only [id])

theorem execTackFw_keeps (u : Keeps [.ras, .out, .cores, .drm, .run, .hq, .txn, .blw, .fsh, .glb, .tck, .log, .flt] P) (k : P s) : ∀ t, execTackFw s = .next t → P t := by
  intro t e
  injection e with e
  rw [← e]
  clear e
  repeat' (first
    | with_reducible assumption
    | (with_reducible refine u.mono ?_; decide)
    | (intro _ h; exact h)
    | (intro h; exact h)
    | (intro _; rfl)
    | (with_reducible refine nextOr_keeps (ok_keeps ?_) ?_)
    | (with_reducible refine State.onRecord_keeps ?_ (fun _ _ _ _ => ?_) ?_)
    | (with_reducible refine State.applySettings_keeps ?_ ?_)
    | (with_reducible refine State.copyFirmware_keeps ?_ ?_)
    | (with_reducible refine ite_keeps ?_ ?_)
    | split
    | dsimp only [id])

theorem execKeys_keeps (u : Keeps [.hq, .fsh] P) (k : P s) : ∀ t, execKeys s = .next t → P t := by
  intro t e
  injection e with e
  rw [← e]
  clear e
  repeat' (first
    | with_reducible assumption
    | (with_reducible refine u.mono ?_; decide)
    | (intro _ h; exact h)
    | (intro h; exact h)
    | (intro _; rfl)
    | (with_reducible refine nextOr_keeps (ok_keeps ?_) ?_)
    | (with_reducible refine State.onRecord_keeps ?_ (fun _ _ _ _ => ?_) ?_)
    | (with_reducible refine State.modHq_keeps ?_ ?_ ?_)
    | (with_reducible refine foldl_fst_keeps (fun _ _ _ => ?_) ?_)
    | (with_reducible refine foldl_keeps (fun _ _ _ => ?_) ?_)
    | (with_reducible refine ite_keeps ?_ ?_)
    | split
    | dsimp only [id])

theorem execPattern_keeps (u : Keeps [.cores, .fsh] P) (k : P s) : ∀ t, execPattern s = .next t → P t := by
  intro t e
  injection e with e
  rw [← e]
  clear e
  repeat' (first
    | with_reducible assumption
    | (with_reducible refine u.mono ?_; decide)
    | (intro _ h; exact h)
    | (intro h; exact h)
    | (intro _; rfl)
    | (with_reducible refine nextOr_keeps (ok_keeps ?_) ?_)
    | (with_reducible refine State.onRecord_keeps ?_ (fun _ _ _ _ => ?_) ?_)
    | (with_reducible refine State.each_keeps (fun _ _ _ => ?_) ?_)
    | (with_reducible refine State.modCore_keeps ?_ ?_)
    | (with_reducible refine State.modFsh_keeps ?_ ?_ ?_)
    | (with_reducible refine ite_keeps ?_ ?_)
    | split
    | dsimp only [id])

theorem execMapWrite_keeps (u : Keeps [.freeCtr, .ras, .enc, .dec, .cmp, .out, .cores, .drm, .run, .hq, .txn, .blw, .fsh, .glb, .irc, .tck, .log, .sem, .flt, .grt] P) (k : P s) : ∀ t, execMapWrite s = .next t → P t := by
  intro t e
  injection e with e
  rw [← e]
  clear e
  repeat' (first
    | with_reducible assumption
    | (with_reducible refine u.mono ?_; decide)
    | (intro _ h; exact h)
    | (intro h; exact h)
    | (intro _; rfl)
    | (with_reducible refine nextOr_keeps (ok_keeps ?_) ?_)
    | (with_reducible refine State.writesRecord_keeps ?_ (fun _ _ _ => ?_) ?_)
    | (with_reducible refine State.putMap_keeps ?_ ?_)
    | (intro h e; exact State.putMap_keeps (u.mono (by decide)) h e)
    | (with_reducible refine ite_keeps ?_ ?_)
    | split
    | dsimp only [id])

theorem execBudget_keeps (u : Keeps [.fsh] P) (k : P s) : ∀ t, execBudget s = .next t → P t := by
  intro t e
  injection e with e
  rw [← e]
  clear e
  repeat' (first
    | with_reducible assumption
    | (with_reducible refine u.mono ?_; decide)
    | (intro _ h; exact h)
    | (intro h; exact h)
    | (intro _; rfl)
    | (with_reducible refine nextOr_keeps (ok_keeps ?_) ?_)
    | (with_reducible refine State.onRecord_keeps ?_ (fun _ _ _ _ => ?_) ?_)
    | (with_reducible refine State.modFsh_keeps ?_ ?_ ?_)
    | (with_reducible refine ite_keeps ?_ ?_)
    | split
    | dsimp only [id])

theorem execEndRecord_keeps (u : Keeps [.drm, .fsh, .glb, .irc, .tck, .log] P) (k : P s) : ∀ t, execEndRecord s = .next t → P t := by
  intro t e
  injection e with e
  rw [← e]
  clear e
  repeat' (first
    | with_reducible assumption
    | (with_reducible refine u.mono ?_; decide)
    | (intro _ h; exact h)
    | (intro h; exact h)
    | (intro _; rfl)
    | (with_reducible refine nextOr_keeps (ok_keeps ?_) ?_)
    | (with_reducible refine State.modGlb_keeps ?_ ?_)
    | (with_reducible refine State.loadedSlot_keeps ?_ ?_)
    | (with_reducible refine State.modTck_keeps ?_ ?_ ?_)
    | (with_reducible refine State.each_keeps (fun _ _ _ => ?_) ?_)
    | (with_reducible refine State.latch_keeps ?_ ?_)
    | (with_reducible refine State.modChan_keeps ?_ ?_)
    | (with_reducible refine ite_keeps ?_ ?_)
    | split
    | dsimp only [id])

theorem execLoadDone_keeps (u : Keeps [.freeCtr, .dec, .cmp, .out, .cores, .drm, .hq, .blw, .glb, .irc, .log, .grt] P) (k : P s) : ∀ t, execLoadDone s = .next t → P t := by
  intro t e
  injection e with e
  rw [← e]
  clear e
  repeat' (first
    | with_reducible assumption
    | (with_reducible refine u.mono ?_; decide)
    | (intro _ h; exact h)
    | (intro h; exact h)
    | (intro _; rfl)
    | (with_reducible refine nextOr_keeps (ok_keeps ?_) ?_)
    | (with_reducible refine State.modCores_keeps ?_ ?_)
    | (with_reducible refine State.setMode_keeps ?_ ?_)
    | (with_reducible refine State.modHq_keeps ?_ ?_ ?_)
    | (with_reducible refine State.stampEnd_keeps ?_ ?_)
    | (with_reducible refine State.each_keeps (fun _ _ _ => ?_) ?_)
    | (with_reducible refine State.voltageHold_keeps ?_ ?_)
    | (with_reducible refine State.assertHpd_keeps ?_ ?_)
    | (with_reducible refine State.trainLink_keeps ?_ ?_)
    | (with_reducible refine State.startStream_keeps ?_ ?_)
    | (with_reducible refine ite_keeps ?_ ?_)
    | split
    | dsimp only [id])

theorem execTrainEnd_keeps (u : Keeps [.freeCtr, .out, .blw, .fsh, .glb, .irc, .log] P) {a0 : List Nat} (k : P s) : ∀ t, execTrainEnd a0 s = .next t → P t := by
  intro t e
  injection e with e
  rw [← e]
  clear e
  repeat' (first
    | with_reducible assumption
    | (with_reducible refine u.mono ?_; decide)
    | (intro _ h; exact h)
    | (intro h; exact h)
    | (intro _; rfl)
    | (with_reducible refine nextOr_keeps (ok_keeps ?_) ?_)
    | (with_reducible refine State.raise_keeps ?_ ?_)
    | (with_reducible refine State.adoptStep_keeps ?_ ?_)
    | (with_reducible refine State.wantAdmission_keeps ?_ ?_)
    | (with_reducible refine State.setMode_keeps ?_ ?_)
    | (with_reducible refine State.stampEnd_keeps ?_ ?_)
    | (with_reducible refine ite_keeps ?_ ?_)
    | split
    | dsimp only [id])

end Sys2Proof.Machine
end

