-- ==== Sys2Proof/Laws/Patch.lean ====
section
/-! SUPPORT. What each operation of Patch keeps. -/

namespace Sys2Proof.Machine

set_option linter.unreachableTactic false
set_option linter.unusedTactic false

variable {P : State → Prop} {s : State}

theorem State.batchDrained_keeps (u : Keeps [.cores, .glb, .irc, .log, .sem] P) {a0 : Nat} (k : P s) : P (State.batchDrained a0 s) := by
  unfold State.batchDrained
  repeat' (first
    | with_reducible assumption
    | (with_reducible refine u.mono ?_; decide)
    | (intro _ h; exact h)
    | (intro h; exact h)
    | (intro _; rfl)
    | (with_reducible refine State.swapBank_keeps ?_ ?_)
    | (with_reducible refine State.standBack_keeps ?_ ?_)
    | (with_reducible refine ite_keeps ?_ ?_)
    | split
    | dsimp only [id])

theorem State.enterPatch_keeps (u : Keeps [.freeCtr, .cmp, .drm, .run, .hq, .txn, .blw, .glb, .irc, .tck, .log, .sem, .flt, .grt] P) {a0 : CmdPath} (k : P s) : P (State.enterPatch a0 s) := by
  unfold State.enterPatch
  repeat' (first
    | with_reducible assumption
    | (with_reducible refine u.mono ?_; decide)
    | (intro _ h; exact h)
    | (intro h; exact h)
    | (intro _; rfl)
    | (with_reducible refine State.modGlb_keeps ?_ ?_)
    | (with_reducible refine State.restartTack_keeps ?_ ?_)
    | (with_reducible refine State.raise_keeps ?_ ?_)
    | (with_reducible refine State.setMode_keeps ?_ ?_)
    | (with_reducible refine ite_keeps ?_ ?_)
    | split
    | dsimp only [id])

theorem State.leavePatch_keeps (u : Keeps [.glb, .irc, .log] P) (k : P s) : P (State.leavePatch s) := by
  unfold State.leavePatch
  repeat' (first
    | with_reducible assumption
    | (with_reducible refine u.mono ?_; decide)
    | (intro _ h; exact h)
    | (intro h; exact h)
    | (intro _; rfl)
    | (with_reducible refine State.modGlb_keeps ?_ ?_)
    | (with_reducible refine State.setMode_keeps ?_ ?_)
    | (with_reducible refine ite_keeps ?_ ?_)
    | split
    | dsimp only [id])

theorem State.rewriteCopy_keeps (u : Keeps [.cores] P) {a0 : Nat} (k : P s) : P (State.rewriteCopy a0 s) := by
  unfold State.rewriteCopy
  repeat' (first
    | with_reducible assumption
    | (with_reducible refine u.mono ?_; decide)
    | (with_reducible refine State.modCore_keeps ?_ ?_)
    | (with_reducible refine ite_keeps ?_ ?_)
    | split
    | dsimp only [id])

theorem State.mendCopies_keeps (u : Keeps [.cores] P) (k : P s) : P (State.mendCopies s) := by
  unfold State.mendCopies
  repeat' (first
    | with_reducible assumption
    | (with_reducible refine u.mono ?_; decide)
    | (with_reducible refine State.each_keeps (fun _ _ _ => ?_) ?_)
    | (with_reducible refine State.rewriteCopy_keeps ?_ ?_)
    | (with_reducible refine ite_keeps ?_ ?_)
    | split
    | dsimp only [id])

theorem State.patchCommit_keeps (u : Keeps [.freeCtr, .ras, .enc, .dec, .cmp, .out, .cores, .drm, .run, .hq, .txn, .blw, .fsh, .glb, .irc, .tck, .log, .sem, .flt, .grt] P) (k : P s) : P (State.patchCommit s) := by
  unfold State.patchCommit
  repeat' (first
    | with_reducible assumption
    | (with_reducible refine u.mono ?_; decide)
    | (intro _ h; exact h)
    | (intro h; exact h)
    | (intro _; rfl)
    | (with_reducible refine State.tryCommit_keeps ?_ ?_)
    | (with_reducible refine State.tryCommit_keeps_of ?_ ?_ (by assumption))
    | (with_reducible refine State.each_keeps (fun _ _ _ => ?_) ?_)
    | (with_reducible refine State.journalPut_keeps ?_ ?_)
    | (with_reducible refine State.modTxn_keeps ?_ ?_)
    | (with_reducible refine State.wantAdmission_keeps ?_ ?_)
    | (with_reducible refine State.modPatch_keeps ?_ ?_)
    | (with_reducible refine ite_keeps ?_ ?_)
    | split
    | dsimp only [id])

theorem State.patchBanks_keeps (u : Keeps [.cores] P) {a0 : Bool} (k : P s) : P (State.patchBanks a0 s) := by
  unfold State.patchBanks
  repeat' (first
    | with_reducible assumption
    | (with_reducible refine u.mono ?_; decide)
    | (with_reducible refine State.each_keeps (fun _ _ _ => ?_) ?_)
    | (with_reducible refine State.modCore_keeps ?_ ?_)
    | (with_reducible refine ite_keeps ?_ ?_)
    | split
    | dsimp only [id])

theorem State.patchDone_keeps (u : Keeps [.fsh, .glb, .irc, .log] P) (k : P s) : P (State.patchDone s) := by
  unfold State.patchDone
  repeat' (first
    | with_reducible assumption
    | (with_reducible refine u.mono ?_; decide)
    | (intro _ h; exact h)
    | (intro h; exact h)
    | (intro _; rfl)
    | (with_reducible refine State.modFsh_keeps ?_ ?_ ?_)
    | (with_reducible refine State.raise_keeps ?_ ?_)
    | (with_reducible refine State.leavePatch_keeps ?_ ?_)
    | (with_reducible refine ite_keeps ?_ ?_)
    | split
    | dsimp only [id])

theorem State.patchKeys_keeps (u : Keeps [.hq, .txn, .irc, .grt] P) {a0 : Bool} (k : P s) : P (State.patchKeys a0 s) := by
  unfold State.patchKeys
  repeat' (first
    | with_reducible assumption
    | (with_reducible refine u.mono ?_; decide)
    | (intro _ h; exact h)
    | (intro h; exact h)
    | (intro _; rfl)
    | (with_reducible refine State.abortBy_keeps ?_ ?_)
    | (with_reducible refine State.modHq_keeps ?_ ?_ ?_)
    | (with_reducible refine foldl_fst_keeps (fun _ _ _ => ?_) ?_)
    | (with_reducible refine foldl_keeps (fun _ _ _ => ?_) ?_)
    | (with_reducible refine ite_keeps ?_ ?_)
    | split
    | dsimp only [id])

theorem execCoreDrained_keeps (u : Keeps [.enc, .cores, .blw, .glb, .irc, .log, .sem, .grt] P) {a0 : Nat} (k : P s) : ∀ t, execCoreDrained a0 s = .next t → P t := by
  intro t e
  injection e with e
  rw [← e]
  clear e
  repeat' (first
    | with_reducible assumption
    | (with_reducible refine u.mono ?_; decide)
    | (intro _ h; exact h)
    | (intro h; exact h)
    | (intro _; rfl)
    | (with_reducible refine nextOr_keeps (ok_keeps ?_) ?_)
    | (with_reducible refine State.patchStep_keeps ?_ ?_)
    | (with_reducible refine State.batchDrained_keeps ?_ ?_)
    | (with_reducible refine State.modCore_keeps ?_ ?_)
    | (with_reducible refine ite_keeps ?_ ?_)
    | split
    | dsimp only [id])

theorem execAdmission_keeps (u : Keeps [.freeCtr, .ras, .enc, .dec, .cmp, .out, .cores, .drm, .run, .hq, .txn, .blw, .fsh, .glb, .irc, .tck, .log, .sem, .flt, .grt] P) (k : P s) : ∀ t, execAdmission s = .next t → P t := by
  intro t e
  injection e with e
  rw [← e]
  clear e
  repeat' (first
    | with_reducible assumption
    | (with_reducible refine u.mono ?_; decide)
    | (intro _ h; exact h)
    | (intro h; exact h)
    | (intro _; rfl)
    | (with_reducible refine nextOr_keeps (ok_keeps ?_) ?_)
    | (with_reducible refine State.whenB_keeps (fun _ _ => ?_) ?_)
    | (with_reducible refine State.patchCommit_keeps ?_ ?_)
    | (with_reducible refine State.runAdmission_keeps ?_ ?_)
    | (with_reducible refine State.mendCopies_keeps ?_ ?_)
    | (with_reducible refine State.fenceOutcome_keeps ?_ ?_)
    | (with_reducible refine State.patchDone_keeps ?_ ?_)
    | (with_reducible refine State.endTakeover_keeps ?_ ?_)
    | (with_reducible refine ite_keeps ?_ ?_)
    | split
    | dsimp only [id])

theorem execTackFwReady_keeps (u : Keeps [.enc, .cores, .hq, .txn, .blw, .glb, .irc, .tck, .log, .grt] P) (k : P s) : ∀ t, execTackFwReady s = .next t → P t := by
  intro t e
  injection e with e
  rw [← e]
  clear e
  repeat' (first
    | with_reducible assumption
    | (with_reducible refine u.mono ?_; decide)
    | (intro _ h; exact h)
    | (intro h; exact h)
    | (intro _; rfl)
    | (with_reducible refine nextOr_keeps (ok_keeps ?_) ?_)
    | (with_reducible refine State.startFirmware_keeps ?_ ?_)
    | (with_reducible refine State.gPut_keeps ?_ ?_)
    | (with_reducible refine State.patchBanks_keeps ?_ ?_)
    | (with_reducible refine State.patchKeys_keeps ?_ ?_)
    | (with_reducible refine State.patchStep_keeps ?_ ?_)
    | (with_reducible refine State.modPatch_keeps ?_ ?_)
    | (with_reducible refine ite_keeps ?_ ?_)
    | split
    | dsimp only [id])

theorem execPatchFailed_keeps (u : Keeps [.fsh, .glb, .irc, .tck, .log] P) (k : P s) : ∀ t, execPatchFailed s = .next t → P t := by
  intro t e
  injection e with e
  rw [← e]
  clear e
  repeat' (first
    | with_reducible assumption
    | (with_reducible refine u.mono ?_; decide)
    | (intro _ h; exact h)
    | (intro h; exact h)
    | (intro _; rfl)
    | (with_reducible refine nextOr_keeps (ok_keeps ?_) ?_)
    | (with_reducible refine State.leavePatch_keeps ?_ ?_)
    | (with_reducible refine State.startFirmware_keeps ?_ ?_)
    | (with_reducible refine State.queueStores_keeps ?_ ?_)
    | (with_reducible refine State.raise_keeps ?_ ?_)
    | (with_reducible refine ite_keeps ?_ ?_)
    | split
    | dsimp only [id])

theorem execOtpFuseBlow_keeps (u : Keeps [.fsh, .log] P) (k : P s) : ∀ t, execOtpFuseBlow s = .next t → P t := by
  intro t e
  injection e with e
  rw [← e]
  clear e
  repeat' (first
    | with_reducible assumption
    | (with_reducible refine u.mono ?_; decide)
    | (intro _ h; exact h)
    | (intro h; exact h)
    | (intro _; rfl)
    | (with_reducible refine nextOr_keeps (ok_keeps ?_) ?_)
    | (with_reducible refine State.modFsh_keeps ?_ ?_ ?_)
    | (with_reducible refine State.raise_keeps ?_ ?_)
    | (with_reducible refine ite_keeps ?_ ?_)
    | split
    | dsimp only [id])

end Sys2Proof.Machine
end

