-- ==== Sys2Proof/Laws/FlashCmds.lean ====
section
/-! SUPPORT. What each operation of FlashCmds keeps. -/

namespace Sys2Proof.Machine

set_option linter.unreachableTactic false
set_option linter.unusedTactic false

variable {P : State → Prop} {s : State}

theorem State.dropLogPage_keeps (u : Keeps [.log] P) {a0 : Nat} (k : P s) : P (State.dropLogPage a0 s) := by
  unfold State.dropLogPage
  repeat' (first
    | with_reducible assumption
    | (with_reducible refine u.mono ?_; decide)
    | (with_reducible refine State.modLog_keeps ?_ ?_)
    | (with_reducible refine ite_keeps ?_ ?_)
    | split
    | dsimp only [id])

theorem State.endOp_keeps (u : Keeps [.fsh] P) {a0 : Store} {a1 : List Store} (k : P s) : P (s.endOp a0 a1) :=
  State.modFsh_keeps u (fun x h => Store.operate_wf a0 x.flash h) k

theorem State.failImage_keeps (u : Keeps [.hq, .fsh, .log] P) {a0 : Nat} {a1 : BitVec 32} {a2 : Status} {a3 : BitVec 4} (k : P s) : P (State.failImage a0 a1 a2 a3 s) := by
  unfold State.failImage
  repeat' (first
    | with_reducible assumption
    | (with_reducible refine u.mono ?_; decide)
    | (intro _ h; exact h)
    | (intro h; exact h)
    | (intro _; rfl)
    | (with_reducible refine State.modFsh_keeps ?_ ?_ ?_)
    | (with_reducible refine State.raise_keeps ?_ ?_)
    | (with_reducible refine State.finish_keeps ?_ ?_)
    | (with_reducible refine ite_keeps ?_ ?_)
    | split
    | dsimp only [id])

theorem State.endWaits_keeps (u : Keeps [.hq, .fsh, .log] P) (k : P s) : P (State.endWaits s) := by
  unfold State.endWaits
  repeat' (first
    | with_reducible assumption
    | (with_reducible refine u.mono ?_; decide)
    | (intro _ h; exact h)
    | (intro h; exact h)
    | (intro _; rfl)
    | (with_reducible refine State.each_keeps (fun _ _ _ => ?_) ?_)
    | (with_reducible refine State.failImage_keeps ?_ ?_)
    | (with_reducible refine ite_keeps ?_ ?_)
    | split
    | dsimp only [id])

theorem State.sealImage_keeps (u : Keeps [.hq, .fsh, .log] P) {a0 : Nat} {a1 : Nat} {a2 : Nat} (k : P s) : P (State.sealImage a0 a1 a2 s) := by
  unfold State.sealImage
  repeat' (first
    | with_reducible assumption
    | (with_reducible refine u.mono ?_; decide)
    | (intro _ h; exact h)
    | (intro h; exact h)
    | (intro _; rfl)
    | (with_reducible refine State.modFsh_keeps ?_ ?_ ?_)
    | (with_reducible refine State.failImage_keeps ?_ ?_)
    | (with_reducible refine State.queueStores_keeps ?_ ?_)
    | (with_reducible refine ite_keeps ?_ ?_)
    | split
    | dsimp only [id])

theorem State.imageStored_keeps (u : Keeps [.hq, .fsh, .log] P) {a0 : Nat} (k : P s) : P (State.imageStored a0 s) := by
  unfold State.imageStored
  repeat' (first
    | with_reducible assumption
    | (with_reducible refine u.mono ?_; decide)
    | (intro _ h; exact h)
    | (intro h; exact h)
    | (intro _; rfl)
    | (with_reducible refine State.sealImage_keeps ?_ ?_)
    | (with_reducible refine State.finish_keeps ?_ ?_)
    | (with_reducible refine State.modFsh_keeps ?_ ?_ ?_)
    | (with_reducible refine ite_keeps ?_ ?_)
    | split
    | dsimp only [id])

theorem State.imageBegin_keeps (u : Keeps [.hq, .fsh, .log] P) {a0 : Nat} {a1 : Nat} {a2 : BitVec 32} {a3 : Bool} {a4 : List Sys2Proof.Byte} (k : P s) : P (State.imageBegin a0 a1 a2 a3 a4 s) := by
  unfold State.imageBegin
  repeat' (first
    | with_reducible assumption
    | (with_reducible refine u.mono ?_; decide)
    | (intro _ h; exact h)
    | (intro h; exact h)
    | (intro _; rfl)
    | (with_reducible refine State.failImage_keeps ?_ ?_)
    | (with_reducible refine State.modFsh_keeps ?_ ?_ ?_)
    | (with_reducible refine State.modSlot_keeps ?_ ?_)
    | (with_reducible refine State.imageStored_keeps ?_ ?_)
    | (with_reducible refine State.queueStores_keeps ?_ ?_)
    | (with_reducible refine ite_keeps ?_ ?_)
    | split
    | dsimp only [id])

theorem State.sealed_keeps (u : Keeps [.drm, .hq, .fsh, .glb, .log] P) {a0 : Nat} (k : P s) : P (State.sealed a0 s) := by
  unfold State.sealed
  repeat' (first
    | with_reducible assumption
    | (with_reducible refine u.mono ?_; decide)
    | (intro _ h; exact h)
    | (intro h; exact h)
    | (intro _; rfl)
    | (with_reducible refine State.raise_keeps ?_ ?_)
    | (with_reducible refine State.modFsh_keeps ?_ ?_ ?_)
    | (with_reducible refine State.finish_keeps ?_ ?_)
    | (with_reducible refine State.startLoad_keeps ?_ ?_)
    | (with_reducible refine ite_keeps ?_ ?_)
    | split
    | dsimp only [id])

theorem State.storeLogPage_keeps (u : Keeps [.freeCtr, .fsh, .log] P) (k : P s) : P (State.storeLogPage s) := by
  unfold State.storeLogPage
  repeat' (first
    | with_reducible assumption
    | (with_reducible refine u.mono ?_; decide)
    | (intro _ h; exact h)
    | (intro h; exact h)
    | (intro _; rfl)
    | (with_reducible refine State.queueStores_keeps ?_ ?_)
    | (with_reducible refine State.tickFree_keeps ?_ ?_)
    | (with_reducible refine State.modFsh_keeps ?_ ?_ ?_)
    | (with_reducible refine ite_keeps ?_ ?_)
    | split
    | dsimp only [id])

theorem State.takeLogPage_keeps (u : Keeps [.blw, .log] P) {a0 : Nat} (k : P s) : P (State.takeLogPage a0 s) := by
  unfold State.takeLogPage
  repeat' (first
    | with_reducible assumption
    | (with_reducible refine u.mono ?_; decide)
    | (with_reducible refine State.served_keeps ?_ ?_)
    | (with_reducible refine State.modLog_keeps ?_ ?_)
    | (with_reducible refine foldl_fst_keeps (fun _ _ _ => ?_) ?_)
    | (with_reducible refine foldl_keeps (fun _ _ _ => ?_) ?_)
    | (with_reducible refine ite_keeps ?_ ?_)
    | split
    | dsimp only [id])

theorem State.stored_keeps (u : Keeps [.drm, .hq, .blw, .fsh, .glb, .log] P) {a0 : Store} (k : P s) : P (State.stored a0 s) := by
  unfold State.stored
  repeat' (first
    | with_reducible assumption
    | (with_reducible refine u.mono ?_; decide)
    | (intro _ h; exact h)
    | (intro h; exact h)
    | (intro _; rfl)
    | (with_reducible refine State.takeLogPage_keeps ?_ ?_)
    | (with_reducible refine State.sealed_keeps ?_ ?_)
    | (with_reducible refine State.imageStored_keeps ?_ ?_)
    | (with_reducible refine ite_keeps ?_ ?_)
    | split
    | dsimp only [id])

theorem State.waitEvent_keeps (u : Keeps [.fsh, .log] P) (k : P s) : P (State.waitEvent s) := by
  unfold State.waitEvent
  repeat' (first
    | with_reducible assumption
    | (with_reducible refine u.mono ?_; decide)
    | (intro _ h; exact h)
    | (intro h; exact h)
    | (intro _; rfl)
    | (with_reducible refine State.raise_keeps ?_ ?_)
    | (with_reducible refine State.modFsh_keeps ?_ ?_ ?_)
    | (with_reducible refine ite_keeps ?_ ?_)
    | split
    | dsimp only [id])

theorem execDeviceAdopted_keeps (u : Keeps [.glb, .log] P) (k : P s) : ∀ t, execDeviceAdopted s = .next t → P t := by
  intro t e
  injection e with e
  rw [← e]
  clear e
  repeat' (first
    | with_reducible assumption
    | (with_reducible refine u.mono ?_; decide)
    | (with_reducible refine nextOr_keeps (ok_keeps ?_) ?_)
    | (with_reducible refine State.raise_keeps ?_ ?_)
    | (with_reducible refine State.modGlb_keeps ?_ ?_)
    | (with_reducible refine ite_keeps ?_ ?_)
    | split
    | dsimp only [id])

theorem execFlashOpDone_keeps (u : Keeps [.drm, .hq, .blw, .fsh, .glb, .irc, .log] P) (k : P s) : ∀ t, execFlashOpDone s = .next t → P t := by
  intro t e
  injection e with e
  rw [← e]
  clear e
  repeat' (first
    | with_reducible assumption
    | (with_reducible refine u.mono ?_; decide)
    | (intro _ h; exact h)
    | (intro h; exact h)
    | (intro _; rfl)
    | (with_reducible refine nextOr_keeps (ok_keeps ?_) ?_)
    | (with_reducible refine State.startOp_keeps ?_ ?_)
    | (with_reducible refine State.dropLogPage_keeps ?_ ?_)
    | (with_reducible refine State.latch_keeps ?_ ?_)
    | (with_reducible refine State.endOp_keeps ?_ ?_)
    | (with_reducible refine State.stored_keeps ?_ ?_)
    | (with_reducible refine ite_keeps ?_ ?_)
    | split
    | dsimp only [id])

theorem execPwrHoldChange_keeps (u : Keeps [.fsh, .log] P) {a0 : Bool} (k : P s) : ∀ t, execPwrHoldChange a0 s = .next t → P t := by
  intro t e
  injection e with e
  rw [← e]
  clear e
  repeat' (first
    | with_reducible assumption
    | (with_reducible refine u.mono ?_; decide)
    | (intro _ h; exact h)
    | (intro h; exact h)
    | (intro _; rfl)
    | (with_reducible refine nextOr_keeps (ok_keeps ?_) ?_)
    | (with_reducible refine State.startOp_keeps ?_ ?_)
    | (with_reducible refine State.modFsh_keeps ?_ ?_ ?_)
    | (with_reducible refine ite_keeps ?_ ?_)
    | split
    | dsimp only [id])

theorem execFlashPowerWait_keeps (u : Keeps [.hq, .fsh, .log] P) (k : P s) : ∀ t, execFlashPowerWait s = .next t → P t := by
  intro t e
  injection e with e
  rw [← e]
  clear e
  repeat' (first
    | with_reducible assumption
    | (with_reducible refine u.mono ?_; decide)
    | (intro _ h; exact h)
    | (intro h; exact h)
    | (intro _; rfl)
    | (with_reducible refine nextOr_keeps (ok_keeps ?_) ?_)
    | (with_reducible refine State.startOp_keeps ?_ ?_)
    | (with_reducible refine State.endWaits_keeps ?_ ?_)
    | (with_reducible refine State.waitEvent_keeps ?_ ?_)
    | (with_reducible refine ite_keeps ?_ ?_)
    | split
    | dsimp only [id])

theorem execLogFlush_keeps (u : Keeps [.freeCtr, .fsh, .log] P) (k : P s) : ∀ t, execLogFlush s = .next t → P t := by
  intro t e
  injection e with e
  rw [← e]
  clear e
  repeat' (first
    | with_reducible assumption
    | (with_reducible refine u.mono ?_; decide)
    | (intro _ h; exact h)
    | (intro h; exact h)
    | (intro _; rfl)
    | (with_reducible refine nextOr_keeps (ok_keeps ?_) ?_)
    | (with_reducible refine State.storeLogPage_keeps ?_ ?_)
    | (with_reducible refine ite_keeps ?_ ?_)
    | split
    | dsimp only [id])

end Sys2Proof.Machine
end

