-- ==== Sys2Proof/Laws/HostOps.lean ====
section
/-! SUPPORT. What each operation of HostOps keeps. -/

namespace Sys2Proof.Machine

set_option linter.unreachableTactic false
set_option linter.unusedTactic false

variable {P : State → Prop} {s : State}

theorem State.say_keeps {a0 : Status} {a1 : Word} (k : P s) : P (State.say a0 a1 s).1 := k
theorem State.say_keeps_of {a0 : Status} {a1 : Word} {t r} (k : P s) (e : State.say a0 a1 s = (t, r)) : P t := by
  injection e with e _
  exact e ▸ k

theorem State.dropSlot_keeps (u : Keeps [.hq] P) {a0 : Nat} (k : P s) : P (State.dropSlot a0 s) := by
  unfold State.dropSlot
  repeat' (first
    | with_reducible assumption
    | (with_reducible refine u.mono ?_; decide)
    | (intro _ h; exact h)
    | (intro h; exact h)
    | (intro _; rfl)
    | (with_reducible refine State.modHq_keeps ?_ ?_ ?_)
    | (with_reducible refine ite_keeps ?_ ?_)
    | split
    | dsimp only [id])

theorem State.reply_keeps (u : Keeps [.run, .hq] P) {a0 : KeyMsg} (k : P s) : P (State.reply a0 s) := by
  unfold State.reply
  repeat' (first
    | with_reducible assumption
    | (with_reducible refine u.mono ?_; decide)
    | (intro _ h; exact h)
    | (intro h; exact h)
    | (intro _; rfl)
    | (with_reducible refine State.sendTack_keeps ?_ ?_)
    | (with_reducible refine State.modHq_keeps ?_ ?_ ?_)
    | (with_reducible refine ite_keeps ?_ ?_)
    | split
    | dsimp only [id])

theorem State.keyComplete_keeps (u : Keeps [.freeCtr, .run, .hq] P) {a0 : Nat} {a1 : Slot} (k : P s) : P (State.keyComplete a0 a1 s) := by
  unfold State.keyComplete
  repeat' (first
    | with_reducible assumption
    | (with_reducible refine u.mono ?_; decide)
    | (intro _ h; exact h)
    | (intro h; exact h)
    | (intro _; rfl)
    | (with_reducible refine State.tickFree_keeps ?_ ?_)
    | (with_reducible refine State.modHq_keeps ?_ ?_ ?_)
    | (with_reducible refine State.dropSlot_keeps ?_ ?_)
    | (with_reducible refine State.each_keeps (fun _ _ _ => ?_) ?_)
    | (with_reducible refine State.reply_keeps ?_ ?_)
    | (with_reducible refine ite_keeps ?_ ?_)
    | split
    | dsimp only [id])

theorem State.mirrorCmd_keeps (u : Keeps [.grt] P) {a0 : Slot} {a1 : HostCmd} (k : P s) : P (State.mirrorCmd a0 a1 s) := by
  unfold State.mirrorCmd
  repeat' (first
    | with_reducible assumption
    | (with_reducible refine u.mono ?_; decide)
    | (with_reducible refine State.gPut_keeps ?_ ?_)
    | (with_reducible refine ite_keeps ?_ ?_)
    | split
    | dsimp only [id])

theorem State.onSlot_keeps (u : Keeps [.hq, .grt] P) {a0 : Nat} {a1 : HostCmd → Option (Ctx → State → Res)}
    (h : ∀ c g, a1 c = some g → ∀ x t, P t → P (g x t).1) (k : P s) : P (s.onSlot a0 a1) := by
  unfold State.onSlot
  cases s.slot a0 with
  | none => exact k
  | some x =>
    dsimp only
    cases x.cmd with
    | none => exact k
    | some c =>
      dsimp only
      cases e : a1 c with
      | none => exact k
      | some g =>
        have h' := h c g e (s.ctxOf x.path) (s.mirrorCmd x c) (State.mirrorCmd_keeps (u.mono (by decide)) k)
        dsimp only
        refine ite_keeps k ?_
        cases s.gate c x.path with
        | some st => exact State.finish_keeps (u.mono (by decide)) k
        | none =>
          dsimp only
          split
          · rename_i e'
            rw [e'] at h'
            exact State.finish_keeps (u.mono (by decide)) h'
          · rename_i e'
            rw [e'] at h'
            exact h'

theorem State.sendOut_keeps (u : Keeps [.hq] P) {a0 : Nat} {a1 : Sys2Proof.Word} {a2 : List (Nat × List Sys2Proof.Byte)} (k : P s) : P (State.sendOut a0 a1 a2 s).1 := by
  unfold State.sendOut
  repeat' (first
    | with_reducible assumption
    | (with_reducible refine u.mono ?_; decide)
    | (intro _ h; exact h)
    | (intro h; exact h)
    | (intro _; rfl)
    | (with_reducible refine State.say_keeps ?_)
    | (with_reducible refine State.say_keeps_of ?_ (by assumption))
    | (with_reducible refine State.modHq_keeps ?_ ?_ ?_)
    | (with_reducible refine State.modSlot_keeps ?_ ?_)
    | (with_reducible refine ite_keeps ?_ ?_)
    | split
    | dsimp only [id])
theorem State.sendOut_keeps_of (u : Keeps [.hq] P) {a0 : Nat} {a1 : Sys2Proof.Word} {a2 : List (Nat × List Sys2Proof.Byte)} {t r} (k : P s) (e : State.sendOut a0 a1 a2 s = (t, r)) : P t := by
  have h := State.sendOut_keeps (P := P) u (a0 := a0) (a1 := a1) (a2 := a2) k
  rw [e] at h
  exact h

theorem State.takeEntry_keeps (u : Keeps [.hq] P) {a0 : Nat} {a1 : CmdPath} {a2 : Nat} {a3 : List Sys2Proof.Word} (k : P s) : P (State.takeEntry a0 a1 a2 a3 s) := by
  unfold State.takeEntry
  repeat' (first
    | with_reducible assumption
    | (with_reducible refine u.mono ?_; decide)
    | (intro _ h; exact h)
    | (intro h; exact h)
    | (intro _; rfl)
    | (with_reducible refine State.modHq_keeps ?_ ?_ ?_)
    | (with_reducible refine ite_keeps ?_ ?_)
    | split
    | dsimp only [id])

theorem execHqDoorbell_keeps (u : Keeps [.enc, .hq, .glb, .irc, .log] P) {a0 : Nat} {a1 : Nat} {a2 : Bool} {a3 : Sys2Proof.Word} (k : P s) : ∀ t, execHqDoorbell a0 a1 a2 a3 s = .next t → P t := by
  intro t e
  injection e with e
  rw [← e]
  clear e
  repeat' (first
    | with_reducible assumption
    | (with_reducible refine u.mono ?_; decide)
    | (intro _ h; exact h)
    | (intro h; exact h)
    | (intro _; rfl)
    | (with_reducible refine nextOr_keeps (ok_keeps ?_) ?_)
    | (with_reducible refine State.doorbell_keeps ?_ ?_)
    | (with_reducible refine ite_keeps ?_ ?_)
    | split
    | dsimp only [id])

theorem execQueuePoll_keeps (u : Keeps [.enc, .hq, .irc, .log] P) {a0 : Nat} {a1 : BitVec 64} (k : P s) : ∀ t, execQueuePoll a0 a1 s = .next t → P t := by
  intro t e
  injection e with e
  rw [← e]
  clear e
  repeat' (first
    | with_reducible assumption
    | (with_reducible refine u.mono ?_; decide)
    | (intro _ h; exact h)
    | (intro h; exact h)
    | (intro _; rfl)
    | (with_reducible refine nextOr_keeps (ok_keeps ?_) ?_)
    | (with_reducible refine State.newHead_keeps ?_ ?_)
    | (with_reducible refine State.newTail_keeps ?_ ?_)
    | (with_reducible refine ite_keeps ?_ ?_)
    | split
    | dsimp only [id])

theorem execCommandFetch_keeps (u : Keeps [.hq] P) {a0 : Nat} {a1 : List Sys2Proof.Word} (k : P s) : ∀ t, execCommandFetch a0 a1 s = .next t → P t := by
  intro t e
  injection e with e
  rw [← e]
  clear e
  repeat' (first
    | with_reducible assumption
    | (with_reducible refine u.mono ?_; decide)
    | (intro _ h; exact h)
    | (intro h; exact h)
    | (intro _; rfl)
    | (with_reducible refine nextOr_keeps (ok_keeps ?_) ?_)
    | (with_reducible refine State.modHqQ_keeps ?_ ?_)
    | (with_reducible refine State.modHq_keeps ?_ ?_ ?_)
    | (with_reducible refine State.takeEntry_keeps ?_ ?_)
    | (with_reducible refine ite_keeps ?_ ?_)
    | split
    | dsimp only [id])

theorem execCommandComplete_keeps (u : Keeps [.freeCtr, .run, .hq] P) {a0 : Nat} (k : P s) : ∀ t, execCommandComplete a0 s = .next t → P t := by
  intro t e
  injection e with e
  rw [← e]
  clear e
  repeat' (first
    | with_reducible assumption
    | (with_reducible refine u.mono ?_; decide)
    | (intro _ h; exact h)
    | (intro h; exact h)
    | (intro _; rfl)
    | (with_reducible refine nextOr_keeps (ok_keeps ?_) ?_)
    | (with_reducible refine State.cqPut_keeps ?_ ?_)
    | (with_reducible refine State.dropSlot_keeps ?_ ?_)
    | (with_reducible refine State.modHqQ_keeps ?_ ?_)
    | (with_reducible refine State.keyComplete_keeps ?_ ?_)
    | (with_reducible refine ite_keeps ?_ ?_)
    | split
    | dsimp only [id])

end Sys2Proof.Machine
end

