-- ==== Sys2Proof/Laws/RasterCmds.lean ====
section
/-! SUPPORT. What each operation of RasterCmds keeps. -/

namespace Sys2Proof.Machine

set_option linter.unreachableTactic false
set_option linter.unusedTactic false

variable {P : State → Prop} {s : State}

theorem State.eventRelease_keeps (u : Keeps [.enc, .cores, .drm, .blw, .log] P) {a0 : Firing} (k : P s) : P (State.eventRelease a0 s) := by
  unfold State.eventRelease
  repeat' (first
    | with_reducible assumption
    | (with_reducible refine u.mono ?_; decide)
    | (with_reducible refine State.encRelease_keeps ?_ ?_)
    | (with_reducible refine ite_keeps ?_ ?_)
    | split
    | dsimp only [id])

theorem State.eventCommit_keeps (u : Keeps [.freeCtr, .ras, .enc, .dec, .cmp, .out, .cores, .drm, .run, .hq, .txn, .blw, .fsh, .glb, .irc, .tck, .log, .sem, .flt, .grt] P) {a0 : Firing} (k : P s) : P (State.eventCommit a0 s) := by
  unfold State.eventCommit
  repeat' (first
    | with_reducible assumption
    | (with_reducible refine u.mono ?_; decide)
    | (intro _ h; exact h)
    | (intro h; exact h)
    | (intro _; rfl)
    | (with_reducible refine State.modTxn_keeps ?_ ?_)
    | (with_reducible refine State.modTrans_keeps ?_ ?_)
    | (with_reducible refine State.commitTxn_keeps ?_ ?_)
    | (with_reducible refine State.mirrorTxn_keeps ?_ ?_)
    | (with_reducible refine ite_keeps ?_ ?_)
    | split
    | dsimp only [id])

theorem State.act_keeps (u : Keeps [.freeCtr, .ras, .enc, .dec, .cmp, .out, .cores, .drm, .run, .hq, .txn, .blw, .fsh, .glb, .irc, .tck, .log, .sem, .flt, .grt] P) {a0 : Firing} (k : P s) : P (State.act a0 s) := by
  unfold State.act
  repeat' (first
    | with_reducible assumption
    | (with_reducible refine u.mono ?_; decide)
    | (intro _ h; exact h)
    | (intro h; exact h)
    | (intro _; rfl)
    | (with_reducible refine State.eventRelease_keeps ?_ ?_)
    | (with_reducible refine State.eventCommit_keeps ?_ ?_)
    | (with_reducible refine State.modIrcSrc_keeps ?_ ?_)
    | (with_reducible refine State.msix_keeps ?_ ?_)
    | (with_reducible refine State.setIntent_keeps ?_ ?_)
    | (with_reducible refine State.modRas_keeps ?_ ?_)
    | (with_reducible refine ite_keeps ?_ ?_)
    | split
    | dsimp only [id])

theorem State.recordFiring_keeps (u : Keeps [.ras, .irc, .log] P) {a0 : Firing} (k : P s) : P (State.recordFiring a0 s) := by
  unfold State.recordFiring
  repeat' (first
    | with_reducible assumption
    | (with_reducible refine u.mono ?_; decide)
    | (intro _ h; exact h)
    | (intro h; exact h)
    | (intro _; rfl)
    | (with_reducible refine State.modLineEvent_keeps ?_ ?_)
    | (with_reducible refine State.raiseP_keeps ?_ ?_)
    | (with_reducible refine State.latch_keeps ?_ ?_)
    | (with_reducible refine ite_keeps ?_ ?_)
    | split
    | dsimp only [id])

theorem State.actAll_keeps (u : Keeps [.freeCtr, .ras, .enc, .dec, .cmp, .out, .cores, .drm, .run, .hq, .txn, .blw, .fsh, .glb, .irc, .tck, .log, .sem, .flt, .grt] P) {a0 : List Firing} (k : P s) : P (State.actAll a0 s) := by
  unfold State.actAll
  repeat' (first
    | with_reducible assumption
    | (with_reducible refine u.mono ?_; decide)
    | (intro _ h; exact h)
    | (intro h; exact h)
    | (intro _; rfl)
    | (with_reducible refine State.each_keeps (fun _ _ _ => ?_) ?_)
    | (with_reducible refine State.act_keeps ?_ ?_)
    | (with_reducible refine State.recordFiring_keeps ?_ ?_)
    | (with_reducible refine State.whenB_keeps (fun _ _ => ?_) ?_)
    | (with_reducible refine State.dmaStartAll_keeps ?_ ?_)
    | (with_reducible refine ite_keeps ?_ ?_)
    | split
    | dsimp only [id])

theorem State.applyGate_keeps (u : Keeps [.out, .glb, .log] P) {a0 : Nat} {a1 : Nat} (k : P s) : P (State.applyGate a0 a1 s) := by
  unfold State.applyGate
  repeat' (first
    | with_reducible assumption
    | (with_reducible refine u.mono ?_; decide)
    | (with_reducible refine State.modOutP_keeps ?_ ?_)
    | (with_reducible refine State.raise_keeps ?_ ?_)
    | (with_reducible refine State.modGlb_keeps ?_ ?_)
    | (with_reducible refine State.modDpo_keeps ?_ ?_)
    | (with_reducible refine ite_keeps ?_ ?_)
    | split
    | dsimp only [id])

theorem State.armMirror_keeps (u : Keeps [.freeCtr, .ras, .enc, .dec, .cmp, .out, .cores, .drm, .run, .hq, .txn, .blw, .fsh, .glb, .irc, .tck, .log, .sem, .flt, .grt] P) {a0 : MirrorTxn} (k : P s) : P (State.armMirror a0 s) := by
  unfold State.armMirror
  repeat' (first
    | with_reducible assumption
    | (with_reducible refine u.mono ?_; decide)
    | (intro _ h; exact h)
    | (intro h; exact h)
    | (intro _; rfl)
    | (with_reducible refine State.endTxn_keeps ?_ ?_)
    | (with_reducible refine State.modTrans_keeps ?_ ?_)
    | (with_reducible refine State.beginTxn_keeps ?_ ?_)
    | (with_reducible refine State.armTxn_keeps ?_ ?_)
    | (with_reducible refine State.outOfStep_keeps ?_ ?_)
    | (with_reducible refine State.commitTxn_keeps ?_ ?_)
    | (with_reducible refine ite_keeps ?_ ?_)
    | split
    | dsimp only [id])

theorem State.applySnapshot_keeps (u : Keeps [.freeCtr, .ras, .enc, .dec, .cmp, .out, .cores, .drm, .run, .hq, .txn, .blw, .fsh, .glb, .irc, .tck, .log, .sem, .flt, .grt] P) (k : P s) : P (State.applySnapshot s) := by
  unfold State.applySnapshot
  repeat' (first
    | with_reducible assumption
    | (with_reducible refine u.mono ?_; decide)
    | (intro _ h; exact h)
    | (intro h; exact h)
    | (intro _; rfl)
    | (with_reducible refine State.modGrt_keeps ?_ ?_)
    | (with_reducible refine State.tryCommit_keeps ?_ ?_)
    | (with_reducible refine State.tryCommit_keeps_of ?_ ?_ (by assumption))
    | (with_reducible refine State.each_keeps (fun _ _ _ => ?_) ?_)
    | (with_reducible refine State.journalPut_keeps ?_ ?_)
    | (with_reducible refine State.markChange_keeps ?_ ?_)
    | (with_reducible refine State.modTxn_keeps ?_ ?_)
    | (with_reducible refine State.wantAdmission_keeps ?_ ?_)
    | (with_reducible refine State.armMirror_keeps ?_ ?_)
    | (with_reducible refine ite_keeps ?_ ?_)
    | split
    | dsimp only [id])

theorem State.enterLine_keeps (u : Keeps [.ras] P) {a0 : Sys2Proof.LinePos} (k : P s) : P (State.enterLine a0 s) := by
  unfold State.enterLine
  repeat' (first
    | with_reducible assumption
    | (with_reducible refine u.mono ?_; decide)
    | (with_reducible refine State.modRaster_keeps ?_ ?_)
    | (with_reducible refine ite_keeps ?_ ?_)
    | split
    | dsimp only [id])

theorem State.firstPic_keeps (u : Keeps [.glb, .log] P) {a0 : Nat} (k : P s) : P (State.firstPic a0 s) := by
  unfold State.firstPic
  repeat' (first
    | with_reducible assumption
    | (with_reducible refine u.mono ?_; decide)
    | (with_reducible refine State.stampEnd_keeps ?_ ?_)
    | (with_reducible refine State.modGlb_keeps ?_ ?_)
    | (with_reducible refine State.raise_keeps ?_ ?_)
    | (with_reducible refine ite_keeps ?_ ?_)
    | split
    | dsimp only [id])

theorem State.judgeInput_keeps (u : Keeps [.ras, .log] P) {a0 : Sys2Proof.LinePos} (k : P s) : P (State.judgeInput a0 s) := by
  unfold State.judgeInput
  repeat' (first
    | with_reducible assumption
    | (with_reducible refine u.mono ?_; decide)
    | (with_reducible refine State.modRaster_keeps ?_ ?_)
    | (with_reducible refine State.raise_keeps ?_ ?_)
    | (with_reducible refine ite_keeps ?_ ?_)
    | split
    | dsimp only [id])

theorem State.portLine_keeps (u : Keeps [.out] P) {a0 : Sys2Proof.LinePos} (k : P s) : P (State.portLine a0 s) := by
  unfold State.portLine
  repeat' (first
    | with_reducible assumption
    | (with_reducible refine u.mono ?_; decide)
    | (with_reducible refine State.modOutP_keeps ?_ ?_)
    | (with_reducible refine ite_keeps ?_ ?_)
    | split
    | dsimp only [id])

theorem State.sendLine_keeps (u : Keeps [.out, .run, .grt] P) {a0 : Sys2Proof.LinePos} (k : P s) : P (State.sendLine a0 s) := by
  unfold State.sendLine
  repeat' (first
    | with_reducible assumption
    | (with_reducible refine u.mono ?_; decide)
    | (with_reducible refine State.gPut_keeps ?_ ?_)
    | (with_reducible refine State.each_keeps (fun _ _ _ => ?_) ?_)
    | (with_reducible refine State.sendCopies_keeps ?_ ?_)
    | (with_reducible refine State.modOutP_keeps ?_ ?_)
    | (with_reducible refine ite_keeps ?_ ?_)
    | split
    | dsimp only [id])

theorem State.outputLine_keeps (u : Keeps [.freeCtr, .ras, .enc, .dec, .cmp, .out, .cores, .drm, .run, .hq, .txn, .blw, .fsh, .glb, .irc, .tck, .log, .sem, .flt, .grt] P) {a0 : Sys2Proof.LinePos} (k : P s) : P (State.outputLine a0 s) := by
  unfold State.outputLine
  repeat' (first
    | with_reducible assumption
    | (with_reducible refine u.mono ?_; decide)
    | (intro _ h; exact h)
    | (intro h; exact h)
    | (intro _; rfl)
    | (with_reducible refine State.firstPic_keeps ?_ ?_)
    | (with_reducible refine State.applySnapshot_keeps ?_ ?_)
    | (with_reducible refine State.portLine_keeps ?_ ?_)
    | (with_reducible refine State.sendLine_keeps ?_ ?_)
    | (with_reducible refine State.endTakeover_keeps ?_ ?_)
    | (with_reducible refine State.applyGate_keeps ?_ ?_)
    | (with_reducible refine State.latch_keeps ?_ ?_)
    | (with_reducible refine State.patchCommit_keeps ?_ ?_)
    | (with_reducible refine ite_keeps ?_ ?_)
    | split
    | dsimp only [id])

theorem State.passOver_keeps (u : Keeps [.ras, .hq, .txn, .irc, .log] P) {a0 : Nat} {a1 : ℤ} (k : P s) : P (State.passOver a0 a1 s) := by
  unfold State.passOver
  repeat' (first
    | with_reducible assumption
    | (with_reducible refine u.mono ?_; decide)
    | (intro _ h; exact h)
    | (intro h; exact h)
    | (intro _; rfl)
    | (with_reducible refine State.each_keeps (fun _ _ _ => ?_) ?_)
    | (with_reducible refine State.modTrans_keeps ?_ ?_)
    | (with_reducible refine State.endTxn_keeps ?_ ?_)
    | (with_reducible refine State.ageEvent_keeps ?_ ?_)
    | (with_reducible refine ite_keeps ?_ ?_)
    | split
    | dsimp only [id])

theorem State.sendTiming_keeps (u : Keeps [.grt] P) {a0 : Nat} (k : P s) : P (State.sendTiming a0 s) := by
  unfold State.sendTiming
  repeat' (first
    | with_reducible assumption
    | (with_reducible refine u.mono ?_; decide)
    | (with_reducible refine State.gPut_keeps ?_ ?_)
    | (with_reducible refine ite_keeps ?_ ?_)
    | split
    | dsimp only [id])

theorem State.startRetiming_keeps (u : Keeps [.ras, .out, .irc, .log] P) {a0 : Nat} (k : P s) : P (State.startRetiming a0 s) := by
  unfold State.startRetiming
  repeat' (first
    | with_reducible assumption
    | (with_reducible refine u.mono ?_; decide)
    | (intro _ h; exact h)
    | (intro h; exact h)
    | (intro _; rfl)
    | (with_reducible refine State.modOutP_keeps ?_ ?_)
    | (with_reducible refine State.modRaster_keeps ?_ ?_)
    | (with_reducible refine State.modDpo_keeps ?_ ?_)
    | (with_reducible refine State.setDpoLink_keeps ?_ ?_)
    | (with_reducible refine State.raise_keeps ?_ ?_)
    | (with_reducible refine State.dropMisfits_keeps ?_ ?_)
    | (with_reducible refine ite_keeps ?_ ?_)
    | split
    | dsimp only [id])

theorem execSyncMessage_keeps (u : Keeps [.ptp, .freeCtr, .ras, .cmp, .run, .blw, .glb, .irc, .log, .flt] P) {a0 : ℤ} (k : P s) : ∀ t, execSyncMessage a0 s = .next t → P t := by
  intro t e
  injection e with e
  rw [← e]
  clear e
  repeat' (first
    | with_reducible assumption
    | (with_reducible refine u.mono ?_; decide)
    | (intro _ h; exact h)
    | (intro h; exact h)
    | (intro _; rfl)
    | (with_reducible refine nextOr_keeps (ok_keeps ?_) ?_)
    | (with_reducible refine State.rxTake_keeps ?_ ?_)
    | (with_reducible refine State.syncOffset_keeps ?_ ?_)
    | (with_reducible refine State.estimateRate_keeps ?_ ?_)
    | (with_reducible refine ite_keeps ?_ ?_)
    | split
    | dsimp only [id])

theorem execLineStart_keeps (u : Keeps [.freeCtr, .ras, .enc, .dec, .cmp, .out, .cores, .drm, .run, .hq, .txn, .blw, .fsh, .glb, .irc, .tck, .log, .sem, .flt, .grt] P) {a0 : List Sys2Proof.LinePos} (k : P s) : ∀ t, execLineStart a0 s = .next t → P t := by
  intro t e
  injection e with e
  rw [← e]
  clear e
  repeat' (first
    | with_reducible assumption
    | (with_reducible refine u.mono ?_; decide)
    | (intro _ h; exact h)
    | (intro h; exact h)
    | (intro _; rfl)
    | (with_reducible refine nextOr_keeps (ok_keeps ?_) ?_)
    | (with_reducible refine State.each_keeps (fun _ _ _ => ?_) ?_)
    | (with_reducible refine State.enterLine_keeps ?_ ?_)
    | (with_reducible refine State.actAll_keeps ?_ ?_)
    | (with_reducible refine State.commitTxn_keeps ?_ ?_)
    | (with_reducible refine State.outputLine_keeps ?_ ?_)
    | (with_reducible refine State.judgeInput_keeps ?_ ?_)
    | (with_reducible refine State.wakeRise_keeps ?_ ?_)
    | (with_reducible refine ite_keeps ?_ ?_)
    | split
    | dsimp only [id])

theorem execInputFrameStart_keeps (u : Keeps [.freeCtr, .ras, .enc, .drm, .hq, .txn, .irc, .log, .grt] P) {a0 : Nat} {a1 : Sys2Proof.FrameStamp} {a2 : Bool} (k : P s) : ∀ t, execInputFrameStart a0 a1 a2 s = .next t → P t := by
  intro t e
  injection e with e
  rw [← e]
  clear e
  repeat' (first
    | with_reducible assumption
    | (with_reducible refine u.mono ?_; decide)
    | (intro _ h; exact h)
    | (intro h; exact h)
    | (intro _; rfl)
    | (with_reducible refine nextOr_keeps (ok_keeps ?_) ?_)
    | (with_reducible refine State.setInState_keeps ?_ ?_)
    | (with_reducible refine State.modRaster_keeps ?_ ?_)
    | (with_reducible refine State.passOver_keeps ?_ ?_)
    | (with_reducible refine State.sendTiming_keeps ?_ ?_)
    | (with_reducible refine State.each_keeps (fun _ _ _ => ?_) ?_)
    | (with_reducible refine State.encFrame_keeps ?_ ?_)
    | (with_reducible refine ite_keeps ?_ ?_)
    | split
    | dsimp only [id])

theorem execInputSignalTimeout_keeps (u : Keeps [.ras, .irc, .log] P) {a0 : Nat} (k : P s) : ∀ t, execInputSignalTimeout a0 s = .next t → P t := by
  intro t e
  injection e with e
  rw [← e]
  clear e
  repeat' (first
    | with_reducible assumption
    | (with_reducible refine u.mono ?_; decide)
    | (intro _ h; exact h)
    | (intro h; exact h)
    | (intro _; rfl)
    | (with_reducible refine nextOr_keeps (ok_keeps ?_) ?_)
    | (with_reducible refine State.setInState_keeps ?_ ?_)
    | (with_reducible refine State.modRaster_keeps ?_ ?_)
    | (with_reducible refine ite_keeps ?_ ?_)
    | split
    | dsimp only [id])

theorem execRasterRealign_keeps (u : Keeps [.ras, .hq, .txn, .irc, .log] P) {a0 : Nat} (k : P s) : ∀ t, execRasterRealign a0 s = .next t → P t := by
  intro t e
  injection e with e
  rw [← e]
  clear e
  repeat' (first
    | with_reducible assumption
    | (with_reducible refine u.mono ?_; decide)
    | (intro _ h; exact h)
    | (intro h; exact h)
    | (intro _; rfl)
    | (with_reducible refine nextOr_keeps (ok_keeps ?_) ?_)
    | (with_reducible refine State.modRaster_keeps ?_ ?_)
    | (with_reducible refine State.passOver_keeps ?_ ?_)
    | (with_reducible refine ite_keeps ?_ ?_)
    | split
    | dsimp only [id])

theorem execRasterRetimed_keeps (u : Keeps [.ras, .out, .irc, .log] P) {a0 : Nat} {a1 : Sys2Proof.RasterFmt} (k : P s) : ∀ t, execRasterRetimed a0 a1 s = .next t → P t := by
  intro t e
  injection e with e
  rw [← e]
  clear e
  repeat' (first
    | with_reducible assumption
    | (with_reducible refine u.mono ?_; decide)
    | (intro _ h; exact h)
    | (intro h; exact h)
    | (intro _; rfl)
    | (with_reducible refine nextOr_keeps (ok_keeps ?_) ?_)
    | (with_reducible refine State.modRaster_keeps ?_ ?_)
    | (with_reducible refine State.reacquire_keeps ?_ ?_)
    | (with_reducible refine State.raise_keeps ?_ ?_)
    | (with_reducible refine State.startRetiming_keeps ?_ ?_)
    | (with_reducible refine ite_keeps ?_ ?_)
    | split
    | dsimp only [id])

theorem execRetimingEnd_keeps (u : Keeps [.ras, .out, .hq, .txn, .irc, .log] P) {a0 : Nat} (k : P s) : ∀ t, execRetimingEnd a0 s = .next t → P t := by
  intro t e
  injection e with e
  rw [← e]
  clear e
  repeat' (first
    | with_reducible assumption
    | (with_reducible refine u.mono ?_; decide)
    | (intro _ h; exact h)
    | (intro h; exact h)
    | (intro _; rfl)
    | (with_reducible refine nextOr_keeps (ok_keeps ?_) ?_)
    | (with_reducible refine State.modRaster_keeps ?_ ?_)
    | (with_reducible refine State.passOver_keeps ?_ ?_)
    | (with_reducible refine State.setDpoLink_keeps ?_ ?_)
    | (with_reducible refine ite_keeps ?_ ?_)
    | split
    | dsimp only [id])

end Sys2Proof.Machine
end

