-- ==== Sys2Proof/Laws/HostCmds.lean ====
section
/-! SUPPORT. What each operation of HostCmds keeps. -/

namespace Sys2Proof.Machine

set_option linter.unreachableTactic false
set_option linter.unusedTactic false

variable {P : State → Prop} {s : State}

theorem State.cutPost_keeps (u : Keeps [.dec, .cores, .blw] P) {a0 : Nat} (k : P s) : P (State.cutPost a0 s) := by
  unfold State.cutPost
  repeat' (first
    | with_reducible assumption
    | (with_reducible refine u.mono ?_; decide)
    | (with_reducible refine State.ringPut_keeps ?_ ?_)
    | (with_reducible refine ite_keeps ?_ ?_)
    | split
    | dsimp only [id])

theorem State.abandonSlots_keeps (u : Keeps [.enc, .dec, .cores, .hq, .txn, .blw, .fsh] P) {a0 : List Nat} (k : P s) : P (State.abandonSlots a0 s) := by
  unfold State.abandonSlots
  repeat' (first
    | with_reducible assumption
    | (with_reducible refine u.mono ?_; decide)
    | (intro _ h; exact h)
    | (intro h; exact h)
    | (intro _; rfl)
    | (with_reducible refine State.each_keeps (fun _ _ _ => ?_) ?_)
    | (with_reducible refine State.cutPost_keeps ?_ ?_)
    | (with_reducible refine State.modTxn_keeps ?_ ?_)
    | (with_reducible refine State.modEnc_keeps ?_ ?_)
    | (with_reducible refine State.modFsh_keeps ?_ ?_ ?_)
    | (with_reducible refine State.modHq_keeps ?_ ?_ ?_)
    | (with_reducible refine ite_keeps ?_ ?_)
    | split
    | dsimp only [id])

theorem State.appendNals_keeps (u : Keeps [.dec, .cores, .blw] P) {a0 : Nat} {a1 : List (List Sys2Proof.Byte)} {a2 : Bool} {a3 : Sys2Proof.T48} (k : P s) : P (State.appendNals a0 a1 a2 a3 s) := by
  unfold State.appendNals
  repeat' (first
    | with_reducible assumption
    | (with_reducible refine u.mono ?_; decide)
    | (with_reducible refine State.each_keeps (fun _ _ _ => ?_) ?_)
    | (with_reducible refine State.ringCopy_keeps ?_ ?_)
    | (with_reducible refine State.modDecS_keeps ?_ ?_)
    | (with_reducible refine State.ringPut_keeps ?_ ?_)
    | (with_reducible refine ite_keeps ?_ ?_)
    | split
    | dsimp only [id])

theorem State.authFail_keeps (u : Keeps [.hq, .irc, .log] P) {a0 : Sys2Proof.Datagram} (k : P s) : P (State.authFail a0 s) := by
  unfold State.authFail
  repeat' (first
    | with_reducible assumption
    | (with_reducible refine u.mono ?_; decide)
    | (intro _ h; exact h)
    | (intro h; exact h)
    | (intro _; rfl)
    | (with_reducible refine State.latch_keeps ?_ ?_)
    | (with_reducible refine State.modHq_keeps ?_ ?_ ?_)
    | (with_reducible refine State.limited_keeps ?_ (fun _ _ => ?_) ?_)
    | (with_reducible refine State.raise_keeps ?_ ?_)
    | (with_reducible refine ite_keeps ?_ ?_)
    | split
    | dsimp only [id])

theorem State.hostMix_keeps (u : Keeps [.freeCtr, .hq] P) {a0 : Nat} {a1 : List Sys2Proof.Byte} (k : P s) : P (State.hostMix a0 a1 s) := by
  unfold State.hostMix
  repeat' (first
    | with_reducible assumption
    | (with_reducible refine u.mono ?_; decide)
    | (intro _ h; exact h)
    | (intro h; exact h)
    | (intro _; rfl)
    | (with_reducible refine State.each_keeps (fun _ _ _ => ?_) ?_)
    | (with_reducible refine State.tickFree_keeps ?_ ?_)
    | (with_reducible refine State.hostWrite_keeps ?_ ?_)
    | (with_reducible refine ite_keeps ?_ ?_)
    | split
    | dsimp only [id])

theorem State.dmaBad_keeps (u : Keeps [.freeCtr, .enc, .hq] P) {a0 : Nat} {a1 : Slot} (k : P s) : P (State.dmaBad a0 a1 s) := by
  unfold State.dmaBad
  repeat' (first
    | with_reducible assumption
    | (with_reducible refine u.mono ?_; decide)
    | (intro _ h; exact h)
    | (intro h; exact h)
    | (intro _; rfl)
    | (with_reducible refine State.modEncS_keeps ?_ ?_)
    | (with_reducible refine State.each_keeps (fun _ _ _ => ?_) ?_)
    | (with_reducible refine State.hostMix_keeps ?_ ?_)
    | (with_reducible refine State.finish_keeps ?_ ?_)
    | (with_reducible refine ite_keeps ?_ ?_)
    | split
    | dsimp only [id])

theorem State.forwardNals_keeps (u : Keeps [.grt] P) {a0 : Nat} {a1 : List (List Sys2Proof.Byte)} {a2 : Bool} (k : P s) : P (State.forwardNals a0 a1 a2 s) := by
  unfold State.forwardNals
  repeat' (first
    | with_reducible assumption
    | (with_reducible refine u.mono ?_; decide)
    | (with_reducible refine State.each_keeps (fun _ _ _ => ?_) ?_)
    | (with_reducible refine State.gPut_keeps ?_ ?_)
    | (with_reducible refine ite_keeps ?_ ?_)
    | split
    | dsimp only [id])

theorem State.dmaGood_keeps (u : Keeps [.enc, .dec, .cores, .hq, .blw, .grt] P) {a0 : Nat} {a1 : Slot} (k : P s) : P (State.dmaGood a0 a1 s) := by
  unfold State.dmaGood
  repeat' (first
    | with_reducible assumption
    | (with_reducible refine u.mono ?_; decide)
    | (intro _ h; exact h)
    | (intro h; exact h)
    | (intro _; rfl)
    | (with_reducible refine State.modEncS_keeps ?_ ?_)
    | (with_reducible refine State.gPut_keeps ?_ ?_)
    | (with_reducible refine State.finish_keeps ?_ ?_)
    | (with_reducible refine State.forwardNals_keeps ?_ ?_)
    | (with_reducible refine State.appendNals_keeps ?_ ?_)
    | (with_reducible refine State.each_keeps (fun _ _ _ => ?_) ?_)
    | (with_reducible refine State.hostWrite_keeps ?_ ?_)
    | (with_reducible refine ite_keeps ?_ ?_)
    | split
    | dsimp only [id])

theorem State.doCreate_keeps (u : Keeps [.hq] P) {a0 : Nat} {a1 : BitVec 64} {a2 : BitVec 64} {a3 : BitVec 16} {a4 : BitVec 16} {a5 : QKind} {a6 : BitVec 4} {a7 : BitVec 8} {a8 : BitVec 14} {a9 : BitVec 11} {a10 : BitVec 64} {a11 : Nat} (k : P s) : P (State.doCreate a0 a1 a2 a3 a4 a5 a6 a7 a8 a9 a10 a11 s).1 := by
  unfold State.doCreate
  repeat' (first
    | with_reducible assumption
    | (with_reducible refine u.mono ?_; decide)
    | (intro _ h; exact h)
    | (intro h; exact h)
    | (intro _; rfl)
    | (with_reducible refine State.say_keeps ?_)
    | (with_reducible refine State.say_keeps_of ?_ (by assumption))
    | (with_reducible refine State.modHqQ_keeps ?_ ?_)
    | (with_reducible refine ite_keeps ?_ ?_)
    | split
    | dsimp only [id])
theorem State.doCreate_keeps_of (u : Keeps [.hq] P) {a0 : Nat} {a1 : BitVec 64} {a2 : BitVec 64} {a3 : BitVec 16} {a4 : BitVec 16} {a5 : QKind} {a6 : BitVec 4} {a7 : BitVec 8} {a8 : BitVec 14} {a9 : BitVec 11} {a10 : BitVec 64} {a11 : Nat} {t r} (k : P s) (e : State.doCreate a0 a1 a2 a3 a4 a5 a6 a7 a8 a9 a10 a11 s = (t, r)) : P t := by
  have h := State.doCreate_keeps (P := P) u (a0 := a0) (a1 := a1) (a2 := a2) (a3 := a3) (a4 := a4) (a5 := a5) (a6 := a6) (a7 := a7) (a8 := a8) (a9 := a9) (a10 := a10) (a11 := a11) k
  rw [e] at h
  exact h

theorem State.removeQueue_keeps (u : Keeps [.hq] P) {a0 : Nat} (k : P s) : P (State.removeQueue a0 s) := by
  unfold State.removeQueue
  repeat' (first
    | with_reducible assumption
    | (with_reducible refine u.mono ?_; decide)
    | (intro _ h; exact h)
    | (intro h; exact h)
    | (intro _; rfl)
    | (with_reducible refine State.unhold_keeps ?_ ?_)
    | (with_reducible refine State.modHqQ_keeps ?_ ?_)
    | (with_reducible refine ite_keeps ?_ ?_)
    | split
    | dsimp only [id])

theorem State.doDelete_keeps (u : Keeps [.hq, .txn, .irc, .grt] P) {a0 : Nat} (k : P s) : P (State.doDelete a0 s).1 := by
  unfold State.doDelete
  repeat' (first
    | with_reducible assumption
    | (with_reducible refine u.mono ?_; decide)
    | (intro _ h; exact h)
    | (intro h; exact h)
    | (intro _; rfl)
    | (with_reducible refine State.say_keeps ?_)
    | (with_reducible refine State.say_keeps_of ?_ (by assumption))
    | (with_reducible refine State.removeQueue_keeps ?_ ?_)
    | (with_reducible refine State.abortBy_keeps ?_ ?_)
    | (with_reducible refine ite_keeps ?_ ?_)
    | split
    | dsimp only [id])
theorem State.doDelete_keeps_of (u : Keeps [.hq, .txn, .irc, .grt] P) {a0 : Nat} {t r} (k : P s) (e : State.doDelete a0 s = (t, r)) : P t := by
  have h := State.doDelete_keeps (P := P) u (a0 := a0) k
  rw [e] at h
  exact h

theorem State.doSetEvents_keeps (u : Keeps [.hq] P) {a0 : BitVec 64} {a1 : Ctx} (k : P s) : P (State.doSetEvents a0 a1 s).1 := by
  unfold State.doSetEvents
  repeat' (first
    | with_reducible assumption
    | (with_reducible refine u.mono ?_; decide)
    | (intro _ h; exact h)
    | (intro h; exact h)
    | (intro _; rfl)
    | (with_reducible refine State.say_keeps ?_)
    | (with_reducible refine State.say_keeps_of ?_ (by assumption))
    | (with_reducible refine State.modHqQ_keeps ?_ ?_)
    | (with_reducible refine ite_keeps ?_ ?_)
    | split
    | dsimp only [id])
theorem State.doSetEvents_keeps_of (u : Keeps [.hq] P) {a0 : BitVec 64} {a1 : Ctx} {t r} (k : P s) (e : State.doSetEvents a0 a1 s = (t, r)) : P t := by
  have h := State.doSetEvents_keeps (P := P) u (a0 := a0) (a1 := a1) k
  rw [e] at h
  exact h

theorem State.markFailed_keeps (u : Keeps [.txn] P) {a0 : Nat} {a1 : Nat} (k : P s) : P (State.markFailed a0 a1 s) := by
  unfold State.markFailed
  repeat' (first
    | with_reducible assumption
    | (with_reducible refine u.mono ?_; decide)
    | (with_reducible refine State.modTrans_keeps ?_ ?_)
    | (with_reducible refine ite_keeps ?_ ?_)
    | split
    | dsimp only [id])

theorem State.doRegWrite_keeps (u : Keeps [.freeCtr, .ras, .enc, .dec, .cmp, .out, .cores, .drm, .run, .hq, .txn, .blw, .fsh, .glb, .irc, .tck, .log, .sem, .flt, .grt] P) {a0 : Nat} {a1 : Sys2Proof.Word} {a2 : Ctx} (k : P s) : P (State.doRegWrite a0 a1 a2 s).1 := by
  unfold State.doRegWrite
  repeat' (first
    | with_reducible assumption
    | (with_reducible refine u.mono ?_; decide)
    | (intro _ h; exact h)
    | (intro h; exact h)
    | (intro _; rfl)
    | (with_reducible refine State.say_keeps ?_)
    | (with_reducible refine State.say_keeps_of ?_ (by assumption))
    | (with_reducible refine State.markFailed_keeps ?_ ?_)
    | (with_reducible refine State.bufferTxn_keeps ?_ ?_)
    | (with_reducible refine State.bufferTxn_keeps_of ?_ ?_ (by assumption))
    | (with_reducible refine State.writeAddr_keeps ?_ ?_)
    | (with_reducible refine State.writeAddr_keeps_of ?_ ?_ (by assumption))
    | (with_reducible refine ite_keeps ?_ ?_)
    | split
    | dsimp only [id])
theorem State.doRegWrite_keeps_of (u : Keeps [.freeCtr, .ras, .enc, .dec, .cmp, .out, .cores, .drm, .run, .hq, .txn, .blw, .fsh, .glb, .irc, .tck, .log, .sem, .flt, .grt] P) {a0 : Nat} {a1 : Sys2Proof.Word} {a2 : Ctx} {t r} (k : P s) (e : State.doRegWrite a0 a1 a2 s = (t, r)) : P t := by
  have h := State.doRegWrite_keeps (P := P) u (a0 := a0) (a1 := a1) (a2 := a2) k
  rw [e] at h
  exact h

theorem State.doStart_keeps (u : Keeps [.freeCtr, .dec, .cmp, .cores, .drm, .blw, .irc, .log, .grt] P) {a0 : Nat} {a1 : Bool} {a2 : Ctx} (k : P s) : P (State.doStart a0 a1 a2 s).1 := by
  unfold State.doStart
  repeat' (first
    | with_reducible assumption
    | (with_reducible refine u.mono ?_; decide)
    | (intro _ h; exact h)
    | (intro h; exact h)
    | (intro _; rfl)
    | (with_reducible refine State.say_keeps ?_)
    | (with_reducible refine State.say_keeps_of ?_ (by assumption))
    | (with_reducible refine State.startStream_keeps ?_ ?_)
    | (with_reducible refine ite_keeps ?_ ?_)
    | split
    | dsimp only [id])
theorem State.doStart_keeps_of (u : Keeps [.freeCtr, .dec, .cmp, .cores, .drm, .blw, .irc, .log, .grt] P) {a0 : Nat} {a1 : Bool} {a2 : Ctx} {t r} (k : P s) (e : State.doStart a0 a1 a2 s = (t, r)) : P t := by
  have h := State.doStart_keeps (P := P) u (a0 := a0) (a1 := a1) (a2 := a2) k
  rw [e] at h
  exact h

theorem State.quenchSoon_keeps (u : Keeps [.run] P) {a0 : Nat} (k : P s) : P (State.quenchSoon a0 s) := by
  unfold State.quenchSoon
  repeat' (first
    | with_reducible assumption
    | (with_reducible refine u.mono ?_; decide)
    | (with_reducible refine State.modRun_keeps ?_ ?_)
    | (with_reducible refine ite_keeps ?_ ?_)
    | split
    | dsimp only [id])

theorem State.doQuench_keeps (u : Keeps [.ras, .run, .txn, .irc, .log] P) {a0 : Nat} {a1 : Bool} {a2 : Ctx} (k : P s) : P (State.doQuench a0 a1 a2 s).1 := by
  unfold State.doQuench
  repeat' (first
    | with_reducible assumption
    | (with_reducible refine u.mono ?_; decide)
    | (intro _ h; exact h)
    | (intro h; exact h)
    | (intro _; rfl)
    | (with_reducible refine State.say_keeps ?_)
    | (with_reducible refine State.say_keeps_of ?_ (by assumption))
    | (with_reducible refine State.bufferTxn_keeps ?_ ?_)
    | (with_reducible refine State.bufferTxn_keeps_of ?_ ?_ (by assumption))
    | (with_reducible refine State.whenB_keeps (fun _ _ => ?_) ?_)
    | (with_reducible refine State.quenchSoon_keeps ?_ ?_)
    | (with_reducible refine State.each_keeps (fun _ _ _ => ?_) ?_)
    | (with_reducible refine State.modRule_keeps ?_ ?_)
    | (with_reducible refine State.limited_keeps ?_ (fun _ _ => ?_) ?_)
    | (with_reducible refine State.raiseP_keeps ?_ ?_)
    | (with_reducible refine foldl_fst_keeps (fun _ _ _ => ?_) ?_)
    | (with_reducible refine foldl_keeps (fun _ _ _ => ?_) ?_)
    | (with_reducible refine ite_keeps ?_ ?_)
    | split
    | dsimp only [id])
theorem State.doQuench_keeps_of (u : Keeps [.ras, .run, .txn, .irc, .log] P) {a0 : Nat} {a1 : Bool} {a2 : Ctx} {t r} (k : P s) (e : State.doQuench a0 a1 a2 s = (t, r)) : P t := by
  have h := State.doQuench_keeps (P := P) u (a0 := a0) (a1 := a1) (a2 := a2) k
  rw [e] at h
  exact h

theorem State.doOutputSet_keeps (u : Keeps [.out, .txn] P) {a0 : Nat} {a1 : Bool} {a2 : Ctx} (k : P s) : P (State.doOutputSet a0 a1 a2 s).1 := by
  unfold State.doOutputSet
  repeat' (first
    | with_reducible assumption
    | (with_reducible refine u.mono ?_; decide)
    | (with_reducible refine State.say_keeps ?_)
    | (with_reducible refine State.say_keeps_of ?_ (by assumption))
    | (with_reducible refine State.setIntent_keeps ?_ ?_)
    | (with_reducible refine ite_keeps ?_ ?_)
    | split
    | dsimp only [id])
theorem State.doOutputSet_keeps_of (u : Keeps [.out, .txn] P) {a0 : Nat} {a1 : Bool} {a2 : Ctx} {t r} (k : P s) (e : State.doOutputSet a0 a1 a2 s = (t, r)) : P t := by
  have h := State.doOutputSet_keeps (P := P) u (a0 := a0) (a1 := a1) (a2 := a2) k
  rw [e] at h
  exact h

theorem State.doPatch_keeps (u : Keeps [.freeCtr, .cmp, .drm, .run, .hq, .txn, .blw, .glb, .irc, .tck, .log, .sem, .flt, .grt] P) {a0 : CmdPath} (k : P s) : P (State.doPatch a0 s).1 := by
  unfold State.doPatch
  repeat' (first
    | with_reducible assumption
    | (with_reducible refine u.mono ?_; decide)
    | (intro _ h; exact h)
    | (intro h; exact h)
    | (intro _; rfl)
    | (with_reducible refine State.say_keeps ?_)
    | (with_reducible refine State.say_keeps_of ?_ (by assumption))
    | (with_reducible refine State.enterPatch_keeps ?_ ?_)
    | (with_reducible refine ite_keeps ?_ ?_)
    | split
    | dsimp only [id])
theorem State.doPatch_keeps_of (u : Keeps [.freeCtr, .cmp, .drm, .run, .hq, .txn, .blw, .glb, .irc, .tck, .log, .sem, .flt, .grt] P) {a0 : CmdPath} {t r} (k : P s) (e : State.doPatch a0 s = (t, r)) : P t := by
  have h := State.doPatch_keeps (P := P) u (a0 := a0) k
  rw [e] at h
  exact h

theorem State.doMirrored_keeps (u : Keeps [.freeCtr, .ras, .enc, .dec, .cmp, .out, .cores, .drm, .run, .hq, .txn, .blw, .fsh, .glb, .irc, .tck, .log, .sem, .flt, .grt] P) {a0 : SrcPath} {a1 : HostCmd} (k : P s) : P (State.doMirrored a0 a1 s) := by
  unfold State.doMirrored
  cases a1
  case createQueue => exact State.doCreate_keeps (u.mono (by decide)) k
  case deleteQueue => exact State.doDelete_keeps (u.mono (by decide)) k
  case setEvents => exact State.doSetEvents_keeps (u.mono (by decide)) k
  case regWrite => exact State.doRegWrite_keeps (u.mono (by decide)) k
  case streamStart => exact State.doStart_keeps (u.mono (by decide)) k
  case streamRejoin => exact State.doStart_keeps (u.mono (by decide)) k
  case streamQuench => exact State.doQuench_keeps (u.mono (by decide)) k
  case streamUnquench => exact State.doQuench_keeps (u.mono (by decide)) k
  case outputSet => exact State.doOutputSet_keeps (u.mono (by decide)) k
  case patch => exact State.doPatch_keeps (u.mono (by decide)) k
  all_goals exact k

theorem State.losePage_keeps (u : Keeps [.enc, .hq, .log] P) {a0 : Nat} (k : P s) : P (State.losePage a0 s) := by
  unfold State.losePage
  repeat' (first
    | with_reducible assumption
    | (with_reducible refine u.mono ?_; decide)
    | (intro _ h; exact h)
    | (intro h; exact h)
    | (intro _; rfl)
    | (with_reducible refine State.modEncS_keeps ?_ ?_)
    | (with_reducible refine State.beginDrop_keeps ?_ ?_)
    | (with_reducible refine ite_keeps ?_ ?_)
    | split
    | dsimp only [id])

theorem State.pageFail_keeps (u : Keeps [.freeCtr, .enc, .hq, .log] P) {a0 : Nat} (k : P s) : P (State.pageFail a0 s) := by
  unfold State.pageFail
  repeat' (first
    | with_reducible assumption
    | (with_reducible refine u.mono ?_; decide)
    | (intro _ h; exact h)
    | (intro h; exact h)
    | (intro _; rfl)
    | (with_reducible refine State.hostWrite_keeps ?_ ?_)
    | (with_reducible refine State.beginDrop_keeps ?_ ?_)
    | (with_reducible refine State.pageDone_keeps ?_ ?_)
    | (with_reducible refine State.modFreeCtr_keeps ?_ ?_)
    | (with_reducible refine ite_keeps ?_ ?_)
    | split
    | dsimp only [id])

theorem State.resetFn_keeps (u : Keeps [.enc, .dec, .cores, .hq, .txn, .blw, .fsh, .irc, .log, .sem, .grt] P) {a0 : Nat} (k : P s) : P (State.resetFn a0 s) := by
  unfold State.resetFn
  repeat' (first
    | with_reducible assumption
    | (with_reducible refine u.mono ?_; decide)
    | (intro _ h; exact h)
    | (intro h; exact h)
    | (intro _; rfl)
    | (with_reducible refine State.abandonSlots_keeps ?_ ?_)
    | (with_reducible refine State.abortBy_keeps ?_ ?_)
    | (with_reducible refine State.each_keeps (fun _ _ _ => ?_) ?_)
    | (with_reducible refine State.losePage_keeps ?_ ?_)
    | (with_reducible refine State.removeQueue_keeps ?_ ?_)
    | (with_reducible refine State.modHq_keeps ?_ ?_ ?_)
    | (with_reducible refine State.semBreakOwners_keeps ?_ ?_)
    | (with_reducible refine ite_keeps ?_ ?_)
    | split
    | dsimp only [id])

theorem State.slotDma_keeps (u : Keeps [.freeCtr, .enc, .dec, .cores, .hq, .blw, .grt] P) {a0 : Nat} {a1 : Bool} (k : P s) : P (State.slotDma a0 a1 s) := by
  unfold State.slotDma
  repeat' (first
    | with_reducible assumption
    | (with_reducible refine u.mono ?_; decide)
    | (intro _ h; exact h)
    | (intro h; exact h)
    | (intro _; rfl)
    | (with_reducible refine State.modHq_keeps ?_ ?_ ?_)
    | (with_reducible refine State.dmaGood_keeps ?_ ?_)
    | (with_reducible refine State.dmaBad_keeps ?_ ?_)
    | (with_reducible refine State.modSlot_keeps ?_ ?_)
    | (with_reducible refine ite_keeps ?_ ?_)
    | split
    | dsimp only [id])

theorem State.startPost_keeps (u : Keeps [.hq] P) {a0 : Nat} {a1 : Nat} {a2 : Nat} (k : P s) : P (State.startPost a0 a1 a2 s) := by
  unfold State.startPost
  repeat' (first
    | with_reducible assumption
    | (with_reducible refine u.mono ?_; decide)
    | (intro _ h; exact h)
    | (intro h; exact h)
    | (intro _; rfl)
    | (with_reducible refine State.modHq_keeps ?_ ?_ ?_)
    | (with_reducible refine ite_keeps ?_ ?_)
    | split
    | dsimp only [id])

theorem State.takeMsg_keeps (u : Keeps [.hq] P) {a0 : Sys2Proof.Datagram} (k : P s) : P (State.takeMsg a0 s) := by
  unfold State.takeMsg
  repeat' (first
    | with_reducible assumption
    | (with_reducible refine u.mono ?_; decide)
    | (intro _ h; exact h)
    | (intro h; exact h)
    | (intro _; rfl)
    | (with_reducible refine State.modHq_keeps ?_ ?_ ?_)
    | (with_reducible refine State.each_keeps (fun _ _ _ => ?_) ?_)
    | (with_reducible refine State.takeEntry_keeps ?_ ?_)
    | (with_reducible refine ite_keeps ?_ ?_)
    | split
    | dsimp only [id])

theorem execStreamStart_keeps (u : Keeps [.freeCtr, .dec, .cmp, .cores, .drm, .hq, .blw, .irc, .log, .grt] P) {a0 : Nat} (k : P s) : ∀ t, execStreamStart a0 s = .next t → P t := by
  intro t e
  injection e with e
  rw [← e]
  clear e
  refine State.onSlot_keeps (u.mono (by decide)) ?_ k
  clear k
  intro c g e x t k
  try dsimp only at e
  split at e <;> cases e
  try dsimp only
  repeat' (first
    | with_reducible assumption
    | (with_reducible refine u.mono ?_; decide)
    | (intro _ h; exact h)
    | (intro h; exact h)
    | (intro _; rfl)
    | (with_reducible refine nextOr_keeps (ok_keeps ?_) ?_)
    | (with_reducible refine State.onSlot_keeps ?_ ?_)
    | (with_reducible refine State.doStart_keeps ?_ ?_)
    | (with_reducible refine State.doStart_keeps_of ?_ ?_ (by assumption))
    | (with_reducible refine ite_keeps ?_ ?_)
    | split
    | dsimp only [id])

theorem execStreamRejoin_keeps (u : Keeps [.freeCtr, .dec, .cmp, .cores, .drm, .hq, .blw, .irc, .log, .grt] P) {a0 : Nat} (k : P s) : ∀ t, execStreamRejoin a0 s = .next t → P t := by
  intro t e
  injection e with e
  rw [← e]
  clear e
  refine State.onSlot_keeps (u.mono (by decide)) ?_ k
  clear k
  intro c g e x t k
  try dsimp only at e
  split at e <;> cases e
  try dsimp only
  repeat' (first
    | with_reducible assumption
    | (with_reducible refine u.mono ?_; decide)
    | (intro _ h; exact h)
    | (intro h; exact h)
    | (intro _; rfl)
    | (with_reducible refine nextOr_keeps (ok_keeps ?_) ?_)
    | (with_reducible refine State.onSlot_keeps ?_ ?_)
    | (with_reducible refine State.doStart_keeps ?_ ?_)
    | (with_reducible refine State.doStart_keeps_of ?_ ?_ (by assumption))
    | (with_reducible refine ite_keeps ?_ ?_)
    | split
    | dsimp only [id])

theorem execCreateQueue_keeps (u : Keeps [.hq, .grt] P) {a0 : Nat} (k : P s) : ∀ t, execCreateQueue a0 s = .next t → P t := by
  intro t e
  injection e with e
  rw [← e]
  clear e
  refine State.onSlot_keeps (u.mono (by decide)) ?_ k
  clear k
  intro c g e x t k
  try dsimp only at e
  split at e <;> cases e
  try dsimp only
  repeat' (first
    | with_reducible assumption
    | (with_reducible refine u.mono ?_; decide)
    | (intro _ h; exact h)
    | (intro h; exact h)
    | (intro _; rfl)
    | (with_reducible refine nextOr_keeps (ok_keeps ?_) ?_)
    | (with_reducible refine State.onSlot_keeps ?_ ?_)
    | (with_reducible refine State.doCreate_keeps ?_ ?_)
    | (with_reducible refine State.doCreate_keeps_of ?_ ?_ (by assumption))
    | (with_reducible refine ite_keeps ?_ ?_)
    | split
    | dsimp only [id])

theorem execDeleteQueue_keeps (u : Keeps [.hq, .txn, .irc, .grt] P) {a0 : Nat} (k : P s) : ∀ t, execDeleteQueue a0 s = .next t → P t := by
  intro t e
  injection e with e
  rw [← e]
  clear e
  refine State.onSlot_keeps (u.mono (by decide)) ?_ k
  clear k
  intro c g e x t k
  try dsimp only at e
  split at e <;> cases e
  try dsimp only
  repeat' (first
    | with_reducible assumption
    | (with_reducible refine u.mono ?_; decide)
    | (intro _ h; exact h)
    | (intro h; exact h)
    | (intro _; rfl)
    | (with_reducible refine nextOr_keeps (ok_keeps ?_) ?_)
    | (with_reducible refine State.onSlot_keeps ?_ ?_)
    | (with_reducible refine State.doDelete_keeps ?_ ?_)
    | (with_reducible refine State.doDelete_keeps_of ?_ ?_ (by assumption))
    | (with_reducible refine ite_keeps ?_ ?_)
    | split
    | dsimp only [id])

theorem execIdentify_keeps (u : Keeps [.hq, .grt] P) {a0 : Nat} (k : P s) : ∀ t, execIdentify a0 s = .next t → P t := by
  intro t e
  injection e with e
  rw [← e]
  clear e
  refine State.onSlot_keeps (u.mono (by decide)) ?_ k
  clear k
  intro c g e x t k
  try dsimp only at e
  split at e <;> cases e
  try dsimp only
  repeat' (first
    | with_reducible assumption
    | (with_reducible refine u.mono ?_; decide)
    | (intro _ h; exact h)
    | (intro h; exact h)
    | (intro _; rfl)
    | (with_reducible refine nextOr_keeps (ok_keeps ?_) ?_)
    | (with_reducible refine State.onSlot_keeps ?_ ?_)
    | (with_reducible refine State.say_keeps ?_)
    | (with_reducible refine State.say_keeps_of ?_ (by assumption))
    | (with_reducible refine State.sendOut_keeps ?_ ?_)
    | (with_reducible refine State.sendOut_keeps_of ?_ ?_ (by assumption))
    | (with_reducible refine ite_keeps ?_ ?_)
    | split
    | dsimp only [id])

theorem execGetLog_keeps (u : Keeps [.hq, .grt] P) {a0 : Nat} (k : P s) : ∀ t, execGetLog a0 s = .next t → P t := by
  intro t e
  injection e with e
  rw [← e]
  clear e
  refine State.onSlot_keeps (u.mono (by decide)) ?_ k
  clear k
  intro c g e x t k
  try dsimp only at e
  split at e <;> cases e
  try dsimp only
  repeat' (first
    | with_reducible assumption
    | (with_reducible refine u.mono ?_; decide)
    | (intro _ h; exact h)
    | (intro h; exact h)
    | (intro _; rfl)
    | (with_reducible refine nextOr_keeps (ok_keeps ?_) ?_)
    | (with_reducible refine State.onSlot_keeps ?_ ?_)
    | (with_reducible refine State.say_keeps ?_)
    | (with_reducible refine State.say_keeps_of ?_ (by assumption))
    | (with_reducible refine State.sendOut_keeps ?_ ?_)
    | (with_reducible refine State.sendOut_keeps_of ?_ ?_ (by assumption))
    | (with_reducible refine ite_keeps ?_ ?_)
    | split
    | dsimp only [id])

theorem execSetEvents_keeps (u : Keeps [.hq, .grt] P) {a0 : Nat} (k : P s) : ∀ t, execSetEvents a0 s = .next t → P t := by
  intro t e
  injection e with e
  rw [← e]
  clear e
  refine State.onSlot_keeps (u.mono (by decide)) ?_ k
  clear k
  intro c g e x t k
  try dsimp only at e
  split at e <;> cases e
  try dsimp only
  repeat' (first
    | with_reducible assumption
    | (with_reducible refine u.mono ?_; decide)
    | (intro _ h; exact h)
    | (intro h; exact h)
    | (intro _; rfl)
    | (with_reducible refine nextOr_keeps (ok_keeps ?_) ?_)
    | (with_reducible refine State.onSlot_keeps ?_ ?_)
    | (with_reducible refine State.doSetEvents_keeps ?_ ?_)
    | (with_reducible refine State.doSetEvents_keeps_of ?_ ?_ (by assumption))
    | (with_reducible refine ite_keeps ?_ ?_)
    | split
    | dsimp only [id])

theorem execRegRead_keeps (u : Keeps [.hq, .irc, .tck, .sem, .grt] P) {a0 : Nat} (k : P s) : ∀ t, execRegRead a0 s = .next t → P t := by
  intro t e
  injection e with e
  rw [← e]
  clear e
  refine State.onSlot_keeps (u.mono (by decide)) ?_ k
  clear k
  intro c g e x t k
  try dsimp only at e
  split at e <;> cases e
  try dsimp only
  repeat' (first
    | with_reducible assumption
    | (with_reducible refine u.mono ?_; decide)
    | (intro _ h; exact h)
    | (intro h; exact h)
    | (intro _; rfl)
    | (with_reducible refine nextOr_keeps (ok_keeps ?_) ?_)
    | (with_reducible refine State.onSlot_keeps ?_ ?_)
    | (with_reducible refine State.say_keeps ?_)
    | (with_reducible refine State.say_keeps_of ?_ (by assumption))
    | (with_reducible refine State.readBy_keeps ?_ ?_)
    | (with_reducible refine State.readBy_keeps_of ?_ ?_ (by assumption))
    | (with_reducible refine ite_keeps ?_ ?_)
    | split
    | dsimp only [id])

theorem execRegWrite_keeps (u : Keeps [.freeCtr, .ras, .enc, .dec, .cmp, .out, .cores, .drm, .run, .hq, .txn, .blw, .fsh, .glb, .irc, .tck, .log, .sem, .flt, .grt] P) {a0 : Nat} (k : P s) : ∀ t, execRegWrite a0 s = .next t → P t := by
  intro t e
  injection e with e
  rw [← e]
  clear e
  refine State.onSlot_keeps (u.mono (by decide)) ?_ k
  clear k
  intro c g e x t k
  try dsimp only at e
  split at e <;> cases e
  try dsimp only
  repeat' (first
    | with_reducible assumption
    | (with_reducible refine u.mono ?_; decide)
    | (intro _ h; exact h)
    | (intro h; exact h)
    | (intro _; rfl)
    | (with_reducible refine nextOr_keeps (ok_keeps ?_) ?_)
    | (with_reducible refine State.onSlot_keeps ?_ ?_)
    | (with_reducible refine State.doRegWrite_keeps ?_ ?_)
    | (with_reducible refine State.doRegWrite_keeps_of ?_ ?_ (by assumption))
    | (with_reducible refine ite_keeps ?_ ?_)
    | split
    | dsimp only [id])

theorem execTxnBegin_keeps (u : Keeps [.hq, .txn, .grt] P) {a0 : Nat} (k : P s) : ∀ t, execTxnBegin a0 s = .next t → P t := by
  intro t e
  injection e with e
  rw [← e]
  clear e
  refine State.onSlot_keeps (u.mono (by decide)) ?_ k
  clear k
  intro c g e x t k
  try dsimp only at e
  split at e <;> cases e
  try dsimp only
  repeat' (first
    | with_reducible assumption
    | (with_reducible refine u.mono ?_; decide)
    | (intro _ h; exact h)
    | (intro h; exact h)
    | (intro _; rfl)
    | (with_reducible refine nextOr_keeps (ok_keeps ?_) ?_)
    | (with_reducible refine State.onSlot_keeps ?_ ?_)
    | (with_reducible refine State.say_keeps ?_)
    | (with_reducible refine State.say_keeps_of ?_ (by assumption))
    | (with_reducible refine State.beginTxn_keeps ?_ ?_)
    | (with_reducible refine ite_keeps ?_ ?_)
    | split
    | dsimp only [id])

theorem execTxnCommit_keeps (u : Keeps [.freeCtr, .ras, .enc, .dec, .cmp, .out, .cores, .drm, .run, .hq, .txn, .blw, .fsh, .glb, .irc, .tck, .log, .sem, .flt, .grt] P) {a0 : Nat} (k : P s) : ∀ t, execTxnCommit a0 s = .next t → P t := by
  intro t e
  injection e with e
  rw [← e]
  clear e
  refine State.onSlot_keeps (u.mono (by decide)) ?_ k
  clear k
  intro c g e x t k
  try dsimp only at e
  split at e <;> cases e
  try dsimp only
  repeat' (first
    | with_reducible assumption
    | (with_reducible refine u.mono ?_; decide)
    | (intro _ h; exact h)
    | (intro h; exact h)
    | (intro _; rfl)
    | (with_reducible refine nextOr_keeps (ok_keeps ?_) ?_)
    | (with_reducible refine State.onSlot_keeps ?_ ?_)
    | (with_reducible refine State.say_keeps ?_)
    | (with_reducible refine State.say_keeps_of ?_ (by assumption))
    | (with_reducible refine State.modSlot_keeps ?_ ?_)
    | (with_reducible refine State.modTrans_keeps ?_ ?_)
    | (with_reducible refine State.armCommit_keeps ?_ ?_)
    | (with_reducible refine ite_keeps ?_ ?_)
    | split
    | dsimp only [id])

theorem execTxnAbort_keeps (u : Keeps [.hq, .txn, .irc, .grt] P) {a0 : Nat} (k : P s) : ∀ t, execTxnAbort a0 s = .next t → P t := by
  intro t e
  injection e with e
  rw [← e]
  clear e
  refine State.onSlot_keeps (u.mono (by decide)) ?_ k
  clear k
  intro c g e x t k
  try dsimp only at e
  split at e <;> cases e
  try dsimp only
  repeat' (first
    | with_reducible assumption
    | (with_reducible refine u.mono ?_; decide)
    | (intro _ h; exact h)
    | (intro h; exact h)
    | (intro _; rfl)
    | (with_reducible refine nextOr_keeps (ok_keeps ?_) ?_)
    | (with_reducible refine State.onSlot_keeps ?_ ?_)
    | (with_reducible refine State.say_keeps ?_)
    | (with_reducible refine State.say_keeps_of ?_ (by assumption))
    | (with_reducible refine State.abortTxn_keeps ?_ ?_)
    | (with_reducible refine ite_keeps ?_ ?_)
    | split
    | dsimp only [id])

theorem execStreamQuench_keeps (u : Keeps [.ras, .run, .hq, .txn, .irc, .log, .grt] P) {a0 : Nat} (k : P s) : ∀ t, execStreamQuench a0 s = .next t → P t := by
  intro t e
  injection e with e
  rw [← e]
  clear e
  refine State.onSlot_keeps (u.mono (by decide)) ?_ k
  clear k
  intro c g e x t k
  try dsimp only at e
  split at e <;> cases e
  try dsimp only
  repeat' (first
    | with_reducible assumption
    | (with_reducible refine u.mono ?_; decide)
    | (intro _ h; exact h)
    | (intro h; exact h)
    | (intro _; rfl)
    | (with_reducible refine nextOr_keeps (ok_keeps ?_) ?_)
    | (with_reducible refine State.onSlot_keeps ?_ ?_)
    | (with_reducible refine State.doQuench_keeps ?_ ?_)
    | (with_reducible refine State.doQuench_keeps_of ?_ ?_ (by assumption))
    | (with_reducible refine ite_keeps ?_ ?_)
    | split
    | dsimp only [id])

theorem execStreamUnquench_keeps (u : Keeps [.ras, .run, .hq, .txn, .irc, .log, .grt] P) {a0 : Nat} (k : P s) : ∀ t, execStreamUnquench a0 s = .next t → P t := by
  intro t e
  injection e with e
  rw [← e]
  clear e
  refine State.onSlot_keeps (u.mono (by decide)) ?_ k
  clear k
  intro c g e x t k
  try dsimp only at e
  split at e <;> cases e
  try dsimp only
  repeat' (first
    | with_reducible assumption
    | (with_reducible refine u.mono ?_; decide)
    | (intro _ h; exact h)
    | (intro h; exact h)
    | (intro _; rfl)
    | (with_reducible refine nextOr_keeps (ok_keeps ?_) ?_)
    | (with_reducible refine State.onSlot_keeps ?_ ?_)
    | (with_reducible refine State.doQuench_keeps ?_ ?_)
    | (with_reducible refine State.doQuench_keeps_of ?_ ?_ (by assumption))
    | (with_reducible refine ite_keeps ?_ ?_)
    | split
    | dsimp only [id])

theorem execSweepRestart_keeps (u : Keeps [.enc, .hq, .grt] P) {a0 : Nat} (k : P s) : ∀ t, execSweepRestart a0 s = .next t → P t := by
  intro t e
  injection e with e
  rw [← e]
  clear e
  refine State.onSlot_keeps (u.mono (by decide)) ?_ k
  clear k
  intro c g e x t k
  try dsimp only at e
  split at e <;> cases e
  try dsimp only
  repeat' (first
    | with_reducible assumption
    | (with_reducible refine u.mono ?_; decide)
    | (intro _ h; exact h)
    | (intro h; exact h)
    | (intro _; rfl)
    | (with_reducible refine nextOr_keeps (ok_keeps ?_) ?_)
    | (with_reducible refine State.onSlot_keeps ?_ ?_)
    | (with_reducible refine State.say_keeps ?_)
    | (with_reducible refine State.say_keeps_of ?_ (by assumption))
    | (with_reducible refine State.encRestart_keeps ?_ ?_)
    | (with_reducible refine ite_keeps ?_ ?_)
    | split
    | dsimp only [id])

theorem execOutputSet_keeps (u : Keeps [.out, .hq, .txn, .grt] P) {a0 : Nat} (k : P s) : ∀ t, execOutputSet a0 s = .next t → P t := by
  intro t e
  injection e with e
  rw [← e]
  clear e
  refine State.onSlot_keeps (u.mono (by decide)) ?_ k
  clear k
  intro c g e x t k
  try dsimp only at e
  split at e <;> cases e
  try dsimp only
  repeat' (first
    | with_reducible assumption
    | (with_reducible refine u.mono ?_; decide)
    | (intro _ h; exact h)
    | (intro h; exact h)
    | (intro _; rfl)
    | (with_reducible refine nextOr_keeps (ok_keeps ?_) ?_)
    | (with_reducible refine State.onSlot_keeps ?_ ?_)
    | (with_reducible refine State.doOutputSet_keeps ?_ ?_)
    | (with_reducible refine State.doOutputSet_keeps_of ?_ ?_ (by assumption))
    | (with_reducible refine ite_keeps ?_ ?_)
    | split
    | dsimp only [id])

theorem execImageWrite_keeps (u : Keeps [.hq, .fsh, .log, .grt] P) {a0 : Nat} {a1 : List Sys2Proof.Byte} (k : P s) : ∀ t, execImageWrite a0 a1 s = .next t → P t := by
  intro t e
  injection e with e
  rw [← e]
  clear e
  refine State.onSlot_keeps (u.mono (by decide)) ?_ k
  clear k
  intro c g e x t k
  try dsimp only at e
  split at e <;> cases e
  try dsimp only
  repeat' (first
    | with_reducible assumption
    | (with_reducible refine u.mono ?_; decide)
    | (intro _ h; exact h)
    | (intro h; exact h)
    | (intro _; rfl)
    | (with_reducible refine nextOr_keeps (ok_keeps ?_) ?_)
    | (with_reducible refine State.onSlot_keeps ?_ ?_)
    | (with_reducible refine State.imageBegin_keeps ?_ ?_)
    | (with_reducible refine ite_keeps ?_ ?_)
    | split
    | dsimp only [id])

theorem execPatch_keeps (u : Keeps [.freeCtr, .cmp, .drm, .run, .hq, .txn, .blw, .glb, .irc, .tck, .log, .sem, .flt, .grt] P) {a0 : Nat} (k : P s) : ∀ t, execPatch a0 s = .next t → P t := by
  intro t e
  injection e with e
  rw [← e]
  clear e
  refine State.onSlot_keeps (u.mono (by decide)) ?_ k
  clear k
  intro c g e x t k
  try dsimp only at e
  split at e <;> cases e
  try dsimp only
  repeat' (first
    | with_reducible assumption
    | (with_reducible refine u.mono ?_; decide)
    | (intro _ h; exact h)
    | (intro h; exact h)
    | (intro _; rfl)
    | (with_reducible refine nextOr_keeps (ok_keeps ?_) ?_)
    | (with_reducible refine State.onSlot_keeps ?_ ?_)
    | (with_reducible refine State.doPatch_keeps ?_ ?_)
    | (with_reducible refine State.doPatch_keeps_of ?_ ?_ (by assumption))
    | (with_reducible refine ite_keeps ?_ ?_)
    | split
    | dsimp only [id])

theorem execCtxRead_keeps (u : Keeps [.hq, .grt] P) {a0 : Nat} (k : P s) : ∀ t, execCtxRead a0 s = .next t → P t := by
  intro t e
  injection e with e
  rw [← e]
  clear e
  refine State.onSlot_keeps (u.mono (by decide)) ?_ k
  clear k
  intro c g e x t k
  try dsimp only at e
  split at e <;> cases e
  try dsimp only
  repeat' (first
    | with_reducible assumption
    | (with_reducible refine u.mono ?_; decide)
    | (intro _ h; exact h)
    | (intro h; exact h)
    | (intro _; rfl)
    | (with_reducible refine nextOr_keeps (ok_keeps ?_) ?_)
    | (with_reducible refine State.onSlot_keeps ?_ ?_)
    | (with_reducible refine State.say_keeps ?_)
    | (with_reducible refine State.say_keeps_of ?_ (by assumption))
    | (with_reducible refine State.sendOut_keeps ?_ ?_)
    | (with_reducible refine State.sendOut_keeps_of ?_ ?_ (by assumption))
    | (with_reducible refine ite_keeps ?_ ?_)
    | split
    | dsimp only [id])

theorem execEncPost_keeps (u : Keeps [.enc, .hq, .grt] P) {a0 : Sys2Proof.PostDma} (k : P s) : ∀ t, execEncPost a0 s = .next t → P t := by
  intro t e
  injection e with e
  rw [← e]
  clear e
  refine State.onSlot_keeps (u.mono (by decide)) ?_ k
  clear k
  intro c g e x t k
  try dsimp only at e
  split at e <;> cases e
  try dsimp only
  repeat' (first
    | with_reducible assumption
    | (with_reducible refine u.mono ?_; decide)
    | (intro _ h; exact h)
    | (intro h; exact h)
    | (intro _; rfl)
    | (with_reducible refine nextOr_keeps (ok_keeps ?_) ?_)
    | (with_reducible refine State.onSlot_keeps ?_ ?_)
    | (with_reducible refine State.say_keeps ?_)
    | (with_reducible refine State.say_keeps_of ?_ (by assumption))
    | (with_reducible refine State.modEncS_keeps ?_ ?_)
    | (with_reducible refine State.modHq_keeps ?_ ?_ ?_)
    | (with_reducible refine State.modSlot_keeps ?_ ?_)
    | (with_reducible refine ite_keeps ?_ ?_)
    | split
    | dsimp only [id])

theorem execDecPost_keeps (u : Keeps [.hq, .grt] P) {a0 : Nat} {a1 : List Nat} (k : P s) : ∀ t, execDecPost a0 a1 s = .next t → P t := by
  intro t e
  injection e with e
  rw [← e]
  clear e
  split
  · exact State.startPost_keeps (u.mono (by decide)) k
  refine State.onSlot_keeps (u.mono (by decide)) ?_ k
  clear k
  intro c g e x t k
  try dsimp only at e
  split at e <;> cases e
  try dsimp only
  repeat' (first
    | with_reducible assumption
    | (with_reducible refine u.mono ?_; decide)
    | (intro _ h; exact h)
    | (intro h; exact h)
    | (intro _; rfl)
    | (with_reducible refine nextOr_keeps (ok_keeps ?_) ?_)
    | (with_reducible refine State.startPost_keeps ?_ ?_)
    | (with_reducible refine State.onSlot_keeps ?_ ?_)
    | (with_reducible refine State.say_keeps ?_)
    | (with_reducible refine State.say_keeps_of ?_ (by assumption))
    | (with_reducible refine State.modSlot_keeps ?_ ?_)
    | (with_reducible refine ite_keeps ?_ ?_)
    | split
    | dsimp only [id])

theorem execHostDmaDone_keeps (u : Keeps [.freeCtr, .enc, .dec, .cores, .hq, .blw, .log, .grt] P) {a0 : Sys2Proof.HostDma} {a1 : Bool} (k : P s) : ∀ t, execHostDmaDone a0 a1 s = .next t → P t := by
  intro t e
  injection e with e
  rw [← e]
  clear e
  repeat' (first
    | with_reducible assumption
    | (with_reducible refine u.mono ?_; decide)
    | (intro _ h; exact h)
    | (intro h; exact h)
    | (intro _; rfl)
    | (with_reducible refine nextOr_keeps (ok_keeps ?_) ?_)
    | (with_reducible refine State.slotDma_keeps ?_ ?_)
    | (with_reducible refine State.pageFail_keeps ?_ ?_)
    | (with_reducible refine ite_keeps ?_ ?_)
    | split
    | dsimp only [id])

theorem execFrameRead_keeps (u : Keeps [.hq, .grt] P) {a0 : Sys2Proof.ReadBack} (k : P s) : ∀ t, execFrameRead a0 s = .next t → P t := by
  intro t e
  injection e with e
  rw [← e]
  clear e
  refine State.onSlot_keeps (u.mono (by decide)) ?_ k
  clear k
  intro c g e x t k
  try dsimp only at e
  split at e <;> cases e
  try dsimp only
  repeat' (first
    | with_reducible assumption
    | (with_reducible refine u.mono ?_; decide)
    | (intro _ h; exact h)
    | (intro h; exact h)
    | (intro _; rfl)
    | (with_reducible refine nextOr_keeps (ok_keeps ?_) ?_)
    | (with_reducible refine State.onSlot_keeps ?_ ?_)
    | (with_reducible refine State.say_keeps ?_)
    | (with_reducible refine State.say_keeps_of ?_ (by assumption))
    | (with_reducible refine State.sendOut_keeps ?_ ?_)
    | (with_reducible refine State.sendOut_keeps_of ?_ ?_ (by assumption))
    | (with_reducible refine ite_keeps ?_ ?_)
    | split
    | dsimp only [id])

theorem execLedgerRead_keeps (u : Keeps [.hq, .grt] P) {a0 : Sys2Proof.ReadBack} (k : P s) : ∀ t, execLedgerRead a0 s = .next t → P t := by
  intro t e
  injection e with e
  rw [← e]
  clear e
  refine State.onSlot_keeps (u.mono (by decide)) ?_ k
  clear k
  intro c g e x t k
  try dsimp only at e
  split at e <;> cases e
  try dsimp only
  repeat' (first
    | with_reducible assumption
    | (with_reducible refine u.mono ?_; decide)
    | (intro _ h; exact h)
    | (intro h; exact h)
    | (intro _; rfl)
    | (with_reducible refine nextOr_keeps (ok_keeps ?_) ?_)
    | (with_reducible refine State.onSlot_keeps ?_ ?_)
    | (with_reducible refine State.say_keeps ?_)
    | (with_reducible refine State.say_keeps_of ?_ (by assumption))
    | (with_reducible refine State.sendOut_keeps ?_ ?_)
    | (with_reducible refine State.sendOut_keeps_of ?_ ?_ (by assumption))
    | (with_reducible refine ite_keeps ?_ ?_)
    | split
    | dsimp only [id])

theorem execPagePost_keeps (u : Keeps [.enc, .hq, .grt] P) {a0 : Nat} {a1 : List Sys2Proof.Word} (k : P s) : ∀ t, execPagePost a0 a1 s = .next t → P t := by
  intro t e
  injection e with e
  rw [← e]
  clear e
  repeat' (first
    | with_reducible assumption
    | (with_reducible refine u.mono ?_; decide)
    | (intro _ h; exact h)
    | (intro h; exact h)
    | (intro _; rfl)
    | (with_reducible refine nextOr_keeps (ok_keeps ?_) ?_)
    | (with_reducible refine State.modHqQ_keeps ?_ ?_)
    | (with_reducible refine State.pageEntry_keeps ?_ ?_)
    | (with_reducible refine State.modEncS_keeps ?_ ?_)
    | (with_reducible refine State.startPage_keeps ?_ ?_)
    | (with_reducible refine ite_keeps ?_ ?_)
    | split
    | dsimp only [id])

theorem execPageFlushTimeout_keeps (u : Keeps [.enc, .hq] P) {a0 : Nat} (k : P s) : ∀ t, execPageFlushTimeout a0 s = .next t → P t := by
  intro t e
  injection e with e
  rw [← e]
  clear e
  repeat' (first
    | with_reducible assumption
    | (with_reducible refine u.mono ?_; decide)
    | (intro _ h; exact h)
    | (intro h; exact h)
    | (intro _; rfl)
    | (with_reducible refine nextOr_keeps (ok_keeps ?_) ?_)
    | (with_reducible refine State.pageDone_keeps ?_ ?_)
    | (with_reducible refine ite_keeps ?_ ?_)
    | split
    | dsimp only [id])

theorem execFunctionLevelReset_keeps (u : Keeps [.enc, .dec, .cores, .hq, .txn, .blw, .fsh, .irc, .log, .sem, .grt] P) {a0 : Nat} (k : P s) : ∀ t, execFunctionLevelReset a0 s = .next t → P t := by
  intro t e
  injection e with e
  rw [← e]
  clear e
  repeat' (first
    | with_reducible assumption
    | (with_reducible refine u.mono ?_; decide)
    | (intro _ h; exact h)
    | (intro h; exact h)
    | (intro _; rfl)
    | (with_reducible refine nextOr_keeps (ok_keeps ?_) ?_)
    | (with_reducible refine State.modHq_keeps ?_ ?_ ?_)
    | (with_reducible refine State.each_keeps (fun _ _ _ => ?_) ?_)
    | (with_reducible refine State.resetFn_keeps ?_ ?_)
    | (with_reducible refine State.raiseFn_keeps ?_ ?_)
    | (with_reducible refine State.latch_keeps ?_ ?_)
    | (with_reducible refine ite_keeps ?_ ?_)
    | split
    | dsimp only [id])

theorem execSupervisoryMessage_keeps (u : Keeps [.run, .hq, .blw, .glb, .irc, .log, .flt] P) {a0 : Sys2Proof.Datagram} (k : P s) : ∀ t, execSupervisoryMessage a0 s = .next t → P t := by
  intro t e
  injection e with e
  rw [← e]
  clear e
  repeat' (first
    | with_reducible assumption
    | (with_reducible refine u.mono ?_; decide)
    | (intro _ h; exact h)
    | (intro h; exact h)
    | (intro _; rfl)
    | (with_reducible refine nextOr_keeps (ok_keeps ?_) ?_)
    | (with_reducible refine State.rxTake_keeps ?_ ?_)
    | (with_reducible refine State.authFail_keeps ?_ ?_)
    | (with_reducible refine State.wakeBy_keeps ?_ ?_)
    | (with_reducible refine State.takeMsg_keeps ?_ ?_)
    | (with_reducible refine ite_keeps ?_ ?_)
    | split
    | dsimp only [id])

end Sys2Proof.Machine
end

