-- ==== Sys2Proof/Laws/Girth.lean ====
section
/-! SUPPORT. What each operation of Girth keeps. -/

namespace Sys2Proof.Machine

set_option linter.unreachableTactic false
set_option linter.unusedTactic false

variable {P : State → Prop} {s : State}

theorem State.followLink_keeps (u : Keeps [.out, .irc] P) {a0 : Nat} (k : P s) : P (State.followLink a0 s) := by
  unfold State.followLink
  repeat' (first
    | with_reducible assumption
    | (with_reducible refine u.mono ?_; decide)
    | (intro _ h; exact h)
    | (intro h; exact h)
    | (intro _; rfl)
    | (with_reducible refine State.setDpoLink_keeps ?_ ?_)
    | (with_reducible refine ite_keeps ?_ ?_)
    | split
    | dsimp only [id])

theorem State.girthStart_keeps (u : Keeps [.irc, .grt] P) (k : P s) : P (State.girthStart s) := by
  unfold State.girthStart
  repeat' (first
    | with_reducible assumption
    | (with_reducible refine u.mono ?_; decide)
    | (intro _ h; exact h)
    | (intro h; exact h)
    | (intro _; rfl)
    | (with_reducible refine State.sendIdent_keeps ?_ ?_)
    | (with_reducible refine State.modGrt_keeps ?_ ?_)
    | (with_reducible refine ite_keeps ?_ ?_)
    | split
    | dsimp only [id])

theorem State.refuseLink_keeps (u : Keeps [.irc, .log, .grt] P) {a0 : Sys2Proof.EventId} {a1 : List Sys2Proof.Item} (k : P s) : P (State.refuseLink a0 a1 s) := by
  unfold State.refuseLink
  repeat' (first
    | with_reducible assumption
    | (with_reducible refine u.mono ?_; decide)
    | (intro _ h; exact h)
    | (intro h; exact h)
    | (intro _; rfl)
    | (with_reducible refine State.limited_keeps ?_ (fun _ _ => ?_) ?_)
    | (with_reducible refine State.raise_keeps ?_ ?_)
    | (with_reducible refine State.modGrt_keeps ?_ ?_)
    | (with_reducible refine State.setLink_keeps ?_ ?_)
    | (with_reducible refine ite_keeps ?_ ?_)
    | split
    | dsimp only [id])

theorem State.hello_keeps (u : Keeps [.irc, .log, .grt] P) {a0 : Sys2Proof.IdentInfo} (k : P s) : P (State.hello a0 s) := by
  unfold State.hello
  repeat' (first
    | with_reducible assumption
    | (with_reducible refine u.mono ?_; decide)
    | (intro _ h; exact h)
    | (intro h; exact h)
    | (intro _; rfl)
    | (with_reducible refine State.refuseLink_keeps ?_ ?_)
    | (with_reducible refine State.modGrt_keeps ?_ ?_)
    | (with_reducible refine State.gSend_keeps ?_ ?_)
    | (with_reducible refine ite_keeps ?_ ?_)
    | split
    | dsimp only [id])

theorem State.proof_keeps (u : Keeps [.freeCtr, .out, .fsh, .glb, .irc, .log, .grt] P) {a0 : List Sys2Proof.Byte} (k : P s) : P (State.proof a0 s) := by
  unfold State.proof
  repeat' (first
    | with_reducible assumption
    | (with_reducible refine u.mono ?_; decide)
    | (intro _ h; exact h)
    | (intro h; exact h)
    | (intro _; rfl)
    | (with_reducible refine State.refuseLink_keeps ?_ ?_)
    | (with_reducible refine State.linkUp_keeps ?_ ?_)
    | (with_reducible refine ite_keeps ?_ ?_)
    | split
    | dsimp only [id])

theorem State.takeDeltas_keeps (u : Keeps [.irc, .log, .grt] P) {a0 : List Sys2Proof.TileDelta} (k : P s) : P (State.takeDeltas a0 s) := by
  unfold State.takeDeltas
  repeat' (first
    | with_reducible assumption
    | (with_reducible refine u.mono ?_; decide)
    | (intro _ h; exact h)
    | (intro h; exact h)
    | (intro _; rfl)
    | (with_reducible refine State.modGrt_keeps ?_ ?_)
    | (with_reducible refine State.each_keeps (fun _ _ _ => ?_) ?_)
    | (with_reducible refine State.limited_keeps ?_ (fun _ _ => ?_) ?_)
    | (with_reducible refine State.raiseP_keeps ?_ ?_)
    | (with_reducible refine State.latch_keeps ?_ ?_)
    | (with_reducible refine foldl_fst_keeps (fun _ _ _ => ?_) ?_)
    | (with_reducible refine foldl_keeps (fun _ _ _ => ?_) ?_)
    | (with_reducible refine ite_keeps ?_ ?_)
    | split
    | dsimp only [id])

theorem State.takeHeartbeat_keeps (u : Keeps [.freeCtr, .enc, .out, .run, .blw, .fsh, .glb, .irc, .log, .sem, .grt] P) {a0 : Sys2Proof.HeartbeatMsg} (k : P s) : P (State.takeHeartbeat a0 s) := by
  unfold State.takeHeartbeat
  repeat' (first
    | with_reducible assumption
    | (with_reducible refine u.mono ?_; decide)
    | (intro _ h; exact h)
    | (intro h; exact h)
    | (intro _; rfl)
    | (with_reducible refine State.modGrt_keeps ?_ ?_)
    | (with_reducible refine State.semBreakOwners_keeps ?_ ?_)
    | (with_reducible refine State.takeover_keeps ?_ ?_)
    | (with_reducible refine State.twinSeen_keeps ?_ ?_)
    | (with_reducible refine ite_keeps ?_ ?_)
    | split
    | dsimp only [id])

theorem State.takeHostData_keeps (u : Keeps [.enc, .dec, .cores, .blw] P) {a0 : Sys2Proof.HostMsg} (k : P s) : P (State.takeHostData a0 s) := by
  unfold State.takeHostData
  repeat' (first
    | with_reducible assumption
    | (with_reducible refine u.mono ?_; decide)
    | (with_reducible refine State.modEncS_keeps ?_ ?_)
    | (with_reducible refine State.appendNals_keeps ?_ ?_)
    | (with_reducible refine ite_keeps ?_ ?_)
    | split
    | dsimp only [id])

theorem State.takePort_keeps (u : Keeps [.out, .irc] P) {a0 : Sys2Proof.PortMsg} (k : P s) : P (State.takePort a0 s) := by
  unfold State.takePort
  repeat' (first
    | with_reducible assumption
    | (with_reducible refine u.mono ?_; decide)
    | (intro _ h; exact h)
    | (intro h; exact h)
    | (intro _; rfl)
    | (with_reducible refine State.followLink_keeps ?_ ?_)
    | (with_reducible refine State.modDpo_keeps ?_ ?_)
    | (with_reducible refine State.modOutP_keeps ?_ ?_)
    | (with_reducible refine ite_keeps ?_ ?_)
    | split
    | dsimp only [id])

theorem State.takeSem_keeps (u : Keeps [.log, .sem, .grt] P) {a0 : Sys2Proof.SemMsg} (k : P s) : P (State.takeSem a0 s) := by
  unfold State.takeSem
  repeat' (first
    | with_reducible assumption
    | (with_reducible refine u.mono ?_; decide)
    | (with_reducible refine State.modSemS_keeps ?_ ?_)
    | (with_reducible refine State.gPut_keeps ?_ ?_)
    | (with_reducible refine State.semOp_keeps ?_ ?_)
    | (with_reducible refine ite_keeps ?_ ?_)
    | split
    | dsimp only [id])

theorem State.takeTxn_keeps (u : Keeps [.freeCtr, .ras, .enc, .dec, .cmp, .out, .cores, .drm, .run, .hq, .txn, .blw, .fsh, .glb, .irc, .tck, .log, .sem, .flt, .grt] P) {a0 : Sys2Proof.TxnMsg} (k : P s) : P (State.takeTxn a0 s) := by
  unfold State.takeTxn
  repeat' (first
    | with_reducible assumption
    | (with_reducible refine u.mono ?_; decide)
    | (intro _ h; exact h)
    | (intro h; exact h)
    | (intro _; rfl)
    | (with_reducible refine State.modGrt_keeps ?_ ?_)
    | (with_reducible refine State.armMirror_keeps ?_ ?_)
    | (with_reducible refine State.endTxn_keeps ?_ ?_)
    | (with_reducible refine State.modEncS_keeps ?_ ?_)
    | (with_reducible refine ite_keeps ?_ ?_)
    | split
    | dsimp only [id])

theorem execGirthLinkTrained_keeps (u : Keeps [.irc, .grt] P) (k : P s) : ∀ t, execGirthLinkTrained s = .next t → P t := by
  intro t e
  injection e with e
  rw [← e]
  clear e
  repeat' (first
    | with_reducible assumption
    | (with_reducible refine u.mono ?_; decide)
    | (intro _ h; exact h)
    | (intro h; exact h)
    | (intro _; rfl)
    | (with_reducible refine nextOr_keeps (ok_keeps ?_) ?_)
    | (with_reducible refine State.girthStart_keeps ?_ ?_)
    | (with_reducible refine ite_keeps ?_ ?_)
    | split
    | dsimp only [id])

theorem execHeartbeatTick_keeps (u : Keeps [.glb, .grt] P) (k : P s) : ∀ t, execHeartbeatTick s = .next t → P t := by
  intro t e
  injection e with e
  rw [← e]
  clear e
  repeat' (first
    | with_reducible assumption
    | (with_reducible refine u.mono ?_; decide)
    | (with_reducible refine nextOr_keeps (ok_keeps ?_) ?_)
    | (with_reducible refine State.modGlb_keeps ?_ ?_)
    | (with_reducible refine State.emitHeartbeat_keeps ?_ ?_)
    | (with_reducible refine State.transmit_keeps ?_ ?_)
    | (with_reducible refine ite_keeps ?_ ?_)
    | split
    | dsimp only [id])

theorem execHeartbeat_keeps (u : Keeps [.freeCtr, .enc, .out, .run, .blw, .fsh, .glb, .irc, .log, .sem, .grt] P) {a0 : Sys2Proof.GHdr} {a1 : Sys2Proof.HeartbeatMsg} (k : P s) : ∀ t, execHeartbeat a0 a1 s = .next t → P t := by
  intro t e
  injection e with e
  rw [← e]
  clear e
  repeat' (first
    | with_reducible assumption
    | (with_reducible refine u.mono ?_; decide)
    | (intro _ h; exact h)
    | (intro h; exact h)
    | (intro _; rfl)
    | (with_reducible refine nextOr_keeps (ok_keeps ?_) ?_)
    | (with_reducible refine State.recv_keeps ?_ (fun _ _ => ?_) ?_)
    | (with_reducible refine State.takeHeartbeat_keeps ?_ ?_)
    | (with_reducible refine ite_keeps ?_ ?_)
    | split
    | dsimp only [id])

theorem execHandover_keeps (u : Keeps [.grt] P) {a0 : Sys2Proof.GHdr} {a1 : Bool} (k : P s) : ∀ t, execHandover a0 a1 s = .next t → P t := by
  intro t e
  injection e with e
  rw [← e]
  clear e
  repeat' (first
    | with_reducible assumption
    | (with_reducible refine u.mono ?_; decide)
    | (with_reducible refine nextOr_keeps (ok_keeps ?_) ?_)
    | (with_reducible refine State.recvUp_keeps ?_ (fun _ _ => ?_) ?_)
    | (with_reducible refine State.modGrt_keeps ?_ ?_)
    | (with_reducible refine ite_keeps ?_ ?_)
    | split
    | dsimp only [id])

theorem execIdent_keeps (u : Keeps [.freeCtr, .out, .fsh, .glb, .irc, .log, .grt] P) {a0 : Sys2Proof.GHdr} {a1 : Sys2Proof.IdentMsg} (k : P s) : ∀ t, execIdent a0 a1 s = .next t → P t := by
  intro t e
  injection e with e
  rw [← e]
  clear e
  repeat' (first
    | with_reducible assumption
    | (with_reducible refine u.mono ?_; decide)
    | (intro _ h; exact h)
    | (intro h; exact h)
    | (intro _; rfl)
    | (with_reducible refine nextOr_keeps (ok_keeps ?_) ?_)
    | (with_reducible refine State.recvSeq_keeps ?_ (fun _ _ => ?_) ?_)
    | (with_reducible refine State.hello_keeps ?_ ?_)
    | (with_reducible refine State.proof_keeps ?_ ?_)
    | (with_reducible refine ite_keeps ?_ ?_)
    | split
    | dsimp only [id])

theorem execTiming_keeps (u : Keeps [.enc, .grt] P) {a0 : Sys2Proof.GHdr} {a1 : List Sys2Proof.Timing} (k : P s) : ∀ t, execTiming a0 a1 s = .next t → P t := by
  intro t e
  injection e with e
  rw [← e]
  clear e
  repeat' (first
    | with_reducible assumption
    | (with_reducible refine u.mono ?_; decide)
    | (with_reducible refine nextOr_keeps (ok_keeps ?_) ?_)
    | (with_reducible refine State.recvUp_keeps ?_ (fun _ _ => ?_) ?_)
    | (with_reducible refine State.modEnc_keeps ?_ ?_)
    | (with_reducible refine ite_keeps ?_ ?_)
    | split
    | dsimp only [id])

theorem execEncState_keeps (u : Keeps [.enc, .grt] P) {a0 : Sys2Proof.GHdr} {a1 : Nat} {a2 : Sys2Proof.EncAdopt} (k : P s) : ∀ t, execEncState a0 a1 a2 s = .next t → P t := by
  intro t e
  injection e with e
  rw [← e]
  clear e
  repeat' (first
    | with_reducible assumption
    | (with_reducible refine u.mono ?_; decide)
    | (with_reducible refine nextOr_keeps (ok_keeps ?_) ?_)
    | (with_reducible refine State.recvUp_keeps ?_ (fun _ _ => ?_) ?_)
    | (with_reducible refine State.modEncS_keeps ?_ ?_)
    | (with_reducible refine ite_keeps ?_ ?_)
    | split
    | dsimp only [id])

theorem execPicCrc_keeps (u : Keeps [.enc, .irc, .log, .grt] P) {a0 : Sys2Proof.GHdr} {a1 : Nat} {a2 : Sys2Proof.PicCrc} (k : P s) : ∀ t, execPicCrc a0 a1 a2 s = .next t → P t := by
  intro t e
  injection e with e
  rw [← e]
  clear e
  repeat' (first
    | with_reducible assumption
    | (with_reducible refine u.mono ?_; decide)
    | (intro _ h; exact h)
    | (intro h; exact h)
    | (intro _; rfl)
    | (with_reducible refine nextOr_keeps (ok_keeps ?_) ?_)
    | (with_reducible refine State.recvUp_keeps ?_ (fun _ _ => ?_) ?_)
    | (with_reducible refine State.crcCheck_keeps ?_ ?_)
    | (with_reducible refine State.modEncS_keeps ?_ ?_)
    | (with_reducible refine ite_keeps ?_ ?_)
    | split
    | dsimp only [id])

theorem execPicCrcTimeout_keeps (u : Keeps [.enc] P) {a0 : Nat} {a1 : BitVec 32} (k : P s) : ∀ t, execPicCrcTimeout a0 a1 s = .next t → P t := by
  intro t e
  injection e with e
  rw [← e]
  clear e
  repeat' (first
    | with_reducible assumption
    | (with_reducible refine u.mono ?_; decide)
    | (with_reducible refine nextOr_keeps (ok_keeps ?_) ?_)
    | (with_reducible refine State.modEncS_keeps ?_ ?_)
    | (with_reducible refine ite_keeps ?_ ?_)
    | split
    | dsimp only [id])

theorem execPort_keeps (u : Keeps [.out, .irc, .grt] P) {a0 : Sys2Proof.GHdr} {a1 : Sys2Proof.PortMsg} (k : P s) : ∀ t, execPort a0 a1 s = .next t → P t := by
  intro t e
  injection e with e
  rw [← e]
  clear e
  repeat' (first
    | with_reducible assumption
    | (with_reducible refine u.mono ?_; decide)
    | (intro _ h; exact h)
    | (intro h; exact h)
    | (intro _; rfl)
    | (with_reducible refine nextOr_keeps (ok_keeps ?_) ?_)
    | (with_reducible refine State.recvUp_keeps ?_ (fun _ _ => ?_) ?_)
    | (with_reducible refine State.takePort_keeps ?_ ?_)
    | (with_reducible refine ite_keeps ?_ ?_)
    | split
    | dsimp only [id])

theorem execCommand_keeps (u : Keeps [.freeCtr, .ras, .enc, .dec, .cmp, .out, .cores, .drm, .run, .hq, .txn, .blw, .fsh, .glb, .irc, .tck, .log, .sem, .flt, .grt] P) {a0 : Sys2Proof.GHdr} {a1 : Sys2Proof.SrcPath} {a2 : List Sys2Proof.Word} (k : P s) : ∀ t, execCommand a0 a1 a2 s = .next t → P t := by
  intro t e
  injection e with e
  rw [← e]
  clear e
  repeat' (first
    | with_reducible assumption
    | (with_reducible refine u.mono ?_; decide)
    | (intro _ h; exact h)
    | (intro h; exact h)
    | (intro _; rfl)
    | (with_reducible refine nextOr_keeps (ok_keeps ?_) ?_)
    | (with_reducible refine State.recvUp_keeps ?_ (fun _ _ => ?_) ?_)
    | (with_reducible refine State.doMirrored_keeps ?_ ?_)
    | (with_reducible refine ite_keeps ?_ ?_)
    | split
    | dsimp only [id])

theorem execTxn_keeps (u : Keeps [.freeCtr, .ras, .enc, .dec, .cmp, .out, .cores, .drm, .run, .hq, .txn, .blw, .fsh, .glb, .irc, .tck, .log, .sem, .flt, .grt] P) {a0 : Sys2Proof.GHdr} {a1 : Sys2Proof.TxnMsg} (k : P s) : ∀ t, execTxn a0 a1 s = .next t → P t := by
  intro t e
  injection e with e
  rw [← e]
  clear e
  repeat' (first
    | with_reducible assumption
    | (with_reducible refine u.mono ?_; decide)
    | (intro _ h; exact h)
    | (intro h; exact h)
    | (intro _; rfl)
    | (with_reducible refine nextOr_keeps (ok_keeps ?_) ?_)
    | (with_reducible refine State.recvUp_keeps ?_ (fun _ _ => ?_) ?_)
    | (with_reducible refine State.takeTxn_keeps ?_ ?_)
    | (with_reducible refine ite_keeps ?_ ?_)
    | split
    | dsimp only [id])

theorem execSem_keeps (u : Keeps [.log, .sem, .grt] P) {a0 : Sys2Proof.GHdr} {a1 : Sys2Proof.SemMsg} (k : P s) : ∀ t, execSem a0 a1 s = .next t → P t := by
  intro t e
  injection e with e
  rw [← e]
  clear e
  repeat' (first
    | with_reducible assumption
    | (with_reducible refine u.mono ?_; decide)
    | (with_reducible refine nextOr_keeps (ok_keeps ?_) ?_)
    | (with_reducible refine State.recvUp_keeps ?_ (fun _ _ => ?_) ?_)
    | (with_reducible refine State.takeSem_keeps ?_ ?_)
    | (with_reducible refine ite_keeps ?_ ?_)
    | split
    | dsimp only [id])

theorem execSnapshot_keeps (u : Keeps [.grt] P) {a0 : Sys2Proof.GHdr} {a1 : List (Nat × Sys2Proof.Word)} {a2 : Bool} (k : P s) : ∀ t, execSnapshot a0 a1 a2 s = .next t → P t := by
  intro t e
  injection e with e
  rw [← e]
  clear e
  repeat' (first
    | with_reducible assumption
    | (with_reducible refine u.mono ?_; decide)
    | (with_reducible refine nextOr_keeps (ok_keeps ?_) ?_)
    | (with_reducible refine State.recvUp_keeps ?_ (fun _ _ => ?_) ?_)
    | (with_reducible refine State.modGrt_keeps ?_ ?_)
    | (with_reducible refine ite_keeps ?_ ?_)
    | split
    | dsimp only [id])

theorem execTileDelta_keeps (u : Keeps [.irc, .log, .grt] P) {a0 : Sys2Proof.GHdr} {a1 : List Sys2Proof.TileDelta} (k : P s) : ∀ t, execTileDelta a0 a1 s = .next t → P t := by
  intro t e
  injection e with e
  rw [← e]
  clear e
  repeat' (first
    | with_reducible assumption
    | (with_reducible refine u.mono ?_; decide)
    | (intro _ h; exact h)
    | (intro h; exact h)
    | (intro _; rfl)
    | (with_reducible refine nextOr_keeps (ok_keeps ?_) ?_)
    | (with_reducible refine State.recvUp_keeps ?_ (fun _ _ => ?_) ?_)
    | (with_reducible refine State.takeDeltas_keeps ?_ ?_)
    | (with_reducible refine ite_keeps ?_ ?_)
    | split
    | dsimp only [id])

theorem execHostData_keeps (u : Keeps [.enc, .dec, .cores, .blw, .grt] P) {a0 : Sys2Proof.GHdr} {a1 : Sys2Proof.HostMsg} (k : P s) : ∀ t, execHostData a0 a1 s = .next t → P t := by
  intro t e
  injection e with e
  rw [← e]
  clear e
  repeat' (first
    | with_reducible assumption
    | (with_reducible refine u.mono ?_; decide)
    | (with_reducible refine nextOr_keeps (ok_keeps ?_) ?_)
    | (with_reducible refine State.recvUp_keeps ?_ (fun _ _ => ?_) ?_)
    | (with_reducible refine State.takeHostData_keeps ?_ ?_)
    | (with_reducible refine ite_keeps ?_ ?_)
    | split
    | dsimp only [id])

theorem execAck_keeps (u : Keeps [.grt] P) {a0 : Sys2Proof.GHdr} (k : P s) : ∀ t, execAck a0 s = .next t → P t := by
  intro t e
  injection e with e
  rw [← e]
  clear e
  repeat' (first
    | with_reducible assumption
    | (with_reducible refine u.mono ?_; decide)
    | (with_reducible refine nextOr_keeps (ok_keeps ?_) ?_)
    | (with_reducible refine State.recv_keeps ?_ (fun _ _ => ?_) ?_)
    | (with_reducible refine ite_keeps ?_ ?_)
    | split
    | dsimp only [id])

theorem execGirthRetransmit_keeps (u : Keeps [.enc, .out, .run, .blw, .glb, .irc, .log, .sem, .grt] P) (k : P s) : ∀ t, execGirthRetransmit s = .next t → P t := by
  intro t e
  injection e with e
  rw [← e]
  clear e
  repeat' (first
    | with_reducible assumption
    | (with_reducible refine u.mono ?_; decide)
    | (intro _ h; exact h)
    | (intro h; exact h)
    | (intro _; rfl)
    | (with_reducible refine nextOr_keeps (ok_keeps ?_) ?_)
    | (with_reducible refine State.modGrt_keeps ?_ ?_)
    | (with_reducible refine State.linkLost_keeps ?_ ?_)
    | (with_reducible refine ite_keeps ?_ ?_)
    | split
    | dsimp only [id])

theorem execDeltaDrop_keeps (u : Keeps [.grt] P) (k : P s) : ∀ t, execDeltaDrop s = .next t → P t := by
  intro t e
  injection e with e
  rw [← e]
  clear e
  repeat' (first
    | with_reducible assumption
    | (with_reducible refine u.mono ?_; decide)
    | (with_reducible refine nextOr_keeps (ok_keeps ?_) ?_)
    | (with_reducible refine State.modGrt_keeps ?_ ?_)
    | (with_reducible refine foldl_fst_keeps (fun _ _ _ => ?_) ?_)
    | (with_reducible refine foldl_keeps (fun _ _ _ => ?_) ?_)
    | (with_reducible refine ite_keeps ?_ ?_)
    | split
    | dsimp only [id])

theorem execGirthSilence_keeps (u : Keeps [.enc, .out, .run, .blw, .glb, .irc, .log, .sem, .grt] P) (k : P s) : ∀ t, execGirthSilence s = .next t → P t := by
  intro t e
  injection e with e
  rw [← e]
  clear e
  repeat' (first
    | with_reducible assumption
    | (with_reducible refine u.mono ?_; decide)
    | (intro _ h; exact h)
    | (intro h; exact h)
    | (intro _; rfl)
    | (with_reducible refine nextOr_keeps (ok_keeps ?_) ?_)
    | (with_reducible refine State.linkLost_keeps ?_ ?_)
    | (with_reducible refine ite_keeps ?_ ?_)
    | split
    | dsimp only [id])

theorem execGirthLockLoss_keeps (u : Keeps [.enc, .out, .run, .blw, .glb, .irc, .log, .sem, .grt] P) (k : P s) : ∀ t, execGirthLockLoss s = .next t → P t := by
  intro t e
  injection e with e
  rw [← e]
  clear e
  repeat' (first
    | with_reducible assumption
    | (with_reducible refine u.mono ?_; decide)
    | (intro _ h; exact h)
    | (intro h; exact h)
    | (intro _; rfl)
    | (with_reducible refine nextOr_keeps (ok_keeps ?_) ?_)
    | (with_reducible refine State.linkLost_keeps ?_ ?_)
    | (with_reducible refine ite_keeps ?_ ?_)
    | split
    | dsimp only [id])

theorem execIdentRetry_keeps (u : Keeps [.irc, .grt] P) (k : P s) : ∀ t, execIdentRetry s = .next t → P t := by
  intro t e
  injection e with e
  rw [← e]
  clear e
  repeat' (first
    | with_reducible assumption
    | (with_reducible refine u.mono ?_; decide)
    | (intro _ h; exact h)
    | (intro h; exact h)
    | (intro _; rfl)
    | (with_reducible refine nextOr_keeps (ok_keeps ?_) ?_)
    | (with_reducible refine State.girthStart_keeps ?_ ?_)
    | (with_reducible refine ite_keeps ?_ ?_)
    | split
    | dsimp only [id])

theorem execOwnHeartbeatTimeout_keeps (u : Keeps [.glb] P) (k : P s) : ∀ t, execOwnHeartbeatTimeout s = .next t → P t := by
  intro t e
  injection e with e
  rw [← e]
  clear e
  repeat' (first
    | with_reducible assumption
    | (with_reducible refine u.mono ?_; decide)
    | (with_reducible refine nextOr_keeps (ok_keeps ?_) ?_)
    | (with_reducible refine State.modGlb_keeps ?_ ?_)
    | (with_reducible refine ite_keeps ?_ ?_)
    | split
    | dsimp only [id])

theorem execPeerFaultEdge_keeps (u : Keeps [.enc, .out, .run, .blw, .glb, .irc, .log, .sem, .grt] P) {a0 : Bool} (k : P s) : ∀ t, execPeerFaultEdge a0 s = .next t → P t := by
  intro t e
  injection e with e
  rw [← e]
  clear e
  repeat' (first
    | with_reducible assumption
    | (with_reducible refine u.mono ?_; decide)
    | (intro _ h; exact h)
    | (intro h; exact h)
    | (intro _; rfl)
    | (with_reducible refine nextOr_keeps (ok_keeps ?_) ?_)
    | (with_reducible refine State.modGrt_keeps ?_ ?_)
    | (with_reducible refine State.takeover_keeps ?_ ?_)
    | (with_reducible refine State.twinLost_keeps ?_ ?_)
    | (with_reducible refine ite_keeps ?_ ?_)
    | split
    | dsimp only [id])

theorem execPeerOwnEdge_keeps (u : Keeps [.enc, .out, .run, .blw, .glb, .irc, .log, .sem, .grt] P) {a0 : Bool} (k : P s) : ∀ t, execPeerOwnEdge a0 s = .next t → P t := by
  intro t e
  injection e with e
  rw [← e]
  clear e
  repeat' (first
    | with_reducible assumption
    | (with_reducible refine u.mono ?_; decide)
    | (intro _ h; exact h)
    | (intro h; exact h)
    | (intro _; rfl)
    | (with_reducible refine nextOr_keeps (ok_keeps ?_) ?_)
    | (with_reducible refine State.modGrt_keeps ?_ ?_)
    | (with_reducible refine State.takeover_keeps ?_ ?_)
    | (with_reducible refine State.twinLost_keeps ?_ ?_)
    | (with_reducible refine ite_keeps ?_ ?_)
    | split
    | dsimp only [id])

end Sys2Proof.Machine
end

