-- ==== Sys2Proof/Laws/MemCmds.lean ====
section
/-! SUPPORT. What each operation of MemCmds keeps. -/

namespace Sys2Proof.Machine

set_option linter.unreachableTactic false
set_option linter.unusedTactic false

variable {P : State → Prop} {s : State}

theorem State.damageLine_keeps (u : Keeps [.drm] P) {a0 : Nat} {a1 : List (Nat × Nat)} (k : P s) : P (State.damageLine a0 a1 s) := by
  unfold State.damageLine
  repeat' (first
    | with_reducible assumption
    | (with_reducible refine u.mono ?_; decide)
    | (with_reducible refine State.putLine_keeps ?_ ?_)
    | (with_reducible refine ite_keeps ?_ ?_)
    | split
    | dsimp only [id])

theorem State.loseHold_keeps (u : Keeps [.freeCtr, .dec, .cmp, .irc, .log, .grt] P) {a0 : Nat} {a1 : List Nat} (k : P s) : P (State.loseHold a0 a1 s) := by
  unfold State.loseHold
  repeat' (first
    | with_reducible assumption
    | (with_reducible refine u.mono ?_; decide)
    | (intro _ h; exact h)
    | (intro h; exact h)
    | (intro _; rfl)
    | (with_reducible refine State.withLedger_keeps ?_ (fun _ _ => ?_) ?_)
    | (with_reducible refine State.modDecS_keeps ?_ ?_)
    | (with_reducible refine State.each_keeps (fun _ _ _ => ?_) ?_)
    | (with_reducible refine State.modTile_keeps ?_ ?_)
    | (with_reducible refine State.ledgerEvent_keeps ?_ ?_)
    | (with_reducible refine State.tickFree_keeps ?_ ?_)
    | (with_reducible refine ite_keeps ?_ ?_)
    | split
    | dsimp only [id])

theorem State.serveRead_keeps (u : Keeps [.enc, .dec, .drm, .blw, .glb, .irc, .log, .flt, .grt] P) {a0 : Sys2Proof.Requester} {a1 : Sys2Proof.LineRead} (k : P s) : P (State.serveRead a0 a1 s) := by
  unfold State.serveRead
  repeat' (first
    | with_reducible assumption
    | (with_reducible refine u.mono ?_; decide)
    | (intro _ h; exact h)
    | (intro h; exact h)
    | (intro _; rfl)
    | (with_reducible refine State.readLine_keeps ?_ ?_)
    | (with_reducible refine State.readLine_keeps_of ?_ ?_ (by assumption))
    | (with_reducible refine State.damageLine_keeps ?_ ?_)
    | (with_reducible refine State.modDrm_keeps ?_ ?_)
    | (with_reducible refine State.coreReadBad_keeps ?_ ?_)
    | (with_reducible refine ite_keeps ?_ ?_)
    | split
    | dsimp only [id])

theorem State.serve_keeps (u : Keeps [.freeCtr, .enc, .dec, .drm, .blw, .glb, .irc, .log, .flt, .grt] P) {a0 : DramWait} (k : P s) : P (State.serve a0 s) := by
  unfold State.serve
  repeat' (first
    | with_reducible assumption
    | (with_reducible refine u.mono ?_; decide)
    | (intro _ h; exact h)
    | (intro h; exact h)
    | (intro _; rfl)
    | (with_reducible refine State.takeSlot_keeps ?_ ?_)
    | (with_reducible refine State.serveRead_keeps ?_ ?_)
    | (with_reducible refine State.writeLine_keeps ?_ ?_)
    | (with_reducible refine State.narrow_keeps ?_ ?_)
    | (with_reducible refine ite_keeps ?_ ?_)
    | split
    | dsimp only [id])

theorem State.serveWait_keeps (u : Keeps [.freeCtr, .enc, .dec, .drm, .blw, .glb, .irc, .log, .flt, .grt] P) {a0 : DramWait} (k : P s) : P (State.serveWait a0 s) := by
  unfold State.serveWait
  repeat' (first
    | with_reducible assumption
    | (with_reducible refine u.mono ?_; decide)
    | (intro _ h; exact h)
    | (intro h; exact h)
    | (intro _; rfl)
    | (with_reducible refine State.serve_keeps ?_ ?_)
    | (with_reducible refine State.modDrm_keeps ?_ ?_)
    | (with_reducible refine ite_keeps ?_ ?_)
    | split
    | dsimp only [id])

theorem State.serveWaits_keeps (u : Keeps [.freeCtr, .enc, .dec, .drm, .blw, .glb, .irc, .log, .flt, .grt] P) (k : P s) : P (State.serveWaits s) := by
  unfold State.serveWaits
  repeat' (first
    | with_reducible assumption
    | (with_reducible refine u.mono ?_; decide)
    | (intro _ h; exact h)
    | (intro h; exact h)
    | (intro _; rfl)
    | (with_reducible refine State.each_keeps (fun _ _ _ => ?_) ?_)
    | (with_reducible refine State.serveWait_keeps ?_ ?_)
    | (with_reducible refine ite_keeps ?_ ?_)
    | split
    | dsimp only [id])

theorem State.request_keeps (u : Keeps [.freeCtr, .enc, .dec, .drm, .blw, .glb, .irc, .log, .flt, .grt] P) {a0 : DramWait} (k : P s) : P (State.request a0 s) := by
  unfold State.request
  repeat' (first
    | with_reducible assumption
    | (with_reducible refine u.mono ?_; decide)
    | (intro _ h; exact h)
    | (intro h; exact h)
    | (intro _; rfl)
    | (with_reducible refine State.serveWaits_keeps ?_ ?_)
    | (with_reducible refine State.modDrm_keeps ?_ ?_)
    | (with_reducible refine ite_keeps ?_ ?_)
    | split
    | dsimp only [id])

theorem State.rewriteCopies_keeps (u : Keeps [.cores] P) (k : P s) : P (State.rewriteCopies s) := by
  unfold State.rewriteCopies
  repeat' (first
    | with_reducible assumption
    | (with_reducible refine u.mono ?_; decide)
    | (with_reducible refine State.each_keeps (fun _ _ _ => ?_) ?_)
    | (with_reducible refine State.rewriteCopy_keeps ?_ ?_)
    | (with_reducible refine ite_keeps ?_ ?_)
    | split
    | dsimp only [id])

theorem State.taintTile_keeps (u : Keeps [.dec, .drm] P) {a0 : Nat} {a1 : Nat} {a2 : Nat} (k : P s) : P (State.taintTile a0 a1 a2 s) := by
  unfold State.taintTile
  repeat' (first
    | with_reducible assumption
    | (with_reducible refine u.mono ?_; decide)
    | (with_reducible refine State.modFrame_keeps ?_ ?_)
    | (with_reducible refine ite_keeps ?_ ?_)
    | split
    | dsimp only [id])

theorem execDramRead_keeps (u : Keeps [.freeCtr, .enc, .dec, .drm, .blw, .glb, .irc, .log, .flt, .grt] P) {a0 : Sys2Proof.Requester} {a1 : Sys2Proof.LineRead} (k : P s) : ∀ t, execDramRead a0 a1 s = .next t → P t := by
  intro t e
  injection e with e
  rw [← e]
  clear e
  repeat' (first
    | with_reducible assumption
    | (with_reducible refine u.mono ?_; decide)
    | (intro _ h; exact h)
    | (intro h; exact h)
    | (intro _; rfl)
    | (with_reducible refine nextOr_keeps (ok_keeps ?_) ?_)
    | (with_reducible refine State.request_keeps ?_ ?_)
    | (with_reducible refine ite_keeps ?_ ?_)
    | split
    | dsimp only [id])

theorem execDramWrite_keeps (u : Keeps [.freeCtr, .enc, .dec, .drm, .blw, .glb, .irc, .log, .flt, .grt] P) {a0 : Sys2Proof.Requester} {a1 : Nat} {a2 : BitVec 512} (k : P s) : ∀ t, execDramWrite a0 a1 a2 s = .next t → P t := by
  intro t e
  injection e with e
  rw [← e]
  clear e
  repeat' (first
    | with_reducible assumption
    | (with_reducible refine u.mono ?_; decide)
    | (intro _ h; exact h)
    | (intro h; exact h)
    | (intro _; rfl)
    | (with_reducible refine nextOr_keeps (ok_keeps ?_) ?_)
    | (with_reducible refine State.request_keeps ?_ ?_)
    | (with_reducible refine ite_keeps ?_ ?_)
    | split
    | dsimp only [id])

theorem execNarrowWrite_keeps (u : Keeps [.freeCtr, .enc, .dec, .drm, .blw, .glb, .irc, .log, .flt, .grt] P) {a0 : Sys2Proof.Requester} {a1 : Nat} {a2 : List (Option Sys2Proof.Byte)} (k : P s) : ∀ t, execNarrowWrite a0 a1 a2 s = .next t → P t := by
  intro t e
  injection e with e
  rw [← e]
  clear e
  repeat' (first
    | with_reducible assumption
    | (with_reducible refine u.mono ?_; decide)
    | (intro _ h; exact h)
    | (intro h; exact h)
    | (intro _; rfl)
    | (with_reducible refine nextOr_keeps (ok_keeps ?_) ?_)
    | (with_reducible refine State.request_keeps ?_ ?_)
    | (with_reducible refine ite_keeps ?_ ?_)
    | split
    | dsimp only [id])

theorem execDramPageRetired_keeps (u : Keeps [.freeCtr, .drm, .fsh, .log] P) {a0 : Nat} {a1 : Nat} (k : P s) : ∀ t, execDramPageRetired a0 a1 s = .next t → P t := by
  intro t e
  injection e with e
  rw [← e]
  clear e
  repeat' (first
    | with_reducible assumption
    | (with_reducible refine u.mono ?_; decide)
    | (intro _ h; exact h)
    | (intro h; exact h)
    | (intro _; rfl)
    | (with_reducible refine nextOr_keeps (ok_keeps ?_) ?_)
    | (with_reducible refine State.raise_keeps ?_ ?_)
    | (with_reducible refine State.modDrm_keeps ?_ ?_)
    | (with_reducible refine State.storeRetirement_keeps ?_ ?_)
    | (with_reducible refine State.modChan_keeps ?_ ?_)
    | (with_reducible refine State.limited_keeps ?_ (fun _ _ => ?_) ?_)
    | (with_reducible refine ite_keeps ?_ ?_)
    | split
    | dsimp only [id])

theorem execRemapFill_keeps (u : Keeps [.freeCtr, .enc, .dec, .cmp, .cores, .drm, .blw, .glb, .irc, .log, .flt, .grt] P) {a0 : Nat} {a1 : Sys2Proof.RemapLoss} (k : P s) : ∀ t, execRemapFill a0 a1 s = .next t → P t := by
  intro t e
  injection e with e
  rw [← e]
  clear e
  repeat' (first
    | with_reducible assumption
    | (with_reducible refine u.mono ?_; decide)
    | (intro _ h; exact h)
    | (intro h; exact h)
    | (intro _; rfl)
    | (with_reducible refine nextOr_keeps (ok_keeps ?_) ?_)
    | (with_reducible refine State.modChan_keeps ?_ ?_)
    | (with_reducible refine State.each_keeps (fun _ _ _ => ?_) ?_)
    | (with_reducible refine State.loseHold_keeps ?_ ?_)
    | (with_reducible refine State.taintTile_keeps ?_ ?_)
    | (with_reducible refine State.encRestart_keeps ?_ ?_)
    | (with_reducible refine State.serveWaits_keeps ?_ ?_)
    | (with_reducible refine State.rewriteCopies_keeps ?_ ?_)
    | (with_reducible refine ite_keeps ?_ ?_)
    | split
    | dsimp only [id])

end Sys2Proof.Machine
end

