-- ==== Sys2Proof/Laws/State.lean ====
section
/-! SUPPORT. One lemma per field of State per update of a field, true by rfl. -/

namespace Sys2Proof.Machine

@[simp] theorem State.modNow_pending (h : _ → _) (s : State) : (s.modNow h).pending = s.pending := rfl
@[simp] theorem State.modNow_now (h : _ → _) (s : State) : (s.modNow h).now = h s.now := rfl
@[simp] theorem State.modNow_ptp (h : _ → _) (s : State) : (s.modNow h).ptp = s.ptp := rfl
@[simp] theorem State.modNow_freeCtr (h : _ → _) (s : State) : (s.modNow h).freeCtr = s.freeCtr := rfl
@[simp] theorem State.modNow_ras (h : _ → _) (s : State) : (s.modNow h).ras = s.ras := rfl
@[simp] theorem State.modNow_enc (h : _ → _) (s : State) : (s.modNow h).enc = s.enc := rfl
@[simp] theorem State.modNow_dec (h : _ → _) (s : State) : (s.modNow h).dec = s.dec := rfl
@[simp] theorem State.modNow_cmp (h : _ → _) (s : State) : (s.modNow h).cmp = s.cmp := rfl
@[simp] theorem State.modNow_out (h : _ → _) (s : State) : (s.modNow h).out = s.out := rfl
@[simp] theorem State.modNow_cores (h : _ → _) (s : State) : (s.modNow h).cores = s.cores := rfl
@[simp] theorem State.modNow_drm (h : _ → _) (s : State) : (s.modNow h).drm = s.drm := rfl
@[simp] theorem State.modNow_run (h : _ → _) (s : State) : (s.modNow h).run = s.run := rfl
@[simp] theorem State.modNow_hq (h : _ → _) (s : State) : (s.modNow h).hq = s.hq := rfl
@[simp] theorem State.modNow_txn (h : _ → _) (s : State) : (s.modNow h).txn = s.txn := rfl
@[simp] theorem State.modNow_blw (h : _ → _) (s : State) : (s.modNow h).blw = s.blw := rfl
@[simp] theorem State.modNow_fsh (h : _ → _) (s : State) : (s.modNow h).fsh = s.fsh := rfl
@[simp] theorem State.modNow_glb (h : _ → _) (s : State) : (s.modNow h).glb = s.glb := rfl
@[simp] theorem State.modNow_irc (h : _ → _) (s : State) : (s.modNow h).irc = s.irc := rfl
@[simp] theorem State.modNow_tck (h : _ → _) (s : State) : (s.modNow h).tck = s.tck := rfl
@[simp] theorem State.modNow_log (h : _ → _) (s : State) : (s.modNow h).log = s.log := rfl
@[simp] theorem State.modNow_sem (h : _ → _) (s : State) : (s.modNow h).sem = s.sem := rfl
@[simp] theorem State.modNow_flt (h : _ → _) (s : State) : (s.modNow h).flt = s.flt := rfl
@[simp] theorem State.modNow_grt (h : _ → _) (s : State) : (s.modNow h).grt = s.grt := rfl
@[simp] theorem State.modPtp_pending (h : _ → _) (s : State) : (s.modPtp h).pending = s.pending := rfl
@[simp] theorem State.modPtp_now (h : _ → _) (s : State) : (s.modPtp h).now = s.now := rfl
@[simp] theorem State.modPtp_ptp (h : _ → _) (s : State) : (s.modPtp h).ptp = h s.ptp := rfl
@[simp] theorem State.modPtp_freeCtr (h : _ → _) (s : State) : (s.modPtp h).freeCtr = s.freeCtr := rfl
@[simp] theorem State.modPtp_ras (h : _ → _) (s : State) : (s.modPtp h).ras = s.ras := rfl
@[simp] theorem State.modPtp_enc (h : _ → _) (s : State) : (s.modPtp h).enc = s.enc := rfl
@[simp] theorem State.modPtp_dec (h : _ → _) (s : State) : (s.modPtp h).dec = s.dec := rfl
@[simp] theorem State.modPtp_cmp (h : _ → _) (s : State) : (s.modPtp h).cmp = s.cmp := rfl
@[simp] theorem State.modPtp_out (h : _ → _) (s : State) : (s.modPtp h).out = s.out := rfl
@[simp] theorem State.modPtp_cores (h : _ → _) (s : State) : (s.modPtp h).cores = s.cores := rfl
@[simp] theorem State.modPtp_drm (h : _ → _) (s : State) : (s.modPtp h).drm = s.drm := rfl
@[simp] theorem State.modPtp_run (h : _ → _) (s : State) : (s.modPtp h).run = s.run := rfl
@[simp] theorem State.modPtp_hq (h : _ → _) (s : State) : (s.modPtp h).hq = s.hq := rfl
@[simp] theorem State.modPtp_txn (h : _ → _) (s : State) : (s.modPtp h).txn = s.txn := rfl
@[simp] theorem State.modPtp_blw (h : _ → _) (s : State) : (s.modPtp h).blw = s.blw := rfl
@[simp] theorem State.modPtp_fsh (h : _ → _) (s : State) : (s.modPtp h).fsh = s.fsh := rfl
@[simp] theorem State.modPtp_glb (h : _ → _) (s : State) : (s.modPtp h).glb = s.glb := rfl
@[simp] theorem State.modPtp_irc (h : _ → _) (s : State) : (s.modPtp h).irc = s.irc := rfl
@[simp] theorem State.modPtp_tck (h : _ → _) (s : State) : (s.modPtp h).tck = s.tck := rfl
@[simp] theorem State.modPtp_log (h : _ → _) (s : State) : (s.modPtp h).log = s.log := rfl
@[simp] theorem State.modPtp_sem (h : _ → _) (s : State) : (s.modPtp h).sem = s.sem := rfl
@[simp] theorem State.modPtp_flt (h : _ → _) (s : State) : (s.modPtp h).flt = s.flt := rfl
@[simp] theorem State.modPtp_grt (h : _ → _) (s : State) : (s.modPtp h).grt = s.grt := rfl
@[simp] theorem State.modFreeCtr_pending (h : _ → _) (s : State) : (s.modFreeCtr h).pending = s.pending := rfl
@[simp] theorem State.modFreeCtr_now (h : _ → _) (s : State) : (s.modFreeCtr h).now = s.now := rfl
@[simp] theorem State.modFreeCtr_ptp (h : _ → _) (s : State) : (s.modFreeCtr h).ptp = s.ptp := rfl
@[simp] theorem State.modFreeCtr_freeCtr (h : _ → _) (s : State) : (s.modFreeCtr h).freeCtr = h s.freeCtr := rfl
@[simp] theorem State.modFreeCtr_ras (h : _ → _) (s : State) : (s.modFreeCtr h).ras = s.ras := rfl
@[simp] theorem State.modFreeCtr_enc (h : _ → _) (s : State) : (s.modFreeCtr h).enc = s.enc := rfl
@[simp] theorem State.modFreeCtr_dec (h : _ → _) (s : State) : (s.modFreeCtr h).dec = s.dec := rfl
@[simp] theorem State.modFreeCtr_cmp (h : _ → _) (s : State) : (s.modFreeCtr h).cmp = s.cmp := rfl
@[simp] theorem State.modFreeCtr_out (h : _ → _) (s : State) : (s.modFreeCtr h).out = s.out := rfl
@[simp] theorem State.modFreeCtr_cores (h : _ → _) (s : State) : (s.modFreeCtr h).cores = s.cores := rfl
@[simp] theorem State.modFreeCtr_drm (h : _ → _) (s : State) : (s.modFreeCtr h).drm = s.drm := rfl
@[simp] theorem State.modFreeCtr_run (h : _ → _) (s : State) : (s.modFreeCtr h).run = s.run := rfl
@[simp] theorem State.modFreeCtr_hq (h : _ → _) (s : State) : (s.modFreeCtr h).hq = s.hq := rfl
@[simp] theorem State.modFreeCtr_txn (h : _ → _) (s : State) : (s.modFreeCtr h).txn = s.txn := rfl
@[simp] theorem State.modFreeCtr_blw (h : _ → _) (s : State) : (s.modFreeCtr h).blw = s.blw := rfl
@[simp] theorem State.modFreeCtr_fsh (h : _ → _) (s : State) : (s.modFreeCtr h).fsh = s.fsh := rfl
@[simp] theorem State.modFreeCtr_glb (h : _ → _) (s : State) : (s.modFreeCtr h).glb = s.glb := rfl
@[simp] theorem State.modFreeCtr_irc (h : _ → _) (s : State) : (s.modFreeCtr h).irc = s.irc := rfl
@[simp] theorem State.modFreeCtr_tck (h : _ → _) (s : State) : (s.modFreeCtr h).tck = s.tck := rfl
@[simp] theorem State.modFreeCtr_log (h : _ → _) (s : State) : (s.modFreeCtr h).log = s.log := rfl
@[simp] theorem State.modFreeCtr_sem (h : _ → _) (s : State) : (s.modFreeCtr h).sem = s.sem := rfl
@[simp] theorem State.modFreeCtr_flt (h : _ → _) (s : State) : (s.modFreeCtr h).flt = s.flt := rfl
@[simp] theorem State.modFreeCtr_grt (h : _ → _) (s : State) : (s.modFreeCtr h).grt = s.grt := rfl
@[simp] theorem State.modRas_pending (h : _ → _) (s : State) : (s.modRas h).pending = s.pending := rfl
@[simp] theorem State.modRas_now (h : _ → _) (s : State) : (s.modRas h).now = s.now := rfl
@[simp] theorem State.modRas_ptp (h : _ → _) (s : State) : (s.modRas h).ptp = s.ptp := rfl
@[simp] theorem State.modRas_freeCtr (h : _ → _) (s : State) : (s.modRas h).freeCtr = s.freeCtr := rfl
@[simp] theorem State.modRas_ras (h : _ → _) (s : State) : (s.modRas h).ras = h s.ras := rfl
@[simp] theorem State.modRas_enc (h : _ → _) (s : State) : (s.modRas h).enc = s.enc := rfl
@[simp] theorem State.modRas_dec (h : _ → _) (s : State) : (s.modRas h).dec = s.dec := rfl
@[simp] theorem State.modRas_cmp (h : _ → _) (s : State) : (s.modRas h).cmp = s.cmp := rfl
@[simp] theorem State.modRas_out (h : _ → _) (s : State) : (s.modRas h).out = s.out := rfl
@[simp] theorem State.modRas_cores (h : _ → _) (s : State) : (s.modRas h).cores = s.cores := rfl
@[simp] theorem State.modRas_drm (h : _ → _) (s : State) : (s.modRas h).drm = s.drm := rfl
@[simp] theorem State.modRas_run (h : _ → _) (s : State) : (s.modRas h).run = s.run := rfl
@[simp] theorem State.modRas_hq (h : _ → _) (s : State) : (s.modRas h).hq = s.hq := rfl
@[simp] theorem State.modRas_txn (h : _ → _) (s : State) : (s.modRas h).txn = s.txn := rfl
@[simp] theorem State.modRas_blw (h : _ → _) (s : State) : (s.modRas h).blw = s.blw := rfl
@[simp] theorem State.modRas_fsh (h : _ → _) (s : State) : (s.modRas h).fsh = s.fsh := rfl
@[simp] theorem State.modRas_glb (h : _ → _) (s : State) : (s.modRas h).glb = s.glb := rfl
@[simp] theorem State.modRas_irc (h : _ → _) (s : State) : (s.modRas h).irc = s.irc := rfl
@[simp] theorem State.modRas_tck (h : _ → _) (s : State) : (s.modRas h).tck = s.tck := rfl
@[simp] theorem State.modRas_log (h : _ → _) (s : State) : (s.modRas h).log = s.log := rfl
@[simp] theorem State.modRas_sem (h : _ → _) (s : State) : (s.modRas h).sem = s.sem := rfl
@[simp] theorem State.modRas_flt (h : _ → _) (s : State) : (s.modRas h).flt = s.flt := rfl
@[simp] theorem State.modRas_grt (h : _ → _) (s : State) : (s.modRas h).grt = s.grt := rfl
@[simp] theorem State.modEnc_pending (h : _ → _) (s : State) : (s.modEnc h).pending = s.pending := rfl
@[simp] theorem State.modEnc_now (h : _ → _) (s : State) : (s.modEnc h).now = s.now := rfl
@[simp] theorem State.modEnc_ptp (h : _ → _) (s : State) : (s.modEnc h).ptp = s.ptp := rfl
@[simp] theorem State.modEnc_freeCtr (h : _ → _) (s : State) : (s.modEnc h).freeCtr = s.freeCtr := rfl
@[simp] theorem State.modEnc_ras (h : _ → _) (s : State) : (s.modEnc h).ras = s.ras := rfl
@[simp] theorem State.modEnc_enc (h : _ → _) (s : State) : (s.modEnc h).enc = h s.enc := rfl
@[simp] theorem State.modEnc_dec (h : _ → _) (s : State) : (s.modEnc h).dec = s.dec := rfl
@[simp] theorem State.modEnc_cmp (h : _ → _) (s : State) : (s.modEnc h).cmp = s.cmp := rfl
@[simp] theorem State.modEnc_out (h : _ → _) (s : State) : (s.modEnc h).out = s.out := rfl
@[simp] theorem State.modEnc_cores (h : _ → _) (s : State) : (s.modEnc h).cores = s.cores := rfl
@[simp] theorem State.modEnc_drm (h : _ → _) (s : State) : (s.modEnc h).drm = s.drm := rfl
@[simp] theorem State.modEnc_run (h : _ → _) (s : State) : (s.modEnc h).run = s.run := rfl
@[simp] theorem State.modEnc_hq (h : _ → _) (s : State) : (s.modEnc h).hq = s.hq := rfl
@[simp] theorem State.modEnc_txn (h : _ → _) (s : State) : (s.modEnc h).txn = s.txn := rfl
@[simp] theorem State.modEnc_blw (h : _ → _) (s : State) : (s.modEnc h).blw = s.blw := rfl
@[simp] theorem State.modEnc_fsh (h : _ → _) (s : State) : (s.modEnc h).fsh = s.fsh := rfl
@[simp] theorem State.modEnc_glb (h : _ → _) (s : State) : (s.modEnc h).glb = s.glb := rfl
@[simp] theorem State.modEnc_irc (h : _ → _) (s : State) : (s.modEnc h).irc = s.irc := rfl
@[simp] theorem State.modEnc_tck (h : _ → _) (s : State) : (s.modEnc h).tck = s.tck := rfl
@[simp] theorem State.modEnc_log (h : _ → _) (s : State) : (s.modEnc h).log = s.log := rfl
@[simp] theorem State.modEnc_sem (h : _ → _) (s : State) : (s.modEnc h).sem = s.sem := rfl
@[simp] theorem State.modEnc_flt (h : _ → _) (s : State) : (s.modEnc h).flt = s.flt := rfl
@[simp] theorem State.modEnc_grt (h : _ → _) (s : State) : (s.modEnc h).grt = s.grt := rfl
@[simp] theorem State.modDec_pending (h : _ → _) (s : State) : (s.modDec h).pending = s.pending := rfl
@[simp] theorem State.modDec_now (h : _ → _) (s : State) : (s.modDec h).now = s.now := rfl
@[simp] theorem State.modDec_ptp (h : _ → _) (s : State) : (s.modDec h).ptp = s.ptp := rfl
@[simp] theorem State.modDec_freeCtr (h : _ → _) (s : State) : (s.modDec h).freeCtr = s.freeCtr := rfl
@[simp] theorem State.modDec_ras (h : _ → _) (s : State) : (s.modDec h).ras = s.ras := rfl
@[simp] theorem State.modDec_enc (h : _ → _) (s : State) : (s.modDec h).enc = s.enc := rfl
@[simp] theorem State.modDec_dec (h : _ → _) (s : State) : (s.modDec h).dec = h s.dec := rfl
@[simp] theorem State.modDec_cmp (h : _ → _) (s : State) : (s.modDec h).cmp = s.cmp := rfl
@[simp] theorem State.modDec_out (h : _ → _) (s : State) : (s.modDec h).out = s.out := rfl
@[simp] theorem State.modDec_cores (h : _ → _) (s : State) : (s.modDec h).cores = s.cores := rfl
@[simp] theorem State.modDec_drm (h : _ → _) (s : State) : (s.modDec h).drm = s.drm := rfl
@[simp] theorem State.modDec_run (h : _ → _) (s : State) : (s.modDec h).run = s.run := rfl
@[simp] theorem State.modDec_hq (h : _ → _) (s : State) : (s.modDec h).hq = s.hq := rfl
@[simp] theorem State.modDec_txn (h : _ → _) (s : State) : (s.modDec h).txn = s.txn := rfl
@[simp] theorem State.modDec_blw (h : _ → _) (s : State) : (s.modDec h).blw = s.blw := rfl
@[simp] theorem State.modDec_fsh (h : _ → _) (s : State) : (s.modDec h).fsh = s.fsh := rfl
@[simp] theorem State.modDec_glb (h : _ → _) (s : State) : (s.modDec h).glb = s.glb := rfl
@[simp] theorem State.modDec_irc (h : _ → _) (s : State) : (s.modDec h).irc = s.irc := rfl
@[simp] theorem State.modDec_tck (h : _ → _) (s : State) : (s.modDec h).tck = s.tck := rfl
@[simp] theorem State.modDec_log (h : _ → _) (s : State) : (s.modDec h).log = s.log := rfl
@[simp] theorem State.modDec_sem (h : _ → _) (s : State) : (s.modDec h).sem = s.sem := rfl
@[simp] theorem State.modDec_flt (h : _ → _) (s : State) : (s.modDec h).flt = s.flt := rfl
@[simp] theorem State.modDec_grt (h : _ → _) (s : State) : (s.modDec h).grt = s.grt := rfl
@[simp] theorem State.modCmp_pending (h : _ → _) (s : State) : (s.modCmp h).pending = s.pending := rfl
@[simp] theorem State.modCmp_now (h : _ → _) (s : State) : (s.modCmp h).now = s.now := rfl
@[simp] theorem State.modCmp_ptp (h : _ → _) (s : State) : (s.modCmp h).ptp = s.ptp := rfl
@[simp] theorem State.modCmp_freeCtr (h : _ → _) (s : State) : (s.modCmp h).freeCtr = s.freeCtr := rfl
@[simp] theorem State.modCmp_ras (h : _ → _) (s : State) : (s.modCmp h).ras = s.ras := rfl
@[simp] theorem State.modCmp_enc (h : _ → _) (s : State) : (s.modCmp h).enc = s.enc := rfl
@[simp] theorem State.modCmp_dec (h : _ → _) (s : State) : (s.modCmp h).dec = s.dec := rfl
@[simp] theorem State.modCmp_cmp (h : _ → _) (s : State) : (s.modCmp h).cmp = h s.cmp := rfl
@[simp] theorem State.modCmp_out (h : _ → _) (s : State) : (s.modCmp h).out = s.out := rfl
@[simp] theorem State.modCmp_cores (h : _ → _) (s : State) : (s.modCmp h).cores = s.cores := rfl
@[simp] theorem State.modCmp_drm (h : _ → _) (s : State) : (s.modCmp h).drm = s.drm := rfl
@[simp] theorem State.modCmp_run (h : _ → _) (s : State) : (s.modCmp h).run = s.run := rfl
@[simp] theorem State.modCmp_hq (h : _ → _) (s : State) : (s.modCmp h).hq = s.hq := rfl
@[simp] theorem State.modCmp_txn (h : _ → _) (s : State) : (s.modCmp h).txn = s.txn := rfl
@[simp] theorem State.modCmp_blw (h : _ → _) (s : State) : (s.modCmp h).blw = s.blw := rfl
@[simp] theorem State.modCmp_fsh (h : _ → _) (s : State) : (s.modCmp h).fsh = s.fsh := rfl
@[simp] theorem State.modCmp_glb (h : _ → _) (s : State) : (s.modCmp h).glb = s.glb := rfl
@[simp] theorem State.modCmp_irc (h : _ → _) (s : State) : (s.modCmp h).irc = s.irc := rfl
@[simp] theorem State.modCmp_tck (h : _ → _) (s : State) : (s.modCmp h).tck = s.tck := rfl
@[simp] theorem State.modCmp_log (h : _ → _) (s : State) : (s.modCmp h).log = s.log := rfl
@[simp] theorem State.modCmp_sem (h : _ → _) (s : State) : (s.modCmp h).sem = s.sem := rfl
@[simp] theorem State.modCmp_flt (h : _ → _) (s : State) : (s.modCmp h).flt = s.flt := rfl
@[simp] theorem State.modCmp_grt (h : _ → _) (s : State) : (s.modCmp h).grt = s.grt := rfl
@[simp] theorem State.modOut_pending (h : _ → _) (s : State) : (s.modOut h).pending = s.pending := rfl
@[simp] theorem State.modOut_now (h : _ → _) (s : State) : (s.modOut h).now = s.now := rfl
@[simp] theorem State.modOut_ptp (h : _ → _) (s : State) : (s.modOut h).ptp = s.ptp := rfl
@[simp] theorem State.modOut_freeCtr (h : _ → _) (s : State) : (s.modOut h).freeCtr = s.freeCtr := rfl
@[simp] theorem State.modOut_ras (h : _ → _) (s : State) : (s.modOut h).ras = s.ras := rfl
@[simp] theorem State.modOut_enc (h : _ → _) (s : State) : (s.modOut h).enc = s.enc := rfl
@[simp] theorem State.modOut_dec (h : _ → _) (s : State) : (s.modOut h).dec = s.dec := rfl
@[simp] theorem State.modOut_cmp (h : _ → _) (s : State) : (s.modOut h).cmp = s.cmp := rfl
@[simp] theorem State.modOut_out (h : _ → _) (s : State) : (s.modOut h).out = h s.out := rfl
@[simp] theorem State.modOut_cores (h : _ → _) (s : State) : (s.modOut h).cores = s.cores := rfl
@[simp] theorem State.modOut_drm (h : _ → _) (s : State) : (s.modOut h).drm = s.drm := rfl
@[simp] theorem State.modOut_run (h : _ → _) (s : State) : (s.modOut h).run = s.run := rfl
@[simp] theorem State.modOut_hq (h : _ → _) (s : State) : (s.modOut h).hq = s.hq := rfl
@[simp] theorem State.modOut_txn (h : _ → _) (s : State) : (s.modOut h).txn = s.txn := rfl
@[simp] theorem State.modOut_blw (h : _ → _) (s : State) : (s.modOut h).blw = s.blw := rfl
@[simp] theorem State.modOut_fsh (h : _ → _) (s : State) : (s.modOut h).fsh = s.fsh := rfl
@[simp] theorem State.modOut_glb (h : _ → _) (s : State) : (s.modOut h).glb = s.glb := rfl
@[simp] theorem State.modOut_irc (h : _ → _) (s : State) : (s.modOut h).irc = s.irc := rfl
@[simp] theorem State.modOut_tck (h : _ → _) (s : State) : (s.modOut h).tck = s.tck := rfl
@[simp] theorem State.modOut_log (h : _ → _) (s : State) : (s.modOut h).log = s.log := rfl
@[simp] theorem State.modOut_sem (h : _ → _) (s : State) : (s.modOut h).sem = s.sem := rfl
@[simp] theorem State.modOut_flt (h : _ → _) (s : State) : (s.modOut h).flt = s.flt := rfl
@[simp] theorem State.modOut_grt (h : _ → _) (s : State) : (s.modOut h).grt = s.grt := rfl
@[simp] theorem State.modCores_pending (h : _ → _) (s : State) : (s.modCores h).pending = s.pending := rfl
@[simp] theorem State.modCores_now (h : _ → _) (s : State) : (s.modCores h).now = s.now := rfl
@[simp] theorem State.modCores_ptp (h : _ → _) (s : State) : (s.modCores h).ptp = s.ptp := rfl
@[simp] theorem State.modCores_freeCtr (h : _ → _) (s : State) : (s.modCores h).freeCtr = s.freeCtr := rfl
@[simp] theorem State.modCores_ras (h : _ → _) (s : State) : (s.modCores h).ras = s.ras := rfl
@[simp] theorem State.modCores_enc (h : _ → _) (s : State) : (s.modCores h).enc = s.enc := rfl
@[simp] theorem State.modCores_dec (h : _ → _) (s : State) : (s.modCores h).dec = s.dec := rfl
@[simp] theorem State.modCores_cmp (h : _ → _) (s : State) : (s.modCores h).cmp = s.cmp := rfl
@[simp] theorem State.modCores_out (h : _ → _) (s : State) : (s.modCores h).out = s.out := rfl
@[simp] theorem State.modCores_cores (h : _ → _) (s : State) : (s.modCores h).cores = h s.cores := rfl
@[simp] theorem State.modCores_drm (h : _ → _) (s : State) : (s.modCores h).drm = s.drm := rfl
@[simp] theorem State.modCores_run (h : _ → _) (s : State) : (s.modCores h).run = s.run := rfl
@[simp] theorem State.modCores_hq (h : _ → _) (s : State) : (s.modCores h).hq = s.hq := rfl
@[simp] theorem State.modCores_txn (h : _ → _) (s : State) : (s.modCores h).txn = s.txn := rfl
@[simp] theorem State.modCores_blw (h : _ → _) (s : State) : (s.modCores h).blw = s.blw := rfl
@[simp] theorem State.modCores_fsh (h : _ → _) (s : State) : (s.modCores h).fsh = s.fsh := rfl
@[simp] theorem State.modCores_glb (h : _ → _) (s : State) : (s.modCores h).glb = s.glb := rfl
@[simp] theorem State.modCores_irc (h : _ → _) (s : State) : (s.modCores h).irc = s.irc := rfl
@[simp] theorem State.modCores_tck (h : _ → _) (s : State) : (s.modCores h).tck = s.tck := rfl
@[simp] theorem State.modCores_log (h : _ → _) (s : State) : (s.modCores h).log = s.log := rfl
@[simp] theorem State.modCores_sem (h : _ → _) (s : State) : (s.modCores h).sem = s.sem := rfl
@[simp] theorem State.modCores_flt (h : _ → _) (s : State) : (s.modCores h).flt = s.flt := rfl
@[simp] theorem State.modCores_grt (h : _ → _) (s : State) : (s.modCores h).grt = s.grt := rfl
@[simp] theorem State.modDrm_pending (h : _ → _) (s : State) : (s.modDrm h).pending = s.pending := rfl
@[simp] theorem State.modDrm_now (h : _ → _) (s : State) : (s.modDrm h).now = s.now := rfl
@[simp] theorem State.modDrm_ptp (h : _ → _) (s : State) : (s.modDrm h).ptp = s.ptp := rfl
@[simp] theorem State.modDrm_freeCtr (h : _ → _) (s : State) : (s.modDrm h).freeCtr = s.freeCtr := rfl
@[simp] theorem State.modDrm_ras (h : _ → _) (s : State) : (s.modDrm h).ras = s.ras := rfl
@[simp] theorem State.modDrm_enc (h : _ → _) (s : State) : (s.modDrm h).enc = s.enc := rfl
@[simp] theorem State.modDrm_dec (h : _ → _) (s : State) : (s.modDrm h).dec = s.dec := rfl
@[simp] theorem State.modDrm_cmp (h : _ → _) (s : State) : (s.modDrm h).cmp = s.cmp := rfl
@[simp] theorem State.modDrm_out (h : _ → _) (s : State) : (s.modDrm h).out = s.out := rfl
@[simp] theorem State.modDrm_cores (h : _ → _) (s : State) : (s.modDrm h).cores = s.cores := rfl
@[simp] theorem State.modDrm_drm (h : _ → _) (s : State) : (s.modDrm h).drm = h s.drm := rfl
@[simp] theorem State.modDrm_run (h : _ → _) (s : State) : (s.modDrm h).run = s.run := rfl
@[simp] theorem State.modDrm_hq (h : _ → _) (s : State) : (s.modDrm h).hq = s.hq := rfl
@[simp] theorem State.modDrm_txn (h : _ → _) (s : State) : (s.modDrm h).txn = s.txn := rfl
@[simp] theorem State.modDrm_blw (h : _ → _) (s : State) : (s.modDrm h).blw = s.blw := rfl
@[simp] theorem State.modDrm_fsh (h : _ → _) (s : State) : (s.modDrm h).fsh = s.fsh := rfl
@[simp] theorem State.modDrm_glb (h : _ → _) (s : State) : (s.modDrm h).glb = s.glb := rfl
@[simp] theorem State.modDrm_irc (h : _ → _) (s : State) : (s.modDrm h).irc = s.irc := rfl
@[simp] theorem State.modDrm_tck (h : _ → _) (s : State) : (s.modDrm h).tck = s.tck := rfl
@[simp] theorem State.modDrm_log (h : _ → _) (s : State) : (s.modDrm h).log = s.log := rfl
@[simp] theorem State.modDrm_sem (h : _ → _) (s : State) : (s.modDrm h).sem = s.sem := rfl
@[simp] theorem State.modDrm_flt (h : _ → _) (s : State) : (s.modDrm h).flt = s.flt := rfl
@[simp] theorem State.modDrm_grt (h : _ → _) (s : State) : (s.modDrm h).grt = s.grt := rfl
@[simp] theorem State.modRun_pending (h : _ → _) (s : State) : (s.modRun h).pending = s.pending := rfl
@[simp] theorem State.modRun_now (h : _ → _) (s : State) : (s.modRun h).now = s.now := rfl
@[simp] theorem State.modRun_ptp (h : _ → _) (s : State) : (s.modRun h).ptp = s.ptp := rfl
@[simp] theorem State.modRun_freeCtr (h : _ → _) (s : State) : (s.modRun h).freeCtr = s.freeCtr := rfl
@[simp] theorem State.modRun_ras (h : _ → _) (s : State) : (s.modRun h).ras = s.ras := rfl
@[simp] theorem State.modRun_enc (h : _ → _) (s : State) : (s.modRun h).enc = s.enc := rfl
@[simp] theorem State.modRun_dec (h : _ → _) (s : State) : (s.modRun h).dec = s.dec := rfl
@[simp] theorem State.modRun_cmp (h : _ → _) (s : State) : (s.modRun h).cmp = s.cmp := rfl
@[simp] theorem State.modRun_out (h : _ → _) (s : State) : (s.modRun h).out = s.out := rfl
@[simp] theorem State.modRun_cores (h : _ → _) (s : State) : (s.modRun h).cores = s.cores := rfl
@[simp] theorem State.modRun_drm (h : _ → _) (s : State) : (s.modRun h).drm = s.drm := rfl
@[simp] theorem State.modRun_run (h : _ → _) (s : State) : (s.modRun h).run = h s.run := rfl
@[simp] theorem State.modRun_hq (h : _ → _) (s : State) : (s.modRun h).hq = s.hq := rfl
@[simp] theorem State.modRun_txn (h : _ → _) (s : State) : (s.modRun h).txn = s.txn := rfl
@[simp] theorem State.modRun_blw (h : _ → _) (s : State) : (s.modRun h).blw = s.blw := rfl
@[simp] theorem State.modRun_fsh (h : _ → _) (s : State) : (s.modRun h).fsh = s.fsh := rfl
@[simp] theorem State.modRun_glb (h : _ → _) (s : State) : (s.modRun h).glb = s.glb := rfl
@[simp] theorem State.modRun_irc (h : _ → _) (s : State) : (s.modRun h).irc = s.irc := rfl
@[simp] theorem State.modRun_tck (h : _ → _) (s : State) : (s.modRun h).tck = s.tck := rfl
@[simp] theorem State.modRun_log (h : _ → _) (s : State) : (s.modRun h).log = s.log := rfl
@[simp] theorem State.modRun_sem (h : _ → _) (s : State) : (s.modRun h).sem = s.sem := rfl
@[simp] theorem State.modRun_flt (h : _ → _) (s : State) : (s.modRun h).flt = s.flt := rfl
@[simp] theorem State.modRun_grt (h : _ → _) (s : State) : (s.modRun h).grt = s.grt := rfl
@[simp] theorem State.modHq_pending (h : _ → _) (s : State) : (s.modHq h).pending = s.pending := rfl
@[simp] theorem State.modHq_now (h : _ → _) (s : State) : (s.modHq h).now = s.now := rfl
@[simp] theorem State.modHq_ptp (h : _ → _) (s : State) : (s.modHq h).ptp = s.ptp := rfl
@[simp] theorem State.modHq_freeCtr (h : _ → _) (s : State) : (s.modHq h).freeCtr = s.freeCtr := rfl
@[simp] theorem State.modHq_ras (h : _ → _) (s : State) : (s.modHq h).ras = s.ras := rfl
@[simp] theorem State.modHq_enc (h : _ → _) (s : State) : (s.modHq h).enc = s.enc := rfl
@[simp] theorem State.modHq_dec (h : _ → _) (s : State) : (s.modHq h).dec = s.dec := rfl
@[simp] theorem State.modHq_cmp (h : _ → _) (s : State) : (s.modHq h).cmp = s.cmp := rfl
@[simp] theorem State.modHq_out (h : _ → _) (s : State) : (s.modHq h).out = s.out := rfl
@[simp] theorem State.modHq_cores (h : _ → _) (s : State) : (s.modHq h).cores = s.cores := rfl
@[simp] theorem State.modHq_drm (h : _ → _) (s : State) : (s.modHq h).drm = s.drm := rfl
@[simp] theorem State.modHq_run (h : _ → _) (s : State) : (s.modHq h).run = s.run := rfl
@[simp] theorem State.modHq_hq (h : _ → _) (s : State) : (s.modHq h).hq = h s.hq := rfl
@[simp] theorem State.modHq_txn (h : _ → _) (s : State) : (s.modHq h).txn = s.txn := rfl
@[simp] theorem State.modHq_blw (h : _ → _) (s : State) : (s.modHq h).blw = s.blw := rfl
@[simp] theorem State.modHq_fsh (h : _ → _) (s : State) : (s.modHq h).fsh = s.fsh := rfl
@[simp] theorem State.modHq_glb (h : _ → _) (s : State) : (s.modHq h).glb = s.glb := rfl
@[simp] theorem State.modHq_irc (h : _ → _) (s : State) : (s.modHq h).irc = s.irc := rfl
@[simp] theorem State.modHq_tck (h : _ → _) (s : State) : (s.modHq h).tck = s.tck := rfl
@[simp] theorem State.modHq_log (h : _ → _) (s : State) : (s.modHq h).log = s.log := rfl
@[simp] theorem State.modHq_sem (h : _ → _) (s : State) : (s.modHq h).sem = s.sem := rfl
@[simp] theorem State.modHq_flt (h : _ → _) (s : State) : (s.modHq h).flt = s.flt := rfl
@[simp] theorem State.modHq_grt (h : _ → _) (s : State) : (s.modHq h).grt = s.grt := rfl
@[simp] theorem State.modTxn_pending (h : _ → _) (s : State) : (s.modTxn h).pending = s.pending := rfl
@[simp] theorem State.modTxn_now (h : _ → _) (s : State) : (s.modTxn h).now = s.now := rfl
@[simp] theorem State.modTxn_ptp (h : _ → _) (s : State) : (s.modTxn h).ptp = s.ptp := rfl
@[simp] theorem State.modTxn_freeCtr (h : _ → _) (s : State) : (s.modTxn h).freeCtr = s.freeCtr := rfl
@[simp] theorem State.modTxn_ras (h : _ → _) (s : State) : (s.modTxn h).ras = s.ras := rfl
@[simp] theorem State.modTxn_enc (h : _ → _) (s : State) : (s.modTxn h).enc = s.enc := rfl
@[simp] theorem State.modTxn_dec (h : _ → _) (s : State) : (s.modTxn h).dec = s.dec := rfl
@[simp] theorem State.modTxn_cmp (h : _ → _) (s : State) : (s.modTxn h).cmp = s.cmp := rfl
@[simp] theorem State.modTxn_out (h : _ → _) (s : State) : (s.modTxn h).out = s.out := rfl
@[simp] theorem State.modTxn_cores (h : _ → _) (s : State) : (s.modTxn h).cores = s.cores := rfl
@[simp] theorem State.modTxn_drm (h : _ → _) (s : State) : (s.modTxn h).drm = s.drm := rfl
@[simp] theorem State.modTxn_run (h : _ → _) (s : State) : (s.modTxn h).run = s.run := rfl
@[simp] theorem State.modTxn_hq (h : _ → _) (s : State) : (s.modTxn h).hq = s.hq := rfl
@[simp] theorem State.modTxn_txn (h : _ → _) (s : State) : (s.modTxn h).txn = h s.txn := rfl
@[simp] theorem State.modTxn_blw (h : _ → _) (s : State) : (s.modTxn h).blw = s.blw := rfl
@[simp] theorem State.modTxn_fsh (h : _ → _) (s : State) : (s.modTxn h).fsh = s.fsh := rfl
@[simp] theorem State.modTxn_glb (h : _ → _) (s : State) : (s.modTxn h).glb = s.glb := rfl
@[simp] theorem State.modTxn_irc (h : _ → _) (s : State) : (s.modTxn h).irc = s.irc := rfl
@[simp] theorem State.modTxn_tck (h : _ → _) (s : State) : (s.modTxn h).tck = s.tck := rfl
@[simp] theorem State.modTxn_log (h : _ → _) (s : State) : (s.modTxn h).log = s.log := rfl
@[simp] theorem State.modTxn_sem (h : _ → _) (s : State) : (s.modTxn h).sem = s.sem := rfl
@[simp] theorem State.modTxn_flt (h : _ → _) (s : State) : (s.modTxn h).flt = s.flt := rfl
@[simp] theorem State.modTxn_grt (h : _ → _) (s : State) : (s.modTxn h).grt = s.grt := rfl
@[simp] theorem State.modBlw_pending (h : _ → _) (s : State) : (s.modBlw h).pending = s.pending := rfl
@[simp] theorem State.modBlw_now (h : _ → _) (s : State) : (s.modBlw h).now = s.now := rfl
@[simp] theorem State.modBlw_ptp (h : _ → _) (s : State) : (s.modBlw h).ptp = s.ptp := rfl
@[simp] theorem State.modBlw_freeCtr (h : _ → _) (s : State) : (s.modBlw h).freeCtr = s.freeCtr := rfl
@[simp] theorem State.modBlw_ras (h : _ → _) (s : State) : (s.modBlw h).ras = s.ras := rfl
@[simp] theorem State.modBlw_enc (h : _ → _) (s : State) : (s.modBlw h).enc = s.enc := rfl
@[simp] theorem State.modBlw_dec (h : _ → _) (s : State) : (s.modBlw h).dec = s.dec := rfl
@[simp] theorem State.modBlw_cmp (h : _ → _) (s : State) : (s.modBlw h).cmp = s.cmp := rfl
@[simp] theorem State.modBlw_out (h : _ → _) (s : State) : (s.modBlw h).out = s.out := rfl
@[simp] theorem State.modBlw_cores (h : _ → _) (s : State) : (s.modBlw h).cores = s.cores := rfl
@[simp] theorem State.modBlw_drm (h : _ → _) (s : State) : (s.modBlw h).drm = s.drm := rfl
@[simp] theorem State.modBlw_run (h : _ → _) (s : State) : (s.modBlw h).run = s.run := rfl
@[simp] theorem State.modBlw_hq (h : _ → _) (s : State) : (s.modBlw h).hq = s.hq := rfl
@[simp] theorem State.modBlw_txn (h : _ → _) (s : State) : (s.modBlw h).txn = s.txn := rfl
@[simp] theorem State.modBlw_blw (h : _ → _) (s : State) : (s.modBlw h).blw = h s.blw := rfl
@[simp] theorem State.modBlw_fsh (h : _ → _) (s : State) : (s.modBlw h).fsh = s.fsh := rfl
@[simp] theorem State.modBlw_glb (h : _ → _) (s : State) : (s.modBlw h).glb = s.glb := rfl
@[simp] theorem State.modBlw_irc (h : _ → _) (s : State) : (s.modBlw h).irc = s.irc := rfl
@[simp] theorem State.modBlw_tck (h : _ → _) (s : State) : (s.modBlw h).tck = s.tck := rfl
@[simp] theorem State.modBlw_log (h : _ → _) (s : State) : (s.modBlw h).log = s.log := rfl
@[simp] theorem State.modBlw_sem (h : _ → _) (s : State) : (s.modBlw h).sem = s.sem := rfl
@[simp] theorem State.modBlw_flt (h : _ → _) (s : State) : (s.modBlw h).flt = s.flt := rfl
@[simp] theorem State.modBlw_grt (h : _ → _) (s : State) : (s.modBlw h).grt = s.grt := rfl
@[simp] theorem State.modFsh_pending (h : _ → _) (s : State) : (s.modFsh h).pending = s.pending := rfl
@[simp] theorem State.modFsh_now (h : _ → _) (s : State) : (s.modFsh h).now = s.now := rfl
@[simp] theorem State.modFsh_ptp (h : _ → _) (s : State) : (s.modFsh h).ptp = s.ptp := rfl
@[simp] theorem State.modFsh_freeCtr (h : _ → _) (s : State) : (s.modFsh h).freeCtr = s.freeCtr := rfl
@[simp] theorem State.modFsh_ras (h : _ → _) (s : State) : (s.modFsh h).ras = s.ras := rfl
@[simp] theorem State.modFsh_enc (h : _ → _) (s : State) : (s.modFsh h).enc = s.enc := rfl
@[simp] theorem State.modFsh_dec (h : _ → _) (s : State) : (s.modFsh h).dec = s.dec := rfl
@[simp] theorem State.modFsh_cmp (h : _ → _) (s : State) : (s.modFsh h).cmp = s.cmp := rfl
@[simp] theorem State.modFsh_out (h : _ → _) (s : State) : (s.modFsh h).out = s.out := rfl
@[simp] theorem State.modFsh_cores (h : _ → _) (s : State) : (s.modFsh h).cores = s.cores := rfl
@[simp] theorem State.modFsh_drm (h : _ → _) (s : State) : (s.modFsh h).drm = s.drm := rfl
@[simp] theorem State.modFsh_run (h : _ → _) (s : State) : (s.modFsh h).run = s.run := rfl
@[simp] theorem State.modFsh_hq (h : _ → _) (s : State) : (s.modFsh h).hq = s.hq := rfl
@[simp] theorem State.modFsh_txn (h : _ → _) (s : State) : (s.modFsh h).txn = s.txn := rfl
@[simp] theorem State.modFsh_blw (h : _ → _) (s : State) : (s.modFsh h).blw = s.blw := rfl
@[simp] theorem State.modFsh_fsh (h : _ → _) (s : State) : (s.modFsh h).fsh = h s.fsh := rfl
@[simp] theorem State.modFsh_glb (h : _ → _) (s : State) : (s.modFsh h).glb = s.glb := rfl
@[simp] theorem State.modFsh_irc (h : _ → _) (s : State) : (s.modFsh h).irc = s.irc := rfl
@[simp] theorem State.modFsh_tck (h : _ → _) (s : State) : (s.modFsh h).tck = s.tck := rfl
@[simp] theorem State.modFsh_log (h : _ → _) (s : State) : (s.modFsh h).log = s.log := rfl
@[simp] theorem State.modFsh_sem (h : _ → _) (s : State) : (s.modFsh h).sem = s.sem := rfl
@[simp] theorem State.modFsh_flt (h : _ → _) (s : State) : (s.modFsh h).flt = s.flt := rfl
@[simp] theorem State.modFsh_grt (h : _ → _) (s : State) : (s.modFsh h).grt = s.grt := rfl
@[simp] theorem State.modGlb_pending (h : _ → _) (s : State) : (s.modGlb h).pending = s.pending := rfl
@[simp] theorem State.modGlb_now (h : _ → _) (s : State) : (s.modGlb h).now = s.now := rfl
@[simp] theorem State.modGlb_ptp (h : _ → _) (s : State) : (s.modGlb h).ptp = s.ptp := rfl
@[simp] theorem State.modGlb_freeCtr (h : _ → _) (s : State) : (s.modGlb h).freeCtr = s.freeCtr := rfl
@[simp] theorem State.modGlb_ras (h : _ → _) (s : State) : (s.modGlb h).ras = s.ras := rfl
@[simp] theorem State.modGlb_enc (h : _ → _) (s : State) : (s.modGlb h).enc = s.enc := rfl
@[simp] theorem State.modGlb_dec (h : _ → _) (s : State) : (s.modGlb h).dec = s.dec := rfl
@[simp] theorem State.modGlb_cmp (h : _ → _) (s : State) : (s.modGlb h).cmp = s.cmp := rfl
@[simp] theorem State.modGlb_out (h : _ → _) (s : State) : (s.modGlb h).out = s.out := rfl
@[simp] theorem State.modGlb_cores (h : _ → _) (s : State) : (s.modGlb h).cores = s.cores := rfl
@[simp] theorem State.modGlb_drm (h : _ → _) (s : State) : (s.modGlb h).drm = s.drm := rfl
@[simp] theorem State.modGlb_run (h : _ → _) (s : State) : (s.modGlb h).run = s.run := rfl
@[simp] theorem State.modGlb_hq (h : _ → _) (s : State) : (s.modGlb h).hq = s.hq := rfl
@[simp] theorem State.modGlb_txn (h : _ → _) (s : State) : (s.modGlb h).txn = s.txn := rfl
@[simp] theorem State.modGlb_blw (h : _ → _) (s : State) : (s.modGlb h).blw = s.blw := rfl
@[simp] theorem State.modGlb_fsh (h : _ → _) (s : State) : (s.modGlb h).fsh = s.fsh := rfl
@[simp] theorem State.modGlb_glb (h : _ → _) (s : State) : (s.modGlb h).glb = h s.glb := rfl
@[simp] theorem State.modGlb_irc (h : _ → _) (s : State) : (s.modGlb h).irc = s.irc := rfl
@[simp] theorem State.modGlb_tck (h : _ → _) (s : State) : (s.modGlb h).tck = s.tck := rfl
@[simp] theorem State.modGlb_log (h : _ → _) (s : State) : (s.modGlb h).log = s.log := rfl
@[simp] theorem State.modGlb_sem (h : _ → _) (s : State) : (s.modGlb h).sem = s.sem := rfl
@[simp] theorem State.modGlb_flt (h : _ → _) (s : State) : (s.modGlb h).flt = s.flt := rfl
@[simp] theorem State.modGlb_grt (h : _ → _) (s : State) : (s.modGlb h).grt = s.grt := rfl
@[simp] theorem State.modIrc_pending (h : _ → _) (s : State) : (s.modIrc h).pending = s.pending := rfl
@[simp] theorem State.modIrc_now (h : _ → _) (s : State) : (s.modIrc h).now = s.now := rfl
@[simp] theorem State.modIrc_ptp (h : _ → _) (s : State) : (s.modIrc h).ptp = s.ptp := rfl
@[simp] theorem State.modIrc_freeCtr (h : _ → _) (s : State) : (s.modIrc h).freeCtr = s.freeCtr := rfl
@[simp] theorem State.modIrc_ras (h : _ → _) (s : State) : (s.modIrc h).ras = s.ras := rfl
@[simp] theorem State.modIrc_enc (h : _ → _) (s : State) : (s.modIrc h).enc = s.enc := rfl
@[simp] theorem State.modIrc_dec (h : _ → _) (s : State) : (s.modIrc h).dec = s.dec := rfl
@[simp] theorem State.modIrc_cmp (h : _ → _) (s : State) : (s.modIrc h).cmp = s.cmp := rfl
@[simp] theorem State.modIrc_out (h : _ → _) (s : State) : (s.modIrc h).out = s.out := rfl
@[simp] theorem State.modIrc_cores (h : _ → _) (s : State) : (s.modIrc h).cores = s.cores := rfl
@[simp] theorem State.modIrc_drm (h : _ → _) (s : State) : (s.modIrc h).drm = s.drm := rfl
@[simp] theorem State.modIrc_run (h : _ → _) (s : State) : (s.modIrc h).run = s.run := rfl
@[simp] theorem State.modIrc_hq (h : _ → _) (s : State) : (s.modIrc h).hq = s.hq := rfl
@[simp] theorem State.modIrc_txn (h : _ → _) (s : State) : (s.modIrc h).txn = s.txn := rfl
@[simp] theorem State.modIrc_blw (h : _ → _) (s : State) : (s.modIrc h).blw = s.blw := rfl
@[simp] theorem State.modIrc_fsh (h : _ → _) (s : State) : (s.modIrc h).fsh = s.fsh := rfl
@[simp] theorem State.modIrc_glb (h : _ → _) (s : State) : (s.modIrc h).glb = s.glb := rfl
@[simp] theorem State.modIrc_irc (h : _ → _) (s : State) : (s.modIrc h).irc = h s.irc := rfl
@[simp] theorem State.modIrc_tck (h : _ → _) (s : State) : (s.modIrc h).tck = s.tck := rfl
@[simp] theorem State.modIrc_log (h : _ → _) (s : State) : (s.modIrc h).log = s.log := rfl
@[simp] theorem State.modIrc_sem (h : _ → _) (s : State) : (s.modIrc h).sem = s.sem := rfl
@[simp] theorem State.modIrc_flt (h : _ → _) (s : State) : (s.modIrc h).flt = s.flt := rfl
@[simp] theorem State.modIrc_grt (h : _ → _) (s : State) : (s.modIrc h).grt = s.grt := rfl
@[simp] theorem State.modTck_pending (h : _ → _) (s : State) : (s.modTck h).pending = s.pending := rfl
@[simp] theorem State.modTck_now (h : _ → _) (s : State) : (s.modTck h).now = s.now := rfl
@[simp] theorem State.modTck_ptp (h : _ → _) (s : State) : (s.modTck h).ptp = s.ptp := rfl
@[simp] theorem State.modTck_freeCtr (h : _ → _) (s : State) : (s.modTck h).freeCtr = s.freeCtr := rfl
@[simp] theorem State.modTck_ras (h : _ → _) (s : State) : (s.modTck h).ras = s.ras := rfl
@[simp] theorem State.modTck_enc (h : _ → _) (s : State) : (s.modTck h).enc = s.enc := rfl
@[simp] theorem State.modTck_dec (h : _ → _) (s : State) : (s.modTck h).dec = s.dec := rfl
@[simp] theorem State.modTck_cmp (h : _ → _) (s : State) : (s.modTck h).cmp = s.cmp := rfl
@[simp] theorem State.modTck_out (h : _ → _) (s : State) : (s.modTck h).out = s.out := rfl
@[simp] theorem State.modTck_cores (h : _ → _) (s : State) : (s.modTck h).cores = s.cores := rfl
@[simp] theorem State.modTck_drm (h : _ → _) (s : State) : (s.modTck h).drm = s.drm := rfl
@[simp] theorem State.modTck_run (h : _ → _) (s : State) : (s.modTck h).run = s.run := rfl
@[simp] theorem State.modTck_hq (h : _ → _) (s : State) : (s.modTck h).hq = s.hq := rfl
@[simp] theorem State.modTck_txn (h : _ → _) (s : State) : (s.modTck h).txn = s.txn := rfl
@[simp] theorem State.modTck_blw (h : _ → _) (s : State) : (s.modTck h).blw = s.blw := rfl
@[simp] theorem State.modTck_fsh (h : _ → _) (s : State) : (s.modTck h).fsh = s.fsh := rfl
@[simp] theorem State.modTck_glb (h : _ → _) (s : State) : (s.modTck h).glb = s.glb := rfl
@[simp] theorem State.modTck_irc (h : _ → _) (s : State) : (s.modTck h).irc = s.irc := rfl
@[simp] theorem State.modTck_tck (h : _ → _) (s : State) : (s.modTck h).tck = h s.tck := rfl
@[simp] theorem State.modTck_log (h : _ → _) (s : State) : (s.modTck h).log = s.log := rfl
@[simp] theorem State.modTck_sem (h : _ → _) (s : State) : (s.modTck h).sem = s.sem := rfl
@[simp] theorem State.modTck_flt (h : _ → _) (s : State) : (s.modTck h).flt = s.flt := rfl
@[simp] theorem State.modTck_grt (h : _ → _) (s : State) : (s.modTck h).grt = s.grt := rfl
@[simp] theorem State.modLog_pending (h : _ → _) (s : State) : (s.modLog h).pending = s.pending := rfl
@[simp] theorem State.modLog_now (h : _ → _) (s : State) : (s.modLog h).now = s.now := rfl
@[simp] theorem State.modLog_ptp (h : _ → _) (s : State) : (s.modLog h).ptp = s.ptp := rfl
@[simp] theorem State.modLog_freeCtr (h : _ → _) (s : State) : (s.modLog h).freeCtr = s.freeCtr := rfl
@[simp] theorem State.modLog_ras (h : _ → _) (s : State) : (s.modLog h).ras = s.ras := rfl
@[simp] theorem State.modLog_enc (h : _ → _) (s : State) : (s.modLog h).enc = s.enc := rfl
@[simp] theorem State.modLog_dec (h : _ → _) (s : State) : (s.modLog h).dec = s.dec := rfl
@[simp] theorem State.modLog_cmp (h : _ → _) (s : State) : (s.modLog h).cmp = s.cmp := rfl
@[simp] theorem State.modLog_out (h : _ → _) (s : State) : (s.modLog h).out = s.out := rfl
@[simp] theorem State.modLog_cores (h : _ → _) (s : State) : (s.modLog h).cores = s.cores := rfl
@[simp] theorem State.modLog_drm (h : _ → _) (s : State) : (s.modLog h).drm = s.drm := rfl
@[simp] theorem State.modLog_run (h : _ → _) (s : State) : (s.modLog h).run = s.run := rfl
@[simp] theorem State.modLog_hq (h : _ → _) (s : State) : (s.modLog h).hq = s.hq := rfl
@[simp] theorem State.modLog_txn (h : _ → _) (s : State) : (s.modLog h).txn = s.txn := rfl
@[simp] theorem State.modLog_blw (h : _ → _) (s : State) : (s.modLog h).blw = s.blw := rfl
@[simp] theorem State.modLog_fsh (h : _ → _) (s : State) : (s.modLog h).fsh = s.fsh := rfl
@[simp] theorem State.modLog_glb (h : _ → _) (s : State) : (s.modLog h).glb = s.glb := rfl
@[simp] theorem State.modLog_irc (h : _ → _) (s : State) : (s.modLog h).irc = s.irc := rfl
@[simp] theorem State.modLog_tck (h : _ → _) (s : State) : (s.modLog h).tck = s.tck := rfl
@[simp] theorem State.modLog_log (h : _ → _) (s : State) : (s.modLog h).log = h s.log := rfl
@[simp] theorem State.modLog_sem (h : _ → _) (s : State) : (s.modLog h).sem = s.sem := rfl
@[simp] theorem State.modLog_flt (h : _ → _) (s : State) : (s.modLog h).flt = s.flt := rfl
@[simp] theorem State.modLog_grt (h : _ → _) (s : State) : (s.modLog h).grt = s.grt := rfl
@[simp] theorem State.modSem_pending (h : _ → _) (s : State) : (s.modSem h).pending = s.pending := rfl
@[simp] theorem State.modSem_now (h : _ → _) (s : State) : (s.modSem h).now = s.now := rfl
@[simp] theorem State.modSem_ptp (h : _ → _) (s : State) : (s.modSem h).ptp = s.ptp := rfl
@[simp] theorem State.modSem_freeCtr (h : _ → _) (s : State) : (s.modSem h).freeCtr = s.freeCtr := rfl
@[simp] theorem State.modSem_ras (h : _ → _) (s : State) : (s.modSem h).ras = s.ras := rfl
@[simp] theorem State.modSem_enc (h : _ → _) (s : State) : (s.modSem h).enc = s.enc := rfl
@[simp] theorem State.modSem_dec (h : _ → _) (s : State) : (s.modSem h).dec = s.dec := rfl
@[simp] theorem State.modSem_cmp (h : _ → _) (s : State) : (s.modSem h).cmp = s.cmp := rfl
@[simp] theorem State.modSem_out (h : _ → _) (s : State) : (s.modSem h).out = s.out := rfl
@[simp] theorem State.modSem_cores (h : _ → _) (s : State) : (s.modSem h).cores = s.cores := rfl
@[simp] theorem State.modSem_drm (h : _ → _) (s : State) : (s.modSem h).drm = s.drm := rfl
@[simp] theorem State.modSem_run (h : _ → _) (s : State) : (s.modSem h).run = s.run := rfl
@[simp] theorem State.modSem_hq (h : _ → _) (s : State) : (s.modSem h).hq = s.hq := rfl
@[simp] theorem State.modSem_txn (h : _ → _) (s : State) : (s.modSem h).txn = s.txn := rfl
@[simp] theorem State.modSem_blw (h : _ → _) (s : State) : (s.modSem h).blw = s.blw := rfl
@[simp] theorem State.modSem_fsh (h : _ → _) (s : State) : (s.modSem h).fsh = s.fsh := rfl
@[simp] theorem State.modSem_glb (h : _ → _) (s : State) : (s.modSem h).glb = s.glb := rfl
@[simp] theorem State.modSem_irc (h : _ → _) (s : State) : (s.modSem h).irc = s.irc := rfl
@[simp] theorem State.modSem_tck (h : _ → _) (s : State) : (s.modSem h).tck = s.tck := rfl
@[simp] theorem State.modSem_log (h : _ → _) (s : State) : (s.modSem h).log = s.log := rfl
@[simp] theorem State.modSem_sem (h : _ → _) (s : State) : (s.modSem h).sem = h s.sem := rfl
@[simp] theorem State.modSem_flt (h : _ → _) (s : State) : (s.modSem h).flt = s.flt := rfl
@[simp] theorem State.modSem_grt (h : _ → _) (s : State) : (s.modSem h).grt = s.grt := rfl
@[simp] theorem State.modFlt_pending (h : _ → _) (s : State) : (s.modFlt h).pending = s.pending := rfl
@[simp] theorem State.modFlt_now (h : _ → _) (s : State) : (s.modFlt h).now = s.now := rfl
@[simp] theorem State.modFlt_ptp (h : _ → _) (s : State) : (s.modFlt h).ptp = s.ptp := rfl
@[simp] theorem State.modFlt_freeCtr (h : _ → _) (s : State) : (s.modFlt h).freeCtr = s.freeCtr := rfl
@[simp] theorem State.modFlt_ras (h : _ → _) (s : State) : (s.modFlt h).ras = s.ras := rfl
@[simp] theorem State.modFlt_enc (h : _ → _) (s : State) : (s.modFlt h).enc = s.enc := rfl
@[simp] theorem State.modFlt_dec (h : _ → _) (s : State) : (s.modFlt h).dec = s.dec := rfl
@[simp] theorem State.modFlt_cmp (h : _ → _) (s : State) : (s.modFlt h).cmp = s.cmp := rfl
@[simp] theorem State.modFlt_out (h : _ → _) (s : State) : (s.modFlt h).out = s.out := rfl
@[simp] theorem State.modFlt_cores (h : _ → _) (s : State) : (s.modFlt h).cores = s.cores := rfl
@[simp] theorem State.modFlt_drm (h : _ → _) (s : State) : (s.modFlt h).drm = s.drm := rfl
@[simp] theorem State.modFlt_run (h : _ → _) (s : State) : (s.modFlt h).run = s.run := rfl
@[simp] theorem State.modFlt_hq (h : _ → _) (s : State) : (s.modFlt h).hq = s.hq := rfl
@[simp] theorem State.modFlt_txn (h : _ → _) (s : State) : (s.modFlt h).txn = s.txn := rfl
@[simp] theorem State.modFlt_blw (h : _ → _) (s : State) : (s.modFlt h).blw = s.blw := rfl
@[simp] theorem State.modFlt_fsh (h : _ → _) (s : State) : (s.modFlt h).fsh = s.fsh := rfl
@[simp] theorem State.modFlt_glb (h : _ → _) (s : State) : (s.modFlt h).glb = s.glb := rfl
@[simp] theorem State.modFlt_irc (h : _ → _) (s : State) : (s.modFlt h).irc = s.irc := rfl
@[simp] theorem State.modFlt_tck (h : _ → _) (s : State) : (s.modFlt h).tck = s.tck := rfl
@[simp] theorem State.modFlt_log (h : _ → _) (s : State) : (s.modFlt h).log = s.log := rfl
@[simp] theorem State.modFlt_sem (h : _ → _) (s : State) : (s.modFlt h).sem = s.sem := rfl
@[simp] theorem State.modFlt_flt (h : _ → _) (s : State) : (s.modFlt h).flt = h s.flt := rfl
@[simp] theorem State.modFlt_grt (h : _ → _) (s : State) : (s.modFlt h).grt = s.grt := rfl
@[simp] theorem State.modGrt_pending (h : _ → _) (s : State) : (s.modGrt h).pending = s.pending := rfl
@[simp] theorem State.modGrt_now (h : _ → _) (s : State) : (s.modGrt h).now = s.now := rfl
@[simp] theorem State.modGrt_ptp (h : _ → _) (s : State) : (s.modGrt h).ptp = s.ptp := rfl
@[simp] theorem State.modGrt_freeCtr (h : _ → _) (s : State) : (s.modGrt h).freeCtr = s.freeCtr := rfl
@[simp] theorem State.modGrt_ras (h : _ → _) (s : State) : (s.modGrt h).ras = s.ras := rfl
@[simp] theorem State.modGrt_enc (h : _ → _) (s : State) : (s.modGrt h).enc = s.enc := rfl
@[simp] theorem State.modGrt_dec (h : _ → _) (s : State) : (s.modGrt h).dec = s.dec := rfl
@[simp] theorem State.modGrt_cmp (h : _ → _) (s : State) : (s.modGrt h).cmp = s.cmp := rfl
@[simp] theorem State.modGrt_out (h : _ → _) (s : State) : (s.modGrt h).out = s.out := rfl
@[simp] theorem State.modGrt_cores (h : _ → _) (s : State) : (s.modGrt h).cores = s.cores := rfl
@[simp] theorem State.modGrt_drm (h : _ → _) (s : State) : (s.modGrt h).drm = s.drm := rfl
@[simp] theorem State.modGrt_run (h : _ → _) (s : State) : (s.modGrt h).run = s.run := rfl
@[simp] theorem State.modGrt_hq (h : _ → _) (s : State) : (s.modGrt h).hq = s.hq := rfl
@[simp] theorem State.modGrt_txn (h : _ → _) (s : State) : (s.modGrt h).txn = s.txn := rfl
@[simp] theorem State.modGrt_blw (h : _ → _) (s : State) : (s.modGrt h).blw = s.blw := rfl
@[simp] theorem State.modGrt_fsh (h : _ → _) (s : State) : (s.modGrt h).fsh = s.fsh := rfl
@[simp] theorem State.modGrt_glb (h : _ → _) (s : State) : (s.modGrt h).glb = s.glb := rfl
@[simp] theorem State.modGrt_irc (h : _ → _) (s : State) : (s.modGrt h).irc = s.irc := rfl
@[simp] theorem State.modGrt_tck (h : _ → _) (s : State) : (s.modGrt h).tck = s.tck := rfl
@[simp] theorem State.modGrt_log (h : _ → _) (s : State) : (s.modGrt h).log = s.log := rfl
@[simp] theorem State.modGrt_sem (h : _ → _) (s : State) : (s.modGrt h).sem = s.sem := rfl
@[simp] theorem State.modGrt_flt (h : _ → _) (s : State) : (s.modGrt h).flt = s.flt := rfl
@[simp] theorem State.modGrt_grt (h : _ → _) (s : State) : (s.modGrt h).grt = h s.grt := rfl

end Sys2Proof.Machine
end

