-- ==== Sys2Proof/Laws/Reads.lean ====
section
/-! SUPPORT. Reading a numbered thing after its update, and the effects of the shared operations on interrupt latches and
events. -/

namespace Sys2Proof

variable {α : Type}

theorem Tbl.drop_insertAt (t : Tbl α) (i : Nat) (v : α) : (t.insertAt i v).drop i = t.drop i := by
  induction t with
  | nil => simp [Tbl.insertAt, Tbl.drop]
  | cons p r ih =>
    simp only [Tbl.insertAt]
    split
    · simp [Tbl.drop]
    · simp only [Tbl.drop, List.filter_cons] at ih ⊢
      rw [ih]

theorem Tbl.put_put [DecidableEq α] (t : Tbl α) (d : α) (i : Nat) (v w : α) : (t.put d i v).put d i w = t.put d i w := by
  have : (t.put d i v).drop i = t.drop i := by
    unfold Tbl.put
    split
    · simp [Tbl.drop]
    · rw [Tbl.drop_insertAt]
      simp [Tbl.drop]
  unfold Tbl.put at this ⊢
  rw [this]

/-- Two updates of one entry are one update. -/
theorem Tbl.upd_upd [DecidableEq α] (t : Tbl α) (d : α) (i : Nat) (f g : α → α) :
    (t.upd d i f).upd d i g = t.upd d i (fun x => g (f x)) := by
  simp only [Tbl.upd, Tbl.look_put_same, Tbl.put_put]

end Sys2Proof

namespace Sys2Proof.Machine

variable (s : State)

@[simp] theorem State.modRaster_same (k : Nat) (f : Raster → Raster) : (s.modRaster k f).raster k = f (s.raster k) := by
  simp [State.modRaster, State.raster]

theorem State.modRaster_other {k j : Nat} (f : Raster → Raster) (h : k ≠ j) : (s.modRaster k f).raster j = s.raster j := by
  simp [State.modRaster, State.raster, Tbl.look_upd_other, h]

@[simp] theorem State.modLineEvent_same (k : Nat) (f : LineEvent → LineEvent) : (s.modLineEvent k f).lineEvent k = f (s.lineEvent k) := by
  simp [State.modLineEvent, State.lineEvent]

theorem State.modLineEvent_other {k j : Nat} (f : LineEvent → LineEvent) (h : k ≠ j) : (s.modLineEvent k f).lineEvent j = s.lineEvent j := by
  simp [State.modLineEvent, State.lineEvent, Tbl.look_upd_other, h]

@[simp] theorem State.modEncS_same (k : Nat) (f : EncStream → EncStream) : (s.modEncS k f).encS k = f (s.encS k) := by
  simp [State.modEncS, State.encS]

theorem State.modEncS_other {k j : Nat} (f : EncStream → EncStream) (h : k ≠ j) : (s.modEncS k f).encS j = s.encS j := by
  simp [State.modEncS, State.encS, Tbl.look_upd_other, h]

@[simp] theorem State.modDecS_same (k : Nat) (f : DecStream → DecStream) : (s.modDecS k f).decS k = f (s.decS k) := by
  simp [State.modDecS, State.decS]

theorem State.modDecS_other {k j : Nat} (f : DecStream → DecStream) (h : k ≠ j) : (s.modDecS k f).decS j = s.decS j := by
  simp [State.modDecS, State.decS, Tbl.look_upd_other, h]

@[simp] theorem State.modWindow_same (k : Nat) (f : Window → Window) : (s.modWindow k f).window k = f (s.window k) := by
  simp [State.modWindow, State.window]

theorem State.modWindow_other {k j : Nat} (f : Window → Window) (h : k ≠ j) : (s.modWindow k f).window j = s.window j := by
  simp [State.modWindow, State.window, Tbl.look_upd_other, h]

@[simp] theorem State.modDpo_same (k : Nat) (f : DpoPort → DpoPort) : (s.modDpo k f).dpo k = f (s.dpo k) := by
  simp [State.modDpo, State.dpo]

theorem State.modDpo_other {k j : Nat} (f : DpoPort → DpoPort) (h : k ≠ j) : (s.modDpo k f).dpo j = s.dpo j := by
  simp [State.modDpo, State.dpo, Tbl.look_upd_other, h]

@[simp] theorem State.modDpi_same (k : Nat) (f : DpiPort → DpiPort) : (s.modDpi k f).dpi k = f (s.dpi k) := by
  simp [State.modDpi, State.dpi]

theorem State.modDpi_other {k j : Nat} (f : DpiPort → DpiPort) (h : k ≠ j) : (s.modDpi k f).dpi j = s.dpi j := by
  simp [State.modDpi, State.dpi, Tbl.look_upd_other, h]

@[simp] theorem State.modOutP_same (k : Nat) (f : OutPort → OutPort) : (s.modOutP k f).outP k = f (s.outP k) := by
  simp [State.modOutP, State.outP]

theorem State.modOutP_other {k j : Nat} (f : OutPort → OutPort) (h : k ≠ j) : (s.modOutP k f).outP j = s.outP j := by
  simp [State.modOutP, State.outP, Tbl.look_upd_other, h]

@[simp] theorem State.modCore_same (k : Nat) (f : CoreS → CoreS) : (s.modCore k f).core k = f (s.core k) := by
  simp [State.modCore, State.core]

theorem State.modCore_other {k j : Nat} (f : CoreS → CoreS) (h : k ≠ j) : (s.modCore k f).core j = s.core j := by
  simp [State.modCore, State.core, Tbl.look_upd_other, h]

@[simp] theorem State.modChan_same (k : Nat) (f : Chan → Chan) : (s.modChan k f).chan k = f (s.chan k) := by
  simp [State.modChan, State.chan]

theorem State.modChan_other {k j : Nat} (f : Chan → Chan) (h : k ≠ j) : (s.modChan k f).chan j = s.chan j := by
  simp [State.modChan, State.chan, Tbl.look_upd_other, h]

@[simp] theorem State.modPoolD_same (k : Nat) (f : PoolDesc → PoolDesc) : (s.modPoolD k f).poolD k = f (s.poolD k) := by
  simp [State.modPoolD, State.poolD]

theorem State.modPoolD_other {k j : Nat} (f : PoolDesc → PoolDesc) (h : k ≠ j) : (s.modPoolD k f).poolD j = s.poolD j := by
  simp [State.modPoolD, State.poolD, Tbl.look_upd_other, h]

@[simp] theorem State.modEth_same (k : Nat) (f : EthPort → EthPort) : (s.modEth k f).eth k = f (s.eth k) := by
  simp [State.modEth, State.eth]

theorem State.modEth_other {k j : Nat} (f : EthPort → EthPort) (h : k ≠ j) : (s.modEth k f).eth j = s.eth j := by
  simp [State.modEth, State.eth, Tbl.look_upd_other, h]

@[simp] theorem State.modRule_same (k : Nat) (f : Rule → Rule) : (s.modRule k f).rule k = f (s.rule k) := by
  simp [State.modRule, State.rule]

theorem State.modRule_other {k j : Nat} (f : Rule → Rule) (h : k ≠ j) : (s.modRule k f).rule j = s.rule j := by
  simp [State.modRule, State.rule, Tbl.look_upd_other, h]

@[simp] theorem State.modFlow_same (k : Nat) (f : Flow → Flow) : (s.modFlow k f).flow k = f (s.flow k) := by
  simp [State.modFlow, State.flow]

theorem State.modFlow_other {k j : Nat} (f : Flow → Flow) (h : k ≠ j) : (s.modFlow k f).flow j = s.flow j := by
  simp [State.modFlow, State.flow, Tbl.look_upd_other, h]

@[simp] theorem State.modLadle_same (k : Nat) (f : LdlPool → LdlPool) : (s.modLadle k f).ladle k = f (s.ladle k) := by
  simp [State.modLadle, State.ladle]

theorem State.modLadle_other {k j : Nat} (f : LdlPool → LdlPool) (h : k ≠ j) : (s.modLadle k f).ladle j = s.ladle j := by
  simp [State.modLadle, State.ladle, Tbl.look_upd_other, h]

@[simp] theorem State.modHqQ_same (k : Nat) (f : HqQueue → HqQueue) : (s.modHqQ k f).hqQ k = f (s.hqQ k) := by
  simp [State.modHqQ, State.hqQ]

theorem State.modHqQ_other {k j : Nat} (f : HqQueue → HqQueue) (h : k ≠ j) : (s.modHqQ k f).hqQ j = s.hqQ j := by
  simp [State.modHqQ, State.hqQ, Tbl.look_upd_other, h]

@[simp] theorem State.modTrans_same (k : Nat) (f : Txn → Txn) : (s.modTrans k f).trans k = f (s.trans k) := by
  simp [State.modTrans, State.trans]

theorem State.modTrans_other {k j : Nat} (f : Txn → Txn) (h : k ≠ j) : (s.modTrans k f).trans j = s.trans j := by
  simp [State.modTrans, State.trans, Tbl.look_upd_other, h]

@[simp] theorem State.modPart_same (k : Nat) (f : Part → Part) : (s.modPart k f).part k = f (s.part k) := by
  simp [State.modPart, State.part]

theorem State.modPart_other {k j : Nat} (f : Part → Part) (h : k ≠ j) : (s.modPart k f).part j = s.part j := by
  simp [State.modPart, State.part, Tbl.look_upd_other, h]

@[simp] theorem State.modRail_same (k : Nat) (f : Rail → Rail) : (s.modRail k f).rail k = f (s.rail k) := by
  simp [State.modRail, State.rail]

@[simp] theorem State.modBay_same (k : Nat) (f : Bay → Bay) : (s.modBay k f).bay k = f (s.bay k) := by
  simp [State.modBay, State.bay]

theorem State.modBay_other {k j : Nat} (f : Bay → Bay) (h : k ≠ j) : (s.modBay k f).bay j = s.bay j := by
  simp [State.modBay, State.bay, Tbl.look_upd_other, h]

@[simp] theorem State.modIrcSrc_same (k : Nat) (f : IrcSrc → IrcSrc) : (s.modIrcSrc k f).ircSrc k = f (s.ircSrc k) := by
  simp [State.modIrcSrc, State.ircSrc]

@[simp] theorem State.modDma_same (k : Nat) (f : DmaCh → DmaCh) : (s.modDma k f).dma k = f (s.dma k) := by
  simp [State.modDma, State.dma]

theorem State.modDma_other {k j : Nat} (f : DmaCh → DmaCh) (h : k ≠ j) : (s.modDma k f).dma j = s.dma j := by
  simp [State.modDma, State.dma, Tbl.look_upd_other, h]

@[simp] theorem State.modTimer_same (k : Nat) (f : Timer → Timer) : (s.modTimer k f).timer k = f (s.timer k) := by
  simp [State.modTimer, State.timer]

theorem State.modTimer_other {k j : Nat} (f : Timer → Timer) (h : k ≠ j) : (s.modTimer k f).timer j = s.timer j := by
  simp [State.modTimer, State.timer, Tbl.look_upd_other, h]

@[simp] theorem State.modSemS_same (k : Nat) (f : Sem → Sem) : (s.modSemS k f).semS k = f (s.semS k) := by
  simp [State.modSemS, State.semS]

theorem State.modSemS_other {k j : Nat} (f : Sem → Sem) (h : k ≠ j) : (s.modSemS k f).semS j = s.semS j := by
  simp [State.modSemS, State.semS, Tbl.look_upd_other, h]

@[simp] theorem State.modPRail_same (k : Nat) (f : PRail → PRail) : (s.modPRail k f).pRail k = f (s.pRail k) := by
  simp [State.modPRail, State.pRail]

theorem State.modPRail_other {k j : Nat} (f : PRail → PRail) (h : k ≠ j) : (s.modPRail k f).pRail j = s.pRail j := by
  simp [State.modPRail, State.pRail, Tbl.look_upd_other, h]

@[simp] theorem State.modFltSrc_same (k : Nat) (f : FltSrc → FltSrc) : (s.modFltSrc k f).fltSrc k = f (s.fltSrc k) := by
  simp [State.modFltSrc, State.fltSrc]

theorem State.modFltSrc_other {k j : Nat} (f : FltSrc → FltSrc) (h : k ≠ j) : (s.modFltSrc k f).fltSrc j = s.fltSrc j := by
  simp [State.modFltSrc, State.fltSrc, Tbl.look_upd_other, h]

/-! Interrupt latches and events. -/

theorem State.latch_mem (n : Nat) : n ∈ (s.latch n).irc.latch := by
  by_cases h : n ∈ s.irc.latch <;> simp [State.latch, h]

theorem State.latch_mem_of {m : Nat} (n : Nat) (h : m ∈ s.irc.latch) : m ∈ (s.latch n).irc.latch := by
  by_cases g : n ∈ s.irc.latch <;> simp [State.latch, g, h]

@[simp] theorem State.raise_irc (id : EventId) (xs : List Item) : (s.raise id xs).irc = s.irc := rfl

end Sys2Proof.Machine
end

