-- ==== Sys2Proof/Laws/TackDma.lean ====
section
/-! SUPPORT. What each operation of TackDma keeps. -/

namespace Sys2Proof.Machine

set_option linter.unreachableTactic false
set_option linter.unusedTactic false

variable {P : State → Prop} {s : State}

theorem State.busWrite_keeps (u : Keeps [.freeCtr, .ras, .enc, .dec, .cmp, .out, .cores, .drm, .run, .hq, .txn, .blw, .fsh, .glb, .irc, .tck, .log, .sem, .flt, .grt] P) {a0 : Nat} {a1 : Sys2Proof.Word} (k : P s) : P (State.busWrite a0 a1 s) := by
  unfold State.busWrite
  repeat' (first
    | with_reducible assumption
    | (with_reducible refine u.mono ?_; decide)
    | (intro _ h; exact h)
    | (intro h; exact h)
    | (intro _; rfl)
    | (with_reducible refine State.writeAddr_keeps ?_ ?_)
    | (with_reducible refine State.writeAddr_keeps_of ?_ ?_ (by assumption))
    | (with_reducible refine State.busStore_keeps ?_ ?_)
    | (with_reducible refine ite_keeps ?_ ?_)
    | split
    | dsimp only [id])

theorem State.copyWord_keeps (u : Keeps [.freeCtr, .ras, .enc, .dec, .cmp, .out, .cores, .drm, .run, .hq, .txn, .blw, .fsh, .glb, .irc, .tck, .log, .sem, .flt, .grt] P) {a0 : Nat} {a1 : Nat} (k : P s) : P (State.copyWord a0 a1 s).1 := by
  unfold State.copyWord
  repeat' (first
    | with_reducible assumption
    | (with_reducible refine u.mono ?_; decide)
    | (intro _ h; exact h)
    | (intro h; exact h)
    | (intro _; rfl)
    | (with_reducible refine State.busRead_keeps ?_ ?_)
    | (with_reducible refine State.busRead_keeps_of ?_ ?_ (by assumption))
    | (with_reducible refine State.busWrite_keeps ?_ ?_)
    | (with_reducible refine ite_keeps ?_ ?_)
    | split
    | dsimp only [id])
theorem State.copyWord_keeps_of (u : Keeps [.freeCtr, .ras, .enc, .dec, .cmp, .out, .cores, .drm, .run, .hq, .txn, .blw, .fsh, .glb, .irc, .tck, .log, .sem, .flt, .grt] P) {a0 : Nat} {a1 : Nat} {t r} (k : P s) (e : State.copyWord a0 a1 s = (t, r)) : P t := by
  have h := State.copyWord_keeps (P := P) u (a0 := a0) (a1 := a1) k
  rw [e] at h
  exact h

theorem State.copyWords_keeps (u : Keeps [.freeCtr, .ras, .enc, .dec, .cmp, .out, .cores, .drm, .run, .hq, .txn, .blw, .fsh, .glb, .irc, .tck, .log, .sem, .flt, .grt] P) {a0 a1 a2 : Nat} (k : P s) : P (State.copyWords a0 a1 a2 s).1 := by
  induction a2 generalizing s with
  | zero => exact k
  | succ n ih =>
    have h := ih k
    unfold State.copyWords
    split
    · rename_i e
      rw [e] at h
      exact h
    · rename_i e
      rw [e] at h
      have g := State.copyWord_keeps (P := P) (a0 := a0 + 4 * n) (a1 := a1 + 4 * n) (u.mono (by decide)) h
      split
      · rename_i e'
        rw [e'] at g
        exact g
      · rename_i e'
        rw [e'] at g
        exact g
theorem State.copyWords_keeps_of (u : Keeps [.freeCtr, .ras, .enc, .dec, .cmp, .out, .cores, .drm, .run, .hq, .txn, .blw, .fsh, .glb, .irc, .tck, .log, .sem, .flt, .grt] P) {a0 a1 a2 : Nat} {t r} (k : P s) (e : State.copyWords a0 a1 a2 s = (t, r)) : P t := by
  have h := State.copyWords_keeps (P := P) u (a0 := a0) (a1 := a1) (a2 := a2) k
  rw [e] at h
  exact h

theorem State.dmaEnd_keeps (u : Keeps [.tck] P) {a0 : Nat} (k : P s) : P (State.dmaEnd a0 s) := by
  unfold State.dmaEnd
  repeat' (first
    | with_reducible assumption
    | (with_reducible refine u.mono ?_; decide)
    | (intro _ h; exact h)
    | (intro h; exact h)
    | (intro _; rfl)
    | (with_reducible refine State.dmaStartAll_keeps ?_ ?_)
    | (with_reducible refine State.modDma_keeps ?_ ?_)
    | (with_reducible refine ite_keeps ?_ ?_)
    | split
    | dsimp only [id])

theorem State.dmaStop_keeps (u : Keeps [.tck, .log] P) {a0 : Nat} {a1 : Nat} (k : P s) : P (State.dmaStop a0 a1 s) := by
  unfold State.dmaStop
  repeat' (first
    | with_reducible assumption
    | (with_reducible refine u.mono ?_; decide)
    | (intro _ h; exact h)
    | (intro h; exact h)
    | (intro _; rfl)
    | (with_reducible refine State.each_keeps (fun _ _ _ => ?_) ?_)
    | (with_reducible refine State.modDma_keeps ?_ ?_)
    | (with_reducible refine State.limited_keeps ?_ (fun _ _ => ?_) ?_)
    | (with_reducible refine State.raise_keeps ?_ ?_)
    | (with_reducible refine ite_keeps ?_ ?_)
    | split
    | dsimp only [id])

theorem execDmaComplete_keeps (u : Keeps [.freeCtr, .ras, .enc, .dec, .cmp, .out, .cores, .drm, .run, .hq, .txn, .blw, .fsh, .glb, .irc, .tck, .log, .sem, .flt, .grt] P) (k : P s) : ∀ t, execDmaComplete s = .next t → P t := by
  intro t e
  injection e with e
  rw [← e]
  clear e
  repeat' (first
    | with_reducible assumption
    | (with_reducible refine u.mono ?_; decide)
    | (intro _ h; exact h)
    | (intro h; exact h)
    | (intro _; rfl)
    | (with_reducible refine nextOr_keeps (ok_keeps ?_) ?_)
    | (with_reducible refine State.copyWords_keeps ?_ ?_)
    | (with_reducible refine State.copyWords_keeps_of ?_ ?_ (by assumption))
    | (with_reducible refine State.wakeRise_keeps ?_ ?_)
    | (with_reducible refine State.dmaEnd_keeps ?_ ?_)
    | (with_reducible refine State.dmaStop_keeps ?_ ?_)
    | (with_reducible refine State.modDma_keeps ?_ ?_)
    | (with_reducible refine ite_keeps ?_ ?_)
    | split
    | dsimp only [id])

theorem execDmaBusError_keeps (u : Keeps [.freeCtr, .ras, .enc, .dec, .cmp, .out, .cores, .drm, .run, .hq, .txn, .blw, .fsh, .glb, .irc, .tck, .log, .sem, .flt, .grt] P) {a0 : Nat} {a1 : Sys2Proof.Word} (k : P s) : ∀ t, execDmaBusError a0 a1 s = .next t → P t := by
  intro t e
  injection e with e
  rw [← e]
  clear e
  repeat' (first
    | with_reducible assumption
    | (with_reducible refine u.mono ?_; decide)
    | (intro _ h; exact h)
    | (intro h; exact h)
    | (intro _; rfl)
    | (with_reducible refine nextOr_keeps (ok_keeps ?_) ?_)
    | (with_reducible refine State.copyWords_keeps ?_ ?_)
    | (with_reducible refine State.copyWords_keeps_of ?_ ?_ (by assumption))
    | (with_reducible refine State.dmaStop_keeps ?_ ?_)
    | (with_reducible refine State.modDma_keeps ?_ ?_)
    | (with_reducible refine ite_keeps ?_ ?_)
    | split
    | dsimp only [id])

theorem execDmaDisable_keeps (u : Keeps [.freeCtr, .cmp, .drm, .run, .blw, .glb, .irc, .tck, .log, .sem, .flt] P) {a0 : Nat} (k : P s) : ∀ t, execDmaDisable a0 s = .next t → P t := by
  intro t e
  injection e with e
  rw [← e]
  clear e
  repeat' (first
    | with_reducible assumption
    | (with_reducible refine u.mono ?_; decide)
    | (intro _ h; exact h)
    | (intro h; exact h)
    | (intro _; rfl)
    | (with_reducible refine nextOr_keeps (ok_keeps ?_) ?_)
    | (with_reducible refine State.dmaArbitrate_keeps ?_ ?_)
    | (with_reducible refine State.stopChannel_keeps ?_ ?_)
    | (with_reducible refine ite_keeps ?_ ?_)
    | split
    | dsimp only [id])

theorem execDmaEnable_keeps (u : Keeps [.tck] P) {a0 : Nat} (k : P s) : ∀ t, execDmaEnable a0 s = .next t → P t := by
  intro t e
  injection e with e
  rw [← e]
  clear e
  repeat' (first
    | with_reducible assumption
    | (with_reducible refine u.mono ?_; decide)
    | (intro _ h; exact h)
    | (intro h; exact h)
    | (intro _; rfl)
    | (with_reducible refine nextOr_keeps (ok_keeps ?_) ?_)
    | (with_reducible refine State.modDma_keeps ?_ ?_)
    | (with_reducible refine ite_keeps ?_ ?_)
    | split
    | dsimp only [id])

end Sys2Proof.Machine
end

