-- ==== Sys2Proof/Laws/Step.lean ====
section
/-! SUPPORT. What every command and every step keeps. -/

namespace Sys2Proof.Machine

variable {P : State → Prop} {s : State}

/-- The components of the state but for the queue. -/
def allComps : List Comp :=
  [.now, .ptp, .freeCtr, .ras, .enc, .dec, .cmp, .out, .cores, .drm, .run, .hq, .txn, .blw, .fsh, .glb, .irc, .tck, .log, .sem, .flt, .grt]

/-- What is closed under the updates of every component is kept by every command. -/
theorem exec_keeps (u : Keeps allComps P) {c : Sys2Proof.Instr} {t : State} (k : P s) (e : exec c s = .next t) : P t := by
  cases c
  case syncMessage => exact execSyncMessage_keeps (u.mono (by decide)) k t e
  case grandmasterAccepted => exact execGrandmasterAccepted_keeps (u.mono (by decide)) k t e
  case announceTimeout => exact execAnnounceTimeout_keeps (u.mono (by decide)) k t e
  case holdoverLimit => exact execHoldoverLimit_keeps (u.mono (by decide)) k t e
  case lineStart => exact execLineStart_keeps (u.mono (by decide)) k t e
  case lineEventArm => exact execLineEventArm_keeps (u.mono (by decide)) k t e
  case lineEventDisarm => exact execLineEventDisarm_keeps (u.mono (by decide)) k t e
  case inputFrameStart => exact execInputFrameStart_keeps (u.mono (by decide)) k t e
  case inputSignalTimeout => exact execInputSignalTimeout_keeps (u.mono (by decide)) k t e
  case rasterRealign => exact execRasterRealign_keeps (u.mono (by decide)) k t e
  case rasterRetimed => exact execRasterRetimed_keeps (u.mono (by decide)) k t e
  case retimingEnd => exact execRetimingEnd_keeps (u.mono (by decide)) k t e
  case encodeSelfRelease => exact execEncodeSelfRelease_keeps (u.mono (by decide)) k t e
  case encodeRowIssue => exact execEncodeRowIssue_keeps (u.mono (by decide)) k t e
  case encodeRowComplete => exact execEncodeRowComplete_keeps (u.mono (by decide)) k t e
  case hostfedFrameStart => exact execHostfedFrameStart_keeps (u.mono (by decide)) k t e
  case sliceHeaderParse => exact execSliceHeaderParse_keeps (u.mono (by decide)) k t e
  case paramSetReceived => exact execParamSetReceived_keeps (u.mono (by decide)) k t e
  case ledgerSegment => exact execLedgerSegment_keeps (u.mono (by decide)) k t e
  case accessUnitEnd => exact execAccessUnitEnd_keeps (u.mono (by decide)) k t e
  case decodeTaskIssue => exact execDecodeTaskIssue_keeps (u.mono (by decide)) k t e
  case decodeRowComplete => exact execDecodeRowComplete_keeps (u.mono (by decide)) k t e
  case checkTaskComplete => exact execCheckTaskComplete_keeps (u.mono (by decide)) k t e
  case decodeRowLate => exact execDecodeRowLate_keeps (u.mono (by decide)) k t e
  case decodeSkipped => exact execDecodeSkipped_keeps (u.mono (by decide)) k t e
  case streamStart => exact execStreamStart_keeps (u.mono (by decide)) k t e
  case streamRejoin => exact execStreamRejoin_keeps (u.mono (by decide)) k t e
  case outputLineFetch => exact execOutputLineFetch_keeps (u.mono (by decide)) k t e
  case cmpLineLate => exact execCmpLineLate_keeps (u.mono (by decide)) k t e
  case tileStateVisit => exact execTileStateVisit_keeps (u.mono (by decide)) k t e
  case tileStateFill => exact execTileStateFill_keeps (u.mono (by decide)) k t e
  case dpLinkTrain => exact execDpLinkTrain_keeps (u.mono (by decide)) k t e
  case dpHpdIrq => exact execDpHpdIrq_keeps (u.mono (by decide)) k t e
  case dpSinkLinkTrain => exact execDpSinkLinkTrain_keeps (u.mono (by decide)) k t e
  case dpHpdPulseEnd => exact execDpHpdPulseEnd_keeps (u.mono (by decide)) k t e
  case microwordIssue => exact execMicrowordIssue_keeps (u.mono (by decide)) k t e
  case fillDone => exact execFillDone_keeps (u.mono (by decide)) k t e
  case drainDone => exact execDrainDone_keeps (u.mono (by decide)) k t e
  case bankReloadDone => exact execBankReloadDone_keeps (u.mono (by decide)) k t e
  case unitDone => exact execUnitDone_keeps (u.mono (by decide)) k t e
  case externalEvent => exact execExternalEvent_keeps (u.mono (by decide)) k t e
  case deadlock => exact execDeadlock_keeps (u.mono (by decide)) k t e
  case coreC1Entry => exact execCoreC1Entry_keeps (u.mono (by decide)) k t e
  case corePowerDown => exact execCorePowerDown_keeps (u.mono (by decide)) k t e
  case coreWake => exact execCoreWake_keeps (u.mono (by decide)) k t e
  case coreWakeDone => exact execCoreWakeDone_keeps (u.mono (by decide)) k t e
  case ptnSwap => exact execPtnSwap_keeps (u.mono (by decide)) k t e
  case coreDrained => exact execCoreDrained_keeps (u.mono (by decide)) k t e
  case patternStoreWrite => exact execPatternStoreWrite_keeps (u.mono (by decide)) k t e
  case corFaultClear => exact execCorFaultClear_keeps (u.mono (by decide)) k t e
  case dramRead => exact execDramRead_keeps (u.mono (by decide)) k t e
  case dramWrite => exact execDramWrite_keeps (u.mono (by decide)) k t e
  case narrowWrite => exact execNarrowWrite_keeps (u.mono (by decide)) k t e
  case mergeFlush => exact execMergeFlush_keeps (u.mono (by decide)) k t e
  case refresh => exact execRefresh_keeps (u.mono (by decide)) k t e
  case mr4Poll => exact execMr4Poll_keeps (u.mono (by decide)) k t e
  case rankPowerDown => exact execRankPowerDown_keeps (u.mono (by decide)) k t e
  case dramTraining => exact execDramTraining_keeps (u.mono (by decide)) k t e
  case calibrationSliver => exact execCalibrationSliver_keeps (u.mono (by decide)) k t e
  case hardwareFill => exact execHardwareFill_keeps (u.mono (by decide)) k t e
  case scrubLine => exact execScrubLine_keeps (u.mono (by decide)) k t e
  case dramScrubUrgent => exact execDramScrubUrgent_keeps (u.mono (by decide)) k t e
  case drmErrqRetire => exact execDrmErrqRetire_keeps (u.mono (by decide)) k t e
  case dramPageRetired => exact execDramPageRetired_keeps (u.mono (by decide)) k t e
  case dramChannelFenced => exact execDramChannelFenced_keeps (u.mono (by decide)) k t e
  case remapFill => exact execRemapFill_keeps (u.mono (by decide)) k t e
  case frameReceived => exact execFrameReceived_keeps (u.mono (by decide)) k t e
  case pauseReceived => exact execPauseReceived_keeps (u.mono (by decide)) k t e
  case pauseTimerExpiry => exact execPauseTimerExpiry_keeps (u.mono (by decide)) k t e
  case portStalled => exact execPortStalled_keeps (u.mono (by decide)) k t e
  case portStallCleared => exact execPortStallCleared_keeps (u.mono (by decide)) k t e
  case packetSwitch => exact execPacketSwitch_keeps (u.mono (by decide)) k t e
  case stitcherPacket => exact execStitcherPacket_keeps (u.mono (by decide)) k t e
  case stitchHoldExpiry => exact execStitchHoldExpiry_keeps (u.mono (by decide)) k t e
  case stitchPath => exact execStitchPath_keeps (u.mono (by decide)) k t e
  case runqUnread => exact execRunqUnread_keeps (u.mono (by decide)) k t e
  case pfcRefresh => exact execPfcRefresh_keeps (u.mono (by decide)) k t e
  case egressSelect => exact execEgressSelect_keeps (u.mono (by decide)) k t e
  case statsInterval => exact execStatsInterval_keeps (u.mono (by decide)) k t e
  case ethLinkChange => exact execEthLinkChange_keeps (u.mono (by decide)) k t e
  case quenchPin => exact execQuenchPin_keeps (u.mono (by decide)) k t e
  case hqDoorbell => exact execHqDoorbell_keeps (u.mono (by decide)) k t e
  case queuePoll => exact execQueuePoll_keeps (u.mono (by decide)) k t e
  case commandFetch => exact execCommandFetch_keeps (u.mono (by decide)) k t e
  case commandComplete => exact execCommandComplete_keeps (u.mono (by decide)) k t e
  case createQueue => exact execCreateQueue_keeps (u.mono (by decide)) k t e
  case deleteQueue => exact execDeleteQueue_keeps (u.mono (by decide)) k t e
  case identify => exact execIdentify_keeps (u.mono (by decide)) k t e
  case getLog => exact execGetLog_keeps (u.mono (by decide)) k t e
  case setEvents => exact execSetEvents_keeps (u.mono (by decide)) k t e
  case regRead => exact execRegRead_keeps (u.mono (by decide)) k t e
  case regWrite => exact execRegWrite_keeps (u.mono (by decide)) k t e
  case txnBegin => exact execTxnBegin_keeps (u.mono (by decide)) k t e
  case txnCommit => exact execTxnCommit_keeps (u.mono (by decide)) k t e
  case txnAbort => exact execTxnAbort_keeps (u.mono (by decide)) k t e
  case streamQuench => exact execStreamQuench_keeps (u.mono (by decide)) k t e
  case streamUnquench => exact execStreamUnquench_keeps (u.mono (by decide)) k t e
  case sweepRestart => exact execSweepRestart_keeps (u.mono (by decide)) k t e
  case outputSet => exact execOutputSet_keeps (u.mono (by decide)) k t e
  case imageWrite => exact execImageWrite_keeps (u.mono (by decide)) k t e
  case patch => exact execPatch_keeps (u.mono (by decide)) k t e
  case ctxRead => exact execCtxRead_keeps (u.mono (by decide)) k t e
  case encPost => exact execEncPost_keeps (u.mono (by decide)) k t e
  case decPost => exact execDecPost_keeps (u.mono (by decide)) k t e
  case hostDmaDone => exact execHostDmaDone_keeps (u.mono (by decide)) k t e
  case frameRead => exact execFrameRead_keeps (u.mono (by decide)) k t e
  case ledgerRead => exact execLedgerRead_keeps (u.mono (by decide)) k t e
  case pagePost => exact execPagePost_keeps (u.mono (by decide)) k t e
  case pageFlushTimeout => exact execPageFlushTimeout_keeps (u.mono (by decide)) k t e
  case functionLevelReset => exact execFunctionLevelReset_keeps (u.mono (by decide)) k t e
  case supervisoryMessage => exact execSupervisoryMessage_keeps (u.mono (by decide)) k t e
  case admission => exact execAdmission_keeps (u.mono (by decide)) k t e
  case starvationStep => exact execStarvationStep_keeps (u.mono (by decide)) k t e
  case urgentCapWindow => exact execUrgentCapWindow_keeps (u.mono (by decide)) k t e
  case bellowsRequest => exact execBellowsRequest_keeps (u.mono (by decide)) k t e
  case bellowsGrant => exact execBellowsGrant_keeps (u.mono (by decide)) k t e
  case bellowsRelease => exact execBellowsRelease_keeps (u.mono (by decide)) k t e
  case bellowsDeny => exact execBellowsDeny_keeps (u.mono (by decide)) k t e
  case blwSlow => exact execBlwSlow_keeps (u.mono (by decide)) k t e
  case resetRelease => exact execResetRelease_keeps (u.mono (by decide)) k t e
  case resetAssert => exact execResetAssert_keeps (u.mono (by decide)) k t e
  case powerOnReset => exact execPowerOnReset_keeps (u.mono (by decide)) k t e
  case imageLoad => exact execImageLoad_keeps (u.mono (by decide)) k t e
  case signatureCheck => exact execSignatureCheck_keeps (u.mono (by decide)) k t e
  case identity => exact execIdentity_keeps (u.mono (by decide)) k t e
  case platform => exact execPlatform_keeps (u.mono (by decide)) k t e
  case tackFw => exact execTackFw_keeps (u.mono (by decide)) k t e
  case keys => exact execKeys_keeps (u.mono (by decide)) k t e
  case pattern => exact execPattern_keeps (u.mono (by decide)) k t e
  case mapWrite => exact execMapWrite_keeps (u.mono (by decide)) k t e
  case budget => exact execBudget_keeps (u.mono (by decide)) k t e
  case endRecord => exact execEndRecord_keeps (u.mono (by decide)) k t e
  case loadDone => exact execLoadDone_keeps (u.mono (by decide)) k t e
  case trainEnd => exact execTrainEnd_keeps (u.mono (by decide)) k t e
  case twinWaitExpiry => exact execTwinWaitExpiry_keeps (u.mono (by decide)) k t e
  case adoptConfirm => exact execAdoptConfirm_keeps (u.mono (by decide)) k t e
  case deviceAdopted => exact execDeviceAdopted_keeps (u.mono (by decide)) k t e
  case reqRest => exact execReqRest_keeps (u.mono (by decide)) k t e
  case reqWake => exact execReqWake_keeps (u.mono (by decide)) k t e
  case reqDemote => exact execReqDemote_keeps (u.mono (by decide)) k t e
  case wakePin => exact execWakePin_keeps (u.mono (by decide)) k t e
  case restExitDone => exact execRestExitDone_keeps (u.mono (by decide)) k t e
  case tackFwReady => exact execTackFwReady_keeps (u.mono (by decide)) k t e
  case patchFailed => exact execPatchFailed_keeps (u.mono (by decide)) k t e
  case otpFuseBlow => exact execOtpFuseBlow_keeps (u.mono (by decide)) k t e
  case flashOpDone => exact execFlashOpDone_keeps (u.mono (by decide)) k t e
  case pwrHoldChange => exact execPwrHoldChange_keeps (u.mono (by decide)) k t e
  case flashPowerWait => exact execFlashPowerWait_keeps (u.mono (by decide)) k t e
  case ircClaim => exact execIrcClaim_keeps (u.mono (by decide)) k t e
  case ircEoi => exact execIrcEoi_keeps (a0 := 0) (u.mono (by decide)) k t e
  case ircBlkAck => exact execIrcBlkAck_keeps (u.mono (by decide)) k t e
  case tackRestarted => exact execTackRestarted_keeps (u.mono (by decide)) k t e
  case dmaChannelStart => exact execDmaChannelStart_keeps (u.mono (by decide)) k t e
  case dmaComplete => exact execDmaComplete_keeps (u.mono (by decide)) k t e
  case dmaBusError => exact execDmaBusError_keeps (u.mono (by decide)) k t e
  case dmaDisable => exact execDmaDisable_keeps (u.mono (by decide)) k t e
  case dmaEnable => exact execDmaEnable_keeps (u.mono (by decide)) k t e
  case timerExpiry => exact execTimerExpiry_keeps (u.mono (by decide)) k t e
  case timerAck => exact execTimerAck_keeps (u.mono (by decide)) k t e
  case uartRxChar => exact execUartRxChar_keeps (u.mono (by decide)) k t e
  case uartBreak => exact execUartBreak_keeps (u.mono (by decide)) k t e
  case uartRxRead => exact execUartRxRead_keeps (u.mono (by decide)) k t e
  case uartTxWrite => exact execUartTxWrite_keeps (u.mono (by decide)) k t e
  case uartTxCharDone => exact execUartTxCharDone_keeps (u.mono (by decide)) k t e
  case uartStatusClear => exact execUartStatusClear_keeps (u.mono (by decide)) k t e
  case sensorSample => exact execSensorSample_keeps (u.mono (by decide)) k t e
  case eventPost => exact execEventPost_keeps (u.mono (by decide)) k t e
  case logWriterMove => exact execLogWriterMove_keeps (u.mono (by decide)) k t e
  case logFlush => exact execLogFlush_keeps (u.mono (by decide)) k t e
  case semAcquire => exact execSemAcquire_keeps (u.mono (by decide)) k t e
  case semRelease => exact execSemRelease_keeps (u.mono (by decide)) k t e
  case semRecovered => exact execSemRecovered_keeps (u.mono (by decide)) k t e
  case semBreak => exact execSemBreak_keeps (u.mono (by decide)) k t e
  case semStateRead => exact execSemStateRead_keeps (u.mono (by decide)) k t e
  case watchdogKick => exact execWatchdogKick_keeps (u.mono (by decide)) k t e
  case tackWdogWarn => exact execTackWdogWarn_keeps (u.mono (by decide)) k t e
  case watchdogSecondExpiry => exact execWatchdogSecondExpiry_keeps (u.mono (by decide)) k t e
  case faultReport => exact execFaultReport_keeps (u.mono (by decide)) k t e
  case reloadDone => exact execReloadDone_keeps (u.mono (by decide)) k t e
  case wireCheck => exact execWireCheck_keeps (u.mono (by decide)) k t e
  case wireCodeInvalid => exact execWireCodeInvalid_keeps (u.mono (by decide)) k t e
  case faultForce => exact execFaultForce_keeps (u.mono (by decide)) k t e
  case fltStatClear => exact execFltStatClear_keeps (u.mono (by decide)) k t e
  case girthLinkTrained => exact execGirthLinkTrained_keeps (u.mono (by decide)) k t e
  case heartbeatTick => exact execHeartbeatTick_keeps (u.mono (by decide)) k t e
  case heartbeat => exact execHeartbeat_keeps (u.mono (by decide)) k t e
  case handover => exact execHandover_keeps (u.mono (by decide)) k t e
  case ident => exact execIdent_keeps (u.mono (by decide)) k t e
  case timing => exact execTiming_keeps (u.mono (by decide)) k t e
  case encState => exact execEncState_keeps (u.mono (by decide)) k t e
  case picCrc => exact execPicCrc_keeps (u.mono (by decide)) k t e
  case picCrcTimeout => exact execPicCrcTimeout_keeps (u.mono (by decide)) k t e
  case port => exact execPort_keeps (u.mono (by decide)) k t e
  case command => exact execCommand_keeps (u.mono (by decide)) k t e
  case txn => exact execTxn_keeps (u.mono (by decide)) k t e
  case sem => exact execSem_keeps (u.mono (by decide)) k t e
  case snapshot => exact execSnapshot_keeps (u.mono (by decide)) k t e
  case tileDelta => exact execTileDelta_keeps (u.mono (by decide)) k t e
  case hostData => exact execHostData_keeps (u.mono (by decide)) k t e
  case ack => exact execAck_keeps (u.mono (by decide)) k t e
  case girthRetransmit => exact execGirthRetransmit_keeps (u.mono (by decide)) k t e
  case deltaDrop => exact execDeltaDrop_keeps (u.mono (by decide)) k t e
  case girthSilence => exact execGirthSilence_keeps (u.mono (by decide)) k t e
  case girthLockLoss => exact execGirthLockLoss_keeps (u.mono (by decide)) k t e
  case identRetry => exact execIdentRetry_keeps (u.mono (by decide)) k t e
  case ownHeartbeatTimeout => exact execOwnHeartbeatTimeout_keeps (u.mono (by decide)) k t e
  case peerFaultEdge => exact execPeerFaultEdge_keeps (u.mono (by decide)) k t e
  case peerOwnEdge => exact execPeerOwnEdge_keeps (u.mono (by decide)) k t e
  case pmbusPoll => exact execPmbusPoll_keeps (u.mono (by decide)) k t e
  case pmbusSetPoint => exact execPmbusSetPoint_keeps (u.mono (by decide)) k t e
  case pmbusConfirm => exact execPmbusConfirm_keeps (u.mono (by decide)) k t e
  case supplyComparatorTrip => exact execSupplyComparatorTrip_keeps (u.mono (by decide)) k t e
  case thermalTrip => exact execThermalTrip_keeps (u.mono (by decide)) k t e
  case thermalCheck => exact execThermalCheck_keeps (u.mono (by decide)) k t e
  case throttleStepUp => exact execThrottleStepUp_keeps (u.mono (by decide)) k t e
  case bayClockChange => exact execBayClockChange_keeps (u.mono (by decide)) k t e
  case sysClkLoss => exact execSysClkLoss_keeps (u.mono (by decide)) k t e
  case pllLockLoss => exact execPllLockLoss_keeps (u.mono (by decide)) k t e
  case registerWrite => exact execRegisterWrite_keeps (u.mono (by decide)) k t e
  case txnOpBegin => exact execTxnOpBegin_keeps (u.mono (by decide)) k t e
  case txnOpCommit => exact execTxnOpCommit_keeps (u.mono (by decide)) k t e
  case txnOpAbort => exact execTxnOpAbort_keeps (u.mono (by decide)) k t e
  case txnWdata => exact execTxnWdata_keeps (u.mono (by decide)) k t e
  case txnTimeout => exact execTxnTimeout_keeps (u.mono (by decide)) k t e
  case glbWerrClear => exact execGlbWerrClear_keeps (u.mono (by decide)) k t e
  case dpiReasonClear => exact execDpiReasonClear_keeps (u.mono (by decide)) k t e
  case dpoHpdChange => exact execDpoHpdChange_keeps (u.mono (by decide)) k t e
  case dpiLinkDown => exact execDpiLinkDown_keeps (u.mono (by decide)) k t e
  case pcieLinkChange => exact execPcieLinkChange_keeps (u.mono (by decide)) k t e

/-- What is closed under the updates of every component is kept as time passes. -/
theorem tick_keeps (u : Keeps allComps P) (k : P s) : P (tick s) :=
  State.serveWaits_keeps (u.mono (by decide)) (State.passTime_keeps (u.mono (by decide)) k)

end Sys2Proof.Machine
end

