-- ==== Sys2Proof/Machine/Thathar.lean ====
section
/-! DEFINITION. The checks that Thathar makes of an image before it signs one (R22, R50, R72, R85, R134, R144, R170, R246, R254, R257,
R267, R301 to R303, R314, R316, R319, R341, R342, R413), over the state that the image's records make. The loader does not repeat them
(R337): no command rests on this file. -/

namespace Sys2Proof.Machine

/-- What an image declares of a decode stream and no register holds: the chroma format and depth of its coded format, the reference read
factor in tenths, the capture-to-output offset in lines, and sprop-max-don-diff. -/
structure DecDecl where
  chroma : Nat
  deep : Bool
  factor : Option Nat
  offset : Nat
  donDiff : Nat
  deriving DecidableEq, Repr

/-- What an image declares beside its registers: its decode streams, the regulator rating in tokens of each Bellows rail, and the posted
rate in bit/s of all host-fed streams. -/
structure ImageDecl where
  dec : Tbl DecDecl
  rating : Tbl Nat
  posted : Nat
  deriving DecidableEq, Repr

/-- R341: b, the bytes per pixel of a format: a table of thirds of a byte. -/
def formatBytes (chroma : Nat) (deep : Bool) : ℚ :=
  match chroma, deep with
  | 3, false => 3
  | 3, true => 4
  | 2, false => 2
  | 2, true => 8 / 3
  | 1, false => 3 / 2
  | 1, true => 2
  | _, false => 1
  | _, true => 4 / 3

/-- The declaration of a decode stream; a stream that the image does not declare is 4:2:0 of 8 bits. -/
def ImageDecl.stream (g : ImageDecl) (i : Nat) : DecDecl := g.dec.look ⟨1, false, none, 192, 0⟩ i

/-- R341: F, the reference read factor: as declared, of 0.6 to 4.0, or by DPB_MAX. -/
def ImageDecl.factor (g : ImageDecl) (i : Nat) (c : DecCfg) : ℚ :=
  match (g.stream i).factor with
  | some n => (min 40 (max 6 n) : Nat) / 10
  | none => if c.dpbMax ≤ 2 then 3 / 5 else 6 / 5

/-- R341: one decode stream's bandwidth in B/s, with its check where it is a VALUE stream. -/
def ImageDecl.decBandwidth (g : ImageDecl) (i : Nat) (c : DecCfg) : ℚ :=
  let x : ℚ := c.maxRate * formatBytes (g.stream i).chroma (g.stream i).deep * (1 + g.factor i c)
  x + if c.cls = .value then x * c.valueTiles / c.tileCount else 0

/-- R341: one encode stream's. -/
def EncCfg.bandwidth (c : EncCfg) (f : RasterFmt) : ℚ :=
  (c.width * c.height * f.num : Nat) / f.den * formatBytes c.chroma (decide (8 < c.depth)) * 4

/-- R341: one window's. -/
def State.windowBandwidth (g : ImageDecl) (s : State) (x : Window) : ℚ :=
  let f := (s.raster x.raster.toNat).fmt
  (x.srcW.toNat * x.srcH.toNat * f.num : Nat) / f.den * formatBytes (g.stream x.stream.toNat).chroma (g.stream x.stream.toNat).deep

/-- The enabled decode streams, encode streams and windows. -/
def State.decOn (s : State) : List (Nat × DecCfg) := (s.dec.filter (fun x => x.2.cfg.enabled)).map (fun x => (x.1, x.2.cfg))
/-- The enabled encode streams. -/
def State.encOn (s : State) : List (Nat × EncCfg) := (s.enc.filter (fun x => x.2.cfg.enabled)).map (fun x => (x.1, x.2.cfg))
/-- The enabled windows. -/
def State.winOn (s : State) : List Window := ((List.range 512).map s.window).filter (·.enable)

/-- R341: the DRAM bandwidth of an image in B/s. -/
def State.imageBandwidth (g : ImageDecl) (s : State) : ℚ :=
  (s.decOn.map (fun x => g.decBandwidth x.1 x.2)).sum + (s.winOn.map (s.windowBandwidth g)).sum +
  (s.encOn.map (fun x => x.2.bandwidth (s.raster x.2.raster).fmt)).sum + 12000000000

/-- R212, R478: the data rate of the DRAM in MT/s. -/
def State.dataRate (s : State) : Nat := 400 * (s.glb.platDdr.extractLsb' 27 5).toNat

/-- R22, R341: the bandwidth is at most 90 % of the sustained budget, scaled with the data rate. -/
def State.bandwidthOk (g : ImageDecl) (s : State) : Bool :=
  decide (s.imageBandwidth g ≤ 9 / 10 * 12 * 50000000000 * s.dataRate / 8000)

/-- R342: admission with every core in service places every enabled stream without a spare. -/
def State.coresOk (s : State) : Bool :=
  let role (c : Nat) : Nat × CoreRole × Option Nat := (c, s.blw.homeRoles.look (.unassigned, none) c)
  let bays := List.range 4
  let m := s.asks.foldl (fun (m : Adm) a => match m.direct bays a with
    | some p => { m with placed := m.placed ++ [p] }
    | none => { m with shed := m.shed ++ [a] }) ⟨(List.range 32).map role, [], []⟩
  m.shed.isEmpty

/-- A partition that the image enables. -/
def State.partOn (s : State) (p : Nat) : Bool := decide (p < 8) && (s.part p).enabled

/-- R342: every object names an enabled partition, and objects that refer to another name the same one. -/
def State.ownersOk (s : State) : Bool :=
  s.decOn.all (fun x => s.partOn x.2.part) &&
  s.encOn.all (fun x => s.partOn x.2.part && x.2.flows.all (fun f => (s.flow f).part.toNat == x.2.part)) &&
  s.winOn.all (fun x => s.partOn x.part.toNat && x.part.toNat == (s.decS x.stream.toNat).cfg.part) &&
  s.run.rules.all (fun x => !x.2.valid || (s.partOn x.2.part.toNat &&
    (!x.2.polEn || (s.run.policers.look Policer.reset x.2.policer.toNat).part == x.2.part))) &&
  s.run.policers.all (fun x => !x.2.enable || s.partOn x.2.part.toNat) && s.run.flows.all (fun x => !x.2.enable || s.partOn x.2.part.toNat) &&
  s.ras.events.all (fun x => !x.2.valid || s.partOn x.2.part.toNat) && s.hq.vfPart.all (fun x => x.2.all s.partOn) &&
  s.drm.regions.all (fun x => x.2.isEmpty || s.partOn x.1)

/-- R47, R342: every line event entry of the image may be armed from the whole-device scope. -/
def State.eventsOk (s : State) : Bool := s.ras.events.all (fun x => !x.2.valid || s.armOk none x.1 x.2)

/-- R302, R342: the regions of the partitions are disjoint, and lie inside the pool. -/
def Drm.regionsOk (d : Drm) : Bool :=
  let all := (List.range 8).flatMap (fun p => (d.regions.look [] p).map (fun r => (p, r.1, r.2)))
  all.all (fun a => decide (a.2.2 ≤ d.poolBlocks) &&
    all.all (fun b => a.1 == b.1 || decide (a.2.2 ≤ b.2.1) || decide (b.2.2 ≤ a.2.1)))

/-- R342: the image fits the slot. -/
def Fsh.sizeOk (f : Fsh) (b : Bool) : Bool := decide (f.signedLen b + 196 ≤ slotSize f.size - sector)

/-- R342: record order and counts, and no address written twice by MAP_WRITE records. -/
def Fsh.recordsOk (f : Fsh) (b : Bool) : Bool :=
  (f.records b).any f.orderOk && decide ((f.mapOf b).map (·.1)).Nodup

/-- R342: a PATTERN record for each core role that the image assigns. -/
def State.rolesOk (s : State) (b : Bool) : Bool :=
  let roles := s.fsh.patternRoles ((s.fsh.records b).getD [])
  s.blw.homeRoles.all (fun x => x.2.1 == .unassigned || roles.any (fun r => roleNamed r x.2.1))

/-- R50: no LIVE or VALUE window below the least capture-to-output offset. -/
def State.offsetsOk (g : ImageDecl) (s : State) : Bool :=
  s.winOn.all (fun x =>
    let c := (s.decS x.stream.toNat).cfg
    (c.cls != .live && c.cls != .value) || decide (144 ≤ (g.stream x.stream.toNat).offset))

/-- R72: the streams that windows show fit the tile state memory. -/
def State.tilesOk (s : State) : Bool :=
  let is := (s.winOn.map (·.stream.toNat)).eraseDups
  decide ((is.map (fun i => (s.decS i).cfg.tileCount)).sum ≤ 196608)

/-- R85: no value window shows a foreign stream. -/
def State.foreignOk (s : State) : Bool := s.winOn.all (fun x => !x.value || !(s.decS x.stream.toNat).cfg.foreign)

/-- R134, R254: a split stream's share of a core, and the order of transmission. -/
def State.decodesOk (g : ImageDecl) (s : State) : Bool :=
  s.decOn.all (fun x => (x.2.split == .none || decide (x.2.maxRate ≤ 2000000000 * x.2.cores)) && (g.stream x.1).donDiff == 0)

/-- R143, R144: the descriptors that the streams need. -/
def State.descriptorsOk (s : State) : Bool :=
  decide ((s.decOn.map (fun x => x.2.dpbMax + 1 + if x.2.cls = .value then 3 else 0)).sum + 3 * (s.encOn.filter (fun x => x.2.input.isSome)).length ≤ 4096)

/-- R246: what a rule may name. -/
def State.ruleOk (s : State) (r : Rule) : Bool :=
  !r.valid ||
  ((r.dest != 0 || decide (r.tc < 6)) && (r.tc != 7 || r.polEn) &&
   (r.dest != 0 || (s.decS r.stream.toNat).cfg.part == r.part.toNat))

/-- R246: the two ST 2022-7 rules of a decode stream agree. -/
def State.rulesOk (s : State) : Bool :=
  let rs := (s.run.rules.map (·.2)).filter (·.valid)
  rs.all s.ruleOk && rs.all (fun a => rs.all (fun b => a.dest != 0 || b.dest != 0 || a.stream != b.stream || (a.part == b.part && a.tc == b.tc)))

/-- R257: the reserves of a pool fit it. -/
def LdlPool.reservesOk (x : LdlPool) : Bool := decide (x.tc7Resv + ((List.range 8).map (x.resv.look 0)).sum ≤ x.total)

/-- R257, R267: the pools' reserves, and no reserved PAUSE_MODE. -/
def State.runnerOk (s : State) : Bool :=
  (List.range 4).all (fun p => (s.ladle p).reservesOk && (s.eth p).pauseMode != 3)

/-- R301: a partition with VALUE decode streams has, for each of them, a check core in another bay (DEDUCED, log entry 219), and each bay an
unowned spare. -/
def State.checksOk (s : State) : Bool :=
  let owner (c : Nat) := s.blw.homeRoles.look (.unassigned, none) c
  s.decOn.all (fun x => x.2.cls != .value ||
    (List.range 32).any (fun c => owner c == (.check, some x.2.part) && c / 8 != x.2.home)) &&
  (List.range 4).all (fun b => (List.range 8).any (fun k => (owner (8 * b + k)).2.isNone))

/-- R303: the reserves of the request slots. -/
def Drm.slotsOk (d : Drm) : Bool := decide (((List.range 8).map (d.slotResv.look 0)).sum ≤ 120)

/-- R319: standing grants that a bay's rail may hold: those of every deterministic encode stream, as spares may bring any of them. -/
def State.standingMax (s : State) (b : Nat) : Nat := 10 * (s.encOn.filter (fun x => x.2.deterministic && x.2.home == b)).length

/-- R314, R316, R319: each rail's limit, burst and costs. -/
def State.railsOk (g : ImageDecl) (s : State) : Bool :=
  (List.range 5).all (fun r =>
    let x := s.rail r
    let most := if r < 4 then max (s.tokenCost .wake) (s.tokenCost .search) else max (s.tokenCost .fill) (s.tokenCost .training)
    decide (x.limit.toNat ≤ g.rating.look 0 r) && decide (most ≤ x.burst.toNat) &&
    (decide (4 ≤ r) || decide (57 * 8 + s.standingMax r ≤ x.limit.toNat)))

/-- R37, R173: the formats of the rasters in use. -/
def State.rastersOk (s : State) : Bool :=
  (List.range 28).all (fun k => !s.rasterUsed k || (fmtLegal (s.raster k).fmt && fmtFits k (s.raster k).fmt))

/-- R341, R342: an image that makes state `s`, in slot `b`, passes Thathar's checks. -/
def State.thatharAccepts (g : ImageDecl) (b : Bool) (s : State) : Bool :=
  s.bandwidthOk g && s.coresOk && s.ownersOk && s.drm.regionsOk && s.fsh.sizeOk b && s.fsh.recordsOk b && s.rolesOk b &&
  s.offsetsOk g && s.tilesOk && s.foreignOk && s.decodesOk g && s.descriptorsOk && s.rulesOk && s.runnerOk && s.checksOk && s.drm.slotsOk &&
  s.railsOk g && s.rastersOk && s.eventsOk && s.windowsOk && s.encodesOk (s.encOn.map (·.1)) && s.depthsOk && (!s.glb.twinEn || decide (g.posted ≤ 160000000000))

end Sys2Proof.Machine
end

