-- ==== Sys2Proof/Tests/Slice0.lean ====
section
/-! SUPPORT. Tests: an ill-formed term for each check of well-formedness, the worked examples of the spec, and for each
statement states and operands that meet its hypotheses, clause by clause. -/

namespace Sys2Proof.Tests

/-- An operand out of range is refused, whatever the other operands are. -/
theorem test_ill_formed_1 :
    ((Instr.lineStart [⟨28, 0, 0⟩]).wellFormed = false) ∧
    (∀ e y2, (Instr.lineEventArm (.queue 1025) e y2).wellFormed = false) ∧
    (∀ w y2, (Instr.lineEventArm w 1024 y2).wellFormed = false) ∧
    (∀ e y2, (Instr.lineEventDisarm (.queue 1025) e y2).wellFormed = false) ∧
    (∀ w y2, (Instr.lineEventDisarm w 1024 y2).wellFormed = false) ∧
    (∀ y1 y2, (Instr.inputFrameStart 15 y1 y2).wellFormed = false) ∧
    (∀ y1 y2, (Instr.inputFrameStart 28 y1 y2).wellFormed = false) ∧
    ((Instr.inputSignalTimeout 15).wellFormed = false) ∧
    ((Instr.inputSignalTimeout 28).wellFormed = false) ∧
    ((Instr.rasterRealign 28).wellFormed = false) ∧
    (∀ y1, (Instr.rasterRetimed 28 y1).wellFormed = false) ∧
    ((Instr.retimingEnd 28).wellFormed = false) ∧
    ((Instr.encodeSelfRelease 256).wellFormed = false) ∧
    (∀ core, (Instr.encodeRowIssue 256 core).wellFormed = false) ∧
    (∀ s, (Instr.encodeRowIssue s 32).wellFormed = false) ∧
    (∀ y1, (Instr.encodeRowComplete 256 y1).wellFormed = false) ∧
    ((Instr.hostfedFrameStart 256).wellFormed = false) ∧
    (∀ y1, (Instr.sliceHeaderParse 256 y1).wellFormed = false) ∧
    (∀ y1 y2, (Instr.paramSetReceived 256 y1 y2).wellFormed = false) ∧
    (∀ y1 y2, (Instr.ledgerSegment 256 y1 y2).wellFormed = false) ∧
    ((Instr.accessUnitEnd 256).wellFormed = false) ∧
    (∀ core, (Instr.decodeTaskIssue 4 core).wellFormed = false) ∧
    (∀ bay, (Instr.decodeTaskIssue bay 32).wellFormed = false) ∧
    (∀ y1, (Instr.decodeSkipped 256 y1).wellFormed = false) ∧
    ((Instr.streamStart 256).wellFormed = false) ∧
    ((Instr.streamRejoin 256).wellFormed = false) ∧
    ((Instr.outputLineFetch ⟨28, 0, 0⟩).wellFormed = false) ∧
    (∀ p, (Instr.cmpLineLate 512 p).wellFormed = false) ∧
    (∀ w, (Instr.cmpLineLate w ⟨28, 0, 0⟩).wellFormed = false) ∧
    ((Instr.tileStateFill 256).wellFormed = false) := by
  simp [Instr.wellFormed, Writer.wellFormed, LinePos.wellFormed]

/-- An operand out of range is refused, whatever the other operands are. -/
theorem test_ill_formed_2 :
    (∀ y1, (Instr.dpLinkTrain 8 y1).wellFormed = false) ∧
    (∀ y1, (Instr.dpHpdIrq 8 y1).wellFormed = false) ∧
    (∀ y1 y2 y3, (Instr.dpSinkLinkTrain 4 y1 y2 y3).wellFormed = false) ∧
    ((Instr.dpHpdPulseEnd 4).wellFormed = false) ∧
    ((Instr.microwordIssue 32).wellFormed = false) ∧
    ((Instr.fillDone 32).wellFormed = false) ∧
    ((Instr.drainDone 32).wellFormed = false) ∧
    (∀ y1, (Instr.bankReloadDone 32 y1).wellFormed = false) ∧
    (∀ y1 y2 y3, (Instr.unitDone 32 y1 y2 y3).wellFormed = false) ∧
    (∀ ev, (Instr.externalEvent 32 ev).wellFormed = false) ∧
    (∀ c, (Instr.externalEvent c 64).wellFormed = false) ∧
    ((Instr.deadlock 32).wellFormed = false) ∧
    ((Instr.coreC1Entry 32).wellFormed = false) ∧
    (∀ y1, (Instr.corePowerDown 32 y1).wellFormed = false) ∧
    ((Instr.coreWake 32).wellFormed = false) ∧
    ((Instr.coreWakeDone 32).wellFormed = false) ∧
    ((Instr.ptnSwap 32).wellFormed = false) ∧
    ((Instr.coreDrained 32).wellFormed = false) ∧
    (∀ c y2 y3 y4, (Instr.patternStoreWrite (.queue 1025) c y2 y3 y4).wellFormed = false) ∧
    (∀ w y2 y3 y4, (Instr.patternStoreWrite w 32 y2 y3 y4).wellFormed = false) ∧
    (∀ y1, (Instr.corFaultClear 32 y1).wellFormed = false) ∧
    (∀ y0, (Instr.dramRead y0 ⟨0, [(16, 0)]⟩).wellFormed = false) ∧
    (∀ y0, (Instr.dramRead y0 ⟨0, [(0, 40)]⟩).wellFormed = false) ∧
    (∀ y1, (Instr.mergeFlush 12 y1).wellFormed = false) ∧
    ((Instr.refresh 12).wellFormed = false) ∧
    (∀ y1, (Instr.mr4Poll 12 y1).wellFormed = false) ∧
    (∀ rank, (Instr.rankPowerDown 12 rank).wellFormed = false) ∧
    (∀ ch, (Instr.rankPowerDown ch 2).wellFormed = false) ∧
    (∀ y1, (Instr.dramTraining 12 y1).wellFormed = false) ∧
    (∀ y1, (Instr.calibrationSliver 12 y1).wellFormed = false) := by
  simp [Instr.wellFormed, Writer.wellFormed, LinePos.wellFormed]

/-- An operand out of range is refused, whatever the other operands are. -/
theorem test_ill_formed_3 :
    ((Instr.hardwareFill 12).wellFormed = false) ∧
    ((Instr.scrubLine 12).wellFormed = false) ∧
    ((Instr.dramScrubUrgent 12).wellFormed = false) ∧
    (∀ y1, (Instr.drmErrqRetire 12 y1).wellFormed = false) ∧
    (∀ y1, (Instr.dramPageRetired 12 y1).wellFormed = false) ∧
    (∀ y1, (Instr.dramChannelFenced 12 y1).wellFormed = false) ∧
    (∀ y1, (Instr.remapFill 12 y1).wellFormed = false) ∧
    (∀ y1, (Instr.frameReceived 4 y1).wellFormed = false) ∧
    (∀ y1, (Instr.pauseReceived 4 y1).wellFormed = false) ∧
    (∀ cls, (Instr.pauseTimerExpiry 4 cls).wellFormed = false) ∧
    (∀ pt, (Instr.pauseTimerExpiry pt 8).wellFormed = false) ∧
    (∀ cls, (Instr.portStalled 4 cls).wellFormed = false) ∧
    (∀ pt, (Instr.portStalled pt 8).wellFormed = false) ∧
    (∀ cls, (Instr.portStallCleared 4 cls).wellFormed = false) ∧
    (∀ pt, (Instr.portStallCleared pt 8).wellFormed = false) ∧
    ((Instr.packetSwitch 1152).wellFormed = false) ∧
    ((Instr.stitcherPacket 284).wellFormed = false) ∧
    ((Instr.stitchHoldExpiry 284).wellFormed = false) ∧
    (∀ y1, (Instr.stitchPath 284 y1).wellFormed = false) ∧
    ((Instr.runqUnread 3).wellFormed = false) ∧
    ((Instr.pfcRefresh 4).wellFormed = false) ∧
    ((Instr.egressSelect 4).wellFormed = false) ∧
    (∀ y1, (Instr.ethLinkChange 4 y1).wellFormed = false) ∧
    (∀ q y2 y3, (Instr.hqDoorbell 9 q y2 y3).wellFormed = false) ∧
    (∀ fn y2 y3, (Instr.hqDoorbell fn 1025 y2 y3).wellFormed = false) ∧
    (∀ y1, (Instr.queuePoll 1025 y1).wellFormed = false) ∧
    (∀ entry, (Instr.commandFetch 1025 entry).wellFormed = false) ∧
    (∀ q, (Instr.commandFetch q []).wellFormed = false) ∧
    ((Instr.commandComplete 256).wellFormed = false) ∧
    ((Instr.createQueue 256).wellFormed = false) := by
  simp [Instr.wellFormed, Writer.wellFormed, LinePos.wellFormed]

/-- An operand out of range is refused, whatever the other operands are. -/
theorem test_ill_formed_4 :
    ((Instr.deleteQueue 256).wellFormed = false) ∧
    ((Instr.identify 256).wellFormed = false) ∧
    ((Instr.getLog 256).wellFormed = false) ∧
    ((Instr.setEvents 256).wellFormed = false) ∧
    ((Instr.regRead 256).wellFormed = false) ∧
    ((Instr.regWrite 256).wellFormed = false) ∧
    ((Instr.txnBegin 256).wellFormed = false) ∧
    ((Instr.txnCommit 256).wellFormed = false) ∧
    ((Instr.txnAbort 256).wellFormed = false) ∧
    ((Instr.streamQuench 256).wellFormed = false) ∧
    ((Instr.streamUnquench 256).wellFormed = false) ∧
    ((Instr.sweepRestart 256).wellFormed = false) ∧
    ((Instr.outputSet 256).wellFormed = false) ∧
    (∀ y1, (Instr.imageWrite 256 y1).wellFormed = false) ∧
    ((Instr.patch 256).wellFormed = false) ∧
    ((Instr.ctxRead 256).wellFormed = false) ∧
    ((Instr.encPost ⟨256, []⟩).wellFormed = false) ∧
    (∀ y1, (Instr.decPost 256 y1).wellFormed = false) ∧
    ((Instr.frameRead ⟨256, true⟩).wellFormed = false) ∧
    ((Instr.ledgerRead ⟨256, true⟩).wellFormed = false) ∧
    (∀ entry, (Instr.pagePost 1025 entry).wellFormed = false) ∧
    (∀ q, (Instr.pagePost q []).wellFormed = false) ∧
    ((Instr.pageFlushTimeout 256).wellFormed = false) ∧
    ((Instr.functionLevelReset 9).wellFormed = false) ∧
    ((Instr.starvationStep 8192).wellFormed = false) ∧
    ((Instr.urgentCapWindow 8192).wellFormed = false) ∧
    (∀ y1 y2 y3, (Instr.bellowsRequest 5 y1 y2 y3).wellFormed = false) ∧
    ((Instr.bellowsGrant 5).wellFormed = false) ∧
    (∀ y1 y2, (Instr.bellowsRelease 5 y1 y2).wellFormed = false) ∧
    (∀ y1, (Instr.bellowsDeny 5 y1).wellFormed = false) := by
  simp [Instr.wellFormed, Writer.wellFormed, LinePos.wellFormed]

/-- An operand out of range is refused, whatever the other operands are. -/
theorem test_ill_formed_5 :
    (∀ core, (Instr.blwSlow 5 core).wellFormed = false) ∧
    (∀ rail, (Instr.blwSlow rail 32).wellFormed = false) ∧
    (∀ y1, (Instr.reqRest (.queue 1025) y1).wellFormed = false) ∧
    (∀ y1, (Instr.reqWake (.queue 1025) y1).wellFormed = false) ∧
    (∀ y1, (Instr.reqDemote (.queue 1025) y1).wellFormed = false) ∧
    ((Instr.dmaChannelStart 8).wellFormed = false) ∧
    (∀ y1, (Instr.dmaBusError 8 y1).wellFormed = false) ∧
    ((Instr.dmaDisable 8).wellFormed = false) ∧
    ((Instr.dmaEnable 8).wellFormed = false) ∧
    ((Instr.timerExpiry 4).wellFormed = false) ∧
    ((Instr.timerAck 4).wellFormed = false) ∧
    (∀ y1, (Instr.semAcquire 64 y1).wellFormed = false) ∧
    (∀ y1, (Instr.semRelease 64 y1).wellFormed = false) ∧
    (∀ y1, (Instr.semRecovered 64 y1).wellFormed = false) ∧
    (∀ y1, (Instr.semBreak 64 y1).wellFormed = false) ∧
    ((Instr.semStateRead 64).wellFormed = false) ∧
    ((Instr.reloadDone 416).wellFormed = false) ∧
    (∀ y1, (Instr.wireCheck 416 y1).wellFormed = false) ∧
    ((Instr.wireCodeInvalid 416).wellFormed = false) ∧
    (∀ src y2, (Instr.faultForce (.queue 1025) src y2).wellFormed = false) ∧
    (∀ w y2, (Instr.faultForce w 416 y2).wellFormed = false) ∧
    (∀ y0 y2, (Instr.encState y0 256 y2).wellFormed = false) ∧
    (∀ y0 y2, (Instr.picCrc y0 256 y2).wellFormed = false) ∧
    (∀ y1, (Instr.picCrcTimeout 256 y1).wellFormed = false) ∧
    (∀ y0 y1, (Instr.command y0 y1 []).wellFormed = false) ∧
    (∀ y1, (Instr.pmbusPoll 11 y1).wellFormed = false) ∧
    (∀ y1 y2, (Instr.pmbusSetPoint 11 y1 y2).wellFormed = false) ∧
    (∀ y1, (Instr.pmbusConfirm 11 y1).wellFormed = false) ∧
    ((Instr.supplyComparatorTrip 14).wellFormed = false) ∧
    ((Instr.throttleStepUp 4).wellFormed = false) := by
  simp [Instr.wellFormed, Writer.wellFormed, LinePos.wellFormed]

/-- An operand out of range is refused, whatever the other operands are. -/
theorem test_ill_formed_6 :
    ((Instr.bayClockChange 4).wellFormed = false) ∧
    (∀ y1 y2 y3, (Instr.registerWrite (.queue 1025) y1 y2 y3).wellFormed = false) ∧
    (∀ t, (Instr.txnOpBegin (.queue 1025) t).wellFormed = false) ∧
    (∀ w, (Instr.txnOpBegin w 4).wellFormed = false) ∧
    (∀ t, (Instr.txnOpCommit (.queue 1025) t).wellFormed = false) ∧
    (∀ w, (Instr.txnOpCommit w 4).wellFormed = false) ∧
    (∀ t, (Instr.txnOpAbort (.queue 1025) t).wellFormed = false) ∧
    (∀ w, (Instr.txnOpAbort w 4).wellFormed = false) ∧
    (∀ t y2, (Instr.txnWdata (.queue 1025) t y2).wellFormed = false) ∧
    (∀ w y2, (Instr.txnWdata w 4 y2).wellFormed = false) ∧
    ((Instr.txnTimeout 4).wellFormed = false) ∧
    (∀ y1, (Instr.dpiReasonClear 4 y1).wellFormed = false) ∧
    (∀ y1, (Instr.dpoHpdChange 8 y1).wellFormed = false) ∧
    ((Instr.dpiLinkDown 4).wellFormed = false) := by
  simp [Instr.wellFormed, Writer.wellFormed, LinePos.wellFormed]

/-- The slot or stream of a host DMA is out of range. -/
theorem test_ill_formed_dma : (∀ n, (Instr.hostDmaDone (.slot 256) n).wellFormed = false) ∧
    (∀ n, (Instr.hostDmaDone (.page 256) n).wellFormed = false) := by
  simp [Instr.wellFormed, HostDma.number]

end Sys2Proof.Tests

set_option maxRecDepth 20000

namespace Sys2Proof.Machine

/-! Small states, from the reset state. -/

/-- The reset state out of reset, in SOLO. -/
def solo : State := State.reset.modGlb (fun g => { g with inReset := false, mode := .solo, role := .solo })
/-- A lead. -/
def lead : State := State.reset.modGlb (fun g => { g with inReset := false, mode := .lead, role := .lead })
/-- A shadow. -/
def shad : State := State.reset.modGlb (fun g => { g with inReset := false, mode := .shadow, role := .shadow })
/-- The time is `n` ns. -/
def State.at' (n : Nat) (s : State) : State := { s with now := n }
/-- A format of 60 frames per second. -/
def fmt1 : RasterFmt := { inUse := true, num := 60, den := 1, la := 2160, lt := 2250, width := 3840, hTotal := 4400 }
/-- Raster `k` has that format. -/
def State.use (k : Nat) (s : State) : State := s.modRaster k (fun r => { r with fmt := fmt1 })
/-- A small encode stream configuration of bay 0. -/
def ecfg : EncCfg := { EncCfg.reset with enabled := true, width := 128, height := 128, hostRaster := 0 }
/-- A task of stream 3 in bay 1. -/
def task1 : RowTask := { RowTask.reset with stream := 3, bay := 1, pic := 5 }
/-- Task 9 waits in bay 1 for a core. -/
def State.tasked (x : RowTask) (s : State) : State :=
  (s.modBlw (fun b => { b with tasks := [(9, x)] })).modBay 1 (fun b => { b with tasks := [9] })
/-- Core `c` is on, in a role and in partition 0. -/
def State.coreOn (c : Nat) (r : CoreRole) (s : State) : State :=
  s.modCore c (fun x => { x with role := r, pstate := .c0, part := some 0 })
/-- Slice segment header with nothing in it. -/
def slice0 : SliceInfo := ⟨0, false, 0, false, false, none, false, 0, 0, 0, 0, 0, 0, 0, [], 64, 0, 0, [], [], true, none, false, false, 1⟩
/-- A sequence parameter set of Main, 128 x 128. -/
def sps1 : ParamSet := ⟨1, 2, 0, 4, 5, none, true, [.main], 41, 128, 128, 1, 8, 8, 64, false, true, 4, some 0, 6, 983040, 1000000, [2], [2], false⟩
/-- The PTP time is `n` ns. -/
def State.after (n : Nat) (s : State) : State := { s with ptp := BitVec.ofNat 64 n }
/-- Core `c` is on and runs thread 2 at word 2, which is `w`. -/
def State.runs (c : Nat) (w : MWord) (s : State) : State :=
  s.modCore c (fun x => ({ x with pstate := .c0, words := [(2, w)] }).modThread 2 (fun t => { t with st := .ready, pc := 2 }))
/-- Every thread of core `c` waits for event 20. -/
def State.stuck (c : Nat) (s : State) : State :=
  s.modCore c (fun x => (List.range 8).foldl (fun y t => y.modThread t (fun z => { z with st := .wait, waitOn := some (.event 20) })) { x with pstate := .c0 })
/-- A pool of 1200 blocks whose first hundred are partition 2's, with every channel in state `c`. -/
def dramS (st : ChanState) : State := (solo.modDrm (fun d => { d with
  poolBlocks := 1200, regions := [(2, [(0, 100)])], slotMax := [(2, 120)] })).each (List.range 12) (fun n => State.modChan n (fun c => { c with st := st, filled := true }))
/-- A requester of partition 2. -/
def req2 : Requester := ⟨.host, 2⟩
/-- An entry of the error-address queue. -/
def err0 : ErrEntry := ⟨1, 0, 2, 1, 7⟩
/-- The mode is `m`. -/
def State.inMode (m : Mode) (s : State) : State := s.modGlb (fun g => { g with mode := m })
/-- The twin link is up and the twin reports mode `m` and role `r`. -/
def State.twin (m : Mode) (r : Role) (s : State) : State := s.modGrt (fun g => { g with link := .up, peerMode := m.code, peerRole := r.code })
/-- A flash of 16 MiB with `bs` at `a`. -/
def State.burn (a : Nat) (bs : List Byte) (s : State) : State :=
  s.modFsh (fun f => { f with size := 16777216, flash := putBytes f.flash erased a bs })
/-- The loader stands before a record of a type in slot A. -/
def State.record (typ : Nat) (bs : List Byte) (s : State) : State :=
  ((s.burn 0x501020 (leBytes 2 typ ++ leBytes 2 0 ++ leBytes 4 bs.length ++ List.replicate 8 0 ++ bs)).modFsh
    (fun f => { f with loader := { Loader.reset with cur := some false, checked := true, cursor := 0x501020 } })).inMode .load
/-- What SFDP declares of a good flash. -/
def sfdp1 : Sfdp := ⟨true, 16777216, true, 1⟩
/-- Slot `n` holds command `c` of the admin queue, ready to begin. -/
def slot1 (c : HostCmd) : Slot := { Slot.reset with cmd := some c }
/-- Queue 0 is in service and slot `n` holds `x`. -/
def State.host (n : Nat) (x : Slot) (s : State) : State :=
  (s.modHqQ 0 (fun q => { q with valid := true, sqSize := 8, cqSize := 8, inExec := 1 })).modHq (fun h => { h with up := true, enable := true, slots := [(n, x)] })
/-- An in-band message of one entry with a key's tag. -/
def msg1 (key : List Byte) (ctr : Byte) : List Byte :=
  let h : List Byte := [1, 3, 0, 1, 0, 0, 0, 0, 0, 0, 0, ctr] ++ List.replicate 64 0
  h ++ msgTag key h
/-- A good UDP frame of 1000 bytes to port 5004. -/
def frame1 : Frame := { len := 1000, fcsOk := true, vid := none, ip := true, ipv6 := false, fragment := false, hdrSumOk := true, extHeader := false, udp := true, udpSumOk := true, dst := 7, src := 9, dport := 5004, dscp := 0, payload := 900, rtp := none, query := false }
/-- A rule for such frames. -/
def rule1 : Rule := { Rule.reset with valid := true, ports := 15, dport := 5004, dstIp := 7, dest := 1, part := 2, tc := 3 }
/-- Port `p` is up. -/
def State.ethUp (p : Nat) (s : State) : State := s.modEth p (fun e => { e with link := true })
/-- A packet with no buffer. -/
def pkt0 : Pkt := ⟨0, 100, 80, 0, 3, 0, 5, false, false, 0, 0, 0, none, 4, 0, 0, false, false, 0, 0, 0, none, false⟩
/-- A packet in buffer 0 of Ladle pool 1. -/
def pktB : Pkt := { pkt0 with pool := 1, par := pointerParity 1 0 0 0 }
/-- Buffer 0 of Ladle pool 1 is allocated to partition 0. -/
def State.buffed (s : State) : State :=
  s.modLadle 1 (fun l => { l with total := 100, bufs := [(0, { BufS.reset with allocated := true, refs := 1 })] })
/-- Ladle pool 1 has 100 buffers, all shared. -/
def State.pool1 (s : State) : State := s.modLadle 1 (fun l => { l with total := 100, shareMax := [(2, 100)] })
/-- The Girth link is in a state. -/
def State.linked (l : GrtLink) (s : State) : State := s.modGrt (fun g => { g with link := l })
/-- A frame with a sequence number. -/
def gframe (n : BitVec 32) : GFrame := ⟨n, .hostData (.data 5 [1, 2] true), 0⟩
/-- A frame of tile differences. -/
def dframe : GFrame := ⟨0, .tileDelta [], 0⟩
/-- The header of the next frame of a link that starts. -/
def hdr0 : GHdr := ⟨0, 3, true, true⟩
/-- A heartbeat of a lead. -/
def beat1 : HeartbeatMsg := ⟨70000, 5, Mode.lead.code, 2, 1, 0, false, false, [(5, 9)]⟩
/-- A twin's identity. -/
def ident1 (side : Bool) : IdentInfo := ⟨[7], side, Mode.shadow.code, 3, 0xB0, 0, 0, [], [9]⟩
/-- A shadow with its link up. -/
def shadUp : State := shad.linked .up
/-- The Tack runs and rail `r` has a regulator. -/
def State.regul (r : Nat) (s : State) : State := (s.modTck (fun k => { k with st := .run })).modPRail r (fun x => { x with addr := 0x40 })
/-- The PLLs have locked. -/
def State.locked (s : State) : State := s.modGlb (fun g => { g with pllLock := true })
/-- Bay 0 stands at 50 degrees C and the others at 10. -/
def State.hot (s : State) : State := ((s.locked.modBay 0 (fun x => { x with temp := 400, point := 1 })).each [1, 2, 3] (fun b => State.modBay b (fun x => { x with temp := 80 }))).modBlw (fun b => { b with tjThrottle := 95 })
/-- Transaction `n` is as given. -/
def State.txn1 (n : Nat) (f : Txn → Txn) (s : State) : State := s.modTrans n f
/-- The tag of `msg1` is good for its key, whatever the keyed hash is. -/
theorem msg1_ok (s : State) (h1 : (s.fltSrc 384).fenced = false) (h2 : s.hq.keys.look none 3 = some ⟨0xFF, [1, 2], 8⟩) :
    s.msgOk (msg1 [1, 2] 9) = true := by
  have e : ∀ a b : List Byte, a.length = 76 → (a ++ b).take 76 = a ∧ (a ++ b).drop 76 = b := fun a b h => ⟨List.take_left' h, List.drop_left' h⟩
  unfold State.msgOk msg1
  extract_lets h n body
  have hn : n = 1 := rfl
  have hk : msgKey (h ++ msgTag [1, 2] h) = 3 := rfl
  have hb : body = h := (e h _ rfl).1
  have hd : (h ++ msgTag [1, 2] h).drop (12 + 64 * n) = msgTag [1, 2] h := (e h _ rfl).2
  rw [hk, h2, hb, hd, h1]
  dsimp only
  rw [beq_self_eq_true]
  rfl
/-- What a core needs for a swap of its banks. -/
theorem swap_ready (c : CoreS) (h1 : c.allIdle = true) (h2 : (List.range 8).any (fun t => (c.thread t).staged != 0) = false)
    (h3 : c.bank = false) (h4 : c.validB = true) (h5 : c.crcB = c.bankCrc true) : c.swapReason = 0 := by
  unfold CoreS.swapReason
  simp only [h1, h2, h3, h4, h5, Bool.not_true, Bool.not_false, if_true, if_false, Bool.false_eq_true, ne_eq, not_true]
/-- A link of one lane whose payload bandwidth is less than a format needs. -/
theorem short_link (s : State) (n : Nat) (h : (s.raster n).fmt = { fmt1 with hTotal := Config.dpPayload 3 1 + 1 }) :
    ∀ x ∈ ([(3, 1)] : List (BitVec 4 × BitVec 3)), s.enough n x = false := by
  intro x hx
  rw [List.mem_singleton.mp hx]
  unfold State.enough State.bandwidth
  rw [h]
  simp only [fmt1, Nat.div_one, decide_eq_false_iff_not, Nat.not_le]
  split <;> omega
/-- No packet holds credit, so a packet has it. -/
theorem credit_ok (s : State) (k : Pkt)
    (h1 : s.run.stitch.flatMap (fun x => x.2.arrived) ++ s.run.voqs.flatMap (fun x => x.2.early) = []) (h2 : k.len ≤ 65536) :
    s.credited k = true := by
  unfold State.credited State.lent Pkt.credits
  rw [h1]
  dsimp only
  split <;> simp <;> omega
/-- A packet for a bitstream ring with space is accepted. -/
theorem accept_ring (s : State) (k : Pkt)
    (h1 : s.run.stitch.flatMap (fun x => x.2.arrived) ++ s.run.voqs.flatMap (fun x => x.2.early) = []) (h2 : k.len ≤ 65536) (h3 : k.dest = 0)
    (h4 : (s.decS k.stream).queueUsed + s.stitchBytes k.stream + k.payload + 64 ≤ (s.decS k.stream).cfg.queue) : s.accepts k = true := by
  unfold State.accepts
  rw [credit_ok s k h1 h2]
  simp [h3, h4]
/-- A packet for a bitstream ring without space is not accepted. -/
theorem refuse_ring (s : State) (k : Pkt) (h1 : s.run.capture.look none k.stream = none) (h3 : k.dest = 0)
    (h4 : (s.decS k.stream).cfg.queue < (s.decS k.stream).queueUsed + s.stitchBytes k.stream + k.payload + 64) : s.accepts k = false := by
  unfold State.accepts
  simp [h1, h3, h4]
/-- A packet for an empty receive queue is accepted. -/
theorem accept_rx (s : State) (k : Pkt)
    (h1 : s.run.stitch.flatMap (fun x => x.2.arrived) ++ s.run.voqs.flatMap (fun x => x.2.early) = []) (h2 : k.len ≤ 65536) (h3 : k.dest = 1)
    (h4 : (s.run.rx.look RxQueue.reset (tackQueue k.cls)).queue = []) : s.accepts k = true := by
  unfold State.accepts
  rw [credit_ok s k h1 h2]
  simp [h3, h4]

/-! The worked examples of the spec. -/

/-- 02_raster_time.md, the example of R38 and R39: line 2,170 of a frame, and back. -/
theorem test_line_time :
    fmtLine fmt1 270000000004420 = 2000000000032740740 ∧
    fmtPosition fmt1 2000000000032740740 = 270000000004420 := by decide

/-- 03_ledger_freshness.md, the dual-decode mismatch: a segment of 73 bytes, its runs and its entry. -/
theorem test_segment :
    (buildSegment ⟨false, false, 0, 0, 60, 34, 48211, 0, 0, 0, [⟨16, 2, 16, 8⟩]⟩ 5
      (List.replicate 20 ⟨0, 0, 0⟩ ++ [⟨2, 0x3B6C1F07, 237⟩] ++ List.replicate 39 ⟨0, 0, 0⟩)).length = 73 ∧
    ((buildSegment ⟨false, false, 0, 0, 60, 34, 48211, 0, 0, 0, [⟨16, 2, 16, 8⟩]⟩ 5
      (List.replicate 20 ⟨0, 0, 0⟩ ++ [⟨2, 0x3B6C1F07, 237⟩] ++ List.replicate 39 ⟨0, 0, 0⟩)).drop 55).take 14 =
        [0, 3, 0, 0x13, 0x80, 0, 0, 0x26, 0x3B, 0x6C, 0x1F, 0x07, 0, 0xED] := by decide

/-- 04_encoder.md, the alarm list at Kessford: the target of a row is 28,444 bits. -/
theorem test_row_target :
    ({ EncCfg.reset with rc := .cbr, rate := 60000000 } : EncCfg).rowTarget fmt1 = 28444 := by
  decide

/-- 07_pattern_sequencer.md, the row QP at Kessford: 32, with no flag. -/
theorem test_row_qp : qpRow { EncCfg.reset with qpMin := 0, qpMax := 51 } 30 [311000, 0, 0, 0, 0, 0, 0, 0] 28444 = (32, 0) := by decide

/-- 06_composition_outputs.md, a scaled wall at Vell Valley: the taps of output line 317 are lines 629 to 640. -/
theorem test_taps : tapReach 2160 1080 = 6 ∧ tapCentre 2160 1080 317 = (634, 32) := by decide

/-- 08_memory.md, the example of R234: pool block 1,000,001 with channel 5 fenced. -/
theorem test_remap :
    ({ Drm.reset with poolBlocks := 1376256, fencedCh := 5, spareBase := 114688, remapped := true } : Drm).place 1000001 = some (9, 122263) ∧
    ({ Drm.reset with poolBlocks := 1376256 } : Drm).perChannel = 114688 := by decide

/-- 14_tack.md: CLOCK_LOCKED is group 2, number 0, and has CODE 0x0800. -/
theorem test_event_code : EventId.clockLocked.code = 0x0800 ∧ EventId.clockLocked.group = 2 := by decide

/-! The hypotheses of the statements can be met. -/

/-- States and operands that meet the hypotheses of `EmptyQueueTicks`, clause by clause. -/
theorem test_wit_EmptyQueueTicks :
    (∃ (s : State), s.pending = [] ∧ s.glb.inReset = true) ∧
    (∃ (s : State), s.pending = [] ∧ s.glb.inReset = false) ∧
    (∃ (c : Clk), c.st = .freerun ∧ c.acc < 1000000000) :=
  ⟨⟨(State.reset : State), by decide⟩,
   ⟨(solo : State), by decide⟩,
   ⟨(Clk.reset : Clk), by decide⟩⟩

/-- States and operands that meet the hypotheses of `CommandFootprint`, clause by clause. -/
theorem test_wit_CommandFootprint :
    (∃ (c : Instr) (s : State) (t : State), exec c s = .next t) :=
  ⟨(.thermalCheck : Instr), (State.reset : State), (State.reset : State), rfl⟩

/-- States and operands that meet the hypotheses of `StepKeepsMemories`, clause by clause. -/
theorem test_wit_StepKeepsMemories :
    (∃ (s : State) (t : State), s.memOk = true ∧ step s = .next t) :=
  ⟨(State.reset.burn 64 [7] : State), (State.reset.burn 64 [7] : State), ⟨by decide, rfl⟩⟩

/-- States and operands that meet the hypotheses of `StepKeepsStack`, clause by clause. -/
theorem test_wit_StepKeepsStack :
    (∃ (s : State) (t : State), s.stackOk = true ∧ step s = .next t) :=
  ⟨(State.reset.modIrc (fun i => { i with stack := [9, 3] }) : State), (State.reset.modIrc (fun i => { i with stack := [9, 3] }) : State), ⟨by decide, rfl⟩⟩

/-- States and operands that meet the hypotheses of `ClockCommands`, clause by clause. -/
theorem test_wit_ClockCommands1 :
    (∃ (s : State) (e : Int), s.rxUnread 0 = true) ∧
    (∃ (s : State) (e : Int), s.rxUnread 0 = false ∧ (s.ras.clk.st = .freerun ∨ s.ras.clk.st = .holdover)) ∧
    (∃ (s : State) (e : Int), s.rxUnread 0 = false ∧ (s.ras.clk.st = .freerun ∨ s.ras.clk.st = .holdover)) ∧
    (∃ (s : State) (e : Int), s.rxUnread 0 = false ∧ s.ras.clk.st = .locked ∧ e.natAbs ≤ 1000) ∧
    (∃ (s : State) (e : Int), s.rxUnread 0 = false ∧ s.ras.clk.st = .locked ∧ 1000 < e.natAbs) ∧
    (∃ (s : State) (e : Int), s.rxUnread 0 = false ∧ s.ras.clk.st = .locked ∧ 1000 < e.natAbs) ∧
    (∃ (s : State) (e : Int), s.rxUnread 0 = false ∧ s.ras.clk.st = .relocking ∧ (1000 < e.natAbs ∨ s.ras.clk.inBound < 15)) ∧
    (∃ (s : State) (e : Int), s.rxUnread 0 = false ∧ s.ras.clk.st = .relocking ∧ (1000 < e.natAbs ∨ s.ras.clk.inBound < 15)) :=
  ⟨⟨((solo.modClk (fun c => { c with st := .locked })).modRun (fun r => { r with rx := [(0, { RxQueue.reset with queue := [pkt0, pkt0], unread := true })] }) : State), (5 : Int), by decide⟩,
   ⟨(solo : State), (5 : Int), by decide⟩,
   ⟨((solo.modClk (fun c => { c with st := .holdover })).modRun (fun r => { r with rx := [(0, { RxQueue.reset with queue := [pkt0, pkt0] })] }) : State), (5 : Int), by decide⟩,
   ⟨(solo.modClk (fun c => { c with st := .locked }) : State), (-1000 : Int), by decide⟩,
   ⟨(solo.modClk (fun c => { c with st := .locked }) : State), (-1001 : Int), by decide⟩,
   ⟨(solo.modClk (fun c => { c with st := .locked, stepLimit := 2000 }) : State), (2001 : Int), by decide⟩,
   ⟨(solo.modClk (fun c => { c with st := .relocking, inBound := 14 }) : State), (1000 : Int), by decide⟩,
   ⟨(solo.modClk (fun c => { c with st := .relocking, inBound := 15 }) : State), (1001 : Int), by decide⟩⟩

/-- States and operands that meet the hypotheses of `ClockCommands`, clause by clause. -/
theorem test_wit_ClockCommands2 :
    (∃ (s : State) (e : Int), s.rxUnread 0 = false ∧ s.ras.clk.st = .relocking ∧ e.natAbs ≤ 1000 ∧ 15 ≤ s.ras.clk.inBound) ∧
    (∃ (s : State) (p : BitVec 2) (e : Int), s.ras.clk.fenced = false ∧ (s.eth p.toNat).ptpEn = true ∧ e.natAbs ≤ s.ras.clk.stepLimit) ∧
    (∃ (s : State) (p : BitVec 2) (e : Int), s.ras.clk.fenced = false ∧ (s.eth p.toNat).ptpEn = true ∧ s.ras.clk.stepLimit < e.natAbs) ∧
    (∃ (s : State) (p : BitVec 2) (e : Int), (s.eth p.toNat).ptpEn = false) ∧
    (∃ (s : State), (s.ras.clk.st = .locked ∨ s.ras.clk.st = .relocking)) ∧
    (∃ (s : State) (u : Nat), s.ras.clk.st = .holdover ∧ s.uncertainty = some u ∧ s.ras.clk.limitRaised = false ∧ s.ras.clk.holdLimit < u) :=
  ⟨⟨(solo.modClk (fun c => { c with st := .relocking, inBound := 15 }) : State), (1000 : Int), by decide⟩,
   ⟨(solo.modEth 3 (fun x => { x with ptpEn := true }) : State), (3 : BitVec 2), (-100000 : Int), by decide⟩,
   ⟨(solo.modEth 2 (fun x => { x with ptpEn := true }) : State), (2 : BitVec 2), (100001 : Int), by decide⟩,
   ⟨(solo : State), (2 : BitVec 2), (100001 : Int), by decide⟩,
   ⟨((solo.modClk (fun c => { c with st := .relocking })).at' 5 : State), by decide⟩,
   ⟨((solo.modClk (fun c => { c with st := .holdover, holdLimit := 5 })).at' 100000 : State), (((solo.modClk (fun c => { c with st := .holdover, holdLimit := 5 })).at' 100000 : State).uncertainty.getD 0 : Nat), by decide⟩⟩

/-- States and operands that meet the hypotheses of `LineEventWrites`, clause by clause. -/
theorem test_wit_LineEventWrites :
    (∃ (s : State) (n : Nat) (v : Word), n < 1024 ∧ v.getLsbD 31 = true ∧ v.extractLsb' 29 2 ≠ 1 ∧ s.armOk none n ((s.lineEvent n).setWord0 v) = true) ∧
    (∃ (s : State) (n : Nat) (v : Word), n < 1024 ∧ v.getLsbD 31 = true ∧ s.armOk none n ((s.lineEvent n).setWord0 v) = false) ∧
    (∃ (s : State) (n : Nat) (v : Word), n < 1024 ∧ v.getLsbD 31 = false) :=
  ⟨⟨((solo.use 3).modPart 0 (fun p => { p with enabled := true }) : State), (1023 : Nat), (0x831D51C0 : Word), by decide⟩,
   ⟨(solo.use 3 : State), (0 : Nat), (0x83FFFDC0 : Word), by decide⟩,
   ⟨(solo : State), (7 : Nat), (0x7FFFFFFF : Word), by decide⟩⟩

/-- States and operands that meet the hypotheses of `LineStarts`, clause by clause. -/
theorem test_wit_LineStarts :
    (∃ (s : State) (p : LinePos) (u : State), u = s.modRaster p.raster (fun r => { r with frame := p.frame, line := p.line, change := r.change.atLine true p.line }) ∧ s.linksUp = true ∧ s.reaches p = true ∧ p.raster < 8 ∧ p.line ≠ 0 ∧ p.line ≠ (s.raster p.raster).fmt.la ∧ s.txn.txns = [] ∧ s.glb.mode ≠ .rest ∧ s.ras.events = []) ∧
    (∃ (s : State) (p : LinePos) (u : State), u = s.modRaster p.raster (fun r => { r with frame := p.frame, line := p.line, change := r.change.atLine true p.line }) ∧ s.linksUp = true ∧ s.reaches p = true ∧ p.raster < 8 ∧ p.line ≠ 0 ∧ p.line ≠ (s.raster p.raster).fmt.la ∧ s.txn.txns = [] ∧ s.glb.mode ≠ .rest ∧ s.ras.events = []) ∧
    (∃ (s : State) (p : LinePos) (u : State) (n : Nat) (e : LineEvent), u = s.modRaster p.raster (fun r => { r with frame := p.frame, line := p.line, change := r.change.atLine true p.line }) ∧ s.linksUp = true ∧ s.reaches p = true ∧ p.raster < 8 ∧ p.line ≠ 0 ∧ p.line ≠ (s.raster p.raster).fmt.la ∧ s.txn.txns = [] ∧ s.glb.mode ≠ .rest ∧ s.ras.events = [(n, e)] ∧ e.valid = true ∧ e.raster.toNat = p.raster ∧ e.latePend = false ∧ e.mode = 0 ∧ e.line.toNat = p.line ∧ e.action = 7 ∧ s.reloading 376 n = false ∧ e ≠ LineEvent.reset) :=
  ⟨⟨(solo.use 7 : State), (⟨7, 5, 2249⟩ : LinePos), ((solo.use 7 : State).modRaster (⟨7, 5, 2249⟩ : LinePos).raster (fun r => { r with frame := (⟨7, 5, 2249⟩ : LinePos).frame, line := (⟨7, 5, 2249⟩ : LinePos).line }) : State), by decide⟩,
   ⟨((solo.use 7).modDpo 7 (fun p => { p with link := .active }) : State), (⟨7, 5, 3⟩ : LinePos), (((solo.use 7).modDpo 7 (fun p => { p with link := .active }) : State).modRaster (⟨7, 5, 3⟩ : LinePos).raster (fun r => { r with frame := (⟨7, 5, 3⟩ : LinePos).frame, line := (⟨7, 5, 3⟩ : LinePos).line }) : State), by decide⟩,
   ⟨((solo.use 7).modLineEvent 3 (fun e => { e with valid := true, raster := 7, line := 2249, action := 7, arg := 17 }) : State), (⟨7, 5, 2249⟩ : LinePos), (((solo.use 7).modLineEvent 3 (fun e => { e with valid := true, raster := 7, line := 2249, action := 7, arg := 17 }) : State).modRaster (⟨7, 5, 2249⟩ : LinePos).raster (fun r => { r with frame := (⟨7, 5, 2249⟩ : LinePos).frame, line := (⟨7, 5, 2249⟩ : LinePos).line }) : State), (3 : Nat), (((solo.use 7).modLineEvent 3 (fun e => { e with valid := true, raster := 7, line := 2249, action := 7, arg := 17 }) : State).lineEvent 3 : LineEvent), by decide⟩⟩

/-- States and operands that meet the hypotheses of `InputRasters`, clause by clause. -/
theorem test_wit_InputRasters :
    (∃ (s : State) (k : Nat), 16 ≤ k ∧ s.rasterUsed k = true ∧ (s.raster k).inState ≠ .absent ∧ (20 ≤ k → max (s.stitch (256 + k)).lastA (s.stitch (256 + k)).lastB = 0 ∨ max (s.stitch (256 + k)).lastA (s.stitch (256 + k)).lastB + 2 * fmtPeriod (s.raster k).fmt ≤ s.now)) ∧
    (∃ (s : State) (k : Nat) (x : Nat), 16 ≤ k ∧ k < 20 ∧ s.linksUp = true ∧ s.rasterUsed k = true ∧ (s.dpi (k - 16)).link = .active ∧ (s.raster k).inState ≠ .acquiring) ∧
    (∃ (s : State) (k : Nat) (x : Nat), 16 ≤ k ∧ k < 20 ∧ s.linksUp = true ∧ s.rasterUsed k = true ∧ (s.dpi (k - 16)).link = .active ∧ s.ras.events = [] ∧ s.txn.txns = [] ∧ s.enc = [] ∧ s.glb.role ≠ .lead ∧ (s.raster k).measured = false) :=
  ⟨⟨((solo.use 27).modRaster 27 (fun r => { r with inState := .locked, measured := true }) : State), (27 : Nat), by decide⟩,
   ⟨(((solo.use 19).modDpi 3 (fun p => { p with link := .active })).modRaster 19 (fun r => { r with inState := .locked, measured := true }) : State), (19 : Nat), (5 : Nat), by decide⟩,
   ⟨((solo.use 16).modDpi 0 (fun p => { p with link := .active }) : State), (16 : Nat), (20000000 : Nat), by decide⟩⟩

/-- States and operands that meet the hypotheses of `RasterChanges`, clause by clause. -/
theorem test_wit_RasterChanges :
    (∃ (s : State) (k : Nat), k < 16 ∧ (s.raster k).realign = true ∧ s.rasterUsed k = true ∧ (s.raster k).line + 1 = (s.raster k).fmt.lt ∧ s.ras.events = [] ∧ s.txn.txns = []) ∧
    (∃ (s : State) (k : Nat) (f : RasterFmt), k < 16 ∧ s.retimable k f = true ∧ (k < 8 → (s.dpo k).video = (s.dpo k).format ++ BitVec.ofBool (s.dpo k).range ++ BitVec.ofBool (s.dpo k).depth) ∧ (s.raster k).fmt = { f with inUse := true, phase := (s.raster k).fmt.phase }) ∧
    (∃ (s : State) (k : Nat) (f : RasterFmt), k < 16 ∧ s.retimable k f = true ∧ s.ras.events = [] ∧ (samePhaseApart (s.raster k).fmt { f with inUse := true } = false ∨ (k < 8 ∧ (s.dpo k).video ≠ (s.dpo k).format ++ BitVec.ofBool (s.dpo k).range ++ BitVec.ofBool (s.dpo k).depth))) ∧
    (∃ (s : State) (k : Nat) (f : RasterFmt), k < 16 ∧ s.retimable k f = true ∧ s.ras.events = [] ∧ (samePhaseApart (s.raster k).fmt { f with inUse := true } = false ∨ (k < 8 ∧ (s.dpo k).video ≠ (s.dpo k).format ++ BitVec.ofBool (s.dpo k).range ++ BitVec.ofBool (s.dpo k).depth))) ∧
    (∃ (s : State) (k : Nat) (f : RasterFmt), 16 ≤ k ∧ s.retimable k f = true ∧ s.ras.events = []) ∧
    (∃ (s : State) (k : Nat), k < 16 ∧ (s.raster k).retiming = true ∧ s.ras.events = [] ∧ s.txn.txns = []) :=
  ⟨⟨({ (solo.use 15).modRaster 15 (fun r => { r with realign := true, line := 2249 }) with ptp := 99999999999 } : State), (15 : Nat), by decide⟩,
   ⟨(((solo.use 8).modGlb (fun g => { g with loaded := true })).modRaster 8 (fun r => { r with change := .due }) : State), (8 : Nat), ({ fmt1 with phase := 1000 } : RasterFmt), by decide⟩,
   ⟨(((solo.use 15).modGlb (fun g => { g with loaded := true })).modRaster 15 (fun r => { r with change := .due }) : State), (15 : Nat), ({ fmt1 with lt := 2300 } : RasterFmt), by decide⟩,
   ⟨((((solo.use 7).modGlb (fun g => { g with loaded := true })).modRaster 7 (fun r => { r with change := .due })).modDpo 7 (fun p => { p with link := .active, format := 1 }) : State), (7 : Nat), ({ fmt1 with syncStart := 4000, syncWidth := 40 } : RasterFmt), by decide⟩,
   ⟨(((solo.use 16).modGlb (fun g => { g with loaded := true })).modRaster 16 (fun r => { r with change := .committed }) : State), (16 : Nat), ({ fmt1 with lt := 2260 } : RasterFmt), by decide⟩,
   ⟨({ (solo.use 8).modRaster 8 (fun r => { r with retiming := true }) with ptp := 99999999999 } : State), (8 : Nat), by decide⟩⟩

/-- States and operands that meet the hypotheses of `EncodeCommands`, clause by clause. -/
theorem test_wit_EncodeCommands :
    (∃ (s : State) (i : Nat) (k : Nat) (p : EncPic), s.serving = true ∧ (s.encS i).started = true ∧ (s.encS i).cfg.input = some k ∧ s.tracking (s.encS i).cfg.raster = false ∧ (s.encS i).pics = [p] ∧ p.released < (s.encS i).cfg.rows ∧ p.zeroMotion = true) ∧
    (∃ (s : State) (i : Nat) (x : Posted) (r : List Posted), s.serving = true ∧ (s.encS i).cfg.enabled = true ∧ (s.encS i).cfg.input = none ∧ (s.encS i).posted = x :: r ∧ x.codable = true ∧ (s.encS i).pics = []) ∧
    (∃ (s : State) (i : Nat), s.serving = true ∧ (s.encS i).cfg.enabled = true ∧ (s.encS i).cfg.input = none ∧ (s.encS i).posted = [] ∧ (s.encS i).started = true ∧ (s.encS i).pics = []) ∧
    (∃ (s : State) (i : Nat) (c : Nat), s.serving = true ∧ s.mayEncode i c = true ∧ s.rowReady i = true ∧ s.rowBefore i c = false ∧ (s.core c).pstate ≠ .c0) ∧
    (∃ (s : State) (u : State) (i : Nat) (c : Nat) (p : EncPic) (q : EncPic) (r : List EncPic) (l : List EncPic), s.serving = true ∧ s.mayEncode i c = true ∧ (s.encS i).pics = p :: r ∧ p.issued = p.done ∧ p.issued < p.released ∧ s.rowBefore i c = false ∧ (s.core c).pstate = .c0 ∧ u = (if p.issued = 0 then s.beginPic i else s) ∧ (u.encS i).pics = q :: l) ∧
    (∃ (s : State) (i : Nat) (c : Nat) (p : EncPic) (r : List EncPic), s.serving = true ∧ s.mayEncode i c = true ∧ (s.encS i).pics = p :: r ∧ p.done < p.issued ∧ p.cores.length < s.rowCores i ∧ s.rowBefore i c = false ∧ (s.core c).pstate = .c0) ∧
    (∃ (s : State) (i : Nat) (p : EncPic) (r : List EncPic) (x : CodedRow) (g : RowForm) (cand : List Nat) (fl : BitVec 2), (s.encS i).pics = p :: r ∧ p.done < p.issued ∧ p.cores.length = s.rowCores i ∧ s.rowChoice i p x = some (g, cand, fl) ∧ (∀ q, s.glb.patch = some q → q.step ≠ 4)) ∧
    (∃ (s : State) (i : Nat) (x : CodedRow) (p : EncPic) (ctus : List CtuRun) (l : List EntropyRun), p.zeroMotion = true ∧ x.runs = ⟨4, 0, ctus⟩ :: l) :=
  ⟨⟨((solo.use 16).modEncS 255 (fun e => { e with started := true, cfg := { ecfg with input := some 16 }, pics := [{ EncPic.reset with released := 1, zeroMotion := true, frame := 3, deadline := [4] }] }) : State), (255 : Nat), (16 : Nat), ({ EncPic.reset with released := 1, zeroMotion := true, frame := 3, deadline := [4] } : EncPic), by decide⟩,
   ⟨((solo.use 0).modEncS 0 (fun e => { e with cfg := ecfg, posted := [⟨77, true, true, none, 500, ⟨512, 512, []⟩⟩] }) : State), (0 : Nat), (⟨77, true, true, none, 500, ⟨512, 512, []⟩⟩ : Posted), ([] : List Posted), by decide⟩,
   ⟨((solo.use 0).modEncS 0 (fun e => { e with cfg := ecfg, started := true }) : State), (0 : Nat), by decide⟩,
   ⟨(((solo.use 0).modEncS 9 (fun e => { e with cfg := { ecfg with home := 3 }, pics := [{ EncPic.reset with released := 2, issued := 1, done := 1 }] })).modCore 31 (fun c => { c with role := .encode, pstate := .c3, part := some 0 }) : State), (9 : Nat), (31 : Nat), by decide⟩,
   ⟨(((solo.use 0).modEncS 9 (fun e => { e with cfg := { ecfg with home := 3 }, pics := [{ EncPic.reset with released := 2, issued := 1, done := 1 }] })).modCore 31 (fun c => { c with role := .encode, pstate := .c0, part := some 0 }) : State), ((((solo.use 0).modEncS 9 (fun e => { e with cfg := { ecfg with home := 3 }, pics := [{ EncPic.reset with released := 2, issued := 1, done := 1 }] })).modCore 31 (fun c => { c with role := .encode, pstate := .c0, part := some 0 }) : State) : State), (9 : Nat), (31 : Nat), ({ EncPic.reset with released := 2, issued := 1, done := 1 } : EncPic), (({ EncPic.reset with released := 2, issued := 1, done := 1 } : EncPic) : EncPic), ([] : List EncPic), ([] : List EncPic), by decide⟩,
   ⟨(((solo.use 0).modEncS 9 (fun e => { e with cfg := { ecfg with home := 3 }, pics := [{ EncPic.reset with released := 2, issued := 2, done := 1 }] })).modCore 31 (fun c => { c with role := .encode, pstate := .c0, part := some 0 }) : State), (9 : Nat), (31 : Nat), ({ EncPic.reset with released := 2, issued := 2, done := 1 } : EncPic), ([] : List EncPic), by decide⟩,
   ⟨(((solo.use 0).modEncS 9 (fun e => { e with cfg := { ecfg with height := 192 }, pics := [{ EncPic.reset with released := 2, issued := 2, done := 1, cores := [4], zeroMotion := true }] })).modCore 4 (fun c => { c with encTask := some 9 }) : State), (9 : Nat), ({ EncPic.reset with released := 2, issued := 2, done := 1, cores := [4], zeroMotion := true } : EncPic), ([] : List EncPic), (⟨none, [], [], [⟨4, 0, []⟩]⟩ : CodedRow), ({ ((((solo.use 0).modEncS 9 (fun e => { e with cfg := { ecfg with height := 192 }, pics := [{ EncPic.reset with released := 2, issued := 2, done := 1, cores := [4], zeroMotion := true }] })).modCore 4 (fun c => { c with encTask := some 9 }) : State).encS (9 : Nat)).rowForm ((((solo.use 0).modEncS 9 (fun e => { e with cfg := { ecfg with height := 192 }, pics := [{ EncPic.reset with released := 2, issued := 2, done := 1, cores := [4], zeroMotion := true }] })).modCore 4 (fun c => { c with encTask := some 9 }) : State).raster ((((solo.use 0).modEncS 9 (fun e => { e with cfg := { ecfg with height := 192 }, pics := [{ EncPic.reset with released := 2, issued := 2, done := 1, cores := [4], zeroMotion := true }] })).modCore 4 (fun c => { c with encTask := some 9 }) : State).encS (9 : Nat)).cfg.raster).fmt ((((solo.use 0).modEncS 9 (fun e => { e with cfg := { ecfg with height := 192 }, pics := [{ EncPic.reset with released := 2, issued := 2, done := 1, cores := [4], zeroMotion := true }] })).modCore 4 (fun c => { c with encTask := some 9 }) : State).mtuOf ((((solo.use 0).modEncS 9 (fun e => { e with cfg := { ecfg with height := 192 }, pics := [{ EncPic.reset with released := 2, issued := 2, done := 1, cores := [4], zeroMotion := true }] })).modCore 4 (fun c => { c with encTask := some 9 }) : State).encS (9 : Nat)).cfg.flows) ({ EncPic.reset with released := 2, issued := 2, done := 1, cores := [4], zeroMotion := true } : EncPic) 1 (((((solo.use 0).modEncS 9 (fun e => { e with cfg := { ecfg with height := 192 }, pics := [{ EncPic.reset with released := 2, issued := 2, done := 1, cores := [4], zeroMotion := true }] })).modCore 4 (fun c => { c with encTask := some 9 }) : State).encS (9 : Nat)).rowQp ((((solo.use 0).modEncS 9 (fun e => { e with cfg := { ecfg with height := 192 }, pics := [{ EncPic.reset with released := 2, issued := 2, done := 1, cores := [4], zeroMotion := true }] })).modCore 4 (fun c => { c with encTask := some 9 }) : State).raster ((((solo.use 0).modEncS 9 (fun e => { e with cfg := { ecfg with height := 192 }, pics := [{ EncPic.reset with released := 2, issued := 2, done := 1, cores := [4], zeroMotion := true }] })).modCore 4 (fun c => { c with encTask := some 9 }) : State).encS (9 : Nat)).cfg.raster).fmt ({ EncPic.reset with released := 2, issued := 2, done := 1, cores := [4], zeroMotion := true } : EncPic) 1).1 (⟨none, [], [], [⟨4, 0, []⟩]⟩ : CodedRow) with stage := 4, kept := [], run := ⟨4, 0, []⟩ } : RowForm), ([] : List Nat), ((((((solo.use 0).modEncS 9 (fun e => { e with cfg := { ecfg with height := 192 }, pics := [{ EncPic.reset with released := 2, issued := 2, done := 1, cores := [4], zeroMotion := true }] })).modCore 4 (fun c => { c with encTask := some 9 }) : State).encS (9 : Nat)).rowQp ((((solo.use 0).modEncS 9 (fun e => { e with cfg := { ecfg with height := 192 }, pics := [{ EncPic.reset with released := 2, issued := 2, done := 1, cores := [4], zeroMotion := true }] })).modCore 4 (fun c => { c with encTask := some 9 }) : State).raster ((((solo.use 0).modEncS 9 (fun e => { e with cfg := { ecfg with height := 192 }, pics := [{ EncPic.reset with released := 2, issued := 2, done := 1, cores := [4], zeroMotion := true }] })).modCore 4 (fun c => { c with encTask := some 9 }) : State).encS (9 : Nat)).cfg.raster).fmt ({ EncPic.reset with released := 2, issued := 2, done := 1, cores := [4], zeroMotion := true } : EncPic) 1).2 : BitVec 2), by decide⟩,
   ⟨(solo : State), (3 : Nat), (⟨none, [], [], [⟨4, 0, []⟩]⟩ : CodedRow), ({ EncPic.reset with released := 2, issued := 2, done := 1, cores := [4], zeroMotion := true } : EncPic), ([] : List CtuRun), ([] : List EntropyRun), by decide⟩⟩

/-- States and operands that meet the hypotheses of `BitstreamUnits`, clause by clause. -/
theorem test_wit_BitstreamUnits :
    (∃ (s : State) (i : Nat) (x : SliceInfo), s.serving = true ∧ (s.decS i).st = .waiting ∨ (s.decS i).st = .unsupported ∧ (s.decS i).rptr + x.bytes ≤ (s.decS i).wptr ∧ x.newPic = false ∧ (s.decS i).reorderDepth = 0 ∨ (s.decS i).pics = []) ∧
    (∃ (s : State) (i : Nat) (x : SliceInfo) (p : DecPic), s.serving = true ∧ (s.decS i).st = .decoding ∧ (s.decS i).openPic = some p ∧ (s.decS i).rptr + x.bytes ≤ (s.decS i).wptr ∧ (takeItems x.bytes (s.decS i).items).2 = false ∧ x.newPic = false ∧ ((s.decS i).cfg.h264 = true ∨ x.layer = 0) ∧ (x.exact = false ∨ x.recovery = none) ∧ (s.decS i).auBad = false ∧ (s.decS i).auSkip = false ∧ (s.decS i).segmentError p x false = none ∧ (s.decS i).pieces p = 1 ∧ (s.decS i).reorderDepth = 0) ∧
    (∃ (s : State) (i : Nat) (x : SliceInfo), s.sliceParse i x = none) ∧
    (∃ (s : State) (i : Nat) (p : ParamSet) (au : AuKind), s.serving = true ∧ (s.decS i).st ≠ .idle ∧ p.wellFormed = true ∧ p.layer = 0 ∧ (s.decS i).param p.kind p.id = none ∧ (s.decS i).breaks p = none ∧ (s.decS i).sps.map (·.id) ≠ some p.id) ∧
    (∃ (s : State) (i : Nat) (p : ParamSet) (au : AuKind), s.serving = true ∧ (s.decS i).st ≠ .idle ∧ p.wellFormed = false ∧ ((s.decS i).cfg.h264 = true ∨ p.layer = 0)) ∧
    (∃ (s : State) (i : Nat), (s.decS i).st = .waiting ∨ (s.decS i).st = .unsupported ∧ (s.decS i).openPic = none) :=
  ⟨⟨(solo.modDecS 255 (fun d => { d with st := .waiting, items := [.bytes 100 5], wptr := 100 }) : State), (255 : Nat), ({ slice0 with bytes := 100 } : SliceInfo), by decide⟩,
   ⟨(solo.modDecS 7 (fun d => { d with st := .decoding, sps := some sps1, params := [sps1, { sps1 with kind := 0, id := 0 }, { sps1 with kind := 2, id := 0 }], pics := [{ DecPic.reset with num := 4, ctu := 64, ctuRows := 2 }], items := [.bytes 100 5], wptr := 100 }) : State), (7 : Nat), ({ slice0 with bytes := 100, ctus := 4, lastRow := 1, sps := 2 } : SliceInfo), ({ DecPic.reset with num := 4, ctu := 64, ctuRows := 2 } : DecPic), by decide⟩,
   ⟨(solo.modDecS 7 (fun d => { d with st := .decoding, sps := some sps1, cols := 2, rowsN := 2 }) : State), (7 : Nat), ({ slice0 with newPic := true } : SliceInfo), by decide⟩,
   ⟨(solo.modDecS 0 (fun d => { d with st := .waiting }) : State), (0 : Nat), (sps1 : ParamSet), (.irap : AuKind), by decide⟩,
   ⟨(solo.modDecS 9 (fun d => { d with st := .decoding, params := [sps1] }) : State), (9 : Nat), ({ sps1 with wellFormed := false } : ParamSet), (.irap : AuKind), by decide⟩,
   ⟨(solo.modDecS 7 (fun d => { d with st := .unsupported, items := [.bytes 100 5, .eoa, .bytes 3 4], wptr := 103 }) : State), (7 : Nat), by decide⟩⟩

/-- States and operands that meet the hypotheses of `DecodeTasks`, clause by clause. -/
theorem test_wit_DecodeTasks1 :
    (∃ (s : State) (b : Nat) (c : Nat) (n : Nat), s.serving = true ∧ (s.bay b).fenced = false ∧ s.nextTask b c = some n ∧ (s.core c).pstate ≠ .c0) ∧
    (∃ (s : State) (b : Nat) (c : Nat) (n : Nat) (x : RowTask), s.serving = true ∧ (s.bay b).fenced = false ∧ s.nextTask b c = some n ∧ (s.core c).pstate = .c0 ∧ s.task n = some x) ∧
    (∃ (s : State) (b : Nat) (c : Nat) (n : Nat) (x : RowTask), s.serving = true ∧ (s.bay b).fenced = false ∧ s.nextTask b c = some n ∧ (s.core c).pstate = .c0 ∧ s.task n = some x) ∧
    (∃ (s : State) (n : Nat) (c : Nat) (x : RowTask) (res : List TileRes) (errs : List DecErr), s.task n = some x ∧ x.check = false ∧ x.core = some c ∧ (s.decS x.stream).stalls res = false ∧ (∀ q, s.glb.patch = some q → q.step ≠ 4)) ∧
    (∃ (s : State) (n : Nat) (c : Nat) (x : RowTask) (res : List TileRes) (errs : List DecErr), s.task n = some x ∧ x.check = true ∧ x.core = some c ∧ (s.decS x.stream).checkStalls x.pic res = false ∧ (∀ q, s.glb.patch = some q → q.step ≠ 4)) ∧
    (∃ (s : State) (n : Nat) (x : RowTask), s.task n = some x ∧ x.late = false ∧ x.deadline < s.time ∧ x.check = true) ∧
    (∃ (s : State) (n : Nat) (x : RowTask), s.task n = some x ∧ x.late = false ∧ x.deadline < s.time ∧ x.check = false ∧ x.row ∉ ((s.decS x.stream).pic x.pic).lateRows) ∧
    (∃ (s : State) (i : Nat) (x : List DecPic × Option DecPic), (s.decS i).st = .decoding ∧ s.behind i = true ∧ x = skipped ((s.decS i).pics.filter (s.unstarted i))) :=
  ⟨⟨(((solo.tasked { task1 with check := true }).coreOn 15 .check).modCore 15 (fun x => { x with pstate := .c3 }) : State), (1 : Nat), (15 : Nat), (9 : Nat), by decide⟩,
   ⟨((solo.tasked { task1 with check := true }).coreOn 15 .check : State), (1 : Nat), (15 : Nat), (9 : Nat), ({ task1 with check := true } : RowTask), by decide⟩,
   ⟨((solo.tasked task1).coreOn 9 .decode : State), (1 : Nat), (9 : Nat), (9 : Nat), (task1 : RowTask), by decide⟩,
   ⟨((solo.tasked { task1 with core := some 9 }).modCore 9 (fun c => { c with tasks := [9] }) : State), (9 : Nat), (9 : Nat), ({ task1 with core := some 9 } : RowTask), ([] : List TileRes), ([] : List DecErr), by decide⟩,
   ⟨((solo.tasked { task1 with core := some 9, check := true }).modCore 9 (fun c => { c with tasks := [9] }) : State), (9 : Nat), (9 : Nat), ({ task1 with core := some 9, check := true } : RowTask), ([] : List TileRes), ([] : List DecErr), by decide⟩,
   ⟨((solo.tasked { task1 with check := true, deadline := 5 }).after 6 : State), (9 : Nat), ({ task1 with check := true, deadline := 5 } : RowTask), by decide⟩,
   ⟨((solo.tasked { task1 with deadline := 5 }).after 6 : State), (9 : Nat), ({ task1 with deadline := 5 } : RowTask), by decide⟩,
   ⟨(((((solo.modDecS 255 (fun d => { d with st := .decoding, sps := some sps1, pics := [{ DecPic.reset with num := 4, ctu := 64, ctuRows := 2, outTime := 1 }] })).modPoolD 0 (fun d => { d with cur := true })).use 0).after 99000000000) : State), (255 : Nat), (skipped (((((((solo.modDecS 255 (fun d => { d with st := .decoding, sps := some sps1, pics := [{ DecPic.reset with num := 4, ctu := 64, ctuRows := 2, outTime := 1 }] })).modPoolD 0 (fun d => { d with cur := true })).use 0).after 99000000000) : State).decS (255 : Nat)).pics.filter ((((((solo.modDecS 255 (fun d => { d with st := .decoding, sps := some sps1, pics := [{ DecPic.reset with num := 4, ctu := 64, ctuRows := 2, outTime := 1 }] })).modPoolD 0 (fun d => { d with cur := true })).use 0).after 99000000000) : State).unstarted (255 : Nat))) : List DecPic × Option DecPic), by decide⟩⟩

/-- States and operands that meet the hypotheses of `DecodeTasks`, clause by clause. -/
theorem test_wit_DecodeTasks2 :
    (∃ (s : State) (i : Nat) (a : Nat) (bs : List Byte), (s.decS i).cfg.foreign = true ∨ bs.take 16 ≠ ledgerUuid) ∧
    (∃ (s : State) (i : Nat) (a : Nat) (bs : List Byte) (p : DecPic), (s.decS i).cfg.foreign = false ∧ bs.take 16 = ledgerUuid ∧ (s.decS i).st = .decoding ∨ (s.decS i).st = .skipping ∧ (s.decS i).openPic = some p) :=
  ⟨⟨(solo : State), (4 : Nat), (5 : Nat), ([1, 2] : List Byte), by decide⟩,
   ⟨(solo.modDecS 3 (fun d => { d with st := .decoding, pics := [{ DecPic.reset with num := 4 }] }) : State), (3 : Nat), (9 : Nat), (ledgerUuid ++ [1, 0] : List Byte), ({ DecPic.reset with num := 4 } : DecPic), by decide⟩⟩

/-- States and operands that meet the hypotheses of `CompositorCommands`, clause by clause. -/
theorem test_wit_CompositorCommands :
    (∃ (s : State) (p : LinePos), s.serving = true ∧ p.raster < 16 ∧ s.rasterUsed p.raster = true ∧ p.line < (s.raster p.raster).fmt.la ∧ (s.raster p.raster).retiming = false ∧ (∀ x ∈ s.cmp.windows, x.2.enable = true → x.2.raster.toNat = p.raster → x.2.crosses p.line = false) ∧ (p.line = 0 → (∀ x ∈ s.cmp.windows, x.2.raster.toNat ≠ p.raster) ∧ (∀ x ∈ s.cmp.pendWin, x.2.any (fun w => w.raster.toNat == p.raster) = false))) ∧
    (∃ (s : State) (w : Nat) (p : LinePos), s.serving = true ∧ (s.window w).enable = true ∧ (s.window w).raster.toNat = p.raster ∧ (s.window w).crosses p.line = true ∧ (s.window w).lateFrame ≠ some p.frame) ∧
    (∃ (s : State) (w : Nat) (p : LinePos), (s.window w).lateFrame = some p.frame) ∧
    (∃ (s : State) (first : Nat) (count : Nat), s.serving = true) ∧
    (∃ (s : State) (i : Nat), s.serving = true ∧ i < 256 ∧ s.windowsOf i ≠ [] ∧ (s.decS i).onDie = false ∧ s.onDieTiles + (s.decS i).cols * (s.decS i).rowsN ≤ 196608) :=
  ⟨⟨(solo.modRaster 15 (fun r => { r with fmt := { fmt1 with width := 4 } }) : State), (⟨15, 3, 2159⟩ : LinePos), by decide⟩,
   ⟨((solo.use 7).modWindow 511 (fun w => { w with enable := true, raster := 7, dstY := 10, dstH := 5, dstW := 8 }) : State), (511 : Nat), (⟨7, 3, 14⟩ : LinePos), by decide⟩,
   ⟨((solo.use 7).modWindow 511 (fun w => { w with enable := true, raster := 7, dstY := 10, dstH := 5, dstW := 8, lateFrame := some 3 }) : State), (511 : Nat), (⟨7, 3, 14⟩ : LinePos), by decide⟩,
   ⟨({ (solo.modCmp (fun c => { c with tiles := [(2, { TileEntry.reset with cond := .verified, tv := true, tAtt := 5 })] })) with ptp := 80000000000000 } : State), (2 : Nat), (255 : Nat), by decide⟩,
   ⟨((solo.modWindow 0 (fun w => { w with enable := true, stream := 255 })).modDecS 255 (fun d => { d with cols := 4, rowsN := 2 }) : State), (255 : Nat), by decide⟩⟩

/-- States and operands that meet the hypotheses of `DisplayPorts`, clause by clause. -/
theorem test_wit_DisplayPorts1 :
    (∃ (s : State) (n : Nat), n < 8 ∧ (s.dpo n).hpd = true ∧ (s.dpo n).link ≠ .down) ∧
    (∃ (s : State) (n : Nat), n < 8 ∧ (s.dpo n).hpd = false ∧ (s.dpo n).link ≠ .training ∧ s.linksUp = true ∧ (s.dpo n).fenced = false) ∧
    (∃ (s : State) (n : Nat) (l : BitVec 4 × BitVec 3) (found : List (BitVec 4 × BitVec 3)), n < 8 ∧ s.linksUp = true ∧ (s.dpo n).hpd = true ∧ (s.dpo n).fenced = false ∧ (sourceLinks.filter found.contains).find? (s.enough n) = some l) ∧
    (∃ (s : State) (n : Nat) (l : BitVec 4 × BitVec 3) (r : List (BitVec 4 × BitVec 3)) (found : List (BitVec 4 × BitVec 3)), n < 8 ∧ s.linksUp = true ∧ (s.dpo n).hpd = true ∧ (s.dpo n).fenced = false ∧ sourceLinks.filter found.contains = l :: r ∧ (∀ x ∈ l :: r, s.enough n x = false)) ∧
    (∃ (s : State) (n : Nat) (found : List (BitVec 4 × BitVec 3)), n < 8 ∧ s.linksUp = true ∧ (s.dpo n).hpd = true ∧ (s.dpo n).fenced = false ∧ sourceLinks.filter found.contains = []) ∧
    (∃ (s : State) (n : Nat) (l : BitVec 4 × BitVec 3) (found : List (BitVec 4 × BitVec 3)), n < 8 ∧ s.linksUp = true ∧ (s.dpo n).hpd = true ∧ (s.dpo n).fenced = false ∧ (sourceLinks.filter found.contains).find? (s.enough n) = some l) ∧
    (∃ (s : State) (n : Nat) (rate : BitVec 4) (lanes : BitVec 3) (m : MainStream), n < 4 ∧ s.linksUp = true ∧ (s.dpi n).enable = true ∧ (s.dpi n).hpd = true ∧ (s.dpi n).fenced = false ∧ sinkLink rate lanes = true ∧ s.sinkReason n m = 0) ∧
    (∃ (s : State) (n : Nat) (rate : BitVec 4) (lanes : BitVec 3) (m : MainStream), n < 4 ∧ s.linksUp = true ∧ (s.dpi n).enable = true ∧ (s.dpi n).hpd = true ∧ (s.dpi n).fenced = false ∧ sinkLink rate lanes = true ∧ s.sinkReason n m = 0) :=
  ⟨⟨(solo.modDpo 7 (fun p => { p with hpd := true, link := .active, lanes := 4 }) : State), (7 : Nat), by decide⟩,
   ⟨(solo : State), (0 : Nat), by decide⟩,
   ⟨(solo.modDpo 7 (fun p => { p with hpd := true, link := .training }) : State), (7 : Nat), ((3, 4) : BitVec 4 × BitVec 3), ([(1, 2), (3, 4), (9, 4)] : List (BitVec 4 × BitVec 3)), by decide⟩,
   ⟨((solo.modRaster 7 (fun r => { r with fmt := { fmt1 with hTotal := Config.dpPayload 3 1 + 1 } })).modDpo 7 (fun p => { p with hpd := true, link := .training }) : State), (7 : Nat), ((3, 1) : BitVec 4 × BitVec 3), ([] : List (BitVec 4 × BitVec 3)), ([(3, 1), (9, 4)] : List (BitVec 4 × BitVec 3)), ⟨by decide, by decide, by decide, by decide, by decide, short_link _ 7 rfl⟩⟩,
   ⟨(solo.modDpo 7 (fun p => { p with hpd := true, link := .training, lanes := 2 }) : State), (7 : Nat), ([(9, 4)] : List (BitVec 4 × BitVec 3)), by decide⟩,
   ⟨(solo.modDpo 0 (fun p => { p with hpd := true, link := .active, switched := true }) : State), (0 : Nat), ((3, 4) : BitVec 4 × BitVec 3), ([(1, 2), (3, 4)] : List (BitVec 4 × BitVec 3)), by decide⟩,
   ⟨((solo.modDpi 3 (fun p => { p with enable := true, hpd := true, depth := true })).use 19 : State), (3 : Nat), (3 : BitVec 4), (4 : BitVec 3), (⟨3840, 2160, 0, 10, false, 60, 1⟩ : MainStream), by decide⟩,
   ⟨(((solo.modDpi 3 (fun p => { p with enable := true, hpd := true, depth := true })).use 19).modRaster 19 (fun r => { r with inState := .locked }) : State), (3 : Nat), (3 : BitVec 4), (4 : BitVec 3), (⟨3840, 2160, 0, 10, false, 60, 1⟩ : MainStream), by decide⟩⟩

/-- States and operands that meet the hypotheses of `DisplayPorts`, clause by clause. -/
theorem test_wit_DisplayPorts2 :
    (∃ (s : State) (n : Nat) (rate : BitVec 4) (lanes : BitVec 3) (m : MainStream), n < 4 ∧ s.linksUp = true ∧ (s.dpi n).enable = true ∧ (s.dpi n).hpd = true ∧ (s.dpi n).fenced = false ∧ sinkLink rate lanes = true ∧ s.sinkReason n m ≠ 0) ∧
    (∃ (s : State) (n : Nat) (rate : BitVec 4) (lanes : BitVec 3) (m : MainStream), n < 4 ∧ s.linksUp = true ∧ (s.dpi n).enable = true ∧ (s.dpi n).hpd = true ∧ (s.dpi n).fenced = false ∧ sinkLink rate lanes = true ∧ s.sinkReason n m ≠ 0) ∧
    (∃ (s : State) (n : Nat), n < 4) ∧
    (∃ (s : State) (n : Nat), (s.dpi n).pulse = true) ∧
    (∃ (s : State) (n : Nat) (v : Word), v.extractLsb' 24 8 = (s.dpi n).seq) ∧
    (∃ (s : State) (n : Nat) (v : Word), v.extractLsb' 24 8 ≠ (s.dpi n).seq) :=
  ⟨⟨((solo.modDpi 3 (fun p => { p with enable := true, hpd := true, depth := true })).use 19 : State), (3 : Nat), (3 : BitVec 4), (4 : BitVec 3), (⟨3840, 2161, 0, 10, false, 60, 1⟩ : MainStream), by decide⟩,
   ⟨((solo.modDpi 0 (fun p => { p with enable := true, hpd := true })).use 16 : State), (0 : Nat), (3 : BitVec 4), (4 : BitVec 3), (⟨3840, 2160, 3, 8, false, 60, 1⟩ : MainStream), by decide⟩,
   ⟨(solo.modDpi 3 (fun p => { p with link := .active, lanes := 4, measW := 3 }) : State), (3 : Nat), by decide⟩,
   ⟨(solo.modDpi 2 (fun p => { p with enable := true, pulse := true }) : State), (2 : Nat), by decide⟩,
   ⟨(solo.modDpi 2 (fun p => { p with reason := 3, seq := 255 }) : State), (2 : Nat), (0xFF000000 : Word), by decide⟩,
   ⟨(solo.modDpi 2 (fun p => { p with reason := 3, seq := 255 }) : State), (2 : Nat), (0xFE000000 : Word), by decide⟩⟩

/-- States and operands that meet the hypotheses of `CoreIssue`, clause by clause. -/
theorem test_wit_CoreIssue1 :
    (∃ (s : State) (c : Nat) (h : Nat), s.issues c = true ∧ (s.core c).pick = some h ∧ parityFail ((s.core c).word ((s.core c).thread h).pc) = none ∧ (s.core c).illegalCause ((s.core c).thread h) ((s.core c).word ((s.core c).thread h).pc) = none ∧ (s.core c).busyUnit ((s.core c).word ((s.core c).thread h).pc) = none ∧ ((s.core c).word ((s.core c).thread h).pc).mop ≠ 1 ∧ ((s.core c).word ((s.core c).thread h).pc).mop ≠ 2) ∧
    (∃ (s : State) (c : Nat) (h : Nat), s.issues c = true ∧ (s.core c).pick = some h ∧ parityFail ((s.core c).word ((s.core c).thread h).pc) = none ∧ (s.core c).illegalCause ((s.core c).thread h) ((s.core c).word ((s.core c).thread h).pc) = none ∧ (s.core c).busyUnit ((s.core c).word ((s.core c).thread h).pc) = none ∧ ((s.core c).word ((s.core c).thread h).pc).mop ≠ 1 ∧ ((s.core c).word ((s.core c).thread h).pc).mop ≠ 2) ∧
    (∃ (s : State) (c : Nat) (h : Nat) (w : MWord), s.issues c = true ∧ (s.core c).pick = some h ∧ w = (s.core c).word ((s.core c).thread h).pc ∧ parityFail w = none ∧ (s.core c).illegalCause ((s.core c).thread h) w = none ∧ (s.core c).busyUnit w = none ∧ w.mop = 1) ∧
    (∃ (s : State) (c : Nat) (h : Nat) (w : MWord), s.issues c = true ∧ (s.core c).pick = some h ∧ w = (s.core c).word ((s.core c).thread h).pc ∧ parityFail w = none ∧ (s.core c).illegalCause ((s.core c).thread h) w = none ∧ (s.core c).busyUnit w = none ∧ w.mop = 2) ∧
    (∃ (s : State) (c : Nat) (h : Nat) (u : Nat), s.issues c = true ∧ (s.core c).pick = some h ∧ parityFail ((s.core c).word ((s.core c).thread h).pc) = none ∧ (s.core c).illegalCause ((s.core c).thread h) ((s.core c).word ((s.core c).thread h).pc) = none ∧ (s.core c).busyUnit ((s.core c).word ((s.core c).thread h).pc) = some u) ∧
    (∃ (s : State) (c : Nat) (u : BitVec 3) (st : BitVec 4) (inf : BitVec 4), ((s.core c).unit u.toNat).busy = true ∧ (s.core c).gated u.toNat = false) ∧
    (∃ (s : State) (c : Nat) (d : CoreDma) (e : CoreDma) (u : State), (s.core c).oldestDma true = some d ∧ s.moveLines c d.lines d = (e, u) ∧ d.lines ≤ e.done) ∧
    (∃ (s : State) (c : Nat) (d : CoreDma) (e : CoreDma) (u : State), (s.core c).oldestDma false = some d ∧ s.moveLines c d.lines d = (e, u) ∧ d.lines ≤ e.done) :=
  ⟨⟨(solo.runs 31 (withParity (3 <<< 48 ||| 15 <<< 39)) : State), (31 : Nat), (2 : Nat), by decide⟩,
   ⟨(solo.runs 31 (withParity 0) : State), (31 : Nat), (2 : Nat), by decide⟩,
   ⟨(solo.runs 31 (withParity (1 <<< 48 ||| 15 <<< 39)) : State), (31 : Nat), (2 : Nat), (withParity (1 <<< 48 ||| 15 <<< 39) : MWord), by decide⟩,
   ⟨(solo.runs 31 (withParity (2 <<< 48 ||| 15 <<< 39)) : State), (31 : Nat), (2 : Nat), (withParity (2 <<< 48 ||| 15 <<< 39) : MWord), by decide⟩,
   ⟨((solo.runs 31 (withParity (3 <<< 80))).modCore 31 (fun x => { x with units := [(3, { UnitS.reset with busy := true })] }) : State), (31 : Nat), (2 : Nat), (3 : Nat), by decide⟩,
   ⟨(solo.modCore 5 (fun x => { x with units := [(6, { UnitS.reset with busy := true })] }) : State), (5 : Nat), (6 : BitVec 3), (15 : BitVec 4), (3 : BitVec 4), by decide⟩,
   ⟨(solo.modCore 31 (fun x => { x with dma := [⟨false, 0, false, 0, 0, 0, 0⟩, ⟨true, 7, false, 0, 0, 64, 0⟩] }) : State), (31 : Nat), (⟨true, 7, false, 0, 0, 64, 0⟩ : CoreDma), (((solo.modCore 31 (fun x => { x with dma := [⟨false, 0, false, 0, 0, 0, 0⟩, ⟨true, 7, false, 0, 0, 64, 0⟩] }) : State).moveLines (31 : Nat) (⟨true, 7, false, 0, 0, 64, 0⟩ : CoreDma).lines (⟨true, 7, false, 0, 0, 64, 0⟩ : CoreDma)).1 : CoreDma), (((solo.modCore 31 (fun x => { x with dma := [⟨false, 0, false, 0, 0, 0, 0⟩, ⟨true, 7, false, 0, 0, 64, 0⟩] }) : State).moveLines (31 : Nat) (⟨true, 7, false, 0, 0, 64, 0⟩ : CoreDma).lines (⟨true, 7, false, 0, 0, 64, 0⟩ : CoreDma)).2 : State), by decide⟩,
   ⟨(solo.modCore 31 (fun x => { x with dma := [⟨true, 7, false, 0, 0, 64, 0⟩, ⟨false, 0, false, 0, 0, 0, 0⟩] }) : State), (31 : Nat), (⟨false, 0, false, 0, 0, 0, 0⟩ : CoreDma), (((solo.modCore 31 (fun x => { x with dma := [⟨true, 7, false, 0, 0, 64, 0⟩, ⟨false, 0, false, 0, 0, 0, 0⟩] }) : State).moveLines (31 : Nat) (⟨false, 0, false, 0, 0, 0, 0⟩ : CoreDma).lines (⟨false, 0, false, 0, 0, 0, 0⟩ : CoreDma)).1 : CoreDma), (((solo.modCore 31 (fun x => { x with dma := [⟨true, 7, false, 0, 0, 64, 0⟩, ⟨false, 0, false, 0, 0, 0, 0⟩] }) : State).moveLines (31 : Nat) (⟨false, 0, false, 0, 0, 0, 0⟩ : CoreDma).lines (⟨false, 0, false, 0, 0, 0, 0⟩ : CoreDma)).2 : State), by decide⟩⟩

/-- States and operands that meet the hypotheses of `CoreIssue`, clause by clause. -/
theorem test_wit_CoreIssue2 :
    (∃ (s : State) (c : Nat), s.running = true ∧ c < 32 ∧ (s.core c).fenced = false ∧ (s.bay (c / 8)).changing = none ∧ (s.core c).pstate = .c0 ∧ (s.core c).stalled = false ∧ (s.core c).deadlocked = true ∧ (s.core c).movedAt + s.cycles c 4096 ≤ s.now ∧ (s.core c).tasks = [] ∧ (s.core c).encTask = none ∧ (s.core c).recent = []) ∧
    (∃ (s : State) (c : Nat), (s.core c).reload = true) ∧
    (∃ (s : State) (c : Nat) (v : Word), v.extractLsb' 24 8 = (s.core c).seq) :=
  ⟨⟨((solo.stuck 31).at' 9000000 : State), (31 : Nat), by decide⟩,
   ⟨(solo.modCore 0 (fun x => { x with stalled := true, reload := true }) : State), (0 : Nat), by decide⟩,
   ⟨(solo.modCore 9 (fun x => { x with seq := 255, cause := 3 }) : State), (9 : Nat), (0xFF000000 : Word), by decide⟩⟩

/-- States and operands that meet the hypotheses of `CorePower`, clause by clause. -/
theorem test_wit_CorePower1 :
    (∃ (s : State) (c : Nat) (e : Nat), c < 32 ∧ (s.core c).fenced = false ∧ (s.core c).pstate = .c0 ∧ 32 ≤ e ∧ e < 38 ∧ e ≠ 36) ∧
    (∃ (s : State) (c : Nat) (e : Nat), c < 32 ∧ (s.core c).fenced = false ∧ (s.core c).pstate ≠ .c0 ∧ 32 ≤ e ∧ e < 38) ∧
    (∃ (s : State) (c : Nat) (e : Nat), c < 32 ∧ (s.core c).fenced = false ∧ (s.core c).pstate ≠ .c0 ∧ 32 ≤ e ∧ e < 38) ∧
    (∃ (s : State) (c : Nat), c < 32 ∧ (s.core c).fenced = false) ∧
    (∃ (s : State) (c : Nat), (s.core c).pstate = .c0 ∧ (s.core c).fenced = false ∧ (s.core c).allIdle = true) ∧
    (∃ (s : State) (c : Nat) (p : PState), 2 ≤ stateDepth p ∧ stateDepth (s.core c).pstate < stateDepth p ∧ (s.core c).fenced = false ∧ (s.core c).waking = false ∧ (s.core c).allIdle = true ∧ (s.core c).tasks = [] ∧ (s.core c).encTask = none ∧ (s.core c).dma = [] ∧ stateDepth p ≤ s.blw.deepest.look 4 (roleIndex (s.core c).role)) ∧
    (∃ (s : State) (c : Nat), s.running = true ∧ c < 32 ∧ (s.core c).fenced = false ∧ (s.core c).waking = false ∧ (s.core c).pstate = .c1) ∧
    (∃ (s : State) (c : Nat), (s.core c).waking = true ∧ (s.core c).granted = true ∧ (s.core c).fenced = false ∧ s.bayState = .c0 ∧ (s.core c).grantAt + exitTime (s.core c).pstate ≤ s.now) :=
  ⟨⟨(solo.modCore 31 (fun x => { x with pstate := .c0 }) : State), (31 : Nat), (35 : Nat), by decide⟩,
   ⟨(solo.modCore 31 (fun x => { x with pstate := .c3 }) : State), (31 : Nat), (33 : Nat), by decide⟩,
   ⟨(solo.modCore 31 (fun x => { x with pstate := .c1 }) : State), (31 : Nat), (36 : Nat), by decide⟩,
   ⟨(solo.modCore 31 (fun x => { x with pstate := .c0, tasks := [5] }) : State), (31 : Nat), by decide⟩,
   ⟨(solo.modCore 31 (fun x => { x with pstate := .c0 }) : State), (31 : Nat), by decide⟩,
   ⟨((solo.modCore 31 (fun x => { x with pstate := .c1 })).modRail 3 (fun r => { r with grants := [(.wake, 31, 5), (.wake, 30, 5)] }) : State), (31 : Nat), (.c4 : PState), by decide⟩,
   ⟨(solo.modCore 31 (fun x => { x with pstate := .c1, entered := 7 }) : State), (31 : Nat), by decide⟩,
   ⟨((solo.modCore 31 (fun x => { x with pstate := .c1, waking := true, granted := true, grantAt := 3 })).at' 9000000 : State), (31 : Nat), by decide⟩⟩

/-- States and operands that meet the hypotheses of `CorePower`, clause by clause. -/
theorem test_wit_CorePower2 :
    (∃ (s : State) (c : Nat), s.running = true ∧ c < 32 ∧ (s.core c).swapReason ≠ 0) ∧
    (∃ (s : State) (c : Nat), s.running = true ∧ c < 32 ∧ (s.core c).swapReason ≠ 0) ∧
    (∃ (s : State) (c : Nat), s.running = true ∧ c < 32 ∧ (s.core c).swapReason = 0) ∧
    (∃ (s : State) (w : Writer) (c : Nat) (a : BitVec 13) (v : BitVec 160), c < 32) ∧
    (∃ (s : State) (c : Nat), c < 32 ∧ (s.core c).draining = true ∧ (s.core c).tasks = [] ∧ (s.core c).encTask = none ∧ s.glb.patch = none) :=
  ⟨⟨(solo.modCore 31 (fun x => x.modThread 7 (fun t => { t with st := .wait })) : State), (31 : Nat), by decide⟩,
   ⟨(solo : State), (0 : Nat), by decide⟩,
   ⟨(solo.modCore 31 (fun x => { x with validB := true, crcB := x.bankCrc true }) : State), (31 : Nat), ⟨by decide, by decide, swap_ready _ (by decide) (by decide) rfl rfl rfl⟩⟩,
   ⟨(solo.modCore 31 (fun x => { x with bank := true }) : State), (.tack : Writer), (31 : Nat), (8191 : BitVec 13), (5 : BitVec 160), by decide⟩,
   ⟨(solo.modCore 31 (fun x => { x with draining := true }) : State), (31 : Nat), by decide⟩⟩

/-- States and operands that meet the hypotheses of `DramAccess`, clause by clause. -/
theorem test_wit_DramAccess :
    (∃ (s : State) (r : Requester) (a : Nat) (n : Nat) (l : Nat) (d : BitVec 512), s.running = true ∧ (∀ v ∈ s.drm.waits, s.requestWaits v.request.1 v.request.2 = true) ∧ s.requestWaits r a = false ∧ s.drm.lineOf a = some (n, l) ∧ s.regionOk r a = true ∧ (s.chan n).st = .active) ∧
    (∃ (s : State) (r : Requester) (a : Nat) (n : Nat) (l : Nat) (fs : List (Nat × Nat)), s.running = true ∧ (∀ v ∈ s.drm.waits, s.requestWaits v.request.1 v.request.2 = true) ∧ s.requestWaits r a = false ∧ s.drm.lineOf a = some (n, l) ∧ s.regionOk r a = true ∧ (s.chan n).st = .fenced ∧ (∀ c u, r.src ≠ .core c u)) ∧
    (∃ (s : State) (r : Requester) (a : Nat) (n : Nat) (l : Nat) (bs : List (Option Byte)), s.running = true ∧ (∀ v ∈ s.drm.waits, s.requestWaits v.request.1 v.request.2 = true) ∧ s.requestWaits r a = false ∧ s.drm.lineOf a = some (n, l) ∧ s.regionOk r a = true ∧ (s.chan n).st = .active ∧ (s.chan n).mergeOf l = none ∧ (s.chan n).merge.length < 32 ∧ (mergeBytes [] (bs.take 64)).length < 64) ∧
    (∃ (s : State) (r : Requester) (a : Nat) (d : BitVec 512) (bs : List (Option Byte)) (fs : List (Nat × Nat)), s.running = true ∧ (∀ v ∈ s.drm.waits, s.requestWaits v.request.1 v.request.2 = true) ∧ s.requestWaits r a = true) ∧
    (∃ (s : State) (r : Requester) (a : Nat) (d : BitVec 512) (bs : List (Option Byte)) (fs : List (Nat × Nat)), s.running = false) ∧
    (∃ (s : State) (n : Nat) (l : Nat) (m : Merge), (s.chan n).st = .active ∧ (s.chan n).mergeOf l = some m) ∧
    (∃ (s : State) (n : Nat), (s.chan n).st = .active ∧ (s.chan n).ueTimes = [] ∧ (s.chan n).misTimes = [] ∧ (classify (s.lineAt n (s.chan n).scrubDone.toNat) (s.chan n).scrubDone.toNat none).1.kind = .clean ∧ (s.chan n).scrubDone.toNat + 1 < s.chanLines) :=
  ⟨⟨(dramS .active : State), (req2 : Requester), (64 : Nat), (((dramS .active).drm.lineOf 64).getD (0, 0) |>.1 : Nat), (((dramS .active).drm.lineOf 64).getD (0, 0) |>.2 : Nat), (0x123456789ABCDEF0FEDCBA98765432100112233445566778899AABBCCDDEEFF : BitVec 512), by decide⟩,
   ⟨(dramS .fenced : State), (req2 : Requester), (64 : Nat), (((dramS .active).drm.lineOf 64).getD (0, 0) |>.1 : Nat), (((dramS .active).drm.lineOf 64).getD (0, 0) |>.2 : Nat), ([(3, 4)] : List (Nat × Nat)), ⟨by decide, by decide, by decide, by decide, by decide, by decide, (fun _ _ e => by cases e)⟩⟩,
   ⟨(dramS .active : State), (req2 : Requester), (64 : Nat), (((dramS .active).drm.lineOf 64).getD (0, 0) |>.1 : Nat), (((dramS .active).drm.lineOf 64).getD (0, 0) |>.2 : Nat), ([none, some 3] : List (Option Byte)), by decide⟩,
   ⟨((dramS .active).modDrm (fun d => { d with slotMax := [], waits := [.read req2 ⟨64, []⟩] }) : State), (req2 : Requester), (128 : Nat), (0 : BitVec 512), ([] : List (Option Byte)), ([] : List (Nat × Nat)), by decide⟩,
   ⟨((dramS .active).modGlb (fun g => { g with inReset := true }) : State), (req2 : Requester), (64 : Nat), (0 : BitVec 512), ([] : List (Option Byte)), ([] : List (Nat × Nat)), by decide⟩,
   ⟨((dramS .active).modChan 11 (fun c => { c with merge := [⟨5, [(0, 7)], 2, false⟩] }) : State), (11 : Nat), (5 : Nat), (⟨5, [(0, 7)], 2, false⟩ : Merge), by decide⟩,
   ⟨((dramS .active).modGlb (fun g => { g with platDdr := 0x200000 }) : State), (11 : Nat), by decide⟩⟩

/-- States and operands that meet the hypotheses of `ChannelUpkeep`, clause by clause. -/
theorem test_wit_ChannelUpkeep1 :
    (∃ (s : State) (n : Nat), (s.chan n).st = .active) ∧
    (∃ (s : State) (n : Nat) (hot : List Bool), (s.chan n).st = .active ∧ hot.any id = true ∧ (s.chan n).hot = false) ∧
    (∃ (s : State) (n : Nat) (hot : List Bool) (x : Nat), (s.chan n).st = .active ∧ hot.any id = false ∧ (s.chan n).hot = true ∧ (s.chan n).normSince = some x ∧ x + sec ≤ s.now) ∧
    (∃ (s : State) (n : Nat) (r : Nat), (s.chan n).st = .active ∧ s.drm.rpdIdle ≠ 0) ∧
    (∃ (s : State) (n : Nat), (s.chan n).st = .training ∧ s.holds 4 .training n = true) ∧
    (∃ (s : State) (n : Nat) (w : Nat), (s.chan n).st = .active) ∧
    (∃ (s : State) (n : Nat), (s.chan n).st = .active ∧ (s.chan n).drifted = true) ∧
    (∃ (s : State) (n : Nat), (s.chan n).st = .filling ∧ s.holds 4 .fill n = true) :=
  ⟨⟨((dramS .active).modChan 11 (fun c => { c with banks := [(3, { BankP.reset with opened := true })], ranks := [(1, { RankS.reset with powerDown := true })] }) : State), (11 : Nat), by decide⟩,
   ⟨(dramS .active : State), (11 : Nat), ([false, true] : List Bool), by decide⟩,
   ⟨(((dramS .active).modChan 11 (fun c => { c with hot := true, normSince := some 5 })).at' 1000000005 : State), (11 : Nat), ([false, false] : List Bool), (5 : Nat), by decide⟩,
   ⟨(dramS .active : State), (11 : Nat), (3 : Nat), by decide⟩,
   ⟨((dramS .training).modRail 4 (fun r => { r with grants := [(.training, 11, 5)] }) : State), (11 : Nat), by decide⟩,
   ⟨(dramS .active : State), (11 : Nat), (3 : Nat), by decide⟩,
   ⟨((dramS .active).modChan 11 (fun c => { c with drifted := true, tries := 3 }) : State), (11 : Nat), by decide⟩,
   ⟨((dramS .filling).modRail 4 (fun r => { r with grants := [(.fill, 11, 5)] }) : State), (11 : Nat), by decide⟩⟩

/-- States and operands that meet the hypotheses of `ChannelUpkeep`, clause by clause. -/
theorem test_wit_ChannelUpkeep2 :
    (∃ (s : State) (n : Nat), (s.chan n).st = .active ∧ 0 < s.scrubBehind n) ∧
    (∃ (s : State) (n : Nat) (v : Word) (e : ErrEntry) (f : ErrEntry) (r : List ErrEntry), s.tck.held = false ∧ (v >>> 24).setWidth 8 = (s.chan n).errSeq ∧ (s.chan n).errq = e :: f :: r) ∧
    (∃ (s : State) (n : Nat) (v : Word), (v >>> 24).setWidth 8 ≠ (s.chan n).errSeq) :=
  ⟨⟨(((dramS .active).modGlb (fun g => { g with platDdr := 0x200000 })).at' 99000000000000 : State), (11 : Nat), by decide⟩,
   ⟨((dramS .active).modChan 11 (fun c => { c with errq := [err0, err0], errSeq := 255 }) : State), (11 : Nat), (0xFF000000 : Word), (err0 : ErrEntry), (err0 : ErrEntry), ([] : List ErrEntry), by decide⟩,
   ⟨(dramS .active : State), (11 : Nat), (0xFF000000 : Word), by decide⟩⟩

/-- States and operands that meet the hypotheses of `ChannelLosses`, clause by clause. -/
theorem test_wit_ChannelLosses :
    (∃ (s : State) (n : Nat) (cause : Nat), s.running = true ∧ n < 12 ∧ (s.chan n).st ≠ .fenced ∧ s.drm.fencedCh = 0xF) ∧
    (∃ (s : State) (n : Nat) (cause : Nat), s.running = true ∧ n < 12 ∧ (s.chan n).st ≠ .fenced ∧ s.drm.fencedCh = 0xF) ∧
    (∃ (s : State) (n : Nat) (b : Nat), s.running = true ∧ s.tck.held = false ∧ (n, b) ∉ s.drm.retire ∧ s.blockBad n b = true ∧ s.drm.retire.length < 1024) ∧
    (∃ (s : State) (n : Nat), s.drm.remapped = true ∧ (s.chan n).st = .active ∧ (s.chan n).remapFilled = false ∧ s.holds 4 .fill n = true) :=
  ⟨⟨(dramS .active : State), (11 : Nat), (4 : Nat), by decide⟩,
   ⟨(dramS .training : State), (0 : Nat), (1 : Nat), by decide⟩,
   ⟨((dramS .active).modChan 11 (fun c => { c with logErrs := [(0, 5000, true)] }) : State), (11 : Nat), (4 : Nat), by decide⟩,
   ⟨((((dramS .active).modDrm (fun d => { d with remapped := true })).modRail 4 (fun r => { r with grants := [(.fill, 11, 5)] })) : State), (11 : Nat), by decide⟩⟩

/-- States and operands that meet the hypotheses of `BellowsCommands`, clause by clause. -/
theorem test_wit_BellowsCommands1 :
    (∃ (s : State) (w : Nat), s.serving = true ∧ w < 27 ∧ s.workPending w = true ∧ (s.blw.starve.look Starve.reset w).steps < 3 ∧ (s.blw.starve.look Starve.reset w).since + s.blw.ageStep * ms ≤ s.now) ∧
    (∃ (s : State) (w : Nat), s.serving = true ∧ w < 27 ∧ s.workPending w = true ∧ (s.blw.starve.look Starve.reset w).steps < 3 ∧ (s.blw.starve.look Starve.reset w).since + s.blw.ageStep * ms ≤ s.now) ∧
    (∃ (s : State) (w : Nat), s.workLevel w = .urgent) ∧
    (∃ (s : State) (rail : Nat) (who : Nat) (lv : Level), s.running = true ∧ rail < 4 ∧ who / 8 = rail ∧ (s.core who).fenced = false ∧ (s.rail rail).queue = []) ∧
    (∃ (s : State) (rail : Nat) (q : TokReq) (rest : List TokReq), s.running = true ∧ (s.rail rail).queue = q :: rest ∧ s.blw.fenced = false ∧ (q.kind = .wake ∨ q.kind = .search → (s.core q.requester).pstate = .c0 ∨ (s.core q.requester).pstate = .c1 ∨ (s.core q.requester).waking = true) ∧ (s.rail rail).held + q.cost ≤ (s.rail rail).limit.toNat ∧ q.cost * 1000 ≤ min ((s.rail rail).bucket + (s.now - (s.rail rail).bucketAt) * (s.rail rail).ramp.toNat) ((s.rail rail).burst.toNat * 1000)) ∧
    (∃ (s : State) (rail : Nat) (q : TokReq) (rest : List TokReq), s.running = true ∧ (s.rail rail).queue = q :: rest ∧ s.blw.fenced = false ∧ (q.kind = .wake ∨ q.kind = .search → (s.core q.requester).pstate = .c0 ∨ (s.core q.requester).pstate = .c1 ∨ (s.core q.requester).waking = true) ∧ (s.rail rail).held + q.cost ≤ (s.rail rail).limit.toNat ∧ q.cost * 1000 ≤ min ((s.rail rail).bucket + (s.now - (s.rail rail).bucketAt) * (s.rail rail).ramp.toNat) ((s.rail rail).burst.toNat * 1000)) ∧
    (∃ (s : State) (rail : Nat) (q : TokReq) (rest : List TokReq), (s.rail rail).queue = q :: rest ∧ ((s.rail rail).limit.toNat < (s.rail rail).held + q.cost ∨ s.blw.fenced = true)) ∧
    (∃ (s : State) (rail : Nat) (k : ReqKind) (who : Nat) (cost : Nat), (s.rail rail).grants = [(k, who, cost)]) :=
  ⟨⟨(((solo.modBlw (fun b => { b with ageStep := 5 }))).at' 5000000 : State), (25 : Nat), by decide⟩,
   ⟨((((dramS .active).modBlw (fun b => { b with ageStep := 5, starve := [(0, { Starve.reset with steps := 2, since := 5 })] }))).at' 5000005 : State), (0 : Nat), by decide⟩,
   ⟨((solo.modBlw (fun b => { b with starve := [(4, { Starve.reset with steps := 3, since := 5 })] })).at' 10000005 : State), (4 : Nat), by decide⟩,
   ⟨(solo.at' 77 : State), (3 : Nat), (31 : Nat), (.value : Level), by decide⟩,
   ⟨(((solo.modCore 9 (fun x => { x with waking := true, pstate := .c3 })).modRail 1 (fun r => { r with queue := [⟨.wake, .live, 9, 3, 57, false⟩, ⟨.search, .live, 8, 3, 10, false⟩], limit := 57, bucket := 0, bucketAt := 0, ramp := 57, burst := 57 })).at' 1000 : State), (1 : Nat), (⟨.wake, .live, 9, 3, 57, false⟩ : TokReq), ([⟨.search, .live, 8, 3, 10, false⟩] : List TokReq), by decide⟩,
   ⟨(((solo.modCore 8 (fun x => { x with waking := true, pstate := .c3 })).modRail 1 (fun r => { r with queue := [⟨.search, .live, 8, 3, 10, false⟩], limit := 57, bucket := 0, bucketAt := 0, ramp := 57, burst := 57 })).at' 1000 : State), (1 : Nat), (⟨.search, .live, 8, 3, 10, false⟩ : TokReq), ([] : List TokReq), by decide⟩,
   ⟨((solo.modRail 1 (fun r => { r with queue := [⟨.wake, .live, 9, 3, 57, false⟩], limit := 56, bucket := 0, bucketAt := 0, ramp := 57, burst := 57 })).at' 1000 : State), (1 : Nat), (⟨.wake, .live, 9, 3, 57, false⟩ : TokReq), ([] : List TokReq), by decide⟩,
   ⟨(solo.modRail 4 (fun r => { r with grants := [(.fill, 3, 30)], held := 35 }) : State), (4 : Nat), (.fill : ReqKind), (3 : Nat), (30 : Nat), by decide⟩⟩

/-- States and operands that meet the hypotheses of `BellowsCommands`, clause by clause. -/
theorem test_wit_BellowsCommands2 :
    (∃ (s : State) (rail : Nat) (who : Nat) (q : TokReq), (s.rail rail).queue = [q] ∧ q.kind = .search ∧ q.requester = who ∧ q.arrived + 2000 ≤ s.now) ∧
    (∃ (s : State) (rail : Nat) (core : Nat) (q : TokReq), (s.rail rail).queue = [q] ∧ q.kind = .wake ∧ q.requester = core ∧ q.slowRaised = false ∧ q.arrived + 20000 < s.now) :=
  ⟨⟨((solo.modRail 0 (fun r => { r with queue := [⟨.search, .live, 3, 5, 10, false⟩] })).at' 2005 : State), (0 : Nat), (3 : Nat), (⟨.search, .live, 3, 5, 10, false⟩ : TokReq), by decide⟩,
   ⟨((solo.modRail 3 (fun r => { r with queue := [⟨.wake, .live, 31, 5, 57, false⟩] })).at' 20006 : State), (3 : Nat), (31 : Nat), (⟨.wake, .live, 31, 5, 57, false⟩ : TokReq), by decide⟩⟩

/-- States and operands that meet the hypotheses of `ModeRequests`, clause by clause. -/
theorem test_wit_ModeRequests1 :
    (∃ (s : State) (w : Writer) (v : Word), (v.extractLsb' 28 4).toNat = 1 ∧ s.glb.inReset = false ∧ s.glb.mode = .solo ∧ s.writeReason w false .glbModeReq v = none ∧ s.glb.waking = false ∧ s.mayRest = true) ∧
    (∃ (s : State) (w : Writer) (v : Word), (v.extractLsb' 28 4).toNat = 1 ∧ s.glb.inReset = false ∧ s.glb.mode = .solo ∧ s.writeReason w false .glbModeReq v = none ∧ s.glb.waking = false ∧ s.mayRest = true) ∧
    (∃ (s : State) (w : Writer) (v : Word), (v.extractLsb' 28 4).toNat = 1 ∧ s.glb.inReset = false ∧ s.glb.mode = .patch ∧ s.writeReason w false .glbModeReq v = none) ∧
    (∃ (s : State) (w : Writer) (v : Word), (v.extractLsb' 28 4).toNat = 2 ∧ s.glb.inReset = false ∧ s.glb.mode = .rest ∧ s.writeReason w false .glbModeReq v = none) ∧
    (∃ (s : State) (w : Writer) (v : Word), (v.extractLsb' 28 4).toNat = 3 ∧ s.glb.inReset = false ∧ s.glb.mode = .solo ∧ s.writeReason w false .glbModeReq v = none) ∧
    (∃ (s : State) (w : Writer) (v : Word), (v.extractLsb' 28 4).toNat = 3 ∧ s.glb.inReset = false ∧ s.glb.mode = .lead ∧ s.twinShadow = true ∧ s.glb.demoting = false ∧ s.writeReason w false .glbModeReq v = none) ∧
    (∃ (s : State), s.glb.mode = .rest ∧ s.wakeDue = true) ∧
    (∃ (s : State), s.glb.mode = .rest ∧ s.wakeDue = true) :=
  ⟨⟨(solo : State), (.bar0 : Writer), (0x18000000 : Word), by decide⟩,
   ⟨(solo : State), (.bar0 : Writer), (0x10000000 : Word), by decide⟩,
   ⟨(solo.inMode .patch : State), (.bar0 : Writer), (0x18000000 : Word), by decide⟩,
   ⟨(solo.inMode .rest : State), (.queue 1 : Writer), (0x20000000 : Word), by decide⟩,
   ⟨(solo : State), (.bar0 : Writer), (0x30000000 : Word), by decide⟩,
   ⟨((lead.twin .shadow .shadow).at' 700 : State), (.bar0 : Writer), (0x30000000 : Word), by decide⟩,
   ⟨((solo.inMode .rest).modGlb (fun g => { g with waking := true }) : State), by decide⟩,
   ⟨(((solo.inMode .rest).modIrcSrc 40 (fun x => { x with wake := true })).latch 40 : State), by decide⟩⟩

/-- States and operands that meet the hypotheses of `ModeRequests`, clause by clause. -/
theorem test_wit_ModeRequests2 :
    (∃ (s : State), s.glb.mode = .rest) ∧
    (∃ (s : State), s.glb.mode ≠ .rest) ∧
    (∃ (s : State) (v : Word), v.extractLsb' 16 16 = (0xAD0F : BitVec 16) ∧ s.glb.adoptWait = true ∧ s.glb.mode = .adopt ∧ s.glb.twinEn = false) ∧
    (∃ (s : State) (v : Word), v.extractLsb' 16 16 ≠ (0xAD0F : BitVec 16)) ∧
    (∃ (s : State), s.glb.mode = .adopt ∧ s.twinWaitOver = true ∧ s.grt.link = .down ∧ s.selfMatches = true) :=
  ⟨⟨(solo.inMode .rest : State), by decide⟩,
   ⟨(solo : State), by decide⟩,
   ⟨((solo.inMode .adopt).modGlb (fun g => { g with adoptWait := true, twinEn := false }) : State), (0xAD0F0000 : Word), by decide⟩,
   ⟨((solo.inMode .adopt).modGlb (fun g => { g with adoptWait := true, twinEn := false }) : State), (0xAD0E0000 : Word), by decide⟩,
   ⟨(((solo.inMode .adopt).modGlb (fun g => { g with selfDigest := [1], twinEn := true, twinWait := 1000, adoption := some ⟨[1], List.replicate 32 0, false⟩ })).at' 9000000000 : State), by decide⟩⟩

/-- States and operands that meet the hypotheses of `HaltStays`, clause by clause. -/
theorem test_wit_HaltStays :
    (∃ (s : State), s.glb.mode = .halt ∧ s.glb.inReset = false) :=
  ⟨(solo.inMode .halt : State), by decide⟩

/-- States and operands that meet the hypotheses of `LoaderCommands`, clause by clause. -/
theorem test_wit_LoaderCommands1 :
    (∃ (s : State), s.glb.mode ≠ .halt ∧ s.fsh.busy = false) ∧
    (∃ (s : State), s.glb.mode = .halt) ∧
    (∃ (s : State), s.fsh.busy = false) ∧
    (∃ (s : State) (side : Bool) (vsel : Bool), s.glb.inReset = true) ∧
    (∃ (s : State) (f : Sfdp), s.glb.inReset = false ∧ s.glb.mode = .fill ∧ Sfdp.ok f = false) ∧
    (∃ (s : State) (f : Sfdp), s.glb.inReset = false ∧ s.glb.mode = .fill ∧ Sfdp.ok f = true ∧ ({ s.fsh with size := f.bytes, sfdpOk := true } : Fsh).headerOk = false) ∧
    (∃ (s : State) (f : Sfdp) (b : Bool) (r : List Bool), s.glb.inReset = false ∧ s.glb.mode = .fill ∧ Sfdp.ok f = true ∧ ({ s.fsh with size := f.bytes, sfdpOk := true } : Fsh).headerOk = true ∧ ({ s.fsh with size := f.bytes, sfdpOk := true } : Fsh).candidates = b :: r) ∧
    (∃ (s : State) (f : Sfdp) (b : Bool) (r : List Bool), s.glb.inReset = false ∧ s.glb.mode = .fill ∧ Sfdp.ok f = true ∧ ({ s.fsh with size := f.bytes, sfdpOk := true } : Fsh).headerOk = true ∧ ({ s.fsh with size := f.bytes, sfdpOk := true } : Fsh).candidates = b :: r) :=
  ⟨⟨((solo.burn 5 [1, 2]).at' 5 : State), by decide⟩,
   ⟨(solo.inMode .halt : State), by decide⟩,
   ⟨((solo.burn 5 [1, 2]).inMode .halt : State), by decide⟩,
   ⟨(State.reset.burn 5 [1] : State), (true : Bool), (false : Bool), by decide⟩,
   ⟨(solo.inMode .fill : State), (⟨true, 16777215, true, 1⟩ : Sfdp), by decide⟩,
   ⟨((solo.burn 0 [1]).inMode .fill : State), (sfdp1 : Sfdp), by decide⟩,
   ⟨(((solo.burn 4096 (headerBytes 16777216)).burn 0x500000 (sealBytes 7 100 3)).inMode .fill : State), (sfdp1 : Sfdp), (false : Bool), ([] : List Bool), by decide⟩,
   ⟨((((solo.burn 0 (headerBytes 16777216)).burn 0x500000 (sealBytes 0xFFFFFFFF 100 3)).burn (0x500000 + slotSize 16777216) (sealBytes 2 100 3)).inMode .fill : State), (sfdp1 : Sfdp), (true : Bool), ([false] : List Bool), by decide⟩⟩

/-- States and operands that meet the hypotheses of `LoaderCommands`, clause by clause. -/
theorem test_wit_LoaderCommands2 :
    (∃ (s : State) (b : Bool), s.fsh.loader.cur = some b ∧ s.fsh.loader.checked = false) ∧
    (∃ (s : State) (b : Bool) (a : Nat), s.atRecord 1 = some (b, a)) ∧
    (∃ (s : State) (b : Bool) (a : Nat) (u : State), s.atRecord 2 = some (b, a) ∧ s.putAll State.putPlatform (s.fsh.pairs (a + 16)) = (u, none)) ∧
    (∃ (s : State) (b : Bool) (a : Nat), s.atRecord 3 = some (b, a)) ∧
    (∃ (s : State) (b : Bool) (a : Nat), s.atRecord 4 = some (b, a)) ∧
    (∃ (s : State) (b : Bool) (a : Nat), s.atRecord 5 = some (b, a)) ∧
    (∃ (s : State) (b : Bool) (a : Nat) (u : State), s.atRecord 6 = some (b, a) ∧ s.putAll State.putMap (s.fsh.mapWrites (a + 16)) = (u, none)) ∧
    (∃ (s : State) (b : Bool) (a : Nat) (u : State) (x : Nat), s.atRecord 6 = some (b, a) ∧ s.putAll State.putMap (s.fsh.mapWrites (a + 16)) = (u, some x) ∧ s.fsh.loader.cands = []) :=
  ⟨⟨(solo.modFsh (fun f => { f with loader := { Loader.reset with cur := some true } }) : State), (true : Bool), by decide⟩,
   ⟨(solo.record 1 (List.replicate 20 7) : State), (false : Bool), (0x501020 : Nat), by decide⟩,
   ⟨(solo.record 2 (leBytes 4 0) : State), (false : Bool), (0x501020 : Nat), ((solo.record 2 (leBytes 4 0) : State) : State), by decide⟩,
   ⟨(solo.record 3 (List.replicate 64 0) : State), (false : Bool), (0x501020 : Nat), by decide⟩,
   ⟨(solo.record 4 ([1, 0, 0, 0, 3, 9, 0, 0] ++ List.replicate 32 7) : State), (false : Bool), (0x501020 : Nat), by decide⟩,
   ⟨(solo.record 5 [0, 2, 0, 0] : State), (false : Bool), (0x501020 : Nat), by decide⟩,
   ⟨(solo.record 6 (leBytes 4 0x1000 ++ leBytes 4 0) : State), (false : Bool), (0x501020 : Nat), ((solo.record 6 (leBytes 4 0x1000 ++ leBytes 4 0) : State) : State), by decide⟩,
   ⟨(solo.record 6 (leBytes 4 0x3 ++ leBytes 4 1 ++ leBytes 4 9) : State), (false : Bool), (0x501020 : Nat), ((solo.record 6 (leBytes 4 0x3 ++ leBytes 4 1 ++ leBytes 4 9) : State) : State), (3 : Nat), by decide⟩⟩

/-- States and operands that meet the hypotheses of `LoaderCommands`, clause by clause. -/
theorem test_wit_LoaderCommands3 :
    (∃ (s : State) (b : Bool) (a : Nat), s.atRecord 7 = some (b, a)) ∧
    (∃ (s : State) (b : Bool) (a : Nat), s.atRecord 0xFFFF = some (b, a)) :=
  ⟨⟨(solo.record 7 [1, 2, 3] : State), (false : Bool), (0x501020 : Nat), by decide⟩,
   ⟨(solo.record 0xFFFF [] : State), (false : Bool), (0x501020 : Nat), by decide⟩⟩

/-- States and operands that meet the hypotheses of `ServiceCommands`, clause by clause. -/
theorem test_wit_ServiceCommands1 :
    (∃ (s : State), s.glb.mode = .load ∧ s.glb.loaded = true ∧ s.filled = true ∧ s.dec = [] ∧ Tbl.risesFrom s.cores 0 = true) ∧
    (∃ (s : State), s.glb.mode = .load ∧ s.filled = false) ∧
    (∃ (s : State), s.glb.mode = .train ∧ s.glb.twinEn = false ∧ s.selfMatches = true ∧ s.grt.link = .down) ∧
    (∃ (s : State) (late : List Nat), s.glb.mode = .train ∧ late ≠ [] ∧ s.trainOver = false) ∧
    (∃ (s : State) (p : PatchS), s.glb.patch = some p ∧ p.step = 2 ∧ s.tck.st = .restarting) ∧
    (∃ (s : State) (p : PatchS), s.glb.patch = some p ∧ p.step = 2 ∧ s.tck.st = .restarting) ∧
    (∃ (s : State) (p : PatchS), s.glb.patch = some p ∧ p.step = 2 ∧ s.glb.mode = .patch ∧ s.tck.st = .restarting ∧ p.since + 500 * ms ≤ s.now) ∧
    (∃ (s : State) (n : Nat), s.running = true ∧ s.glb.mode = .solo ∧ s.blw.admitPend = some n ∧ n ≠ 1 ∧ s.glb.patch = none ∧ (∀ c, (s.core c).copyBad = false)) :=
  ⟨⟨(((((dramS .active).inMode .load).modGlb (fun g => { g with loaded := true })).modCore 4 (fun c => { c with words := [(3, 5)], copyBad := true })).at' 5 : State), by decide⟩,
   ⟨(((dramS .filling).inMode .load).modGlb (fun g => { g with loaded := true }) : State), by decide⟩,
   ⟨((solo.inMode .train).modGlb (fun g => { g with selfDigest := [1], twinEn := false, adoption := some ⟨[1], [], false⟩ }) : State), by decide⟩,
   ⟨((solo.inMode .train).modGlb (fun g => { g with trainLimit := 5 }) : State), ([3] : List Nat), by decide⟩,
   ⟨(((solo.inMode .patch).modGlb (fun g => { g with patch := some ⟨2, true, .queue 0, [], [], 0, 0, 5⟩ })).modTck (fun k => { k with st := .restarting, expired := true }) : State), (⟨2, true, .queue 0, [], [], 0, 0, 5⟩ : PatchS), by decide⟩,
   ⟨((((solo.use 3).inMode .patch).modGlb (fun g => { g with patch := some ⟨2, true, .queue 0, [], [], 0, 0, 5⟩ })).modTck (fun k => { k with st := .restarting, expired := true }) : State), (⟨2, true, .queue 0, [], [], 0, 0, 5⟩ : PatchS), by decide⟩,
   ⟨((((solo.inMode .patch).modGlb (fun g => { g with modeFrom := .solo, patch := some ⟨2, true, .queue 0, [], [], 0, 0, 5⟩ })).modTck (fun k => { k with st := .restarting, expired := true })).at' 500000005 : State), (⟨2, true, .queue 0, [], [], 0, 0, 5⟩ : PatchS), by decide⟩,
   ⟨(solo.modBlw (fun b => { b with admitPend := some 0 }) : State), (0 : Nat), ⟨by decide, by decide, by decide, by decide, by decide, fun _ => rfl⟩⟩⟩

/-- States and operands that meet the hypotheses of `ServiceCommands`, clause by clause. -/
theorem test_wit_ServiceCommands2 :
    (∃ (s : State), s.blw.admitPend = none) ∧
    (∃ (s : State), s.fsh.fusesDue = true ∧ s.glb.role ≠ .none ∧ s.powerOk = true ∧ (s.fltSrc 384).fenced = false ∧ s.fsh.slot.isSome = true ∧ s.fsh.raiseFloor = true ∧ s.fsh.floor.toNat < s.fsh.svn.toNat) :=
  ⟨⟨(solo : State), by decide⟩,
   ⟨(solo.modFsh (fun f => { f with fusesDue := true, pwrHold := true, slot := some true, raiseFloor := true, floor := 3, svn := 4, revoke := 15, keySlot := 2 }) : State), by decide⟩⟩

/-- States and operands that meet the hypotheses of `FlashCommands`, clause by clause. -/
theorem test_wit_FlashCommands :
    (∃ (s : State), s.glb.inReset = false ∧ s.fsh.sfdpOk = true ∧ s.flushDue = true ∧ s.fsh.stores = []) ∧
    (∃ (s : State), s.flushDue = false) ∧
    (∃ (s : State) (x : Store), s.fsh.stores = [x] ∧ s.fsh.busy = true ∧ x.erase = true ∧ x.bytes ≠ [] ∧ x.kind ≠ stLog) ∧
    (∃ (s : State) (x : Store), s.fsh.stores = [x] ∧ s.fsh.busy = true ∧ x.erase = false ∧ 256 < x.bytes.length) ∧
    (∃ (s : State), s.fsh.stores = []) ∧
    (∃ (s : State) (x : Store) (r : List Store), s.fsh.stores = x :: r ∧ s.fsh.busy = false ∧ s.fsh.fenced = false ∧ s.tck.held = false ∧ s.fsh.lastWarn = none) ∧
    (∃ (s : State) (x : Store) (r : List Store), s.fsh.stores = x :: r ∧ s.fsh.busy = false ∧ s.fsh.fenced = false ∧ s.tck.held = false ∧ s.fsh.pwrHold = false ∧ s.fsh.waitFrom = none) ∧
    (∃ (s : State) (r : Adoption), s.glb.adoptDue = some r ∧ s.fsh.stores = []) :=
  ⟨⟨(solo.modFsh (fun f => { f with sfdpOk := true, logSeq := 1023 }) |>.modLog (fun l => { l with next := 3, flushed := 0, times := [0, 0, 0] }) |>.at' 10000000000 : State), by decide⟩,
   ⟨(solo : State), by decide⟩,
   ⟨((solo.burn 0x101FFE [1, 2, 3, 4]).modFsh (fun f => { f with busy := true, stores := [⟨stAdopt, 0x102000, [4], true, none⟩] }) : State), (⟨stAdopt, 0x102000, [4], true, none⟩ : Store), by decide⟩,
   ⟨((solo.burn 0x102002 [1, 2, 3, 4]).modFsh (fun f => { f with busy := true, stores := [⟨stLog, 0x102000, List.replicate 257 7, false, none⟩] }) : State), (⟨stLog, 0x102000, List.replicate 257 7, false, none⟩ : Store), by decide⟩,
   ⟨(solo.modFsh (fun f => { f with pwrHold := true }) : State), by decide⟩,
   ⟨(solo.modFsh (fun f => { f with stores := [⟨stAdopt, 0x102000, [4], true, none⟩], waitFrom := some 0 }) |>.at' 100000001 : State), (⟨stAdopt, 0x102000, [4], true, none⟩ : Store), ([] : List Store), by decide⟩,
   ⟨(solo.modFsh (fun f => { f with stores := [⟨stAdopt, 0x102000, [4], true, none⟩] }) |>.at' 100000001 : State), (⟨stAdopt, 0x102000, [4], true, none⟩ : Store), ([] : List Store), by decide⟩,
   ⟨(solo.modGlb (fun g => { g with adoptDue := some ⟨[1], [], false⟩, adoptOut := 3 }) : State), (⟨[1], [], false⟩ : Adoption), by decide⟩⟩

/-- States and operands that meet the hypotheses of `QueueCommands`, clause by clause. -/
theorem test_wit_QueueCommands1 :
    (∃ (n : Nat) (q : Nat) (sq : BitVec 64) (cq : BitVec 64) (sm : BitVec 16) (cm : BitVec 16) (f : BitVec 4) (w : BitVec 8) (p : BitVec 14) (v : BitVec 11) (sh : BitVec 64) (st : Nat) (x : Slot) (s : State), s.starts n x (.createQueue q sq cq sm cm .command f w p v sh st) ∧ (s.hqQ q).valid = false ∧ s.createBad sq cq sm cm .command f.toNat w p v.toNat sh st = false) ∧
    (∃ (n : Nat) (q : Nat) (sq : BitVec 64) (cq : BitVec 64) (sm : BitVec 16) (cm : BitVec 16) (k : QKind) (f : BitVec 4) (w : BitVec 8) (p : BitVec 14) (v : BitVec 11) (sh : BitVec 64) (st : Nat) (x : Slot) (s : State), s.starts n x (.createQueue q sq cq sm cm k f w p v sh st) ∧ (s.hqQ q).valid = true) ∧
    (∃ (n : Nat) (q : Nat) (x : Slot) (s : State), s.starts n x (.deleteQueue q) ∧ (s.hqQ q).valid = true ∧ (s.hqQ q).sqHead = (s.hqQ q).sqTail ∧ (s.hqQ q).inExec = 0 ∧ (∀ i, i < 4 → (s.trans i).opener ≠ .queue q)) ∧
    (∃ (n : Nat) (q : Nat) (fn : Nat) (m : BitVec 64) (x : Slot) (s : State), s.starts n x (.setEvents m) ∧ (s.ctxOf x.path).fn = some fn ∧ s.eventQueue fn = some q) ∧
    (∃ (n : Nat) (len : Nat) (a : BitVec 64) (x : Slot) (s : State), s.starts n x (.identify a len) ∧ 4096 ≤ len) ∧
    (∃ (n : Nat) (len : Nat) (a : BitVec 64) (x : Slot) (s : State), s.starts n x (.identify a len) ∧ len < 4096) ∧
    (∃ (n : Nat) (len : Nat) (a : BitVec 64) (i : BitVec 32) (x : Slot) (s : State), s.starts n x (.getLog a len i) ∧ len % 16 = 0 ∧ len ≠ 0) ∧
    (∃ (n : Nat) (len : Nat) (a : Nat) (addr : BitVec 64) (x : Slot) (s : State), s.starts n x (.ctxRead addr len a) ∧ a % 4 = 0 ∧ len % 4 = 0 ∧ 0x1000000 ≤ a ∧ a < 0x4000000 ∧ a + len ≤ 0x4000000 ∧ 0 < len ∧ (s.ctxOf x.path).scope = none) :=
  ⟨⟨(3 : Nat), (1024 : Nat), (0x1000 : BitVec 64), (0x2000 : BitVec 64), (1 : BitVec 16), (0xFFFF : BitVec 16), (0 : BitVec 4), (255 : BitVec 8), (0 : BitVec 14), (1023 : BitVec 11), (0 : BitVec 64), (0 : Nat), (slot1 (.createQueue (1024 : Nat) (0x1000 : BitVec 64) (0x2000 : BitVec 64) (1 : BitVec 16) (0xFFFF : BitVec 16) .command (0 : BitVec 4) (255 : BitVec 8) (0 : BitVec 14) (1023 : BitVec 11) (0 : BitVec 64) (0 : Nat)) : Slot), (solo.host (3 : Nat) (slot1 (.createQueue (1024 : Nat) (0x1000 : BitVec 64) (0x2000 : BitVec 64) (1 : BitVec 16) (0xFFFF : BitVec 16) .command (0 : BitVec 4) (255 : BitVec 8) (0 : BitVec 14) (1023 : BitVec 11) (0 : BitVec 64) (0 : Nat)) : Slot) : State), by decide⟩,
   ⟨(3 : Nat), (0 : Nat), (0x1000 : BitVec 64), (0x2000 : BitVec 64), (1 : BitVec 16), (0xFFFF : BitVec 16), (.event : QKind), (0 : BitVec 4), (255 : BitVec 8), (0 : BitVec 14), (1023 : BitVec 11), (0 : BitVec 64), (0 : Nat), (slot1 (.createQueue (0 : Nat) (0x1000 : BitVec 64) (0x2000 : BitVec 64) (1 : BitVec 16) (0xFFFF : BitVec 16) (.event : QKind) (0 : BitVec 4) (255 : BitVec 8) (0 : BitVec 14) (1023 : BitVec 11) (0 : BitVec 64) (0 : Nat)) : Slot), (solo.host (3 : Nat) (slot1 (.createQueue (0 : Nat) (0x1000 : BitVec 64) (0x2000 : BitVec 64) (1 : BitVec 16) (0xFFFF : BitVec 16) (.event : QKind) (0 : BitVec 4) (255 : BitVec 8) (0 : BitVec 14) (1023 : BitVec 11) (0 : BitVec 64) (0 : Nat)) : Slot) : State), by decide⟩,
   ⟨(3 : Nat), (1 : Nat), (slot1 (.deleteQueue (1 : Nat)) : Slot), ((solo.host (3 : Nat) (slot1 (.deleteQueue (1 : Nat)) : Slot)).modHqQ 1 (fun y => { y with valid := true, sqHead := 4, sqTail := 4 }) : State), by decide⟩,
   ⟨(3 : Nat), (1 : Nat), (0 : Nat), (0xF0 : BitVec 64), (slot1 (.setEvents (0xF0 : BitVec 64)) : Slot), ((solo.host (3 : Nat) (slot1 (.setEvents (0xF0 : BitVec 64)) : Slot)).modHqQ 1 (fun y => { y with valid := true, kind := .event }) : State), by decide⟩,
   ⟨(3 : Nat), (4096 : Nat), (64 : BitVec 64), (slot1 (.identify (64 : BitVec 64) (4096 : Nat)) : Slot), ((solo.host (3 : Nat) (slot1 (.identify (64 : BitVec 64) (4096 : Nat)) : Slot)).at' 9 : State), by decide⟩,
   ⟨(3 : Nat), (4095 : Nat), (64 : BitVec 64), (slot1 (.identify (64 : BitVec 64) (4095 : Nat)) : Slot), ((solo.host (3 : Nat) (slot1 (.identify (64 : BitVec 64) (4095 : Nat)) : Slot)).at' 9 : State), by decide⟩,
   ⟨(3 : Nat), (32 : Nat), (64 : BitVec 64), (0 : BitVec 32), (slot1 (.getLog (64 : BitVec 64) (32 : Nat) (0 : BitVec 32)) : Slot), ((solo.host (3 : Nat) (slot1 (.getLog (64 : BitVec 64) (32 : Nat) (0 : BitVec 32)) : Slot)).at' 9 : State), by decide⟩,
   ⟨(3 : Nat), (8 : Nat), (0x3FFFFF8 : Nat), (64 : BitVec 64), (slot1 (.ctxRead (64 : BitVec 64) (8 : Nat) (0x3FFFFF8 : Nat)) : Slot), ((solo.host (3 : Nat) (slot1 (.ctxRead (64 : BitVec 64) (8 : Nat) (0x3FFFFF8 : Nat)) : Slot)).at' 9 : State), by decide⟩⟩

/-- States and operands that meet the hypotheses of `QueueCommands`, clause by clause. -/
theorem test_wit_QueueCommands2 :
    (∃ (n : Nat) (a : Nat) (x : Slot) (st : Status) (s : State), s.slot n = some x ∧ x.cmd = some (.regRead a) ∧ s.begins x (.regRead a) = true ∧ s.gate (.regRead a) x.path = some st) :=
  ⟨(3 : Nat), (4 : Nat), ({ slot1 (.regRead (4 : Nat)) with path := .key 3 } : Slot), (.state : Status), ((solo.host (3 : Nat) ({ slot1 (.regRead (4 : Nat)) with path := .key 3 } : Slot)).inMode .halt : State), by decide⟩

/-- States and operands that meet the hypotheses of `ControlCommands`, clause by clause. -/
theorem test_wit_ControlCommands1 :
    (∃ (n : Nat) (a : Nat) (x : Slot) (s : State), s.starts n x (.regRead a) ∧ a % 4 = 0 ∧ (s.ctxOf x.path).reach s a ≠ 0) ∧
    (∃ (n : Nat) (a : Nat) (v : Word) (x : Slot) (s : State) (u : State) (r : State), s.starts n x (.regWrite a v) ∧ a % 4 = 0 ∧ (s.ctxOf x.path).reach s a = 2 ∧ s.openOf (s.ctxOf x.path).opener = none ∧ u = s.mirrorCmd x (.regWrite a v) ∧ u.writeAddr (s.ctxOf x.path).writer a v true = (r, none)) ∧
    (∃ (n : Nat) (k : Nat) (a : Nat) (v : Word) (x : Slot) (s : State), s.starts n x (.regWrite a v) ∧ a % 4 = 0 ∧ (s.ctxOf x.path).reach s a = 2 ∧ s.openOf (s.ctxOf x.path).opener = some k ∧ s.bufferReason (s.ctxOf x.path).writer k a v = none) ∧
    (∃ (n : Nat) (k : Nat) (x : Slot) (s : State), s.starts n x (.txnBegin k) ∧ (s.trans k).st = .free) ∧
    (∃ (n : Nat) (k : Nat) (x : Slot) (s : State), s.starts n x (.txnBegin k) ∧ (s.trans k).st ≠ .free) ∧
    (∃ (n : Nat) (k : Nat) (r : BitVec 5) (l : BitVec 14) (f : BitVec 32) (x : Slot) (s : State), s.starts n x (.txnCommit k r l f) ∧ (s.trans k).st = .opened ∧ (s.trans k).opener = (s.ctxOf x.path).opener ∧ s.glb.role ≠ .lead ∧ r.toNat ≠ 31 ∧ s.posOk r.toNat l.toNat = true ∧ s.due r.toNat (s.fullFrame r.toNat f) l.toNat (s.txnLate k) = .coming) ∧
    (∃ (n : Nat) (k : Nat) (x : Slot) (s : State), s.starts n x (.txnAbort k) ∧ (s.trans k).st = .opened ∧ (s.trans k).waiter = none ∧ (s.trans k).opener = (s.ctxOf x.path).opener) ∧
    (∃ (n : Nat) (i : Nat) (x : Slot) (s : State), s.starts n x (.streamStart i) ∧ (s.ctxOf x.path).owns s i = true ∧ (s.decS i).cfg.enabled = true) :=
  ⟨⟨(3 : Nat), (0 : Nat), (slot1 (.regRead (0 : Nat)) : Slot), (solo.host (3 : Nat) (slot1 (.regRead (0 : Nat)) : Slot) : State), by decide⟩,
   ⟨(3 : Nat), (0x420000 : Nat), (0 : Word), (slot1 (.regWrite (0x420000 : Nat) (0 : Word)) : Slot), (solo.host (3 : Nat) (slot1 (.regWrite (0x420000 : Nat) (0 : Word)) : Slot) : State), ((solo.host (3 : Nat) (slot1 (.regWrite (0x420000 : Nat) (0 : Word)) : Slot) : State).mirrorCmd (slot1 (.regWrite (0x420000 : Nat) (0 : Word)) : Slot) (.regWrite (0x420000 : Nat) (0 : Word)) : State), ((((solo.host (3 : Nat) (slot1 (.regWrite (0x420000 : Nat) (0 : Word)) : Slot) : State).mirrorCmd (slot1 (.regWrite (0x420000 : Nat) (0 : Word)) : Slot) (.regWrite (0x420000 : Nat) (0 : Word)) : State).writeAddr ((solo.host (3 : Nat) (slot1 (.regWrite (0x420000 : Nat) (0 : Word)) : Slot) : State).ctxOf (slot1 (.regWrite (0x420000 : Nat) (0 : Word)) : Slot).path).writer (0x420000 : Nat) (0 : Word) true).1 : State), by decide⟩,
   ⟨(3 : Nat), (2 : Nat), (0x410020 : Nat), (5 : Word), (slot1 (.regWrite (0x410020 : Nat) (5 : Word)) : Slot), ((solo.host (3 : Nat) (slot1 (.regWrite (0x410020 : Nat) (5 : Word)) : Slot)).modTrans 2 (fun y => { y with st := .opened, opener := .queue 0 }) : State), by decide⟩,
   ⟨(3 : Nat), (3 : Nat), (slot1 (.txnBegin (3 : Nat)) : Slot), ((solo.host (3 : Nat) (slot1 (.txnBegin (3 : Nat)) : Slot)).modTrans 3 (fun y => { y with failed := true, writes := [(4, 4)] }) : State), by decide⟩,
   ⟨(3 : Nat), (3 : Nat), (slot1 (.txnBegin (3 : Nat)) : Slot), ((solo.host (3 : Nat) (slot1 (.txnBegin (3 : Nat)) : Slot)).modTrans 3 (fun y => { y with st := .armed }) : State), by decide⟩,
   ⟨(3 : Nat), (3 : Nat), (2 : BitVec 5), (2249 : BitVec 14), (0 : BitVec 32), (slot1 (.txnCommit (3 : Nat) (2 : BitVec 5) (2249 : BitVec 14) (0 : BitVec 32)) : Slot), (((solo.host (3 : Nat) (slot1 (.txnCommit (3 : Nat) (2 : BitVec 5) (2249 : BitVec 14) (0 : BitVec 32)) : Slot)).use 2).modTrans 3 (fun y => { y with st := .opened, opener := .queue 0 }) : State), by decide⟩,
   ⟨(3 : Nat), (3 : Nat), (slot1 (.txnAbort (3 : Nat)) : Slot), (((solo.host (3 : Nat) (slot1 (.txnAbort (3 : Nat)) : Slot)).use 2).modTrans 3 (fun y => { y with st := .opened, opener := .queue 0, writes := [(4, 4)] }) : State), by decide⟩,
   ⟨(3 : Nat), (255 : Nat), (slot1 (.streamStart (255 : Nat)) : Slot), ((solo.host (3 : Nat) (slot1 (.streamStart (255 : Nat)) : Slot)).modDecS (255 : Nat) (fun d => { d with cfg := { d.cfg with enabled := true } }) : State), by decide⟩⟩

/-- States and operands that meet the hypotheses of `ControlCommands`, clause by clause. -/
theorem test_wit_ControlCommands2 :
    (∃ (n : Nat) (i : Nat) (x : Slot) (s : State), s.starts n x (.streamRejoin i) ∧ (s.ctxOf x.path).owns s i = true ∧ (s.decS i).cfg.enabled = true) ∧
    (∃ (n : Nat) (i : Nat) (x : Slot) (s : State), s.starts n x (.streamStart i) ∧ (s.ctxOf x.path).owns s i = false) ∧
    (∃ (n : Nat) (i : Nat) (x : Slot) (s : State), s.starts n x (.streamQuench i) ∧ (s.ctxOf x.path).owns s i = true ∧ s.openOf (s.ctxOf x.path).opener = none) ∧
    (∃ (n : Nat) (i : Nat) (x : Slot) (s : State), s.starts n x (.streamUnquench i) ∧ (s.ctxOf x.path).owns s i = true ∧ s.openOf (s.ctxOf x.path).opener = none) ∧
    (∃ (n : Nat) (i : Nat) (k : BitVec 5) (l : BitVec 14) (f : BitVec 32) (x : Slot) (s : State), s.starts n x (.sweepRestart i k l f) ∧ (s.ctxOf x.path).owns s i = true ∧ s.posOk k.toNat l.toNat = true ∧ (s.encS i).cfg.enabled = true) ∧
    (∃ (n : Nat) (i : Nat) (k : BitVec 5) (l : BitVec 14) (f : BitVec 32) (x : Slot) (s : State), s.starts n x (.sweepRestart i k l f) ∧ (s.ctxOf x.path).owns s i = true ∧ s.posOk k.toNat l.toNat = true ∧ (s.encS i).cfg.enabled = true) ∧
    (∃ (n : Nat) (k : Nat) (b : Bool) (x : Slot) (s : State), s.starts n x (.outputSet k b) ∧ (s.ctxOf x.path).scope = none) ∧
    (∃ (n : Nat) (k : Nat) (b : Bool) (p : Nat) (x : Slot) (s : State), s.starts n x (.outputSet k b) ∧ (s.ctxOf x.path).scope = some p) :=
  ⟨⟨(3 : Nat), (255 : Nat), (slot1 (.streamRejoin (255 : Nat)) : Slot), ((solo.host (3 : Nat) (slot1 (.streamRejoin (255 : Nat)) : Slot)).modDecS (255 : Nat) (fun d => { d with cfg := { d.cfg with enabled := true } }) : State), by decide⟩,
   ⟨(40 : Nat), (5 : Nat), ({ slot1 (.streamStart (5 : Nat)) with path := .queue 7 } : Slot), (((solo.host (40 : Nat) ({ slot1 (.streamStart (5 : Nat)) with path := .queue 7 } : Slot)).modHqQ 7 (fun q => { q with valid := true, func := 2 })).modHq (fun h => { h with vfEnable := true, vfPart := [(2, some 3)] }) : State), by decide⟩,
   ⟨(3 : Nat), (5 : Nat), (slot1 (.streamQuench (5 : Nat)) : Slot), (((solo.host (3 : Nat) (slot1 (.streamQuench (5 : Nat)) : Slot)).modRule 9 (fun r => { r with valid := true, stream := 5 })).modRule 8 (fun r => { r with valid := true, stream := 4 }) : State), by decide⟩,
   ⟨(3 : Nat), (5 : Nat), (slot1 (.streamUnquench (5 : Nat)) : Slot), (((solo.host (3 : Nat) (slot1 (.streamUnquench (5 : Nat)) : Slot)).modRule 9 (fun r => { r with valid := true, stream := 5, quench := true })).modRule 8 (fun r => { r with valid := true, stream := 4, quench := true }) : State), by decide⟩,
   ⟨(3 : Nat), (5 : Nat), (2 : BitVec 5), (3 : BitVec 14), (9 : BitVec 32), (slot1 (.sweepRestart (5 : Nat) (2 : BitVec 5) (3 : BitVec 14) (9 : BitVec 32)) : Slot), (((lead.host (3 : Nat) (slot1 (.sweepRestart (5 : Nat) (2 : BitVec 5) (3 : BitVec 14) (9 : BitVec 32)) : Slot)).use 2).modEncS (5 : Nat) (fun e => { e with cfg := ecfg }) : State), by decide⟩,
   ⟨(3 : Nat), (5 : Nat), (31 : BitVec 5), (3 : BitVec 14), (9 : BitVec 32), (slot1 (.sweepRestart (5 : Nat) (31 : BitVec 5) (3 : BitVec 14) (9 : BitVec 32)) : Slot), ((solo.host (3 : Nat) (slot1 (.sweepRestart (5 : Nat) (31 : BitVec 5) (3 : BitVec 14) (9 : BitVec 32)) : Slot)).modEncS (5 : Nat) (fun e => { e with cfg := ecfg }) : State), by decide⟩,
   ⟨(3 : Nat), (15 : Nat), (true : Bool), (slot1 (.outputSet (15 : Nat) (true : Bool)) : Slot), (lead.host (3 : Nat) (slot1 (.outputSet (15 : Nat) (true : Bool)) : Slot) : State), by decide⟩,
   ⟨(40 : Nat), (5 : Nat), (true : Bool), (3 : Nat), ({ slot1 (.outputSet (5 : Nat) (true : Bool)) with path := .queue 7 } : Slot), (((solo.host (40 : Nat) ({ slot1 (.outputSet (5 : Nat) (true : Bool)) with path := .queue 7 } : Slot)).modHqQ 7 (fun q => { q with valid := true, func := 2 })).modHq (fun h => { h with vfEnable := true, vfPart := [(2, some 3)] }) : State), by decide⟩⟩

/-- States and operands that meet the hypotheses of `DataCommands`, clause by clause. -/
theorem test_wit_DataCommands1 :
    (∃ (n : Nat) (len : Nat) (a : BitVec 64) (off : BitVec 32) (sealIt : Bool) (bs : List Byte) (x : Slot) (s : State), s.starts n x (.imageWrite a len off sealIt) ∧ s.fsh.sfdpOk = true ∧ s.glb.patch = none ∧ off.toNat % 4096 ≠ 0 ∧ s.fsh.update = none) ∧
    (∃ (n : Nat) (a : BitVec 64) (bs : List Byte) (x : Slot) (s : State), s.starts n x (.imageWrite a 4096 0 false) ∧ s.fsh.sfdpOk = true ∧ s.glb.patch = none ∧ 4096 ≤ bs.length ∧ 4096 ≤ slotSize s.fsh.size - 4096 ∧ s.fsh.stores = [] ∧ s.fsh.headerOk = true ∧ s.fsh.busy = false) ∧
    (∃ (n : Nat) (x : Slot) (s : State), s.starts n x .patch) ∧
    (∃ (n : Nat) (i : Nat) (a : BitVec 64) (b : BitVec 64) (p : BitVec 16) (c : BitVec 16) (pt : T48) (att : Bool) (ps : List Byte) (x : Slot) (s : State), s.starts n x (.encPost i a b p c pt att) ∧ (s.ctxOf x.path).owns s i = true ∧ (s.encS i).cfg.enabled = true ∧ (s.encS i).cfg.input = none ∧ p.toNat % 64 = 0 ∧ c.toNat % 64 = 0 ∧ (s.encS i).posted.length < 4) ∧
    (∃ (n : Nat) (i : Nat) (a : BitVec 64) (b : BitVec 64) (p : BitVec 16) (c : BitVec 16) (pt : T48) (att : Bool) (ps : List Byte) (x : Slot) (s : State), s.starts n x (.encPost i a b p c pt att) ∧ (s.ctxOf x.path).owns s i = true ∧ (s.encS i).cfg.enabled = true ∧ (s.encS i).cfg.input = none ∧ p.toNat % 64 = 0 ∧ c.toNat % 64 = 0 ∧ 4 ≤ (s.encS i).posted.length) ∧
    (∃ (n : Nat) (i : Nat) (len : Nat) (a : BitVec 64) (e : Bool) (ls : List Nat) (x : Slot) (s : State), s.starts n x (.decPost i a len e) ∧ (s.ctxOf x.path).owns s i = true ∧ (s.decS i).cfg.enabled = true ∧ (s.decS i).cfg.hostFed = true ∧ lengthsOk len ls = true ∧ s.hq.dmas = [] ∧ (∀ y ∈ s.hq.slots, y.2.phase ≠ .waiting ∧ (y.1 = n → y.2 = x)) ∧ (s.decS i).queueUsed + len ≤ (s.decS i).cfg.queue) ∧
    (∃ (n : Nat) (k : Nat) (a : BitVec 64) (len : Nat) (x : Slot) (s : State), s.slot n = some x ∧ x.cmd = some (.identify a len) ∧ x.phase = .waiting ∧ (n, k) ∈ s.hq.dmas ∧ x.out = []) ∧
    (∃ (n : Nat) (k : Nat) (i : Nat) (len : Nat) (a : BitVec 64) (e : Bool) (x : Slot) (s : State), s.slot n = some x ∧ x.cmd = some (.decPost i a len e) ∧ x.phase = .waiting ∧ (n, k) ∈ s.hq.dmas) :=
  ⟨⟨(3 : Nat), (4096 : Nat), (64 : BitVec 64), (4097 : BitVec 32), (true : Bool), ([] : List Byte), (slot1 (.imageWrite (64 : BitVec 64) (4096 : Nat) (4097 : BitVec 32) (true : Bool)) : Slot), ((solo.host (3 : Nat) (slot1 (.imageWrite (64 : BitVec 64) (4096 : Nat) (4097 : BitVec 32) (true : Bool)) : Slot)).modFsh (fun f => { f with sfdpOk := true, size := 16777216 }) : State), by decide⟩,
   ⟨(3 : Nat), (64 : BitVec 64), (List.replicate 4097 7 : List Byte), (slot1 (.imageWrite (64 : BitVec 64) 4096 0 false) : Slot), (((solo.host (3 : Nat) (slot1 (.imageWrite (64 : BitVec 64) 4096 0 false) : Slot)).burn 0 (headerBytes 16777216)).modFsh (fun f => { f with sfdpOk := true }) : State), by decide⟩,
   ⟨(3 : Nat), (slot1 .patch : Slot), (solo.host (3 : Nat) (slot1 .patch : Slot) : State), by decide⟩,
   ⟨(3 : Nat), (5 : Nat), (64 : BitVec 64), (128 : BitVec 64), (64 : BitVec 16), (64 : BitVec 16), (7 : T48), (true : Bool), ([1, 2] : List Byte), (slot1 (.encPost (5 : Nat) (64 : BitVec 64) (128 : BitVec 64) (64 : BitVec 16) (64 : BitVec 16) (7 : T48) (true : Bool)) : Slot), (((lead.host (3 : Nat) (slot1 (.encPost (5 : Nat) (64 : BitVec 64) (128 : BitVec 64) (64 : BitVec 16) (64 : BitVec 16) (7 : T48) (true : Bool)) : Slot)).use 2).modEncS (5 : Nat) (fun e => { e with cfg := ecfg }) : State), by decide⟩,
   ⟨(3 : Nat), (5 : Nat), (64 : BitVec 64), (128 : BitVec 64), (64 : BitVec 16), (64 : BitVec 16), (7 : T48), (true : Bool), ([1, 2] : List Byte), (slot1 (.encPost (5 : Nat) (64 : BitVec 64) (128 : BitVec 64) (64 : BitVec 16) (64 : BitVec 16) (7 : T48) (true : Bool)) : Slot), (((lead.host (3 : Nat) (slot1 (.encPost (5 : Nat) (64 : BitVec 64) (128 : BitVec 64) (64 : BitVec 16) (64 : BitVec 16) (7 : T48) (true : Bool)) : Slot)).use 2).modEncS (5 : Nat) (fun e => { e with cfg := ecfg, posted := List.replicate 4 ⟨1, false, false, none, 4, ⟨1, 1, []⟩⟩ }) : State), by decide⟩,
   ⟨(3 : Nat), (5 : Nat), (13 : Nat), (64 : BitVec 64), (true : Bool), ([2, 3] : List Nat), (slot1 (.decPost (5 : Nat) (64 : BitVec 64) (13 : Nat) (true : Bool)) : Slot), ((solo.host (3 : Nat) (slot1 (.decPost (5 : Nat) (64 : BitVec 64) (13 : Nat) (true : Bool)) : Slot)).modDecS (5 : Nat) (fun d => { d with cfg := { d.cfg with enabled := true, hostFed := true, queue := 13 } }) : State), by decide⟩,
   ⟨(3 : Nat), (4096 : Nat), (64 : BitVec 64), (4096 : Nat), ({ slot1 (.identify (64 : BitVec 64) (4096 : Nat)) with phase := .waiting, result := 9 } : Slot), ((solo.host (3 : Nat) ({ slot1 (.identify (64 : BitVec 64) (4096 : Nat)) with phase := .waiting, result := 9 } : Slot)).modHq (fun h => { h with dmas := [(3, 4096), (4, 5)] }) : State), by decide⟩,
   ⟨(3 : Nat), (13 : Nat), (5 : Nat), (13 : Nat), (64 : BitVec 64), (true : Bool), ({ slot1 (.decPost (5 : Nat) (64 : BitVec 64) (13 : Nat) (true : Bool)) with phase := .waiting, lens := [2, 3], out := [(1, [2])] } : Slot), ((solo.host (3 : Nat) ({ slot1 (.decPost (5 : Nat) (64 : BitVec 64) (13 : Nat) (true : Bool)) with phase := .waiting, lens := [2, 3], out := [(1, [2])] } : Slot)).modHq (fun h => { h with dmas := [(3, 13), (4, 5)] }) : State), by decide⟩⟩

/-- States and operands that meet the hypotheses of `DataCommands`, clause by clause. -/
theorem test_wit_DataCommands2 :
    (∃ (n : Nat) (i : Nat) (len : Nat) (a : BitVec 64) (b : BitVec 64) (d : Word) (p : BitVec 16) (c : BitVec 16) (bad : Bool) (x : Slot) (s : State), s.starts n x (.frameRead i a b len d p c) ∧ (s.ctxOf x.path).owns s i = true ∧ p.toNat % 64 = 0 ∧ c.toNat % 64 = 0 ∧ p.toNat * (s.decS i).grid.height + 2 * (c.toNat * (s.decS i).chromaSize.2) ≤ len ∧ d = 0xFFFFFFFF ∧ (s.decS i).shown = none) ∧
    (∃ (n : Nat) (i : Nat) (len : Nat) (k : Nat) (a : BitVec 64) (b : BitVec 64) (d : Word) (p : BitVec 16) (c : BitVec 16) (x : Slot) (s : State), s.starts n x (.frameRead i a b len d p c) ∧ (s.ctxOf x.path).owns s i = true ∧ p.toNat % 64 = 0 ∧ c.toNat % 64 = 0 ∧ p.toNat * (s.decS i).grid.height + 2 * (c.toNat * (s.decS i).chromaSize.2) ≤ len ∧ d = 0xFFFFFFFF ∧ (s.decS i).shown = some k ∧ 0 < (s.decS i).grid.width ∧ 0 < (s.decS i).grid.height) ∧
    (∃ (n : Nat) (i : Nat) (len : Nat) (a : BitVec 64) (x : Slot) (s : State), s.starts n x (.ledgerRead i a len) ∧ (s.ctxOf x.path).owns s i = true ∧ 16 * ((s.decS i).cols * (s.decS i).rowsN) ≤ len ∧ 0 < (s.decS i).cols * (s.decS i).rowsN) ∧
    (∃ (n : Nat) (i : Nat) (len : Nat) (a : BitVec 64) (x : Slot) (s : State), s.starts n x (.ledgerRead i a len) ∧ (s.ctxOf x.path).owns s i = true ∧ 16 * ((s.decS i).cols * (s.decS i).rowsN) ≤ len) ∧
    (∃ (q : Nat) (i : Nat) (ws : List Word) (s : State), s.fetching q = true ∧ (s.hqQ q).valid = true ∧ (s.hqQ q).kind = .output ∧ (s.hqQ q).sqHead ≠ (s.hqQ q).sqTail ∧ (s.hqQ q).stream = i ∧ (s.encS i).page = none ∧ (s.encS i).dropping = true ∧ (s.encS i).resumeReq = true ∧ (s.encS i).staged = [] ∧ pageBad ws = none) ∧
    (∃ (i : Nat) (p : Page) (s : State), (s.encS i).page = some p ∧ p.done = none ∧ p.filled ≠ 0 ∧ s.outQueue i = none ∧ p.last + s.hq.pageFlush * 1000 ≤ s.now) ∧
    (∃ (i : Nat) (p : Page) (s : State), (s.encS i).page = some p ∧ p.filled = 0) ∧
    (∃ (i : Nat) (p : Page) (s : State), (s.encS i).page = some p ∧ p.done = none ∧ p.filled ≠ 0 ∧ s.outQueue i = none ∧ (s.encS i).dropping = false) :=
  ⟨⟨(3 : Nat), (5 : Nat), (0 : Nat), (64 : BitVec 64), (64 : BitVec 64), (0xFFFFFFFF : Word), (0 : BitVec 16), (0 : BitVec 16), (true : Bool), (slot1 (.frameRead (5 : Nat) (64 : BitVec 64) (64 : BitVec 64) (0 : Nat) (0xFFFFFFFF : Word) (0 : BitVec 16) (0 : BitVec 16)) : Slot), (solo.host (3 : Nat) (slot1 (.frameRead (5 : Nat) (64 : BitVec 64) (64 : BitVec 64) (0 : Nat) (0xFFFFFFFF : Word) (0 : BitVec 16) (0 : BitVec 16)) : Slot) : State), by decide⟩,
   ⟨(3 : Nat), (5 : Nat), (1000 : Nat), (2 : Nat), (64 : BitVec 64), (640 : BitVec 64), (0xFFFFFFFF : Word), (64 : BitVec 16), (64 : BitVec 16), (slot1 (.frameRead (5 : Nat) (64 : BitVec 64) (640 : BitVec 64) (1000 : Nat) (0xFFFFFFFF : Word) (64 : BitVec 16) (64 : BitVec 16)) : Slot), ((solo.host (3 : Nat) (slot1 (.frameRead (5 : Nat) (64 : BitVec 64) (640 : BitVec 64) (1000 : Nat) (0xFFFFFFFF : Word) (64 : BitVec 16) (64 : BitVec 16)) : Slot)).modDecS (5 : Nat) (fun y => { y with sps := some { sps1 with width := 4, height := 2, chroma := 1 }, shown := some 2 }) : State), by decide⟩,
   ⟨(3 : Nat), (5 : Nat), (32 : Nat), (64 : BitVec 64), (slot1 (.ledgerRead (5 : Nat) (64 : BitVec 64) (32 : Nat)) : Slot), ((solo.host (3 : Nat) (slot1 (.ledgerRead (5 : Nat) (64 : BitVec 64) (32 : Nat)) : Slot)).modDecS (5 : Nat) (fun y => { y with cols := 2, rowsN := 1 }) : State), by decide⟩,
   ⟨(3 : Nat), (5 : Nat), (32 : Nat), (64 : BitVec 64), (slot1 (.ledgerRead (5 : Nat) (64 : BitVec 64) (32 : Nat)) : Slot), ((solo.host (3 : Nat) (slot1 (.ledgerRead (5 : Nat) (64 : BitVec 64) (32 : Nat)) : Slot)).modDecS (5 : Nat) (fun y => { y with cols := 2, rowsN := 1 }) : State), by decide⟩,
   ⟨(7 : Nat), (5 : Nat), ([0x50, 0, 0x1000, 1] ++ List.replicate 12 0 : List Word), (((solo.host 3 Slot.reset).modHqQ 7 (fun y => { y with valid := true, kind := .output, sqHead := 3, sqTail := 1, sqSize := 4, stream := 5 })).modEncS 5 (fun e => { e with dropping := true, resumeReq := true }) |>.at' 8 : State), by decide⟩,
   ⟨(5 : Nat), (⟨64, 1, 2, 5, false, false, 0, none, 3⟩ : Page), ((solo.modEncS 5 (fun e => { e with page := some (⟨64, 1, 2, 5, false, false, 0, none, 3⟩ : Page) })).modHq (fun h => { h with pageFlush := 1 }) |>.at' 1003 : State), by decide⟩,
   ⟨(5 : Nat), (⟨64, 1, 2, 0, false, false, 0, none, 3⟩ : Page), ((solo.modEncS 5 (fun e => { e with page := some (⟨64, 1, 2, 0, false, false, 0, none, 3⟩ : Page) })).modHq (fun h => { h with pageFlush := 1 }) |>.at' 1003 : State), by decide⟩,
   ⟨(5 : Nat), (⟨64, 1, 2, 5, false, false, 0, none, 3⟩ : Page), ((solo.modEncS 5 (fun e => { e with page := some (⟨64, 1, 2, 5, false, false, 0, none, 3⟩ : Page) })) : State), by decide⟩⟩

/-- States and operands that meet the hypotheses of `DataCommands`, clause by clause. -/
theorem test_wit_DataCommands3 :
    (∃ (fn : Nat) (s : State), s.glb.inReset = false ∧ s.hq.up = true ∧ 1 ≤ fn ∧ fn ≤ 8) ∧
    (∃ (m : Datagram) (s : State), s.linksUp = true ∧ s.rxUnread 1 = true) ∧
    (∃ (m : Datagram) (s : State), s.linksUp = true ∧ s.rxUnread 1 = false ∧ s.msgOk m.bytes = false) ∧
    (∃ (m : Datagram) (s : State), s.linksUp = true ∧ s.rxUnread 1 = false ∧ s.msgOk m.bytes = true ∧ (((List.range 16).map (16 + ·)).filter (fun i => (s.slot i).isNone)).length < msgCount m.bytes) ∧
    (∃ (m : Datagram) (s : State), s.linksUp = true ∧ s.rxUnread 1 = false ∧ s.msgOk m.bytes = true ∧ s.hq.slots = []) :=
  ⟨⟨(8 : Nat), (((solo.host 3 Slot.reset).modHqQ 7 (fun y => { y with valid := true, func := 8, sqHead := 3 })).modHqQ 8 (fun y => { y with valid := true, func := 7, sqHead := 3 }) : State), by decide⟩,
   ⟨(⟨7, 8, [2]⟩ : Datagram), (solo.modRun (fun r => { r with rx := [(1, { RxQueue.reset with queue := [pkt0, pkt0], unread := true })] }) : State), by decide⟩,
   ⟨(⟨7, 8, [2]⟩ : Datagram), (solo : State), by decide⟩,
   ⟨(⟨7, 8, msg1 [1, 2] 9⟩ : Datagram), (solo.modHq (fun h => { h with keys := [(3, some ⟨0xFF, [1, 2], 8⟩)], slots := (List.range 16).map (fun i => (16 + i, Slot.reset)) }) : State), ⟨by decide, by decide, msg1_ok _ rfl rfl, by decide⟩⟩,
   ⟨(⟨7, 8, msg1 [1, 2] 9⟩ : Datagram), (solo.modHq (fun h => { h with keys := [(3, some ⟨0xFF, [1, 2], 8⟩)] }) : State), ⟨by decide, by decide, msg1_ok _ rfl rfl, by decide⟩⟩⟩

/-- States and operands that meet the hypotheses of `QueueEngine`, clause by clause. -/
theorem test_wit_QueueEngine1 :
    (∃ (s : State), s.mayFetch 0 = true) ∧
    (∃ (s : State) (q : Nat) (ws : List Word), s.mayFetch q = false) ∧
    (∃ (q : Nat) (v : Word) (s : State), s.glb.inReset = false ∧ s.hq.up = true ∧ s.hq.fenced = false ∧ (s.hqQ q).valid = true ∧ (v &&& 0xFFFF).toNat < (s.hqQ q).sqSize ∧ ((s.hqQ q).sqTail + (s.hqQ q).sqSize - (s.hqQ q).sqHead) % (s.hqQ q).sqSize < ((v &&& 0xFFFF).toNat + (s.hqQ q).sqSize - (s.hqQ q).sqHead) % (s.hqQ q).sqSize) ∧
    (∃ (q : Nat) (v : Word) (s : State), s.glb.inReset = false ∧ s.hq.up = true ∧ s.hq.fenced = false ∧ (s.hqQ q).valid = true ∧ (s.hqQ q).sqSize ≤ (v &&& 0xFFFF).toNat) ∧
    (∃ (q : Nat) (v : Word) (s : State), s.glb.inReset = false ∧ s.hq.up = true ∧ s.hq.fenced = false ∧ (s.hqQ q).valid = true ∧ (s.hqQ q).kind = .command ∧ (s.hqQ q).poll = 0 ∧ (v &&& 0xFFFF).toNat < (s.hqQ q).cqSize) ∧
    (∃ (q : Nat) (v : BitVec 64) (s : State), (s.hqQ q).poll = 0) ∧
    (∃ (q : Nat) (v : BitVec 64) (s : State), s.fetching q = true ∧ (s.hqQ q).valid = true ∧ (s.hqQ q).poll ≠ 0) ∧
    (∃ (n : Nat) (q : Nat) (x : Slot) (s : State), s.slot n = some x ∧ x.phase = .done ∧ x.path = .queue q ∧ (s.hqQ q).cqFull = false) :=
  ⟨⟨((solo.host 3 Slot.reset).modHqQ 0 (fun y => { y with kind := .command, sqTail := 1 }) : State), by decide⟩,
   ⟨(solo : State), (0 : Nat), ([] : List Word), by decide⟩,
   ⟨(7 : Nat), (0xFFFF0001 : Word), ((solo.host 3 Slot.reset).modHqQ 7 (fun y => { y with valid := true, sqHead := 3, sqTail := 3, sqSize := 4 }) : State), by decide⟩,
   ⟨(7 : Nat), (4 : Word), ((solo.host 3 Slot.reset).modHqQ 7 (fun y => { y with valid := true, sqHead := 3, sqTail := 3, sqSize := 4 }) : State), by decide⟩,
   ⟨(7 : Nat), (3 : Word), ((solo.host 3 Slot.reset).modHqQ 7 (fun y => { y with valid := true, cqHead := 2, cqSize := 4 }) : State), by decide⟩,
   ⟨(7 : Nat), (3 : BitVec 64), (solo : State), by decide⟩,
   ⟨(7 : Nat), (0x0000000200000003 : BitVec 64), ((solo.host 3 Slot.reset).modHqQ 7 (fun y => { y with valid := true, poll := 5, sqSize := 4, cqSize := 4 }) : State), by decide⟩,
   ⟨(3 : Nat), (0 : Nat), ({ slot1 .patch with phase := .done, status := .busy, result := 9 } : Slot), (solo.host (3 : Nat) ({ slot1 .patch with phase := .done, status := .busy, result := 9 } : Slot) : State), by decide⟩⟩

/-- States and operands that meet the hypotheses of `QueueEngine`, clause by clause. -/
theorem test_wit_QueueEngine2 :
    (∃ (n : Nat) (q : Nat) (x : Slot) (s : State), s.slot n = some x ∧ x.path = .queue q ∧ (s.hqQ q).cqFull = true) :=
  ⟨(3 : Nat), (0 : Nat), ({ slot1 .patch with phase := .done, status := .busy, result := 9 } : Slot), ((solo.host (3 : Nat) ({ slot1 .patch with phase := .done, status := .busy, result := 9 } : Slot)).modHqQ 0 (fun q => { q with cqTail := 7 }) : State), by decide⟩

/-- States and operands that meet the hypotheses of `RunnerIngress`, clause by clause. -/
theorem test_wit_RunnerIngress1 :
    (∃ (s : State) (p : Nat) (f : Frame), s.portUp p = true ∧ frameBad (s.eth p).mtu f = true) ∧
    (∃ (r : Rule) (s : State) (p : Nat) (k : Nat) (f : Frame), s.portUp p = true ∧ frameBad (s.eth p).mtu f = false ∧ f.ip = true ∧ f.udp = true ∧ f.dport ≠ 319 ∧ f.dport ≠ 320 ∧ s.run.rules.find? (fun r => r.2.hits p f) = some (k, r) ∧ s.reloading 326 k = false ∧ s.quenched r = true) ∧
    (∃ (r : Rule) (s : State) (p : Nat) (k : Nat) (f : Frame) (u : State) (q : Pkt), s.portUp p = true ∧ frameBad (s.eth p).mtu f = false ∧ f.ip = true ∧ f.udp = true ∧ f.dport ≠ 319 ∧ f.dport ≠ 320 ∧ s.run.rules.find? (fun r => r.2.hits p f) = some (k, r) ∧ s.reloading 326 k = false ∧ s.quenched r = false ∧ r.dest ≠ 3 ∧ r.polEn = false ∧ (r.dest = 0 → (s.run.capture.look none r.stream.toNat).isSome = true ∨ (s.decS r.stream.toNat).st ≠ .idle) ∧ ((s.portCount p 1 1).portCount p 2 f.len).allocPkt (State.pktOf ((s.portCount p 1 1).portCount p 2 f.len) p f r.part.toNat r.tc.toNat r.dest.toNat r.stream.toNat r.path false) = some (u, q)) ∧
    (∃ (s : State) (p : Nat) (f : Frame), s.portUp p = false) ∧
    (∃ (q : Nat) (k : Pkt) (r : List Pkt) (s : State), (s.voq q).queue = k :: r ∧ s.running = true ∧ s.run.planes ≠ 0 ∧ s.aged k = false ∧ k.dest = 0 ∧ s.accepts k = true ∧ s.pointerBad k = none ∧ (s.voq q).serial = (s.voq q).expect ∧ (s.voq q).early = []) ∧
    (∃ (q : Nat) (k : Pkt) (r : List Pkt) (s : State), (s.voq q).queue = k :: r ∧ s.running = true ∧ s.run.planes ≠ 0 ∧ s.aged k = false ∧ k.dest = 1 ∧ s.accepts k = true ∧ s.pointerBad k = none ∧ (s.voq q).serial = (s.voq q).expect ∧ (s.voq q).early = [] ∧ k.query = false ∧ (s.run.rx.look RxQueue.reset (tackQueue k.cls)).unread = false) ∧
    (∃ (q : Nat) (k : Pkt) (r : List Pkt) (s : State), (s.voq q).queue = k :: r ∧ s.running = true ∧ s.run.planes ≠ 0 ∧ s.aged k = true) ∧
    (∃ (q : Nat) (k : Pkt) (r : List Pkt) (s : State), (s.voq q).queue = k :: r ∧ s.running = true ∧ s.run.planes ≠ 0 ∧ s.aged k = false ∧ s.accepts k = false ∧ s.dropping = true) :=
  ⟨⟨(solo.ethUp 3 : State), (3 : Nat), ({ frame1 with len := 9999 } : Frame), by decide⟩,
   ⟨({ rule1 with quench := true } : Rule), ((solo.ethUp 3).modRule 4 (fun _ => ({ rule1 with quench := true } : Rule)) : State), (3 : Nat), (4 : Nat), (frame1 : Frame), by decide⟩,
   ⟨(rule1 : Rule), (((solo.ethUp 3).modRule 4 (fun _ => (rule1 : Rule))).pool1 : State), (3 : Nat), (4 : Nat), (frame1 : Frame), ((((((((solo.ethUp 3).modRule 4 (fun _ => (rule1 : Rule))).pool1 : State).portCount (3 : Nat) 1 1).portCount (3 : Nat) 2 (frame1 : Frame).len).allocPkt (State.pktOf (((((solo.ethUp 3).modRule 4 (fun _ => (rule1 : Rule))).pool1 : State).portCount (3 : Nat) 1 1).portCount (3 : Nat) 2 (frame1 : Frame).len) (3 : Nat) (frame1 : Frame) 2 3 1 0 false false)).getD ((((solo.ethUp 3).modRule 4 (fun _ => (rule1 : Rule))).pool1 : State), pkt0)).1 : State), ((((((((solo.ethUp 3).modRule 4 (fun _ => (rule1 : Rule))).pool1 : State).portCount (3 : Nat) 1 1).portCount (3 : Nat) 2 (frame1 : Frame).len).allocPkt (State.pktOf (((((solo.ethUp 3).modRule 4 (fun _ => (rule1 : Rule))).pool1 : State).portCount (3 : Nat) 1 1).portCount (3 : Nat) 2 (frame1 : Frame).len) (3 : Nat) (frame1 : Frame) 2 3 1 0 false false)).getD ((((solo.ethUp 3).modRule 4 (fun _ => (rule1 : Rule))).pool1 : State), pkt0)).2 : Pkt), by decide⟩,
   ⟨(solo : State), (3 : Nat), (frame1 : Frame), by decide⟩,
   ⟨(90 : Nat), (pktB : Pkt), ([pkt0] : List Pkt), ((((solo.buffed.modVoq 90 (fun v => { v with queue := [pktB, pkt0], serial := 9, expect := 9 })).modRun (fun x => { x with planes := 1 })).modDecS 5 (fun d => { d with cfg := { d.cfg with queue := 144 } })) : State), ⟨by decide, by decide, by decide, by decide, by decide, accept_ring _ _ (by decide) (by decide) (by decide) (by decide), by decide, by decide, by decide⟩⟩,
   ⟨(90 : Nat), ({ pktB with dest := 1 } : Pkt), ([pkt0] : List Pkt), (((solo.buffed.modVoq 90 (fun v => { v with queue := [{ pktB with dest := 1 }, pkt0], serial := 9, expect := 9 })).modRun (fun x => { x with planes := 3 })) : State), ⟨by decide, by decide, by decide, by decide, by decide, accept_rx _ _ (by decide) (by decide) (by decide) (by decide), by decide, by decide, by decide, by decide, by decide⟩⟩,
   ⟨(90 : Nat), (pktB : Pkt), ([pkt0] : List Pkt), (((solo.buffed.modVoq 90 (fun v => { v with queue := [pktB, pkt0] })).modRun (fun x => { x with planes := 3 })).at' 99000000000 : State), by decide⟩,
   ⟨(90 : Nat), (pktB : Pkt), ([pkt0] : List Pkt), ((((solo.buffed.modVoq 90 (fun v => { v with queue := [pktB, pkt0] })).modRun (fun x => { x with planes := 1 })).modDecS 5 (fun d => { d with cfg := { d.cfg with queue := 143 } })).modBlw (fun b => { b with fenceDue := true }) : State), ⟨by decide, by decide, by decide, by decide, refuse_ring _ _ (by decide) (by decide) (by decide), by decide⟩⟩⟩

/-- States and operands that meet the hypotheses of `RunnerIngress`, clause by clause. -/
theorem test_wit_RunnerIngress2 :
    (∃ (q : Nat) (k : Pkt) (r : List Pkt) (s : State), (s.voq q).queue = k :: r ∧ s.running = true ∧ s.run.planes ≠ 0 ∧ s.aged k = false ∧ s.accepts k = false ∧ s.dropping = false) ∧
    (∃ (q : Nat) (s : State), (s.run.rx.look RxQueue.reset q).queue ≠ [] ∧ (s.run.rx.look RxQueue.reset q).unread = false ∧ (s.run.rx.look RxQueue.reset q).lastDeq + s.run.unreadMs * ms ≤ s.now) :=
  ⟨⟨(90 : Nat), (pktB : Pkt), ([pkt0] : List Pkt), ((((solo.buffed.modVoq 90 (fun v => { v with queue := [pktB, pkt0] })).modRun (fun x => { x with planes := 1 })).modDecS 5 (fun d => { d with cfg := { d.cfg with queue := 143 } })) : State), ⟨by decide, by decide, by decide, by decide, refuse_ring _ _ (by decide) (by decide) (by decide), by decide⟩⟩,
   ⟨(1 : Nat), ((solo.modRun (fun r => { r with unreadMs := 3, rx := [(1, { RxQueue.reset with queue := [pkt0, pkt0], lastDeq := 5 })] })).at' 3000005 : State), by decide⟩⟩

/-- States and operands that meet the hypotheses of `StitcherCommands`, clause by clause. -/
theorem test_wit_StitcherCommands :
    (∃ (c : Nat) (n : Nat) (h : Rtp) (k : Pkt) (r : List Pkt) (s : State), c < 256 ∧ (s.stitch c).arrived = k :: r ∧ k.rtp = some h ∧ s.pointerBad k = none ∧ (s.decS c).ssrc = some h.ssrc ∧ (s.stitch c).next = some n ∧ extNumber false (some n) h = n ∧ (s.stitch c).cand = none ∧ (s.stitch c).held = [] ∧ (s.stitch c).frag = none ∧ h.kind = .single ∧ h.marker = false ∧ (s.stitch c).auOpen = true ∧ (s.stitch c).lastTs = some h.ts ∧ k.payload ≠ 0) ∧
    (∃ (c : Nat) (n : Nat) (h : Rtp) (k : Pkt) (s : State), c < 256 ∧ (s.stitch c).next = some n ∧ (s.stitch c).held = [k] ∧ s.aged k = false ∧ k.rtp = some h ∧ s.pointerBad k = none ∧ h.kind = .single ∧ h.marker = false ∧ (s.stitch c).auOpen = false ∧ k.payload ≠ 0 ∧ n < k.ext ∧ (s.stitch c).heldAt + (s.decS c).cfg.hold ≤ s.now) ∧
    (∃ (c : Nat) (b : Bool) (s : State), s.dualCtx c = true ∧ (if b then (s.stitch c).upB else (s.stitch c).upA) = true ∧ (if b then (s.stitch c).lastB else (s.stitch c).lastA) + 10 * ms ≤ s.now) ∧
    (∃ (c : Nat) (b : Bool) (s : State), s.dualCtx c = true ∧ (if b then (s.stitch c).upB else (s.stitch c).upA) = true ∧ (if b then (s.stitch c).lastB else (s.stitch c).lastA) + 10 * ms ≤ s.now) :=
  ⟨⟨(5 : Nat), (0x1FFFF : Nat), ({ seq := 0xFFFF, seqHi := 0, ts := 7, marker := false, ssrc := 9, kind := .single, line := 0, body := [1, 2] } : Rtp), ({ pktB with rtp := some { seq := 0xFFFF, seqHi := 0, ts := 7, marker := false, ssrc := 9, kind := .single, line := 0, body := [1, 2] } } : Pkt), ([pkt0] : List Pkt), ((solo.buffed.modStitch 5 (fun x => { x with arrived := [{ pktB with rtp := some { seq := 0xFFFF, seqHi := 0, ts := 7, marker := false, ssrc := 9, kind := .single, line := 0, body := [1, 2] } }, pkt0], next := some 0x1FFFF, auOpen := true, auAt := 33, lastTs := some 7 })).modDecS 5 (fun d => { d with ssrc := some 9, cfg := { d.cfg with queue := 4096 } }) : State), by decide⟩,
   ⟨(255 : Nat), (65530 : Nat), ({ seq := 0xFFFF, seqHi := 0, ts := 7, marker := false, ssrc := 9, kind := .single, line := 0, body := [1, 2] } : Rtp), ({ pktB with ext := 65540, arrival := 6, ptp := 44, rtp := some { seq := 0xFFFF, seqHi := 0, ts := 7, marker := false, ssrc := 9, kind := .single, line := 0, body := [1, 2] } } : Pkt), (((solo.buffed.modStitch 255 (fun x => { x with next := some 65530, held := [{ pktB with ext := 65540, arrival := 6, ptp := 44, rtp := some { seq := 0xFFFF, seqHi := 0, ts := 7, marker := false, ssrc := 9, kind := .single, line := 0, body := [1, 2] } }] })).modDecS 255 (fun d => { d with cfg := { d.cfg with hold := 100, queue := 4096 } })).at' 106 : State), by decide⟩,
   ⟨(5 : Nat), (false : Bool), (((solo.modStitch 5 (fun x => { x with upA := true, lastA := 5 })).modDecS 5 (fun d => { d with cfg := { d.cfg with dual := true } })).at' 10000005 : State), by decide⟩,
   ⟨(300 : Nat), (true : Bool), ((((solo.modStitch 300 (fun x => { x with upB := true, lastB := 5 })).modRun (fun r => { r with capture := [(4, some 44)] })).modRule 3 (fun _ => { rule1 with dest := 0, stream := 4, path := true })).modRule 4 (fun _ => { rule1 with dest := 0, stream := 4, path := false }) |>.at' 10000005 : State), by decide⟩⟩

/-- States and operands that meet the hypotheses of `RunnerEgress`, clause by clause. -/
theorem test_wit_RunnerEgress1 :
    (∃ (s : State) (p : Nat) (c : Nat) (q : Nat), s.portUp p = true ∧ (s.eth p).pauseMode = 2 ∧ c < 8) ∧
    (∃ (s : State) (p : Nat) (c : Nat) (q : Nat), s.portUp p = true ∧ (s.eth p).pauseMode = 1 ∧ c < 8 ∧ q ≠ 0) ∧
    (∃ (s : State) (p : Nat) (f : PauseFrame), s.portUp p = true ∧ (s.eth p).pauseMode = 0) ∧
    (∃ (s : State) (p : Nat) (c : Nat), c < 8 ∧ (s.eth p).paused.getLsbD c = true ∧ Tbl.look (s.eth p).pauseEnd 0 c ≤ s.now) ∧
    (∃ (s : State) (p : Nat) (c : Nat), c < 8 ∧ (s.eth p).paused.getLsbD c = true ∧ (s.eth p).stalled.getLsbD c = false ∧ Tbl.look (s.eth p).pauseFrom 0 c + s.run.pauseStorm * ms < s.now) ∧
    (∃ (s : State) (p : Nat) (c : Nat), c < 8 ∧ (s.eth p).stalled.getLsbD c = true ∧ (s.eth p).paused.getLsbD c = false ∧ Tbl.look (s.eth p).freeFrom 0 c + sec ≤ s.now) ∧
    (∃ (s : State) (p : Nat), (s.eth p).pfcSent = true ∧ (s.eth p).pfcAt + 100000 ≤ s.now) ∧
    (∃ (s : State) (p : Nat), ((s.eth p).pfcSent = false ∨ s.now < (s.eth p).pfcAt + 100000)) :=
  ⟨⟨((solo.ethUp 2).modEth 2 (fun e => { e with pauseMode := 2 }) : State), (2 : Nat), (7 : Nat), (65535 : Nat), by decide⟩,
   ⟨((solo.ethUp 2).modEth 2 (fun e => { e with pauseMode := 1 }) : State), (2 : Nat), (7 : Nat), (65535 : Nat), by decide⟩,
   ⟨((solo.ethUp 2) : State), (2 : Nat), (.pause 4 : PauseFrame), by decide⟩,
   ⟨((solo.modEth 2 (fun e => { e with paused := 0x83, pauseEnd := [(7, 9)] })).at' 9 : State), (2 : Nat), (7 : Nat), by decide⟩,
   ⟨(((solo.modEth 2 (fun e => { e with paused := 0x83, pauseFrom := [(7, 9)] })).modRun (fun r => { r with pauseStorm := 1 })).at' 1000010 : State), (2 : Nat), (7 : Nat), by decide⟩,
   ⟨((solo.modEth 2 (fun e => { e with stalled := 0x83, freeFrom := [(7, 9)] })).at' 1000000009 : State), (2 : Nat), (7 : Nat), by decide⟩,
   ⟨((solo.modEth 2 (fun e => { e with pfcSent := true, pfcAt := 5 })).at' 100005 : State), (2 : Nat), by decide⟩,
   ⟨((solo.modEth 2 (fun e => { e with pfcSent := true, pfcAt := 5 })).at' 100004 : State), (2 : Nat), by decide⟩⟩

/-- States and operands that meet the hypotheses of `RunnerEgress`, clause by clause. -/
theorem test_wit_RunnerEgress2 :
    (∃ (p : Nat) (f : Nat) (x : Flow) (k : Pkt) (r : List Pkt) (s : State), s.portUp p = true ∧ s.run.flows = [(f, x)] ∧ x.queue = k :: r ∧ x.enable = true ∧ x.port.toNat = p ∧ (s.eth p).paused.getLsbD x.tc.toNat = false ∧ 0 ≤ (x.accrue s.now).bkt ∧ x.rate ≠ 0 ∧ s.aged k = false ∧ s.pointerBad k = none) ∧
    (∃ (s : State) (p : Nat), s.portUp p = true ∧ s.run.flows = []) ∧
    (∃ (s : State) (q : Nat), s.running = true ∧ q < 2176) ∧
    (∃ (s : State) (p : Nat) (up : Bool), (s.eth p).link ≠ up ∧ (s.eth p).fenced = false) ∧
    (∃ (s : State) (low : Bool), s.run.quenchPin ≠ low) :=
  ⟨⟨(2 : Nat), (1023 : Nat), ({ Flow.reset with enable := true, port := 2, tc := 5, queue := [{ pktB with dest := 4, tag := 77, cls := 5 }, pkt0], bkt := -5, rate := 8, bktAt := 40, maxBurst := 1 } : Flow), ({ pktB with dest := 4, tag := 77, cls := 5 } : Pkt), ([pkt0] : List Pkt), (((solo.buffed.ethUp 2).modRun (fun r => { r with flows := [(1023, { Flow.reset with enable := true, port := 2, tc := 5, queue := [{ pktB with dest := 4, tag := 77, cls := 5 }, pkt0], bkt := -5, rate := 8, bktAt := 40, maxBurst := 1 })] })).at' 50000 : State), by decide⟩,
   ⟨(solo.ethUp 2 : State), (2 : Nat), by decide⟩,
   ⟨(solo.modRun (fun r => { r with stats := [(2175, { QStat.reset with depth := 4, maxNow := 9, delayNow := 3 })] }) : State), (2175 : Nat), by decide⟩,
   ⟨(solo : State), (3 : Nat), (true : Bool), by decide⟩,
   ⟨(solo.modRun (fun r => { r with quenchMask := 3 }) : State), (true : Bool), by decide⟩⟩

/-- States and operands that meet the hypotheses of `Interrupts`, clause by clause. -/
theorem test_wit_Interrupts :
    (∃ (s : State), s.claimBest = none) ∧
    (∃ (s : State) (n : Nat) (p : BitVec 4), s.claimBest = some (n, p)) ∧
    (∃ (s : State) (n : Nat) (p : BitVec 4), s.claimBest = some (n, p)) ∧
    (∃ (s : State) (m : Nat), s.claimBest = none ∧ m < 256 ∧ s.ircPending m = true) ∧
    (∃ (s : State) (v : Word) (p : BitVec 4) (r : List (BitVec 4)), s.irc.stack = p :: r) ∧
    (∃ (s : State) (v : Word), s.irc.stack = []) ∧
    (∃ (s : State) (v : Word), 32 ≤ v.toNat ∧ v.toNat < 208) ∧
    (∃ (s : State) (v : Word), (v.toNat < 32 ∨ 208 ≤ v.toNat)) :=
  ⟨⟨((solo.modIrcSrc 40 (fun x => { x with enable := true, prio := 5 })).latch 40 |>.modIrc (fun i => { i with stack := [5] }) : State), by decide⟩,
   ⟨(((solo.modIrcSrc 40 (fun x => { x with enable := true, prio := 6 })).modIrcSrc 41 (fun x => { x with enable := true, prio := 6, soft := true })).latch 40 |>.modIrc (fun i => { i with stack := [5] }) : State), (40 : Nat), (6 : BitVec 4), by decide⟩,
   ⟨(((solo.modIrcSrc 40 (fun x => { x with enable := true, prio := 6 })).modIrcSrc 41 (fun x => { x with enable := true, prio := 6, soft := true })).latch 40 |>.modIrc (fun i => { i with stack := [5] }) : State), (40 : Nat), (6 : BitVec 4), by decide⟩,
   ⟨((solo.modIrcSrc 40 (fun x => { x with enable := true, prio := 5 })).latch 40 |>.modIrc (fun i => { i with stack := [5] }) : State), 40, by decide⟩,
   ⟨(solo.modIrc (fun i => { i with stack := [5, 4] }) : State), (1 : Word), (5 : BitVec 4), ([4] : List (BitVec 4)), by decide⟩,
   ⟨(solo : State), (1 : Word), by decide⟩,
   ⟨(solo.latch 207 |>.latch 32 : State), (207 : Word), by decide⟩,
   ⟨(solo.latch 207 : State), (208 : Word), by decide⟩⟩

/-- States and operands that meet the hypotheses of `TackUnits`, clause by clause. -/
theorem test_wit_TackUnits1 :
    (∃ (s : State) (j : Nat), j < 4 ∧ (s.timer j).enable = true ∧ s.deep = false ∧ s.timerChannels j = [] ∧ s.glb.mode ≠ .rest ∧ (s.timer j).startAt + (s.timer j).period.toNat * 1000 ≤ s.now) ∧
    (∃ (s : State) (bits : List (Bool × Bool × Bool)), s.uartOn = true ∧ bits.length = s.tck.uart.charBits ∧ s.glb.mode ≠ .rest) ∧
    (∃ (u : Uart) (bits : List (Bool × Bool × Bool)), (bits.map majority).head? = some false ∧ u.rx.length < 64) ∧
    (∃ (u : Uart) (bits : List (Bool × Bool × Bool)), (bits.map majority).head? = some false ∧ 64 ≤ u.rx.length) ∧
    (∃ (s : State), s.uartOn = true ∧ s.glb.mode ≠ .rest) ∧
    (∃ (s : State) (c : BitVec 10) (r : List (BitVec 10)), s.tck.uart.rx = c :: r) ∧
    (∃ (s : State), s.tck.uart.rx = []) ∧
    (∃ (s : State) (v : Word), s.tck.uart.tx.length < 64) :=
  ⟨⟨((solo.modTimer 3 (fun x => { x with enable := true, period := 2, startAt := 5 })).at' 2005 : State), (3 : Nat), by decide⟩,
   ⟨(solo.modUart (fun u => { u with enable := true }) : State), ([(false, false, true)] ++ List.replicate 9 (true, true, false) : List (Bool × Bool × Bool)), by decide⟩,
   ⟨({ Uart.reset with rx := List.replicate 63 5 } : Uart), ([(false, false, true)] ++ List.replicate 9 (true, true, false) : List (Bool × Bool × Bool)), by decide⟩,
   ⟨({ Uart.reset with rx := List.replicate 64 5 } : Uart), ([(false, false, true)] ++ List.replicate 9 (true, true, false) : List (Bool × Bool × Bool)), by decide⟩,
   ⟨(solo.modUart (fun u => { u with enable := true, status := 1 }) : State), by decide⟩,
   ⟨(solo.modUart (fun u => { u with rx := [0x3FF, 4] }) : State), (0x3FF : BitVec 10), ([4] : List (BitVec 10)), by decide⟩,
   ⟨(solo.modUart (fun u => { u with rxRead := 4 }) : State), by decide⟩,
   ⟨(solo.modUart (fun u => { u with tx := List.replicate 63 4 }) : State), (0x3FF : Word), by decide⟩⟩

/-- States and operands that meet the hypotheses of `TackUnits`, clause by clause. -/
theorem test_wit_TackUnits2 :
    (∃ (s : State) (v : Word), 64 ≤ s.tck.uart.tx.length) ∧
    (∃ (s : State) (c : Byte) (r : List Byte), s.uartOn = true ∧ s.tck.uart.tx = c :: r) ∧
    (∃ (s : State) (v : Word), (v >>> 24).setWidth 8 = s.tck.uart.seq) ∧
    (∃ (s : State) (v : Int), s.tck.snsFenced = false ∧ s.glb.mode ≠ .rest ∧ (s.tck.temps.look Sensor.reset 0).hiTh < v ∧ (s.tck.temps.look Sensor.reset 0).loTh ≤ v) ∧
    (∃ (s : State), s.log.postq = []) ∧
    (∃ (s : State) (e : LogEntry) (r : List LogEntry), s.log.postq = e :: r ∧ s.log.lostPend = 0 ∧ s.log.next - s.log.flushed < 8192) ∧
    (∃ (s : State) (v : Word), s.wdogReason v = none ∧ v >>> 16 = 0x5AC3) ∧
    (∃ (s : State) (v : Word), s.wdogReason v = none ∧ v >>> 16 ≠ 0x5AC3) :=
  ⟨⟨(solo.modUart (fun u => { u with tx := List.replicate 64 4 }) : State), (0x3FF : Word), by decide⟩,
   ⟨(solo.modUart (fun u => { u with enable := true, tx := [3, 4], sent := [9] }) : State), (3 : Byte), ([4] : List Byte), by decide⟩,
   ⟨(solo.modUart (fun u => { u with status := 7, seq := 255 }) : State), (0xFF000000 : Word), by decide⟩,
   ⟨(solo : State), (2000000 : Int), by decide⟩,
   ⟨(solo : State), by decide⟩,
   ⟨(solo.modLog (fun l => { l with postq := [⟨1, 2, 3, 4⟩, ⟨5, 6, 7, 8⟩], next := 0xFFFFFFFF, flushed := 0xFFFFF000 }) : State), (⟨1, 2, 3, 4⟩ : LogEntry), ([⟨5, 6, 7, 8⟩] : List LogEntry), by decide⟩,
   ⟨(solo.modTck (fun k => { k with expired := true }) |>.at' 5 : State), (0x5AC30000 ||| 100 : Word), by decide⟩,
   ⟨(solo.modTck (fun k => { k with expired := true }) |>.at' 5 : State), (0x5AC40000 ||| 100 : Word), by decide⟩⟩

/-- States and operands that meet the hypotheses of `TackUnits`, clause by clause. -/
theorem test_wit_TackUnits3 :
    (∃ (s : State), s.tck.st = .run ∧ s.tck.expired = false ∧ s.deep = false ∧ s.glb.mode ≠ .rest ∧ s.tck.wdStart + s.tck.timeout.toNat * ms ≤ s.now) ∧
    (∃ (s : State), s.tck.st ≠ .run) :=
  ⟨⟨(solo.modTck (fun k => { k with st := .run, timeout := 3, wdStart := 5 }) |>.at' 3000005 : State), by decide⟩,
   ⟨(solo : State), by decide⟩⟩

/-- States and operands that meet the hypotheses of `Semaphores`, clause by clause. -/
theorem test_wit_Semaphores :
    (∃ (s : State) (n : Nat) (x : BitVec 9), n < 64 ∧ ownerOk x = true) ∧
    (∃ (s : State) (n : Nat) (x : BitVec 9), n < 64 ∧ ownerOk x = true) ∧
    (∃ (s : State) (n : Nat) (x : BitVec 9), n < 64 ∧ ownerOk x = true) ∧
    (∃ (s : State) (n : Nat) (x : BitVec 9), n < 64 ∧ ownerOk x = true) :=
  ⟨⟨(solo.modSemS 63 (fun x => { x with st := .recovering, owner := 0x100 }) : State), (63 : Nat), (0x10A : BitVec 9), by decide⟩,
   ⟨(solo.modSemS 63 (fun x => { x with st := .recovering, owner := 0x10A }) : State), (63 : Nat), (0x10A : BitVec 9), by decide⟩,
   ⟨(solo.modSemS 63 (fun x => { x with st := .recovering, owner := 0x10A }) : State), (63 : Nat), (0x10A : BitVec 9), by decide⟩,
   ⟨(solo.modSemS 63 (fun x => { x with st := .held, owner := 0x10A }) : State), (63 : Nat), (0x100 : BitVec 9), by decide⟩⟩

/-- States and operands that meet the hypotheses of `TackDma`, clause by clause. -/
theorem test_wit_TackDma1 :
    (∃ (s : State) (k : Nat), k < 8 ∧ s.tck.dmaFenced = false ∧ (s.dma k).enable = true ∧ (s.dma k).st = .idle ∧ (∀ j, j < 8 → k ≠ j → (s.dma j).st = .idle)) ∧
    (∃ (s : State) (k : Nat), k < 8 ∧ s.tck.dmaFenced = false ∧ (s.dma k).enable = true ∧ (s.dma k).st = .running) ∧
    (∃ (s : State) (k : Nat), s.dmaRunning = some k ∧ (s.dma k).remain = 0 ∧ s.dmaChained k = [] ∧ s.glb.mode ≠ .rest ∧ (∀ j, j < 8 → k ≠ j → (s.dma j).st = .idle)) ∧
    (∃ (s : State) (k : Nat) (a : Word), k < 8 ∧ (s.dma k).st = .running ∧ (s.dma k).remain ≠ 0 ∧ (s.dma k).wSrc = a ∧ (s.dma k).wSrc < (s.dma k).wSrc + (s.dma k).remain) ∧
    (∃ (s : State) (k : Nat), k < 8 ∧ (s.dma k).st = .pending ∧ (∃ j, j < 8 ∧ (s.dma j).st = .running)) ∧
    (∃ (s : State) (k : Nat), k < 8 ∧ (s.dma k).st = .stopped) ∧
    (∃ (s : State) (k : Nat), k < 8 ∧ (s.dma k).st = .stopped) ∧
    (∃ (s : State) (c : Nat), s.glb.inReset = false ∧ s.tck.st = .restarting) :=
  ⟨⟨(solo.modDma 7 (fun d => { d with enable := true, src := 0x10, dst := 0x20, count := 8, level := true }) : State), (7 : Nat), by decide⟩,
   ⟨(solo.modDma 7 (fun d => { d with enable := true, st := .running }) : State), (7 : Nat), by decide⟩,
   ⟨(solo.modDma 7 (fun d => { d with enable := true, st := .running }) : State), (7 : Nat), by decide⟩,
   ⟨(solo.modDma 7 (fun d => { d with enable := true, st := .running, remain := 8, wSrc := 0x10, wDst := 0x20 }) : State), (7 : Nat), (0x10 : Word), by decide⟩,
   ⟨((solo.modDma 7 (fun d => { d with enable := true, st := .pending })).modDma 6 (fun d => { d with st := .running }) : State), (7 : Nat), by decide⟩,
   ⟨(solo.modDma 7 (fun d => { d with st := .stopped, busErr := true }) : State), (7 : Nat), by decide⟩,
   ⟨(solo.modDma 7 (fun d => { d with st := .stopped, busErr := true }) : State), (7 : Nat), by decide⟩,
   ⟨(solo.modTck (fun k => { k with st := .restarting, expired := true }) |>.at' 7 : State), (2 : Nat), by decide⟩⟩

/-- States and operands that meet the hypotheses of `TackDma`, clause by clause. -/
theorem test_wit_TackDma2 :
    (∃ (s : State), s.tck.st = .run ∧ s.tck.expired = true ∧ s.deep = false ∧ s.tck.romFenced = false ∧ s.tck.wdTimes = [] ∧ (∀ k, k < 8 → (s.dma k).st ≠ .running) ∧ s.tck.wdStart + 2 * s.tck.timeout.toNat * ms ≤ s.now) ∧
    (∃ (s : State), s.tck.expired = false) :=
  ⟨⟨((solo.modTck (fun k => { k with st := .run, expired := true, timeout := 3, wdStart := 5 })).modIrc (fun i => { i with stack := [4] }) |>.at' 6000005 : State), by decide⟩,
   ⟨(solo : State), by decide⟩⟩

/-- States and operands that meet the hypotheses of `FaultReports`, clause by clause. -/
theorem test_wit_FaultReports :
    (∃ (s : State) (rs : List Report) (r : Report), s.collects = true ∧ r ∈ rs ∧ r.cls = .fatal ∧ r.src < 416 ∧ s.masked r.src = false ∧ (∀ q ∈ rs, q.cls = .fatal → q.src < 416 → s.masked q.src = false → r.src ≤ q.src) ∧ (∀ q ∈ rs, q.src = r.src → q.cls = .fatal)) ∧
    (∃ (s : State) (n : Nat) (a : Nat), s.collects = true ∧ n < 416 ∧ s.masked n = false ∧ (s.fltSrc n).ceTimes.length < 255) ∧
    (∃ (s : State) (n : Nat) (a : Nat) (b : Nat), s.collects = true ∧ fencesBay n = some b ∧ b < 4 ∧ n < 416 ∧ s.masked n = false ∧ (s.bay b).fenced = false) ∧
    (∃ (s : State) (a : Nat), s.collects = true ∧ s.masked 344 = false) ∧
    (∃ (s : State) (rs : List Report), (∀ r ∈ rs, s.masked r.src = true)) ∧
    (∃ (s : State) (rs : List Report), s.collects = false) :=
  ⟨⟨(solo : State), ([⟨20, .corrected, 0⟩, ⟨400, .fatal, 0⟩, ⟨9, .fatal, 0⟩] : List Report), (⟨9, .fatal, 0⟩ : Report), by decide⟩,
   ⟨(solo.modFltSrc 415 (fun x => { x with ce := 63, ceTimes := [0, 0] }) : State), (415 : Nat), (0 : Nat), by decide⟩,
   ⟨(solo : State), (402 : Nat), (0 : Nat), (3 : Nat), by decide⟩,
   ⟨(solo : State), (0 : Nat), by decide⟩,
   ⟨(solo.modFltSrc 7 (fun x => { x with fenced := true }) : State), ([⟨7, .fatal, 0⟩] : List Report), by decide⟩,
   ⟨(solo.inMode .halt : State), ([⟨7, .fatal, 0⟩] : List Report), by decide⟩⟩

/-- States and operands that meet the hypotheses of `FaultCommands`, clause by clause. -/
theorem test_wit_FaultCommands1 :
    (∃ (s : State) (n : Nat), s.tck.st = .run) ∧
    (∃ (s : State) (n : Nat), s.tck.st ≠ .run) ∧
    (∃ (s : State) (n : Nat), s.collects = true ∧ n < 416 ∧ s.masked n = false ∧ (s.fltSrc n).forceWire = false) ∧
    (∃ (s : State) (n : Nat) (pass : Bool), s.collects = true ∧ n < 416 ∧ s.masked n = false ∧ (pass = false ∨ (s.fltSrc n).forceWire = true) ∧ (s.fltSrc n).wireFail = false) ∧
    (∃ (s : State) (n : Nat) (pass : Bool), s.collects = true ∧ n < 416 ∧ s.masked n = false ∧ (pass = false ∨ (s.fltSrc n).forceWire = true) ∧ (s.fltSrc n).wireFail = true) ∧
    (∃ (s : State) (n : Nat), s.collects = true ∧ n < 416 ∧ s.masked n = false ∧ fatalOnly n = true) ∧
    (∃ (s : State), s.collects = true ∧ s.masked 344 = false) ∧
    (∃ (s : State) (n : Nat), s.masked n = true) :=
  ⟨⟨((solo.modTck (fun k => { k with st := .run })).modFltSrc 326 (fun x => { x with reloading := [3, 4] }) : State), (326 : Nat), by decide⟩,
   ⟨((solo.modTck (fun k => { k with st := .restarting })).modFltSrc 326 (fun x => { x with reloading := [3, 4] }) : State), (326 : Nat), by decide⟩,
   ⟨(solo.modFltSrc 415 (fun x => { x with wireFail := true }) : State), (415 : Nat), by decide⟩,
   ⟨(solo.modFltSrc 415 (fun x => { x with forceWire := true }) : State), (415 : Nat), (true : Bool), by decide⟩,
   ⟨(solo.modFltSrc 415 (fun x => { x with wireFail := true }) : State), (415 : Nat), (false : Bool), by decide⟩,
   ⟨(solo : State), (331 : Nat), by decide⟩,
   ⟨(solo : State), by decide⟩,
   ⟨(solo.modFltSrc 415 (fun x => { x with fenced := true }) : State), (415 : Nat), by decide⟩⟩

/-- States and operands that meet the hypotheses of `FaultCommands`, clause by clause. -/
theorem test_wit_FaultCommands2 :
    (∃ (s : State) (w : Writer) (n : Nat) (v : Word), n < 416 ∧ s.writeReason w false (.fltSrc n) v = none ∧ v.extractLsb' 30 2 = (0 : BitVec 2)) ∧
    (∃ (s : State) (w : Writer) (n : Nat) (v : Word), n < 416 ∧ s.writeReason w false (.fltSrc n) v = none ∧ v.extractLsb' 30 2 = (1 : BitVec 2) ∧ s.collects = true ∧ s.masked n = false ∧ (s.fltSrc n).force = 0 ∧ (s.fltSrc n).ceTimes.length < 255) ∧
    (∃ (s : State) (n : Nat) (v : Word), n < 416 ∧ v.extractLsb' 30 2 = (3 : BitVec 2) ∧ s.flt.forceFatalEn = false) ∧
    (∃ (s : State) (v : Word), v.extractLsb' 24 8 = s.flt.seq) ∧
    (∃ (s : State) (v : Word), v.extractLsb' 24 8 ≠ s.flt.seq) :=
  ⟨⟨(solo.modFltSrc 415 (fun x => { x with force := 1 }) : State), (.tack : Writer), (415 : Nat), (0x20000000 : Word), by decide⟩,
   ⟨(solo : State), (.tack : Writer), (9 : Nat), (0x40000000 : Word), by decide⟩,
   ⟨(solo : State), (9 : Nat), (0xC0000000 : Word), by decide⟩,
   ⟨(solo.modFlt (fun f => { f with seq := 255, new := true }) : State), (0xFF000000 : Word), by decide⟩,
   ⟨(solo.modFlt (fun f => { f with seq := 255, new := true }) : State), (0xFE000000 : Word), by decide⟩⟩

/-- States and operands that meet the hypotheses of `GirthLink`, clause by clause. -/
theorem test_wit_GirthLink1 :
    (∃ (s : State), s.linksUp = true ∧ s.glb.mode ≠ .rest ∧ s.grt.fenced = false ∧ s.grt.link ≠ .up ∧ s.grt.link ≠ .ident) ∧
    (∃ (a : Nat) (s : State), s.grt.link = .refused ∧ s.linksUp = true ∧ s.grt.fenced = false ∧ s.grt.hbIn = some a ∧ a + sec ≤ s.now) ∧
    (∃ (s : State), s.grt.link ≠ .refused) ∧
    (∃ (s : State), s.linksUp = true) ∧
    (∃ (s : State), s.linksUp = true) ∧
    (∃ (s : State), s.hbFresh = false) ∧
    (∃ (s : State), s.hbFresh = true) ∧
    (∃ (h : GHdr) (s : State), s.carries = true ∧ h.crcOk = true ∧ h.known = true) :=
  ⟨⟨(lead : State), by decide⟩,
   ⟨(5 : Nat), (((lead.linked .refused).modGrt (fun g => { g with hbIn := some 5 })).at' (sec + 5) : State), by decide⟩,
   ⟨(lead : State), by decide⟩,
   ⟨((lead.linked .up).modGrt (fun g => { g with txSeq := 7, unacked := [gframe 6], sendq := [dframe, gframe 0] }) : State), by decide⟩,
   ⟨((lead.linked .lost).modGrt (fun g => { g with txSeq := 7, unacked := [gframe 6], sendq := [dframe, gframe 0] }) : State), by decide⟩,
   ⟨(lead : State), by decide⟩,
   ⟨((lead.modGlb (fun g => { g with lastHb := some 0 })).at' 199999 : State), by decide⟩,
   ⟨(⟨9, 3, true, true⟩ : GHdr), ((lead.linked .ident).modGrt (fun g => { g with unacked := [gframe 1, gframe 2, gframe 3] }) : State), by decide⟩⟩

/-- States and operands that meet the hypotheses of `GirthLink`, clause by clause. -/
theorem test_wit_GirthLink2 :
    (∃ (h : GHdr) (s : State), (h.crcOk = false ∨ s.carries = false)) ∧
    (∃ (h : GHdr) (s : State), s.carries = true ∧ h.crcOk = true ∧ h.known = false) ∧
    (∃ (f : GFrame) (r : List GFrame) (s : State), s.carries = true ∧ s.grt.unacked = f :: r ∧ f.at_ + 20000 ≤ s.now ∧ s.grt.tries < 7) ∧
    (∃ (f : GFrame) (r : List GFrame) (s : State), s.carries = true ∧ s.grt.unacked = f :: r ∧ f.at_ + 20000 ≤ s.now ∧ s.grt.tries = 7) ∧
    (∃ (s : State), s.grt.sendq.all (fun f => !f.delta || decide (s.now ≤ f.at_ + 10 * ms)) = true) ∧
    (∃ (f : GFrame) (r : List GFrame) (s : State), s.grt.sendq = f :: r ∧ f.delta = true ∧ f.at_ + 10 * ms < s.now ∧ r.all (fun f => !f.delta || decide (s.now ≤ f.at_ + 10 * ms)) = true) ∧
    (∃ (a : Nat) (s : State), s.carries = true ∧ s.grt.hbIn = some a ∧ a + 250000 ≤ s.now) ∧
    (∃ (a : Nat) (s : State), s.grt.hbIn = some a ∧ s.now < a + 250000) :=
  ⟨⟨(⟨9, 3, false, true⟩ : GHdr), (lead.linked .up : State), by decide⟩,
   ⟨(⟨9, 3, true, false⟩ : GHdr), (lead.linked .up : State), by decide⟩,
   ⟨(gframe 1 : GFrame), ([gframe 2] : List GFrame), (((lead.linked .up).modGrt (fun g => { g with unacked := [gframe 1, gframe 2], tries := 6 })).at' 20000 : State), by decide⟩,
   ⟨(gframe 1 : GFrame), ([gframe 2] : List GFrame), (((lead.linked .up).modGrt (fun g => { g with unacked := [gframe 1, gframe 2], tries := 7 })).at' 20000 : State), by decide⟩,
   ⟨(((lead.linked .up).modGrt (fun g => { g with sendq := [dframe, gframe 1] })).at' (10 * ms) : State), by decide⟩,
   ⟨(dframe : GFrame), ([gframe 1] : List GFrame), (((lead.linked .up).modGrt (fun g => { g with sendq := [dframe, gframe 1] })).at' (10 * ms + 1) : State), by decide⟩,
   ⟨(3 : Nat), (((shad.linked .up).modGrt (fun g => { g with hbIn := some 3, configSync := true })).at' 250003 : State), by decide⟩,
   ⟨(3 : Nat), (((shad.linked .up).modGrt (fun g => { g with hbIn := some 3 })).at' 250002 : State), by decide⟩⟩

/-- States and operands that meet the hypotheses of `GirthLink`, clause by clause. -/
theorem test_wit_GirthLink3 :
    (∃ (s : State), s.linksUp = true ∧ s.grt.link ≠ .down) ∧
    (∃ (h : GHdr) (i : IdentInfo) (s : State), s.hears h ∧ s.grt.link = .ident ∧ i.side ≠ s.glb.side) ∧
    (∃ (h : GHdr) (i : IdentInfo) (s : State), s.hears h ∧ s.grt.link = .ident ∧ i.side = s.glb.side) ∧
    (∃ (h : GHdr) (i : IdentInfo) (sig : List Byte) (s : State), s.hears h ∧ s.grt.link = .ident ∧ s.grt.peerId = some i) :=
  ⟨⟨(shad.linked .up : State), by decide⟩,
   ⟨(hdr0 : GHdr), (ident1 true : IdentInfo), (lead.linked .ident : State), by decide⟩,
   ⟨(hdr0 : GHdr), (ident1 false : IdentInfo), (lead.linked .ident : State), by decide⟩,
   ⟨(hdr0 : GHdr), (ident1 true : IdentInfo), ([] : List Byte), ((lead.linked .ident).modGrt (fun g => { g with peerId := some (ident1 true) }) : State), by decide⟩⟩

/-- States and operands that meet the hypotheses of `GirthFrames`, clause by clause. -/
theorem test_wit_GirthFrames1 :
    (∃ (h : GHdr) (c : Instr) (s : State), Sequenced h c ∧ (h.crcOk = false ∨ s.carries = false)) ∧
    (∃ (h : GHdr) (c : Instr) (s : State), Sequenced h c ∧ s.carries = true ∧ h.crcOk = true ∧ h.known = false) ∧
    (∃ (h : GHdr) (c : Instr) (s : State), Sequenced h c ∧ s.carries = true ∧ h.crcOk = true ∧ h.known = true ∧ h.seq ≠ s.grt.rxSeq) ∧
    (∃ (h : GHdr) (i : Nat) (k : Nat) (m : List Timing) (s : State), s.hears h ∧ s.grt.link = .up ∧ s.follows = true ∧ (s.encS i).cfg.enabled = true ∧ (s.encS i).cfg.input = some k ∧ Tbl.risesFrom s.enc 0 = true) ∧
    (∃ (h : GHdr) (i : Nat) (m : EncAdopt) (s : State), s.hears h ∧ s.grt.link = .up ∧ s.follows = true) ∧
    (∃ (h : GHdr) (i : Nat) (m : PicCrc) (s : State), s.hears h ∧ s.grt.link = .up ∧ (s.encS i).ownCrc = [] ∧ (s.encS i).crcAt = []) ∧
    (∃ (h : GHdr) (i : Nat) (m : PicCrc) (a : PicCrc) (s : State), s.hears h ∧ s.grt.link = .up ∧ (s.encS i).ownCrc = [a] ∧ (s.encS i).peerCrc = [] ∧ a.picCount = m.picCount ∧ a ≠ m ∧ s.glb.role ≠ .lead) ∧
    (∃ (i : Nat) (u : Nat) (c : BitVec 32) (a : PicCrc) (s : State), (s.encS i).ownCrc = [a] ∧ (s.encS i).peerCrc = [] ∧ a.picCount = c ∧ (c, u) ∈ (s.encS i).crcAt ∧ u + 4 * (s.raster (s.encS i).cfg.raster).period ≤ s.now) :=
  ⟨⟨(⟨9, 3, false, true⟩ : GHdr), (.timing (⟨9, 3, false, true⟩ : GHdr) [] : Instr), (shadUp : State), ⟨.timing _, by decide⟩⟩,
   ⟨(⟨0, 3, true, false⟩ : GHdr), (.timing (⟨0, 3, true, false⟩ : GHdr) [] : Instr), (shadUp : State), ⟨.timing _, by decide⟩⟩,
   ⟨(⟨1, 3, true, true⟩ : GHdr), (.handover (⟨1, 3, true, true⟩ : GHdr) true : Instr), (shadUp : State), ⟨.handover _, by decide⟩⟩,
   ⟨(hdr0 : GHdr), (5 : Nat), (16 : Nat), ([⟨16, 3, 4, 1, 2⟩, ⟨17, 3, 4, 1, 2⟩] : List Timing), (shadUp.modEncS 5 (fun e => { e with cfg := { ecfg with input := some 16 } }) : State), by decide⟩,
   ⟨(hdr0 : GHdr), (5 : Nat), (⟨1, 2, 3, 4, 5, [6], none, none⟩ : EncAdopt), (shadUp : State), by decide⟩,
   ⟨(hdr0 : GHdr), (5 : Nat), (⟨7, 8, 9⟩ : PicCrc), (shadUp : State), by decide⟩,
   ⟨(hdr0 : GHdr), (5 : Nat), (⟨7, 8, 9⟩ : PicCrc), (⟨7, 8, 10⟩ : PicCrc), (shadUp.modEncS 5 (fun e => { e with ownCrc := [⟨7, 8, 10⟩], det := true, detOk := true }) : State), by decide⟩,
   ⟨(5 : Nat), (0 : Nat), (7 : BitVec 32), (⟨7, 8, 10⟩ : PicCrc), (((shadUp.use 0).modEncS 5 (fun e => { e with cfg := ecfg, ownCrc := [⟨7, 8, 10⟩], crcAt := [(7, 0)], missing8 := 7, detOk := true })).at' (70 * ms) : State), by decide⟩⟩

/-- States and operands that meet the hypotheses of `GirthFrames`, clause by clause. -/
theorem test_wit_GirthFrames2 :
    (∃ (i : Nat) (c : BitVec 32) (s : State), (s.encS i).ownCrc = [] ∧ (s.encS i).peerCrc = []) ∧
    (∃ (h : GHdr) (k : Nat) (f : Nat) (x : BitVec 32) (s : State), s.hears h ∧ s.grt.link = .up ∧ s.follows = true) ∧
    (∃ (h : GHdr) (n : Nat) (r : BitVec 4) (l : BitVec 3) (v : Word) (s : State), s.hears h ∧ s.grt.link = .up ∧ s.follows = true ∧ (s.outP n).gated = true ∧ (s.dpo n).fenced = false) ∧
    (∃ (h : GHdr) (p : SrcPath) (ws : List Word) (s : State), s.hears h ∧ s.grt.link = .up ∧ s.follows = true) ∧
    (∃ (h : GHdr) (c : Instr) (s : State), Sequenced h c ∧ s.hears h ∧ s.grt.link = .up ∧ s.follows = false ∧ (∀ i m, c ≠ .picCrc h i m) ∧ (∀ m, c ≠ .sem h m) ∧ (∀ b, c ≠ .handover h b)) ∧
    (∃ (h : GHdr) (i : Nat) (a : T48) (g : Nat) (s : State), s.hears h ∧ s.grt.link = .up ∧ s.follows = true) ∧
    (∃ (h : GHdr) (k : Nat) (ws : List (Nat × Word)) (sc : Option Nat) (pos : LinePos) (s : State), s.hears h ∧ s.grt.link = .up ∧ s.follows = true ∧ s.grt.snapshot ≠ []) ∧
    (∃ (h : GHdr) (n : Nat) (v : BitVec 2) (s : State), s.hears h ∧ s.grt.link = .up) :=
  ⟨⟨(5 : Nat), (7 : BitVec 32), (shadUp : State), by decide⟩,
   ⟨(hdr0 : GHdr), (9 : Nat), (3 : Nat), (4 : BitVec 32), (shadUp : State), by decide⟩,
   ⟨(hdr0 : GHdr), (2 : Nat), (3 : BitVec 4), (4 : BitVec 3), (7 : Word), (shadUp.modOutP 2 (fun p => { p with gated := true }) : State), by decide⟩,
   ⟨(hdr0 : GHdr), (.queue 3 : SrcPath), ([] : List Word), (shadUp : State), by decide⟩,
   ⟨(hdr0 : GHdr), (.snapshot (hdr0 : GHdr) [] true : Instr), (lead.linked .up : State), ⟨.snapshot _ _, by decide, by decide, by decide, (fun _ _ e => by cases e), (fun _ e => by cases e), (fun _ e => by cases e)⟩⟩,
   ⟨(hdr0 : GHdr), (5 : Nat), (6 : T48), (2 : Nat), (shadUp : State), by decide⟩,
   ⟨(hdr0 : GHdr), (1 : Nat), ([(4096, 3)] : List (Nat × Word)), (some 2 : Option Nat), (⟨0, 0, 0⟩ : LinePos), (shadUp.modGrt (fun g => { g with snapshot := [(0, 1)] }) : State), by decide⟩,
   ⟨(hdr0 : GHdr), (3 : Nat), (1 : BitVec 2), (shadUp : State), by decide⟩⟩

/-- States and operands that meet the hypotheses of `GirthFrames`, clause by clause. -/
theorem test_wit_GirthFrames3 :
    (∃ (h : GHdr) (n : Nat) (s : State), s.hears h ∧ s.grt.link = .up) ∧
    (∃ (h : GHdr) (m : List (Nat × Word)) (last : Bool) (s : State), s.hears h ∧ s.grt.link = .up ∧ s.follows = true ∧ s.grt.imageMatch = true) ∧
    (∃ (h : GHdr) (m : List TileDelta) (s : State), s.hears h ∧ s.grt.link = .up ∧ s.follows = true) ∧
    (∃ (h : GHdr) (m : List TileDelta) (s : State), s.hears h ∧ s.grt.link = .up ∧ s.follows = true) ∧
    (∃ (h : GHdr) (i : Nat) (x : T48) (a : Bool) (raw : RawPicture) (s : State), s.hears h ∧ s.grt.link = .up ∧ s.follows = true ∧ (s.encS i).cfg.enabled = true ∧ (s.encS i).cfg.input = none ∧ (s.encS i).posted.length < 4) ∧
    (∃ (h : GHdr) (i : Nat) (n : List Byte) (e : Bool) (s : State), s.hears h ∧ s.grt.link = .up ∧ s.follows = true) :=
  ⟨⟨(hdr0 : GHdr), (3 : Nat), (shadUp : State), by decide⟩,
   ⟨(hdr0 : GHdr), ([(5, 6)] : List (Nat × Word)), (true : Bool), (shadUp.modGrt (fun g => { g with imageMatch := true }) : State), by decide⟩,
   ⟨(hdr0 : GHdr), ([⟨5, 6, 7, 8⟩] : List TileDelta), (shadUp : State), by decide⟩,
   ⟨(hdr0 : GHdr), ([] : List TileDelta), (shadUp : State), by decide⟩,
   ⟨(hdr0 : GHdr), (5 : Nat), (6 : T48), (true : Bool), (⟨1, 1, []⟩ : RawPicture), ((shadUp.use 2).modEncS (5 : Nat) (fun e => { e with cfg := ecfg }) : State), by decide⟩,
   ⟨(hdr0 : GHdr), (5 : Nat), ([13] : List Byte), (true : Bool), (shadUp.modDecS (5 : Nat) (fun d => { d with cfg := { d.cfg with enabled := true, hostFed := true, queue := 13 } }) : State), by decide⟩⟩

/-- States and operands that meet the hypotheses of `TwinWatch`, clause by clause. -/
theorem test_wit_TwinWatch1 :
    (∃ (h : GHdr) (m : HeartbeatMsg) (s : State), s.carries = true ∧ h.crcOk = true ∧ h.known = true ∧ s.grt.link = .up ∧ s.glb.mode = .shadow ∧ s.glb.role = .shadow ∧ s.glb.demoting = false ∧ s.grt.handover = none ∧ hbDown m = false) ∧
    (∃ (h : GHdr) (m : HeartbeatMsg) (s : State), (h.crcOk = false ∨ s.carries = false)) ∧
    (∃ (h : GHdr) (b : Bool) (s : State), s.hears h ∧ s.grt.link = .up ∧ s.guards = true) ∧
    (∃ (h : GHdr) (b : Bool) (s : State), s.hears h ∧ s.grt.link = .up ∧ s.guards = false) ∧
    (∃ (h : GHdr) (m : HeartbeatMsg) (b : Bool) (s : State), s.carries = true ∧ h.crcOk = true ∧ h.known = true ∧ s.grt.link = .up ∧ s.guards = true ∧ s.grt.handover = some b ∧ hbDown m = false) ∧
    (∃ (s : State), s.running = true ∧ s.guards = true) ∧
    (∃ (s : State), s.running = true ∧ s.glb.mode = .lead ∧ s.glb.role = .lead) ∧
    (∃ (s : State), s.running = true ∧ s.guards = true ∧ s.grt.link = .lost) :=
  ⟨⟨(hdr0 : GHdr), (beat1 : HeartbeatMsg), (shadUp : State), by decide⟩,
   ⟨(⟨0, 3, false, true⟩ : GHdr), (beat1 : HeartbeatMsg), (shadUp : State), by decide⟩,
   ⟨(hdr0 : GHdr), (true : Bool), (shadUp : State), by decide⟩,
   ⟨(hdr0 : GHdr), (true : Bool), (lead.linked .up : State), by decide⟩,
   ⟨(hdr0 : GHdr), (beat1 : HeartbeatMsg), (true : Bool), (shadUp.modGrt (fun g => { g with handover := some true }) : State), by decide⟩,
   ⟨((shad.use 2).modOutP 2 (fun p => { p with gated := true }) : State), by decide⟩,
   ⟨(lead : State), by decide⟩,
   ⟨(shad.linked .lost : State), by decide⟩⟩

/-- States and operands that meet the hypotheses of `TwinWatch`, clause by clause. -/
theorem test_wit_TwinWatch2 :
    (∃ (s : State), s.grt.link ≠ .lost) :=
  ⟨(lead : State), by decide⟩

/-- States and operands that meet the hypotheses of `PowerPoints`, clause by clause. -/
theorem test_wit_PowerPoints1 :
    (∃ (r : Nat) (v : Option RailRead) (s : State), s.railReach r = false) ∧
    (∃ (r : Nat) (s : State), s.railReach r = true) ∧
    (∃ (r : Nat) (v : RailRead) (s : State), s.railReach r = true ∧ v.linear16 = true) ∧
    (∃ (r : Nat) (mv : BitVec 16) (s : State), s.railReach r = true ∧ (s.pRail r).notLinear = false ∧ s.mayWrite r mv = true) ∧
    (∃ (r : Nat) (mv : BitVec 16) (ack : Bool) (s : State), s.mayWrite r mv = false) ∧
    (∃ (r : Nat) (mv : BitVec 16) (s : State), s.railReach r = true ∧ (s.pRail r).notLinear = false ∧ s.mayWrite r mv = true ∧ (s.pRail r).wanted = some mv ∧ (s.pRail r).tries = 2) ∧
    (∃ (r : Nat) (mv : BitVec 16) (w : BitVec 16) (s : State), s.railReach r = true ∧ (s.pRail r).wanted = some w ∧ (s.pRail r).written = true ∧ (s.pRail r).wantAt + 200000 ≤ s.now ∧ ((w.toNat : Int) - mv.toNat).natAbs ≤ 10) ∧
    (∃ (r : Nat) (mv : BitVec 16) (w : BitVec 16) (s : State), s.railReach r = true ∧ (s.pRail r).wanted = some w ∧ (s.pRail r).written = true ∧ (s.pRail r).wantAt + 200000 ≤ s.now ∧ ((w.toNat : Int) - mv.toNat).natAbs ≤ 10) :=
  ⟨⟨(11 : Nat), (none : Option RailRead), (solo : State), by decide⟩,
   ⟨(3 : Nat), (solo.regul 3 : State), by decide⟩,
   ⟨(3 : Nat), (⟨true, 740, 5, 6, 7⟩ : RailRead), (solo.regul 3 : State), by decide⟩,
   ⟨(4 : Nat), (750 : BitVec 16), (solo.regul 4 : State), by decide⟩,
   ⟨(4 : Nat), (801 : BitVec 16), (true : Bool), (solo.regul 4 : State), by decide⟩,
   ⟨(4 : Nat), (750 : BitVec 16), ((solo.regul 4).modPRail 4 (fun x => { x with wanted := some 750, tries := 2 }) : State), by decide⟩,
   ⟨(1 : Nat), (740 : BitVec 16), (750 : BitVec 16), (((solo.regul 1).modPRail 1 (fun x => { x with wanted := some 750, written := true })).at' 200000 : State), by decide⟩,
   ⟨(4 : Nat), (740 : BitVec 16), (750 : BitVec 16), (((solo.regul 4).modPRail 4 (fun x => { x with wanted := some 750, written := true })).at' 200000 : State), by decide⟩⟩

/-- States and operands that meet the hypotheses of `PowerPoints`, clause by clause. -/
theorem test_wit_PowerPoints2 :
    (∃ (r : Nat) (mv : BitVec 16) (s : State), (s.pRail r).wanted = none) ∧
    (∃ (r : Nat) (mv : BitVec 16) (s : State), s.now < (s.pRail r).wantAt + 200000) ∧
    (∃ (b : Nat) (p : BitVec 2) (s : State), (s.bay b).changing = some p ∧ (s.bay b).fenced = false) ∧
    (∃ (b : Nat) (s : State), (s.bay b).changing = none) ∧
    (∃ (b : Nat) (cool : Int) (s : State), b < 4 ∧ s.running = true ∧ s.glb.pllLock = true ∧ s.coolest = some cool ∧ (s.bay b).fenced = false ∧ cool + 240 < (s.bay b).temp.toInt ∧ (s.bay b).temp.toInt ≤ 8 * (s.blw.tjThrottle : Int) ∧ (s.bay b).point ≠ 3 ∧ (s.bay b).changing = none) ∧
    (∃ (b : Nat) (s : State), b < 4 ∧ s.running = true ∧ s.glb.pllLock = true ∧ s.coolest.isSome = true ∧ (s.bay b).fenced = true) ∧
    (∃ (b : Nat) (a : Nat) (s : State), (s.bay b).clearSince = some a ∧ (s.bay b).throttled = true ∧ (s.bay b).fenced = false ∧ (s.bay b).changing = none ∧ a + 100 * ms ≤ s.now ∧ (s.bay b).pointMax < (s.bay b).point ∧ (s.bay b).covers ((s.bay b).point - 1) = true) ∧
    (∃ (b : Nat) (s : State), (s.bay b).clearSince = none) :=
  ⟨⟨(4 : Nat), (740 : BitVec 16), (solo.regul 4 : State), by decide⟩,
   ⟨(4 : Nat), (740 : BitVec 16), ((solo.regul 4).modPRail 4 (fun x => { x with wanted := some 750, written := true }) |>.at' 199999 : State), by decide⟩,
   ⟨(2 : Nat), (1 : BitVec 2), (solo.modBay 2 (fun x => { x with changing := some 1 }) : State), by decide⟩,
   ⟨(2 : Nat), (solo : State), by decide⟩,
   ⟨(0 : Nat), (80 : Int), (solo.hot : State), by decide⟩,
   ⟨(0 : Nat), (solo.hot.modBay 0 (fun x => { x with fenced := true }) : State), by decide⟩,
   ⟨(1 : Nat), (3 : Nat), ((solo.modBay 1 (fun x => { x with clearSince := some 3, throttled := true, point := 3, pointMax := 0, vset := x.setPoint 2 })).at' (3 + 100 * ms) : State), by decide⟩,
   ⟨(1 : Nat), (solo : State), by decide⟩⟩

/-- States and operands that meet the hypotheses of `PowerLosses`, clause by clause. -/
theorem test_wit_PowerLosses1 :
    (∃ (r : Nat) (s : State), r < 4 ∧ s.collects = true ∧ s.masked (409 + r) = false) ∧
    (∃ (r : Nat) (s : State), 4 ≤ r ∧ r < 12 ∧ s.collects = true ∧ s.masked 408 = false) ∧
    (∃ (r : Nat) (s : State), 4 ≤ r ∧ r < 12 ∧ s.collects = true ∧ s.masked 408 = false) ∧
    (∃ (r : Nat) (s : State), 12 ≤ r ∧ r < 14) ∧
    (∃ (s : State), s.collects = true ∧ s.masked 413 = false) ∧
    (∃ (s : State), s.collects = true ∧ s.masked 398 = false) ∧
    (∃ (p : Sys2Proof.Pll) (n : Nat) (s : State), pllReport p = (.fatal, n) ∧ s.glb.pllLock = true ∧ s.collects = true ∧ s.masked n = false) ∧
    (∃ (p : Sys2Proof.Pll) (n : Nat) (s : State), pllReport p = (.fatal, n) ∧ s.glb.pllLock = true ∧ s.collects = true ∧ s.masked n = false) :=
  ⟨⟨(2 : Nat), (solo : State), by decide⟩,
   ⟨(4 : Nat), (solo : State), by decide⟩,
   ⟨(11 : Nat), (solo : State), by decide⟩,
   ⟨(12 : Nat), (solo : State), by decide⟩,
   ⟨(solo : State), by decide⟩,
   ⟨(solo : State), by decide⟩,
   ⟨(.ddr5 : Sys2Proof.Pll), (403 : Nat), (solo.locked : State), by decide⟩,
   ⟨(.root : Sys2Proof.Pll), (398 : Nat), (solo.locked : State), by decide⟩⟩

/-- States and operands that meet the hypotheses of `PowerLosses`, clause by clause. -/
theorem test_wit_PowerLosses2 :
    (∃ (b : Nat) (s : State), b < 4 ∧ s.glb.pllLock = true ∧ s.collects = true ∧ s.masked (399 + b) = false) ∧
    (∃ (s : State), s.glb.pllLock = true ∧ s.collects = true ∧ s.masked 404 = false) ∧
    (∃ (p : Sys2Proof.Pll) (s : State), s.glb.pllLock = false) ∧
    (∃ (n : Nat) (e : Bool) (s : State), s.running = true ∧ s.hq.up = true) ∧
    (∃ (n : Nat) (e : Bool) (s : State), s.hq.up = false) :=
  ⟨⟨(3 : Nat), (solo.locked : State), by decide⟩,
   ⟨((solo.locked.ethUp 2) : State), by decide⟩,
   ⟨(.root : Sys2Proof.Pll), (solo : State), by decide⟩,
   ⟨(3 : Nat), (true : Bool), (solo.modHq (fun h => { h with up := true }) : State), by decide⟩,
   ⟨(3 : Nat), (true : Bool), (solo : State), by decide⟩⟩

/-- States and operands that meet the hypotheses of `RegisterWrites`, clause by clause. -/
theorem test_wit_RegisterWrites1 :
    (∃ (w : Writer) (a : Nat) (v : Word) (s : State), s.glb.inReset = false) ∧
    (∃ (w : Writer) (a : Nat) (v : Word) (s : State), s.glb.inReset = false ∧ regAt a = none) ∧
    (∃ (w : Writer) (a : Nat) (v : Word) (r : Reg) (s : State), s.glb.inReset = false ∧ regAt a = some r ∧ (∀ x j : Nat, r ≠ .txn x j) ∧ r.rw = false) ∧
    (∃ (w : Writer) (a : Nat) (v : Word) (r : Reg) (k : BitVec 4) (s : State), s.glb.inReset = false ∧ regAt a = some r ∧ (∀ x j : Nat, r ≠ .txn x j) ∧ (∀ x j : Nat, r ≠ .lineEvent x j) ∧ r.rw = true ∧ s.writeReason w false r v = some k) ∧
    (∃ (w : Writer) (a : Nat) (v : Word) (r : Reg) (s : State), r.platform = true ∧ (∀ x j : Nat, r ≠ .txn x j)) ∧
    (∃ (r : Reg) (v : Word) (s : State), s.txnOnly r v = true ∧ r.platform = false ∧ s.stateBad r = false ∧ (∀ x j : Nat, r ≠ .txn x j)) ∧
    (∃ (a : Nat) (n : Nat) (v : Word) (s : State), s.glb.inReset = false ∧ regAt a = some (.txn n 2) ∧ (s.trans n).st = .opened ∧ (s.trans n).opener = .tack) ∧
    (∃ (a : Nat) (n : Nat) (v : Word) (s : State), s.glb.inReset = false ∧ regAt a = some (.txn n 2) ∧ (s.trans n).st ≠ .opened) :=
  ⟨⟨(.tack : Writer), (4096 : Nat), (3 : Word), (solo : State), by decide⟩,
   ⟨(.tack : Writer), (0xFFFFFFC : Nat), (3 : Word), (solo : State), by decide⟩,
   ⟨(.tack : Writer), (0 : Nat), (3 : Word), (.glbId : Reg), (solo : State), ⟨by decide, by decide, (fun _ _ e => by cases e), by decide⟩⟩,
   ⟨(.tack : Writer), (0x100 : Nat), (3 : Word), (.platDdr : Reg), (3 : BitVec 4), (solo : State), ⟨by decide, by decide, (fun _ _ e => by cases e), (fun _ _ e => by cases e), by decide, by decide⟩⟩,
   ⟨(.tack : Writer), (0 : Nat), (0 : Word), (.platDdr : Reg), (solo : State), ⟨by decide, (fun _ _ e => by cases e)⟩⟩,
   ⟨(.rail 3 0 : Reg), (1 : Word), (solo.modGlb (fun g => { g with loaded := true }) : State), ⟨by decide, by decide, by decide, (fun _ _ e => by cases e)⟩⟩,
   ⟨(0x1048 : Nat), (1 : Nat), (7 : Word), (solo.txn1 1 (fun x => { x with st := .opened, opener := .tack }) : State), by decide⟩,
   ⟨(0x1048 : Nat), (1 : Nat), (7 : Word), (solo : State), by decide⟩⟩

/-- States and operands that meet the hypotheses of `RegisterWrites`, clause by clause. -/
theorem test_wit_RegisterWrites2 :
    (∃ (w : Writer) (a : Nat) (v : Word) (b : Bool) (s : State), s.glb.inReset = true) ∧
    (∃ (v : Word) (s : State), v.extractLsb' 24 8 = s.glb.werrSeq) ∧
    (∃ (v : Word) (s : State), v.extractLsb' 24 8 ≠ s.glb.werrSeq) :=
  ⟨⟨(.tack : Writer), (0x1048 : Nat), (7 : Word), (true : Bool), (State.reset : State), by decide⟩,
   ⟨(0x01000000 : Word), (solo.werr .tack 2 8 : State), by decide⟩,
   ⟨(0x02000000 : Word), (solo.werr .tack 2 8 : State), by decide⟩⟩

/-- States and operands that meet the hypotheses of `Transactions`, clause by clause. -/
theorem test_wit_Transactions1 :
    (∃ (w : Writer) (n : Nat) (s : State), n < 4 ∧ (s.trans n).st = .free ∧ s.shadowed = false) ∧
    (∃ (w : Writer) (n : Nat) (s : State), n < 4 ∧ (s.trans n).st ≠ .free) ∧
    (∃ (w : Writer) (n : Nat) (v : Word) (s : State), n < 4 ∧ (s.trans n).st = .opened ∧ (s.trans n).opener = writerOpener w ∧ s.bufferReason w n ((s.trans n).waddr.toNat * 4) v = none) ∧
    (∃ (w : Writer) (n : Nat) (v : Word) (k : BitVec 4) (s : State), n < 4 ∧ (s.trans n).st = .opened ∧ (s.trans n).opener = writerOpener w ∧ s.bufferReason w n ((s.trans n).waddr.toNat * 4) v = some k) ∧
    (∃ (w : Writer) (n : Nat) (s : State), n < 4 ∧ (s.trans n).st = .opened ∧ (s.trans n).opener = writerOpener w ∧ (s.trans n).raster = 0x1F ∧ (s.trans n).failed = true ∧ s.glb.role ≠ .lead) ∧
    (∃ (w : Writer) (n : Nat) (s : State), n < 4 ∧ (s.trans n).st = .opened ∧ (s.trans n).opener = writerOpener w ∧ (s.trans n).raster = 0x1F ∧ (s.trans n).failed = false ∧ (s.trans n).conflict = false ∧ (s.trans n).writes = [] ∧ s.glb.role ≠ .lead) ∧
    (∃ (n : Nat) (r : Nat) (x : Nat) (v : Word) (s : State), n < 4 ∧ (s.trans n).st = .opened ∧ (s.trans n).opener = .tack ∧ (s.trans n).raster = 0x1F ∧ (s.trans n).failed = false ∧ (s.trans n).conflict = false ∧ s.glb.role ≠ .lead ∧ regAt x = some (.rail r 0) ∧ (s.trans n).writes = [(x, v)] ∧ v.extractLsb' 8 8 ≠ (0 : BitVec 8)) ∧
    (∃ (w : Writer) (n : Nat) (s : State), n < 4 ∧ ((s.trans n).st ≠ .opened ∨ (s.trans n).opener ≠ writerOpener w)) :=
  ⟨⟨(.tack : Writer), (3 : Nat), (solo : State), by decide⟩,
   ⟨(.bar0 : Writer), (3 : Nat), (solo.txn1 3 (fun x => { x with st := .opened, opener := .tack }) : State), by decide⟩,
   ⟨(.tack : Writer), (3 : Nat), (0 : Word), (solo.txn1 3 (fun x => { x with st := .opened, opener := .tack, waddr := 0x100000 }) : State), by decide⟩,
   ⟨(.tack : Writer), (3 : Nat), (0 : Word), (3 : BitVec 4), (solo.txn1 3 (fun x => { x with st := .opened, opener := .tack, waddr := 0x40 }) : State), by decide⟩,
   ⟨(.tack : Writer), (3 : Nat), (solo.txn1 3 (fun x => { x with st := .opened, opener := .tack, raster := 0x1F, failed := true, writes := [(8, 1)] }) : State), by decide⟩,
   ⟨(.tack : Writer), (3 : Nat), (solo.txn1 3 (fun x => { x with st := .opened, opener := .tack, raster := 0x1F }) : State), by decide⟩,
   ⟨(3 : Nat), (3 : Nat), (0x30060 : Nat), (0x01020304 : Word), (solo.txn1 3 (fun x => { x with st := .opened, opener := .tack, raster := 0x1F, writes := [(0x30060, 0x01020304)] }) : State), by decide⟩,
   ⟨(.bar0 : Writer), (3 : Nat), (solo.txn1 3 (fun x => { x with st := .opened, opener := .tack, raster := 0x1F }) : State), by decide⟩⟩

/-- States and operands that meet the hypotheses of `Transactions`, clause by clause. -/
theorem test_wit_Transactions2 :
    (∃ (w : Writer) (n : Nat) (s : State), n < 4 ∧ (s.trans n).st ≠ .free ∧ (s.trans n).opener = writerOpener w) ∧
    (∃ (w : Writer) (n : Nat) (s : State), n < 4 ∧ ((s.trans n).st = .free ∨ (s.trans n).opener ≠ writerOpener w)) ∧
    (∃ (n : Nat) (s : State), (s.trans n).st = .opened ∧ (s.trans n).openedAt + s.txn.timeout * sec < s.now) ∧
    (∃ (n : Nat) (s : State), s.now ≤ (s.trans n).openedAt + s.txn.timeout * sec) :=
  ⟨⟨(.tack : Writer), (3 : Nat), (solo.txn1 3 (fun x => { x with st := .opened, opener := .tack, writes := [(8, 1)] }) : State), by decide⟩,
   ⟨(.bar0 : Writer), (3 : Nat), (solo.txn1 3 (fun x => { x with st := .opened, opener := .tack, writes := [(8, 1)] }) : State), by decide⟩,
   ⟨(3 : Nat), ((solo.txn1 3 (fun x => { x with st := .opened, opener := .queue 3, writes := [(8, 1)] })).at' (1000 * sec) : State), by decide⟩,
   ⟨(3 : Nat), (solo : State), by decide⟩⟩

/-- States and operands that meet the hypotheses of `ShiftCounts`, clause by clause. -/
theorem test_wit_ShiftCounts :
    (∃ (a : Word) (b : Word) (imm : Word) (n : Nat), n = b.toNat % 256 ∧ n = 0) ∧
    (∃ (a : Word) (b : Word) (imm : Word) (n : Nat), n = b.toNat % 256 ∧ 32 ≤ n) ∧
    (∃ (a : Word) (b : Word) (imm : Word) (n : Nat), n = b.toNat % 256 ∧ 32 ≤ n) ∧
    (∃ (a : Word) (b : Word) (imm : Word) (n : Nat), n = b.toNat % 256 ∧ 1 ≤ n ∧ n ≤ 31) ∧
    (∃ (a : Word) (b : Word) (imm : Word) (n : Nat), n = b.toNat % 256 ∧ 1 ≤ n ∧ n ≤ 31) ∧
    (∃ (a : Word) (b : Word) (imm : Word) (n : Nat), n = b.toNat % 256 ∧ 1 ≤ n ∧ n ≤ 31) :=
  ⟨⟨(7 : Word), (256 : Word), (0 : Word), (0 : Nat), by decide⟩,
   ⟨(0 : Word), (32 : Word), (0 : Word), (32 : Nat), by decide⟩,
   ⟨(0x80000001 : Word), (255 : Word), (0 : Word), (255 : Nat), by decide⟩,
   ⟨(0x40000000 : Word), (1 : Word), (0 : Word), (1 : Nat), by decide⟩,
   ⟨(1 : Word), (31 : Word), (0 : Word), (31 : Nat), by decide⟩,
   ⟨(0xFFFFFFFF : Word), (0x11F : Word), (0 : Word), (31 : Nat), by decide⟩⟩

/-- States and operands that meet the hypotheses of `SlotOrder`, clause by clause. -/
theorem test_wit_SlotOrder :
    (∃ (f : Fsh), f.sealOk false = true ∧ f.sealOk true = true) ∧
    (∃ (f : Fsh), f.sealOk false = true ∧ f.sealOk true = true) ∧
    (∃ (s : State) (b : Bool) (r : List Bool), s.fsh.candidates = b :: r) ∧
    (∃ (s : State) (b : Bool) (r : List Bool) (c : Bool) (why : BitVec 4), s.fsh.loader.cur = some c ∧ s.fsh.loader.cands = b :: r) :=
  ⟨⟨((((solo.burn 0 (headerBytes 16777216)).burn 0x500000 (sealBytes 0xFFFFFFFF 100 3)).burn (0x500000 + slotSize 16777216) (sealBytes 2 100 3)).fsh : Fsh), by decide⟩,
   ⟨((((solo.burn 0 (headerBytes 16777216)).burn 0x500000 (sealBytes 5 100 3)).burn (0x500000 + slotSize 16777216) (sealBytes 5 100 3)).fsh : Fsh), by decide⟩,
   ⟨(((solo.burn 0 (headerBytes 16777216)).burn 0x500000 (sealBytes 5 100 3)) : State), (false : Bool), ([] : List Bool), by decide⟩,
   ⟨(solo.modFsh (fun f => { f with loader := { Loader.reset with cur := some true, cands := [false] } }) : State), (false : Bool), ([] : List Bool), (true : Bool), (3 : BitVec 4), by decide⟩⟩

end Sys2Proof.Machine
end

section
/-! PROOF. Accesses of the memory system: a line as written reads back (R215 to R219), what an access leaves of its channel and of the
others (R220 to R224, R303), and how a request that arrives is served (R26). -/

namespace Sys2Proof.Machine

/-! A stored line is read back (R215 to R218). -/

/-- Bit `j` of pieces of `v` bits laid side by side from bit 0 of a word on is bit `j % v` of piece `j / v`. -/
theorem getLsbD_foldl_pieces {v w : Nat} (hv : 0 < v) (f : Nat → BitVec v) (n j : Nat) (hj : j < w) :
    ((List.range n).foldl (fun c i => c ||| ((f i).setWidth w <<< (v * i))) 0).getLsbD j =
      (decide (j < v * n) && (f (j / v)).getLsbD (j % v)) := by
  induction n with
  | zero => simp
  | succ n ih =>
    have hstep : v * (n + 1) = v * n + v := Nat.mul_succ v n
    simp only [List.range_succ, List.foldl_append, List.foldl_cons, List.foldl_nil, BitVec.getLsbD_or, ih,
      BitVec.getLsbD_shiftLeft, BitVec.getLsbD_setWidth, hj, decide_true, Bool.true_and]
    rcases Nat.lt_trichotomy (j / v) n with h | h | h
    · have hlt : j < v * n := by rw [Nat.mul_comm]; exact (Nat.div_lt_iff_lt_mul hv).mp h
      simp [hlt, show j < v * (n + 1) by omega]
    · have hdiv : v * n + j % v = j := h ▸ Nat.div_add_mod j v
      have hmod : j % v < v := Nat.mod_lt j hv
      simp [h, show ¬ j < v * n by omega, show j < v * (n + 1) by omega, show j - v * n = j % v by omega, show j % v < w by omega]
    · have hge : v * (n + 1) ≤ j := by rw [Nat.mul_comm]; exact (Nat.le_div_iff_mul_le hv).mp h
      simp [show ¬ j < v * n by omega, show ¬ j < v * (n + 1) by omega,
        BitVec.getLsbD_of_ge (f n) (j - v * n) (by omega)]

/-- A check byte of its word finds nothing to correct. -/
@[simp] theorem secdedRead_secdedCheck (d : BitVec 64) : secdedRead d (secdedCheck d) = .clean d := by
  simp [secdedRead]

/-- Check byte `i` of a line is that of its word `i`. -/
theorem extract_lineCheck (d : BitVec 512) {i : Nat} (hi : i < 8) :
    (lineCheck d).extractLsb' (8 * i) 8 = secdedCheck (lineWord d i) := by
  refine BitVec.eq_of_getLsbD_eq fun j hj => ?_
  rw [BitVec.getLsbD_extractLsb', lineCheck,
    getLsbD_foldl_pieces (by omega) (fun i => secdedCheck (lineWord d i)) 8 (8 * i + j) (by omega)]
  simp [hj, show 8 * i + j < 64 by omega, show (8 * i + j) / 8 = i by omega, show (8 * i + j) % 8 = j by omega]

/-- The eight words of a line make up its data. -/
theorem foldl_lineWord (d : BitVec 512) :
    (List.range 8).foldl (fun c i => c ||| ((lineWord d i).setWidth 512 <<< (64 * i))) 0 = d := by
  refine BitVec.eq_of_getLsbD_eq fun j hj => ?_
  rw [getLsbD_foldl_pieces (by omega) (lineWord d) 8 j hj, lineWord, BitVec.getLsbD_extractLsb', Nat.div_add_mod]
  simp [hj, Nat.mod_lt]

/-- The tag of a fresh line, but for its CRC (R215). -/
def tagHigh (part : BitVec 3) (poison : Bool) (l : Nat) : BitVec 64 :=
  (part.setWidth 64 <<< 61) ||| ((BitVec.ofBool poison).setWidth 64 <<< 60) ||| ((addrPar l).setWidth 64 <<< 48)

theorem mkLine_eq (d : BitVec 512) (part : BitVec 3) (poison : Bool) (l : Nat) :
    mkLine d part poison l =
      ⟨d, lineCheck d, tagHigh part poison l ||| (lineCrc d (tagHigh part poison l)).setWidth 64⟩ := rfl

theorem tagHigh_low (part : BitVec 3) (poison : Bool) (l : Nat) {j : Nat} (hj : j < 48) :
    (tagHigh part poison l).getLsbD j = false := by
  simp [tagHigh, show j < 61 by omega, show j < 60 by omega, hj]

/-! The fields of a tag with a CRC in its low half. -/

section
variable (part : BitVec 3) (poison : Bool) (l : Nat) (crc : BitVec 32)

theorem tagPart_tagHigh : tagPart (tagHigh part poison l ||| crc.setWidth 64) = part := by
  refine BitVec.eq_of_getLsbD_eq fun j hj => ?_
  have hcrc : crc.getLsbD (61 + j) = false := BitVec.getLsbD_of_ge crc _ (by omega)
  have hpar : (addrPar l).getLsbD (61 + j - 48) = false := BitVec.getLsbD_of_ge _ _ (by omega)
  simp [tagPart, tagHigh, hj, hcrc, hpar, show 61 + j < 64 by omega, show 61 + j - 60 ≠ 0 by omega]

theorem tagPoison_tagHigh : tagPoison (tagHigh part poison l ||| crc.setWidth 64) = poison := by
  simp [tagPoison, tagHigh]

theorem tagPar_tagHigh : tagPar (tagHigh part poison l ||| crc.setWidth 64) = addrPar l := by
  refine BitVec.eq_of_getLsbD_eq fun j hj => ?_
  have hcrc : crc.getLsbD (48 + j) = false := BitVec.getLsbD_of_ge crc _ (by omega)
  simp [tagPar, tagHigh, hj, hcrc, show 48 + j < 64 by omega, show 48 + j < 60 by omega, show 48 + j < 61 by omega]

theorem setWidth_tagHigh : (tagHigh part poison l ||| crc.setWidth 64).setWidth 32 = crc := by
  refine BitVec.eq_of_getLsbD_eq fun j hj => ?_
  rw [BitVec.getLsbD_setWidth, BitVec.getLsbD_or, tagHigh_low part poison l (by omega), BitVec.getLsbD_setWidth]
  simp [show j < 64 by omega, hj]

/-- LINE_CRC covers the upper half of the tag alone (R215). -/
theorem lineCrc_tagHigh (d : BitVec 512) :
    lineCrc d (tagHigh part poison l ||| crc.setWidth 64) = lineCrc d (tagHigh part poison l) := by
  have upper : (tagHigh part poison l ||| crc.setWidth 64) >>> 32 = tagHigh part poison l >>> 32 := by
    refine BitVec.eq_of_getLsbD_eq fun j _ => ?_
    simp
  simp only [lineCrc, upper]

end

/-- The CRC of a fresh line matches. -/
theorem crcOk_mkLine (d : BitVec 512) (part : BitVec 3) (poison : Bool) (l : Nat) :
    crcOk d (mkLine d part poison l).tag = true := by
  simp only [mkLine_eq, crcOk, lineCrc_tagHigh, setWidth_tagHigh, beq_self_eq_true]

/-- The tests after LINE_CRC pass a fresh line to a requester that is exempt or of its partition. -/
theorem classifyTag_mkLine (raw d : BitVec 512) (part : BitVec 3) (l : Nat) (reader : Option (BitVec 3))
    (hr : reader = none ∨ reader = some part) :
    classifyTag raw d (mkLine d part false l).tag l reader false = ⟨.clean, d⟩ := by
  rcases hr with rfl | rfl
  · simp [classifyTag, mkLine_eq, tagPar_tagHigh, tagPoison_tagHigh]
  · simp [classifyTag, mkLine_eq, tagPar_tagHigh, tagPoison_tagHigh, tagPart_tagHigh]

/-- A requester that is exempt or of the partition of a fresh line reads it back as clean. -/
theorem classify_mkLine (d : BitVec 512) (part : BitVec 3) (l : Nat) (reader : Option (BitVec 3))
    (hr : reader = none ∨ reader = some part) : (classify (mkLine d part false l) l reader).1 = ⟨.clean, d⟩ := by
  have words : (List.range 8).map (fun i => secdedRead (lineWord (mkLine d part false l).data i)
      ((mkLine d part false l).check.extractLsb' (8 * i) 8)) = (List.range 8).map (fun i => .clean (lineWord d i)) :=
    List.map_congr_left fun i hi => by
      simp only [mkLine_eq, extract_lineCheck d (List.mem_range.mp hi), secdedRead_secdedCheck]
  have data : ((List.range 8).map (fun i => WordCheck.clean (lineWord d i))).zipIdx.foldl
      (fun a p => a ||| ((p.1.data.setWidth 512 : BitVec 512) <<< (64 * p.2))) (0 : BitVec 512) = d := foldl_lineWord d
  have noFix : (List.range 8).any (fun _ => false) = false := rfl
  unfold classify
  simp only [words, data, crcOk_mkLine, if_true]
  simp [Function.comp_def, noFix, classifyTag_mkLine _ _ _ _ _ hr]

variable {s : State} {r : Requester} {a n l : Nat}

/-! What an update of one channel leaves. -/

section
variable (s n)

@[simp] theorem State.tickFree_chan (m : Nat) : s.tickFree.chan m = s.chan m := rfl
@[simp] theorem State.tickFree_lineAt (m k : Nat) : s.tickFree.lineAt m k = s.lineAt m k := rfl

/-- An access changes the banks and ranks of its channel alone (R224, R225). -/
theorem State.touch_eq_modChan (l : Nat) : s.touch n l = s.modChan n (fun c => { c with
    banks := c.banks.upd BankP.reset (s.bankRow l).1 (fun x => x.access (s.bankRow l).2)
    ranks := c.ranks.upd RankS.reset (s.rankOf l) (fun k => { k with powerDown := false }) }) := rfl

end

/-- A line reads as the table of its channel's lines has it, and one that is not listed as the fill has left it. -/
theorem State.lineAt_eq_look (s : State) (n l : Nat) : s.lineAt n l = Tbl.look (s.chan n).lines (s.fillLine n l) l := by
  unfold State.lineAt
  induction (s.chan n).lines with
  | nil => rfl
  | cons p ps ih =>
    by_cases h : p.1 = l
    · simp [Tbl.look, h]
    · simpa [Tbl.look, h] using ih

/-- An update of a channel that stores no line and fills none leaves its lines to be read as they were. -/
theorem State.lineAt_modChan {f : Chan → Chan} (hlines : (f (s.chan n)).lines = (s.chan n).lines)
    (hfilled : (f (s.chan n)).filled = (s.chan n).filled) (k : Nat) : (s.modChan n f).lineAt n k = s.lineAt n k := by
  have fill : (s.modChan n f).fillLine n k = s.fillLine n k := by
    simp only [State.fillLine, State.modChan_same, hfilled]
    rfl
  rw [State.lineAt_eq_look, State.lineAt_eq_look, fill, State.modChan_same, hlines]

theorem State.lineAt_putLine_same (s : State) (n l : Nat) (x : DramLine) : (s.putLine n l x).lineAt n l = x := by
  rw [State.lineAt_eq_look, State.putLine, State.modChan_same]
  exact Tbl.look_insertAt_same _ _ l x (Tbl.drop_ne _ l)

theorem State.lineAt_putLine_other (s : State) (n : Nat) {l k : Nat} (x : DramLine) (h : l ≠ k) :
    (s.putLine n l x).lineAt n k = s.lineAt n k := by
  have fill : (s.putLine n l x).fillLine n k = s.fillLine n k := by
    simp only [State.putLine, State.fillLine, State.modChan_same]
    rfl
  rw [State.lineAt_eq_look, State.lineAt_eq_look, fill, State.putLine, State.modChan_same]
  exact (Tbl.look_insertAt_other _ _ x h).trans (Tbl.look_drop_other _ _ h)

/-! An access that a channel takes. -/

/-- A pool address whose line the requester reaches: it lies in the requester's region, at an active channel, and awaits no fill. -/
structure State.Reaches (s : State) (r : Requester) (a n l : Nat) : Prop where
  line : s.drm.lineOf a = some (n, l)
  region : s.regionOk r a = true
  active : (s.chan n).st = .active
  filled : s.awaitsFill n l = false

/-- A request that need not wait has a slot, and its channel's line awaits no fill. -/
theorem State.slot_and_fill_of_not_waits (hline : s.drm.lineOf a = some (n, l)) (hwait : s.requestWaits r a = false) :
    (∃ resv, s.freeSlotOf n (slotWho r) = some resv) ∧ ((s.chan n).st = .active → s.awaitsFill n l = false) := by
  simp only [State.requestWaits, hline, Bool.or_eq_false_iff, Option.isNone_eq_false_iff, Option.isSome_iff_exists,
    Bool.and_eq_false_iff] at hwait
  obtain ⟨⟨hslot, -⟩, hfill⟩ := hwait
  exact ⟨hslot, fun h => hfill.resolve_left (by simp [h])⟩

/-- A request that need not wait takes a slot of its channel (R303). -/
theorem State.takeSlot_eq_modChan (hline : s.drm.lineOf a = some (n, l)) (hwait : s.requestWaits r a = false) :
    ∃ slots, s.takeSlot r a = (s.modChan n (fun c => { c with slots := slots })).tickFree := by
  obtain ⟨⟨resv, hslot⟩, -⟩ := State.slot_and_fill_of_not_waits hline hwait
  refine ⟨s.liveSlots n ++ [⟨slotWho r, resv, s.now + Config.dramTime s.freeCtr⟩], ?_⟩
  simp only [State.takeSlot, hline, hslot]

theorem State.reaches_of_not_waits (hline : s.drm.lineOf a = some (n, l)) (hregion : s.regionOk r a = true)
    (hactive : (s.chan n).st = .active) (hwait : s.requestWaits r a = false) : s.Reaches r a n l :=
  ⟨hline, hregion, hactive, (State.slot_and_fill_of_not_waits hline hwait).2 hactive⟩

theorem State.awaitsFill_modChan {f : Chan → Chan} (h : (f (s.chan n)).remapFilled = (s.chan n).remapFilled) :
    (s.modChan n f).awaitsFill n l = s.awaitsFill n l := by
  simp only [State.awaitsFill, State.modChan_same, h]
  rfl

theorem State.Reaches.modChan (h : s.Reaches r a n l) {f : Chan → Chan} (hst : (f (s.chan n)).st = (s.chan n).st)
    (hfill : (f (s.chan n)).remapFilled = (s.chan n).remapFilled) : (s.modChan n f).Reaches r a n l :=
  ⟨h.line, h.region, by rw [State.modChan_same, hst, h.active], by rw [State.awaitsFill_modChan hfill, h.filled]⟩

theorem State.Reaches.takeSlot (h : s.Reaches r a n l) (hwait : s.requestWaits r a = false) : (s.takeSlot r a).Reaches r a n l := by
  obtain ⟨slots, e⟩ := State.takeSlot_eq_modChan h.line hwait
  rw [e]
  obtain ⟨hline, hregion, hactive, hfill⟩ := h.modChan (f := fun c => { c with slots := slots }) rfl rfl
  exact ⟨hline, hregion, hactive, hfill⟩

/-- A full-line write stores a fresh line and drops the merge buffer's entry of it (R219). -/
theorem State.Reaches.writeLine_eq (h : s.Reaches r a n l) (d : BitVec 512) :
    s.writeLine r a d = ((s.modChan n (fun c => { c with merge := c.merge.filter (fun m => m.line != l) })).putLine n l
      (mkLine d r.part false l)).touch n l := by
  simp [State.writeLine, h.line, h.region, h.active, h.filled]

/-- A read of a line without an entry in the merge buffer is one of the DRAM (R218). -/
theorem State.Reaches.readLine_eq (h : s.Reaches r a n l) (hm : (s.chan n).mergeOf l = none) :
    s.readLine r a = s.readChan n l r 0 := by
  simp [State.readLine, h.line, h.region, h.active, h.filled, hm]

/-- A narrow write to a line without an entry allocates one where the merge buffer has room (R220). -/
theorem State.Reaches.narrow_eq (h : s.Reaches r a n l) {bs : List (Option Byte)} (hm : (s.chan n).mergeOf l = none)
    (hroom : (s.chan n).merge.length < 32) (hpart : (mergeBytes [] (bs.take 64)).length < 64) :
    s.narrow r a bs = s.modChan n (fun c => { c with
      merge := c.merge.filter (fun m => m.line != l) ++ [⟨l, mergeBytes [] (bs.take 64), r.part, srcExempt r.src⟩] }) := by
  have full : ¬ 32 ≤ (s.chan n).merge.length := by omega
  simp [State.narrow, h.line, h.region, h.active, h.filled, hm, full, hpart.ne]

/-! What the slot of a request leaves. -/

section
variable (hline : s.drm.lineOf a = some (n, l)) (hwait : s.requestWaits r a = false)
include hline hwait

theorem State.takeSlot_chan_other {m : Nat} (h : n ≠ m) : (s.takeSlot r a).chan m = s.chan m := by
  obtain ⟨slots, e⟩ := State.takeSlot_eq_modChan hline hwait
  rw [e, State.tickFree_chan, State.modChan_other s _ h]

theorem State.takeSlot_chan_same : ∃ slots, (s.takeSlot r a).chan n = { s.chan n with slots := slots } := by
  obtain ⟨slots, e⟩ := State.takeSlot_eq_modChan hline hwait
  exact ⟨slots, by rw [e, State.tickFree_chan, State.modChan_same]⟩

theorem State.takeSlot_running : (s.takeSlot r a).running = s.running := by
  obtain ⟨slots, e⟩ := State.takeSlot_eq_modChan hline hwait
  rw [e]
  rfl

theorem State.takeSlot_lineAt (k : Nat) : (s.takeSlot r a).lineAt n k = s.lineAt n k := by
  obtain ⟨slots, e⟩ := State.takeSlot_eq_modChan hline hwait
  rw [e, State.tickFree_lineAt]
  exact State.lineAt_modChan rfl rfl k

end

/-! What a full-line write leaves. -/

theorem Chan.mergeOf_filter_ne (c : Chan) (l : Nat) :
    Chan.mergeOf { c with merge := c.merge.filter (fun m => m.line != l) } l = none := by
  simp [Chan.mergeOf]

namespace State.Reaches

variable (h : s.Reaches r a n l) (d : BitVec 512)
include h

/-- The line of a write is reached as before. -/
theorem writeLine_reaches : (s.writeLine r a d).Reaches r a n l := by
  rw [h.writeLine_eq]
  exact ((h.modChan rfl rfl).modChan rfl rfl).modChan rfl rfl

theorem writeLine_running : (s.writeLine r a d).running = s.running := by
  rw [h.writeLine_eq]
  rfl

theorem writeLine_chan_other {m : Nat} (hm : n ≠ m) : (s.writeLine r a d).chan m = s.chan m := by
  rw [h.writeLine_eq, State.touch_eq_modChan, State.modChan_other _ _ hm, State.putLine, State.modChan_other _ _ hm,
    State.modChan_other _ _ hm]

theorem writeLine_mergeOf : ((s.writeLine r a d).chan n).mergeOf l = none := by
  rw [h.writeLine_eq, State.touch_eq_modChan, State.putLine, State.modChan_same, State.modChan_same, State.modChan_same]
  exact Chan.mergeOf_filter_ne (s.chan n) l

theorem writeLine_lineAt_same : (s.writeLine r a d).lineAt n l = mkLine d r.part false l := by
  rw [h.writeLine_eq, State.touch_eq_modChan, State.lineAt_modChan rfl rfl, State.lineAt_putLine_same]

theorem writeLine_lineAt_other {k : Nat} (hk : l ≠ k) : (s.writeLine r a d).lineAt n k = s.lineAt n k := by
  rw [h.writeLine_eq, State.touch_eq_modChan, State.lineAt_modChan rfl rfl, State.lineAt_putLine_other _ _ _ hk,
    State.lineAt_modChan rfl rfl]

/-- A line that its requester has written, with no entry in the merge buffer, reads as clean with what was written. -/
theorem readLine_mkLine (hm : (s.chan n).mergeOf l = none) (hl : s.lineAt n l = mkLine d r.part false l) :
    (s.readLine r a).2 = ⟨.clean, d⟩ := by
  have reader : reqPart r = none ∨ reqPart r = some r.part := by
    unfold reqPart
    split <;> simp
  rw [h.readLine_eq hm]
  simp only [State.readChan, hl, classify_mkLine d r.part l _ reader]

end State.Reaches

/-! A request that arrives (R26). -/

theorem State.each_append_singleton {α : Type} (xs : List α) (x : α) (f : α → State → State) (s : State) :
    s.each (xs ++ [x]) f = f x (s.each xs f) := by
  simp [State.each]

/-- Requests that must wait on are not served. -/
theorem State.each_serveWait_of_waits {ws : List DramWait} (h : ∀ v ∈ ws, s.requestWaits v.request.1 v.request.2 = true) :
    s.each ws State.serveWait = s := by
  induction ws with
  | nil => rfl
  | cons w ws ih =>
    have hw : s.serveWait w = s := by simp [State.serveWait, h w (by simp)]
    simpa [State.each, hw] using ih fun v hv => h v (by simp [hv])

section
variable (hrun : s.running = true) (hwaits : ∀ v ∈ s.drm.waits, s.requestWaits v.request.1 v.request.2 = true) (w : DramWait)
include hrun hwaits

/-- While those before it must wait on, the request that arrives is the only one that may be served. -/
theorem State.request_eq_serveWait :
    s.request w = (s.modDrm (fun x => { x with waits := x.waits ++ [w] })).serveWait w := by
  have hrun' : (s.modDrm (fun x => { x with waits := x.waits ++ [w] })).running = true := hrun
  have hold : (s.modDrm (fun x => { x with waits := x.waits ++ [w] })).each s.drm.waits State.serveWait =
      s.modDrm (fun x => { x with waits := x.waits ++ [w] }) := State.each_serveWait_of_waits hwaits
  rw [State.request, if_pos hrun, State.serveWaits, if_pos hrun']
  exact (State.each_append_singleton _ w _ _).trans (congrArg _ hold)

theorem State.request_of_waits (hw : s.requestWaits w.request.1 w.request.2 = true) :
    s.request w = s.modDrm (fun x => { x with waits := x.waits ++ [w] }) := by
  rw [State.request_eq_serveWait hrun hwaits w, State.serveWait]
  exact if_pos hw

theorem State.request_of_not_waits (hw : s.requestWaits w.request.1 w.request.2 = false) : s.request w = s.serve w := by
  have hnew : w ∉ s.drm.waits := fun hm => by simp [hwaits w hm] at hw
  have hback : (s.modDrm (fun x => { x with waits := x.waits ++ [w] })).modDrm (fun x => { x with waits := x.waits.erase w }) = s := by
    simp [State.modDrm, List.erase_append_right _ hnew]
  rw [State.request_eq_serveWait hrun hwaits w, State.serveWait, hback]
  exact if_neg (by rw [Bool.not_eq_true]; exact hw)

end

theorem State.request_of_not_running (hrun : s.running = false) (w : DramWait) : s.request w = s := by
  simp [State.request, hrun]

/-! What serving a request is, by its kind. -/

section
variable (r : Requester) (a : Nat) (d : BitVec 512) (bs : List (Option Byte)) (fs : List (Nat × Nat)) (s : State)

theorem exec_dramRead : exec (.dramRead r ⟨a, fs⟩) s = .next (s.request (.read r ⟨a, fs⟩)) := rfl
theorem exec_dramWrite : exec (.dramWrite r a d) s = .next (s.request (.write r a d)) := rfl
theorem exec_narrowWrite : exec (.narrowWrite r a bs) s = .next (s.request (.narrow r a bs)) := rfl

theorem State.serve_read : s.serve (.read r ⟨a, fs⟩) = (s.takeSlot r a).serveRead r ⟨a, fs⟩ := rfl
theorem State.serve_write : s.serve (.write r a d) = (s.takeSlot r a).writeLine r a d := rfl
theorem State.serve_narrow : s.serve (.narrow r a bs) = (s.takeSlot r a).narrow r a bs := rfl

/-- A burst without a wrong bit leaves the line as stored (R217). -/
theorem State.damageLine_nil : s.damageLine a [] = s := by
  unfold State.damageLine
  split <;> rfl

/-- The lines of a channel that is not active take no damage. -/
theorem State.damageLine_of_not_active (hline : s.drm.lineOf a = some (n, l)) (hst : (s.chan n).st ≠ .active) :
    s.damageLine a fs = s := by
  simp [State.damageLine, hline, hst]

/-- What a read that fails no work of its core leaves of its outcome (R218). -/
theorem State.serveRead_last (x : LineRead) (h : ∀ c u, r.src = .core c u →
    CoreUse.fails u ((s.damageLine x.addr x.flips).readLine r x.addr).2.kind = false) :
    (s.serveRead r x).drm.last = ((s.damageLine x.addr x.flips).readLine r x.addr).2 := by
  unfold State.serveRead
  cases hsrc : r.src <;> simp only
  case core c u =>
    simp only [h c u hsrc, Bool.false_eq_true, if_false]
    rfl
  all_goals rfl

@[simp] theorem CoreUse.fails_clean (u : CoreUse) : CoreUse.fails u .clean = false := by
  cases u <;> rfl

end

/-- A read of a fenced channel answers UE (R234). -/
theorem State.readLine_of_fenced (hline : s.drm.lineOf a = some (n, l)) (hregion : s.regionOk r a = true)
    (hst : (s.chan n).st = .fenced) : s.readLine r a = (s, ⟨.ueSecded, 0⟩) := by
  simp [State.readLine, hline, hregion, hst]

/-! A line of the sweep (R229). -/

theorem State.logErr_of_clean (s : State) (n : Nat) (src : BitVec 2) (part : BitVec 3) (l : Nat) :
    s.logErr n .clean src part l = s := rfl

/-- A channel without UE or MISDIRECT in the last second is not fenced (R233). -/
theorem State.fenceIfDue_of_quiet (hue : (s.chan n).ueTimes = []) (hmis : (s.chan n).misTimes = []) : s.fenceIfDue n = s := by
  simp [State.fenceIfDue, hue, hmis]

/-- The scrub of a clean line is at most an access to it. -/
theorem State.scrubOne_of_clean (hue : (s.chan n).ueTimes = []) (hmis : (s.chan n).misTimes = [])
    (hclean : (classify (s.lineAt n l) l none).1.kind = .clean) : s.scrubOne n l = s ∨ s.scrubOne n l = s.touch n l := by
  by_cases hm : ((s.chan n).mergeOf l).isSome
  · exact .inl (by simp [State.scrubOne, hm])
  · right
    have quiet : (s.touch n l).fenceIfDue n = s.touch n l :=
      State.fenceIfDue_of_quiet (by simp [State.touch_eq_modChan, hue]) (by simp [State.touch_eq_modChan, hmis])
    simp only [State.scrubOne, hm, hclean, State.logErr_of_clean, quiet]
    rfl

/-- The sweep advances past a clean line and leaves the lines, where the channel has lines left. -/
theorem execScrubLine_of_clean (hst : (s.chan n).st = .active) (hue : (s.chan n).ueTimes = []) (hmis : (s.chan n).misTimes = [])
    (hclean : (classify (s.lineAt n (s.chan n).scrubDone.toNat) (s.chan n).scrubDone.toNat none).1.kind = .clean)
    (hmore : (s.chan n).scrubDone.toNat + 1 < s.chanLines) :
    ∃ t, execScrubLine n s = .next t ∧ (t.chan n).scrubDone = BitVec.ofNat 32 ((s.chan n).scrubDone.toNat + 1) ∧
      (t.chan n).lines = (s.chan n).lines := by
  have hone : ∃ u, s.scrubOne n (s.chan n).scrubDone.toNat = u ∧ (u.chan n).scrubDone = (s.chan n).scrubDone ∧
      (u.chan n).lines = (s.chan n).lines ∧ u.chanLines = s.chanLines := by
    rcases State.scrubOne_of_clean hue hmis hclean with h | h
    · exact ⟨_, h, rfl, rfl, rfl⟩
    · exact ⟨_, h, by simp [State.touch_eq_modChan], by simp [State.touch_eq_modChan], rfl⟩
  obtain ⟨u, hu, hdone, hlines, hcap⟩ := hone
  refine ⟨_, rfl, ?_⟩
  simp only [hst, if_true, hu]
  generalize hv : (if ((u.chan n).scrubDone.toNat + 1) % 64 = 0 then u.served n else u) = v
  have hvu : v.chan n = u.chan n ∧ v.chanLines = u.chanLines := by
    rw [← hv]
    split <;> exact ⟨rfl, rfl⟩
  rw [hvu.2, hcap, hdone, if_neg (by omega)]
  split <;> simp [hvu.1, hlines]

/-- A full-line write that is served leaves the other channels, and the other lines of its own. -/
theorem State.serve_write_frame (hline : s.drm.lineOf a = some (n, l)) (hwait : s.requestWaits r a = false)
    (hregion : s.regionOk r a = true) (hst : (s.chan n).st = .active) (d : BitVec 512) :
    (∀ m, n ≠ m → (s.serve (.write r a d)).chan m = s.chan m) ∧
    (∀ k, l ≠ k → (s.serve (.write r a d)).lineAt n k = s.lineAt n k) := by
  have hreach := (State.reaches_of_not_waits hline hregion hst hwait).takeSlot hwait
  constructor
  · intro m hm
    rw [State.serve_write, hreach.writeLine_chan_other d hm, State.takeSlot_chan_other hline hwait hm]
  · intro k hk
    rw [State.serve_write, hreach.writeLine_lineAt_other d hk, State.takeSlot_lineAt hline hwait]

/-- A read that is served finds what its requester has written to the line. -/
theorem State.serve_read_mkLine (hreach : s.Reaches r a n l) (hwait : s.requestWaits r a = false) {d : BitVec 512}
    (hmerge : (s.chan n).mergeOf l = none) (hl : s.lineAt n l = mkLine d r.part false l) :
    (s.serve (.read r ⟨a, []⟩)).drm.last = ⟨.clean, d⟩ := by
  obtain ⟨slots, hchan⟩ := State.takeSlot_chan_same hreach.line hwait
  have hread : ((s.takeSlot r a).readLine r a).2 = ⟨.clean, d⟩ :=
    (hreach.takeSlot hwait).readLine_mkLine d (by rw [hchan]; exact hmerge) (by rw [State.takeSlot_lineAt hreach.line hwait, hl])
  rw [State.serve_read, State.serveRead_last, State.damageLine_nil, hread]
  intro c u _
  rw [State.damageLine_nil, hread, CoreUse.fails_clean]

/-- A read of a fenced channel by no core leaves UE as its outcome. -/
theorem State.serve_read_of_fenced (hline : s.drm.lineOf a = some (n, l)) (hwait : s.requestWaits r a = false)
    (hregion : s.regionOk r a = true) (hst : (s.chan n).st = .fenced) (hsrc : ∀ c u, r.src ≠ .core c u) (fs : List (Nat × Nat)) :
    (s.serve (.read r ⟨a, fs⟩)).drm.last = ⟨.ueSecded, 0⟩ := by
  obtain ⟨slots, e⟩ := State.takeSlot_eq_modChan hline hwait
  have hline' : (s.takeSlot r a).drm.lineOf a = some (n, l) := by rw [e]; exact hline
  have hregion' : (s.takeSlot r a).regionOk r a = true := by rw [e]; exact hregion
  have hst' : ((s.takeSlot r a).chan n).st = .fenced := by simp [e, hst]
  have hdamage : (s.takeSlot r a).damageLine a fs = s.takeSlot r a :=
    State.damageLine_of_not_active a fs _ hline' (by simp [hst'])
  rw [State.serve_read, State.serveRead_last _ _ _ fun c u h => absurd h (hsrc c u), hdamage,
    State.readLine_of_fenced hline' hregion' hst']

/-- A narrow write that is served enters the merge buffer where it has room and no entry of the line. -/
theorem State.serve_narrow_of_room (hline : s.drm.lineOf a = some (n, l)) (hwait : s.requestWaits r a = false)
    (hregion : s.regionOk r a = true) (hst : (s.chan n).st = .active) {bs : List (Option Byte)}
    (hmerge : (s.chan n).mergeOf l = none) (hroom : (s.chan n).merge.length < 32)
    (hpart : (mergeBytes [] (bs.take 64)).length < 64) :
    s.serve (.narrow r a bs) = (s.takeSlot r a).modChan n (fun c => { c with
      merge := c.merge.filter (fun m => m.line != l) ++ [⟨l, mergeBytes [] (bs.take 64), r.part, srcExempt r.src⟩] }) := by
  have hreach := (State.reaches_of_not_waits hline hregion hst hwait).takeSlot hwait
  obtain ⟨slots, hchan⟩ := State.takeSlot_chan_same hline hwait
  rw [State.serve_narrow]
  exact hreach.narrow_eq (by rw [hchan]; exact hmerge) (by rw [hchan]; exact hroom) hpart

theorem execMergeFlush_of_entry {m : Merge} (hst : (s.chan n).st = .active) (hm : (s.chan n).mergeOf l = some m) :
    execMergeFlush n l s = .next (s.flushMerge n m) := by
  simp [execMergeFlush, hst, hm]

/-- Settles O21: while the requests before it must wait on, a request is put behind them or is served alone, and what it does
then is what its kind does to the line it reaches. -/
theorem dramAccess : Obligations.DramAccess := by
  unfold Obligations.DramAccess
  refine ⟨?write, ?fenced, ?narrow, ?waits, ?stopped, ?flush, ?scrub⟩
  case write =>
    intro s r a n l d hrun hwaits hwait hline hregion hst
    have hreach := (State.reaches_of_not_waits hline hregion hst hwait).takeSlot hwait
    obtain ⟨hchans, hlines⟩ := State.serve_write_frame hline hwait hregion hst d
    refine ⟨_, by rw [exec_dramWrite, State.request_of_not_waits hrun hwaits (.write r a d) hwait], hchans, hlines,
      fun hwaits' hwait' => ?_⟩
    have hrun' : (s.serve (.write r a d)).running = true := by
      rw [State.serve_write, hreach.writeLine_running, State.takeSlot_running hline hwait, hrun]
    refine ⟨_, by rw [exec_dramRead, State.request_of_not_waits hrun' hwaits' (.read r ⟨a, []⟩) hwait'], ?_⟩
    exact State.serve_read_mkLine (hreach.writeLine_reaches d) hwait' (hreach.writeLine_mergeOf d) (hreach.writeLine_lineAt_same d)
  case fenced =>
    intro s r a n l fs hrun hwaits hwait hline hregion hst hsrc
    exact ⟨_, by rw [exec_dramRead, State.request_of_not_waits hrun hwaits (.read r ⟨a, fs⟩) hwait],
      State.serve_read_of_fenced hline hwait hregion hst hsrc fs⟩
  case narrow =>
    intro s r a n l bs hrun hwaits hwait hline hregion hst hmerge hroom hpart
    rw [exec_narrowWrite, State.request_of_not_waits hrun hwaits (.narrow r a bs) hwait,
      State.serve_narrow_of_room hline hwait hregion hst hmerge hroom hpart]
  case waits =>
    intro s r a d bs fs hrun hwaits hwait
    rw [exec_dramRead, exec_dramWrite, exec_narrowWrite]
    have hqueued (w : DramWait) (hw : w.request = (r, a)) :
        s.request w = s.modDrm (fun x => { x with waits := x.waits ++ [w] }) :=
      State.request_of_waits hrun hwaits w (by rw [hw]; exact hwait)
    exact ⟨congrArg _ (hqueued _ rfl), congrArg _ (hqueued _ rfl), congrArg _ (hqueued _ rfl)⟩
  case stopped =>
    intro s r a d bs fs hrun
    simp [exec_dramRead, exec_dramWrite, exec_narrowWrite, State.request_of_not_running hrun]
  case flush =>
    intro s n l m hst hm
    exact execMergeFlush_of_entry hst hm
  case scrub =>
    intro s n hst hue hmis hclean hmore
    exact execScrubLine_of_clean hst hue hmis hclean hmore

end Sys2Proof.Machine
end

section
/-! PROOF. The passing of time and the PTP clock: what a step does on an empty queue (R32, R34, R53), and what the clock's commands do
to its state, its offset and its time (R31 to R34). -/

namespace Sys2Proof.Machine

variable {s : State}

/-! Frames from what an operation keeps. -/

/-- A component that is not listed stays as it is under the updates of those listed. -/
theorem keeps_same {l : List Comp} : ∀ {c : Comp}, l.contains c = false → Keeps l (fun t => c.same s t)
  | .now, h => keeps_now h
  | .ptp, h => keeps_ptp h
  | .freeCtr, h => keeps_freeCtr h
  | .ras, h => keeps_ras h
  | .enc, h => keeps_enc h
  | .dec, h => keeps_dec h
  | .cmp, h => keeps_cmp h
  | .out, h => keeps_out h
  | .cores, h => keeps_cores h
  | .drm, h => keeps_drm h
  | .run, h => keeps_run h
  | .hq, h => keeps_hq h
  | .txn, h => keeps_txn h
  | .blw, h => keeps_blw h
  | .fsh, h => keeps_fsh h
  | .glb, h => keeps_glb h
  | .irc, h => keeps_irc h
  | .tck, h => keeps_tck h
  | .log, h => keeps_log h
  | .sem, h => keeps_sem h
  | .flt, h => keeps_flt h
  | .grt, h => keeps_grt h

theorem Comp.same_refl (c : Comp) (s : State) : c.same s s := by
  cases c <;> rfl

/-- An operation that keeps what is closed under the updates of some components has these as its frame. -/
theorem frame_of_keeps {l : List Comp} {t : State} (h : ∀ P, Keeps l P → P s → P t) : frame l s t :=
  ⟨h (fun t => t.pending = s.pending) keeps_pending rfl,
    fun c hc => h (fun t => c.same s t) (keeps_same (by simpa using hc)) (c.same_refl s)⟩

/-! The passing of time (R34, R53). -/

theorem step_of_empty (hq : s.pending = []) : step s = .next (tick s) := by
  simp [step, hq]

theorem tick_of_inReset (hr : s.glb.inReset = true) : tick s = s := by
  simp [tick, State.passTime, State.serveWaits, State.running, hr]

theorem State.passTime_of_not_inReset (hr : s.glb.inReset = false) :
    s.passTime = { s with
      now := s.now + 1, ptp := s.ptp + BitVec.ofInt 64 s.ras.clk.advance.2, ras := { s.ras with clk := s.ras.clk.advance.1 } } := by
  rw [State.passTime, hr]
  rfl

theorem State.serveWaits_of_none (h : s.drm.waits = []) : s.serveWaits = s := by
  simp [State.serveWaits, State.each, h]

/-- The components that the passing of time may change. -/
def tickComps : List Comp := [.now, .ptp, .ras, .freeCtr, .enc, .dec, .drm, .blw, .glb, .irc, .log, .flt, .grt]

theorem tick_frame (s : State) : frame tickComps s (tick s) :=
  frame_of_keeps fun _ u k => State.serveWaits_keeps (u.mono (by decide)) (State.passTime_keeps (u.mono (by decide)) k)

/-- In FREERUN neither the rate nor the slew moves the clock: only what the rate had added, once it makes a whole ns. -/
theorem Clk.advance_of_freerun {c : Clk} (hst : c.st = .freerun) (hacc : c.acc < 1000000000) : c.advance.2 = 1 := by
  have hdiv : (c.acc : Int) / 1000000000 = 0 := Int.ediv_eq_zero_of_lt (by omega) (by omega)
  simp [Clk.advance, hst, hdiv]

/-- Settles O3: on an empty queue time passes, the waiting DRAM requests are served, and every other component stays. -/
theorem emptyQueueTicks : Obligations.EmptyQueueTicks := by
  refine ⟨fun s hq hr => ?_, fun s hq hr => ?_, fun c => Clk.advance_of_freerun⟩
  · rw [step_of_empty hq, tick_of_inReset hr]
  · have hserved : ∀ c ∈ [Comp.now, .ptp, .ras], c.same s.passTime (tick s) := fun c hc =>
      State.serveWaits_keeps (P := fun t => c.same s.passTime t)
        (keeps_same (by revert c; decide)) (c.same_refl _)
    have hnow : (tick s).now = s.passTime.now := hserved .now (by decide)
    have hptp : (tick s).ptp = s.passTime.ptp := hserved .ptp (by decide)
    have hras : (tick s).ras = s.passTime.ras := hserved .ras (by decide)
    rw [State.passTime_of_not_inReset hr] at hnow hptp hras
    refine ⟨tick s, step_of_empty hq, hnow, hptp, hras, tick_frame s, fun hnone => ?_⟩
    have hwaits : s.passTime.drm.waits = [] := by rw [State.passTime_of_not_inReset hr]; exact hnone
    rw [tick, State.serveWaits_of_none hwaits, State.passTime_of_not_inReset hr]

/-! What the operations on the clock leave (R32 to R34). -/

section
variable (s)

/-- Neither the clock nor its time depends on the Runner, whose packet the Tack takes. -/
@[simp] theorem State.rxTake_ras (q : Nat) : (s.rxTake q).ras = s.ras :=
  State.rxTake_keeps (keeps_ras (by decide)) rfl

@[simp] theorem State.rxTake_ptp (q : Nat) : (s.rxTake q).ptp = s.ptp :=
  State.rxTake_keeps (keeps_ptp (by decide)) rfl

@[simp] theorem State.modClk_clk (f : Clk → Clk) : (s.modClk f).ras.clk = f s.ras.clk := rfl
@[simp] theorem State.modClk_ptp (f : Clk → Clk) : (s.modClk f).ptp = s.ptp := rfl

@[simp] theorem State.estimateRate_ptp : s.estimateRate.ptp = s.ptp := rfl

@[simp] theorem State.realignAll_clk : s.realignAll.ras.clk = s.ras.clk :=
  State.each_keeps (P := fun t => t.ras.clk = s.ras.clk) (fun _ _ h => h) rfl

@[simp] theorem State.realignAll_ptp : s.realignAll.ptp = s.ptp :=
  State.realignAll_keeps (keeps_ptp (by decide)) rfl

@[simp] theorem State.clkState_st (st : ClkState) (id : EventId) (items : List Item) :
    (s.clkState st id items).ras.clk.st = st := by
  unfold State.clkState
  split
  · assumption
  · rfl

/-- A change of state touches no other field of the clock than its state and the mark of HOLDOVER_LIMIT. -/
theorem State.clkState_clk (st : ClkState) (id : EventId) (items : List Item) :
    ∃ b, (s.clkState st id items).ras.clk = { s.ras.clk with st := st, limitRaised := b } := by
  unfold State.clkState
  split
  next h => exact ⟨s.ras.clk.limitRaised, by rw [← h]⟩
  next => exact ⟨false, rfl⟩

@[simp] theorem State.clkState_ptp (st : ClkState) (id : EventId) (items : List Item) :
    (s.clkState st id items).ptp = s.ptp :=
  State.clkState_keeps (keeps_ptp (by decide)) rfl

theorem State.clkState_latch {st : ClkState} (h : s.ras.clk.st ≠ st) (id : EventId) (items : List Item) :
    48 ∈ (s.clkState st id items).irc.latch := by
  rw [State.clkState, if_neg h]
  exact State.latch_mem _ 48

/-- The history alone changes as a state of the clock is noted. -/
@[simp] theorem State.noteClk_clk :
    s.noteClk.ras.clk = { s.ras.clk with hist := ⟨s.time, s.ras.clk.reported, s.ras.clk.offset⟩ :: s.ras.clk.hist } := rfl

@[simp] theorem State.noteClk_ptp : s.noteClk.ptp = s.ptp := rfl

end

/-! The return to a grandmaster (R34). -/

section
variable (s) (e : Int)

/-- A step moves the clock's time at once and leaves no offset to slew. -/
theorem State.clkStep_ptp : (s.clkStep e).ptp = s.ptp + BitVec.ofInt 64 e := by
  rw [State.clkStep, State.realignAll_ptp]
  rfl

theorem State.clkStep_clk :
    (s.clkStep e).ras.clk =
      { s.ras.clk with steps := (s.ptp + BitVec.ofInt 64 e).toNat :: s.ras.clk.steps, offset := 0, inBound := 0 } := by
  rw [State.clkStep, State.realignAll_clk]
  rfl

/-- What relocking leaves of the clock, but for what its history and the events record. -/
structure Relocked (s t : State) (e : Int) : Prop where
  st : t.ras.clk.st = .relocking
  gmPort : t.ras.clk.gmPort = s.ras.clk.gmPort
  inBound : t.ras.clk.inBound = 0
  offset : t.ras.clk.offset = if s.ras.clk.stepLimit < e.natAbs then 0 else e
  ptp : t.ptp = s.ptp + if s.ras.clk.stepLimit < e.natAbs then BitVec.ofInt 64 e else 0

/-- Whatever the state it is in, a clock that relocks slews an offset within STEP_LIMIT and steps by a greater one. -/
theorem State.relock_relocked : Relocked s (s.relock e) e := by
  unfold State.relock
  by_cases h : s.ras.clk.stepLimit < e.natAbs
  · obtain ⟨b, hclk⟩ := State.clkState_clk (s.clkStep e) .relocking .clockRelocking [i64 e]
    rw [State.clkStep_clk] at hclk
    simp only [if_pos h]
    constructor <;> simp [hclk, h, State.clkStep_ptp]
  · obtain ⟨b, hclk⟩ := State.clkState_clk (s.modClk (fun c => { c with offset := e, inBound := 0 })) .relocking
      .clockRelocking [i64 e]
    simp only [if_neg h]
    constructor <;> simp [hclk, h]

end

/-! The commands of the clock. -/

section
variable (s)

theorem exec_syncMessage (e : Int) : exec (.syncMessage e) s = execSyncMessage e s := rfl
theorem exec_grandmasterAccepted (p : BitVec 2) (e : Int) : exec (.grandmasterAccepted p e) s = execGrandmasterAccepted p e s := rfl
theorem exec_announceTimeout : exec .announceTimeout s = execAnnounceTimeout s := rfl
theorem exec_holdoverLimit : exec .holdoverLimit s = execHoldoverLimit s := rfl

end

/-! Sync messages (R32, R53, R261). -/

section
variable {e : Int}

theorem exec_syncMessage_of_unread (hu : s.rxUnread 0 = true) : exec (.syncMessage e) s = .next (s.rxTake 0) := by
  simp [exec_syncMessage, execSyncMessage, hu]

theorem exec_syncMessage_of_not_following (hu : s.rxUnread 0 = false) (hst : s.ras.clk.st = .freerun ∨ s.ras.clk.st = .holdover) :
    exec (.syncMessage e) s = .next (s.rxTake 0) := by
  rcases hst with hst | hst <;> simp [exec_syncMessage, execSyncMessage, hu, hst]

/-- A clock in LOCKED or RELOCKING estimates the rate anew and takes the offset that the message shows. -/
theorem exec_syncMessage_of_following (hu : s.rxUnread 0 = false) (hst : s.ras.clk.st = .locked ∨ s.ras.clk.st = .relocking) :
    exec (.syncMessage e) s = .next ((s.rxTake 0).estimateRate.syncOffset e) := by
  rcases hst with hst | hst <;> simp [exec_syncMessage, execSyncMessage, hu, hst]

@[simp] theorem State.estimateRate_st : s.estimateRate.ras.clk.st = s.ras.clk.st := rfl
@[simp] theorem State.estimateRate_inBound : s.estimateRate.ras.clk.inBound = s.ras.clk.inBound := rfl
@[simp] theorem State.estimateRate_stepLimit : s.estimateRate.ras.clk.stepLimit = s.ras.clk.stepLimit := rfl

theorem State.syncOffset_of_locked_near (hst : s.ras.clk.st = .locked) (he : e.natAbs ≤ 1000) :
    s.syncOffset e = s.modClk (fun c => { c with offset := e }) := by
  simp [State.syncOffset, hst, show ¬ 1000 < e.natAbs by omega]

theorem State.syncOffset_of_locked_far (hst : s.ras.clk.st = .locked) (he : 1000 < e.natAbs) : s.syncOffset e = s.relock e := by
  simp [State.syncOffset, hst, he]

/-- The messages in sequence within 1 µs, with one that shows the offset `e` (R32). -/
def Clk.inBoundAfter (c : Clk) (e : Int) : Nat := if 1000 < e.natAbs then 0 else c.inBound + 1

/-- In RELOCKING the offset is taken whatever it is, and the clock never steps (log entry 198). -/
theorem State.syncOffset_of_relocking (hst : s.ras.clk.st = .relocking) :
    s.syncOffset e =
      let t := s.modClk (fun c => { c with offset := e, inBound := s.ras.clk.inBoundAfter e })
      (if 16 ≤ s.ras.clk.inBoundAfter e then t.clkState .locked .clockLocked [.w16 (s.ras.clk.gmPort.setWidth 16)] else t).noteClk := by
  rw [State.syncOffset, hst]
  rfl

theorem State.syncOffset_stays_relocking (hst : s.ras.clk.st = .relocking) (hn : s.ras.clk.inBoundAfter e < 16) :
    (s.syncOffset e).ras.clk.st = .relocking ∧ (s.syncOffset e).ras.clk.offset = e ∧
      (s.syncOffset e).ras.clk.inBound = s.ras.clk.inBoundAfter e ∧ (s.syncOffset e).ptp = s.ptp := by
  rw [State.syncOffset_of_relocking hst]
  simp [show ¬ 16 ≤ s.ras.clk.inBoundAfter e by omega, hst]

theorem State.syncOffset_locks (hst : s.ras.clk.st = .relocking) (hn : 16 ≤ s.ras.clk.inBoundAfter e) :
    (s.syncOffset e).ras.clk.st = .locked ∧ (s.syncOffset e).ras.clk.offset = e ∧
      48 ∈ (s.syncOffset e).irc.latch ∧ (s.syncOffset e).ptp = s.ptp := by
  rw [State.syncOffset_of_relocking hst]
  simp only [if_pos hn]
  obtain ⟨b, hclk⟩ := State.clkState_clk (s.modClk (fun c => { c with offset := e, inBound := s.ras.clk.inBoundAfter e }))
    .locked .clockLocked [.w16 (s.ras.clk.gmPort.setWidth 16)]
  exact ⟨by simp, by simp [hclk], State.clkState_latch (s.modClk _) (by simp [hst]) _ _, by simp⟩

end

/-! The grandmaster and the holdover (R31, R33). -/

theorem exec_grandmasterAccepted_of_ptp {p : BitVec 2} (hf : s.ras.clk.fenced = false) (hp : (s.eth p.toNat).ptpEn = true) (e : Int) :
    exec (.grandmasterAccepted p e) s = .next ((s.modClk (fun c => { c with gmPort := p })).relock e) := by
  simp [exec_grandmasterAccepted, execGrandmasterAccepted, hf, hp]

theorem exec_grandmasterAccepted_of_no_ptp {p : BitVec 2} (hp : (s.eth p.toNat).ptpEn = false) (e : Int) :
    exec (.grandmasterAccepted p e) s = .next s := by
  simp [exec_grandmasterAccepted, execGrandmasterAccepted, hp]

theorem exec_announceTimeout_of_following (hst : s.ras.clk.st = .locked ∨ s.ras.clk.st = .relocking) :
    exec .announceTimeout s =
      .next ((s.modClk (fun c => { c with holdStart := s.now })).clkState .holdover .clockHoldover []).noteClk := by
  simp [exec_announceTimeout, execAnnounceTimeout, hst]

theorem exec_holdoverLimit_of_over {u : Nat} (hst : s.ras.clk.st = .holdover) (hu : s.uncertainty = some u)
    (hr : s.ras.clk.limitRaised = false) (hl : s.ras.clk.holdLimit < u) :
    exec .holdoverLimit s = .next (((s.modClk (fun c => { c with limitRaised := true })).latch 48).raise .holdoverLimit [i32 u]) := by
  simp [exec_holdoverLimit, execHoldoverLimit, hst, hu, hr, hl]

/-- Settles O9: each command of the clock, by the state of the clock in which it comes. -/
theorem clockCommands : Obligations.ClockCommands := by
  refine ⟨fun s e => exec_syncMessage_of_unread, fun s e => exec_syncMessage_of_not_following, ?near, ?far, ?slews, ?locks,
    ?accepted, ?acceptedFar, fun s p e hp => exec_grandmasterAccepted_of_no_ptp hp e, ?timeout, ?limit⟩
  case near =>
    intro s e hu hst he
    rw [exec_syncMessage_of_following hu (.inl hst), State.syncOffset_of_locked_near (by simpa using hst) he]
  case far =>
    intro s e hu hst he
    obtain ⟨st, -, inBound, offset, ptp⟩ := State.relock_relocked (s.rxTake 0).estimateRate e
    refine ⟨_, by rw [exec_syncMessage_of_following hu (.inl hst), State.syncOffset_of_locked_far (by simpa using hst) he],
      st, inBound, ?_, ?_⟩
    · simpa using ptp
    · simpa using offset
  case slews =>
    intro s e hu hst he
    obtain ⟨st, offset, inBound, ptp⟩ := State.syncOffset_stays_relocking (s := (s.rxTake 0).estimateRate) (e := e)
      (by simpa using hst) (by simp only [Clk.inBoundAfter, State.estimateRate_inBound, State.rxTake_ras]; split <;> omega)
    refine ⟨_, exec_syncMessage_of_following hu (.inr hst), st, offset, ?_, ?_⟩
    · simpa [Clk.inBoundAfter] using inBound
    · simpa using ptp
  case locks =>
    intro s e hu hst he hn
    obtain ⟨st, offset, latch, ptp⟩ := State.syncOffset_locks (s := (s.rxTake 0).estimateRate) (e := e)
      (by simpa using hst) (by simp only [Clk.inBoundAfter, State.estimateRate_inBound, State.rxTake_ras]; split <;> omega)
    exact ⟨_, exec_syncMessage_of_following hu (.inr hst), st, offset, latch, by simpa using ptp⟩
  case accepted =>
    intro s p e hf hp he
    obtain ⟨st, gmPort, inBound, offset, ptp⟩ := State.relock_relocked (s.modClk (fun c => { c with gmPort := p })) e
    rw [if_neg (by simpa using he)] at offset ptp
    exact ⟨_, exec_grandmasterAccepted_of_ptp hf hp e, st, gmPort, offset, inBound, by simpa using ptp⟩
  case acceptedFar =>
    intro s p e hf hp he
    obtain ⟨st, gmPort, inBound, -, ptp⟩ := State.relock_relocked (s.modClk (fun c => { c with gmPort := p })) e
    rw [if_pos (by simpa using he)] at ptp
    exact ⟨_, exec_grandmasterAccepted_of_ptp hf hp e, st, gmPort, ptp, inBound⟩
  case timeout =>
    intro s hst
    have changes : s.ras.clk.st ≠ .holdover := by rcases hst with hst | hst <;> simp [hst]
    obtain ⟨b, hclk⟩ := State.clkState_clk (s.modClk (fun c => { c with holdStart := s.now })) .holdover .clockHoldover []
    exact ⟨_, exec_announceTimeout_of_following hst, by simp, by simp [hclk],
      State.clkState_latch (s.modClk _) (by simpa using changes) _ _⟩
  case limit =>
    intro s u hst hu hr hl
    exact ⟨_, exec_holdoverLimit_of_over hst hu hr hl, rfl, State.latch_mem _ 48⟩

end Sys2Proof.Machine
end

section
/-! PROOF. The line event table (R43 to R48), and the rasters' times: lines, input frames, realignment and retiming. -/

namespace Sys2Proof.Machine

variable {s : State}

/-! The commands of lines and rasters. -/

section
variable (s)

theorem exec_lineEventArm (w : Writer) (n : Nat) (v : Word) : exec (.lineEventArm w n v) s = execLineEventArm w n v s := rfl
theorem exec_lineEventDisarm (w : Writer) (n : Nat) (v : Word) : exec (.lineEventDisarm w n v) s = execLineEventDisarm w n v s := rfl
theorem exec_inputFrameStart (k : Nat) (x : FrameStamp) (fmtSeen : Bool) :
    exec (.inputFrameStart k x fmtSeen) s = execInputFrameStart k x fmtSeen s := rfl
theorem exec_inputSignalTimeout (k : Nat) : exec (.inputSignalTimeout k) s = execInputSignalTimeout k s := rfl
theorem exec_rasterRealign (k : Nat) : exec (.rasterRealign k) s = execRasterRealign k s := rfl
theorem exec_rasterRetimed (k : Nat) (f : RasterFmt) : exec (.rasterRetimed k f) s = execRasterRetimed k f s := rfl
theorem exec_retimingEnd (k : Nat) : exec (.retimingEnd k) s = execRetimingEnd k s := rfl
theorem exec_lineStart (ps : List LinePos) : exec (.lineStart ps) s = execLineStart ps s := rfl

end

/-! A write to word 0 of an entry (R47). -/

section
variable {n : Nat} {v : Word}

/-- The Tack writes with the scope of the whole device, which no partition's rules bind. -/
theorem State.writeEvent_tack :
    s.writeEvent .tack n v =
      if s.armBad none n v then (s.rejectEvent n).werr .tack 1 (eventAddr n) else s.setEvent none n 0 v := rfl

theorem State.setEvent_arm (hv : v.getLsbD 31 = true) (scope : Option Nat) : s.setEvent scope n 0 v = s.armEvent scope n v := by
  simp only [State.setEvent, hv, if_true]

theorem State.setEvent_disarm (hv : v.getLsbD 31 = false) (scope : Option Nat) : s.setEvent scope n 0 v = s.disarmEvent n v := by
  simp only [State.setEvent, hv, Bool.false_eq_true, if_false]

theorem exec_lineEventArm_of_ok (hn : n < 1024) (hv : v.getLsbD 31 = true)
    (hok : s.armOk none n ((s.lineEvent n).setWord0 v) = true) : exec (.lineEventArm .tack n v) s = .next (s.armEvent none n v) := by
  simp [exec_lineEventArm, execLineEventArm, hn, hv, State.writeEvent_tack, State.armBad, hok, State.setEvent_arm]

theorem exec_lineEventArm_of_bad (hn : n < 1024) (hv : v.getLsbD 31 = true)
    (hbad : s.armOk none n ((s.lineEvent n).setWord0 v) = false) :
    exec (.lineEventArm .tack n v) s = .next ((s.rejectEvent n).werr .tack 1 (eventAddr n)) := by
  simp [exec_lineEventArm, execLineEventArm, hn, hv, State.writeEvent_tack, State.armBad, hbad]

theorem exec_lineEventDisarm_tack (hn : n < 1024) (hv : v.getLsbD 31 = false) :
    exec (.lineEventDisarm .tack n v) s = .next (s.disarmEvent n v) := by
  simp only [exec_lineEventDisarm, execLineEventDisarm, State.writeEvent_tack, State.armBad, State.setEvent_disarm hv, hv,
    decide_eq_true hn, Bool.not_false, Bool.and_self, Bool.false_and, Bool.false_eq_true, if_true, if_false]

theorem State.ageEvent_of_not_once (h : (s.lineEvent n).mode ≠ 1) : s.ageEvent n = s := by
  exact if_pos (bne_iff_ne.mpr h)

/-- An entry of another mode than Once has no position that can have passed: it is armed with its records cleared. -/
theorem State.armEvent_of_not_once (hm : v.extractLsb' 29 2 ≠ 1) (scope : Option Nat) :
    s.armEvent scope n v = s.modLineEvent n (fun e => { e.setWord0 v with
      fired := false, late := false, expired := false, rejected := false, count := 0, scope := scope, latePend := false }) := by
  refine State.ageEvent_of_not_once ?_
  rw [State.modLineEvent_same]
  exact hm

theorem State.werr_count (w : Writer) (reason : BitVec 4) (addr : Nat) :
    (s.werr w reason addr).glb.werrCount = satInc s.glb.werrCount := by
  simp only [State.werr, State.modGlb_glb]
  split <;> rfl

end

/-- Settles O10: the three outcomes of a write of the Tack to word 0. -/
theorem lineEventWrites : Obligations.LineEventWrites := by
  refine fun s n v hn => ⟨fun hv hm hok => ?armed, fun hv hbad => ?refused, fun hv => ?disarmed⟩
  case armed =>
    refine ⟨_, (exec_lineEventArm_of_ok hn hv hok).trans (congrArg _ (State.armEvent_of_not_once hm none)), ?_, ?_, rfl, rfl⟩
    · exact State.modLineEvent_same s n _
    · exact fun m hne => State.modLineEvent_other s _ hne
  case refused =>
    refine ⟨_, exec_lineEventArm_of_bad hn hv hbad, ?_, ?_, State.latch_mem _ 49, State.werr_count _ _ _⟩
    · exact State.modLineEvent_same s n _
    · exact fun m hne => State.modLineEvent_other s _ hne
  case disarmed =>
    refine ⟨_, exec_lineEventDisarm_tack hn hv, ?_, ?_, rfl, rfl⟩
    · exact State.modLineEvent_same s n _
    · exact fun m hne => State.modLineEvent_other s _ hne

/-! Positions that no entry and no transaction waits for (R48). -/

section
variable {k : Nat}

/-- Where no transaction is listed, none is armed. -/
theorem State.not_armed_of_none (h : s.txn.txns = []) (t : Nat) : ((s.trans t).st == .armed) = false := by
  rw [State.trans, h]
  rfl

/-- Nothing is passed over where no entry and no transaction waits. -/
theorem State.passOver_of_none (hev : s.ras.events = []) (htx : s.txn.txns = []) (m : Int) : s.passOver k m = s := by
  simp [State.passOver, hev, State.not_armed_of_none htx, State.each]

theorem State.dropMisfits_of_none (hev : s.ras.events = []) : s.dropMisfits k = s := by
  simp [State.dropMisfits, hev, State.each]

theorem State.txnsDue_of_none (htx : s.txn.txns = []) (ps : List LinePos) : s.txnsDue ps = [] := by
  simp [State.txnsDue, State.not_armed_of_none htx]

end

/-! Input rasters (R41, R42). -/

section
variable {k : Nat} {st : InState}

/-- A change of an input raster's state touches nothing else of the raster. -/
@[simp] theorem State.setInState_same (k : Nat) (st : InState) : (s.setInState k st).raster k = { s.raster k with inState := st } := by
  unfold State.setInState
  split
  next h => rw [← h]
  next => exact State.modRaster_same s k _

theorem State.setInState_other {j : Nat} (h : k ≠ j) (st : InState) : (s.setInState k st).raster j = s.raster j := by
  unfold State.setInState
  split
  · rfl
  · exact State.modRaster_other s _ h

theorem State.setInState_latch (h : (s.raster k).inState ≠ st) : 50 + (k - 16) ∈ (s.setInState k st).irc.latch := by
  rw [State.setInState, if_neg h]
  exact State.latch_mem _ _

@[simp] theorem State.setInState_events (k : Nat) (st : InState) : (s.setInState k st).ras.events = s.ras.events := by
  unfold State.setInState
  split <;> rfl

@[simp] theorem State.setInState_txn (k : Nat) (st : InState) : (s.setInState k st).txn = s.txn :=
  State.setInState_keeps (keeps_txn (by decide)) rfl

@[simp] theorem State.setInState_enc (k : Nat) (st : InState) : (s.setInState k st).enc = s.enc :=
  State.setInState_keeps (keeps_enc (by decide)) rfl

@[simp] theorem State.setInState_glb (k : Nat) (st : InState) : (s.setInState k st).glb = s.glb :=
  State.setInState_keeps (keeps_glb (by decide)) rfl

@[simp] theorem State.modRaster_events (k : Nat) (f : Raster → Raster) : (s.modRaster k f).ras.events = s.ras.events := rfl
@[simp] theorem State.modRaster_txn (k : Nat) (f : Raster → Raster) : (s.modRaster k f).txn = s.txn := rfl
@[simp] theorem State.modRaster_enc (k : Nat) (f : Raster → Raster) : (s.modRaster k f).enc = s.enc := rfl
@[simp] theorem State.modRaster_glb (k : Nat) (f : Raster → Raster) : (s.modRaster k f).glb = s.glb := rfl

theorem exec_inputSignalTimeout_of_silent (hk : 16 ≤ k) (hu : s.rasterUsed k = true) (hp : s.packetsLately k = false) :
    exec (.inputSignalTimeout k) s = .next ((s.modRaster k Raster.forget).setInState k .absent) := by
  simp [exec_inputSignalTimeout, execInputSignalTimeout, show ¬ k < 16 by omega, hu, hp]

/-- A DisplayPort sink takes the frames of an ACTIVE link. -/
structure State.TakesFrames (s : State) (k : Nat) : Prop where
  input : 16 ≤ k
  dp : k < 20
  up : s.linksUp = true
  used : s.rasterUsed k = true
  active : (s.dpi (k - 16)).link = .active

theorem exec_inputFrameStart_of_other_format (h : s.TakesFrames k) (x : Nat) :
    exec (.inputFrameStart k (.dp x) false) s = .next ((s.modRaster k Raster.forget).setInState k .acquiring) := by
  obtain ⟨input, dp, up, used, active⟩ := h
  simp [exec_inputFrameStart, execInputFrameStart, stampStart, input, dp, up, used, active]

/-- The first frame that a raster measures counts as one in sequence, so the raster is ACQUIRING. -/
theorem Raster.nextState_measure_first (r : Raster) (n : Int) (x : Nat) : (r.measure n x true).nextState n x = .acquiring := rfl

theorem State.sendTiming_of_not_lead (h : s.glb.role ≠ .lead) : s.sendTiming k = s := by
  simp [State.sendTiming, h]

theorem State.fedBy_of_none (h : s.enc = []) : s.fedBy k = [] := by
  simp [State.fedBy, h]

/-- What follows a measured frame does nothing where no entry, transaction or stream waits for it and the part is no lead. -/
theorem State.followFrame_of_none (hev : s.ras.events = []) (htx : s.txn.txns = []) (henc : s.enc = []) (hrole : s.glb.role ≠ .lead)
    (m : Int) (f : Nat → State → State) : ((s.passOver k m).each ((s.passOver k m).fedBy k) f).sendTiming k = s := by
  rw [State.passOver_of_none hev htx, State.fedBy_of_none henc]
  exact State.sendTiming_of_not_lead hrole

/-- A first measured frame leads to ACQUIRING, where no stream, entry or transaction waits for the frame. -/
theorem exec_inputFrameStart_of_first (h : s.TakesFrames k) (x : Nat) (hm : (s.raster k).measured = false)
    (hev : s.ras.events = []) (htx : s.txn.txns = []) (henc : s.enc = []) (hrole : s.glb.role ≠ .lead) :
    exec (.inputFrameStart k (.dp x) true) s =
      .next ((s.modRaster k (Raster.measure (frameCount (s.raster k).fmt x) x true)).setInState k .acquiring) := by
  obtain ⟨input, dp, up, used, active⟩ := h
  have takes : (!s.linksUp || decide (k < 16) || !s.rasterUsed k || (decide (k < 20) && (s.dpi (k - 16)).link != .active)) = false := by
    simp [up, used, active, show ¬ k < 16 by omega]
  simp only [exec_inputFrameStart, execInputFrameStart, stampStart, if_pos dp, takes, hm, Bool.false_and, Bool.not_false, Bool.false_or,
    State.modRaster_same, Raster.nextState_measure_first, Bool.not_true, Bool.false_eq_true, if_false]
  rw [State.followFrame_of_none (by simpa using hev) (by simpa using htx) (by simpa using henc) (by simpa using hrole)]

theorem State.packetsLately_of_silent
    (h : 20 ≤ k → max (s.stitch (256 + k)).lastA (s.stitch (256 + k)).lastB = 0 ∨
      max (s.stitch (256 + k)).lastA (s.stitch (256 + k)).lastB + 2 * fmtPeriod (s.raster k).fmt ≤ s.now) :
    s.packetsLately k = false := by
  by_cases hk : 20 ≤ k
  · rcases h hk with h | h
    · simp [State.packetsLately, h]
    · simp [State.packetsLately, Nat.not_lt.mpr h]
  · simp [State.packetsLately, hk]

/-- What an update of a raster and a change of its state leave of it and of the others. -/
theorem State.modRaster_setInState (k : Nat) (f : Raster → Raster) (st : InState) :
    ((s.modRaster k f).setInState k st).raster k = { f (s.raster k) with inState := st } ∧
      ∀ j, k ≠ j → ((s.modRaster k f).setInState k st).raster j = s.raster j :=
  ⟨by rw [State.setInState_same, State.modRaster_same],
    fun j h => (State.setInState_other h st).trans (State.modRaster_other s f h)⟩

end

/-- Settles O12: a lost signal, a frame of another format and a first measured frame, each by the raster that it leaves. -/
theorem inputRasters : Obligations.InputRasters := by
  refine ⟨?lost, ?other, ?first⟩
  case lost =>
    intro s k hk hu hst hp
    obtain ⟨same, others⟩ := State.modRaster_setInState (s := s) k Raster.forget .absent
    exact ⟨_, exec_inputSignalTimeout_of_silent hk hu (State.packetsLately_of_silent hp), by rw [same], by rw [same]; rfl,
      by rw [same]; rfl, State.setInState_latch (by simpa [Raster.forget] using hst), others⟩
  case other =>
    intro s k x hk hdp hup hu hl hst
    obtain ⟨same, others⟩ := State.modRaster_setInState (s := s) k Raster.forget .acquiring
    exact ⟨_, exec_inputFrameStart_of_other_format ⟨hk, hdp, hup, hu, hl⟩ x, by rw [same], by rw [same]; rfl,
      State.setInState_latch (by simpa [Raster.forget] using hst), others⟩
  case first =>
    intro s k x hk hdp hup hu hl hev htx henc hrole hm
    obtain ⟨same, others⟩ := State.modRaster_setInState (s := s) k (Raster.measure (frameCount (s.raster k).fmt x) x true) .acquiring
    exact ⟨_, exec_inputFrameStart_of_first ⟨hk, hdp, hup, hu, hl⟩ x hm hev htx henc hrole, by rw [same]; rfl, by rw [same]; rfl,
      by rw [same]; rfl, by rw [same]; rfl, by rw [same], others⟩

/-! Realignment and retiming (R51, R52). -/

section
variable {k : Nat}

theorem exec_rasterRealign_of_due (hk : k < 16) (hr : (s.raster k).realign = true) (hu : s.rasterUsed k = true)
    (hl : (s.raster k).line + 1 = (s.raster k).fmt.lt) (hev : s.ras.events = []) (htx : s.txn.txns = []) :
    exec (.rasterRealign k) s = .next (s.modRaster k (fun r => { r with
      realign := false, frame := (nextFrame (s.raster k).fmt s.time - 1).toNat })) := by
  simp only [exec_rasterRealign, execRasterRealign, hr, hu, hl, show ¬ 16 ≤ k by omega, decide_false, Bool.not_true, Bool.or_self, ne_eq,
    not_true_eq_false, Bool.false_eq_true, if_false]
  rw [State.passOver_of_none (by simpa using hev) (by simpa using htx)]

/-- The update of a raster's format as a committed change takes effect. -/
def Raster.take (f : RasterFmt) (r : Raster) : Raster := { r with fmt := { f with inUse := true }, change := .none }

/-- A DisplayPort source is to send another pixel format than it does. -/
abbrev State.videoChanges (s : State) (k : Nat) : Prop :=
  k < 8 ∧ (s.dpo k).video ≠ (s.dpo k).format ++ BitVec.ofBool (s.dpo k).range ++ BitVec.ofBool (s.dpo k).depth

theorem exec_rasterRetimed_of_input {f : RasterFmt} (hk : 16 ≤ k) (hr : s.retimable k f = true) :
    exec (.rasterRetimed k f) s = .next ((s.modRaster k (Raster.take f)).reacquire k) := by
  simp only [exec_rasterRetimed, execRasterRetimed, hr, hk, Bool.not_true, Bool.false_eq_true, if_false, if_true]
  rfl

theorem exec_rasterRetimed_of_phase {f : RasterFmt} (hk : k < 16) (hr : s.retimable k f = true)
    (hp : samePhaseApart (s.raster k).fmt { f with inUse := true } = true) (hv : ¬ s.videoChanges k) :
    exec (.rasterRetimed k f) s =
      .next (((s.modRaster k (Raster.take f)).modRaster k (fun r => { r with realign := true })).raise .rasterRetimed [i16 k]) := by
  simp only [exec_rasterRetimed, execRasterRetimed, hr, hp, show ¬ 16 ≤ k by omega, decide_eq_false hv, Bool.not_true,
    Bool.false_eq_true, if_false, Bool.not_false, Bool.and_self, if_true]
  rfl

theorem exec_rasterRetimed_of_format {f : RasterFmt} (hk : k < 16) (hr : s.retimable k f = true)
    (h : samePhaseApart (s.raster k).fmt { f with inUse := true } = false ∨ s.videoChanges k) :
    exec (.rasterRetimed k f) s = .next ((s.modRaster k (Raster.take f)).startRetiming k) := by
  have other : (samePhaseApart (s.raster k).fmt { f with inUse := true } && !decide (s.videoChanges k)) = false := by
    rcases h with h | h <;> simp [h]
  simp only [exec_rasterRetimed, execRasterRetimed, hr, show ¬ 16 ≤ k by omega, Bool.not_true, Bool.false_eq_true, if_false]
  rw [if_neg (Bool.eq_false_iff.mp other)]
  rfl

/-! The link of a source port that retimes (R52, R174, R180). -/

@[simp] theorem State.setDpoLink_ras (n : Nat) (st : DpoLink) : (s.setDpoLink n st).ras = s.ras :=
  State.setDpoLink_keeps (keeps_ras (by decide)) rfl

@[simp] theorem State.setDpoLink_outP (n : Nat) (st : DpoLink) (j : Nat) : (s.setDpoLink n st).outP j = s.outP j := by
  unfold State.setDpoLink
  split <;> rfl

@[simp] theorem State.setDpoLink_same (n : Nat) (st : DpoLink) : (s.setDpoLink n st).dpo n = { s.dpo n with link := st } := by
  unfold State.setDpoLink
  split
  next h => rw [← h]
  next => exact State.modDpo_same s n _

/-- The bandwidth that a raster needs rests on its format and on the pixel format that its port sends. -/
theorem State.enough_congr {t : State} (hr : (t.raster k).fmt = (s.raster k).fmt) (hv : (t.dpo k).video = (s.dpo k).video) :
    t.enough k = s.enough k := by
  funext l
  rw [State.enough, State.bandwidth, hr, hv]
  rfl

/-- The port of a raster that enters RETIMING sends no video. -/
def State.silence (s : State) (k : Nat) : State :=
  (s.modRaster k (fun r => { r with retiming := true })).modOutP k (fun y => { y with wire := none })

/-- What a DisplayPort source is to send, in the pixel format configured. -/
def State.takeVideo (s : State) (k : Nat) : State :=
  s.modDpo k (fun p => { p with video := p.format ++ BitVec.ofBool p.range ++ BitVec.ofBool p.depth })

/-- R180: a source whose link is trained goes on with it where it is wide enough, and trains again where it is not. -/
def State.retimeLink (s : State) (k : Nat) : State :=
  if (s.dpo k).link = .active ∨ (s.dpo k).link = .short then
    s.setDpoLink k (if s.enough k ((s.dpo k).linkRate, (s.dpo k).lanes) then .retiming else .training)
  else s

theorem State.startRetiming_eq (k : Nat) (s : State) :
    s.startRetiming k =
      ((if k < 8 then ((s.silence k).takeVideo k).retimeLink k else s.silence k).dropMisfits k).raise .rasterRetimed [i16 k] := rfl

@[simp] theorem State.retimeLink_ras (s : State) (k : Nat) : (s.retimeLink k).ras = s.ras := by
  unfold State.retimeLink
  split
  · exact State.setDpoLink_ras _ _
  · rfl

@[simp] theorem State.retimeLink_outP (s : State) (k j : Nat) : (s.retimeLink k).outP j = s.outP j := by
  unfold State.retimeLink
  split
  · exact State.setDpoLink_outP _ _ _
  · rfl

theorem State.retimeLink_dpo (hl : (s.dpo k).link = .active ∨ (s.dpo k).link = .short) :
    (s.retimeLink k).dpo k =
      { s.dpo k with link := if s.enough k ((s.dpo k).linkRate, (s.dpo k).lanes) then .retiming else .training } := by
  rw [State.retimeLink, if_pos hl, State.setDpoLink_same]

theorem State.retimeLink_enough (hl : (s.dpo k).link = .active ∨ (s.dpo k).link = .short) : (s.retimeLink k).enough k = s.enough k :=
  State.enough_congr (by rw [State.raster, State.retimeLink_ras]; rfl) (by rw [State.retimeLink_dpo hl])

/-- What the port of a raster that enters RETIMING becomes. -/
def State.retimePort (s : State) (k : Nat) : State :=
  if k < 8 then ((s.silence k).takeVideo k).retimeLink k else s.silence k

theorem State.retimePort_ras (s : State) (k : Nat) : (s.retimePort k).ras = (s.modRaster k (fun r => { r with retiming := true })).ras := by
  unfold State.retimePort
  split
  · exact State.retimeLink_ras _ _
  · rfl

theorem State.retimePort_wire (s : State) (k : Nat) : ((s.retimePort k).outP k).wire = none := by
  have silent : ((s.silence k).outP k).wire = none := by rw [State.silence, State.modOutP_same]
  unfold State.retimePort
  split
  · rw [State.retimeLink_outP]
    exact silent
  · exact silent

/-- A trained source goes on or trains again, as the bandwidth of the new format on its link decides. -/
theorem State.retimePort_link (hk : k < 8) (hl : (s.dpo k).link = .active ∨ (s.dpo k).link = .short) :
    ((s.retimePort k).dpo k).link =
      if (s.retimePort k).enough k ((s.dpo k).linkRate, (s.dpo k).lanes) then .retiming else .training := by
  have video : ((s.silence k).takeVideo k).dpo k =
      { s.dpo k with video := (s.dpo k).format ++ BitVec.ofBool (s.dpo k).range ++ BitVec.ofBool (s.dpo k).depth } := by
    rw [State.takeVideo, State.modDpo_same]
    rfl
  have trained : (((s.silence k).takeVideo k).dpo k).link = .active ∨ (((s.silence k).takeVideo k).dpo k).link = .short := by
    rwa [video]
  rw [State.retimePort, if_pos hk, State.retimeLink_enough trained, State.retimeLink_dpo trained, video]

theorem State.startRetiming_of_no_events (hev : s.ras.events = []) (k : Nat) :
    s.startRetiming k = (s.retimePort k).raise .rasterRetimed [i16 k] := by
  have none : (s.retimePort k).ras.events = [] := by rw [State.retimePort_ras]; exact hev
  rw [State.startRetiming_eq]
  exact congrArg _ (State.dropMisfits_of_none none)

/-! An input raster whose format changes (R52, R176). -/

/-- Rasters read alike where the raster time unit is the same. -/
theorem State.raster_congr {t : State} (h : t.ras = s.ras) (j : Nat) : t.raster j = s.raster j := by
  rw [State.raster, State.raster, h]

@[simp] theorem State.latch_raster (n j : Nat) : (s.latch n).raster j = s.raster j := rfl
@[simp] theorem State.raise_raster (id : EventId) (items : List Item) (j : Nat) : (s.raise id items).raster j = s.raster j := rfl
@[simp] theorem State.modDpi_raster (n : Nat) (f : DpiPort → DpiPort) (j : Nat) : (s.modDpi n f).raster j = s.raster j := rfl

@[simp] theorem State.setDpiLink_raster (n : Nat) (st : DpiLink) (j : Nat) : (s.setDpiLink n st).raster j = s.raster j :=
  State.raster_congr (State.setDpiLink_keeps (keeps_ras (by decide)) rfl) j

@[simp] theorem State.raiseFrame_raster (k : Nat) (id : EventId) (items : List Item) (j : Nat) :
    (s.raiseFrame k id items).raster j = s.raster j :=
  State.raster_congr (State.raiseFrame_keeps (keeps_ras (by decide)) rfl) j

/-- Losing its measurement again changes no raster where one has none and is ACQUIRING. -/
theorem State.forget_acquiring_raster (hf : (s.raster k).forget = s.raster k) (hst : (s.raster k).inState = .acquiring) (j : Nat) :
    ((s.modRaster k Raster.forget).setInState k .acquiring).raster j = s.raster j := by
  obtain ⟨same, others⟩ := State.modRaster_setInState (s := s) k Raster.forget .acquiring
  by_cases h : k = j
  · rw [← h, same, hf, ← hst]
  · exact others j h

/-- A stream that arrives leaves the rasters as they are where its own has no measurement and is ACQUIRING, whether it fits or is
refused. -/
theorem State.judgeStream_raster {n : Nat} (m : MainStream) (hf : (s.raster (16 + n)).forget = s.raster (16 + n))
    (hst : (s.raster (16 + n)).inState = .acquiring) (j : Nat) : (s.judgeStream n m).raster j = s.raster j := by
  unfold State.judgeStream
  dsimp only
  split
  · simp only [State.setDpiLink_raster, hst, reduceCtorEq, if_false]
  · rw [State.raiseFrame_raster, State.forget_acquiring_raster] <;>
      simp only [State.latch_raster, State.setDpiLink_raster, State.modDpi_raster]
    · exact hf
    · exact hst

theorem State.reacquire_raster (hk : 16 ≤ k) (hev : s.ras.events = []) :
    (s.reacquire k).raster k = { (s.raster k).forget with inState := .acquiring } ∧
      ∀ j, k ≠ j → (s.reacquire k).raster j = s.raster j := by
  obtain ⟨same, others⟩ := State.modRaster_setInState (s := s) k Raster.forget .acquiring
  have kept : ((s.modRaster k Raster.forget).setInState k .acquiring).dropMisfits k =
      (s.modRaster k Raster.forget).setInState k .acquiring := State.dropMisfits_of_none (by simpa using hev)
  have judged (j : Nat) : (s.reacquire k).raster j = ((s.modRaster k Raster.forget).setInState k .acquiring).raster j := by
    have here : ((s.modRaster k Raster.forget).setInState k .acquiring).raster (16 + (k - 16)) =
        { (s.raster k).forget with inState := .acquiring } := by rw [Nat.add_sub_cancel' hk, same]
    rw [State.reacquire, kept]
    split
    · exact State.raise_raster _ _ j
    · split
      · rw [State.judgeStream_raster, State.raise_raster] <;> rw [State.raise_raster, here]
        rfl
      · exact State.raise_raster _ _ j
  exact ⟨by rw [judged, same], fun j h => by rw [judged, others j h]⟩

/-! The end of a retiming (R52, R180). -/

/-- The raster begins line 0 of frame `f`. -/
def Raster.restart (f : Nat) (r : Raster) : Raster := { r with retiming := false, realign := false, frame := f, line := 0 }

/-- The frame of R38 in progress. -/
def State.frameInProgress (s : State) (k : Nat) : Nat := (fmtPosition (s.raster k).fmt s.time / ((s.raster k).fmt.lt : Int)).toNat

/-- The raster goes on in its new format, and a link that waited for it is ACTIVE again. -/
def State.endRetiming (s : State) (k : Nat) : State :=
  if k < 8 ∧ (s.dpo k).link = .retiming then (s.modRaster k (Raster.restart (s.frameInProgress k))).setDpoLink k .active
  else s.modRaster k (Raster.restart (s.frameInProgress k))

theorem exec_retimingEnd_of_none (hk : k < 16) (hr : (s.raster k).retiming = true) (hev : s.ras.events = []) (htx : s.txn.txns = []) :
    exec (.retimingEnd k) s = .next (s.endRetiming k) := by
  simp only [exec_retimingEnd, execRetimingEnd, hr, show ¬ 16 ≤ k by omega, decide_false, Bool.not_true, Bool.or_self,
    Bool.false_eq_true, if_false]
  rw [State.passOver_of_none (by simpa using hev) (by simpa using htx)]
  rfl

@[simp] theorem State.setDpoLink_raster (n : Nat) (st : DpoLink) (j : Nat) : (s.setDpoLink n st).raster j = s.raster j :=
  State.raster_congr (State.setDpoLink_ras n st) j

theorem State.endRetiming_raster (j : Nat) :
    (s.endRetiming k).raster j = (s.modRaster k (Raster.restart (s.frameInProgress k))).raster j := by
  unfold State.endRetiming
  split
  · exact State.setDpoLink_raster k .active j
  · rfl

end

/-- A format that another differs from in PHASE alone. -/
theorem samePhaseApart_of_eq {a b : RasterFmt} (h : a = { b with phase := a.phase }) : samePhaseApart a b = true := by
  rw [samePhaseApart, beq_iff_eq, h]

/-- Settles O13: the realignment, the three ways in which a committed change takes effect, and the end of a retiming. -/
theorem rasterChanges : Obligations.RasterChanges := by
  refine ⟨?realigned, ?phase, ?format, ?input, ?retimed⟩
  case realigned =>
    intro s k hk hr hu hl hev htx
    exact ⟨_, exec_rasterRealign_of_due hk hr hu hl hev htx, by rw [State.modRaster_same], by rw [State.modRaster_same],
      by rw [State.modRaster_same]; exact hl, fun j h => State.modRaster_other s _ h⟩
  case phase =>
    intro s k f hk hr hv hf
    refine ⟨_, exec_rasterRetimed_of_phase hk hr (samePhaseApart_of_eq hf) (fun h => h.2 (hv h.1)), ?_, fun j h => ?_⟩
    · rw [State.raise_raster, State.modRaster_same, State.modRaster_same]
      rfl
    · rw [State.raise_raster, State.modRaster_other _ _ h, State.modRaster_other _ _ h]
  case format =>
    intro s k f hk hr hev h
    let u := s.modRaster k (Raster.take f)
    have retimed (j : Nat) : (u.retimePort k).raster j = (u.modRaster k (fun r => { r with retiming := true })).raster j :=
      State.raster_congr (State.retimePort_ras u k) j
    refine ⟨(u.retimePort k).raise .rasterRetimed [i16 k], ?_, ?_, State.retimePort_wire u k, fun hk8 hl => State.retimePort_link hk8 hl,
      fun j hj => ?_⟩
    · rw [exec_rasterRetimed_of_format hk hr h, State.startRetiming_of_no_events (by simpa using hev)]
    · rw [State.raise_raster, retimed, State.modRaster_same, State.modRaster_same]
      rfl
    · rw [State.raise_raster, retimed, State.modRaster_other _ _ hj, State.modRaster_other _ _ hj]
  case input =>
    intro s k f hk hr hev
    obtain ⟨same, others⟩ := State.reacquire_raster (s := s.modRaster k (Raster.take f)) hk hev
    refine ⟨_, exec_rasterRetimed_of_input hk hr, ?_, fun j h => (others j h).trans (State.modRaster_other s _ h)⟩
    rw [same, State.modRaster_same]
    rfl
  case retimed =>
    intro s k hk hr hev htx
    have same : (s.endRetiming k).raster k = Raster.restart (s.frameInProgress k) (s.raster k) := by
      rw [State.endRetiming_raster, State.modRaster_same]
    refine ⟨_, exec_retimingEnd_of_none hk hr hev htx, ?_, ?_, ?_, ?_, fun j h => ?_⟩
    case refine_5 => rw [State.endRetiming_raster, State.modRaster_other s _ h]
    all_goals rw [same]; rfl

end Sys2Proof.Machine
end

section
/-! PROOF. The start of a line of a DisplayPort output raster: the line, what its port sends, and the entries that fire on it (R43 to R46,
R171, R175). -/

namespace Sys2Proof.Machine

variable {s : State} {p : LinePos}

/-! What a line runs (R46). -/

theorem State.wakeRise_of_not_rest {t : State} (h : t.glb.mode ≠ .rest) : State.wakeRise s t = t := by
  simp [State.wakeRise, h]

/-- One line of an output raster, where no transaction waits: its entries fire, and its port sends the line. -/
theorem exec_lineStart_of_output (hup : s.linksUp = true) (hr : s.reaches p = true) (hk : p.raster < 16) (htx : s.txn.txns = []) :
    exec (.lineStart [p]) s =
      .next (State.wakeRise s (((s.enterLine p).actAll ((s.enterLine p).firings [p])).outputLine p)) := by
  have here : [p].filter s.reaches = [p] := by simp [hr]
  have due : (s.enterLine p).txnsDue [p] = [] := State.txnsDue_of_none htx _
  rw [exec_lineStart, execLineStart]
  simp only [hup, here, due, Bool.not_true, Bool.false_eq_true, if_false, State.each, List.foldl_cons, List.foldl_nil, hk, if_true]

/-- At a line other than 0 and LA, a DisplayPort output does no more than send it. -/
theorem State.outputLine_of_inner (hk : p.raster < 8) (h0 : p.line ≠ 0) (hla : p.line ≠ (s.raster p.raster).fmt.la) :
    s.outputLine p = s.portLine p := by
  have fmt : ((s.portLine p).raster p.raster).fmt = (s.raster p.raster).fmt := by
    unfold State.portLine
    split <;> rfl
  simp only [State.outputLine, h0, show ¬ 8 ≤ p.raster by omega, fmt, hla, if_false, ne_eq, not_false_eq_true, if_true]

theorem State.portLine_glb (p : LinePos) (s : State) : (s.portLine p).glb = s.glb := by
  unfold State.portLine
  split <;> rfl

theorem State.portLine_ras (p : LinePos) (s : State) : (s.portLine p).ras = s.ras := by
  unfold State.portLine
  split <;> rfl

theorem State.enterLine_fmt (p : LinePos) (s : State) : ((s.enterLine p).raster p.raster).fmt = (s.raster p.raster).fmt := by
  rw [State.enterLine, State.modRaster_same]

/-- Entries read alike where the raster time unit is the same. -/
theorem State.lineEvent_congr {t : State} (h : t.ras = s.ras) (m : Nat) : t.lineEvent m = s.lineEvent m := by
  rw [State.lineEvent, State.lineEvent, h]

/-! No entry on the line. -/

theorem State.firings_of_none (h : s.ras.events = []) (ps : List LinePos) : s.firings ps = [] := by
  simp [State.firings, h, List.flatMap_eq_nil_iff.mpr]

theorem State.actAll_nil (s : State) : s.actAll [] = s := rfl

/-! One entry in the table that fires on the line (R43 to R45). -/

section
variable {n : Nat} {e : LineEvent}

theorem State.firings_of_one (hev : s.ras.events = [(n, e)]) (hk : p.raster < 16)
    (hf : e.fires (s.raster p.raster).fmt p = true) (hr : s.reloading 376 n = false) : s.firings [p] = [⟨n, e, p⟩] := by
  simp [State.firings, hev, hf, hr, show ¬ 16 ≤ p.raster by omega]

/-- An Every entry fires at its line, whatever the frame. -/
theorem LineEvent.fires_of_every {fmt : RasterFmt} (hv : e.valid = true) (hr : e.raster.toNat = p.raster) (hm : e.mode = 0)
    (hl : e.line.toNat = p.line) : e.fires fmt p = true := by
  simp [LineEvent.fires, hv, hr, hm, hl]

/-- R43, R44, R48: what the table records of a firing of an entry that held `e` as the line began. -/
def LineEvent.recorded (e x : LineEvent) : LineEvent :=
  { x with fired := true, count := x.count + 1, valid := x.valid && e.mode != 1, late := x.late || e.latePend, latePend := false }

/-- A firing with ACTION 7 of an entry that is not late: its records, and the PTP time in the register that ARG names. -/
def State.stampFiring (n : Nat) (e : LineEvent) (s : State) : State :=
  (s.modLineEvent n (LineEvent.recorded e)).modRas (fun r => { r with stamps := r.stamps.put 0 (e.arg.toNat % 16) s.ptp })

theorem State.recordFiring_of_not_late (hl : e.latePend = false) :
    s.recordFiring ⟨n, e, p⟩ = s.modLineEvent n (LineEvent.recorded e) := by
  rw [State.recordFiring, hl]
  exact congrArg (fun f => s.modLineEvent n f) (funext fun x => by rw [LineEvent.recorded, hl])

@[simp] theorem State.modLineEvent_ptp (f : LineEvent → LineEvent) : (s.modLineEvent n f).ptp = s.ptp := rfl

theorem State.actAll_of_stamp (h : e.action = 7) (hl : e.latePend = false) : s.actAll [⟨n, e, p⟩] = s.stampFiring n e := by
  simp [State.actAll, State.act, State.recordFiring_of_not_late hl, State.stampFiring, actionOrder, h, State.each, State.whenB]

theorem State.stampFiring_lineEvent (s : State) :
    (s.stampFiring n e).lineEvent n = e.recorded (s.lineEvent n) :=
  State.modLineEvent_same s n _

theorem State.stampFiring_stamps (s : State) : (s.stampFiring n e).ras.stamps.look 0 (e.arg.toNat % 16) = s.ptp :=
  Tbl.look_put_same _ _ _ _

theorem State.stampFiring_raster (s : State) (j : Nat) : (s.stampFiring n e).raster j = s.raster j := rfl
theorem State.stampFiring_glb (s : State) : (s.stampFiring n e).glb = s.glb := rfl

theorem State.lineEvent_of_one (hev : s.ras.events = [(n, e)]) : s.lineEvent n = e := by
  simp [State.lineEvent, hev, Tbl.look]

end

/-- Settles O11: the line of an empty table, and the one entry with ACTION 7 that fires. -/
theorem lineStarts : Obligations.LineStarts := by
  intro s u p hu hup hr hk h0 hla htx hmode
  have entered : s.enterLine p = u := by
    rw [hu, State.enterLine, decide_eq_true (show p.raster < 16 by omega)]
  have fmt : (u.raster p.raster).fmt = (s.raster p.raster).fmt := by rw [← entered, State.enterLine_fmt]
  have glb : u.glb = s.glb := by rw [hu, State.modRaster_glb]
  have ran := exec_lineStart_of_output hup hr (by omega) htx
  rw [entered] at ran
  refine ⟨fun hev => ?none, fun n e hev hv hraster hlate hm hline haction hreload _ => ?stamp⟩
  case none =>
    have events : u.ras.events = [] := by rw [hu, State.modRaster_events, hev]
    rw [ran, State.firings_of_none events, State.actAll_nil, State.outputLine_of_inner hk h0 (by rwa [fmt]),
      State.wakeRise_of_not_rest (by rwa [State.portLine_glb, glb]), State.portLine, fmt]
  case stamp =>
    have events : u.ras.events = [(n, e)] := by rw [hu, State.modRaster_events, hev]
    have fires : u.firings [p] = [⟨n, e, p⟩] :=
      State.firings_of_one events (by omega) (LineEvent.fires_of_every hv hraster hm hline) (by rw [hu]; exact hreload)
    have ras : ((u.stampFiring n e).portLine p).ras = (u.stampFiring n e).ras := State.portLine_ras p _
    have entry : ((u.stampFiring n e).portLine p).lineEvent n = e.recorded e := by
      rw [State.lineEvent_congr ras, State.stampFiring_lineEvent, State.lineEvent_of_one events]
    refine ⟨(u.stampFiring n e).portLine p, ?_, ?_, ?_, ?_, ?_, ?_⟩
    · have inner : p.line ≠ ((u.stampFiring n e).raster p.raster).fmt.la := by rwa [State.stampFiring_raster, fmt]
      have awake : ((u.stampFiring n e).portLine p).glb.mode ≠ .rest := by rwa [State.portLine_glb, State.stampFiring_glb, glb]
      rw [ran, fires, State.actAll_of_stamp haction hlate, State.outputLine_of_inner hk h0 inner, State.wakeRise_of_not_rest awake]
    · rw [entry, LineEvent.recorded]
    · rw [entry, LineEvent.recorded]
    · simp [entry, LineEvent.recorded, hv, hm]
    · rw [ras, State.stampFiring_stamps, hu]
      rfl
    · rw [State.raster_congr ras, State.stampFiring_raster, hu, State.modRaster_same]

end Sys2Proof.Machine
end

section
/-! PROOF. What an encode stream codes from as its rows are issued and completed (R49, R103, R104, R109 to R124): its configuration, its
pictures, its reference picture and qp_prev, which events, packets, pages and checksums leave as they are. -/

namespace Sys2Proof.Machine

variable {s : State} {i : Nat}

/-! What a stream codes from. -/

/-- What the coding of a stream's rows goes on from. -/
structure Coding where
  cfg : EncCfg
  pics : List EncPic
  recon : Tbl Samples
  qpPrev : Int

def EncStream.coding (e : EncStream) : Coding := ⟨e.cfg, e.pics, e.recon, e.qpPrev⟩

/-- Stream `i` codes from `x`. -/
def State.Codes (i : Nat) (x : Coding) (s : State) : Prop := (s.encS i).coding = x

theorem State.encS_congr {t : State} (h : t.enc = s.enc) (j : Nat) : t.encS j = s.encS j := by
  rw [State.encS, State.encS, h]

section
variable {x : Coding} {j : Nat}

/-- The updates of the other components leave what a stream codes from. -/
theorem codes_keeps {l : List Comp} (h : l.contains .enc = false) : Keeps l (State.Codes i x) := by
  intro c hc
  cases c
  case enc => exact absurd hc (by simpa using h)
  case hq | fsh | irc | tck => exact fun _ _ _ k => k
  all_goals exact fun _ _ k => k

/-- So does the update of a stream that leaves it for that stream. -/
theorem State.Codes.modEncS {f : EncStream → EncStream} (k : s.Codes i x) (h : ∀ e, (f e).coding = e.coding := by intro; rfl) :
    (s.modEncS j f).Codes i x := by
  by_cases hj : j = i
  · subst hj
    exact (congrArg _ (State.modEncS_same s j f)).trans ((h _).trans k)
  · exact (congrArg _ (State.modEncS_other s f hj)).trans k

namespace State.Codes

variable (k : s.Codes i x)
include k

theorem encEvent (pc : BitVec 32) (id : EventId) (items : List Item) : (s.encEvent j pc id items).Codes i x :=
  ite_keeps k (State.raiseP_keeps (codes_keeps (by decide)) k.modEncS)

theorem rowEvents (g : RowForm) (cand : List Nat) : (s.rowEvents j g cand).Codes i x := by
  have first := ite_keeps (c := (g.zero || (cand.filter (fun x => !g.kept.contains x)).isEmpty) = true) k
    (k.encEvent (j := j) g.pic.picCount .valueTileDeferred [i32 (cand.filter (fun x => !g.kept.contains x)).length,
      tileItem g.cfg.cols (g.cfg.cols * g.row +
        (cand.filter (fun x => !g.kept.contains x)).foldl min ((cand.filter (fun x => !g.kept.contains x)).headD 0))])
  exact ite_keeps (first.encEvent g.pic.picCount .videoRowHeld [i32 g.row, i16 g.stage]) first

theorem rowPacket (p : EncPic) (last : Bool) (y : List Byte × PayKind) : (s.rowPacket j p last y).Codes i x :=
  ite_keeps (State.sendCopies_keeps (codes_keeps (by decide)) k.modEncS) (k.modEncS.modEncS)

theorem rowPackets (p : EncPic) (nals : List (List Byte)) (ends : Bool) : (s.rowPackets j p nals ends).Codes i x :=
  State.each_keeps (fun _ _ k => k.rowPacket _ _ _) k

/-! Pages (R288 to R290). -/

theorem pageEntry : (s.pageEntry j).Codes i x := by
  unfold State.pageEntry
  split
  · split
    · exact ite_keeps k (State.modHqQ_keeps (codes_keeps (by decide))
        ((State.cqPut_keeps (codes_keeps (by decide)) k : State.Codes i x _).modEncS))
    · exact k
  · exact k

theorem pageDone (st : Status) : (s.pageDone j st).Codes i x := by
  unfold State.pageDone
  split
  · exact ite_keeps k k.modEncS.pageEntry
  · exact k

theorem fillPage : (s.fillPage j).Codes i x := by
  unfold State.fillPage
  dsimp only
  split
  · refine ite_keeps k ?_
    have written (a : Nat) (bs : List Byte) : (s.hostWrite a bs).Codes i x := State.hostWrite_keeps (codes_keeps (by decide)) k
    exact ite_keeps (((written _ _).modEncS).pageDone _) ((written _ _).modEncS)
  · exact k

theorem limited {id : EventId} {src ns : Nat} {f : State → State} (h : ∀ t, State.Codes i x t → State.Codes i x (f t)) :
    (s.limited id src ns f).Codes i x :=
  State.limited_keeps (codes_keeps (by decide)) h k

theorem raiseP (p : Nat) (id : EventId) (items : List Item) : (s.raiseP p id items).Codes i x :=
  State.raiseP_keeps (codes_keeps (by decide)) k

theorem raise (id : EventId) (items : List Item) : (s.raise id items).Codes i x :=
  State.raise_keeps (codes_keeps (by decide)) k

theorem beginDrop : (s.beginDrop j).Codes i x :=
  ite_keeps k (((k.pageDone .success).modEncS).limited fun _ k => k.raiseP _ _ _)

theorem endDrop : (s.endDrop j).Codes i x :=
  (k.modEncS (f := fun e => { e with dropping := false, resumeReq := false })).limited fun _ k => k.raiseP _ _ _

theorem ageTest : (s.ageTest j).Codes i x := ite_keeps k.beginDrop k

theorem claimOut : (s.claimOut j).Codes i x := by
  have based (b : Option Nat) : (s.modEncS j (fun x => { x with outBase := b })).Codes i x := k.modEncS
  exact ite_keeps k (based _)

theorem stageRow (pc : BitVec 32) (nals : List (List Byte)) (first last restart : Bool) :
    (s.stageRow j pc nals first last restart).Codes i x := by
  have begun : State.Codes i x (if ((s.claimOut j).encS j).dropping && ((s.claimOut j).encS j).resumeReq && first && restart &&
      !((s.claimOut j).encS j).restarts.any (fun r => r.2 == 1) then (s.claimOut j).endDrop j else s.claimOut j) :=
    ite_keeps k.claimOut.endDrop k.claimOut
  unfold State.stageRow
  refine ite_keeps ?dropping ?staging
  case dropping => exact fillPage (ite_keeps begun.modEncS (ite_keeps begun.modEncS begun))
  case staging =>
    refine ite_keeps (ageTest (fillPage (modEncS ?_))) (fillPage (modEncS ?_)) <;> exact ite_keeps begun.modEncS begun

/-! Checksums (R428). -/

theorem encRestart (t : T48) (trigger : Nat) : (s.encRestart j t trigger).Codes i x :=
  ite_keeps (State.gPut_keeps (codes_keeps (by decide)) k.modEncS) k.modEncS

theorem crcCheck (pc : BitVec 32) : (s.crcCheck j pc).Codes i x := by
  unfold State.crcCheck
  dsimp only
  split
  · refine ite_keeps ?same ?differ
    case same =>
      refine ite_keeps (modEncS (modEncS k)) (ite_keeps (limited ?_ fun _ k => k.raise _ _) ?_) <;>
        exact limited (modEncS (modEncS (modEncS k))) fun _ k => k.raiseP _ _ _
    case differ =>
      refine ite_keeps (encRestart ?_ _ _) ?_ <;>
        exact limited (State.latch_keeps (codes_keeps (by decide)) (modEncS (modEncS k))) fun _ k => k.raiseP _ _ _
  · exact ite_keeps k k.modEncS

/-! The row in flight and the picture that it ends. -/

/-- An operation that is done or not, as a condition has it. -/
theorem opt {c : Prop} [Decidable c] {f : State → State} (h : ∀ t, State.Codes i x t → State.Codes i x (f t)) :
    State.Codes i x (if c then f s else s) := ite_keeps (h s k) k

theorem optElse {c : Prop} [Decidable c] {f : State → State} (h : ∀ t, State.Codes i x t → State.Codes i x (f t)) :
    State.Codes i x (if c then s else f s) := ite_keeps k (h s k)

end State.Codes

end

section
variable {c : EncCfg} {p : EncPic} {r : List EncPic} {rc : Tbl Samples} {qp : Int}

theorem State.Codes.modHead (k : s.Codes i ⟨c, p :: r, rc, qp⟩) (f : EncPic → EncPic) :
    (s.modHead i f).Codes i ⟨c, f p :: r, rc, qp⟩ := by
  obtain ⟨hcfg, hpics, hrecon, hqp⟩ := Coding.mk.inj k
  simp [State.Codes, State.modHead, EncStream.coding, hcfg, hpics, hrecon, hqp]

/-- The oldest picture leaves the stream as it is complete. -/
theorem State.Codes.endPic (k : s.Codes i ⟨c, p :: r, rc, qp⟩) : (s.endPic i).Codes i ⟨c, r, rc, qp⟩ := by
  obtain ⟨hcfg, hpics, hrecon, hqp⟩ := Coding.mk.inj k
  have left (tb : EncStream → Option T48) (pos : EncStream → Nat) : ((s.freeCapture p).modEncS i (fun e => { e with
      pics := r, tb := tb e, sweepPos := pos e })).Codes i ⟨c, r, rc, qp⟩ := by
    have same : (s.freeCapture p).encS i = s.encS i := State.encS_congr (State.freeCapture_keeps (keeps_enc (by decide)) rfl) i
    simp [State.Codes, EncStream.coding, same, hcfg, hrecon, hqp]
  unfold State.endPic
  simp only [hpics]
  exact ite_keeps (crcCheck (State.gPut_keeps (codes_keeps (by decide)) (modEncS (left _ _))) _) (left _ _)

/-- A row that is committed ends its picture where it is the last. -/
theorem State.Codes.ended (k : s.Codes i ⟨c, p :: r, rc, qp⟩) (n : Nat) :
    State.Codes i ⟨c, if n = c.rows then r else p :: r, rc, qp⟩ (if decide (n = c.rows) then s.endPic i else s) := by
  by_cases h : n = c.rows
  · simpa [h] using k.endPic
  · simpa [h] using k

end

/-- A row committed in a form leaves the reference picture and qp_prev of the form, and its picture a row further or ended. -/
theorem State.commitForm_codes {p : EncPic} {r : List EncPic} (hp : (s.encS i).pics = p :: r) (g : RowForm) (cand : List Nat)
    (fl : BitVec 2) :
    ∃ q : EncPic, q.done = g.row + 1 ∧ q.cores = [] ∧ q.issued = p.issued ∧
      (s.commitForm i g cand fl).Codes i ⟨(s.encS i).cfg, if g.row + 1 = (s.encS i).cfg.rows then r else q :: r,
        ((s.encS i).keepTiles g).recon, g.qp⟩ := by
  have kept (full : Int) (bits8 : EncStream → List Nat) : (s.modEncS i (fun e => { e.keepTiles g with
      full := full, qpPrev := g.qp, bits8 := bits8 e })).Codes i ⟨(s.encS i).cfg, p :: r, ((s.encS i).keepTiles g).recon, g.qp⟩ := by
    simp [State.Codes, EncStream.coding, EncStream.keepTiles, hp]
  unfold State.commitForm
  refine ⟨?head, ?_, ?_, ?_, State.Codes.ended (State.Codes.opt (State.Codes.opt (State.Codes.rowEvents (State.Codes.optElse ?codes
    fun _ k => k.encEvent _ _ _) g cand) fun _ k => k.rowPackets _ _ _) fun _ k => k.stageRow _ _ _ _ _) (g.row + 1)⟩
  case codes => exact (kept _ _).modHead _
  all_goals rfl

end Sys2Proof.Machine
end

section
/-! PROOF. The commands of encode streams: release by the encoder itself, host-fed frames, and the issue and completion of rows (R49,
R58, R103 to R105, R109, R111, R122, R123). -/

namespace Sys2Proof.Machine

variable {s : State} {i : Nat}

/-! The commands of encode streams. -/

section
variable (s)

theorem exec_encodeSelfRelease (i : Nat) : exec (.encodeSelfRelease i) s = execEncodeSelfRelease i s := rfl
theorem exec_hostfedFrameStart (i : Nat) : exec (.hostfedFrameStart i) s = execHostfedFrameStart i s := rfl
theorem exec_encodeRowIssue (i c : Nat) : exec (.encodeRowIssue i c) s = execEncodeRowIssue i c s := rfl
theorem exec_encodeRowComplete (i : Nat) (x : CodedRow) : exec (.encodeRowComplete i x) s = execEncodeRowComplete i x s := rfl

end

/-! Pictures that join a stream and rows that it releases (R104, R105, R122). -/

/-- Nothing stands before the only picture of a stream, or before one that joins an empty stream. -/
theorem State.overtake_of_no_earlier {pc : BitVec 32} (h : (s.encS i).pics.takeWhile (fun p => p.picCount != pc) = []) (r : Nat) :
    s.overtake i pc r = s := by
  simp [State.overtake, h, State.each]

theorem State.ownRelease_of_only {p : EncPic} (hp : (s.encS i).pics = [p]) (hz : p.zeroMotion = true) :
    s.ownRelease i p = s.modEncPic i p.picCount (fun x => { x with
      own := true, released := p.released + 1
      deadline := p.deadline ++ [s.nominalTime (s.encS i).cfg p.frame p.released (s.encS i).cfg.allowance] }) := by
  have first : s.overtake i p.picCount p.released = s := State.overtake_of_no_earlier (by simp [hp]) _
  simp only [State.ownRelease, first, hz, if_true]

theorem exec_encodeSelfRelease_of_open {k : Nat} {p : EncPic} (hs : s.serving = true) (hst : (s.encS i).started = true)
    (hin : (s.encS i).cfg.input = some k) (ht : s.tracking (s.encS i).cfg.raster = false) (hp : (s.encS i).pics = [p])
    (hr : p.released < (s.encS i).cfg.rows) : exec (.encodeSelfRelease i) s = .next (s.ownRelease i p) := by
  have rows : (s.encS i).cfg.rows ≠ 0 := by omega
  simp [exec_encodeSelfRelease, execEncodeSelfRelease, hs, hst, hin, ht, hp, hr, rows]

/-- A picture that joins an empty stream is the only one, with every row released. -/
theorem State.addHostPic_of_empty (hp : (s.encS i).pics = []) (deadline : Nat) (p : EncPic) :
    s.addHostPic i deadline p = s.addPic i (releaseAll (s.encS i).cfg.rows (fun _ => deadline) p) := by
  rw [State.addHostPic, State.overtake_of_no_earlier (by simp [hp])]

theorem State.addPic_encS (p : EncPic) : (s.addPic i p).encS i = { s.encS i with
    pics := (s.encS i).pics ++ [{ p with idr := !(s.encS i).started, picCount := (s.encS i).picCount }]
    picCount := (s.encS i).picCount + 1, started := true, lastFrame := p.frame, lastPicTime := p.picTime
    full := if (s.encS i).started then (s.encS i).full else 0
    seq := if (s.encS i).started then (s.encS i).seq else (s.encS i).cfg.seq0 } :=
  State.modEncS_same s i _

/-- The frame of a host-fed stream's next picture. -/
def State.hostFrame (s : State) (i : Nat) : Nat := max (s.frameNow (s.encS i).cfg.hostRaster).toNat ((s.encS i).lastFrame + 1)

/-- The picture that a posted one becomes. -/
def State.postedPic (s : State) (i : Nat) (x : Posted) : EncPic :=
  { s.freshPic i (s.hostFrame i) ((s.time : Int) + diff48 x.picTime s.time48).toNat false 0 with
    hostAttest := x.attest, source := some x.raw }

/-- The zero-motion picture of a stream for which no codable picture is posted. -/
def State.stillPic (s : State) (i : Nat) : EncPic :=
  s.freshPic i (s.hostFrame i) ((s.time : Int) + diff48 (s.encS i).lastPicTime s.time48).toNat true 0

theorem exec_hostfedFrameStart_of_codable {x : Posted} {r : List Posted} (hs : s.serving = true) (he : (s.encS i).cfg.enabled = true)
    (hin : (s.encS i).cfg.input = none) (hp : (s.encS i).posted = x :: r) (hx : x.codable = true) :
    exec (.hostfedFrameStart i) s =
      .next ((s.modEncS i (fun e => { e with posted := e.posted.erase x })).addHostPic i x.deadline (s.postedPic i x)) := by
  have oldest : (s.encS i).posted.find? (·.codable) = some x := by simp [hp, hx]
  simp only [exec_hostfedFrameStart, execHostfedFrameStart, hs, he, hin, oldest, Option.isSome_none, Bool.not_true, Bool.or_self,
    Bool.false_eq_true, if_false]
  rfl

theorem exec_hostfedFrameStart_of_none (hs : s.serving = true) (he : (s.encS i).cfg.enabled = true)
    (hin : (s.encS i).cfg.input = none) (hp : (s.encS i).posted = []) (hst : (s.encS i).started = true) :
    exec (.hostfedFrameStart i) s =
      .next (s.addHostPic i (s.hostDeadline (s.encS i).cfg (s.frameNow (s.encS i).cfg.hostRaster).toNat) (s.stillPic i)) := by
  have oldest : (s.encS i).posted.find? (·.codable) = none := by simp [hp]
  simp only [exec_hostfedFrameStart, execHostfedFrameStart, hs, he, hin, oldest, hst, Option.isSome_none, Bool.not_true, Bool.or_self,
    Bool.false_eq_true, if_false]
  rfl

/-! A core takes a row (R103, R193, R208). -/

section
variable {c : Nat}

/-- An event of a core changes its threads and events alone. -/
theorem CoreS.setEvent_eq (ev : Nat) (x : CoreS) : ∃ ths evs, CoreS.setEvent ev x = { x with threads := ths, events := evs } := by
  have woken (ws : List Nat) (y : CoreS) : ∃ ths, ws.foldl (fun c t => c.modThread t (Thread.wake t)) y = { y with threads := ths } := by
    induction ws generalizing y with
    | nil => exact ⟨y.threads, rfl⟩
    | cons w ws ih => exact ih _
  unfold CoreS.setEvent
  dsimp only
  split
  · exact ⟨x.threads, _, rfl⟩
  · obtain ⟨ths, h⟩ := woken ((List.range 8).filter (x.waitsOn ev)) (x.putEvent ev false)
    exact ⟨ths, _, h⟩

theorem State.wakeCore_of_c0 (h : (s.core c).pstate = .c0) : s.wakeCore c = s := by
  simp only [State.wakeCore, h]
  split <;> rfl

/-- An event reaches a core in C0 without a wake: the core goes on with its task, and the others are as they were. -/
theorem State.coreEvent_of_c0 (h : (s.core c).pstate = .c0) (ev : Nat) :
    ((s.coreEvent c ev).core c).encTask = (s.core c).encTask ∧ ∀ d, c ≠ d → (s.coreEvent c ev).core d = s.core d := by
  unfold State.coreEvent
  split
  · exact ⟨rfl, fun _ _ => rfl⟩
  · obtain ⟨ths, evs, hset⟩ := CoreS.setEvent_eq ev
      (if ev < 32 || (s.core c).event ev then s.core c else { s.core c with movedAt := s.now })
    have same : (s.modCore c (fun x => CoreS.setEvent ev (if ev < 32 || x.event ev then x else { x with movedAt := s.now }))).core c =
        { (if ev < 32 || (s.core c).event ev then s.core c else { s.core c with movedAt := s.now }) with threads := ths, events := evs } :=
      (State.modCore_same s c _).trans hset
    rw [State.wakeCore_of_c0 (by rw [same]; split <;> exact h)]
    exact ⟨by rw [same]; split <;> rfl, fun d hd => State.modCore_other s _ hd⟩

@[simp] theorem State.modEncS_core (j : Nat) (f : EncStream → EncStream) (d : Nat) : (s.modEncS j f).core d = s.core d := rfl
@[simp] theorem State.modHead_core (j : Nat) (f : EncPic → EncPic) (d : Nat) : (s.modHead j f).core d = s.core d := rfl
@[simp] theorem State.modCore_encS (d : Nat) (f : CoreS → CoreS) (j : Nat) : (s.modCore d f).encS j = s.encS j := rfl

theorem State.modHead_same {p : EncPic} {r : List EncPic} (hp : (s.encS i).pics = p :: r) (f : EncPic → EncPic) :
    (s.modHead i f).encS i = { s.encS i with pics := f p :: r } := by
  rw [State.modHead, State.modEncS_same, hp]

theorem State.modHead_other {j : Nat} (f : EncPic → EncPic) (h : i ≠ j) : (s.modHead i f).encS j = s.encS j :=
  State.modEncS_other s _ h

/-- The stream as a row of it is coded with decision identity `d`. -/
def EncStream.codedWith (d : BitVec 16) (e : EncStream) : EncStream :=
  { e with decAt := if e.decId.any (· != d) then none else e.decAt, decId := some d }

/-- The picture as core `c` takes the row in flight, that `cores` have. -/
def EncPic.givenTo (c : Nat) (cores : List Nat) (det : Bool) (p : EncPic) : EncPic :=
  { p with cores := cores ++ [c], searched := if cores.isEmpty then det else p.searched }

/-- Core `c` has a row of stream `i` for its task. -/
def State.assign (s : State) (i c : Nat) : State :=
  (s.modCore c (fun x => { x with encTask := some i })).modEncS i (EncStream.codedWith (s.core c).decision)

theorem State.takeRow_eq (cores : List Nat) : s.takeRow i c cores =
    ((s.assign i c).modHead i (EncPic.givenTo c cores ((s.assign i c).encS i).cfg.deterministic)).coreEvent c 32 := rfl

theorem State.assign_same : (s.assign i c).encS i = (s.encS i).codedWith (s.core c).decision := State.modEncS_same _ i _

theorem State.assign_other {j : Nat} (h : i ≠ j) : (s.assign i c).encS j = s.encS j := State.modEncS_other _ _ h

theorem State.assign_core_same : (s.assign i c).core c = { s.core c with encTask := some i } := by
  rw [State.assign, State.modEncS_core, State.modCore_same]

theorem State.assign_core_other {d : Nat} (h : c ≠ d) : (s.assign i c).core d = s.core d := by
  rw [State.assign, State.modEncS_core, State.modCore_other _ _ h]

/-- What a core in C0 that takes a row leaves of itself, the other cores, the stream and the others. -/
theorem State.takeRow_of_c0 {p : EncPic} {r : List EncPic} (h : (s.core c).pstate = .c0) (hp : (s.encS i).pics = p :: r)
    (cores : List Nat) :
    ((s.takeRow i c cores).core c).encTask = some i ∧
      ((s.takeRow i c cores).encS i).pics = p.givenTo c cores (s.encS i).cfg.deterministic :: r ∧
      ((s.takeRow i c cores).encS i).decId = some (s.core c).decision ∧
      (∀ d, c ≠ d → (s.takeRow i c cores).core d = s.core d) ∧ ∀ j, i ≠ j → (s.takeRow i c cores).encS j = s.encS j := by
  have head := State.modHead_same (s := s.assign i c) (by rw [State.assign_same]; exact hp)
    (EncPic.givenTo c cores ((s.assign i c).encS i).cfg.deterministic)
  rw [State.assign_same] at head
  rw [State.takeRow_eq, State.assign_same]
  let t := (s.assign i c).modHead i (EncPic.givenTo c cores ((s.encS i).codedWith (s.core c).decision).cfg.deterministic)
  have core : t.core c = { s.core c with encTask := some i } := by rw [State.modHead_core, State.assign_core_same]
  obtain ⟨task, rest⟩ := State.coreEvent_of_c0 (s := t) (c := c) (by rw [core]; exact h) 32
  have streams (j : Nat) : (t.coreEvent c 32).encS j = t.encS j :=
    State.encS_congr (State.coreEvent_keeps (keeps_enc (by decide)) rfl) j
  refine ⟨by rw [task, core], by rw [streams, head]; rfl, by rw [streams, head]; rfl, fun d hd => ?_, fun j hj => ?_⟩
  · rw [rest d hd, State.modHead_core, State.assign_core_other hd]
  · rw [streams, State.modHead_other _ hj, State.assign_other hj]

/-! A row is issued (R49, R103, R123). -/

section
variable {p : EncPic} {r : List EncPic}

theorem State.rowReady_of_next (hp : (s.encS i).pics = p :: r) (hd : p.issued = p.done) (hr : p.issued < p.released) :
    s.rowReady i = true := by
  simp [State.rowReady, hp, hr, show ¬ p.done < p.issued by omega]

theorem State.rowReady_of_in_flight (hp : (s.encS i).pics = p :: r) (hd : p.done < p.issued) (hc : p.cores.length < s.rowCores i) :
    s.rowReady i = true := by
  simp [State.rowReady, hp, hd, hc]

variable (hs : s.serving = true) (hm : s.mayEncode i c = true) (hb : s.rowBefore i c = false)
include hs hm hb

theorem exec_encodeRowIssue_of_asleep (hr : s.rowReady i = true) (hc : (s.core c).pstate ≠ .c0) :
    exec (.encodeRowIssue i c) s = .next (s.wakeCore c) := by
  simp [exec_encodeRowIssue, execEncodeRowIssue, hs, hm, hb, hr, hc]

theorem exec_encodeRowIssue_of_next (hp : (s.encS i).pics = p :: r) (hd : p.issued = p.done) (hr : p.issued < p.released)
    (hc : (s.core c).pstate = .c0) :
    exec (.encodeRowIssue i c) s = .next (((if p.issued = 0 then s.beginPic i else s).modHead i
      (fun p => { p with issued := p.issued + 1 })).takeRow i c []) := by
  have old : ¬ p.done < p.issued := by omega
  simp only [exec_encodeRowIssue, execEncodeRowIssue, hs, hm, hb, hc, hp, old, State.rowReady_of_next hp hd hr, Bool.not_true, Bool.or_self,
    bne_self_eq_false, Bool.false_eq_true, if_false]

theorem exec_encodeRowIssue_of_in_flight (hp : (s.encS i).pics = p :: r) (hd : p.done < p.issued)
    (hl : p.cores.length < s.rowCores i) (hc : (s.core c).pstate = .c0) :
    exec (.encodeRowIssue i c) s = .next (s.takeRow i c p.cores) := by
  simp [exec_encodeRowIssue, execEncodeRowIssue, hs, hm, hb, hc, hp, hd, State.rowReady_of_in_flight hp hd hl]

end

/-- The coding of a picture begins without the cores. -/
theorem State.beginPic_core (d : Nat) : (s.beginPic i).core d = s.core d := by
  rw [State.core, State.beginPic_keeps (P := fun t => t.cores = s.cores) (keeps_cores (by decide)) rfl]
  rfl

end

/-! A row in a form (R58, R104, R111). -/

/-- The forms of a row differ in their stage, the tiles kept and the entropy unit's run. -/
theorem RowForm.form_eq {g h : RowForm} {runs : List EntropyRun} {cand : List Nat} {st k : Nat}
    (e : g.form runs cand st k = some h) : ∃ kept run, h = { g with stage := st, kept := kept, run := run } := by
  obtain ⟨run, -, rfl⟩ := Option.map_eq_some_iff.mp e
  exact ⟨_, _, rfl⟩

/-- What is chosen is a form of the row. -/
theorem RowForm.choose_eq {g h : RowForm} {runs : List EntropyRun} {cand : List Nat} {fits : RowForm → Bool}
    (e : g.choose runs cand fits = some h) : ∃ st kept run, h = { g with stage := st, kept := kept, run := run } := by
  have formed {st k : Nat} (e : g.form runs cand st k = some h) : ∃ st kept run, h = { g with stage := st, kept := kept, run := run } :=
    ⟨st, RowForm.form_eq e⟩
  unfold RowForm.choose at e
  dsimp only at e
  split at e
  · exact formed e
  · split at e
    · cases e
    · exact formed e
    · split at e
      · cases e
      · exact formed e
      · split at e
        · cases e
        · exact formed e
        · split at e
          · exact formed e
          · exact formed e

/-- A row that is committed is the row of its picture, in the stream's configuration. -/
theorem State.rowChoice_eq {p : EncPic} {x : CodedRow} {g : RowForm} {cand : List Nat} {fl : BitVec 2}
    (h : s.rowChoice i p x = some (g, cand, fl)) : g.cfg = (s.encS i).cfg ∧ g.row = p.done := by
  unfold State.rowChoice at h
  dsimp only at h
  split at h
  · obtain ⟨g', chosen, same⟩ := Option.map_eq_some_iff.mp h
    obtain ⟨st, kept, run, form⟩ := RowForm.choose_eq chosen
    cases same
    rw [form]
    exact ⟨rfl, rfl⟩
  · cases h

/-- A zero-motion row has the form of stage 4, where the entropy unit has run it, and keeps the reference picture. -/
theorem State.rowChoice_of_zeroMotion {p : EncPic} {x : CodedRow} {ctus : List CtuRun} {l : List EntropyRun}
    (hz : p.zeroMotion = true) (hx : x.runs = ⟨4, 0, ctus⟩ :: l) :
    ∃ g cand fl, s.rowChoice i p x = some (g, cand, fl) ∧ g.zero = true ∧ g.recon = (s.encS i).recon ∧
      g.cfg = (s.encS i).cfg ∧ g.row = p.done := by
  let q := (s.encS i).rowQp (s.raster (s.encS i).cfg.raster).fmt p p.done
  let g := (s.encS i).rowForm (s.raster (s.encS i).cfg.raster).fmt (s.mtuOf (s.encS i).cfg.flows) p p.done q.1 x
  have zero : g.zero = true := by
    show (s.encS i).rowZero p p.done = true
    simp [EncStream.rowZero, hz]
  have form : g.form x.runs g.candidates 4 0 = some { g with stage := 4, kept := [], run := ⟨4, 0, ctus⟩ } := by
    simp [RowForm.form, hx]
  refine ⟨{ g with stage := 4, kept := [], run := ⟨4, 0, ctus⟩ }, g.candidates, q.2, ?_, zero, rfl, rfl, rfl⟩
  have chosen (fits : RowForm → Bool) :
      g.choose x.runs g.candidates fits = some { g with stage := 4, kept := [], run := ⟨4, 0, ctus⟩ } := by
    rw [← form]
    exact if_pos zero
  exact (if_pos (Bool.or_eq_true_iff.mpr (.inl zero))).trans (congrArg (Option.map _) (chosen _))

/-- In a zero-motion row every tile is HELD and is the reference picture's. -/
theorem RowForm.held_of_zero {g : RowForm} (h : g.zero = true) (k : Nat) :
    g.recOf k = g.recon.look noSamples (g.tile k) ∧ g.code k = 0 := by
  refine ⟨?_, by simp [RowForm.code, h]⟩
  cases k <;> simp [RowForm.recOf, RowForm.recAt, h, RowForm.before]

/-- The reference picture holds a committed row's tiles as the row's form has them. -/
theorem RowForm.look_keepTiles (g : RowForm) (e : EncStream) {k : Nat} (hk : k < g.cfg.cols) :
    (e.keepTiles g).recon.look noSamples (g.cfg.cols * g.row + k) = g.recOf k := by
  have written (n : Nat) : ∀ k, k < n → ((List.range n).foldl (fun t x => Tbl.put t noSamples (g.tile x) (g.recOf x)) e.recon).look
      noSamples (g.tile k) = g.recOf k := by
    induction n with
    | zero => intro k hk; omega
    | succ n ih =>
      intro k hk
      rw [List.range_succ, List.foldl_append, List.foldl_cons, List.foldl_nil]
      by_cases h : n = k
      · rw [h, Tbl.look_put_same]
      · have apart : g.tile n ≠ g.tile k := by
          unfold RowForm.tile
          omega
        rw [Tbl.look_put_other _ _ _ apart, ih k (by omega)]
  exact written g.cfg.cols k hk

/-! A row is completed (R109, R111). -/

section
variable {p : EncPic} {r : List EncPic} {x : CodedRow} {g : RowForm} {cand : List Nat} {fl : BitVec 2}

/-- The cores of a row are free. -/
def State.freeCores (s : State) (cores : List Nat) : State :=
  s.each cores (fun c => State.modCore c (fun x => { x with encTask := none }))

theorem State.freeCores_core (cores : List Nat) (s : State) (d : Nat) :
    (s.freeCores cores).core d = if d ∈ cores then { s.core d with encTask := none } else s.core d := by
  induction cores generalizing s with
  | nil => rfl
  | cons c cs ih =>
    have first : (s.freeCores (c :: cs)).core d = ((s.modCore c (fun x => { x with encTask := none })).freeCores cs).core d := rfl
    rw [first, ih]
    by_cases h : c = d
    · subst h
      simp
    · rw [State.modCore_other s _ h]
      simp [Ne.symm h]

theorem State.freeCores_enc (cores : List Nat) (s : State) : (s.freeCores cores).enc = s.enc :=
  State.each_keeps (P := fun t => t.enc = s.enc) (fun _ _ h => h) rfl

theorem State.patchStep_of_not_batch (h : ∀ q, s.glb.patch = some q → q.step ≠ 4) : s.patchStep = s := by
  unfold State.patchStep
  split
  · rfl
  · next q hq => exact if_pos (bne_iff_ne.mpr (h q hq))

theorem exec_encodeRowComplete_of_choice (hp : (s.encS i).pics = p :: r) (hd : p.done < p.issued) (hc : p.cores.length = s.rowCores i)
    (hx : s.rowChoice i p x = some (g, cand, fl)) (hpatch : ∀ q, s.glb.patch = some q → q.step ≠ 4) :
    exec (.encodeRowComplete i x) s = .next ((s.freeCores p.cores).commitForm i g cand fl) := by
  have patch : ((s.freeCores p.cores).commitForm i g cand fl).glb = s.glb :=
    State.commitForm_keeps (keeps_glb (by decide)) (State.each_keeps (P := fun t => t.glb = s.glb) (fun _ _ h => h) rfl)
  simp only [exec_encodeRowComplete, execEncodeRowComplete, hp, if_pos (And.intro hd hc), hx]
  have noBatch : ((s.freeCores p.cores).commitForm i g cand fl).patchStep = (s.freeCores p.cores).commitForm i g cand fl :=
    State.patchStep_of_not_batch (by rw [patch]; exact hpatch)
  exact congrArg ok noBatch

/-- What the completion of a row leaves of the cores and of the stream. -/
theorem State.completed_row (hp : (s.encS i).pics = p :: r) (hx : s.rowChoice i p x = some (g, cand, fl)) :
    ∃ q : EncPic, q.done = p.done + 1 ∧ q.cores = [] ∧ q.issued = p.issued ∧
      ((s.freeCores p.cores).commitForm i g cand fl).Codes i ⟨(s.encS i).cfg,
        if p.done + 1 = (s.encS i).cfg.rows then r else q :: r, ((s.encS i).keepTiles g).recon, g.qp⟩ := by
  have free : (s.freeCores p.cores).encS i = s.encS i := State.encS_congr (State.freeCores_enc _ _) i
  have committed := State.commitForm_codes (s := s.freeCores p.cores) (by rw [free]; exact hp) g cand fl
  rwa [free, (State.rowChoice_eq hx).2] at committed

theorem State.completed_core (d : Nat) : ((s.freeCores p.cores).commitForm i g cand fl).core d = (s.freeCores p.cores).core d := by
  rw [State.core, State.commitForm_keeps (P := fun t => t.cores = (s.freeCores p.cores).cores) (keeps_cores (by decide)) rfl]
  rfl

end

/-- Settles O14: each command by the branch that its hypotheses choose, and what that branch leaves of the stream and of the cores. -/
theorem encodeCommands : Obligations.EncodeCommands := by
  refine ⟨?selfRelease, ?posted, ?still, fun s i c hs hm hr hb hc => exec_encodeRowIssue_of_asleep hs hm hb hr hc, ?next, ?inFlight,
    ?complete, ?zeroMotion⟩
  case selfRelease =>
    intro s i k p hs hst hin ht hp hr hz
    have released := congrArg ok (State.ownRelease_of_only hp hz)
    refine ⟨_, (exec_encodeSelfRelease_of_open hs hst hin ht hp hr).trans released, rfl, ?_⟩
    rw [State.modEncPic, State.modEncS_same, hp]
    simp
  case posted =>
    intro s i x r hs he hin hp hx hpics
    have removed : (s.modEncS i (fun e => { e with posted := e.posted.erase x })).encS i = { s.encS i with posted := r } := by
      rw [State.modEncS_same, hp, List.erase_cons_head]
    have joined := State.addHostPic_of_empty (s := s.modEncS i (fun e => { e with posted := e.posted.erase x }))
      (by rw [removed]; exact hpics) x.deadline (s.postedPic i x)
    refine ⟨_, by rw [exec_hostfedFrameStart_of_codable hs he hin hp hx, joined], ?_, ?_, ?_⟩
    · rw [State.addPic_encS, removed]
    · rw [State.addPic_encS]
    · rw [State.addPic_encS, removed, hpics]
      exact ⟨_, rfl, rfl, rfl, rfl, rfl⟩
  case still =>
    intro s i hs he hin hp hst hpics
    refine ⟨_, by rw [exec_hostfedFrameStart_of_none hs he hin hp hst, State.addHostPic_of_empty hpics], ?_⟩
    rw [State.addPic_encS, hpics]
    exact ⟨_, rfl, rfl, rfl⟩
  case next =>
    intro s u i c p q r l hs hm hp hd hr hb hc hu hq
    have core (d : Nat) : (u.modHead i (fun p => { p with issued := p.issued + 1 })).core d = s.core d := by
      rw [State.modHead_core, hu]
      split
      · exact State.beginPic_core d
      · rfl
    have head := State.modHead_same hq (fun p => { p with issued := p.issued + 1 })
    obtain ⟨task, pics, decId, cores, streams⟩ := State.takeRow_of_c0
      (s := u.modHead i (fun p => { p with issued := p.issued + 1 })) (i := i) (c := c) (by rw [core]; exact hc) (by rw [head]) []
    refine ⟨_, by rw [exec_encodeRowIssue_of_next hs hm hb hp hd hr hc, ← hu], task, ?_, ?_, ?_, ?_⟩
    · rw [pics, head]
      rfl
    · rw [decId, core]
    · exact fun d h => (cores d h).trans (core d)
    · exact fun j h => (streams j h).trans (State.modHead_other _ h)
  case inFlight =>
    intro s i c p r hs hm hp hd hl hb hc
    exact ⟨_, exec_encodeRowIssue_of_in_flight hs hm hb hp hd hl hc, State.takeRow_of_c0 hc hp p.cores⟩
  case complete =>
    intro s i x p r g cand fl hp hd hc hx hpatch
    obtain ⟨q, done, cores, issued, codes⟩ := State.completed_row hp hx
    obtain ⟨-, pics, recon, qp⟩ := Coding.mk.inj codes
    obtain ⟨cfg, row⟩ := State.rowChoice_eq hx
    refine ⟨_, exec_encodeRowComplete_of_choice hp hd hc hx hpatch, fun c h => ?_, fun d h => ?_, qp, fun k h => ?_, ?_⟩
    · rw [State.completed_core, State.freeCores_core, if_pos h]
    · rw [State.completed_core, State.freeCores_core, if_neg h]
    · rw [recon, ← cfg, ← row]
      exact g.look_keepTiles _ (by rwa [cfg])
    · by_cases last : p.done + 1 = (s.encS i).cfg.rows
      · rw [if_pos last] at pics ⊢
        exact pics
      · rw [if_neg last] at pics ⊢
        exact ⟨q, pics, done, cores, issued⟩
  case zeroMotion =>
    intro s i x p ctus l hz hx
    obtain ⟨g, cand, fl, choice, zero, recon, cfg, row⟩ := State.rowChoice_of_zeroMotion (s := s) (i := i) hz hx
    refine ⟨g, cand, fl, choice, zero, fun k => ?_⟩
    rw [← recon, ← cfg, ← row]
    exact RowForm.held_of_zero zero k

end Sys2Proof.Machine
end

section
/-! PROOF. The checksum of tiles and records (R55, R60): the model's CRC-32C, which takes a byte at a time into a reflected register, is the
bit-serial CRC of its polynomial. -/

namespace Sys2Proof.Machine

/-! A register that is reflected. -/

theorem reverse_xor {w : Nat} (x y : BitVec w) : (x ^^^ y).reverse = x.reverse ^^^ y.reverse := by
  refine BitVec.eq_of_getLsbD_eq fun i hi => ?_
  simp only [BitVec.getLsbD_reverse, BitVec.getLsbD_xor, BitVec.getMsbD_xor]

theorem reverse_shiftLeft {w : Nat} (x : BitVec w) (n : Nat) : (x <<< n).reverse = x.reverse >>> n := by
  refine BitVec.eq_of_getLsbD_eq fun i hi => ?_
  simp only [BitVec.getLsbD_reverse, BitVec.getLsbD_ushiftRight, BitVec.getMsbD_shiftLeft, Nat.add_comm]

/-! The register of a bit-serial CRC takes one bit. -/

/-- The most significant bit leaves the register. -/
def crcBitMsb (poly r : BitVec 32) (x : Bool) : BitVec 32 := if r.msb ^^ x then (r <<< 1) ^^^ poly else r <<< 1

/-- In the reflected register the least significant bit leaves. -/
def crcBit (poly y : BitVec 32) (x : Bool) : BitVec 32 := if y.getLsbD 0 ^^ x then (y >>> 1) ^^^ poly else y >>> 1

theorem reverse_crcBitMsb (poly r : BitVec 32) (x : Bool) :
    (crcBitMsb poly r x).reverse = crcBit poly.reverse r.reverse x := by
  have out : r.reverse.getLsbD 0 = r.msb := BitVec.getLsbD_reverse
  unfold crcBitMsb crcBit
  rw [out]
  split
  · rw [reverse_xor, reverse_shiftLeft]
  · rw [reverse_shiftLeft]

theorem reverse_foldl_crcBitMsb (poly r : BitVec 32) (xs : List Bool) :
    (xs.foldl (crcBitMsb poly) r).reverse = xs.foldl (crcBit poly.reverse) r.reverse :=
  (List.foldl_hom BitVec.reverse fun r x => (reverse_crcBitMsb poly r x).symm).symm

/-! A byte enters the register as its eight bits. -/

/-- Bits that stand in the register before a step count as if the first of them entered in the step. -/
theorem crcBit_false_xor (poly y c : BitVec 32) :
    crcBit poly (y ^^^ c) false = crcBit poly y (c.getLsbD 0) ^^^ (c >>> 1) := by
  simp only [crcBit, BitVec.getLsbD_xor, Bool.xor_false, BitVec.ushiftRight_xor_distrib]
  split
  · rw [BitVec.xor_assoc, BitVec.xor_assoc, BitVec.xor_comm poly]
  · rfl

theorem foldl_crcBit_false_xor (poly y c : BitVec 32) (n : Nat) :
    (List.range n).foldl (fun y _ => crcBit poly y false) (y ^^^ c) =
      ((List.range n).map c.getLsbD).foldl (crcBit poly) y ^^^ (c >>> n) := by
  induction n with
  | zero => simp
  | succ n ih =>
    have next : (c >>> n).getLsbD 0 = c.getLsbD n := by simp
    simp only [List.range_succ, List.map_append, List.foldl_append, List.map_cons, List.map_nil, List.foldl_cons, List.foldl_nil, ih,
      crcBit_false_xor, next, BitVec.shiftRight_add]

theorem crcByte_eq_foldl_crcBit (poly acc : BitVec 32) (b : Byte) :
    crcByte poly acc b = ((List.range 8).map b.getLsbD).foldl (crcBit poly) acc := by
  have steps : crcByte poly acc b = (List.range 8).foldl (fun y _ => crcBit poly y false) (acc ^^^ b.setWidth 32) := by
    simp only [crcByte, crcBit, Bool.xor_false]
  have spent : b.setWidth 32 >>> 8 = 0#32 := by
    refine BitVec.eq_of_getLsbD_eq fun i _ => ?_
    simp
  have bits : (List.range 8).map (b.setWidth 32).getLsbD = (List.range 8).map b.getLsbD := by
    refine List.map_congr_left fun i hi => ?_
    have : i < 32 := by have := List.mem_range.mp hi; omega
    simp [this]
  rw [steps, foldl_crcBit_false_xor, spent, bits, BitVec.xor_zero]

/-- The bits of bytes, the least significant bit of each byte first. -/
def byteBits (bs : List Byte) : List Bool := bs.flatMap (fun b => (List.range 8).map b.getLsbD)

theorem foldl_crcByte_eq_foldl_crcBit (poly acc : BitVec 32) (bs : List Byte) :
    bs.foldl (crcByte poly) acc = (byteBits bs).foldl (crcBit poly) acc := by
  rw [byteBits, List.foldl_flatMap]
  congr 1
  funext acc b
  exact crcByte_eq_foldl_crcBit poly acc b

/-- R60: the bit-serial CRC of polynomial 0x1EDC6F41, all ones at the start, reflected and inverted at the end. -/
theorem crc32c_eq_bitSerial (bs : List Byte) :
    crc32c bs = ~~~ ((byteBits bs).foldl (crcBitMsb 0x1EDC6F41) 0xFFFFFFFF).reverse := by
  have poly : (0x1EDC6F41 : BitVec 32).reverse = 0x82F63B78 := by decide +kernel
  have ones : (0xFFFFFFFF : BitVec 32).reverse = 0xFFFFFFFF := by decide +kernel
  rw [reverse_foldl_crcBitMsb, poly, ones, ← foldl_crcByte_eq_foldl_crcBit, crc32c]

theorem crc32c_check : crc32c [0x31, 0x32, 0x33, 0x34, 0x35, 0x36, 0x37, 0x38, 0x39] = 0xE3069283 := by decide +kernel

/-- R55: RECORD_CRC is that of the segment's bytes between its UUID and the field itself. -/
theorem Segment.crcBad_eq_false_iff (g : Segment) (bs : List Byte) :
    g.crcBad bs = false ↔ crc32c ((bs.drop 16).take (g.length - 20)) = g.crc := by
  rw [Segment.crcBad, bne_eq_false_iff_eq]

/-- Settles O52: reflection carries the bit-serial register to the model's, and a byte enters that as its eight bits. -/
theorem tileChecksum : Obligations.TileChecksum :=
  ⟨crc32c_eq_bitSerial, crc32c_check, fun _ => rfl, Segment.crcBad_eq_false_iff⟩

end Sys2Proof.Machine
end

section
/-! PROOF. The compositor's commands: a line that no window crosses (R163, R171), late lines (R172), and the visits and the fill of the tile
state memory (R71, R72). -/

namespace Sys2Proof.Machine

variable {s : State} {p : LinePos} {w : Nat}

/-! The compositor's commands. -/

section
variable (s)

theorem exec_outputLineFetch (p : LinePos) : exec (.outputLineFetch p) s = execOutputLineFetch p s := rfl
theorem exec_cmpLineLate (w : Nat) (p : LinePos) : exec (.cmpLineLate w p) s = execCmpLineLate w p s := rfl
theorem exec_tileStateVisit (first count : Nat) : exec (.tileStateVisit first count) s = execTileStateVisit first count s := rfl
theorem exec_tileStateFill (i : Nat) : exec (.tileStateFill i) s = execTileStateFill i s := rfl

end

/-! A line that no window crosses (R163, R171). -/

/-- No enabled window of raster `k` crosses line `n`. -/
def State.Uncrossed (s : State) (k n : Nat) : Prop :=
  ∀ x ∈ s.cmp.windows, x.2.enable = true → x.2.raster.toNat = k → x.2.crosses n = false

/-- No window of raster `k`, in force or committed. -/
def State.Unnamed (s : State) (k : Nat) : Prop :=
  (∀ x ∈ s.cmp.windows, x.2.raster.toNat ≠ k) ∧ ∀ x ∈ s.cmp.pendWin, x.2.any (fun w => w.raster.toNat == k) = false

/-- A window covers pixels of the lines alone that it crosses. -/
theorem Window.crosses_of_covers {x : Window} {c n : Nat} (h : x.covers c n = true) : x.crosses n = true := by
  simp only [Window.covers, Bool.and_eq_true] at h
  obtain ⟨⟨cross, -⟩, -⟩ := h
  exact cross

/-- No window is found by what holds only of windows that cross the line. -/
theorem State.Uncrossed.filter_eq_nil {k n : Nat} (h : s.Uncrossed k n) {found : Window → Bool}
    (hf : ∀ x, found x = true → x.crosses n = true) :
    s.cmp.windows.filter (fun q => q.2.enable && q.2.raster.toNat == k && found q.2) = [] := by
  refine List.filter_eq_nil_iff.mpr fun q hq hc => ?_
  simp only [Bool.and_eq_true, beq_iff_eq] at hc
  obtain ⟨⟨enabled, raster⟩, holds⟩ := hc
  exact Bool.false_ne_true ((h q hq enabled raster).symm.trans (hf q.2 holds))

theorem State.topWindow_of_uncrossed {k n : Nat} (h : s.Uncrossed k n) (x : Nat) : s.topWindow k x n = none := by
  rw [State.topWindow, h.filter_eq_nil (found := fun w => w.covers x n) fun _ => Window.crosses_of_covers]
  rfl

theorem State.pixel_of_uncrossed {sc : Scan} (h : s.Uncrossed sc.k sc.n) (x : Nat) :
    s.pixel sc x = s.convertWord sc.k (s.cmp.bg.look 0 sc.k) := by
  rw [State.pixel, State.topWindow_of_uncrossed h]

/-- The line is background, and no window enters its frame. -/
theorem State.drawLine_of_uncrossed (h : s.Uncrossed p.raster p.line) :
    s.drawLine p = s.modCmp (fun c => { c with
      lines := c.lines.put [] (lineSlot p.raster p.line)
        (List.replicate (s.raster p.raster).fmt.width (s.convertWord p.raster (s.cmp.bg.look 0 p.raster)))
      fetched := c.fetched.put none p.raster (some (p.frame, p.line)) }) := by
  have shown := h.filter_eq_nil (found := fun w => w.crosses p.line) fun _ cross => cross
  have background (ts : T48) (u : Option Nat) :
      s.pixel ⟨p.raster, p.line, ts, u⟩ = fun _ => s.convertWord p.raster (s.cmp.bg.look 0 p.raster) :=
    funext (State.pixel_of_uncrossed h)
  simp only [State.drawLine, shown, List.map_nil, State.each, List.foldl_nil]
  rw [background, List.map_const', List.length_range]

theorem State.takeWindows_of_unnamed {k : Nat} (h : s.Unnamed k) : s.takeWindows k = s := by
  have due : s.cmp.pendWin.filterMap
      (fun p => if p.2.any (fun x => x.raster.toNat == k) then p.2.map (fun x => (p.1, x)) else none) = [] :=
    List.filterMap_eq_nil_iff.mpr fun q hq => by simp [h.2 q hq]
  have rest : s.cmp.pendWin.filter (fun p => !p.2.any (fun x => x.raster.toNat == k)) = s.cmp.pendWin :=
    List.filter_eq_self.mpr fun q hq => by simp [h.2 q hq]
  simp only [State.takeWindows, State.modCmp, due, rest, State.each, List.foldl_nil, List.isEmpty_nil, if_true]

/-- A frame that begins on a raster that no window names ends nothing and takes nothing. -/
theorem State.frameStart_of_unnamed {k : Nat} (h : s.Unnamed k) :
    (s.each ((s.cmp.windows.filter (fun w => w.2.raster.toNat == k)).map (·.1)) State.endWindowFrame).takeWindows k = s := by
  have drawn : s.cmp.windows.filter (fun w => w.2.raster.toNat == k) = [] :=
    List.filter_eq_nil_iff.mpr fun q hq => by simpa using h.1 q hq
  rw [drawn]
  exact State.takeWindows_of_unnamed h

theorem exec_outputLineFetch_of_used (hs : s.serving = true) (hk : p.raster < 16) (hu : s.rasterUsed p.raster = true)
    (hla : p.line < (s.raster p.raster).fmt.la) (hr : (s.raster p.raster).retiming = false) (h0 : p.line = 0 → s.Unnamed p.raster) :
    exec (.outputLineFetch p) s = .next (s.drawLine p) := by
  simp only [exec_outputLineFetch, execOutputLineFetch, hs, hu, hr, Nat.not_le.mpr hk, Nat.not_le.mpr hla, Bool.not_true, decide_false,
    Bool.or_self, Bool.false_eq_true, if_false]
  by_cases first : p.line = 0
  · rw [if_pos first, State.frameStart_of_unnamed (h0 first)]
  · rw [if_neg first]

/-! A line that is late in a window (R172). -/

/-- The part of a line that window `w` shows is the LOST fill over mid-grey. -/
def State.fillLate (w : Nat) (p : LinePos) (s : State) : State :=
  s.modCmp (fun c => { c with lines := c.lines.upd [] (lineSlot p.raster p.line) (fun l => l.zipIdx.map (fun q =>
    if ((s.topWindow p.raster q.2 p.line).map (·.1)) == some w then s.lostFill p.raster (s.window w) else q.1)) })

/-- The first late line of a frame in a window. -/
theorem exec_cmpLineLate_of_first (hs : s.serving = true) (he : (s.window w).enable = true) (hr : (s.window w).raster.toNat = p.raster)
    (hc : (s.window w).crosses p.line = true) (hf : (s.window w).lateFrame ≠ some p.frame) :
    exec (.cmpLineLate w p) s = .next ((((s.fillLate w p).modWindow w (fun y => { y with lateFrame := some p.frame })).latch 132).raiseP
      (s.window w).part.toNat .cmpLineLate [i16 w, i16 p.line]) := by
  simp only [exec_cmpLineLate, execCmpLineLate, hs, he, hr, hc, hf, Bool.not_true, bne_self_eq_false, Bool.or_self, Bool.false_eq_true,
    if_false]
  rfl

/-- A frame that is marked already is marked no more. -/
theorem exec_cmpLineLate_of_marked (hf : (s.window w).lateFrame = some p.frame) :
    exec (.cmpLineLate w p) s = .next s ∨ exec (.cmpLineLate w p) s = .next (s.fillLate w p) := by
  simp only [exec_cmpLineLate, execCmpLineLate, hf, if_true]
  split
  · exact .inl rfl
  · exact .inr rfl

/-! The tile state memory (R71, R72). -/

theorem exec_tileStateFill_of_mapped {i : Nat} (hs : s.serving = true) (hi : i < 256) (hw : s.windowsOf i ≠ []) :
    exec (.tileStateFill i) s = .next (s.bringOnDie i) := by
  have mapped : (s.windowsOf i).isEmpty = false := by simpa using hw
  simp only [exec_tileStateFill, execTileStateFill, hs, hi, mapped, Bool.not_false, Bool.true_or, decide_true, Bool.and_self, if_true]

theorem State.bringOnDie_of_fits {i : Nat} (ho : (s.decS i).onDie = false)
    (hf : s.onDieTiles + (s.decS i).cols * (s.decS i).rowsN ≤ 196608) :
    s.bringOnDie i = s.modDecS i (fun d => { d with onDie := true }) := by
  simp only [State.bringOnDie, ho, Nat.not_lt.mpr hf, dieTiles, decide_false, Bool.or_self, Bool.false_eq_true, if_false]

theorem exec_tileStateVisit_of_serving (hs : s.serving = true) (first count : Nat) :
    exec (.tileStateVisit first count) s = .next (State.visited count (s.modCmp (fun c => { c with
      tiles := c.tiles.mapAll TileEntry.reset (fun k e =>
        if first ≤ k ∧ k < first + count ∧ e.cond = .verified ∧ e.tv ∧
          2 ^ 46 ≤ ageD s.time48 (s.uncertainty.getD 0) e.tAtt ∧ ageD s.time48 (s.uncertainty.getD 0) e.tAtt < 2 ^ 47
        then { e with tv := false } else e) }))) := by
  simp only [exec_tileStateVisit, execTileStateVisit, hs, Bool.not_true, Bool.false_eq_true, if_false]

/-- Settles O17: each command by the branch that its hypotheses choose, and what that branch does. -/
theorem compositorCommands : Obligations.CompositorCommands := by
  refine ⟨?fetch, ?late, ?marked, fun s first count hs => exec_tileStateVisit_of_serving hs first count, ?fill⟩
  case fetch =>
    intro s p hs hk hu hla hr hx h0
    rw [exec_outputLineFetch_of_used hs hk hu hla hr h0, State.drawLine_of_uncrossed hx]
  case late =>
    intro s w p hs he hr hc hf
    refine ⟨_, exec_cmpLineLate_of_first hs he hr hc hf, ?_, ?_, fun v h => ?_, rfl⟩
    · exact congrArg Window.lateFrame (State.modWindow_same _ w _)
    · exact State.latch_mem _ 132
    · exact State.modWindow_other (s.fillLate w p) _ h
  case marked =>
    intro s w p hf
    rcases exec_cmpLineLate_of_marked hf with same | filled
    · exact ⟨_, same, rfl, rfl, rfl⟩
    · exact ⟨_, filled, rfl, rfl, rfl⟩
  case fill =>
    intro s i hs hi hw ho hf
    rw [exec_tileStateFill_of_mapped hs hi hw, State.bringOnDie_of_fits ho hf]

end Sys2Proof.Machine
end

section
/-! PROOF. What the commands of decode streams leave: of a stream that reports its status and its ledger (R87, R159), of the tasks and the
dispatchers' queues (R131, R193), and of the state that each stream is in (R157). -/

namespace Sys2Proof.Machine

variable {s : State} {i n : Nat}

theorem State.decS_congr {t : State} (h : t.dec = s.dec) (j : Nat) : t.decS j = s.decS j := by
  rw [State.decS, State.decS, h]

/-! A stream that reports what an operation has changed of it (R87, R159). -/

section
variable {f : State → State}

theorem State.withStatus_of {P : State → Prop} (u : Keeps [.dec] P) (k : P (f s)) : P (State.withStatus i f s) :=
  ite_keeps k (State.modDecS_keeps u k)

theorem State.withLedger_of {P : State → Prop} (u : Keeps [.dec, .grt] P) (k : P (f s)) : P (State.withLedger i f s) :=
  have sent := State.sendDeltas_keeps (a0 := i) (a1 := s) (u.mono (by decide)) k
  ite_keeps sent (State.modDecS_keeps (u.mono (by decide)) sent)

/-- What a report keeps is what the operation that it reports keeps. -/
theorem State.report_of {P : State → Prop} (u : Keeps [.dec, .grt] P) (k : P (f s)) :
    P (State.withLedger i (State.withStatus i f) s) :=
  State.withLedger_of u (State.withStatus_of (u.mono (by decide)) k)

theorem State.withStatus_decS : ∃ m, (State.withStatus i f s).decS i = { (f s).decS i with updSeq := m } ∧
    ∀ j, i ≠ j → (State.withStatus i f s).decS j = (f s).decS j := by
  unfold State.withStatus
  dsimp only
  split
  · exact ⟨_, rfl, fun _ _ => rfl⟩
  · exact ⟨_, State.modDecS_same _ i _, fun _ hj => State.modDecS_other _ _ hj⟩

theorem State.withLedger_decS : ∃ m, (State.withLedger i f s).decS i = { (f s).decS i with ledSeq := m } ∧
    ∀ j, i ≠ j → (State.withLedger i f s).decS j = (f s).decS j := by
  have sent (j : Nat) : (State.sendDeltas i s (f s)).decS j = (f s).decS j :=
    State.decS_congr (State.sendDeltas_keeps (keeps_dec (by decide)) rfl) j
  unfold State.withLedger
  dsimp only
  split
  · exact ⟨_, sent i, fun j _ => sent j⟩
  · exact ⟨_, by rw [State.modDecS_same, sent], fun j hj => by rw [State.modDecS_other _ _ hj, sent]⟩

/-- A report counts in the two words of its stream that say so, and leaves the other streams. -/
theorem State.report_decS : ∃ m l,
    (State.withLedger i (State.withStatus i f) s).decS i = { (f s).decS i with updSeq := m, ledSeq := l } ∧
    ∀ j, i ≠ j → (State.withLedger i (State.withStatus i f) s).decS j = (f s).decS j := by
  obtain ⟨m, status, others⟩ := State.withStatus_decS (s := s) (i := i) (f := f)
  obtain ⟨l, ledger, rest⟩ := State.withLedger_decS (s := s) (i := i) (f := State.withStatus i f)
  exact ⟨m, l, by rw [ledger, status], fun j hj => (rest j hj).trans (others j hj)⟩

end

/-! Tasks and the queues of the dispatchers (R131, R193, R210). -/

theorem State.task_congr {t : State} (h : t.blw.tasks = s.blw.tasks) (m : Nat) : t.task m = s.task m := by
  rw [State.task, State.task, h]

theorem State.task_of_blw {t : State} (h : t.blw = s.blw) (m : Nat) : t.task m = s.task m :=
  State.task_congr (congrArg Blw.tasks h) m

theorem State.bay_congr {t : State} (h : t.blw.bays = s.blw.bays) (b : Nat) : t.bay b = s.bay b := by
  rw [State.bay, State.bay, h]

theorem State.modTask_same {x : RowTask} (h : s.task n = some x) (f : RowTask → RowTask) : (s.modTask n f).task n = some (f x) := by
  obtain ⟨⟨m, y⟩, found, rfl⟩ := Option.map_eq_some_iff.mp h
  obtain rfl : m = n := by simpa using List.find?_some found
  have key : ((fun p : Nat × RowTask => p.1 == m) ∘ fun p => if p.1 = m then (p.1, f p.2) else p) = fun p => p.1 == m :=
    funext fun p => by by_cases hp : p.1 = m <;> simp [hp]
  simp only [State.task, State.modTask, State.modBlw_blw, List.find?_map, key, found, Option.map_some, if_true]

/-- A task that is formed stands behind those that are there. -/
theorem State.addTask_task {x : RowTask} (h : s.task n = some x) (y : RowTask) : (s.addTask y).task n = some x := by
  obtain ⟨p, hp, hx⟩ := Option.map_eq_some_iff.mp h
  have first : (s.blw.tasks ++ [(s.blw.nextTask, y)]).find? (fun p => p.1 == n) = some p := by rw [List.find?_append, hp, Option.some_or]
  exact (congrArg (Option.map (·.2)) first).trans (congrArg some hx)

/-- A task that has left is not there. -/
theorem State.endTask_task : (s.endTask n).task n = none := by
  unfold State.endTask
  split
  case h_1 gone => exact gone
  case h_2 x _ =>
    have left : (s.modBlw (fun b => { b with tasks := b.tasks.filter (fun p => p.1 != n) })).task n = none := by simp [State.task]
    cases x.core <;> exact ite_keeps (P := fun t => t.task n = none) left left

/-- The tasks, and what waits at the dispatchers. -/
def State.dispatch (s : State) : List (Nat × RowTask) × Tbl Bay := (s.blw.tasks, s.blw.bays)

theorem State.askTokens_dispatch (r : Nat) (k : ReqKind) (lv : Level) (who : Nat) : (s.askTokens r k lv who).dispatch = s.dispatch :=
  ite_keeps (P := fun t => t.dispatch = s.dispatch) rfl rfl

theorem State.wakeCore_dispatch (c : Nat) : (s.wakeCore c).dispatch = s.dispatch := by
  have asked (f : CoreS → CoreS) (b : Bool) (lv : State → Level) : ((s.modCore c f).whenB b (fun t =>
      t.askTokens (c / 8) .wake (lv t) c)).dispatch = s.dispatch :=
    State.whenB_keeps (P := fun t => t.dispatch = s.dispatch) (fun t k => (State.askTokens_dispatch ..).trans k) rfl
  unfold State.wakeCore
  dsimp only
  split
  · rfl
  · split
    · rfl
    · rfl
    · exact asked _ _ (fun t => t.wakeLevel c)

theorem State.coreEvent_dispatch (c ev : Nat) : (s.coreEvent c ev).dispatch = s.dispatch :=
  ite_keeps (P := fun t => t.dispatch = s.dispatch) rfl (State.wakeCore_dispatch c)

theorem State.eventAt_dispatch (p : CoreS → Bool) (ev : Nat) : (s.eventAt p ev).dispatch = s.dispatch :=
  State.each_keeps (P := fun t => t.dispatch = s.dispatch) (fun c t k => (State.coreEvent_dispatch (s := t) c ev).trans k) rfl

/-- A row that may be complete tells the cores so, and leaves the tasks. -/
theorem State.rowFinished_dispatch (m row : Nat) : (s.rowFinished i m row).dispatch = s.dispatch := by
  have of_blw {t u : State} (h : u.blw = t.blw) (k : t.dispatch = s.dispatch) : u.dispatch = s.dispatch := by
    rw [← k, State.dispatch, h, State.dispatch]
  unfold State.rowFinished
  dsimp only
  refine ite_keeps (P := fun t => t.dispatch = s.dispatch) ?finished rfl
  refine ite_keeps (P := fun t => t.dispatch = s.dispatch) (of_blw (State.picComplete_keeps (keeps_blw (by decide)) rfl) ?told) ?told
  refine (State.eventAt_dispatch _ _).trans (of_blw (State.modFrame_keeps (keeps_blw (by decide)) rfl) ?_)
  exact ite_keeps (P := fun t => t.dispatch = s.dispatch)
    (of_blw (State.closeCheck_keeps (keeps_blw (by decide)) (State.closeRow_keeps (keeps_blw (by decide)) rfl)) rfl) rfl

/-! The state that each stream is in (R157). -/

/-- Each stream is in the state that `x` gives it. -/
def State.InStates (x : Nat → DecState) (s : State) : Prop := ∀ j, (s.decS j).st = x j

section
variable {x : Nat → DecState}

/-- The updates of the other components leave the states. -/
theorem states_keeps {l : List Comp} (h : l.contains .dec = false) : Keeps l (State.InStates x) := by
  intro c hc
  cases c
  case dec => exact absurd hc (by simpa using h)
  case hq | fsh | irc | tck => exact fun _ _ _ k => k
  all_goals exact fun _ _ k => k

namespace State.InStates

variable (k : s.InStates x)
include k

/-- So does the update of a stream that leaves its state. -/
theorem modDecS {f : DecStream → DecStream} (h : ∀ d, (f d).st = d.st) : (s.modDecS i f).InStates x := by
  intro j
  by_cases hj : i = j
  · subst hj
    exact (congrArg _ (State.modDecS_same s i f)).trans ((h _).trans (k i))
  · exact (congrArg _ (State.modDecS_other s f hj)).trans (k j)

/-- A stream that enters a state. -/
theorem enter (y : DecState) : (s.modDecS i (fun d => { d with st := y })).InStates (Function.update x i y) := by
  intro j
  by_cases hj : j = i
  · subst hj
    rw [State.modDecS_same, Function.update_self]
  · rw [State.modDecS_other _ _ (Ne.symm hj), Function.update_of_ne hj, k j]

omit k in
theorem report {f : State → State} (h : (f s).InStates x) : (State.withLedger i (State.withStatus i f) s).InStates x := by
  obtain ⟨m, l, same, others⟩ := State.report_decS (s := s) (i := i) (f := f)
  intro j
  by_cases hj : i = j
  · subst hj
    rw [same]
    exact h i
  · rw [others j hj]
    exact h j

theorem modPic (f : DecPic → DecPic) : (s.modPic i n f).InStates x := k.modDecS fun _ => rfl

theorem modRow (r : Nat) (f : RowRec → RowRec) : (s.modRow i n r f).InStates x := k.modPic _

theorem modFrame (b : Nat) (f : FrameBuf → FrameBuf) : (s.modFrame i b f).InStates x :=
  State.modPoolD_keeps (states_keeps (by decide)) (k.modDecS fun _ => rfl)

theorem dropFrames : (s.dropFrames i).InStates x := k.modDecS fun _ => rfl

/-! Events and errors. -/

theorem pocEvent (poc : Option (BitVec 32)) (id : EventId) (items : List Item) : (s.pocEvent i poc id items).InStates x :=
  State.pocEvent_keeps (states_keeps (by decide)) k

theorem ledgerEvent (id : EventId) (pc : BitVec 32) (items : List Item) : (s.ledgerEvent id i pc items).InStates x :=
  State.ledgerEvent_keeps (states_keeps (by decide)) k

theorem raiseError (poc : Option (BitVec 32)) (y : DecErr × Option Nat) : (s.raiseError i poc y).InStates x :=
  State.modFreeCtr_keeps (states_keeps (by decide)) (pocEvent (k.modDecS fun _ => by rfl) _ _ _)

theorem decError (e : DecErr) (core : Option Nat) : (s.decError i n e core).InStates x :=
  modPic (k.modDecS fun _ => by rfl) _

theorem endSkip (poc : Option (BitVec 32)) : (s.endSkip i poc).InStates x := (k.pocEvent _ _ _).modDecS fun _ => rfl

theorem flushPic (p : DecPic) : (s.flushPic i p).InStates x := by
  unfold State.flushPic
  dsimp only
  refine State.each_keeps (fun _ _ k => k.raiseError _ _) ?losses
  have suspects (f : Cause → State → State) (h : ∀ c t, State.InStates x t → State.InStates x (f c t)) (c : Bool) :
      ((if c then s.tickFree else s).each (p.suspects.map (·.1)).eraseDups f).InStates x :=
    State.each_keeps h (ite_keeps (State.tickFree_keeps (states_keeps (by decide)) k) k)
  split
  · exact suspects _ (fun _ _ k => k.ledgerEvent _ _ _) _
  · exact ledgerEvent (suspects _ (fun _ _ k => k.ledgerEvent _ _ _) _) _ _ _

/-! Tile events. -/

theorem modTile (t : Nat) (f : TileEntry → TileEntry) : (s.modTile i t f).InStates x :=
  State.modTile_keeps (states_keeps (by decide)) k

theorem applyTile (t : Nat) (pc : BitVec 32) (v : TileEvent) : (s.applyTile i n t pc v).InStates x := (k.modTile _ _).modPic _

theorem applyForeign (t : Nat) (pc : BitVec 32) (a : T48) (p : TileOut) : (s.applyForeign i n t pc a p).InStates x :=
  ite_keeps (k.applyTile _ _ _) (k.modTile _ _)

theorem untaint (b t : Nat) : (s.untaint i n b t).InStates x := (k.modFrame _ _).modDecS fun _ => rfl

theorem applyLedger (r : Nat) (pc : BitVec 32) (p : TileOut) (c : Option TileOut) : (s.applyLedger i n r pc p c).InStates x := by
  have taken (d : DecStream) (t : Nat) (matched : Bool) (p c : TileOut) : (d.holdTake t matched p c).st = d.st := by
    unfold DecStream.holdTake
    split
    · rfl
    · split <;> rfl
  have applied (t : Nat) (v : TileEvent) (b : Nat) (c : Bool) :
      (if c then (s.applyTile i n t pc v).untaint i n b t else s.applyTile i n t pc v).InStates x :=
    ite_keeps ((k.applyTile _ _ _).untaint _ _) (k.applyTile _ _ _)
  unfold State.applyLedger
  cases c with
  | none => exact ite_keeps ((applied _ _ _ _).modDecS fun _ => rfl) (applied _ _ _ _)
  | some c => exact (applied _ _ _ _).modDecS fun d => taken d _ _ _ _

theorem ledgerApplied (p : DecPic) : (s.ledgerApplied i p).InStates x := by
  unfold State.ledgerApplied
  split
  · exact k.modDecS fun _ => rfl
  · exact State.tickFree_keeps (states_keeps (by decide)) k

theorem applyEnters (r : Nat) : (s.applyEnters i n r).InStates x :=
  State.InStates.modRow (State.each_keeps (fun _ _ k => k.applyTile _ _ _) k) _ _

theorem settleVideo (r : Nat) : (s.settleVideo i n r).InStates x := by
  have plain (c : Bool) (ts : List TileOut) (f : TileOut → State → State)
      (h : ∀ y t, State.InStates x t → State.InStates x (f y t)) : State.InStates x (if c then s else s.each ts f) :=
    ite_keeps k (State.each_keeps h k)
  unfold State.settleVideo
  dsimp only
  refine ledgerApplied (modRow (modDecS (plain _ _ _ fun y t k => ?_) fun _ => by rfl) _ _) _
  split
  · exact k.applyForeign _ _ _ _
  · exact k.applyLedger _ _ _ _

theorem settleValue (r : Nat) : (s.settleValue i n r).InStates x :=
  ite_keeps (k.modRow _ _) (ite_keeps (ledgerApplied (modRow (State.each_keeps (fun _ _ k => k.applyLedger _ _ _ _) k) _ _) _) k)

theorem settleRow (r : Nat) : (s.settleRow i n r).InStates x := by
  have entered (c : Bool) : State.InStates x (if c then s else s.applyEnters i n r) := ite_keeps k (k.applyEnters r)
  have video (c e : Bool) : State.InStates x (if e then (if c then s else s.applyEnters i n r)
      else (if c then s else s.applyEnters i n r).settleVideo i n r) := ite_keeps (entered c) ((entered c).settleVideo r)
  exact ite_keeps k (ite_keeps (entered _) (ite_keeps (video _ _) ((video _ _).settleValue r)))

theorem settle : (s.settle i).InStates x :=
  modDecS (State.each_keeps (fun _ _ k => k.flushPic _)
    (State.each_keeps (fun _ _ k => State.each_keeps (fun _ _ k => k.settleRow _) k) k)) fun _ => rfl

/-! Pictures that are discarded, and references that are generated (R155, R156). -/

theorem countCores : (s.countCores i).InStates x := k.modDecS fun _ => rfl

theorem endTask : (s.endTask n).InStates x := by
  unfold State.endTask
  split
  · exact k
  · next t _ =>
    refine countCores (ite_keeps ?_ (modDecS ?_ fun _ => rfl)) <;> cases t.core <;> exact k

theorem discardPic (p : DecPic) : (s.discardPic i p).InStates x :=
  have flushed := flushPic (State.each_keeps (P := State.InStates x) (f := State.endTask) (fun _ _ k => k.endTask) k) (i := i)
  dropFrames (modDecS (State.modPoolD_keeps (states_keeps (by decide)) (flushed _)) fun _ => rfl)

theorem newFrame (f : FrameBuf) : (s.newFrame i f).InStates x := by
  unfold State.newFrame
  split
  · exact k
  · exact ite_keeps k (modDecS (State.modPoolD_keeps (states_keeps (by decide))
      (State.claimDesc_keeps (states_keeps (by decide)) k)) fun _ => rfl)

theorem generate (poc : BitVec 32) (order : Nat) : (s.generate i n poc order).InStates x := by
  refine modDecS (k.newFrame _) fun d => ?_
  exact List.foldlRecOn _ _ (motive := fun e : DecStream => e.st = d.st) rfl fun _ h _ _ => h

theorem fillRefs (e : Nat) (refs : List (BitVec 32)) : (s.fillRefs i n e refs).InStates x :=
  State.each_keeps (fun _ _ k => k.generate _ _) k

theorem lostRefs : (s.lostRefs i n).InStates x := ite_keeps k ((k.fillRefs _ _).decError _ _)

end State.InStates

end

end Sys2Proof.Machine
end

section
/-! PROOF. The commands of decode tasks: issue, completion, lateness and skipping, and the segments of Berris records (R54, R59, R131 to
R142, R154, R155). -/

namespace Sys2Proof.Machine

variable {s : State} {i n c : Nat}

/-! The commands of row tasks. -/

section
variable (s)

theorem exec_decodeTaskIssue (b c : Nat) : exec (.decodeTaskIssue b c) s = execDecodeTaskIssue b c s := rfl
theorem exec_decodeRowComplete (n : Nat) (res : List TileRes) (errs : List DecErr) :
    exec (.decodeRowComplete n res errs) s = execDecodeRowComplete n res errs s := rfl
theorem exec_checkTaskComplete (n : Nat) (res : CheckResult) : exec (.checkTaskComplete n res) s = execCheckTaskComplete n res s := rfl
theorem exec_decodeRowLate (n : Nat) : exec (.decodeRowLate n) s = execDecodeRowLate n s := rfl
theorem exec_decodeSkipped (i n : Nat) : exec (.decodeSkipped i n) s = execDecodeSkipped i n s := rfl
theorem exec_ledgerSegment (i a : Nat) (bs : List Byte) : exec (.ledgerSegment i a bs) s = execLedgerSegment i a bs s := rfl

end

/-! A task is issued (R14, R133 to R137, R193). -/

section
variable {b : Nat} {x : RowTask}

/-- Task `n` moves from its bay to a core. -/
def State.handTask (b c n : Nat) (s : State) : State :=
  ((s.modBay b (fun y => { y with tasks := y.tasks.filter (· != n) })).modCore c (fun y => { y with tasks := y.tasks ++ [n] })).modTask n
    (fun t => { t with core := some c, issuedAt := s.now })

/-- The decode of a primary task's row begins on core `c`, which has the task's number in the stream from then on. -/
def State.beginTask (c : Nat) (x : RowTask) (s : State) : State :=
  if x.check then s else (s.beginDual x).modDecS x.stream (fun d => { d with
    team := d.team.put none ((s.decS x.stream).slotOf x) (some c) })

theorem exec_decodeTaskIssue_of_asleep (hs : s.serving = true) (hb : (s.bay b).fenced = false) (hn : s.nextTask b c = some n)
    (hc : (s.core c).pstate ≠ .c0) : exec (.decodeTaskIssue b c) s = .next (s.wakeCore c) := by
  simp [exec_decodeTaskIssue, execDecodeTaskIssue, hs, hb, hn, hc]

theorem exec_decodeTaskIssue_of_c0 (hs : s.serving = true) (hb : (s.bay b).fenced = false) (hn : s.nextTask b c = some n)
    (hc : (s.core c).pstate = .c0) (hx : s.task n = some x) :
    exec (.decodeTaskIssue b c) s = .next (State.withStatus x.stream (fun s =>
      (((s.handTask b c n).beginTask c x).countCores x.stream).coreEvent c 32) s) := by
  simp only [exec_decodeTaskIssue, execDecodeTaskIssue, hs, hb, hn, hc, hx, Bool.not_true, Bool.or_self, Bool.false_eq_true, if_false,
    bne_self_eq_false]
  rfl

@[simp] theorem State.modTask_core (m : Nat) (f : RowTask → RowTask) (d : Nat) : (s.modTask m f).core d = s.core d := rfl
@[simp] theorem State.modTask_bay (m : Nat) (f : RowTask → RowTask) (d : Nat) : (s.modTask m f).bay d = s.bay d := rfl
@[simp] theorem State.modBay_core (m : Nat) (f : Bay → Bay) (d : Nat) : (s.modBay m f).core d = s.core d := rfl
@[simp] theorem State.countCores_bay (j d : Nat) : (s.countCores j).bay d = s.bay d := rfl
@[simp] theorem State.modCore_bay (m : Nat) (f : CoreS → CoreS) (d : Nat) : (s.modCore m f).bay d = s.bay d := rfl

theorem State.handTask_core_same : (s.handTask b c n).core c = { s.core c with tasks := (s.core c).tasks ++ [n] } := by
  simp [State.handTask]

theorem State.handTask_core_other {d : Nat} (h : c ≠ d) : (s.handTask b c n).core d = s.core d := by
  simp [State.handTask, State.modCore_other _ _ h]

theorem State.handTask_bay : ((s.handTask b c n).bay b).tasks = (s.bay b).tasks.filter (· != n) := by
  simp [State.handTask]

theorem State.handTask_task (hx : s.task n = some x) : (s.handTask b c n).task n = some { x with core := some c, issuedAt := s.now } :=
  State.modTask_same (s := (s.modBay b _).modCore c _) hx _

theorem State.beginTask_cores : (s.beginTask c x).cores = s.cores :=
  ite_keeps (P := fun t => t.cores = s.cores) rfl
    (State.modDecS_keeps (keeps_cores (by decide)) (State.beginDual_keeps (keeps_cores (by decide)) rfl))

theorem State.beginTask_of_check (hx : x.check = true) : s.beginTask c x = s := by
  rw [State.beginTask, if_pos hx]

/-- The check task that a row's decode forms stands behind the tasks that are there. -/
theorem State.beginDual_task {y : RowTask} (h : s.task n = some y) : (s.beginDual x).task n = some y := by
  have fixed {t u : State} (hu : u.blw = t.blw) (ht : t.blw = s.blw) : u.task n = some y :=
    (State.task_of_blw (hu.trans ht) n).trans h
  have begun : (s.fixRow x.stream x.pic ((s.decS x.stream).tileRow x)).blw = s.blw := State.fixRow_keeps (keeps_blw (by decide)) rfl
  have seeded (cs : List Nat) (tile : State → Nat → Nat) {t : State} :
      (t.each cs (fun c u => u.seedCopy x.stream x.pic (tile u c))).blw = t.blw :=
    State.each_keeps (P := fun u => u.blw = t.blw) (fun _ _ k => State.seedCopy_keeps (keeps_blw (by decide)) k) rfl
  unfold State.beginDual
  dsimp only
  split
  · exact fixed rfl begun
  · split
    · refine State.addTask_task (fixed (State.modRow_keeps (keeps_blw (by decide)) (State.modDecS_keeps (keeps_blw (by decide))
        (seeded _ (fun u c => (s.decS x.stream).tileRow x * (u.decS x.stream).cols + c)))) begun) _
    · exact fixed (State.noDualRow_keeps (keeps_blw (by decide)) rfl) begun

theorem State.beginTask_task {y : RowTask} (h : s.task n = some y) : (s.beginTask c x).task n = some y :=
  ite_keeps (P := fun t => t.task n = some y) h
    ((State.task_of_blw (State.modDecS_keeps (keeps_blw (by decide)) rfl) n).trans (State.beginDual_task h))

/-- An event of a core in C0 leaves its tasks. -/
theorem State.coreEvent_tasks_of_c0 (h : (s.core c).pstate = .c0) (ev : Nat) : ((s.coreEvent c ev).core c).tasks = (s.core c).tasks := by
  unfold State.coreEvent
  split
  · rfl
  · obtain ⟨ths, evs, hset⟩ := CoreS.setEvent_eq ev
      (if ev < 32 || (s.core c).event ev then s.core c else { s.core c with movedAt := s.now })
    have same := (State.modCore_same s c
      (fun x => CoreS.setEvent ev (if ev < 32 || x.event ev then x else { x with movedAt := s.now }))).trans hset
    rw [State.wakeCore_of_c0 (by rw [same]; split <;> exact h), same]
    split <;> rfl

/-- What core `c`, its bay and the task are once the task is on the core and the core has its event. -/
theorem State.issued_of_c0 (hc : (s.core c).pstate = .c0) (hx : s.task n = some x) :
    ∃ u : State, u = (((s.handTask b c n).beginTask c x).countCores x.stream).coreEvent c 32 ∧
      (u.core c).tasks = (s.core c).tasks ++ [n] ∧ u.task n = some { x with core := some c, issuedAt := s.now } ∧
      (∀ d, c ≠ d → u.core d = s.core d) ∧ (x.check = true → (u.bay b).tasks = (s.bay b).tasks.filter (· != n)) := by
  have core (d : Nat) : (((s.handTask b c n).beginTask c x).countCores x.stream).core d = (s.handTask b c n).core d := by
    rw [State.core, State.core]
    exact congrArg (Tbl.look · CoreS.reset d) State.beginTask_cores
  have awake : ((((s.handTask b c n).beginTask c x).countCores x.stream).core c).pstate = .c0 := by
    rw [core, State.handTask_core_same]
    exact hc
  obtain ⟨tasks, bays⟩ := Prod.mk.inj (State.coreEvent_dispatch (s := ((s.handTask b c n).beginTask c x).countCores x.stream) c 32)
  obtain ⟨-, others⟩ := State.coreEvent_of_c0 awake 32
  refine ⟨_, rfl, ?_, ?_, fun d hd => ?_, fun check => ?_⟩
  · rw [State.coreEvent_tasks_of_c0 awake, core, State.handTask_core_same]
  · exact (State.task_congr tasks n).trans (State.beginTask_task (State.handTask_task hx))
  · rw [others d hd, core, State.handTask_core_other hd]
  · rw [State.beginTask_of_check check] at bays ⊢
    rw [State.bay_congr bays, State.countCores_bay, State.handTask_bay]

end

/-! A task is completed (R131, R138, R140). -/

section
variable {x : RowTask} {res : List TileRes} {errs : List DecErr}

/-- Outside the batches of a patch no picture boundary matters to it (R207). -/
theorem State.patchStep_of_no_batch (h : ∀ q, s.glb.patch = some q → q.step ≠ 4) : s.patchStep = s := by
  unfold State.patchStep
  split
  · rfl
  · next q hq => simp [h q hq]

theorem State.primaryDone_task : (s.primaryDone n x res errs).task n = none :=
  (State.task_of_blw (State.settle_keeps (keeps_blw (by decide)) rfl) n).trans
    ((State.task_congr (congrArg Prod.fst (State.rowFinished_dispatch _ _)) n).trans State.endTask_task)

theorem State.checkTaskDone_task : (s.checkTaskDone n x res errs).task n = none :=
  (State.task_of_blw (State.settle_keeps (keeps_blw (by decide)) (State.closeCheck_keeps (keeps_blw (by decide)) rfl)) n).trans
    State.endTask_task

/-- A command that reports an operation of stream `i`, with which task `n` leaves, and that lets a patch go on. -/
theorem State.reported_task {f : State → State} (hp : ∀ q, s.glb.patch = some q → q.step ≠ 4) (glb : (f s).glb = s.glb)
    (gone : (f s).task n = none) : (State.withLedger i (State.withStatus i f) s).patchStep.task n = none := by
  have same : (State.withLedger i (State.withStatus i f) s).glb = s.glb := State.report_of (keeps_glb (by decide)) glb
  rw [State.patchStep_of_no_batch (same ▸ hp)]
  exact (State.task_of_blw (State.report_of (keeps_blw (by decide)) rfl) n).trans gone

theorem exec_decodeRowComplete_of_primary (hx : s.task n = some x) (hk : x.check = false) (hc : x.core = some c)
    (hs : (s.decS x.stream).stalls res = false) : exec (.decodeRowComplete n res errs) s =
      .next (State.withLedger x.stream (State.withStatus x.stream (State.primaryDone n x res errs)) s).patchStep := by
  simp [exec_decodeRowComplete, execDecodeRowComplete, hx, hk, hc, hs]

theorem exec_checkTaskComplete_of_check (hx : s.task n = some x) (hk : x.check = true) (hc : x.core = some c)
    (hs : (s.decS x.stream).checkStalls x.pic res = false) : exec (.checkTaskComplete n ⟨res, errs⟩) s =
      .next (State.withLedger x.stream (State.withStatus x.stream (State.checkTaskDone n x res errs)) s).patchStep := by
  simp [exec_checkTaskComplete, execCheckTaskComplete, hx, hk, hc, hs]

/-! A task is late (R142, R154, R377). -/

theorem exec_decodeRowLate_of_check (hx : s.task n = some x) (hl : x.late = false) (hd : x.deadline < s.time) (hk : x.check = true) :
    exec (.decodeRowLate n) s = .next ((s.modTask n (fun x => { x with late := true })).latch (96 + x.bay)) := by
  simp [exec_decodeRowLate, execDecodeRowLate, hx, hl, hd, hk]

theorem exec_decodeRowLate_of_primary (hx : s.task n = some x) (hl : x.late = false) (hd : x.deadline < s.time) (hk : x.check = false) :
    exec (.decodeRowLate n) s = .next (State.withStatus x.stream (State.rowLate x)
      ((s.modTask n (fun x => { x with late := true })).latch (96 + x.bay))) := by
  simp [exec_decodeRowLate, execDecodeRowLate, hx, hl, hd, hk]

/-- An event of a picture leaves the count of late rows. -/
theorem State.decEvent_rowsLate (m : Nat) (id : EventId) (cause : Nat) (items : List Item) :
    ((s.decEvent i m id cause items).decS i).rowsLate = (s.decS i).rowsLate := by
  have posted (t : State) (p : Nat) (items : List Item) : (t.raiseP p id items).decS i = t.decS i := rfl
  unfold State.decEvent State.picOnce
  split
  · rfl
  · rw [posted, State.modPic, State.modDecS_same]

theorem State.rowLate_rowsLate (h : x.row ∉ ((s.decS x.stream).pic x.pic).lateRows) :
    ((s.rowLate x).decS x.stream).rowsLate = satInc (s.decS x.stream).rowsLate := by
  have first : ((s.decS x.stream).pic x.pic).lateRows.contains x.row = false := by simpa using h
  simp only [State.rowLate, first, Bool.false_eq_true, if_false]
  rw [State.decEvent_rowsLate, State.modPic, State.modDecS_same, State.modDecS_same]

end

/-! A stream skips (R155). -/

section
variable {x : List DecPic × Option DecPic}

/-- A stream discards the access units `x.1`, and goes on at the entry access unit `x.2` if it holds one. -/
def State.skip (i : Nat) (x : List DecPic × Option DecPic) (s : State) : State :=
  let s := s.each x.1 (State.discardPic i)
  let s := s.each ((s.decS i).pics.map (·.num)) (State.lostRefs i)
  (match x.2 with
    | some e => (if x.1.isEmpty then s else s.endSkip i (some e.poc)).modDecS i (fun d => { d with noRasl := e.irap })
    | none => s.modDecS i (fun d => { d with st := .skipping })).settle i

/-- What a stream that is behind discards, and where it goes on. -/
def State.toSkip (s : State) (i : Nat) : List DecPic × Option DecPic := skipped ((s.decS i).pics.filter (s.unstarted i))

theorem exec_decodeSkipped_of_behind (hst : (s.decS i).st = .decoding) (hb : s.behind i = true) :
    exec (.decodeSkipped i (s.toSkip i).1.length) s =
      .next (State.withLedger i (State.withStatus i (fun s => s.skip i (s.toSkip i))) s) := by
  rw [exec_decodeSkipped, execDecodeSkipped, if_neg (by simp [hst, hb, State.toSkip])]
  rfl

/-- Only the stream that skips changes its state, where it holds no entry access unit to go on at. -/
theorem State.InStates.skip {y : Nat → DecState} (k : s.InStates y) :
    (s.skip i x).InStates (if x.2.isSome then y else Function.update y i .skipping) := by
  have left : (s.each x.1 (State.discardPic i)).InStates y := State.each_keeps (fun _ _ k => k.discardPic _) k
  have refs := State.each_keeps (P := State.InStates y) (f := State.lostRefs i)
    (xs := ((s.each x.1 (State.discardPic i)).decS i).pics.map (·.num)) (fun _ _ k => k.lostRefs) left
  refine State.InStates.settle ?_
  cases x.2 with
  | some e => exact State.InStates.modDecS (ite_keeps refs (refs.endSkip _)) fun _ => rfl
  | none => exact refs.enter .skipping

end

theorem exec_decodeSkipped_states (hst : (s.decS i).st = .decoding) (hb : s.behind i = true) :
    ∃ t, exec (.decodeSkipped i (s.toSkip i).1.length) s = .next t ∧
      (t.decS i).st = (if (s.toSkip i).2.isSome then .decoding else .skipping) ∧ ∀ j, i ≠ j → (t.decS j).st = (s.decS j).st := by
  have states := State.InStates.report (i := i) (f := fun s => s.skip i (s.toSkip i))
    (State.InStates.skip (x := s.toSkip i) (s := s) (y := fun j => (s.decS j).st) fun _ => rfl)
  refine ⟨_, exec_decodeSkipped_of_behind hst hb, (states i).trans ?_, fun j hj => (states j).trans ?_⟩ <;>
    cases (s.toSkip i).2.isSome
  · simp only [Bool.false_eq_true, if_false, Function.update_self]
  · exact hst
  · simp only [Bool.false_eq_true, if_false, Function.update_of_ne (Ne.symm hj)]
  · rfl

/-! Segments (R54, R59). -/

/-- A message that is no segment of the stream's records. -/
def DecStream.ignores (d : DecStream) (bs : List Byte) : Bool :=
  (d.st != .decoding && d.st != .skipping) || d.cfg.foreign || bs.take 16 != ledgerUuid

theorem exec_ledgerSegment_of_other {a : Nat} {bs : List Byte} (h : (s.decS i).cfg.foreign = true ∨ bs.take 16 ≠ ledgerUuid) :
    exec (.ledgerSegment i a bs) s = .next s := by
  have ignored : (s.decS i).ignores bs = true := by rcases h with h | h <;> simp [DecStream.ignores, h]
  rw [exec_ledgerSegment, execLedgerSegment]
  dsimp only
  split
  · rfl
  · exact congrArg ok (if_pos ignored)

theorem exec_ledgerSegment_of_open {a : Nat} {bs : List Byte} {p : DecPic} (hf : (s.decS i).cfg.foreign = false)
    (hu : bs.take 16 = ledgerUuid) (hst : (s.decS i).st = .decoding ∨ (s.decS i).st = .skipping) (hp : (s.decS i).openPic = some p) :
    exec (.ledgerSegment i a bs) s =
      .next (State.withLedger i (State.withStatus i (fun u => (u.segment i p.num a bs).settle i)) s) := by
  have taken : ¬ (s.decS i).ignores bs = true := by rcases hst with h | h <;> simp [DecStream.ignores, h, hf, hu]
  rw [exec_ledgerSegment, execLedgerSegment]
  dsimp only
  rw [hp]
  exact congrArg ok (if_neg taken)

/-- Settles O16: each command by the branch that its hypotheses choose, and what that branch does to the task, the core, the stream and
their states. -/
theorem decodeTasks : Obligations.DecodeTasks := by
  refine ⟨fun s b c n hs hb hn hc => exec_decodeTaskIssue_of_asleep hs hb hn hc, ?issue, ?row, ?check,
    fun s n x hx hl hd hk => exec_decodeRowLate_of_check hx hl hd hk, ?late, ?skip,
    fun s i a bs h => exec_ledgerSegment_of_other h, fun s i a bs p hf hu hst hp => exec_ledgerSegment_of_open hf hu hst hp⟩
  case issue =>
    intro s b c n x hs hb hn hc hx
    obtain ⟨u, rfl, tasks, task, others, bay⟩ := State.issued_of_c0 (b := b) hc hx
    have cores {f : State → State} : (State.withStatus x.stream f s).cores = (f s).cores :=
      State.withStatus_of (keeps_cores (by decide)) rfl
    have blw {f : State → State} : (State.withStatus x.stream f s).blw = (f s).blw :=
      State.withStatus_of (keeps_blw (by decide)) rfl
    refine ⟨_, exec_decodeTaskIssue_of_c0 hs hb hn hc hx, ?_, ?_, fun d hd => ?_, fun hk => ?_⟩
    · rw [State.core, cores]
      exact tasks
    · exact (State.task_of_blw blw n).trans task
    · rw [State.core, cores]
      exact others d hd
    · rw [State.bay_congr (congrArg Blw.bays blw)]
      exact bay hk
  case row =>
    intro s n c x res errs hx hk hc hs hp
    exact ⟨_, exec_decodeRowComplete_of_primary hx hk hc hs,
      State.reported_task hp (State.primaryDone_keeps (keeps_glb (by decide)) rfl) State.primaryDone_task⟩
  case check =>
    intro s n c x res errs hx hk hc hs hp
    exact ⟨_, exec_checkTaskComplete_of_check hx hk hc hs,
      State.reported_task hp (State.checkTaskDone_keeps (keeps_glb (by decide)) rfl) State.checkTaskDone_task⟩
  case late =>
    intro s n x hx hl hd hk hr
    let u := (s.modTask n (fun x => { x with late := true })).latch (96 + x.bay)
    have irc : (State.withStatus x.stream (State.rowLate x) u).irc = u.irc :=
      State.withStatus_of (keeps_irc (by decide)) (State.rowLate_keeps (keeps_irc (by decide)) rfl)
    have blw : (State.withStatus x.stream (State.rowLate x) u).blw = u.blw :=
      State.withStatus_of (keeps_blw (by decide)) (State.rowLate_keeps (keeps_blw (by decide)) rfl)
    obtain ⟨m, status, -⟩ := State.withStatus_decS (s := u) (i := x.stream) (f := State.rowLate x)
    refine ⟨_, exec_decodeRowLate_of_primary hx hl hd hk, ?_, ?_, ?_⟩
    · rw [irc]
      exact State.latch_mem _ _
    · rw [status]
      exact State.rowLate_rowsLate (s := u) hr
    · exact (State.task_of_blw blw n).trans (State.modTask_same hx fun x => { x with late := true })
  case skip =>
    rintro s i x hst hb rfl
    exact exec_decodeSkipped_states hst hb

end Sys2Proof.Machine
end

section
/-! PROOF. The units of a bitstream: slice segments that open no picture, parameter sets, and the end of an access unit without a picture
(R125, R126, R130, R131, R148, R157). -/

namespace Sys2Proof.Machine

variable {s : State} {i : Nat}

/-! The commands of a bitstream's units. -/

section
variable (s)

theorem exec_sliceHeaderParse (i : Nat) (x : SliceInfo) : exec (.sliceHeaderParse i x) s = execSliceHeaderParse i x s := rfl
theorem exec_paramSetReceived (i : Nat) (p : ParamSet) (au : AuKind) :
    exec (.paramSetReceived i p au) s = execParamSetReceived i p au s := rfl
theorem exec_accessUnitEnd (i : Nat) : exec (.accessUnitEnd i) s = execAccessUnitEnd i s := rfl

end

/-! What a unit of one stream leaves. -/

/-- From `s` to `t` only stream `i` changes, and not what `v` reads of it. -/
def State.OnlyIn {β : Type} (i : Nat) (v : DecStream → β) (s t : State) : Prop :=
  v (t.decS i) = v (s.decS i) ∧ ∀ j, i ≠ j → t.decS j = s.decS j

section
variable {β : Type} {v : DecStream → β} {t : State}

/-- The updates of the other components change no stream. -/
theorem onlyIn_keeps {l : List Comp} (h : l.contains .dec = false) : Keeps l (State.OnlyIn i v s) := by
  intro c hc
  cases c
  case dec => exact absurd hc (by simpa using h)
  case hq | fsh | irc | tck => exact fun _ _ _ k => k
  all_goals exact fun _ _ k => k

namespace State.OnlyIn

theorem refl (s : State) : State.OnlyIn i v s s := ⟨rfl, fun _ _ => rfl⟩

variable (k : State.OnlyIn i v s t)
include k

theorem modDecS {f : DecStream → DecStream} (h : ∀ d, v (f d) = v d) : State.OnlyIn i v s (t.modDecS i f) := by
  obtain ⟨same, others⟩ := k
  exact ⟨by rw [State.modDecS_same, h, same], fun j hj => by rw [State.modDecS_other _ _ hj, others j hj]⟩

theorem modPic (n : Nat) (f : DecPic → DecPic) (h : ∀ d ps, v { d with pics := ps } = v d) :
    State.OnlyIn i v s (t.modPic i n f) := k.modDecS fun _ => h _ _

theorem decError (n : Nat) (e : DecErr) (core : Option Nat)
    (h : ∀ d ps r, v { d with pics := ps, recoverAt := r } = v d) : State.OnlyIn i v s (t.decError i n e core) :=
  modPic (k.modDecS fun d => h d _ _) n _ fun d ps => h d ps d.recoverAt

theorem unitError (poc : Option (BitVec 32)) (e : DecErr)
    (h : ∀ d es r n l, v { d with auErrs := es, recoverAt := r, errors := n, lastError := l } = v d) :
    State.OnlyIn i v s (t.unitError i poc e) :=
  ite_keeps k (State.modFreeCtr_keeps (onlyIn_keeps (by decide)) (State.pocEvent_keeps (onlyIn_keeps (by decide))
    (modDecS (k.modDecS fun d => h d _ _ d.errors d.lastError) fun d => h d d.auErrs d.recoverAt _ _)))

theorem tellChange (poc : Option (BitVec 32)) (h : ∀ d, v { d with auChange := none, auTold := true } = v d) :
    State.OnlyIn i v s (t.tellChange i poc) := by
  unfold State.tellChange
  split
  · exact State.pocEvent_keeps (onlyIn_keeps (by decide)) (k.modDecS h)
  · exact k

omit k in
theorem withStatus {f : State → State} (k : State.OnlyIn i v s (f t)) (h : ∀ d m, v { d with updSeq := m } = v d) :
    State.OnlyIn i v s (State.withStatus i f t) := ite_keeps k (k.modDecS fun d => h d _)

end State.OnlyIn

end

/-! Slice segments (R130, R131, R148). -/

section
variable {x : SliceInfo}

/-- The stream once `n` bytes are parsed off the front of its queue. -/
def DecStream.parsed (n : Nat) (d : DecStream) : DecStream :=
  { d with items := (takeItems n d.items).1, rptr := d.rptr + n, arrival := headArrival d.arrival d.items }

theorem State.parse_eq (n : Nat) : s.parse i n = (s.modDecS i (DecStream.parsed n), (takeItems n (s.decS i).items).2) := rfl

/-- A slice segment that opens no picture enters no access unit. -/
theorem State.atEntry_of_open (h : x.newPic = false) : s.atEntry i x = s := by
  simp [State.atEntry, h]

/-- On a stream that waits or is UNSUPPORTED, the bytes of a slice segment that opens no picture are parsed, and no more. -/
theorem State.sliceParse_of_waiting (hst : (s.decS i).st = .waiting ∨ (s.decS i).st = .unsupported) (hn : x.newPic = false) :
    s.sliceParse i x = some (s.modDecS i (DecStream.parsed x.bytes)) := by
  have state : ((s.modDecS i (DecStream.parsed x.bytes)).decS i).st = (s.decS i).st := by rw [State.modDecS_same]; rfl
  have idle : ((s.decS i).st == .decoding) = false ∧ ((s.decS i).st == .skipping) = false := by rcases hst with h | h <;> simp [h]
  simp only [State.sliceParse, State.parse_eq, State.atEntry_of_open hn, hn, state, idle, Bool.false_and, Bool.or_self,
    Bool.false_eq_true, if_false, ite_self]

theorem exec_sliceHeaderParse_of_parsed {u : State} (hs : s.serving = true) (hst : (s.decS i).st ≠ .idle)
    (hw : (s.decS i).rptr + x.bytes ≤ (s.decS i).wptr) (hu : s.sliceParse i x = some u) :
    ∃ f : State → State, f s = u.settleOut i ∧
      exec (.sliceHeaderParse i x) s = .next (State.withLedger i (State.withStatus i f) s) := by
  refine ⟨fun s => ((s.sliceParse i x).getD s).settleOut i, by simp only [hu, Option.getD_some], ?_⟩
  simp [exec_sliceHeaderParse, execSliceHeaderParse, hs, hst, hu, Nat.not_lt.mpr hw]

theorem exec_sliceHeaderParse_of_none (h : s.sliceParse i x = none) : exec (.sliceHeaderParse i x) s = .next s := by
  simp [exec_sliceHeaderParse, execSliceHeaderParse, h]

theorem State.settle_of_no_pics (h : (s.decS i).pics = []) (j : Nat) : (s.settle i).decS j = s.decS j := by
  have gone : s.settle i = s.modDecS i (fun d => { d with pics := d.pics.filter (fun p => !d.picDone p) }) := by
    simp only [State.settle, h, List.map_nil, List.filter_nil, State.each, List.foldl_nil]
  rw [gone]
  by_cases hj : i = j
  · subst hj
    rw [State.modDecS_same, h, List.filter_nil, ← h]
  · exact State.modDecS_other _ _ hj

/-- Where no picture is reordered, or none is in decoding, no event waited for one to begin. -/
theorem State.settleOut_decS (h : (s.decS i).reorderDepth = 0 ∨ (s.decS i).pics = []) (j : Nat) : (s.settleOut i).decS j = s.decS j := by
  unfold State.settleOut
  split
  · rfl
  · next depth => exact State.settle_of_no_pics (h.resolve_left depth) j

/-- A slice segment that takes its place in the picture in arrival, without an error. -/
theorem State.sliceOf_of_no_error {p : DecPic} {mark : Nat} (h : (s.decS i).segmentError p x false = none) :
    s.sliceOf i p x mark false = (s.modPic i p.num (fun p => { p with
      nextCtu := max p.nextCtu (x.addr + x.ctus), slices := addSegment x p.slices, broken := none })).formTasks i p x mark := by
  simp only [State.sliceOf, h, Bool.false_and, Bool.false_eq_true, if_false, Option.any_none, Option.map_none, Option.isSome_none]

/-- A slice segment of the picture in arrival, without a recovery point message. -/
theorem State.slice_of_open {p : DecPic} {mark : Nat} {gap : Bool} (hb : (s.decS i).auBad = false) (hk : (s.decS i).auSkip = false)
    (hn : x.newPic = false) (hm : x.exact = false ∨ x.recovery = none) (hp : (s.decS i).openPic = some p) :
    s.slice i x mark gap = some ((s.modDecS i id).sliceOf i p x mark gap) := by
  have message : (x.exact && x.recovery.isSome) = false := by rcases hm with h | h <;> simp [h]
  simp only [State.slice, hb, hk, hn, message, Bool.or_self, Bool.false_and, Bool.false_eq_true, if_false, Option.map_some]
  have same {f : DecStream → DecStream} (h : ∀ d, f d = d) : ((s.modDecS i f).decS i).openPic = some p := by
    rw [State.modDecS_same, h, hp]
  rw [same fun _ => rfl]
  rfl

section
variable {α : Type} (g : α → State → RowTask)

/-- Tasks that are there stay as others are formed. -/
theorem State.mem_each_addTask {y : Nat × RowTask} (ks : List α) (h : y ∈ s.blw.tasks) :
    y ∈ (s.each ks (fun k s => s.addTask (g k s))).blw.tasks :=
  State.each_keeps (P := fun t => y ∈ t.blw.tasks) (fun _ _ h => List.mem_append_left _ h) h

/-- A task is formed for each key. -/
theorem State.each_addTask_mem (ks : List α) {k : α} (hk : k ∈ ks) :
    ∃ u, ∃ y ∈ (s.each ks (fun k s => s.addTask (g k s))).blw.tasks, y.2 = g k u := by
  induction ks generalizing s with
  | nil => cases hk
  | cons a r ih =>
    rcases List.mem_cons.mp hk with rfl | rest
    · exact ⟨s, (s.blw.nextTask, g k s), State.mem_each_addTask g r (List.mem_append_right _ (List.mem_singleton_self _)), rfl⟩
    · exact ih rest

end

/-- The rows of a segment that have no task, of a picture in one piece. -/
def unformedRows (x : SliceInfo) (p : DecPic) : List (Nat × Nat) :=
  (((List.range (x.lastRow + 1 - x.firstRow)).map (x.firstRow + ·)).flatMap (fun r => [0].map (fun c => (r, c)))).filter
    (fun k => !p.formed.contains k && decide (k.1 < p.ctuRows) && decide (k.2 < 1))

theorem mem_unformedRows {p : DecPic} {r : Nat} (hf : x.firstRow ≤ r) (hl : r ≤ x.lastRow) (hr : r < p.ctuRows)
    (hn : (r, 0) ∉ p.formed) : (r, 0) ∈ unformedRows x p := by
  simp only [unformedRows, List.mem_filter, List.mem_flatMap, List.mem_map, List.mem_range]
  exact ⟨⟨r, ⟨r - x.firstRow, by omega, by omega⟩, 0, by simp, rfl⟩, by simp [hn, hr]⟩

/-- Every row of the segment that has no task yet gets one, with the mark at the segment's first byte (pictures in one piece). -/
theorem State.formTasks_mem {p : DecPic} {mark r : Nat} (h1 : (s.decS i).pieces p = 1) (hf : x.firstRow ≤ r) (hl : r ≤ x.lastRow)
    (hr : r < p.ctuRows) (hn : (r, 0) ∉ p.formed) :
    ∃ y ∈ (s.formTasks i p x mark).blw.tasks, y.2.stream = i ∧ y.2.pic = p.num ∧ y.2.row = r ∧ y.2.tile = 0 ∧
      y.2.check = false ∧ y.2.mark = mark := by
  have here := mem_unformedRows hf hl hr hn
  have row : (unformedRows x p).isEmpty = false := by
    cases h : unformedRows x p with
    | nil => rw [h] at here; cases here
    | cons => rfl
  simp only [State.formTasks, h1, if_true]
  rw [← unformedRows, row, if_neg Bool.false_ne_true]
  obtain ⟨u, y, formed, hy⟩ := State.each_addTask_mem (s := (s.modPic i p.num _).modDecS i _) _ (unformedRows x p) here
  exact ⟨y, formed, by rw [hy]; exact ⟨rfl, rfl, rfl, rfl, rfl, rfl⟩⟩

/-- What of a stream no slice segment of a picture in arrival changes once its bytes are parsed. -/
def DecStream.coded (d : DecStream) : DecCfg × Option ParamSet × DecState × Nat := (d.cfg, d.sps, d.st, d.rptr)

theorem State.OnlyIn.formTasks {t : State} {p : DecPic} (k : State.OnlyIn i DecStream.coded s t) (mark : Nat) :
    State.OnlyIn i DecStream.coded s (t.formTasks i p x mark) := by
  have formed {u : State} (ku : State.OnlyIn i DecStream.coded s u) (want : List (Nat × Nat)) (g : Nat × Nat → State → RowTask) :
      State.OnlyIn i DecStream.coded s (u.each want (fun k s => s.addTask (g k s))) :=
    State.each_keeps (fun _ _ k => State.addTask_keeps (onlyIn_keeps (by decide)) k) ku
  unfold State.formTasks
  dsimp only
  exact ite_keeps k (formed (State.OnlyIn.modDecS (k.modPic _ _ fun _ _ => by rfl) fun _ => by rfl) _ _)

/-- What is left of a stream of which a segment's bytes have been parsed. -/
theorem State.OnlyIn.coded_of_parsed {t : State} {n : Nat} (k : State.OnlyIn i DecStream.coded (s.modDecS i (DecStream.parsed n)) t) :
    (t.decS i).cfg = (s.decS i).cfg ∧ (t.decS i).sps = (s.decS i).sps ∧ (t.decS i).st = (s.decS i).st ∧
      (t.decS i).rptr = (s.decS i).rptr + n := by
  obtain ⟨same, -⟩ := k
  rw [State.modDecS_same] at same
  simpa only [DecStream.coded, DecStream.parsed, Prod.mk.injEq] using same

theorem DecStream.reorderDepth_congr {d e : DecStream} (hc : d.cfg = e.cfg) (hs : d.sps = e.sps) : d.reorderDepth = e.reorderDepth := by
  simp only [DecStream.reorderDepth, DecStream.grid, hc, hs]

theorem DecStream.pieces_congr {d e : DecStream} (hc : d.cfg = e.cfg) (hs : d.sps = e.sps) (p : DecPic) : d.pieces p = e.pieces p := by
  rw [DecStream.pieces, DecStream.pieces, DecStream.splitNow, DecStream.splitNow, hc, hs]

/-- A slice segment of the picture in arrival that is decoded is parsed, and forms its tasks with the mark at its first byte. -/
theorem State.sliceParse_of_open {p : DecPic} (hst : (s.decS i).st = .decoding) (hp : (s.decS i).openPic = some p)
    (hg : (takeItems x.bytes (s.decS i).items).2 = false) (hn : x.newPic = false) (hl : (s.decS i).cfg.h264 = true ∨ x.layer = 0)
    (hm : x.exact = false ∨ x.recovery = none) (hb : (s.decS i).auBad = false) (hk : (s.decS i).auSkip = false)
    (he : (s.decS i).segmentError p x false = none) :
    ∃ u : State, s.sliceParse i x = some (u.formTasks i p x ((s.decS i).rptr + x.lead)) ∧
      State.OnlyIn i DecStream.coded (s.modDecS i (DecStream.parsed x.bytes)) u := by
  let w := s.modDecS i (DecStream.parsed x.bytes)
  have parsed : w.decS i = DecStream.parsed x.bytes (s.decS i) := State.modDecS_same ..
  have layer : (!(w.decS i).cfg.h264 && decide (0 < x.layer)) = false := by
    rw [parsed]
    rcases hl with h | h
    · simp [DecStream.parsed, h]
    · simp [h]
  have taken : w.slice i x ((s.decS i).rptr + x.lead) false = some ((w.modDecS i id).sliceOf i p x ((s.decS i).rptr + x.lead) false) :=
    State.slice_of_open (by rw [parsed]; exact hb) (by rw [parsed]; exact hk) hn hm (by rw [parsed]; exact hp)
  have decoded : ((w.decS i).st == .decoding) = true := by rw [parsed]; simp [DecStream.parsed, hst]
  refine ⟨_, ?_, ((State.OnlyIn.refl w).modDecS (f := id) fun _ => rfl).modPic p.num (fun p => { p with
      nextCtu := max p.nextCtu (x.addr + x.ctus), slices := addSegment x p.slices, broken := none }) fun _ _ => rfl⟩
  rw [State.sliceParse, State.parse_eq, hg]
  dsimp only
  rw [layer, State.atEntry_of_open hn, hn, if_neg Bool.false_ne_true, if_neg Bool.false_ne_true, decoded, Bool.true_or, if_pos rfl, taken,
    State.sliceOf_of_no_error]
  rw [State.modDecS_same, parsed]
  exact he

end

/-! Parameter sets (R125, R126, R148, R158). -/

section
variable {p : ParamSet} {au : AuKind}

theorem exec_paramSetReceived_of_running (hs : s.serving = true) (hst : (s.decS i).st ≠ .idle) :
    exec (.paramSetReceived i p au) s = .next (State.withLedger i (State.withStatus i (State.paramSet i p au)) s) := by
  simp [exec_paramSetReceived, execParamSetReceived, hs, hst]

/-- Once its kind and ID are taken out, a parameter set is not found by them. -/
theorem find?_param_taken (l : List ParamSet) (kind id : Nat) :
    (l.filter (fun q => !(q.kind == kind && q.id == id))).find? (fun q => q.kind == kind && q.id == id) = none :=
  List.find?_eq_none.mpr fun q hq named => by
    have taken := (List.mem_filter.mp hq).2
    simp only [named, Bool.not_true, Bool.false_eq_true] at taken

theorem DecStream.keepParam_param (d : DecStream) (p : ParamSet) : (d.keepParam p).param p.kind p.id = some p := by
  simp only [DecStream.param, DecStream.keepParam, List.find?_append, find?_param_taken, Option.none_or, List.find?_singleton,
    beq_self_eq_true, Bool.and_self, if_true]

/-- A new parameter set of layer 0 that the active SPS survives is kept, and no more, unless it is the active SPS. -/
theorem State.paramSet_of_new (hw : p.wellFormed = true) (hl : p.layer = 0) (hn : (s.decS i).param p.kind p.id = none)
    (hb : (s.decS i).breaks p = none) (ha : (s.decS i).sps.map (·.id) ≠ some p.id) :
    s.paramSet i p au = s.modDecS i (·.keepParam p) := by
  simp [State.paramSet, State.takeParam, hw, hl, hn, hb, ha]

theorem State.paramSet_of_malformed (hw : p.wellFormed = false) (hl : (s.decS i).cfg.h264 = true ∨ p.layer = 0) :
    s.paramSet i p au = s.failSet i p := by
  have layer : (!(s.decS i).cfg.h264 && decide (0 < p.layer)) = false := by rcases hl with h | h <;> simp [h]
  simp [State.paramSet, layer, hw]

/-- The ID of a malformed parameter set names none. -/
theorem State.failSet_decS : ((s.failSet i p).decS i).param p.kind p.id = none ∧ ((s.failSet i p).decS i).st = (s.decS i).st ∧
    ∀ j, i ≠ j → (s.failSet i p).decS j = s.decS j := by
  let u := s.modDecS i (fun d => { d with params := d.params.filter (fun q => !(q.kind == p.kind && q.id == p.id)) })
  have named : u.decS i = { s.decS i with params := (s.decS i).params.filter (fun q => !(q.kind == p.kind && q.id == p.id)) } :=
    State.modDecS_same ..
  have error : State.OnlyIn i (fun d => (d.params, d.st)) u (u.paramError i 0 0) := by
    unfold State.paramError
    split
    · exact (State.OnlyIn.refl u).decError _ _ _ fun _ _ _ => rfl
    · exact (State.OnlyIn.refl u).modDecS fun _ => rfl
  have failed : State.OnlyIn i (fun d => (d.params, d.st)) u (s.failSet i p) :=
    ite_keeps (State.OnlyIn.refl u) (error.modDecS fun _ => rfl)
  obtain ⟨same, others⟩ := failed
  obtain ⟨params, st⟩ := Prod.mk.inj same
  refine ⟨?_, by rw [st, named], fun j hj => (others j hj).trans (State.modDecS_other _ _ hj)⟩
  rw [DecStream.param, params, named]
  exact find?_param_taken _ _ _

end

/-! The end of an access unit (R130, R148, R157). -/

/-- What of a stream no event of an access unit changes. -/
def DecStream.kept (d : DecStream) : DecState × List QItem × Nat × List DecPic := (d.st, d.items, d.rptr, d.pics)

/-- The stream without the rest of its access unit in the queue. -/
def DecStream.unitDropped (d : DecStream) : DecStream :=
  { d with items := (dropUnit d.items).2.2, rptr := d.rptr + (dropUnit d.items).1 }

/-- No picture of an access unit ends on a stream that waits or is UNSUPPORTED. -/
theorem State.endNone_of_waiting (hst : (s.decS i).st = .waiting ∨ (s.decS i).st = .unsupported) : s.endNone i = s := by
  rcases hst with h | h <;> simp [State.endNone, h]

/-- The access unit ends with the errors that wait for a picture and the change to be told, and what is kept for it is cleared. -/
theorem exec_accessUnitEnd_of_waiting (hst : (s.decS i).st = .waiting ∨ (s.decS i).st = .unsupported) (hp : (s.decS i).openPic = none) :
    ∃ u, State.OnlyIn i DecStream.kept (s.modDecS i DecStream.unitDropped) u ∧ exec (.accessUnitEnd i) s = .next (u.modDecS i (fun d =>
      { d with auErrs := [], auPend := [], auTold := false, auBad := false, auSkip := false })) := by
  have running : ((s.decS i).st == .idle) = false := by rcases hst with h | h <;> simp [h]
  let v := s.modDecS i DecStream.unitDropped
  have dropped : v.decS i = (s.decS i).unitDropped := State.modDecS_same ..
  obtain ⟨m, l, report, others⟩ := State.report_decS (s := v) (i := i) (f := State.endNone i)
  rw [State.endNone_of_waiting (by rw [dropped]; exact hst)] at report others
  have ended : State.OnlyIn i DecStream.kept v (State.withLedger i (State.withStatus i (State.endNone i)) v) :=
    ⟨by rw [report]; rfl, others⟩
  refine ⟨State.withStatus i (fun s => (s.each (s.decS i).auPend (State.unitError i none)).tellChange i none) _,
    State.OnlyIn.withStatus (State.OnlyIn.tellChange
      (State.each_keeps (fun _ _ k => k.unitError none _ fun _ _ _ _ _ => rfl) ended) none fun _ => rfl) fun _ _ => rfl, ?_⟩
  rw [exec_accessUnitEnd, execAccessUnitEnd]
  dsimp only
  rw [running, if_neg Bool.false_ne_true, hp]
  rfl

/-- Settles O15: each command by the branch that its hypotheses choose, and what that branch leaves of the stream. -/
theorem bitstreamUnits : Obligations.BitstreamUnits := by
  refine ⟨?waiting, ?arriving, fun s i x h => exec_sliceHeaderParse_of_none h, ?param, ?malformed, ?ends⟩
  case waiting =>
    intro s i x hs hst hw hn hr
    have running : (s.decS i).st ≠ .idle := by rcases hst with h | h <;> simp [h]
    obtain ⟨f, hf, run⟩ := exec_sliceHeaderParse_of_parsed hs running hw (State.sliceParse_of_waiting hst hn)
    obtain ⟨m, l, report, others⟩ := State.report_decS (s := s) (i := i) (f := f)
    have parsed : (s.modDecS i (DecStream.parsed x.bytes)).decS i = DecStream.parsed x.bytes (s.decS i) := State.modDecS_same ..
    have out := State.settleOut_decS (s := s.modDecS i (DecStream.parsed x.bytes)) (i := i) (by rw [parsed]; exact hr)
    rw [hf, out, parsed] at report
    refine ⟨_, run, by rw [report]; rfl, by rw [report]; rfl, by rw [report]; rfl, fun j hj => ?_⟩
    rw [others j hj, hf, out, State.modDecS_other _ _ hj]
  case arriving =>
    intro s i x p hs hst hp hw hg hn hl hm hb hk he h1 hr
    obtain ⟨u, parse, left⟩ := State.sliceParse_of_open hst hp hg hn hl hm hb hk he
    let mark := (s.decS i).rptr + x.lead
    have running : (s.decS i).st ≠ .idle := by simp [hst]
    obtain ⟨f, hf, run⟩ := exec_sliceHeaderParse_of_parsed hs running hw parse
    obtain ⟨cfg, sps, st, rptr⟩ := State.OnlyIn.coded_of_parsed (left.formTasks (p := p) (x := x) mark)
    have out : f s = u.formTasks i p x mark := hf.trans (if_pos ((DecStream.reorderDepth_congr cfg sps).trans hr))
    obtain ⟨cfg', sps', -, -⟩ := State.OnlyIn.coded_of_parsed left
    obtain ⟨m, l, report, others⟩ := State.report_decS (s := s) (i := i) (f := f)
    rw [out] at report others
    refine ⟨_, run, by rw [report]; exact rptr, by rw [report]; exact st.trans hst, fun r hf hl hr hn => ?_, fun j hj => ?_⟩
    · have tasks : (State.withLedger i (State.withStatus i f) s).blw = (f s).blw := State.report_of (keeps_blw (by decide)) rfl
      rw [tasks, out]
      exact State.formTasks_mem ((DecStream.pieces_congr cfg' sps' p).trans h1) hf hl hr hn
    · rw [others j hj, (left.formTasks mark).2 j hj, State.modDecS_other _ _ hj]
  case param =>
    intro s i p au hs hst hw hl hn hb ha
    obtain ⟨m, l, report, others⟩ := State.report_decS (s := s) (i := i) (f := State.paramSet i p au)
    rw [State.paramSet_of_new hw hl hn hb ha, State.modDecS_same] at report
    refine ⟨_, exec_paramSetReceived_of_running hs hst, ?_, by rw [report]; rfl, fun j hj => ?_⟩
    · rw [report]
      exact (s.decS i).keepParam_param p
    · rw [others j hj, State.paramSet_of_new hw hl hn hb ha, State.modDecS_other _ _ hj]
  case malformed =>
    intro s i p au hs hst hw hl
    have failed : s.paramSet i p au = s.failSet i p := State.paramSet_of_malformed hw hl
    obtain ⟨m, l, report, others⟩ := State.report_decS (s := s) (i := i) (f := State.paramSet i p au)
    obtain ⟨named, st, rest⟩ := State.failSet_decS (s := s) (i := i) (p := p)
    refine ⟨_, exec_paramSetReceived_of_running hs hst, ?_, ?_, ?_, fun j hj => ?_⟩
    · rw [report, failed]
      exact named
    · rw [report, failed]
      exact st
    · exact State.report_of (P := fun t => t.log = s.log) (keeps_log (by decide))
        (failed ▸ State.failSet_keeps (keeps_log (by decide)) rfl)
    · rw [others j hj, failed, rest j hj]
  case ends =>
    intro s i hst hp
    obtain ⟨u, ⟨same, others⟩, run⟩ := exec_accessUnitEnd_of_waiting hst hp
    rw [State.modDecS_same] at same
    obtain ⟨st, items, rptr, pics⟩ : _ ∧ _ ∧ _ ∧ _ := by simpa only [DecStream.kept, Prod.mk.injEq] using same
    refine ⟨_, run, ?_⟩
    rw [State.modDecS_same]
    refine ⟨items, rptr, st, rfl, rfl, rfl, rfl, rfl, pics, fun j hj => ?_⟩
    rw [State.modDecS_other _ _ hj, others j hj, State.modDecS_other _ _ hj]

end Sys2Proof.Machine
end

section
/-! PROOF. The DisplayPort ports: hot plug and training of a source (R174, R182, R183), the main stream at a sink, its refusal, and the
sink's link, HPD and REASON (R176, R177, R462). -/

namespace Sys2Proof.Machine

variable {s : State}

/-! The commands of the ports. -/

section
variable (s)

theorem exec_dpoHpdChange (n : Nat) (high : Bool) : exec (.dpoHpdChange n high) s = execDpoHpdChange n high s := rfl
theorem exec_dpLinkTrain (n : Nat) (found : List (BitVec 4 × BitVec 3)) :
    exec (.dpLinkTrain n found) s = execDpLinkTrain n found s := rfl
theorem exec_dpHpdIrq (n : Nat) (found : List (BitVec 4 × BitVec 3)) : exec (.dpHpdIrq n found) s = execDpHpdIrq n found s := rfl
theorem exec_dpSinkLinkTrain (n : Nat) (rate : BitVec 4) (lanes : BitVec 3) (m : MainStream) :
    exec (.dpSinkLinkTrain n rate lanes m) s = execDpSinkLinkTrain n rate lanes m s := rfl
theorem exec_dpiLinkDown (n : Nat) : exec (.dpiLinkDown n) s = execDpiLinkDown n s := rfl
theorem exec_dpHpdPulseEnd (n : Nat) : exec (.dpHpdPulseEnd n) s = execDpHpdPulseEnd n s := rfl
theorem exec_dpiReasonClear (n : Nat) (v : Word) : exec (.dpiReasonClear n v) s = execDpiReasonClear n v s := rfl

end

/-! What the operations leave of the source ports. -/

@[simp] theorem State.modDpo_linksUp (n : Nat) (f : DpoPort → DpoPort) : (s.modDpo n f).linksUp = s.linksUp := rfl

@[simp] theorem State.raiseFrame_dpo (k : Nat) (id : EventId) (items : List Item) (j : Nat) :
    (s.raiseFrame k id items).dpo j = s.dpo j := by
  unfold State.raiseFrame
  dsimp only
  split <;> rfl

@[simp] theorem State.reportPort_dpo (k j : Nat) : (s.reportPort k).dpo j = s.dpo j := by
  rw [State.dpo, State.dpo, State.reportPort_keeps (keeps_out (by decide)) rfl]

theorem State.setDpoLink_other {n j : Nat} (h : n ≠ j) (st : DpoLink) : (s.setDpoLink n st).dpo j = s.dpo j := by
  unfold State.setDpoLink
  split
  · rfl
  · exact State.modDpo_other _ _ h

theorem State.setDpoLink_latch {n : Nat} {st : DpoLink} (h : (s.dpo n).link ≠ st) : 149 + n ∈ (s.setDpoLink n st).irc.latch := by
  rw [State.setDpoLink, if_neg h]
  exact State.latch_mem _ _

@[simp] theorem State.setTrained_same (n : Nat) (l : BitVec 4 × BitVec 3) :
    (s.setTrained n l).dpo n = { s.dpo n with linkRate := l.1, lanes := l.2, drive := Config.laneDrive s.freeCtr } :=
  State.modDpo_same s n _

theorem State.setTrained_other {n j : Nat} (h : n ≠ j) (l : BitVec 4 × BitVec 3) : (s.setTrained n l).dpo j = s.dpo j :=
  State.modDpo_other _ _ h

/-! Training (R174). -/

section
variable {n : Nat} {l : BitVec 4 × BitVec 3} {found r : List (BitVec 4 × BitVec 3)}

theorem State.train_of_enough (h : (sourceLinks.filter found.contains).find? (s.enough n) = some l) :
    s.train n found = ((s.setTrained n l).setDpoLink n (if (s.raster n).retiming then .retiming else .active)).reportPort n := by
  simp only [State.train, h]
  rfl

theorem State.train_of_short (h : sourceLinks.filter found.contains = l :: r) (hs : ∀ x ∈ l :: r, s.enough n x = false) :
    s.train n found = (((s.setTrained n l).setDpoLink n .short).reportPort n).raiseFrame n .dpLinkShort
      [i16 n, .w16 (l.1.setWidth 16), .w16 (l.2.setWidth 16)] := by
  have none : (l :: r).find? (s.enough n) = none := List.find?_eq_none.mpr (fun x hx => by simp [hs x hx])
  simp only [State.train, h, none]

theorem State.train_of_none (h : sourceLinks.filter found.contains = []) :
    s.train n found = (s.modDpo n (fun p => { p with linkRate := 0, lanes := 0 })).setDpoLink n .training := by
  simp only [State.train, h, List.find?_nil]

/-- A port whose training found bandwidth enough. -/
theorem State.train_dpo_of_enough (h : (sourceLinks.filter found.contains).find? (s.enough n) = some l) :
    (s.train n found).dpo n = { s.dpo n with
      linkRate := l.1, lanes := l.2, drive := Config.laneDrive s.freeCtr
      link := if (s.raster n).retiming then .retiming else .active } := by
  rw [State.train_of_enough h, State.reportPort_dpo, State.setDpoLink_same, State.setTrained_same]

/-- A port whose training found links, and none wide enough. -/
theorem State.train_dpo_of_short (h : sourceLinks.filter found.contains = l :: r) (hs : ∀ x ∈ l :: r, s.enough n x = false) :
    (s.train n found).dpo n = { s.dpo n with
      linkRate := l.1, lanes := l.2, drive := Config.laneDrive s.freeCtr, link := .short } := by
  rw [State.train_of_short h hs, State.raiseFrame_dpo, State.reportPort_dpo, State.setDpoLink_same, State.setTrained_same]

/-- A port whose training found no link. -/
theorem State.train_dpo_of_none (h : sourceLinks.filter found.contains = []) :
    (s.train n found).dpo n = { s.dpo n with linkRate := 0, lanes := 0, link := .training } := by
  rw [State.train_of_none h, State.setDpoLink_same, State.modDpo_same]

/-- The three outcomes of training: a link that is wide enough, links that all fall short, no link. -/
theorem State.train_outcome (s : State) (n : Nat) (found : List (BitVec 4 × BitVec 3)) :
    (∃ l, (sourceLinks.filter found.contains).find? (s.enough n) = some l) ∨
      (∃ l r, sourceLinks.filter found.contains = l :: r ∧ ∀ x ∈ l :: r, s.enough n x = false) ∨
      sourceLinks.filter found.contains = [] := by
  cases hf : (sourceLinks.filter found.contains).find? (s.enough n) with
  | some l => exact .inl ⟨l, rfl⟩
  | none =>
    cases hl : sourceLinks.filter found.contains with
    | nil => exact .inr (.inr rfl)
    | cons l r =>
      rw [hl] at hf
      exact .inr (.inl ⟨l, r, rfl, fun x hx => by simpa using List.find?_eq_none.mp hf x hx⟩)

theorem State.train_other {j : Nat} (h : n ≠ j) : (s.train n found).dpo j = s.dpo j := by
  rcases s.train_outcome n found with ⟨l, hl⟩ | ⟨l, r, hl, hs⟩ | hl
  · rw [State.train_of_enough hl, State.reportPort_dpo, State.setDpoLink_other h, State.setTrained_other h]
  · rw [State.train_of_short hl hs, State.raiseFrame_dpo, State.reportPort_dpo, State.setDpoLink_other h, State.setTrained_other h]
  · rw [State.train_of_none hl, State.setDpoLink_other h, State.modDpo_other _ _ h]

theorem State.train_switched : ((s.train n found).dpo n).switched = (s.dpo n).switched := by
  rcases s.train_outcome n found with ⟨l, hl⟩ | ⟨l, r, hl, hs⟩ | hl
  · rw [State.train_dpo_of_enough hl]
  · rw [State.train_dpo_of_short hl hs]
  · rw [State.train_dpo_of_none hl]

/-- A source port whose link can train (R174, R353, R402). -/
structure State.CanTrain (s : State) (n : Nat) : Prop where
  source : n < 8
  up : s.linksUp = true
  hpd : (s.dpo n).hpd = true
  unfenced : (s.dpo n).fenced = false

theorem State.CanTrain.not_refused (h : s.CanTrain n) :
    (!s.linksUp || decide (8 ≤ n) || !(s.dpo n).hpd || (s.dpo n).fenced) = false := by
  simp [h.up, h.hpd, h.unfenced, h.source]

/-- DP_LINK_TRAIN leaves its port as training does, with no retraining owed after a switch (R182, R183). -/
theorem exec_dpLinkTrain_of_canTrain (h : s.CanTrain n) :
    ∃ t, exec (.dpLinkTrain n found) s = .next t ∧ t.dpo n = { (s.train n found).dpo n with switched := false } ∧
      ∀ m, n ≠ m → t.dpo m = s.dpo m := by
  rw [exec_dpLinkTrain, execDpLinkTrain]
  simp only [h.not_refused, Bool.false_eq_true, if_false]
  by_cases hw : (s.dpo n).switched = true
  · refine ⟨_, by rw [if_pos hw], ?_, fun m hm => ?_⟩
    · rw [State.raiseFrame_dpo, State.modDpo_same]
    · rw [State.raiseFrame_dpo, State.modDpo_other _ _ hm, State.train_other hm]
  · refine ⟨_, by rw [if_neg hw], ?_, fun m hm => State.train_other hm⟩
    have unowed : ((s.train n found).dpo n).switched = false := by rw [State.train_switched, Bool.eq_false_iff.mpr hw]
    rw [← unowed]

/-- DP_HPD_IRQ leaves its port as DP_LINK_TRAIN does. -/
theorem exec_dpHpdIrq_of_canTrain (h : s.CanTrain n) :
    ∃ t, exec (.dpHpdIrq n found) s = .next t ∧ t.dpo n = { (s.train n found).dpo n with switched := false } ∧
      ∀ m, n ≠ m → t.dpo m = s.dpo m := by
  refine ⟨((s.train n found).modDpo n (fun p => { p with switched := false })).raiseFrame n .dpLinkRetrained [i16 n], ?_, ?_,
    fun m hm => ?_⟩
  · simp only [exec_dpHpdIrq, execDpHpdIrq, h.not_refused, Bool.false_eq_true, if_false]
  · rw [State.raiseFrame_dpo, State.modDpo_same]
  · rw [State.raiseFrame_dpo, State.modDpo_other _ _ hm, State.train_other hm]

end

/-! Hot plug (R174). -/

/-- A source port whose HPD changes, and LINK_STATE with it. -/
def State.plug (n : Nat) (high : Bool) (st : DpoLink) (s : State) : State :=
  (s.modDpo n (fun p => { p with hpd := high, linkRate := 0, lanes := 0 })).setDpoLink n st

section
variable {n : Nat} {high : Bool} {st : DpoLink}

theorem State.plug_same : (s.plug n high st).dpo n = { s.dpo n with hpd := high, linkRate := 0, lanes := 0, link := st } := by
  rw [State.plug, State.setDpoLink_same, State.modDpo_same]

theorem State.plug_other {j : Nat} (h : n ≠ j) : (s.plug n high st).dpo j = s.dpo j := by
  rw [State.plug, State.setDpoLink_other h, State.modDpo_other _ _ h]

theorem State.plug_latch (h : (s.dpo n).link ≠ st) : 149 + n ∈ (s.plug n high st).irc.latch :=
  State.setDpoLink_latch (by rwa [State.modDpo_same])

theorem exec_dpoHpdChange_low (hn : n < 8) (h : (s.dpo n).hpd = true) :
    exec (.dpoHpdChange n false) s = .next (s.plug n false .down) := by
  simp [exec_dpoHpdChange, execDpoHpdChange, State.plug, h, show ¬ 8 ≤ n by omega]

theorem exec_dpoHpdChange_high (hn : n < 8) (h : (s.dpo n).hpd = false) (hup : s.linksUp = true) (hf : (s.dpo n).fenced = false) :
    exec (.dpoHpdChange n true) s = .next (s.plug n true .training) := by
  simp [exec_dpoHpdChange, execDpoHpdChange, State.plug, h, hup, hf, show ¬ 8 ≤ n by omega]

end

/-! What the operations leave of the sink ports. -/

section
variable {n : Nat} {st : DpiLink}

@[simp] theorem State.latch_dpi (k j : Nat) : (s.latch k).dpi j = s.dpi j := rfl
@[simp] theorem State.modRaster_dpi (k : Nat) (f : Raster → Raster) (j : Nat) : (s.modRaster k f).dpi j = s.dpi j := rfl

@[simp] theorem State.setInState_dpi (k : Nat) (x : InState) (j : Nat) : (s.setInState k x).dpi j = s.dpi j := by
  rw [State.dpi, State.dpi, State.setInState_keeps (keeps_out (by decide)) rfl]

@[simp] theorem State.raiseFrame_dpi (k : Nat) (id : EventId) (items : List Item) (j : Nat) :
    (s.raiseFrame k id items).dpi j = s.dpi j := by
  unfold State.raiseFrame
  dsimp only
  split <;> rfl

@[simp] theorem State.setDpiLink_same (n : Nat) (st : DpiLink) : (s.setDpiLink n st).dpi n = { s.dpi n with link := st } := by
  unfold State.setDpiLink
  split
  next h => rw [← h]
  next => exact State.modDpi_same s n _

theorem State.setDpiLink_other {j : Nat} (h : n ≠ j) (st : DpiLink) : (s.setDpiLink n st).dpi j = s.dpi j := by
  unfold State.setDpiLink
  split
  · rfl
  · exact State.modDpi_other _ _ h

/-! Sources that stay latched. -/

@[simp] theorem State.raiseFrame_irc (k : Nat) (id : EventId) (items : List Item) : (s.raiseFrame k id items).irc = s.irc :=
  State.raiseFrame_keeps (keeps_irc (by decide)) rfl

theorem State.setInState_latch_of {k m : Nat} (x : InState) (h : m ∈ s.irc.latch) : m ∈ (s.setInState k x).irc.latch := by
  unfold State.setInState
  split
  · exact h
  · exact State.latch_mem_of _ _ h

end

/-! The main stream at a sink port (R42, R176, R177). -/

section
variable {n : Nat} {rate : BitVec 4} {lanes : BitVec 3} {m : MainStream}

/-- What a sink port holds of a link that has trained and of the stream on it. -/
def DpiPort.receives (rate : BitVec 4) (lanes : BitVec 3) (m : MainStream) (p : DpiPort) : DpiPort :=
  { p with
    linkRate := rate, lanes := lanes, measW := BitVec.ofNat 16 m.width, measH := BitVec.ofNat 16 m.height, stream := some m }

/-- A sink port that accepts a link (R176, R353, R402). -/
structure State.Receives (s : State) (n : Nat) (rate : BitVec 4) (lanes : BitVec 3) : Prop where
  sink : n < 4
  up : s.linksUp = true
  enabled : (s.dpi n).enable = true
  hpd : (s.dpi n).hpd = true
  unfenced : (s.dpi n).fenced = false
  link : sinkLink rate lanes = true

theorem exec_dpSinkLinkTrain_of_receives (h : s.Receives n rate lanes) :
    exec (.dpSinkLinkTrain n rate lanes m) s = .next ((s.modDpi n (DpiPort.receives rate lanes m)).judgeStream n m) := by
  obtain ⟨sink, up, enabled, hpd, unfenced, link⟩ := h
  have taken : (!s.linksUp || decide (4 ≤ n) || !(s.dpi n).enable || !(s.dpi n).hpd || (s.dpi n).fenced || !sinkLink rate lanes) =
      false := by
    simp [sink, up, enabled, hpd, unfenced, link]
  simp only [exec_dpSinkLinkTrain, execDpSinkLinkTrain, taken, Bool.false_eq_true, if_false]
  rfl

/-- The judgement of a stream rests on the configured format, which the link does not touch. -/
theorem State.sinkReason_receives :
    (s.modDpi n (DpiPort.receives rate lanes m)).sinkReason n m = s.sinkReason n m := by
  simp [State.sinkReason, DpiPort.receives]

theorem State.judgeStream_of_accepted (h : s.sinkReason n m = 0) :
    s.judgeStream n m =
      if (s.raster (16 + n)).inState = .absent then (s.setDpiLink n .active).setInState (16 + n) .acquiring
      else s.setDpiLink n .active := by
  simp only [State.judgeStream, if_pos h, State.setDpiLink_raster]

theorem State.judgeStream_dpi_of_accepted (h : s.sinkReason n m = 0) : (s.judgeStream n m).dpi n = { s.dpi n with link := .active } := by
  rw [State.judgeStream_of_accepted h]
  split
  · rw [State.setInState_dpi, State.setDpiLink_same]
  · exact State.setDpiLink_same n .active

theorem State.judgeStream_inState_of_accepted (h : s.sinkReason n m = 0) :
    ((s.judgeStream n m).raster (16 + n)).inState =
      if (s.raster (16 + n)).inState = .absent then .acquiring else (s.raster (16 + n)).inState := by
  rw [State.judgeStream_of_accepted h]
  split
  · rw [State.setInState_same]
  · rw [State.setDpiLink_raster]

/-- A sink port that records a refusal. -/
def State.recordRefusal (n : Nat) (why : BitVec 4) (s : State) : State :=
  ((s.modDpi n (fun p => { p with reason := why, seq := p.seq + 1 })).setDpiLink n .refused).latch (157 + n)

theorem State.recordRefusal_dpi (why : BitVec 4) :
    (s.recordRefusal n why).dpi n = { s.dpi n with reason := why, seq := (s.dpi n).seq + 1, link := .refused } := by
  rw [State.recordRefusal, State.latch_dpi, State.setDpiLink_same, State.modDpi_same]

theorem State.judgeStream_of_refused (h : s.sinkReason n m ≠ 0) :
    s.judgeStream n m = (((s.recordRefusal n (s.sinkReason n m)).modRaster (16 + n) Raster.forget).setInState (16 + n) .acquiring).raiseFrame
      (16 + n) .inputFormatRefused [i16 n, .w16 ((s.sinkReason n m).setWidth 16)] := by
  rw [State.judgeStream, if_neg h]
  rfl

theorem State.judgeStream_dpi_of_refused (h : s.sinkReason n m ≠ 0) :
    (s.judgeStream n m).dpi n = { s.dpi n with reason := s.sinkReason n m, seq := (s.dpi n).seq + 1, link := .refused } := by
  rw [State.judgeStream_of_refused h, State.raiseFrame_dpi, State.setInState_dpi, State.modRaster_dpi, State.recordRefusal_dpi]

theorem State.judgeStream_inState_of_refused (h : s.sinkReason n m ≠ 0) :
    ((s.judgeStream n m).raster (16 + n)).inState = .acquiring := by
  rw [State.judgeStream_of_refused h, State.raiseFrame_raster, State.setInState_same]

theorem State.judgeStream_latch_of_refused (h : s.sinkReason n m ≠ 0) : 157 + n ∈ (s.judgeStream n m).irc.latch := by
  rw [State.judgeStream_of_refused h, State.raiseFrame_irc]
  exact State.setInState_latch_of _ (State.latch_mem _ _)

end

/-! The link of a sink port that falls, the end of the HPD pulse, and the clear of REASON (R176, R177, R462). -/

section
variable {n : Nat}

theorem exec_dpiLinkDown_of_sink (hn : n < 4) :
    exec (.dpiLinkDown n) s = .next
      ((s.modDpi n (fun p => { p with linkRate := 0, lanes := 0, measW := 0, measH := 0, stream := none })).setDpiLink n .down) := by
  rw [exec_dpiLinkDown, execDpiLinkDown, if_neg (by omega)]

theorem exec_dpHpdPulseEnd_of_pulse (h : (s.dpi n).pulse = true) :
    exec (.dpHpdPulseEnd n) s = .next (s.modDpi n (fun p => { p with pulse := false, hpd := p.enable && !p.fenced })) := by
  rw [exec_dpHpdPulseEnd, execDpHpdPulseEnd, if_pos h]

theorem exec_dpiReasonClear_of_seq {v : Word} (h : v.extractLsb' 24 8 = (s.dpi n).seq) :
    exec (.dpiReasonClear n v) s = .next (s.modDpi n (fun p => { p with reason := 0 })) := by
  rw [exec_dpiReasonClear, execDpiReasonClear, if_pos h]

theorem exec_dpiReasonClear_of_other {v : Word} (h : v.extractLsb' 24 8 ≠ (s.dpi n).seq) : exec (.dpiReasonClear n v) s = .next s := by
  rw [exec_dpiReasonClear, execDpiReasonClear, if_neg h]

end

/-- Settles O18: each command of the ports by the port that it leaves, and by the raster and the latches where it reaches them. -/
theorem displayPorts : Obligations.DisplayPorts := by
  refine ⟨?unplug, ?plug, ?trained, ?short, ?untrained, ?irq, ?accepted, ?refused, ?down, ?pulse, ?reason⟩
  case unplug =>
    intro s n hn hp hl
    exact ⟨_, exec_dpoHpdChange_low hn hp, by rw [State.plug_same], by rw [State.plug_same], by rw [State.plug_same],
      State.plug_latch hl, fun m hm => State.plug_other hm⟩
  case plug =>
    intro s n hn hp hl hup hf
    exact ⟨_, exec_dpoHpdChange_high hn hp hup hf, by rw [State.plug_same], by rw [State.plug_same], State.plug_latch hl,
      fun m hm => State.plug_other hm⟩
  case trained =>
    intro s n l found hn hup hp hf h
    obtain ⟨t, run, port, others⟩ := exec_dpLinkTrain_of_canTrain (found := found) ⟨hn, hup, hp, hf⟩
    rw [State.train_dpo_of_enough h] at port
    exact ⟨t, run, by rw [port], by rw [port], by rw [port], by rw [port], others⟩
  case short =>
    intro s n l r found hn hup hp hf h hs
    obtain ⟨t, run, port, others⟩ := exec_dpLinkTrain_of_canTrain (found := found) ⟨hn, hup, hp, hf⟩
    rw [State.train_dpo_of_short h hs] at port
    exact ⟨t, run, by rw [port], by rw [port], by rw [port], others⟩
  case untrained =>
    intro s n found hn hup hp hf h
    obtain ⟨t, run, port, others⟩ := exec_dpLinkTrain_of_canTrain (found := found) ⟨hn, hup, hp, hf⟩
    rw [State.train_dpo_of_none h] at port
    exact ⟨t, run, by rw [port], by rw [port], others⟩
  case irq =>
    intro s n l found hn hup hp hf h
    obtain ⟨t, run, port, others⟩ := exec_dpHpdIrq_of_canTrain (found := found) ⟨hn, hup, hp, hf⟩
    rw [State.train_dpo_of_enough h] at port
    exact ⟨t, run, by rw [port], by rw [port], by rw [port], by rw [port], others⟩
  case accepted =>
    intro s n rate lanes m hn hup he hp hf hl h
    have fits : (s.modDpi n (DpiPort.receives rate lanes m)).sinkReason n m = 0 := by rw [State.sinkReason_receives, h]
    have port := State.judgeStream_dpi_of_accepted fits
    rw [State.modDpi_same] at port
    exact ⟨_, exec_dpSinkLinkTrain_of_receives ⟨hn, hup, he, hp, hf, hl⟩, by rw [port], by rw [port]; rfl, by rw [port]; rfl,
      by rw [port]; rfl, State.judgeStream_inState_of_accepted fits⟩
  case refused =>
    intro s n rate lanes m hn hup he hp hf hl h
    have unfit : (s.modDpi n (DpiPort.receives rate lanes m)).sinkReason n m ≠ 0 := by rwa [State.sinkReason_receives]
    have port := State.judgeStream_dpi_of_refused unfit
    rw [State.modDpi_same, State.sinkReason_receives] at port
    exact ⟨_, exec_dpSinkLinkTrain_of_receives ⟨hn, hup, he, hp, hf, hl⟩, by rw [port], by rw [port], by rw [port]; rfl,
      State.judgeStream_inState_of_refused unfit, State.judgeStream_latch_of_refused unfit⟩
  case down =>
    intro s n hn
    refine ⟨_, exec_dpiLinkDown_of_sink hn, ?_, ?_, ?_, fun m hm => ?other⟩
    case other => rw [State.setDpiLink_other hm, State.modDpi_other _ _ hm]
    all_goals rw [State.setDpiLink_same, State.modDpi_same]
  case pulse => exact fun s n h => exec_dpHpdPulseEnd_of_pulse h
  case reason => exact fun s n v => ⟨exec_dpiReasonClear_of_seq, exec_dpiReasonClear_of_other⟩

end Sys2Proof.Machine
end

section
/-! PROOF. The ALU at its edges: the counts of shifts and the saturation of SHLS (R198), and DIV and REM of MIN by -1 and by 0 (R199). -/

namespace Sys2Proof.Machine

/-- The bound on the side of A's sign: MIN for a negative A, MAX otherwise (R198). -/
def signBound (a : Word) : Word := if a.msb then 0x80000000 else 0x7FFFFFFF

theorem toInt_neg_iff_msb (a : Word) : a.toInt < 0 ↔ a.msb = true := by
  rw [BitVec.msb_eq_toInt, decide_eq_true_iff]

theorem ofInt_bound_eq_signBound (a : Word) : BitVec.ofInt 32 (if a.toInt < 0 then minS else maxS) = signBound a := by
  simp only [toInt_neg_iff_msb, signBound]
  split <;> rfl

/-! Shift counts (R198). -/

theorem toNat_and_255 (b : Word) : (b &&& 0xFF).toNat = b.toNat % 256 :=
  (BitVec.toNat_and b 0xFF).trans (Nat.and_two_pow_sub_one_eq_mod b.toNat 8)

section
variable (a b imm : Word)

theorem alu_shl : alu 0x0A a b imm = some (.plain (a <<< (b.toNat % 256))) :=
  congrArg (fun n => some (AluOut.plain (a <<< n))) (toNat_and_255 b)

theorem alu_shr : alu 0x0B a b imm = some (.plain (a >>> (b.toNat % 256))) :=
  congrArg (fun n => some (AluOut.plain (a >>> n))) (toNat_and_255 b)

theorem alu_sar : alu 0x0C a b imm = some (.plain (a.sshiftRight (b.toNat % 256))) :=
  congrArg (fun n => some (AluOut.plain (a.sshiftRight n))) (toNat_and_255 b)

theorem alu_shls : alu 0x0D a b imm = some (shls a (b.toNat % 256)) :=
  congrArg (fun n => some (shls a n)) (toNat_and_255 b)

end

section
variable {a : Word} {n : Nat}

theorem sshiftRight_of_ge (h : 32 ≤ n) : a.sshiftRight n = if a.msb then BitVec.allOnes 32 else 0 := by
  split
  case isTrue neg => rw [BitVec.sshiftRight_eq_of_msb_true neg, BitVec.ushiftRight_eq_zero h, BitVec.not_zero]
  case isFalse pos =>
    rw [BitVec.sshiftRight_eq_of_msb_false (by simpa using pos)]
    exact BitVec.ushiftRight_eq_zero h

/-! Saturation of SHLS (R198). -/

theorem shls_of_count_zero : shls a 0 = .plain a := rfl

theorem shls_zero : shls 0 n = .plain 0 := by
  rw [shls, if_pos rfl, ite_self]

theorem shls_of_ge (h : 32 ≤ n) (ha : a ≠ 0) : shls a n = ⟨signBound a, true, false, false, true, false⟩ := by
  rw [shls, if_neg (by omega), if_neg ha, if_pos h, ofInt_bound_eq_signBound]

/-- Within 31 places SHLS is the exact value, saturated. -/
theorem shls_of_le (h1 : 1 ≤ n) (h : n ≤ 31) : shls a n = .saturate (a.toInt * 2 ^ n) := by
  by_cases ha : a = 0
  · subst ha
    rw [shls_zero, show (0 : Word).toInt = 0 from rfl, Int.zero_mul]
    rfl
  · rw [shls, if_neg (by omega), if_neg ha, if_neg (by omega)]

/-- The bits that a shift by `n` places moves out of A, and the bit that it moves to the sign, are all the sign of A. -/
def KeepsSign (a : Word) (n : Nat) : Prop := ∀ i, 31 - n ≤ i → i ≤ 31 → a.getLsbD i = a.msb

theorem toNat_lt_two_pow_iff {k : Nat} : a.toNat < 2 ^ k ↔ ∀ i, k ≤ i → i ≤ 31 → a.getLsbD i = false := by
  constructor
  · intro h i hi _
    exact Nat.testBit_lt_two_pow (Nat.lt_of_lt_of_le h (Nat.pow_le_pow_right (by omega) hi))
  · intro h
    refine Nat.lt_pow_two_of_testBit _ fun i hi => ?_
    by_cases small : i ≤ 31
    · exact h i hi small
    · exact BitVec.getLsbD_of_ge a i (by omega)

/-- The sign of A fills its upper bits exactly when A is within the bounds of the bits below them. -/
theorem keepsSign_iff : KeepsSign a n ↔ -2 ^ (31 - n) ≤ a.toInt ∧ a.toInt < 2 ^ (31 - n) := by
  have value := BitVec.toInt_eq_msb_cond a
  have bound := a.isLt
  have pos : (0 : Int) < 2 ^ (31 - n) := Int.pow_pos (by omega)
  have cast : ((2 ^ (31 - n) : Nat) : Int) = 2 ^ (31 - n) := by push_cast; rfl
  cases hm : a.msb
  case false =>
    have fills : KeepsSign a n ↔ a.toNat < 2 ^ (31 - n) := by rw [toNat_lt_two_pow_iff, KeepsSign, hm]
    rw [hm, if_neg Bool.false_ne_true] at value
    rw [fills]
    omega
  case true =>
    have fills : KeepsSign a n ↔ (~~~a).toNat < 2 ^ (31 - n) := by
      rw [toNat_lt_two_pow_iff, KeepsSign, hm]
      refine forall_congr' fun i => forall_congr' fun _ => forall_congr' fun hi => ?_
      simp [Nat.lt_succ_of_le hi]
    rw [hm, if_pos rfl] at value
    rw [fills, BitVec.toNat_not]
    omega

theorem outS_eq_false_iff {x : Int} : outS x = false ↔ -2147483648 ≤ x ∧ x < 2147483648 := by
  rw [outS, Bool.or_eq_false_iff, decide_eq_false_iff_not, decide_eq_false_iff_not, Int.not_lt, Int.not_lt]
  exact and_congr_right fun _ => Int.le_iff_lt_add_one

theorem satS_of_not_outS {x : Int} (h : outS x = false) : satS x = x := by
  obtain ⟨low, high⟩ := outS_eq_false_iff.mp h
  rw [satS, if_neg (Int.not_lt.mpr low), if_neg (Int.not_lt.mpr (Int.le_of_lt_add_one high))]

/-- A shifted by at most 31 places stays between MIN and MAX exactly when no bit that matters differs from its sign. -/
theorem outS_shift_iff (h : n ≤ 31) : outS (a.toInt * 2 ^ n) = false ↔ KeepsSign a n := by
  have pos : (0 : Int) < 2 ^ n := Int.pow_pos (by omega)
  have whole : (2 : Int) ^ (31 - n) * 2 ^ n = 2147483648 := by
    rw [← Int.pow_add, Nat.sub_add_cancel h]
    rfl
  have low : -2147483648 ≤ a.toInt * 2 ^ n ↔ -2 ^ (31 - n) ≤ a.toInt := by
    rw [← whole, ← Int.neg_mul]
    exact mul_le_mul_iff_left₀ pos
  have high : a.toInt * 2 ^ n < 2147483648 ↔ a.toInt < 2 ^ (31 - n) := by
    rw [← whole]
    exact mul_lt_mul_iff_left₀ pos
  rw [keepsSign_iff, ← low, ← high, outS_eq_false_iff]

theorem ofInt_mul_two_pow : BitVec.ofInt 32 (a.toInt * 2 ^ n) = a <<< n := by
  rw [BitVec.ofInt_mul, BitVec.ofInt_toInt, BitVec.shiftLeft_eq_mul_twoPow]
  congr 1
  exact BitVec.eq_of_toNat_eq (by rw [BitVec.toNat_twoPow, ← BitVec.toNat_ofNat, ← BitVec.ofInt_natCast]; push_cast; rfl)

theorem shls_of_keepsSign (h1 : 1 ≤ n) (h : n ≤ 31) (hk : KeepsSign a n) : shls a n = .plain (a <<< n) := by
  have inside := (outS_shift_iff h).mpr hk
  rw [shls_of_le h1 h, AluOut.saturate, inside, satS_of_not_outS inside, ofInt_mul_two_pow]
  rfl

/-- What a shift makes of A lies on the side of A's sign. -/
theorem satS_of_outS_shift (h : outS (a.toInt * 2 ^ n) = true) :
    satS (a.toInt * 2 ^ n) = if a.toInt < 0 then minS else maxS := by
  have pos : (0 : Int) < 2 ^ n := Int.pow_pos (by omega)
  rw [← Bool.not_eq_false, outS_eq_false_iff] at h
  by_cases neg : a.toInt < 0
  · have below : a.toInt * 2 ^ n < 0 := Int.mul_neg_of_neg_of_pos neg pos
    have under : a.toInt * 2 ^ n < minS := show _ < -2147483648 by omega
    rw [satS, if_pos under, if_pos neg]
  · have above : 0 ≤ a.toInt * 2 ^ n := Int.mul_nonneg (by omega) (by omega)
    have inside : ¬ a.toInt * 2 ^ n < minS := show ¬ _ < -2147483648 by omega
    have past : maxS < a.toInt * 2 ^ n := show 2147483647 < _ by omega
    rw [satS, if_neg inside, if_pos past, if_neg neg]

theorem shls_of_not_keepsSign (h1 : 1 ≤ n) (h : n ≤ 31) (hk : ¬ KeepsSign a n) :
    shls a n = ⟨signBound a, true, false, false, true, false⟩ := by
  have outside : outS (a.toInt * 2 ^ n) = true := by
    rwa [← outS_shift_iff h, Bool.not_eq_false] at hk
  rw [shls_of_le h1 h, AluOut.saturate, outside, satS_of_outS_shift outside, ofInt_bound_eq_signBound]

end

/-- Settles O50: each operation by its count, and SHLS by whether the bits that it moves out are the sign of A. -/
theorem shiftCounts : Obligations.ShiftCounts := by
  intro a b imm n hn
  subst hn
  refine ⟨fun zero op hop => ?none, fun wide => ?wide, fun one narrow => ?narrow⟩
  case none =>
    simp only [List.mem_cons, List.not_mem_nil, or_false] at hop
    rcases hop with rfl | rfl | rfl | rfl
    · rw [alu_shl, zero, BitVec.shiftLeft_zero]
    · rw [alu_shr, zero, BitVec.ushiftRight_zero]
    · rw [alu_sar, zero, BitVec.sshiftRight_zero]
    · rw [alu_shls, zero, shls_of_count_zero]
  case wide =>
    rw [alu_shl, alu_shr, alu_sar, alu_shls]
    refine ⟨by rw [BitVec.shiftLeft_eq_zero wide]; rfl, by rw [BitVec.ushiftRight_eq_zero wide]; rfl, by rw [sshiftRight_of_ge wide],
      fun ha => by rw [ha, shls_zero], fun ha => ?_⟩
    rw [shls_of_ge wide ha, signBound]
  case narrow =>
    rw [alu_shl, alu_shr, alu_sar, alu_shls]
    refine ⟨rfl, rfl, rfl, fun ⟨i, low, high, differs⟩ => ?_, fun same => ?_⟩
    · rw [shls_of_not_keepsSign one narrow (fun keeps => differs (keeps i low high)), signBound]
    · rw [shls_of_keepsSign one narrow same]

/-! DIV and REM at their edges (R199). -/

theorem alu_div (a b imm : Word) : alu 0x12 a b imm = some (divide a b) := rfl
theorem alu_rem (a b imm : Word) : alu 0x13 a b imm = some (remainder a b) := rfl

theorem divide_min_neg_one : divide 0x80000000 0xFFFFFFFF = ⟨0x7FFFFFFF, true, false, false, true, false⟩ := by decide
theorem remainder_min_neg_one : remainder 0x80000000 0xFFFFFFFF = .plain 0 := by decide

theorem divide_zero (a : Word) : divide a 0 = ⟨if a = 0 then 0 else signBound a, true, false, false, false, true⟩ := by
  rw [divide, if_pos rfl, ← ofInt_bound_eq_signBound, apply_ite (BitVec.ofInt 32)]

theorem remainder_zero (a : Word) : remainder a 0 = ⟨a, true, false, false, false, true⟩ := rfl

/-- An operation that does not saturate leaves SAT as it stood. -/
theorem Flags.after_sat_of_not {f : Flags} {o : AluOut} (h : o.sat = false) : (f.after o).sat = f.sat := by
  simp [Flags.after, h]

/-- An operation that does not divide by 0 leaves DZ as it stood. -/
theorem Flags.after_dz_of_not {f : Flags} {o : AluOut} (h : o.dz = false) : (f.after o).dz = f.dz := by
  simp [Flags.after, h]

theorem Flags.after_sat_of {f : Flags} {o : AluOut} (h : o.sat = true) : (f.after o).sat = true := by
  simp [Flags.after, h]

theorem Flags.after_dz_of {f : Flags} {o : AluOut} (h : o.dz = true) : (f.after o).dz = true := by
  simp [Flags.after, h]

/-- Settles O51: each quotient and remainder at its edge, and the one flag that it sets. -/
theorem divisionEdges : Obligations.DivisionEdges := by
  intro f a imm
  refine ⟨⟨_, alu_div .., ?_⟩, ⟨_, alu_rem .., ?_⟩, ⟨_, alu_div .., ?_⟩, ⟨_, alu_rem .., ?_⟩⟩
  · rw [divide_min_neg_one]
    exact ⟨rfl, Flags.after_sat_of rfl, Flags.after_dz_of_not rfl⟩
  · rw [remainder_min_neg_one]
    exact ⟨rfl, Flags.after_sat_of_not rfl, Flags.after_dz_of_not rfl⟩
  · rw [divide_zero]
    exact ⟨rfl, Flags.after_dz_of rfl, Flags.after_sat_of_not rfl⟩
  · rw [remainder_zero]
    exact ⟨rfl, Flags.after_dz_of rfl, Flags.after_sat_of_not rfl⟩

end Sys2Proof.Machine
end

section
/-! PROOF. What the operations on a coding core leave of it and of the others: events and wakes, threads, restarts, and the words that
issue (R189 to R194, R201, R210). -/

namespace Sys2Proof.Machine

variable {s : State} {c : Nat}

/-! Reading a core. -/

theorem State.core_congr {t : State} (h : t.cores = s.cores) (d : Nat) : t.core d = s.core d := by
  rw [State.core, State.core, h]

theorem State.rail_congr {t : State} (h : t.blw = s.blw) (r : Nat) : t.rail r = s.rail r := by
  rw [State.rail, State.rail, h]

/-- Two updates of one core are one update. -/
theorem State.modCore_modCore (f g : CoreS → CoreS) : (s.modCore c f).modCore c g = s.modCore c (fun x => g (f x)) := by
  simp only [State.modCore, State.modCores, Tbl.upd_upd]

/-- Updates that agree on the core are one update. -/
theorem State.modCore_congr {f g : CoreS → CoreS} (h : f (s.core c) = g (s.core c)) : s.modCore c f = s.modCore c g := by
  simp only [State.modCore, State.modCores, Tbl.upd]
  rw [show f (s.cores.look CoreS.reset c) = g (s.cores.look CoreS.reset c) from h]

@[simp] theorem State.latch_core (n d : Nat) : (s.latch n).core d = s.core d := rfl
@[simp] theorem State.coreFault_same (cause : BitVec 3) (t g : Nat) (a : BitVec 13) :
    (s.coreFault c cause t g a).core c = (s.core c).record cause t g a := State.modCore_same s c _

theorem State.semBreakOwners_core (p : BitVec 9 → Bool) (d : Nat) : (s.semBreakOwners p).core d = s.core d :=
  State.core_congr (State.semBreakOwners_keeps (keeps_cores (by decide)) rfl) d

theorem State.recordContained_core (n : Nat) (r : Reaction) (forced : Bool) (d : Nat) :
    (s.recordContained n r forced).core d = s.core d :=
  State.core_congr (State.recordContained_keeps (keeps_cores (by decide)) rfl) d

theorem State.newIdentities_core (d : Nat) : s.newIdentities.core d = s.core d :=
  State.core_congr (State.newIdentities_keeps (keeps_cores (by decide)) rfl) d

theorem State.askTokens_core (r : Nat) (k : ReqKind) (lv : Level) (who d : Nat) : (s.askTokens r k lv who).core d = s.core d :=
  State.core_congr (State.askTokens_keeps (keeps_cores (by decide)) rfl) d

/-! Threads (R192, R194, R201). -/

section
variable {x : CoreS}

@[simp] theorem CoreS.modThread_same (t : Nat) (f : Thread → Thread) : (x.modThread t f).thread t = f (x.thread t) := by
  simp [CoreS.modThread, CoreS.thread]

theorem CoreS.modThread_other {t j : Nat} (f : Thread → Thread) (h : t ≠ j) : (x.modThread t f).thread j = x.thread j := by
  simp [CoreS.modThread, CoreS.thread, Tbl.look_upd_other, h]

/-- Updates of threads change nothing else of the core. -/
theorem CoreS.foldl_modThread_eq (f : Nat → Thread → Thread) (ts : List Nat) (x : CoreS) :
    ∃ ths, ts.foldl (fun y t => y.modThread t (f t)) x = { x with threads := ths } := by
  induction ts generalizing x with
  | nil => exact ⟨x.threads, rfl⟩
  | cons t ts ih => exact ih _

theorem CoreS.foldl_modThread_of_not_mem (f : Nat → Thread → Thread) {ts : List Nat} {j : Nat} (h : j ∉ ts) (x : CoreS) :
    (ts.foldl (fun y t => y.modThread t (f t)) x).thread j = x.thread j := by
  induction ts generalizing x with
  | nil => rfl
  | cons t ts ih =>
    rw [List.mem_cons, not_or] at h
    rw [List.foldl_cons, ih h.2, CoreS.modThread_other _ (Ne.symm h.1)]

/-- Updates of distinct threads update each once. -/
theorem CoreS.foldl_modThread_of_mem (f : Nat → Thread → Thread) {ts : List Nat} {j : Nat} (hd : ts.Nodup) (h : j ∈ ts) (x : CoreS) :
    (ts.foldl (fun y t => y.modThread t (f t)) x).thread j = f j (x.thread j) := by
  induction ts generalizing x with
  | nil => exact absurd h List.not_mem_nil
  | cons t ts ih =>
    obtain ⟨fresh, rest⟩ := List.nodup_cons.mp hd
    rw [List.foldl_cons]
    rcases List.mem_cons.mp h with rfl | later
    · rw [CoreS.foldl_modThread_of_not_mem f fresh, CoreS.modThread_same]
    · rw [ih rest later, CoreS.modThread_other _ (ne_of_mem_of_not_mem later fresh).symm]

theorem CoreS.takeArrival_of_none (h : x.event 32 = false) : x.takeArrival = x := by
  rw [CoreS.takeArrival, h]
  rfl

/-- An arrival changes the threads and events of a core alone. -/
theorem CoreS.takeArrival_eq (x : CoreS) : ∃ ths evs, x.takeArrival = { x with threads := ths, events := evs } := by
  unfold CoreS.takeArrival
  split
  · exact CoreS.setEvent_eq 32 x
  · exact ⟨x.threads, x.events, rfl⟩

/-- The core with the commands of its units and its transfers abandoned (R201). -/
def CoreS.halted (x : CoreS) : CoreS := { x with units := x.units.map (fun p => (p.1, { p.2 with busy := false })), dma := [] }

/-- A restart is of the threads alone once units and transfers are abandoned, but for an arrival that is set. -/
theorem CoreS.restartAll_of_halted (x : CoreS) :
    ∃ ths, x.restartAll = CoreS.takeArrival { x.halted with threads := ths } ∧
      ∀ j < 8, CoreS.thread { x.halted with threads := ths } j = Thread.restartNow j (x.thread j) := by
  obtain ⟨ths, folded⟩ := CoreS.foldl_modThread_eq Thread.restartNow (List.range 8) x.halted
  refine ⟨ths, congrArg CoreS.takeArrival folded, fun j hj => ?_⟩
  rw [← folded, CoreS.foldl_modThread_of_mem Thread.restartNow List.nodup_range (List.mem_range.mpr hj)]
  rfl

/-- A restart changes the threads, events and units of a core, and ends its transfers. -/
theorem CoreS.restartAll_eq (x : CoreS) :
    ∃ ths evs us, x.restartAll = { x with threads := ths, events := evs, units := us, dma := [] } := by
  obtain ⟨ths, restart, -⟩ := x.restartAll_of_halted
  obtain ⟨ths', evs, taken⟩ := CoreS.takeArrival_eq { x.halted with threads := ths }
  exact ⟨ths', evs, x.halted.units, restart.trans taken⟩

/-- With no arrival, a restart restarts each thread. -/
theorem CoreS.restartAll_thread (h : x.event 32 = false) {j : Nat} (hj : j < 8) :
    x.restartAll.thread j = Thread.restartNow j (x.thread j) := by
  obtain ⟨ths, restart, threads⟩ := x.restartAll_of_halted
  rw [restart, CoreS.takeArrival_of_none (x := { x.halted with threads := ths }) h, threads j hj]

end

/-! Wakes and events (R193, R210). -/

/-- A wake changes what a core knows of its own wake alone. -/
theorem State.wakeCore_core : (∃ w g a, (s.wakeCore c).core c = { s.core c with waking := w, granted := g, grantAt := a }) ∧
    ∀ d, c ≠ d → (s.wakeCore c).core d = s.core d := by
  have asked {f : CoreS → CoreS} {b : Bool} {lv : State → Level} (d : Nat) : ((s.modCore c f).whenB b (fun t =>
      t.askTokens (c / 8) .wake (lv t) c)).core d = (s.modCore c f).core d :=
    State.whenB_keeps (P := fun t => t.core d = (s.modCore c f).core d) (fun t k => (State.askTokens_core ..).trans k) rfl
  unfold State.wakeCore
  dsimp only
  split
  · exact ⟨⟨_, _, _, rfl⟩, fun _ _ => rfl⟩
  · split
    · exact ⟨⟨_, _, _, rfl⟩, fun _ _ => rfl⟩
    · exact ⟨⟨_, _, _, State.modCore_same ..⟩, fun d hd => State.modCore_other _ _ hd⟩
    · exact ⟨⟨_, _, _, (asked (lv := fun t => t.wakeLevel c) c).trans (State.modCore_same ..)⟩,
        fun d hd => (asked (lv := fun t => t.wakeLevel c) d).trans (State.modCore_other _ _ hd)⟩

/-- A core that sleeps is waking once a wake has reached it. -/
theorem State.wakeCore_waking (hc : c < 32) (hf : (s.core c).fenced = false) (hp : (s.core c).pstate ≠ .c0) :
    ((s.wakeCore c).core c).waking = true := by
  unfold State.wakeCore
  dsimp only
  split
  case isTrue h => simpa [hf, Nat.not_le.mpr hc] using h
  case isFalse =>
    split
    case h_1 awake => exact absurd awake hp
    case h_2 => rw [State.modCore_same]
    case h_3 =>
      refine State.whenB_keeps (P := fun t => (t.core c).waking = true) (fun t k => ?_) ?_
      · rw [State.askTokens_core]
        exact k
      · rw [State.modCore_same]

/-- The core as an event is set in it: an external one that was not set restarts the deadlock count. -/
def CoreS.hears (ev now : Nat) (x : CoreS) : CoreS := CoreS.setEvent ev (if ev < 32 || x.event ev then x else { x with movedAt := now })

theorem CoreS.hears_eq (ev now : Nat) (x : CoreS) :
    ∃ ths evs m, x.hears ev now = { x with threads := ths, events := evs, movedAt := m } := by
  obtain ⟨ths, evs, h⟩ := CoreS.setEvent_eq ev (if ev < 32 || x.event ev then x else { x with movedAt := now })
  rw [CoreS.hears, h]
  split
  · exact ⟨ths, evs, x.movedAt, rfl⟩
  · exact ⟨ths, evs, now, rfl⟩

theorem State.coreEvent_of_unfenced (hc : c < 32) (hf : (s.core c).fenced = false) (ev : Nat) :
    s.coreEvent c ev = (s.modCore c (CoreS.hears ev s.now)).wakeCore c := by
  rw [State.coreEvent, if_neg (by simp [hf, hc])]
  rfl

/-- An event reaches a core in C0 without a wake. -/
theorem State.coreEvent_of_awake (hc : c < 32) (hf : (s.core c).fenced = false) (hp : (s.core c).pstate = .c0) (ev : Nat) :
    s.coreEvent c ev = s.modCore c (CoreS.hears ev s.now) := by
  obtain ⟨ths, evs, m, heard⟩ := CoreS.hears_eq ev s.now (s.core c)
  rw [State.coreEvent_of_unfenced hc hf, State.wakeCore_of_c0]
  rw [State.modCore_same, heard, hp]

/-- An event leaves the work of a core, and the other cores. -/
theorem State.coreEvent_core (hc : c < 32) (hf : (s.core c).fenced = false) (ev : Nat) :
    ((s.coreEvent c ev).core c).tasks = (s.core c).tasks ∧ ((s.coreEvent c ev).core c).encTask = (s.core c).encTask ∧
      ∀ d, c ≠ d → (s.coreEvent c ev).core d = s.core d := by
  obtain ⟨ths, evs, m, heard⟩ := CoreS.hears_eq ev s.now (s.core c)
  obtain ⟨⟨w, g, a, woken⟩, others⟩ := State.wakeCore_core (s := s.modCore c (CoreS.hears ev s.now)) (c := c)
  rw [State.modCore_same, heard] at woken
  rw [State.coreEvent_of_unfenced hc hf, woken]
  exact ⟨rfl, rfl, fun d hd => (others d hd).trans (State.modCore_other _ _ hd)⟩

theorem State.coreEvent_waking (hc : c < 32) (hf : (s.core c).fenced = false) (hp : (s.core c).pstate ≠ .c0) (ev : Nat) :
    ((s.coreEvent c ev).core c).waking = true := by
  obtain ⟨ths, evs, m, heard⟩ := CoreS.hears_eq ev s.now (s.core c)
  rw [State.coreEvent_of_unfenced hc hf]
  apply State.wakeCore_waking hc <;> rw [State.modCore_same, heard]
  · exact hf
  · exact hp

end Sys2Proof.Machine
end

section
/-! PROOF. Words, units, transfers and faults of a core: what issues and what waits (R189 to R194), the end of a unit's command and of a
transfer (R191, R193), deadlock, reload and the clear of CAUSE (R202, R204, R211). -/

namespace Sys2Proof.Machine

variable {s : State} {c : Nat}

/-! The commands of words, units, transfers and faults. -/

section
variable (s c)

theorem exec_microwordIssue : exec (.microwordIssue c) s = execMicrowordIssue c s := rfl
theorem exec_unitDone (u : BitVec 3) (status info : BitVec 4) : exec (.unitDone c u status info) s = execUnitDone c u status info s := rfl
theorem exec_fillDone : exec (.fillDone c) s = execFillDone c s := rfl
theorem exec_drainDone : exec (.drainDone c) s = execDrainDone c s := rfl
theorem exec_deadlock : exec (.deadlock c) s = execDeadlock c s := rfl
theorem exec_bankReloadDone (ue : Bool) : exec (.bankReloadDone c ue) s = execBankReloadDone c ue s := rfl
theorem exec_corFaultClear (v : Word) : exec (.corFaultClear c v) s = execCorFaultClear c v s := rfl

end

/-! The word that a core issues (R189, R191, R192). -/

section
variable {h u : Nat} {w : MWord}

/-- Word `w` of thread `h` is next on core `c`, and is legal. -/
structure State.IssuesNext (s : State) (c h : Nat) (w : MWord) : Prop where
  issues : s.issues c = true
  pick : (s.core c).pick = some h
  word : (s.core c).word ((s.core c).thread h).pc = w
  parity : parityFail w = none
  legal : (s.core c).illegalCause ((s.core c).thread h) w = none

/-- The core as something moves in it: its deadlock count restarts (R202). -/
def CoreS.movedNow (now : Nat) (x : CoreS) : CoreS := { x with movedAt := now }

theorem CoreS.movedNow_thread (x : CoreS) (now t : Nat) : (x.movedNow now).thread t = x.thread t := rfl

theorem exec_microwordIssue_of_free (i : s.IssuesNext c h w) (free : (s.core c).busyUnit w = none) : exec (.microwordIssue c) s =
    .next (((s.modCore c CoreS.endYields).issueWord c h w).modCore c (CoreS.movedNow s.now)) := by
  obtain ⟨issues, pick, word, parity, legal⟩ := i
  simp only [exec_microwordIssue, execMicrowordIssue, issues, pick, word, parity, legal, free, Bool.not_true, Bool.false_eq_true, if_false]
  rfl

theorem exec_microwordIssue_of_busy (i : s.IssuesNext c h w) (busy : (s.core c).busyUnit w = some u) : exec (.microwordIssue c) s =
    .next ((s.modCore c CoreS.endYields).modCore c (fun x => (x.waitUnit h u).movedNow s.now)) := by
  obtain ⟨issues, pick, word, parity, legal⟩ := i
  simp only [exec_microwordIssue, execMicrowordIssue, issues, pick, word, parity, legal, busy, Bool.not_true, Bool.false_eq_true, if_false]
  rfl

/-- The core as a word's transfer begins. -/
def CoreS.begins (h : Nat) (w : MWord) (x : CoreS) : CoreS :=
  if w.mop = 3 then x.startDma true h w.mbuf else if w.mop = 4 then x.startDma false h w.mbuf else x

/-- The offset at which a word loads or stores. -/
def State.offset (s : State) (c h : Nat) (w : MWord) : Nat := (((s.core c).thread h).reg w.mreg).toNat

theorem State.issueWord_of_no_access (load : w.mop ≠ 1) (store : w.mop ≠ 2) :
    s.issueWord c h w = s.modCore c (fun x => (x.begins h w).issue h w none) := by
  simp only [State.issueWord, if_neg load, if_neg store]
  rfl

theorem State.issueWord_of_load (load : w.mop = 1) : s.issueWord c h w =
    (s.loadWord c h w.mbuf (s.offset c h w)).1.modCore c (fun x => x.issue h w (some (s.loadWord c h w.mbuf (s.offset c h w)).2)) := by
  simp [State.issueWord, State.offset, load]

theorem State.issueWord_of_store (store : w.mop = 2) : s.issueWord c h w =
    (s.storeWord c h w.mbuf (s.offset c h w) (((s.core c).thread h).opA w)).modCore c (fun x => x.issue h w none) := by
  simp [State.issueWord, State.offset, store]

theorem State.loadWord_core (t d off k : Nat) : (s.loadWord c t d off).1.core k = s.core k :=
  State.core_congr (State.loadWord_keeps (keeps_cores (by decide)) rfl) k

/-- A thread that is to wait for a unit. -/
theorem CoreS.waitUnit_thread (x : CoreS) : (x.waitUnit h u).thread h = { x.thread h with st := .wait, waitOn := some (.unit u) } :=
  CoreS.modThread_same h _

end

/-! The end of a unit's command, and of a transfer (R191, R193). -/

theorem exec_unitDone_of_busy {u : BitVec 3} (busy : ((s.core c).unit u.toNat).busy = true) (running : (s.core c).gated u.toNat = false)
    (status info : BitVec 4) : exec (.unitDone c u status info) s =
      .next ((s.modCore c (fun x => { x.unitDone u.toNat status info with movedAt := s.now })).wakeCore c) := by
  rw [exec_unitDone, execUnitDone, busy, running]
  rfl

/-- The direction of the oldest transfer of a direction. -/
theorem CoreS.fill_of_oldestDma {x : CoreS} {fill : Bool} {d : CoreDma} (h : x.oldestDma fill = some d) : d.fill = fill := by
  simpa using List.find?_some h

/-- A transfer each of whose lines has had its request ends. -/
theorem State.moveDma_of_whole {d e : CoreDma} {t : State} (moved : s.moveLines c d.lines d = (e, t)) (whole : d.lines ≤ e.done) :
    s.moveDma c d =
      (t.modCore c (fun x => { x with dma := x.dma.erase d, movedAt := s.now })).coreEvent c (if d.fill then 14 else 15) := by
  rw [State.moveDma, moved]
  exact if_neg (Nat.not_lt.mpr whole)

theorem exec_fillDone_of_oldest {d : CoreDma} (h : (s.core c).oldestDma true = some d) :
    exec (.fillDone c) s = .next (s.moveDma c d) := by
  rw [exec_fillDone, execFillDone, h]

theorem exec_drainDone_of_oldest {d : CoreDma} (h : (s.core c).oldestDma false = some d) :
    exec (.drainDone c) s = .next (s.moveDma c d) := by
  rw [exec_drainDone, execDrainDone, h]

/-! Deadlock, reload, and the clear of CAUSE (R202, R204, R211). -/

/-- A core whose count of cycles without a move has reached 4,096 (R202). -/
structure State.IsDeadlocked (s : State) (c : Nat) : Prop where
  running : s.running = true
  core : c < 32
  unfenced : (s.core c).fenced = false
  steady : (s.bay (c / 8)).changing = none
  awake : (s.core c).pstate = .c0
  issuing : (s.core c).stalled = false
  waiting : (s.core c).deadlocked = true
  due : (s.core c).movedAt + s.cycles c 4096 ≤ s.now

theorem exec_deadlock_of_due (h : s.IsDeadlocked c) : exec (.deadlock c) s = .next (s.deadlockClass c 1 0 0) := by
  obtain ⟨running, core, unfenced, steady, awake, issuing, waiting, due⟩ := h
  simp [exec_deadlock, execDeadlock, running, core, unfenced, steady, awake, issuing, waiting, due]

/-- The restart of a core that has no task to re-issue. -/
theorem State.restartCore_of_free (tasks : (s.core c).tasks = []) (row : (s.core c).encTask = none) :
    s.restartCore c = (s.modCore c CoreS.restartAll).semBreakOwners (ownerOfCore c) := by
  have abandoned : s.abandonCore c = s := by rw [State.abandonCore, tasks]; rfl
  rw [State.restartCore, abandoned, State.abandonEncode, row]

/-- Core `c` as a deadlock-class fault has been recorded and every routine of it has restarted. -/
def State.faulted (c : Nat) (cause : BitVec 3) (t : Nat) (a : BitVec 13) (s : State) : State :=
  ((s.coreFault c cause t 0 a).recordContained (seqSrc c) .restart false).restartCore c

section
variable {cause : BitVec 3} {t : Nat} {a : BitVec 13}

/-- The times of the faults of the last second, with the one of now. -/
def State.faultTimes (s : State) (c : Nat) : List Nat := s.now :: within sec s.now (s.core c).recent

theorem State.deadlockClass_eq (s : State) (c : Nat) (cause : BitVec 3) (t : Nat) (a : BitVec 13) : s.deadlockClass c cause t a =
    if 3 ≤ ((s.faulted c cause t a).faultTimes c).length then
      ((s.faulted c cause t a).modCore c (fun x => { x with recent := (s.faulted c cause t a).faultTimes c })).fenceCore c (seqSrc c)
    else (s.faulted c cause t a).modCore c (fun x => { x with recent := (s.faulted c cause t a).faultTimes c }) := rfl

/-- The core is not fenced while the faults of the last second are fewer than three. -/
theorem State.deadlockClass_of_few {times : List Nat} (ht : (s.faulted c cause t a).faultTimes c = times) (few : times.length < 3) :
    s.deadlockClass c cause t a = (s.faulted c cause t a).modCore c (fun x => { x with recent := times }) := by
  rw [State.deadlockClass_eq, ht, if_neg (Nat.not_le.mpr few)]

theorem State.faulted_now : (s.faulted c cause t a).now = s.now :=
  State.restartCore_keeps (keeps_now (by decide)) (State.recordContained_keeps (keeps_now (by decide)) rfl)

theorem State.faulted_core (tasks : (s.core c).tasks = []) (row : (s.core c).encTask = none) :
    (s.faulted c cause t a).core c = ((s.core c).record cause t 0 a).restartAll := by
  have recorded : ((s.coreFault c cause t 0 a).recordContained (seqSrc c) .restart false).core c = (s.core c).record cause t 0 a := by
    rw [State.recordContained_core, State.coreFault_same]
  rw [State.faulted, State.restartCore_of_free (by rw [recorded]; exact tasks) (by rw [recorded]; exact row),
    State.semBreakOwners_core, State.modCore_same, recorded]

/-- The first deadlock-class fault within 1 s of a core that has no task: it is recorded, and every routine restarts (R202, R203). -/
theorem State.deadlockClass_of_first (tasks : (s.core c).tasks = []) (row : (s.core c).encTask = none)
    (recent : (s.core c).recent = []) :
    (s.deadlockClass c cause t a).core c = { ((s.core c).record cause t 0 a).restartAll with recent := [s.now] } := by
  have past : ((s.faulted c cause t a).core c).recent = [] := by
    obtain ⟨ths, evs, us, whole⟩ := CoreS.restartAll_eq ((s.core c).record cause t 0 a)
    rw [State.faulted_core tasks row, whole]
    exact recent
  have times : (s.faulted c cause t a).faultTimes c = [s.now] := by
    rw [State.faultTimes, State.faulted_now, past]
    rfl
  rw [State.deadlockClass_of_few times (Nat.lt_succ_of_lt Nat.one_lt_two), State.modCore_same, State.faulted_core tasks row]

end

theorem exec_bankReloadDone_of_reload (h : (s.core c).reload = true) : exec (.bankReloadDone c false) s =
    .next (s.modCore c (fun x => { x.reloadBank with stalled := false, reload := false })) := by
  rw [exec_bankReloadDone, execBankReloadDone, h]
  rfl

theorem exec_corFaultClear_of_seq {v : Word} (h : v.extractLsb' 24 8 = (s.core c).seq) :
    exec (.corFaultClear c v) s = .next (s.modCore c (fun x => { x with cause := 0 })) := by
  rw [exec_corFaultClear, execCorFaultClear, if_pos h]

/-- Settles O19: each command by the branch that its hypotheses choose, and what that branch does to the core. -/
theorem coreIssue : Obligations.CoreIssue := by
  refine ⟨?plain, ?load, ?store, ?busy, fun s c u st inf b g => exec_unitDone_of_busy b g st inf, ?fill, ?drain, ?deadlock,
    fun s c h => exec_bankReloadDone_of_reload h, fun s c v h => exec_corFaultClear_of_seq h⟩
  case plain =>
    intro s c h issues pick parity legal free load store
    rw [exec_microwordIssue_of_free ⟨issues, pick, rfl, parity, legal⟩ free, State.issueWord_of_no_access load store,
      State.modCore_modCore, State.modCore_modCore]
    rfl
  case load =>
    intro s c h w issues pick word parity legal free load
    have run := exec_microwordIssue_of_free ⟨issues, pick, word.symm, parity, legal⟩ free
    rw [State.issueWord_of_load load] at run
    refine ⟨_, run, fun d hd => ?_, ?_⟩
    · rw [State.modCore_other _ _ hd, State.modCore_other _ _ hd, State.loadWord_core, State.modCore_other _ _ hd]
    · rw [State.modCore_same, State.modCore_same, State.loadWord_core, State.modCore_same, State.offset, State.modCore_same]
      rfl
  case store =>
    intro s c h w issues pick word parity legal free store
    rw [exec_microwordIssue_of_free ⟨issues, pick, word.symm, parity, legal⟩ free, State.issueWord_of_store store,
      State.modCore_modCore, State.offset, State.modCore_same]
    rfl
  case busy =>
    intro s c h u issues pick parity legal busy
    refine ⟨_, exec_microwordIssue_of_busy ⟨issues, pick, rfl, parity, legal⟩ busy, ?_⟩
    rw [State.modCore_same, State.modCore_same, CoreS.movedNow_thread, CoreS.waitUnit_thread]
    exact ⟨rfl, rfl⟩
  case fill =>
    intro s u c d e oldest moved whole
    rw [exec_fillDone_of_oldest oldest, State.moveDma_of_whole moved whole, CoreS.fill_of_oldestDma oldest, if_pos rfl]
  case drain =>
    intro s u c d e oldest moved whole
    rw [exec_drainDone_of_oldest oldest, State.moveDma_of_whole moved whole, CoreS.fill_of_oldestDma oldest,
      if_neg Bool.false_ne_true]
  case deadlock =>
    intro s c running core unfenced steady awake issuing waiting due tasks row recent
    refine ⟨_, exec_deadlock_of_due ⟨running, core, unfenced, steady, awake, issuing, waiting, due⟩, ?_⟩
    obtain ⟨ths, evs, us, whole⟩ := CoreS.restartAll_eq ((s.core c).record 1 0 0 0)
    have restarted (none : (s.core c).event 32 = false) (j : Nat) (hj : j < 8) :=
      CoreS.restartAll_thread (x := (s.core c).record 1 0 0 0) none hj
    rw [State.deadlockClass_of_first tasks row recent]
    refine ⟨?_, ?_, rfl, ?_, ?_, restarted⟩ <;> rw [whole]
    · rfl
    · rfl
    · exact unfenced

end Sys2Proof.Machine
end

section
/-! PROOF. The power states of a core, its events and drains, and its banks (R193, R206, R207, R209, R210, R477). -/

namespace Sys2Proof.Machine

variable {s : State} {c : Nat}

/-! The commands of power states and banks. -/

section
variable (s c)

theorem exec_externalEvent (ev : Nat) : exec (.externalEvent c ev) s = execExternalEvent c ev s := rfl
theorem exec_coreC1Entry : exec (.coreC1Entry c) s = execCoreC1Entry c s := rfl
theorem exec_corePowerDown (p : PState) : exec (.corePowerDown c p) s = execCorePowerDown c p s := rfl
theorem exec_coreWake : exec (.coreWake c) s = execCoreWake c s := rfl
theorem exec_coreWakeDone : exec (.coreWakeDone c) s = execCoreWakeDone c s := rfl
theorem exec_ptnSwap : exec (.ptnSwap c) s = execPtnSwap c s := rfl
theorem exec_patternStoreWrite (w : Writer) (bankB : Bool) (a : BitVec 13) (v : BitVec 160) :
    exec (.patternStoreWrite w c bankB a v) s = execPatternStoreWrite w c bankB a v s := rfl
theorem exec_coreDrained : exec (.coreDrained c) s = execCoreDrained c s := rfl

end

/-! External events (R193, R207, R210). -/

section
variable {ev : Nat}

/-- The core as it is ordered to drain: it drains while it has work (R207). -/
def CoreS.drains (x : CoreS) : CoreS := { x with draining := !x.tasks.isEmpty || x.encTask.isSome }

theorem exec_externalEvent_of_unfenced (hc : c < 32) (hf : (s.core c).fenced = false) (low : 32 ≤ ev) (high : ev < 38) :
    exec (.externalEvent c ev) s = .next ((s.coreEvent c ev).modCore c (fun x => if ev = 36 then x.drains else x)) := by
  have taken : (decide (ev < 32) || decide (37 < ev) || decide (32 ≤ c) || (s.core c).fenced) = false := by
    have below : ¬ 37 < ev := by omega
    simp [hf, hc, low, below]
  rw [exec_externalEvent, execExternalEvent, taken]
  rfl

end

/-! Sleep (R209, R210). -/

theorem exec_coreC1Entry_of_idle (awake : (s.core c).pstate = .c0) (hf : (s.core c).fenced = false) (idle : (s.core c).allIdle = true) :
    exec (.coreC1Entry c) s = .next (s.modCore c (fun x => { x with pstate := .c1 })) := by
  simp [exec_coreC1Entry, execCoreC1Entry, awake, hf, idle]

section
variable {p : PState}

/-- A core that may be ordered into a power state (R210). -/
structure State.MayEnter (s : State) (c : Nat) (p : PState) : Prop where
  ordered : 2 ≤ stateDepth p
  deeper : stateDepth (s.core c).pstate < stateDepth p
  unfenced : (s.core c).fenced = false
  asleep : (s.core c).waking = false
  idle : (s.core c).allIdle = true
  tasks : (s.core c).tasks = []
  row : (s.core c).encTask = none
  dma : (s.core c).dma = []
  permitted : stateDepth p ≤ s.blw.deepest.look 4 (roleIndex (s.core c).role)

theorem exec_corePowerDown_of_mayEnter (h : s.MayEnter c p) : exec (.corePowerDown c p) s = .next (s.powerDown c p) := by
  obtain ⟨ordered, deeper, unfenced, asleep, idle, tasks, row, dma, permitted⟩ := h
  simp [exec_corePowerDown, execCorePowerDown, ordered, deeper, unfenced, asleep, idle, tasks, row, dma, permitted]

/-- Core `c` as its tokens are released and the time of its entry is set. -/
def State.released (c : Nat) (p : PState) (s : State) : State :=
  ((s.freeTokens (c / 8) .wake c).modFreeCtr (· + 8)).modCore c (fun x => { x with entered := s.now + entryTime p })

/-- The core as it is in a power state: what C3 and C4 do not keep is lost (R209). -/
def CoreS.asleepIn (n : Nat) (p : PState) (x : CoreS) : CoreS :=
  match p with
  | .c3 => { x.enterC3 n with pstate := .c3 }
  | .c4 => { x.enterC4 n with pstate := .c4 }
  | p => { x with pstate := p }

theorem CoreS.asleepIn_pstate (n : Nat) (x : CoreS) : (x.asleepIn n p).pstate = p := by
  cases p <;> rfl

theorem CoreS.enterC3_entered (n : Nat) (x : CoreS) : (x.enterC3 n).entered = x.entered := by
  obtain ⟨ths, kept⟩ := CoreS.foldl_modThread_eq (fun _ th => { th with
    regs := th.cRegs, flags := th.cFlags, acc := th.cAcc, stack := th.cStack, st := .idle, waitOn := none }) (List.range 8)
    { x with mem := [], memLost := some n }
  rw [CoreS.enterC3, kept]

theorem CoreS.asleepIn_entered (n : Nat) (x : CoreS) : (x.asleepIn n p).entered = x.entered := by
  cases p
  case c3 => exact x.enterC3_entered n
  all_goals rfl

/-- The order into a power state puts core `c` into it, and touches no other core. -/
theorem State.powerDown_core (d : Nat) :
    (s.powerDown c p).core d = ((s.released c p).modCore c (CoreS.asleepIn s.freeCtr p)).core d := by
  cases p
  case c4 => exact State.semBreakOwners_core ..
  all_goals rfl

theorem State.powerDown_blw : (s.powerDown c p).blw = (s.freeTokens (c / 8) .wake c).blw := by
  cases p
  case c4 => exact State.semBreakOwners_keeps (keeps_blw (by decide)) rfl
  all_goals rfl

theorem State.released_core_same : (s.released c p).core c = { s.core c with entered := s.now + entryTime p } :=
  State.modCore_same _ c _

theorem State.released_core_other {d : Nat} (h : c ≠ d) : (s.released c p).core d = s.core d :=
  State.modCore_other _ _ h

theorem State.powerDown_core_same :
    (s.powerDown c p).core c = CoreS.asleepIn s.freeCtr p { s.core c with entered := s.now + entryTime p } := by
  rw [State.powerDown_core, State.modCore_same, State.released_core_same]

theorem State.powerDown_core_other {d : Nat} (h : c ≠ d) : (s.powerDown c p).core d = s.core d := by
  rw [State.powerDown_core, State.modCore_other _ _ h, State.released_core_other h]

/-- The tokens of its wake are released (R315). -/
theorem State.powerDown_grants : ((s.powerDown c p).rail (c / 8)).grants =
    (s.rail (c / 8)).grants.filter (fun g => !(g.1 == .wake && g.2.1 == c)) := by
  rw [State.rail_congr State.powerDown_blw]
  exact congrArg Rail.grants (State.modRail_same s (c / 8) _)

end

/-! Wakes (R209, R210). -/

theorem exec_coreWake_of_c1 (running : s.running = true) (hc : c < 32) (hf : (s.core c).fenced = false)
    (asleep : (s.core c).waking = false) (shallow : (s.core c).pstate = .c1) : exec (.coreWake c) s =
      .next (s.modCore c (fun x => { x with waking := true, granted := true, grantAt := max s.now x.entered })) := by
  simp [exec_coreWake, execCoreWake, State.wakeCore, running, hc, hf, asleep, shallow]

/-- A core whose wake has been granted, its exit latency over and its bay up (R14, R210). -/
structure State.Rises (s : State) (c : Nat) : Prop where
  waking : (s.core c).waking = true
  granted : (s.core c).granted = true
  unfenced : (s.core c).fenced = false
  bay : s.bayState = .c0
  due : (s.core c).grantAt + exitTime (s.core c).pstate ≤ s.now

/-- The core as it has risen to C0; an event 32 that is set resumes its IDLE threads. -/
def CoreS.risen (x : CoreS) : CoreS := { x.takeArrival with pstate := .c0, waking := false, granted := false }

/-- What the core runs as it rises: out of C4 its active bank has come back from its copy. -/
def State.reloaded (c : Nat) (s : State) : State := if (s.core c).pstate = .c4 then s.modCore c CoreS.reloadBank else s

theorem exec_coreWakeDone_of_rises (h : s.Rises c) : exec (.coreWakeDone c) s = .next ((s.reloaded c).modCore c CoreS.risen) := by
  obtain ⟨waking, granted, unfenced, bay, due⟩ := h
  have early : decide (s.now < (s.core c).grantAt + exitTime (s.core c).pstate) = false := decide_eq_false (Nat.not_lt.mpr due)
  simp only [exec_coreWakeDone, execCoreWakeDone, waking, granted, unfenced, bay, early]
  rfl

theorem State.reloaded_core_other {d : Nat} (h : c ≠ d) : (s.reloaded c).core d = s.core d :=
  ite_keeps (P := fun t => t.core d = s.core d) (State.modCore_other _ _ h) rfl

/-! Banks (R206, R207, R477). -/

theorem exec_ptnSwap_of_running (running : s.running = true) (hc : c < 32) :
    exec (.ptnSwap c) s = .next (s.swapBank c).newIdentities := by
  simp [exec_ptnSwap, execPtnSwap, running, hc]

theorem State.newIdentities_latch {n : Nat} (h : n ∈ s.irc.latch) : n ∈ s.newIdentities.irc.latch := by
  have same : s.newIdentities.irc = s.irc := State.newIdentities_keeps (keeps_irc (by decide)) rfl
  rwa [same]

theorem State.swapBank_of_refused (h : (s.core c).swapReason ≠ 0) : s.swapBank c =
    (s.modCore c (fun x => { x with swapPend := false, refused := true, reason := (s.core c).swapReason })).latch (100 + c) := by
  rw [State.swapBank]
  exact if_pos h

/-- The core with its banks turned, and its threads IDLE at their entry words. -/
def CoreS.turned (x : CoreS) : CoreS :=
  CoreS.takeArrival ((List.range 8).foldl
    (fun x t => x.modThread t (fun th => { th with st := .idle, waitOn := none, pc := BitVec.ofNat 13 t }))
    { x with bank := !x.bank, swapPend := false, refused := false, reason := 0 })

theorem CoreS.turned_eq (x : CoreS) : ∃ ths evs, x.turned =
    { x with bank := !x.bank, swapPend := false, refused := false, reason := 0, threads := ths, events := evs } := by
  obtain ⟨ths, folded⟩ := CoreS.foldl_modThread_eq (fun t th => { th with st := .idle, waitOn := none, pc := BitVec.ofNat 13 t })
    (List.range 8) { x with bank := !x.bank, swapPend := false, refused := false, reason := 0 }
  obtain ⟨ths', evs, taken⟩ := CoreS.takeArrival_eq
    { x with bank := !x.bank, swapPend := false, refused := false, reason := 0, threads := ths }
  refine ⟨ths', evs, ?_⟩
  rw [CoreS.turned, folded, taken]

theorem State.swapBank_of_accepted (h : (s.core c).swapReason = 0) :
    s.swapBank c = ((s.modCore c CoreS.turned).semBreakOwners (ownerOfCore c)).latch (100 + c) := by
  rw [State.swapBank]
  exact if_neg (not_not_intro h)

section
variable {w : Writer} {a : BitVec 13} {v : BitVec 160} {b : Bool}

theorem exec_patternStoreWrite_of_inactive (hc : c < 32) (hb : (s.core c).bank ≠ b) : exec (.patternStoreWrite w c b a v) s =
    .next (s.modCore c (fun x => { x with words := x.words.put 0 (8192 * b.toNat + a.toNat) v })) := by
  rw [exec_patternStoreWrite, execPatternStoreWrite, if_neg (Nat.not_le.mpr hc), if_neg hb]

theorem exec_patternStoreWrite_of_active (hc : c < 32) (hb : (s.core c).bank = b) : exec (.patternStoreWrite w c b a v) s =
    .next (s.werr w 5 (0x03600000 + 0x50000 * c + 0x28000 * b.toNat + 20 * a.toNat)) := by
  rw [exec_patternStoreWrite, execPatternStoreWrite, if_neg (Nat.not_le.mpr hc), if_pos hb]

end

theorem State.batchDrained_of_no_patch (h : s.glb.patch = none) : s.batchDrained c = s := by
  rw [State.batchDrained, h]

theorem exec_coreDrained_of_drained (hc : c < 32) (draining : (s.core c).draining = true) (tasks : (s.core c).tasks = [])
    (row : (s.core c).encTask = none) (still : s.glb.patch = none) :
    exec (.coreDrained c) s = .next (s.modCore c (fun x => { x with draining := false })) := by
  have drained : (decide (32 ≤ c) || !(s.core c).draining ||
      !(s.core c).fenced && (!(s.core c).tasks.isEmpty || (s.core c).encTask.isSome)) = false := by
    simp [hc, draining, tasks, row]
  have none : (s.modCore c (fun x => { x with draining := false })).glb.patch = none := still
  simp only [exec_coreDrained, execCoreDrained, drained, Bool.false_eq_true, if_false]
  rw [State.batchDrained_of_no_patch none, State.patchStep_of_no_batch (by rw [none]; exact fun _ h => nomatch h)]

/-- Settles O20: each command by the core that it leaves, and by the other cores, the tokens and the latches where it reaches them. -/
theorem corePower : Obligations.CorePower := by
  refine ⟨?event, ?wakes, ?drains, fun s c awake hf idle => exec_coreC1Entry_of_idle awake hf idle, ?enter,
    fun s c running hc hf asleep shallow => exec_coreWake_of_c1 running hc hf asleep shallow, ?rise, ?refused, ?turned,
    fun s w c a v hc => ⟨exec_patternStoreWrite_of_inactive hc (by simp), exec_patternStoreWrite_of_active hc rfl⟩,
    fun s c hc draining tasks row still => exec_coreDrained_of_drained hc draining tasks row still⟩
  case event =>
    intro s c e hc hf awake low high other
    rw [exec_externalEvent_of_unfenced hc hf low high, State.coreEvent_of_awake hc hf awake, State.modCore_modCore]
    refine congrArg _ (State.modCore_congr ?_)
    simp only [if_neg other, CoreS.hears, decide_eq_false (Nat.not_lt.mpr low), Bool.false_or]
  case wakes =>
    intro s c e hc hf asleep low high
    obtain ⟨tasks, -, others⟩ := State.coreEvent_core hc hf e
    have waking := State.coreEvent_waking hc hf asleep e
    refine ⟨_, exec_externalEvent_of_unfenced hc hf low high, ?_, ?_, fun d hd => (State.modCore_other _ _ hd).trans (others d hd)⟩
    all_goals rw [State.modCore_same]; split
    · exact waking
    · exact waking
    · exact tasks
    · exact tasks
  case drains =>
    intro s c hc hf
    obtain ⟨tasks, row, others⟩ := State.coreEvent_core hc hf 36
    refine ⟨_, exec_externalEvent_of_unfenced hc hf (by decide) (by decide), ?_, fun d hd =>
      (State.modCore_other _ _ hd).trans (others d hd)⟩
    rw [State.modCore_same, if_pos rfl, CoreS.drains, tasks, row]
  case enter =>
    intro s c p ordered deeper unfenced asleep idle tasks row dma permitted
    have core := State.powerDown_core_same (s := s) (c := c) (p := p)
    refine ⟨_, exec_corePowerDown_of_mayEnter ⟨ordered, deeper, unfenced, asleep, idle, tasks, row, dma, permitted⟩, ?_, ?_, ?_,
      fun d hd => State.powerDown_core_other hd, State.powerDown_grants⟩
    · rw [core, CoreS.asleepIn_pstate]
    · rw [core, CoreS.asleepIn_entered]
    · rintro rfl
      exact core
  case rise =>
    intro s c waking granted unfenced bay due
    refine ⟨_, exec_coreWakeDone_of_rises ⟨waking, granted, unfenced, bay, due⟩, ?_, ?_, ?_, fun kept => ?_, fun d hd =>
      (State.modCore_other _ _ hd).trans (State.reloaded_core_other hd)⟩
    all_goals rw [State.modCore_same]
    · rfl
    · rfl
    · rfl
    · rw [State.reloaded, if_neg kept, CoreS.risen]
  case refused =>
    intro s c running hc why
    have run := exec_ptnSwap_of_running running hc
    rw [State.swapBank_of_refused why] at run
    refine ⟨_, run, ?_, State.newIdentities_latch (State.latch_mem _ _), fun d hd => ?_⟩
    all_goals rw [State.newIdentities_core, State.latch_core]
    · exact State.modCore_same ..
    · exact State.modCore_other _ _ hd
  case turned =>
    intro s c running hc why
    have run := exec_ptnSwap_of_running running hc
    rw [State.swapBank_of_accepted why] at run
    obtain ⟨ths, evs, turned⟩ := CoreS.turned_eq (s.core c)
    refine ⟨_, run, ?_, ?_, ?_, State.newIdentities_latch (State.latch_mem _ _)⟩
    all_goals rw [State.newIdentities_core, State.latch_core, State.semBreakOwners_core, State.modCore_same, turned]

end Sys2Proof.Machine
end

section
/-! PROOF. The commands that keep a channel: refresh, temperature, power-down, training, calibration, fill, the urgent scrub and the
error queue (R222 to R231, R238). -/

namespace Sys2Proof.Machine

variable {s t u : State} {n : Nat}

/-! The commands of a channel. -/

section
variable (s n)

theorem exec_refresh : exec (.refresh n) s = execRefresh n s := rfl
theorem exec_mr4Poll (hot : List Bool) : exec (.mr4Poll n hot) s = execMr4Poll n hot s := rfl
theorem exec_rankPowerDown (r : Nat) : exec (.rankPowerDown n r) s = execRankPowerDown n r s := rfl
theorem exec_dramTraining (okay : Bool) : exec (.dramTraining n okay) s = execDramTraining n okay s := rfl
theorem exec_calibrationSliver (k : Sliver) : exec (.calibrationSliver n k) s = execCalibrationSliver n k s := rfl
theorem exec_hardwareFill : exec (.hardwareFill n) s = execHardwareFill n s := rfl
theorem exec_dramScrubUrgent : exec (.dramScrubUrgent n) s = execDramScrubUrgent n s := rfl
theorem exec_drmErrqRetire (v : Word) : exec (.drmErrqRetire n v) s = execDrmErrqRetire n v s := rfl

end

/-! What the shared operations leave of the memory system. -/

section
variable (s)

@[simp] theorem State.latch_drm (k : Nat) : (s.latch k).drm = s.drm := rfl
@[simp] theorem State.raise_drm (id : EventId) (items : List Item) : (s.raise id items).drm = s.drm := rfl
@[simp] theorem State.served_drm (work : Nat) : (s.served work).drm = s.drm := rfl
@[simp] theorem State.dramHot_drm (tREFI : Nat) : (s.dramHot n tREFI).drm = s.drm := rfl

/-- DRAM_HOT latches the channel's source (R239, R377). -/
theorem State.dramHot_latch (tREFI : Nat) : 173 + n ∈ (s.dramHot n tREFI).irc.latch := State.latch_mem _ _

/-- An event under a limit changes the log alone. -/
theorem State.limited_raise_frame (id ev : EventId) (src ns : Nat) (items : List Item) :
    frame [.log] s (s.limited id src ns (State.raise ev items)) :=
  frame_of_keeps fun _ l k => State.limited_keeps l (fun _ k => State.raise_keeps l k) k

end

theorem State.chan_congr (h : t.drm = s.drm) (m : Nat) : t.chan m = s.chan m := by
  rw [State.chan, State.chan, h]

/-! The update of one channel. -/

/-- The state has channel `n` as `c`, and the other channels as before. -/
structure State.SetsChan (s t : State) (n : Nat) (c : Chan) : Prop where
  same : t.chan n = c
  others : ∀ m, n ≠ m → t.chan m = s.chan m

namespace State.SetsChan

variable {c : Chan}

theorem refl (s : State) (n : Nat) : s.SetsChan s n (s.chan n) := ⟨rfl, fun _ _ => rfl⟩

/-- The channels are those of the memory system. -/
theorem of_drm (h : s.SetsChan t n c) (e : u.drm = t.drm) : s.SetsChan u n c :=
  ⟨(State.chan_congr e n).trans h.same, fun m hm => (State.chan_congr e m).trans (h.others m hm)⟩

theorem modChan (h : s.SetsChan t n c) (f : Chan → Chan) : s.SetsChan (t.modChan n f) n (f c) :=
  ⟨by rw [State.modChan_same, h.same], fun m hm => (State.modChan_other _ _ hm).trans (h.others m hm)⟩

end State.SetsChan

theorem State.modChan_setsChan (f : Chan → Chan) : s.SetsChan (s.modChan n f) n (f (s.chan n)) :=
  (State.SetsChan.refl s n).modChan f

/-! Refresh and power-down (R222, R224, R225). -/

/-- A channel after REFab to both of its ranks. -/
def Chan.refreshed (c : Chan) : Chan := { c with
  refreshes := c.refreshes + 1
  banks := c.banks.map (fun p => (p.1, { p.2 with opened := false }))
  ranks := (c.ranks.map (fun p => (p.1, { p.2 with powerDown := false }))).filter (fun p => decide (p.2 ≠ RankS.reset)) }

theorem Chan.refreshed_banks (c : Chan) : ∀ p ∈ c.refreshed.banks, p.2.opened = false := by
  intro p hp
  obtain ⟨q, -, rfl⟩ := List.mem_map.mp hp
  rfl

theorem Chan.refreshed_ranks (c : Chan) : ∀ p ∈ c.refreshed.ranks, p.2.powerDown = false := by
  intro p hp
  obtain ⟨q, -, rfl⟩ := List.mem_map.mp (List.mem_filter.mp hp).1
  rfl

theorem exec_refresh_of_active (hst : (s.chan n).st = .active) : exec (.refresh n) s = .next (s.modChan n Chan.refreshed) := by
  rw [exec_refresh, execRefresh, if_pos hst]
  rfl

/-- A channel with rank `r` in power-down. -/
def Chan.rankDown (c : Chan) (r : Nat) : Chan :=
  { c with ranks := c.ranks.upd RankS.reset r (fun k => { k with powerDown := true }) }

theorem Chan.rankDown_same (c : Chan) (r : Nat) : ((c.rankDown r).ranks.look RankS.reset r).powerDown = true := by
  rw [Chan.rankDown, Tbl.look_upd_same]

theorem Chan.rankDown_other (c : Chan) {r q : Nat} (h : r ≠ q) :
    (c.rankDown r).ranks.look RankS.reset q = c.ranks.look RankS.reset q := by
  rw [Chan.rankDown, Tbl.look_upd_other _ _ _ h]

theorem exec_rankPowerDown_of_active (hst : (s.chan n).st = .active) (hidle : s.drm.rpdIdle ≠ 0) (r : Nat) :
    exec (.rankPowerDown n r) s = .next (s.modChan n (fun c => c.rankDown r)) := by
  rw [exec_rankPowerDown, execRankPowerDown, if_pos ⟨hst, hidle⟩]
  rfl

/-! Temperature (R223). -/

/-- A channel with the readings of its ranks. -/
def Chan.polled (hot : List Bool) (c : Chan) : Chan :=
  { c with ranks := hot.zipIdx.foldl (fun t p => Tbl.upd t RankS.reset p.2 (fun r => { r with hot := p.1 })) c.ranks }

/-- A channel whose refresh is doubled (true) or normal, with no readings that call for a change. -/
def Chan.paced (hot : Bool) (c : Chan) : Chan := { c with hot := hot, normSince := none }

section
variable {hot : List Bool} (hst : (s.chan n).st = .active)
include hst

theorem exec_mr4Poll_of_first_hot (hany : hot.any id = true) (hcool : (s.chan n).hot = false) :
    exec (.mr4Poll n hot) s = .next (((s.modChan n (Chan.polled hot)).modChan n (Chan.paced true)).dramHot n 1950) := by
  rw [exec_mr4Poll, execMr4Poll]
  simp only [hst, hany, hcool, if_true]
  rfl

theorem exec_mr4Poll_of_cooled {x : Nat} (hnone : hot.any id = false) (hhot : (s.chan n).hot = true)
    (hsince : (s.chan n).normSince = some x) (hlong : x + sec ≤ s.now) :
    exec (.mr4Poll n hot) s = .next (((s.modChan n (Chan.polled hot)).modChan n (Chan.paced false)).dramHot n 3900) := by
  have hlong' : x + sec ≤ (s.modChan n (Chan.polled hot)).now := hlong
  rw [exec_mr4Poll, execMr4Poll]
  simp only [hst, hnone, hhot, hsince, if_true, Bool.false_eq_true, if_false]
  exact congrArg _ (if_pos hlong')

end

/-! Training, calibration and the fill (R226 to R228). -/

theorem exec_dramTraining_of_ok (hst : (s.chan n).st = .training) (hgrant : s.holds 4 .training n = true) :
    exec (.dramTraining n true) s = .next (((s.modGlb (fun g => { g with trainedCh := n :: g.trainedCh })).modChan n
      (fun c => { c with st := .filling })).latch (173 + n)) := by
  rw [exec_dramTraining, execDramTraining, if_pos ⟨hst, hgrant⟩]
  rfl

/-- A channel that has run one more sliver. -/
def Chan.slivered (c : Chan) : Chan := { c with zqTurn := c.zqTurn + 1 }

/-- A channel after a ZQ sliver of a rank: START, or the LATCH that its last START awaits. -/
def Chan.zqed (r : Nat) (c : Chan) : Chan :=
  { c with zqLatch := if c.zqLatch.contains r then c.zqLatch.erase r else c.zqLatch ++ [r] }

/-- A channel within its bounds again: no retrain is due and none has failed. -/
def Chan.retrained (c : Chan) : Chan := { c with tries := 0, drifted := false }

section
variable (hst : (s.chan n).st = .active)
include hst

theorem exec_calibrationSliver_zq (r : Nat) : exec (.calibrationSliver n (.zq r)) s =
    .next (((s.modChan n Chan.slivered).served (workSliver + n)).modChan n (Chan.zqed r)) := by
  rw [exec_calibrationSliver, execCalibrationSliver, if_pos hst]
  rfl

theorem exec_calibrationSliver_retrain (hdrift : (s.chan n).drifted = true) : exec (.calibrationSliver n (.retrain true)) s =
    .next (((s.modChan n Chan.slivered).served (workSliver + n)).modChan n Chan.retrained) := by
  have due : (((s.modChan n Chan.slivered).served (workSliver + n)).chan n).drifted = true :=
    (congrArg Chan.drifted (State.modChan_same s n _)).trans hdrift
  rw [exec_calibrationSliver, execCalibrationSliver, if_pos hst]
  exact congrArg _ (if_pos due)

end

/-- A channel whose every line has been written by the fill; its first sweep begins. -/
def Chan.afterFill (now : Nat) (c : Chan) : Chan := { c with st := .active, filled := true, lines := [], scrubStart := now }

theorem exec_hardwareFill_of_grant (hst : (s.chan n).st = .filling) (hgrant : s.holds 4 .fill n = true) :
    exec (.hardwareFill n) s = .next ((s.modChan n (Chan.afterFill s.now)).latch (173 + n)) := by
  rw [exec_hardwareFill, execHardwareFill, if_pos ⟨hst, hgrant⟩]
  rfl

/-! The sweep and the error queue (R230, R231). -/

/-- A channel whose scrubber is URGENT. -/
def Chan.hurried (c : Chan) : Chan := { c with urgent := true, scrubRaised := true }

/-- Whether or not its event is still to be raised, a late sweep is URGENT and its source is latched. -/
theorem exec_dramScrubUrgent_of_late (hst : (s.chan n).st = .active) (hlate : 0 < s.scrubBehind n) :
    ∃ t, exec (.dramScrubUrgent n) s = .next t ∧ s.SetsChan t n (s.chan n).hurried ∧ 173 + n ∈ t.irc.latch := by
  have late : s.SetsChan ((s.modChan n Chan.hurried).latch (173 + n)) n (s.chan n).hurried :=
    (State.modChan_setsChan _).of_drm (State.latch_drm ..)
  refine ⟨_, rfl, ?_⟩
  rw [if_pos ⟨hst, hlate⟩]
  dsimp only
  split
  · exact ⟨late, State.latch_mem _ _⟩
  · exact ⟨late.of_drm (State.raise_drm ..), State.latch_mem _ _⟩

theorem exec_drmErrqRetire_of_seq {v : Word} (hseq : (v >>> 24).setWidth 8 = (s.chan n).errSeq) (hheld : s.tck.held = false) :
    exec (.drmErrqRetire n v) s = .next (s.modChan n (Chan.retireErr s.now)) := by
  rw [exec_drmErrqRetire, execDrmErrqRetire, if_pos ⟨hseq, by simp [hheld]⟩]

theorem exec_drmErrqRetire_of_other {v : Word} (hseq : (v >>> 24).setWidth 8 ≠ (s.chan n).errSeq) :
    exec (.drmErrqRetire n v) s = .next s := by
  rw [exec_drmErrqRetire, execDrmErrqRetire, if_neg fun h => hseq h.1]

/-- As the next entry reaches the head, SEQ increments; the lines stay. -/
theorem Chan.retireErr_of_next {c : Chan} {e f : ErrEntry} {r : List ErrEntry} (h : c.errq = e :: f :: r) (now : Nat) :
    (c.retireErr now).errq = f :: r ∧ (c.retireErr now).errSeq = c.errSeq + 1 ∧ (c.retireErr now).lines = c.lines := by
  simp [Chan.retireErr, h]

/-- Settles O22: each command is an update of its one channel, besides what it latches, raises and serves. -/
theorem channelUpkeep : Obligations.ChannelUpkeep := by
  unfold Obligations.ChannelUpkeep
  refine ⟨?refresh, ?hot, ?cooled, ?powerDown, ?training, ?zq, ?retrain, ?fill, ?urgent, ?retire,
    fun s n v hseq => exec_drmErrqRetire_of_other hseq⟩
  case refresh =>
    intro s n hst
    have set := State.modChan_setsChan (s := s) (n := n) Chan.refreshed
    refine ⟨_, exec_refresh_of_active hst, ?_⟩
    rw [set.same]
    exact ⟨rfl, Chan.refreshed_banks _, Chan.refreshed_ranks _, rfl, set.others⟩
  case hot =>
    intro s n hot hst hany hcool
    have set := ((State.modChan_setsChan (s := s) (n := n) (Chan.polled hot)).modChan (Chan.paced true)).of_drm
      (State.dramHot_drm (n := n) _ 1950)
    refine ⟨_, exec_mr4Poll_of_first_hot hst hany hcool, ?_⟩
    rw [set.same]
    exact ⟨rfl, rfl, State.dramHot_latch _ _, set.others⟩
  case cooled =>
    intro s n hot x hst hnone hhot hsince hlong
    have set := ((State.modChan_setsChan (s := s) (n := n) (Chan.polled hot)).modChan (Chan.paced false)).of_drm
      (State.dramHot_drm (n := n) _ 3900)
    refine ⟨_, exec_mr4Poll_of_cooled hst hnone hhot hsince hlong, ?_⟩
    rw [set.same]
    exact ⟨rfl, rfl, State.dramHot_latch _ _⟩
  case powerDown =>
    intro s n r hst hidle
    refine ⟨_, exec_rankPowerDown_of_active hst hidle r, ?_⟩
    rw [State.modChan_same]
    exact ⟨Chan.rankDown_same _ r, fun q => Chan.rankDown_other _, rfl⟩
  case training =>
    intro s n hst hgrant
    refine ⟨_, exec_dramTraining_of_ok hst hgrant, ?_, List.mem_cons_self, State.latch_mem _ _⟩
    rw [State.chan_congr (State.latch_drm _ _), State.modChan_same]
  case zq =>
    intro s n w hst
    have set := ((State.modChan_setsChan (s := s) (n := n) Chan.slivered).of_drm (State.served_drm _ (workSliver + n))).modChan
      (Chan.zqed w)
    refine ⟨_, exec_calibrationSliver_zq hst w, ?_⟩
    rw [set.same]
    exact ⟨rfl, rfl, rfl, set.others⟩
  case retrain =>
    intro s n hst hdrift
    have set := ((State.modChan_setsChan (s := s) (n := n) Chan.slivered).of_drm (State.served_drm _ (workSliver + n))).modChan
      Chan.retrained
    refine ⟨_, exec_calibrationSliver_retrain hst hdrift, ?_⟩
    rw [set.same]
    exact ⟨rfl, rfl, rfl⟩
  case fill =>
    intro s n hst hgrant
    have set := (State.modChan_setsChan (s := s) (n := n) (Chan.afterFill s.now)).of_drm (State.latch_drm _ (173 + n))
    refine ⟨_, exec_hardwareFill_of_grant hst hgrant, ?_⟩
    rw [set.same]
    exact ⟨rfl, rfl, rfl, State.latch_mem _ _, set.others⟩
  case urgent =>
    intro s n hst hlate
    obtain ⟨t, run, set, latched⟩ := exec_dramScrubUrgent_of_late hst hlate
    refine ⟨t, run, ?_⟩
    rw [set.same]
    exact ⟨rfl, rfl, latched, set.others⟩
  case retire =>
    intro s n v e f r hheld hseq hq
    have set := State.modChan_setsChan (s := s) (n := n) (Chan.retireErr s.now)
    obtain ⟨queue, seq, lines⟩ := Chan.retireErr_of_next hq s.now
    refine ⟨_, exec_drmErrqRetire_of_seq hseq hheld, ?_⟩
    rw [set.same]
    exact ⟨queue, seq, lines, set.others⟩

end Sys2Proof.Machine
end

section
/-! PROOF. What a channel loses: its fence, a retired block, and the fill of remapped blocks (R232 to R235). -/

namespace Sys2Proof.Machine

variable {s : State} {n : Nat}

/-! The commands of losses. -/

section
variable (s n)

theorem exec_dramChannelFenced (cause : Nat) : exec (.dramChannelFenced n cause) s = execDramChannelFenced n cause s := rfl
theorem exec_dramPageRetired (b : Nat) : exec (.dramPageRetired n b) s = execDramPageRetired n b s := rfl
theorem exec_remapFill (loss : RemapLoss) : exec (.remapFill n loss) s = execRemapFill n loss s := rfl

end

/-! The first fence of a channel (R233, R234). -/

/-- A channel that is fenced, its merge buffer dropped. -/
def Chan.cutOff (c : Chan) : Chan := { c with st := .fenced, merge := [] }

/-- A channel whose spare channel blocks hold nothing. -/
def Chan.cleared (spare : Nat → Bool) (c : Chan) : Chan := { c with
  lines := c.lines.filter (fun p => !spare (p.1 / 1024)), merge := c.merge.filter (fun m => !spare (m.line / 1024)) }

/-- The channel is fenced, its requests are dropped, and its blocks are remapped where the image tolerates it. -/
def State.takeOut (n : Nat) (s : State) : State :=
  ((s.modChan n Chan.cutOff).latch (173 + n)).modDrm
    (fun d => { d with fencedCh := BitVec.ofNat 4 n, remapped := d.tolerant })

/-- The channel blocks that remapped blocks take hold nothing. -/
def State.dropSpares (s : State) : State :=
  s.each (List.range 12) (fun k => State.modChan k (Chan.cleared s.drm.isSpare))

/-- The fence is reported, and admission is asked for. -/
def State.reportFence (n cause src : Nat) (s : State) : State :=
  ((((s.modFltSrc src (fun x => { x with fenced := true })).unitFenced src 4).limited .dramChannelFenced n ms
    (State.raise .dramChannelFenced [i16 n, i16 cause])).wantAdmission 1)

theorem State.fenceChan_of_first (hst : (s.chan n).st ≠ .fenced) (hfirst : s.drm.fencedCh = 0xF) (cause src : Nat) :
    s.fenceChan n cause src = (s.takeOut n).dropSpares.reportFence n cause src := by
  rw [State.fenceChan, if_neg hst, if_neg (not_not_intro hfirst)]
  rfl

theorem State.takeOut_st : ((s.takeOut n).chan n).st = .fenced :=
  congrArg Chan.st (State.modChan_same s n Chan.cutOff)

theorem State.takeOut_latch : 173 + n ∈ (s.takeOut n).irc.latch := State.latch_mem _ _

/-- An update that keeps the state of its channel keeps that of every channel. -/
theorem State.modChan_st {f : Chan → Chan} (hf : ∀ c, (f c).st = c.st) (k m : Nat) : ((s.modChan k f).chan m).st = (s.chan m).st := by
  by_cases h : k = m
  · rw [h, State.modChan_same, hf]
  · rw [State.modChan_other _ _ h]

theorem State.dropSpares_st (m : Nat) : (s.dropSpares.chan m).st = (s.chan m).st :=
  State.each_keeps (P := fun t => (t.chan m).st = (s.chan m).st) (fun k _ h =>
    (State.modChan_st (f := Chan.cleared s.drm.isSpare) (fun _ => rfl) k m).trans h) rfl

theorem State.dropSpares_fencedCh : s.dropSpares.drm.fencedCh = s.drm.fencedCh :=
  State.each_keeps (P := fun t => t.drm.fencedCh = s.drm.fencedCh) (fun _ _ h => h) rfl

theorem State.dropSpares_remapped : s.dropSpares.drm.remapped = s.drm.remapped :=
  State.each_keeps (P := fun t => t.drm.remapped = s.drm.remapped) (fun _ _ h => h) rfl

theorem State.dropSpares_irc : s.dropSpares.irc = s.irc :=
  State.each_keeps (P := fun t => t.irc = s.irc) (fun _ _ h => h) rfl

theorem State.reportFence_keeps {P : State → Prop} (l : Keeps [.flt, .log, .blw] P) {cause src : Nat} (k : P s) :
    P (s.reportFence n cause src) :=
  State.wantAdmission_keeps (l.mono (by decide)) (State.limited_keeps (l.mono (by decide))
    (fun _ k => State.raise_keeps (l.mono (by decide)) k) (State.unitFenced_keeps (l.mono (by decide))
      (State.modFltSrc_keeps (l.mono (by decide)) k)))

theorem exec_dramChannelFenced_of_running (hrun : s.running = true) (hn : n < 12) (cause : Nat) :
    exec (.dramChannelFenced n cause) s = .next (s.fenceChan n cause (if cause = 4 then chanSrc n + 1 else chanSrc n)) := by
  rw [exec_dramChannelFenced, execDramChannelFenced, if_pos ⟨hrun, hn⟩]

/-! A retired block (R232, R348). -/

theorem State.startOp_retSeq : s.startOp.fsh.retSeq = s.fsh.retSeq := by
  unfold State.startOp
  split
  · rfl
  · split
    · rfl
    · split
      · dsimp only [State.whenB]
        split <;> rfl
      · rfl

/-- The copy of the list that is stored takes the next sequence number. -/
theorem State.storeRetirement_retSeq : s.storeRetirement.fsh.retSeq = s.fsh.retSeq + 1 := State.startOp_retSeq

theorem State.storeRetirement_drm : s.storeRetirement.drm = s.drm :=
  State.storeRetirement_keeps (keeps_drm (by decide)) rfl

/-- The channel block is on the list, counted, and stored. -/
def State.retireBlock (n b : Nat) (s : State) : State :=
  ((s.modDrm (fun d => { d with retire := d.retire ++ [(n, b)] })).modChan n
    (fun c => { c with retired := satInc c.retired })).storeRetirement

theorem State.retireBlock_retire (b : Nat) : (s.retireBlock n b).drm.retire = s.drm.retire ++ [(n, b)] := by
  rw [State.retireBlock, State.storeRetirement_drm]
  rfl

theorem State.retireBlock_retired (b : Nat) : ((s.retireBlock n b).chan n).retired = satInc (s.chan n).retired := by
  rw [State.retireBlock, State.chan_congr State.storeRetirement_drm, State.modChan_same]
  rfl

theorem State.retireBlock_retSeq (b : Nat) : (s.retireBlock n b).fsh.retSeq = s.fsh.retSeq + 1 :=
  State.storeRetirement_retSeq

theorem exec_dramPageRetired_of_bad {b : Nat} (hrun : s.running = true) (hheld : s.tck.held = false) (hnew : (n, b) ∉ s.drm.retire)
    (hbad : s.blockBad n b = true) (hroom : s.drm.retire.length < 1024) :
    exec (.dramPageRetired n b) s = .next ((s.retireBlock n b).limited .dramPageRetired n ms
      (State.raise .dramPageRetired [i16 n, i32 b])) := by
  have due : ¬ (!s.running || s.tck.held || s.drm.retire.contains (n, b) || !s.blockBad n b) = true := by
    simp [hrun, hheld, hnew, hbad]
  rw [exec_dramPageRetired, execDramPageRetired, if_neg due, if_neg (by omega)]
  rfl

/-! The poisoned fill (R235). -/

/-- A fill of remapped blocks that held no tile and no reference. -/
theorem exec_remapFill_of_no_loss (hremap : s.drm.remapped = true) (hst : (s.chan n).st = .active)
    (hfirst : (s.chan n).remapFilled = false) (hgrant : s.holds 4 .fill n = true) : exec (.remapFill n ⟨[], [], []⟩) s =
      .next ((s.modChan n (fun c => { c with remapFilled := true })).rewriteCopies.serveWaits) := by
  have due : ¬ (!s.drm.remapped || (s.chan n).st != .active || (s.chan n).remapFilled || !s.holds 4 .fill n) = true := by
    simp [hremap, hst, hfirst, hgrant]
  rw [exec_remapFill, execRemapFill, if_neg due]
  rfl

/-- Settles O23: the first fence takes the channel out before what reports it, which leaves the memory system and the latches; a
retired block is listed, counted and stored before its event; a fill without losses goes on to the copies and the requests. -/
theorem channelLosses : Obligations.ChannelLosses := by
  unfold Obligations.ChannelLosses
  refine ⟨?fence, ?retire, fun s n => exec_remapFill_of_no_loss⟩
  case fence =>
    intro s n cause hrun hn hst hfirst
    have run := exec_dramChannelFenced_of_running hrun hn cause
    rw [State.fenceChan_of_first hst hfirst] at run
    have drm (src : Nat) : ((s.takeOut n).dropSpares.reportFence n cause src).drm = (s.takeOut n).dropSpares.drm :=
      State.reportFence_keeps (keeps_drm (by decide)) rfl
    have irc (src : Nat) : ((s.takeOut n).dropSpares.reportFence n cause src).irc = (s.takeOut n).dropSpares.irc :=
      State.reportFence_keeps (keeps_irc (by decide)) rfl
    refine ⟨_, run, ?_, ?_, ?_, ?_, rfl⟩
    · rw [State.chan_congr (drm _), State.dropSpares_st, State.takeOut_st]
    · rw [drm, State.dropSpares_fencedCh]
      rfl
    · rw [drm, State.dropSpares_remapped]
      rfl
    · rw [irc, State.dropSpares_irc]
      exact State.takeOut_latch
  case retire =>
    intro s n b hrun hheld hnew hbad hroom
    obtain ⟨-, log⟩ := State.limited_raise_frame (s.retireBlock n b) .dramPageRetired .dramPageRetired n ms [i16 n, i32 b]
    have drm := log .drm (by decide)
    have fsh := log .fsh (by decide)
    refine ⟨_, exec_dramPageRetired_of_bad hrun hheld hnew hbad hroom, ?_, ?_, ?_⟩
    · exact (congrArg Drm.retire drm).trans (State.retireBlock_retire b)
    · exact (congrArg Chan.retired (State.chan_congr drm n)).trans (State.retireBlock_retired b)
    · exact (congrArg Fsh.retSeq fsh).trans (State.retireBlock_retSeq b)

end Sys2Proof.Machine
end

section
/-! PROOF. What the Runner's shared operations leave: of its ports, queues and contexts (R241, R250, R263, R269), and what the freeing of a
packet leaves (R255). -/

namespace Sys2Proof.Machine

variable {s t : State} {c p q : Nat} {k : Pkt}

/-! Reading the Runner. -/

theorem State.stitch_congr (h : t.run.stitch = s.run.stitch) (c : Nat) : t.stitch c = s.stitch c := by
  rw [State.stitch, State.stitch, h]

theorem State.flow_congr (h : t.run.flows = s.run.flows) (f : Nat) : t.flow f = s.flow f := by
  rw [State.flow, State.flow, h]

theorem State.eth_congr (h : t.run = s.run) (p : Nat) : t.eth p = s.eth p := by
  rw [State.eth, State.eth, h]

/-- The check of a pointer reads its pool. -/
theorem State.pointerBad_congr (h : t.run.pools = s.run.pools) (k : Pkt) : t.pointerBad k = s.pointerBad k := by
  have pool : t.ladle k.pool = s.ladle k.pool := by rw [State.ladle, State.ladle, h]
  rw [State.pointerBad, State.pointerBad, pool]

/-- The age of a packet is that at the time, by the limits of the classes. -/
theorem State.aged_congr (hnow : t.now = s.now) (hrun : t.run.ageLimit = s.run.ageLimit) (k : Pkt) : t.aged k = s.aged k := by
  rw [State.aged, State.aged, hnow, hrun]

section
variable (s)

@[simp] theorem State.latch_eth (n j : Nat) : (s.latch n).eth j = s.eth j := rfl
@[simp] theorem State.statOut_voq (j : Nat) (k : Pkt) : (s.statOut j k).voq q = s.voq q := rfl

/-- What an update of a port leaves of it, it leaves of every port. -/
theorem State.modEth_leaves {β : Type} {v : EthPort → β} {f : EthPort → EthPort} (h : ∀ e, v (f e) = v e) (p j : Nat) :
    v ((s.modEth p f).eth j) = v (s.eth j) := by
  by_cases e : p = j
  · rw [e, State.modEth_same, h]
  · rw [State.modEth_other _ _ e]

@[simp] theorem State.portCount_mtu (i n j : Nat) : ((s.portCount p i n).eth j).mtu = (s.eth j).mtu :=
  s.modEth_leaves (v := EthPort.mtu) (fun _ => by rfl) p j

@[simp] theorem State.portCount_pauseMode (i n j : Nat) : ((s.portCount p i n).eth j).pauseMode = (s.eth j).pauseMode :=
  s.modEth_leaves (v := EthPort.pauseMode) (fun _ => by rfl) p j

theorem State.portCount_other (i n : Nat) {j : Nat} (h : p ≠ j) : (s.portCount p i n).eth j = s.eth j :=
  State.modEth_other _ _ h

/-- An event under a limit is of the log alone. -/
theorem State.limited_raiseCtx_keeps {P : State → Prop} (l : Keeps [.log] P) {id ev : EventId} {src ns : Nat} {items : List Item}
    (k : P s) : P (s.limited id src ns (State.raiseCtx c ev items)) :=
  State.limited_keeps l (fun _ k => State.raiseCtx_keeps l k) k

end

/-! The freeing of a packet (R255, R257, R262). -/

/-- What the buffers and handles of packets do not touch: the Stitcher's contexts, the flow queues, the frames sent, and of each port the
time of its last frame and its virtual time. -/
def Run.traffic (r : Run) : Tbl Stitch × Tbl Flow × List Pkt × (Nat → T48 × Nat) :=
  (r.stitch, r.flows, r.sent, fun p => ((r.ports.look EthPort.reset p).txAt, (r.ports.look EthPort.reset p).vtime))

theorem State.stitch_of_traffic (h : t.run.traffic = s.run.traffic) (c : Nat) : t.stitch c = s.stitch c :=
  State.stitch_congr (congrArg (·.1) h) c

theorem State.flow_of_traffic (h : t.run.traffic = s.run.traffic) (f : Nat) : t.flow f = s.flow f :=
  State.flow_congr (congrArg (·.2.1) h) f

theorem State.sent_of_traffic (h : t.run.traffic = s.run.traffic) : t.run.sent = s.run.sent :=
  congrArg (·.2.2.1) h

theorem State.port_of_traffic (h : t.run.traffic = s.run.traffic) (p : Nat) :
    (t.eth p).txAt = (s.eth p).txAt ∧ (t.eth p).vtime = (s.eth p).vtime :=
  Prod.mk.inj (congrFun (congrArg (·.2.2.2) h) p)

section
variable {x : Tbl Stitch × Tbl Flow × List Pkt × (Nat → T48 × Nat)}

/-- An update of a port that leaves its last frame's time and its virtual time. -/
theorem State.modEth_traffic {f : EthPort → EthPort} (h : ∀ e, ((f e).txAt, (f e).vtime) = (e.txAt, e.vtime)) (p : Nat) :
    (s.modEth p f).run.traffic = s.run.traffic := by
  have ports := funext fun j => s.modEth_leaves (v := fun e => (e.txAt, e.vtime)) h p j
  exact congrArg (fun g => (s.run.stitch, s.run.flows, s.run.sent, g)) ports

theorem State.pfcCheck_traffic (h : s.run.traffic = x) : s.pfcCheck.run.traffic = x :=
  State.each_keeps (P := fun t => t.run.traffic = x) (fun p t k =>
    have sent (b : Bool) (n : Nat) : (t.modEth p (fun e => { e with pfcSent := b, pfcAt := n })).run.traffic = x :=
      (State.modEth_traffic (fun _ => by rfl) p).trans k
    have cleared : (t.modEth p (fun e => { e with pfcSent := false })).run.traffic = x :=
      (State.modEth_traffic (fun _ => by rfl) p).trans k
    ite_keeps (P := fun t => t.run.traffic = x) (sent true t.now) (ite_keeps (P := fun t => t.run.traffic = x) cleared k)) h

theorem State.allocPkt_traffic {u : State} {j : Pkt} (h : s.run.traffic = x) (e : s.allocPkt k = some (u, j)) : u.run.traffic = x := by
  unfold State.allocPkt at e
  split at e
  · cases e
  · obtain ⟨n, -, found⟩ := List.exists_of_findSome?_eq_some e
    obtain ⟨y, -, taken⟩ := Option.map_eq_some_iff.mp found
    obtain ⟨rfl, -⟩ := Prod.mk.inj taken
    exact State.pfcCheck_traffic h

theorem State.copyPkt_traffic {u : State} {i j : Pkt} (h : s.run.traffic = x) (e : s.copyPkt k i = some (u, j)) : u.run.traffic = x := by
  unfold State.copyPkt at e
  split at e
  · cases e
  · obtain ⟨rfl, -⟩ := Prod.mk.inj (Option.some.inj e)
    exact h

theorem State.allocCopies_traffic {u : State} {ks js : List Pkt} (h : s.run.traffic = x) (e : s.allocCopies ks = some (u, js)) :
    u.run.traffic = x := by
  unfold State.allocCopies at e
  split at e
  · obtain ⟨rfl, -⟩ := Prod.mk.inj (Option.some.inj e)
    exact h
  · obtain ⟨first, taken, copies⟩ := Option.bind_eq_some_iff.mp e
    refine List.foldlRecOn (motive := fun acc => ∀ y, acc = some y → y.1.run.traffic = x) _ _ ?_ ?_ _ copies
    · rintro _ ⟨⟩
      exact State.allocPkt_traffic h taken
    · intro acc ih c _ y found
      obtain ⟨z, before, found⟩ := Option.bind_eq_some_iff.mp found
      obtain ⟨w, copy, rfl⟩ := Option.map_eq_some_iff.mp found
      exact State.copyPkt_traffic (ih z before) copy

theorem State.retryOne_traffic (ks : List Pkt) (h : s.run.traffic = x) : (s.retryOne ks).run.traffic = x := by
  unfold State.retryOne
  split
  · exact h
  · split
    case h_1 u js taken =>
      exact State.each_keeps (P := fun t => t.run.traffic = x) (fun _ _ k => k) (State.allocCopies_traffic h taken)
    case h_2 => exact h

theorem State.retryOut_traffic (h : s.run.traffic = x) : s.retryOut.run.traffic = x :=
  State.each_keeps (P := fun t => t.run.traffic = x) (fun ks _ k => State.retryOne_traffic ks k) h

end

/-- A packet whose pointer is good gives back its handle, and its buffer with the last one, and those that wait are served (R26, R258). -/
theorem State.freePkt_of_good {P : State → Prop} (hptr : s.pointerBad k = none) (hs : P s)
    (hback : ∀ (f : Tbl Nat → Tbl Nat) (g : LdlPool → LdlPool),
      P ((s.modRun (fun r => { r with handles := f r.handles })).modLadle k.pool g))
    (hout : ∀ t, P t → P t.retryOut.pfcCheck) : P (s.freePkt k) := by
  unfold State.freePkt
  refine hout _ (ite_keeps hs ?_)
  dsimp only
  split
  case h_1 bad => cases hptr.symm.trans bad
  case h_2 => exact hback (·.upd 0 k.cls (· - 1)) _

theorem State.freePkt_keeps_of_good {P : State → Prop} (hptr : s.pointerBad k = none) (u : Keeps [.run] P) (h : P s) : P (s.freePkt k) :=
  State.freePkt_of_good hptr h (fun _ _ => State.modLadle_keeps u (State.modRun_keeps u h))
    fun _ k => State.pfcCheck_keeps u (State.retryOut_keeps u k)

theorem State.freePkt_traffic (hptr : s.pointerBad k = none) : (s.freePkt k).run.traffic = s.run.traffic :=
  State.freePkt_of_good (P := fun t => t.run.traffic = s.run.traffic) hptr rfl (fun _ _ => rfl)
    fun _ k => State.pfcCheck_traffic (State.retryOut_traffic k)

end Sys2Proof.Machine
end

section
/-! PROOF. Ingress of the Runner, the crossbar and the receive queues (R241 to R249, R260, R261). -/

namespace Sys2Proof.Machine

variable {s : State} {p q : Nat} {k : Pkt} {r : List Pkt}

/-! The commands of ingress and switching. -/

section
variable (s)

theorem exec_frameReceived (p : Nat) (f : Frame) : exec (.frameReceived p f) s = execFrameReceived p f s := rfl
theorem exec_packetSwitch (q : Nat) : exec (.packetSwitch q) s = execPacketSwitch q s := rfl
theorem exec_runqUnread (q : Nat) : exec (.runqUnread q) s = execRunqUnread q s := rfl

end

/-! Frames (R243 to R249, R257). -/

section
variable {f : Frame} {e : Rule} {n : Nat}

/-- A frame of `n` bytes is counted at its port (R269). -/
def State.counted (p n : Nat) (s : State) : State := (s.portCount p 1 1).portCount p 2 n

theorem State.counted_capture : (s.counted p n).run.capture = s.run.capture := by
  simp [State.counted, State.portCount, State.modEth]

theorem State.counted_decS (j : Nat) : (s.counted p n).decS j = s.decS j :=
  State.decS_congr (by simp [State.counted, State.portCount, State.modEth]) j

theorem State.counted_quenchOpen : (s.counted p n).quenchOpen e = s.quenchOpen e := by
  rw [State.quenchOpen, State.quenchOpen]
  rfl

/-- Whether a rule is quenched does not rest on what its port has counted. -/
theorem State.counted_quenched : (s.counted p n).quenched e = s.quenched e := by
  rw [State.quenched, State.counted_quenchOpen]
  simp [State.quenched, State.counted, State.portCount, State.modEth]

theorem exec_frameReceived_of_down (hdown : s.portUp p = false) : exec (.frameReceived p f) s = .next s := by
  rw [exec_frameReceived, execFrameReceived, if_pos (by simp [hdown])]

section
variable (hup : s.portUp p = true)
include hup

theorem exec_frameReceived_of_bad (hbad : frameBad (s.eth p).mtu f = true) :
    exec (.frameReceived p f) s = .next ((s.counted p f.len).portCount p 4 1) := by
  rw [exec_frameReceived, execFrameReceived, if_neg (by simp [hup])]
  exact congrArg _ (if_pos (by rwa [State.portCount_mtu, State.portCount_mtu]))

/-- A good UDP frame that is not of PTP goes by the first rule that it matches. -/
theorem exec_frameReceived_of_rule (hgood : frameBad (s.eth p).mtu f = false) (hip : f.ip = true) (hudp : f.udp = true)
    (hevent : f.dport ≠ 319) (hgeneral : f.dport ≠ 320) (hrule : s.run.rules.find? (fun r => r.2.hits p f) = some (n, e))
    (hload : s.reloading 326 n = false) : exec (.frameReceived p f) s = .next ((s.counted p f.len).byRule p f e) := by
  have rule : (s.counted p f.len).run.rules.find? (fun r => r.2.hits p f) = some (n, e) := hrule
  have load : (s.counted p f.len).reloading 326 n = false := hload
  have media : ¬ (f.ip && f.udp && (f.dport == 319 || f.dport == 320)) = true := by
    rw [beq_eq_false_iff_ne.mpr hevent, beq_eq_false_iff_ne.mpr hgeneral]
    simp
  rw [exec_frameReceived, execFrameReceived, if_neg (by simp [hup])]
  refine congrArg _ ((if_neg (by simp [hgood])).trans ((if_neg media).trans ?_))
  rw [← State.counted, hip, hudp]
  simp [rule, load]

end

theorem State.byRule_of_quenched (hquench : s.quenched e = true) :
    s.byRule p f e = (s.whenB (s.quenchOpen e) State.tickFree).portCount p 7 1 := by
  rw [State.byRule, if_pos hquench]

/-- A green packet takes no account of YELLOW_FLOOR (R247). -/
theorem State.yellowFits_of_green (hgreen : k.yellow = false) : s.yellowFits k = true := by
  simp [State.yellowFits, hgreen]

theorem State.bufferFrame_of_alloc {u : State} {j : Pkt} (hgreen : k.yellow = false) (halloc : s.allocPkt k = some (u, j)) :
    s.bufferFrame p k = u.voqPut (u.egressOf j.dest j.stream) j := by
  simp [State.bufferFrame, State.yellowFits_of_green hgreen, halloc]

/-- A packet of a rule without a policer, for the Tack, the Girth link, an input or a stream that is not IDLE, is buffered. -/
theorem State.byRule_of_open (hquench : s.quenched e = false) (hdest : e.dest ≠ 3) (hpol : e.polEn = false)
    (hstream : e.dest = 0 → (s.run.capture.look none e.stream.toNat).isSome = true ∨ (s.decS e.stream.toNat).st ≠ .idle) :
    s.byRule p f e = s.bufferFrame p
      (s.pktOf p f e.part.toNat e.tc.toNat e.dest.toNat e.stream.toNat e.path false) := by
  have ready : ¬ (e.dest = 0 ∧ (s.run.capture.look none e.stream.toNat).isNone = true ∧ (s.decS e.stream.toNat).st = .idle) := by
    rintro ⟨hd, hnone, hidle⟩
    rcases hstream hd with hsome | hbusy
    · simp [Option.isNone_iff_eq_none.mp hnone] at hsome
    · exact hbusy hidle
  rw [State.byRule, if_neg (by simp [hquench]), if_neg hdest, if_neg ready]
  simp only [State.policeBy, hpol, Bool.not_false, if_true, reduceCtorEq, if_false]
  rfl

end

/-! The crossbar (R241, R242, R259, R260). -/

/-- Update of receive queue `j`. -/
def State.modRx (j : Nat) (f : RxQueue → RxQueue) (s : State) : State :=
  s.modRun (fun r => { r with rx := r.rx.upd RxQueue.reset j f })

theorem State.modRx_same {j : Nat} (f : RxQueue → RxQueue) :
    (s.modRx j f).run.rx.look RxQueue.reset j = f (s.run.rx.look RxQueue.reset j) := Tbl.look_upd_same _ _ _ _

/-- The head of VOQ `q` has left it (R241, R242, R270): the next to cross and the next expected follow. -/
def State.popVoq (q : Nat) (k : Pkt) (r : List Pkt) (s : State) : State :=
  (((s.modVoq q (fun v => { v with queue := r })).statOut q k).modVoq q (fun v => { v with serial := v.serial + 1 })).modVoq q
    (fun v => { v with expect := v.expect + 1 })

/-- A packet of VOQ `q` as it crosses: with its serial number and its plane (R242). -/
def State.stamped (s : State) (q : Nat) (k : Pkt) : Pkt := { k with serial := (s.voq q).serial, plane := s.planeOf k }

theorem State.popVoq_same :
    (s.popVoq q k r).voq q = { s.voq q with queue := r, serial := (s.voq q).serial + 1, expect := (s.voq q).expect + 1 } := by
  simp [State.popVoq]

theorem State.popVoq_stitch (j : Nat) : (s.popVoq q k r).stitch j = s.stitch j := by
  simp [State.popVoq, State.stitch, State.modVoq, State.statOut, State.modStat]
theorem State.popVoq_rx : (s.popVoq q k r).run.rx = s.run.rx := by
  simp [State.popVoq, State.modVoq, State.statOut, State.modStat]

theorem State.popVoq_contextOf : (s.popVoq q k r).contextOf (s.stamped q k) = s.contextOf k := by
  simp [State.popVoq, State.contextOf, State.modVoq, State.statOut, State.modStat, State.stamped]

theorem State.popVoq_dec : (s.popVoq q k r).dec = s.dec := by
  simp [State.popVoq, State.modVoq, State.statOut, State.modStat]

@[simp] theorem State.modStitch_dec (c : Nat) (f : Stitch → Stitch) : (s.modStitch c f).dec = s.dec := rfl
@[simp] theorem State.modStitch_voq (c j : Nat) (f : Stitch → Stitch) : (s.modStitch c f).voq j = s.voq j := rfl
@[simp] theorem State.modRx_voq (i j : Nat) (f : RxQueue → RxQueue) : (s.modRx i f).voq j = s.voq j := rfl

theorem State.popVoq_other {j : Nat} (h : q ≠ j) : (s.popVoq q k r).voq j = s.voq j := by
  simp [State.popVoq, State.modVoq_other, h]

/-- The packet that the egress side expects crosses at once, and none has crossed ahead of it. -/
theorem State.putBack_of_expected (hserial : k.serial = (s.voq q).expect) (hearly : (s.voq q).early = []) :
    s.putBack q k = (s.modVoq q (fun v => { v with expect := v.expect + 1 })).cross k := by
  rw [State.putBack, if_pos hserial, hearly]
  rfl

theorem State.cross_of_stitcher (hdest : k.dest = 0) :
    s.cross k = s.modStitch (s.contextOf k) (fun x => { x with arrived := x.arrived ++ [k] }) := by
  simp only [State.cross, hdest]

/-- A receive queue with a packet more; one that was empty is not dequeued from now on (R261). -/
def RxQueue.push (k : Pkt) (now : Nat) (x : RxQueue) : RxQueue :=
  { x with queue := x.queue ++ [k], lastDeq := if x.queue.isEmpty then now else x.lastDeq }

/-- A packet that is no query is put into its receive queue (R261). -/
theorem State.cross_of_tack (hdest : k.dest = 1) (hquery : k.query = false)
    (hread : (s.run.rx.look RxQueue.reset (tackQueue k.cls)).unread = false) :
    s.cross k = s.modRx (tackQueue k.cls) (RxQueue.push k s.now) := by
  simp only [State.cross, hdest, State.rxPut, hquery, State.whenB, Bool.false_and, Bool.false_eq_true, if_false]
  exact if_neg (by simp [hread])

/-- The crossbar runs, with a plane in service. -/
theorem State.crossbar_open (hrun : s.running = true) (hplanes : s.run.planes ≠ 0) : ¬ (!s.running || s.run.planes == 0) = true := by
  rw [hrun, beq_eq_false_iff_ne.mpr hplanes]
  decide

section
variable (hq : (s.voq q).queue = k :: r) (hrun : s.running = true) (hplanes : s.run.planes ≠ 0)
include hq hrun hplanes

theorem exec_packetSwitch_of_aged (hage : s.aged k = true) :
    exec (.packetSwitch q) s = .next ((s.modVoq q (fun v => { v with queue := r })).ageOut q k) := by
  rw [exec_packetSwitch, execPacketSwitch, hq]
  exact congrArg _ ((if_neg (State.crossbar_open hrun hplanes)).trans (if_pos hage))

section
variable (hage : s.aged k = false)
include hage

theorem exec_packetSwitch_of_full (hfull : s.accepts k = false) : exec (.packetSwitch q) s = .next
    (if s.dropping then ((s.modVoq q (fun v => { v with queue := r })).statOut q k).dropPkt k else s) := by
  rw [exec_packetSwitch, execPacketSwitch, hq]
  exact congrArg _ ((if_neg (State.crossbar_open hrun hplanes)).trans ((if_neg (by simp [hage])).trans (if_pos (by simp [hfull]))))

/-- A packet with a good pointer that its destination accepts crosses, with its serial number and its plane. -/
theorem exec_packetSwitch_of_accepted (hroom : s.accepts k = true) (hptr : s.pointerBad k = none)
    (hserial : (s.voq q).serial = (s.voq q).expect) (hearly : (s.voq q).early = []) : exec (.packetSwitch q) s =
      .next ((s.popVoq q k r).cross (s.stamped q k)) := by
  rw [exec_packetSwitch, execPacketSwitch, hq]
  refine congrArg _ ((if_neg (State.crossbar_open hrun hplanes)).trans ((if_neg (by simp [hage])).trans
    ((if_neg (by simp [hroom])).trans ?_)))
  simp only [hptr, ite_self]
  exact State.putBack_of_expected (by simpa using hserial) (by simpa using hearly)

end

end

/-! Receive queues that nothing reads (R261). -/

/-- The packets of receive queue `q` are freed, and it is in UNREAD. -/
def State.emptyRx (q : Nat) (s : State) : State :=
  (s.each (s.run.rx.look RxQueue.reset q).queue State.freePkt).modRun (fun r => { r with
    rx := r.rx.put RxQueue.reset q { s.run.rx.look RxQueue.reset q with queue := [], unread := true } })

theorem exec_runqUnread_of_late (hsome : (s.run.rx.look RxQueue.reset q).queue ≠ [])
    (hread : (s.run.rx.look RxQueue.reset q).unread = false)
    (hlate : (s.run.rx.look RxQueue.reset q).lastDeq + s.run.unreadMs * ms ≤ s.now) :
    exec (.runqUnread q) s = .next (((s.emptyRx q).latch 193).limited .runqUnread q ms (State.raise .runqUnread [i16 q])) := by
  have due : ¬ ((s.run.rx.look RxQueue.reset q).queue.isEmpty || (s.run.rx.look RxQueue.reset q).unread ||
      decide (s.now < (s.run.rx.look RxQueue.reset q).lastDeq + s.run.unreadMs * ms)) = true := by
    simp [hsome, hread, hlate]
  rw [exec_runqUnread, execRunqUnread, if_neg due]
  rfl

theorem State.emptyRx_rx : (s.emptyRx q).run.rx.look RxQueue.reset q =
    { s.run.rx.look RxQueue.reset q with queue := [], unread := true } :=
  Tbl.look_put_same _ _ q _

theorem State.emptyRx_dec : (s.emptyRx q).dec = s.dec :=
  State.each_keeps (P := fun t => t.dec = s.dec) (fun _ _ k => State.freePkt_keeps (keeps_dec (by decide)) k) rfl

/-- Settles O34: each frame and each head of a VOQ by the branch that its hypotheses choose, and what that branch leaves of the queues. -/
theorem runnerIngress : Obligations.RunnerIngress := by
  unfold Obligations.RunnerIngress
  refine ⟨fun s p f => exec_frameReceived_of_bad, ?quenched, ?buffered, fun s p f => exec_frameReceived_of_down, ?stitcher, ?tack,
    fun s q k r => exec_packetSwitch_of_aged, ?dropped, ?waiting, ?unread⟩
  case quenched =>
    intro s p n f e hup hgood hip hudp hevent hgeneral hrule hload hquench
    rw [exec_frameReceived_of_rule hup hgood hip hudp hevent hgeneral hrule hload,
      State.byRule_of_quenched (State.counted_quenched.trans hquench), State.counted_quenchOpen, State.counted]
  case buffered =>
    intro s p n f e u j hup hgood hip hudp hevent hgeneral hrule hload hquench hdest hpol hstream halloc
    have stream : e.dest = 0 → ((s.counted p f.len).run.capture.look none e.stream.toNat).isSome = true ∨
        ((s.counted p f.len).decS e.stream.toNat).st ≠ .idle := by
      simpa only [State.counted_capture, State.counted_decS] using hstream
    rw [exec_frameReceived_of_rule hup hgood hip hudp hevent hgeneral hrule hload,
      State.byRule_of_open (State.counted_quenched.trans hquench) hdest hpol stream, State.counted, State.bufferFrame_of_alloc rfl halloc]
  case stitcher =>
    intro s q k r hq hrun hplanes hage hdest hroom hptr hserial hearly
    refine ⟨_, exec_packetSwitch_of_accepted hq hrun hplanes hage hroom hptr hserial hearly, ?_⟩
    rw [State.cross_of_stitcher (k := s.stamped q k) hdest, State.popVoq_contextOf, State.modStitch_same, State.popVoq_stitch,
      State.modStitch_voq, State.popVoq_same]
    exact ⟨rfl, rfl, rfl, fun j hj => (State.modStitch_voq ..).trans (State.popVoq_other hj),
      (State.modStitch_dec ..).trans State.popVoq_dec, rfl⟩
  case tack =>
    intro s q k r hq hrun hplanes hage hdest hroom hptr hserial hearly hquery hread
    refine ⟨_, exec_packetSwitch_of_accepted hq hrun hplanes hage hroom hptr hserial hearly, ?_⟩
    rw [State.cross_of_tack (s := s.popVoq q k r) (k := s.stamped q k) hdest hquery (by rwa [State.popVoq_rx]), State.modRx_voq,
      State.popVoq_same]
    refine ⟨rfl, rfl, rfl, fun j hj => (State.modRx_voq ..).trans (State.popVoq_other hj), ?_⟩
    have rx := State.modRx_same (s := s.popVoq q k r) (j := tackQueue k.cls) (RxQueue.push (s.stamped q k) (s.popVoq q k r).now)
    rw [State.popVoq_rx] at rx
    exact congrArg RxQueue.queue rx
  case dropped =>
    intro s q k r hq hrun hplanes hage hfull hdrop
    rw [exec_packetSwitch_of_full hq hrun hplanes hage hfull, if_pos hdrop]
  case waiting =>
    intro s q k r hq hrun hplanes hage hfull hdrop
    rw [exec_packetSwitch_of_full hq hrun hplanes hage hfull, if_neg (by simp [hdrop])]
  case unread =>
    intro s q hsome hread hlate
    obtain ⟨-, log⟩ := State.limited_raise_frame ((s.emptyRx q).latch 193) .runqUnread .runqUnread q ms [i16 q]
    have run := log .run (by decide)
    have irc := log .irc (by decide)
    have dec := log .dec (by decide)
    have rx := (congrArg (fun r => r.rx.look RxQueue.reset q) run).trans State.emptyRx_rx
    refine ⟨_, exec_runqUnread_of_late hsome hread hlate, congrArg RxQueue.queue rx, congrArg RxQueue.unread rx, ?_,
      dec.trans State.emptyRx_dec⟩
    rw [irc]
    exact State.latch_mem _ 193

end Sys2Proof.Machine
end

section
/-! PROOF. The Stitcher: the packet that it expects, the numbers that it declares missing, and its paths (R250 to R256). -/

namespace Sys2Proof.Machine

variable {s : State} {c n : Nat} {k : Pkt} {r : List Pkt} {h : Rtp}

/-! The commands of the Stitcher. -/

section
variable (s)

theorem exec_stitcherPacket (c : Nat) : exec (.stitcherPacket c) s = execStitcherPacket c s := rfl
theorem exec_stitchHoldExpiry (c : Nat) : exec (.stitchHoldExpiry c) s = execStitchHoldExpiry c s := rfl
theorem exec_stitchPath (c : Nat) (b : Bool) : exec (.stitchPath c b) s = execStitchPath c b s := rfl

end

/-! The update of one context. -/

@[simp] theorem State.modStitch_decS (f : Stitch → Stitch) (j : Nat) : (s.modStitch c f).decS j = s.decS j := rfl
@[simp] theorem State.modStitch_irc (f : Stitch → Stitch) : (s.modStitch c f).irc = s.irc := rfl
@[simp] theorem State.modStitch_now (f : Stitch → Stitch) : (s.modStitch c f).now = s.now := rfl
@[simp] theorem State.modStitch_pools (f : Stitch → Stitch) : (s.modStitch c f).run.pools = s.run.pools := rfl
@[simp] theorem State.modStitch_ageLimit (f : Stitch → Stitch) : (s.modStitch c f).run.ageLimit = s.run.ageLimit := rfl

theorem State.modStitch_aged (f : Stitch → Stitch) (j : Pkt) : (s.modStitch c f).aged j = s.aged j :=
  State.aged_congr (State.modStitch_now f) (State.modStitch_ageLimit f) j

/-- Two updates of one context are one update. -/
theorem State.modStitch_modStitch (f g : Stitch → Stitch) : (s.modStitch c f).modStitch c g = s.modStitch c (fun x => g (f x)) := by
  simp only [State.modStitch, State.modRun, Tbl.upd_upd]

theorem State.modStitch_run {t : State} (e : t.run = s.run) (f : Stitch → Stitch) : (t.modStitch c f).run = (s.modStitch c f).run := by
  rw [State.modStitch, State.modRun_run, e, State.modStitch, State.modRun_run]

/-! The bitstream queue and its ring (R256). -/

section
variable (s c)

@[simp] theorem State.ringPut_run (it : QItem) : (s.ringPut c it).run = s.run := State.ringPut_keeps (keeps_run (by decide)) rfl
@[simp] theorem State.ringPut_irc (it : QItem) : (s.ringPut c it).irc = s.irc := State.ringPut_keeps (keeps_irc (by decide)) rfl
@[simp] theorem State.ringCopy_run (bs : List Byte) (at_ : T48) : (s.ringCopy c bs at_).run = s.run :=
  State.ringCopy_keeps (keeps_run (by decide)) rfl
@[simp] theorem State.ringCopy_irc (bs : List Byte) (at_ : T48) : (s.ringCopy c bs at_).irc = s.irc :=
  State.ringCopy_keeps (keeps_irc (by decide)) rfl

/-- A gap marker is one item more, and takes no bytes. -/
theorem State.ringPut_gap (first count : Nat) :
    (s.ringPut c (.gap first count)).decS c = { s.decS c with items := (s.decS c).items ++ [.gap first count] } :=
  (State.decS_congr (State.eventAt_keeps (keeps_dec (by decide)) rfl) c).trans (State.modDecS_same s c _)

/-- Bytes are one item more, and stand in the ring before the new write pointer. -/
theorem State.ringCopy_decS (bs : List Byte) (at_ : T48) : (s.ringCopy c bs at_).decS c =
    { DecStream.copied bs (s.decS c) with items := (s.decS c).items ++ [.bytes bs.length at_], wptr := (s.decS c).wptr + bs.length } := by
  refine (State.decS_congr (State.eventAt_keeps (keeps_dec (by decide)) rfl) c).trans ((State.modDecS_same _ c _).trans ?_)
  rw [State.modDecS_same]
  rfl

end

/-! A packet that is a single NAL unit is released (R250, R254). -/

theorem Pkt.bytes_length (k : Pkt) (h : Rtp) : (k.bytes h).length = k.payload := by
  simp [Pkt.bytes]

/-- The arrival time of the access unit of a packet: that of the one that has begun, or as far as it is known (R254). -/
def Stitch.unitAt (k : Pkt) (x : Stitch) : T48 := if x.auOpen then x.auAt else unitArrival k x.held

/-- A context that has released packet `k` of header `h`, which does not end its access unit. -/
def Stitch.passed (k : Pkt) (h : Rtp) (at_ : T48) (x : Stitch) : Stitch := { x with
  frag := none, lastTs := some h.ts, auOpen := true, auAt := at_, next := some (k.ext + 1)
  arrivals := ((k.ext, k.arrival) :: x.arrivals).take 512, dropRun := false }

/-- A decode stream to which the bytes of packet `k` are appended. -/
def DecStream.taken (k : Pkt) (h : Rtp) (at_ : T48) (d : DecStream) : DecStream :=
  { DecStream.copied (k.bytes h) d with items := d.items ++ [.bytes k.payload at_], wptr := d.wptr + k.payload }

section
variable (hkind : h.kind = .single) (hmarker : h.marker = false) (hpay : k.payload ≠ 0)
  (hunit : (s.stitch c).auOpen = true → (s.stitch c).lastTs = some h.ts)
include hkind hmarker hpay hunit

theorem State.releaseStream_of_single : s.releaseStream c k h =
    (s.ringCopy c (k.bytes h) ((s.stitch c).unitAt k)).modStitch c (fun x => { x with
      frag := none, lastTs := some h.ts, auOpen := true, auAt := (s.stitch c).unitAt k }) := by
  have boundary : ((s.stitch c).auOpen && (s.stitch c).lastTs != some h.ts) = false := by
    cases hopen : (s.stitch c).auOpen
    · rfl
    · simp [hunit hopen]
  have bytes : (k.bytes h).isEmpty = false := by
    rw [List.isEmpty_eq_false_iff, ← List.length_pos_iff, Pkt.bytes_length]
    exact Nat.pos_of_ne_zero hpay
  simp only [State.releaseStream, boundary, hkind, hmarker, payloadOf, bytes, Bool.false_eq_true, if_false, Bool.not_false, Bool.and_true]
  rfl

section
variable (hc : c < 256) (hrtp : k.rtp = some h)
include hc hrtp

theorem State.release_of_single : s.release c k =
    ((s.ringCopy c (k.bytes h) ((s.stitch c).unitAt k)).modStitch c (Stitch.passed k h ((s.stitch c).unitAt k))).freePkt k := by
  simp only [State.release, hrtp, hc, if_true, State.releaseStream_of_single hkind hmarker hpay hunit, State.modStitch_modStitch]
  rfl

/-- What a released packet does to its context and to its stream; the latches stay. -/
theorem State.release_single (hptr : s.pointerBad k = none) : (s.release c k).stitch c = (s.stitch c).passed k h ((s.stitch c).unitAt k) ∧
    (s.release c k).decS c = (s.decS c).taken k h ((s.stitch c).unitAt k) ∧ (s.release c k).irc = s.irc := by
  rw [State.release_of_single hkind hmarker hpay hunit hc hrtp]
  have good : ((s.ringCopy c (k.bytes h) ((s.stitch c).unitAt k)).modStitch c
      (Stitch.passed k h ((s.stitch c).unitAt k))).pointerBad k = none := by
    rw [← hptr]
    exact State.pointerBad_congr (by rw [State.modStitch_pools, State.ringCopy_run]) k
  refine ⟨?_, ?_, ?_⟩
  · rw [State.stitch_of_traffic (State.freePkt_traffic good), State.modStitch_same,
      State.stitch_congr (congrArg Run.stitch (State.ringCopy_run ..))]
  · rw [State.decS_congr (State.freePkt_keeps (keeps_dec (by decide)) rfl), State.modStitch_decS, State.ringCopy_decS,
      Pkt.bytes_length]
    rfl
  · exact (State.freePkt_keeps_of_good good (keeps_irc (by decide)) rfl).trans (State.ringCopy_irc ..)

end

end

/-! Held packets that follow (R250, R251). -/

theorem State.releaseRun_of_none (m : Nat) (hheld : (s.stitch c).held = []) : s.releaseRun m c = s := by
  cases m with
  | zero => rfl
  | succ m => simp only [State.releaseRun, hheld]

theorem State.releaseRun_of_next (m : Nat) (hheld : (s.stitch c).held = k :: r) (hnext : (s.stitch c).next = some k.ext)
    (hage : s.aged k = false) :
    s.releaseRun (m + 1) c = ((s.modStitch c (fun x => { x with held := r })).release c k).releaseRun m c := by
  simp only [State.releaseRun, hheld, hnext, hage, ne_eq, not_true_eq_false, if_false, Bool.false_eq_true]

/-! The packet that is expected (R250, R252, R253). -/

theorem State.ssrcSeen_of_same {v : BitVec 32} (hc : c < 256) (hv : (s.decS c).ssrc = some v) :
    s.ssrcSeen c v = s.modDecS c (fun d => { d with ssrc := some v }) := by
  have same : (s.ssrcOf c).any (· != v) = false := by simp [State.ssrcOf, hc, hv]
  simp only [State.ssrcSeen, same, State.whenB, hc, if_true, Bool.false_eq_true, if_false]

/-- A packet of the source that the stream has begins nothing anew. -/
theorem State.ssrcSeen_decS {v : BitVec 32} (hc : c < 256) (hv : (s.decS c).ssrc = some v) : (s.ssrcSeen c v).decS c = s.decS c := by
  rw [State.ssrcSeen_of_same hc hv, State.modDecS_same, ← hv]

theorem State.modDecS_run (j : Nat) (f : DecStream → DecStream) : (s.modDecS j f).run = s.run := rfl

/-- A context that a packet reaches on a path. -/
def Stitch.seen (b : Bool) (now : Nat) (x : Stitch) : Stitch :=
  if b then { x with lastB := now, upB := true } else { x with lastA := now, upA := true }

/-- Beside the context a packet's path changes the latches and the log. -/
theorem State.pathSeen_run (b : Bool) : (s.pathSeen c b).run = (s.modStitch c (Stitch.seen b s.now)).run :=
  ite_keeps (P := fun t => t.run = (s.modStitch c (Stitch.seen b s.now)).run) rfl
    (State.limited_raiseCtx_keeps _ (keeps_run (by decide)) rfl)

theorem State.pathSeen_decS (b : Bool) (j : Nat) : (s.pathSeen c b).decS j = s.decS j :=
  State.decS_congr (State.pathSeen_keeps (keeps_dec (by decide)) rfl) j

/-- Packet `k` is taken from those that have arrived, with its source and its path. -/
def State.takeArrived (c : Nat) (k : Pkt) (r : List Pkt) (v : BitVec 32) (s : State) : State :=
  ((s.modStitch c (fun x => { x with arrived := r })).ssrcSeen c v).pathSeen c k.path

theorem exec_stitcherPacket_of_good (harr : (s.stitch c).arrived = k :: r) (hrtp : k.rtp = some h) (hptr : s.pointerBad k = none) :
    exec (.stitcherPacket c) s = .next ((s.takeArrived c k r h.ssrc).stitchOne c
      { k with ext := extNumber (decide (256 ≤ c)) ((s.takeArrived c k r h.ssrc).stitch c).next h }) := by
  have good : (s.modStitch c (fun x => { x with arrived := r })).pointerBad k = none :=
    (State.pointerBad_congr (State.modStitch_pools _) k).trans hptr
  simp only [exec_stitcherPacket, execStitcherPacket, harr, good, hrtp, Option.isSome_none, Bool.false_eq_true, if_false]
  rfl

section
variable {v : BitVec 32} (hc : c < 256) (hv : (s.decS c).ssrc = some v)
include hc hv

theorem State.takeArrived_decS : (s.takeArrived c k r v).decS c = s.decS c :=
  (State.pathSeen_decS ..).trans (State.ssrcSeen_decS hc hv)

/-- A packet of the stream's source leaves of the Runner all but the paths of its context and what has arrived there. -/
theorem State.takeArrived_run :
    (s.takeArrived c k r v).run = (s.modStitch c (fun x => Stitch.seen k.path s.now { x with arrived := r })).run := by
  have source := State.ssrcSeen_of_same (s := s.modStitch c (fun x => { x with arrived := r })) hc hv
  rw [State.takeArrived, State.pathSeen_run, source, State.modStitch_run (State.modDecS_run ..), State.modStitch_modStitch]
  rfl

theorem State.takeArrived_pools : (s.takeArrived c k r v).run.pools = s.run.pools :=
  (congrArg Run.pools (State.takeArrived_run hc hv)).trans (State.modStitch_pools _)

theorem State.takeArrived_stitch :
    (s.takeArrived c k r v).stitch c = Stitch.seen k.path s.now { s.stitch c with arrived := r } := by
  rw [State.stitch_congr (congrArg Run.stitch (State.takeArrived_run hc hv)), State.modStitch_same]

end

/-- The path alone changes in a context that a packet reaches. -/
theorem Stitch.seen_eq (b : Bool) (now : Nat) (x : Stitch) :
    ∃ la lb ua ub, x.seen b now = { x with lastA := la, lastB := lb, upA := ua, upB := ub } := by
  cases b <;> exact ⟨_, _, _, _, rfl⟩

theorem State.stitchOne_of_expected (hnext : (s.stitch c).next = some k.ext) (hcand : (s.stitch c).cand = none) :
    s.stitchOne c k = (s.release c k).releaseRun 513 c := by
  have near : isJump k.ext k.ext = false := by simp [isJump]
  simp only [State.stitchOne, State.inWindow, hnext, hcand, near, Option.getD_some, Bool.false_eq_true, if_false, if_true]

/-! Numbers declared missing (R251, R260). -/

section
variable (hc : c < 256)
include hc

/-- A gap marker ends the fragmentation unit in progress. -/
theorem State.gapMark_run (count : Nat) : (s.gapMark c n count).run = (s.modStitch c (fun x => { x with frag := none })).run := by
  have log : ((s.latch 189).limited .streamGap c ms (State.raiseCtx c .streamGap [i32 n, i32 count])).run = s.run :=
    State.limited_raiseCtx_keeps _ (keeps_run (by decide)) rfl
  simp only [State.gapMark, hc, if_true, State.ringPut_run, State.modStitch_run log]

theorem State.gapMark_stitch (count : Nat) : (s.gapMark c n count).stitch c = { s.stitch c with frag := none } := by
  rw [State.stitch_congr (congrArg Run.stitch (State.gapMark_run hc count)), State.modStitch_same]

theorem State.gapMark_aged (count : Nat) (j : Pkt) : (s.gapMark c n count).aged j = s.aged j :=
  State.aged_congr (State.gapMark_keeps (keeps_now (by decide)) rfl)
    ((congrArg Run.ageLimit (State.gapMark_run hc count)).trans (State.modStitch_ageLimit _)) j

theorem State.gapMark_pools (count : Nat) : (s.gapMark c n count).run.pools = s.run.pools :=
  (congrArg Run.pools (State.gapMark_run hc count)).trans (State.modStitch_pools _)

theorem State.gapMark_decS (count : Nat) :
    (s.gapMark c n count).decS c = { s.decS c with items := (s.decS c).items ++ [.gap n count] } := by
  have log : ((s.latch 189).limited .streamGap c ms (State.raiseCtx c .streamGap [i32 n, i32 count])).decS c = s.decS c :=
    State.decS_congr (State.limited_raiseCtx_keeps _ (keeps_dec (by decide)) rfl) c
  simp only [State.gapMark, hc, if_true, State.ringPut_gap, State.modStitch_decS, log]

theorem State.gapMark_latch (count : Nat) : 189 ∈ (s.gapMark c n count).irc.latch := by
  have log : ((s.latch 189).limited .streamGap c ms (State.raiseCtx c .streamGap [i32 n, i32 count])).irc = (s.latch 189).irc :=
    State.limited_raiseCtx_keeps _ (keeps_irc (by decide)) rfl
  simp only [State.gapMark, hc, if_true, State.ringPut_irc, State.modStitch_irc, log]
  exact State.latch_mem _ 189

end

/-- A context that goes on from number `n`, with `r` held. -/
def Stitch.skipTo (n : Nat) (missing : List Nat → List Nat) (r : List Pkt) (x : Stitch) : Stitch :=
  { x with next := some n, missing := missing x.missing, held := r }

/-- The numbers from `n` to that of packet `k` are missing; it is taken from those held, and `r` stay. -/
def State.skipped (c n : Nat) (k : Pkt) (missing : List Nat → List Nat) (r : List Pkt) (s : State) : State :=
  (s.gapMark c n (k.ext - n)).modStitch c (Stitch.skipTo k.ext missing r)

section
variable (hc : c < 256) (missing : List Nat → List Nat)
include hc

theorem State.skipped_stitch :
    (s.skipped c n k missing r).stitch c = Stitch.skipTo k.ext missing r { s.stitch c with frag := none } := by
  rw [State.skipped, State.modStitch_same, State.gapMark_stitch hc]

theorem State.skipped_decS : (s.skipped c n k missing r).decS c =
    { s.decS c with items := (s.decS c).items ++ [.gap n (k.ext - n)] } :=
  (State.modStitch_decS _ c).trans (State.gapMark_decS hc _)

theorem State.skipped_pools : (s.skipped c n k missing r).run.pools = s.run.pools :=
  (State.modStitch_pools _).trans (State.gapMark_pools hc _)

theorem State.skipped_latch : 189 ∈ (s.skipped c n k missing r).irc.latch := State.gapMark_latch hc _

end

/-- The lowest held packet, which has not aged, is released behind the marker. -/
theorem State.declareMissing_of_held (hc : c < 256) (hnext : (s.stitch c).next = some n) (hheld : (s.stitch c).held = k :: r)
    (hage : s.aged k = false) :
    ∃ missing, s.declareMissing c = ((s.skipped c n k missing r).release c k).releaseRun 512 c := by
  refine ⟨fun l => ((List.range (min 512 (k.ext - n))).map (fun i => k.ext - 1 - i) ++ l).take 512, ?_⟩
  simp only [State.declareMissing, hnext, hheld]
  rw [State.releaseRun_of_next (k := k) (r := r) 512, State.modStitch_modStitch]
  · rfl
  · rw [State.modStitch_same, State.gapMark_stitch hc, ← hheld]
  · rw [State.modStitch_same]
  · rw [State.modStitch_aged, State.gapMark_aged hc, hage]

/-! The end of HOLD (R251, R259). -/

/-- The held packets of a context that have not aged stay. -/
def State.keepYoung (c : Nat) (s : State) : State :=
  s.modStitch c (fun x => { x with held := x.held.filter (fun k => !s.aged k) })

section
variable (hheld : (s.stitch c).held = [k]) (hage : s.aged k = false)
include hheld hage

theorem State.keepYoung_stitch : (s.keepYoung c).stitch c = s.stitch c := by
  rw [State.keepYoung, State.modStitch_same, hheld, List.filter_cons_of_pos (by simp [hage]), List.filter_nil, ← hheld]

/-- HOLD has passed since the one held packet arrived. -/
theorem exec_stitchHoldExpiry_of_due (hc : c < 256) (hdue : (s.stitch c).heldAt + (s.decS c).cfg.hold ≤ s.now) :
    exec (.stitchHoldExpiry c) s = .next ((s.keepYoung c).declareMissing c) := by
  have none_old : (s.stitch c).held.filter (fun k => s.aged k) = [] := by simp [hheld, hage]
  have due : ((s.keepYoung c).stitch c).heldAt + (s.keepYoung c).holdOf c ≤ (s.keepYoung c).now := by
    rw [State.keepYoung_stitch hheld hage, State.holdOf, if_pos hc]
    exact hdue
  rw [exec_stitchHoldExpiry, execStitchHoldExpiry, none_old]
  exact congrArg _ (if_pos (by simpa using .inl due))

end

/-! Paths (R252). -/

/-- A context one of whose paths is DOWN. -/
def Stitch.pathDown (b : Bool) (x : Stitch) : Stitch := if b then { x with upB := false } else { x with upA := false }

theorem exec_stitchPath_of_silent {b : Bool} (hdual : s.dualCtx c = true) (hup : (if b then (s.stitch c).upB else (s.stitch c).upA) = true)
    (hlate : (if b then (s.stitch c).lastB else (s.stitch c).lastA) + 10 * ms ≤ s.now) : exec (.stitchPath c b) s =
      .next (((s.modStitch c (Stitch.pathDown b)).latch 189).limited .stitchPath (2 * c + b.toNat) ms
        (State.raiseCtx c .stitchPath [i16 b.toNat, i16 1])) := by
  rw [exec_stitchPath, execStitchPath, if_pos (by simp [hdual, hup, hlate])]
  rfl

/-- Settles O35: the packet that is expected and the one that the end of HOLD lets go are released each as a single NAL unit, the second
behind a marker; a silent path is one bit of its context. -/
theorem stitcherCommands : Obligations.StitcherCommands := by
  unfold Obligations.StitcherCommands
  refine ⟨?expected, ?hold, ?path⟩
  case expected =>
    intro s c n k r h hc harr hrtp hptr hv hnext hext hcand hheld hfrag hkind hmarker hopen hts hpay
    obtain ⟨la, lb, ua, ub, seen⟩ := Stitch.seen_eq k.path s.now { s.stitch c with arrived := r }
    have stitch : (s.takeArrived c k r h.ssrc).stitch c = _ := (State.takeArrived_stitch hc hv).trans seen
    have run := exec_stitcherPacket_of_good harr hrtp hptr
    rw [stitch, show extNumber (decide (256 ≤ c)) (s.stitch c).next h = n by rw [hnext, decide_eq_false (by omega), hext]] at run
    rw [State.stitchOne_of_expected (by rw [stitch, hnext]) (by rw [stitch, hcand])] at run
    have good : (s.takeArrived c k r h.ssrc).pointerBad { k with ext := n } = none :=
      (State.pointerBad_congr (State.takeArrived_pools hc hv) k).trans hptr
    obtain ⟨ctx, dec, -⟩ := State.release_single (s := s.takeArrived c k r h.ssrc) (k := { k with ext := n }) hkind hmarker hpay
      (fun _ => by rw [stitch, hts]) hc hrtp good
    have unit : ((s.takeArrived c k r h.ssrc).stitch c).unitAt { k with ext := n } = (s.stitch c).auAt := by
      rw [stitch]
      exact if_pos hopen
    rw [unit, stitch] at ctx
    rw [unit, State.takeArrived_decS hc hv] at dec
    rw [State.releaseRun_of_none 513 (by rw [ctx]; exact hheld)] at run
    refine ⟨_, run, ?_⟩
    rw [ctx, dec]
    exact ⟨rfl, rfl, rfl, rfl, rfl⟩
  case hold =>
    intro s c n k h hc hnext hheld hage hrtp hptr hkind hmarker hopen hpay hgap hdue
    have young := State.keepYoung_stitch hheld hage
    have run := exec_stitchHoldExpiry_of_due hheld hage hc hdue
    obtain ⟨missing, released⟩ := State.declareMissing_of_held (s := s.keepYoung c) hc (young ▸ hnext) (young ▸ hheld)
      (by rw [State.keepYoung, State.modStitch_aged, hage])
    rw [released] at run
    have stitch := State.skipped_stitch (s := s.keepYoung c) (n := n) (k := k) (r := []) hc missing
    rw [young] at stitch
    have good : ((s.keepYoung c).skipped c n k missing []).pointerBad k = none :=
      (State.pointerBad_congr ((State.skipped_pools hc missing).trans (State.modStitch_pools _)) k).trans hptr
    obtain ⟨ctx, dec, irc⟩ := State.release_single hkind hmarker hpay
      (fun h => by simp [stitch, Stitch.skipTo, hopen] at h) hc hrtp good
    have unit : (((s.keepYoung c).skipped c n k missing []).stitch c).unitAt k = k.ptp := by
      rw [stitch]
      exact if_neg (by simp [Stitch.skipTo, hopen])
    rw [unit, stitch] at ctx
    rw [unit, State.skipped_decS hc] at dec
    rw [State.releaseRun_of_none 512 (by rw [ctx]; rfl)] at run
    refine ⟨_, run, ?_⟩
    rw [ctx, dec, irc]
    exact ⟨rfl, rfl, List.append_assoc .., State.skipped_latch hc missing⟩
  case path =>
    intro s c b hdual hup hlate
    have log {P : State → Prop} (u : Keeps [.log] P) (k : P ((s.modStitch c (Stitch.pathDown b)).latch 189)) :
        P (((s.modStitch c (Stitch.pathDown b)).latch 189).limited .stitchPath (2 * c + b.toNat) ms
          (State.raiseCtx c .stitchPath [i16 b.toNat, i16 1])) := State.limited_raiseCtx_keeps _ u k
    have run := log (keeps_run (by decide)) rfl
    refine ⟨_, exec_stitchPath_of_silent hdual hup hlate, ?_, ?_, fun d hd => ?_, log (keeps_dec (by decide)) rfl⟩
    · exact (State.stitch_congr (congrArg Run.stitch run) c).trans (State.modStitch_same _ _)
    · rw [log (keeps_irc (by decide)) rfl]
      exact State.latch_mem _ 189
    · exact (State.stitch_congr (congrArg Run.stitch run) d).trans (State.modStitch_other _ hd)

end Sys2Proof.Machine
end

section
/-! PROOF. Pauses, egress, statistics and links of the Ethernet ports, and the QUENCH_N pin (R249, R262 to R270). -/

namespace Sys2Proof

/-- An update of each of the first `n` entries of a table. -/
theorem Tbl.look_foldl_upd {α : Type} [DecidableEq α] (t : Tbl α) (d : α) (g : α → α) (n i : Nat) :
    ((List.range n).foldl (fun t j => t.upd d j g) t).look d i = if i < n then g (t.look d i) else t.look d i := by
  induction n with
  | zero => rfl
  | succ n ih =>
    rw [List.range_succ, List.foldl_append, List.foldl_cons, List.foldl_nil]
    rcases Nat.lt_trichotomy i n with h | h | h
    · rw [Tbl.look_upd_other _ _ _ (by omega), ih, if_pos h, if_pos (by omega)]
    · subst h
      rw [Tbl.look_upd_same, ih, if_neg (by omega), if_pos (by omega)]
    · rw [Tbl.look_upd_other _ _ _ (by omega), ih, if_neg (by omega), if_neg (by omega)]

end Sys2Proof

namespace Sys2Proof.Machine

variable {s : State} {p c q f : Nat} {k : Pkt} {r : List Pkt} {x : Flow}

/-! The commands of the ports. -/

section
variable (s)

theorem exec_pauseReceived (p : Nat) (f : PauseFrame) : exec (.pauseReceived p f) s = execPauseReceived p f s := rfl
theorem exec_pauseTimerExpiry (p c : Nat) : exec (.pauseTimerExpiry p c) s = execPauseTimerExpiry p c s := rfl
theorem exec_portStalled (p c : Nat) : exec (.portStalled p c) s = execPortStalled p c s := rfl
theorem exec_portStallCleared (p c : Nat) : exec (.portStallCleared p c) s = execPortStallCleared p c s := rfl
theorem exec_pfcRefresh (p : Nat) : exec (.pfcRefresh p) s = execPfcRefresh p s := rfl
theorem exec_egressSelect (p : Nat) : exec (.egressSelect p) s = execEgressSelect p s := rfl
theorem exec_statsInterval : exec .statsInterval s = execStatsInterval s := rfl
theorem exec_ethLinkChange (p : Nat) (up : Bool) : exec (.ethLinkChange p up) s = execEthLinkChange p up s := rfl
theorem exec_quenchPin (low : Bool) : exec (.quenchPin low) s = execQuenchPin low s := rfl

end

/-! Sets of classes (R269). -/

theorem bitOf_getLsbD (c : Nat) {d : Nat} (hd : d < 8) : (bitOf c).getLsbD d = decide (c = d) := by
  rw [bitOf, BitVec.getLsbD_shiftLeft, BitVec.getLsbD_one, Bool.eq_iff_iff]
  simp only [Bool.and_eq_true, Bool.not_eq_true', decide_eq_true_eq, decide_eq_false_iff_not]
  omega

/-- A class joins the set. -/
theorem or_bitOf_same (b : BitVec 8) (hc : c < 8) : (b ||| bitOf c).getLsbD c = true := by
  rw [BitVec.getLsbD_or, bitOf_getLsbD c hc, decide_eq_true rfl, Bool.or_true]

theorem and_not_bitOf_same (b : BitVec 8) (hc : c < 8) : (b &&& ~~~bitOf c).getLsbD c = false := by
  rw [BitVec.getLsbD_and, BitVec.getLsbD_not, bitOf_getLsbD c hc]
  simp

theorem and_not_bitOf_other (b : BitVec 8) {d : Nat} (hd : d < 8) (h : c ≠ d) : (b &&& ~~~bitOf c).getLsbD d = b.getLsbD d := by
  rw [BitVec.getLsbD_and, BitVec.getLsbD_not, bitOf_getLsbD c hd, decide_eq_false h, decide_eq_true hd]
  simp

/-! Pauses (R267). -/

theorem State.counted_other (n : Nat) {j : Nat} (h : p ≠ j) : (s.counted p n).eth j = s.eth j := by
  rw [State.counted, State.portCount_other _ _ _ h, State.portCount_other _ _ _ h]

/-- The class is paused until `e`. -/
def EthPort.PausedTill (c e : Nat) (x : EthPort) : Prop := x.paused.getLsbD c = true ∧ Tbl.look x.pauseEnd 0 c = e

/-- Quanta that are not 0 pause their class (R267). -/
theorem EthPort.pause_same (x : EthPort) (now : Nat) (hc : c < 8) (hq : q ≠ 0) :
    (x.pause now c q).PausedTill c (now + q * 512 / 100) := by
  rw [EthPort.pause, if_neg hq]
  exact ⟨or_bitOf_same _ hc, Tbl.look_put_same _ _ _ _⟩

/-- The same quanta for another class leave it paused as long. -/
theorem EthPort.pause_keeps {x : EthPort} {now : Nat} (d : Nat) (hq : q ≠ 0) (h : x.PausedTill c (now + q * 512 / 100)) :
    (x.pause now d q).PausedTill c (now + q * 512 / 100) := by
  obtain ⟨on, till⟩ := h
  rw [EthPort.pause, if_neg hq]
  refine ⟨by simp [on], ?_⟩
  by_cases e : d = c
  · rw [e]
    exact Tbl.look_put_same _ _ _ _
  · exact (Tbl.look_put_other _ _ _ e).trans till

/-- Updates of one port, one after the other. -/
theorem State.each_modEth_same {α : Type} (xs : List α) (g : α → EthPort → EthPort) :
    (s.each xs (fun y => State.modEth p (g y))).eth p = xs.foldl (fun e y => g y e) (s.eth p) := by
  induction xs generalizing s with
  | nil => rfl
  | cons y ys ih =>
    rw [List.foldl_cons, ← State.modEth_same s p (g y)]
    exact ih

theorem State.each_modEth_other {α : Type} (xs : List α) (g : α → EthPort → EthPort) {j : Nat} (h : p ≠ j) :
    (s.each xs (fun y => State.modEth p (g y))).eth j = s.eth j :=
  State.each_keeps (P := fun t => t.eth j = s.eth j) (fun _ _ k => (State.modEth_other _ _ h).trans k) rfl

/-- A PAUSE frame's quanta, class by class, pause each class (R267). -/
theorem EthPort.pauseAll_of_lt (x : EthPort) (now : Nat) (hc : c < 8) (hq : q ≠ 0) :
    ((List.range 8).foldl (fun e d => EthPort.pause now d q e) x).PausedTill c (now + q * 512 / 100) := by
  obtain ⟨before, after, split⟩ := List.append_of_mem (List.mem_range.mpr hc)
  rw [split, List.foldl_append, List.foldl_cons]
  exact List.foldlRecOn (motive := EthPort.PausedTill c (now + q * 512 / 100)) _ _ (EthPort.pause_same _ _ hc hq)
    fun _ h d _ => EthPort.pause_keeps d hq h

section
variable (hup : s.portUp p = true)
include hup

theorem exec_pauseReceived_of_pfc (hmode : (s.eth p).pauseMode = 2) (hc : c < 8) :
    exec (.pauseReceived p (.pfc [(c, q)])) s = .next ((s.counted p 64).modEth p (EthPort.pause s.now c q)) := by
  rw [exec_pauseReceived, execPauseReceived, if_neg (by simp [hup])]
  simp only [State.portCount_pauseMode, hmode]
  have named : [(c, q)].filter (fun x => decide (x.1 < 8)) = [(c, q)] := by simp [hc]
  show ok ((s.counted p 64).each ([(c, q)].filter (fun x => decide (x.1 < 8))) (fun x => State.modEth p (EthPort.pause s.now x.1 x.2))) = _
  rw [named]
  rfl

theorem exec_pauseReceived_of_pause (hmode : (s.eth p).pauseMode = 1) : exec (.pauseReceived p (.pause q)) s =
    .next ((s.counted p 64).each (List.range 8) (fun c => State.modEth p (EthPort.pause s.now c q))) := by
  rw [exec_pauseReceived, execPauseReceived, if_neg (by simp [hup])]
  simp only [State.portCount_pauseMode, hmode]
  rfl

theorem exec_pauseReceived_of_off (hmode : (s.eth p).pauseMode = 0) (f : PauseFrame) :
    exec (.pauseReceived p f) s = .next ((s.counted p 64).portCount p 9 1) := by
  rw [exec_pauseReceived, execPauseReceived, if_neg (by simp [hup])]
  simp only [State.portCount_pauseMode, hmode]
  rfl

end

theorem exec_pauseTimerExpiry_of_due (hon : (s.eth p).paused.getLsbD c = true) (hdue : Tbl.look (s.eth p).pauseEnd 0 c ≤ s.now) :
    exec (.pauseTimerExpiry p c) s = .next (s.modEth p (EthPort.pause s.now c 0)) := by
  rw [exec_pauseTimerExpiry, execPauseTimerExpiry, if_pos (by simp [hon, hdue])]

/-- Quanta of 0 resume the class (R267). -/
theorem EthPort.pause_zero_paused (x : EthPort) (now c : Nat) : (x.pause now c 0).paused = x.paused &&& ~~~bitOf c := rfl

/-! Stalls (R268). -/

/-- A port one of whose classes is STALLED, or no longer. -/
def EthPort.setStalled (f : BitVec 8 → BitVec 8) (e : EthPort) : EthPort := { e with stalled := f e.stalled }

/-- A change of STALLED latches the port's source. -/
def State.stallPort (p : Nat) (f : BitVec 8 → BitVec 8) (s : State) : State := (s.modEth p (EthPort.setStalled f)).latch (185 + p)

theorem exec_portStalled_of_late (hon : (s.eth p).paused.getLsbD c = true) (hst : (s.eth p).stalled.getLsbD c = false)
    (hlate : Tbl.look (s.eth p).pauseFrom 0 c + s.run.pauseStorm * ms < s.now) : exec (.portStalled p c) s =
      .next ((s.stallPort p (· ||| bitOf c)).limited .portStalled (8 * p + c) ms (State.raise .portStalled [i16 p, i16 c])) := by
  rw [exec_portStalled, execPortStalled, if_pos (by simp [hon, hst, hlate])]
  rfl

theorem exec_portStallCleared_of_late (hst : (s.eth p).stalled.getLsbD c = true) (hoff : (s.eth p).paused.getLsbD c = false)
    (hlate : Tbl.look (s.eth p).freeFrom 0 c + sec ≤ s.now) : exec (.portStallCleared p c) s =
      .next ((s.stallPort p (· &&& ~~~bitOf c)).limited .portStallCleared (8 * p + c) ms
        (State.raise .portStallCleared [i16 p, i16 c])) := by
  rw [exec_portStallCleared, execPortStallCleared, if_pos (by simp [hst, hoff, hlate])]
  rfl

/-- An event about a stall leaves the port and its source. -/
theorem State.stallPort_limited (g : BitVec 8 → BitVec 8) (id : EventId) (src ns : Nat) (items : List Item) :
    ((s.stallPort p g).limited id src ns (State.raise id items)).eth p = (s.eth p).setStalled g ∧
      185 + p ∈ ((s.stallPort p g).limited id src ns (State.raise id items)).irc.latch := by
  obtain ⟨-, log⟩ := State.limited_raise_frame (s.stallPort p g) id id src ns items
  refine ⟨(State.eth_congr (log .run (by decide)) p).trans (State.modEth_same s p _), ?_⟩
  rw [show _ = _ from log .irc (by decide)]
  exact State.latch_mem _ _

/-! PFC frames (R262). -/

theorem exec_pfcRefresh_of_due (hsent : (s.eth p).pfcSent = true) (hdue : (s.eth p).pfcAt + 100000 ≤ s.now) : exec (.pfcRefresh p) s =
    .next ((s.modEth p (fun e => { e with pfcAt := s.now })).modRun (fun r => { r with pfcOut := r.pfcOut ++ [(p, 65535)] })) := by
  rw [exec_pfcRefresh, execPfcRefresh, if_pos ⟨hsent, hdue⟩]

theorem exec_pfcRefresh_of_early (h : (s.eth p).pfcSent = false ∨ s.now < (s.eth p).pfcAt + 100000) :
    exec (.pfcRefresh p) s = .next s := by
  rw [exec_pfcRefresh, execPfcRefresh, if_neg (by rintro ⟨hsent, hdue⟩; rcases h with h | h <;> [simp [h] at hsent; omega])]

/-! Egress (R263 to R265). -/

/-- What refills a flow's bucket changes the bucket alone (R265). -/
theorem Flow.accrue_eq (now : Nat) (x : Flow) : ∃ b n a, x.accrue now = { x with bkt := b, frac := n, bktAt := a } := by
  unfold Flow.accrue
  dsimp only
  split
  · exact ⟨_, _, _, rfl⟩
  · split <;> exact ⟨_, _, _, rfl⟩

/-- The one flow queue in the table, once it is written as one that is not as at reset. -/
theorem State.modFlow_of_single {g : Flow → Flow} (hflows : s.run.flows = [(f, x)]) (hg : (g x).enable = true) :
    (s.modFlow f g).run.flows = [(f, g x)] := by
  have set : g x ≠ Flow.reset := fun e => by simp [e, Flow.reset] at hg
  simp [State.modFlow, hflows, Tbl.upd, Tbl.look, Tbl.put, set, Tbl.drop, Tbl.insertAt]

theorem State.flow_of_single (hflows : s.run.flows = [(f, x)]) : s.flow f = x := by
  simp [State.flow, hflows, Tbl.look]

/-- No packet of a flow queue has aged whose head has not. -/
theorem State.ageFlow_of_young (n : Nat) (hq : (s.flow f).queue = k :: r) (hage : s.aged k = false) : s.ageFlow n f = s := by
  cases n with
  | zero => rfl
  | succ n => simp only [State.ageFlow, hq, hage, Bool.false_eq_true, if_false]

/-- A port serves the one eligible queue. -/
theorem State.chooseFlow_of_single (hflows : s.run.flows = [(f, x)]) (hq : x.queue = k :: r) (hen : x.enable = true)
    (hport : x.port.toNat = p) (hon : (s.eth p).paused.getLsbD x.tc.toNat = false) (hdep : x.mayDepart = true) :
    s.chooseFlow p = some (f, x, k) := by
  have one : s.eligible p = [(f, x, k)] := by
    simp only [State.eligible, hflows, List.filterMap_cons, hq, hen, hport, hon, hdep, beq_self_eq_true, Bool.not_false, Bool.and_true,
      if_true, List.filterMap_nil]
  rw [State.chooseFlow, one]
  rfl

theorem exec_egressSelect_of_empty (hup : s.portUp p = true) (hflows : s.run.flows = []) : exec (.egressSelect p) s = .next s := by
  rw [exec_egressSelect, execEgressSelect, if_neg (by simp [hup])]
  simp [hflows, State.each, State.chooseFlow, State.eligible]

@[simp] theorem State.modFlow_eth (g : Flow → Flow) (j : Nat) : (s.modFlow f g).eth j = s.eth j := rfl

/-- A port with one flow queue, whose head has not aged and which may depart, sends that head. -/
theorem exec_egressSelect_of_single (hup : s.portUp p = true) (hflows : s.run.flows = [(f, x)]) (hq : x.queue = k :: r)
    (hen : x.enable = true) (hport : x.port.toNat = p) (hon : (s.eth p).paused.getLsbD x.tc.toNat = false)
    (hbkt : 0 ≤ (x.accrue s.now).bkt) (hrate : x.rate ≠ 0) (hage : s.aged k = false) :
    exec (.egressSelect p) s = .next ((s.modFlow f (Flow.accrue s.now)).sendHead p f (x.accrue s.now) k) := by
  obtain ⟨b, n, a, accrued⟩ := Flow.accrue_eq s.now x
  have mine : (s.run.flows.filter (fun x => x.2.port.toNat == p)).map (·.1) = [f] := by simp [hflows, hport]
  have flows := State.modFlow_of_single (g := Flow.accrue s.now) hflows (by rw [accrued, hen])
  have queue : ((s.modFlow f (Flow.accrue s.now)).flow f).queue = k :: r := by rw [State.flow_of_single flows, accrued, hq]
  have young := State.ageFlow_of_young (s.flow f).queue.length queue ((State.aged_congr rfl rfl k).trans hage)
  have departs : (x.accrue s.now).mayDepart = true := by
    rw [Flow.mayDepart, decide_eq_true hbkt, Bool.true_and, accrued]
    exact bne_iff_ne.mpr hrate
  have chosen := State.chooseFlow_of_single (p := p) flows (by rw [accrued, hq]) (by rw [accrued, hen]) (by rw [accrued, hport])
    (by rw [State.modFlow_eth, accrued, hon]) departs
  rw [exec_egressSelect, execEgressSelect, if_neg (by simp [hup])]
  simp only [mine, State.each, List.foldl_cons, List.foldl_nil, young, chosen]

/-- A class below TC6 sets its port's virtual time (R264). -/
def State.tagged (p : Nat) (x : Flow) (k : Pkt) (s : State) : State :=
  if x.tc.toNat < 6 then s.modEth p (fun e => { e with vtime := k.tag }) else s

/-- Flow queue `f` of port `p` has sent its head `k`, whose buffer is not yet freed (R264, R265). -/
def State.depart (p f : Nat) (x : Flow) (k : Pkt) (s : State) : State :=
  let t := ((((s.modFlow f (fun y => { y with queue := y.queue.tail, bkt := y.bkt - ((k.len * 1024 : Nat) : Int) })).tagged p x k).statOut
    (1152 + f) k).portCount p 3 1)
  let u := t.modEth p (fun e => { e with txAt := t.time48 })
  u.modRun (fun r => { r with sent := r.sent ++ [{ k with ptp := u.time48 }] })

theorem State.sendHead_of_good (hptr : s.pointerBad k = none) : s.sendHead p f x k = (s.depart p f x k).freePkt k := by
  rw [State.sendHead, if_neg (by simp [hptr])]
  rfl

section
variable (p x k)

@[simp] theorem State.tagged_flows : (s.tagged p x k).run.flows = s.run.flows := ite_keeps (P := fun t => t.run.flows = s.run.flows) rfl rfl
@[simp] theorem State.tagged_sent : (s.tagged p x k).run.sent = s.run.sent := ite_keeps (P := fun t => t.run.sent = s.run.sent) rfl rfl
@[simp] theorem State.tagged_pools : (s.tagged p x k).run.pools = s.run.pools := ite_keeps (P := fun t => t.run.pools = s.run.pools) rfl rfl
@[simp] theorem State.tagged_ptp : (s.tagged p x k).ptp = s.ptp := ite_keeps (P := fun t => t.ptp = s.ptp) rfl rfl

end

theorem State.depart_flow : (s.depart p f x k).flow f =
    { s.flow f with queue := (s.flow f).queue.tail, bkt := (s.flow f).bkt - ((k.len * 1024 : Nat) : Int) } := by
  simp [State.depart, State.flow, State.modEth, State.portCount, State.statOut, State.modStat, State.modFlow]

theorem State.depart_pools : (s.depart p f x k).run.pools = s.run.pools := by
  simp [State.depart, State.modEth, State.portCount, State.statOut, State.modStat, State.modFlow]

theorem State.depart_sent : (s.depart p f x k).run.sent = s.run.sent ++ [{ k with ptp := s.time48 }] := by
  simp [State.depart, State.time48, State.modEth, State.portCount, State.statOut, State.modStat, State.modFlow]

theorem State.depart_txAt : ((s.depart p f x k).eth p).txAt = s.time48 := by
  simp [State.depart, State.eth, State.time48, State.modEth, State.portCount, State.statOut, State.modStat, State.modFlow]

theorem State.depart_vtime (htc : x.tc.toNat < 6) : ((s.depart p f x k).eth p).vtime = k.tag := by
  simp [State.depart, State.tagged, htc, State.eth, State.modEth, State.portCount, State.statOut, State.modStat, State.modFlow]

/-- What the sending of a head leaves of its queue, of the frames sent and of its port; its buffer is freed apart from these. -/
theorem State.sendHead_leaves (hptr : s.pointerBad k = none) :
    (s.sendHead p f x k).flow f =
        { s.flow f with queue := (s.flow f).queue.tail, bkt := (s.flow f).bkt - ((k.len * 1024 : Nat) : Int) } ∧
      (s.sendHead p f x k).run.sent = s.run.sent ++ [{ k with ptp := s.time48 }] ∧
      ((s.sendHead p f x k).eth p).txAt = s.time48 ∧ (x.tc.toNat < 6 → ((s.sendHead p f x k).eth p).vtime = k.tag) := by
  have good : (s.depart p f x k).pointerBad k = none := (State.pointerBad_congr State.depart_pools k).trans hptr
  have freed := State.freePkt_traffic good
  obtain ⟨txAt, vtime⟩ := State.port_of_traffic freed p
  rw [State.sendHead_of_good hptr, State.flow_of_traffic freed, State.sent_of_traffic freed, txAt, vtime]
  exact ⟨State.depart_flow, State.depart_sent, State.depart_txAt, State.depart_vtime⟩

/-! Statistics (R270). -/

/-- The maxima of the first `n` queues are latched, as background work (R306). -/
def State.latchStats (n : Nat) (s : State) : State :=
  (s.modRun (fun r => { r with stats := (List.range n).foldl (fun t q => t.upd QStat.reset q QStat.latch) r.stats })).served workStats

theorem State.latchStats_look {n : Nat} (h : q < n) :
    (s.latchStats n).run.stats.look QStat.reset q = (s.run.stats.look QStat.reset q).latch :=
  (Tbl.look_foldl_upd s.run.stats QStat.reset QStat.latch n q).trans (if_pos h)

theorem State.latchStats_voqs (n : Nat) : (s.latchStats n).run.voqs = s.run.voqs := rfl

theorem exec_statsInterval_of_running (hrun : s.running = true) : exec .statsInterval s = .next (s.latchStats 2176) := by
  rw [exec_statsInterval, execStatsInterval, if_pos hrun, State.latchStats]

/-! Links and the pin (R249, R269). -/

theorem exec_ethLinkChange_of_change {up : Bool} (hlink : (s.eth p).link ≠ up) (hin : (s.eth p).fenced = false) :
    exec (.ethLinkChange p up) s = .next ((s.modEth p (fun e => { e with link := up })).latch (185 + p)) := by
  rw [exec_ethLinkChange, execEthLinkChange, if_neg (by simp [hlink, hin])]

theorem exec_quenchPin_of_same : exec (.quenchPin s.run.quenchPin) s = .next s := by
  rw [exec_quenchPin, execQuenchPin, if_pos rfl]

/-- Beside the pin its change is of the log alone. -/
theorem exec_quenchPin_of_change {low : Bool} (hpin : s.run.quenchPin ≠ low) :
    ∃ t, exec (.quenchPin low) s = .next t ∧ t.run = { s.run with quenchPin := low } := by
  refine ⟨_, rfl, ?_⟩
  rw [if_neg hpin]
  exact State.each_keeps (P := fun t => t.run = { s.run with quenchPin := low }) (fun _ t h =>
    (State.limited_keeps (keeps_run (s := t) (by decide)) (fun _ k => State.raiseP_keeps (keeps_run (by decide)) k) rfl).trans h) rfl

/-- Settles O36: each command of the ports by the branch that its hypotheses choose, and what that branch leaves of the port, of its
classes, of the flow queue and of the latches. -/
theorem runnerEgress : Obligations.RunnerEgress := by
  unfold Obligations.RunnerEgress
  refine ⟨fun s p c q => exec_pauseReceived_of_pfc, ?pause, fun s p f hup hmode => exec_pauseReceived_of_off hup hmode f, ?expiry,
    ?stalled, ?cleared, fun s p => exec_pfcRefresh_of_due, fun s p => exec_pfcRefresh_of_early, ?egress, fun s p => exec_egressSelect_of_empty,
    ?stats, ?link, fun s low => exec_quenchPin_of_change, fun s => exec_quenchPin_of_same⟩
  case pause =>
    intro s p c q hup hmode hc hq
    obtain ⟨on, till⟩ := EthPort.pauseAll_of_lt ((s.counted p 64).eth p) s.now hc hq
    refine ⟨_, exec_pauseReceived_of_pause hup hmode, ?_⟩
    rw [State.each_modEth_same]
    exact ⟨on, till, fun j hj => (State.each_modEth_other _ _ hj).trans (State.counted_other _ hj)⟩
  case expiry =>
    intro s p c hc hon hdue
    refine ⟨_, exec_pauseTimerExpiry_of_due hon hdue, ?_⟩
    rw [State.modEth_same, EthPort.pause_zero_paused]
    exact ⟨and_not_bitOf_same _ hc, fun d hd h => and_not_bitOf_other _ hd h⟩
  case stalled =>
    intro s p c hc hon hst hlate
    obtain ⟨port, latched⟩ := State.stallPort_limited (s := s) (p := p) (· ||| bitOf c) .portStalled (8 * p + c) ms [i16 p, i16 c]
    refine ⟨_, exec_portStalled_of_late hon hst hlate, ?_⟩
    rw [port]
    exact ⟨rfl, latched, rfl⟩
  case cleared =>
    intro s p c hc hst hoff hlate
    obtain ⟨port, latched⟩ := State.stallPort_limited (s := s) (p := p) (· &&& ~~~bitOf c) .portStallCleared (8 * p + c) ms
      [i16 p, i16 c]
    refine ⟨_, exec_portStallCleared_of_late hst hoff hlate, ?_⟩
    rw [port]
    exact ⟨rfl, latched⟩
  case egress =>
    intro s p f x k r hup hflows hq hen hport hon hbkt hrate hage hptr
    obtain ⟨b, n, a, accrued⟩ := Flow.accrue_eq s.now x
    have good : (s.modFlow f (Flow.accrue s.now)).pointerBad k = none := (State.pointerBad_congr rfl k).trans hptr
    obtain ⟨flow, sent, txAt, vtime⟩ := State.sendHead_leaves (p := p) (f := f) (x := x.accrue s.now) good
    have before : (s.modFlow f (Flow.accrue s.now)).flow f = x.accrue s.now := by
      rw [State.modFlow_same, State.flow_of_single hflows]
    rw [before] at flow
    refine ⟨_, exec_egressSelect_of_single hup hflows hq hen hport hon hbkt hrate hage, ?_⟩
    rw [flow]
    refine ⟨by rw [accrued, hq]; rfl, rfl, by rw [accrued, hen], sent, txAt, fun htc => vtime (by rwa [accrued])⟩
  case stats =>
    intro s q hrun hq
    exact ⟨_, exec_statsInterval_of_running hrun, State.latchStats_look hq, State.latchStats_voqs _⟩
  case link =>
    intro s p up hlink hin
    refine ⟨_, exec_ethLinkChange_of_change hlink hin, ?_, State.latch_mem _ _, fun q hq => ?_⟩
    · rw [State.latch_eth, State.modEth_same]
    · rw [State.latch_eth, State.modEth_other _ _ hq]

end Sys2Proof.Machine
end

section
/-! PROOF. The slots and queues of the host (R275, R278): what each update leaves to be read, and what the command of a slot does when it
begins (R279). -/

namespace Sys2Proof.Machine

variable {s t : State} {n m q : Nat} {x : Slot} {c : HostCmd}

/-! Reads (R278, R296). -/

theorem State.slot_congr (h : t.hq.slots = s.hq.slots) (m : Nat) : t.slot m = s.slot m := by
  rw [State.slot, State.slot, h]

theorem State.hqQ_congr (h : t.hq.queues = s.hq.queues) (r : Nat) : t.hqQ r = s.hqQ r := by
  rw [State.hqQ, State.hqQ, h]

/-- The slot that is updated, and each other one. -/
theorem State.modSlot_slot (s : State) (n m : Nat) (f : Slot → Slot) :
    (s.modSlot n f).slot m = if m = n then (s.slot m).map f else s.slot m := by
  have key : ((fun p : Nat × Slot => p.1 == m) ∘ fun p => if p.1 = n then (p.1, f p.2) else p) = fun p => p.1 == m :=
    funext fun p => by by_cases hp : p.1 = n <;> simp [hp]
  simp only [State.slot, State.modSlot, State.modHq_hq, List.find?_map, key]
  cases found : s.hq.slots.find? (fun p => p.1 == m) with
  | none => simp
  | some p =>
    obtain rfl : p.1 = m := by simpa using List.find?_some found
    by_cases hp : p.1 = n <;> simp [hp]

theorem State.modSlot_same (hx : s.slot n = some x) (f : Slot → Slot) : (s.modSlot n f).slot n = some (f x) := by
  rw [State.modSlot_slot, if_pos rfl, hx, Option.map_some]

/-- A command that completes has its status and its result in its slot (R281). -/
theorem State.finish_completed (hx : s.slot n = some x) (st : Status) (r : Word) : (s.finish n st r).completed n x st r :=
  State.modSlot_same hx _

/-- What was done before, with the slots left as they are, does not matter. -/
theorem State.finish_completed_of_slots (hx : s.slot n = some x) (h : t.hq.slots = s.hq.slots) (st : Status) (r : Word) :
    (t.finish n st r).completed n x st r :=
  State.finish_completed ((State.slot_congr h n).trans hx) st r

theorem State.dropSlot_same (s : State) (n : Nat) : (s.dropSlot n).slot n = none := by
  simp [State.slot, State.dropSlot, List.find?_filter]

theorem State.dropSlot_other (s : State) (h : n ≠ m) : (s.dropSlot n).slot m = s.slot m := by
  have key : (fun p : Nat × Slot => decide ((p.1 != n) = true ∧ (p.1 == m) = true)) = fun p => p.1 == m :=
    funext fun p => by by_cases hp : p.1 = m <;> simp [hp, Ne.symm h]
  simp only [State.slot, State.dropSlot, State.modHq_hq, List.find?_filter, key]

theorem State.takeEntry_isSome (s : State) (n : Nat) (p : CmdPath) (head : Nat) (ws : List Word) :
    ((s.takeEntry n p head ws).slot n).isSome = true := by
  simp [State.slot, State.takeEntry]

theorem State.freeSlot_eq_some {a k : Nat} (h : s.freeSlot a k = some n) : n < a + k ∧ s.slot n = none := by
  obtain ⟨i, hi, rfl⟩ := List.mem_map.mp (List.mem_of_find?_eq_some h)
  exact ⟨Nat.add_lt_add_left (List.mem_range.mp hi) a, by simpa using List.find?_some h⟩

@[simp] theorem State.finish_hqQ (s : State) (n : Nat) (st : Status) (r : Word) (q : Nat) : (s.finish n st r).hqQ q = s.hqQ q := rfl
@[simp] theorem State.finish_trans (s : State) (n : Nat) (st : Status) (r : Word) (k : Nat) : (s.finish n st r).trans k = s.trans k := rfl
@[simp] theorem State.finish_encS (s : State) (n : Nat) (st : Status) (r : Word) (i : Nat) : (s.finish n st r).encS i = s.encS i := rfl
@[simp] theorem State.finish_outP (s : State) (n : Nat) (st : Status) (r : Word) (k : Nat) : (s.finish n st r).outP k = s.outP k := rfl

/-! An operation for each of a list. -/

/-- What the operation brings about for one element, and keeps for each, holds behind the list. -/
theorem State.each_of_mem {α : Type} {P : State → Prop} {xs : List α} {f : α → State → State} {a : α} (ha : a ∈ xs) (sets : ∀ t, P (f a t))
    (keeps : ∀ b t, P t → P (f b t)) : P (s.each xs f) := by
  obtain ⟨before, after, rfl⟩ := List.append_of_mem ha
  rw [State.each, List.foldl_append, List.foldl_cons]
  exact State.each_keeps keeps (sets _)

theorem State.each_of_fixed {α : Type} {xs : List α} {f : α → State → State} (h : ∀ a ∈ xs, f a s = s) : s.each xs f = s :=
  List.foldlRecOn (motive := fun t => t = s) xs _ rfl fun _ ht a ha => ht ▸ h a ha

/-! The start of a command (R279, R426). -/

/-- The mirroring of a command is of the Girth link alone. -/
theorem State.mirrorCmd_eq (s : State) (x : Slot) (c : HostCmd) : ∃ f, s.mirrorCmd x c = s.modGrt f := by
  rw [State.mirrorCmd, State.gPut]
  split
  · split
    · exact ⟨_, rfl⟩
    · exact ⟨id, rfl⟩
  · exact ⟨id, rfl⟩

theorem State.mirrorCmd_of_not_mirrored (h : c.mirrored = false) : s.mirrorCmd x c = s := by
  rw [State.mirrorCmd, if_neg (by simp [h])]

/-- A command that its opener's transaction buffers is not mirrored. -/
theorem State.mirrorCmd_of_buffered (hc : c.buffered = true) (ho : (s.openOf (s.ctxOf x.path).opener).isSome = true) :
    s.mirrorCmd x c = s := by
  rw [State.mirrorCmd, if_neg (by simp [hc, ho])]

/-- A command's outcome is that of its slot: it completes, or stays in execution. -/
def Res.settle (n : Nat) : Res → State
  | (t, some (st, r)) => t.finish n st r
  | (t, none) => t

@[simp] theorem Res.settle_say (st : Status) (r : Word) : Res.settle n (s.say st r) = s.finish n st r := rfl

/-- A command of a slot begins as `f` says, after it has been mirrored. -/
theorem State.onSlot_of_starts {f : HostCmd → Option (Ctx → State → Res)} {y : Res} (h : s.starts n x c)
    (hf : (f c).map (fun g => g (s.ctxOf x.path) (s.mirrorCmd x c)) = some y) : s.onSlot n f = Res.settle n y := by
  obtain ⟨hx, hc, hb, hg⟩ := h
  obtain ⟨g, hg', rfl⟩ := Option.map_eq_some_iff.mp hf
  simp only [State.onSlot, hx, hc, hg', hb, hg, Bool.not_true, Bool.false_eq_true, if_false]
  rcases g (s.ctxOf x.path) (s.mirrorCmd x c) with ⟨t, _ | ⟨st, r⟩⟩ <;> rfl

/-- A command that the lead does not mirror. -/
theorem State.onSlot_of_starts_unmirrored {f : HostCmd → Option (Ctx → State → Res)} {y : Res} (h : s.starts n x c)
    (hm : c.mirrored = false) (hf : (f c).map (fun g => g (s.ctxOf x.path) s) = some y) : s.onSlot n f = Res.settle n y :=
  State.onSlot_of_starts h (by rwa [State.mirrorCmd_of_not_mirrored hm])

/-- A command that the mode turns away completes with the mode's status (R287, R340, R367). -/
theorem State.onSlot_of_gate {f : HostCmd → Option (Ctx → State → Res)} {g : Ctx → State → Res} {st : Status} (hx : s.slot n = some x)
    (hc : x.cmd = some c) (hb : s.begins x c = true) (hg : s.gate c x.path = some st) (hf : f c = some g) :
    s.onSlot n f = s.finish n st 0 := by
  simp only [State.onSlot, hx, hc, hf, hb, hg, Bool.not_true, Bool.false_eq_true, if_false]

/-! Bytes to host memory (R282). -/

theorem State.sendOut_of_bytes {out : List (Nat × List Byte)} {k : Nat} (hk : (out.map (fun o => o.2.length)).sum = k) (h : k ≠ 0) (r : Word) :
    s.sendOut n r out = ((s.modSlot n (fun x => { x with phase := .waiting, result := r, out := out, started := s.now })).modHq
      (fun h => { h with dmas := h.dmas ++ [(n, k)] }), none) := by
  subst hk
  rw [State.sendOut, if_neg h]

theorem length_leBytes (k v : Nat) : (leBytes k v).length = k := by
  induction k generalizing v with
  | zero => rfl
  | succ k ih => rw [leBytes, List.length_cons, ih]

theorem length_wordBytes (ws : List Word) : (wordBytes ws).length = 4 * ws.length := by
  simp [wordBytes, List.length_flatMap, length_leBytes, Nat.mul_comm]

end Sys2Proof.Machine
end

section
/-! PROOF. The queue engine: fetches, doorbells, polls and completion entries (R273, R277, R278, R281). -/

namespace Sys2Proof.Machine

variable {s : State} {n q : Nat} {x : Slot} {v : Word}

section
variable (s)

theorem exec_commandFetch (q : Nat) (ws : List Word) : exec (.commandFetch q ws) s = execCommandFetch q ws s := rfl
theorem exec_hqDoorbell (fn q : Nat) (cq : Bool) (v : Word) : exec (.hqDoorbell fn q cq v) s = execHqDoorbell fn q cq v s := rfl
theorem exec_queuePoll (q : Nat) (v : BitVec 64) : exec (.queuePoll q v) s = execQueuePoll q v s := rfl
theorem exec_commandComplete (n : Nat) : exec (.commandComplete n) s = execCommandComplete n s := rfl

end

/-! Fetches (R278). -/

/-- The admin queue has strict priority: its entry takes the slot that is free. -/
theorem exec_commandFetch_admin (h : s.mayFetch 0 = true) (hn : s.slotFor 0 = some n) (ws : List Word) : ∃ f : HqQueue → HqQueue,
    exec (.commandFetch 0 ws) s =
      .next ((s.modHqQ 0 f).takeEntry n (.queue 0) (((s.hqQ 0).sqHead + 1) % (s.hqQ 0).sqSize) ws) ∧
    ∀ y, (f y).sqHead = ((s.hqQ 0).sqHead + 1) % (s.hqQ 0).sqSize ∧ (f y).inExec = y.inExec + 1 := by
  rw [exec_commandFetch, execCommandFetch, if_neg (by simp [h]), hn]
  exact ⟨_, rfl, fun _ => ⟨rfl, rfl⟩⟩

theorem exec_commandFetch_of_not_mayFetch (h : s.mayFetch q = false) (ws : List Word) : exec (.commandFetch q ws) s = .next s := by
  rw [exec_commandFetch, execCommandFetch, if_pos (by simp [h])]

/-- A queue that may fetch has a slot to take. -/
theorem State.slotFor_of_mayFetch (h : s.mayFetch q = true) : ∃ n, s.slotFor q = some n := by
  simp only [State.mayFetch, Bool.and_eq_true] at h
  exact Option.isSome_iff_exists.mp h.2

/-! Doorbells (R273, R277). -/

/-- The doorbell registers of a queue take the value as it is written. -/
def State.rung (q : Nat) (cq : Bool) (v : Word) (s : State) : State :=
  (s.wakeBy true).modHqQ q (fun x => if cq then { x with dbCq := v.setWidth 16 } else { x with dbSq := v.setWidth 16 })

theorem State.rung_same (cq : Bool) : (s.rung q cq v).hqQ q =
    if cq then { s.hqQ q with dbCq := v.setWidth 16 } else { s.hqQ q with dbSq := v.setWidth 16 } := by
  rw [State.rung, State.modHqQ_same, State.hqQ_congr (congrArg Hq.queues (State.wakeBy_keeps (keeps_hq (by decide)) rfl))]

theorem State.rung_other {cq : Bool} {r : Nat} (h : q ≠ r) : (s.rung q cq v).hqQ r = s.hqQ r := by
  rw [State.rung, State.modHqQ_other _ _ h, State.hqQ_congr (congrArg Hq.queues (State.wakeBy_keeps (keeps_hq (by decide)) rfl))]

/-- A doorbell of a queue in service gives a new tail of its SQ, or a new head of its CQ. -/
theorem exec_hqDoorbell_of_valid (hr : s.glb.inReset = false) (hup : s.hq.up = true) (hf : s.hq.fenced = false) (hv : (s.hqQ q).valid = true)
    (cq : Bool) : exec (.hqDoorbell 0 q cq v) s =
      .next (if cq then (s.rung q true v).newHead q (v &&& 0xFFFF).toNat else (s.rung q false v).newTail q (v &&& 0xFFFF).toNat) := by
  rw [exec_hqDoorbell, execHqDoorbell, if_neg (by simp [hr, hup]), State.doorbell, if_neg (by simp [hv, hf])]
  rfl

theorem State.newTail_of_ahead {w : Nat} (hw : w < (s.hqQ q).sqSize) (ha :
    ((s.hqQ q).sqTail + (s.hqQ q).sqSize - (s.hqQ q).sqHead) % (s.hqQ q).sqSize < (w + (s.hqQ q).sqSize - (s.hqQ q).sqHead) % (s.hqQ q).sqSize) :
    s.newTail q w = s.modHqQ q (fun x => { x with sqTail := w }) := by
  rw [State.newTail, if_neg (by omega), if_pos ha]

/-- A value beyond the size is reported, and changes no queue (R277). -/
theorem State.newTail_of_beyond {w : Nat} (hw : (s.hqQ q).sqSize ≤ w) (r : Nat) : (s.newTail q w).hqQ r = s.hqQ r := by
  rw [State.newTail, if_pos hw]
  exact State.hqQ_congr (congrArg Hq.queues (State.queueError_keeps (keeps_hq (by decide)) rfl)) r

theorem State.newHead_of_command {w : Nat} (hw : w < (s.hqQ q).cqSize) (hp : (s.hqQ q).poll = 0) (hk : (s.hqQ q).kind = .command) :
    s.newHead q w = s.modHqQ q (fun x => { x with cqHead := w }) := by
  rw [State.newHead, if_neg (by omega), if_neg (by simp [hp]), if_neg (by simp [hk])]

/-! Polls (R277). -/

theorem exec_queuePoll_of_unpolled (h : (s.hqQ q).poll = 0) (v : BitVec 64) : exec (.queuePoll q v) s = .next s := by
  rw [exec_queuePoll, execQueuePoll, if_pos (by simp [h])]

theorem exec_queuePoll_of_polled (hf : s.fetching q = true) (hv : (s.hqQ q).valid = true) (hp : (s.hqQ q).poll ≠ 0) (v : BitVec 64) :
    exec (.queuePoll q v) s = .next ((if (s.hqQ q).kind = .event then s else s.newTail q (v.extractLsb' 0 32).toNat).newHead q
      (v.extractLsb' 32 32).toNat) := by
  rw [exec_queuePoll, execQueuePoll, if_neg (by simpa [hf, hv] using hp)]

/-! Completion entries (R281). -/

theorem State.msix_mem (s : State) (v : Nat) : v ∈ (s.msix v).hq.msixPend := by
  by_cases h : v ∈ s.hq.msixPend <;> simp [State.msix, h]

/-- An entry of a CQ moves its tail and raises its vector; no other queue and no slot is touched. -/
theorem State.cqPut_leaves (s : State) (q : Nat) (w0 w1 w2 w3 : Word) :
    ((s.cqPut q w0 w1 w2 w3).hqQ q).cqTail = ((s.hqQ q).cqTail + 1) % (s.hqQ q).cqSize ∧
    ((s.cqPut q w0 w1 w2 w3).hqQ q).inExec = (s.hqQ q).inExec ∧
    (∀ r, q ≠ r → (s.cqPut q w0 w1 w2 w3).hqQ r = s.hqQ r) ∧
    (s.hqQ q).vector.toNat ∈ (s.cqPut q w0 w1 w2 w3).hq.msixPend ∧ (s.cqPut q w0 w1 w2 w3).hq.slots = s.hq.slots := by
  have queues (a : Nat) (bs : List Byte) (f : HqQueue → HqQueue) (v r : Nat) :
      (((s.hostWrite a bs).modHqQ q f).msix v).hqQ r = (s.modHqQ q f).hqQ r := rfl
  refine ⟨?_, ?_, fun r h => ?_, State.msix_mem _ _, rfl⟩
  · rw [State.cqPut, queues, State.modHqQ_same]
  · rw [State.cqPut, queues, State.modHqQ_same]
  · rw [State.cqPut, queues, State.modHqQ_other _ _ h]

theorem exec_commandComplete_of_done (hx : s.slot n = some x) (hd : x.phase = .done) (hp : x.path = .queue q)
    (hfull : (s.hqQ q).cqFull = false) : ∃ w0 w1 w2 w3, exec (.commandComplete n) s =
      .next (((s.cqPut q w0 w1 w2 w3).modHqQ q (fun y => { y with inExec := y.inExec - 1 })).dropSlot n) := by
  rw [exec_commandComplete, execCommandComplete]
  simp only [hx, hd, hp, hfull, bne_self_eq_false, Bool.false_eq_true, if_false]
  exact ⟨_, _, _, _, rfl⟩

/-- While the CQ is full the command waits. -/
theorem exec_commandComplete_of_full (hx : s.slot n = some x) (hp : x.path = .queue q) (hfull : (s.hqQ q).cqFull = true) :
    exec (.commandComplete n) s = .next s := by
  rw [exec_commandComplete, execCommandComplete]
  simp only [hx, hp, hfull, if_true, ite_self]

/-- Settles O33: each command of the engine by the branch that its hypotheses choose, and what that branch leaves of the queues and of the
slots. -/
theorem queueEngine : Obligations.QueueEngine := by
  unfold Obligations.QueueEngine
  refine ⟨?fetch, fun s q ws h => exec_commandFetch_of_not_mayFetch h ws, ?tail, ?beyond, ?head,
    fun s q v h => exec_queuePoll_of_unpolled h v, fun s q v hf hv hp => exec_queuePoll_of_polled hf hv hp v, ?complete,
    fun s n q x hx hp => exec_commandComplete_of_full hx hp⟩
  case fetch =>
    intro s ws h
    obtain ⟨n, hn⟩ := State.slotFor_of_mayFetch h
    obtain ⟨hlt, hfree⟩ := State.freeSlot_eq_some (a := 0) (k := 16) hn
    obtain ⟨f, hexec, hf⟩ := exec_commandFetch_admin h hn ws
    have queues (r : Nat) : (((s.modHqQ 0 f).takeEntry n (.queue 0) (((s.hqQ 0).sqHead + 1) % (s.hqQ 0).sqSize) ws).hqQ r) =
        (s.modHqQ 0 f).hqQ r := rfl
    refine ⟨_, n, hexec, by omega, hfree, State.takeEntry_isSome _ _ _ _ _, ?_⟩
    simp only [queues, State.modHqQ_same]
    exact ⟨(hf _).1, (hf _).2, fun r => State.modHqQ_other _ _⟩
  case tail =>
    intro s q v hr hup hf hv hlt ha
    have rung := State.rung_same (s := s) (q := q) (v := v) false
    refine ⟨_, exec_hqDoorbell_of_valid hr hup hf hv false, ?_⟩
    rw [if_neg Bool.false_ne_true, State.newTail_of_ahead (by rwa [rung]) (by rwa [rung]), State.modHqQ_same, rung]
    exact ⟨rfl, fun r h => (State.modHqQ_other _ _ h).trans (State.rung_other h)⟩
  case beyond =>
    intro s q v hr hup hf hv hge
    have rung := State.rung_same (s := s) (q := q) (v := v) false
    refine ⟨_, exec_hqDoorbell_of_valid hr hup hf hv false, ?_⟩
    rw [if_neg Bool.false_ne_true, State.newTail_of_beyond (by rwa [rung]), rung]
    exact ⟨rfl, rfl⟩
  case head =>
    intro s q v hr hup hf hv hk hp hlt
    have rung := State.rung_same (s := s) (q := q) (v := v) true
    refine ⟨_, exec_hqDoorbell_of_valid hr hup hf hv true, ?_⟩
    rw [if_pos rfl, State.newHead_of_command (by rwa [rung]) (by rwa [rung]) (by rwa [rung]), State.modHqQ_same, rung]
    exact ⟨rfl, fun r h => (State.modHqQ_other _ _ h).trans (State.rung_other h)⟩
  case complete =>
    intro s n q x hx hd hp hfull
    obtain ⟨w0, w1, w2, w3, hexec⟩ := exec_commandComplete_of_done hx hd hp hfull
    obtain ⟨tail, exec, others, vector, slots⟩ := State.cqPut_leaves s q w0 w1 w2 w3
    have queues (y : State) (r : Nat) : (y.dropSlot n).hqQ r = y.hqQ r := rfl
    refine ⟨_, hexec, State.dropSlot_same _ _, ?_⟩
    simp only [queues, State.modHqQ_same]
    exact ⟨by rw [exec], tail, vector, fun r h => (State.modHqQ_other _ _ h).trans (others r h),
      fun m h => (State.dropSlot_other _ h).trans (State.slot_congr slots m)⟩

end Sys2Proof.Machine
end

section
/-! PROOF. The commands on queues, events and the log (R275, R276, R279, R283, R293, R392). -/

namespace Sys2Proof.Machine

variable {s : State} {n q : Nat} {x : Slot}

/-! A command of a slot that begins (R279). -/

section
variable {sq cq sh : BitVec 64} {sm cm : BitVec 16} {k : QKind} {f : BitVec 4} {w : BitVec 8} {p : BitVec 14} {v : BitVec 11} {st : Nat}

theorem exec_createQueue_of_starts (h : s.starts n x (.createQueue q sq cq sm cm k f w p v sh st)) : exec (.createQueue n) s =
    .next (Res.settle n ((s.mirrorCmd x (.createQueue q sq cq sm cm k f w p v sh st)).doCreate q sq cq sm cm k f w p v sh st)) :=
  congrArg Host.Outcome.next (State.onSlot_of_starts h rfl)

/-- A free queue is made with its operands, and empty (R275). -/
theorem State.doCreate_of_command (hv : (s.hqQ q).valid = false) (hok : s.createBad sq cq sm cm .command f.toNat w p v.toNat sh st = false) :
    s.doCreate q sq cq sm cm .command f w p v sh st = (s.modHqQ q (fun _ => { HqQueue.reset with
      valid := true, kind := .command, func := f, part := BitVec.ofNat 3 ((s.fnPart f.toNat).getD 0), vector := v
      sqSize := sm.toNat + 1, cqSize := cm.toNat + 1, weight := w, poll := p, shadow := sh, sqBase := sq, cqBase := cq, stream := st })).say
        .success 0 := by
  simp [State.doCreate, hv, hok]

theorem State.doCreate_of_valid (hv : (s.hqQ q).valid = true) : s.doCreate q sq cq sm cm k f w p v sh st = s.say .busy 0 := by
  rw [State.doCreate, if_pos hv]

end

theorem exec_deleteQueue_of_starts (h : s.starts n x (.deleteQueue q)) :
    exec (.deleteQueue n) s = .next (Res.settle n ((s.mirrorCmd x (.deleteQueue q)).doDelete q)) :=
  congrArg Host.Outcome.next (State.onSlot_of_starts h rfl)

theorem exec_setEvents_of_starts {mask : BitVec 64} (h : s.starts n x (.setEvents mask)) :
    exec (.setEvents n) s = .next (Res.settle n ((s.mirrorCmd x (.setEvents mask)).doSetEvents mask (s.ctxOf x.path))) :=
  congrArg Host.Outcome.next (State.onSlot_of_starts h rfl)

/-! DELETE_QUEUE (R276, R473). -/

theorem State.abortBy_of_none {p : Opener → Bool} (h : ∀ i, i < 4 → p (s.trans i).opener = false) : s.abortBy p = s :=
  State.each_of_fixed fun i hi => if_neg (by simp [h i (List.mem_range.mp hi)])

theorem State.removeQueue_same (s : State) (q : Nat) : (s.removeQueue q).hqQ q = HqQueue.reset :=
  State.modHqQ_same s q (fun _ => HqQueue.reset)

theorem State.removeQueue_other (s : State) {r : Nat} (h : q ≠ r) : (s.removeQueue q).hqQ r = s.hqQ r :=
  State.modHqQ_other s (fun _ => HqQueue.reset) h

theorem State.doDelete_of_drained (hv : (s.hqQ q).valid = true) (he : (s.hqQ q).sqHead = (s.hqQ q).sqTail) (hi : (s.hqQ q).inExec = 0)
    (ho : ∀ i, i < 4 → (s.trans i).opener ≠ .queue q) : s.doDelete q = (s.removeQueue q).say .success 0 := by
  have none : s.abortBy (· == .queue q) = s := State.abortBy_of_none fun i h => by simpa using ho i h
  simp [State.doDelete, hv, he, hi, none]

/-! SET_EVENTS (R293). -/

theorem State.doSetEvents_of_queue {mask : BitVec 64} {ctx : Ctx} {fn : Nat} (hf : ctx.fn = some fn) (hq : s.eventQueue fn = some q) :
    s.doSetEvents mask ctx = (s.modHqQ q (fun y => { y with mask := mask })).say .success 0 := by
  simp only [State.doSetEvents, hf, hq]

/-! Commands whose answer is written to host memory (R282, R283). -/

/-- Bytes to write: the command waits for their DMA. -/
theorem State.settle_sendOut {out : List (Nat × List Byte)} {k : Nat} (hx : s.slot n = some x)
    (hk : (out.map (fun o => o.2.length)).sum = k) (h : k ≠ 0) (r : Word) :
    (Res.settle n (s.sendOut n r out)).slot n = some { x with phase := .waiting, result := r, out := out, started := s.now } ∧
    (Res.settle n (s.sendOut n r out)).hq.dmas = s.hq.dmas ++ [(n, k)] := by
  rw [State.sendOut_of_bytes hk h]
  exact ⟨State.modSlot_same hx (fun x => { x with phase := .waiting, result := r, out := out, started := s.now }), rfl⟩

section
variable {addr : BitVec 64} {len : Nat}

theorem exec_identify_of_starts (h : s.starts n x (.identify addr len)) (hlen : 4096 ≤ len) :
    exec (.identify n) s = .next (Res.settle n (s.sendOut n 0 [(addr.toNat, s.identifyBytes)])) :=
  congrArg Host.Outcome.next (State.onSlot_of_starts_unmirrored h rfl (congrArg some (if_neg (by omega))))

theorem exec_identify_of_short (h : s.starts n x (.identify addr len)) (hlen : len < 4096) :
    exec (.identify n) s = .next (Res.settle n (s.say .invalidField 0)) :=
  congrArg Host.Outcome.next (State.onSlot_of_starts_unmirrored h rfl (congrArg some (if_pos hlen)))

theorem exec_getLog_of_starts {first : BitVec 32} (h : s.starts n x (.getLog addr len first)) (hlen : len % 16 = 0) (h0 : len ≠ 0) :
    exec (.getLog n) s = .next (Res.settle n (s.sendOut n (BitVec.ofNat 32 (s.logRange len first).2)
      [(addr.toNat, s.logCopy (s.logRange len first).1 (s.logRange len first).2)])) :=
  congrArg Host.Outcome.next (State.onSlot_of_starts_unmirrored h rfl (congrArg some
    ((if_neg (by simp [hlen])).trans (if_neg h0))))

/-- A copy of the log has at least its header. -/
theorem State.logCopy_length_ne_zero (s : State) (i : BitVec 32) (k : Nat) : (s.logCopy i k).length ≠ 0 := by
  simp [State.logCopy, length_wordBytes, entryWords]

/-- Every register is in the reach of a command of the whole device. -/
theorem Ctx.reach_of_device {ctx : Ctx} (h : ctx.scope = none) (s : State) (a : Nat) : ctx.reach s a = 2 := by
  rw [Ctx.reach, h]

theorem exec_ctxRead_of_device {a : Nat} (h : s.starts n x (.ctxRead addr len a)) (ha : a % 4 = 0) (hlen : len % 4 = 0) (hlow : 0x1000000 ≤ a)
    (hhigh : a < 0x4000000) (hend : a + len ≤ 0x4000000) (hscope : (s.ctxOf x.path).scope = none) : exec (.ctxRead n) s =
      .next (Res.settle n (s.sendOut n 0
        [(addr.toNat, wordBytes (((List.range (len / 4)).map (fun i => a + 4 * i)).map s.readAddr))])) :=
  congrArg Host.Outcome.next (State.onSlot_of_starts_unmirrored h rfl (congrArg some
    ((if_neg (by omega)).trans (if_neg (by simp [Ctx.reach_of_device hscope])))))

end

/-- Settles O30: each command through what it does as it begins, with the mirroring of R426 apart from the host's queues. -/
theorem queueCommands : Obligations.QueueCommands := by
  unfold Obligations.QueueCommands
  refine ⟨?create, ?busy, ?delete, ?events, ?identify, ?short, ?log, ?context, ?gate⟩
  case create =>
    intro s n q x sq cq sm cm f w p v sh st h hv hok
    obtain ⟨g, hg⟩ := s.mirrorCmd_eq x (.createQueue q sq cq sm cm .command f w p v sh st)
    refine ⟨_, exec_createQueue_of_starts h, ?_⟩
    simp only [hg, State.doCreate_of_command (s := s.modGrt g) hv hok, Res.settle_say, State.finish_hqQ, State.modHqQ_same]
    exact ⟨State.finish_completed_of_slots h.1 rfl _ _, rfl, fun r => State.modHqQ_other (s.modGrt g) _⟩
  case busy =>
    intro s n q x sq cq sm cm k f w p v sh st h hv
    obtain ⟨g, hg⟩ := s.mirrorCmd_eq x (.createQueue q sq cq sm cm k f w p v sh st)
    refine ⟨_, exec_createQueue_of_starts h, ?_⟩
    rw [hg, State.doCreate_of_valid (s := s.modGrt g) hv]
    exact ⟨State.finish_completed_of_slots h.1 rfl _ _, rfl⟩
  case delete =>
    intro s n q x h hv he hi ho
    obtain ⟨g, hg⟩ := s.mirrorCmd_eq x (.deleteQueue q)
    refine ⟨_, exec_deleteQueue_of_starts h, ?_⟩
    rw [hg, State.doDelete_of_drained (s := s.modGrt g) hv he hi ho]
    exact ⟨State.finish_completed_of_slots h.1 rfl _ _, State.removeQueue_same (s.modGrt g) q, fun r => State.removeQueue_other (s.modGrt g)⟩
  case events =>
    intro s n q fn x mask h hf hq
    obtain ⟨g, hg⟩ := s.mirrorCmd_eq x (.setEvents mask)
    refine ⟨_, exec_setEvents_of_starts h, ?_⟩
    simp only [hg, State.doSetEvents_of_queue (s := s.modGrt g) hf hq, Res.settle_say, State.finish_hqQ, State.modHqQ_same]
    exact ⟨State.finish_completed_of_slots h.1 rfl _ _, rfl, fun r => State.modHqQ_other (s.modGrt g) _⟩
  case identify =>
    intro s n len x a h hlen
    exact ⟨_, exec_identify_of_starts h hlen, State.settle_sendOut h.1 (by simp [State.identifyBytes]) (by decide) 0⟩
  case short =>
    intro s n len x a h hlen
    exact ⟨_, exec_identify_of_short h hlen, State.finish_completed h.1 _ _, rfl⟩
  case log =>
    intro s n len x a i h hlen h0
    exact ⟨_, exec_getLog_of_starts h hlen h0, State.settle_sendOut h.1 (by simp) (State.logCopy_length_ne_zero s _ _) _⟩
  case context =>
    intro s n len a x addr h ha hlen hlow hhigh hend h0 hscope
    have size : 4 * (len / 4) = len := by omega
    exact ⟨_, exec_ctxRead_of_device h ha hlen hlow hhigh hend hscope,
      State.settle_sendOut h.1 (by simp [length_wordBytes, size]) (by omega) 0⟩
  case gate =>
    intro s n a x st hx hc hb hg
    exact ⟨_, congrArg Host.Outcome.next (State.onSlot_of_gate hx hc hb hg rfl), State.finish_completed hx _ _,
      frame_of_keeps fun _ l k => State.finish_keeps l k⟩

end Sys2Proof.Machine
end

section
/-! PROOF. The commands on registers, transactions, streams and outputs (R101, R157, R182, R249, R283, R463, R468 to R474). -/

namespace Sys2Proof.Machine

variable {s : State} {n i k a : Nat} {x : Slot} {ctx : Ctx} {v : Word}

/-! Registers (R283, R463, R469). -/

theorem exec_regRead_of_reach (h : s.starts n x (.regRead a)) (ha : a % 4 = 0) (hr : (s.ctxOf x.path).reach s a ≠ 0) :
    exec (.regRead n) s = .next (Res.settle n ((s.readBy (s.ctxOf x.path).writer a).1.say .success (s.readBy (s.ctxOf x.path).writer a).2)) :=
  congrArg Host.Outcome.next (State.onSlot_of_starts_unmirrored h rfl (congrArg some ((if_neg (by simp [ha])).trans (if_neg hr))))

theorem exec_regWrite_of_starts (h : s.starts n x (.regWrite a v)) :
    exec (.regWrite n) s = .next (Res.settle n ((s.mirrorCmd x (.regWrite a v)).doRegWrite a v (s.ctxOf x.path))) :=
  congrArg Host.Outcome.next (State.onSlot_of_starts h rfl)

/-- Outside a transaction a write takes effect at once. -/
theorem State.doRegWrite_of_direct {r : State} (ha : a % 4 = 0) (hr : ctx.reach s a = 2) (ho : s.openOf ctx.opener = none)
    (hw : s.writeAddr ctx.writer a v true = (r, none)) : s.doRegWrite a v ctx = r.say .success 0 := by
  simp [State.doRegWrite, ha, hr, ho, hw]

/-- The transaction takes the write behind those that it holds. -/
def State.buffer (k a : Nat) (v : Word) (s : State) : State := s.modTrans k (fun y => { y with writes := bufferWrite y.writes a v })

/-- Inside a transaction the write is buffered. -/
theorem State.doRegWrite_of_buffered (ha : a % 4 = 0) (hr : ctx.reach s a = 2) (ho : s.openOf ctx.opener = some k)
    (hb : s.bufferReason ctx.writer k a v = none) : s.doRegWrite a v ctx = (s.buffer k a v).say .success 0 := by
  simp [State.doRegWrite, ha, hr, ho, State.bufferTxn, hb, State.buffer]

/-! Transactions (R468 to R474). -/

theorem exec_txnBegin_of_free (h : s.starts n x (.txnBegin k)) (hst : (s.trans k).st = .free) : exec (.txnBegin n) s =
    .next (Res.settle n ((s.beginTxn k (s.ctxOf x.path).opener (s.ctxOf x.path).scope).say .success 0)) :=
  congrArg Host.Outcome.next (State.onSlot_of_starts_unmirrored h rfl (congrArg some (if_neg (not_not_intro hst))))

theorem exec_txnBegin_of_busy (h : s.starts n x (.txnBegin k)) (hst : (s.trans k).st ≠ .free) :
    exec (.txnBegin n) s = .next (Res.settle n (s.say .busy 0)) :=
  congrArg Host.Outcome.next (State.onSlot_of_starts_unmirrored h rfl (congrArg some (if_pos hst)))

/-- A transaction waits for its commit position. -/
def State.arm (k r l : Nat) (f : Int) (s : State) : State :=
  (s.modTrans k (fun y => { y with
    st := .armed, raster := BitVec.ofNat 5 r, line := BitVec.ofNat 14 l, frame := BitVec.ofInt 32 f, posFrame := f.toNat
    armSeq := s.txn.armNext, late := false })).modTxn (fun y => { y with armNext := s.txn.armNext + 1 })

theorem State.arm_trans (k r l : Nat) (f : Int) (s : State) : (s.arm k r l f).trans k = { s.trans k with
    st := .armed, raster := BitVec.ofNat 5 r, line := BitVec.ofNat 14 l, frame := BitVec.ofInt 32 f, posFrame := f.toNat
    armSeq := s.txn.armNext, late := false } :=
  State.modTrans_same s k (fun y => { y with
    st := .armed, raster := BitVec.ofNat 5 r, line := BitVec.ofNat 14 l, frame := BitVec.ofInt 32 f, posFrame := f.toNat
    armSeq := s.txn.armNext, late := false })

@[simp] theorem State.arm_slot (k r l : Nat) (f : Int) (s : State) (m : Nat) : (s.arm k r l f).slot m = s.slot m := rfl

/-- The late window of a transaction rests on its scope alone. -/
theorem State.txnLate_congr {t : State} (hscope : (t.trans k).scope = (s.trans k).scope) (hdev : t.txn.lateDev = s.txn.lateDev)
    (hblw : t.blw = s.blw) : t.txnLate k = s.txnLate k := by
  simp only [State.txnLate, State.part, hscope, hdev, hblw]

section
variable {r l : Nat} {f : Int} (hr : r ≠ nowRaster) (hd : s.due r f l (s.txnLate k) = .coming)
include hr hd

theorem State.armTxn_of_coming : s.armTxn k r l f = s.arm k r l f := by
  have late : (s.arm k r l f).txnLate k = s.txnLate k := State.txnLate_congr (by rw [State.arm_trans]) rfl rfl
  have due : (s.arm k r l f).due r f l ((s.arm k r l f).txnLate k) = .coming := late ▸ hd
  simp only [State.armTxn, if_neg hr]
  rw [State.arm] at due ⊢
  rw [due]

/-- A position that is still to come arms the transaction, and no more where no twin is to be told. -/
theorem State.armCommit_of_coming (hrole : s.glb.role ≠ .lead) : s.armCommit k r l f = s.arm k r l f := by
  have role : (s.arm k r l f).glb.role ≠ .lead := hrole
  rw [State.armCommit, State.armTxn_of_coming hr hd]
  simp only [State.arm_trans, State.mirrorTxn, role, hr, if_false, bne_self_eq_false, Bool.false_eq_true]

end

/-- The command of slot `n` waits for the outcome of a transaction (R474). -/
def State.await (n k : Nat) (s : State) : State :=
  (s.modTrans k (fun y => { y with waiter := some n })).modSlot n (fun y => { y with phase := .waiting })

theorem State.await_trans (s : State) (n k : Nat) : (s.await n k).trans k = { s.trans k with waiter := some n } :=
  State.modTrans_same s k (fun y => { y with waiter := some n })

theorem State.await_slot (hx : s.slot n = some x) (k : Nat) : (s.await n k).slot n = some { x with phase := .waiting } :=
  State.modSlot_same (s := s.modTrans k (fun y => { y with waiter := some n })) hx (fun y => { y with phase := .waiting })

theorem exec_txnCommit_of_opened {r : BitVec 5} {l : BitVec 14} {f : BitVec 32} (h : s.starts n x (.txnCommit k r l f))
    (hst : (s.trans k).st = .opened) (ho : (s.trans k).opener = (s.ctxOf x.path).opener) (hpos : s.posOk r.toNat l.toNat = true) :
    exec (.txnCommit n) s = .next ((s.await n k).armCommit k r.toNat l.toNat (s.fullFrame r.toNat f)) :=
  congrArg Host.Outcome.next (State.onSlot_of_starts_unmirrored (y := (_, none)) h rfl (congrArg some
    ((if_neg (by simp [hst, ho])).trans (if_neg (by simp [hpos])))))

@[simp] theorem State.latch_trans (s : State) (m k : Nat) : (s.latch m).trans k = s.trans k := rfl

/-- An OPEN transaction that no command awaits ends: it is FREE, and its source is latched. -/
theorem State.abortTxn_of_opened (hst : (s.trans k).st = .opened) (hw : (s.trans k).waiter = none) (o : TxnOutcome) :
    s.abortTxn k o = (s.modTrans k (fun y => { y with st := .free, writes := [], outcome := o, waiter := none, late := false })).latch
      (33 + k) := by
  simp [State.abortTxn, State.endTxn, hst, hw, State.whenB]

theorem exec_txnAbort_of_opened (h : s.starts n x (.txnAbort k)) (hst : (s.trans k).st = .opened)
    (ho : (s.trans k).opener = (s.ctxOf x.path).opener) :
    exec (.txnAbort n) s = .next (Res.settle n ((s.abortTxn k .aborted).say .success 0)) :=
  congrArg Host.Outcome.next (State.onSlot_of_starts_unmirrored h rfl (congrArg some (if_neg (by simp [hst, ho]))))

/-! Streams (R101, R157, R249). -/

theorem exec_streamStart_of_starts (h : s.starts n x (.streamStart i)) :
    exec (.streamStart n) s = .next (Res.settle n ((s.mirrorCmd x (.streamStart i)).doStart i false (s.ctxOf x.path))) :=
  congrArg Host.Outcome.next (State.onSlot_of_starts h rfl)

theorem exec_streamRejoin_of_starts (h : s.starts n x (.streamRejoin i)) :
    exec (.streamRejoin n) s = .next (Res.settle n ((s.mirrorCmd x (.streamRejoin i)).doStart i true (s.ctxOf x.path))) :=
  congrArg Host.Outcome.next (State.onSlot_of_starts h rfl)

theorem exec_streamQuench_of_starts (h : s.starts n x (.streamQuench i)) :
    exec (.streamQuench n) s = .next (Res.settle n ((s.mirrorCmd x (.streamQuench i)).doQuench i true (s.ctxOf x.path))) :=
  congrArg Host.Outcome.next (State.onSlot_of_starts h rfl)

theorem exec_streamUnquench_of_starts (h : s.starts n x (.streamUnquench i)) :
    exec (.streamUnquench n) s = .next (Res.settle n ((s.mirrorCmd x (.streamUnquench i)).doQuench i false (s.ctxOf x.path))) :=
  congrArg Host.Outcome.next (State.onSlot_of_starts h rfl)

theorem State.doStart_of_enabled {keep : Bool} (ho : ctx.owns s i = true) (he : (s.decS i).cfg.enabled = true) :
    s.doStart i keep ctx = (s.startStream i keep).say .success 0 := by
  simp [State.doStart, ho, he]

theorem State.doStart_of_foreign {keep : Bool} (ho : ctx.owns s i = false) : s.doStart i keep ctx = s.say .notOwned 0 := by
  simp [State.doStart, ho]

/-- The rules of a list turn their QUENCH, and no others do. -/
theorem State.each_modRule_of_not_mem {ks : List Nat} {g : Rule → Rule} (h : k ∉ ks) :
    (s.each ks (fun j => State.modRule j g)).rule k = s.rule k := by
  induction ks generalizing s with
  | nil => rfl
  | cons j ks ih =>
    obtain ⟨hj, hks⟩ := List.ne_and_not_mem_of_not_mem_cons h
    exact (ih hks).trans (State.modRule_other _ _ (Ne.symm hj))

theorem State.each_modRule_quench {ks : List Nat} {on : Bool} (h : k ∈ ks) :
    ((s.each ks (fun j => State.modRule j (fun y => { y with quench := on }))).rule k).quench = on := by
  refine State.each_of_mem (P := fun t => (t.rule k).quench = on) h (fun t => by rw [State.modRule_same]) fun j t ht => ?_
  by_cases hj : j = k
  · rw [hj, State.modRule_same]
  · rwa [State.modRule_other _ _ hj]

theorem State.rule_congr {t : State} (h : t.run.rules = s.run.rules) (j : Nat) : t.rule j = s.rule j := by
  rw [State.rule, State.rule, h]

/-- The state has QUENCH of the rules `ks` as `on`, every other rule as before, and the slots as before. -/
structure State.Quenched (s t : State) (ks : List Nat) (on : Bool) : Prop where
  named : ∀ k ∈ ks, (t.rule k).quench = on
  others : ∀ k, k ∉ ks → t.rule k = s.rule k
  slots : t.hq.slots = s.hq.slots

theorem State.doQuench_of_direct {on : Bool} (hown : ctx.owns s i = true) (ho : s.openOf ctx.opener = none) :
    ∃ t, s.doQuench i on ctx = t.say .success 0 ∧ s.Quenched t (s.rulesOf i) on := by
  simp only [State.doQuench, hown, ho, Bool.not_true, Bool.false_eq_true, if_false]
  generalize (s.rulesOf i).any (fun r => (s.rule r).quench != on) = turned
  have soon : (s.whenB turned (State.quenchSoon i)).run.rules = s.run.rules := by cases turned <;> rfl
  have log {P : State → Prop} (u : Keeps [.log] P) {t : State} (h : P t) (p : Nat) : P (if turned = true then
      t.limited .streamQuenched i ms (State.raiseP p .streamQuenched [i16 i, i16 2]) else t) :=
    ite_keeps (State.limited_keeps u (fun _ => State.raiseP_keeps u) h) h
  refine ⟨_, rfl, fun k hk => ?_, fun k hk => ?_, ?_⟩
  · rw [State.rule_congr (congrArg Run.rules (log (keeps_run (by decide)) rfl _))]
    exact State.each_modRule_quench hk
  · rw [State.rule_congr (congrArg Run.rules (log (keeps_run (by decide)) rfl _)), State.each_modRule_of_not_mem hk, State.rule_congr soon]
  · have hq : (s.whenB turned (State.quenchSoon i)).hq = s.hq := by cases turned <;> rfl
    have rules := State.each_keeps (P := fun t => t.hq = s.hq) (xs := s.rulesOf i)
      (fun j _ => State.modRule_keeps (a0 := j) (a1 := fun y => { y with quench := on }) (keeps_hq (by decide))) hq
    exact congrArg Hq.slots (log (P := fun t => t.hq = s.hq) (keeps_hq (by decide)) rules _)

theorem exec_sweepRestart_of_enabled {r : BitVec 5} {l : BitVec 14} {f : BitVec 32} (h : s.starts n x (.sweepRestart i r l f))
    (ho : (s.ctxOf x.path).owns s i = true) (hpos : s.posOk r.toNat l.toNat = true) (he : (s.encS i).cfg.enabled = true) :
    exec (.sweepRestart n) s = .next (Res.settle n ((s.encRestart i (s.restartTime r l f) 0).say .success 0)) :=
  congrArg Host.Outcome.next (State.onSlot_of_starts_unmirrored h rfl (congrArg some
    ((if_neg (by simp [ho])).trans ((if_neg (by simp [hpos])).trans (if_neg (by simp [he]))))))

theorem State.encRestart_enc (s : State) (i : Nat) (t : T48) (c : Nat) :
    (s.encRestart i t c).enc = (s.modEncS i (fun e => { e with restarts := e.restarts ++ [(t, c)] })).enc :=
  ite_keeps (P := fun u => u.enc = _) (State.gPut_keeps (keeps_enc (by decide)) rfl) rfl

theorem State.encRestart_hq (s : State) (i : Nat) (t : T48) (c : Nat) : (s.encRestart i t c).hq = s.hq :=
  State.encRestart_keeps (keeps_hq (by decide)) rfl

/-! Outputs (R182). -/

theorem exec_outputSet_of_starts {b : Bool} (h : s.starts n x (.outputSet k b)) :
    exec (.outputSet n) s = .next (Res.settle n ((s.mirrorCmd x (.outputSet k b)).doOutputSet k b (s.ctxOf x.path))) :=
  congrArg Host.Outcome.next (State.onSlot_of_starts h rfl)

theorem State.doOutputSet_of_device {b : Bool} (h : ctx.scope = none) : s.doOutputSet k b ctx = (s.setIntent k b).say .success 0 := by
  simp [State.doOutputSet, h]

theorem State.doOutputSet_of_partition {b : Bool} {p : Nat} (h : ctx.scope = some p) : s.doOutputSet k b ctx = s.say .notOwned 0 := by
  simp [State.doOutputSet, h]

theorem State.setIntent_same (s : State) (k : Nat) (b : Bool) : (s.setIntent k b).outP k = { s.outP k with intent := b } :=
  State.modOutP_same s k (fun p => { p with intent := b })

theorem State.setIntent_other (s : State) (b : Bool) {j : Nat} (h : k ≠ j) : (s.setIntent k b).outP j = s.outP j :=
  State.modOutP_other s (fun p => { p with intent := b }) h

/-- Settles O31: each command through what it does as it begins, with the mirroring of R426 of the Girth link alone. -/
theorem controlCommands : Obligations.ControlCommands := by
  unfold Obligations.ControlCommands
  refine ⟨fun s n a x => exec_regRead_of_reach, ?direct, ?buffered, ?begin, ?taken, ?commit, ?abort, ?start, ?rejoin, ?foreign, ?quench,
    ?unquench, ?restart, ?output, ?partition⟩
  case direct =>
    intro s u r n a v x h ha hr ho hu hw
    obtain ⟨g, hg⟩ := s.mirrorCmd_eq x (.regWrite a v)
    rw [hu, hg] at hw
    rw [exec_regWrite_of_starts h, hg, State.doRegWrite_of_direct (s := s.modGrt g) ha hr ho hw, Res.settle_say]
  case buffered =>
    intro s n a k v x h ha hr ho hb
    refine ⟨_, exec_regWrite_of_starts h, ?_⟩
    rw [State.mirrorCmd_of_buffered rfl (by rw [ho]; rfl), State.doRegWrite_of_buffered ha hr ho hb, Res.settle_say]
    refine ⟨State.finish_completed_of_slots h.1 rfl _ _, ?_, frame_of_keeps fun _ l hs =>
      State.finish_keeps (l.mono (by decide)) (State.modTrans_keeps (l.mono (by decide)) hs)⟩
    rw [State.finish_trans, State.buffer, State.modTrans_same]
  case begin =>
    intro s n k x h hst
    refine ⟨_, exec_txnBegin_of_free h hst, State.finish_completed_of_slots h.1 rfl _ _, ?_⟩
    simp only [Res.settle_say, State.finish_trans, State.beginTxn, State.modTrans_same, true_and]
    exact fun j => State.modTrans_other s _
  case taken =>
    intro s n k x h hst
    exact ⟨_, exec_txnBegin_of_busy h hst, State.finish_completed h.1 _ _, rfl⟩
  case commit =>
    intro s n k x r l f h hst ho hrole hr hpos hd
    have late : (s.await n k).txnLate k = s.txnLate k := State.txnLate_congr (by rw [State.await_trans]) rfl rfl
    refine ⟨_, exec_txnCommit_of_opened h hst ho hpos, ?_⟩
    rw [State.armCommit_of_coming (s := s.await n k) hr (by rw [late]; exact hd) hrole, State.arm_trans, State.await_trans,
      State.arm_slot, State.await_slot h.1]
    exact ⟨rfl, rfl, rfl, rfl, rfl, rfl⟩
  case abort =>
    intro s n k x h hst hw ho
    refine ⟨_, exec_txnAbort_of_opened h hst ho, ?_⟩
    rw [State.abortTxn_of_opened hst hw, Res.settle_say]
    refine ⟨State.finish_completed_of_slots h.1 rfl _ _, ?_⟩
    rw [State.finish_trans, State.latch_trans, State.modTrans_same]
    exact ⟨rfl, rfl, rfl, State.latch_mem _ _⟩
  case start =>
    intro s n i x h ho he
    obtain ⟨g, hg⟩ := s.mirrorCmd_eq x (.streamStart i)
    rw [exec_streamStart_of_starts h, hg, State.doStart_of_enabled (s := s.modGrt g) ho he, Res.settle_say]
  case rejoin =>
    intro s n i x h ho he
    obtain ⟨g, hg⟩ := s.mirrorCmd_eq x (.streamRejoin i)
    rw [exec_streamRejoin_of_starts h, hg, State.doStart_of_enabled (s := s.modGrt g) ho he, Res.settle_say]
  case foreign =>
    intro s n i x h ho
    obtain ⟨g, hg⟩ := s.mirrorCmd_eq x (.streamStart i)
    refine ⟨_, exec_streamStart_of_starts h, ?_⟩
    rw [hg, State.doStart_of_foreign (s := s.modGrt g) ho]
    exact ⟨State.finish_completed_of_slots h.1 rfl _ _, rfl⟩
  case quench =>
    intro s n i x h hown ho
    obtain ⟨g, hg⟩ := s.mirrorCmd_eq x (.streamQuench i)
    obtain ⟨t, ht, named, others, slots⟩ := State.doQuench_of_direct (s := s.modGrt g) (on := true) hown ho
    refine ⟨_, exec_streamQuench_of_starts h, ?_⟩
    rw [hg, ht]
    exact ⟨State.finish_completed_of_slots h.1 slots _ _, named, others⟩
  case unquench =>
    intro s n i x h hown ho
    obtain ⟨g, hg⟩ := s.mirrorCmd_eq x (.streamUnquench i)
    obtain ⟨t, ht, named, others, slots⟩ := State.doQuench_of_direct (s := s.modGrt g) (on := false) hown ho
    refine ⟨_, exec_streamUnquench_of_starts h, ?_⟩
    rw [hg, ht]
    exact ⟨State.finish_completed_of_slots h.1 slots _ _, named, others⟩
  case restart =>
    intro s n i x r l f h ho hpos he
    refine ⟨_, exec_sweepRestart_of_enabled h ho hpos he,
      State.finish_completed_of_slots h.1 (congrArg Hq.slots (State.encRestart_hq ..)) _ _, ?_, fun j hj => ?_⟩
    · rw [Res.settle_say, State.finish_encS, State.encS_congr (State.encRestart_enc ..), State.modEncS_same]
    · rw [Res.settle_say, State.finish_encS, State.encS_congr (State.encRestart_enc ..), State.modEncS_other _ _ hj]
  case output =>
    intro s n k b x h hscope
    obtain ⟨g, hg⟩ := s.mirrorCmd_eq x (.outputSet k b)
    refine ⟨_, exec_outputSet_of_starts h, ?_⟩
    rw [hg, State.doOutputSet_of_device hscope, Res.settle_say, State.finish_outP, State.setIntent_same]
    exact ⟨State.finish_completed_of_slots h.1 rfl _ _, rfl, fun j => State.setIntent_other (s.modGrt g) b⟩
  case partition =>
    intro s n k p b x h hscope
    obtain ⟨g, hg⟩ := s.mirrorCmd_eq x (.outputSet k b)
    refine ⟨_, exec_outputSet_of_starts h, ?_⟩
    rw [hg, State.doOutputSet_of_partition hscope]
    exact ⟨State.finish_completed_of_slots h.1 rfl _ _, rfl⟩

end Sys2Proof.Machine
end

section
/-! PROOF. The commands that carry data to and from the host: images and patches, posted pictures and NAL units, pictures and tile states that
are read, and the end of a DMA (R121, R282 to R286, R345, R363). -/

namespace Sys2Proof.Machine

variable {s : State} {n i k len : Nat} {x : Slot} {a b : BitVec 64} {bs : List Byte}

/-! Images and patches (R345, R363). -/

theorem exec_imageWrite_of_starts {off : BitVec 32} {sealIt : Bool} (h : s.starts n x (.imageWrite a len off sealIt)) :
    exec (.imageWrite n bs) s = .next (s.imageBegin n len off sealIt bs) :=
  congrArg Host.Outcome.next (State.onSlot_of_starts_unmirrored (y := (_, none)) h rfl rfl)

/-- An OFFSET that continues no update and begins none is refused with RESULT 0xB. -/
theorem State.imageBegin_of_misplaced {off : BitVec 32} (hsfdp : s.fsh.sfdpOk = true) (hpatch : s.glb.patch = none)
    (hoff : off.toNat % 4096 ≠ 0) (hup : s.fsh.update = none) (sealIt : Bool) :
    s.imageBegin n len off sealIt bs = s.failImage n off .invalidField 0xB := by
  have h0 : off.toNat ≠ 0 := fun h => hoff (by rw [h])
  rw [State.imageBegin, if_neg (by simp [hsfdp, hpatch]), if_pos (by simp [hup, h0])]

theorem State.failImage_leaves (hx : s.slot n = some x) (off : BitVec 32) (st : Status) (why : BitVec 4) :
    (s.failImage n off st why).completed n x st (why.setWidth 32) ∧ (s.failImage n off st why).fsh.writeReason = why ∧
      (s.failImage n off st why).fsh.flash = s.fsh.flash := by
  rw [State.failImage]
  cases s.fsh.update.any (·.failed) <;> exact ⟨State.finish_completed_of_slots hx rfl _ _, rfl, rfl⟩

/-- The start of an operation leaves the stores of the flash and its bytes. -/
theorem State.startOp_fsh (s : State) : ∃ busy wait raised,
    s.startOp.fsh = { s.fsh with busy := busy, waitFrom := wait, waitRaised := raised } := by
  unfold State.startOp
  split
  · exact ⟨_, _, _, rfl⟩
  · split
    · exact ⟨_, _, _, rfl⟩
    · split
      · exact ⟨true, none, false, State.whenB_keeps
          (P := fun t => t.fsh = { s.fsh with busy := true, waitFrom := none, waitRaised := false })
          (fun _ h => h) rfl⟩
      · exact ⟨_, _, _, rfl⟩

/-- Stores of images join a queue that is empty. -/
theorem State.queueStores_of_empty {xs : List Store} (hs : s.fsh.stores = []) (hb : s.fsh.busy = false) (hv : xs.all Store.view = true) :
    s.queueStores xs = (s.modFsh (fun f => { f with stores := xs })).startOp := by
  rw [State.queueStores]
  simp only [State.modFsh, hs, hb, hv, Bool.false_eq_true, if_false, if_true, List.filter_nil, List.nil_append, List.append_nil]

/-- The stores of the first sector of an image: the erase of the seal's sector, and the sector. -/
def State.firstStores (s : State) (n : Nat) (bs : List Byte) : List Store :=
  [⟨stImage, s.fsh.slotBase s.fsh.writeSlot, [], true, some n⟩, ⟨stImage, s.fsh.image s.fsh.writeSlot, bs, true, some n⟩]

theorem State.imageStores_of_first (hok : s.fsh.headerOk = true) (hbs : bs.length = 4096) : s.imageStores n 0 bs = s.firstStores n bs := by
  have one : List.range (ceilDiv 4096 sector) = [0] := rfl
  simp [State.imageStores, State.firstStores, hok, sectorStores, one, List.take_of_length_le, hbs]

/-- An update begins (R345). -/
def State.beginUpdate (n : Nat) (s : State) : State :=
  (s.modFsh (fun f => { f with update := some ⟨0, false⟩ })).modSlot n (fun y => { y with phase := .waiting, started := s.now })

theorem State.beginUpdate_slot (hx : s.slot n = some x) : (s.beginUpdate n).slot n = some { x with phase := .waiting, started := s.now } :=
  State.modSlot_same (s := s.modFsh (fun f => { f with update := some ⟨0, false⟩ })) hx
    (fun y => { y with phase := .waiting, started := s.now })

theorem State.imageBegin_of_first (hsfdp : s.fsh.sfdpOk = true) (hpatch : s.glb.patch = none) (hlen : 4096 ≤ bs.length)
    (hroom : 4096 ≤ slotSize s.fsh.size - 4096) (hstores : s.fsh.stores = []) (hok : s.fsh.headerOk = true) (hbusy : s.fsh.busy = false) :
    s.imageBegin n 4096 0 false bs = ((s.beginUpdate n).modFsh (fun f => { f with
      stores := s.firstStores n (bs.take 4096) })).startOp := by
  have stores := State.imageStores_of_first (s := s.beginUpdate n) (n := n) (bs := bs.take 4096) hok (by simpa using hlen)
  rw [State.imageBegin, if_neg (by simp [hsfdp, hpatch]), if_neg (by simp; omega), if_neg (by omega)]
  show (if ((s.beginUpdate n).imageStores n 0 (bs.take 4096)).isEmpty = true then _ else
    (s.beginUpdate n).queueStores ((s.beginUpdate n).imageStores n 0 (bs.take 4096))) = _
  rw [stores]
  exact State.queueStores_of_empty (s := s.beginUpdate n) hstores hbusy rfl

theorem exec_patch_of_starts (h : s.starts n x .patch) : exec (.patch n) s = .next (Res.settle n (s.doPatch x.path)) := by
  refine congrArg Host.Outcome.next (State.onSlot_of_starts_unmirrored h rfl ?_)
  simp only [Option.map_some, h.1, Option.getD_some]

theorem State.settle_doPatch (p : CmdPath) : Res.settle n (s.doPatch p) =
    if s.patchResult = 0 then (s.enterPatch p).finish n .success 0 else s.finish n .state s.patchResult := by
  rw [State.doPatch]
  split <;> rfl

/-! Posted pictures (R121, R285). -/

section
variable {p c : BitVec 16} {pt : T48} {att : Bool}

/-- A posted picture takes a place of its stream, and its DMA begins. -/
def State.postPicture (n i at_ : Nat) (p c : BitVec 16) (pt : T48) (att : Bool) (ps : List Byte) (s : State) : State :=
  ((s.modEncS i (fun e => { e with
    posted := e.posted ++ [⟨pt, att, false, some n, s.postDeadline (s.encS i).cfg at_, ⟨p.toNat, c.toNat, ps⟩⟩] })).modSlot n
      (fun y => { y with phase := .waiting, started := s.now })).modHq
        (fun h => { h with dmas := h.dmas ++ [(n, (s.encS i).cfg.pictureBytes p.toNat c.toNat)] })

variable (h : s.starts n x (.encPost i a b p c pt att)) (ho : (s.ctxOf x.path).owns s i = true) (he : (s.encS i).cfg.enabled = true)
  (hin : (s.encS i).cfg.input = none) (hp : p.toNat % 64 = 0) (hc : c.toNat % 64 = 0)
include h ho he hin hp hc

theorem exec_encPost_of_room (hroom : (s.encS i).posted.length < 4) (ps : List Byte) :
    exec (.encPost ⟨n, ps⟩) s = .next (s.postPicture n i x.fetched p c pt att ps) := by
  refine congrArg Host.Outcome.next (State.onSlot_of_starts_unmirrored (y := (_, none)) h rfl (congrArg some ((if_neg (by simp [ho])).trans
    ((if_neg (by simp [he, hin])).trans ((if_neg (by simp [hp, hc])).trans ((if_neg (by omega)).trans ?_))))))
  simp only [h.1, Option.map_some, Option.getD_some]
  rfl

theorem exec_encPost_of_full (hfull : 4 ≤ (s.encS i).posted.length) (ps : List Byte) :
    exec (.encPost ⟨n, ps⟩) s = .next (Res.settle n (s.say .postFull 0)) :=
  congrArg Host.Outcome.next (State.onSlot_of_starts_unmirrored h rfl (congrArg some ((if_neg (by simp [ho])).trans
    ((if_neg (by simp [he, hin])).trans ((if_neg (by simp [hp, hc])).trans (if_pos hfull))))))

end

theorem State.postPicture_slot (hx : s.slot n = some x) (i at_ : Nat) (p c : BitVec 16) (pt : T48) (att : Bool) (ps : List Byte) :
    (s.postPicture n i at_ p c pt att ps).slot n = some { x with phase := .waiting, started := s.now } :=
  State.modSlot_same (s := s.modEncS i _) hx (fun y => { y with phase := .waiting, started := s.now })

theorem State.postPicture_encS (s : State) (n i at_ : Nat) (p c : BitVec 16) (pt : T48) (att : Bool) (ps : List Byte) (j : Nat) :
    (s.postPicture n i at_ p c pt att ps).encS j = (s.modEncS i (fun e => { e with
      posted := e.posted ++ [⟨pt, att, false, some n, s.postDeadline (s.encS i).cfg at_, ⟨p.toNat, c.toNat, ps⟩⟩] })).encS j := rfl

/-! Posted NAL units (R26, R286). -/

theorem State.begins_ready {c : HostCmd} (h : s.begins x c = true) : x.phase = .ready := by
  simp only [State.begins, Bool.and_eq_true, beq_iff_eq] at h
  obtain ⟨⟨⟨⟨⟨-, ready⟩, -⟩, -⟩, -⟩, -⟩ := h
  exact ready

/-- A posted command waits for its DMA. -/
def State.awaitDma (n : Nat) (ls : List Nat) (s : State) : State :=
  s.modSlot n (fun y => { y with phase := .waiting, lens := ls, started := s.now })

theorem exec_decPost_of_starts {e : Bool} {ls : List Nat} (h : s.starts n x (.decPost i a len e)) (ho : (s.ctxOf x.path).owns s i = true)
    (he : (s.decS i).cfg.enabled = true) (hf : (s.decS i).cfg.hostFed = true) (hls : lengthsOk len ls = true)
    (hlen : len ≤ (s.decS i).cfg.queue) : exec (.decPost n ls) s = .next ((s.awaitDma n ls).startPost n i len) := by
  have ready := State.begins_ready h.2.2.1
  show execDecPost n ls s = _
  rw [execDecPost, h.1]
  split
  · rename_i found
    rw [Option.some.inj found] at ready
    exact nomatch ready
  · exact congrArg Host.Outcome.next (State.onSlot_of_starts_unmirrored (y := (_, none)) h rfl (congrArg some ((if_neg (by simp [ho])).trans
      ((if_neg (by simp [he, hf])).trans (if_neg (by simp [hls]; omega))))))

/-- The DMA of a DEC_POST begins where no other waits and its bytes fit. -/
theorem State.startPost_of_idle (hx : s.slot n = some x) (hd : s.hq.dmas = []) (hb : s.postBefore i x = false)
    (hfit : (s.decS i).queueUsed + len ≤ (s.decS i).cfg.queue) :
    s.startPost n i len = s.modHq (fun h => { h with dmas := h.dmas ++ [(n, len)] }) := by
  have posted : s.postedBytes i = 0 := by simp [State.postedBytes, hd]
  simp only [State.startPost, hx]
  rw [if_neg (by simp [hb, hd, posted]; omega)]

/-- The slot that begins to wait is behind no other. -/
theorem State.postBefore_awaitDma {ls : List Nat} (h : ∀ y ∈ s.hq.slots, y.2.phase ≠ .waiting ∧ (y.1 = n → y.2 = x)) :
    (s.awaitDma n ls).postBefore i { x with phase := .waiting, lens := ls, started := s.now } = false := by
  simp only [State.postBefore, State.awaitDma, State.modSlot, State.modHq_hq, List.any_map, List.any_eq_false]
  intro y hy
  obtain ⟨idle, mine⟩ := h y hy
  by_cases hn : y.1 = n
  · simp [hn, mine hn]
  · simp [hn, idle]

/-! The end of a DMA (R282, R285, R286). -/

/-- The DMAs of slot `n` are over. -/
def State.dropDmas (n : Nat) (s : State) : State := s.modHq (fun h => { h with dmas := h.dmas.filter (fun d => d.1 != n) })

theorem exec_hostDmaDone_slot (hx : s.slot n = some x) (hw : x.phase = .waiting) (hd : (n, k) ∈ s.hq.dmas) (good : Bool) :
    exec (.hostDmaDone (.slot n) good) s = .next ((if good then (s.dropDmas n).dmaGood n x else (s.dropDmas n).dmaBad n x).modSlot n
      (fun y => { y with out := [] })) := by
  have found : s.hq.dmas.any (fun d => d.1 == n) = true := List.any_eq_true.mpr ⟨_, hd, beq_self_eq_true n⟩
  refine congrArg Host.Outcome.next (show s.slotDma n good = _ from ?_)
  simp only [State.slotDma, hx]
  rw [if_neg (by simp [hw, found]), State.dropDmas]

theorem State.dmaGood_of_identify (hc : x.cmd = some (.identify a len)) (ho : x.out = []) :
    s.dmaGood n x = s.finish n .success x.result := by
  rw [State.dmaGood, hc, ho]
  rfl

theorem State.dmaBad_of_decPost {e : Bool} (hc : x.cmd = some (.decPost i a len e)) : s.dmaBad n x = s.finish n .hostDma 0 := by
  rw [State.dmaBad, hc]

/-! Pictures and tile states (R121, R282 to R284). -/

theorem DecStream.pictureFor_of_shown {d : DecStream} (h : d.shown = some k) : d.pictureFor 0xFFFFFFFF = .ok (d.frame k) := by
  simp only [DecStream.pictureFor, if_true, h]

theorem DecStream.pictureFor_of_none {d : DecStream} (h : d.shown = none) : d.pictureFor 0xFFFFFFFF = .error .state := by
  simp only [DecStream.pictureFor, if_true, h]

section
variable {p c : BitVec 16} (h : s.starts n x (.frameRead i a b len 0xFFFFFFFF p c)) (ho : (s.ctxOf x.path).owns s i = true)
  (hp : p.toNat % 64 = 0) (hc : c.toNat % 64 = 0)
  (hlen : p.toNat * (s.decS i).grid.height + 2 * (c.toNat * (s.decS i).chromaSize.2) ≤ len)
include h ho hp hc hlen

theorem exec_frameRead_of_none (hn : (s.decS i).shown = none) (bad : Bool) :
    exec (.frameRead ⟨n, bad⟩) s = .next (Res.settle n (s.say .state 0)) := by
  refine congrArg Host.Outcome.next (State.onSlot_of_starts_unmirrored h rfl (congrArg some ((if_neg (by simp [ho])).trans
    ((if_neg (by omega)).trans ?_))))
  rw [DecStream.pictureFor_of_none hn]

theorem exec_frameRead_of_shown (hk : (s.decS i).shown = some k) : exec (.frameRead ⟨n, false⟩) s = .next (Res.settle n
    (s.sendOut n 0 (((s.decS i).frame k).planes (s.decS i) a.toNat b.toNat p.toNat c.toNat))) := by
  refine congrArg Host.Outcome.next (State.onSlot_of_starts_unmirrored h rfl (congrArg some ((if_neg (by simp [ho])).trans
    ((if_neg (by omega)).trans ?_))))
  rw [DecStream.pictureFor_of_shown hk]
  rfl

end

theorem planeRows_bytes (a pitch w h : Nat) (get : Nat → Nat → Nat) :
    ((planeRows a pitch w h get).map (fun o => o.2.length)).sum = h * (w * 2) := by
  simp [planeRows, List.map_map, Function.comp_def, List.length_flatMap, length_leBytes]

/-- A picture has bytes. -/
theorem FrameBuf.planes_bytes (f : FrameBuf) {d : DecStream} (hw : 0 < d.grid.width) (hh : 0 < d.grid.height) (a b pitch cpitch : Nat) :
    ((f.planes d a b pitch cpitch).map (fun o => o.2.length)).sum ≠ 0 := by
  have luma : 0 < d.grid.height * (d.grid.width * 2) := by positivity
  simp only [FrameBuf.planes, List.map_append, List.sum_append, planeRows_bytes]
  omega

section
variable (h : s.starts n x (.ledgerRead i a len)) (ho : (s.ctxOf x.path).owns s i = true)
  (hlen : 16 * ((s.decS i).cols * (s.decS i).rowsN) ≤ len)
include h ho hlen

theorem exec_ledgerRead_of_good : exec (.ledgerRead ⟨n, false⟩) s = .next (Res.settle n (s.sendOut n 0 [(a.toNat,
    wordBytes ((List.range ((s.decS i).cols * (s.decS i).rowsN)).flatMap (fun k => (List.range 4).map (s.tile i k).word)))])) :=
  congrArg Host.Outcome.next (State.onSlot_of_starts_unmirrored h rfl (congrArg some ((if_neg (by simp [ho])).trans
    ((if_neg (by omega)).trans (if_neg Bool.false_ne_true)))))

theorem exec_ledgerRead_of_bad : exec (.ledgerRead ⟨n, true⟩) s = .next (Res.settle n (s.say .deviceMemory 0)) :=
  congrArg Host.Outcome.next (State.onSlot_of_starts_unmirrored h rfl (congrArg some ((if_neg (by simp [ho])).trans
    ((if_neg (by omega)).trans (if_pos rfl)))))

end

end Sys2Proof.Machine
end

section
/-! PROOF. The pages of output queues, function-level reset and in-band messages (R261, R278, R288 to R295), and with them the commands that
carry data. -/

namespace Sys2Proof

theorem Tbl.mem_of_look_ne {α : Type} {t : Tbl α} {d : α} {i : Nat} (h : t.look d i ≠ d) : (i, t.look d i) ∈ t := by
  induction t with
  | nil => exact absurd rfl h
  | cons p r ih =>
    obtain ⟨j, y⟩ := p
    by_cases hj : j = i
    · simp [Tbl.look, hj]
    · simp only [Tbl.look, hj, if_false] at h ⊢
      exact List.mem_cons_of_mem _ (ih h)

end Sys2Proof

namespace Sys2Proof.Machine

variable {s : State} {n i q fn : Nat} {x : Slot} {p : Page} {m : Datagram}

/-! Pages (R288 to R290). -/

theorem exec_pagePost (q : Nat) (ws : List Word) : exec (.pagePost q ws) s = execPagePost q ws s := rfl
theorem exec_pageFlushTimeout (i : Nat) : exec (.pageFlushTimeout i) s = execPageFlushTimeout i s := rfl

theorem State.fillPage_of_unstaged (h : (s.encS i).staged = []) : s.fillPage i = s := by
  simp only [State.fillPage, h]
  cases (s.encS i).page <;> rfl

/-- In a drop whose restart is asked for, a page starts empty (R290). -/
theorem State.startPage_of_asked (hd : (s.encS i).dropping = true) (hr : (s.encS i).resumeReq = true) (hs : (s.encS i).staged = [])
    (addr : BitVec 64) (cid sqHead : BitVec 16) : s.startPage i addr cid sqHead =
      s.modEncS i (fun e => { e with page := some ⟨addr, cid, sqHead, 0, false, false, 0, none, s.now⟩ }) := by
  simp only [State.startPage, State.modEncS_same, hd, hr, Bool.not_true, Bool.and_false, Bool.false_eq_true, if_false]
  exact State.fillPage_of_unstaged (by rw [State.modEncS_same]; exact hs)

/-- An entry of queue `q` is fetched (R288). -/
def State.fetchPage (q : Nat) (s : State) : State :=
  s.modHqQ q (fun y => { y with sqHead := ((s.hqQ q).sqHead + 1) % (s.hqQ q).sqSize, inExec := y.inExec + 1 })

theorem State.fetchPage_same (s : State) (q : Nat) : (s.fetchPage q).hqQ q =
    { s.hqQ q with sqHead := ((s.hqQ q).sqHead + 1) % (s.hqQ q).sqSize, inExec := (s.hqQ q).inExec + 1 } :=
  State.modHqQ_same s q (fun y => { y with sqHead := ((s.hqQ q).sqHead + 1) % (s.hqQ q).sqSize, inExec := y.inExec + 1 })

@[simp] theorem State.modEncS_hqQ (s : State) (i : Nat) (f : EncStream → EncStream) (q : Nat) : (s.modEncS i f).hqQ q = s.hqQ q := rfl

theorem exec_pagePost_of_wanted {ws : List Word} (hf : s.fetching q = true) (hv : (s.hqQ q).valid = true) (hk : (s.hqQ q).kind = .output)
    (hne : (s.hqQ q).sqHead ≠ (s.hqQ q).sqTail) (hw : (s.encS (s.hqQ q).stream).wantsPage = true) (hok : pageBad ws = none) :
    exec (.pagePost q ws) s = .next ((s.fetchPage q).startPage (s.hqQ q).stream (entryWord ws 3 ++ entryWord ws 2)
      ((entryWord ws 0).extractLsb' 16 16) (BitVec.ofNat 16 (((s.hqQ q).sqHead + 1) % (s.hqQ q).sqSize))) := by
  rw [exec_pagePost, execPagePost, if_neg (by simp [hf, hv, hk, hne, hw])]
  simp only [hok]
  rfl

theorem State.pageEntry_of_no_queue (h : s.outQueue i = none) : s.pageEntry i = s := by
  rw [State.pageEntry, h]
  split
  · rename_i hq
    exact nomatch hq
  · rfl

/-- A page that holds bytes is completed, and waits where it has no queue. -/
theorem State.pageDone_of_filled (hp : (s.encS i).page = some p) (hd : p.done = none) (hf : p.filled ≠ 0) (hq : s.outQueue i = none)
    (st : Status) : s.pageDone i st = s.modEncS i (fun e => { e with page := some { p with done := some st } }) := by
  rw [State.pageDone, hp]
  simp only
  rw [if_neg (by simp [hd, hf])]
  exact State.pageEntry_of_no_queue hq

/-- A page that is complete, or holds no byte, stays as it is. -/
theorem State.pageDone_of_idle (hp : (s.encS i).page = some p) (h : p.done.isSome = true ∨ p.filled = 0) (st : Status) :
    s.pageDone i st = s := by
  rw [State.pageDone, hp]
  simp only
  rw [if_pos (by simpa using h)]

theorem exec_pageFlushTimeout_of_due (hp : (s.encS i).page = some p) (hd : p.done = none) (hf : p.filled ≠ 0) (hq : s.outQueue i = none)
    (hlate : p.last + s.hq.pageFlush * 1000 ≤ s.now) :
    exec (.pageFlushTimeout i) s = .next (s.modEncS i (fun e => { e with page := some { p with done := some .success } })) := by
  rw [exec_pageFlushTimeout, execPageFlushTimeout, if_pos (by simpa [hp] using hlate), State.pageDone_of_filled hp hd hf hq]

theorem exec_pageFlushTimeout_of_empty (hp : (s.encS i).page = some p) (hf : p.filled = 0) : exec (.pageFlushTimeout i) s = .next s := by
  rw [exec_pageFlushTimeout, execPageFlushTimeout, State.pageDone_of_idle hp (.inr hf), ite_self]

/-- A drop begins behind a page that is complete: every staged picture that no page has begun is discarded. -/
theorem State.beginDrop_encS (hp : (s.encS i).page = some p) (hd : p.done.isSome = true) (hn : (s.encS i).dropping = false) :
    ((s.beginDrop i).encS i).page = some p ∧ ((s.beginDrop i).encS i).dropping = true ∧
      ((s.beginDrop i).encS i).staged = (s.encS i).staged.filter (·.begun) := by
  rw [State.beginDrop, if_neg (by simp [hn]), State.pageDone_of_idle hp (.inl hd)]
  rw [State.encS_congr (State.limited_keeps (keeps_enc (by decide)) (fun _ => State.raiseP_keeps (keeps_enc (by decide))) rfl),
    State.modEncS_same]
  exact ⟨hp, rfl, rfl⟩

/-- The bytes of a page whose DMA failed are free values (R289). -/
def State.spoilPage (p : Page) (s : State) : State :=
  (s.hostWrite p.addr.toNat ((List.range p.filled).map (fun j => (Config.freeWord (s.freeCtr + j)).setWidth 8))).modFreeCtr (· + p.filled)

theorem exec_hostDmaDone_page_bad (hp : (s.encS i).page = some p) (hd : p.done = none) (hf : p.filled ≠ 0) (hq : s.outQueue i = none) :
    exec (.hostDmaDone (.page i) false) s =
      .next (((s.spoilPage p).modEncS i (fun e => { e with page := some { p with done := some .hostDma } })).beginDrop i) := by
  refine congrArg Host.Outcome.next (show s.pageFail i = _ from ?_)
  rw [State.pageFail, hp]
  simp only
  rw [if_neg (by simp [hd, hf])]
  exact congrArg _ (State.pageDone_of_filled (s := s.spoilPage p) hp hd hf hq .hostDma)

/-! Function-level reset (R291). -/

theorem State.latch_hq (s : State) (k : Nat) : (s.latch k).hq = s.hq := rfl

theorem State.raiseFn_hq (s : State) (fn : Nat) (id : EventId) (items : List Item) : (s.raiseFn fn id items).hq = s.hq :=
  State.raiseFn_keeps (keeps_hq (by decide)) rfl

theorem State.raiseFn_irc (s : State) (fn : Nat) (id : EventId) (items : List Item) : (s.raiseFn fn id items).irc = s.irc :=
  State.raiseFn_keeps (keeps_irc (by decide)) rfl

theorem exec_functionLevelReset_of_vf (hr : s.glb.inReset = false) (hup : s.hq.up = true) (h1 : 1 ≤ fn) (h8 : fn ≤ 8) :
    exec (.functionLevelReset fn) s = .next (((s.resetFn fn).latch 200).raiseFn fn .hqFlr [i16 fn]) := by
  refine congrArg Host.Outcome.next ((if_neg (by simp [hr, hup, h8])).trans ?_)
  rw [if_neg (by omega)]

/-- The queues of a function. -/
def State.queuesOf (s : State) (fn : Nat) : List Nat := (s.hq.queues.filter (fun q => q.2.valid && q.2.func.toNat == fn)).map (·.1)

theorem State.mem_queuesOf (hv : (s.hqQ q).valid = true) (hf : (s.hqQ q).func.toNat = fn) : q ∈ s.queuesOf fn := by
  have listed : (q, s.hqQ q) ∈ s.hq.queues := Tbl.mem_of_look_ne fun h => by
    rw [State.hqQ, h] at hv
    exact nomatch hv
  exact List.mem_map.mpr ⟨_, List.mem_filter.mpr ⟨listed, by simp [hv, hf]⟩, rfl⟩

/-- The vectors of a function are masked. -/
def State.maskFn (fn : Nat) (s : State) : State :=
  s.modHq (fun h => { h with msixMask := h.msixMask.filter (fun v => !(fnVectors fn).contains v) ++ fnVectors fn })

theorem State.semBreakOwners_hq (s : State) (p : BitVec 9 → Bool) : (s.semBreakOwners p).hq = s.hq :=
  State.semBreakOwners_keeps (P := fun t => t.hq = s.hq) (keeps_hq (by decide)) rfl

/-- What a reset leaves of the host's side: the function's queues removed and its vectors masked. -/
theorem State.resetFn_hq (s : State) (fn : Nat) : ∃ t : State, (s.resetFn fn).hq = ((t.each (s.queuesOf fn) State.removeQueue).maskFn fn).hq :=
  ⟨_, State.semBreakOwners_hq _ _⟩

theorem State.each_removeQueue_of_mem {qs : List Nat} (h : q ∈ qs) : (s.each qs State.removeQueue).hqQ q = HqQueue.reset := by
  refine State.each_of_mem (P := fun t => t.hqQ q = HqQueue.reset) h (fun t => t.removeQueue_same q) fun r t ht => ?_
  by_cases hr : r = q
  · rw [hr, State.removeQueue_same]
  · rwa [State.removeQueue_other _ hr]

/-! In-band messages (R261, R278, R294, R295). -/

/-- The in-band slots that are free (R278). -/
def State.freeInBand (s : State) : List Nat := ((List.range 16).map (16 + ·)).filter (fun i => (s.slot i).isNone)

theorem State.freeInBand_length_of_none (h : s.hq.slots = []) : s.freeInBand.length = 16 := by
  simp [State.freeInBand, State.slot, h]

section
variable (hup : s.linksUp = true)
include hup

theorem exec_supervisoryMessage_of_unread (hu : s.rxUnread 1 = true) (m : Datagram) : exec (.supervisoryMessage m) s = .next (s.rxTake 1) :=
  congrArg Host.Outcome.next ((if_neg (by simp [hup])).trans (if_pos hu))

variable (hu : s.rxUnread 1 = false)
include hu

theorem exec_supervisoryMessage_of_bad (hm : s.msgOk m.bytes = false) :
    exec (.supervisoryMessage m) s = .next ((s.rxTake 1).authFail m) :=
  congrArg Host.Outcome.next ((if_neg (by simp [hup])).trans ((if_neg (by simp [hu])).trans (if_pos (by simp [hm]))))

theorem exec_supervisoryMessage_of_few (hm : s.msgOk m.bytes = true)
    (hfew : s.freeInBand.length < msgCount m.bytes) :
    exec (.supervisoryMessage m) s = .next s :=
  congrArg Host.Outcome.next ((if_neg (by simp [hup])).trans ((if_neg (by simp [hu])).trans ((if_neg (by simp [hm])).trans (if_pos hfew))))

theorem exec_supervisoryMessage_of_room (hm : s.msgOk m.bytes = true)
    (hroom : msgCount m.bytes ≤ s.freeInBand.length) :
    exec (.supervisoryMessage m) s = .next (((s.rxTake 1).takeMsg m).wakeBy false) :=
  congrArg Host.Outcome.next ((if_neg (by simp [hup])).trans ((if_neg (by simp [hu])).trans ((if_neg (by simp [hm])).trans
    (if_neg (Nat.not_lt.mpr hroom)))))

end

theorem State.rxTake_hq (s : State) (q : Nat) : (s.rxTake q).hq = s.hq := State.rxTake_keeps (keeps_hq (by decide)) rfl

/-- A message that fails its test is counted and reported, and no more. -/
theorem State.authFail_leaves (s : State) (m : Datagram) :
    (s.authFail m).hq = { s.hq with authFail := satInc s.hq.authFail } ∧ 199 ∈ (s.authFail m).irc.latch := by
  have log {P : State → Prop} (u : Keeps [.log] P) (h : P ((s.modHq (fun h => { h with authFail := satInc h.authFail })).latch 199)) :
      P (s.authFail m) := State.limited_keeps u (fun _ => State.raise_keeps u) h
  refine ⟨log (keeps_hq (s := s.modHq (fun h => { h with authFail := satInc h.authFail })) (by decide)) rfl, ?_⟩
  rw [log (keeps_irc (by decide)) rfl]
  exact State.latch_mem _ _

/-- The bound of a message's entries, and its key. -/
theorem State.msgOk_bounds {bs : List Byte} (h : s.msgOk bs = true) :
    msgCount bs ≤ 16 ∧ ∃ k, s.hq.keys.look none (msgKey bs) = some k := by
  simp only [State.msgOk, Bool.and_eq_true, decide_eq_true_eq] at h
  obtain ⟨⟨⟨⟨⟨-, -⟩, -, count⟩, -⟩, -⟩, key⟩ := h
  refine ⟨count, Option.ne_none_iff_exists'.mp fun hn => ?_⟩
  rw [hn] at key
  exact nomatch key

/-- A message is kept for its reply, and its counter is that of its key. -/
def State.noteMsg (m : Datagram) (ns : List Nat) (s : State) : State :=
  s.modHq (fun h => { h with
    keys := h.keys.upd none (msgKey m.bytes) (Option.map (fun x => { x with counter := msgCounter m.bytes }))
    msgs := h.msgs ++ [⟨msgKey m.bytes, m.sender, m.port, m.bytes.take 12, ns.map some, List.replicate ns.length []⟩] })

/-- Entries that come in band take their slots. -/
def State.takeEntries (k : Nat) (xs : List (Nat × List Word)) (s : State) : State :=
  s.each xs (fun y => State.takeEntry y.1 (.key k) 0 y.2)

theorem State.takeMsg_eq (m : Datagram) (s : State) : s.takeMsg m = (s.noteMsg m (s.freeInBand.take (msgCount m.bytes))).takeEntries
    (msgKey m.bytes) ((s.freeInBand.take (msgCount m.bytes)).zip (msgEntries m.bytes)) := rfl

/-- Each entry takes one slot. -/
theorem State.takeEntries_leaves (k : Nat) (xs : List (Nat × List Word)) (s : State) :
    (s.takeEntries k xs).hq.slots.length = s.hq.slots.length + xs.length ∧ (s.takeEntries k xs).hq.msgs = s.hq.msgs ∧
      (s.takeEntries k xs).hq.keys = s.hq.keys := by
  induction xs generalizing s with
  | nil => exact ⟨rfl, rfl, rfl⟩
  | cons y ys ih =>
    obtain ⟨slots, msgs, keys⟩ := ih (s.takeEntry y.1 (.key k) 0 y.2)
    refine ⟨slots.trans ?_, msgs, keys⟩
    simp only [State.takeEntry, State.modHq_hq, List.length_append, List.length_cons, List.length_nil]
    omega

/-- A message whose entries find their slots free takes one for each, and is kept for its reply. -/
theorem State.takeMsg_leaves (hs : s.hq.slots = []) (hc : msgCount m.bytes ≤ 16) {k : Key}
    (hk : s.hq.keys.look none (msgKey m.bytes) = some k) :
    (s.takeMsg m).hq.slots.length = msgCount m.bytes ∧ (s.takeMsg m).hq.msgs.length = s.hq.msgs.length + 1 ∧
      ((s.takeMsg m).hq.keys.look none (msgKey m.bytes)).map (·.counter) = some (msgCounter m.bytes) := by
  obtain ⟨slots, msgs, keys⟩ := State.takeEntries_leaves (msgKey m.bytes)
    ((s.freeInBand.take (msgCount m.bytes)).zip (msgEntries m.bytes)) (s.noteMsg m (s.freeInBand.take (msgCount m.bytes)))
  rw [State.takeMsg_eq, slots, msgs, keys]
  simp only [State.noteMsg, State.modHq_hq, Tbl.look_upd_same, hk, hs, Option.map_some, List.length_append, List.length_zip, List.length_take,
    State.freeInBand_length_of_none hs, msgEntries, List.length_map, List.length_range, List.length_cons, List.length_nil]
  exact ⟨by omega, trivial, trivial⟩

/-- Settles O32: each command, and each occurrence that acts on slots and pages, by the branch that its hypotheses choose and what that
branch leaves. -/
theorem dataCommands : Obligations.DataCommands := by
  unfold Obligations.DataCommands
  refine ⟨?misplaced, ?first, ?patch, ?post, ?full, ?units, ?dmaGood, ?dmaBad, ?noPicture, ?picture, ?tiles, ?badTiles, ?page,
    fun s i p => exec_pageFlushTimeout_of_due, fun s i p => exec_pageFlushTimeout_of_empty, ?pageBad, ?reset,
    fun s m hup hu => exec_supervisoryMessage_of_unread hup hu m, ?refused, fun s m => exec_supervisoryMessage_of_few, ?message⟩
  case misplaced =>
    intro s n len x a off sealIt bs h hsfdp hpatch hoff hup
    refine ⟨_, exec_imageWrite_of_starts h, ?_⟩
    rw [State.imageBegin_of_misplaced hsfdp hpatch hoff hup]
    exact State.failImage_leaves h.1 off .invalidField 0xB
  case first =>
    intro s n x a bs h hsfdp hpatch hlen hroom hstores hok hbusy
    refine ⟨_, exec_imageWrite_of_starts h, ?_⟩
    rw [State.imageBegin_of_first hsfdp hpatch hlen hroom hstores hok hbusy]
    obtain ⟨busy, wait, raised, hfsh⟩ := State.startOp_fsh ((s.beginUpdate n).modFsh (fun f => { f with
      stores := s.firstStores n (bs.take 4096) }))
    rw [hfsh]
    exact ⟨(State.slot_congr (congrArg Hq.slots (State.startOp_keeps (keeps_hq (by decide)) rfl)) n).trans
      (State.beginUpdate_slot h.1), rfl, rfl, rfl⟩
  case patch =>
    intro s n x h
    rw [exec_patch_of_starts h, State.settle_doPatch]
  case post =>
    intro s n i x a b p c pt att ps h ho he hin hp hc hroom
    refine ⟨_, exec_encPost_of_room h ho he hin hp hc hroom ps, State.postPicture_slot h.1 .., ?_, rfl, fun j hj => ?_⟩
    · rw [State.postPicture_encS, State.modEncS_same]
    · rw [State.postPicture_encS, State.modEncS_other _ _ hj]
  case full =>
    intro s n i x a b p c pt att ps h ho he hin hp hc hfull
    exact ⟨_, exec_encPost_of_full h ho he hin hp hc hfull ps, State.finish_completed h.1 _ _, rfl⟩
  case units =>
    intro s n i len x a e ls h ho he hf hls hdmas hidle hfit
    have waiting : (s.awaitDma n ls).slot n = some { x with phase := .waiting, lens := ls, started := s.now } := State.modSlot_same h.1 _
    refine ⟨_, exec_decPost_of_starts h ho he hf hls (by omega), ?_⟩
    rw [State.startPost_of_idle waiting hdmas (State.postBefore_awaitDma hidle) hfit]
    exact ⟨waiting, congrArg (· ++ [(n, len)]) hdmas, rfl⟩
  case dmaGood =>
    intro s n k x a len hx hc hw hd ho
    refine ⟨_, exec_hostDmaDone_slot hx hw hd true, ?_⟩
    rw [if_pos rfl, State.dmaGood_of_identify hc ho]
    refine ⟨(State.modSlot_same (State.finish_completed_of_slots (t := s.dropDmas n) hx rfl _ _) _).trans ?_, rfl, rfl⟩
    rw [ho]
  case dmaBad =>
    intro s n k i len x a e hx hc hw hd
    refine ⟨_, exec_hostDmaDone_slot hx hw hd false, ?_⟩
    rw [if_neg Bool.false_ne_true, State.dmaBad_of_decPost hc]
    exact ⟨State.modSlot_same (State.finish_completed_of_slots (t := s.dropDmas n) hx rfl _ _) _, rfl, rfl⟩
  case noPicture =>
    intro s n i len x a b d p c bad h ho hp hc hlen hd hnone
    subst hd
    exact ⟨_, exec_frameRead_of_none h ho hp hc hlen hnone bad, State.finish_completed h.1 _ _⟩
  case picture =>
    intro s n i len k x a b d p c h ho hp hc hlen hd hk hw hh
    subst hd
    obtain ⟨slot, -⟩ := State.settle_sendOut h.1 rfl (FrameBuf.planes_bytes ((s.decS i).frame k) hw hh a.toNat b.toNat p.toNat c.toNat) 0
    exact ⟨_, exec_frameRead_of_shown h ho hp hc hlen hk, slot⟩
  case tiles =>
    intro s n i len x a h ho hlen h0
    obtain ⟨slot, -⟩ := State.settle_sendOut (s := s) (k := 16 * ((s.decS i).cols * (s.decS i).rowsN)) (out := [(a.toNat, wordBytes
      ((List.range ((s.decS i).cols * (s.decS i).rowsN)).flatMap (fun k => (List.range 4).map (s.tile i k).word)))]) h.1
      (by simp [length_wordBytes, List.length_flatMap]; omega) (by omega) 0
    exact ⟨_, exec_ledgerRead_of_good h ho hlen, slot⟩
  case badTiles =>
    intro s n i len x a h ho hlen
    exact ⟨_, exec_ledgerRead_of_bad h ho hlen, State.finish_completed h.1 _ _, rfl⟩
  case page =>
    rintro s q i ws hf hv hk hne rfl hpage hdrop hreq hstaged hok
    refine ⟨_, exec_pagePost_of_wanted hf hv hk hne (by simp [EncStream.wantsPage, hpage, hdrop]) hok, ?_⟩
    rw [State.startPage_of_asked (s := s.fetchPage q) hdrop hreq hstaged, State.modEncS_same, State.modEncS_hqQ,
      State.fetchPage_same]
    exact ⟨rfl, rfl, rfl⟩
  case pageBad =>
    intro s i p hp hd hf hq hn
    obtain ⟨page, dropping, staged⟩ := State.beginDrop_encS
      (s := (s.spoilPage p).modEncS i (fun e => { e with page := some { p with done := some .hostDma } })) (i := i)
      (by rw [State.modEncS_same]) rfl (by rw [State.modEncS_same]; exact hn)
    refine ⟨_, exec_hostDmaDone_page_bad hp hd hf hq, page, dropping, fun x hx => ?_⟩
    rw [staged] at hx
    exact (List.mem_filter.mp hx).2
  case reset =>
    intro s fn hr hup h1 h8
    obtain ⟨t, ht⟩ := s.resetFn_hq fn
    have hq : (((s.resetFn fn).latch 200).raiseFn fn .hqFlr [i16 fn]).hq = ((t.each (s.queuesOf fn) State.removeQueue).maskFn fn).hq := by
      rw [State.raiseFn_hq, State.latch_hq, ht]
    refine ⟨_, exec_functionLevelReset_of_vf hr hup h1 h8, ?_, fun q hv hf => ?_, fun v hv => ?_⟩
    · rw [State.raiseFn_irc]
      exact State.latch_mem _ _
    · exact (State.hqQ_congr (congrArg Hq.queues hq) q).trans (State.each_removeQueue_of_mem (State.mem_queuesOf hv hf))
    · rw [hq]
      exact List.mem_append_right _ hv
  case refused =>
    intro s m hup hu hm
    obtain ⟨hq, latched⟩ := (s.rxTake 1).authFail_leaves m
    rw [State.rxTake_hq] at hq
    refine ⟨_, exec_supervisoryMessage_of_bad hup hu hm, ?_⟩
    rw [hq]
    exact ⟨rfl, latched, rfl, rfl⟩
  case message =>
    intro s m hup hu hm hslots
    obtain ⟨hc, k, hk⟩ := State.msgOk_bounds hm
    have taken : (s.rxTake 1).hq = s.hq := s.rxTake_hq 1
    obtain ⟨slots, msgs, keys⟩ := State.takeMsg_leaves (s := s.rxTake 1) (by rwa [taken]) hc (by rwa [taken])
    refine ⟨_, exec_supervisoryMessage_of_room hup hu hm (by rwa [State.freeInBand_length_of_none hslots]), ?_⟩
    rw [← taken, show (((s.rxTake 1).takeMsg m).wakeBy false).hq = ((s.rxTake 1).takeMsg m).hq from
      State.wakeBy_keeps (keeps_hq (by decide)) rfl]
    exact ⟨slots, msgs, keys⟩

end Sys2Proof.Machine
end

section
/-! PROOF. The starvation of background work, and the tokens of the Bellows (R306, R307, R315 to R318, R320). -/

namespace Sys2Proof.Machine

variable {s : State} {rail who w : Nat} {q : TokReq} {rest : List TokReq}

/-! The commands of the Bellows. -/

section
variable (s)

theorem exec_starvationStep (w : Nat) : exec (.starvationStep w) s = execStarvationStep w s := rfl
theorem exec_urgentCapWindow (w : Nat) : exec (.urgentCapWindow w) s = execUrgentCapWindow w s := rfl
theorem exec_bellowsRequest (rail : Nat) (k : ReqKind) (lv : Level) (who : Nat) :
    exec (.bellowsRequest rail k lv who) s = execBellowsRequest rail k lv who s := rfl
theorem exec_bellowsGrant (rail : Nat) : exec (.bellowsGrant rail) s = execBellowsGrant rail s := rfl
theorem exec_bellowsRelease (rail : Nat) (k : ReqKind) (who : Nat) :
    exec (.bellowsRelease rail k who) s = execBellowsRelease rail k who s := rfl
theorem exec_bellowsDeny (rail who : Nat) : exec (.bellowsDeny rail who) s = execBellowsDeny rail who s := rfl
theorem exec_blwSlow (rail core : Nat) : exec (.blwSlow rail core) s = execBlwSlow rail core s := rfl

end

/-! Background work (R306, R307). -/

/-- What is noted of the starvation of a work class. -/
def State.starve (s : State) (w : Nat) : Starve := s.blw.starve.look Starve.reset w

/-- A work class has `x` noted of it. -/
def State.setStarve (w : Nat) (x : Starve) (s : State) : State :=
  s.modBlw (fun b => { b with starve := b.starve.put Starve.reset w x })

theorem State.setStarve_same (x : Starve) : (s.setStarve w x).starve w = x :=
  Tbl.look_put_same _ _ _ _

theorem State.setStarve_other {v : Nat} (x : Starve) (h : w ≠ v) : (s.setStarve w x).starve v = s.starve v :=
  Tbl.look_put_other _ _ _ h

theorem State.starve_congr {t : State} (h : t.blw = s.blw) (v : Nat) : t.starve v = s.starve v := by
  rw [State.starve, State.starve, h]

/-- A class that is one level up since now. -/
def Starve.risen (now : Nat) (x : Starve) : Starve := { x with steps := x.steps + 1, since := now }

/-- The rise to URGENT is an event, which changes the log alone (R306). -/
theorem exec_starvationStep_of_due (serving : s.serving = true) (hw : w < 27) (pending : s.workPending w = true)
    (below : (s.starve w).steps < 3) (due : (s.starve w).since + s.blw.ageStep * ms ≤ s.now) :
    ∃ t, exec (.starvationStep w) s = .next t ∧ t.blw = (s.setStarve w ((s.starve w).risen s.now)).blw := by
  have acts : (!s.serving || decide (26 < w) || !s.workPending w || decide (3 ≤ (s.starve w).steps) ||
      decide (s.now < (s.starve w).since + s.blw.ageStep * ms)) = false := by
    simp [serving, pending, Nat.le_of_lt_succ hw, below, due]
  refine ⟨_, rfl, ?_⟩
  dsimp only
  rw [← State.starve, acts, if_neg Bool.false_ne_true]
  refine ite_keeps (P := fun t => t.blw = (s.setStarve w ((s.starve w).risen s.now)).blw) ?_ rfl
  exact (State.limited_raise_frame ..).2 .blw (by decide)

theorem exec_urgentCapWindow_of_urgent (h : s.workLevel w = .urgent) :
    exec (.urgentCapWindow w) s = .next (s.setStarve w { s.starve w with capped := some s.now }) := by
  rw [exec_urgentCapWindow, execUrgentCapWindow]
  exact congrArg ok (if_pos h)

/-- A class at its cap competes at BACKGROUND for the rest of the window (R307). -/
theorem State.workLevel_capped (x : Starve) : (s.setStarve w { x with capped := some s.now }).workLevel w = .background := by
  have window : s.now < s.now + 10 * ms := Nat.lt_add_of_pos_right (by decide)
  unfold State.workLevel
  rw [← State.starve, State.setStarve_same]
  exact if_pos (decide_eq_true window)

theorem State.workLevel_setStarve_other {v : Nat} (x : Starve) (h : w ≠ v) : (s.setStarve w x).workLevel v = s.workLevel v := by
  unfold State.workLevel
  rw [← State.starve, ← State.starve, State.setStarve_other x h]
  rfl

/-! Requests and releases (R315, R317, R320). -/

theorem exec_bellowsRequest_wake (running : s.running = true) (hr : rail < 4) (bay : who / 8 = rail) (hf : (s.core who).fenced = false)
    (empty : (s.rail rail).queue = []) (lv : Level) : exec (.bellowsRequest rail .wake lv who) s = .next (s.modRail rail (fun r =>
      { r with queue := insertReq ⟨.wake, s.wakeLevel who, who, s.now, s.tokenCost .wake, false⟩ r.queue })) := by
  have fits : (s.running && (decide (who / 8 = rail) && decide (rail < 4) && !(s.core who).fenced)) = true := by
    simp [running, hr, bay, hf]
  have new : ¬ (decide (5 ≤ rail) || (s.rail rail).queue.any (fun q => q.kind == .wake && q.requester == who)) = true := by
    simp [empty]
    omega
  rw [exec_bellowsRequest, execBellowsRequest]
  dsimp only
  rw [if_pos fits, State.askTokens, if_neg new]
  rfl

/-- The tokens of the one operation that holds tokens on a rail are all released. -/
theorem State.freeTokens_of_single {k : ReqKind} {cost : Nat} (h : (s.rail rail).grants = [(k, who, cost)]) :
    (s.freeTokens rail k who).rail rail = { s.rail rail with held := (s.rail rail).held - cost, grants := [] } := by
  rw [State.freeTokens, State.modRail_same]
  simp [h]

/-! Grants (R316, R317). -/

/-- The head of a queue can be granted: the Bellows is not fenced, and the limit and the ramp bucket have room for its cost. -/
theorem State.mayGrant_iff (head : (s.rail rail).queue = q :: rest) : s.mayGrant rail = true ↔
    s.blw.fenced = false ∧ (s.rail rail).held + q.cost ≤ (s.rail rail).limit.toNat ∧
      q.cost * 1000 ≤ ((s.rail rail).refill s.now).bucket := by
  have refilled : ((s.rail rail).refill s.now).queue = q :: rest := head
  rw [State.mayGrant]
  rw [refilled]
  simp only [Bool.and_eq_true, Bool.not_eq_true', decide_eq_true_eq, and_assoc]
  rfl

/-- A rail as its head `q` is granted: its tokens are held, and taken from the bucket. -/
def Rail.grant (now : Nat) (q : TokReq) (rest : List TokReq) (r : Rail) : Rail :=
  let wait := satNat 16 ((now - q.arrived) / 10)
  { r.refill now with
    queue := rest, held := r.held + q.cost, bucket := (r.refill now).bucket - q.cost * 1000
    grants := r.grants ++ [(q.kind, q.requester, q.cost)], maxWait := if r.maxWait < wait then wait else r.maxWait }

/-- A core knows that its wake has been granted. -/
def CoreS.wakeGranted (now : Nat) (x : CoreS) : CoreS := { x with granted := true, grantAt := max now x.entered }

/-- The requester of what is granted begins: a core hears of it by event 35 (R193). -/
def State.beginGranted (q : TokReq) (s : State) : State :=
  match q.kind with
  | .wake => (s.modCore q.requester (CoreS.wakeGranted s.now)).coreEvent q.requester 35
  | .search => s.startBurst q.requester
  | _ => s

theorem exec_bellowsGrant_of_mayGrant (running : s.running = true) (head : (s.rail rail).queue = q :: rest)
    (room : s.mayGrant rail = true) :
    exec (.bellowsGrant rail) s = .next ((s.modRail rail (Rail.grant s.now q rest)).beginGranted q) := by
  have acts : ¬ (!s.running || !s.mayGrant rail) = true := by simp [running, room]
  rw [exec_bellowsGrant, execBellowsGrant, if_neg acts, head]
  rfl

theorem exec_bellowsGrant_of_not_mayGrant (full : s.mayGrant rail = false) : exec (.bellowsGrant rail) s = .next s := by
  rw [exec_bellowsGrant, execBellowsGrant, if_pos (by simp [full])]

/-- A core that is in C0 or C1, or is waking, asks for no tokens when a wake cause reaches it (R210). -/
def CoreS.needsNoGrant (x : CoreS) : Prop := x.pstate = .c0 ∨ x.pstate = .c1 ∨ x.waking = true

section
variable {c : Nat}

theorem State.wakeCore_blw (h : (s.core c).needsNoGrant) : (s.wakeCore c).blw = s.blw := by
  unfold State.wakeCore
  dsimp only
  split
  case isTrue => rfl
  case isFalse asleep =>
    split
    case h_1 => rfl
    case h_2 => rfl
    case h_3 deep shallow =>
      have still : (s.core c).waking = false := by
        simp only [Bool.or_eq_true, not_or, Bool.not_eq_true] at asleep
        exact asleep.2
      rcases h with awake | light | waking
      · exact absurd awake deep
      · exact absurd light shallow
      · exact absurd waking (by simp [still])

theorem CoreS.hears_needsNoGrant {x : CoreS} (h : x.needsNoGrant) (ev now : Nat) : (x.hears ev now).needsNoGrant := by
  obtain ⟨ths, evs, m, heard⟩ := CoreS.hears_eq ev now x
  rwa [heard]

theorem State.coreEvent_blw (h : (s.core c).needsNoGrant) (ev : Nat) : (s.coreEvent c ev).blw = s.blw := by
  refine ite_keeps (P := fun t => t.blw = s.blw) rfl ?_
  refine (State.wakeCore_blw (s := s.modCore c (CoreS.hears ev s.now)) ?_).trans rfl
  rw [State.modCore_same]
  exact CoreS.hears_needsNoGrant h _ _

theorem State.startBurst_blw (h : (s.core c).needsNoGrant) : (s.startBurst c).blw = s.blw := by
  rw [State.startBurst]
  split <;> exact State.coreEvent_blw h 35

/-- An event leaves the wake of a core that is waking as it is. -/
theorem State.coreEvent_of_waking (hc : c < 32) (hf : (s.core c).fenced = false) (hw : (s.core c).waking = true) (ev : Nat) :
    s.coreEvent c ev = s.modCore c (CoreS.hears ev s.now) := by
  obtain ⟨ths, evs, m, heard⟩ := CoreS.hears_eq ev s.now (s.core c)
  rw [State.coreEvent_of_unfenced hc hf, State.wakeCore]
  exact if_pos (by rw [State.modCore_same, heard]; simp [hw])

end

/-- The requester begins without a request for tokens of its own. -/
theorem State.beginGranted_blw (h : q.kind = .wake ∨ q.kind = .search → (s.core q.requester).needsNoGrant) :
    (s.beginGranted q).blw = s.blw := by
  rw [State.beginGranted]
  split
  case h_1 wake =>
    refine (State.coreEvent_blw ?_ 35).trans rfl
    rw [State.modCore_same]
    exact h (.inl wake)
  case h_2 search => exact State.startBurst_blw (h (.inr search))
  case h_3 => rfl

/-- A core that is waking knows of its grant (R210). -/
theorem State.beginGranted_wake (wake : q.kind = .wake) (hc : q.requester < 32) (hf : (s.core q.requester).fenced = false)
    (waking : (s.core q.requester).waking = true) :
    ((s.beginGranted q).core q.requester).granted = true ∧
      ((s.beginGranted q).core q.requester).grantAt = max s.now (s.core q.requester).entered := by
  have told := State.modCore_same s q.requester (CoreS.wakeGranted s.now)
  obtain ⟨ths, evs, m, heard⟩ := CoreS.hears_eq 35 s.now ((s.core q.requester).wakeGranted s.now)
  have begins : s.beginGranted q = (s.modCore q.requester (CoreS.wakeGranted s.now)).coreEvent q.requester 35 := by
    rw [State.beginGranted, wake]
  rw [begins, State.coreEvent_of_waking hc (by rw [told]; exact hf) (by rw [told]; exact waking), State.modCore_same, told,
    show (s.modCore q.requester (CoreS.wakeGranted s.now)).now = s.now from rfl, heard]
  exact ⟨rfl, rfl⟩

/-! Denials and slow wakes (R318). -/

/-- A rail as request `q` is removed and counted as denied. -/
def Rail.deny (q : TokReq) (r : Rail) : Rail := { r with queue := r.queue.erase q, denied := satInc r.denied }

/-- A denial is reported, as is the smaller search of the row that the core codes. -/
def State.reportDenial (rail who : Nat) (s : State) : State :=
  let s := s.limited .blwDenied rail ms (State.raise .blwDenied [i16 rail, i16 2, i16 who])
  match (s.core who).encTask with
  | some i =>
    let p := (s.encS i).pics.headD EncPic.reset
    s.encEvent i p.picCount .encodeSearchReduced [i32 p.done]
  | none => s

theorem State.reportDenial_keeps {P : State → Prop} (l : Keeps [.enc, .log] P) (k : P s) : P (s.reportDenial rail who) := by
  have limited : P (s.limited .blwDenied rail ms (State.raise .blwDenied [i16 rail, i16 2, i16 who])) :=
    State.limited_keeps (l.mono (by decide)) (fun _ k => State.raise_keeps (l.mono (by decide)) k) k
  rw [State.reportDenial]
  dsimp only
  split
  · exact State.encEvent_keeps l limited
  · exact limited

theorem exec_bellowsDeny_of_late (one : (s.rail rail).queue = [q]) (search : q.kind = .search) (mine : q.requester = who)
    (late : q.arrived + 2000 ≤ s.now) : exec (.bellowsDeny rail who) s =
      .next (((s.modRail rail (Rail.deny q)).latch (39 + rail)).reportDenial rail who) := by
  have found : (s.rail rail).queue.find? (fun q => q.kind == .search && q.requester == who && decide (q.arrived + 2000 ≤ s.now)) =
      some q := by simp [one, search, mine, late]
  rw [exec_bellowsDeny, execBellowsDeny]
  dsimp only
  rw [found]
  rfl

/-- A rail as the wait of request `q` is noted as slow. -/
def Rail.noteSlow (q : TokReq) (r : Rail) : Rail :=
  { r with queue := r.queue.map (fun x => if x = q then { x with slowRaised := true } else x) }

theorem exec_blwSlow_of_late (one : (s.rail rail).queue = [q]) (wake : q.kind = .wake) (mine : q.requester = who)
    (first : q.slowRaised = false) (late : q.arrived + 20000 < s.now) : exec (.blwSlow rail who) s =
      .next (((s.modRail rail (Rail.noteSlow q)).latch (39 + rail)).limited .blwSlow rail ms
        (State.raise .blwSlow [i16 rail, i16 who, i32 (s.now - q.arrived)])) := by
  have found : (s.rail rail).queue.find? (fun q => q.kind == .wake && q.requester == who && !q.slowRaised &&
      decide (q.arrived + 20000 < s.now)) = some q := by simp [one, wake, mine, first, late]
  rw [exec_blwSlow, execBlwSlow, found]
  rfl

/-- What is done to a rail besides its report, which leaves the rails and the latches. -/
theorem State.rail_of_report {t : State} {n : Nat} {f : Rail → Rail} (blw : t.blw = ((s.modRail rail f).latch n).blw)
    (irc : t.irc = ((s.modRail rail f).latch n).irc) : t.rail rail = f (s.rail rail) ∧ n ∈ t.irc.latch := by
  refine ⟨(State.rail_congr blw rail).trans (State.modRail_same s rail f), ?_⟩
  rw [irc]
  exact State.latch_mem _ _

/-- Settles O24: a work class by what is noted of its starvation, and each request by the rail that its command leaves; what is reported,
and the core that begins, leave the rails. -/
theorem bellowsCommands : Obligations.BellowsCommands := by
  unfold Obligations.BellowsCommands
  refine ⟨?starved, ?capped, ?request, ?grant, ?full, ?release, ?deny, ?slow⟩
  case starved =>
    intro s w serving hw pending below due
    obtain ⟨t, run, blw⟩ := exec_starvationStep_of_due serving hw pending below due
    have same := (State.starve_congr blw w).trans (State.setStarve_same _)
    exact ⟨t, run, congrArg Starve.steps same, (congrArg Starve.capped same).trans rfl,
      fun v hv => (State.starve_congr blw v).trans (State.setStarve_other _ hv), (congrArg Blw.rails blw).trans rfl⟩
  case capped =>
    intro s w urgent
    exact ⟨_, exec_urgentCapWindow_of_urgent urgent, State.workLevel_capped _, fun v hv => State.workLevel_setStarve_other _ hv⟩
  case request =>
    intro s rail who lv running hr bay hf empty
    refine ⟨_, exec_bellowsRequest_wake running hr bay hf empty lv, ?_⟩
    rw [State.modRail_same, empty]
    exact ⟨rfl, rfl, rfl, fun c => rfl⟩
  case grant =>
    intro s rail q rest running head unfenced awake limit bucket
    have begun := State.beginGranted_blw (s := s.modRail rail (Rail.grant s.now q rest)) awake
    have granted := (State.rail_congr begun rail).trans (State.modRail_same s rail _)
    refine ⟨_, exec_bellowsGrant_of_mayGrant running head ((State.mayGrant_iff head).mpr ⟨unfenced, limit, bucket⟩), ?_⟩
    rw [granted]
    exact ⟨rfl, rfl, rfl, rfl, rfl, fun wake hc hf waking => State.beginGranted_wake wake hc hf waking⟩
  case full =>
    intro s rail q rest head full
    refine exec_bellowsGrant_of_not_mayGrant (Bool.eq_false_iff.mpr fun may => ?_)
    obtain ⟨unfenced, limit, -⟩ := (State.mayGrant_iff head).mp may
    rcases full with above | fenced
    · exact Nat.not_lt.mpr limit above
    · exact absurd fenced (by simp [unfenced])
  case release =>
    intro s rail k who cost single
    refine ⟨_, exec_bellowsRelease s rail k who, ?_⟩
    rw [State.freeTokens_of_single single]
    exact ⟨rfl, rfl, rfl, rfl⟩
  case deny =>
    intro s rail who q one search mine late
    obtain ⟨left, latched⟩ := State.rail_of_report
      (State.reportDenial_keeps (s := (s.modRail rail (Rail.deny q)).latch (39 + rail)) (rail := rail) (who := who)
        (keeps_blw (by decide)) rfl)
      (State.reportDenial_keeps (keeps_irc (by decide)) rfl)
    refine ⟨_, exec_bellowsDeny_of_late one search mine late, ?_⟩
    rw [left, Rail.deny, one, List.erase_cons_head]
    exact ⟨rfl, rfl, rfl, latched⟩
  case slow =>
    intro s rail core q one wake mine first late
    obtain ⟨-, log⟩ := State.limited_raise_frame ((s.modRail rail (Rail.noteSlow q)).latch (39 + rail)) .blwSlow .blwSlow rail ms
      [i16 rail, i16 core, i32 (s.now - q.arrived)]
    obtain ⟨left, latched⟩ := State.rail_of_report (log .blw (by decide)) (log .irc (by decide))
    refine ⟨_, exec_blwSlow_of_late one wake mine first late, ?_, latched⟩
    rw [left, Rail.noteSlow, one, List.map_cons, if_pos rfl, List.map_nil]

end Sys2Proof.Machine
end

section
/-! PROOF. The slots of the flash in the order in which the loader tries them (R336, R337). -/

namespace Sys2Proof.Machine

variable {s : State} {f : Fsh} {b : Bool} {r : List Bool}

/-! Generations and candidates (R336). -/

theorem newer_iff (x y : BitVec 32) : newer x y = true ↔
    1 ≤ (x.toNat + 2 ^ 32 - y.toNat) % 2 ^ 32 ∧ (x.toNat + 2 ^ 32 - y.toNat) % 2 ^ 32 ≤ 2 ^ 31 - 1 := by
  have diff : (x - y).toNat = (x.toNat + 2 ^ 32 - y.toNat) % 2 ^ 32 := by
    rw [BitVec.toNat_sub]
    omega
  have nonzero : x - y ≠ 0 ↔ 1 ≤ (x - y).toNat := by
    rw [Nat.one_le_iff_ne_zero, ne_eq, ne_eq, ← BitVec.toNat_inj]
    rfl
  rw [newer, Bool.and_eq_true, decide_eq_true_eq, decide_eq_true_eq, nonzero, diff]
  omega

theorem Fsh.candidates_of_both (ha : f.sealOk false = true) (hb : f.sealOk true = true) :
    f.candidates = if newer (f.genOf true) (f.genOf false) then [true, false] else [false, true] := by
  rw [Fsh.candidates, ha, hb]
  rfl

theorem Fsh.candidates_of_not_both (h : (f.sealOk false && f.sealOk true) = false) :
    f.candidates = (if f.sealOk false then [false] else []) ++ (if f.sealOk true then [true] else []) := by
  rw [Fsh.candidates, h]
  rfl

/-- The candidates are the slots whose seals are valid, A first or B first. -/
theorem Fsh.candidates_cases (f : Fsh) :
    f.candidates = (if f.sealOk false then [false] else []) ++ (if f.sealOk true then [true] else []) ∨
      f.candidates = (if f.sealOk true then [true] else []) ++ (if f.sealOk false then [false] else []) := by
  cases both : f.sealOk false && f.sealOk true
  case false => exact .inl (Fsh.candidates_of_not_both both)
  case true =>
    obtain ⟨ha, hb⟩ := (Bool.and_eq_true _ _).mp both
    rw [Fsh.candidates_of_both ha hb, ha, hb]
    split
    · exact .inr rfl
    · exact .inl rfl

theorem Fsh.mem_candidates (f : Fsh) (b : Bool) : b ∈ f.candidates ↔ f.sealOk b = true := by
  rcases f.candidates_cases with h | h <;> rw [h] <;> cases b <;> simp

theorem Fsh.candidates_nodup (f : Fsh) : f.candidates.Nodup := by
  rcases f.candidates_cases with h | h <;> rw [h] <;> cases f.sealOk false <;> cases f.sealOk true <;> decide

/-! The candidate in hand (R336, R337). -/

theorem State.nextCandidate_of_cons (h : s.fsh.loader.cands = b :: r) :
    s.nextCandidate = s.modFsh (fun f => { f with loader := { Loader.reset with cands := r, cur := some b } }) := by
  rw [State.nextCandidate, h]

theorem Fsh.setReason_loader (why : BitVec 4) : (f.setReason b why).loader = f.loader := by
  cases b <;> rfl

theorem State.rejectSlot_of_cur (h : s.fsh.loader.cur = some b) (why : BitVec 4) :
    s.rejectSlot why = (s.unload.modFsh (Fsh.setReason b why)).nextCandidate := by
  rw [State.rejectSlot, h]

/-- Settles O53: by the seals that are valid, and by the difference of the generations where both are. -/
theorem slotOrder : Obligations.SlotOrder := by
  unfold Obligations.SlotOrder
  refine ⟨fun f => f.mem_candidates, fun f => f.candidates_nodup, ?order, ?read, ?reject⟩
  case order =>
    intro f ha hb
    rw [Fsh.candidates_of_both ha hb]
    exact ⟨fun h => if_pos ((newer_iff _ _).mpr h), fun h => if_neg (mt (newer_iff _ _).mp h)⟩
  case read =>
    intro s b r h
    rw [State.readSeals, State.nextCandidate_of_cons h]
    exact ⟨rfl, rfl⟩
  case reject =>
    intro s b r c why hcur hcands
    have left : (s.unload.modFsh (Fsh.setReason c why)).fsh.loader.cands = b :: r :=
      (congrArg Loader.cands (Fsh.setReason_loader why)).trans hcands
    rw [State.rejectSlot_of_cur hcur, State.nextCandidate_of_cons left]
    exact ⟨rfl, rfl⟩

end Sys2Proof.Machine
end

section
/-! PROOF. The PATTERN record (R333): the cores of a role that ROLES names take it, ROLES being byte 0 of the payload. -/

namespace Sys2Proof.Machine

variable {s : State} {b : Bool} {a c : Nat}

/-- The cores of the roles named take the payload at `a` as bank A. -/
def State.takePattern (a : Nat) (s : State) : State :=
  s.each ((List.range 32).filter (fun c => roleNamed (s.fsh.val a 1) (s.core c).role)) (fun c => State.modCore c (CoreS.takeBankA s.fsh a))

theorem State.onRecord_of_at {typ : Nat} (h : s.atRecord typ = some (b, a)) (f : Bool → Nat → State → State) :
    s.onRecord typ f = (f b (a + 16) s).nextRecord b := by
  rw [State.onRecord, h]

theorem exec_pattern_cores (h : s.atRecord 5 = some (b, a)) :
    ∃ t, exec .pattern s = .next t ∧ t.cores = (s.takePattern (a + 16)).cores :=
  ⟨_, congrArg Host.Outcome.next (State.onRecord_of_at h _), rfl⟩

/-- A core whose role ROLES names has bank A valid. -/
theorem State.takePattern_validA (hc : c < 32) (named : roleNamed (s.fsh.val a 1) (s.core c).role = true) :
    ((s.takePattern a).core c).validA = true := by
  refine State.each_of_mem (P := fun t => (t.core c).validA = true) (List.mem_filter.mpr ⟨List.mem_range.mpr hc, named⟩)
    (fun t => by rw [State.modCore_same]; rfl) fun d t ht => ?_
  by_cases hd : d = c
  · rw [hd, State.modCore_same]
    rfl
  · rwa [State.modCore_other _ _ hd]

/-- The loader stands before a PATTERN record of slot A (R328, R333): TYPE 5, LENGTH 163,852, and a payload with ROLES 2, encode, the reserved
byte behind it 0, and microwords that were never programmed. Core 0 is an encode core. -/
def encodePattern : State :=
  ((State.reset.modGlb (fun g => { g with inReset := false, mode := .load })).modFsh (fun f => { f with
    flash := putBytes f.flash erased 0x501020 (leBytes 2 5 ++ leBytes 2 0 ++ leBytes 4 163852 ++ leBytes 8 0 ++ [2, 0, 0, 0])
    loader := { Loader.reset with cur := some false, checked := true, cursor := 0x501020 } })).modCore 0 (fun x => { x with role := .encode })

theorem encodePattern_core : encodePattern.core 0 = { CoreS.reset with role := .encode } := State.modCore_same _ _ _

/-- Refutes O27: the PATTERN clause reads ROLES at a + 17, the reserved byte 1 of the payload, where R333 and the model have it in byte 0, at
a + 16. In the counterexample ROLES is 2 (encode) and the byte behind it 0: core 0, an encode core, takes bank A. -/
theorem not_loaderCommands : ¬ Obligations.LoaderCommands := by
  unfold Obligations.LoaderCommands
  intro h
  obtain ⟨-, -, -, -, -, -, -, -, -, -, -, -, pattern, -⟩ := h
  have record : encodePattern.atRecord 5 = some (false, 0x501020) := by decide
  have reserved : encodePattern.fsh.val (0x501020 + 17) 1 = 0 := by decide
  have roles : encodePattern.fsh.val (0x501020 + 16) 1 = 2 := by decide
  obtain ⟨t, run, -, others⟩ := pattern encodePattern false 0x501020 record
  obtain ⟨u, run', cores⟩ := exec_pattern_cores record
  obtain rfl : t = u := Host.Outcome.next.inj (run.symm.trans run')
  have same : t.core 0 = encodePattern.core 0 := others 0 (.inr (by rw [reserved, encodePattern_core]; rfl))
  have taken : (t.core 0).validA = true := by
    rw [State.core_congr cores]
    exact State.takePattern_validA (by decide) (by rw [roles, encodePattern_core]; rfl)
  rw [same, encodePattern_core] at taken
  exact absurd taken (by decide)

end Sys2Proof.Machine
end

section
/-! PROOF. The stores of the flash: when an operation starts, what each writes as it ends, the pages of the event log, and the waits for
power (R343, R344, R347, R359, R391). -/

namespace Sys2Proof

/-- Leaving out the entries of some numbers. -/
theorem Tbl.look_filter_not {α : Type} (t : Tbl α) (d : α) (p : Nat → Bool) (i : Nat) :
    Tbl.look (t.filter (fun c => !p c.1)) d i = if p i = true then d else t.look d i := by
  induction t with
  | nil => simp [Tbl.look]
  | cons c t ih =>
    obtain ⟨j, x⟩ := c
    by_cases hj : j = i
    · subst hj
      cases hp : p j
      · simp [Tbl.look, hp]
      · simp [hp, ih]
    · cases hp : p j <;> simp [Tbl.look, hp, hj, ih]

end Sys2Proof

namespace Sys2Proof.Machine

variable {s : State} {x : Store} {xs r : List Store}

/-! The commands of the flash. -/

section
variable (s)

theorem exec_logFlush : exec .logFlush s = execLogFlush s := rfl
theorem exec_flashOpDone : exec .flashOpDone s = execFlashOpDone s := rfl
theorem exec_pwrHoldChange (high : Bool) : exec (.pwrHoldChange high) s = .next (s.modFsh (fun f => { f with pwrHold := high })).startOp := rfl
theorem exec_flashPowerWait : exec .flashPowerWait s = execFlashPowerWait s := rfl
theorem exec_deviceAdopted : exec .deviceAdopted s = execDeviceAdopted s := rfl

end

/-! The start of an operation (R343, R347). -/

theorem State.startOp_of_empty (h : s.fsh.stores = []) : s.startOp = s := by
  rw [State.startOp, h]

/-- Nothing keeps the store at the head from being started but power. -/
structure State.MayStart (s : State) (x : Store) (r : List Store) : Prop where
  head : s.fsh.stores = x :: r
  idle : s.fsh.busy = false
  unfenced : s.fsh.fenced = false
  free : s.tck.held = false

theorem State.MayStart.unblocked (h : s.MayStart x r) : (s.fsh.busy || s.fsh.fenced || s.tck.held) = false := by
  rw [h.idle, h.unfenced, h.free]
  rfl

theorem State.whenB_raise_fsh (b : Bool) (id : EventId) (items : List Item) : (s.whenB b (State.raise id items)).fsh = s.fsh := by
  cases b <;> rfl

theorem State.MayStart.startOp_fsh (h : s.MayStart x r) (power : s.powerOk = true) :
    s.startOp.fsh = { s.fsh with busy := true, waitFrom := none, waitRaised := false } := by
  rw [State.startOp, h.head]
  simp only [h.unblocked, power, Bool.false_eq_true, if_false, if_true]
  exact State.whenB_raise_fsh _ _ _

theorem State.MayStart.startOp_of_no_power (h : s.MayStart x r) (power : s.powerOk = false) :
    s.startOp = s.modFsh (fun f => { f with waitFrom := some (f.waitFrom.getD s.now) }) := by
  rw [State.startOp, h.head]
  simp only [h.unblocked, power, Bool.false_eq_true, if_false]

theorem State.powerOk_of_low (h : s.fsh.pwrHold = false) : s.powerOk = false := by
  rw [State.powerOk, h, Bool.false_and]

theorem State.powerOk_of_no_warning (hold : s.fsh.pwrHold = true) (warn : s.fsh.lastWarn = none) : s.powerOk = true := by
  rw [State.powerOk, hold, warn]
  rfl

/-- The start of an operation is of no interrupt source. -/
theorem State.startOp_irc : s.startOp.irc = s.irc := State.startOp_keeps (keeps_irc (by decide)) rfl

theorem State.startOp_stores : s.startOp.fsh.stores = s.fsh.stores := by
  obtain ⟨busy, wait, raised, e⟩ := s.startOp_fsh
  rw [e]

theorem State.startOp_flash : s.startOp.fsh.flash = s.fsh.flash := by
  obtain ⟨busy, wait, raised, e⟩ := s.startOp_fsh
  rw [e]

theorem State.startOp_logSeq : s.startOp.fsh.logSeq = s.fsh.logSeq := by
  obtain ⟨busy, wait, raised, e⟩ := s.startOp_fsh
  rw [e]

/-! Pages of the event log (R348, R391). -/

/-- An empty queue holds the stores that join it, whatever their kind. -/
theorem State.queueStores_stores (h : s.fsh.stores = []) : (s.queueStores xs).fsh.stores = xs := by
  rw [State.queueStores, State.startOp_stores]
  cases xs.all Store.view <;> cases hb : s.fsh.busy <;> simp [h, hb]

theorem State.queueStores_flash : (s.queueStores xs).fsh.flash = s.fsh.flash := State.startOp_flash

theorem State.queueStores_logSeq : (s.queueStores xs).fsh.logSeq = s.fsh.logSeq := State.startOp_logSeq

/-- A page takes the position of the next sequence number. -/
theorem State.storeLogPage_stores (h : s.fsh.stores = []) : ∃ bs,
    s.storeLogPage.fsh.stores = [⟨stLog, 0x100000 + sector * ((s.fsh.logSeq + 1).toNat % 1024), bs, true, none⟩] :=
  ⟨_, State.queueStores_stores h⟩

theorem State.storeLogPage_logSeq : s.storeLogPage.fsh.logSeq = s.fsh.logSeq + 1 := State.queueStores_logSeq

theorem State.storeLogPage_flash : s.storeLogPage.fsh.flash = s.fsh.flash := State.queueStores_flash

theorem exec_logFlush_of_due (hr : s.glb.inReset = false) (hsfdp : s.fsh.sfdpOk = true) (due : s.flushDue = true)
    (empty : s.fsh.stores = []) : exec .logFlush s = .next s.storeLogPage := by
  rw [exec_logFlush, execLogFlush, if_neg (by simp [hr, hsfdp, due, empty])]

theorem exec_logFlush_of_not_due (h : s.flushDue = false) : exec .logFlush s = .next s := by
  rw [exec_logFlush, execLogFlush, if_pos (by simp [h])]

/-! The end of an operation (R344). -/

theorem Store.operate_of_erase (erase : x.erase = true) (more : x.bytes ≠ []) (m : Memory) :
    x.operate m = (m.filter (fun c => !(decide (x.addr ≤ c.1) && decide (c.1 < x.addr + sector))), some { x with erase := false }) := by
  rw [Store.operate, if_pos erase, if_neg (by simpa using more)]

theorem Store.operate_of_program (erase : x.erase = false) (more : 256 < x.bytes.length) (m : Memory) :
    x.operate m = (putBytes m erased x.addr (x.bytes.take 256), some { x with addr := x.addr + 256, bytes := x.bytes.drop 256 }) := by
  rw [Store.operate, if_neg (by simp [erase]), if_neg (Nat.not_le.mpr more)]

/-- The bytes of the sector that a store erases read as erased, the others as before. -/
theorem Store.look_operate_of_erase (erase : x.erase = true) (more : x.bytes ≠ []) (m : Memory) (a : Nat) :
    Tbl.look (x.operate m).1 erased a = if x.addr ≤ a ∧ a < x.addr + 4096 then erased else Tbl.look m erased a := by
  rw [Store.operate_of_erase erase more]
  refine (Tbl.look_filter_not m erased (fun a => decide (x.addr ≤ a) && decide (a < x.addr + sector)) a).trans ?_
  simp only [Bool.and_eq_true, decide_eq_true_eq]

/-- A state in which the operation of the only store has ended, with more of the store to come. -/
structure State.OpEnded (s : State) (x y : Store) (t : State) : Prop where
  latched : 202 ∈ t.irc.latch
  stores : t.fsh.stores = [y]
  flash : t.fsh.flash = (x.operate s.fsh.flash).1

/-- An operation ends that leaves a part of its store, which is not the erase of a page of the event log. -/
theorem exec_flashOpDone_of_more {y : Store} (one : s.fsh.stores = [x]) (busy : s.fsh.busy = true)
    (page : (x.erase && x.kind == stLog) = false) (more : (x.operate s.fsh.flash).2 = some y) :
    ∃ t, exec .flashOpDone s = .next t ∧ s.OpEnded x y t := by
  refine ⟨((s.endOp x []).latch 202).startOp, ?_, ?_, ?_, ?_⟩
  · rw [exec_flashOpDone, execFlashOpDone, one]
    simp only [busy, page, more, Option.isNone_some, Bool.not_true, Bool.false_eq_true, if_false]
  · rw [State.startOp_irc]
    exact State.latch_mem _ _
  · rw [State.startOp_stores]
    show ((x.operate s.fsh.flash).2.toList ++ []).mergeSort _ = [y]
    rw [more]
    exact List.mergeSort_singleton _
  · rw [State.startOp_flash]
    rfl

/-! Waits for power (R347). -/

theorem State.waitEvent_of_new (h : s.fsh.waitFrom = some s.now) : s.waitEvent = s := by
  rw [State.waitEvent, h]
  split
  next t x r wait _ =>
    obtain rfl := Option.some.inj wait
    rw [if_neg (by omega)]
  next => rfl

theorem State.endWaits_of_new (h : s.fsh.waitFrom = some s.now) : s.endWaits = s := by
  rw [State.endWaits, h]
  exact if_pos (Nat.lt_add_of_pos_right (by decide))

theorem exec_flashPowerWait_of_new (may : s.MayStart x r) (low : s.fsh.pwrHold = false) (new : s.fsh.waitFrom = none) :
    exec .flashPowerWait s = .next (s.modFsh (fun f => { f with waitFrom := some s.now })) := by
  have start : s.startOp = s.modFsh (fun f => { f with waitFrom := some s.now }) := by
    rw [may.startOp_of_no_power (State.powerOk_of_low low), State.modFsh, State.modFsh, new]
    rfl
  rw [exec_flashPowerWait, execFlashPowerWait]
  simp only [start, State.modFsh_fsh, may.idle, Bool.false_eq_true, if_false]
  rw [State.waitEvent_of_new rfl, State.endWaits_of_new rfl]

/-- Settles O29: each command of the flash by what it finds of the stores and of power. -/
theorem flashCommands : Obligations.FlashCommands := by
  unfold Obligations.FlashCommands
  refine ⟨?flush, fun s => exec_logFlush_of_not_due, ?erase, ?program, ?low, ?high, ?wait, ?adopted⟩
  case flush =>
    intro s hr hsfdp due empty
    refine ⟨_, exec_logFlush_of_due hr hsfdp due empty, ?_⟩
    obtain ⟨bs, stores⟩ := State.storeLogPage_stores empty
    rw [stores]
    refine ⟨State.storeLogPage_logSeq, State.storeLogPage_flash, rfl, fun x hx => ?_⟩
    obtain rfl := List.mem_singleton.mp hx
    exact ⟨rfl, rfl⟩
  case erase =>
    intro s x one busy erase more kind
    obtain ⟨t, run, ended⟩ := exec_flashOpDone_of_more one busy (by simp [kind])
      (congrArg Prod.snd (Store.operate_of_erase erase more s.fsh.flash))
    refine ⟨t, run, ended.latched, ended.stores, fun a => ?_⟩
    rw [ended.flash]
    exact Store.look_operate_of_erase erase more _ a
  case program =>
    intro s x one busy erase more
    have operate := Store.operate_of_program erase more s.fsh.flash
    obtain ⟨t, run, ended⟩ := exec_flashOpDone_of_more one busy (by simp [erase]) (congrArg Prod.snd operate)
    exact ⟨t, run, ended.latched, ended.stores, ended.flash.trans (congrArg Prod.fst operate)⟩
  case low =>
    intro s empty
    exact congrArg Host.Outcome.next (State.startOp_of_empty empty)
  case high =>
    intro s x r head idle unfenced free warn
    have may : (s.modFsh (fun f => { f with pwrHold := true })).MayStart x r := ⟨head, idle, unfenced, free⟩
    refine ⟨_, exec_pwrHoldChange s true, ?_⟩
    rw [may.startOp_fsh (State.powerOk_of_no_warning rfl warn)]
    exact ⟨rfl, rfl, rfl, rfl⟩
  case wait =>
    intro s x r head idle unfenced free low new
    exact ⟨_, exec_flashPowerWait_of_new ⟨head, idle, unfenced, free⟩ low new, rfl, rfl⟩
  case adopted =>
    intro s r due empty
    refine ⟨(s.modGlb (fun g => { g with adoptDue := none })).raise .deviceAdopted
      [.w16 (s.glb.adoptOut.setWidth 16), i16 r.side.toNat], ?_, rfl, rfl⟩
    rw [exec_deviceAdopted, execDeviceAdopted, due]
    exact congrArg Host.Outcome.next (if_neg (by simp [empty]))

end Sys2Proof.Machine
end

section
/-! PROOF. What every command and every step leaves: that each command answers a next state, the components that it may change, and the
invariants of the byte memories and of the Tack's stack of running priorities. -/

namespace Sys2Proof.Machine

variable {P : State → Prop} {s : State}

/-! What a command keeps, by its footprint. -/

/-- What is closed under the updates of the components that a command's footprint lists is kept by the command. -/
theorem exec_keeps_footprint {c : Instr} {t : State} (u : Keeps (footprint c) P) (k : P s) (e : exec c s = .next t) : P t := by
  cases c
  case syncMessage => exact execSyncMessage_keeps u k t e
  case grandmasterAccepted => exact execGrandmasterAccepted_keeps u k t e
  case announceTimeout => exact execAnnounceTimeout_keeps u k t e
  case holdoverLimit => exact execHoldoverLimit_keeps u k t e
  case lineStart => exact execLineStart_keeps u k t e
  case lineEventArm => exact execLineEventArm_keeps u k t e
  case lineEventDisarm => exact execLineEventDisarm_keeps u k t e
  case inputFrameStart => exact execInputFrameStart_keeps u k t e
  case inputSignalTimeout => exact execInputSignalTimeout_keeps u k t e
  case rasterRealign => exact execRasterRealign_keeps u k t e
  case rasterRetimed => exact execRasterRetimed_keeps u k t e
  case retimingEnd => exact execRetimingEnd_keeps u k t e
  case encodeSelfRelease => exact execEncodeSelfRelease_keeps u k t e
  case encodeRowIssue => exact execEncodeRowIssue_keeps u k t e
  case encodeRowComplete => exact execEncodeRowComplete_keeps u k t e
  case hostfedFrameStart => exact execHostfedFrameStart_keeps u k t e
  case sliceHeaderParse => exact execSliceHeaderParse_keeps u k t e
  case paramSetReceived => exact execParamSetReceived_keeps u k t e
  case ledgerSegment => exact execLedgerSegment_keeps u k t e
  case accessUnitEnd => exact execAccessUnitEnd_keeps u k t e
  case decodeTaskIssue => exact execDecodeTaskIssue_keeps u k t e
  case decodeRowComplete => exact execDecodeRowComplete_keeps u k t e
  case checkTaskComplete => exact execCheckTaskComplete_keeps u k t e
  case decodeRowLate => exact execDecodeRowLate_keeps u k t e
  case decodeSkipped => exact execDecodeSkipped_keeps u k t e
  case streamStart => exact execStreamStart_keeps u k t e
  case streamRejoin => exact execStreamRejoin_keeps u k t e
  case outputLineFetch => exact execOutputLineFetch_keeps u k t e
  case cmpLineLate => exact execCmpLineLate_keeps u k t e
  case tileStateVisit => exact execTileStateVisit_keeps u k t e
  case tileStateFill => exact execTileStateFill_keeps u k t e
  case dpLinkTrain => exact execDpLinkTrain_keeps u k t e
  case dpHpdIrq => exact execDpHpdIrq_keeps u k t e
  case dpSinkLinkTrain => exact execDpSinkLinkTrain_keeps u k t e
  case dpHpdPulseEnd => exact execDpHpdPulseEnd_keeps u k t e
  case microwordIssue => exact execMicrowordIssue_keeps u k t e
  case fillDone => exact execFillDone_keeps u k t e
  case drainDone => exact execDrainDone_keeps u k t e
  case bankReloadDone => exact execBankReloadDone_keeps u k t e
  case unitDone => exact execUnitDone_keeps u k t e
  case externalEvent => exact execExternalEvent_keeps u k t e
  case deadlock => exact execDeadlock_keeps u k t e
  case coreC1Entry => exact execCoreC1Entry_keeps u k t e
  case corePowerDown => exact execCorePowerDown_keeps u k t e
  case coreWake => exact execCoreWake_keeps u k t e
  case coreWakeDone => exact execCoreWakeDone_keeps u k t e
  case ptnSwap => exact execPtnSwap_keeps u k t e
  case coreDrained => exact execCoreDrained_keeps u k t e
  case patternStoreWrite => exact execPatternStoreWrite_keeps u k t e
  case corFaultClear => exact execCorFaultClear_keeps u k t e
  case dramRead => exact execDramRead_keeps u k t e
  case dramWrite => exact execDramWrite_keeps u k t e
  case narrowWrite => exact execNarrowWrite_keeps u k t e
  case mergeFlush => exact execMergeFlush_keeps u k t e
  case refresh => exact execRefresh_keeps u k t e
  case mr4Poll => exact execMr4Poll_keeps u k t e
  case rankPowerDown => exact execRankPowerDown_keeps u k t e
  case dramTraining => exact execDramTraining_keeps u k t e
  case calibrationSliver => exact execCalibrationSliver_keeps u k t e
  case hardwareFill => exact execHardwareFill_keeps u k t e
  case scrubLine => exact execScrubLine_keeps u k t e
  case dramScrubUrgent => exact execDramScrubUrgent_keeps u k t e
  case drmErrqRetire => exact execDrmErrqRetire_keeps u k t e
  case dramPageRetired => exact execDramPageRetired_keeps u k t e
  case dramChannelFenced => exact execDramChannelFenced_keeps u k t e
  case remapFill => exact execRemapFill_keeps u k t e
  case frameReceived => exact execFrameReceived_keeps u k t e
  case pauseReceived => exact execPauseReceived_keeps u k t e
  case pauseTimerExpiry => exact execPauseTimerExpiry_keeps u k t e
  case portStalled => exact execPortStalled_keeps u k t e
  case portStallCleared => exact execPortStallCleared_keeps u k t e
  case packetSwitch => exact execPacketSwitch_keeps u k t e
  case stitcherPacket => exact execStitcherPacket_keeps u k t e
  case stitchHoldExpiry => exact execStitchHoldExpiry_keeps u k t e
  case stitchPath => exact execStitchPath_keeps u k t e
  case runqUnread => exact execRunqUnread_keeps u k t e
  case pfcRefresh => exact execPfcRefresh_keeps u k t e
  case egressSelect => exact execEgressSelect_keeps u k t e
  case statsInterval => exact execStatsInterval_keeps u k t e
  case ethLinkChange => exact execEthLinkChange_keeps u k t e
  case quenchPin => exact execQuenchPin_keeps u k t e
  case hqDoorbell => exact execHqDoorbell_keeps u k t e
  case queuePoll => exact execQueuePoll_keeps u k t e
  case commandFetch => exact execCommandFetch_keeps u k t e
  case commandComplete => exact execCommandComplete_keeps u k t e
  case createQueue => exact execCreateQueue_keeps u k t e
  case deleteQueue => exact execDeleteQueue_keeps u k t e
  case identify => exact execIdentify_keeps u k t e
  case getLog => exact execGetLog_keeps u k t e
  case setEvents => exact execSetEvents_keeps u k t e
  case regRead => exact execRegRead_keeps u k t e
  case regWrite => exact execRegWrite_keeps u k t e
  case txnBegin => exact execTxnBegin_keeps u k t e
  case txnCommit => exact execTxnCommit_keeps u k t e
  case txnAbort => exact execTxnAbort_keeps u k t e
  case streamQuench => exact execStreamQuench_keeps u k t e
  case streamUnquench => exact execStreamUnquench_keeps u k t e
  case sweepRestart => exact execSweepRestart_keeps u k t e
  case outputSet => exact execOutputSet_keeps u k t e
  case imageWrite => exact execImageWrite_keeps u k t e
  case patch => exact execPatch_keeps u k t e
  case ctxRead => exact execCtxRead_keeps u k t e
  case encPost => exact execEncPost_keeps u k t e
  case decPost => exact execDecPost_keeps u k t e
  case hostDmaDone => exact execHostDmaDone_keeps u k t e
  case frameRead => exact execFrameRead_keeps u k t e
  case ledgerRead => exact execLedgerRead_keeps u k t e
  case pagePost => exact execPagePost_keeps u k t e
  case pageFlushTimeout => exact execPageFlushTimeout_keeps u k t e
  case functionLevelReset => exact execFunctionLevelReset_keeps u k t e
  case supervisoryMessage => exact execSupervisoryMessage_keeps u k t e
  case admission => exact execAdmission_keeps u k t e
  case starvationStep => exact execStarvationStep_keeps u k t e
  case urgentCapWindow => exact execUrgentCapWindow_keeps u k t e
  case bellowsRequest => exact execBellowsRequest_keeps u k t e
  case bellowsGrant => exact execBellowsGrant_keeps u k t e
  case bellowsRelease => exact execBellowsRelease_keeps u k t e
  case bellowsDeny => exact execBellowsDeny_keeps u k t e
  case blwSlow => exact execBlwSlow_keeps u k t e
  case resetRelease => exact execResetRelease_keeps u k t e
  case resetAssert => exact execResetAssert_keeps u k t e
  case powerOnReset => exact execPowerOnReset_keeps u k t e
  case imageLoad => exact execImageLoad_keeps u k t e
  case signatureCheck => exact execSignatureCheck_keeps u k t e
  case identity => exact execIdentity_keeps u k t e
  case platform => exact execPlatform_keeps u k t e
  case tackFw => exact execTackFw_keeps u k t e
  case keys => exact execKeys_keeps u k t e
  case pattern => exact execPattern_keeps u k t e
  case mapWrite => exact execMapWrite_keeps u k t e
  case budget => exact execBudget_keeps u k t e
  case endRecord => exact execEndRecord_keeps u k t e
  case loadDone => exact execLoadDone_keeps u k t e
  case trainEnd => exact execTrainEnd_keeps u k t e
  case twinWaitExpiry => exact execTwinWaitExpiry_keeps u k t e
  case adoptConfirm => exact execAdoptConfirm_keeps u k t e
  case deviceAdopted => exact execDeviceAdopted_keeps u k t e
  case reqRest => exact execReqRest_keeps u k t e
  case reqWake => exact execReqWake_keeps u k t e
  case reqDemote => exact execReqDemote_keeps u k t e
  case wakePin => exact execWakePin_keeps u k t e
  case restExitDone => exact execRestExitDone_keeps u k t e
  case tackFwReady => exact execTackFwReady_keeps u k t e
  case patchFailed => exact execPatchFailed_keeps u k t e
  case otpFuseBlow => exact execOtpFuseBlow_keeps u k t e
  case flashOpDone => exact execFlashOpDone_keeps u k t e
  case pwrHoldChange => exact execPwrHoldChange_keeps u k t e
  case flashPowerWait => exact execFlashPowerWait_keeps u k t e
  case ircClaim => exact execIrcClaim_keeps u k t e
  case ircEoi => exact execIrcEoi_keeps (a0 := 0) u k t e
  case ircBlkAck => exact execIrcBlkAck_keeps u k t e
  case tackRestarted => exact execTackRestarted_keeps u k t e
  case dmaChannelStart => exact execDmaChannelStart_keeps u k t e
  case dmaComplete => exact execDmaComplete_keeps u k t e
  case dmaBusError => exact execDmaBusError_keeps u k t e
  case dmaDisable => exact execDmaDisable_keeps u k t e
  case dmaEnable => exact execDmaEnable_keeps u k t e
  case timerExpiry => exact execTimerExpiry_keeps u k t e
  case timerAck => exact execTimerAck_keeps u k t e
  case uartRxChar => exact execUartRxChar_keeps u k t e
  case uartBreak => exact execUartBreak_keeps u k t e
  case uartRxRead => exact execUartRxRead_keeps u k t e
  case uartTxWrite => exact execUartTxWrite_keeps u k t e
  case uartTxCharDone => exact execUartTxCharDone_keeps u k t e
  case uartStatusClear => exact execUartStatusClear_keeps u k t e
  case sensorSample => exact execSensorSample_keeps u k t e
  case eventPost => exact execEventPost_keeps u k t e
  case logWriterMove => exact execLogWriterMove_keeps u k t e
  case logFlush => exact execLogFlush_keeps u k t e
  case semAcquire => exact execSemAcquire_keeps u k t e
  case semRelease => exact execSemRelease_keeps u k t e
  case semRecovered => exact execSemRecovered_keeps u k t e
  case semBreak => exact execSemBreak_keeps u k t e
  case semStateRead => exact execSemStateRead_keeps u k t e
  case watchdogKick => exact execWatchdogKick_keeps u k t e
  case tackWdogWarn => exact execTackWdogWarn_keeps u k t e
  case watchdogSecondExpiry => exact execWatchdogSecondExpiry_keeps u k t e
  case faultReport => exact execFaultReport_keeps u k t e
  case reloadDone => exact execReloadDone_keeps u k t e
  case wireCheck => exact execWireCheck_keeps u k t e
  case wireCodeInvalid => exact execWireCodeInvalid_keeps u k t e
  case faultForce => exact execFaultForce_keeps u k t e
  case fltStatClear => exact execFltStatClear_keeps u k t e
  case girthLinkTrained => exact execGirthLinkTrained_keeps u k t e
  case heartbeatTick => exact execHeartbeatTick_keeps u k t e
  case heartbeat => exact execHeartbeat_keeps u k t e
  case handover => exact execHandover_keeps u k t e
  case ident => exact execIdent_keeps u k t e
  case timing => exact execTiming_keeps u k t e
  case encState => exact execEncState_keeps u k t e
  case picCrc => exact execPicCrc_keeps u k t e
  case picCrcTimeout => exact execPicCrcTimeout_keeps u k t e
  case port => exact execPort_keeps u k t e
  case command => exact execCommand_keeps u k t e
  case txn => exact execTxn_keeps u k t e
  case sem => exact execSem_keeps u k t e
  case snapshot => exact execSnapshot_keeps u k t e
  case tileDelta => exact execTileDelta_keeps u k t e
  case hostData => exact execHostData_keeps u k t e
  case ack => exact execAck_keeps u k t e
  case girthRetransmit => exact execGirthRetransmit_keeps u k t e
  case deltaDrop => exact execDeltaDrop_keeps u k t e
  case girthSilence => exact execGirthSilence_keeps u k t e
  case girthLockLoss => exact execGirthLockLoss_keeps u k t e
  case identRetry => exact execIdentRetry_keeps u k t e
  case ownHeartbeatTimeout => exact execOwnHeartbeatTimeout_keeps u k t e
  case peerFaultEdge => exact execPeerFaultEdge_keeps u k t e
  case peerOwnEdge => exact execPeerOwnEdge_keeps u k t e
  case pmbusPoll => exact execPmbusPoll_keeps u k t e
  case pmbusSetPoint => exact execPmbusSetPoint_keeps u k t e
  case pmbusConfirm => exact execPmbusConfirm_keeps u k t e
  case supplyComparatorTrip => exact execSupplyComparatorTrip_keeps u k t e
  case thermalTrip => exact execThermalTrip_keeps u k t e
  case thermalCheck => exact execThermalCheck_keeps u k t e
  case throttleStepUp => exact execThrottleStepUp_keeps u k t e
  case bayClockChange => exact execBayClockChange_keeps u k t e
  case sysClkLoss => exact execSysClkLoss_keeps u k t e
  case pllLockLoss => exact execPllLockLoss_keeps u k t e
  case registerWrite => exact execRegisterWrite_keeps u k t e
  case txnOpBegin => exact execTxnOpBegin_keeps u k t e
  case txnOpCommit => exact execTxnOpCommit_keeps u k t e
  case txnOpAbort => exact execTxnOpAbort_keeps u k t e
  case txnWdata => exact execTxnWdata_keeps u k t e
  case txnTimeout => exact execTxnTimeout_keeps u k t e
  case glbWerrClear => exact execGlbWerrClear_keeps u k t e
  case dpiReasonClear => exact execDpiReasonClear_keeps u k t e
  case dpoHpdChange => exact execDpoHpdChange_keeps u k t e
  case dpiLinkDown => exact execDpiLinkDown_keeps u k t e
  case pcieLinkChange => exact execPcieLinkChange_keeps u k t e

/-- Settles O4: what is closed under the updates of the footprint's components is kept, and so is the equality of each other component. -/
theorem commandFootprint : Obligations.CommandFootprint := fun _ _ _ e =>
  frame_of_keeps fun _ u k => exec_keeps_footprint u k e

/-- Settles O2: the meaning of each command is a next state, whatever its branches. -/
theorem commandsComplete : Obligations.CommandsComplete := by
  intro c s
  cases c <;> exact ⟨_, rfl⟩

/-! What a step keeps. -/

theorem step_of_cons (c : Instr) (rest : List Instr) (s : State) :
    step { s with pending := c :: rest } = exec c { s with pending := rest } := rfl

/-- Settles O1: a step takes the command at the front. -/
theorem stepRunsFront : Obligations.StepRunsFront := step_of_cons

/-- What is closed under the updates of every component and does not look at the queue is kept by every step. -/
theorem step_keeps {t : State} (u : Keeps allComps P) (queue : ∀ q s, P s → P { s with pending := q }) (k : P s) (e : step s = .next t) :
    P t := by
  cases hq : s.pending with
  | nil =>
    rw [step_of_empty hq] at e
    cases e
    exact tick_keeps u k
  | cons c rest =>
    have taken : step s = exec c { s with pending := rest } := by rw [← step_of_cons c rest s, ← hq]
    exact exec_keeps u (queue rest s k) (taken ▸ e)

/-! The byte memories (R26, R323, R370). -/

theorem State.memOk_iff (s : State) : s.memOk = true ↔
    Memory.wf s.fsh.flash erased = true ∧ Memory.wf s.hq.hostMem hostByte = true ∧ Memory.wf s.tck.sram 0 = true := by
  rw [State.memOk, Bool.and_eq_true, Bool.and_eq_true, and_assoc]

/-- The updates of the components that hold a byte memory keep its form, and the others do not look at it. -/
theorem keeps_memOk (l : List Comp) : Keeps l (fun s => s.memOk = true) := by
  intro c _
  simp only [State.memOk_iff]
  cases c
  case hq => exact fun h s wf ⟨flash, host, sram⟩ => ⟨flash, wf _ host, sram⟩
  case fsh => exact fun h s wf ⟨flash, host, sram⟩ => ⟨wf _ flash, host, sram⟩
  case tck => exact fun h s wf ⟨flash, host, sram⟩ => ⟨flash, host, wf _ sram⟩
  case irc => exact fun _ _ _ k => k
  all_goals exact fun _ _ k => k

/-- Settles O5, by what every step keeps. -/
theorem stepKeepsMemories : Obligations.StepKeepsMemories := fun _ _ k e =>
  step_keeps (keeps_memOk allComps) (fun _ _ k => k) k e

/-- Settles O6: the memories list nothing. -/
theorem resetMemories : Obligations.ResetMemories := ⟨rfl, rfl, rfl, rfl⟩

/-! The stack of running priorities (R373, R374). -/

/-- The updates of the interrupt controller keep its stack rising, and the others do not look at it. -/
theorem keeps_stackOk (l : List Comp) : Keeps l (fun s => s.stackOk = true) := by
  intro c _
  cases c
  case irc => exact fun h s rises k => rises k
  case hq | fsh | tck => exact fun _ _ _ k => k
  all_goals exact fun _ _ k => k

/-- Settles O7, by what every step keeps. -/
theorem stepKeepsStack : Obligations.StepKeepsStack := fun _ _ k e =>
  step_keeps (keeps_stackOk allComps) (fun _ _ k => k) k e

/-- Settles O8: no source is in service. -/
theorem resetStack : Obligations.ResetStack := ⟨rfl, rfl⟩

end Sys2Proof.Machine
end

section
/-! PROOF. Two statements on the Girth link that fail: the loss of lock while the link trains (R413, R416), and a port's settings that reach an
output whose sink is there (R174, R182). -/

namespace Sys2Proof.Machine

/-- A device in TRAIN, whose Girth link trains (R357, R413). -/
def girthTrains : State :=
  State.reset.modGlb (fun g => { g with inReset := false, mode := .train }) |>.modGrt (fun g => { g with link := .training })

/-- A link that trains has no lock to lose. -/
theorem girthTrains_lockLoss : exec .girthLockLoss girthTrains = .next girthTrains := by
  have up : girthTrains.linksUp = true := by decide
  have stays : girthTrains.linkLost 2 = girthTrains := by
    rw [State.linkLost]
    exact if_pos (.inr ⟨.inr rfl, by decide⟩)
  show Host.Outcome.next (if girthTrains.linksUp = true then girthTrains.linkLost 2 else girthTrains) = _
  rw [if_pos up, stays]

/-- Refutes O43: the clause on the loss of lock asks for LOST from every state of the link but DOWN. The model's `linkLost` leaves a link alone that
has not come to IDENT, and so one that trains stays TRAINING (R413). -/
theorem not_girthLink : ¬ Obligations.GirthLink := by
  unfold Obligations.GirthLink
  intro h
  obtain ⟨-, -, -, -, -, -, -, -, -, -, -, -, -, -, -, lockLoss, -⟩ := h
  obtain ⟨t, run, lost⟩ := lockLoss girthTrains (by decide) (by decide)
  obtain rfl : girthTrains = t := Host.Outcome.next.inj (girthTrains_lockLoss.symm.trans run)
  exact absurd lost (by decide)

/-- A shadow with its link UP, whose output 0 is gated with a sink that has asserted HPD, and which no training of the lead has reached (R174,
R182). -/
def gatedPort : State :=
  ((State.reset.modGlb (fun g => { g with inReset := false, mode := .shadow, role := .shadow })).modGrt (fun g => { g with link := .up })).modOut
    (fun o => { o with gates := [(0, { OutPort.reset with gated := true })], dpo := [(0, { DpoPort.reset with hpd := true })] })

/-- The header of the first frame of a link. -/
def firstFrame : GHdr := ⟨0, 0, true, true⟩

theorem gatedPort_port : exec (.port firstFrame (.dp 0 0 0 0)) gatedPort = .next
    (((gatedPort.afterFrame firstFrame).modDpo 0 (fun p => { p with linkRate := 0, lanes := 0, drive := 0 })).setDpoLink 0 .training) := by
  rfl

/-- Refutes O44: the clause on PORT asks that nothing of the port changes but its rate, lanes and transmitter settings. A sink that is there makes
the port follow the link (R174, R182): here a lead that has not trained yet (rate 0) brings it from DOWN to TRAINING, and latches its source. -/
theorem not_girthFrames : ¬ Obligations.GirthFrames := by
  unfold Obligations.GirthFrames
  intro h
  obtain ⟨-, -, -, -, -, -, -, -, -, -, port, -⟩ := h
  obtain ⟨t, run, settings, -⟩ := port gatedPort firstFrame 0 0 0 0 (by decide) (by decide) (by decide) (by decide) (by decide)
  obtain rfl := Host.Outcome.next.inj (gatedPort_port.symm.trans run)
  have link := congrArg DpoPort.link settings
  exact absurd link (by decide)

end Sys2Proof.Machine
end

section
/-! PROOF. The Tack: its interrupt controller (R372 to R377). -/

namespace Sys2Proof.Machine

variable {s : State}

/-! The source that a claim selects (R373). -/

/-- R373: a claim may select source `n`: it is pending, and its priority is above the running one. -/
def State.claimable (s : State) (n : Nat) : Bool := s.ircPending n && aboveTop s.irc.stack (s.ircSrc n).prio

theorem State.claimable_iff {n : Nat} :
    s.claimable n = true ↔ s.ircPending n = true ∧ aboveTop s.irc.stack (s.ircSrc n).prio = true := Bool.and_eq_true_iff

/-- `best` is what a claim selects among the sources below `n`. -/
def State.BestBelow (s : State) (n : Nat) : Option (Nat × BitVec 4) → Prop
  | none => ∀ m, m < n → s.claimable m = false
  | some (b, q) => b < n ∧ s.claimable b = true ∧ q = (s.ircSrc b).prio ∧
      ∀ m, m < n → s.claimable m = true → (s.ircSrc m).prio ≤ q ∧ ((s.ircSrc m).prio = q → b ≤ m)

theorem State.claimStep_of_claimable {best : Option (Nat × BitVec 4)} {n : Nat} (h : s.claimable n = true) :
    s.claimStep best n = match best with
      | some (b, q) => if q < (s.ircSrc n).prio then some (n, (s.ircSrc n).prio) else some (b, q)
      | none => some (n, (s.ircSrc n).prio) := if_pos h

theorem State.claimStep_of_not_claimable {best : Option (Nat × BitVec 4)} {n : Nat} (h : s.claimable n = false) :
    s.claimStep best n = best := if_neg (Bool.not_eq_true _ ▸ h)

/-- A source with a higher priority replaces the best one, and one with the same priority does not: the lower number wins. -/
theorem State.BestBelow.claimStep {best : Option (Nat × BitVec 4)} {n : Nat} (h : s.BestBelow n best) :
    s.BestBelow (n + 1) (s.claimStep best n) := by
  have split {m : Nat} (hm : m < n + 1) : m < n ∨ m = n := by omega
  cases hn : s.claimable n
  case false =>
    rw [State.claimStep_of_not_claimable hn]
    match best, h with
    | none, h => exact fun m hm => (split hm).elim (h m) (fun e => e ▸ hn)
    | some (b, q), ⟨lt, can, prio, least⟩ =>
      refine ⟨by omega, can, prio, fun m hm hc => (split hm).elim (fun lt => least m lt hc) (fun e => ?_)⟩
      rw [e, hn] at hc
      exact absurd hc Bool.false_ne_true
  case true =>
    rw [State.claimStep_of_claimable hn]
    match best, h with
    | none, h =>
      refine ⟨by omega, hn, rfl, fun m hm hc => (split hm).elim (fun lt => ?_) (fun e => e ▸ ⟨BitVec.le_refl _, fun _ => Nat.le_refl _⟩)⟩
      rw [h m lt] at hc
      exact absurd hc Bool.false_ne_true
    | some (b, q), ⟨lt, can, prio, least⟩ =>
      dsimp only
      split
      next above =>
        refine ⟨by omega, hn, rfl, fun m hm hc => (split hm).elim (fun lt => ?_) (fun e => e ▸ ⟨BitVec.le_refl _, fun _ => Nat.le_refl _⟩)⟩
        have below := (least m lt hc).1
        exact ⟨by bv_omega, fun e => by bv_omega⟩
      next notAbove =>
        refine ⟨by omega, can, prio, fun m hm hc => (split hm).elim (fun lt => least m lt hc) (fun e => ?_)⟩
        subst e
        exact ⟨by bv_omega, fun _ => by omega⟩

theorem State.bestBelow_foldl (n : Nat) : s.BestBelow n ((List.range n).foldl s.claimStep none) := by
  induction n with
  | zero => exact fun m hm => absurd hm (Nat.not_lt_zero m)
  | succ n ih =>
    rw [List.range_succ, List.foldl_append]
    exact ih.claimStep

/-- A claim selects the best of the 256 sources. -/
theorem State.claimBest_best : s.BestBelow 256 s.claimBest := State.bestBelow_foldl 256

theorem State.claimBest_some {n : Nat} {p : BitVec 4} (e : s.claimBest = some (n, p)) : s.BestBelow 256 (some (n, p)) := e ▸ State.claimBest_best

theorem State.claimBest_none (e : s.claimBest = none) : s.BestBelow 256 none := e ▸ State.claimBest_best

theorem exec_ircClaim (s : State) : exec .ircClaim s = .next (ircClaim s) := rfl

theorem exec_ircEoi (v : Word) (s : State) : exec (.ircEoi v) s = execIrcEoi v s := rfl

/-- Settles O37: the selection is the best of the sources so far, kept by each step of the scan; the other clauses are the updates of the
controller. -/
theorem interrupts : Obligations.Interrupts := by
  refine ⟨?none, ?some, ?selected, ?unselected, ?pop, ?empty, ?ack, ?ignored⟩
  case none =>
    intro s h
    have claimed : ircClaim s = s.modIrc (fun i => { i with claim := 0x1FF }) := by rw [ircClaim, h]
    refine ⟨_, exec_ircClaim s, ?_, commandFootprint _ _ _ (exec_ircClaim s)⟩
    rw [claimed]
    rfl
  case some =>
    intro s n p h
    have claimed : ircClaim s = s.modIrc (fun i => { i with
        stack := p :: i.stack, claim := (p.setWidth 32 : Word) <<< 28 ||| BitVec.ofNat 32 n }) := by rw [ircClaim, h]
    refine ⟨_, exec_ircClaim s, ?_, ?_, ?_, commandFootprint _ _ _ (exec_ircClaim s)⟩ <;> rw [claimed] <;> rfl
  case selected =>
    intro s n p h
    obtain ⟨lt, can, prio, least⟩ := State.claimBest_some h
    obtain ⟨pending, above⟩ := State.claimable_iff.1 can
    exact ⟨lt, pending, prio, prio ▸ above, fun m hm hp ha => least m hm (State.claimable_iff.2 ⟨hp, ha⟩)⟩
  case unselected =>
    intro s h m hm pending
    have no := State.claimBest_none h m hm
    rw [State.claimable, pending, Bool.true_and] at no
    exact no
  case pop =>
    intro s v p r h
    simp [exec_ircEoi, execIrcEoi, State.modIrc, h]
  case empty =>
    intro s v h
    simp [exec_ircEoi, execIrcEoi, State.modIrc, h]
  case ack =>
    intro s v low high
    have acked : exec (.ircBlkAck v) s = .next (s.modIrc (fun i => { i with latch := i.latch.filter (· != v.toNat) })) :=
      congrArg Host.Outcome.next (if_pos ⟨low, high⟩)
    refine ⟨_, acked, ?_, fun n hn => ?_, rfl, commandFootprint _ _ _ acked⟩
    · simp [State.modIrc]
    · simp [State.modIrc, hn]
  case ignored =>
    intro s v h
    exact congrArg Host.Outcome.next (if_neg (by omega))

end Sys2Proof.Machine
end

section
/-! PROOF. The semaphores (R395, R396). -/

namespace Sys2Proof.Machine

variable {s : State} {n : Nat} {x : BitVec 9}

/-! The operations of one semaphore. -/

theorem Sem.acquire_free {m : Sem} (h : m.st = .free) : m.acquire x = { m with st := .held, owner := x, result := 0 } := by
  rw [Sem.acquire, h]

theorem Sem.acquire_held {m : Sem} (h : m.st = .held) : m.acquire x = { m with result := if m.owner = x then 3 else 1 } := by
  rw [Sem.acquire, h]

theorem Sem.acquire_broken {m : Sem} (h : m.st = .broken) : m.acquire x = { m with st := .recovering, owner := x, result := 2 } := by
  rw [Sem.acquire, h]

theorem Sem.acquire_recovering {m : Sem} (h : m.st = .recovering) : m.acquire x = { m with result := if m.owner = x then 2 else 1 } := by
  rw [Sem.acquire, h]

/-! The commands, for a writer that holds an owner ID (R394). -/

theorem exec_semAcquire (hn : n < 64) (hx : ownerOk x = true) : exec (.semAcquire n x) s = .next (s.modSemS n (·.acquire x)) :=
  congrArg Host.Outcome.next (if_pos (by simp [hn, hx]))

theorem exec_semRelease (hn : n < 64) (hx : ownerOk x = true) : exec (.semRelease n x) s = .next (s.semRelease n x) :=
  congrArg Host.Outcome.next (if_pos (by simp [hn, hx]))

theorem exec_semRecovered (hn : n < 64) (hx : ownerOk x = true) : exec (.semRecovered n x) s = .next (s.semRecover n x) :=
  congrArg Host.Outcome.next (if_pos (by simp [hn, hx]))

theorem exec_semBreak (hn : n < 64) (hx : ownerOk x = true) : exec (.semBreak n x) s = .next (s.semBreakOp n x) :=
  congrArg Host.Outcome.next (if_pos (by simp [hn, hx]))

/-! What each does to the semaphores: an update of one, whose value the case gives. -/

/-- The state has the semaphores of `s`, with the `n`-th updated. -/
def State.SemIs (s t : State) (n : Nat) (v : Sem) : Prop := t.semS n = v ∧ ∀ m, n ≠ m → t.semS m = s.semS m

theorem State.semIs_modSemS (f : Sem → Sem) : s.SemIs (s.modSemS n f) n (f (s.semS n)) :=
  ⟨State.modSemS_same _ _ _, fun _ hm => State.modSemS_other _ _ hm⟩

theorem State.SemIs.of_sem {t u : State} {v : Sem} (h : s.SemIs t n v) (e : u.sem = t.sem) : s.SemIs u n v :=
  ⟨(congrArg (fun l => l.look Sem.reset n) e).trans h.1, fun m hm => (congrArg (fun l => l.look Sem.reset m) e).trans (h.2 m hm)⟩

theorem State.semRelease_held (h : (s.semS n).st = .held) (ho : (s.semS n).owner = x) :
    s.SemIs (s.semRelease n x) n { s.semS n with st := .free, owner := 0x1FF } := by
  have released : s.semRelease n x = s.modSemS n (fun m => { m with st := .free, owner := 0x1FF }) := by simp [State.semRelease, h, ho]
  exact released ▸ State.semIs_modSemS _

theorem State.semRelease_recovering (h : (s.semS n).st = .recovering) (ho : (s.semS n).owner = x) :
    s.SemIs (s.semRelease n x) n { s.semS n with st := .broken, owner := 0x1FF } := by
  have released : s.semRelease n x = s.modSemS n (fun m => { m with st := .broken, owner := 0x1FF }) := by simp [State.semRelease, h, ho]
  exact released ▸ State.semIs_modSemS _

theorem State.semRelease_rejected (h : (s.semS n).st = .free ∨ (s.semS n).st = .broken ∨ (s.semS n).owner ≠ x) :
    s.SemIs (s.semRelease n x) n { s.semS n with rejects := satInc (s.semS n).rejects } := by
  have rejected : s.semRelease n x = s.semReject n := by
    obtain h | h | h := h <;> simp [State.semRelease, h]
  exact rejected ▸ State.semIs_modSemS _

theorem State.semRecover_recovering (h : (s.semS n).st = .recovering) (ho : (s.semS n).owner = x) :
    s.SemIs (s.semRecover n x) n { s.semS n with st := .held } := by
  have recovered : s.semRecover n x = s.modSemS n (fun m => { m with st := .held }) := by simp [State.semRecover, h, ho]
  exact recovered ▸ State.semIs_modSemS _

theorem State.semRecover_rejected (h : (s.semS n).st ≠ .recovering ∨ (s.semS n).owner ≠ x) :
    s.SemIs (s.semRecover n x) n { s.semS n with rejects := satInc (s.semS n).rejects } := by
  have rejected : s.semRecover n x = s.semReject n := by
    obtain h | h := h <;> simp [State.semRecover, h]
  exact rejected ▸ State.semIs_modSemS _

/-- SEM_BROKEN is an event: of the semaphores only the `n`-th changes. -/
theorem State.semIs_semBreakNow : s.SemIs (s.semBreakNow n) n { s.semS n with
    st := .broken, prev := (s.semS n).owner, owner := 0x1FF, breaks := satInc (s.semS n).breaks, level := true } :=
  have sems : (s.semBreakNow n).sem = (s.modSemS n _).sem :=
    State.limited_keeps (keeps_sem (by decide)) (fun _ k => State.raise_keeps (keeps_sem (by decide)) k) rfl
  (State.semIs_modSemS _).of_sem sems

theorem State.semBreakOp_tack (hx : x = 0x100) (h : (s.semS n).st = .held ∨ (s.semS n).st = .recovering) :
    s.semBreakOp n x = s.semBreakNow n := by
  obtain h | h := h <;> simp [State.semBreakOp, h, hx]

theorem State.semBreakOp_rejected (h : x ≠ 0x100 ∨ (s.semS n).st = .free ∨ (s.semS n).st = .broken) :
    s.semBreakOp n x = s.semReject n := by
  obtain h | h | h := h
  · exact if_neg (by rw [beq_false_of_ne h]; simp)
  · simp [State.semBreakOp, h]
  · simp [State.semBreakOp, h]

/-- No operation of a semaphore touches another. -/
theorem State.semRelease_other {m : Nat} (hm : n ≠ m) : (s.semRelease n x).semS m = s.semS m := by
  unfold State.semRelease State.semReject
  dsimp only
  split
  · exact State.modSemS_other _ _ hm
  · split <;> exact State.modSemS_other _ _ hm

theorem State.semRecover_other {m : Nat} (hm : n ≠ m) : (s.semRecover n x).semS m = s.semS m := by
  unfold State.semRecover State.semReject
  dsimp only
  split <;> exact State.modSemS_other _ _ hm

theorem State.semBreakOp_other {m : Nat} (hm : n ≠ m) : (s.semBreakOp n x).semS m = s.semS m := by
  unfold State.semBreakOp State.semReject
  dsimp only
  split
  · exact State.semIs_semBreakNow.2 m hm
  · exact State.modSemS_other _ _ hm

/-- Settles O39, one row of the table of R395 at a time. -/
theorem semaphores : Obligations.Semaphores := by
  refine ⟨?acquire, ?release, ?recovered, ?broken, fun _ _ => rfl⟩
  case acquire =>
    intro s n x hn hx
    refine ⟨_, exec_semAcquire hn hx, fun m hm => State.modSemS_other _ _ hm, ?_, ?_, ?_, ?_, ?_, ?_⟩ <;> rw [State.modSemS_same]
    · exact fun h => Sem.acquire_free h
    · exact fun h ho => by rw [Sem.acquire_held h, if_pos ho]
    · exact fun h ho => by rw [Sem.acquire_held h, if_neg ho]
    · exact fun h => Sem.acquire_broken h
    · exact fun h ho => by rw [Sem.acquire_recovering h, if_pos ho]
    · exact fun h ho => by rw [Sem.acquire_recovering h, if_neg ho]
  case release =>
    intro s n x hn hx
    exact ⟨_, exec_semRelease hn hx, fun m hm => State.semRelease_other hm, fun h ho => (State.semRelease_held h ho).1,
      fun h ho => (State.semRelease_recovering h ho).1, fun h => (State.semRelease_rejected h).1⟩
  case recovered =>
    intro s n x hn hx
    exact ⟨_, exec_semRecovered hn hx, fun m hm => State.semRecover_other hm, fun h ho => (State.semRecover_recovering h ho).1,
      fun h => (State.semRecover_rejected h).1⟩
  case broken =>
    intro s n x hn hx
    exact ⟨_, exec_semBreak hn hx, fun m hm => State.semBreakOp_other hm,
      fun hx h => State.semBreakOp_tack hx h ▸ State.semIs_semBreakNow.1,
      fun h => State.semBreakOp_rejected h ▸ State.modSemS_same _ _ _⟩

end Sys2Proof.Machine
end

section
/-! PROOF. The units of the Tack: timers, the UART, sensors, the log writer and the watchdog (R383 to R388, R398). -/

namespace Sys2Proof.Machine

variable {s : State}

/-! The timers (R383). -/

theorem exec_timerExpiry (j : Nat) : exec (.timerExpiry j) s = execTimerExpiry j s := rfl

theorem State.modDma_timer (k i : Nat) (f : DmaCh → DmaCh) : (s.modDma k f).timer i = s.timer i := rfl

theorem State.dmaArbitrate_timer (i : Nat) : s.dmaArbitrate.timer i = s.timer i := by
  unfold State.dmaArbitrate
  split
  · rfl
  · split
    · exact State.modDma_timer ..
    · rfl

/-- A start of no channel leaves the timers. -/
theorem State.dmaStartAll_nil_timer (i : Nat) : (s.dmaStartAll []).timer i = s.timer i := by
  unfold State.dmaStartAll
  split
  · rfl
  · exact State.dmaArbitrate_timer i

theorem State.wakeRise_timer (t : State) (i : Nat) : (State.wakeRise s t).timer i = t.timer i :=
  State.wakeRise_keeps (P := fun u => u.timer i = t.timer i) (fun c hc => by cases List.mem_singleton.1 hc; exact fun _ _ k => k) rfl

/-! The UART (R384 to R386). -/

theorem State.modUart_uart (f : Uart → Uart) : (s.modUart f).tck.uart = f s.tck.uart := rfl

theorem Uart.gain_status (u : Uart) (m : BitVec 3) : (u.gain m).status = u.status ||| m := by
  unfold Uart.gain
  split
  next same => exact same.symm
  next => rfl

theorem Uart.gain_rx (u : Uart) (m : BitVec 3) : (u.gain m).rx = u.rx := by
  unfold Uart.gain
  split <;> rfl

/-- A character enters a FIFO with room behind the others. -/
theorem Uart.receive_rx_of_room {u : Uart} {bits : List (Bool × Bool × Bool)} (start : (bits.map majority).head? = some false)
    (room : u.rx.length < 64) : ∃ c, (u.receive bits).rx = u.rx ++ [c] := by
  unfold Uart.receive
  rw [if_neg (by simp [start])]
  exact ⟨_, (congrArg Uart.rx (if_pos room)).trans (Uart.gain_rx _ _)⟩

/-- A character at a full FIFO is discarded, and sets OVERRUN. -/
theorem Uart.receive_of_full {u : Uart} {bits : List (Bool × Bool × Bool)} (start : (bits.map majority).head? = some false)
    (full : 64 ≤ u.rx.length) : (u.receive bits).rx = u.rx ∧ (u.receive bits).status.getLsbD 2 = true := by
  unfold Uart.receive
  rw [if_neg (by simp [start])]
  dsimp only
  rw [if_neg (by omega), Uart.gain_rx, Uart.gain_status]
  exact ⟨rfl, by simp⟩

theorem exec_uartRxChar (bits : List (Bool × Bool × Bool)) : exec (.uartRxChar bits) s = execUartRxChar bits s := rfl
theorem exec_uartBreak : exec .uartBreak s = execUartBreak s := rfl
theorem exec_uartRxRead : exec .uartRxRead s = execUartRxRead s := rfl
theorem exec_uartTxCharDone : exec .uartTxCharDone s = execUartTxCharDone s := rfl

theorem exec_uartTxWrite (v : Word) : exec (.uartTxWrite v) s = .next (s.modUart (fun u =>
    if u.tx.length < 64 then { u with tx := u.tx ++ [v.setWidth 8] } else u)) := rfl

theorem exec_uartStatusClear (v : Word) : exec (.uartStatusClear v) s = .next (s.modUart (fun u =>
    if (v >>> 24).setWidth 8 = u.seq then { u with status := 0 } else u)) := rfl

/-- An update of the UART outside REST wakes nothing. -/
theorem State.wakeRise_modUart (f : Uart → Uart) (h : s.glb.mode ≠ .rest) : State.wakeRise s (s.modUart f) = s.modUart f :=
  State.wakeRise_of_not_rest h

/-! The sensors (R387). -/

/-- A sample is what the sensor then holds. -/
theorem State.sampleTemp_temps (i : Nat) (v : Int) : (s.sampleTemp i v).tck.temps = s.tck.temps.put Sensor.reset i
    ((s.tck.temps.look Sensor.reset i).take 0 v) := by
  unfold State.sampleTemp
  dsimp only
  split
  · exact congrArg Tck.temps (State.limited_keeps (keeps_tck (by decide)) (fun _ k => State.raise_keeps (keeps_tck (by decide)) k) rfl)
  · rfl

theorem exec_sensorSample (temps volts : List Int) : exec (.sensorSample temps volts) s = execSensorSample temps volts s := rfl

/-- A sample of sensor 0 alone. -/
theorem exec_sensorSample_first {v : Int} (h : s.tck.snsFenced = false) :
    ∃ t, exec (.sensorSample [v] []) s = .next t ∧ t.tck = (s.sampleTemp 0 v).tck := by
  have bays : ((s.sampleTemp 0 v).each (List.range 4) State.takeBayTemp).tck = (s.sampleTemp 0 v).tck :=
    State.each_keeps (P := fun t => t.tck = (s.sampleTemp 0 v).tck) (fun _ _ k => State.takeBayTemp_keeps (keeps_tck (by decide)) k) rfl
  have run : exec (.sensorSample [v] []) s = .next (State.wakeRise s ((s.sampleTemp 0 v).each (List.range 4) State.takeBayTemp)) := by
    have sampled : s.each (([v].take 16).zipIdx) (fun p => State.sampleTemp p.2 p.1) = s.sampleTemp 0 v := rfl
    have none_sampled (t : State) : t.each ((([] : List Int).take 24).zipIdx) (fun p => State.sampleVolt p.2 p.1) = t := rfl
    simp only [exec_sensorSample, execSensorSample, h, Bool.false_eq_true, if_false, sampled, none_sampled]
  exact ⟨_, run, State.wakeRise_keeps (P := fun t => t.tck = (s.sampleTemp 0 v).tck) (keeps_tck (by decide)) bays⟩

/-- Above the HI threshold a sample sets HI. -/
theorem Sensor.take_hi {x : Sensor} {v : Int} (h : x.hiTh < v) : (x.take 0 v).hi = true := by
  simp [Sensor.take, h]

/-! The log writer (R388). -/

theorem exec_logWriterMove : exec .logWriterMove s = execLogWriterMove s := rfl

theorem exec_logWriterMove_of_nil (h : s.log.postq = []) : exec .logWriterMove s = .next s := by
  rw [exec_logWriterMove, execLogWriterMove, h]

theorem exec_logWriterMove_of_cons {e : LogEntry} {r : List LogEntry} (h : s.log.postq = e :: r) :
    exec .logWriterMove s = .next ((s.modLog (fun l => { l with postq := r })).logAppend e).logLost := by
  rw [exec_logWriterMove, execLogWriterMove, h]

/-- The delivery of an entry leaves the log. -/
theorem State.logAppend_log (e : LogEntry) : (s.logAppend e).log = { s.log.append e with times := (s.log.append e).times ++ [s.now] } :=
  State.deliver_keeps (keeps_log (by decide)) rfl

theorem State.logAppend_ring (e : LogEntry) : (s.logAppend e).log.ring = s.log.ring.put none (s.log.next.toNat % 8192) (some e) := by
  rw [State.logAppend_log]
  rfl

theorem State.logLost_of_none (h : s.log.lostPend = 0) : s.logLost = s := if_pos h

theorem LogS.append_of_room {l : LogS} {e : LogEntry} (h : l.next - l.flushed < 8192) :
    (l.append e).lost = l.lost ∧ (l.append e).lostPend = l.lostPend := by
  have room : decide (8192 ≤ (l.next - l.flushed).toNat) = false := decide_eq_false (Nat.not_le.2 (BitVec.lt_def.1 h))
  simp only [LogS.append, room]
  exact ⟨rfl, rfl⟩

/-! The watchdog (R398). -/

theorem exec_watchdogKick_of_accepted {v : Word} (h : s.wdogReason v = none) :
    exec (.watchdogKick v) s = .next (s.modTck (Tck.wdogApply s.now v)) := by
  show Host.Outcome.next (s.wdogWrite .tack v) = _
  rw [State.wdogWrite, h]

theorem Tck.wdogApply_kick {now : Nat} {v : Word} {t : Tck} (h : v >>> 16 = 0x5AC3) : t.wdogApply now v =
    { t with timeout := v.setWidth 16, kicked := true, expired := false, wdStart := now } := if_pos h

theorem Tck.wdogApply_other {now : Nat} {v : Word} {t : Tck} (h : v >>> 16 ≠ 0x5AC3) : t.wdogApply now v =
    { t with timeout := v.setWidth 16, badKicks := t.badKicks + 1 } := if_neg h

theorem exec_tackWdogWarn : exec .tackWdogWarn s = execTackWdogWarn s := rfl

/-- Settles O38: the updates of each unit, given above case by case, and what its events and a wake leave. -/
theorem tackUnits : Obligations.TackUnits := by
  refine ⟨?expiry, fun _ _ => rfl, ?rxChar, ?rxRoom, fun _ _ => Uart.receive_of_full, ?brk, ?read, ?readEmpty, ?write, ?writeFull,
    ?sent, ?clear, ?sample, fun _ _ => rfl, fun _ => exec_logWriterMove_of_nil, ?move, ?kick, ?badKick, ?warn, ?notRun⟩
  case expiry =>
    intro s j hj enabled awake channels _ due
    have run : exec (.timerExpiry j) s = .next (State.wakeRise s
        ((s.modTimer j (fun t => { t with level := true, enable := t.periodic, startAt := s.now })).dmaStartAll (s.timerChannels j))) := by
      rw [exec_timerExpiry, execTimerExpiry, if_pos (by simp [enabled, awake, hj, due])]
    refine ⟨_, run, ?_, fun i hi => ?_⟩ <;> rw [State.wakeRise_timer, channels, State.dmaStartAll_nil_timer]
    · exact State.modTimer_same ..
    · exact State.modTimer_other _ _ hi
  case rxChar =>
    intro s bits on whole awake
    rw [exec_uartRxChar, execUartRxChar, if_pos (by simp [on, whole]), State.wakeRise_modUart _ awake]
  case rxRoom =>
    intro u bits start room
    obtain ⟨c, rx⟩ := Uart.receive_rx_of_room start room
    rw [rx]
    exact ⟨by simp, List.prefix_append ..⟩
  case brk =>
    intro s on awake
    refine ⟨s.modUart (·.gain 2), ?_, Uart.gain_status _ _, Uart.gain_rx _ _⟩
    rw [exec_uartBreak, execUartBreak, if_pos on, State.wakeRise_modUart _ awake]
  case read =>
    intro s c r h
    refine ⟨_, exec_uartRxRead, ?_, ?_, commandFootprint _ _ _ exec_uartRxRead⟩ <;> simp [State.modUart_uart, h]
  case readEmpty =>
    intro s h
    exact ⟨_, exec_uartRxRead, by simp [State.modUart_uart, h]⟩
  case write =>
    intro s v room
    exact ⟨_, exec_uartTxWrite v, if_pos room, commandFootprint _ _ _ (exec_uartTxWrite v)⟩
  case writeFull =>
    intro s v full
    exact ⟨_, exec_uartTxWrite v, congrArg (fun u => { s.tck with uart := u }) (if_neg (by omega))⟩
  case sent =>
    intro s c r on h
    refine ⟨_, exec_uartTxCharDone.trans (congrArg Host.Outcome.next (if_pos on)), ?_⟩
    simp [State.modUart_uart, h]
  case clear =>
    intro s v h
    exact ⟨_, exec_uartStatusClear v, if_pos h⟩
  case sample =>
    intro s v inService _ above _
    obtain ⟨t, run, tck⟩ := exec_sensorSample_first (v := v) inService
    refine ⟨t, run, ?_⟩
    rw [tck, State.sampleTemp_temps, Tbl.look_put_same]
    exact ⟨Sensor.take_hi above, rfl, rfl⟩
  case move =>
    intro s e r h none_lost room
    obtain ⟨lost, pend⟩ := LogS.append_of_room (l := { s.log with postq := r }) (e := e) room
    have kept : (((s.modLog (fun l => { l with postq := r })).logAppend e).logLost) = (s.modLog (fun l => { l with postq := r })).logAppend e :=
      State.logLost_of_none (by rw [State.logAppend_log]; exact pend.trans none_lost)
    refine ⟨_, exec_logWriterMove_of_cons h, ?_, ?_, ?_, ?_⟩ <;> rw [kept]
    · rw [State.logAppend_log]
      rfl
    · rw [State.logAppend_log]
      rfl
    · rw [State.logAppend_ring]
      exact Tbl.look_put_same ..
    · rw [State.logAppend_log]
      exact lost
  case kick =>
    intro s v accepted value
    refine ⟨_, exec_watchdogKick_of_accepted accepted, ?_⟩
    rw [State.modTck, Tck.wdogApply_kick value]
    exact ⟨rfl, rfl, rfl, rfl⟩
  case badKick =>
    intro s v accepted value
    refine ⟨_, exec_watchdogKick_of_accepted accepted, ?_⟩
    rw [State.modTck, Tck.wdogApply_other value]
    exact ⟨rfl, rfl, rfl⟩
  case warn =>
    intro s runs fresh awake _ due
    refine ⟨_, exec_tackWdogWarn.trans (congrArg Host.Outcome.next (if_pos (by simp [runs, fresh, awake, due]))), ?_⟩
    exact State.wakeRise_keeps (keeps_tck (by decide))
      (State.limited_keeps (keeps_tck (by decide)) (fun _ k => State.raise_keeps (keeps_tck (by decide)) k) rfl)
  case notRun =>
    intro s h
    rw [exec_tackWdogWarn, execTackWdogWarn, if_neg (by simp [h])]

end Sys2Proof.Machine
end

section
/-! PROOF. The DMA channels of the Tack and its restarts (R371, R378 to R381, R398). -/

namespace Sys2Proof.Machine

variable {s : State} {k j : Nat}

/-! The choice of the next channel (R379). -/

theorem State.dmaArbitrate_of_running (hj : j < 8) (h : (s.dma j).st = .running) : s.dmaArbitrate = s :=
  if_pos (List.any_eq_true.2 ⟨j, List.mem_range.2 hj, by simp [h]⟩)

/-- With the path free and channel `k` alone PENDING, it runs. -/
theorem State.dmaArbitrate_of_pending (hk : k < 8) (h : (s.dma k).st = .pending) (others : ∀ i, i < 8 → k ≠ i → (s.dma i).st = .idle) :
    s.dmaArbitrate = s.modDma k (fun c => { c with st := .running }) := by
  have free : ¬(List.range 8).any (fun i => (s.dma i).st == .running) = true := by
    rw [List.any_eq_true]
    rintro ⟨i, hi, runs⟩
    by_cases e : k = i
    · simp [← e, h] at runs
    · simp [others i (List.mem_range.1 hi) e] at runs
  have first : (List.range 8).find? (fun i => (s.dma i).st == .pending) = some k := by
    rw [List.find?_range_eq_some]
    refine ⟨by simp [h], List.mem_range.2 hk, fun i hi => ?_⟩
    simp [others i (by omega) (by omega)]
  rw [State.dmaArbitrate, if_neg free, first]

theorem State.dmaArbitrate_of_idle (h : ∀ i, i < 8 → (s.dma i).st = .idle) : s.dmaArbitrate = s := by
  have free : ¬(List.range 8).any (fun i => (s.dma i).st == .running) = true := by
    rw [List.any_eq_true]
    rintro ⟨i, hi, runs⟩
    simp [h i (List.mem_range.1 hi)] at runs
  have none_waits : (List.range 8).find? (fun i => (s.dma i).st == .pending) = none :=
    List.find?_eq_none.2 fun i hi => by simp [h i (List.mem_range.1 hi)]
  rw [State.dmaArbitrate, if_neg free, none_waits]

/-- What leaves the DMA's registers leaves each channel. -/
theorem State.dma_congr {t : State} (h : t.tck = s.tck) (i : Nat) : t.dma i = s.dma i :=
  congrArg (fun x => x.dma.look DmaCh.reset i) h

theorem State.wakeRise_tck (t : State) : (State.wakeRise s t).tck = t.tck :=
  State.wakeRise_keeps (P := fun u => u.tck = t.tck) (keeps_tck (by decide)) rfl

/-! The start of a channel (R378). -/

theorem DmaCh.start_of_idle {c : DmaCh} (he : c.enable = true) (hi : c.st = .idle) : c.start =
    { c with st := .pending, wSrc := c.src, wDst := c.dst, remain := c.count.setWidth 32, level := false } := by
  simp [DmaCh.start, he, hi]

theorem DmaCh.start_of_running {c : DmaCh} (he : c.enable = true) (hr : c.st = .running) : c.start = { c with overrun := true } := by
  simp [DmaCh.start, he, hr]

theorem exec_dmaChannelStart (hk : k < 8) (hf : s.tck.dmaFenced = false) :
    exec (.dmaChannelStart k) s = .next (s.modDma k DmaCh.start).dmaArbitrate := by
  have started : s.dmaStartAll [k] = (s.modDma k DmaCh.start).dmaArbitrate := if_neg (by simp [hf])
  exact congrArg Host.Outcome.next ((if_pos hk).trans started)

/-! The end of a transfer (R379, R380). -/

theorem exec_dmaComplete : exec .dmaComplete s = execDmaComplete s := rfl

/-- An empty transfer copies nothing. -/
theorem exec_dmaComplete_of_empty (h : s.dmaRunning = some k) (he : (s.dma k).remain = 0) :
    exec .dmaComplete s = .next (State.wakeRise s (s.dmaEnd k)) := by
  have copied : s.copyWords (s.dma k).wSrc.toNat (s.dma k).wDst.toNat ((s.dma k).remain.toNat / 4) = (s, none) := by
    rw [he]
    rfl
  simp only [exec_dmaComplete, execDmaComplete, h, copied]

/-- With nothing chained to it and no other channel waiting, the end of a channel is its own. -/
theorem State.dmaEnd_dma (chain : s.dmaChained k = []) (others : ∀ i, i < 8 → k ≠ i → (s.dma i).st = .idle) :
    s.dmaEnd k = s.modDma k (fun c => { c with st := .idle, remain := 0, level := true }) := by
  have idle (i : Nat) (hi : i < 8) : ((s.modDma k (fun c => { c with st := .idle, remain := 0, level := true })).dma i).st = .idle := by
    by_cases e : k = i
    · rw [← e, State.modDma_same]
    · rw [State.modDma_other _ _ e, others i hi e]
  rw [State.dmaEnd, chain, State.dmaStartAll]
  split
  · rfl
  · exact State.dmaArbitrate_of_idle idle

/-- A bus error at the first word of a transfer has copied nothing. -/
theorem exec_dmaBusError_of_first {a : Word} (hr : (s.dma k).st = .running) (ha : (s.dma k).wSrc = a)
    (hlt : (s.dma k).wSrc < (s.dma k).wSrc + (s.dma k).remain) :
    exec (.dmaBusError k a) s = .next ((s.modDma k (fun c => { c with remain := c.remain - 0 })).dmaStop k a.toNat) := by
  have first : (if (s.dma k).wSrc ≤ a ∧ a < (s.dma k).wSrc + (s.dma k).remain then (a - (s.dma k).wSrc).toNat / 4
      else (a - (s.dma k).wDst).toNat / 4) = 0 := by
    rw [← ha, if_pos ⟨BitVec.le_refl _, hlt⟩, BitVec.sub_self]
    rfl
  show execDmaBusError k a s = _
  simp only [execDmaBusError, first, hr, Nat.zero_min]
  rfl

/-- R380: what the stop of every channel makes of channel `i`. -/
def dmaStopped (k i : Nat) (c : DmaCh) : DmaCh :=
  if i = k then { c with st := .stopped, busErr := true, level := true } else { c with st := .stopped, enable := false, level := true }

/-- The event of a bus error leaves the channels. -/
theorem State.dmaStop_tck (a : Nat) : (s.dmaStop k a).tck = (s.each (List.range 8) (fun i => State.modDma i (dmaStopped k i))).tck :=
  State.limited_keeps (keeps_tck (by decide)) (fun _ l => State.raise_keeps (keeps_tck (by decide)) l) rfl

theorem State.each_modDma_same (g : Nat → DmaCh → DmaCh) {n i : Nat} (hi : i < n) :
    (s.each (List.range n) (fun i => State.modDma i (g i))).dma i = g i (s.dma i) := by
  induction n with
  | zero => exact absurd hi (Nat.not_lt_zero i)
  | succ n ih =>
    rw [List.range_succ, State.each_append_singleton]
    by_cases e : n = i
    · subst e
      rw [State.modDma_same]
      congr 1
      exact List.foldlRecOn (motive := fun t : State => t.dma n = s.dma n) (List.range n) _ rfl
        fun t ht a ha => (State.modDma_other _ _ (Nat.ne_of_lt (List.mem_range.1 ha))).trans ht
    · rw [State.modDma_other _ _ e, ih (by omega)]

theorem State.dmaStop_dma (a : Nat) {i : Nat} (hi : i < 8) : (s.dmaStop k a).dma i = dmaStopped k i (s.dma i) :=
  (State.dma_congr (State.dmaStop_tck a) i).trans (State.each_modDma_same _ hi)

theorem dmaStopped_st (k i : Nat) (c : DmaCh) : (dmaStopped k i c).st = .stopped := by
  unfold dmaStopped
  split <;> rfl

theorem State.modDma_sram (f : DmaCh → DmaCh) : (s.modDma k f).tck.sram = s.tck.sram := rfl

theorem State.dmaStop_sram (a : Nat) : (s.dmaStop k a).tck.sram = s.tck.sram :=
  (congrArg Tck.sram (State.dmaStop_tck a)).trans
    (State.each_keeps (P := fun t => t.tck.sram = s.tck.sram) (fun _ _ l => l) rfl)

/-! A channel that is disabled, and one that is enabled (R380, R381). -/

theorem State.stopChannel_of_not_running (h : (s.dma k).st ≠ .running) :
    s.stopChannel k = (s.modDma k (DmaCh.disable (Config.freeWord s.freeCtr))).tickFree := by
  unfold State.stopChannel
  dsimp only
  rw [if_neg h]

theorem DmaCh.disable_of_pending {c : DmaCh} (free : Word) (h : c.st = .pending) : c.disable free = { c with enable := false, st := .idle } := by
  rw [DmaCh.disable, h]

theorem DmaCh.disable_not_running (c : DmaCh) (free : Word) : (c.disable free).st ≠ .running := by
  unfold DmaCh.disable
  split
  · exact nofun
  · exact nofun
  next notRunning _ => exact fun h => notRunning h

theorem exec_dmaDisable (hk : k < 8) : exec (.dmaDisable k) s = .next (s.stopChannel k).dmaArbitrate :=
  congrArg Host.Outcome.next (if_pos hk)

theorem exec_dmaEnable (hk : k < 8) : exec (.dmaEnable k) s = .next (s.modDma k (fun c =>
    if c.st = .stopped then { c with enable := true, st := .idle, busErr := false, overrun := false, level := false }
    else { c with enable := true })) := congrArg Host.Outcome.next (if_neg (by omega))

/-! The restart of the Tack (R371, R398). -/

theorem State.latch_stack (n : Nat) : (s.latch n).irc.stack = s.irc.stack := rfl

theorem State.endTxn_irc (n : Nat) (o : TxnOutcome) : (s.endTxn n o).irc = (s.latch (33 + n)).irc := by
  unfold State.endTxn
  dsimp only
  split <;> rfl

theorem State.abortTxn_stack (n : Nat) (o : TxnOutcome) : (s.abortTxn n o).irc.stack = s.irc.stack := by
  unfold State.abortTxn
  split
  · rfl
  · have mirrored (b : Bool) : ((s.endTxn n o).whenB b (State.mirrorTxn (.abort n))).irc = (s.endTxn n o).irc :=
      State.whenB_keeps (P := fun t => t.irc = (s.endTxn n o).irc) (fun _ l => State.mirrorTxn_keeps (keeps_irc (by decide)) l) rfl
    exact (congrArg Irc.stack (mirrored _)).trans ((congrArg Irc.stack (State.endTxn_irc n o)).trans (State.latch_stack _))

theorem State.abortBy_stack (p : Opener → Bool) : (s.abortBy p).irc.stack = s.irc.stack :=
  State.each_keeps (P := fun t => t.irc.stack = s.irc.stack)
    (fun i t h => by
      split
      · exact (State.abortTxn_stack i .aborted).trans h
      · exact h) rfl

/-- With no channel running, the stop of all channels leaves the interrupt controller and the count of resets. -/
theorem State.stopAllDma_of_none_running (h : ∀ i, i < 8 → (s.dma i).st ≠ .running) :
    s.stopAllDma.irc = s.irc ∧ s.stopAllDma.tck.wdResets = s.tck.wdResets := by
  obtain ⟨irc, resets, -⟩ := List.foldlRecOn
    (motive := fun t : State => t.irc = s.irc ∧ t.tck.wdResets = s.tck.wdResets ∧ ∀ i, i < 8 → (t.dma i).st ≠ .running)
    (List.range 8) (fun t i => t.stopChannel i) ⟨rfl, rfl, h⟩ fun t ht i hi => by
      obtain ⟨irc, resets, none_runs⟩ := ht
      rw [State.stopChannel_of_not_running (none_runs i (List.mem_range.1 hi))]
      refine ⟨irc, resets, fun m hm => ?_⟩
      show ((t.modDma i _).dma m).st ≠ .running
      by_cases e : i = m
      · rw [← e, State.modDma_same]
        exact DmaCh.disable_not_running _ _
      · rw [State.modDma_other _ _ e]
        exact none_runs m hm
  exact ⟨irc, resets⟩

/-- What a restart does at once to the controller and the count of resets, where no channel runs. -/
theorem State.resetTack_of_none_running (h : ∀ i, i < 8 → (s.dma i).st ≠ .running) :
    s.resetTack.irc.stack = [] ∧ s.resetTack.tck.wdResets = s.tck.wdResets := by
  obtain ⟨irc, resets⟩ := State.stopAllDma_of_none_running (s := s.ircReset) h
  have broken_irc : ((s.ircReset.stopAllDma).semBreakOwners (· == 0x100)).irc = s.ircReset.stopAllDma.irc :=
    State.semBreakOwners_keeps (keeps_irc (by decide)) rfl
  have broken_tck : ((s.ircReset.stopAllDma).semBreakOwners (· == 0x100)).tck = s.ircReset.stopAllDma.tck :=
    State.semBreakOwners_keeps (keeps_tck (by decide)) rfl
  have whole : s.resetTack = ((s.ircReset.stopAllDma).semBreakOwners (· == 0x100)).abortBy (· == .tack) := rfl
  have aborted_tck : (((s.ircReset.stopAllDma).semBreakOwners (· == 0x100)).abortBy (· == .tack)).tck = ((s.ircReset.stopAllDma).semBreakOwners (· == 0x100)).tck :=
    State.abortBy_keeps (keeps_tck (by decide)) rfl
  constructor
  · rw [whole, State.abortBy_stack, broken_irc, irc]
    rfl
  · rw [whole, aborted_tck, broken_tck, resets]
    rfl

/-- A restart of a Tack that is not held and whose boot ROM serves. -/
theorem State.restartTack_eq (cause : Nat) (hh : s.tck.st ≠ .held) (hf : s.tck.romFenced = false) :
    (s.restartTack cause).irc.stack = s.resetTack.irc.stack ∧ (s.restartTack cause).tck.st = .restarting ∧
      (s.restartTack cause).tck.wdResets = s.resetTack.tck.wdResets := by
  have whole : s.restartTack cause = (s.resetTack.modTck (fun t => { t with st := .restarting })).limited .tackRestarted 0 ms
      (State.raise .tackRestarted [i16 cause,
        .w32 (((s.resetTack.modTck (fun t => { t with st := .restarting })).tck.fwSeq + 1).setWidth 32)]) := by
    rw [State.restartTack, if_neg hh, if_neg (by simp [hf])]
  have irc : (s.restartTack cause).irc = (s.resetTack.modTck (fun t => { t with st := .restarting })).irc := by
    rw [whole]
    exact State.limited_keeps (keeps_irc (by decide)) (fun _ l => State.raise_keeps (keeps_irc (by decide)) l) rfl
  have tck : (s.restartTack cause).tck = (s.resetTack.modTck (fun t => { t with st := .restarting })).tck := by
    rw [whole]
    exact State.limited_keeps (keeps_tck (by decide)) (fun _ l => State.raise_keeps (keeps_tck (by decide)) l) rfl
  simp only [irc, tck, State.modTck_irc, State.modTck_tck, and_self]

theorem exec_watchdogSecondExpiry : exec .watchdogSecondExpiry s = execWatchdogSecondExpiry s := rfl

/-- The first reset of the watchdog in ten minutes. -/
theorem exec_watchdogSecondExpiry_of_first (hr : s.tck.st = .run) (he : s.tck.expired = true) (hd : s.deep = false) (ht : s.tck.wdTimes = [])
    (hn : s.tck.wdStart + 2 * s.tck.timeout.toNat * ms ≤ s.now) :
    exec .watchdogSecondExpiry s =
      .next ((s.modTck (fun t => { t with wdResets := satInc t.wdResets, wdTimes := [s.now] })).restartTack 2) := by
  have none_before : within tenMinutes s.now s.tck.wdTimes = [] := by rw [ht]; rfl
  have due : ¬s.now < s.tck.wdStart + 2 * s.tck.timeout.toNat * ms := by omega
  simp only [exec_watchdogSecondExpiry, execWatchdogSecondExpiry, none_before, hr, he, hd, due]
  rfl

/-- The firmware runs, whether a slot holds it or not. -/
theorem State.startFirmware_tck : s.startFirmware.tck.st = .run ∧ s.startFirmware.tck.fwSeq = s.tck.fwSeq + 1 ∧
    s.startFirmware.tck.expired = false ∧ s.startFirmware.tck.wdStart = s.now := by
  unfold State.startFirmware
  split <;> exact ⟨rfl, rfl, rfl, rfl⟩

theorem exec_tackRestarted (c : Nat) : exec (.tackRestarted c) s = execTackRestarted c s := rfl

/-- Settles O40: the commands of one channel, and what a restart finds where no channel runs. -/
theorem tackDma : Obligations.TackDma := by
  refine ⟨?start, ?overrun, ?complete, ?busError, ?disable, fun _ _ hk _ => exec_dmaEnable hk, ?enable, ?restarted, ?expiry, ?fresh⟩
  case start =>
    intro s k hk inService enabled idle others
    have pending : (s.modDma k DmaCh.start).dma k =
        { s.dma k with st := .pending, wSrc := (s.dma k).src, wDst := (s.dma k).dst, remain := (s.dma k).count.setWidth 32, level := false } := by
      rw [State.modDma_same, DmaCh.start_of_idle enabled idle]
    have rest (i : Nat) (hi : i < 8) (hk : k ≠ i) : ((s.modDma k DmaCh.start).dma i).st = .idle := by
      rw [State.modDma_other _ _ hk, others i hi hk]
    refine ⟨_, exec_dmaChannelStart hk inService, ?_, fun i hi => ?_⟩ <;> rw [State.dmaArbitrate_of_pending hk (congrArg DmaCh.st pending) rest]
    · rw [State.modDma_same, pending]
    · rw [State.modDma_other _ _ hi, State.modDma_other _ _ hi]
  case overrun =>
    intro s k hk inService enabled running
    have runs : (s.modDma k DmaCh.start).dma k = { s.dma k with overrun := true } := by
      rw [State.modDma_same, DmaCh.start_of_running enabled running]
    refine ⟨_, exec_dmaChannelStart hk inService, ?_, fun i hi => ?_⟩ <;>
      rw [State.dmaArbitrate_of_running hk ((congrArg DmaCh.st runs).trans running)]
    · exact runs
    · exact State.modDma_other _ _ hi
  case complete =>
    intro s k running done chain _ others
    refine ⟨_, exec_dmaComplete_of_empty running done, ?_, fun i hi => ?_, ?_⟩
    · rw [State.dma_congr (State.wakeRise_tck _), State.dmaEnd_dma chain others, State.modDma_same]
    · rw [State.dma_congr (State.wakeRise_tck _), State.dmaEnd_dma chain others, State.modDma_other _ _ hi]
    · rw [State.wakeRise_tck, State.dmaEnd_dma chain others, State.modDma_sram]
  case busError =>
    intro s k a hk running _ first within
    have failed : ∀ c : DmaCh, dmaStopped k k c = { c with st := .stopped, busErr := true, level := true } := fun _ => if_pos rfl
    have stopped := State.dmaStop_dma (s := s.modDma k (fun c => { c with remain := c.remain - 0 })) (k := k) a.toNat hk
    rw [State.modDma_same, failed] at stopped
    refine ⟨_, exec_dmaBusError_of_first running first within, ?_, ?_, ?_, ?_, fun i hi => ?_, (State.dmaStop_sram _).trans (State.modDma_sram _)⟩
    · rw [stopped]
    · rw [stopped]
    · rw [stopped]
    · rw [stopped]
      exact BitVec.sub_zero _
    · rw [State.dmaStop_dma _ hi]
      exact dmaStopped_st ..
  case disable =>
    rintro s k hk pending ⟨r, hr, runs⟩
    have disabled := State.stopChannel_of_not_running (s := s) (k := k) (by rw [pending]; exact nofun)
    have distinct : k ≠ r := by
      rintro rfl
      exact absurd (pending.symm.trans runs) (by decide)
    have still : (s.stopChannel k).dmaArbitrate = s.stopChannel k := by
      refine State.dmaArbitrate_of_running hr ?_
      rw [disabled]
      exact (congrArg DmaCh.st (State.modDma_other _ _ distinct)).trans runs
    have value : (s.stopChannel k).dma k = { s.dma k with enable := false, st := .idle } := by
      rw [disabled]
      exact (State.modDma_same ..).trans (DmaCh.disable_of_pending _ pending)
    refine ⟨_, exec_dmaDisable hk, ?_, ?_, fun i hi => ?_⟩ <;> rw [still]
    · rw [value]
    · rw [value]
    · rw [disabled]
      exact State.modDma_other _ _ hi
  case enable =>
    intro s k hk stopped
    refine ⟨_, exec_dmaEnable hk, ?_⟩
    rw [State.modDma_same, if_pos stopped]
    exact ⟨rfl, rfl, rfl⟩
  case restarted =>
    intro s c out restarting
    have run : exec (.tackRestarted c) s = .next s.startFirmware := by
      simp [exec_tackRestarted, execTackRestarted, out, restarting]
    exact ⟨_, run, State.startFirmware_tck⟩
  case expiry =>
    intro s runs expired awake serves first none_runs due
    obtain ⟨irc, st, wdResets⟩ := State.restartTack_eq (s := s.modTck (fun t => { t with wdResets := satInc t.wdResets, wdTimes := [s.now] })) 2
      (by show s.tck.st ≠ _; rw [runs]; exact nofun) serves
    obtain ⟨stack, resets⟩ := State.resetTack_of_none_running
      (s := s.modTck (fun t => { t with wdResets := satInc t.wdResets, wdTimes := [s.now] })) none_runs
    exact ⟨_, exec_watchdogSecondExpiry_of_first runs expired awake first due, st, wdResets.trans resets, irc.trans stack⟩
  case fresh =>
    intro s h
    simp [exec_watchdogSecondExpiry, execWatchdogSecondExpiry, h]

end Sys2Proof.Machine
end

section
/-! PROOF. What a packet or a line that errs may do to the rest of the device (R220, R233, R258, R402): the reactions of its pool or its
channel, and nothing else. The operations that free packets or flush lines can lead there; a property that survives those reactions is
kept by all of them. -/

namespace Sys2Proof.Machine

variable {P : State → Prop} {s : State}

/-- Whether each Ethernet port is fenced, and whether its link is up. -/
def State.portStates (s : State) : Nat → Bool × Bool := fun p => ((s.eth p).fenced, (s.eth p).link)

/-- The property survives the reactions to bad packets and lines: updates of memory, budget, latches and log, those of the Runner that fence
no port, and the reports of the sources below the outputs' (R402). -/
structure Survives (P : State → Prop) : Prop where
  quiet : Keeps [.drm, .blw, .irc, .log] P
  run : ∀ f t, (t.modRun f).portStates = t.portStates → P t → P (t.modRun f)
  contained : ∀ n r forced t, n < 344 → P t → P (t.recordContained n r forced)
  fatal : ∀ n t, n < 344 → P t → P (t.recordFatal n)
  fencedSrc : ∀ n t, n < 344 → P t → P (t.modFltSrc n fun x => { x with fenced := true })

/-! The Ladle and those that wait for its buffers (R26, R255). -/

theorem State.modEth_portStates {f : EthPort → EthPort} (h : ∀ e, ((f e).fenced, (f e).link) = (e.fenced, e.link)) (p : Nat) :
    (s.modEth p f).portStates = s.portStates :=
  funext fun j => s.modEth_leaves (v := fun e => (e.fenced, e.link)) h p j

namespace Survives

variable (u : Survives P)
include u

theorem modEth {f : EthPort → EthPort} (h : ∀ e, ((f e).fenced, (f e).link) = (e.fenced, e.link)) (p : Nat) (k : P s) : P (s.modEth p f) :=
  u.run _ _ (State.modEth_portStates h p) k

theorem pfcCheck (k : P s) : P s.pfcCheck := by
  unfold State.pfcCheck
  refine State.each_keeps (fun p t k => ?_) k
  refine ite_keeps (u.run _ _ rfl (u.modEth (fun _ => by rfl) p k)) (ite_keeps (u.run _ _ rfl (u.modEth (fun _ => by rfl) p k)) k)

theorem allocPkt {t : State} {i j : Pkt} (k : P s) (e : s.allocPkt i = some (t, j)) : P t := by
  unfold State.allocPkt at e
  split at e
  · cases e
  · obtain ⟨n, -, found⟩ := List.exists_of_findSome?_eq_some e
    obtain ⟨y, -, taken⟩ := Option.map_eq_some_iff.mp found
    obtain ⟨rfl, -⟩ := Prod.mk.inj taken
    exact u.pfcCheck (u.run _ _ rfl (u.run _ _ rfl k))

theorem copyPkt {t : State} {i c j : Pkt} (k : P s) (e : s.copyPkt i c = some (t, j)) : P t := by
  unfold State.copyPkt at e
  split at e
  · cases e
  · obtain ⟨rfl, -⟩ := Prod.mk.inj (Option.some.inj e)
    exact u.run _ _ rfl (u.run _ _ rfl k)

theorem allocCopies {t : State} {ks js : List Pkt} (k : P s) (e : s.allocCopies ks = some (t, js)) : P t := by
  cases ks with
  | nil => exact (Prod.mk.inj (Option.some.inj e)).1 ▸ k
  | cons i r =>
    obtain ⟨first, taken, copies⟩ := Option.bind_eq_some_iff.mp e
    refine List.foldlRecOn (motive := fun acc => ∀ y, acc = some y → P y.1) _ _ ?_ ?_ _ copies
    · rintro _ ⟨⟩
      exact u.allocPkt k taken
    · intro acc ih c _ y found
      obtain ⟨z, before, found⟩ := Option.bind_eq_some_iff.mp found
      obtain ⟨w, copy, rfl⟩ := Option.map_eq_some_iff.mp found
      exact u.copyPkt (ih z before) copy

theorem voqPut (e : Nat) (i : Pkt) (k : P s) : P (s.voqPut e i) := by
  unfold State.voqPut State.statIn State.modStat State.modVoq
  exact u.run _ _ rfl (u.run _ _ rfl k)

theorem retryOne (ks : List Pkt) (k : P s) : P (s.retryOne ks) := by
  unfold State.retryOne
  split
  · exact u.run _ _ rfl k
  · split
    next taken => exact State.each_keeps (fun _ _ k => u.voqPut _ _ k) (u.allocCopies k taken)
    next => exact u.run _ _ rfl k

theorem retryOut (k : P s) : P s.retryOut :=
  State.each_keeps (fun ks _ k => u.retryOne ks k) (u.run _ _ rfl k)

/-! A bad pointer, and the packets that are freed (R258). -/

theorem fencePool {p : Nat} (hp : p < 4) (k : P s) : P (s.fencePool p) := by
  unfold State.fencePool
  refine ite_keeps k (ite_keeps (u.fatal _ _ (by omega) (u.run _ _ rfl k)) ?_)
  exact State.wantAdmission_keeps (u.quiet.mono (by decide)) (State.unitFenced_keeps (u.quiet.mono (by decide))
    (u.fencedSrc _ _ (by omega) (u.run _ _ rfl k)))

theorem badPointer {i : Pkt} (hp : i.pool < 4) (check : Nat) (k : P s) : P (s.badPointer i check) := by
  have reported : P (((s.latch (194 + i.pool)).limited .ldlPointer i.pool ms (State.raise .ldlPointer [i16 i.pool, i16 check])).recordContained
      (333 + i.pool) .restart false) :=
    u.contained _ _ _ _ (by omega) (State.limited_keeps (u.quiet.mono (by decide)) (fun _ k => State.raise_keeps (u.quiet.mono (by decide)) k)
      (State.latch_keeps (u.quiet.mono (by decide)) k))
  unfold State.badPointer
  exact ite_keeps (u.fencePool hp (u.run _ _ rfl reported)) (u.run _ _ rfl reported)

theorem freePkt (i : Pkt) (k : P s) : P (s.freePkt i) := by
  unfold State.freePkt
  refine u.pfcCheck (u.retryOut ?_)
  by_cases hp : 4 ≤ i.pool
  · rw [if_pos hp]
    exact k
  · rw [if_neg hp]
    dsimp only
    split
    · exact u.badPointer (by omega) _ (u.run _ _ rfl k)
    · exact u.run _ _ rfl (u.run _ _ rfl k)

theorem dropCoded (k : P s) : P s.dropCoded := by
  unfold State.dropCoded
  refine State.each_keeps (fun _ _ k => ?_) (State.each_keeps (fun _ _ k => ?_) (u.run _ _ rfl k))
  · exact u.run _ _ rfl (State.each_keeps (fun i _ k => u.freePkt i k) k)
  · exact u.run _ _ rfl (State.each_keeps (fun i _ k => u.freePkt i k) k)

/-! A line that errs, and the lines that are flushed (R220, R233). -/

theorem fenceChan {n cause src : Nat} (hs : src < 344) (k : P s) : P (s.fenceChan n cause src) := by
  have event (t : State) (k : P t) : P (t.limited .dramChannelFenced n ms (State.raise .dramChannelFenced [i16 n, i16 cause])) :=
    State.limited_keeps (u.quiet.mono (by decide)) (fun _ k => State.raise_keeps (u.quiet.mono (by decide)) k) k
  have fenced : P ((s.modChan n (fun c => { c with st := .fenced, merge := [] })).latch (173 + n)) :=
    State.latch_keeps (u.quiet.mono (by decide)) (State.modChan_keeps (u.quiet.mono (by decide)) k)
  unfold State.fenceChan
  refine ite_keeps k (ite_keeps (u.fatal _ _ hs (event _ fenced)) ?_)
  refine State.wantAdmission_keeps (u.quiet.mono (by decide)) (event _ (State.unitFenced_keeps (u.quiet.mono (by decide)) (u.fencedSrc _ _ hs ?_)))
  exact State.each_keeps (fun _ _ k => State.modChan_keeps (u.quiet.mono (by decide)) k) (State.modDrm_keeps (u.quiet.mono (by decide)) fenced)

theorem fenceIfDue {n : Nat} (hn : n < 12) (k : P s) : P (s.fenceIfDue n) := by
  have src : chanSrc n < 344 := by unfold chanSrc; omega
  unfold State.fenceIfDue
  exact ite_keeps (u.fenceChan src (u.contained _ _ _ _ src k)) (ite_keeps (u.fenceChan src (u.contained _ _ _ _ src k)) k)

theorem flushMerge {n : Nat} (hn : n < 12) (m : Merge) (k : P s) : P (s.flushMerge n m) := by
  unfold State.flushMerge
  dsimp only
  have flushed (t : State) (k : P t) (kind : ReadKind) : P (((t.logErr n kind 1 m.part m.line).touch n m.line).fenceIfDue n) :=
    u.fenceIfDue hn (State.touch_keeps (u.quiet.mono (by decide)) (State.logErr_keeps (u.quiet.mono (by decide)) k))
  have started : P (s.modChan n (fun c => { c with merge := c.merge.filter (fun x => x.line != m.line) })) :=
    State.modChan_keeps (u.quiet.mono (by decide)) k
  exact ite_keeps (flushed _ started _) (State.putLine_keeps (u.quiet.mono (by decide)) (flushed _ started _))

theorem flushAll {n : Nat} (hn : n < 12) (k : P s) : P (s.flushAll n) :=
  State.each_keeps (fun m _ k => u.flushMerge hn m k) k

end Survives

end Sys2Proof.Machine
end

section
/-! PROOF. The fault collector: what a report of each class records, and the reports of one cycle (R402 to R406, R430). -/

namespace Sys2Proof.Machine

variable {P : State → Prop} {s : State} {n : Nat}

theorem State.fltSrc_congr {t : State} (h : t.flt = s.flt) (m : Nat) : t.fltSrc m = s.fltSrc m :=
  congrArg (fun f => f.srcs.look FltSrc.reset m) h

theorem State.collects_iff : s.collects = true ↔ s.glb.inReset = false ∧ s.glb.mode ≠ .halt := by
  simp [State.collects]

/-! A fatal report (R411, R430). -/

theorem State.setMode_mode (m : Mode) (r : Role) (sub : BitVec 2) : (s.setMode m r sub).glb.mode = m := by
  unfold State.setMode
  dsimp only
  split <;> rfl

theorem State.enterHalt_glb (src : Nat) (h : s.glb.mode ≠ .halt) :
    (s.enterHalt src).glb.mode = .halt ∧ (s.enterHalt src).glb.faultOutN = false ∧ (s.enterHalt src).glb.own = false := by
  have run : s.enterHalt src = ((s.setMode .halt s.glb.role 0).modGlb (fun g => { g with faultOutN := false, own := false, adoptWait := false })).raise
      .deviceHalted [i16 src] := if_neg h
  rw [run]
  exact ⟨State.setMode_mode .., rfl, rfl⟩

theorem State.enterHalt_flt (src : Nat) : (s.enterHalt src).flt = s.flt :=
  State.enterHalt_keeps (keeps_flt (by decide)) rfl

theorem State.setMode_latch_of {m : Mode} {r : Role} {sub : BitVec 2} {k : Nat} (h : k ∈ s.irc.latch) : k ∈ (s.setMode m r sub).irc.latch := by
  unfold State.setMode
  dsimp only
  split
  · exact h
  · exact State.latch_mem_of _ 32 h

theorem State.enterHalt_latch_of (src : Nat) {k : Nat} (h : k ∈ s.irc.latch) : k ∈ (s.enterHalt src).irc.latch := by
  unfold State.enterHalt
  split
  · exact h
  · exact State.setMode_latch_of h

/-- A fatal report enters HALT. -/
theorem State.recordFatal_glb (n : Nat) (h : s.glb.mode ≠ .halt) :
    (s.recordFatal n).glb.mode = .halt ∧ (s.recordFatal n).glb.faultOutN = false ∧ (s.recordFatal n).glb.own = false :=
  State.enterHalt_glb n h

/-- R430: what a fatal report records of its source. -/
def FltSrc.fatal (x : FltSrc) : FltSrc := { x with last := 3, reaction := 7 }

/-- What a fatal report records. -/
theorem State.recordFatal_flt (n : Nat) : (s.recordFatal n).flt = { (s.modFltSrc n FltSrc.fatal).flt with
    seq := s.flt.seq + 1, new := true, fatal := true, lastSrc := BitVec.ofNat 9 n, lastClass := 3 } :=
  State.enterHalt_flt n

theorem State.recordFatal_srcs (n : Nat) : (s.recordFatal n).flt.srcs = (s.modFltSrc n FltSrc.fatal).flt.srcs :=
  (congrArg Flt.srcs (State.recordFatal_flt n) :)

theorem State.recordFatal_fltSrc (n : Nat) : (s.recordFatal n).fltSrc n = (s.fltSrc n).fatal := by
  rw [State.fltSrc, State.recordFatal_srcs]
  exact State.modFltSrc_same s n FltSrc.fatal

theorem State.recordFatal_other {m : Nat} (h : n ≠ m) : (s.recordFatal n).fltSrc m = s.fltSrc m := by
  rw [State.fltSrc, State.recordFatal_srcs]
  exact State.modFltSrc_other s FltSrc.fatal h

/-! A contained report (R430). -/

/-- R430: what a contained report with reaction `r` records of its source. -/
def FltSrc.contained (now : Nat) (r : Reaction) (x : FltSrc) : FltSrc :=
  { x with last := 2, reaction := r.code, ct := satInc x.ct, times := now :: within sec now x.times }

/-- What a contained report records. -/
theorem State.recordContained_flt (n : Nat) (r : Reaction) (forced : Bool) : (s.recordContained n r forced).flt =
    { (s.modFltSrc n (FltSrc.contained s.now r)).flt with
      seq := s.flt.seq + 1, new := true, lastSrc := BitVec.ofNat 9 n, lastClass := 2 } :=
  State.limited_keeps (keeps_flt (by decide)) (fun _ k => State.post_keeps (keeps_flt (by decide)) k) rfl

theorem State.recordContained_srcs (n : Nat) (r : Reaction) (forced : Bool) :
    (s.recordContained n r forced).flt.srcs = (s.modFltSrc n (FltSrc.contained s.now r)).flt.srcs :=
  (congrArg Flt.srcs (State.recordContained_flt n r forced) :)

theorem State.recordContained_fltSrc (n : Nat) (r : Reaction) (forced : Bool) :
    (s.recordContained n r forced).fltSrc n = (s.fltSrc n).contained s.now r := by
  rw [State.fltSrc, State.recordContained_srcs]
  exact State.modFltSrc_same s n (FltSrc.contained s.now r)

theorem State.recordContained_other {m : Nat} (r : Reaction) (forced : Bool) (h : n ≠ m) :
    (s.recordContained n r forced).fltSrc m = s.fltSrc m := by
  rw [State.fltSrc, State.recordContained_srcs]
  exact State.modFltSrc_other s (FltSrc.contained s.now r) h

/-! What survives the reactions to bad packets and lines. -/

theorem Survives.and {Q : State → Prop} (u : Survives P) (v : Survives Q) : Survives (fun t => P t ∧ Q t) where
  quiet := fun c hc => by
    have hu := u.quiet c hc
    have hv := v.quiet c hc
    simp only [List.mem_cons, List.not_mem_nil, or_false] at hc
    obtain rfl | rfl | rfl | rfl := hc
    · exact fun h s k => ⟨hu h s k.1, hv h s k.2⟩
    · exact fun h s k => ⟨hu h s k.1, hv h s k.2⟩
    · exact fun h s e k => ⟨hu h s e k.1, hv h s e k.2⟩
    · exact fun h s k => ⟨hu h s k.1, hv h s k.2⟩
  run := fun f t h k => ⟨u.run f t h k.1, v.run f t h k.2⟩
  contained := fun n r forced t h k => ⟨u.contained n r forced t h k.1, v.contained n r forced t h k.2⟩
  fatal := fun n t h k => ⟨u.fatal n t h k.1, v.fatal n t h k.2⟩
  fencedSrc := fun n t h k => ⟨u.fencedSrc n t h k.1, v.fencedSrc n t h k.2⟩

/-- A property of the collector alone that the records of sources below 344 keep. -/
theorem survives_of_flt {Q : Flt → Prop} (contained : ∀ n r forced t, n < 344 → Q t.flt → Q (State.recordContained n r forced t).flt)
    (fatal : ∀ n t, n < 344 → Q t.flt → Q (State.recordFatal n t).flt)
    (fenced : ∀ n t, n < 344 → Q t.flt → Q (State.modFltSrc n (fun x => { x with fenced := true }) t).flt) : Survives (fun t => Q t.flt) where
  quiet := fun c hc => by
    simp only [List.mem_cons, List.not_mem_nil, or_false] at hc
    obtain rfl | rfl | rfl | rfl := hc
    · exact fun _ _ k => k
    · exact fun _ _ k => k
    · exact fun _ _ _ k => k
    · exact fun _ _ k => k
  run := fun _ _ _ k => k
  contained := contained
  fatal := fatal
  fencedSrc := fenced

/-- The entry of an output's source, or of one above, survives. -/
theorem survives_fltSrc (h : 344 ≤ n) (x : FltSrc) : Survives (fun t => t.fltSrc n = x) :=
  survives_of_flt (Q := fun f => f.srcs.look FltSrc.reset n = x) (fun _ r forced _ lt k => (State.recordContained_other r forced (by omega)).trans k)
    (fun _ _ lt k => (State.recordFatal_other (by omega)).trans k) (fun _ _ lt k => (State.modFltSrc_other _ _ (by omega)).trans k)

theorem survives_st2110Out (b : Bool) : Survives (fun t => t.flt.st2110Out = b) :=
  survives_of_flt (Q := fun f => f.st2110Out = b) (fun _ r forced _ _ k => (congrArg Flt.st2110Out (State.recordContained_flt _ r forced)).trans k)
    (fun _ _ _ k => (congrArg Flt.st2110Out (State.recordFatal_flt _)).trans k) (fun _ _ _ k => k)

theorem survives_new : Survives (fun t => t.flt.new = true) :=
  survives_of_flt (Q := fun f => f.new = true) (fun _ r forced _ _ _ => congrArg Flt.new (State.recordContained_flt _ r forced))
    (fun _ _ _ _ => congrArg Flt.new (State.recordFatal_flt _)) (fun _ _ _ k => k)

theorem State.portStates_congr {t : State} (h : t.run = s.run) : t.portStates = s.portStates :=
  congrArg (fun (r : Run) p => ((r.ports.look EthPort.reset p).fenced, (r.ports.look EthPort.reset p).link)) h

theorem survives_portStates (x : Nat → Bool × Bool) : Survives (fun t => t.portStates = x) where
  quiet := fun c hc => by
    simp only [List.mem_cons, List.not_mem_nil, or_false] at hc
    obtain rfl | rfl | rfl | rfl := hc
    · exact fun _ _ k => k
    · exact fun _ _ k => k
    · exact fun _ _ _ k => k
    · exact fun _ _ k => k
  run := fun _ _ h k => h.trans k
  contained := fun _ _ _ _ _ k => (State.portStates_congr (State.recordContained_keeps (keeps_run (by decide)) rfl)).trans k
  fatal := fun _ _ _ k => (State.portStates_congr (State.recordFatal_keeps (keeps_run (by decide)) rfl)).trans k
  fencedSrc := fun _ _ _ k => k

theorem Keeps.append {l m : List Comp} (u : Keeps l P) (v : Keeps m P) : Keeps (l ++ m) P :=
  fun c hc => (List.mem_append.1 hc).elim (u c) (v c)

/-- What survives those reactions, and is of neither the outputs, the Girth link nor the mode, stands after a fence's outcome (R366). -/
theorem Survives.fenceDone (u : Survives P) (v : Keeps [.out, .glb, .grt] P) (k : P s) : P s.fenceDone := by
  have w := u.quiet.append v
  have handed (b : Bool) (t : State) (k : P t) : P (t.handOver b) := by
    unfold State.handOver
    refine State.limited_keeps (w.mono (by decide)) (fun _ k => State.raise_keeps (w.mono (by decide)) k) ?_
    refine State.gateAll_keeps (w.mono (by decide)) (State.emitHeartbeat_keeps (w.mono (by decide)) (u.dropCoded ?_))
    exact State.modGlb_keeps (w.mono (by decide)) (State.gPut_keeps (w.mono (by decide)) k)
  have degraded (t : State) (k : P t) : P t.enterDegraded := State.enterDegraded_keeps (w.mono (by decide)) k
  unfold State.fenceDone State.fenceOutcome
  refine ite_keeps k (ite_keeps k ?_)
  dsimp only
  split
  · exact State.modGlb_keeps (w.mono (by decide)) k
  · exact ite_keeps (degraded _ (handed _ _ k)) k
  · exact degraded _ k
  · exact k

/-! The reports of one cycle (R406). -/

theorem inPllFence_single : inPllFence [n] n = false := by
  simp [inPllFence]
  omega

theorem State.takeReport_of_live (bays : List Nat) (forced : Bool) {r : Report} (hc : s.collects = true) (hn : r.src < 416) (hm : s.masked r.src = false) :
    s.takeReport bays forced r = match r.cls with
      | .none => s
      | .corrected => s.correct r.src r.aux
      | .contained => s.contain bays r.src r.aux forced
      | .fatal => s.recordFatal r.src := by
  have on := (State.collects_iff.1 hc).2
  exact if_neg (by simp [hn, hm, on])

theorem State.collect_fatal (forced : Bool) (a : Nat) (hn : n < 416) (hm : s.masked n = false) : s.collect forced [⟨n, .fatal, a⟩] = s.recordFatal n := by
  simp [State.collect, ofClass, hn, hm, State.each]

section
variable (forced : Bool) (a : Nat) (hc : s.collects = true) (hn : n < 416) (hm : s.masked n = false)
include hc hn hm

theorem State.collect_corrected : s.collect forced [⟨n, .corrected, a⟩] = s.correct n a := by
  have taken := State.takeReport_of_live (s := s) [] forced (r := ⟨n, .corrected, a⟩) hc hn hm
  simp [State.collect, ofClass, hn, hm, State.each, taken]

theorem State.collect_contained : ∃ bays, s.collect forced [⟨n, .contained, a⟩] = s.contain bays n a forced := by
  have taken := fun bays => State.takeReport_of_live (s := s) bays forced (r := ⟨n, .contained, a⟩) hc hn hm
  refine ⟨([n].filterMap fencesBay).eraseDups, ?_⟩
  simp [State.collect, ofClass, hn, hm, State.each, taken, inPllFence_single, List.filterMap]

end

/-- Reports of masked sources leave the device as it is. -/
theorem State.collect_of_masked (forced : Bool) {rs : List Report} (h : ∀ r ∈ rs, s.masked r.src = true) : s.collect forced rs = s := by
  have live : rs.filter (fun r => decide (r.src < 416) && !s.masked r.src) = [] :=
    List.filter_eq_nil_iff.2 fun r hr => by simp [h r hr]
  simp [State.collect, live, ofClass, State.each]

theorem exec_faultReport {rs : List Report} (hc : s.collects = true) : exec (.faultReport rs) s = .next (s.collect false rs) :=
  congrArg Host.Outcome.next (if_pos hc)

theorem exec_faultReport_of_off {rs : List Report} (hc : s.collects = false) : exec (.faultReport rs) s = .next s :=
  congrArg Host.Outcome.next (if_neg (by simp [hc]))

end Sys2Proof.Machine
end

section
/-! PROOF. Fault reports: the reactions of a cycle (R402 to R406, R411, R430). -/

namespace Sys2Proof.Machine

variable {s : State} {n : Nat}

/-! A fatal report pre-empts the others (R406). -/

theorem ofClass_mem {c : FaultClass} {rs : List Report} {r : Report} : r ∈ ofClass c rs ↔ r ∈ rs ∧ r.cls = c := by
  simp [ofClass, List.mem_mergeSort]

/-- The reports of a class begin with one of the least source. -/
theorem ofClass_head {c : FaultClass} {rs l : List Report} {f : Report} (h : ofClass c rs = f :: l) :
    (f ∈ rs ∧ f.cls = c) ∧ ∀ r ∈ rs, r.cls = c → f.src ≤ r.src := by
  have first : f ∈ ofClass c rs := h ▸ List.mem_cons_self
  refine ⟨ofClass_mem.1 first, fun r hr hc => ?_⟩
  have sorted : (ofClass c rs).Pairwise (fun a b => decide (a.src ≤ b.src) = true) :=
    List.pairwise_mergeSort (fun a b c => by simpa using fun h g => Nat.le_trans h g) (fun a b => by simpa using Nat.le_total a.src b.src) _
  rw [h, List.pairwise_cons] at sorted
  have found : r ∈ f :: l := h ▸ ofClass_mem.2 ⟨hr, hc⟩
  obtain rfl | found := List.mem_cons.1 found
  · exact Nat.le_refl _
  · simpa using sorted.1 r found

theorem State.logReport_flt (r : Report) : ∃ f, s.logReport r = s.modFltSrc r.src f := ⟨_, rfl⟩

/-- What the logging of a report leaves: everything but the entry of its source. -/
theorem State.logReport_leaves (r : Report) : (s.logReport r).glb = s.glb ∧ (∃ srcs, (s.logReport r).flt = { s.flt with srcs := srcs }) ∧
    ∀ m, r.src ≠ m → (s.logReport r).fltSrc m = s.fltSrc m := by
  obtain ⟨f, eq⟩ := s.logReport_flt r
  rw [eq]
  exact ⟨rfl, ⟨_, rfl⟩, fun m hm => State.modFltSrc_other _ _ hm⟩

/-- Reports of other sources that are logged leave the mode, the record of the fatal one, and its entry. -/
theorem State.each_logReport {rs : List Report} (h : ∀ r ∈ rs, r.src ≠ n) : (s.each rs State.logReport).glb = s.glb ∧
    (∃ srcs, (s.each rs State.logReport).flt = { s.flt with srcs := srcs }) ∧ (s.each rs State.logReport).fltSrc n = s.fltSrc n := by
  refine List.foldlRecOn (motive := fun t : State => t.glb = s.glb ∧ (∃ srcs, t.flt = { s.flt with srcs := srcs }) ∧ t.fltSrc n = s.fltSrc n) rs _
    ⟨rfl, ⟨_, rfl⟩, rfl⟩ fun t ⟨glb, ⟨srcs, flt⟩, entry⟩ r hr => ?_
  obtain ⟨glb', ⟨srcs', flt'⟩, others⟩ := t.logReport_leaves r
  exact ⟨glb'.trans glb, ⟨srcs', by rw [flt', flt]⟩, (others n (h r hr)).trans entry⟩

/-- A cycle whose live fatal report of the least source is `r`. -/
theorem State.collect_of_fatal (forced : Bool) {rs : List Report} {r : Report} (hr : r ∈ rs) (hf : r.cls = .fatal) (hn : r.src < 416)
    (hm : s.masked r.src = false) (least : ∀ q ∈ rs, q.cls = .fatal → q.src < 416 → s.masked q.src = false → r.src ≤ q.src)
    (same : ∀ q ∈ rs, q.src = r.src → q.cls = .fatal) :
    ∃ others : List Report, (∀ q ∈ others, q.src ≠ r.src) ∧ s.collect forced rs = (s.recordFatal r.src).each others State.logReport := by
  have live : r ∈ rs.filter (fun r => decide (r.src < 416) && !s.masked r.src) := List.mem_filter.2 ⟨hr, by simp [hn, hm]⟩
  cases e : ofClass .fatal (rs.filter (fun r => decide (r.src < 416) && !s.masked r.src)) with
  | nil => exact absurd (e ▸ ofClass_mem.2 ⟨live, hf⟩) List.not_mem_nil
  | cons f l =>
    obtain ⟨⟨mem, fatal⟩, head⟩ := ofClass_head e
    obtain ⟨given, sound⟩ := List.mem_filter.1 mem
    simp only [Bool.and_eq_true, decide_eq_true_eq, Bool.not_eq_true'] at sound
    have src : f.src = r.src := Nat.le_antisymm (head r live hf) (least f given fatal sound.1 sound.2)
    refine ⟨(rs.filter (fun r => decide (r.src < 416) && !s.masked r.src)).filter (fun r => r.cls != .fatal), fun q hq eq => ?_, ?_⟩
    · obtain ⟨mem, other⟩ := List.mem_filter.1 hq
      simp [same q (List.mem_filter.1 mem).1 eq] at other
    · simp only [State.collect, e, src]

/-! A corrected report (R403). -/

theorem FltSrc.within_length (now : Nat) (ts : List Nat) : (within sec now ts).length ≤ ts.length := List.length_filter_le ..

/-- R430: what a corrected report records of its source. -/
def FltSrc.corrected (x : FltSrc) : FltSrc := { x with last := 1, reaction := 0, ce := satInc x.ce }

theorem State.recordCorrected_flt (n : Nat) : (s.recordCorrected n).flt = (s.modFltSrc n FltSrc.corrected).flt := by
  unfold State.recordCorrected
  exact ite_keeps (P := fun t : State => t.flt = (s.modFltSrc n FltSrc.corrected).flt)
    (State.limited_keeps (keeps_flt (by decide)) (fun _ k => State.raise_keeps (keeps_flt (by decide)) k) rfl) rfl

/-- Below 256 within a second a corrected report is recorded, and that is all. -/
theorem State.correct_of_few (a : Nat) (h : (s.fltSrc n).ceTimes.length < 255) : s.correct n a =
    (s.recordCorrected n).modFltSrc n (fun x => { x with ceTimes := s.now :: within sec s.now (s.fltSrc n).ceTimes }) := by
  have few : ¬256 ≤ (s.now :: within sec s.now (s.fltSrc n).ceTimes).length := by
    have := FltSrc.within_length s.now (s.fltSrc n).ceTimes
    rw [List.length_cons]
    omega
  unfold State.correct
  simp only [few, if_false]

/-- What a corrected report below 256 within a second does. -/
theorem State.correct_record (a : Nat) (h : (s.fltSrc n).ceTimes.length < 255) :
    (s.correct n a).fltSrc n = { s.fltSrc n with
        last := 1, reaction := 0, ce := satInc (s.fltSrc n).ce, ceTimes := s.now :: within sec s.now (s.fltSrc n).ceTimes } ∧
      (∀ m, n ≠ m → (s.correct n a).fltSrc m = s.fltSrc m) ∧ (s.correct n a).flt.seq = s.flt.seq ∧ (s.correct n a).flt.new = s.flt.new ∧
      frame [.flt, .log] s (s.correct n a) := by
  have flt := State.recordCorrected_flt (s := s) n
  rw [State.correct_of_few a h]
  refine ⟨?_, fun m hm => ?_, ?_, ?_, ?_⟩
  · rw [State.modFltSrc_same, State.fltSrc_congr flt, State.modFltSrc_same]
    rfl
  · rw [State.modFltSrc_other _ _ hm, State.fltSrc_congr flt, State.modFltSrc_other _ _ hm]
  · exact (congrArg Flt.seq flt :)
  · exact (congrArg Flt.new flt :)
  · exact frame_of_keeps fun _ u k => State.modFltSrc_keeps (u.mono (by decide)) (State.recordCorrected_keeps (u.mono (by decide)) k)

/-! Bays (R402, R408). -/

theorem fencesBay_lt {b : Nat} (h : fencesBay n = some b) : 256 ≤ n ∧ n < 413 ∧ fatalOnly n = false := by
  unfold fencesBay srcBay at h
  split at h
  next low =>
    have : n < 413 ∧ n ≠ 331 ∧ n ≠ 398 ∧ n ≠ 403 ∧ n ≠ 408 := by
      rw [if_neg (by omega)] at h
      split at h
      · omega
      · split at h
        · omega
        · split at h
          · omega
          · cases h
    refine ⟨low, this.1, ?_⟩
    simp [fatalOnly]
    omega
  next => cases h

theorem State.recordContained_bay (n : Nat) (r : Reaction) (forced : Bool) (b : Nat) : (s.recordContained n r forced).bay b = s.bay b :=
  have kept : (s.recordContained n r forced).blw = s.blw := State.recordContained_keeps (keeps_blw (by decide)) rfl
  State.bay_congr (congrArg (·.bays) kept) b

/-- The contained reaction of a bay's own source fences the bay. -/
theorem State.contain_bay {b : Nat} (bays : List Nat) (a : Nat) (forced : Bool) (hh : s.glb.mode ≠ .halt) (hb : fencesBay n = some b) :
    s.contain bays n a forced = (s.recordContained n .fenceBay forced).fenceBay b n := by
  obtain ⟨-, -, reports⟩ := fencesBay_lt hb
  unfold State.contain
  rw [if_neg hh, if_neg (by simp [reports]), hb]

/-- R408: a core of a bay that is fenced. -/
def CoreS.fencedOff (x : CoreS) : CoreS :=
  { x.restartAll with fenced := true, encTask := none, stalled := false, reload := false, waking := false, granted := false }

/-- R408: what is left of the bay itself once its cores have stopped, with the event and the admission it calls for. -/
def State.closeBay (b src : Nat) (s : State) : State :=
  (((s.modBay b (fun y => { y with fenced := true, changing := none })).modRail b
    (fun r => { r with grants := [], queue := [], held := r.standing })).unitFenced src 5).wantAdmission 1

theorem State.closeBay_bay (b src : Nat) : ((s.closeBay b src).bay b).fenced = true := by
  have kept : (s.closeBay b src).bay b = (s.modBay b (fun y => { y with fenced := true, changing := none })).bay b :=
    State.bay_congr (State.unitFenced_keeps (P := fun t => t.blw.bays = (s.modBay b _).blw.bays) (fun c hc => by
      cases List.mem_singleton.1 hc
      exact fun _ _ k => k) rfl) b
  rw [kept, State.modBay_same]

theorem State.closeBay_core (b src c : Nat) : (s.closeBay b src).core c = s.core c :=
  State.core_congr (State.wantAdmission_keeps (keeps_cores (by decide)) (State.unitFenced_keeps (keeps_cores (by decide))
    (State.modRail_keeps (keeps_cores (by decide)) (State.modBay_keeps (keeps_cores (by decide)) rfl)))) c

theorem State.closeBay_admitPend (b src : Nat) : (s.closeBay b src).blw.admitPend.isSome = true := rfl

/-- A fence of a bay ends with its eight cores, and the bay. -/
theorem State.fenceBay_of_open {b : Nat} (src : Nat) (h : (s.bay b).fenced = false) : ∃ u : State, s.fenceBay b src =
    (u.each ((List.range 8).map (8 * b + ·)) (fun c t => (t.modCore c CoreS.fencedOff).semBreakOwners (ownerOfCore c))).closeBay b src := by
  rw [State.fenceBay, if_neg (by simp [h])]
  exact ⟨_, rfl⟩

theorem State.fenceBay_bay (b src : Nat) : ((s.fenceBay b src).bay b).fenced = true := by
  cases h : (s.bay b).fenced
  · obtain ⟨u, eq⟩ := State.fenceBay_of_open src h
    rw [eq, State.closeBay_bay]
  · rw [State.fenceBay, if_pos h, h]

/-- A core that is fenced among others is fenced. -/
theorem State.each_fencedOff {cs : List Nat} {c : Nat} (hc : c ∈ cs) :
    ((s.each cs (fun c t => (t.modCore c CoreS.fencedOff).semBreakOwners (ownerOfCore c))).core c).fenced = true := by
  refine State.each_of_mem (P := fun t : State => (t.core c).fenced = true) hc (fun t => ?_) fun d t k => ?_
  · rw [State.semBreakOwners_core, State.modCore_same]
    rfl
  · rw [State.semBreakOwners_core]
    by_cases e : d = c
    · rw [e, State.modCore_same]
      rfl
    · rw [State.modCore_other _ _ e]
      exact k

/-- A bay that is fenced now: its eight cores are fenced with it, and an admission is called for. -/
theorem State.fenceBay_cores {b : Nat} (src : Nat) (h : (s.bay b).fenced = false) :
    (∀ c, c / 8 = b → ((s.fenceBay b src).core c).fenced = true) ∧ (s.fenceBay b src).blw.admitPend.isSome = true := by
  obtain ⟨u, eq⟩ := State.fenceBay_of_open src h
  rw [eq]
  refine ⟨fun c hc => ?_, State.closeBay_admitPend ..⟩
  rw [State.closeBay_core]
  exact State.each_fencedOff (List.mem_map.2 ⟨c % 8, List.mem_range.2 (by omega), by omega⟩)

/-! The fence of an output unit (R402). -/

theorem State.maskSrcs_single : s.maskSrcs [n] = s.modFltSrc n (fun x => { x with fenced := true }) := rfl

/-- The contained reaction of the packetiser's source. -/
theorem State.contain_st2110 (bays : List Nat) (a : Nat) (forced : Bool) (hh : s.glb.mode ≠ .halt) :
    s.contain bays 344 a forced = s.fenceUnit 344 forced (State.modFlt (fun f => { f with st2110Out := true })) := by
  unfold State.contain
  rw [if_neg hh]
  rfl

/-- What the fence of the packetiser has recorded before its outcome. -/
theorem State.fenceUnit_st2110 (forced : Bool) : ∃ u : State,
    s.fenceUnit 344 forced (State.modFlt (fun f => { f with st2110Out := true })) = u.fenceDone ∧ u.glb = s.glb ∧ u.flt.st2110Out = true ∧
      u.flt.new = true ∧ u.flt.lastSrc = 344 ∧ u.fltSrc 344 = { (s.fltSrc 344).contained s.now .fenceUnit with fenced := true } := by
  have flt := State.recordContained_flt (s := s) 344 .fenceUnit forced
  have events (t : State) : (t.unitFenced 344 3).flt = t.flt := State.unitFenced_keeps (keeps_flt (by decide)) rfl
  refine ⟨_, rfl, ?_, ?_, ?_, ?_, ?_⟩
  · exact State.unitFenced_keeps (keeps_glb (by decide)) (State.maskSrcs_keeps (keeps_glb (by decide))
      (State.recordContained_keeps (keeps_glb (by decide)) rfl))
  · rw [events]
    rfl
  · rw [events]
    exact congrArg Flt.new flt
  · rw [events]
    exact congrArg Flt.lastSrc flt
  · rw [State.fltSrc_congr (events _), State.maskSrcs_single, State.modFltSrc_same]
    exact congrArg (fun x : FltSrc => { x with fenced := true }) (State.recordContained_fltSrc ..)

/-- What stands of the packetiser's fence after its outcome. -/
theorem State.contain_st2110_record (bays : List Nat) (a : Nat) (forced : Bool) (hh : s.glb.mode ≠ .halt) :
    (s.contain bays 344 a forced).flt.st2110Out = true ∧ (s.contain bays 344 a forced).flt.new = true ∧
      (s.contain bays 344 a forced).fltSrc 344 = { (s.fltSrc 344).contained s.now .fenceUnit with fenced := true } ∧
      (s.glb.mode = .solo → (s.contain bays 344 a forced).flt.lastSrc = 344) := by
  obtain ⟨u, eq, glb, out, new, last, entry⟩ := State.fenceUnit_st2110 (s := s) forced
  rw [State.contain_st2110 bays a forced hh, eq]
  obtain ⟨⟨out, new⟩, entry⟩ := Survives.fenceDone
    ((survives_st2110Out true).and survives_new |>.and (survives_fltSrc (Nat.le_refl 344) _)) (fun c hc => by
      simp only [List.mem_cons, List.not_mem_nil, or_false] at hc
      obtain rfl | rfl | rfl := hc <;> exact fun _ _ k => k) ⟨⟨out, new⟩, entry⟩
  refine ⟨out, new, entry, fun solo => ?_⟩
  have still : u.fenceDone = u := by
    have mode : u.glb.mode = .solo := by rw [glb, solo]
    unfold State.fenceDone State.fenceOutcome
    simp [mode]
  rw [still, last]

/-- Settles O41: a cycle is its fatal report of the least source, or its one report taken by class. -/
theorem faultReports : Obligations.FaultReports := by
  refine ⟨?fatal, ?corrected, ?bay, ?unit, ?masked, fun s rs off => exec_faultReport_of_off off⟩
  case fatal =>
    intro s rs r collects mem fatal lt live least same
    obtain ⟨others, distinct, run⟩ := State.collect_of_fatal (s := s) false mem fatal lt live least same
    obtain ⟨glb, ⟨srcs, flt⟩, entry⟩ := State.each_logReport (s := s.recordFatal r.src) distinct
    obtain ⟨mode, out, own⟩ := State.recordFatal_glb r.src (State.collects_iff.1 collects).2
    refine ⟨_, (exec_faultReport collects).trans (congrArg Host.Outcome.next run), ?_⟩
    rw [glb, flt, entry, State.recordFatal_flt, State.recordFatal_fltSrc]
    exact ⟨mode, out, own, rfl, rfl, rfl, rfl, rfl, rfl, rfl⟩
  case corrected =>
    intro s n a collects lt live few
    exact ⟨_, (exec_faultReport collects).trans (congrArg Host.Outcome.next (State.collect_corrected false a collects lt live)),
      State.correct_record a few⟩
  case bay =>
    intro s n a b collects bay _ lt live inService
    obtain ⟨bays, run⟩ := State.collect_contained false a collects lt live
    rw [State.contain_bay bays a false (State.collects_iff.1 collects).2 bay] at run
    have kept : ((s.recordContained n .fenceBay false).bay b).fenced = false := by
      rw [State.recordContained_bay, inService]
    obtain ⟨cores, admission⟩ := State.fenceBay_cores n kept
    exact ⟨_, (exec_faultReport collects).trans (congrArg Host.Outcome.next run), State.fenceBay_bay .., cores, admission⟩
  case unit =>
    intro s a collects live
    obtain ⟨bays, run⟩ := State.collect_contained false a collects (by decide) live
    obtain ⟨out, new, entry, last⟩ := State.contain_st2110_record bays a false (State.collects_iff.1 collects).2
    refine ⟨_, (exec_faultReport collects).trans (congrArg Host.Outcome.next run), out, ?_, ?_, ?_, new, last⟩ <;> rw [entry] <;> rfl
  case masked =>
    intro s rs masked
    cases off : s.collects
    · exact exec_faultReport_of_off off
    · rw [exec_faultReport off, State.collect_of_masked false masked]

end Sys2Proof.Machine
end

section
/-! PROOF. Reloading a unit, the wire check, forced faults and the clearing of FLT_STAT (R401 to R407, R430, R462). -/

namespace Sys2Proof.Machine

variable {s : State} {n : Nat}

/-- An update of one entry of the collector is an update of that alone. -/
theorem State.modFltSrc_frame (f : FltSrc → FltSrc) : frame [.flt] s (s.modFltSrc n f) :=
  frame_of_keeps fun _ u k => State.modFltSrc_keeps u k

/-! The commands. -/

theorem exec_reloadDone : exec (.reloadDone n) s = execReloadDone n s := rfl

section
variable (hc : s.collects = true) (hn : n < 416) (hm : s.masked n = false)
include hc hn hm

theorem exec_wireCheck_of_live (pass : Bool) : exec (.wireCheck n pass) s = .next (
    if pass && !(s.fltSrc n).forceWire then s.modFltSrc n (fun x => { x with wireFail := false })
    else if (s.fltSrc n).wireFail then s.wireFault n
    else s.modFltSrc n (fun x => { x with wireFail := true })) :=
  congrArg Host.Outcome.next (if_neg (by simp [hc, hn, hm]))

theorem exec_wireCheck_of_fail {pass : Bool} (hf : pass = false ∨ (s.fltSrc n).forceWire = true) : exec (.wireCheck n pass) s = .next (
    if (s.fltSrc n).wireFail then s.wireFault n else s.modFltSrc n (fun x => { x with wireFail := true })) := by
  rw [exec_wireCheck_of_live hc hn hm, if_neg]
  obtain h | h := hf <;> simp [h]

theorem exec_wireCodeInvalid_of_live : exec (.wireCodeInvalid n) s = .next (s.wireFault n) :=
  congrArg Host.Outcome.next (if_neg (by simp [hc, hn, hm]))

end

theorem exec_wireCodeInvalid_of_masked (hm : s.masked n = true) : exec (.wireCodeInvalid n) s = .next s :=
  congrArg Host.Outcome.next (if_pos (by simp [hm]))

/-! A wire fault (R405). -/

/-- R405: what a wire fault records before its reaction. -/
def State.wireNoted (n : Nat) (s : State) : State :=
  ((s.modFltSrc n (fun x => { x with wire := true, wireFail := false })).latch 38).limited .fltWire n ms (State.raise .fltWire [i16 n])

theorem State.wireFault_eq : s.wireFault n = (s.wireNoted n).contain [] n 0 false := rfl

theorem State.wireNoted_glb : (s.wireNoted n).glb = s.glb :=
  State.limited_keeps (keeps_glb (by decide)) (fun _ k => State.raise_keeps (keeps_glb (by decide)) k) rfl

theorem State.wireNoted_wire : ((s.wireNoted n).fltSrc n).wire = true := by
  have flt : (s.wireNoted n).flt = (s.modFltSrc n (fun x => { x with wire := true, wireFail := false })).flt :=
    State.limited_keeps (keeps_flt (by decide)) (fun _ k => State.raise_keeps (keeps_flt (by decide)) k) rfl
  rw [State.fltSrc_congr flt, State.modFltSrc_same]

theorem State.wireNoted_latch : 38 ∈ (s.wireNoted n).irc.latch := by
  have irc : (s.wireNoted n).irc = ((s.modFltSrc n (fun x => { x with wire := true, wireFail := false })).latch 38).irc :=
    State.limited_keeps (keeps_irc (by decide)) (fun _ k => State.raise_keeps (keeps_irc (by decide)) k) rfl
  rw [irc]
  exact State.latch_mem _ 38

theorem State.contain_fatalOnly (bays : List Nat) (a : Nat) (forced : Bool) (hh : s.glb.mode ≠ .halt) (hf : fatalOnly n = true) :
    s.contain bays n a forced = s.recordFatal n := by
  unfold State.contain
  rw [if_neg hh, if_pos hf]

theorem State.recordFatal_latch_of {k : Nat} (h : k ∈ s.irc.latch) : k ∈ (s.recordFatal n).irc.latch := State.enterHalt_latch_of n h

/-! Forced faults (R407). -/

theorem State.masked_modFltSrc {f : FltSrc → FltSrc} (h : ∀ x, (f x).fenced = x.fenced) (m : Nat) : (s.modFltSrc n f).masked m = s.masked m := by
  have fenced : ((s.modFltSrc n f).fltSrc m).fenced = (s.fltSrc m).fenced := by
    by_cases e : n = m
    · rw [← e, State.modFltSrc_same, h]
    · rw [State.modFltSrc_other _ _ e]
  rw [State.masked, fenced]
  rfl

section
variable {w : Writer} {v : Word} (hn : n < 416)
include hn

theorem exec_faultForce_of_accepted (hr : s.writeReason w false (.fltSrc n) v = none) : exec (.faultForce w n v) s = .next (s.setFltSrc n v) := by
  show execFaultForce w n v s = _
  rw [execFaultForce, if_neg (by omega), hr]

theorem exec_faultForce_of_refused {k : BitVec 4} (hr : s.writeReason w false (.fltSrc n) v = some k) :
    exec (.faultForce w n v) s = .next (s.werr w k (0x10000 + 4 * n)) := by
  show execFaultForce w n v s = _
  rw [execFaultForce, if_neg (by omega), hr]

end

/-- R407: the entry of a source whose FORCE fields are written. -/
def FltSrc.forced (v : Word) (x : FltSrc) : FltSrc := { x with force := v.extractLsb' 30 2, forceWire := v.getLsbD 29 }

theorem State.setFltSrc_none {v : Word} (h : v.extractLsb' 30 2 = (0 : BitVec 2)) : s.setFltSrc n v = s.modFltSrc n (FltSrc.forced v) :=
  if_pos (by simp [h])

/-- A corrected class that appears acts once, as a report does. -/
theorem State.setFltSrc_corrected {v : Word} (h : v.extractLsb' 30 2 = (1 : BitVec 2)) (hc : s.collects = true)
    (hn : n < 416) (hm : s.masked n = false) (ho : (s.fltSrc n).force = 0) :
    s.setFltSrc n v = (s.modFltSrc n (FltSrc.forced v)).correct n 0 := by
  have taken := State.collect_corrected (s := s.modFltSrc n (FltSrc.forced v)) (n := n) true 0 hc hn
    (by rw [State.masked_modFltSrc (f := FltSrc.forced v) (fun _ => rfl), hm])
  have code : classOfCode (v.extractLsb' 30 2) = .corrected := by
    rw [h]
    rfl
  rw [← taken]
  unfold State.setFltSrc
  dsimp only
  rw [if_neg (by simp only [h, ho]; simpa [State.collects, State.modFltSrc, State.modFlt] using hc), code]
  rfl

theorem State.correct_keeps_of_few {P : State → Prop} (u : Keeps [.flt, .log] P) (a : Nat) (h : (s.fltSrc n).ceTimes.length < 255) (k : P s) :
    P (s.correct n a) := by
  rw [State.correct_of_few a h]
  exact State.modFltSrc_keeps (u.mono (by decide)) (State.recordCorrected_keeps (u.mono (by decide)) k)

/-- FORCE = 0b11 by the Tack without FORCE_FATAL_EN is out of range. -/
theorem State.writeReason_fatal {v : Word} (h : v.extractLsb' 30 2 = (3 : BitVec 2)) (he : s.flt.forceFatalEn = false) :
    s.writeReason .tack false (.fltSrc n) v = some 1 := by
  have range : s.rangeBad (.fltSrc n) v = true := by
    simp [State.rangeBad, h, he]
  have free : s.txnOnly (.fltSrc n) v = false := by
    simp [State.txnOnly, Reg.txnMask]
  simp [State.writeReason, Reg.platform, State.writerScope, State.stateBad, free, range]

/-- Settles O42: each command is one update of the source's entry, or one report. -/
theorem faultCommands : Obligations.FaultCommands := by
  refine ⟨?reload, ?reloadHeld, ?pass, ?first, ?second, ?fatal, ?unit, ?masked, ?free, ?corrected, ?refused, ?clear, ?stale⟩
  case reload =>
    intro s n runs
    have run : exec (.reloadDone n) s = .next (s.modFltSrc n (fun x => { x with reloading := [] })) :=
      exec_reloadDone.trans (congrArg Host.Outcome.next (if_pos runs))
    exact ⟨_, run, State.modFltSrc_same .., fun m hm => State.modFltSrc_other _ _ hm, State.modFltSrc_frame _⟩
  case reloadHeld =>
    intro s n held
    exact exec_reloadDone.trans (congrArg Host.Outcome.next (if_neg held))
  case pass =>
    intro s n collects lt live free
    have run := exec_wireCheck_of_live collects lt live true
    rw [if_pos (by simp [free])] at run
    exact ⟨_, run, State.modFltSrc_same .., fun m hm => State.modFltSrc_other _ _ hm, State.modFltSrc_frame _⟩
  case first =>
    intro s n pass collects lt live fails clean
    have run := exec_wireCheck_of_fail collects lt live fails
    rw [if_neg (by simp [clean])] at run
    exact ⟨_, run, State.modFltSrc_same .., fun m hm => State.modFltSrc_other _ _ hm, State.modFltSrc_frame _⟩
  case second =>
    intro s n pass collects lt live fails before
    rw [exec_wireCheck_of_fail collects lt live fails, if_pos before, exec_wireCodeInvalid_of_live collects lt live]
  case fatal =>
    intro s n collects lt live only
    have on : (s.wireNoted n).glb.mode ≠ .halt := by
      rw [State.wireNoted_glb]
      exact (State.collects_iff.1 collects).2
    have run := exec_wireCodeInvalid_of_live collects lt live
    rw [State.wireFault_eq, State.contain_fatalOnly [] 0 false on only] at run
    refine ⟨_, run, ?_, (State.recordFatal_glb n on).1, congrArg Flt.fatal (State.recordFatal_flt n), State.recordFatal_latch_of State.wireNoted_latch⟩
    rw [State.recordFatal_fltSrc]
    exact State.wireNoted_wire
  case unit =>
    intro s collects live
    have on : (s.wireNoted 344).glb.mode ≠ .halt := by
      rw [State.wireNoted_glb]
      exact (State.collects_iff.1 collects).2
    obtain ⟨out, -, entry, -⟩ := State.contain_st2110_record [] 0 false on
    refine ⟨_, exec_wireCodeInvalid_of_live collects (by decide) live, ?_, ?_, out⟩ <;> rw [State.wireFault_eq, entry]
    exact State.wireNoted_wire
  case masked =>
    intro s n masked
    exact exec_wireCodeInvalid_of_masked masked
  case free =>
    intro s w n v lt accepted none_forced
    have run := exec_faultForce_of_accepted lt accepted
    rw [State.setFltSrc_none none_forced] at run
    refine ⟨_, run, ?_, fun m hm => State.modFltSrc_other _ _ hm, State.modFltSrc_frame _⟩
    rw [State.modFltSrc_same, FltSrc.forced, none_forced]
  case corrected =>
    intro s w n v lt accepted class_ collects live idle few
    have run := exec_faultForce_of_accepted lt accepted
    rw [State.setFltSrc_corrected class_ collects lt live idle] at run
    have few : ((s.modFltSrc n (FltSrc.forced v)).fltSrc n).ceTimes.length < 255 := by
      rw [State.modFltSrc_same]
      exact few
    have entry := (State.correct_record (s := s.modFltSrc n (FltSrc.forced v)) 0 few).1
    rw [State.modFltSrc_same] at entry
    refine ⟨_, run, ?_, ?_, ?_, frame_of_keeps fun _ u k => State.correct_keeps_of_few u 0 few (State.modFltSrc_keeps (u.mono (by decide)) k)⟩ <;>
      rw [entry]
    · exact class_
    · rfl
  case refused =>
    intro s n v lt class_ off
    exact exec_faultForce_of_refused lt (State.writeReason_fatal class_ off)
  case clear =>
    intro s v seq
    exact congrArg Host.Outcome.next (if_pos seq)
  case stale =>
    intro s v seq
    exact congrArg Host.Outcome.next (if_neg seq)

end Sys2Proof.Machine
end

section
/-! PROOF. The loss of supplies, of the package's temperature and of its clocks, and the PCI Express link's interrupt (R377, R436, R443 to
R447). -/

namespace Sys2Proof.Machine

variable {s : State} {n : Nat}

/-! The reports of losses. -/

section
variable (hc : s.collects = true) (hn : n < 416) (hm : s.masked n = false)
include hc hn hm

theorem State.reports_fatal : s.reports .fatal n = s.recordFatal n := by
  rw [State.reports, if_pos hc, State.collect_fatal false 0 hn hm]

theorem State.reports_contained : ∃ bays, s.reports .contained n = s.contain bays n 0 false := by
  rw [State.reports, if_pos hc]
  exact State.collect_contained false 0 hc hn hm

/-- A fatal loss enters HALT on its source. -/
theorem State.reports_halts : (s.reports .fatal n).glb.mode = .halt ∧ (s.reports .fatal n).glb.faultOutN = false ∧
    (s.reports .fatal n).flt.lastSrc = BitVec.ofNat 9 n ∧ (s.reports .fatal n).flt.fatal = true ∧ (s.reports .fatal n).flt.lastClass = 3 := by
  obtain ⟨mode, out, -⟩ := State.recordFatal_glb n (State.collects_iff.1 hc).2
  rw [State.reports_fatal hc hn hm, State.recordFatal_flt]
  exact ⟨mode, out, rfl, rfl, rfl⟩

/-- A loss of a bay fences it. -/
theorem State.reports_bay {b : Nat} (hb : fencesBay n = some b) : ((s.reports .contained n).bay b).fenced = true := by
  obtain ⟨bays, run⟩ := State.reports_contained hc hn hm
  rw [run, State.contain_bay bays 0 false (State.collects_iff.1 hc).2 hb]
  exact State.fenceBay_bay ..

end

/-! The commands. -/

theorem exec_supplyComparatorTrip (r : Nat) : exec (.supplyComparatorTrip r) s = execSupplyComparatorTrip r s := rfl

theorem exec_supplyComparatorTrip_bay {r : Nat} (h : r < 4) : exec (.supplyComparatorTrip r) s = .next (s.reports .contained (409 + r)) := by
  rw [exec_supplyComparatorTrip, execSupplyComparatorTrip, if_pos h]

theorem exec_supplyComparatorTrip_package {r : Nat} (h : 4 ≤ r) (h' : r < 12) :
    exec (.supplyComparatorTrip r) s = .next (s.reports .fatal 408) := by
  rw [exec_supplyComparatorTrip, execSupplyComparatorTrip, if_neg (by omega), if_pos h']

theorem exec_supplyComparatorTrip_warn {r : Nat} (h : 12 ≤ r) (h' : r < 14) :
    exec (.supplyComparatorTrip r) s = .next (s.modFsh (fun f => { f with lastWarn := some s.now })) := by
  rw [exec_supplyComparatorTrip, execSupplyComparatorTrip, if_neg (by omega), if_neg (by omega), if_pos h']

theorem exec_pllLockLoss (p : Sys2Proof.Pll) : exec (.pllLockLoss p) s = execPllLockLoss p s := rfl

theorem exec_pllLockLoss_of_locked (p : Sys2Proof.Pll) (h : s.glb.pllLock = true) :
    exec (.pllLockLoss p) s = .next (s.reports (pllReport p).1 (pllReport p).2) := by
  rw [exec_pllLockLoss, execPllLockLoss, if_pos h]

/-- The PLLs whose loss is fatal report sources 398 and 403. -/
theorem pllReport_fatal_lt {p : Sys2Proof.Pll} (h : pllReport p = (.fatal, n)) : n < 416 := by
  cases p with
  | root => cases h; decide
  | ddr5 => cases h; decide
  | bay b => cases h
  | ethernet => cases h
  | pcie => cases h
  | displayPort => cases h
  | girth => cases h

theorem fencesBay_supply {r : Nat} (h : r < 4) : fencesBay (409 + r) = some r := by
  unfold fencesBay srcBay
  rw [if_pos (by omega), if_neg (by omega), if_neg (by omega), if_neg (by omega), if_pos (by omega)]
  exact congrArg some (by omega)

theorem fencesBay_pll {b : Nat} (h : b < 4) : fencesBay (399 + b) = some b := by
  unfold fencesBay srcBay
  rw [if_pos (by omega), if_neg (by omega), if_neg (by omega), if_pos (by omega)]
  exact congrArg some (by omega)

/-! The Ethernet PLL (R402): its four ports. -/

/-- R402: the four ports of the Ethernet PLL are fenced. -/
def State.fenceAllEth (src : Nat) (s : State) : State := s.each (List.range 4) (fun p => State.fenceEthAll p src)

theorem State.contain_404 (bays : List Nat) (forced : Bool) (hh : s.glb.mode ≠ .halt) :
    s.contain bays 404 0 forced = s.fencePorts 404 forced [404] (State.fenceAllEth 404) := by
  unfold State.contain
  rw [if_neg hh]
  rfl

theorem State.fenceEthAll_portStates (p src j : Nat) :
    (s.fenceEthAll p src).portStates j = if p = j then (true, false) else s.portStates j := by
  have masked : (s.fenceEthAll p src).portStates = (s.fenceEth p src).portStates :=
    State.portStates_congr (State.maskSrcs_keeps (keeps_run (by decide)) rfl)
  have fenced : (s.fenceEth p src).portStates = (s.modEth p (fun e => { e with fenced := true, link := false })).portStates :=
    State.portStates_congr (State.unitFenced_keeps (keeps_run (by decide)) rfl)
  rw [masked, fenced, State.portStates]
  split
  next e => rw [e, State.modEth_same]
  next e =>
    rw [State.modEth_other _ _ e]
    rfl

theorem State.fenceAllEth_portStates (src : Nat) {p : Nat} (hp : p < 4) : (s.fenceAllEth src).portStates p = (true, false) :=
  State.each_of_mem (P := fun t : State => t.portStates p = (true, false)) (List.mem_range.2 hp)
    (fun t => by rw [State.fenceEthAll_portStates, if_pos rfl])
    fun j t k => by
      rw [State.fenceEthAll_portStates, k]
      exact ite_self _

/-- The outcome of a fence leaves the ports' states, and the entry of a source above those of lines and packets. -/
theorem State.fenceDone_ports (hn : 344 ≤ n) : s.fenceDone.portStates = s.portStates ∧ s.fenceDone.fltSrc n = s.fltSrc n :=
  Survives.fenceDone ((survives_portStates s.portStates).and (survives_fltSrc hn (s.fltSrc n))) (fun c hc => by
    simp only [List.mem_cons, List.not_mem_nil, or_false] at hc
    obtain rfl | rfl | rfl := hc <;> exact fun _ _ k => k) ⟨rfl, rfl⟩

theorem State.modFltSrc_portStates (f : FltSrc → FltSrc) : (s.modFltSrc n f).portStates = s.portStates := rfl

/-- What stands of the fence of the Ethernet PLL's ports after its outcome. -/
theorem State.contain_404_record (bays : List Nat) (forced : Bool) (hh : s.glb.mode ≠ .halt) :
    (∀ p, p < 4 → (s.contain bays 404 0 forced).portStates p = (true, false)) ∧ ((s.contain bays 404 0 forced).fltSrc 404).fenced = true := by
  rw [State.contain_404 bays forced hh, State.fencePorts, State.maskSrcs_single]
  generalize s.recordContained 404 .fenceUnit forced = u
  obtain ⟨ports, entry⟩ := State.fenceDone_ports (s := (u.fenceAllEth 404).modFltSrc 404 (fun x => { x with fenced := true })) (n := 404) (by decide)
  refine ⟨fun p hp => ?_, ?_⟩
  · rw [ports, State.modFltSrc_portStates]
    exact State.fenceAllEth_portStates 404 hp
  · rw [entry, State.modFltSrc_same]

/-! The PCI Express link. -/

theorem exec_pcieLinkChange (e : Bool) : exec (.pcieLinkChange n e) s = execPcieLinkChange n e s := rfl

theorem exec_pcieLinkChange_of_up (e : Bool) (hr : s.running = true) (hu : s.hq.up = true) : exec (.pcieLinkChange n e) s =
    .next ((s.modHq (fun h => { h with linkSt := n, pciAer := h.pciAer || e })).latch 201) := by
  rw [exec_pcieLinkChange, execPcieLinkChange, if_pos (by simp [hr, hu])]

/-- Settles O47: each loss is one report, fatal or of its unit. -/
theorem powerLosses : Obligations.PowerLosses := by
  refine ⟨?bay, ?package, fun s r => exec_supplyComparatorTrip_warn, ?thermal, ?reference, ?fatalPll, ?bayPll, ?ethernet, ?unlocked, ?pcie, ?pcieDown⟩
  case bay =>
    intro s r hr collects live
    exact ⟨_, exec_supplyComparatorTrip_bay hr, State.reports_bay collects (by omega) live (fencesBay_supply hr)⟩
  case package =>
    intro s r low high collects live
    obtain ⟨mode, -, src, fatal, -⟩ := State.reports_halts collects (by decide) live
    exact ⟨_, exec_supplyComparatorTrip_package low high, mode, src, fatal⟩
  case thermal =>
    intro s collects live
    obtain ⟨mode, out, src, -⟩ := State.reports_halts collects (by decide) live
    exact ⟨_, rfl, mode, rfl, out, src⟩
  case reference =>
    intro s collects live
    obtain ⟨mode, -, src, -, cls⟩ := State.reports_halts collects (by decide) live
    exact ⟨_, rfl, mode, src, cls⟩
  case fatalPll =>
    intro s p n report locked collects live
    obtain ⟨mode, -, src, -⟩ := State.reports_halts collects (pllReport_fatal_lt report) live
    have run := exec_pllLockLoss_of_locked p locked
    rw [report] at run
    exact ⟨_, run, mode, src⟩
  case bayPll =>
    intro s b hb locked collects live
    have run := exec_pllLockLoss_of_locked (.bay b) locked
    rw [pllReport, Nat.mod_eq_of_lt hb] at run
    exact ⟨_, run, State.reports_bay collects (by omega) live (fencesBay_pll hb)⟩
  case ethernet =>
    intro s locked collects live
    obtain ⟨bays, report⟩ := State.reports_contained collects (by decide) live
    obtain ⟨ports, entry⟩ := State.contain_404_record bays false (State.collects_iff.1 collects).2
    refine ⟨_, (exec_pllLockLoss_of_locked .ethernet locked).trans (congrArg Host.Outcome.next report), fun p hp => ?_, entry⟩
    exact Prod.mk.inj (ports p hp)
  case unlocked =>
    intro s p unlocked
    rw [exec_pllLockLoss, execPllLockLoss, if_neg (by simp [unlocked])]
  case pcie =>
    intro s n e running up
    refine ⟨_, exec_pcieLinkChange_of_up e running up, rfl, State.latch_mem _ 201, ?_⟩
    exact commandFootprint _ _ _ (exec_pcieLinkChange_of_up e running up)
  case pcieDown =>
    intro s n e down
    rw [exec_pcieLinkChange, execPcieLinkChange, if_neg (by simp [down])]

end Sys2Proof.Machine
end

section
/-! PROOF. Modes and roles: what a change of mode leaves, adoption, and takeover (R352 to R369, R421 to R425). -/

namespace Sys2Proof.Machine

variable {s : State}

/-! A change of mode (R352, R377). -/

theorem State.setMode_glb (m : Mode) (r : Role) (sub : BitVec 2) : ∃ own seq, (s.setMode m r sub).glb =
    { s.glb with mode := m, role := r, restSub := sub, own := own, modeSeq := seq } := by
  unfold State.setMode
  dsimp only
  split
  · exact ⟨_, _, rfl⟩
  · exact ⟨_, _, rfl⟩

theorem State.setMode_latch {m : Mode} (r : Role) (sub : BitVec 2) (h : s.glb.mode ≠ m) : 32 ∈ (s.setMode m r sub).irc.latch := by
  unfold State.setMode
  dsimp only
  rw [if_neg (fun k => h k.1)]
  exact State.latch_mem _ 32

/-! A role for a device without a twin (R361). -/

theorem State.alone_of_disabled (h : s.glb.twinEn = false) : s.alone = true := by
  simp [State.alone, h]

theorem State.alone_of_waited (hl : s.grt.link ≠ .up) (hw : s.twinWaitOver = true) : s.alone = true := by
  simp [State.alone, hl, hw]

/-- The time at which ADOPT ends, and the wait that ends with it, leave the question of a twin. -/
theorem State.alone_stampEnd : ((s.modGlb (fun g => { g with adoptWait := false })).stampEnd 3).alone = s.alone := by
  have other (v : BitVec 32) : (s.glb.tEnd.put 0 3 v).look 0 2 = s.glb.tEnd.look 0 2 := Tbl.look_put_other _ _ _ (by decide)
  simp only [State.alone, State.twinWaitOver, State.stampEnd, State.modGlb, other]

theorem State.enterService_glb (m : Mode) (r : Role) : (s.enterService m r).glb = (s.setMode m r 0).glb :=
  State.gateAll_keeps (keeps_glb (by decide)) rfl

/-- A device that is alone takes SOLO, and waits no longer. -/
theorem State.takeRole_of_alone (h : s.alone = true) : ∃ own seq tEnd, s.takeRole.glb =
    { s.glb with adoptWait := false, tEnd := tEnd, mode := .solo, role := .solo, restSub := 0, own := own, modeSeq := seq } := by
  have solo : s.takeRole = ((s.modGlb (fun g => { g with adoptWait := false })).stampEnd 3).enterService .solo .solo :=
    if_pos (State.alone_stampEnd.trans h)
  rw [solo, State.enterService_glb]
  obtain ⟨own, seq, glb⟩ := State.setMode_glb (s := (s.modGlb (fun g => { g with adoptWait := false })).stampEnd 3) .solo .solo 0
  exact ⟨own, seq, _, glb⟩

/-- A device alone that matches its record, its link not up, takes SOLO with OUTCOME 1. -/
theorem State.adoptStep_of_alone (hm : s.glb.mode = .adopt) (ha : s.alone = true) (hs : s.selfMatches = true) (hl : s.grt.link ≠ .up) :
    s.adoptStep = (s.adoptOutcome 1).takeRole := by
  unfold State.adoptStep
  rw [if_neg (by simp [hm, ha]), if_pos hs]
  dsimp only
  rw [if_neg (by simp [hl])]

/-! Takeover (R421, R423). -/

theorem State.guards_modGrt (f : Grt → Grt) : (s.modGrt f).guards = s.guards := rfl

/-- What a takeover starts with: the mode, and the semaphores of the twin. -/
def State.takeoverMode (cause : Nat) (s : State) : State :=
  (((s.modGlb (fun g => { g with
    ungated := false, shedWait := false, demoting := false, patchBg := g.patchBg || g.mode == .patch })).setMode .takeover .shadow 0).limited
    .twinLeadLost 0 ms (State.raise .twinLeadLost [i16 cause])).semBreakOwners (· == 0x10A)

theorem State.takeover_of_guards (cause : Nat) (h : s.guards = true) : s.takeover cause =
    ((((s.takeoverMode cause).each ((s.takeoverMode cause).enc.map (·.1)) State.takeStream).gateAll false).wantAdmission 3) :=
  if_neg (by simp [h])

theorem State.takeoverMode_glb (cause : Nat) : (s.takeoverMode cause).glb.mode = .takeover ∧ (s.takeoverMode cause).glb.role = .shadow := by
  have kept : (s.takeoverMode cause).glb = ((s.modGlb (fun g => { g with
      ungated := false, shedWait := false, demoting := false, patchBg := g.patchBg || g.mode == .patch })).setMode .takeover .shadow 0).glb :=
    State.semBreakOwners_keeps (keeps_glb (by decide))
      (State.limited_keeps (keeps_glb (by decide)) (fun _ k => State.raise_keeps (keeps_glb (by decide)) k) rfl)
  obtain ⟨own, seq, glb⟩ := State.setMode_glb (s := s.modGlb (fun g => { g with
    ungated := false, shedWait := false, demoting := false, patchBg := g.patchBg || g.mode == .patch })) .takeover .shadow 0
  exact ⟨(congrArg Glb.mode (kept.trans glb) :), (congrArg Glb.role (kept.trans glb) :)⟩

/-- A takeover enters TAKEOVER and calls for admission; the link stays. -/
theorem State.takeover_modes (cause : Nat) (h : s.guards = true) : (s.takeover cause).glb.mode = .takeover ∧
    (s.takeover cause).glb.role = .shadow ∧ (s.takeover cause).blw.admitPend.isSome = true ∧ (s.takeover cause).grt = s.grt := by
  have glb : (s.takeover cause).glb = (s.takeoverMode cause).glb := by
    rw [State.takeover_of_guards cause h]
    exact State.wantAdmission_keeps (keeps_glb (by decide)) (State.gateAll_keeps (keeps_glb (by decide))
      (State.each_keeps (P := fun t => t.glb = (s.takeoverMode cause).glb) (fun _ _ k => State.takeStream_keeps (keeps_glb (by decide)) k) rfl))
  obtain ⟨mode, role⟩ := State.takeoverMode_glb (s := s) cause
  refine ⟨(congrArg Glb.mode glb).trans mode, (congrArg Glb.role glb).trans role, ?_, State.takeover_keeps (keeps_grt (by decide)) rfl⟩
  rw [State.takeover_of_guards cause h]
  rfl

/-- The outputs in use are of the rasters. -/
theorem State.outputs_congr {t : State} (h : t.ras = s.ras) : t.outputs = s.outputs := by
  have used (k : Nat) : t.rasterUsed k = s.rasterUsed k := by
    rw [State.rasterUsed, State.rasterUsed, State.raster, State.raster, h]
  rw [State.outputs, State.outputs, funext used]

/-- The gate of an output that is gated is to open. -/
theorem State.gateAll_false {k : Nat} (hk : k ∈ s.outputs) (hg : (s.outP k).gated = true) : ((s.gateAll false).outP k).pendGate = some false := by
  obtain ⟨before, after, split⟩ := List.append_of_mem hk
  rw [State.gateAll, split, State.each, List.foldl_append, List.foldl_cons]
  have gated : ((before.foldl (fun t x => State.modOutP x (fun p => { p with pendGate := if p.gated = false then none else some false }) t) s).outP
      k).gated = true :=
    List.foldlRecOn (motive := fun t : State => (t.outP k).gated = true) before _ hg fun t ht x _ => by
      by_cases e : x = k
      · rw [e, State.modOutP_same]
        exact ht
      · rw [State.modOutP_other _ _ e]
        exact ht
  refine (List.foldlRecOn (motive := fun t : State => (t.outP k).gated = true ∧ (t.outP k).pendGate = some false) after _ ?_ fun t ht x _ => ?_).2
  · rw [State.modOutP_same, if_neg (by simp [gated])]
    exact ⟨gated, rfl⟩
  · by_cases e : x = k
    · rw [e, State.modOutP_same, if_neg (by simp [ht.1])]
      exact ⟨ht.1, rfl⟩
    · rw [State.modOutP_other _ _ e]
      exact ht

theorem State.takeover_gates (cause : Nat) (h : s.guards = true) {k : Nat} (hk : k ∈ s.outputs) (hg : (s.outP k).gated = true) :
    ((s.takeover cause).outP k).pendGate = some false := by
  generalize hu : (s.takeoverMode cause).each ((s.takeoverMode cause).enc.map (·.1)) State.takeStream = u
  have ras : u.ras = s.ras := by
    rw [← hu]
    refine State.each_keeps (P := fun t => t.ras = s.ras) (fun _ _ k => State.takeStream_keeps (keeps_ras (by decide)) k) ?_
    exact State.semBreakOwners_keeps (keeps_ras (by decide)) (State.limited_keeps (keeps_ras (by decide))
      (fun _ k => State.raise_keeps (keeps_ras (by decide)) k) (State.setMode_keeps (keeps_ras (by decide)) rfl))
  have out : u.out = s.out := by
    rw [← hu]
    refine State.each_keeps (P := fun t => t.out = s.out) (fun _ _ k => State.takeStream_keeps (keeps_out (by decide)) k) ?_
    exact State.semBreakOwners_keeps (keeps_out (by decide)) (State.limited_keeps (keeps_out (by decide))
      (fun _ k => State.raise_keeps (keeps_out (by decide)) k) (State.setMode_keeps (keeps_out (by decide)) rfl))
  have gated : (u.outP k).gated = true := by
    rw [State.outP, out]
    exact hg
  rw [State.takeover_of_guards cause h, hu]
  exact State.gateAll_false (State.outputs_congr ras ▸ hk) gated

end Sys2Proof.Machine
end

section
/-! PROOF. The twin's heartbeat, its handover, and its pins (R416, R419, R421 to R425). -/

namespace Sys2Proof.Machine

variable {s : State} {h : GHdr} {m : HeartbeatMsg}

/-! A frame that the link brings (R416). -/

/-- R416: what any frame that is heard does to the link. -/
def State.heard (h : GHdr) (s : State) : State := s.modGrt (fun g => { g.acked h.ack with hbIn := some s.now })

theorem State.recv_of_heard (f : State → State) (hc : s.carries = true) (hk : h.crcOk = true) (hn : h.known = true) : s.recv h f = f (s.heard h) := by
  unfold State.recv
  rw [if_neg (by simp [hc, hk]), if_neg (by simp [hn])]
  rfl

theorem State.recv_of_dropped (f : State → State) (hd : h.crcOk = false ∨ s.carries = false) : s.recv h f = s :=
  if_pos (by obtain e | e := hd <;> simp [e])

theorem State.recvUp_of_hears (f : State → State) (hh : s.hears h) (hl : s.grt.link = .up) : s.recvUp h f = f (s.afterFrame h) := by
  obtain ⟨hc, hk, hn, hs⟩ := hh
  unfold State.recvUp State.recvSeq
  rw [State.recv_of_heard _ hc hk hn, if_pos (show h.seq = (s.heard h).grt.rxSeq from hs)]
  exact if_pos hl

theorem exec_heartbeat : exec (.heartbeat h m) s = .next (s.recv h (fun s => if s.grt.link = .up then s.takeHeartbeat m else s)) := rfl

theorem exec_heartbeat_of_heard (hc : s.carries = true) (hk : h.crcOk = true) (hn : h.known = true) (hl : s.grt.link = .up) :
    exec (.heartbeat h m) s = .next ((s.heard h).takeHeartbeat m) := by
  rw [exec_heartbeat, State.recv_of_heard _ hc hk hn]
  exact congrArg Host.Outcome.next (if_pos hl)

theorem exec_handover (b : Bool) : exec (.handover h b) s = .next (s.recvUp h (fun s =>
    if s.guards then s.modGrt (fun g => { g with handover := some b }) else s)) := rfl

/-! What a heartbeat says of the twin (R419). -/

/-- R419: the twin's heartbeat is taken. -/
def State.noteTwin (m : HeartbeatMsg) (s : State) : State := s.modGrt (fun g => { g with
  hbSeq := m.hbSeq.setWidth 16, peerMode := m.mode, peerRole := m.role, peerFenced := m.fenced, peerShed := m.shed, peerTxSeq := m.txSeq })

theorem State.takeHeartbeat_of_live (hd : hbDown m = false) (hh : s.grt.handover = none) : s.takeHeartbeat m = (s.noteTwin m).twinSeen := by
  unfold State.takeHeartbeat
  dsimp only
  rw [if_neg (by simp [hd])]
  split
  next b e => cases hh.symm.trans e
  next => rfl

/-- After a HANDOVER the twin's heartbeat starts the takeover (R425). -/
theorem State.takeHeartbeat_of_handover {b : Bool} (hd : hbDown m = false) (hh : s.grt.handover = some b) :
    s.takeHeartbeat m = ((s.noteTwin m).modGrt (fun g => { g with handover := none })).takeover 4 := by
  unfold State.takeHeartbeat
  dsimp only
  rw [if_neg (by simp [hd])]
  split
  next => rfl
  next e => cases hh.symm.trans e

/-- A record that is rewritten is of the adoption alone. -/
theorem State.rewriteTwin_glb : ∃ a d, s.rewriteTwin.glb = { s.glb with adoption := a, adoptDue := d } := by
  unfold State.rewriteTwin
  split
  · have stored : (s.writeAdoption 1).glb = (s.modGlb (fun g => { g with
        adoption := some ⟨s.glb.selfDigest, s.linkTwin, s.glb.side⟩, adoptDue := some ⟨s.glb.selfDigest, s.linkTwin, s.glb.side⟩ })).glb :=
      State.storeAdoption_keeps (keeps_glb (by decide)) rfl
    exact ⟨_, _, stored⟩
  · exact ⟨_, _, rfl⟩

/-- A shadow that is not being demoted only keeps its record of the twin. -/
theorem State.twinSeen_of_shadow (hm : s.glb.mode = .shadow) (hr : s.glb.role = .shadow) (hd : s.glb.demoting = false) :
    s.twinSeen = s.rewriteTwin := by
  obtain ⟨a, d, glb⟩ := State.rewriteTwin_glb (s := s)
  have waits : s.adoptStep = s := if_pos (by simp [hm])
  have paired : s.rewriteTwin.pairUp = s.rewriteTwin := if_pos (by simp [glb, hm])
  have demoted : s.rewriteTwin.endDemotion = s.rewriteTwin := if_neg (by simp [glb, hd])
  have brought : s.rewriteTwin.bringUp = s.rewriteTwin := if_neg (by simp [glb, hr])
  rw [State.twinSeen, waits, paired, demoted, brought]

/-! The pins (R421). -/

/-- The device hears PEER_FAULT_N. -/
def State.faultPin (low : Bool) (s : State) : State := s.modGrt (fun g => { g with peerFault := low })

/-- The device hears PEER_OWN. -/
def State.ownPin (high : Bool) (s : State) : State := s.modGrt (fun g => { g with peerOwn := high })

theorem exec_peerFaultEdge (low : Bool) : exec (.peerFaultEdge low) s = .next (
    if !low || !s.running then s.faultPin low
    else if s.guards then (s.faultPin low).takeover 1
    else if s.glb.role = .lead then (s.faultPin low).twinLost 1
    else s.faultPin low) := rfl

theorem exec_peerOwnEdge (high : Bool) : exec (.peerOwnEdge high) s = .next (
    if high || !s.running || s.grt.link != .lost then s.ownPin high
    else if s.guards then (s.ownPin high).takeover 2
    else if s.glb.role = .lead then (s.ownPin high).twinLost 2
    else s.ownPin high) := rfl

theorem exec_peerFaultEdge_of_guards (hr : s.running = true) (hg : s.guards = true) :
    exec (.peerFaultEdge true) s = .next ((s.faultPin true).takeover 1) := by
  rw [exec_peerFaultEdge, if_neg (by simp [hr]), if_pos hg]

theorem exec_peerOwnEdge_of_guards (hr : s.running = true) (hg : s.guards = true) (hl : s.grt.link = .lost) :
    exec (.peerOwnEdge false) s = .next ((s.ownPin false).takeover 2) := by
  rw [exec_peerOwnEdge, if_neg (by simp [hr, hl]), if_pos hg]

/-- Settles O45: a heartbeat and a pin either are recorded, or start the takeover of a device that guards. -/
theorem twinWatch : Obligations.TwinWatch := by
  refine ⟨?beat, ?dropped, ?handover, ?refused, ?handedOver, ?fault, ?faultGone, ?faultLead, ?own, ?ownUp, ?ownKept⟩
  case beat =>
    intro s h m carries crc known link mode role demoting handover live
    obtain ⟨a, d, glb⟩ := State.rewriteTwin_glb (s := (s.heard h).noteTwin m)
    have grt : ((s.heard h).noteTwin m).rewriteTwin.grt = ((s.heard h).noteTwin m).grt := State.rewriteTwin_keeps (keeps_grt (by decide)) rfl
    have taken : (s.heard h).takeHeartbeat m = ((s.heard h).noteTwin m).rewriteTwin :=
      (State.takeHeartbeat_of_live (s := s.heard h) live handover).trans (State.twinSeen_of_shadow (s := (s.heard h).noteTwin m) mode role demoting)
    have run := exec_heartbeat_of_heard (m := m) carries crc known link
    rw [taken] at run
    refine ⟨_, run, ?_, ?_, ?_, ?_, ?_, ?_, State.rewriteTwin_keeps (keeps_enc (by decide)) rfl, State.rewriteTwin_keeps (keeps_out (by decide)) rfl⟩
    · rw [grt]; rfl
    · rw [grt]; rfl
    · rw [grt]; rfl
    · rw [grt]; rfl
    · rw [grt]; rfl
    · rw [glb]
      exact mode
  case dropped =>
    intro s h m dropped
    rw [exec_heartbeat, State.recv_of_dropped _ dropped]
  case handover =>
    intro s h b hears link guards
    have run : exec (.handover h b) s = .next ((s.afterFrame h).modGrt (fun g => { g with handover := some b })) := by
      rw [exec_handover, State.recvUp_of_hears _ hears link]
      exact congrArg Host.Outcome.next (if_pos guards)
    exact ⟨_, run, rfl, rfl, commandFootprint _ _ _ run⟩
  case refused =>
    intro s h b hears link off
    rw [exec_handover, State.recvUp_of_hears _ hears link]
    exact congrArg Host.Outcome.next (if_neg (by rw [State.afterFrame, State.guards_modGrt]; simp [off]))
  case handedOver =>
    intro s h m b carries crc known link guards handover live
    have run := exec_heartbeat_of_heard (m := m) carries crc known link
    rw [State.takeHeartbeat_of_handover (s := s.heard h) live handover] at run
    obtain ⟨mode, role, admission, grt⟩ := State.takeover_modes (s := ((s.heard h).noteTwin m).modGrt (fun g => { g with handover := none })) 4 guards
    exact ⟨_, run, mode, role, congrArg Grt.handover grt, admission⟩
  case fault =>
    intro s running guards
    obtain ⟨mode, -, admission, grt⟩ := State.takeover_modes (s := s.faultPin true) 1 guards
    exact ⟨_, exec_peerFaultEdge_of_guards running guards, mode, congrArg Grt.peerFault grt, admission,
      fun k used gated => State.takeover_gates (s := s.faultPin true) 1 guards used gated⟩
  case faultGone => exact fun _ => rfl
  case faultLead =>
    intro s running mode role
    have off : s.guards = false := by simp [State.guards, mode]
    have run : exec (.peerFaultEdge true) s = .next ((s.faultPin true).twinLost 1) := by
      rw [exec_peerFaultEdge, if_neg (by simp [running]), if_neg (by simp [off]), if_pos role]
    exact ⟨_, run, State.twinLost_keeps (keeps_glb (by decide)) rfl,
      congrArg Grt.peerFault (State.twinLost_keeps (P := fun t => t.grt = (s.faultPin true).grt) (keeps_grt (by decide)) rfl)⟩
  case own =>
    intro s running guards lost
    obtain ⟨mode, -, admission, grt⟩ := State.takeover_modes (s := s.ownPin false) 2 guards
    exact ⟨_, exec_peerOwnEdge_of_guards running guards lost, mode, congrArg Grt.peerOwn grt, admission⟩
  case ownUp => exact fun _ => rfl
  case ownKept =>
    intro s kept
    rw [exec_peerOwnEdge, if_pos (by simp [kept])]
    rfl

end Sys2Proof.Machine
end

section
/-! PROOF. Requests of the mode register, REST, and the confirmation of an adoption (R354, R360 to R362, R366, R368). -/

namespace Sys2Proof.Machine

variable {s : State} {w : Writer} {v : Word}

/-! What a device in HALT keeps of its modes (R411). -/

/-- A property of the mode register's block that HALT keeps survives the reactions to bad packets and lines. -/
theorem survives_of_glb {Q : Glb → Prop} (halted : ∀ (g : Glb) own seq, Q g → Q { g with
    mode := .halt, restSub := 0, own := own, modeSeq := seq, faultOutN := false, adoptWait := false }) : Survives (fun t => Q t.glb) where
  quiet := fun c hc => by
    simp only [List.mem_cons, List.not_mem_nil, or_false] at hc
    obtain rfl | rfl | rfl | rfl := hc
    · exact fun _ _ k => k
    · exact fun _ _ k => k
    · exact fun _ _ _ k => k
    · exact fun _ _ k => k
  run := fun _ _ _ k => k
  contained := fun n r forced t _ k => by
    have glb : (t.recordContained n r forced).glb = t.glb := State.recordContained_keeps (keeps_glb (by decide)) rfl
    exact glb.symm ▸ k
  fatal := fun n t _ k => by
    show Q (State.enterHalt n _).glb
    unfold State.enterHalt
    split
    · exact k
    · obtain ⟨own, seq, glb⟩ := State.setMode_glb (s := (t.modFltSrc n FltSrc.fatal).modFlt (fun f => { f with
        seq := f.seq + 1, new := true, fatal := true, lastSrc := BitVec.ofNat 9 n, lastClass := 3 })) .halt t.glb.role 0
      show Q { ((((t.modFltSrc n FltSrc.fatal).modFlt (fun f => { f with
        seq := f.seq + 1, new := true, fatal := true, lastSrc := BitVec.ofNat 9 n, lastClass := 3 })).setMode .halt t.glb.role 0).glb) with
        faultOutN := false, own := false, adoptWait := false }
      rw [glb]
      exact halted t.glb false seq k
  fencedSrc := fun _ _ _ k => k

/-! REST (R362). -/

theorem survives_notRest : Survives (fun t => t.glb.mode ≠ .rest) :=
  survives_of_glb (Q := fun g => g.mode ≠ .rest) fun _ _ _ _ => by simp

/-- What each operation on the members of a list keeps, they keep together. -/
theorem State.each_keeps_of_mem {α : Type} {P : State → Prop} {xs : List α} {f : α → State → State} (h : ∀ x ∈ xs, ∀ t, P t → P (f x t)) (k : P s) :
    P (s.each xs f) := List.foldlRecOn (motive := P) xs _ k fun t k x hx => h x hx t k

/-- The lines that the entry to REST flushes may lead to HALT, and never to REST. -/
theorem State.flushAll_notRest (h : s.glb.mode ≠ .rest) : (s.each (List.range 12) State.flushAll).glb.mode ≠ .rest :=
  State.each_keeps_of_mem (P := fun t => t.glb.mode ≠ .rest) (fun _ hn _ k => survives_notRest.flushAll (List.mem_range.1 hn) k) h

/-- What the entry to REST does before the mode changes. -/
def State.quieten (depth : BitVec 2) (s : State) : State :=
  let s := (s.modGlb (fun g => { g with
    waking := false, restFrom := s.now, restHigh := (List.range 256).filter s.ircLevel })).restCores depth
  let s := if depth = 0 then s else s.restPorts
  if depth = 2 then (s.each (List.range 12) State.flushAll).restDram .selfRefresh .active else s

theorem State.enterRest_eq (depth : BitVec 2) : s.enterRest depth =
    (s.quieten depth).setMode .rest (s.quieten depth).glb.role depth := rfl

theorem State.quieten_notRest (depth : BitVec 2) (h : s.glb.mode ≠ .rest) : (s.quieten depth).glb.mode ≠ .rest := by
  have cores (t : State) : (t.restCores depth).glb = t.glb := State.restCores_keeps (keeps_glb (by decide)) rfl
  have ports (t : State) : t.restPorts.glb = t.glb := State.restPorts_keeps (keeps_glb (by decide)) rfl
  have dram (t : State) : (t.restDram .selfRefresh .active).glb = t.glb := State.restDram_keeps (keeps_glb (by decide)) rfl
  have rested : ((s.modGlb (fun g => { g with
      waking := false, restFrom := s.now, restHigh := (List.range 256).filter s.ircLevel })).restCores depth).glb.mode ≠ .rest := by
    rw [cores]
    exact h
  unfold State.quieten
  have silent := ite_keeps (P := fun t : State => t.glb.mode ≠ .rest) (c := depth = 0) rested (by rw [ports]; exact rested)
  refine ite_keeps (P := fun t : State => t.glb.mode ≠ .rest) ?_ silent
  rw [dram]
  exact State.flushAll_notRest silent

theorem State.enterRest_rest (depth : BitVec 2) (h : s.glb.mode ≠ .rest) :
    (s.enterRest depth).glb.mode = .rest ∧ (s.enterRest depth).glb.restSub = depth ∧ 32 ∈ (s.enterRest depth).irc.latch := by
  obtain ⟨own, seq, glb⟩ := State.setMode_glb (s := s.quieten depth) .rest (s.quieten depth).glb.role depth
  rw [State.enterRest_eq]
  exact ⟨(congrArg Glb.mode glb :), (congrArg Glb.restSub glb :), State.setMode_latch _ _ (State.quieten_notRest depth h)⟩

theorem exec_restExitDone : exec .restExitDone s = execRestExitDone s := rfl

/-- What the end of REST does before the mode changes. -/
def State.resume (s : State) : State := (s.resumeTimers.restDram .active .selfRefresh).modGlb (fun g => { g with waking := false })

theorem State.resume_glb : s.resume.glb = { s.glb with waking := false } := by
  have kept : (s.resumeTimers.restDram .active .selfRefresh).glb = s.glb :=
    State.restDram_keeps (keeps_glb (by decide)) (State.resumeTimers_keeps (keeps_glb (by decide)) rfl)
  rw [State.resume, State.modGlb_glb, kept]

theorem State.trainLink_glb : s.trainLink.glb = s.glb := State.trainLink_keeps (keeps_glb (by decide)) rfl
theorem State.assertHpd_glb : s.assertHpd.glb = s.glb := State.assertHpd_keeps (keeps_glb (by decide)) rfl
theorem State.askWakes_glb : s.askWakes.glb = s.glb :=
  State.askWakes_keeps (P := fun t => t.glb = s.glb) (s := s) (keeps_glb (s := s) (l := [.blw]) (by decide)) rfl

/-- The link, the ports and the cores that come back after REST leave the mode. -/
theorem State.restored_glb : s.trainLink.assertHpd.askWakes.glb = s.glb := by
  rw [State.askWakes_glb, State.assertHpd_glb, State.trainLink_glb]

theorem exec_restExitDone_of_due (hm : s.glb.mode = .rest) (hw : s.wakeDue = true) :
    exec .restExitDone s = .next (s.resume.setMode .solo s.resume.glb.role 0).trainLink.assertHpd.askWakes := by
  rw [exec_restExitDone, execRestExitDone, if_neg (by simp [hm, hw])]
  rfl

/-! Requests (R368). -/

/-- R368: DEPTH of a request. -/
def State.takeDepth (v : Word) (s : State) : State := s.modGlb (fun g => { g with depth := v.extractLsb' 26 2 })

section
variable {code : Nat} (hc : (v.extractLsb' 28 4).toNat = code) (hr : s.glb.inReset = false) (hh : s.glb.mode ≠ .halt)
  (hw : s.writeReason w false .glbModeReq v = none)
include hc hr hh hw

/-- An accepted request whose code is the one asked for. -/
theorem State.writeModeReq_of_accepted : s.writeModeReq w code v = s.setModeReq v := by
  unfold State.writeModeReq
  rw [if_neg (by simp [hc, hr, hh]), hw]

end

theorem State.setModeReq_rest (hc : (v.extractLsb' 28 4).toNat = 1) : s.setModeReq v = (s.takeDepth v).reqRest (v.extractLsb' 26 2) := by
  unfold State.setModeReq
  rw [hc]
  rfl

theorem State.setModeReq_wake (hc : (v.extractLsb' 28 4).toNat = 2) : s.setModeReq v = (s.takeDepth v).reqWake := by
  unfold State.setModeReq
  rw [hc]
  rfl

theorem State.setModeReq_demote (hc : (v.extractLsb' 28 4).toNat = 3) : s.setModeReq v = (s.takeDepth v).reqDemote := by
  unfold State.setModeReq
  rw [hc]
  rfl

theorem exec_reqRest : exec (.reqRest w v) s = .next (s.writeModeReq w 1 v) := rfl
theorem exec_reqWake : exec (.reqWake w v) s = .next (s.writeModeReq w 2 v) := rfl
theorem exec_reqDemote : exec (.reqDemote w v) s = .next (s.writeModeReq w 3 v) := rfl

/-- An update of the mode register's block is of that alone. -/
theorem State.modGlb_frame (f : Glb → Glb) : frame [.glb] s (s.modGlb f) := frame_of_keeps fun _ u k => State.modGlb_keeps u k

/-! The handover of a lead (R366, R425). -/

theorem State.each_nil {α : Type} (f : α → State → State) : s.each [] f = s := rfl

/-- With no encode stream nothing coded waits: the packets stay. -/
theorem State.dropCoded_keeps_of_no_streams {P : State → Prop} (u : Keeps [.run] P) (he : s.enc = []) (k : P s) : P s.dropCoded := by
  unfold State.dropCoded
  simp only [he, List.filter_nil, List.flatMap_nil, State.each_nil]
  refine State.each_keeps (fun q t k => ?_) (State.modRun_keeps u k)
  have none_mine : (t.voq q).queue.filter (fun k => k.dest == 4 && ([] : List Nat).contains k.stream) = [] :=
    List.filter_eq_nil_iff.2 fun _ _ => by simp
  rw [none_mine]
  exact State.modVoq_keeps u k

/-- What the handover does before its last heartbeat. -/
def State.handOverDrop (demote : Bool) (s : State) : State := ((s.gPut (.handover demote)).modGlb (fun g => { g with demoting := true })).dropCoded

theorem State.handOver_glb (b : Bool) : (s.handOver b).glb = { (s.handOverDrop b).glb with lastHb := some s.now } := by
  have now : (s.handOverDrop b).now = s.now := State.dropCoded_keeps (keeps_now (by decide)) (State.modGlb_keeps (keeps_now (by decide))
    (State.gPut_keeps (keeps_now (by decide)) rfl))
  have kept : (s.handOver b).glb = (s.handOverDrop b).emitHeartbeat.glb :=
    State.limited_keeps (keeps_glb (by decide)) (fun _ k => State.raise_keeps (keeps_glb (by decide)) k)
      (State.gateAll_keeps (keeps_glb (by decide)) rfl)
  rw [kept, ← now]
  rfl

theorem State.handOverDrop_start (b : Bool) : ((s.gPut (.handover b)).modGlb (fun g => { g with demoting := true })).glb =
    { s.glb with demoting := true } := by
  have put : (s.gPut (.handover b)).glb = s.glb := State.gPut_keeps (keeps_glb (by decide)) rfl
  rw [State.modGlb_glb, put]

/-- A lead that hands over is being demoted, whatever the packets that it discards lead to. -/
theorem State.handOver_demoting (b : Bool) (hr : s.glb.refused = false) :
    (s.handOver b).glb.demoting = true ∧ (s.handOver b).glb.refused = false ∧ (s.handOver b).glb.lastHb = some s.now := by
  have survives : Survives (fun t => t.glb.demoting = true ∧ t.glb.refused = false) :=
    survives_of_glb (Q := fun g => g.demoting = true ∧ g.refused = false) fun _ _ _ k => k
  have start := State.handOverDrop_start (s := s) b
  obtain ⟨demoting, refused⟩ := survives.dropCoded (s := (s.gPut (.handover b)).modGlb (fun g => { g with demoting := true }))
    (by rw [start]; exact ⟨rfl, hr⟩)
  rw [State.handOver_glb]
  exact ⟨demoting, refused, rfl⟩

theorem State.handOver_mode (b : Bool) (he : s.enc = []) : (s.handOver b).glb.mode = s.glb.mode := by
  have enc : ((s.gPut (.handover b)).modGlb (fun g => { g with demoting := true })).enc = [] :=
    State.modGlb_keeps (P := fun t => t.enc = []) (fun c hc => by cases List.mem_singleton.1 hc; exact fun _ _ k => k)
      (State.gPut_keeps (P := fun t => t.enc = []) (fun c hc => by cases List.mem_singleton.1 hc; exact fun _ _ k => k) he)
  have kept := State.dropCoded_keeps_of_no_streams (P := fun t => t.glb = { s.glb with demoting := true })
    (fun c hc => by cases List.mem_singleton.1 hc; exact fun _ _ k => k) enc (State.handOverDrop_start b)
  rw [State.handOver_glb]
  exact (congrArg Glb.mode kept :)

/-! The confirmation of an adoption (R360). -/

theorem State.writeAdoption_glb (how : Byte) : ∃ a, (s.writeAdoption how).glb = { s.glb with adoption := a, adoptDue := a } := by
  have stored : (s.writeAdoption how).glb = (s.modGlb (fun g => { g with
      adoption := some ⟨s.glb.selfDigest, s.linkTwin, s.glb.side⟩, adoptDue := some ⟨s.glb.selfDigest, s.linkTwin, s.glb.side⟩ })).glb :=
    State.storeAdoption_keeps (keeps_glb (by decide)) rfl
  exact ⟨_, stored⟩

theorem exec_adoptConfirm : exec (.adoptConfirm v) s = .next (s.confirmAdoption v) := rfl

theorem exec_twinWaitExpiry_of_over (hm : s.glb.mode = .adopt) (hw : s.twinWaitOver = true) :
    exec .twinWaitExpiry s = .next s.adoptStep := congrArg Host.Outcome.next (if_pos ⟨hm, hw⟩)

/-- Settles O25: each request acts, or records its refusal. -/
theorem modeRequests : Obligations.ModeRequests := by
  refine ⟨?rest, ?restPatch, ?wake, ?demoteSolo, ?demote, ?exit, fun s => ⟨fun m => congrArg Host.Outcome.next (if_pos m),
    fun m => congrArg Host.Outcome.next (if_neg m)⟩, ?confirm, ?other, ?expiry⟩
  case rest =>
    intro s w v code out mode accepted awake may
    have request : (s.takeDepth v).reqRest (v.extractLsb' 26 2) = (s.takeDepth v).takeReq.enterRest (v.extractLsb' 26 2) := by
      unfold State.reqRest
      have allowed : (s.takeDepth v).mayRest = true := may
      rw [if_neg (by simp [State.takeDepth, mode, awake]), if_neg (by simp [allowed])]
    refine ⟨_, exec_reqRest.trans (congrArg Host.Outcome.next ((State.writeModeReq_of_accepted code out (by simp [mode]) accepted).trans
      ((State.setModeReq_rest code).trans request))), State.enterRest_rest _ ?_⟩
    show s.glb.mode ≠ .rest
    simp [mode]
  case restPatch =>
    intro s w v code out mode accepted
    have request : (s.takeDepth v).reqRest (v.extractLsb' 26 2) = (s.takeDepth v).refuseReq 1 := if_pos (.inl mode)
    exact ⟨_, exec_reqRest.trans (congrArg Host.Outcome.next ((State.writeModeReq_of_accepted code out (by simp [mode]) accepted).trans
      ((State.setModeReq_rest code).trans request))), rfl, State.modGlb_frame (s := s) (fun g => { g with
        depth := v.extractLsb' 26 2, refused := true, reason := 1 })⟩
  case wake =>
    intro s w v code out mode accepted
    have request : (s.takeDepth v).reqWake = (s.takeDepth v).takeReq.modGlb (fun g => { g with waking := true }) := if_pos mode
    exact ⟨_, exec_reqWake.trans (congrArg Host.Outcome.next ((State.writeModeReq_of_accepted code out (by simp [mode]) accepted).trans
      ((State.setModeReq_wake code).trans request))), rfl, State.modGlb_frame (s := s) (fun g => { g with
        depth := v.extractLsb' 26 2, refused := false, reason := 0, waking := true })⟩
  case demoteSolo =>
    intro s w v code out mode accepted
    have request : (s.takeDepth v).reqDemote = (s.takeDepth v).refuseReq 3 := if_pos (by simp [State.takeDepth, mode])
    exact ⟨_, exec_reqDemote.trans (congrArg Host.Outcome.next ((State.writeModeReq_of_accepted code out (by simp [mode]) accepted).trans
      ((State.setModeReq_demote code).trans request))), rfl, State.modGlb_frame (s := s) (fun g => { g with
        depth := v.extractLsb' 26 2, refused := true, reason := 3 })⟩
  case demote =>
    intro s w v code out mode twin free accepted
    have request : (s.takeDepth v).reqDemote = (s.takeDepth v).takeReq.handOver true := by
      unfold State.reqDemote
      have leads : (s.takeDepth v).glb.mode = .lead := mode
      have follows : (s.takeDepth v).twinShadow = true := twin
      have once : (s.takeDepth v).glb.demoting = false := free
      rw [if_neg (by simp [leads, follows]), if_neg (by simp [once])]
    obtain ⟨demoting, refused, lastHb⟩ := State.handOver_demoting (s := (s.takeDepth v).takeReq) true rfl
    exact ⟨_, exec_reqDemote.trans (congrArg Host.Outcome.next ((State.writeModeReq_of_accepted code out (by simp [mode]) accepted).trans
      ((State.setModeReq_demote code).trans request))), demoting, refused, lastHb, fun none_coded =>
        (State.handOver_mode (s := (s.takeDepth v).takeReq) true none_coded).trans mode⟩
  case exit =>
    intro s mode due
    have kept := State.restored_glb (s := s.resume.setMode .solo s.resume.glb.role 0)
    obtain ⟨own, seq, glb⟩ := State.setMode_glb (s := s.resume) .solo s.resume.glb.role 0
    refine ⟨_, exec_restExitDone_of_due mode due, ?_⟩
    have resumed := State.resume_glb (s := s)
    exact ⟨(congrArg Glb.mode (kept.trans glb) :), (congrArg Glb.waking (kept.trans glb) :).trans (congrArg Glb.waking resumed :),
      (congrArg Glb.restSub (kept.trans glb) :), (congrArg Glb.role (kept.trans glb) :).trans (congrArg Glb.role resumed :)⟩
  case confirm =>
    intro s v value waits mode none_enabled
    have run : exec (.adoptConfirm v) s = .next ((s.writeAdoption 2).adoptOutcome 4).takeRole :=
      exec_adoptConfirm.trans (congrArg Host.Outcome.next (if_pos ⟨value, waits, mode⟩))
    obtain ⟨a, written⟩ := State.writeAdoption_glb (s := s) 2
    have alone : ((s.writeAdoption 2).adoptOutcome 4).alone = true := State.alone_of_disabled
      ((congrArg Glb.twinEn written :).trans none_enabled)
    obtain ⟨own, seq, tEnd, glb⟩ := State.takeRole_of_alone alone
    refine ⟨_, run, ?_⟩
    rw [glb]
    exact ⟨rfl, rfl, rfl, rfl⟩
  case other =>
    intro s v value
    exact exec_adoptConfirm.trans (congrArg Host.Outcome.next (if_neg fun h => value h.1))
  case expiry =>
    intro s mode waited link matches_
    have alone := State.alone_of_waited (s := s) (by simp [link]) waited
    obtain ⟨own, seq, tEnd, glb⟩ := State.takeRole_of_alone (s := s.adoptOutcome 1) alone
    refine ⟨_, exec_twinWaitExpiry_of_over mode waited, ?_⟩
    rw [State.adoptStep_of_alone mode alone matches_ (by simp [link]), glb]
    exact ⟨rfl, rfl, rfl⟩

end Sys2Proof.Machine
end

section
/-! PROOF. HALT is left by a power cycle alone (R367, R411, R435). -/

namespace Sys2Proof.Machine

variable {P : State → Prop} {s : State}

/-! A patch that steps on keeps the mode (R364): of the mode register's block it changes its own record alone. -/

section
variable (u : Keeps [.enc, .cores, .blw, .log, .grt] P) (m : ∀ f t, P t → P (State.modPatch f t))
include u m

theorem State.stepStandIn_keeps_of (b : StandIn) (k : P s) : P (s.stepStandIn b) := by
  unfold State.stepStandIn
  refine ite_keeps (m _ _ k) (ite_keeps (m _ _ (State.setRole_keeps (u.mono (by decide)) k)) (ite_keeps k (m _ _ ?_)))
  exact State.modCore_keeps (u.mono (by decide)) (State.coreEvent_keeps (u.mono (by decide)) k)

theorem State.stepBatch_keeps_of (k : P s) : P s.stepBatch := by
  unfold State.stepBatch
  split
  · exact State.each_keeps (fun b _ k => State.stepStandIn_keeps_of u m b k) k
  · exact k

theorem State.endBatches_keeps_of (k : P s) : P s.endBatches := by
  unfold State.endBatches
  split
  · exact k
  · exact State.whenB_keeps (fun _ k => State.wantAdmission_keeps (u.mono (by decide)) k) (State.newIdentities_keeps (u.mono (by decide))
      (State.raise_keeps (u.mono (by decide)) (m _ _ k)))

theorem State.nextBatch_keeps_of (k : P s) : P s.nextBatch := by
  unfold State.nextBatch
  split
  · exact k
  · refine ite_keeps (State.endBatches_keeps_of u m (m _ _ k)) (State.stepBatch_keeps_of u m ?_)
    exact State.each_keeps (fun _ _ k => m _ _ (State.setRole_keeps (u.mono (by decide)) k)) (m _ _ k)

theorem State.patchStep_keeps_of (k : P s) : P s.patchStep := by
  unfold State.patchStep
  split
  · exact k
  · exact ite_keeps k (ite_keeps (State.nextBatch_keeps_of u m (State.stepBatch_keeps_of u m k)) (State.stepBatch_keeps_of u m k))

end

theorem State.patchStep_mode : s.patchStep.glb.mode = s.glb.mode :=
  State.patchStep_keeps_of (P := fun t => t.glb.mode = s.glb.mode) (fun c hc => by
    simp only [List.mem_cons, List.not_mem_nil, or_false] at hc
    obtain rfl | rfl | rfl | rfl | rfl := hc <;> exact fun _ _ k => k) (fun _ _ k => k) rfl

/-! Start-up and a patch, in any mode. -/

theorem exec_tackFwReady : exec .tackFwReady s = execTackFwReady s := rfl

/-- What the firmware of the patch that is ready leads to before the cores swap (R364). -/
def State.startPatch (p : PatchS) (s : State) : State :=
  ((if s.startFirmware.glb.role = .lead then s.startFirmware.gPut (.command p.path.src patchEntry) else s.startFirmware).patchKeys p.target).patchBanks
    p.target

theorem State.startPatch_glb (p : PatchS) : (s.startPatch p).glb = s.glb := by
  have started : s.startFirmware.glb = s.glb := State.startFirmware_keeps (keeps_glb (by decide)) rfl
  have told : (if s.startFirmware.glb.role = .lead then s.startFirmware.gPut (.command p.path.src patchEntry) else s.startFirmware).glb = s.glb :=
    ite_keeps (P := fun t : State => t.glb = s.glb) (State.gPut_keeps (keeps_glb (by decide)) started) started
  exact State.patchBanks_keeps (keeps_glb (by decide)) (State.patchKeys_keeps (keeps_glb (by decide)) told)

theorem exec_tackFwReady_of_ready {p : PatchS} (hp : s.glb.patch = some p) (h2 : p.step = 2) (ht : s.tck.st = .restarting) :
    ∃ f, exec .tackFwReady s = .next ((s.startPatch p).modPatch f).patchStep := by
  rw [exec_tackFwReady, execTackFwReady, hp]
  dsimp only
  rw [if_neg (by simp [h2, ht])]
  exact ⟨_, rfl⟩

theorem exec_tackFwReady_of_not_ready (h : ∀ p, s.glb.patch = some p → p.step = 2 → s.tck.st ≠ .restarting) :
    exec .tackFwReady s = .next s := by
  rw [exec_tackFwReady, execTackFwReady]
  split
  next => rfl
  next p hp =>
    rw [if_pos]
    by_cases h2 : p.step = 2
    · simp [h p hp h2]
    · simp [h2]

theorem State.modPatch_mode (f : PatchS → PatchS) : (s.modPatch f).glb.mode = s.glb.mode := rfl

/-- The end of a patch's wait for its firmware keeps the mode. -/
theorem exec_tackFwReady_mode : ∃ t, exec .tackFwReady s = .next t ∧ t.glb.mode = s.glb.mode := by
  by_cases h : ∃ p, s.glb.patch = some p ∧ p.step = 2 ∧ s.tck.st = .restarting
  · obtain ⟨p, hp, h2, ht⟩ := h
    obtain ⟨f, run⟩ := exec_tackFwReady_of_ready hp h2 ht
    exact ⟨_, run, by rw [State.patchStep_mode, State.modPatch_mode, State.startPatch_glb]⟩
  · exact ⟨s, exec_tackFwReady_of_not_ready fun p hp h2 ht => h ⟨p, hp, h2, ht⟩, rfl⟩

theorem State.leavePatch_of_not_patch (h : s.glb.mode ≠ .patch) : s.leavePatch = s.modGlb (fun g => { g with patch := none, patchBg := false }) :=
  if_neg h

theorem exec_patchFailed : exec .patchFailed s = execPatchFailed s := rfl

/-- What the failure of a patch does to the mode, and to the Tack (R365). -/
def State.dropPatch (s : State) : State := if s.leavePatch.tck.st = .restarting then s.leavePatch.startFirmware else s.leavePatch

theorem exec_patchFailed_of_over {p : PatchS} (hp : s.glb.patch = some p) (h2 : p.step = 2) (ho : p.since + 500 * ms ≤ s.now) :
    exec .patchFailed s = .next ((s.dropPatch.raise .patchFailed [i32 2]).queueStores
      [⟨stUnseal, (s.dropPatch.raise .patchFailed [i32 2]).fsh.slotBase p.target, [], true, none⟩]) := by
  rw [exec_patchFailed, execPatchFailed, hp]
  dsimp only
  rw [if_neg (by simp [h2, ho])]
  rfl

theorem exec_patchFailed_of_not_over (h : ∀ p, s.glb.patch = some p → p.step = 2 → s.now < p.since + 500 * ms) : exec .patchFailed s = .next s := by
  rw [exec_patchFailed, execPatchFailed]
  split
  next => rfl
  next p hp =>
    rw [if_pos]
    by_cases h2 : p.step = 2
    · simp [h p hp h2]
    · simp [h2]

theorem State.dropPatch_glb : s.dropPatch.glb = s.leavePatch.glb :=
  ite_keeps (P := fun t : State => t.glb = s.leavePatch.glb) (State.startFirmware_keeps (keeps_glb (by decide)) rfl) rfl

/-- The event and the erase of the seal leave the mode. -/
theorem State.unseal_glb (xs : List Store) (items : List Item) : ((s.raise .patchFailed items).queueStores xs).glb = s.glb :=
  State.queueStores_keeps (keeps_glb (by decide)) (State.raise_keeps (keeps_glb (by decide)) rfl)

/-- Outside PATCH the failure of a patch keeps the mode. -/
theorem exec_patchFailed_mode (h : s.glb.mode ≠ .patch) : ∃ t, exec .patchFailed s = .next t ∧ t.glb.mode = s.glb.mode := by
  by_cases over_ : ∃ p, s.glb.patch = some p ∧ p.step = 2 ∧ p.since + 500 * ms ≤ s.now
  · obtain ⟨p, hp, h2, ho⟩ := over_
    refine ⟨_, exec_patchFailed_of_over hp h2 ho, ?_⟩
    rw [State.unseal_glb, State.dropPatch_glb, State.leavePatch_of_not_patch h]
    rfl
  · exact ⟨s, exec_patchFailed_of_not_over fun p hp h2 => Nat.lt_of_not_le fun ho => over_ ⟨p, hp, h2, ho⟩, rfl⟩

theorem exec_signatureCheck : exec .signatureCheck s = execSignatureCheck s := rfl

theorem State.rejectSlot_mode (why : BitVec 4) : (s.rejectSlot why).glb.mode = s.glb.mode := by
  unfold State.rejectSlot
  split
  next b _ =>
    have kept : (((s.unload).modFsh (Fsh.setReason b why)).nextCandidate).glb = (s.unload).glb := State.nextCandidate_keeps (keeps_glb (by decide)) rfl
    rw [kept]
    rfl
  next => rfl

/-- The check of a signature keeps the mode, whatever it finds. -/
theorem exec_signatureCheck_mode : ∃ t, exec .signatureCheck s = .next t ∧ t.glb.mode = s.glb.mode := by
  refine ⟨_, exec_signatureCheck, ?_⟩
  split
  · rfl
  · refine ite_keeps (P := fun t : State => t.glb.mode = s.glb.mode) rfl ?_
    exact ite_keeps (P := fun t : State => t.glb.mode = s.glb.mode) (State.rejectSlot_mode _) rfl

/-! The commands that HALT gates. -/

theorem exec_admission : exec .admission s = execAdmission s := rfl

theorem exec_admission_of_not_running (h : s.running = false) : exec .admission s = .next s := by
  rw [exec_admission, execAdmission]
  split
  · rfl
  · rw [if_pos (by simp [h])]

theorem exec_loadDone : exec .loadDone s = execLoadDone s := rfl
theorem exec_trainEnd (l : List Nat) : exec (.trainEnd l) s = execTrainEnd l s := rfl

section
variable (hm : s.glb.mode = .halt)
include hm

theorem State.not_running_of_halt : s.running = false := by simp [State.running, hm]
theorem State.not_collects_of_halt : s.collects = false := by simp [State.collects, hm]

theorem exec_resetAssert_of_halt : exec .resetAssert s = .next s := congrArg Host.Outcome.next (if_pos hm)
theorem exec_loadDone_of_halt : exec .loadDone s = .next s := congrArg Host.Outcome.next (if_pos (by simp [hm]))
theorem exec_restExitDone_of_halt : exec .restExitDone s = .next s := congrArg Host.Outcome.next (if_pos (by simp [hm]))
theorem exec_wakePin_of_halt : exec .wakePin s = .next s := congrArg Host.Outcome.next (if_neg (by simp [hm]))
theorem exec_twinWaitExpiry_of_halt : exec .twinWaitExpiry s = .next s := congrArg Host.Outcome.next (if_neg (by simp [hm]))
theorem exec_imageLoad_of_halt (f : Sys2Proof.Sfdp) : exec (.imageLoad f) s = .next s := congrArg Host.Outcome.next (if_pos (by simp [hm]))
theorem exec_trainEnd_of_halt (l : List Nat) : exec (.trainEnd l) s = .next s := congrArg Host.Outcome.next (if_pos (by simp [hm]))
theorem exec_adoptConfirm_of_halt (v : Word) : exec (.adoptConfirm v) s = .next s := congrArg Host.Outcome.next (if_neg (by simp [hm]))

theorem State.writeModeReq_of_halt (w : Writer) (code : Nat) (v : Word) : s.writeModeReq w code v = s := if_pos (by simp [hm])

theorem exec_peerFaultEdge_of_halt (b : Bool) : exec (.peerFaultEdge b) s = .next (s.faultPin b) := by
  rw [exec_peerFaultEdge, if_pos (by simp [State.not_running_of_halt hm])]

theorem exec_peerOwnEdge_of_halt (b : Bool) : exec (.peerOwnEdge b) s = .next (s.ownPin b) := by
  rw [exec_peerOwnEdge, if_pos (by simp [State.not_running_of_halt hm])]

theorem exec_wireCheck_of_halt (n : Nat) (p : Bool) : exec (.wireCheck n p) s = .next s :=
  congrArg Host.Outcome.next (if_pos (by simp [State.not_collects_of_halt hm]))

theorem exec_wireCodeInvalid_of_halt (n : Nat) : exec (.wireCodeInvalid n) s = .next s :=
  congrArg Host.Outcome.next (if_pos (by simp [State.not_collects_of_halt hm]))

end

theorem exec_resetRelease_of_out (x : Straps) (h : s.glb.inReset = false) : exec (.resetRelease x) s = .next s :=
  congrArg Host.Outcome.next (if_pos (by simp [h]))

theorem State.setFltStat_glb (v : Word) : (s.setFltStat v).glb = s.glb :=
  ite_keeps (P := fun t : State => t.glb = s.glb) rfl rfl

/-- Settles O26: each command is gated by HALT, or keeps the mode. -/
theorem haltStays : Obligations.HaltStays := by
  refine ⟨fun s hm hr => ⟨?plain, ?pins, ?requests, fun f => ⟨s, exec_imageLoad_of_halt hm f, hm⟩, fun l => ⟨s, exec_trainEnd_of_halt hm l, hm⟩,
    fun rs => exec_faultReport_of_off (State.not_collects_of_halt hm), exec_wireCheck_of_halt hm, exec_wireCodeInvalid_of_halt hm⟩, ?power⟩
  case plain =>
    intro c hc
    simp only [List.mem_cons, List.not_mem_nil, or_false] at hc
    have keeps {c : Instr} (h : ∃ t, exec c s = .next t ∧ t.glb.mode = s.glb.mode) : ∃ t, exec c s = .next t ∧ t.glb.mode = .halt :=
      hm ▸ h
    rcases hc with rfl | rfl | rfl | rfl | rfl | rfl | rfl | rfl | rfl
    · exact ⟨s, exec_resetAssert_of_halt hm, hm⟩
    · exact keeps exec_signatureCheck_mode
    · exact ⟨s, exec_loadDone_of_halt hm, hm⟩
    · exact keeps exec_tackFwReady_mode
    · exact keeps (exec_patchFailed_mode (by simp [hm]))
    · exact ⟨s, exec_admission_of_not_running (State.not_running_of_halt hm), hm⟩
    · exact ⟨s, exec_restExitDone_of_halt hm, hm⟩
    · exact ⟨s, exec_wakePin_of_halt hm, hm⟩
    · exact ⟨s, exec_twinWaitExpiry_of_halt hm, hm⟩
  case pins =>
    intro b c hc
    simp only [List.mem_cons, List.not_mem_nil, or_false] at hc
    rcases hc with rfl | rfl | rfl
    · exact ⟨s, exec_resetRelease_of_out _ hr, hm⟩
    · exact ⟨_, exec_peerFaultEdge_of_halt hm b, hm⟩
    · exact ⟨_, exec_peerOwnEdge_of_halt hm b, hm⟩
  case requests =>
    intro w v c hc
    simp only [List.mem_cons, List.not_mem_nil, or_false] at hc
    have refused (code : Nat) : (s.writeModeReq w code v).glb.mode = .halt := by rw [State.writeModeReq_of_halt hm, hm]
    rcases hc with rfl | rfl | rfl | rfl | rfl
    · exact ⟨_, exec_reqRest, refused 1⟩
    · exact ⟨_, exec_reqWake, refused 2⟩
    · exact ⟨_, exec_reqDemote, refused 3⟩
    · exact ⟨s, exec_adoptConfirm_of_halt hm v, hm⟩
    · exact ⟨_, rfl, (congrArg Glb.mode (State.setFltStat_glb v)).trans hm⟩
  case power => exact fun s => ⟨_, rfl, rfl, rfl⟩

end Sys2Proof.Machine
end

section
/-! PROOF. The end of start-up, a patch that fails, admission, and the fuses (R312, R338, R356 to R365). -/

namespace Sys2Proof.Machine

variable {P : State → Prop} {s : State}

/-! An update of every entry of a table. -/

theorem Tbl.look_of_rises {α : Type} {t : Tbl α} (d : α) {n i : Nat} (h : t.risesFrom n = true) (hi : i < n) : t.look d i = d := by
  induction t generalizing n with
  | nil => rfl
  | cons p r ih =>
    obtain ⟨j, a⟩ := p
    simp only [Tbl.risesFrom, Bool.and_eq_true, decide_eq_true_eq] at h
    rw [Tbl.look, if_neg (by omega)]
    exact ih h.2 (by omega)

/-- An update that leaves what an unlisted entry reads as acts on each entry. -/
theorem Tbl.look_mapAll {α : Type} [DecidableEq α] {t : Tbl α} {d : α} {f : Nat → α → α} {n : Nat} (i : Nat) (h : t.risesFrom n = true)
    (hd : f i d = d) : (t.mapAll d f).look d i = f i (t.look d i) := by
  induction t generalizing n with
  | nil => exact hd.symm
  | cons p r ih =>
    obtain ⟨j, a⟩ := p
    simp only [Tbl.risesFrom, Bool.and_eq_true, decide_eq_true_eq] at h
    have tail := ih h.2
    by_cases listed : f j a = d
    · have skipped : Tbl.mapAll ((j, a) :: r) d f = Tbl.mapAll r d f := by simp [Tbl.mapAll, listed]
      rw [skipped, tail, Tbl.look]
      split
      next e =>
        subst e
        rw [Tbl.look_of_rises d h.2 (Nat.lt_succ_self j), hd, listed]
      next => rfl
    · have kept : Tbl.mapAll ((j, a) :: r) d f = (j, f j a) :: Tbl.mapAll r d f := by simp [Tbl.mapAll, listed]
      rw [kept, Tbl.look, Tbl.look]
      split
      next e => rw [e]
      next => exact tail

/-! The end of LOAD (R356). -/

/-- R356: the pattern store copies are written, and TRAIN is entered with the endpoint released. -/
def State.enterTrain (s : State) : State :=
  (((s.modCores (fun t => t.mapAll CoreS.reset (fun _ c => { c with copies := c.words, copyBad := false }))).stampEnd 1).modHq (fun h =>
    { h with up := true })).setMode .train .none 0

/-- R357: the Girth link trains, the sink ports assert HPD, and each bay is held to its voltage. -/
def State.trainPorts (s : State) : State := s.trainLink.assertHpd.each (List.range 4) State.voltageHold

theorem State.trainPorts_keeps (u : Keeps [.out, .blw, .irc, .log, .grt] P) (k : P s) : P s.trainPorts :=
  State.each_keeps (fun _ _ k => State.voltageHold_keeps (u.mono (by decide)) k)
    (State.assertHpd_keeps (u.mono (by decide)) (State.trainLink_keeps (u.mono (by decide)) k))

theorem State.trainPorts_glb : s.trainPorts.glb = s.glb :=
  State.trainPorts_keeps (P := fun t => t.glb = s.glb) (s := s) (keeps_glb (s := s) (by decide)) rfl

theorem State.trainPorts_hq : s.trainPorts.hq = s.hq :=
  State.trainPorts_keeps (P := fun t => t.hq = s.hq) (s := s) (keeps_hq (s := s) (by decide)) rfl

theorem State.trainPorts_cores : s.trainPorts.cores = s.cores :=
  State.trainPorts_keeps (P := fun t => t.cores = s.cores) (s := s) (keeps_cores (s := s) (by decide)) rfl

theorem State.trainPorts_dec : s.trainPorts.dec = s.dec :=
  State.trainPorts_keeps (P := fun t => t.dec = s.dec) (s := s) (keeps_dec (s := s) (by decide)) rfl

theorem exec_loadDone_of_filled (hm : s.glb.mode = .load) (hl : s.glb.loaded = true) (hf : s.filled = true) (hd : s.dec = []) :
    exec .loadDone s = .next s.enterTrain.trainPorts := by
  have entered : s.enterTrain.dec = s.dec := State.setMode_keeps (keeps_dec (by decide)) rfl
  have dec : s.enterTrain.trainPorts.dec = [] := by rw [State.trainPorts_dec, entered, hd]
  have run : exec .loadDone s = .next (s.enterTrain.trainPorts.each
      ((s.enterTrain.trainPorts.dec.filter (fun x => x.2.cfg.enabled)).map (·.1)) (fun i => State.startStream i false)) := by
    rw [exec_loadDone, execLoadDone, if_neg (by simp [hm, hl, hf])]
    rfl
  rw [run, dec, List.filter_nil, List.map_nil, State.each_nil]

/-- What the end of LOAD leaves: the mode, the endpoint, and the copies. -/
theorem State.enterTrain_entered : s.enterTrain.glb.mode = .train ∧ s.enterTrain.hq.up = true ∧ s.enterTrain.cores =
    s.cores.mapAll CoreS.reset (fun _ c => { c with copies := c.words, copyBad := false }) :=
  ⟨State.setMode_mode .., congrArg Hq.up (State.setMode_keeps (P := fun t => t.hq = { s.hq with up := true }) (keeps_hq
    (s := (((s.modCores (fun t => t.mapAll CoreS.reset (fun _ c => { c with copies := c.words, copyBad := false }))).stampEnd 1).modHq (fun h =>
    { h with up := true }))) (by decide)) rfl), State.setMode_keeps (keeps_cores (by decide)) rfl⟩

/-! The end of TRAIN (R357, R361). -/

/-- R357: ADOPT is entered, with its admission. -/
def State.enterAdopt (s : State) : State := ((s.stampEnd 2).setMode .adopt .none 0).wantAdmission 0

theorem exec_trainEnd_of_up (hm : s.glb.mode = .train) : exec (.trainEnd []) s = .next s.enterAdopt.adoptStep := by
  rw [exec_trainEnd, execTrainEnd, if_neg (by simp [hm])]
  rfl

theorem State.enterAdopt_glb : ∃ own seq tEnd, s.enterAdopt.glb =
    { s.glb with tEnd := tEnd, mode := .adopt, role := .none, restSub := 0, own := own, modeSeq := seq } := by
  obtain ⟨own, seq, glb⟩ := State.setMode_glb (s := s.stampEnd 2) .adopt .none 0
  exact ⟨own, seq, _, glb⟩

theorem State.enterAdopt_grt : s.enterAdopt.grt = s.grt :=
  State.setMode_keeps (P := fun t => t.grt = s.grt) (s := s.stampEnd 2) (keeps_grt (s := s) (by decide)) rfl

theorem State.enterAdopt_admitPend : s.enterAdopt.blw.admitPend.isSome = true := by
  rfl

theorem State.takeRole_blw : s.takeRole.blw = s.blw :=
  State.takeRole_keeps (P := fun t => t.blw = s.blw) (s := s) (keeps_blw (s := s) (by decide)) rfl

/-- A device in ADOPT, alone, that matches its record, its link not up: SOLO, with OUTCOME 1. -/
theorem State.adoptStep_glb_of_alone (hm : s.glb.mode = .adopt) (ha : s.alone = true) (hs : s.selfMatches = true) (hl : s.grt.link ≠ .up) :
    s.adoptStep.glb.mode = .solo ∧ s.adoptStep.glb.role = .solo ∧ s.adoptStep.glb.adoptOut = 1 ∧ s.adoptStep.blw = s.blw := by
  obtain ⟨own, seq, tEnd, taken⟩ := State.takeRole_of_alone (s := s.adoptOutcome 1) ha
  rw [State.adoptStep_of_alone hm ha hs hl, State.takeRole_blw]
  exact ⟨(congrArg Glb.mode taken :), (congrArg Glb.role taken :), (congrArg Glb.adoptOut taken :), rfl⟩

/-! A patch that fails (R365). -/

theorem State.leavePatch_of_patch (h : s.glb.mode = .patch) : s.leavePatch =
    (s.modGlb (fun g => { g with patch := none, patchBg := false })).setMode s.glb.modeFrom s.glb.role 0 := if_pos h

theorem State.leavePatch_glb (h : s.glb.mode = .patch) : s.leavePatch.glb.mode = s.glb.modeFrom ∧ s.leavePatch.glb.patch = none := by
  obtain ⟨own, seq, glb⟩ := State.setMode_glb (s := s.modGlb (fun g => { g with patch := none, patchBg := false })) s.glb.modeFrom s.glb.role 0
  rw [State.leavePatch_of_patch h]
  exact ⟨(congrArg Glb.mode glb :), (congrArg Glb.patch glb :)⟩

theorem State.dropPatch_run (h : s.tck.st = .restarting) : s.dropPatch.tck.st = .run := by
  have kept : s.leavePatch.tck = s.tck := State.leavePatch_keeps (keeps_tck (by decide)) rfl
  rw [State.dropPatch, if_pos (by rw [kept, h])]
  exact State.startFirmware_tck.1

theorem State.dropPatch_fsh : s.dropPatch.fsh = s.fsh := by
  have left : s.leavePatch.fsh = s.fsh := State.leavePatch_keeps (keeps_fsh (by decide)) rfl
  exact ite_keeps (P := fun t : State => t.fsh = s.fsh) (State.startFirmware_keeps (keeps_fsh (by decide)) left) left

/-- What is queued for the flash is among its stores. -/
theorem State.mem_queueStores {x : Store} {xs : List Store} (h : x ∈ xs) : x ∈ (s.queueStores xs).fsh.stores := by
  rw [State.queueStores, State.startOp_stores]
  cases xs.all Store.view <;> simp [h]

theorem State.queueStores_tck {xs : List Store} : (s.queueStores xs).tck = s.tck :=
  State.queueStores_keeps (P := fun t => t.tck = s.tck) (s := s) (keeps_tck (s := s) (by decide)) rfl

theorem State.raise_tck {i : EventId} {items : List Item} : (s.raise i items).tck = s.tck :=
  State.raise_keeps (P := fun t => t.tck = s.tck) (s := s) (keeps_tck (s := s) (by decide)) rfl

/-! The firmware of a patch (R364). -/

theorem State.patchStep_tck : s.patchStep.tck = s.tck :=
  State.patchStep_keeps (P := fun t => t.tck = s.tck) (s := s) (keeps_tck (s := s) (by decide)) rfl

theorem State.modPatch_tck (f : PatchS → PatchS) : (s.modPatch f).tck = s.tck := rfl

theorem State.gPut_tck {m : GMsg} : (s.gPut m).tck = s.tck :=
  State.gPut_keeps (P := fun t => t.tck = s.tck) (s := s) (keeps_tck (s := s) (by decide)) rfl

theorem State.patchKeys_tck {up : Bool} : (s.patchKeys up).tck = s.tck :=
  State.patchKeys_keeps (P := fun t => t.tck = s.tck) (s := s) (keeps_tck (s := s) (by decide)) rfl

theorem State.patchBanks_tck {up : Bool} : (s.patchBanks up).tck = s.tck :=
  State.patchBanks_keeps (P := fun t => t.tck = s.tck) (s := s) (keeps_tck (s := s) (by decide)) rfl

theorem State.startPatch_tck (p : PatchS) : (s.startPatch p).tck = s.startFirmware.tck := by
  rw [State.startPatch, State.patchBanks_tck, State.patchKeys_tck]
  split
  · rw [State.gPut_tck]
  · rfl

/-! Admission (R312). -/

theorem State.mendCopies_of_sound (h : ∀ c, (s.core c).copyBad = false) : s.mendCopies = s := by
  have none_bad : (List.range 32).filter (fun c => (s.core c).copyBad) = [] := List.filter_eq_nil_iff.2 fun c _ => by simp [h c]
  rw [State.mendCopies, none_bad]
  rfl

theorem State.endTakeover_of_other (h : s.glb.mode ≠ .takeover) : s.endTakeover = s := if_pos (by simp [h])

theorem State.patchDone_of_none (h : s.glb.patch = none) : s.patchDone = s := by rw [State.patchDone, h]

theorem State.runAdmission_glb : s.runAdmission.glb = s.glb := State.runAdmission_keeps (keeps_glb (by decide)) rfl

theorem exec_admission_of_solo {n : Nat} (hr : s.running = true) (hm : s.glb.mode = .solo) (ha : s.blw.admitPend = some n) (hn : n ≠ 1)
    (hp : s.glb.patch = none) (hc : ∀ c, (s.core c).copyBad = false) : exec .admission s = .next s.runAdmission := by
  have ended : s.runAdmission.endTakeover = s.runAdmission := State.endTakeover_of_other (by rw [State.runAdmission_glb, hm]; exact nofun)
  have idle : s.runAdmission.patchDone = s.runAdmission := State.patchDone_of_none (by rw [State.runAdmission_glb, hp])
  have kept : s.whenB ((s.glb.patch.map (·.step)) == some 5 && s.outputs.isEmpty) State.patchCommit = s := by
    rw [hp]
    rfl
  rw [exec_admission, execAdmission, ha]
  dsimp only
  rw [if_neg (by simp [hr, hm]), kept, State.mendCopies_of_sound hc, if_neg hn, ended, idle]

/-! The fuses (R338). -/

theorem exec_otpFuseBlow : exec .otpFuseBlow s = execOtpFuseBlow s := rfl

theorem State.raise_fsh {c : EventId} {items : List Item} : (s.raise c items).fsh = s.fsh :=
  State.raise_keeps (P := fun t => t.fsh = s.fsh) (s := s) (keeps_fsh (s := s) (by decide)) rfl

/-- Settles O28: the end of each phase enters the next, and the rest is as the case says. -/
theorem serviceCommands : Obligations.ServiceCommands := by
  refine ⟨?loadDone, ?unfilled, ?trainEnd, ?late, ?firmware, ?failed, fun s n => exec_admission_of_solo, ?noAdmission, ?fuses⟩
  case loadDone =>
    intro s mode loaded filled streams rises
    obtain ⟨train, up, cores⟩ := State.enterTrain_entered (s := s)
    have core (c : Nat) : s.enterTrain.trainPorts.core c = { s.core c with copies := (s.core c).words, copyBad := false } := by
      rw [State.core_congr State.trainPorts_cores, State.core, cores, Tbl.look_mapAll c rises rfl]
      rfl
    refine ⟨_, exec_loadDone_of_filled mode loaded filled streams, ?_, ?_, fun c => ?_⟩
    · rw [State.trainPorts_glb, train]
    · rw [State.trainPorts_hq, up]
    · rw [core]
      exact ⟨rfl, rfl⟩
  case unfilled =>
    intro s mode unfilled
    rw [exec_loadDone, execLoadDone, if_pos (by simp [unfilled])]
  case trainEnd =>
    intro s mode none_enabled matches_ link
    obtain ⟨own, seq, tEnd, glb⟩ := State.enterAdopt_glb (s := s)
    have adopt : s.enterAdopt.glb.mode = .adopt := (congrArg Glb.mode glb :)
    have alone : s.enterAdopt.alone = true := State.alone_of_disabled ((congrArg Glb.twinEn glb :).trans none_enabled)
    have own_record : s.enterAdopt.selfMatches = true := by
      rw [State.selfMatches, glb]
      exact matches_
    have down : s.enterAdopt.grt.link ≠ .up := by
      rw [State.enterAdopt_grt, link]
      exact nofun
    obtain ⟨solo, role, outcome, blw⟩ := State.adoptStep_glb_of_alone adopt alone own_record down
    exact ⟨_, exec_trainEnd_of_up mode, solo, role, outcome, blw ▸ State.enterAdopt_admitPend⟩
  case late =>
    intro s late mode some_late waits
    have listed : late.isEmpty = false := by simpa using some_late
    rw [exec_trainEnd, execTrainEnd, if_pos (by simp [listed, waits])]
  case firmware =>
    intro s p patch step restarting
    obtain ⟨f, run⟩ := exec_tackFwReady_of_ready patch step restarting
    obtain ⟨st, seq, expired, -⟩ := State.startFirmware_tck (s := s)
    refine ⟨_, run, fun _ => ?_⟩
    rw [State.patchStep_tck, State.modPatch_tck, State.startPatch_tck]
    exact ⟨st, seq, expired⟩
  case failed =>
    intro s p patch step mode restarting due
    obtain ⟨back, cleared⟩ := State.leavePatch_glb mode
    refine ⟨_, exec_patchFailed_of_over patch step due, ?_, ?_, ?_, ⟨_, State.mem_queueStores List.mem_cons_self, ?_, rfl, rfl⟩⟩
    · rw [State.unseal_glb, State.dropPatch_glb, back]
    · rw [State.unseal_glb, State.dropPatch_glb, cleared]
    · rw [State.queueStores_tck, State.raise_tck, State.dropPatch_run restarting]
    · exact congrArg (fun f : Fsh => f.slotBase p.target) State.dropPatch_fsh
  case noAdmission =>
    intro s none_due
    rw [exec_admission, execAdmission, none_due]
  case fuses =>
    intro s due role power serves slot raises above
    have lower : (s.fsh.raiseFloor && decide (s.fsh.floor.toNat < s.fsh.svn.toNat)) = true := by simp [raises, above]
    rw [exec_otpFuseBlow, execOtpFuseBlow, if_neg (by simpa [due, role, power, serves] using Option.isSome_iff_ne_none.1 slot)]
    simp only [lower, if_true]
    refine ⟨_, rfl, ?_⟩
    rw [State.raise_fsh]
    split
    · exact ⟨rfl, rfl, rfl, rfl⟩
    · rw [State.raise_fsh]
      exact ⟨rfl, rfl, rfl, rfl⟩

theorem IrcSrc.resetAt_fields (n : Nat) : (resetAt n).enable = false ∧ (resetAt n).prio = if n = 255 then 15 else 0 := by
  unfold resetAt
  split <;> exact ⟨rfl, rfl⟩

/-- Settles O54: the reset state, read field by field. -/
theorem resetState : Obligations.ResetState := by
  unfold Obligations.ResetState
  exact ⟨rfl, rfl, rfl, rfl, rfl, rfl, rfl, rfl, rfl, rfl, rfl, rfl, rfl, IrcSrc.resetAt_fields, fun _ => ⟨rfl, rfl, rfl⟩, rfl, fun _ => rfl, rfl, rfl,
    rfl, rfl, rfl, rfl, rfl, rfl, fun _ => ⟨rfl, rfl, rfl⟩, fun _ => rfl, rfl, rfl, rfl, fun _ => rfl, rfl, rfl, fun _ => rfl, rfl⟩

end Sys2Proof.Machine
end

section
/-! PROOF. PMBus, operating points and thermal throttling (R438 to R450). -/

namespace Sys2Proof.Machine

variable {P : State → Prop} {s t : State}

/-! The rails' regulators as the Tack knows them. -/

theorem State.pRail_congr (h : t.tck = s.tck) (r : Nat) : t.pRail r = s.pRail r := by rw [State.pRail, h, State.pRail]

/-- A condition on the rails' table holds after what the rate limit lets pass. -/
theorem State.pmbusError_tck {r cmd : Nat} : (s.pmbusError r cmd).tck = s.tck :=
  State.pmbusError_keeps (P := fun t => t.tck = s.tck) (s := s) (keeps_tck (s := s) (by decide)) rfl

theorem State.limited_raise_tck {id ev : EventId} {src ns : Nat} {items : List Item} :
    (s.limited id src ns (State.raise ev items)).tck = s.tck :=
  State.limited_keeps (P := fun t => t.tck = s.tck) (s := s) (keeps_tck (s := s) (by decide))
    (fun _ k => State.raise_keeps (keeps_tck (s := s) (by decide)) k) rfl

theorem State.voltageHold_tck {b : Nat} : (s.voltageHold b).tck = s.tck :=
  State.voltageHold_keeps (P := fun t => t.tck = s.tck) (s := s) (keeps_tck (s := s) (by decide)) rfl

theorem State.bayMove_tck {b : Nat} : (s.bayMove b).tck = s.tck :=
  State.bayMove_keeps (P := fun t => t.tck = s.tck) (s := s) (keeps_tck (s := s) (by decide)) rfl

theorem State.bayMove_irc {b : Nat} : (s.bayMove b).irc = s.irc :=
  State.bayMove_keeps (P := fun t => t.irc = s.irc) (s := s) (keeps_irc (s := s) (by decide)) rfl

theorem State.limited_raise_irc {id ev : EventId} {src ns : Nat} {items : List Item} :
    (s.limited id src ns (State.raise ev items)).irc = s.irc :=
  State.limited_keeps (P := fun t => t.irc = s.irc) (s := s) (keeps_irc (s := s) (by decide))
    (fun _ k => State.raise_keeps (keeps_irc (s := s) (by decide)) k) rfl

/-! The bays. -/

/-- No bay but `b` has changed, nor the limit of the throttling. -/
def OnlyBay (b : Nat) (s t : State) : Prop := (∀ d, b ≠ d → t.bay d = s.bay d) ∧ t.blw.tjThrottle = s.blw.tjThrottle

theorem OnlyBay.rfl {b : Nat} : OnlyBay b s s := ⟨fun _ _ => .refl _, .refl _⟩

theorem OnlyBay.trans {b : Nat} {u : State} (h : OnlyBay b s t) (k : OnlyBay b t u) : OnlyBay b s u :=
  ⟨fun d n => (k.1 d n).trans (h.1 d n), k.2.trans h.2⟩

theorem onlyBay_of_blw {b : Nat} (h : t.blw = s.blw) : OnlyBay b s t :=
  ⟨fun d _ => State.bay_congr (congrArg Blw.bays h) d, congrArg Blw.tjThrottle h⟩

theorem onlyBay_modBay {b : Nat} (f : Bay → Bay) : OnlyBay b s (s.modBay b f) :=
  ⟨fun _ n => State.modBay_other s f n, Eq.refl s.blw.tjThrottle⟩

theorem onlyBay_bayMove {b : Nat} : OnlyBay b s (s.bayMove b) := by
  unfold State.bayMove
  split
  · exact onlyBay_modBay _
  · exact .rfl

theorem State.limited_raise_blw {id ev : EventId} {src ns : Nat} {items : List Item} :
    (s.limited id src ns (State.raise ev items)).blw = s.blw :=
  State.limited_keeps (P := fun t => t.blw = s.blw) (s := s) (keeps_blw (s := s) (by decide))
    (fun _ k => State.raise_keeps (keeps_blw (s := s) (by decide)) k) rfl

/-- R446, R449: throttling is noted in the bay's registers alone. -/
theorem State.throttle_blw (b : Nat) (c : BitVec 2) : (s.throttle b c).blw = (s.modBay b (fun x => { x with throttled := true, cause := c })).blw := by
  unfold State.throttle
  dsimp only
  split
  · rfl
  · rw [State.limited_raise_blw]
    rfl

theorem onlyBay_throttle {b : Nat} {c : BitVec 2} : OnlyBay b s (s.throttle b c) :=
  (onlyBay_modBay _).trans (onlyBay_of_blw (State.throttle_blw b c))

theorem State.throttle_bay {b : Nat} {c : BitVec 2} : (s.throttle b c).bay b = { s.bay b with throttled := true, cause := c } := by
  rw [State.bay_congr (congrArg Blw.bays (State.throttle_blw b c)), State.modBay_same]

/-- What the aim of a bay's move sets is the point being entered. -/
theorem State.bayMove_bay {b : Nat} : ∃ c, (s.bayMove b).bay b = { s.bay b with changing := c } := by
  unfold State.bayMove
  split
  next p _ => exact ⟨some p, State.modBay_same s b _⟩
  next => exact ⟨(s.bay b).changing, .refl _⟩

/-! The check of the bays (R446). -/

theorem onlyBay_checkBay {cool : Int} {b : Nat} : OnlyBay b s (s.checkBay cool b) := by
  unfold State.checkBay
  dsimp only
  split
  · exact .rfl
  split
  · split
    · exact onlyBay_modBay _
    · refine .trans ?_ ((onlyBay_throttle).trans (onlyBay_modBay _))
      exact onlyBay_of_blw (State.whenB_keeps (P := fun t => t.blw = s.blw) (fun _ k => k) (Eq.refl s.blw))
  split <;> exact onlyBay_modBay _

theorem State.checkBay_of_fenced {cool : Int} {b : Nat} (h : (s.bay b).fenced = true) : s.checkBay cool b = s := by
  unfold State.checkBay
  exact if_pos h

/-- R446: a bay 30 degrees above the coolest one, and not above TJ_THROTTLE. -/
def Bay.uneven (x : Bay) (cool tj : Int) : Prop :=
  x.fenced = false ∧ cool + 240 < x.temp.toInt ∧ x.temp.toInt ≤ 8 * tj ∧ x.point ≠ 3 ∧ x.changing = none

/-- The step down of an uneven bay: one point, with CAUSE 1. -/
def Bay.stepDown (x : Bay) : Bay :=
  { x with throttled := true, cause := 1, changing := some (x.point + 1), steps := satInc x.steps, clearSince := none }

theorem State.checkBay_of_uneven {cool : Int} {b : Nat} (h : (s.bay b).uneven cool s.blw.tjThrottle) :
    (s.checkBay cool b).bay b = (s.bay b).stepDown := by
  obtain ⟨serves, above, below, slower, still⟩ := h
  have cool_enough : decide (8 * (s.blw.tjThrottle : Int) < (s.bay b).temp.toInt) = false := by simpa using below
  have checked : s.checkBay cool b = (s.throttle b 1).modBay b
      (fun x => { x with changing := some (x.point + 1), steps := satInc x.steps, clearSince := none }) := by
    unfold State.checkBay
    simp only [serves, above, still, cool_enough, beq_eq_false_iff_ne.2 slower, State.whenB, decide_true, Bool.true_or, Bool.true_and,
      Bool.and_false, Bool.not_false, Option.isSome_none, Bool.or_false, Bool.false_eq_true, if_true, if_false]
  rw [checked, State.modBay_same, State.throttle_bay]
  rfl

/-- A pass over the bays does to each bay what its own check does. -/
theorem State.each_checkBay (cool : Int) {b : Nat} {xs : List Nat} (hb : b ∈ xs) (hn : xs.Nodup) :
    ∃ u : State, u.bay b = s.bay b ∧ u.blw.tjThrottle = s.blw.tjThrottle ∧ (s.each xs (State.checkBay cool)).bay b = (u.checkBay cool b).bay b := by
  obtain ⟨before, after, rfl⟩ := List.append_of_mem hb
  obtain ⟨-, not_after, apart⟩ := List.nodup_append.1 hn
  have not_before : ∀ a ∈ before, a ≠ b := fun a ha => apart a ha b List.mem_cons_self
  have early := State.each_keeps_of_mem (P := fun t => t.bay b = s.bay b ∧ t.blw.tjThrottle = s.blw.tjThrottle) (f := State.checkBay cool)
    (fun a ha t k => ⟨(onlyBay_checkBay.1 b (not_before a ha)).trans k.1, onlyBay_checkBay.2.trans k.2⟩) ⟨.refl (s.bay b), .refl s.blw.tjThrottle⟩
  refine ⟨s.each before (State.checkBay cool), early.1, early.2, ?_⟩
  have late (u : State) : (u.each after (State.checkBay cool)).bay b = u.bay b :=
    State.each_keeps_of_mem (P := fun t => t.bay b = u.bay b) (f := State.checkBay cool)
      (fun a ha t k => (onlyBay_checkBay.1 b fun e => (List.nodup_cons.1 not_after).1 (e ▸ ha)).trans k) (Eq.refl (u.bay b))
  have split_pass : s.each (before ++ b :: after) (State.checkBay cool) =
      ((s.each before (State.checkBay cool)).checkBay cool b).each after (State.checkBay cool) := by
    simp [State.each]
  rw [split_pass, late]

/-! The commands. -/

theorem exec_pmbusPoll (r : Nat) (v : Option RailRead) : exec (.pmbusPoll r v) s = execPmbusPoll r v s := rfl
theorem exec_pmbusSetPoint (r : Nat) (mv : BitVec 16) (ack : Bool) : exec (.pmbusSetPoint r mv ack) s = execPmbusSetPoint r mv ack s := rfl
theorem exec_pmbusConfirm (r : Nat) (mv : BitVec 16) : exec (.pmbusConfirm r mv) s = execPmbusConfirm r mv s := rfl
theorem exec_bayClockChange (b : Nat) : exec (.bayClockChange b) s = execBayClockChange b s := rfl
theorem exec_thermalCheck : exec .thermalCheck s = execThermalCheck s := rfl
theorem exec_throttleStepUp (b : Nat) : exec (.throttleStepUp b) s = execThrottleStepUp b s := rfl

/-- R439: a rail's registers once its telemetry has been read. -/
def PRail.polled (r : Nat) (v : RailRead) (x : PRail) : PRail :=
  { x with vread := v.vout, iread := v.iout, treg := v.temp, status := v.status, updSeq := x.updSeq + 1, err := false,
           notLinear := !v.linear16, avs := v.linear16 && decide (r < 5), errRaised := x.errRaised || !v.linear16 }

/-- R438: a rail's registers once a set point has been written. -/
def PRail.asked (mv : BitVec 16) (now : Nat) (ack : Bool) (x : PRail) : PRail :=
  { x with wanted := some mv, wantAt := now, written := ack, tries := if x.wanted == some mv then x.tries else 0 }

theorem exec_pmbusPoll_of_read {r : Nat} {v : RailRead} (h : s.railReach r = true) : ∃ t, exec (.pmbusPoll r (some v)) s = .next t ∧
    t.tck = (s.modPRail r (PRail.polled r v)).tck := by
  have reported : ((s.modPRail r (PRail.polled r v)).whenB (!v.linear16 && !(s.pRail r).errRaised) (State.pmbusError r 0x20)).tck =
      (s.modPRail r (PRail.polled r v)).tck :=
    State.whenB_keeps (P := fun t => t.tck = (s.modPRail r (PRail.polled r v)).tck) (fun _ k => State.pmbusError_tck.trans k) rfl
  refine ⟨_, ?_, State.whenB_keeps (P := fun t => t.tck = (s.modPRail r (PRail.polled r v)).tck) (b := v.status != 0)
    (f := State.limited .regulatorFault r ms (State.raise .regulatorFault [i16 r, .w16 v.status])) (fun _ k => State.limited_raise_tck.trans k) reported⟩
  rw [exec_pmbusPoll]
  exact congrArg Host.Outcome.next (if_neg (by simp [h]))

theorem exec_pmbusSetPoint_of_allowed {r : Nat} {mv : BitVec 16} (ack : Bool) (hr : s.railReach r = true) (hl : (s.pRail r).notLinear = false)
    (hm : s.mayWrite r mv = true) : exec (.pmbusSetPoint r mv ack) s =
    .next (if ack then s.modPRail r (PRail.asked mv s.now ack) else (s.modPRail r (PRail.asked mv s.now ack)).pmbusFail r false) :=
  congrArg Host.Outcome.next (if_neg (by simp [hr, hl, hm]))

theorem exec_thermalCheck_of_running {cool : Int} (hr : s.running = true) (hp : s.glb.pllLock = true) (hc : s.coolest = some cool) :
    exec .thermalCheck s = .next (s.each (List.range 4) (State.checkBay cool)) := by
  rw [exec_thermalCheck, execThermalCheck, if_neg (by simp [hr, hp]), hc]

/-- The rail after a third refused write: given up. -/
theorem State.pmbusFail_of_tried {r : Nat} (again : Bool) (h : 2 ≤ (s.pRail r).tries) :
    (s.pmbusFail r again).pRail r = { s.pRail r with wanted := none, written := false, tries := 0, err := true } := by
  unfold State.pmbusFail
  rw [if_pos h]
  dsimp only
  have kept : ∀ u : State, ((u.pmbusError r 0x21).whenB (decide (r < 4)) (State.voltageHold r)).tck = u.tck := fun u =>
    State.whenB_keeps (P := fun t => t.tck = u.tck) (fun _ k => State.voltageHold_tck.trans k) State.pmbusError_tck
  rw [State.pRail_congr (kept _), State.modPRail_same]

/-- R438: a rail's registers once its set point is confirmed. -/
def PRail.confirmed (w : BitVec 16) (x : PRail) : PRail := { x with vset := w, wanted := none, written := false, tries := 0, err := false }

/-- R440: a bay's registers once the set point of its rail is confirmed. -/
def Bay.confirmed (w : BitVec 16) (x : Bay) : Bay := { x with vset := w, unconfirmed := x.unconfirmed && w != x.setPoint x.point }

theorem State.confirmSetPoint_pRail {r : Nat} {w : BitVec 16} : (s.confirmSetPoint r w).pRail r = (s.pRail r).confirmed w := by
  rw [← State.modPRail_same s r (PRail.confirmed w)]
  refine State.pRail_congr ?_ r
  unfold State.confirmSetPoint
  dsimp only
  split
  · exact State.bayMove_tck
  · rfl

theorem State.confirmSetPoint_bay {r : Nat} {w : BitVec 16} (h : r < 4) : ((s.confirmSetPoint r w).bay r).vset = w := by
  unfold State.confirmSetPoint
  rw [if_pos h]
  obtain ⟨c, moved⟩ := State.bayMove_bay (s := (s.modPRail r (PRail.confirmed w)).modBay r (Bay.confirmed w)) (b := r)
  have confirmed : ((s.modPRail r (PRail.confirmed w)).modBay r (Bay.confirmed w)).bay r = ((s.modPRail r (PRail.confirmed w)).bay r).confirmed w :=
    State.modBay_same _ r _
  refine (congrArg Bay.vset moved).trans ?_
  rw [confirmed]
  rfl

theorem onlyBay_confirmSetPoint {r : Nat} {w : BitVec 16} : OnlyBay r s (s.confirmSetPoint r w) := by
  unfold State.confirmSetPoint
  dsimp only
  split
  · exact (onlyBay_of_blw (Eq.refl s.blw)).trans ((onlyBay_modBay _).trans onlyBay_bayMove)
  · exact onlyBay_of_blw (Eq.refl s.blw)

/-- R449: a bay's registers once its clock change ends, the throttling over when `free`. -/
def Bay.arrived (p : BitVec 2) (free : Bool) (x : Bay) : Bay :=
  { x with point := p, freq := pointMhz p, changing := none, unconfirmed := decide (x.point < p) && x.vset != x.setPoint p,
           throttled := x.throttled && !free, cause := if free then 0 else x.cause, clearSince := if free then none else x.clearSince }

theorem exec_bayClockChange_of_due {b : Nat} {p : BitVec 2} (hc : (s.bay b).changing = some p) (hf : (s.bay b).fenced = false) :
    ∃ (t : State) (free : Bool), exec (.bayClockChange b) s = .next (t.bayMove b) ∧ t.blw = (s.modBay b (Bay.arrived p free)).blw ∧
      44 + b ∈ t.irc.latch := by
  obtain ⟨free, hfree⟩ : ∃ free, free = ((s.bay b).throttled && p == (s.bay b).pointMax) := ⟨_, rfl⟩
  have run : exec (.bayClockChange b) s = .next ((((s.modBay b (Bay.arrived p free)).latch (44 + b)).whenB free
      (State.limited .bayUnthrottled b ms (State.raise .bayUnthrottled [i16 b]))).bayMove b) := by
    rw [exec_bayClockChange, execBayClockChange]
    dsimp only
    rw [hc]
    dsimp only
    rw [if_neg (by simp [hf]), hfree]
    rfl
  refine ⟨_, free, run, ?_, ?_⟩
  · exact State.whenB_keeps (P := fun t => t.blw = (s.modBay b (Bay.arrived p free)).blw) (fun _ k => State.limited_raise_blw.trans k) rfl
  · exact State.whenB_keeps (P := fun t => 44 + b ∈ t.irc.latch) (fun _ k => by
      rw [State.limited_raise_irc]
      exact k) (State.latch_mem _ (44 + b))

/-- Settles O46: rail by rail and bay by bay, each command's branch. -/
theorem powerPoints : Obligations.PowerPoints := by
  refine ⟨?unreached, ?failed, ?polled, ?written, ?mayNot, ?refused, ?confirmed, ?unwanted, ?early, ?changed, ?steady,
    ?stepDown, ?fenced, ?stepUp, ?notClear⟩
  case unreached =>
    intro s r v unreached
    exact congrArg Host.Outcome.next (if_pos (by simp [unreached]))
  case failed =>
    intro s r reach
    exact congrArg Host.Outcome.next (if_neg (by simp [reach]))
  case polled =>
    intro s r v reach linear
    obtain ⟨t, run, tck⟩ := exec_pmbusPoll_of_read (v := v) reach
    refine ⟨t, run, ?_⟩
    simp only [State.pRail_congr tck, State.modPRail_same]
    exact ⟨rfl, rfl, rfl, rfl, rfl, rfl, rfl, fun q other => State.modPRail_other s _ other, commandFootprint _ _ _ run⟩
  case written =>
    intro s r mv reach linear allowed
    refine ⟨_, exec_pmbusSetPoint_of_allowed true reach linear allowed, ?_⟩
    rw [if_pos rfl, State.modPRail_same]
    exact ⟨rfl, rfl, rfl, rfl, fun q other => State.modPRail_other s _ other, frame_of_keeps fun _ u k => State.modPRail_keeps u k⟩
  case mayNot =>
    intro s r mv ack denied
    rw [exec_pmbusSetPoint, execPmbusSetPoint, if_pos (by simp [denied])]
  case refused =>
    intro s r mv reach linear allowed wanted tried
    have run := exec_pmbusSetPoint_of_allowed false reach linear allowed
    have third := State.pmbusFail_of_tried (s := s.modPRail r (PRail.asked mv s.now false)) (r := r) false (by simp [PRail.asked, wanted, tried])
    rw [if_neg Bool.false_ne_true] at run
    refine ⟨_, run, ?_, ?_, ?_, commandFootprint _ _ _ run⟩ <;> rw [third]
    rw [State.modPRail_same]
    rfl
  case confirmed =>
    intro s r mv w reach wanted written settled near
    have run : exec (.pmbusConfirm r mv) s = .next ((s.modPRail r (fun x => { x with vread := mv })).confirmSetPoint r w) := by
      rw [exec_pmbusConfirm, execPmbusConfirm]
      dsimp only
      rw [wanted]
      dsimp only
      rw [if_neg (by simp [reach, written, settled]), if_pos near]
    have rail := State.confirmSetPoint_pRail (s := s.modPRail r (fun x => { x with vread := mv })) (r := r) (w := w)
    refine ⟨_, run, ?_, ?_, ?_, State.confirmSetPoint_bay, fun b other => onlyBay_confirmSetPoint.1 b other⟩ <;> rw [rail] <;> rfl
  case unwanted =>
    intro s r mv unwanted
    rw [exec_pmbusConfirm, execPmbusConfirm]
    dsimp only
    rw [unwanted]
  case early =>
    intro s r mv early
    rw [exec_pmbusConfirm, execPmbusConfirm]
    dsimp only
    split
    · rfl
    · rw [if_pos (by simp [early])]
  case changed =>
    intro s b p changing serves
    obtain ⟨t, free, run, blw, latched⟩ := exec_bayClockChange_of_due changing serves
    obtain ⟨c, moved⟩ := State.bayMove_bay (s := t) (b := b)
    have bay : t.bay b = (s.bay b).arrived p free := (State.bay_congr (congrArg Blw.bays blw) b).trans (State.modBay_same s b _)
    refine ⟨_, run, ?_, ?_, ?_, fun d other => ?_⟩
    · rw [moved, bay]
      rfl
    · rw [moved, bay]
      rfl
    · rw [State.bayMove_irc]
      exact latched
    · exact ((onlyBay_modBay (Bay.arrived p free)).trans ((onlyBay_of_blw blw).trans onlyBay_bayMove)).1 d other
  case steady =>
    intro s b steady
    rw [exec_bayClockChange, execBayClockChange]
    dsimp only
    rw [steady]
  case stepDown =>
    intro s b cool bay running locked coolest serves above below slower still
    obtain ⟨u, same, tj, done⟩ := State.each_checkBay (s := s) cool (List.mem_range.2 bay) List.nodup_range
    have down : (u.checkBay cool b).bay b = (s.bay b).stepDown := by
      rw [← same]
      exact State.checkBay_of_uneven (by rw [same, tj]; exact ⟨serves, above, below, slower, still⟩)
    refine ⟨_, exec_thermalCheck_of_running running locked coolest, ?_⟩
    rw [done, down]
    exact ⟨rfl, rfl, rfl, rfl, rfl⟩
  case fenced =>
    intro s b bay running locked some_cool fenced
    obtain ⟨cool, coolest⟩ := Option.isSome_iff_exists.1 some_cool
    obtain ⟨u, same, -, done⟩ := State.each_checkBay (s := s) cool (List.mem_range.2 bay) List.nodup_range
    refine ⟨_, exec_thermalCheck_of_running running locked coolest, ?_⟩
    rw [done, State.checkBay_of_fenced (by rw [same, fenced]), same]
  case stepUp =>
    intro s b a clear throttled serves still due above confirmed
    rw [exec_throttleStepUp, execThrottleStepUp]
    dsimp only
    rw [clear]
    dsimp only
    rw [if_pos (by simpa [throttled, serves, still, due, above] using confirmed)]
  case notClear =>
    intro s b clear
    rw [exec_throttleStepUp, execThrottleStepUp]
    dsimp only
    rw [clear]

end Sys2Proof.Machine
end

section
/-! PROOF. Register writes: what refuses them, and what a refused one leaves (R457 to R467). -/

namespace Sys2Proof.Machine

variable {s : State}

theorem exec_registerWrite (w : Writer) (a : Nat) (v : Word) (whole : Bool) : exec (.registerWrite w a v whole) s = execRegisterWrite w a v whole s := rfl

/-- Out of reset a direct write is judged at its address. -/
theorem exec_registerWrite_of_out (w : Writer) (a : Nat) (v : Word) (whole : Bool) (h : s.glb.inReset = false) :
    exec (.registerWrite w a v whole) s = .next (s.writeAddr w a v whole).1 := by
  rw [exec_registerWrite, execRegisterWrite, if_neg (by simp [h])]

/-! A direct write at an address (R457, R458, R463). -/

theorem State.writeAddr_of_narrow (w : Writer) (a : Nat) (v : Word) : (s.writeAddr w a v false).1 = s.werr w 6 a := rfl

theorem State.writeAddr_of_no_register (w : Writer) {a : Nat} (v : Word) (h : regAt a = none) : (s.writeAddr w a v true).1 = s.werr w 7 a := by
  unfold State.writeAddr
  rw [h]
  rfl

theorem State.writeAddr_of_txn (w : Writer) {a n k : Nat} (v : Word) (h : regAt a = some (.txn n k)) :
    (s.writeAddr w a v true).1 = (s.writeTxn w n k v).1.refuse w (s.writeTxn w n k v).2 := by
  unfold State.writeAddr
  rw [h]
  rfl

/-- A register outside the TXN block: it only reads, or refuses the write, or takes it. -/
theorem State.writeAddr_of_reg (w : Writer) {a : Nat} {r : Reg} (v : Word) (h : regAt a = some r) (ht : ∀ x j : Nat, r ≠ .txn x j) :
    s.writeAddr w a v true = if !r.rw then (s, none) else
      match s.refusal w false (s.writerScope w) r v with
      | some k => ((s.rejectArm a).werr w k a, some k)
      | none => ((s.putReg w false (s.writerScope w) r v).markConflict none [a], none) := by
  unfold State.writeAddr
  rw [h]
  cases r
  case txn x j => exact absurd rfl (ht x j)
  all_goals rfl

theorem State.rejectArm_of_other {a : Nat} {r : Reg} (h : regAt a = some r) (hl : ∀ e j : Nat, r ≠ .lineEvent e j) : s.rejectArm a = s := by
  unfold State.rejectArm
  rw [h]
  cases r
  case lineEvent e j => exact absurd rfl (hl e j)
  all_goals rfl

theorem State.refusal_of_writeReason {w : Writer} {inTxn : Bool} (scope : Option Nat) {r : Reg} {v : Word} {k : BitVec 4}
    (h : s.writeReason w inTxn r v = some k) : s.refusal w inTxn scope r v = some k := by
  unfold State.refusal
  rw [h]

/-! The reasons (R463, R466, R467). -/

/-- Outside the TXN block the reasons are judged in this order. -/
theorem State.writeReason_of_not_txn (w : Writer) (inTxn : Bool) {r : Reg} (v : Word) (h : ∀ x j : Nat, r ≠ .txn x j) :
    s.writeReason w inTxn r v =
      if r.platform then some 3
      else if (s.writerScope w).any (fun p => partBad p r v) then some 4
      else if s.stateBad r then some 5
      else if !inTxn && w != .image && s.txnOnly r v then some 2
      else if s.rangeBad r v then some 1
      else none := by
  cases r
  case txn x j => exact absurd rfl (h x j)
  all_goals rfl

/-! The count and the record of refusals (R463). -/

theorem State.werr_glb (w : Writer) (k : BitVec 4) (a : Nat) : (s.werr w k a).glb =
    if s.glb.werrReason = 0 then
      { s.glb with werrCount := satInc s.glb.werrCount, werrReason := k, werrWriter := w.code, werrAddr := BitVec.ofNat 26 a
                   werrSeq := s.glb.werrSeq + 1 }
    else { s.glb with werrCount := satInc s.glb.werrCount } := rfl

theorem State.werr_frame (w : Writer) (k : BitVec 4) (a : Nat) : frame [.glb] s (s.werr w k a) := s.modGlb_frame _

/-! The words of a transaction (R475), written by the Tack. -/

theorem State.writeTxn_frame_of_opened {n : Nat} (v : Word) (hs : (s.trans n).st = .opened) (ho : (s.trans n).opener = .tack) :
    s.writeTxn .tack n 2 v = (s.modTrans n (fun x => { x with frame := v }), none) := by
  have mine : ((s.trans n).st != .opened || (s.trans n).opener != writerOpener .tack) = false := by simp [hs, ho, writerOpener]
  exact (if_neg (by rw [mine]; exact nofun)).trans rfl

theorem State.writeTxn_frame_of_not_opened {n : Nat} (v : Word) (hs : (s.trans n).st ≠ .opened) :
    s.writeTxn .tack n 2 v = (s, some (8, 0x1000 + 0x40 * n + 8)) := by
  have other : ((s.trans n).st != .opened || (s.trans n).opener != writerOpener .tack) = true := by simp [hs]
  exact if_pos other

theorem exec_glbWerrClear (v : Word) : exec (.glbWerrClear v) s = .next (if v.extractLsb' 24 8 = s.glb.werrSeq then
    s.modGlb (fun g => { g with werrReason := 0, werrWriter := 0, werrAddr := 0 }) else s) := rfl

/-- Settles O48: each reason is the first that applies, and a refusal moves the error record alone. -/
theorem registerWrites : Obligations.RegisterWrites := by
  refine ⟨?narrow, ?empty, ?readOnly, ?refused, ?record, ?platform, ?txnOnly, ?frame, ?closed, ?inReset, ?clear, ?keep⟩
  case narrow =>
    intro s w a v out
    rw [exec_registerWrite_of_out w a v false out, State.writeAddr_of_narrow]
  case empty =>
    intro s w a v out empty
    rw [exec_registerWrite_of_out w a v true out, State.writeAddr_of_no_register w v empty]
  case readOnly =>
    intro s w a v r out reg not_txn fixed
    rw [exec_registerWrite_of_out w a v true out, State.writeAddr_of_reg w v reg not_txn, if_pos (by simp [fixed])]
  case refused =>
    intro s w a v r k out reg not_txn not_event writable reason
    rw [exec_registerWrite_of_out w a v true out, State.writeAddr_of_reg w v reg not_txn, if_neg (by simp [writable]),
      State.refusal_of_writeReason _ reason, State.rejectArm_of_other reg not_event]
  case record =>
    intro s w k a
    refine ⟨?_, State.werr_frame w k a, fun first => ?_, fun later => ?_⟩ <;> rw [State.werr_glb]
    · split <;> rfl
    · rw [if_pos first]
    · rw [if_neg later]
  case platform =>
    intro s w a v r platform not_txn
    rw [State.writeReason_of_not_txn w false v not_txn, if_pos platform]
  case txnOnly =>
    intro s r v only own settled not_txn
    rw [State.writeReason_of_not_txn .tack false v not_txn, if_neg (by simp [own]), if_neg (by simp [State.writerScope]), if_neg (by simp [settled]), only]
    rfl
  case frame =>
    intro s a n v out reg opened opener
    rw [exec_registerWrite_of_out .tack a v true out, State.writeAddr_of_txn .tack v reg, State.writeTxn_frame_of_opened v opened opener]
    rfl
  case closed =>
    intro s a n v out reg closed
    rw [exec_registerWrite_of_out .tack a v true out, State.writeAddr_of_txn .tack v reg, State.writeTxn_frame_of_not_opened v closed]
    rfl
  case inReset =>
    intro s w a v b held
    rw [exec_registerWrite, execRegisterWrite, if_pos held]
  case clear =>
    intro s v seq
    rw [exec_glbWerrClear, if_pos seq]
  case keep =>
    intro s v stale
    rw [exec_glbWerrClear, if_neg stale]

end Sys2Proof.Machine
end

section
/-! PROOF. A transaction that buffers a word of an armed line event entry (R47, R469). -/

namespace Sys2Proof.Machine

/-- A write buffered for word `j` of entry `e` and refused with a reason other than 8 latches source 49 with REJECTED (R47, R377). -/
theorem State.rejectArm_latch {s : State} {a e j : Nat} (h : regAt a = some (.lineEvent e j)) : 49 ∈ (s.rejectArm a).irc.latch := by
  unfold State.rejectArm
  rw [h]
  exact State.latch_mem _ 49

theorem State.refuse_irc {s : State} (w : Writer) (x : Option (BitVec 4 × Nat)) : (s.refuse w x).irc = s.irc := by
  cases x <;> rfl

/-- A refused write to a register is rejected at its entry, whatever the transaction then records of it. -/
theorem State.bufferTxn_irc_of_refused {s : State} {w : Writer} {n a : Nat} {v : Word} {k : BitVec 4} (hk : s.bufferReason w n a v = some k)
    (h8 : k ≠ 8) : (s.bufferTxn w n a v).1.irc = (s.rejectArm a).irc := by
  have rejected : s.whenB (k != 8) (State.rejectArm a) = s.rejectArm a := if_pos (bne_iff_ne.2 h8)
  unfold State.bufferTxn
  rw [hk]
  exact (congrArg State.irc rejected :)

theorem State.opWdata_irc_of_opened {s : State} {w : Writer} {n : Nat} {v : Word} (hs : (s.trans n).st = .opened)
    (ho : (s.trans n).opener = writerOpener w) : (s.opWdata w n v).1.irc = (s.bufferTxn w n ((s.trans n).waddr.toNat * 4) v).1.irc := by
  unfold State.opWdata
  dsimp only
  rw [if_neg (by simp [hs, ho])]
  rfl

theorem exec_txnWdata_of_refused {s : State} {w : Writer} {n : Nat} {v : Word} {k : BitVec 4} (hn : n < 4) (hs : (s.trans n).st = .opened)
    (ho : (s.trans n).opener = writerOpener w) (hk : s.bufferReason w n ((s.trans n).waddr.toNat * 4) v = some k) (h8 : k ≠ 8) :
    ∃ t, exec (.txnWdata w n v) s = .next t ∧ t.irc = (s.rejectArm ((s.trans n).waddr.toNat * 4)).irc := by
  have run : exec (.txnWdata w n v) s = .next ((s.opWdata w n v).1.refuse w (s.opWdata w n v).2) :=
    congrArg Host.Outcome.next (if_neg (Nat.not_le.2 hn))
  refine ⟨_, run, ?_⟩
  rw [State.refuse_irc, State.opWdata_irc_of_opened hs ho, State.bufferTxn_irc_of_refused hk h8]

/-- Transaction 0 of the Tack is open at word 1 of line event entry 0, which is armed. -/
def strayState : State :=
  (State.reset.modTrans 0 (fun x => { x with st := .opened, opener := .tack, waddr := 0x12001 })).modLineEvent 0 (fun e => { e with valid := true })

/-- The word is refused with reason 5 (R47). -/
theorem strayState_refuses : strayState.bufferReason .tack 0 ((strayState.trans 0).waddr.toNat * 4) 0 = some 5 := by
  have reg : regAt ((strayState.trans 0).waddr.toNat * 4) = some (.lineEvent 0 1) := by decide
  have reason : strayState.writeReason .tack true (.lineEvent 0 1) 0 = some 5 := by decide
  unfold State.bufferReason
  rw [reg]
  dsimp only
  rw [reason]
  rfl

/-- Refutes O49: the refused write to word 1 of an armed line event entry sets REJECTED of the entry and latches source 49
(R47, R377), so more than the transactions and the error record has changed. -/
theorem not_transactions : ¬ Obligations.Transactions := by
  intro h
  obtain ⟨-, -, -, refused, -⟩ := h
  obtain ⟨t, run, -, -, -, -, -, kept⟩ := refused strayState .tack 0 0 5 (by decide) rfl rfl strayState_refuses
  obtain ⟨u, run', irc⟩ := exec_txnWdata_of_refused (by decide) rfl rfl strayState_refuses (by decide)
  obtain rfl : t = u := by rw [run] at run'; exact Host.Outcome.next.inj run'
  have same : t.irc = strayState.irc := kept .irc (by decide)
  have latched : 49 ∈ t.irc.latch := irc ▸ State.rejectArm_latch (e := 0) (j := 1) (by decide)
  rw [same] at latched
  exact absurd latched (by decide)

end Sys2Proof.Machine
end
